-- ==== Sys2Proof/Word.lean ====
section
/-! DEFINITION. Word types, plain bit helpers and finite tables. -/

namespace Sys2Proof

abbrev Byte := BitVec 8
abbrev W16 := BitVec 16
abbrev W24 := BitVec 24
abbrev W32 := BitVec 32
abbrev W40 := BitVec 40
abbrev W64 := BitVec 64

/-- Bits `[lo + len - 1 : lo]` of a number. -/
def bits (v lo len : Nat) : Nat := (v / 2 ^ lo) % 2 ^ len

/-- Bit `i` of a number. -/
def bit (v i : Nat) : Bool := (v / 2 ^ i) % 2 == 1

/-- A flag as the number a register field holds. -/
def ofFlag (b : Bool) : Nat := if b then 1 else 0

/-- A finite table: the listed entries, every other key at the reader's default. -/
abbrev Tbl (κ α : Type) := List (κ × α)

namespace Tbl
variable {κ α : Type} [DecidableEq κ]

/-- The entry listed for a key, if one is. -/
def find : Tbl κ α → κ → Option α
  | [], _ => none
  | (k, v) :: t, q => if k = q then some v else find t q

/-- The entry of a key, `d` when none is listed. -/
def get (t : Tbl κ α) (d : α) (k : κ) : α := (find t k).getD d

/-- The table with the entry of one key replaced, or added when it has none. -/
def set : Tbl κ α → κ → α → Tbl κ α
  | [], k, v => [(k, v)]
  | (k', v') :: t, k, v => if k' = k then (k, v) :: t else (k', v') :: set t k v

/-- The table without the entries of one key. -/
def erase (t : Tbl κ α) (k : κ) : Tbl κ α := t.filter (fun e => e.1 ≠ k)

theorem find_set_same (t : Tbl κ α) (k : κ) (v : α) : find (set t k v) k = some v := by
  induction t with
  | nil => simp [set, find]
  | cons e t ih =>
    obtain ⟨k', v'⟩ := e
    by_cases h : k' = k <;> simp [set, find, h, ih]

theorem find_set_ne (t : Tbl κ α) {k q : κ} (v : α) (h : k ≠ q) :
    find (set t k v) q = find t q := by
  induction t with
  | nil => simp [set, find, h]
  | cons e t ih =>
    obtain ⟨k', v'⟩ := e
    by_cases hk : k' = k
    · subst hk; simp [set, find, h]
    · simp only [set, hk, if_false, find, ih]

@[simp] theorem get_set_same (t : Tbl κ α) (d : α) (k : κ) (v : α) : get (set t k v) d k = v := by
  simp [get, find_set_same]

theorem get_set_ne (t : Tbl κ α) (d : α) {k q : κ} (v : α) (h : k ≠ q) :
    get (set t k v) d q = get t d q := by
  simp [get, find_set_ne t v h]

end Tbl
end Sys2Proof
end

