-- ==== Sys2Proof/Logic.lean ====
section
/-! DEFINITION. What configuration frames make of the fabric: cells, grains, control sets, routing, clock trees, ports and I/O
cells, as plain data (04 Logic Fabric, Routing and I/O Cells). -/

namespace Sys2Proof.Machine

/-! Routing (04 R171 to R174) -/

/-- A routing tile of a bay: column 0 to 59 and grain row 0 to 239 (04 R171). -/
abbrev Tile := Nat × Nat

/-- The four directions, and the sides of a bay: ROW+, COL+, ROW−, COL−. -/
inductive Side where
  | up | right | down | left
  deriving DecidableEq, Repr

/-- The routing resources of a bay (04 R172), each with its place and number. -/
inductive Wire where
  | direct (t : Tile) (d : Side) (k : Nat)
  | double (t : Tile) (d : Side) (k : Nat)
  | hex (t : Tile) (d : Side) (k : Nat)
  | hlong (row k : Nat)
  | vlong (col k : Nat)
  deriving DecidableEq, Repr

/-- The five outputs of a cell (04 R162). -/
inductive CellOut where
  | f | j | s | q0 | q1
  deriving DecidableEq, Repr

/-- The export line of a bay among its I/O ports (18 R916). -/
def exportPort : Nat := 64

/-- A signal of a bay: a constant, an output of a cell, the carry out of a cell, a routing resource, bit `k` of I/O port `p`,
an incoming border signal, a bit of the spine, an output of the hard block at a tile. -/
inductive Sig where
  | const (b : Bool)
  | cell (t : Tile) (n : Nat) (o : CellOut)
  | carry (t : Tile) (n : Nat)
  | wire (w : Wire)
  | port (p k : Nat)
  | border (d : Side) (k : Nat)
  | spine (k : Nat)
  | block (t : Tile) (k : Nat)
  deriving DecidableEq, Repr, Inhabited

/-! Cells and grains (04 R158 to R170) -/

/-- The source of a D input: F or J, S, or X or Y (04 R161). -/
inductive DSel where
  | lut | sum | bypass
  deriving DecidableEq, Repr

/-- The configuration of a cell (04 R158 to R161): its table, the mode, G from X, inputs I0 to I5, X and Y, the D inputs of
FF0 and FF1. -/
structure Cell where
  lut : W64 := 0
  split : Bool := false
  gFromX : Bool := false
  ins : List Sig := []
  x : Sig := .const false
  y : Sig := .const false
  d0 : DSel := .lut
  d1 : DSel := .lut
  deriving DecidableEq, Repr

/-- The clock of a control set (04 R164). -/
inductive ClkSel where
  | global (n : Nat)
  | regional (n : Nat)
  deriving DecidableEq, Repr

/-- A control set (04 R164): no CE is constant 1, no SR constant 0. -/
structure CtlSet where
  clk : ClkSel := .global 0
  rising : Bool := true
  ce : Option Sig := none
  sr : Option Sig := none
  srInv : Bool := false
  srAsync : Bool := false
  frst : Option Nat := none
  deriving DecidableEq, Repr

/-- A flip-flop of a grain (04 R165): FF0 or FF1 of a cell, the control set it selects, INIT and SRVAL. -/
structure FlopCfg where
  cell : Nat
  ff1 : Bool
  set1 : Bool
  init : Bool
  srval : Bool
  deriving DecidableEq, Repr

/-- The source of CI of cell 0 (04 R168). -/
inductive CarryIn where
  | below | zero | one | x
  deriving DecidableEq, Repr

/-- A grain (04 R163 to R165, R168). -/
structure Grain where
  tile : Tile
  cells : List Cell
  ctl0 : CtlSet := {}
  ctl1 : CtlSet := {}
  flops : List FlopCfg := []
  ci : CarryIn := .zero
  deriving DecidableEq, Repr

/-! Clock trees (04 R175, R176) -/

/-- The source of a global tree: output `o` of synthesiser `n` of the slab, or the clock-capable pair of bank `k`. -/
inductive TreeSrc where
  | synth (n o : Nat)
  | pins (k : Nat)
  deriving DecidableEq, Repr, Inhabited

/-- The source of a regional segment: a global tree, or a bay signal through the regional buffer. -/
inductive SegSrc where
  | global (n : Nat)
  | bay (s : Sig)
  deriving DecidableEq, Repr

/-- What clocks flip-flops: a global tree, or the segment of regional tree `n` in clock row `r` of the bay that a bay signal
drives. -/
inductive Net where
  | global (n : Nat)
  | segment (r n : Nat)
  deriving DecidableEq, Repr

/-! Block attributes (05 R217, R218, R261) -/

/-- What DOUT shows after a write (05 R223). -/
inductive WriteMode where
  | readFirst | writeFirst | noChange
  deriving DecidableEq, Repr

/-- The attributes of a block as one of its ports meets them. Widths 8, 16, 32 and 64 are numbered 0 to 3. -/
structure BlockCfg where
  width : Fin 4 := 0
  mode : WriteMode := .readFirst
  outReg : Bool := true
  srval : W64 := 0
  common : Bool := false
  parityIn : Bool := false
  pfull : Nat := 8190
  pempty : Nat := 1
  deriving DecidableEq, Repr

/-- The attributes of a block (05 R261): MODE, the clocks of its ports (05 R217), and the rest; no PFULL_THR given is D − 2. -/
structure BlockAttr where
  fifo : Bool := false
  clkA : ClkSel := .global 0
  clkB : ClkSel := .global 0
  widthA : Fin 4 := 0
  widthB : Fin 4 := 0
  modeA : WriteMode := .readFirst
  modeB : WriteMode := .readFirst
  outRegA : Bool := true
  outRegB : Bool := true
  srvalA : W64 := 0
  srvalB : W64 := 0
  common : Bool := false
  parityIn : Bool := false
  pfull : Option Nat := none
  pempty : Nat := 1
  deriving DecidableEq, Repr

/-- Depth of a port of width number `w` (05 R218). -/
def portDepth (w : Fin 4) : Nat := 8192 / 2 ^ w.val

/-- The attributes as port A or B meets them; in FIFO mode both sides have the width of port A (05 R241). -/
def BlockAttr.port (a : BlockAttr) (pb : Bool) : BlockCfg :=
  let w := if a.fifo then a.widthA else if pb then a.widthB else a.widthA
  { width := w, mode := if pb then a.modeB else a.modeA, outReg := if pb then a.outRegB else a.outRegA
    srval := if pb then a.srvalB else a.srvalA, common := a.common, parityIn := a.parityIn
    pfull := a.pfull.getD (portDepth w - 2), pempty := a.pempty }

/-- Thresholds lie from 1 to D − 2 (05 R250, R261). -/
def BlockAttr.ok (a : BlockAttr) : Bool :=
  let d := portDepth a.widthA
  a.pfull.all (fun p => 1 ≤ p && p ≤ d - 2) && 1 ≤ a.pempty && a.pempty ≤ d - 2

/-! A bay -/

/-- What a bay's personality configures. Clamps: the value a fence holds a signal at, none for hold-last (13 R687). -/
structure BayLogic where
  grains : List Grain := []
  /-- the signal that drives each routing resource in use -/
  wires : Tbl Wire Sig := []
  /-- output bits and output enable of each I/O port in use, 0 to 63, and of the export line as port 64 (04 R199, 18 R916), and
  their clamps -/
  ports : Tbl Nat (List Sig × Sig) := []
  portClamp : Tbl Nat (Option Bool × Option Bool) := []
  /-- outgoing border signals in use, and their clamps; the registered ones of both directions with their global tree
  (04 R174): true for outgoing -/
  borders : Tbl (Side × Nat) Sig := []
  borderClamp : Tbl (Side × Nat) (Option Bool) := []
  borderReg : Tbl (Bool × Side × Nat) Nat := []
  /-- the source of each regional segment, by clock row of the bay and tree (04 R176) -/
  segs : Tbl (Nat × Nat) SegSrc := []
  /-- the clock of the 24 slices of an A column in a clock row of the bay (06 R283) -/
  sliceClk : Tbl (Nat × Nat) ClkSel := []
  /-- the attributes of each block memory, by clock row of the bay, column and block (05 R261) -/
  blocks : Tbl (Nat × Nat × Nat) BlockAttr := []
  deriving DecidableEq, Repr, Inhabited

/-- What an output of a hard block shows at its tile: a bit of a block memory's or FIFO's read side, of a slice's output, of a
Quartz receive channel, or what this model does not follow (04 R171). -/
inductive BlockPort where
  | bram (row col blk : Nat) (portB : Bool) (bit : Nat)
  | fifo (row col blk bit : Nat)
  | slice (n bit : Nat)
  | recv (ch bit : Nat)
  | other (k : Nat)
  deriving DecidableEq, Repr, Inhabited

/-! I/O cells (04 R189 to R199) -/

/-- VCCO levels and I/O standards (04 R190). -/
inductive Vcco where
  | v12 | v15 | v18 | v25 | v33
  deriving DecidableEq, Repr

inductive IoStd where
  | lvcmos | lvds | slvs
  deriving DecidableEq, Repr

/-- Pull options (04 R194). -/
inductive Pull where
  | none | up | down | keeper
  deriving DecidableEq, Repr

/-- A register of an I/O cell in use: single or double data rate, and its global tree (04 R196). -/
structure IoReg where
  ddr : Bool := false
  tree : Nat := 0
  deriving DecidableEq, Repr

/-- What configuration sets of an I/O cell (04 R193, R196 to R198): its registers, the steps of the input delay line, hysteresis,
drive strength and slew, and the two trees of its deserialiser and serialiser, the second at a quarter of the first's
frequency. -/
structure IoCellCfg where
  inReg : Option IoReg := none
  outReg : Option IoReg := none
  oeReg : Option IoReg := none
  delay : BitVec 6 := 0
  hysteresis : Bool := false
  drive : Nat := 8
  fast : Bool := false
  deser : Option (Nat × Nat) := none
  ser : Option (Nat × Nat) := none
  deriving DecidableEq, Repr

/-- What rim frames set for a user pin: the bay and port bound, the pull, the standard, termination, and whether it is the true
side of a differential pair (04 R189, R190, R194, R199). -/
structure PinCfg where
  bound : Option (Nat × Nat) := none
  pull : Pull := .none
  std : IoStd := .lvcmos
  term : Bool := false
  diff : Bool := false
  cell : IoCellCfg := {}
  deriving DecidableEq, Repr, Inhabited

end Sys2Proof.Machine
end

