-- ==== Sys2Proof/Syntax.lean ====
section
/-! DEFINITION. The commands the device takes: one constructor of `Instr` per row of the opcode table, and the types of their operands. -/

namespace Sys2Proof

/-- Sand response codes (08 R393). -/
inductive Resp where
  | okay | unmapped | size | denied | poweredDown | fenced | offline | notOwner
  | busy | uncorrectable | integrity | timeout | link
  deriving DecidableEq, Repr

/-- The number of a response code (08 R393). -/
def Resp.code : Resp → Nat
  | .okay => 0 | .unmapped => 1 | .size => 2 | .denied => 3 | .poweredDown => 4 | .fenced => 5
  | .offline => 6 | .notOwner => 7 | .busy => 8 | .uncorrectable => 9 | .integrity => 10
  | .timeout => 11 | .link => 12

/-- What has struck a stored word since its last access (a fact of the outside world): nothing, one bit,
two bits that stay, or a disturbance of this one read that a second read does not see. -/
inductive Upset where
  | none | single | double | glitch
  deriving DecidableEq, Repr

/-- A Sand initiator identity (08 R384); 0x4E and 0x4F are reserved and `WellFormed` refuses them. -/
abbrev Ini := Fin 116

/-- Access sizes: 1, 2, 4 or 8 bytes. -/
inductive Size where
  | b1 | b2 | b4 | b8
  deriving DecidableEq, Repr

/-- The bytes of an access size. -/
def Size.bytes : Size → Nat
  | .b1 => 1 | .b2 => 2 | .b4 => 4 | .b8 => 8

/-- What the outside world contributes to one Sand transaction: an upset of the word reached, a response the network
or the initiator interface makes in place of the target's (TIMEOUT, LINK), a port conflict (BUSY), and the answer of a bay's
personality where the target is a bay window (01 R41). -/
structure Env where
  upset : Upset := .none
  net : Option Resp := none
  busy : Bool := false
  bay : Resp × W64 := (.unmapped, 0)
  deriving DecidableEq, Repr

/-- What one word time brings at a lane's pins: the sync header (64b/66b) and the bits of the word as sent: 64 bits of
payload, or four 10-bit symbols in the low 40 bits (8b/10b), or 64 raw or PRBS bits. -/
structure LaneRx where
  hdr : BitVec 2 := 0b01
  data : W64 := 0
  deriving DecidableEq, Repr

/-- What a bay port presents at one transmit word time (03 R104, R105). `ctl` is the control flag of a 64b/66b word in
bit 0, or the four K flags. -/
structure PortWord where
  valid : Bool := false
  ctl : BitVec 4 := 0
  data : W64 := 0
  deriving DecidableEq, Repr

abbrev LaneId := Fin 192
abbrev QuadId := Fin 48

/-- The sources of a fabric reset (04 R181). -/
inductive FrstSrc where
  | startup | software | pin
  deriving DecidableEq, Repr

/-- A block memory: slab, clock row, die column and block number (05 R215). -/
structure BlockId where
  slab : Fin 4
  row : Fin 12
  col : Fin 240
  blk : Fin 12
  deriving DecidableEq, Repr

/-- REGCE and RSTREG of a block memory's port at an edge (05 R221). -/
structure RegPins where
  regce : Bool := true
  rstreg : Bool := false
  deriving DecidableEq, Repr

abbrev BayId := Fin 64
abbrev SliceIx := Fin 288

/-- One issue of one slice: the slice, what struck the program word and the one or two data words it reads, and whether its
cascade neighbour runs on another clock (06 R282). -/
structure SliceCx where
  bay : BayId
  slice : SliceIx
  fetch : Upset := .none
  memA : Upset := .none
  memB : Upset := .none
  deriving DecidableEq, Repr

/-- What a Sand request asks for (08 R387): the operation codes that are not reserved. -/
inductive SandOp where
  | read | write | writeP
  deriving DecidableEq, Repr

/-- A Sand request packet (08 R387): `len` is the number of bytes less one, `tag` the outstanding entry it takes, `data` the
bytes of a write, and `poison` the numbers of their 64-bit words that carry POISON (08 R391). -/
structure SandReq where
  ini : Ini
  op : SandOp
  addr : BitVec 48
  len : BitVec 12
  tag : BitVec 13 := 0
  pri : BitVec 2 := 0
  quiet : Bool := false
  priv : BitVec 2 := 3
  data : List Byte := []
  poison : List Nat := []
  deriving DecidableEq, Repr

/-- A Sand response packet as the initiator's interface sees it (08 R387, R389 to R391, R397): WRITE_RSP or READ_RSP, the
bytes of the latter and the numbers of their 64-bit words that carry POISON. -/
structure SandRsp where
  ini : Ini
  tag : BitVec 13
  gen : BitVec 3
  addr : BitVec 48
  resp : Resp
  write : Bool := false
  len : BitVec 12 := 7
  pri : BitVec 2 := 0
  data : List Byte := []
  poison : List Nat := []
  deriving DecidableEq, Repr

/-- A Quartz input of a switch in a slot: switches 0 to 63 lie in the bays of those numbers, 64 is Geode's (08 R376, R428). -/
structure QtzIn where
  sw : Fin 65
  port : Fin 72
  lane : Fin 4
  slot : Fin 128
  deriving DecidableEq, Repr

/-- What TABLE_WRITE writes (08 R433): a slot word of the master table that QTZ_TSEL names, the EQD of a receive channel, or
that of the Ledger decision input. -/
inductive QtzTarget where
  | slotWord (slot : Fin 128) (w : W64)
  | eqd (bay : BayId) (ch : Fin 8) (w : W32)
  | eqdLdg (w : W32)
  deriving DecidableEq, Repr

/-- An access to a Verdict replica's loader window (09 R474): initiator and privilege, replica, byte offset in its window and
number of bytes; a write brings the bytes. -/
structure WinReq where
  ini : Ini
  priv : BitVec 2
  rep : Fin 4
  off : BitVec 23
  len : Nat
  data : List Byte := []
  deriving DecidableEq, Repr

/-- What an I2C operation met on the bus: the target's acknowledge, the byte read, and SDA read 0 while driven high. -/
structure I2cEnd where
  ack : Bool
  byte : Byte
  arbLost : Bool := false
  deriving DecidableEq, Repr

/-- A service pin, an event source, a core: Clove 0 to 7, Saffron 8. -/
abbrev PinId := Fin 64
abbrev SourceId := Fin 512
abbrev CoreId := Fin 9

/-- What a tier read for paging finds (10 R534, R535): clean data, an uncorrectable word that a second read finds clean or
not, or another error response. -/
inductive TierRead where
  | clean | transient | lasting | refused
  deriving DecidableEq, Repr

/-- A general register of a core. -/
abbrev Gpr := Fin 32

/-- How a core's fetch of the instruction ends (14 R756 to R758): good, after a parity error of a cached line, good at the
second read, poisoned at both, or another error response. -/
inductive Fetch where
  | ok | parity | transient | poison
  | err (r : Resp)
  deriving DecidableEq, Repr

/-- The core that executes an instruction, and its fetch. -/
structure Cx where
  core : CoreId
  fetch : Fetch := .ok
  deriving DecidableEq, Repr

/-- The mailboxes of the warden (14 R774). -/
abbrev BoxId := Fin 8

/-- The supplies of the third group that a rule names, beside the VCCO rails (21 R992, R998). -/
inductive Supply where
  | vttLane09 | vttLane12 | vddqDmc
  deriving DecidableEq, Repr

/-- What causes a warm reset (20 R978): the request of a mailbox, LOCKUP of Saffron, the second expiry of watchdog 8. -/
inductive WarmCause where
  | request (box : BoxId)
  | lockup
  | watchdog
  deriving DecidableEq, Repr

/-- The far end of a session or of a request as its packet's headers give it (11 R583, R625). An IPv4 address stands in the
low 32 bits. -/
structure Peer where
  mac : BitVec 48 := 0
  v6 : Bool := false
  ip : BitVec 128 := 0
  udp : W16 := 0
  deriving DecidableEq, Repr

/-- The checksum of a received UDP datagram (11 R581). -/
inductive UdpSum where
  | good | bad | zero
  deriving DecidableEq, Repr

/-- What an IP header's payload is, as far as 11 R579 to R582 judge it. -/
inductive IpBody where
  | udp (port : W16) (sum : UdpSum)
  | icmp
  | other
  deriving DecidableEq, Repr

/-- What a frame carries above the MAC (11 R578 to R582): an IPv4 packet with the marks R578 judges, an IPv6 packet, or an ARP or
other message. -/
inductive NetPacket where
  | ip4 (dst : W32) (sumOk options fragment : Bool) (body : IpBody)
  | ip6 (dst : BitVec 128) (body : IpBody)
  | other
  deriving DecidableEq, Repr

/-- A received Ethernet frame as the MAC judges it (11 R575 to R582): destination, one 802.1Q tag's VID, length with FCS,
FCS good, an uncorrectable FEC codeword, a MAC control frame, and what it carries. -/
structure Frame where
  dst : BitVec 48
  vid : Option (BitVec 12) := none
  bytes : Nat := 64
  fcs : Bool := true
  uncorr : Bool := false
  control : Bool := false
  packet : NetPacket := .other
  deriving DecidableEq, Repr

/-- A KTP packet that reaches the engine over UDP (11 R585 to R587): header fields, the UDP length, whether its tag verifies
under the keys of its SA, and its payload in clear. `headers` are the 56 bytes a ring slot keeps (R633), `corr` the FEC
codewords corrected on the port since the last frame. -/
structure KtpRx where
  port : Fin 2
  peer : Peer := {}
  ver : Byte := 0x10
  kind : Byte := 1
  flags : Byte := 0
  stream : Byte := 0
  session : W32 := 0
  pn : W64 := 0
  seq : W64 := 0
  len : W16 := 0
  udpLen : W16 := 0
  tagOk : Bool := true
  payload : List Byte := []
  headers : List Byte := []
  corr : Nat := 0
  deriving DecidableEq, Repr

abbrev PortId := Fin 2
abbrev SlotId := Fin 8

/-- What restarts configuration (12 R646). -/
inductive RestartCause where
  | powerOn | nReset | nProg | software
  deriving DecidableEq, Repr

/-- Image sources, in the order of CFG_STATUS.SRC (12 R644). -/
inductive CfgSrc where
  | bus | ktp | debug
  deriving DecidableEq, Repr

/-- Another request that falls within a fence entry or a release under way (13 R691): none, an UNFENCE during the entry, an UNFENCE
during cycles 1 to 3 of the release before it, or a fence by the agent with this BY code during those cycles of the release. -/
inductive FenceOverlap where
  | none
  | unfenceInEntry
  | unfenceInRelease
  | fenceInRelease (agent : Fin 6)
  deriving DecidableEq, Repr

/-- What the outside world contributes to a Pager command: the outcome of a BIST and of its memory accesses. -/
structure PgrEnv where
  pass : Bool := true
  mem : Env := {}
  deriving DecidableEq, Repr

abbrev BankId := Fin 32
abbrev DmaId := Fin 32
abbrev ChanId := Fin 4

/-- What starts a short retraining (16 R842): a drift in oscillator steps, a channel temperature, or a write of DMC_RETRAIN. -/
inductive RetrainCause where
  | drift (steps : Nat)
  | temp (now : BitVec 8)
  | force (w : W32)
  deriving DecidableEq, Repr

/-- What training finds (16 R838): read and write window of each byte lane in 1/64 UI, and the channel temperature. -/
structure TrainResult where
  rd : Vector (BitVec 8) 10 := Vector.replicate 10 40
  wr : Vector (BitVec 8) 10 := Vector.replicate 10 40
  temp : BitVec 8 := 25
  deriving DecidableEq, Repr

abbrev SynId := Fin 54
abbrev DomId := Fin 96

/-- The clock gate registers (17 R882). -/
inductive GateReg where
  | top | geode | bay
  deriving DecidableEq, Repr

/-- The commands, one per row of the opcode table, in its order of chapters. -/
inductive Instr where
  -- 00 Scope: register access
  | registerWrite (ini : Ini) (addr : BitVec 48) (sz : Size) (data : W64) (env : Env)
  | rcRegisterRead (ini : Ini) (addr : BitVec 48) (sz : Size) (quiet : Bool) (env : Env)
  -- 02 Crossing Timebase and Timing Port
  | timingFrameReceived (frame : W40)
  | quartzPllLock
  | relockBoundaryStep
  | crossingBoundary
  | nop
  | cnr
  | orb
  | rsy
  | exa
  | cal
  | tpl
  | thr
  | trl
  | reservedCommand
  | userCommand
  | cnPresetMessage
  | queuedMessage
  | msgDrop
  | msgDataRead (quiet : Bool)
  | timingPortEnable (w : W32)
  | timingPortDisable (w : W32)
  | timingPortCdrLoss
  | timingPortCdrLock
  -- 03 Serial Lanes
  | laneEnable (lane : LaneId) (w : W32)
  | quadPllLock (quad : QuadId) (refKhz : BitVec 24)
  | quadPllUnlock (quad : QuadId) (refLost : Bool)
  | cdrLock (lane : LaneId)
  | cdrLoss (lane : LaneId) (signal : Bool)
  | laneWordReceived (lane : LaneId) (rx : LaneRx)
  | trainingBlockReceived (lane : LaneId) (body : BitVec 56) (eye : Byte) (req : BitVec 10)
  | tapRequestApply (lane : LaneId)
  | alignmentMarkerReceived (lane : LaneId) (body : BitVec 56) (skew : Byte)
  | laneWordTransmit (lane : LaneId) (port : PortWord) (idleTrain : Bool)
  | retrain (lane : LaneId)
  | trainingComplete (lane : LaneId)
  | trainingResponseTimeout (lane : LaneId) (echo : Bool)
  | bitslip (lane : LaneId)
  | bitslipDone (lane : LaneId)
  | laneBindingChange (lane : LaneId) (w : W32)
  | prbsLock (lane : LaneId)
  | prbsLost (lane : LaneId)
  | snap (lane : LaneId)
  | clr (lane : LaneId)
  | inject (lane : LaneId)
  | pstateRequest (lane : LaneId) (p : BitVec 2)
  | pstateDone (lane : LaneId)
  -- 04 Logic Fabric, Routing and I/O Cells
  | fabricResetAssert (slab : Fin 4) (n : Fin 4) (src : FrstSrc)
  | fabricResetRelease (slab : Fin 4) (n : Fin 4)
  | vccoLoss (bank : Fin 20)
  | vccoReturn (bank : Fin 20) (level : Machine.Vcco)
  -- 05 Block Memory and Hard FIFOs; portB selects port B
  | bramRead (id : BlockId) (portB : Bool) (addr : BitVec 13) (reg : RegPins) (upset : Upset) (clash : Bool)
  | bramWrite (id : BlockId) (portB : Bool) (addr : BitVec 13) (we : Byte) (din : W64) (reg : RegPins) (upset : Upset)
      (clash : Byte)
  | bramErrorRetry (id : BlockId) (portB : Bool) (reg : RegPins) (upset : Upset)
  | outputRegisterReset (id : BlockId) (portB : Bool) (regce : Bool)
  | fifoWrite (id : BlockId) (din : W64) (last : Bool) (pin : Byte)
  | fifoRead (id : BlockId) (strike : Bool) (tagStrike : Bool)
  | flush (id : BlockId)
  | flushPointRecord (id : BlockId)
  | flushComplete (id : BlockId)
  | fifoReset (id : BlockId)
  | fifoResetRelease (id : BlockId) (writeSide : Bool)
  | pointerSync (id : BlockId) (toWriteSide : Bool)
  -- 07 Arithmetic Slices: Instruction Set; `f` holds bits [33:0] of the instruction word, whose OP is the row's
  | sliceNop (cx : SliceCx) (f : BitVec 34)
  | waitx (cx : SliceCx) (f : BitVec 34)
  | halt (cx : SliceCx) (f : BitVec 34)
  | jmp (cx : SliceCx) (f : BitVec 34)
  | br (cx : SliceCx) (f : BitVec 34)
  | loop (cx : SliceCx) (f : BitVec 34)
  | loopr (cx : SliceCx) (f : BitVec 34)
  | seti (cx : SliceCx) (f : BitVec 34)
  | movr (cx : SliceCx) (f : BitVec 34)
  | sliceLd (cx : SliceCx) (f : BitVec 34)
  | ldd (cx : SliceCx) (f : BitVec 34)
  | st (cx : SliceCx) (f : BitVec 34)
  | rds (cx : SliceCx) (f : BitVec 34)
  | cinx (cx : SliceCx) (f : BitVec 34)
  | cout (cx : SliceCx) (f : BitVec 34)
  | sliceAdd (cx : SliceCx) (f : BitVec 34)
  | sliceSub (cx : SliceCx) (f : BitVec 34)
  | sliceAnd (cx : SliceCx) (f : BitVec 34)
  | sliceOr (cx : SliceCx) (f : BitVec 34)
  | sliceXor (cx : SliceCx) (f : BitVec 34)
  | shf (cx : SliceCx) (f : BitVec 34)
  | cmp (cx : SliceCx) (f : BitVec 34)
  | sliceAddi (cx : SliceCx) (f : BitVec 34)
  | mpy (cx : SliceCx) (f : BitVec 34)
  | mac (cx : SliceCx) (f : BitVec 34)
  | msu (cx : SliceCx) (f : BitVec 34)
  | macm (cx : SliceCx) (f : BitVec 34)
  | tap (cx : SliceCx) (f : BitVec 34)
  | adda (cx : SliceCx) (f : BitVec 34)
  | ash (cx : SliceCx) (f : BitVec 34)
  | rnd (cx : SliceCx) (f : BitVec 34)
  | cadd (cx : SliceCx) (f : BitVec 34)
  | maxs (cx : SliceCx) (f : BitVec 34)
  | mins (cx : SliceCx) (f : BitVec 34)
  | the (cx : SliceCx) (f : BitVec 34)
  | emit (cx : SliceCx) (f : BitVec 34)
  | t8add (cx : SliceCx) (f : BitVec 34)
  | t8sub (cx : SliceCx) (f : BitVec 34)
  | t8mac (cx : SliceCx) (f : BitVec 34)
  | t8max (cx : SliceCx) (f : BitVec 34)
  | t8min (cx : SliceCx) (f : BitVec 34)
  | t8pk (cx : SliceCx) (f : BitVec 34)
  | t8hs (cx : SliceCx) (f : BitVec 34)
  | illegalInstruction (cx : SliceCx) (w : W40)
  -- 06 Arithmetic Slices: Architecture
  | pmWriteBack (bay : BayId) (slice : SliceIx)
  | dmWriteBack (bay : BayId) (slice : SliceIx)
  | emitOutput (bay : BayId) (slice : SliceIx)
  | streamInputWord (bay : BayId) (slice : SliceIx) (data : W24)
  | runStartEdge (bay : BayId) (slice : SliceIx) (lag : BitVec 10)
  | srstRise (bay : BayId) (slice : SliceIx)
  | srstFall (bay : BayId) (slice : SliceIx)
  | sliceHalt
  | sliceGo
  | sliceResume
  | clrDm
  | clrDmDone (bay : BayId) (slice : SliceIx)
  | sliceDataWrite (lo : W32)
  | sliceDataRead (quiet : Bool) (upset : Upset)
  -- 08 Network on Chip
  | sandRequest (req : SandReq) (env : Env)
  | sandResponse (rsp : SandRsp)
  | sandTimeout (ini : Ini) (tag : BitVec 13)
  | sandInjection (req : SandReq) (cycles : Nat)
  | linkRetry (link : BitVec 12) (again : Bool)
  | linkClockSwitchDone
  | nocRateWrite (ini : Ini) (w : W32)
  | accessPointInject (bay : BayId) (req : SandReq) (cycles : Nat)
  | transmitChannelWrite (bay : BayId) (ch : Fin 8) (data : W64) (tag : W16)
  | quartzInjection (bay : BayId) (slot : Fin 128)
  | quartzFlitArrival (at_ : QtzIn) (upset : Bool)
  | receiveChannelUpdate (bay : BayId) (lane : Fin 4) (slot : Fin 128) (upset : Bool)
  | tableWrite (target : QtzTarget)
  | commit (w : W32)
  | commitCopyDone
  | commitBoundary
  | slabTableReload (slab : Fin 4)
  | trace (w : W32)
  | traceDone
  | probe (w : W32)
  | probeDone
  | probeLost
  -- 09 Verdict Table
  | verdictInit
  | lookup (port : Fin 8) (slot : Fin 128) (parity : Bool) (word : Upset)
  | verdictWriteBack
  | ueSecondRead (word : Upset)
  | portConfigApply
  | retire (w : W32)
  | retirementApply
  | restore (w : W32)
  | rbist (w : W32)
  | rbistDone (pass : Bool)
  | windowRead (req : WinReq) (word : Upset)
  | windowWrite (req : WinReq) (word : Upset)
  | arm (w : W32)
  | bankCopyDone (upsets : List (Fin 4 × Fin 16384 × Upset))
  | loaderGo
  | loaderDone
  | loadErr
  | swapGo (w : W32)
  | swap
  | disarm (w : W32)
  | patrolRead (rep : Fin 4) (word : Upset)
  -- 10 Ledger
  | fragment (ini : Ini) (off : BitVec 15) (posted poison : Bool) (data : List Byte)
  | quartzDecision (slot : Fin 128) (upsets : BitVec 4)
  | hostDecision (w : W64)
  | pageWrite (ctx : Nat) (tier : TierRead) (first second : Env)
  | chunkSend (first second : Env)
  | streamGrant (stream : Fin 8) (w : W32)
  | stall (stream : Fin 8)
  | stallDiscard (stream : Fin 8)
  | streamEnable (stream : Fin 8) (w : W32)
  | streamDisable (stream : Fin 8) (w : W32)
  | ledgerEnable (w : W32)
  | tierInitDone
  | ledgerDisable (w : W32)
  -- 11 Host Link and Transport Protocol
  | ethEnable (port : PortId) (w : W32)
  | linkUp (port : PortId)
  | linkDown (port : PortId) (aligned fecLock hiBer : Bool)
  | frameDrop (port : PortId) (f : Frame)
  | arpRequest (port : PortId) (target : W32)
  | neighbourSolicitation (port : PortId) (target : BitVec 128)
  | echoRequest (port : PortId) (v6 : Bool) (dst : BitVec 128) (payload : List Byte)
  | packetDiscard (p : KtpRx)
  | hello (p : KtpRx) (env : Env)
  | data (p : KtpRx) (env : Env)
  | ack (p : KtpRx)
  | verbRead (slot : SlotId) (env : Env)
  | verbWrite (slot : SlotId) (env : Env)
  | badVerb (slot : SlotId)
  | accept (p : KtpRx)
  | grant (p : KtpRx)
  | rekey (p : KtpRx)
  | close (p : KtpRx) (env : Env)
  | keepalive (p : KtpRx)
  | userControlMessage (p : KtpRx) (env : Env)
  | sessionCloseWrite (slot : SlotId) (w : W32)
  | retransmitTimeout (slot : SlotId) (stream : Byte) (seq : W64)
  | ackDelay (slot : SlotId)
  | keepaliveTimer (slot : SlotId)
  | openingTimeout (slot : SlotId)
  | holdTimeout (slot : SlotId)
  | chunkTake (first second : Env)
  | controlRingSend (env : Env)
  | ktpEnable (w : W32)
  | openSession (box : BoxId) (env : Env)
  -- 12 Configuration Stream and Start-up
  | configRestart (cause : RestartCause) (mode : BitVec 3) (id : BitVec 4)
  | blankingDone
  | nprogLow
  | syncWord (src : CfgSrc)
  | imageHeader (hdr : List Byte)
  | block (len : W32) (body tag : List Byte)
  | nopPacket
  | writePacket
  | frames
  | check
  | start
  | confDoneHigh
  | sequenceStep (k : Fin 9)
  | seqTimeout (k : Fin 9)
  | seqGo (w : W32)
  | doneFell
  -- 13 Bays, Pager and Scrubbing
  | bayFence (bay : BayId) (w : W32) (overlap : FenceOverlap)
  | unfence (bay : BayId) (w : W32) (overlap : FenceOverlap)
  | slabFence (w : W32)
  | slabUnfence (w : W32)
  | icpArm (slab : Fin 4) (w : W32)
  | icpDataWrite (slab : Fin 4) (off : BitVec 12) (data : List Byte)
  | icpAbort (slab : Fin 4) (w : W32)
  | cache (w : W64)
  | capture (w : W64)
  | load (w : W64)
  | relocate (w : W64)
  | relocateCommit (env : PgrEnv)
  | spare (w : W64)
  | blank (w : W64)
  | bist (w : W64)
  | readback (w : W64)
  | free (w : W64)
  | resultRead (quiet : Bool)
  | pagerAbort (w : W32)
  | scrubFrameRead (slab : Fin 4) (first second : Upset)
  | pagerCommandDone (env : PgrEnv)
  -- 14 Clove and Saffron Cores
  | add (cx : Cx) (rd ra rb : Gpr)
  | sub (cx : Cx) (rd ra rb : Gpr)
  | and (cx : Cx) (rd ra rb : Gpr)
  | or (cx : Cx) (rd ra rb : Gpr)
  | xor (cx : Cx) (rd ra rb : Gpr)
  | sll (cx : Cx) (rd ra rb : Gpr)
  | srl (cx : Cx) (rd ra rb : Gpr)
  | sra (cx : Cx) (rd ra rb : Gpr)
  | slt (cx : Cx) (rd ra rb : Gpr)
  | sltu (cx : Cx) (rd ra rb : Gpr)
  | mul (cx : Cx) (rd ra rb : Gpr)
  | mulh (cx : Cx) (rd ra rb : Gpr)
  | mulhu (cx : Cx) (rd ra rb : Gpr)
  | div (cx : Cx) (rd ra rb : Gpr)
  | divu (cx : Cx) (rd ra rb : Gpr)
  | rem (cx : Cx) (rd ra rb : Gpr)
  | remu (cx : Cx) (rd ra rb : Gpr)
  | addi (cx : Cx) (rd ra : Gpr) (imm : W16)
  | andi (cx : Cx) (rd ra : Gpr) (imm : W16)
  | ori (cx : Cx) (rd ra : Gpr) (imm : W16)
  | xori (cx : Cx) (rd ra : Gpr) (imm : W16)
  | slli (cx : Cx) (rd ra : Gpr) (sh : BitVec 6)
  | srli (cx : Cx) (rd ra : Gpr) (sh : BitVec 6)
  | srai (cx : Cx) (rd ra : Gpr) (sh : BitVec 6)
  | slti (cx : Cx) (rd ra : Gpr) (imm : W16)
  | sltiu (cx : Cx) (rd ra : Gpr) (imm : W16)
  | lui (cx : Cx) (rd : Gpr) (imm : W16)
  | shori (cx : Cx) (rd ra : Gpr) (imm : W16)
  | lb (cx : Cx) (rd ra : Gpr) (imm : W16) (env : Env)
  | lbu (cx : Cx) (rd ra : Gpr) (imm : W16) (env : Env)
  | lh (cx : Cx) (rd ra : Gpr) (imm : W16) (env : Env)
  | lhu (cx : Cx) (rd ra : Gpr) (imm : W16) (env : Env)
  | lw (cx : Cx) (rd ra : Gpr) (imm : W16) (env : Env)
  | lwu (cx : Cx) (rd ra : Gpr) (imm : W16) (env : Env)
  | ld (cx : Cx) (rd ra : Gpr) (imm : W16) (env : Env)
  | sb (cx : Cx) (rd ra : Gpr) (imm : W16) (env : Env)
  | sh (cx : Cx) (rd ra : Gpr) (imm : W16) (env : Env)
  | sw (cx : Cx) (rd ra : Gpr) (imm : W16) (env : Env)
  | sd (cx : Cx) (rd ra : Gpr) (imm : W16) (env : Env)
  | ldx (cx : Cx) (rd ra : Gpr) (env : Env)
  | stx (cx : Cx) (rd ra rb : Gpr) (env : Env)
  | beq (cx : Cx) (ra rb : Gpr) (off : W16)
  | bne (cx : Cx) (ra rb : Gpr) (off : W16)
  | blt (cx : Cx) (ra rb : Gpr) (off : W16)
  | bge (cx : Cx) (ra rb : Gpr) (off : W16)
  | bltu (cx : Cx) (ra rb : Gpr) (off : W16)
  | bgeu (cx : Cx) (ra rb : Gpr) (off : W16)
  | jal (cx : Cx) (rd : Gpr) (off : BitVec 21)
  | jalr (cx : Cx) (rd ra : Gpr) (imm : W16)
  | csrr (cx : Cx) (rd : Gpr) (num : BitVec 12)
  | csrw (cx : Cx) (rd ra : Gpr) (num : BitVec 12)
  | csrs (cx : Cx) (rd ra : Gpr) (num : BitVec 12)
  | csrc (cx : Cx) (rd ra : Gpr) (num : BitVec 12)
  | dclean (cx : Cx) (ra : Gpr) (imm : W16) (env : Env)
  | dinv (cx : Cx) (ra : Gpr) (imm : W16) (env : Env)
  | dflush (cx : Cx) (ra : Gpr) (imm : W16) (env : Env)
  | iinv (cx : Cx) (ra : Gpr) (imm : W16) (env : Env)
  | dflushAll (cx : Cx) (ra : Gpr) (imm : W16) (env : Env)
  | iinvAll (cx : Cx) (ra : Gpr) (imm : W16) (env : Env)
  | ecall (cx : Cx)
  | tret (cx : Cx)
  | wfi (cx : Cx)
  | fence (cx : Cx)
  | ifence (cx : Cx)
  | brk (cx : Cx)
  | coreIllegal (cx : Cx) (word : W32)
  | storeErr (core : CoreId)
  | interrupt (core : CoreId)
  | reservationExpiry (core : CoreId)
  | coreStart (core : Fin 8) (w : W64)
  | coreStop (core : Fin 8) (w : W64)
  | stewardBoot (flash : List W32)
  | requestGo (box : BoxId) (w : W32)
  | lock (box : BoxId)
  | loadPatch (box : BoxId) (env : Env)
  | coreService (box : BoxId) (responds : Bool) (env : Env)
  | sign (box : BoxId) (env : Env)
  | random (box : BoxId)
  | revoke (box : BoxId)
  | watchdogKick (w : CoreId) (data : W32)
  | watchdogFirstExpiry (w : CoreId)
  | watchdogSecondExpiry (w : CoreId) (responds : Bool) (env : Env)
  -- 15 Scratchpad Banks
  | handover (box : BoxId)
  | scratchpadRead (req : SandReq) (env : Env)
  | scratchpadWrite (req : SandReq) (env : Env)
  | mergeEntryWrite (bank : BankId) (entry : Fin 8)
  | scratchpadWriteBack (bank : BankId)
  | spdHandover (bank : BankId) (w : W32)
  | handoverDone (bank : BankId)
  | dmaGo (ch : DmaId) (w : W32)
  | dmaDone (ch : DmaId) (env : Env)
  | dmaHalt (ch : DmaId) (at_ : W32) (resp : Resp) (write : Bool)
  | dmaAbort (ch : DmaId) (w : W32) (moved : W32)
  -- 16 DDR5 and Memory Encryption
  | memKey (box : BoxId) (env : Env)
  | dmcEnable (ch : ChanId) (w : W32)
  | dmcInitDone (ch : ChanId) (complete : Bool) (a b : TrainResult)
  | dmcDisable (ch : ChanId) (w : W32)
  | dmcConfigWrite (ch : ChanId) (w : W32)
  | shortRetrain (ch : ChanId) (cause : RetrainCause)
  | retrained (ch : ChanId) (t : TrainResult)
  | freqGo (ch : ChanId) (w : W32)
  | freqDone (ch : ChanId) (t : TrainResult)
  | refresh (ch : ChanId) (urgent : Bool)
  | urgencyMiss (ch : ChanId) (port : Fin 6)
  | dramRead (req : SandReq) (env : Env)
  | dramWrite (req : SandReq) (env : Env)
  | dramPartialWrite (req : SandReq) (env : Env)
  | channelRetire (ch : ChanId) (w : W32)
  | meeRegionEnable (region : Fin 8) (w : W32) (ini : Ini)
  -- 17 Clocks and Power
  | powerDomain (box : BoxId)
  | powerState (box : BoxId)
  | monitorTrip (m : Fin 3) (count : W24) (silent : Bool)
  | monitorStable (m : Fin 3) (count : W24)
  | synthEnable (n : SynId) (w : W32)
  | synthLock (n : SynId) (inputKhz : BitVec 24)
  | heldTimeout (n : SynId)
  | revert (n : SynId)
  | rampStep (n : SynId)
  | gateWrite (reg : GateReg) (w : W64) (ini : Ini)
  | domainPowerOff (d : DomId)
  | domainPowerOn (d : DomId)
  | domainDone (d : DomId)
  | wake (source : Fin 12)
  | padRelease (w : W32)
  | comparatorSample (c : Fin 8) (value : BitVec 12)
  -- 18 Service Pins and Event Controller
  | pinFunctionSwitch (pin : PinId) (w : W32) (ini : Ini)
  | switchWindowEnd (pin : PinId)
  | pinLevelChange (pin : PinId) (high : Bool)
  | uartDataWrite (u : Fin 4) (w : W32)
  | uartDataRead (u : Fin 4) (quiet : Bool)
  | uartByteReceived (u : Fin 4) (byte : Byte)
  | spiDataWrite (c : Fin 2) (w : W32)
  | i2cStart (c : Fin 4)
  | i2cStop (c : Fin 4)
  | i2cWrite (c : Fin 4) (byte : Byte)
  | i2cReadAck (c : Fin 4)
  | i2cReadNack (c : Fin 4)
  | timerWrap (t : Fin 8)
  | eventSourceRise (n : SourceId) (stays : Bool)
  | evcClaim (target : CoreId) (quiet : Bool)
  | evcComplete (target : CoreId) (w : W32)
  | spiShiftDone (c : Fin 2) (byte : Byte)
  | i2cOperationDone (c : Fin 4) (e : I2cEnd)
  | uartByteSent (u : Fin 4)
  -- 19 Debug Port and Run Control; a scan row is an Update-IR of its instruction and one scan of its data register
  | tapReset (trst : Bool)
  | extest (cells : BitVec 3072) (levels : BitVec 960)
  | samplePreload (cells : BitVec 3072) (levels : BitVec 960)
  | idcode
  | clamp
  | highz
  | bypass (code : Byte)
  | vapChal (dr : BitVec 256)
  | vapAuth (dr : BitVec 256)
  | vapAcc (dr : BitVec 40)
  | levelSet (w : W32)
  | vapRead (env : Env)
  | vapWrite (env : Env)
  | image
  | debugWake (tck : Bool)
  | dbgHalt (w : W32)
  | haltForced (core : CoreId)
  | dbgResume (w : W32)
  | dbgStep (w : W32)
  | crossTrigger (w : W32)
  | stimulusStore (core : Fin 8) (off : Byte) (data : List Byte)
  | vtOutWrite (core : CoreId) (w : W32)
  | vtOutRead (core : CoreId) (quiet : Bool)
  | vtInWrite (core : CoreId) (w : W32)
  | vtInRead (core : CoreId)
  -- 20 Faults, Containment and Reset; 21 Electrical Characteristics and Package
  | warmReset (cause : WarmCause)
  | nreset (ns : Nat) (mode : BitVec 3) (id : BitVec 4)
  | powerOnReset (mode : BitVec 3) (id : BitVec 4) (rails : BitVec 4) (off : List Supply)
  | vccFabLoss (slab : Fin 4)
  | vccFabReturn (slab : Fin 4)
  deriving DecidableEq, Repr

end Sys2Proof
end

