-- ==== Sys2Proof/Decode.lean ====
section
/-! DEFINITION. Commands that words spell. The opcode table gives no row any bits: its rows are the device's operations and
events, so no word spells a command. -/

namespace Sys2Proof

/-- The command that a table word spells: none, since no row of the table gives bits. -/
def decodeTableWord (_nbits _w : Nat) : Option Instr := none

end Sys2Proof
end

