-- ==== Sys2Proof/Config.lean ====
section
/-! DEFINITION. What the part or the outside world fixes and the spec does not state: constants without a body. -/

namespace Sys2Proof

/-- The least receive latency a crossing-locked lane reports at its k-th free draw, below the bound of 03 R135. -/
opaque Config.laneLatency : Nat → Nat
/-- LNE_TX_LAT.CYCLES of a lane (03 R137). -/
opaque Config.laneTxLatency : Nat → Nat

/-- The n-th free 64-bit value: wherever the spec calls a delivered value undefined or leaves it unstated. -/
opaque Config.freeWord : Nat → W64
/-- The n-th free natural number: wherever the spec leaves a choice among states open. -/
opaque Config.freeNat : Nat → Nat

/-- The control bits of a slot with the valid, parity and probe bits of its lanes, and the sideband of a Sand flit with its POISON
bits: the places of these bits and the CRC-16 are not given (08 R378, R391, R410, R419). -/
opaque Config.slotControl : List Bool → List Bool → List Bool → W16
opaque Config.sideband : BitVec 256 → List Bool → W64

/-! What the toolchain's type 0 frames mean: their contents are reserved (04 R212). Frames are given by address. -/

/-- The logic a bay's frames configure. -/
opaque Config.logicOf : Nat → List (Nat × List W32) → Machine.BayLogic
/-- The hard-block output that reaches a tile at its port k: column type apart, the device model of the toolchain gives it
(04 R171). -/
opaque Config.blockPort : Machine.Tile → Nat → Machine.BlockPort
/-- Which of six columns or tiles in turn has the taps of long lines (04 R172). -/
opaque Config.longTap : Nat
/-- The slices of a bay whose frames set RUN_AT_START (06 R290). -/
opaque Config.runAtStart : Nat → List (Nat × List W32) → List Nat
/-- What a slab's rim frames set for its user pins, numbered bank × 48 + pin on the device. -/
opaque Config.pinsOf : Nat → List (Nat × List W32) → List (Nat × Machine.PinCfg)
/-- The source of fabric reset n of a slab (0 start-up, 1 software, 2 a pin), and that pin (04 R181). -/
opaque Config.frstOf : Nat → List (Nat × List W32) → Nat → Nat × Nat
/-- The sources of a slab's global trees in use (04 R175). -/
opaque Config.treesOf : Nat → List (Nat × List W32) → List (Nat × Machine.TreeSrc)
/-- A frame with the position-dependent bits of 04 R213 rewritten for a bay: bay, frame address there, words. -/
opaque Config.placeFrame : Nat → Nat → List W32 → List W32

/-- A frame of columns 240 to 244 or 248 with its position-dependent bits rewritten for the move of a bay to another (04 R200,
R213, 13 R714): bays, frame address, words. -/
opaque Config.rebindFrame : Nat → Nat → Nat → List W32 → List W32

/-! Cryptography and fused keys (12 R651 to R654, 14 R786): no spec of the functions is given. -/

opaque Config.sha384 : List Byte → List Byte
/-- ECDSA P-384: public key, hash, signature. -/
opaque Config.p384Verify : List Byte → List Byte → List Byte → Bool
/-- AES-256-GCM opening: key, nonce, additional data, ciphertext, tag; none when the tag fails. -/
opaque Config.gcmOpen : List Byte → List Byte → List Byte → List Byte → List Byte → Option (List Byte)
/-- The bytes of a memory key blob, and the key that one gives; none when its tag fails (14 MEM_KEY): no form is given. -/
opaque Config.blobBytes : Nat
opaque Config.unwrapBlob : List Byte → Option (List Byte)
/-- The fused hash of authentication key slot i, and image key slot i. -/
opaque Config.authHash : Nat → List Byte
opaque Config.imageKey : Nat → List Byte
/-- An ECDSA P-384 signature of a hash under the identity key, at the k-th draw. -/
opaque Config.p384Sign : List Byte → Nat → List Byte
/-- The x-coordinate of the ECDH P-384 point that a public key and the device's k-th ephemeral key share (11 R612). -/
opaque Config.ecdhX : List Byte → Nat → List Byte
/-- HKDF with SHA-384 (RFC 5869): input keying material, salt, info, length in bytes. -/
opaque Config.hkdf384 : List Byte → List Byte → List Byte → Nat → List Byte
/-- HMAC-SHA-256 under the debug unlock key: its 32 bytes, the first at the least significant end, as VAP_AUTH takes them (19 R947). -/
opaque Config.unlockHmac : List Byte → BitVec 256

/-! Fused identity (11 R642, R1009): serial number, MAC base before its fixed bits, bytes 1 to 96 of the public key. -/

opaque Config.serial : W64
opaque Config.macBits : BitVec 48
opaque Config.idKeyByte : Nat → Byte

end Sys2Proof
end

