-- ==== Sys2Proof/Machine/Reg.lean ====
section
/-! DEFINITION. Control and status registers as data: one row of a register map, and one field of it (00 R5 to R13, 01 R43). -/

namespace Sys2Proof.Machine

/-- One row of a register map. Index `i` of the row lies at outer copy `i / inner`, inner copy
`i % inner`. The masks say which bits have each access code of R13; a bit in none of them is RO, WO or reserved. -/
structure Reg where
  unit : Nat
  off : Nat
  bits : Nat := 32
  stride : Nat := 4
  inner : Nat := 1
  stride2 : Nat := 0
  outer : Nat := 1
  rst : Nat := 0
  rw : Nat := 0
  rwl : Nat := 0
  w1c : Nat := 0
  w1s : Nat := 0
  rc : Nat := 0
  deriving DecidableEq, Repr

/-- One field of a register: `len` bits from bit `lo`. -/
structure Fld where
  reg : Reg
  lo : Nat
  len : Nat
  deriving DecidableEq, Repr

/-- The base of the control and status register window (01 R35, R43). -/
def csrBase : Nat := 0x00F000000000

/-- The bus address of index `i` of a register row (01 R43). -/
def Reg.addr (r : Reg) (i : Nat) : Nat :=
  csrBase + r.unit * 0x10000 + r.off + (i / r.inner) * r.stride2 + (i % r.inner) * r.stride

/-- How many registers the row names. -/
def Reg.count (r : Reg) : Nat := r.inner * r.outer

/-- The same rule as an index function for a two-level row. -/
def Reg.ix (r : Reg) (o i : Nat) : Nat := o * r.inner + i

/-- The index of the row whose register holds byte offset `a` (bus address), with the byte within it. -/
def Reg.locate (r : Reg) (a : Nat) : Option (Nat × Nat) :=
  let base := r.addr 0
  if a < base then none
  else
    let d := a - base
    let o := if r.stride2 = 0 then 0 else d / r.stride2
    let d' := d - o * r.stride2
    let i := d' / r.stride
    let b := d' % r.stride
    if o < r.outer ∧ i < r.inner ∧ b < r.bits / 8 then some (o * r.inner + i, b) else none

end Sys2Proof.Machine
end

