-- ==== Sys2Proof/Machine/RegMap.lean ====
section
/-! DEFINITION. The register maps of the spec, one definition per register row and one per named field.
The offsets, widths, resets and access codes are those of the map tables (02 R91, 03 R156, 06 R322, 08 R448 and R450,
09 R493, 10 R567, 11 R636, R639 and R642, 12 R680, 13 R724, R726 and R728, 14 R793 and R794, 15 R827 and R828,
16 R863 and R864, 17 R908 and R910, 18 R938 and R939, 19 R971). A reset that differs by index stands in `State.reset`. -/

namespace Sys2Proof.Machine

-- 02_crossing_timebase
def R.TMG_CTRL : Reg := { unit := 4, off := 0, rst := 0x20, rw := 0xffff1 }
def F.TMG_CTRL_EN : Fld := ⟨R.TMG_CTRL, 0, 1⟩
def F.TMG_CTRL_CMD_DELAY : Fld := ⟨R.TMG_CTRL, 4, 4⟩
def F.TMG_CTRL_EXA_OFFSET : Fld := ⟨R.TMG_CTRL, 8, 12⟩
def R.TMG_FREQ : Reg := { unit := 4, off := 4, rst := 0x9c40, rw := 0x1ffff }
def F.TMG_FREQ_KHZ : Fld := ⟨R.TMG_FREQ, 0, 17⟩
def R.TMG_QUARTZ : Reg := { unit := 4, off := 8, rst := 0x20, rw := 0xff }
def F.TMG_QUARTZ_N : Fld := ⟨R.TMG_QUARTZ, 0, 8⟩
def R.TMG_STATUS : Reg := { unit := 4, off := 0xc, rst := 0x20 }
def F.TMG_STATUS_CDR_LOCK : Fld := ⟨R.TMG_STATUS, 0, 1⟩
def F.TMG_STATUS_FRAME_LOCK : Fld := ⟨R.TMG_STATUS, 1, 1⟩
def F.TMG_STATUS_QTZ_LOCK : Fld := ⟨R.TMG_STATUS, 2, 1⟩
def F.TMG_STATUS_HOLDOVER : Fld := ⟨R.TMG_STATUS, 3, 1⟩
def F.TMG_STATUS_LAT_VALID : Fld := ⟨R.TMG_STATUS, 4, 1⟩
def F.TMG_STATUS_CN_SUSPECT : Fld := ⟨R.TMG_STATUS, 5, 1⟩
def F.TMG_STATUS_EXT_THROTTLE : Fld := ⟨R.TMG_STATUS, 6, 1⟩
def F.TMG_STATUS_TX_BUSY : Fld := ⟨R.TMG_STATUS, 7, 1⟩
def F.TMG_STATUS_TX_THROTTLE : Fld := ⟨R.TMG_STATUS, 8, 1⟩
def R.TMG_ERR : Reg := { unit := 4, off := 0x10, w1c := 0xff }
def F.TMG_ERR_LOCK_LOST : Fld := ⟨R.TMG_ERR, 0, 1⟩
def F.TMG_ERR_CHECK_ERR : Fld := ⟨R.TMG_ERR, 1, 1⟩
def F.TMG_ERR_RSVD_CMD : Fld := ⟨R.TMG_ERR, 2, 1⟩
def F.TMG_ERR_ORBIT_ERR : Fld := ⟨R.TMG_ERR, 3, 1⟩
def F.TMG_ERR_MSG_DROP : Fld := ⟨R.TMG_ERR, 4, 1⟩
def F.TMG_ERR_CFG_REFUSED : Fld := ⟨R.TMG_ERR, 5, 1⟩
def F.TMG_ERR_MSG_READY : Fld := ⟨R.TMG_ERR, 6, 1⟩
def F.TMG_ERR_CMD_COLLIDE : Fld := ⟨R.TMG_ERR, 7, 1⟩
def R.TMG_ERR_EN : Reg := { unit := 4, off := 0x14, rw := 0xff }
def R.TMG_CN : Reg := { unit := 4, off := 0x18, bits := 64, stride := 8 }
def F.TMG_CN_CN : Fld := ⟨R.TMG_CN, 0, 64⟩
def R.TMG_CN_PRESET : Reg := { unit := 4, off := 0x20, bits := 64, stride := 8, rw := 0xffffffffffffffff }
def F.TMG_CN_PRESET_PRESET : Fld := ⟨R.TMG_CN_PRESET, 0, 64⟩
def R.TMG_ORBIT_CN : Reg := { unit := 4, off := 0x28, bits := 64, stride := 8 }
def F.TMG_ORBIT_CN_CN : Fld := ⟨R.TMG_ORBIT_CN, 0, 64⟩
def R.TMG_ORBIT : Reg := { unit := 4, off := 0x30, rw := 0xfffff }
def F.TMG_ORBIT_LEN : Fld := ⟨R.TMG_ORBIT, 0, 20⟩
def R.TMG_ORBIT_COUNT : Reg := { unit := 4, off := 0x34 }
def F.TMG_ORBIT_COUNT_COUNT : Fld := ⟨R.TMG_ORBIT_COUNT, 0, 32⟩
def R.TMG_RX_LATENCY : Reg := { unit := 4, off := 0x38 }
def F.TMG_RX_LATENCY_CYCLES : Fld := ⟨R.TMG_RX_LATENCY, 0, 8⟩
def R.TMG_CHECK_ERRS : Reg := { unit := 4, off := 0x3c, rc := 0xffffffff }
def F.TMG_CHECK_ERRS_COUNT : Fld := ⟨R.TMG_CHECK_ERRS, 0, 32⟩
def R.TMG_TX_CTRL : Reg := { unit := 4, off := 0x40, rst := 1, rw := 0xff }
def F.TMG_TX_CTRL_FORCE_BUSY : Fld := ⟨R.TMG_TX_CTRL, 0, 1⟩
def F.TMG_TX_CTRL_FORCE_THROTTLE : Fld := ⟨R.TMG_TX_CTRL, 1, 1⟩
def F.TMG_TX_CTRL_ACCEPT_EN : Fld := ⟨R.TMG_TX_CTRL, 2, 1⟩
def F.TMG_TX_CTRL_USER : Fld := ⟨R.TMG_TX_CTRL, 3, 5⟩
def R.TMG_MSG_STATUS : Reg := { unit := 4, off := 0x44 }
def F.TMG_MSG_STATUS_COUNT : Fld := ⟨R.TMG_MSG_STATUS, 0, 5⟩
def F.TMG_MSG_STATUS_WORDS : Fld := ⟨R.TMG_MSG_STATUS, 8, 5⟩
def R.TMG_MSG_DATA : Reg := { unit := 4, off := 0x48, rst := 0x20000 }
def F.TMG_MSG_DATA_WORD : Fld := ⟨R.TMG_MSG_DATA, 0, 16⟩
def F.TMG_MSG_DATA_LAST : Fld := ⟨R.TMG_MSG_DATA, 16, 1⟩
def F.TMG_MSG_DATA_EMPTY : Fld := ⟨R.TMG_MSG_DATA, 17, 1⟩
def R.TMG_LAT_EPOCH : Reg := { unit := 4, off := 0x4c }
def F.TMG_LAT_EPOCH_EPOCH : Fld := ⟨R.TMG_LAT_EPOCH, 0, 32⟩
-- 03_serial_lanes
def R.LNE_LANE_CTRL : Reg := { unit := 5, off := 0, stride := 0x100, inner := 192, rst := 0x180, rw := 0xfffff }
def F.LNE_LANE_CTRL_EN : Fld := ⟨R.LNE_LANE_CTRL, 0, 1⟩
def F.LNE_LANE_CTRL_PCS : Fld := ⟨R.LNE_LANE_CTRL, 1, 2⟩
def F.LNE_LANE_CTRL_DIV : Fld := ⟨R.LNE_LANE_CTRL, 3, 3⟩
def F.LNE_LANE_CTRL_XLOCK : Fld := ⟨R.LNE_LANE_CTRL, 6, 1⟩
def F.LNE_LANE_CTRL_SCRAMBLE : Fld := ⟨R.LNE_LANE_CTRL, 7, 1⟩
def F.LNE_LANE_CTRL_AUTO_ALIGN : Fld := ⟨R.LNE_LANE_CTRL, 8, 1⟩
def F.LNE_LANE_CTRL_LOOPBACK : Fld := ⟨R.LNE_LANE_CTRL, 9, 3⟩
def F.LNE_LANE_CTRL_PSTATE : Fld := ⟨R.LNE_LANE_CTRL, 12, 2⟩
def F.LNE_LANE_CTRL_TX_INV : Fld := ⟨R.LNE_LANE_CTRL, 14, 1⟩
def F.LNE_LANE_CTRL_RX_INV : Fld := ⟨R.LNE_LANE_CTRL, 15, 1⟩
def F.LNE_LANE_CTRL_DSK_GRP : Fld := ⟨R.LNE_LANE_CTRL, 16, 4⟩
def R.LNE_LANE_STATUS : Reg := { unit := 5, off := 4, stride := 0x100, inner := 192 }
def F.LNE_LANE_STATUS_CDR_LOCK : Fld := ⟨R.LNE_LANE_STATUS, 0, 1⟩
def F.LNE_LANE_STATUS_BLOCK_LOCK : Fld := ⟨R.LNE_LANE_STATUS, 1, 1⟩
def F.LNE_LANE_STATUS_DESKEWED : Fld := ⟨R.LNE_LANE_STATUS, 2, 1⟩
def F.LNE_LANE_STATUS_TRAINING : Fld := ⟨R.LNE_LANE_STATUS, 3, 1⟩
def F.LNE_LANE_STATUS_TRAINED : Fld := ⟨R.LNE_LANE_STATUS, 4, 1⟩
def F.LNE_LANE_STATUS_FALLBACK : Fld := ⟨R.LNE_LANE_STATUS, 5, 1⟩
def F.LNE_LANE_STATUS_PARTNER_READY : Fld := ⟨R.LNE_LANE_STATUS, 6, 1⟩
def F.LNE_LANE_STATUS_PSTATE : Fld := ⟨R.LNE_LANE_STATUS, 7, 2⟩
def F.LNE_LANE_STATUS_IN_TRANSITION : Fld := ⟨R.LNE_LANE_STATUS, 9, 1⟩
def F.LNE_LANE_STATUS_LAT_OK : Fld := ⟨R.LNE_LANE_STATUS, 10, 1⟩
def F.LNE_LANE_STATUS_SIGNAL : Fld := ⟨R.LNE_LANE_STATUS, 11, 1⟩
def R.LNE_EQ : Reg := { unit := 5, off := 8, stride := 0x100, inner := 192, rst := 0x200cd9, rw := 0xffffff, w1s := 0x1000000 }
def F.LNE_EQ_TX_INIT_PRESET : Fld := ⟨R.LNE_EQ, 0, 3⟩
def F.LNE_EQ_FALLBACK_PRESET : Fld := ⟨R.LNE_EQ, 3, 3⟩
def F.LNE_EQ_TRAIN_EN : Fld := ⟨R.LNE_EQ, 6, 1⟩
def F.LNE_EQ_REMOTE_EN : Fld := ⟨R.LNE_EQ, 7, 1⟩
def F.LNE_EQ_EYE_TARGET : Fld := ⟨R.LNE_EQ, 8, 8⟩
def F.LNE_EQ_INTERVAL : Fld := ⟨R.LNE_EQ, 16, 8⟩
def F.LNE_EQ_RETRAIN : Fld := ⟨R.LNE_EQ, 24, 1⟩
def R.LNE_TRAIN : Reg := { unit := 5, off := 0xc, stride := 0x100, inner := 192, rst := 0xc80643e8, rw := 0xffffffff }
def F.LNE_TRAIN_RESP_TMO : Fld := ⟨R.LNE_TRAIN, 0, 12⟩
def F.LNE_TRAIN_ECHO_TMO : Fld := ⟨R.LNE_TRAIN, 12, 12⟩
def F.LNE_TRAIN_MAX_STEPS : Fld := ⟨R.LNE_TRAIN, 24, 8⟩
def R.LNE_TAPS : Reg := { unit := 5, off := 0x10, stride := 0x100, inner := 192 }
def F.LNE_TAPS_CM1 : Fld := ⟨R.LNE_TAPS, 0, 4⟩
def F.LNE_TAPS_C0 : Fld := ⟨R.LNE_TAPS, 4, 7⟩
def F.LNE_TAPS_CP1 : Fld := ⟨R.LNE_TAPS, 11, 5⟩
def F.LNE_TAPS_CTLE : Fld := ⟨R.LNE_TAPS, 16, 3⟩
def R.LNE_BITSLIP : Reg := { unit := 5, off := 0x14, stride := 0x100, inner := 192, w1s := 1 }
def F.LNE_BITSLIP_SLIP : Fld := ⟨R.LNE_BITSLIP, 0, 1⟩
def F.LNE_BITSLIP_BUSY : Fld := ⟨R.LNE_BITSLIP, 1, 1⟩
def F.LNE_BITSLIP_OFFSET : Fld := ⟨R.LNE_BITSLIP, 8, 7⟩
def R.LNE_RX_LAT : Reg := { unit := 5, off := 0x18, stride := 0x100, inner := 192, rw := 0x3ff }
def F.LNE_RX_LAT_TARGET : Fld := ⟨R.LNE_RX_LAT, 0, 10⟩
def F.LNE_RX_LAT_MEASURED : Fld := ⟨R.LNE_RX_LAT, 16, 10⟩
def R.LNE_TX_LAT : Reg := { unit := 5, off := 0x1c, stride := 0x100, inner := 192 }
def F.LNE_TX_LAT_CYCLES : Fld := ⟨R.LNE_TX_LAT, 0, 10⟩
def R.LNE_PRBS : Reg := { unit := 5, off := 0x20, stride := 0x100, inner := 192, rw := 0xff, w1s := 0x700 }
def F.LNE_PRBS_GEN : Fld := ⟨R.LNE_PRBS, 0, 3⟩
def F.LNE_PRBS_CHK : Fld := ⟨R.LNE_PRBS, 3, 3⟩
def F.LNE_PRBS_GEN_INV : Fld := ⟨R.LNE_PRBS, 6, 1⟩
def F.LNE_PRBS_CHK_INV : Fld := ⟨R.LNE_PRBS, 7, 1⟩
def F.LNE_PRBS_SNAP : Fld := ⟨R.LNE_PRBS, 8, 1⟩
def F.LNE_PRBS_CLR : Fld := ⟨R.LNE_PRBS, 9, 1⟩
def F.LNE_PRBS_INJECT : Fld := ⟨R.LNE_PRBS, 10, 1⟩
def F.LNE_PRBS_LOCK : Fld := ⟨R.LNE_PRBS, 16, 1⟩
def R.LNE_PRBS_ERRS : Reg := { unit := 5, off := 0x28, bits := 64, stride := 0x100, inner := 192 }
def F.LNE_PRBS_ERRS_ERRS : Fld := ⟨R.LNE_PRBS_ERRS, 0, 48⟩
def R.LNE_PRBS_BITS : Reg := { unit := 5, off := 0x30, bits := 64, stride := 0x100, inner := 192 }
def F.LNE_PRBS_BITS_BITS : Fld := ⟨R.LNE_PRBS_BITS, 0, 48⟩
def R.LNE_BLOCK_ERRS : Reg := { unit := 5, off := 0x38, stride := 0x100, inner := 192, rc := 0xffffffff }
def F.LNE_BLOCK_ERRS_COUNT : Fld := ⟨R.LNE_BLOCK_ERRS, 0, 32⟩
def R.LNE_LANE_ERR : Reg := { unit := 5, off := 0x3c, stride := 0x100, inner := 192, w1c := 0x1ff }
def F.LNE_LANE_ERR_LOCK_LOST : Fld := ⟨R.LNE_LANE_ERR, 0, 1⟩
def F.LNE_LANE_ERR_CDR_LOST : Fld := ⟨R.LNE_LANE_ERR, 1, 1⟩
def F.LNE_LANE_ERR_TRAIN_FALLBACK : Fld := ⟨R.LNE_LANE_ERR, 2, 1⟩
def F.LNE_LANE_ERR_CTL_CHECK : Fld := ⟨R.LNE_LANE_ERR, 3, 1⟩
def F.LNE_LANE_ERR_PRBS_LOST : Fld := ⟨R.LNE_LANE_ERR, 4, 1⟩
def F.LNE_LANE_ERR_LAT_ERR : Fld := ⟨R.LNE_LANE_ERR, 5, 1⟩
def F.LNE_LANE_ERR_DESKEW_ERR : Fld := ⟨R.LNE_LANE_ERR, 6, 1⟩
def F.LNE_LANE_ERR_CFG_REFUSED : Fld := ⟨R.LNE_LANE_ERR, 7, 1⟩
def F.LNE_LANE_ERR_PSTATE_DONE : Fld := ⟨R.LNE_LANE_ERR, 8, 1⟩
def R.LNE_LANE_ERR_EN : Reg := { unit := 5, off := 0x40, stride := 0x100, inner := 192, rw := 0x1ff }
def R.LNE_QPLL : Reg := { unit := 5, off := 0xc000, stride := 0x40, inner := 48, rst := 0xc80, rw := 0x1ffff }
def F.LNE_QPLL_REF : Fld := ⟨R.LNE_QPLL, 0, 2⟩
def F.LNE_QPLL_PDIV : Fld := ⟨R.LNE_QPLL, 2, 3⟩
def F.LNE_QPLL_M : Fld := ⟨R.LNE_QPLL, 5, 11⟩
def F.LNE_QPLL_EN : Fld := ⟨R.LNE_QPLL, 16, 1⟩
def R.LNE_QPLL_STATUS : Reg := { unit := 5, off := 0xc004, stride := 0x40, inner := 48 }
def F.LNE_QPLL_STATUS_ON : Fld := ⟨R.LNE_QPLL_STATUS, 0, 1⟩
def F.LNE_QPLL_STATUS_LOCK : Fld := ⟨R.LNE_QPLL_STATUS, 1, 1⟩
def R.LNE_QUAD_ERR : Reg := { unit := 5, off := 0xc008, stride := 0x40, inner := 48, w1c := 7 }
def F.LNE_QUAD_ERR_PLL_UNLOCK : Fld := ⟨R.LNE_QUAD_ERR, 0, 1⟩
def F.LNE_QUAD_ERR_CFG_REFUSED : Fld := ⟨R.LNE_QUAD_ERR, 1, 1⟩
def F.LNE_QUAD_ERR_REF_LOST : Fld := ⟨R.LNE_QUAD_ERR, 2, 1⟩
def R.LNE_QUAD_ERR_EN : Reg := { unit := 5, off := 0xc00c, stride := 0x40, inner := 48, rw := 7 }
def R.LNE_XBAR : Reg := { unit := 5, off := 0xd000, stride := 4, inner := 192, rw := 0xff }
def F.LNE_XBAR_BAY : Fld := ⟨R.LNE_XBAR, 0, 4⟩
def F.LNE_XBAR_PORT : Fld := ⟨R.LNE_XBAR, 4, 3⟩
def F.LNE_XBAR_EN : Fld := ⟨R.LNE_XBAR, 7, 1⟩
-- 06_slice_architecture
def R.CFG_SLC_SEL : Reg := { unit := 0, off := 0xa000, rw := 0x1ff3f }
def F.CFG_SLC_SEL_BAY : Fld := ⟨R.CFG_SLC_SEL, 0, 6⟩
def F.CFG_SLC_SEL_SLICE : Fld := ⟨R.CFG_SLC_SEL, 8, 9⟩
def F.CFG_SLC_SEL_INVALID : Fld := ⟨R.CFG_SLC_SEL, 31, 1⟩
def R.CFG_SLC_CTRL : Reg := { unit := 0, off := 0xa004, rw := 0x3ff, w1s := 0xf0000 }
def F.CFG_SLC_CTRL_MODE : Fld := ⟨R.CFG_SLC_CTRL, 0, 1⟩
def F.CFG_SLC_CTRL_START : Fld := ⟨R.CFG_SLC_CTRL, 1, 7⟩
def F.CFG_SLC_CTRL_RSY_ACTION : Fld := ⟨R.CFG_SLC_CTRL, 8, 2⟩
def F.CFG_SLC_CTRL_RUN_AT_START : Fld := ⟨R.CFG_SLC_CTRL, 10, 1⟩
def F.CFG_SLC_CTRL_HALT : Fld := ⟨R.CFG_SLC_CTRL, 16, 1⟩
def F.CFG_SLC_CTRL_GO : Fld := ⟨R.CFG_SLC_CTRL, 17, 1⟩
def F.CFG_SLC_CTRL_RESUME : Fld := ⟨R.CFG_SLC_CTRL, 18, 1⟩
def F.CFG_SLC_CTRL_CLR_DM : Fld := ⟨R.CFG_SLC_CTRL, 19, 1⟩
def R.CFG_SLC_STATUS : Reg := { unit := 0, off := 0xa008, w1c := 0x1e0000 }
def F.CFG_SLC_STATUS_STATE : Fld := ⟨R.CFG_SLC_STATUS, 0, 2⟩
def F.CFG_SLC_STATUS_PC : Fld := ⟨R.CFG_SLC_STATUS, 2, 7⟩
def F.CFG_SLC_STATUS_CAUSE : Fld := ⟨R.CFG_SLC_STATUS, 9, 2⟩
def F.CFG_SLC_STATUS_RETRY_DONE : Fld := ⟨R.CFG_SLC_STATUS, 11, 1⟩
def F.CFG_SLC_STATUS_LASTING : Fld := ⟨R.CFG_SLC_STATUS, 12, 1⟩
def F.CFG_SLC_STATUS_BUSY : Fld := ⟨R.CFG_SLC_STATUS, 13, 1⟩
def F.CFG_SLC_STATUS_OVERRUN : Fld := ⟨R.CFG_SLC_STATUS, 17, 1⟩
def F.CFG_SLC_STATUS_SIN_OVER : Fld := ⟨R.CFG_SLC_STATUS, 18, 1⟩
def F.CFG_SLC_STATUS_SIN_UNDER : Fld := ⟨R.CFG_SLC_STATUS, 19, 1⟩
def F.CFG_SLC_STATUS_ACC_REFUSED : Fld := ⟨R.CFG_SLC_STATUS, 20, 1⟩
def R.CFG_SLC_TIMING : Reg := { unit := 0, off := 0xa00c, rc := 0xffff0000 }
def F.CFG_SLC_TIMING_RUN_LAG : Fld := ⟨R.CFG_SLC_TIMING, 0, 10⟩
def F.CFG_SLC_TIMING_OVERRUNS : Fld := ⟨R.CFG_SLC_TIMING, 16, 8⟩
def F.CFG_SLC_TIMING_SKIPPED : Fld := ⟨R.CFG_SLC_TIMING, 24, 8⟩
def R.CFG_SLC_ECC : Reg := { unit := 0, off := 0xa010, rc := 0xffff }
def F.CFG_SLC_ECC_PM_SBE : Fld := ⟨R.CFG_SLC_ECC, 0, 8⟩
def F.CFG_SLC_ECC_DM_SBE : Fld := ⟨R.CFG_SLC_ECC, 8, 8⟩
def R.CFG_SLC_ADDR : Reg := { unit := 0, off := 0xa014, rw := 0x1fff, w1c := 0x2000 }
def F.CFG_SLC_ADDR_WORD : Fld := ⟨R.CFG_SLC_ADDR, 0, 10⟩
def F.CFG_SLC_ADDR_SPACE : Fld := ⟨R.CFG_SLC_ADDR, 10, 2⟩
def F.CFG_SLC_ADDR_AUTO_INC : Fld := ⟨R.CFG_SLC_ADDR, 12, 1⟩
def F.CFG_SLC_ADDR_UE : Fld := ⟨R.CFG_SLC_ADDR, 13, 1⟩
def R.CFG_SLC_DATA_LO : Reg := { unit := 0, off := 0xa018, rw := 0xffffffff }
def F.CFG_SLC_DATA_LO_LO : Fld := ⟨R.CFG_SLC_DATA_LO, 0, 32⟩
def R.CFG_SLC_DATA_HI : Reg := { unit := 0, off := 0xa01c, rw := 0xffffff }
def F.CFG_SLC_DATA_HI_HI : Fld := ⟨R.CFG_SLC_DATA_HI, 0, 24⟩
def R.CFG_SLC_TRAPPED : Reg := { unit := 0, off := 0xb000, stride := 4, inner := 9, stride2 := 0x40, outer := 64 }
-- 08_network_sand_and_quartz
def R.NOC_STATUS : Reg := { unit := 6, off := 0 }
def F.NOC_STATUS_LINK_CLK : Fld := ⟨R.NOC_STATUS, 0, 1⟩
def F.NOC_STATUS_SWITCHING : Fld := ⟨R.NOC_STATUS, 1, 1⟩
def R.NOC_ERR : Reg := { unit := 6, off := 4, w1c := 0x1f }
def F.NOC_ERR_TIMEOUT : Fld := ⟨R.NOC_ERR, 0, 1⟩
def F.NOC_ERR_LATE_RESP : Fld := ⟨R.NOC_ERR, 1, 1⟩
def F.NOC_ERR_LINK_RETRY : Fld := ⟨R.NOC_ERR, 2, 1⟩
def F.NOC_ERR_LINK_FAIL : Fld := ⟨R.NOC_ERR, 3, 1⟩
def F.NOC_ERR_POSTED_ERR : Fld := ⟨R.NOC_ERR, 4, 1⟩
def R.NOC_ERR_EN : Reg := { unit := 6, off := 8, rw := 0x1f }
def R.NOC_ERR_LOG : Reg := { unit := 6, off := 0x10, bits := 64, stride := 8, w1c := 0x8000000000000000 }
def F.NOC_ERR_LOG_ADDR : Fld := ⟨R.NOC_ERR_LOG, 0, 48⟩
def F.NOC_ERR_LOG_INIT : Fld := ⟨R.NOC_ERR_LOG, 48, 10⟩
def F.NOC_ERR_LOG_RESP : Fld := ⟨R.NOC_ERR_LOG, 58, 4⟩
def F.NOC_ERR_LOG_POSTED : Fld := ⟨R.NOC_ERR_LOG, 62, 1⟩
def F.NOC_ERR_LOG_VALID : Fld := ⟨R.NOC_ERR_LOG, 63, 1⟩
def R.NOC_OUTSTANDING : Reg := { unit := 6, off := 0x18 }
def F.NOC_OUTSTANDING_COUNT : Fld := ⟨R.NOC_OUTSTANDING, 0, 16⟩
def R.NOC_LATE_RESPS : Reg := { unit := 6, off := 0x1c, rc := 0xffffffff }
def F.NOC_LATE_RESPS_COUNT : Fld := ⟨R.NOC_LATE_RESPS, 0, 32⟩
def R.NOC_LINK_RETRIES : Reg := { unit := 6, off := 0x20, rc := 0xffffffff }
def F.NOC_LINK_RETRIES_COUNT : Fld := ⟨R.NOC_LINK_RETRIES, 0, 32⟩
def R.NOC_LINK_FAIL : Reg := { unit := 6, off := 0x24 }
def F.NOC_LINK_FAIL_LINK : Fld := ⟨R.NOC_LINK_FAIL, 0, 12⟩
def F.NOC_LINK_FAIL_COUNT : Fld := ⟨R.NOC_LINK_FAIL, 16, 9⟩
def R.NOC_TIMEOUTS : Reg := { unit := 6, off := 0x28, rc := 0xffffffff }
def F.NOC_TIMEOUTS_COUNT : Fld := ⟨R.NOC_TIMEOUTS, 0, 32⟩
def R.NOC_RATE : Reg := { unit := 6, off := 0x1000, stride := 0x10, inner := 116, rst := 0x810400, rw := 0x8fff07ff }
def F.NOC_RATE_RATE : Fld := ⟨R.NOC_RATE, 0, 11⟩
def F.NOC_RATE_BURST : Fld := ⟨R.NOC_RATE, 16, 12⟩
def F.NOC_RATE_EN : Fld := ⟨R.NOC_RATE, 31, 1⟩
def R.NOC_TMO : Reg := { unit := 6, off := 0x1004, stride := 0x10, inner := 116, rst := 0x7d0, rw := 0xffff }
def F.NOC_TMO_US : Fld := ⟨R.NOC_TMO, 0, 16⟩
def R.NOC_INI_STATUS : Reg := { unit := 6, off := 0x1008, stride := 0x10, inner := 116 }
def F.NOC_INI_STATUS_OUTSTANDING : Fld := ⟨R.NOC_INI_STATUS, 0, 13⟩
def F.NOC_INI_STATUS_AT_LIMIT : Fld := ⟨R.NOC_INI_STATUS, 16, 1⟩
def F.NOC_INI_STATUS_RATE_WAIT : Fld := ⟨R.NOC_INI_STATUS, 17, 1⟩
def R.QTZ_CTRL : Reg := { unit := 7, off := 0, rw := 1 }
def F.QTZ_CTRL_EN : Fld := ⟨R.QTZ_CTRL, 0, 1⟩
def R.QTZ_STATUS : Reg := { unit := 7, off := 4 }
def F.QTZ_STATUS_ACTIVE : Fld := ⟨R.QTZ_STATUS, 0, 1⟩
def F.QTZ_STATUS_COMMIT_BUSY : Fld := ⟨R.QTZ_STATUS, 1, 1⟩
def F.QTZ_STATUS_DIRTY : Fld := ⟨R.QTZ_STATUS, 2, 1⟩
def F.QTZ_STATUS_DISTURB : Fld := ⟨R.QTZ_STATUS, 3, 1⟩
def R.QTZ_COMMIT : Reg := { unit := 7, off := 8, w1s := 1 }
def F.QTZ_COMMIT_GO : Fld := ⟨R.QTZ_COMMIT, 0, 1⟩
def R.QTZ_COMMIT_CN : Reg := { unit := 7, off := 0x10, bits := 64, stride := 8 }
def F.QTZ_COMMIT_CN_CN : Fld := ⟨R.QTZ_COMMIT_CN, 0, 64⟩
def R.QTZ_ERR : Reg := { unit := 7, off := 0x18, w1c := 0x7f }
def F.QTZ_ERR_BAD_ENTRY : Fld := ⟨R.QTZ_ERR, 0, 1⟩
def F.QTZ_ERR_PARITY : Fld := ⟨R.QTZ_ERR, 1, 1⟩
def F.QTZ_ERR_WRITE_REFUSED : Fld := ⟨R.QTZ_ERR, 2, 1⟩
def F.QTZ_ERR_COMMIT_DONE : Fld := ⟨R.QTZ_ERR, 3, 1⟩
def F.QTZ_ERR_TRACE_DONE : Fld := ⟨R.QTZ_ERR, 4, 1⟩
def F.QTZ_ERR_PROBE_DONE : Fld := ⟨R.QTZ_ERR, 5, 1⟩
def F.QTZ_ERR_PROBE_LOST : Fld := ⟨R.QTZ_ERR, 6, 1⟩
def R.QTZ_ERR_EN : Reg := { unit := 7, off := 0x1c, rw := 0x7f }
def R.QTZ_BAD : Reg := { unit := 7, off := 0x20 }
def F.QTZ_BAD_ID : Fld := ⟨R.QTZ_BAD, 0, 12⟩
def F.QTZ_BAD_SLOT : Fld := ⟨R.QTZ_BAD, 16, 7⟩
def F.QTZ_BAD_LANE : Fld := ⟨R.QTZ_BAD, 24, 2⟩
def R.QTZ_PAR_ERRS : Reg := { unit := 7, off := 0x24, rc := 0xffffffff }
def F.QTZ_PAR_ERRS_COUNT : Fld := ⟨R.QTZ_PAR_ERRS, 0, 32⟩
def R.QTZ_PAR_LINK : Reg := { unit := 7, off := 0x28 }
def F.QTZ_PAR_LINK_LINK : Fld := ⟨R.QTZ_PAR_LINK, 0, 12⟩
def R.QTZ_TRACE : Reg := { unit := 7, off := 0x30, rw := 0x37f0fff, w1s := 0x80000000 }
def F.QTZ_TRACE_ID : Fld := ⟨R.QTZ_TRACE, 0, 12⟩
def F.QTZ_TRACE_SLOT : Fld := ⟨R.QTZ_TRACE, 16, 7⟩
def F.QTZ_TRACE_LANE : Fld := ⟨R.QTZ_TRACE, 24, 2⟩
def F.QTZ_TRACE_GO : Fld := ⟨R.QTZ_TRACE, 31, 1⟩
def R.QTZ_TRACE_RES : Reg := { unit := 7, off := 0x34 }
def F.QTZ_TRACE_RES_DONE : Fld := ⟨R.QTZ_TRACE_RES, 0, 1⟩
def F.QTZ_TRACE_RES_FOUND : Fld := ⟨R.QTZ_TRACE_RES, 1, 1⟩
def F.QTZ_TRACE_RES_SRC : Fld := ⟨R.QTZ_TRACE_RES, 2, 12⟩
def F.QTZ_TRACE_RES_SRC_CH : Fld := ⟨R.QTZ_TRACE_RES, 14, 3⟩
def F.QTZ_TRACE_RES_SRC_SLOT : Fld := ⟨R.QTZ_TRACE_RES, 17, 7⟩
def F.QTZ_TRACE_RES_LAT : Fld := ⟨R.QTZ_TRACE_RES, 24, 8⟩
def R.QTZ_PROBE : Reg := { unit := 7, off := 0x38, rw := 0x37f0fff, w1s := 0x80000000 }
def F.QTZ_PROBE_ID : Fld := ⟨R.QTZ_PROBE, 0, 12⟩
def F.QTZ_PROBE_SLOT : Fld := ⟨R.QTZ_PROBE, 16, 7⟩
def F.QTZ_PROBE_LANE : Fld := ⟨R.QTZ_PROBE, 24, 2⟩
def F.QTZ_PROBE_GO : Fld := ⟨R.QTZ_PROBE, 31, 1⟩
def R.QTZ_PROBE_RES : Reg := { unit := 7, off := 0x3c }
def F.QTZ_PROBE_RES_DONE : Fld := ⟨R.QTZ_PROBE_RES, 0, 1⟩
def F.QTZ_PROBE_RES_BUSY : Fld := ⟨R.QTZ_PROBE_RES, 1, 1⟩
def F.QTZ_PROBE_RES_LAT : Fld := ⟨R.QTZ_PROBE_RES, 8, 8⟩
def R.QTZ_EQD : Reg := { unit := 7, off := 0x1000, stride := 4, inner := 512, rw := 0x3f }
def F.QTZ_EQD_CYCLES : Fld := ⟨R.QTZ_EQD, 0, 6⟩
def R.QTZ_EQD_LDG : Reg := { unit := 7, off := 0x1800, rw := 0x3f }
def F.QTZ_EQD_LDG_CYCLES : Fld := ⟨R.QTZ_EQD_LDG, 0, 6⟩
def R.QTZ_TSEL : Reg := { unit := 7, off := 0x7000, rw := 0xfff }
def F.QTZ_TSEL_ID : Fld := ⟨R.QTZ_TSEL, 0, 12⟩
def F.QTZ_TSEL_INVALID : Fld := ⟨R.QTZ_TSEL, 31, 1⟩
def R.QTZ_TBL : Reg := { unit := 7, off := 0x8000, bits := 64, stride := 8, inner := 128, rw := 0xffffffffffffffff }
def F.QTZ_TBL_SLOT : Fld := ⟨R.QTZ_TBL, 0, 64⟩
-- 09_verdict_table
def R.VRD_CTRL : Reg := { unit := 8, off := 0, rst := 3, rw := 0xffff0003 }
def F.VRD_CTRL_AUTO_RETIRE : Fld := ⟨R.VRD_CTRL, 0, 1⟩
def F.VRD_CTRL_PATROL : Fld := ⟨R.VRD_CTRL, 1, 1⟩
def F.VRD_CTRL_ERR_VALUE : Fld := ⟨R.VRD_CTRL, 16, 16⟩
def R.VRD_STATUS : Reg := { unit := 8, off := 4, rst := 0x1e }
def F.VRD_STATUS_INIT_DONE : Fld := ⟨R.VRD_STATUS, 0, 1⟩
def F.VRD_STATUS_SERVICE : Fld := ⟨R.VRD_STATUS, 1, 4⟩
def F.VRD_STATUS_PORT_LIVE : Fld := ⟨R.VRD_STATUS, 5, 8⟩
def F.VRD_STATUS_STAGE_BUSY : Fld := ⟨R.VRD_STATUS, 13, 1⟩
def F.VRD_STATUS_STAGED : Fld := ⟨R.VRD_STATUS, 14, 1⟩
def F.VRD_STATUS_SWAP_PENDING : Fld := ⟨R.VRD_STATUS, 15, 1⟩
def R.VRD_ERR : Reg := { unit := 8, off := 8, w1c := 0x1ff }
def F.VRD_ERR_SWAP_DONE : Fld := ⟨R.VRD_ERR, 0, 1⟩
def F.VRD_ERR_SWAP_LATE : Fld := ⟨R.VRD_ERR, 1, 1⟩
def F.VRD_ERR_LATE_WRITE : Fld := ⟨R.VRD_ERR, 2, 1⟩
def F.VRD_ERR_LOAD_ERR : Fld := ⟨R.VRD_ERR, 3, 1⟩
def F.VRD_ERR_CORRECTED : Fld := ⟨R.VRD_ERR, 4, 1⟩
def F.VRD_ERR_UE_TRANSIENT : Fld := ⟨R.VRD_ERR, 5, 1⟩
def F.VRD_ERR_UE_LASTING : Fld := ⟨R.VRD_ERR, 6, 1⟩
def F.VRD_ERR_RETIRED : Fld := ⟨R.VRD_ERR, 7, 1⟩
def F.VRD_ERR_CFG_REFUSED : Fld := ⟨R.VRD_ERR, 8, 1⟩
def R.VRD_ERR_EN : Reg := { unit := 8, off := 0xc, rw := 0x1ff }
def R.VRD_STAGE : Reg := { unit := 8, off := 0x10, rst := 0x400, rw := 0x63f, w1s := 0x900 }
def F.VRD_STAGE_BANK : Fld := ⟨R.VRD_STAGE, 0, 6⟩
def F.VRD_STAGE_ARM : Fld := ⟨R.VRD_STAGE, 8, 1⟩
def F.VRD_STAGE_COPY : Fld := ⟨R.VRD_STAGE, 9, 1⟩
def F.VRD_STAGE_BCAST : Fld := ⟨R.VRD_STAGE, 10, 1⟩
def F.VRD_STAGE_DISARM : Fld := ⟨R.VRD_STAGE, 11, 1⟩
def R.VRD_SWAP : Reg := { unit := 8, off := 0x14, rw := 2, w1s := 1 }
def F.VRD_SWAP_GO : Fld := ⟨R.VRD_SWAP, 0, 1⟩
def F.VRD_SWAP_AT_CN : Fld := ⟨R.VRD_SWAP, 1, 1⟩
def R.VRD_SWAP_CN : Reg := { unit := 8, off := 0x18, bits := 64, stride := 8, rw := 0xffffffffffffffff }
def F.VRD_SWAP_CN_CN : Fld := ⟨R.VRD_SWAP_CN, 0, 64⟩
def R.VRD_SWAP_DONE_CN : Reg := { unit := 8, off := 0x20, bits := 64, stride := 8 }
def F.VRD_SWAP_DONE_CN_CN : Fld := ⟨R.VRD_SWAP_DONE_CN, 0, 64⟩
def R.VRD_RETIRE : Reg := { unit := 8, off := 0x28, rw := 3, w1s := 0x30 }
def F.VRD_RETIRE_REPLICA : Fld := ⟨R.VRD_RETIRE, 0, 2⟩
def F.VRD_RETIRE_RETIRE : Fld := ⟨R.VRD_RETIRE, 4, 1⟩
def F.VRD_RETIRE_RESTORE : Fld := ⟨R.VRD_RETIRE, 5, 1⟩
def R.VRD_RBIST : Reg := { unit := 8, off := 0x2c, rw := 3, w1s := 0x10 }
def F.VRD_RBIST_REPLICA : Fld := ⟨R.VRD_RBIST, 0, 2⟩
def F.VRD_RBIST_GO : Fld := ⟨R.VRD_RBIST, 4, 1⟩
def F.VRD_RBIST_DONE : Fld := ⟨R.VRD_RBIST, 8, 1⟩
def F.VRD_RBIST_PASS : Fld := ⟨R.VRD_RBIST, 9, 1⟩
def R.VRD_ECC_CNT : Reg := { unit := 8, off := 0x30, rc := 0xffffffff }
def F.VRD_ECC_CNT_CORRECTED : Fld := ⟨R.VRD_ECC_CNT, 0, 16⟩
def F.VRD_ECC_CNT_TRANSIENT : Fld := ⟨R.VRD_ECC_CNT, 16, 16⟩
def R.VRD_UE_LOG : Reg := { unit := 8, off := 0x38, bits := 64, stride := 8, w1c := 0x8000000000000000 }
def F.VRD_UE_LOG_ADDR : Fld := ⟨R.VRD_UE_LOG, 0, 22⟩
def F.VRD_UE_LOG_PHYS : Fld := ⟨R.VRD_UE_LOG, 22, 7⟩
def F.VRD_UE_LOG_REPLICA : Fld := ⟨R.VRD_UE_LOG, 29, 2⟩
def F.VRD_UE_LOG_LASTING : Fld := ⟨R.VRD_UE_LOG, 31, 1⟩
def F.VRD_UE_LOG_SOURCE : Fld := ⟨R.VRD_UE_LOG, 32, 3⟩
def F.VRD_UE_LOG_VALID : Fld := ⟨R.VRD_UE_LOG, 63, 1⟩
def R.VRD_LDR_SRC : Reg := { unit := 8, off := 0x40, bits := 64, stride := 8, rw := 0xfffffffff000 }
def F.VRD_LDR_SRC_ADDR : Fld := ⟨R.VRD_LDR_SRC, 12, 36⟩
def R.VRD_LDR_CTRL : Reg := { unit := 8, off := 0x48, w1s := 1 }
def F.VRD_LDR_CTRL_GO : Fld := ⟨R.VRD_LDR_CTRL, 0, 1⟩
def R.VRD_PORT_CTRL : Reg := { unit := 8, off := 0x100, stride := 0x10, inner := 8, rw := 0x3fffff01 }
def F.VRD_PORT_CTRL_EN : Fld := ⟨R.VRD_PORT_CTRL, 0, 1⟩
def F.VRD_PORT_CTRL_BASE : Fld := ⟨R.VRD_PORT_CTRL, 8, 22⟩
def R.VRD_PORT_LOOKUPS : Reg := { unit := 8, off := 0x104, stride := 0x10, inner := 8 }
def F.VRD_PORT_LOOKUPS_COUNT : Fld := ⟨R.VRD_PORT_LOOKUPS, 0, 32⟩
def R.VRD_PORT_FIELDS : Reg := { unit := 8, off := 0x108, bits := 64, stride := 0x10, inner := 8, rw := 0x1f3f1f3f1f3f1f3f }
def F.VRD_PORT_FIELDS_OFFSET0 : Fld := ⟨R.VRD_PORT_FIELDS, 0, 6⟩
def F.VRD_PORT_FIELDS_OFFSET1 : Fld := ⟨R.VRD_PORT_FIELDS, 16, 6⟩
def F.VRD_PORT_FIELDS_OFFSET2 : Fld := ⟨R.VRD_PORT_FIELDS, 32, 6⟩
def F.VRD_PORT_FIELDS_OFFSET3 : Fld := ⟨R.VRD_PORT_FIELDS, 48, 6⟩
def F.VRD_PORT_FIELDS_WIDTH0 : Fld := ⟨R.VRD_PORT_FIELDS, 8, 5⟩
def F.VRD_PORT_FIELDS_WIDTH1 : Fld := ⟨R.VRD_PORT_FIELDS, 24, 5⟩
def F.VRD_PORT_FIELDS_WIDTH2 : Fld := ⟨R.VRD_PORT_FIELDS, 40, 5⟩
def F.VRD_PORT_FIELDS_WIDTH3 : Fld := ⟨R.VRD_PORT_FIELDS, 56, 5⟩
def R.VRD_MAP : Reg := { unit := 8, off := 0x400, stride := 4, inner := 65, stride2 := 0x200, outer := 4 }
def F.VRD_MAP_PHYS : Fld := ⟨R.VRD_MAP, 0, 7⟩
-- 10_ledger
def R.LDG_CTRL : Reg := { unit := 9, off := 0, rst := 0x50, rw := 0xf7f }
def F.LDG_CTRL_EN : Fld := ⟨R.LDG_CTRL, 0, 1⟩
def F.LDG_CTRL_RSY_ACTION : Fld := ⟨R.LDG_CTRL, 1, 2⟩
def F.LDG_CTRL_EARLY_REJECT : Fld := ⟨R.LDG_CTRL, 3, 1⟩
def F.LDG_CTRL_DEC_QTZ_EN : Fld := ⟨R.LDG_CTRL, 4, 1⟩
def F.LDG_CTRL_DEC_EXA_EN : Fld := ⟨R.LDG_CTRL, 5, 1⟩
def F.LDG_CTRL_DEC_HOST_EN : Fld := ⟨R.LDG_CTRL, 6, 1⟩
def F.LDG_CTRL_EXA_CLASS : Fld := ⟨R.LDG_CTRL, 8, 4⟩
def R.LDG_STATUS : Reg := { unit := 9, off := 4, rst := 2 }
def F.LDG_STATUS_RUNNING : Fld := ⟨R.LDG_STATUS, 0, 1⟩
def F.LDG_STATUS_DRAINED : Fld := ⟨R.LDG_STATUS, 1, 1⟩
def F.LDG_STATUS_THROTTLE : Fld := ⟨R.LDG_STATUS, 2, 1⟩
def F.LDG_STATUS_THR_TIER : Fld := ⟨R.LDG_STATUS, 3, 1⟩
def F.LDG_STATUS_THR_CTX : Fld := ⟨R.LDG_STATUS, 4, 1⟩
def F.LDG_STATUS_THR_PAGE : Fld := ⟨R.LDG_STATUS, 5, 1⟩
def F.LDG_STATUS_PAGE_WAIT : Fld := ⟨R.LDG_STATUS, 6, 1⟩
def F.LDG_STATUS_DEFERRED : Fld := ⟨R.LDG_STATUS, 7, 1⟩
def R.LDG_WINDOW : Reg := { unit := 9, off := 8, rst := 0x40, rw := 0x1fff }
def F.LDG_WINDOW_CROSSINGS : Fld := ⟨R.LDG_WINDOW, 0, 13⟩
def R.LDG_TIER_BANKS : Reg := { unit := 9, off := 0xc, rw := 0xffffffff }
def F.LDG_TIER_BANKS_MASK : Fld := ⟨R.LDG_TIER_BANKS, 0, 32⟩
def R.LDG_ERR : Reg := { unit := 9, off := 0x10, w1c := 0x1ffff }
def F.LDG_ERR_THR_CHANGE : Fld := ⟨R.LDG_ERR, 0, 1⟩
def F.LDG_ERR_LATE_DEC : Fld := ⟨R.LDG_ERR, 1, 1⟩
def F.LDG_ERR_LATE_FRAG : Fld := ⟨R.LDG_ERR, 2, 1⟩
def F.LDG_ERR_MALFORMED : Fld := ⟨R.LDG_ERR, 3, 1⟩
def F.LDG_ERR_UNKNOWN_SRC : Fld := ⟨R.LDG_ERR, 4, 1⟩
def F.LDG_ERR_DUPLICATE : Fld := ⟨R.LDG_ERR, 5, 1⟩
def F.LDG_ERR_TIER_FULL : Fld := ⟨R.LDG_ERR, 6, 1⟩
def F.LDG_ERR_POISON_TRANSIENT : Fld := ⟨R.LDG_ERR, 7, 1⟩
def F.LDG_ERR_POISON_LASTING : Fld := ⟨R.LDG_ERR, 8, 1⟩
def F.LDG_ERR_CTX_DEFERRED : Fld := ⟨R.LDG_ERR, 9, 1⟩
def F.LDG_ERR_CTX_LOST : Fld := ⟨R.LDG_ERR, 10, 1⟩
def F.LDG_ERR_PAGE_WAIT : Fld := ⟨R.LDG_ERR, 11, 1⟩
def F.LDG_ERR_STALL : Fld := ⟨R.LDG_ERR, 12, 1⟩
def F.LDG_ERR_DATA_LOST : Fld := ⟨R.LDG_ERR, 13, 1⟩
def F.LDG_ERR_CHANNEL_RETIRED : Fld := ⟨R.LDG_ERR, 14, 1⟩
def F.LDG_ERR_CFG_REFUSED : Fld := ⟨R.LDG_ERR, 15, 1⟩
def F.LDG_ERR_RESYNC : Fld := ⟨R.LDG_ERR, 16, 1⟩
def R.LDG_ERR_EN : Reg := { unit := 9, off := 0x14, rw := 0x1ffff }
def R.LDG_THR_TIER : Reg := { unit := 9, off := 0x18, rst := 0x80c0, rw := 0xffff }
def F.LDG_THR_TIER_ON : Fld := ⟨R.LDG_THR_TIER, 0, 8⟩
def F.LDG_THR_TIER_OFF : Fld := ⟨R.LDG_THR_TIER, 8, 8⟩
def R.LDG_THR_CTX : Reg := { unit := 9, off := 0x1c, rst := 0x80c0, rw := 0xffff }
def F.LDG_THR_CTX_ON : Fld := ⟨R.LDG_THR_CTX, 0, 8⟩
def F.LDG_THR_CTX_OFF : Fld := ⟨R.LDG_THR_CTX, 8, 8⟩
def R.LDG_THR_PAGE : Reg := { unit := 9, off := 0x20, rst := 0x80c0, rw := 0xffff }
def F.LDG_THR_PAGE_ON : Fld := ⟨R.LDG_THR_PAGE, 0, 8⟩
def F.LDG_THR_PAGE_OFF : Fld := ⟨R.LDG_THR_PAGE, 8, 8⟩
def R.LDG_THR_HOLD : Reg := { unit := 9, off := 0x24, rst := 0x10, rw := 0xfff }
def F.LDG_THR_HOLD_CROSSINGS : Fld := ⟨R.LDG_THR_HOLD, 0, 12⟩
def R.LDG_CTX_LIMIT : Reg := { unit := 9, off := 0x28, rst := 0x10000, rw := 0x1ffff }
def F.LDG_CTX_LIMIT_COUNT : Fld := ⟨R.LDG_CTX_LIMIT, 0, 17⟩
def R.LDG_MAX_PAGES : Reg := { unit := 9, off := 0x2c, rst := 0x100, rw := 0x1ff }
def F.LDG_MAX_PAGES_COUNT : Fld := ⟨R.LDG_MAX_PAGES, 0, 9⟩
def R.LDG_OCC_TIER : Reg := { unit := 9, off := 0x30 }
def F.LDG_OCC_TIER_BLOCKS : Fld := ⟨R.LDG_OCC_TIER, 0, 20⟩
def R.LDG_OCC_CTX : Reg := { unit := 9, off := 0x34 }
def F.LDG_OCC_CTX_COUNT : Fld := ⟨R.LDG_OCC_CTX, 0, 17⟩
def R.LDG_OCC_PAGE : Reg := { unit := 9, off := 0x38 }
def F.LDG_OCC_PAGE_PAGES : Fld := ⟨R.LDG_OCC_PAGE, 0, 21⟩
def R.LDG_HOST_DEC : Reg := { unit := 9, off := 0x40, bits := 64, stride := 8 }
def F.LDG_HOST_DEC_DECISION : Fld := ⟨R.LDG_HOST_DEC, 0, 64⟩
def R.LDG_ERR_LOG : Reg := { unit := 9, off := 0x48, bits := 64, stride := 8, w1c := 0x8000000000000000 }
def F.LDG_ERR_LOG_ADDR : Fld := ⟨R.LDG_ERR_LOG, 0, 48⟩
def F.LDG_ERR_LOG_KIND : Fld := ⟨R.LDG_ERR_LOG, 48, 4⟩
def F.LDG_ERR_LOG_SRC : Fld := ⟨R.LDG_ERR_LOG, 52, 10⟩
def F.LDG_ERR_LOG_VALID : Fld := ⟨R.LDG_ERR_LOG, 63, 1⟩
def R.LDG_FRAGS_IN : Reg := { unit := 9, off := 0x50 }
def F.LDG_FRAGS_IN_COUNT : Fld := ⟨R.LDG_FRAGS_IN, 0, 32⟩
def R.LDG_ACCEPTS : Reg := { unit := 9, off := 0x54 }
def F.LDG_ACCEPTS_COUNT : Fld := ⟨R.LDG_ACCEPTS, 0, 32⟩
def R.LDG_BAD_FRAGS : Reg := { unit := 9, off := 0x58, rc := 0xffffffff }
def F.LDG_BAD_FRAGS_COUNT : Fld := ⟨R.LDG_BAD_FRAGS, 0, 32⟩
def R.LDG_LATE_FRAGS : Reg := { unit := 9, off := 0x5c, rc := 0xffffffff }
def F.LDG_LATE_FRAGS_COUNT : Fld := ⟨R.LDG_LATE_FRAGS, 0, 32⟩
def R.LDG_TIER_DROPS : Reg := { unit := 9, off := 0x60, rc := 0xffffffff }
def F.LDG_TIER_DROPS_COUNT : Fld := ⟨R.LDG_TIER_DROPS, 0, 32⟩
def R.LDG_LATE_DECS : Reg := { unit := 9, off := 0x64, rc := 0xffffffff }
def F.LDG_LATE_DECS_COUNT : Fld := ⟨R.LDG_LATE_DECS, 0, 32⟩
def R.LDG_CTX_LOST : Reg := { unit := 9, off := 0x68, rc := 0xffffffff }
def F.LDG_CTX_LOST_COUNT : Fld := ⟨R.LDG_CTX_LOST, 0, 32⟩
def R.LDG_POISON : Reg := { unit := 9, off := 0x6c, rc := 0xffffffff }
def F.LDG_POISON_TRANSIENT : Fld := ⟨R.LDG_POISON, 0, 16⟩
def F.LDG_POISON_LASTING : Fld := ⟨R.LDG_POISON, 16, 16⟩
def R.LDG_POOL_BASE : Reg := { unit := 9, off := 0x100, bits := 64, stride := 0x10, inner := 4, rw := 0xfffffffff000 }
def F.LDG_POOL_BASE_ADDR : Fld := ⟨R.LDG_POOL_BASE, 12, 36⟩
def R.LDG_POOL_PAGES : Reg := { unit := 9, off := 0x108, stride := 0x10, inner := 4, rw := 0x1fffff }
def F.LDG_POOL_PAGES_COUNT : Fld := ⟨R.LDG_POOL_PAGES, 0, 21⟩
def R.LDG_POOL_STATUS : Reg := { unit := 9, off := 0x10c, stride := 0x10, inner := 4 }
def F.LDG_POOL_STATUS_FREE : Fld := ⟨R.LDG_POOL_STATUS, 0, 21⟩
def F.LDG_POOL_STATUS_RETIRED : Fld := ⟨R.LDG_POOL_STATUS, 24, 1⟩
def F.LDG_POOL_STATUS_IN_SERVICE : Fld := ⟨R.LDG_POOL_STATUS, 25, 1⟩
def R.LDG_STR_CTRL : Reg := { unit := 9, off := 0x200, stride := 0x20, inner := 8, rst := 0x640000, rw := 0xffff071f }
def F.LDG_STR_CTRL_EN : Fld := ⟨R.LDG_STR_CTRL, 0, 1⟩
def F.LDG_STR_CTRL_FORMAT : Fld := ⟨R.LDG_STR_CTRL, 1, 1⟩
def F.LDG_STR_CTRL_PRI : Fld := ⟨R.LDG_STR_CTRL, 2, 2⟩
def F.LDG_STR_CTRL_STALL_ACTION : Fld := ⟨R.LDG_STR_CTRL, 4, 1⟩
def F.LDG_STR_CTRL_KTP_STREAM : Fld := ⟨R.LDG_STR_CTRL, 8, 3⟩
def F.LDG_STR_CTRL_STALL_TMO : Fld := ⟨R.LDG_STR_CTRL, 16, 16⟩
def R.LDG_STR_SRC : Reg := { unit := 9, off := 0x204, stride := 0x20, inner := 8, rw := 0x7ff03ff }
def F.LDG_STR_SRC_FIRST : Fld := ⟨R.LDG_STR_SRC, 0, 10⟩
def F.LDG_STR_SRC_COUNT : Fld := ⟨R.LDG_STR_SRC, 16, 11⟩
def R.LDG_STR_CREDIT : Reg := { unit := 9, off := 0x208, stride := 0x20, inner := 8 }
def F.LDG_STR_CREDIT_BYTES : Fld := ⟨R.LDG_STR_CREDIT, 0, 32⟩
def R.LDG_STR_GRANT : Reg := { unit := 9, off := 0x20c, stride := 0x20, inner := 8 }
def F.LDG_STR_GRANT_BYTES : Fld := ⟨R.LDG_STR_GRANT, 0, 32⟩
def R.LDG_STR_STATUS : Reg := { unit := 9, off := 0x210, stride := 0x20, inner := 8 }
def F.LDG_STR_STATUS_STALLED : Fld := ⟨R.LDG_STR_STATUS, 0, 1⟩
def F.LDG_STR_STATUS_SENDING : Fld := ⟨R.LDG_STR_STATUS, 1, 1⟩
def F.LDG_STR_STATUS_QUEUED : Fld := ⟨R.LDG_STR_STATUS, 2, 17⟩
def R.LDG_STR_SEQ : Reg := { unit := 9, off := 0x214, stride := 0x20, inner := 8 }
def F.LDG_STR_SEQ_NEXT : Fld := ⟨R.LDG_STR_SEQ, 0, 32⟩
def R.LDG_STR_DISCARDS : Reg := { unit := 9, off := 0x218, stride := 0x20, inner := 8, rc := 0xffffffff }
def F.LDG_STR_DISCARDS_COUNT : Fld := ⟨R.LDG_STR_DISCARDS, 0, 32⟩
def R.LDG_CLASS : Reg := { unit := 9, off := 0x400, stride := 4, inner := 16, rst := 8, rw := 0xf }
def F.LDG_CLASS_STREAM : Fld := ⟨R.LDG_CLASS, 0, 3⟩
def F.LDG_CLASS_EN : Fld := ⟨R.LDG_CLASS, 3, 1⟩
def R.LDG_SRC : Reg := { unit := 9, off := 0x1000, stride := 4, inner := 1024, rw := 0x7ff }
def F.LDG_SRC_EN : Fld := ⟨R.LDG_SRC, 0, 1⟩
def F.LDG_SRC_MANDATORY : Fld := ⟨R.LDG_SRC, 1, 1⟩
def F.LDG_SRC_FIXED_LEN : Fld := ⟨R.LDG_SRC, 2, 9⟩
-- 11_host_link_and_ktp
def R.ETH_CTRL : Reg := { unit := 10, off := 0, stride2 := 0x10000, outer := 2, rst := 0x28, rw := 0x3f }
def F.ETH_CTRL_EN : Fld := ⟨R.ETH_CTRL, 0, 1⟩
def F.ETH_CTRL_MODE : Fld := ⟨R.ETH_CTRL, 1, 2⟩
def F.ETH_CTRL_FEC : Fld := ⟨R.ETH_CTRL, 3, 1⟩
def F.ETH_CTRL_REF : Fld := ⟨R.ETH_CTRL, 4, 1⟩
def F.ETH_CTRL_ECHO_EN : Fld := ⟨R.ETH_CTRL, 5, 1⟩
def R.ETH_STATUS : Reg := { unit := 10, off := 4, stride2 := 0x10000, outer := 2 }
def F.ETH_STATUS_LINK : Fld := ⟨R.ETH_STATUS, 0, 1⟩
def F.ETH_STATUS_ALIGNED : Fld := ⟨R.ETH_STATUS, 1, 1⟩
def F.ETH_STATUS_FEC_LOCK : Fld := ⟨R.ETH_STATUS, 2, 1⟩
def F.ETH_STATUS_HI_BER : Fld := ⟨R.ETH_STATUS, 3, 1⟩
def F.ETH_STATUS_AN_DONE : Fld := ⟨R.ETH_STATUS, 4, 1⟩
def R.ETH_ERR : Reg := { unit := 10, off := 8, stride2 := 0x10000, outer := 2, w1c := 0x3f }
def F.ETH_ERR_LINK_DOWN : Fld := ⟨R.ETH_ERR, 0, 1⟩
def F.ETH_ERR_LINK_UP : Fld := ⟨R.ETH_ERR, 1, 1⟩
def F.ETH_ERR_FCS : Fld := ⟨R.ETH_ERR, 2, 1⟩
def F.ETH_ERR_FEC_UNCORR : Fld := ⟨R.ETH_ERR, 3, 1⟩
def F.ETH_ERR_DROP : Fld := ⟨R.ETH_ERR, 4, 1⟩
def F.ETH_ERR_CFG_REFUSED : Fld := ⟨R.ETH_ERR, 5, 1⟩
def R.ETH_ERR_EN : Reg := { unit := 10, off := 0xc, stride2 := 0x10000, outer := 2, rw := 0x3f }
def R.ETH_MAC : Reg := { unit := 10, off := 0x10, bits := 64, stride := 8, stride2 := 0x10000, outer := 2, rw := 0xffffffffffff }
def F.ETH_MAC_ADDR : Fld := ⟨R.ETH_MAC, 0, 48⟩
def R.ETH_VLAN : Reg := { unit := 10, off := 0x18, stride2 := 0x10000, outer := 2, rw := 0xffff }
def F.ETH_VLAN_VID : Fld := ⟨R.ETH_VLAN, 0, 12⟩
def F.ETH_VLAN_PCP : Fld := ⟨R.ETH_VLAN, 12, 3⟩
def F.ETH_VLAN_EN : Fld := ⟨R.ETH_VLAN, 15, 1⟩
def R.ETH_MTU : Reg := { unit := 10, off := 0x1c, stride2 := 0x10000, outer := 2, rst := 0x5dc, rw := 0x3fff }
def F.ETH_MTU_BYTES : Fld := ⟨R.ETH_MTU, 0, 14⟩
def R.ETH_IPHDR : Reg := { unit := 10, off := 0x20, stride2 := 0x10000, outer := 2, rst := 0x40, rw := 0x3fff }
def F.ETH_IPHDR_TTL : Fld := ⟨R.ETH_IPHDR, 0, 8⟩
def F.ETH_IPHDR_DSCP : Fld := ⟨R.ETH_IPHDR, 8, 6⟩
def R.ETH_IP4 : Reg := { unit := 10, off := 0x24, stride2 := 0x10000, outer := 2, rw := 0xffffffff }
def F.ETH_IP4_ADDR : Fld := ⟨R.ETH_IP4, 0, 32⟩
def R.ETH_IP6_HI : Reg := { unit := 10, off := 0x28, bits := 64, stride := 8, stride2 := 0x10000, outer := 2, rw := 0xffffffffffffffff }
def F.ETH_IP6_HI_ADDR : Fld := ⟨R.ETH_IP6_HI, 0, 64⟩
def R.ETH_IP6_LO : Reg := { unit := 10, off := 0x30, bits := 64, stride := 8, stride2 := 0x10000, outer := 2, rw := 0xffffffffffffffff }
def F.ETH_IP6_LO_ADDR : Fld := ⟨R.ETH_IP6_LO, 0, 64⟩
def R.ETH_RX_FRAMES : Reg := { unit := 10, off := 0x38, stride2 := 0x10000, outer := 2 }
def F.ETH_RX_FRAMES_COUNT : Fld := ⟨R.ETH_RX_FRAMES, 0, 32⟩
def R.ETH_TX_FRAMES : Reg := { unit := 10, off := 0x3c, stride2 := 0x10000, outer := 2 }
def F.ETH_TX_FRAMES_COUNT : Fld := ⟨R.ETH_TX_FRAMES, 0, 32⟩
def R.ETH_DROPS : Reg := { unit := 10, off := 0x40, stride2 := 0x10000, outer := 2, rc := 0xffffffff }
def F.ETH_DROPS_COUNT : Fld := ⟨R.ETH_DROPS, 0, 32⟩
def R.ETH_FCS_ERRS : Reg := { unit := 10, off := 0x44, stride2 := 0x10000, outer := 2, rc := 0xffffffff }
def F.ETH_FCS_ERRS_COUNT : Fld := ⟨R.ETH_FCS_ERRS, 0, 32⟩
def R.ETH_FEC_CORR : Reg := { unit := 10, off := 0x48, stride2 := 0x10000, outer := 2, rc := 0xffffffff }
def F.ETH_FEC_CORR_COUNT : Fld := ⟨R.ETH_FEC_CORR, 0, 32⟩
def R.ETH_FEC_UNCORR : Reg := { unit := 10, off := 0x4c, stride2 := 0x10000, outer := 2, rc := 0xffffffff }
def F.ETH_FEC_UNCORR_COUNT : Fld := ⟨R.ETH_FEC_UNCORR, 0, 32⟩
def R.KTP_CTRL : Reg := { unit := 12, off := 0, rst := 0xb4e70002, rw := 0xffff0003 }
def F.KTP_CTRL_EN : Fld := ⟨R.KTP_CTRL, 0, 1⟩
def F.KTP_CTRL_FAILOVER_EN : Fld := ⟨R.KTP_CTRL, 1, 1⟩
def F.KTP_CTRL_UDP_PORT : Fld := ⟨R.KTP_CTRL, 16, 16⟩
def R.KTP_STATUS : Reg := { unit := 12, off := 4 }
def F.KTP_STATUS_OPEN : Fld := ⟨R.KTP_STATUS, 0, 8⟩
def F.KTP_STATUS_HOLD : Fld := ⟨R.KTP_STATUS, 8, 8⟩
def R.KTP_ERR : Reg := { unit := 12, off := 8, w1c := 0x1fff }
def F.KTP_ERR_CTRL_MSG : Fld := ⟨R.KTP_ERR, 0, 1⟩
def F.KTP_ERR_CRX_FULL : Fld := ⟨R.KTP_ERR, 1, 1⟩
def F.KTP_ERR_SESSION_OPEN : Fld := ⟨R.KTP_ERR, 2, 1⟩
def F.KTP_ERR_SESSION_CLOSED : Fld := ⟨R.KTP_ERR, 3, 1⟩
def F.KTP_ERR_HOLD : Fld := ⟨R.KTP_ERR, 4, 1⟩
def F.KTP_ERR_FAILOVER : Fld := ⟨R.KTP_ERR, 5, 1⟩
def F.KTP_ERR_REKEY_DUE : Fld := ⟨R.KTP_ERR, 6, 1⟩
def F.KTP_ERR_PN_EXHAUSTED : Fld := ⟨R.KTP_ERR, 7, 1⟩
def F.KTP_ERR_AUTH_FAIL : Fld := ⟨R.KTP_ERR, 8, 1⟩
def F.KTP_ERR_REPLAY : Fld := ⟨R.KTP_ERR, 9, 1⟩
def F.KTP_ERR_RTX_FULL : Fld := ⟨R.KTP_ERR, 10, 1⟩
def F.KTP_ERR_CFG_REFUSED : Fld := ⟨R.KTP_ERR, 11, 1⟩
def F.KTP_ERR_DATA_LOST : Fld := ⟨R.KTP_ERR, 12, 1⟩
def R.KTP_ERR_EN : Reg := { unit := 12, off := 0xc, rw := 0x1fff }
def R.KTP_RTX : Reg := { unit := 12, off := 0x10, rst := 0x140800c8, rw := 0xffffffff }
def F.KTP_RTX_RTO : Fld := ⟨R.KTP_RTX, 0, 16⟩
def F.KTP_RTX_MAX_TRIES : Fld := ⟨R.KTP_RTX, 16, 8⟩
def F.KTP_RTX_ACK_DELAY : Fld := ⟨R.KTP_RTX, 24, 8⟩
def R.KTP_HOLD : Reg := { unit := 12, off := 0x14, rst := 0x2710, rw := 0xfffff }
def F.KTP_HOLD_MS : Fld := ⟨R.KTP_HOLD, 0, 20⟩
def R.KTP_RTX_BASE : Reg := { unit := 12, off := 0x18, bits := 64, stride := 8, rw := 0xffffffff0000 }
def F.KTP_RTX_BASE_ADDR : Fld := ⟨R.KTP_RTX_BASE, 16, 32⟩
def R.KTP_RTX_SIZE : Reg := { unit := 12, off := 0x20, rw := 0xffff }
def F.KTP_RTX_SIZE_MIB : Fld := ⟨R.KTP_RTX_SIZE, 0, 16⟩
def R.KTP_SVC : Reg := { unit := 12, off := 0x24, rw := 0xff }
def F.KTP_SVC_EVT_SESSION : Fld := ⟨R.KTP_SVC, 0, 3⟩
def F.KTP_SVC_EVT_EN : Fld := ⟨R.KTP_SVC, 3, 1⟩
def F.KTP_SVC_TRACE_SESSION : Fld := ⟨R.KTP_SVC, 4, 3⟩
def F.KTP_SVC_TRACE_EN : Fld := ⟨R.KTP_SVC, 7, 1⟩
def R.KTP_RO_MAP : Reg := { unit := 12, off := 0x28, rw := 0xffffffff }
def F.KTP_RO_MAP_SESSION0 : Fld := ⟨R.KTP_RO_MAP, 0, 3⟩
def F.KTP_RO_MAP_SESSION1 : Fld := ⟨R.KTP_RO_MAP, 4, 3⟩
def F.KTP_RO_MAP_SESSION2 : Fld := ⟨R.KTP_RO_MAP, 8, 3⟩
def F.KTP_RO_MAP_SESSION3 : Fld := ⟨R.KTP_RO_MAP, 12, 3⟩
def F.KTP_RO_MAP_SESSION4 : Fld := ⟨R.KTP_RO_MAP, 16, 3⟩
def F.KTP_RO_MAP_SESSION5 : Fld := ⟨R.KTP_RO_MAP, 20, 3⟩
def F.KTP_RO_MAP_SESSION6 : Fld := ⟨R.KTP_RO_MAP, 24, 3⟩
def F.KTP_RO_MAP_SESSION7 : Fld := ⟨R.KTP_RO_MAP, 28, 3⟩
def F.KTP_RO_MAP_EN0 : Fld := ⟨R.KTP_RO_MAP, 3, 1⟩
def F.KTP_RO_MAP_EN1 : Fld := ⟨R.KTP_RO_MAP, 7, 1⟩
def F.KTP_RO_MAP_EN2 : Fld := ⟨R.KTP_RO_MAP, 11, 1⟩
def F.KTP_RO_MAP_EN3 : Fld := ⟨R.KTP_RO_MAP, 15, 1⟩
def F.KTP_RO_MAP_EN4 : Fld := ⟨R.KTP_RO_MAP, 19, 1⟩
def F.KTP_RO_MAP_EN5 : Fld := ⟨R.KTP_RO_MAP, 23, 1⟩
def F.KTP_RO_MAP_EN6 : Fld := ⟨R.KTP_RO_MAP, 27, 1⟩
def F.KTP_RO_MAP_EN7 : Fld := ⟨R.KTP_RO_MAP, 31, 1⟩
def R.KTP_AUTH_FAILS : Reg := { unit := 12, off := 0x2c, rc := 0xffffffff }
def F.KTP_AUTH_FAILS_COUNT : Fld := ⟨R.KTP_AUTH_FAILS, 0, 32⟩
def R.KTP_REPLAYS : Reg := { unit := 12, off := 0x30, rc := 0xffffffff }
def F.KTP_REPLAYS_COUNT : Fld := ⟨R.KTP_REPLAYS, 0, 32⟩
def R.KTP_RETRANSMITS : Reg := { unit := 12, off := 0x34, rc := 0xffffffff }
def F.KTP_RETRANSMITS_COUNT : Fld := ⟨R.KTP_RETRANSMITS, 0, 32⟩
def R.KTP_LOST_BYTES : Reg := { unit := 12, off := 0x38, bits := 64, stride := 8, rc := 0xffffffffffffffff }
def F.KTP_LOST_BYTES_COUNT : Fld := ⟨R.KTP_LOST_BYTES, 0, 64⟩
def R.KTP_CRX_BASE : Reg := { unit := 12, off := 0x40, bits := 64, stride := 8, rw := 0xfffffffff000 }
def F.KTP_CRX_BASE_ADDR : Fld := ⟨R.KTP_CRX_BASE, 12, 36⟩
def R.KTP_CRX_PTR : Reg := { unit := 12, off := 0x48, rw := 0xff0000 }
def F.KTP_CRX_PTR_HEAD : Fld := ⟨R.KTP_CRX_PTR, 0, 8⟩
def F.KTP_CRX_PTR_TAIL : Fld := ⟨R.KTP_CRX_PTR, 16, 8⟩
def R.KTP_CTX_BASE : Reg := { unit := 12, off := 0x50, bits := 64, stride := 8, rw := 0xfffffffff000 }
def F.KTP_CTX_BASE_ADDR : Fld := ⟨R.KTP_CTX_BASE, 12, 36⟩
def R.KTP_CTX_PTR : Reg := { unit := 12, off := 0x58, rw := 0xff }
def F.KTP_CTX_PTR_HEAD : Fld := ⟨R.KTP_CTX_PTR, 0, 8⟩
def F.KTP_CTX_PTR_TAIL : Fld := ⟨R.KTP_CTX_PTR, 16, 8⟩
def R.KTP_S_CTRL : Reg := { unit := 12, off := 0x1000, stride := 0x40, inner := 8, w1s := 1 }
def F.KTP_S_CTRL_CLOSE : Fld := ⟨R.KTP_S_CTRL, 0, 1⟩
def R.KTP_S_STATE : Reg := { unit := 12, off := 0x1004, stride := 0x40, inner := 8 }
def F.KTP_S_STATE_STATE : Fld := ⟨R.KTP_S_STATE, 0, 3⟩
def F.KTP_S_STATE_PORT : Fld := ⟨R.KTP_S_STATE, 4, 1⟩
def F.KTP_S_STATE_SA : Fld := ⟨R.KTP_S_STATE, 5, 1⟩
def R.KTP_S_ID : Reg := { unit := 12, off := 0x1008, stride := 0x40, inner := 8 }
def F.KTP_S_ID_SESSION : Fld := ⟨R.KTP_S_ID, 0, 32⟩
def R.KTP_S_TX_PN : Reg := { unit := 12, off := 0x1010, bits := 64, stride := 0x40, inner := 8 }
def F.KTP_S_TX_PN_PN : Fld := ⟨R.KTP_S_TX_PN, 0, 64⟩
def R.KTP_S_RX_PN : Reg := { unit := 12, off := 0x1018, bits := 64, stride := 0x40, inner := 8 }
def F.KTP_S_RX_PN_PN : Fld := ⟨R.KTP_S_RX_PN, 0, 64⟩
def R.KTP_S_DFW : Reg := { unit := 12, off := 0x1020, stride := 4, inner := 4, stride2 := 0x40, outer := 8 }
def F.KTP_S_DFW_BITS : Fld := ⟨R.KTP_S_DFW, 0, 32⟩
-- 12_configuration_and_startup
def R.CFG_STATUS : Reg := { unit := 0, off := 0 }
def F.CFG_STATUS_STATE : Fld := ⟨R.CFG_STATUS, 0, 3⟩
def F.CFG_STATUS_MODE : Fld := ⟨R.CFG_STATUS, 4, 3⟩
def F.CFG_STATUS_ID : Fld := ⟨R.CFG_STATUS, 8, 4⟩
def F.CFG_STATUS_DONE_OUT : Fld := ⟨R.CFG_STATUS, 12, 1⟩
def F.CFG_STATUS_DONE_IN : Fld := ⟨R.CFG_STATUS, 13, 1⟩
def F.CFG_STATUS_ERR_OUT : Fld := ⟨R.CFG_STATUS, 14, 1⟩
def F.CFG_STATUS_SRC : Fld := ⟨R.CFG_STATUS, 16, 2⟩
def F.CFG_STATUS_STARTED : Fld := ⟨R.CFG_STATUS, 18, 1⟩
def R.CFG_CTRL : Reg := { unit := 0, off := 4, w1s := 1 }
def F.CFG_CTRL_RESTART : Fld := ⟨R.CFG_CTRL, 0, 1⟩
def R.CFG_ERR : Reg := { unit := 0, off := 8, w1c := 0x1f }
def F.CFG_ERR_LOAD_FAIL : Fld := ⟨R.CFG_ERR, 0, 1⟩
def F.CFG_ERR_STARTED : Fld := ⟨R.CFG_ERR, 1, 1⟩
def F.CFG_ERR_SEQ_DONE : Fld := ⟨R.CFG_ERR, 2, 1⟩
def F.CFG_ERR_SEQ_TIMEOUT : Fld := ⟨R.CFG_ERR, 3, 1⟩
def F.CFG_ERR_DONE_FELL : Fld := ⟨R.CFG_ERR, 4, 1⟩
def R.CFG_ERR_EN : Reg := { unit := 0, off := 0xc, rw := 0x1f }
def R.CFG_CAUSE : Reg := { unit := 0, off := 0x10 }
def F.CFG_CAUSE_CODE : Fld := ⟨R.CFG_CAUSE, 0, 4⟩
def F.CFG_CAUSE_BLOCK : Fld := ⟨R.CFG_CAUSE, 8, 24⟩
def R.CFG_CAUSE_WORD : Reg := { unit := 0, off := 0x14 }
def F.CFG_CAUSE_WORD_WORD : Fld := ⟨R.CFG_CAUSE_WORD, 0, 32⟩
def R.CFG_CAUSE_FAR : Reg := { unit := 0, off := 0x18 }
def F.CFG_CAUSE_FAR_FAR : Fld := ⟨R.CFG_CAUSE_FAR, 0, 32⟩
def R.CFG_WORDS : Reg := { unit := 0, off := 0x1c }
def F.CFG_WORDS_COUNT : Fld := ⟨R.CFG_WORDS, 0, 32⟩
def R.CFG_IMAGE_ID : Reg := { unit := 0, off := 0x20, bits := 64, stride := 8 }
def F.CFG_IMAGE_ID_ID : Fld := ⟨R.CFG_IMAGE_ID, 0, 64⟩
def R.CFG_USERCODE : Reg := { unit := 0, off := 0x28, bits := 64, stride := 8 }
def F.CFG_USERCODE_CODE : Fld := ⟨R.CFG_USERCODE, 0, 64⟩
def R.CFG_SEQ_STATUS : Reg := { unit := 0, off := 0x30 }
def F.CFG_SEQ_STATUS_DONE : Fld := ⟨R.CFG_SEQ_STATUS, 0, 9⟩
def F.CFG_SEQ_STATUS_TIMEOUT : Fld := ⟨R.CFG_SEQ_STATUS, 16, 9⟩
def R.CFG_SEQ_GO : Reg := { unit := 0, off := 0x34, w1s := 0x1ff }
def F.CFG_SEQ_GO_GO : Fld := ⟨R.CFG_SEQ_GO, 0, 9⟩
def R.CFG_FRST : Reg := { unit := 0, off := 0x38, rw := 0xffff }
def F.CFG_FRST_ASSERT : Fld := ⟨R.CFG_FRST, 0, 16⟩
def R.CFG_LOADED : Reg := { unit := 0, off := 0x40, bits := 64, stride := 8 }
def F.CFG_LOADED_BAYS : Fld := ⟨R.CFG_LOADED, 0, 64⟩
def R.CFG_ANCHOR : Reg := { unit := 0, off := 0x48, bits := 64, stride := 8 }
def F.CFG_ANCHOR_BAYS : Fld := ⟨R.CFG_ANCHOR, 0, 64⟩
-- 13_bays_pager_and_scrubbing
def R.FEN_FENCED : Reg := { unit := 3, off := 0, bits := 64, stride := 8, rst := 0xffffffffffffffff }
def F.FEN_FENCED_BAYS : Fld := ⟨R.FEN_FENCED, 0, 64⟩
def R.FEN_INCOMPLETE : Reg := { unit := 3, off := 8, bits := 64, stride := 8 }
def F.FEN_INCOMPLETE_BAYS : Fld := ⟨R.FEN_INCOMPLETE, 0, 64⟩
def R.FEN_OFFLINE : Reg := { unit := 3, off := 0x10, bits := 64, stride := 8 }
def F.FEN_OFFLINE_BAYS : Fld := ⟨R.FEN_OFFLINE, 0, 64⟩
def R.FEN_SLAB_CTRL : Reg := { unit := 3, off := 0x18, rw := 0xf }
def F.FEN_SLAB_CTRL_FENCE : Fld := ⟨R.FEN_SLAB_CTRL, 0, 4⟩
def R.FEN_SLAB_STATUS : Reg := { unit := 3, off := 0x1c }
def F.FEN_SLAB_STATUS_FENCED : Fld := ⟨R.FEN_SLAB_STATUS, 0, 4⟩
def F.FEN_SLAB_STATUS_RAIL : Fld := ⟨R.FEN_SLAB_STATUS, 4, 4⟩
def R.FEN_BAY_CTRL : Reg := { unit := 3, off := 0x100, stride := 0x10, inner := 64, rw := 0xc, w1s := 3 }
def F.FEN_BAY_CTRL_FENCE : Fld := ⟨R.FEN_BAY_CTRL, 0, 1⟩
def F.FEN_BAY_CTRL_UNFENCE : Fld := ⟨R.FEN_BAY_CTRL, 1, 1⟩
def F.FEN_BAY_CTRL_HOLD : Fld := ⟨R.FEN_BAY_CTRL, 2, 1⟩
def F.FEN_BAY_CTRL_AUTO_REOPEN : Fld := ⟨R.FEN_BAY_CTRL, 3, 1⟩
def R.FEN_BAY_STATUS : Reg := { unit := 3, off := 0x104, stride := 0x10, inner := 64, rst := 0x1ff8 }
def F.FEN_BAY_STATUS_STATE : Fld := ⟨R.FEN_BAY_STATUS, 0, 3⟩
def F.FEN_BAY_STATUS_FENCED : Fld := ⟨R.FEN_BAY_STATUS, 3, 1⟩
def F.FEN_BAY_STATUS_SLOT : Fld := ⟨R.FEN_BAY_STATUS, 4, 8⟩
def F.FEN_BAY_STATUS_BY : Fld := ⟨R.FEN_BAY_STATUS, 12, 4⟩
def F.FEN_BAY_STATUS_ANCHOR : Fld := ⟨R.FEN_BAY_STATUS, 16, 1⟩
def F.FEN_BAY_STATUS_PRIV : Fld := ⟨R.FEN_BAY_STATUS, 17, 1⟩
def F.FEN_BAY_STATUS_GOLDEN : Fld := ⟨R.FEN_BAY_STATUS, 18, 1⟩
def R.FEN_BAY_EVT : Reg := { unit := 3, off := 0x108, stride := 0x10, inner := 64, w1c := 0x1f }
def F.FEN_BAY_EVT_ENTRY : Fld := ⟨R.FEN_BAY_EVT, 0, 1⟩
def F.FEN_BAY_EVT_INCOMPLETE : Fld := ⟨R.FEN_BAY_EVT, 1, 1⟩
def F.FEN_BAY_EVT_SCRUB_FENCE : Fld := ⟨R.FEN_BAY_EVT, 2, 1⟩
def F.FEN_BAY_EVT_REFUSED : Fld := ⟨R.FEN_BAY_EVT, 3, 1⟩
def F.FEN_BAY_EVT_RELEASE : Fld := ⟨R.FEN_BAY_EVT, 4, 1⟩
def R.FEN_BAY_EVT_EN : Reg := { unit := 3, off := 0x10c, stride := 0x10, inner := 64, rw := 0x1f }
def R.PGR_CTRL : Reg := { unit := 1, off := 0, rw := 1, w1s := 2 }
def F.PGR_CTRL_EN : Fld := ⟨R.PGR_CTRL, 0, 1⟩
def F.PGR_CTRL_ABORT : Fld := ⟨R.PGR_CTRL, 1, 1⟩
def R.PGR_STATUS : Reg := { unit := 1, off := 4 }
def F.PGR_STATUS_BUSY : Fld := ⟨R.PGR_STATUS, 0, 1⟩
def F.PGR_STATUS_QUEUED : Fld := ⟨R.PGR_STATUS, 1, 5⟩
def F.PGR_STATUS_RESULTS : Fld := ⟨R.PGR_STATUS, 6, 5⟩
def F.PGR_STATUS_QTZ_HELD : Fld := ⟨R.PGR_STATUS, 11, 1⟩
def R.PGR_ERR : Reg := { unit := 1, off := 8, w1c := 0xf }
def F.PGR_ERR_DONE : Fld := ⟨R.PGR_ERR, 0, 1⟩
def F.PGR_ERR_FAILED : Fld := ⟨R.PGR_ERR, 1, 1⟩
def F.PGR_ERR_CMD_REFUSED : Fld := ⟨R.PGR_ERR, 2, 1⟩
def F.PGR_ERR_RESULT_LOST : Fld := ⟨R.PGR_ERR, 3, 1⟩
def R.PGR_ERR_EN : Reg := { unit := 1, off := 0xc, rw := 0xf }
def R.PGR_CMD : Reg := { unit := 1, off := 0x10, bits := 64, stride := 8 }
def F.PGR_CMD_OP : Fld := ⟨R.PGR_CMD, 0, 4⟩
def F.PGR_CMD_BAY_A : Fld := ⟨R.PGR_CMD, 8, 6⟩
def F.PGR_CMD_BAY_B : Fld := ⟨R.PGR_CMD, 16, 6⟩
def F.PGR_CMD_SLOT : Fld := ⟨R.PGR_CMD, 24, 8⟩
def F.PGR_CMD_CONTENT : Fld := ⟨R.PGR_CMD, 32, 1⟩
def F.PGR_CMD_OPEN : Fld := ⟨R.PGR_CMD, 33, 1⟩
def F.PGR_CMD_TAG : Fld := ⟨R.PGR_CMD, 48, 16⟩
def R.PGR_ARG : Reg := { unit := 1, off := 0x18, bits := 64, stride := 8, rw := 0xffffffffffff }
def F.PGR_ARG_ADDR : Fld := ⟨R.PGR_ARG, 0, 48⟩
def R.PGR_RESULT : Reg := { unit := 1, off := 0x20, bits := 64, stride := 8, rst := 0x200000000 }
def F.PGR_RESULT_OP : Fld := ⟨R.PGR_RESULT, 0, 4⟩
def F.PGR_RESULT_STATUS : Fld := ⟨R.PGR_RESULT, 4, 4⟩
def F.PGR_RESULT_BAY_A : Fld := ⟨R.PGR_RESULT, 8, 6⟩
def F.PGR_RESULT_BAY_B : Fld := ⟨R.PGR_RESULT, 16, 6⟩
def F.PGR_RESULT_SLOT : Fld := ⟨R.PGR_RESULT, 24, 8⟩
def F.PGR_RESULT_SKIPPED : Fld := ⟨R.PGR_RESULT, 32, 1⟩
def F.PGR_RESULT_EMPTY : Fld := ⟨R.PGR_RESULT, 33, 1⟩
def F.PGR_RESULT_TAG : Fld := ⟨R.PGR_RESULT, 48, 16⟩
def R.PGR_CACHE_BASE : Reg := { unit := 1, off := 0x28, bits := 64, stride := 8, rw := 0xfffffffff000 }
def F.PGR_CACHE_BASE_ADDR : Fld := ⟨R.PGR_CACHE_BASE, 12, 36⟩
def R.PGR_CACHE_SLOTS : Reg := { unit := 1, off := 0x30, rw := 0x1ff }
def F.PGR_CACHE_SLOTS_COUNT : Fld := ⟨R.PGR_CACHE_SLOTS, 0, 9⟩
def R.PGR_UE_FRAME : Reg := { unit := 1, off := 0x34 }
def F.PGR_UE_FRAME_INDEX : Fld := ⟨R.PGR_UE_FRAME, 0, 14⟩
def R.PGR_ALLOW : Reg := { unit := 1, off := 0x38, bits := 64, stride := 8, rw := 0xffffffffffffffff }
def F.PGR_ALLOW_BAYS : Fld := ⟨R.PGR_ALLOW, 0, 64⟩
def R.PGR_SLOT_SEL : Reg := { unit := 1, off := 0x40, rw := 0xff }
def F.PGR_SLOT_SEL_SLOT : Fld := ⟨R.PGR_SLOT_SEL, 0, 8⟩
def R.PGR_SLOT_INFO : Reg := { unit := 1, off := 0x44 }
def F.PGR_SLOT_INFO_STATE : Fld := ⟨R.PGR_SLOT_INFO, 0, 2⟩
def F.PGR_SLOT_INFO_HOME : Fld := ⟨R.PGR_SLOT_INFO, 2, 6⟩
def F.PGR_SLOT_INFO_QUARTZ : Fld := ⟨R.PGR_SLOT_INFO, 8, 1⟩
def F.PGR_SLOT_INFO_BORDER : Fld := ⟨R.PGR_SLOT_INFO, 9, 4⟩
def F.PGR_SLOT_INFO_PLANS : Fld := ⟨R.PGR_SLOT_INFO, 13, 4⟩
def F.PGR_SLOT_INFO_IN_USE : Fld := ⟨R.PGR_SLOT_INFO, 17, 1⟩
def R.PGR_ICP_CTRL : Reg := { unit := 1, off := 0x100, stride := 0x10, inner := 4, rw := 0x3f, w1s := 0x300 }
def F.PGR_ICP_CTRL_BAY : Fld := ⟨R.PGR_ICP_CTRL, 0, 6⟩
def F.PGR_ICP_CTRL_ARM : Fld := ⟨R.PGR_ICP_CTRL, 8, 1⟩
def F.PGR_ICP_CTRL_ABORT : Fld := ⟨R.PGR_ICP_CTRL, 9, 1⟩
def R.PGR_ICP_STATUS : Reg := { unit := 1, off := 0x104, stride := 0x10, inner := 4 }
def F.PGR_ICP_STATUS_STATE : Fld := ⟨R.PGR_ICP_STATUS, 0, 2⟩
def F.PGR_ICP_STATUS_CAUSE : Fld := ⟨R.PGR_ICP_STATUS, 4, 4⟩
def F.PGR_ICP_STATUS_FRAMES : Fld := ⟨R.PGR_ICP_STATUS, 8, 24⟩
def R.PGR_ICP_EVT : Reg := { unit := 1, off := 0x108, stride := 0x10, inner := 4, w1c := 3 }
def F.PGR_ICP_EVT_DONE : Fld := ⟨R.PGR_ICP_EVT, 0, 1⟩
def F.PGR_ICP_EVT_FAIL : Fld := ⟨R.PGR_ICP_EVT, 1, 1⟩
def R.PGR_ICP_EVT_EN : Reg := { unit := 1, off := 0x10c, stride := 0x10, inner := 4, rw := 3 }
-- 14_geode_cores
def R.WDG_CTRL : Reg := { unit := 25, off := 0, stride := 0x20, inner := 9, rst := 2, rwl := 0xf }
def F.WDG_CTRL_EN : Fld := ⟨R.WDG_CTRL, 0, 1⟩
def F.WDG_CTRL_FREEZE : Fld := ⟨R.WDG_CTRL, 1, 1⟩
def F.WDG_CTRL_ACTION : Fld := ⟨R.WDG_CTRL, 2, 2⟩
def R.WDG_LOAD : Reg := { unit := 25, off := 4, stride := 0x20, inner := 9, rst := 0xf4240, rwl := 0xffffffff }
def F.WDG_LOAD_TICKS : Fld := ⟨R.WDG_LOAD, 0, 32⟩
def R.WDG_COUNT : Reg := { unit := 25, off := 8, stride := 0x20, inner := 9, rst := 0xf4240 }
def F.WDG_COUNT_COUNT : Fld := ⟨R.WDG_COUNT, 0, 32⟩
def R.WDG_KICK : Reg := { unit := 25, off := 0xc, stride := 0x20, inner := 9 }
def F.WDG_KICK_KEY : Fld := ⟨R.WDG_KICK, 0, 16⟩
def R.WDG_STATUS : Reg := { unit := 25, off := 0x10, stride := 0x20, inner := 9, w1c := 7 }
def F.WDG_STATUS_STAGE1 : Fld := ⟨R.WDG_STATUS, 0, 1⟩
def F.WDG_STATUS_STAGE2 : Fld := ⟨R.WDG_STATUS, 1, 1⟩
def F.WDG_STATUS_BAD_KICK : Fld := ⟨R.WDG_STATUS, 2, 1⟩
def F.WDG_STATUS_FROZEN : Fld := ⟨R.WDG_STATUS, 3, 1⟩
def R.WDG_CORE_CTRL : Reg := { unit := 25, off := 0x200, bits := 64, stride := 0x10, inner := 8, rw := 0xfffffffffffd }
def F.WDG_CORE_CTRL_RUN : Fld := ⟨R.WDG_CORE_CTRL, 0, 1⟩
def F.WDG_CORE_CTRL_ENTRY : Fld := ⟨R.WDG_CORE_CTRL, 2, 46⟩
def R.WDG_CORE_STATUS : Reg := { unit := 25, off := 0x208, stride := 0x10, inner := 8 }
def F.WDG_CORE_STATUS_STATE : Fld := ⟨R.WDG_CORE_STATUS, 0, 2⟩
def F.WDG_CORE_STATUS_WFI : Fld := ⟨R.WDG_CORE_STATUS, 2, 1⟩
def F.WDG_CORE_STATUS_OFFLINE : Fld := ⟨R.WDG_CORE_STATUS, 3, 1⟩
def R.KEY_STATUS : Reg := { unit := 26, off := 0 }
def F.KEY_STATUS_AUTH_PRESENT : Fld := ⟨R.KEY_STATUS, 0, 4⟩
def F.KEY_STATUS_AUTH_REVOKED : Fld := ⟨R.KEY_STATUS, 4, 4⟩
def F.KEY_STATUS_IMG_PRESENT : Fld := ⟨R.KEY_STATUS, 8, 4⟩
def F.KEY_STATUS_MEM_LOADED : Fld := ⟨R.KEY_STATUS, 12, 8⟩
def F.KEY_STATUS_PATCH_ACTIVE : Fld := ⟨R.KEY_STATUS, 20, 1⟩
def F.KEY_STATUS_WDEBUG_LOCKOUT : Fld := ⟨R.KEY_STATUS, 21, 1⟩
def F.KEY_STATUS_PATCH_MIN : Fld := ⟨R.KEY_STATUS, 24, 8⟩
def R.KEY_ERR : Reg := { unit := 26, off := 4, w1c := 7 }
def F.KEY_ERR_LOCK_VIOL : Fld := ⟨R.KEY_ERR, 0, 1⟩
def F.KEY_ERR_BOOT_FAIL : Fld := ⟨R.KEY_ERR, 1, 1⟩
def F.KEY_ERR_PATCH_FAIL : Fld := ⟨R.KEY_ERR, 2, 1⟩
def R.KEY_ERR_EN : Reg := { unit := 26, off := 8, rw := 7 }
def R.KEY_LOCK : Reg := { unit := 26, off := 0x10, w1s := 0xfffffff }
def F.KEY_LOCK_UNITS : Fld := ⟨R.KEY_LOCK, 0, 28⟩
def R.KEY_VIOL_LOG : Reg := { unit := 26, off := 0x18, bits := 64, stride := 8, w1c := 0x8000000000000000 }
def F.KEY_VIOL_LOG_ADDR : Fld := ⟨R.KEY_VIOL_LOG, 0, 48⟩
def F.KEY_VIOL_LOG_INIT : Fld := ⟨R.KEY_VIOL_LOG, 48, 10⟩
def F.KEY_VIOL_LOG_VALID : Fld := ⟨R.KEY_VIOL_LOG, 63, 1⟩
def R.KEY_VIOL_COUNT : Reg := { unit := 26, off := 0x20, rc := 0xffffffff }
def F.KEY_VIOL_COUNT_COUNT : Fld := ⟨R.KEY_VIOL_COUNT, 0, 32⟩
def R.KEY_REQ_CTRL : Reg := { unit := 26, off := 0x100, stride := 0x40, inner := 8, rw := 0x2ff, w1s := 0x100 }
def F.KEY_REQ_CTRL_CODE : Fld := ⟨R.KEY_REQ_CTRL, 0, 8⟩
def F.KEY_REQ_CTRL_GO : Fld := ⟨R.KEY_REQ_CTRL, 8, 1⟩
def F.KEY_REQ_CTRL_IRQ : Fld := ⟨R.KEY_REQ_CTRL, 9, 1⟩
def R.KEY_REQ_STATUS : Reg := { unit := 26, off := 0x104, stride := 0x40, inner := 8, w1c := 0x102 }
def F.KEY_REQ_STATUS_BUSY : Fld := ⟨R.KEY_REQ_STATUS, 0, 1⟩
def F.KEY_REQ_STATUS_DONE : Fld := ⟨R.KEY_REQ_STATUS, 1, 1⟩
def F.KEY_REQ_STATUS_STATUS : Fld := ⟨R.KEY_REQ_STATUS, 4, 4⟩
def F.KEY_REQ_STATUS_REFUSED : Fld := ⟨R.KEY_REQ_STATUS, 8, 1⟩
def R.KEY_REQ_ARG : Reg := { unit := 26, off := 0x108, bits := 64, stride := 8, inner := 4, stride2 := 0x40, outer := 8, rw := 0xffffffffffffffff }
def F.KEY_REQ_ARG_ARG : Fld := ⟨R.KEY_REQ_ARG, 0, 64⟩
def R.KEY_REQ_RES0 : Reg := { unit := 26, off := 0x128, bits := 64, stride := 0x40, inner := 8 }
def F.KEY_REQ_RES0_RES : Fld := ⟨R.KEY_REQ_RES0, 0, 64⟩
def R.KEY_REQ_RES1 : Reg := { unit := 26, off := 0x130, bits := 64, stride := 0x40, inner := 8 }
def F.KEY_REQ_RES1_RES : Fld := ⟨R.KEY_REQ_RES1, 0, 64⟩
-- 15_scratchpad_and_ecc
def R.SPD_ERR : Reg := { unit := 18, off := 0, w1c := 0x1f }
def F.SPD_ERR_CORRECTED : Fld := ⟨R.SPD_ERR, 0, 1⟩
def F.SPD_ERR_UE : Fld := ⟨R.SPD_ERR, 1, 1⟩
def F.SPD_ERR_NOT_OWNER : Fld := ⟨R.SPD_ERR, 2, 1⟩
def F.SPD_ERR_HANDOVER_DONE : Fld := ⟨R.SPD_ERR, 3, 1⟩
def F.SPD_ERR_CFG_REFUSED : Fld := ⟨R.SPD_ERR, 4, 1⟩
def R.SPD_ERR_EN : Reg := { unit := 18, off := 4, rw := 0x1f }
def R.SPD_UE_LOG : Reg := { unit := 18, off := 8, bits := 64, stride := 8, w1c := 0x8000000000000000 }
def F.SPD_UE_LOG_ADDR : Fld := ⟨R.SPD_UE_LOG, 0, 48⟩
def F.SPD_UE_LOG_INIT : Fld := ⟨R.SPD_UE_LOG, 48, 10⟩
def F.SPD_UE_LOG_VALID : Fld := ⟨R.SPD_UE_LOG, 63, 1⟩
def R.SPD_OWNER_LOG : Reg := { unit := 18, off := 0x10, bits := 64, stride := 8, w1c := 0x8000000000000000 }
def F.SPD_OWNER_LOG_ADDR : Fld := ⟨R.SPD_OWNER_LOG, 0, 48⟩
def F.SPD_OWNER_LOG_INIT : Fld := ⟨R.SPD_OWNER_LOG, 48, 10⟩
def F.SPD_OWNER_LOG_VALID : Fld := ⟨R.SPD_OWNER_LOG, 63, 1⟩
def R.SPD_OWN : Reg := { unit := 18, off := 0x100, stride := 0x10, inner := 32, rst := 2 }
def F.SPD_OWN_OWNER : Fld := ⟨R.SPD_OWN, 0, 14⟩
def R.SPD_HANDOVER : Reg := { unit := 18, off := 0x104, stride := 0x10, inner := 32, rst := 2, rw := 0x3fff }
def F.SPD_HANDOVER_NEXT : Fld := ⟨R.SPD_HANDOVER, 0, 14⟩
def F.SPD_HANDOVER_PENDING : Fld := ⟨R.SPD_HANDOVER, 31, 1⟩
def R.SPD_ECC : Reg := { unit := 18, off := 0x108, stride := 0x10, inner := 32, rc := 0xffffffff }
def F.SPD_ECC_CORRECTED : Fld := ⟨R.SPD_ECC, 0, 16⟩
def F.SPD_ECC_UE : Fld := ⟨R.SPD_ECC, 16, 16⟩
def R.DMA_CTRL : Reg := { unit := 19, off := 0, stride := 0x40, inner := 32, rw := 6, w1s := 9 }
def F.DMA_CTRL_GO : Fld := ⟨R.DMA_CTRL, 0, 1⟩
def F.DMA_CTRL_MODE : Fld := ⟨R.DMA_CTRL, 1, 1⟩
def F.DMA_CTRL_IRQ : Fld := ⟨R.DMA_CTRL, 2, 1⟩
def F.DMA_CTRL_ABORT : Fld := ⟨R.DMA_CTRL, 3, 1⟩
def R.DMA_STATUS : Reg := { unit := 19, off := 4, stride := 0x40, inner := 32, w1c := 0x70, rc := 0xffff0000 }
def F.DMA_STATUS_STATE : Fld := ⟨R.DMA_STATUS, 0, 2⟩
def F.DMA_STATUS_DONE : Fld := ⟨R.DMA_STATUS, 4, 1⟩
def F.DMA_STATUS_HALTED : Fld := ⟨R.DMA_STATUS, 5, 1⟩
def F.DMA_STATUS_REFUSED : Fld := ⟨R.DMA_STATUS, 6, 1⟩
def F.DMA_STATUS_RESP : Fld := ⟨R.DMA_STATUS, 8, 4⟩
def F.DMA_STATUS_TRANSIENT : Fld := ⟨R.DMA_STATUS, 16, 16⟩
def R.DMA_SRC : Reg := { unit := 19, off := 8, bits := 64, stride := 0x40, inner := 32, rw := 0xffffffffffff }
def F.DMA_SRC_ADDR : Fld := ⟨R.DMA_SRC, 0, 48⟩
def R.DMA_DST : Reg := { unit := 19, off := 0x10, bits := 64, stride := 0x40, inner := 32, rw := 0xffffffffffff }
def F.DMA_DST_ADDR : Fld := ⟨R.DMA_DST, 0, 48⟩
def R.DMA_LEN : Reg := { unit := 19, off := 0x18, stride := 0x40, inner := 32, rw := 0xffffffff }
def F.DMA_LEN_BYTES : Fld := ⟨R.DMA_LEN, 0, 32⟩
def R.DMA_DONE_BYTES : Reg := { unit := 19, off := 0x1c, stride := 0x40, inner := 32 }
def F.DMA_DONE_BYTES_BYTES : Fld := ⟨R.DMA_DONE_BYTES, 0, 32⟩
def R.DMA_PATTERN : Reg := { unit := 19, off := 0x20, bits := 64, stride := 0x40, inner := 32, rw := 0xffffffffffffffff }
def F.DMA_PATTERN_DATA : Fld := ⟨R.DMA_PATTERN, 0, 64⟩
def R.DMA_ERR_ADDR : Reg := { unit := 19, off := 0x28, bits := 64, stride := 0x40, inner := 32 }
def F.DMA_ERR_ADDR_ADDR : Fld := ⟨R.DMA_ERR_ADDR, 0, 48⟩
-- 16_dram_and_memory_encryption
def R.DMC_CTRL : Reg := { unit := 13, off := 0, stride2 := 0x10000, outer := 4, rst := 4, rw := 7, w1s := 8 }
def F.DMC_CTRL_EN : Fld := ⟨R.DMC_CTRL, 0, 1⟩
def F.DMC_CTRL_INIT_FILL : Fld := ⟨R.DMC_CTRL, 1, 1⟩
def F.DMC_CTRL_AUTO_RETIRE : Fld := ⟨R.DMC_CTRL, 2, 1⟩
def F.DMC_CTRL_RETIRE : Fld := ⟨R.DMC_CTRL, 3, 1⟩
def R.DMC_STATUS : Reg := { unit := 13, off := 4, stride2 := 0x10000, outer := 4 }
def F.DMC_STATUS_STATE : Fld := ⟨R.DMC_STATUS, 0, 3⟩
def F.DMC_STATUS_ACTIVE_SET : Fld := ⟨R.DMC_STATUS, 3, 1⟩
def F.DMC_STATUS_B_TRAINED : Fld := ⟨R.DMC_STATUS, 4, 1⟩
def R.DMC_ERR : Reg := { unit := 13, off := 8, stride2 := 0x10000, outer := 4, w1c := 0x1ff }
def F.DMC_ERR_INIT_DONE : Fld := ⟨R.DMC_ERR, 0, 1⟩
def F.DMC_ERR_TRAIN_FAIL : Fld := ⟨R.DMC_ERR, 1, 1⟩
def F.DMC_ERR_FREQ_DONE : Fld := ⟨R.DMC_ERR, 2, 1⟩
def F.DMC_ERR_RETRAINED : Fld := ⟨R.DMC_ERR, 3, 1⟩
def F.DMC_ERR_CORRECTED : Fld := ⟨R.DMC_ERR, 4, 1⟩
def F.DMC_ERR_UE : Fld := ⟨R.DMC_ERR, 5, 1⟩
def F.DMC_ERR_PARTIAL_FAIL : Fld := ⟨R.DMC_ERR, 6, 1⟩
def F.DMC_ERR_RETIRED : Fld := ⟨R.DMC_ERR, 7, 1⟩
def F.DMC_ERR_CFG_REFUSED : Fld := ⟨R.DMC_ERR, 8, 1⟩
def R.DMC_ERR_EN : Reg := { unit := 13, off := 0xc, stride2 := 0x10000, outer := 4, rw := 0x1ff }
def R.DMC_CONFIG : Reg := { unit := 13, off := 0x10, stride2 := 0x10000, outer := 4, rst := 0x2008, rw := 0xf }
def F.DMC_CONFIG_DENSITY : Fld := ⟨R.DMC_CONFIG, 0, 2⟩
def F.DMC_CONFIG_RANKS : Fld := ⟨R.DMC_CONFIG, 2, 1⟩
def F.DMC_CONFIG_RDIMM : Fld := ⟨R.DMC_CONFIG, 3, 1⟩
def F.DMC_CONFIG_CAPACITY : Fld := ⟨R.DMC_CONFIG, 8, 8⟩
def R.DMC_FREQ : Reg := { unit := 13, off := 0x14, stride2 := 0x10000, outer := 4, rw := 1, w1s := 2 }
def F.DMC_FREQ_TARGET : Fld := ⟨R.DMC_FREQ, 0, 1⟩
def F.DMC_FREQ_GO : Fld := ⟨R.DMC_FREQ, 1, 1⟩
def R.DMC_RETRAIN : Reg := { unit := 13, off := 0x18, stride2 := 0x10000, outer := 4, rst := 0x608, rw := 0x6ff, w1s := 0x100 }
def F.DMC_RETRAIN_DRIFT_THR : Fld := ⟨R.DMC_RETRAIN, 0, 8⟩
def F.DMC_RETRAIN_FORCE : Fld := ⟨R.DMC_RETRAIN, 8, 1⟩
def F.DMC_RETRAIN_TEMP_EN : Fld := ⟨R.DMC_RETRAIN, 9, 1⟩
def F.DMC_RETRAIN_DRIFT_EN : Fld := ⟨R.DMC_RETRAIN, 10, 1⟩
def R.DMC_TEMP : Reg := { unit := 13, off := 0x1c, stride2 := 0x10000, outer := 4 }
def F.DMC_TEMP_NOW : Fld := ⟨R.DMC_TEMP, 0, 8⟩
def F.DMC_TEMP_AT_TRAIN : Fld := ⟨R.DMC_TEMP, 8, 8⟩
def R.DMC_ECC : Reg := { unit := 13, off := 0x20, stride2 := 0x10000, outer := 4, rc := 0xffffffff }
def F.DMC_ECC_CORRECTED : Fld := ⟨R.DMC_ECC, 0, 16⟩
def F.DMC_ECC_UE : Fld := ⟨R.DMC_ECC, 16, 16⟩
def R.DMC_UE_LIMIT : Reg := { unit := 13, off := 0x24, stride2 := 0x10000, outer := 4, rw := 0xffff }
def F.DMC_UE_LIMIT_COUNT : Fld := ⟨R.DMC_UE_LIMIT, 0, 16⟩
def F.DMC_UE_LIMIT_TOTAL : Fld := ⟨R.DMC_UE_LIMIT, 16, 16⟩
def R.DMC_ERR_LOG : Reg := { unit := 13, off := 0x28, bits := 64, stride := 8, stride2 := 0x10000, outer := 4, w1c := 0x8000000000000000 }
def F.DMC_ERR_LOG_ADDR : Fld := ⟨R.DMC_ERR_LOG, 0, 48⟩
def F.DMC_ERR_LOG_INIT : Fld := ⟨R.DMC_ERR_LOG, 48, 10⟩
def F.DMC_ERR_LOG_KIND : Fld := ⟨R.DMC_ERR_LOG, 58, 4⟩
def F.DMC_ERR_LOG_VALID : Fld := ⟨R.DMC_ERR_LOG, 63, 1⟩
def R.DMC_PORT : Reg := { unit := 13, off := 0x40, stride := 4, inner := 6, stride2 := 0x10000, outer := 4, rw := 0xffff }
def F.DMC_PORT_TARGET_NS : Fld := ⟨R.DMC_PORT, 0, 16⟩
def R.DMC_PORT_MISS : Reg := { unit := 13, off := 0x60, stride := 4, inner := 6, stride2 := 0x10000, outer := 4, rc := 0xffffffff }
def F.DMC_PORT_MISS_COUNT : Fld := ⟨R.DMC_PORT_MISS, 0, 32⟩
def R.DMC_TSET0 : Reg := { unit := 13, off := 0x100, stride := 0x10, inner := 2, stride2 := 0x10000, outer := 4, rst := 0x80001900, rw := 0x80001fff }
def F.DMC_TSET0_RATE : Fld := ⟨R.DMC_TSET0, 0, 13⟩
def F.DMC_TSET0_VALID : Fld := ⟨R.DMC_TSET0, 31, 1⟩
def R.DMC_TSET1 : Reg := { unit := 13, off := 0x104, stride := 0x10, inner := 2, stride2 := 0x10000, outer := 4, rst := 0x34343234, rw := 0xffffffff }
def F.DMC_TSET1_tCL : Fld := ⟨R.DMC_TSET1, 0, 8⟩
def F.DMC_TSET1_tCWL : Fld := ⟨R.DMC_TSET1, 8, 8⟩
def F.DMC_TSET1_tRCD : Fld := ⟨R.DMC_TSET1, 16, 8⟩
def F.DMC_TSET1_tRP : Fld := ⟨R.DMC_TSET1, 24, 8⟩
def R.DMC_TSET2 : Reg := { unit := 13, off := 0x108, stride := 0x10, inner := 2, stride2 := 0x10000, outer := 4, rst := 0x206067, rw := 0xffffff }
def F.DMC_TSET2_tRAS : Fld := ⟨R.DMC_TSET2, 0, 8⟩
def F.DMC_TSET2_tWR : Fld := ⟨R.DMC_TSET2, 8, 8⟩
def F.DMC_TSET2_tFAW : Fld := ⟨R.DMC_TSET2, 16, 8⟩
def R.DMC_TSET3 : Reg := { unit := 13, off := 0x10c, stride := 0x10, inner := 2, stride2 := 0x10000, outer := 4, rst := 0x186019a, rw := 0xfff0fff }
def F.DMC_TSET3_tRFC : Fld := ⟨R.DMC_TSET3, 0, 12⟩
def F.DMC_TSET3_tREFI : Fld := ⟨R.DMC_TSET3, 16, 12⟩
def R.DMC_EYE : Reg := { unit := 13, off := 0x200, stride := 4, inner := 10, stride2 := 0x10000, outer := 4 }
def F.DMC_EYE_RD_WIDTH : Fld := ⟨R.DMC_EYE, 0, 8⟩
def F.DMC_EYE_WR_WIDTH : Fld := ⟨R.DMC_EYE, 8, 8⟩
-- 17_clocks_and_power
def R.CKG_ERR : Reg := { unit := 21, off := 0, w1c := 3 }
def F.CKG_ERR_MON_TRIP : Fld := ⟨R.CKG_ERR, 0, 1⟩
def F.CKG_ERR_GATE_REFUSED : Fld := ⟨R.CKG_ERR, 1, 1⟩
def R.CKG_ERR_EN : Reg := { unit := 21, off := 4, rw := 3 }
def R.CKG_GATE_LOG : Reg := { unit := 21, off := 8 }
def F.CKG_GATE_LOG_GATE : Fld := ⟨R.CKG_GATE_LOG, 0, 7⟩
def R.CKG_GATE_TOP : Reg := { unit := 21, off := 0x10, rst := 0xffff1f, rwl := 0xffff1f }
def F.CKG_GATE_TOP_ROOT : Fld := ⟨R.CKG_GATE_TOP, 0, 1⟩
def F.CKG_GATE_TOP_SLAB : Fld := ⟨R.CKG_GATE_TOP, 1, 4⟩
def F.CKG_GATE_TOP_ROW : Fld := ⟨R.CKG_GATE_TOP, 8, 16⟩
def R.CKG_GATE_GEODE : Reg := { unit := 21, off := 0x14, rst := 0xfffff, rwl := 0xfffff }
def F.CKG_GATE_GEODE_UNIT : Fld := ⟨R.CKG_GATE_GEODE, 0, 20⟩
def R.CKG_GDOM : Reg := { unit := 21, off := 0x18, rst := 3 }
def F.CKG_GDOM_CORE_FLINT : Fld := ⟨R.CKG_GDOM, 0, 1⟩
def F.CKG_GDOM_SAND_FLINT : Fld := ⟨R.CKG_GDOM, 1, 1⟩
def F.CKG_GDOM_RAMPING : Fld := ⟨R.CKG_GDOM, 2, 1⟩
def R.CKG_GATE_BAY : Reg := { unit := 21, off := 0x20, bits := 64, stride := 8, rst := 0xffffffffffffffff, rwl := 0xffffffffffffffff }
def F.CKG_GATE_BAY_BAYS : Fld := ⟨R.CKG_GATE_BAY, 0, 64⟩
def R.CKG_HOLD_BAY : Reg := { unit := 21, off := 0x28, bits := 64, stride := 8, rst := 0xffffffffffffffff }
def F.CKG_HOLD_BAY_BAYS : Fld := ⟨R.CKG_HOLD_BAY, 0, 64⟩
def R.CKG_EFF_BAY : Reg := { unit := 21, off := 0x30, bits := 64, stride := 8 }
def F.CKG_EFF_BAY_BAYS : Fld := ⟨R.CKG_EFF_BAY, 0, 64⟩
def R.CKG_MON_CTRL : Reg := { unit := 21, off := 0x100, stride := 8, inner := 3, rst := 0xa400000, rw := 0xffffffff }
def F.CKG_MON_CTRL_KHZ : Fld := ⟨R.CKG_MON_CTRL, 0, 20⟩
def F.CKG_MON_CTRL_TOL : Fld := ⟨R.CKG_MON_CTRL, 20, 4⟩
def F.CKG_MON_CTRL_STABLE : Fld := ⟨R.CKG_MON_CTRL, 24, 8⟩
def R.CKG_MON_STATUS : Reg := { unit := 21, off := 0x104, stride := 8, inner := 3, w1c := 2 }
def F.CKG_MON_STATUS_STABLE : Fld := ⟨R.CKG_MON_STATUS, 0, 1⟩
def F.CKG_MON_STATUS_TRIPPED : Fld := ⟨R.CKG_MON_STATUS, 1, 1⟩
def F.CKG_MON_STATUS_COUNT : Fld := ⟨R.CKG_MON_STATUS, 8, 24⟩
def R.CKG_SYN_CTRL : Reg := { unit := 21, off := 0x1000, stride := 0x20, inner := 54, rst := 0x100000c, rw := 0x813fffff }
def F.CKG_SYN_CTRL_INPUT : Fld := ⟨R.CKG_SYN_CTRL, 0, 2⟩
def F.CKG_SYN_CTRL_FALLBACK : Fld := ⟨R.CKG_SYN_CTRL, 2, 2⟩
def F.CKG_SYN_CTRL_P : Fld := ⟨R.CKG_SYN_CTRL, 4, 6⟩
def F.CKG_SYN_CTRL_M : Fld := ⟨R.CKG_SYN_CTRL, 10, 12⟩
def F.CKG_SYN_CTRL_REVERT : Fld := ⟨R.CKG_SYN_CTRL, 24, 1⟩
def F.CKG_SYN_CTRL_EN : Fld := ⟨R.CKG_SYN_CTRL, 31, 1⟩
def R.CKG_SYN_FB : Reg := { unit := 21, off := 0x1004, stride := 0x20, inner := 54, rw := 0x3ffff }
def F.CKG_SYN_FB_FB_P : Fld := ⟨R.CKG_SYN_FB, 0, 6⟩
def F.CKG_SYN_FB_FB_M : Fld := ⟨R.CKG_SYN_FB, 6, 12⟩
def R.CKG_SYN_DIV : Reg := { unit := 21, off := 0x1008, stride := 0x20, inner := 54, rw := 0xffffffff }
def F.CKG_SYN_DIV_D0 : Fld := ⟨R.CKG_SYN_DIV, 0, 8⟩
def F.CKG_SYN_DIV_D1 : Fld := ⟨R.CKG_SYN_DIV, 8, 8⟩
def F.CKG_SYN_DIV_D2 : Fld := ⟨R.CKG_SYN_DIV, 16, 8⟩
def F.CKG_SYN_DIV_D3 : Fld := ⟨R.CKG_SYN_DIV, 24, 8⟩
def R.CKG_SYN_STATUS : Reg := { unit := 21, off := 0x100c, stride := 0x20, inner := 54 }
def F.CKG_SYN_STATUS_STATE : Fld := ⟨R.CKG_SYN_STATUS, 0, 3⟩
def F.CKG_SYN_STATUS_LOCK : Fld := ⟨R.CKG_SYN_STATUS, 3, 1⟩
def F.CKG_SYN_STATUS_XLOCK : Fld := ⟨R.CKG_SYN_STATUS, 4, 4⟩
def F.CKG_SYN_STATUS_RAMPING : Fld := ⟨R.CKG_SYN_STATUS, 8, 1⟩
def R.CKG_SYN_EVT : Reg := { unit := 21, off := 0x1010, stride := 0x20, inner := 54, w1c := 0x3f }
def F.CKG_SYN_EVT_TRIP : Fld := ⟨R.CKG_SYN_EVT, 0, 1⟩
def F.CKG_SYN_EVT_FALLBACK : Fld := ⟨R.CKG_SYN_EVT, 1, 1⟩
def F.CKG_SYN_EVT_FLINT : Fld := ⟨R.CKG_SYN_EVT, 2, 1⟩
def F.CKG_SYN_EVT_REVERT : Fld := ⟨R.CKG_SYN_EVT, 3, 1⟩
def F.CKG_SYN_EVT_XLOCK_LOST : Fld := ⟨R.CKG_SYN_EVT, 4, 1⟩
def F.CKG_SYN_EVT_CFG_REFUSED : Fld := ⟨R.CKG_SYN_EVT, 5, 1⟩
def R.CKG_SYN_EVT_EN : Reg := { unit := 21, off := 0x1014, stride := 0x20, inner := 54, rw := 0x3f }
def R.PWR_STATE : Reg := { unit := 22, off := 0 }
def F.PWR_STATE_CURRENT : Fld := ⟨R.PWR_STATE, 0, 3⟩
def F.PWR_STATE_TARGET : Fld := ⟨R.PWR_STATE, 4, 3⟩
def F.PWR_STATE_FROM : Fld := ⟨R.PWR_STATE, 8, 3⟩
def F.PWR_STATE_IN_TRANSITION : Fld := ⟨R.PWR_STATE, 12, 1⟩
def F.PWR_STATE_EMULATED : Fld := ⟨R.PWR_STATE, 13, 1⟩
def R.PWR_ERR : Reg := { unit := 22, off := 4, w1c := 0xf }
def F.PWR_ERR_EXIT_DONE : Fld := ⟨R.PWR_ERR, 0, 1⟩
def F.PWR_ERR_ENTRY_DONE : Fld := ⟨R.PWR_ERR, 1, 1⟩
def F.PWR_ERR_REPLAY : Fld := ⟨R.PWR_ERR, 2, 1⟩
def F.PWR_ERR_DOMAIN_DONE : Fld := ⟨R.PWR_ERR, 3, 1⟩
def R.PWR_ERR_EN : Reg := { unit := 22, off := 8, rw := 0xf }
def R.PWR_CTRL : Reg := { unit := 22, off := 0xc, w1s := 1 }
def F.PWR_CTRL_PAD_RELEASE : Fld := ⟨R.PWR_CTRL, 0, 1⟩
def R.PWR_DOM_ON : Reg := { unit := 22, off := 0x10, stride := 4, inner := 3, rst := 0xffffffff, rw := 0xffffffff }
def F.PWR_DOM_ON_ON : Fld := ⟨R.PWR_DOM_ON, 0, 32⟩
def R.PWR_DOM_STATE : Reg := { unit := 22, off := 0x20, stride := 4, inner := 3 }
def F.PWR_DOM_STATE_ON : Fld := ⟨R.PWR_DOM_STATE, 0, 32⟩
def R.PWR_RETAIN : Reg := { unit := 22, off := 0x30, rw := 0xffffffff }
def F.PWR_RETAIN_BANKS : Fld := ⟨R.PWR_RETAIN, 0, 32⟩
def R.PWR_WAKE_EN : Reg := { unit := 22, off := 0x34, rw := 0xfff }
def F.PWR_WAKE_EN_EN : Fld := ⟨R.PWR_WAKE_EN, 0, 12⟩
def R.PWR_WAKE_CAUSE : Reg := { unit := 22, off := 0x38, w1c := 0xfff }
def F.PWR_WAKE_CAUSE_CAUSE : Fld := ⟨R.PWR_WAKE_CAUSE, 0, 12⟩
def R.PWR_CMP_CTRL : Reg := { unit := 22, off := 0x40, stride := 8, inner := 8, rw := 0xffffff7f }
def F.PWR_CMP_CTRL_SEL : Fld := ⟨R.PWR_CMP_CTRL, 0, 5⟩
def F.PWR_CMP_CTRL_DIR : Fld := ⟨R.PWR_CMP_CTRL, 5, 1⟩
def F.PWR_CMP_CTRL_EN : Fld := ⟨R.PWR_CMP_CTRL, 6, 1⟩
def F.PWR_CMP_CTRL_THRESH : Fld := ⟨R.PWR_CMP_CTRL, 8, 12⟩
def F.PWR_CMP_CTRL_HYST : Fld := ⟨R.PWR_CMP_CTRL, 20, 8⟩
def F.PWR_CMP_CTRL_FILTER : Fld := ⟨R.PWR_CMP_CTRL, 28, 4⟩
def R.PWR_CMP_STATUS : Reg := { unit := 22, off := 0x44, stride := 8, inner := 8, w1c := 2 }
def F.PWR_CMP_STATUS_OUT : Fld := ⟨R.PWR_CMP_STATUS, 0, 1⟩
def F.PWR_CMP_STATUS_ROSE : Fld := ⟨R.PWR_CMP_STATUS, 1, 1⟩
def F.PWR_CMP_STATUS_VALUE : Fld := ⟨R.PWR_CMP_STATUS, 4, 12⟩
-- 18_service_pins_and_events
def R.SVP_PIN_CTRL : Reg := { unit := 23, off := 0, stride := 8, inner := 64, rst := 0x100000, rw := 0x7ffffff }
def F.SVP_PIN_CTRL_FUNC : Fld := ⟨R.SVP_PIN_CTRL, 0, 4⟩
def F.SVP_PIN_CTRL_SIG_A : Fld := ⟨R.SVP_PIN_CTRL, 4, 7⟩
def F.SVP_PIN_CTRL_SIG_B : Fld := ⟨R.SVP_PIN_CTRL, 11, 7⟩
def F.SVP_PIN_CTRL_SIG_B_EN : Fld := ⟨R.SVP_PIN_CTRL, 18, 1⟩
def F.SVP_PIN_CTRL_PULL : Fld := ⟨R.SVP_PIN_CTRL, 19, 2⟩
def F.SVP_PIN_CTRL_DRIVE : Fld := ⟨R.SVP_PIN_CTRL, 21, 1⟩
def F.SVP_PIN_CTRL_IRQ_MODE : Fld := ⟨R.SVP_PIN_CTRL, 22, 3⟩
def F.SVP_PIN_CTRL_IRQ_EN : Fld := ⟨R.SVP_PIN_CTRL, 25, 1⟩
def F.SVP_PIN_CTRL_WAKE : Fld := ⟨R.SVP_PIN_CTRL, 26, 1⟩
def R.SVP_PIN_STATUS : Reg := { unit := 23, off := 4, stride := 8, inner := 64, w1c := 2 }
def F.SVP_PIN_STATUS_IN : Fld := ⟨R.SVP_PIN_STATUS, 0, 1⟩
def F.SVP_PIN_STATUS_IRQ : Fld := ⟨R.SVP_PIN_STATUS, 1, 1⟩
def F.SVP_PIN_STATUS_SWITCHING : Fld := ⟨R.SVP_PIN_STATUS, 2, 1⟩
def R.SVP_GPIO_OUT : Reg := { unit := 23, off := 0x200, bits := 64, stride := 8, rw := 0xffffffffffffffff }
def F.SVP_GPIO_OUT_OUT : Fld := ⟨R.SVP_GPIO_OUT, 0, 64⟩
def R.SVP_GPIO_OE : Reg := { unit := 23, off := 0x208, bits := 64, stride := 8, rw := 0xffffffffffffffff }
def F.SVP_GPIO_OE_OE : Fld := ⟨R.SVP_GPIO_OE, 0, 64⟩
def R.SVP_GPIO_IN : Reg := { unit := 23, off := 0x210, bits := 64, stride := 8 }
def F.SVP_GPIO_IN_IN : Fld := ⟨R.SVP_GPIO_IN, 0, 64⟩
def R.SVP_UART_CTRL : Reg := { unit := 23, off := 0x300, stride := 0x10, inner := 4, rst := 0x116, rw := 0x8000ffff }
def F.SVP_UART_CTRL_DIV : Fld := ⟨R.SVP_UART_CTRL, 0, 16⟩
def F.SVP_UART_CTRL_EN : Fld := ⟨R.SVP_UART_CTRL, 31, 1⟩
def R.SVP_UART_DATA : Reg := { unit := 23, off := 0x304, stride := 0x10, inner := 4, rst := 0x100, rw := 0xff }
def F.SVP_UART_DATA_BYTE : Fld := ⟨R.SVP_UART_DATA, 0, 8⟩
def F.SVP_UART_DATA_EMPTY : Fld := ⟨R.SVP_UART_DATA, 8, 1⟩
def R.SVP_UART_STATUS : Reg := { unit := 23, off := 0x308, stride := 0x10, inner := 4, w1c := 0x40 }
def F.SVP_UART_STATUS_RX_COUNT : Fld := ⟨R.SVP_UART_STATUS, 0, 5⟩
def F.SVP_UART_STATUS_TX_FULL : Fld := ⟨R.SVP_UART_STATUS, 5, 1⟩
def F.SVP_UART_STATUS_OVERRUN : Fld := ⟨R.SVP_UART_STATUS, 6, 1⟩
def R.SVP_SPI_CTRL : Reg := { unit := 23, off := 0x400, stride := 0x10, inner := 2, rw := 0x3fff }
def F.SVP_SPI_CTRL_DIV : Fld := ⟨R.SVP_SPI_CTRL, 0, 8⟩
def F.SVP_SPI_CTRL_MODE : Fld := ⟨R.SVP_SPI_CTRL, 8, 2⟩
def F.SVP_SPI_CTRL_CS : Fld := ⟨R.SVP_SPI_CTRL, 10, 4⟩
def R.SVP_SPI_DATA : Reg := { unit := 23, off := 0x404, stride := 0x10, inner := 2, rw := 0xff }
def F.SVP_SPI_DATA_BYTE : Fld := ⟨R.SVP_SPI_DATA, 0, 8⟩
def R.SVP_SPI_STATUS : Reg := { unit := 23, off := 0x408, stride := 0x10, inner := 2 }
def F.SVP_SPI_STATUS_BUSY : Fld := ⟨R.SVP_SPI_STATUS, 0, 1⟩
def R.SVP_I2C_CTRL : Reg := { unit := 23, off := 0x500, stride := 0x10, inner := 4, rst := 0x50, rw := 0xfff }
def F.SVP_I2C_CTRL_DIV : Fld := ⟨R.SVP_I2C_CTRL, 0, 12⟩
def R.SVP_I2C_CMD : Reg := { unit := 23, off := 0x504, stride := 0x10, inner := 4, rw := 0xff, w1s := 0x700 }
def F.SVP_I2C_CMD_BYTE : Fld := ⟨R.SVP_I2C_CMD, 0, 8⟩
def F.SVP_I2C_CMD_OP : Fld := ⟨R.SVP_I2C_CMD, 8, 3⟩
def R.SVP_I2C_STATUS : Reg := { unit := 23, off := 0x508, stride := 0x10, inner := 4, w1c := 6 }
def F.SVP_I2C_STATUS_BUSY : Fld := ⟨R.SVP_I2C_STATUS, 0, 1⟩
def F.SVP_I2C_STATUS_NACK : Fld := ⟨R.SVP_I2C_STATUS, 1, 1⟩
def F.SVP_I2C_STATUS_ARB_LOST : Fld := ⟨R.SVP_I2C_STATUS, 2, 1⟩
def R.SVP_TMR_CTRL : Reg := { unit := 23, off := 0x600, stride := 0x10, inner := 8, rw := 3 }
def F.SVP_TMR_CTRL_MODE : Fld := ⟨R.SVP_TMR_CTRL, 0, 2⟩
def R.SVP_TMR_PERIOD : Reg := { unit := 23, off := 0x604, stride := 0x10, inner := 8, rw := 0xffffffff }
def F.SVP_TMR_PERIOD_TICKS : Fld := ⟨R.SVP_TMR_PERIOD, 0, 32⟩
def R.SVP_TMR_CMP : Reg := { unit := 23, off := 0x608, stride := 0x10, inner := 8, rw := 0xffffffff }
def F.SVP_TMR_CMP_TICKS : Fld := ⟨R.SVP_TMR_CMP, 0, 32⟩
def R.SVP_TMR_VAL : Reg := { unit := 23, off := 0x60c, stride := 0x10, inner := 8 }
def F.SVP_TMR_VAL_COUNT : Fld := ⟨R.SVP_TMR_VAL, 0, 32⟩
def R.SVP_FAN_PWM : Reg := { unit := 23, off := 0x700, stride := 8, inner := 4, rst := 0xff, rw := 0xff }
def F.SVP_FAN_PWM_DUTY : Fld := ⟨R.SVP_FAN_PWM, 0, 8⟩
def R.SVP_FAN_TACH : Reg := { unit := 23, off := 0x704, stride := 8, inner := 4 }
def F.SVP_FAN_TACH_COUNT : Fld := ⟨R.SVP_FAN_TACH, 0, 16⟩
def R.EVC_SOFT : Reg := { unit := 20, off := 0, rw := 0xff }
def F.EVC_SOFT_SET : Fld := ⟨R.EVC_SOFT, 0, 8⟩
def R.EVC_HOST_DROPS : Reg := { unit := 20, off := 4, rc := 0xffffffff }
def F.EVC_HOST_DROPS_COUNT : Fld := ⟨R.EVC_HOST_DROPS, 0, 32⟩
def R.EVC_STATUS : Reg := { unit := 20, off := 8 }
def F.EVC_STATUS_HOST_QUEUE : Fld := ⟨R.EVC_STATUS, 0, 9⟩
def R.EVC_EVTOUT : Reg := { unit := 20, off := 0x40, stride := 4, inner := 8, rw := 0x800001ff }
def F.EVC_EVTOUT_SRC : Fld := ⟨R.EVC_EVTOUT, 0, 9⟩
def F.EVC_EVTOUT_EN : Fld := ⟨R.EVC_EVTOUT, 31, 1⟩
def R.EVC_THR : Reg := { unit := 20, off := 0x100, stride := 0x10, inner := 9, rw := 7 }
def F.EVC_THR_THR : Fld := ⟨R.EVC_THR, 0, 3⟩
def R.EVC_CLAIM : Reg := { unit := 20, off := 0x104, stride := 0x10, inner := 9, rst := 0x8000 }
def F.EVC_CLAIM_SRC : Fld := ⟨R.EVC_CLAIM, 0, 9⟩
def F.EVC_CLAIM_EMPTY : Fld := ⟨R.EVC_CLAIM, 15, 1⟩
def R.EVC_COMPLETE : Reg := { unit := 20, off := 0x108, stride := 0x10, inner := 9 }
def F.EVC_COMPLETE_SRC : Fld := ⟨R.EVC_COMPLETE, 0, 9⟩
def R.EVC_PEND : Reg := { unit := 20, off := 0x400, stride := 4, inner := 16 }
def F.EVC_PEND_PEND : Fld := ⟨R.EVC_PEND, 0, 32⟩
def R.EVC_SRC : Reg := { unit := 20, off := 0x1000, stride := 4, inner := 512, rw := 0x3fff }
def F.EVC_SRC_EN : Fld := ⟨R.EVC_SRC, 0, 1⟩
def F.EVC_SRC_PRI : Fld := ⟨R.EVC_SRC, 1, 3⟩
def F.EVC_SRC_TARGET : Fld := ⟨R.EVC_SRC, 4, 9⟩
def F.EVC_SRC_HOST : Fld := ⟨R.EVC_SRC, 13, 1⟩
def F.EVC_SRC_ASSERTED : Fld := ⟨R.EVC_SRC, 16, 1⟩
def F.EVC_SRC_PEND : Fld := ⟨R.EVC_SRC, 17, 1⟩
def F.EVC_SRC_IN_SERVICE : Fld := ⟨R.EVC_SRC, 18, 1⟩
-- 19_debug
def R.DBG_ERR : Reg := { unit := 24, off := 0, w1c := 0x3f }
def F.DBG_ERR_LEVEL : Fld := ⟨R.DBG_ERR, 0, 1⟩
def F.DBG_ERR_AUTH_FAIL : Fld := ⟨R.DBG_ERR, 1, 1⟩
def F.DBG_ERR_HALTED : Fld := ⟨R.DBG_ERR, 2, 1⟩
def F.DBG_ERR_REFUSED : Fld := ⟨R.DBG_ERR, 3, 1⟩
def F.DBG_ERR_VT_IN : Fld := ⟨R.DBG_ERR, 4, 1⟩
def F.DBG_ERR_TRACE_LOST : Fld := ⟨R.DBG_ERR, 5, 1⟩
def R.DBG_ERR_EN : Reg := { unit := 24, off := 4, rw := 0x3f }
def R.DBG_HALT : Reg := { unit := 24, off := 0x10, w1s := 0x1ff }
def F.DBG_HALT_CORES : Fld := ⟨R.DBG_HALT, 0, 9⟩
def R.DBG_RESUME : Reg := { unit := 24, off := 0x14, w1s := 0x1ff }
def F.DBG_RESUME_CORES : Fld := ⟨R.DBG_RESUME, 0, 9⟩
def R.DBG_STEP : Reg := { unit := 24, off := 0x18, w1s := 0x1ff }
def F.DBG_STEP_CORES : Fld := ⟨R.DBG_STEP, 0, 9⟩
def R.DBG_RESET_HALT : Reg := { unit := 24, off := 0x1c, rw := 0x1ff }
def F.DBG_RESET_HALT_CORES : Fld := ⟨R.DBG_RESET_HALT, 0, 9⟩
def R.DBG_BREAK_HALT : Reg := { unit := 24, off := 0x20, rw := 0x1ff }
def F.DBG_BREAK_HALT_CORES : Fld := ⟨R.DBG_BREAK_HALT, 0, 9⟩
def R.DBG_CORE_STATUS : Reg := { unit := 24, off := 0x40, stride := 4, inner := 9, w1c := 4 }
def F.DBG_CORE_STATUS_HALTED : Fld := ⟨R.DBG_CORE_STATUS, 0, 1⟩
def F.DBG_CORE_STATUS_DEFERRED : Fld := ⟨R.DBG_CORE_STATUS, 1, 1⟩
def F.DBG_CORE_STATUS_FORCED : Fld := ⟨R.DBG_CORE_STATUS, 2, 1⟩
def R.DBG_FREEZE : Reg := { unit := 24, off := 0x80, rw := 0xf01ff }
def F.DBG_FREEZE_CORES : Fld := ⟨R.DBG_FREEZE, 0, 9⟩
def F.DBG_FREEZE_DMA : Fld := ⟨R.DBG_FREEZE, 16, 1⟩
def F.DBG_FREEZE_PAGER : Fld := ⟨R.DBG_FREEZE, 17, 1⟩
def F.DBG_FREEZE_LEDGER : Fld := ⟨R.DBG_FREEZE, 18, 1⟩
def F.DBG_FREEZE_SVP : Fld := ⟨R.DBG_FREEZE, 19, 1⟩
def R.DBG_FREEZE_BAY : Reg := { unit := 24, off := 0x88, bits := 64, stride := 8, rw := 0xffffffffffffffff }
def F.DBG_FREEZE_BAY_BAYS : Fld := ⟨R.DBG_FREEZE_BAY, 0, 64⟩
def R.DBG_XT_PULSE : Reg := { unit := 24, off := 0xc0, w1s := 0xffff }
def F.DBG_XT_PULSE_CH : Fld := ⟨R.DBG_XT_PULSE, 0, 16⟩
def R.DBG_XT_CH : Reg := { unit := 24, off := 0x100, stride := 4, inner := 16, rw := 0x7ff03ff }
def F.DBG_XT_CH_IN_HALT : Fld := ⟨R.DBG_XT_CH, 0, 9⟩
def F.DBG_XT_CH_IN_PIN : Fld := ⟨R.DBG_XT_CH, 9, 1⟩
def F.DBG_XT_CH_HALT_OUT : Fld := ⟨R.DBG_XT_CH, 16, 9⟩
def F.DBG_XT_CH_FREEZE_OUT : Fld := ⟨R.DBG_XT_CH, 25, 1⟩
def F.DBG_XT_CH_PIN_OUT : Fld := ⟨R.DBG_XT_CH, 26, 1⟩
def R.DBG_VT_OUT : Reg := { unit := 24, off := 0x200, stride := 0x10, inner := 9, rw := 0xffffffff }
def F.DBG_VT_OUT_DATA : Fld := ⟨R.DBG_VT_OUT, 0, 32⟩
def R.DBG_VT_IN : Reg := { unit := 24, off := 0x204, stride := 0x10, inner := 9, rw := 0xffffffff }
def F.DBG_VT_IN_DATA : Fld := ⟨R.DBG_VT_IN, 0, 32⟩
def R.DBG_VT_STATUS : Reg := { unit := 24, off := 0x208, stride := 0x10, inner := 9, w1c := 4 }
def F.DBG_VT_STATUS_OUT_FULL : Fld := ⟨R.DBG_VT_STATUS, 0, 1⟩
def F.DBG_VT_STATUS_IN_FULL : Fld := ⟨R.DBG_VT_STATUS, 1, 1⟩
def F.DBG_VT_STATUS_OVERRUN : Fld := ⟨R.DBG_VT_STATUS, 2, 1⟩
def R.DBG_STIM_EN : Reg := { unit := 24, off := 0x400, stride := 4, inner := 8, rw := 0xffffffff }
def F.DBG_STIM_EN_PORTS : Fld := ⟨R.DBG_STIM_EN, 0, 32⟩
def R.DBG_TRACE_STATUS : Reg := { unit := 24, off := 0x440, rc := 0xffff0000 }
def F.DBG_TRACE_STATUS_FILL : Fld := ⟨R.DBG_TRACE_STATUS, 0, 16⟩
def F.DBG_TRACE_STATUS_LOST : Fld := ⟨R.DBG_TRACE_STATUS, 16, 16⟩
def R.DBG_STIM : Reg := { unit := 24, off := 0x8000, bits := 64, stride := 8, inner := 32 }
def F.DBG_STIM_DATA : Fld := ⟨R.DBG_STIM, 0, 64⟩
-- 13_bays_pager_and_scrubbing
def R.SCB_CTRL : Reg := { unit := 2, off := 0, stride := 0x40, inner := 4, rst := 1, rw := 1 }
def F.SCB_CTRL_EN : Fld := ⟨R.SCB_CTRL, 0, 1⟩
def R.SCB_STATUS : Reg := { unit := 2, off := 4, stride := 0x40, inner := 4 }
def F.SCB_STATUS_PASSES : Fld := ⟨R.SCB_STATUS, 0, 16⟩
def R.SCB_ERR : Reg := { unit := 2, off := 8, stride := 0x40, inner := 4, w1c := 0xf }
def F.SCB_ERR_CORRECTED : Fld := ⟨R.SCB_ERR, 0, 1⟩
def F.SCB_ERR_TRANSIENT : Fld := ⟨R.SCB_ERR, 1, 1⟩
def F.SCB_ERR_LASTING : Fld := ⟨R.SCB_ERR, 2, 1⟩
def F.SCB_ERR_NO_GOLDEN : Fld := ⟨R.SCB_ERR, 3, 1⟩
def R.SCB_ERR_EN : Reg := { unit := 2, off := 0xc, stride := 0x40, inner := 4, rw := 0xf }
def R.SCB_CORRECTED : Reg := { unit := 2, off := 0x10, stride := 0x40, inner := 4, rc := 0xffffffff }
def F.SCB_CORRECTED_COUNT : Fld := ⟨R.SCB_CORRECTED, 0, 32⟩
def R.SCB_UE : Reg := { unit := 2, off := 0x14, stride := 0x40, inner := 4, rc := 0xffffffff }
def F.SCB_UE_TRANSIENT : Fld := ⟨R.SCB_UE, 0, 16⟩
def F.SCB_UE_LASTING : Fld := ⟨R.SCB_UE, 16, 16⟩
def R.SCB_LOG : Reg := { unit := 2, off := 0x18, bits := 64, stride := 0x40, inner := 4, w1c := 0x8000000000000000 }
def F.SCB_LOG_FAR : Fld := ⟨R.SCB_LOG, 0, 32⟩
def F.SCB_LOG_VALID : Fld := ⟨R.SCB_LOG, 63, 1⟩
-- 16_dram_and_memory_encryption
def R.MEE_ERR : Reg := { unit := 17, off := 0, w1c := 7 }
def F.MEE_ERR_INTEGRITY : Fld := ⟨R.MEE_ERR, 0, 1⟩
def F.MEE_ERR_PARTIAL_FAIL : Fld := ⟨R.MEE_ERR, 1, 1⟩
def F.MEE_ERR_CFG_REFUSED : Fld := ⟨R.MEE_ERR, 2, 1⟩
def R.MEE_ERR_EN : Reg := { unit := 17, off := 4, rw := 7 }
def R.MEE_INTEG : Reg := { unit := 17, off := 8, rc := 0xffffffff }
def F.MEE_INTEG_COUNT : Fld := ⟨R.MEE_INTEG, 0, 32⟩
def R.MEE_LOG : Reg := { unit := 17, off := 0x10, bits := 64, stride := 8, w1c := 0x8000000000000000 }
def F.MEE_LOG_ADDR : Fld := ⟨R.MEE_LOG, 0, 48⟩
def F.MEE_LOG_INIT : Fld := ⟨R.MEE_LOG, 48, 10⟩
def F.MEE_LOG_VALID : Fld := ⟨R.MEE_LOG, 63, 1⟩
def R.MEE_RGN_BASE : Reg := { unit := 17, off := 0x100, bits := 64, stride := 0x20, inner := 8, rwl := 0xfffffffff000 }
def F.MEE_RGN_BASE_ADDR : Fld := ⟨R.MEE_RGN_BASE, 12, 36⟩
def R.MEE_RGN_LIMIT : Reg := { unit := 17, off := 0x108, bits := 64, stride := 0x20, inner := 8, rwl := 0xfffffffff000 }
def F.MEE_RGN_LIMIT_ADDR : Fld := ⟨R.MEE_RGN_LIMIT, 12, 36⟩
def R.MEE_RGN_CTRL : Reg := { unit := 17, off := 0x110, stride := 0x20, inner := 8, rwl := 1 }
def F.MEE_RGN_CTRL_EN : Fld := ⟨R.MEE_RGN_CTRL, 0, 1⟩
-- 11_host_link_and_ktp
def R.IDN_IDCODE : Reg := { unit := 27, off := 0, rst := 0x296410f3 }
def F.IDN_IDCODE_VAL : Fld := ⟨R.IDN_IDCODE, 0, 32⟩
def R.IDN_SERIAL : Reg := { unit := 27, off := 8, bits := 64, stride := 8 }
def F.IDN_SERIAL_VAL : Fld := ⟨R.IDN_SERIAL, 0, 64⟩
def R.IDN_MAC_BASE : Reg := { unit := 27, off := 0x10, bits := 64, stride := 8 }
def F.IDN_MAC_BASE_VAL : Fld := ⟨R.IDN_MAC_BASE, 0, 48⟩
def R.IDN_DFW_SUP : Reg := { unit := 27, off := 0x20, stride := 4, inner := 4, rst := 0xff }
def F.IDN_DFW_SUP_VAL : Fld := ⟨R.IDN_DFW_SUP, 0, 32⟩
def R.IDN_IDKEY : Reg := { unit := 27, off := 0x100, stride := 4, inner := 25 }
def F.IDN_IDKEY_VAL : Fld := ⟨R.IDN_IDKEY, 0, 32⟩

/-- The register rows of unit 0 of R43. -/
def regsOfUnit0 : List Reg :=
  [R.CFG_SLC_SEL, R.CFG_SLC_CTRL, R.CFG_SLC_STATUS, R.CFG_SLC_TIMING, R.CFG_SLC_ECC, R.CFG_SLC_ADDR,
   R.CFG_SLC_DATA_LO, R.CFG_SLC_DATA_HI, R.CFG_SLC_TRAPPED, R.CFG_STATUS, R.CFG_CTRL, R.CFG_ERR,
   R.CFG_ERR_EN, R.CFG_CAUSE, R.CFG_CAUSE_WORD, R.CFG_CAUSE_FAR, R.CFG_WORDS, R.CFG_IMAGE_ID,
   R.CFG_USERCODE, R.CFG_SEQ_STATUS, R.CFG_SEQ_GO, R.CFG_FRST, R.CFG_LOADED, R.CFG_ANCHOR]
/-- The register rows of unit 1 of R43. -/
def regsOfUnit1 : List Reg :=
  [R.PGR_CTRL, R.PGR_STATUS, R.PGR_ERR, R.PGR_ERR_EN, R.PGR_CMD, R.PGR_ARG,
   R.PGR_RESULT, R.PGR_CACHE_BASE, R.PGR_CACHE_SLOTS, R.PGR_UE_FRAME, R.PGR_ALLOW, R.PGR_SLOT_SEL,
   R.PGR_SLOT_INFO, R.PGR_ICP_CTRL, R.PGR_ICP_STATUS, R.PGR_ICP_EVT, R.PGR_ICP_EVT_EN]
/-- The register rows of unit 2 of R43. -/
def regsOfUnit2 : List Reg :=
  [R.SCB_CTRL, R.SCB_STATUS, R.SCB_ERR, R.SCB_ERR_EN, R.SCB_CORRECTED, R.SCB_UE,
   R.SCB_LOG]
/-- The register rows of unit 3 of R43. -/
def regsOfUnit3 : List Reg :=
  [R.FEN_FENCED, R.FEN_INCOMPLETE, R.FEN_OFFLINE, R.FEN_SLAB_CTRL, R.FEN_SLAB_STATUS, R.FEN_BAY_CTRL,
   R.FEN_BAY_STATUS, R.FEN_BAY_EVT, R.FEN_BAY_EVT_EN]
/-- The register rows of unit 4 of R43. -/
def regsOfUnit4 : List Reg :=
  [R.TMG_CTRL, R.TMG_FREQ, R.TMG_QUARTZ, R.TMG_STATUS, R.TMG_ERR, R.TMG_ERR_EN,
   R.TMG_CN, R.TMG_CN_PRESET, R.TMG_ORBIT_CN, R.TMG_ORBIT, R.TMG_ORBIT_COUNT, R.TMG_RX_LATENCY,
   R.TMG_CHECK_ERRS, R.TMG_TX_CTRL, R.TMG_MSG_STATUS, R.TMG_MSG_DATA, R.TMG_LAT_EPOCH]
/-- The register rows of unit 5 of R43. -/
def regsOfUnit5 : List Reg :=
  [R.LNE_LANE_CTRL, R.LNE_LANE_STATUS, R.LNE_EQ, R.LNE_TRAIN, R.LNE_TAPS, R.LNE_BITSLIP,
   R.LNE_RX_LAT, R.LNE_TX_LAT, R.LNE_PRBS, R.LNE_PRBS_ERRS, R.LNE_PRBS_BITS, R.LNE_BLOCK_ERRS,
   R.LNE_LANE_ERR, R.LNE_LANE_ERR_EN, R.LNE_QPLL, R.LNE_QPLL_STATUS, R.LNE_QUAD_ERR, R.LNE_QUAD_ERR_EN,
   R.LNE_XBAR]
/-- The register rows of unit 6 of R43. -/
def regsOfUnit6 : List Reg :=
  [R.NOC_STATUS, R.NOC_ERR, R.NOC_ERR_EN, R.NOC_ERR_LOG, R.NOC_OUTSTANDING, R.NOC_LATE_RESPS,
   R.NOC_LINK_RETRIES, R.NOC_LINK_FAIL, R.NOC_TIMEOUTS, R.NOC_RATE, R.NOC_TMO, R.NOC_INI_STATUS]
/-- The register rows of unit 7 of R43. -/
def regsOfUnit7 : List Reg :=
  [R.QTZ_CTRL, R.QTZ_STATUS, R.QTZ_COMMIT, R.QTZ_COMMIT_CN, R.QTZ_ERR, R.QTZ_ERR_EN,
   R.QTZ_BAD, R.QTZ_PAR_ERRS, R.QTZ_PAR_LINK, R.QTZ_TRACE, R.QTZ_TRACE_RES, R.QTZ_PROBE,
   R.QTZ_PROBE_RES, R.QTZ_EQD, R.QTZ_EQD_LDG, R.QTZ_TSEL, R.QTZ_TBL]
/-- The register rows of unit 8 of R43. -/
def regsOfUnit8 : List Reg :=
  [R.VRD_CTRL, R.VRD_STATUS, R.VRD_ERR, R.VRD_ERR_EN, R.VRD_STAGE, R.VRD_SWAP,
   R.VRD_SWAP_CN, R.VRD_SWAP_DONE_CN, R.VRD_RETIRE, R.VRD_RBIST, R.VRD_ECC_CNT, R.VRD_UE_LOG,
   R.VRD_LDR_SRC, R.VRD_LDR_CTRL, R.VRD_PORT_CTRL, R.VRD_PORT_LOOKUPS, R.VRD_PORT_FIELDS, R.VRD_MAP]
/-- The register rows of unit 9 of R43. -/
def regsOfUnit9 : List Reg :=
  [R.LDG_CTRL, R.LDG_STATUS, R.LDG_WINDOW, R.LDG_TIER_BANKS, R.LDG_ERR, R.LDG_ERR_EN,
   R.LDG_THR_TIER, R.LDG_THR_CTX, R.LDG_THR_PAGE, R.LDG_THR_HOLD, R.LDG_CTX_LIMIT, R.LDG_MAX_PAGES,
   R.LDG_OCC_TIER, R.LDG_OCC_CTX, R.LDG_OCC_PAGE, R.LDG_HOST_DEC, R.LDG_ERR_LOG, R.LDG_FRAGS_IN,
   R.LDG_ACCEPTS, R.LDG_BAD_FRAGS, R.LDG_LATE_FRAGS, R.LDG_TIER_DROPS, R.LDG_LATE_DECS, R.LDG_CTX_LOST,
   R.LDG_POISON, R.LDG_POOL_BASE, R.LDG_POOL_PAGES, R.LDG_POOL_STATUS, R.LDG_STR_CTRL, R.LDG_STR_SRC,
   R.LDG_STR_CREDIT, R.LDG_STR_GRANT, R.LDG_STR_STATUS, R.LDG_STR_SEQ, R.LDG_STR_DISCARDS, R.LDG_CLASS,
   R.LDG_SRC]
/-- The register rows of unit 10 of R43. -/
def regsOfUnit10 : List Reg :=
  [R.ETH_CTRL, R.ETH_STATUS, R.ETH_ERR, R.ETH_ERR_EN, R.ETH_MAC, R.ETH_VLAN,
   R.ETH_MTU, R.ETH_IPHDR, R.ETH_IP4, R.ETH_IP6_HI, R.ETH_IP6_LO, R.ETH_RX_FRAMES,
   R.ETH_TX_FRAMES, R.ETH_DROPS, R.ETH_FCS_ERRS, R.ETH_FEC_CORR, R.ETH_FEC_UNCORR]
/-- The register rows of unit 12 of R43. -/
def regsOfUnit12 : List Reg :=
  [R.KTP_CTRL, R.KTP_STATUS, R.KTP_ERR, R.KTP_ERR_EN, R.KTP_RTX, R.KTP_HOLD,
   R.KTP_RTX_BASE, R.KTP_RTX_SIZE, R.KTP_SVC, R.KTP_RO_MAP, R.KTP_AUTH_FAILS, R.KTP_REPLAYS,
   R.KTP_RETRANSMITS, R.KTP_LOST_BYTES, R.KTP_CRX_BASE, R.KTP_CRX_PTR, R.KTP_CTX_BASE, R.KTP_CTX_PTR,
   R.KTP_S_CTRL, R.KTP_S_STATE, R.KTP_S_ID, R.KTP_S_TX_PN, R.KTP_S_RX_PN, R.KTP_S_DFW]
/-- The register rows of unit 13 of R43. -/
def regsOfUnit13 : List Reg :=
  [R.DMC_CTRL, R.DMC_STATUS, R.DMC_ERR, R.DMC_ERR_EN, R.DMC_CONFIG, R.DMC_FREQ,
   R.DMC_RETRAIN, R.DMC_TEMP, R.DMC_ECC, R.DMC_UE_LIMIT, R.DMC_ERR_LOG, R.DMC_PORT,
   R.DMC_PORT_MISS, R.DMC_TSET0, R.DMC_TSET1, R.DMC_TSET2, R.DMC_TSET3, R.DMC_EYE]
/-- The register rows of unit 17 of R43. -/
def regsOfUnit17 : List Reg :=
  [R.MEE_ERR, R.MEE_ERR_EN, R.MEE_INTEG, R.MEE_LOG, R.MEE_RGN_BASE, R.MEE_RGN_LIMIT,
   R.MEE_RGN_CTRL]
/-- The register rows of unit 18 of R43. -/
def regsOfUnit18 : List Reg :=
  [R.SPD_ERR, R.SPD_ERR_EN, R.SPD_UE_LOG, R.SPD_OWNER_LOG, R.SPD_OWN, R.SPD_HANDOVER,
   R.SPD_ECC]
/-- The register rows of unit 19 of R43. -/
def regsOfUnit19 : List Reg :=
  [R.DMA_CTRL, R.DMA_STATUS, R.DMA_SRC, R.DMA_DST, R.DMA_LEN, R.DMA_DONE_BYTES,
   R.DMA_PATTERN, R.DMA_ERR_ADDR]
/-- The register rows of unit 20 of R43. -/
def regsOfUnit20 : List Reg :=
  [R.EVC_SOFT, R.EVC_HOST_DROPS, R.EVC_STATUS, R.EVC_EVTOUT, R.EVC_THR, R.EVC_CLAIM,
   R.EVC_COMPLETE, R.EVC_PEND, R.EVC_SRC]
/-- The register rows of unit 21 of R43. -/
def regsOfUnit21 : List Reg :=
  [R.CKG_ERR, R.CKG_ERR_EN, R.CKG_GATE_LOG, R.CKG_GATE_TOP, R.CKG_GATE_GEODE, R.CKG_GDOM,
   R.CKG_GATE_BAY, R.CKG_HOLD_BAY, R.CKG_EFF_BAY, R.CKG_MON_CTRL, R.CKG_MON_STATUS, R.CKG_SYN_CTRL,
   R.CKG_SYN_FB, R.CKG_SYN_DIV, R.CKG_SYN_STATUS, R.CKG_SYN_EVT, R.CKG_SYN_EVT_EN]
/-- The register rows of unit 22 of R43. -/
def regsOfUnit22 : List Reg :=
  [R.PWR_STATE, R.PWR_ERR, R.PWR_ERR_EN, R.PWR_CTRL, R.PWR_DOM_ON, R.PWR_DOM_STATE,
   R.PWR_RETAIN, R.PWR_WAKE_EN, R.PWR_WAKE_CAUSE, R.PWR_CMP_CTRL, R.PWR_CMP_STATUS]
/-- The register rows of unit 23 of R43. -/
def regsOfUnit23 : List Reg :=
  [R.SVP_PIN_CTRL, R.SVP_PIN_STATUS, R.SVP_GPIO_OUT, R.SVP_GPIO_OE, R.SVP_GPIO_IN, R.SVP_UART_CTRL,
   R.SVP_UART_DATA, R.SVP_UART_STATUS, R.SVP_SPI_CTRL, R.SVP_SPI_DATA, R.SVP_SPI_STATUS, R.SVP_I2C_CTRL,
   R.SVP_I2C_CMD, R.SVP_I2C_STATUS, R.SVP_TMR_CTRL, R.SVP_TMR_PERIOD, R.SVP_TMR_CMP, R.SVP_TMR_VAL,
   R.SVP_FAN_PWM, R.SVP_FAN_TACH]
/-- The register rows of unit 24 of R43. -/
def regsOfUnit24 : List Reg :=
  [R.DBG_ERR, R.DBG_ERR_EN, R.DBG_HALT, R.DBG_RESUME, R.DBG_STEP, R.DBG_RESET_HALT,
   R.DBG_BREAK_HALT, R.DBG_CORE_STATUS, R.DBG_FREEZE, R.DBG_FREEZE_BAY, R.DBG_XT_PULSE, R.DBG_XT_CH,
   R.DBG_VT_OUT, R.DBG_VT_IN, R.DBG_VT_STATUS, R.DBG_STIM_EN, R.DBG_TRACE_STATUS, R.DBG_STIM]
/-- The register rows of unit 25 of R43. -/
def regsOfUnit25 : List Reg :=
  [R.WDG_CTRL, R.WDG_LOAD, R.WDG_COUNT, R.WDG_KICK, R.WDG_STATUS, R.WDG_CORE_CTRL,
   R.WDG_CORE_STATUS]
/-- The register rows of unit 26 of R43. -/
def regsOfUnit26 : List Reg :=
  [R.KEY_STATUS, R.KEY_ERR, R.KEY_ERR_EN, R.KEY_LOCK, R.KEY_VIOL_LOG, R.KEY_VIOL_COUNT,
   R.KEY_REQ_CTRL, R.KEY_REQ_STATUS, R.KEY_REQ_ARG, R.KEY_REQ_RES0, R.KEY_REQ_RES1]
/-- The register rows of unit 27 of R43. -/
def regsOfUnit27 : List Reg :=
  [R.IDN_IDCODE, R.IDN_SERIAL, R.IDN_MAC_BASE, R.IDN_DFW_SUP, R.IDN_IDKEY]

/-- The register rows whose map covers unit `k` of R43 (ETH1 and DMC1 to DMC3 are outer copies of the first). -/
def regsOfUnit : Nat → List Reg
  | 0 => regsOfUnit0
  | 1 => regsOfUnit1
  | 2 => regsOfUnit2
  | 3 => regsOfUnit3
  | 4 => regsOfUnit4
  | 5 => regsOfUnit5
  | 6 => regsOfUnit6
  | 7 => regsOfUnit7
  | 8 => regsOfUnit8
  | 9 => regsOfUnit9
  | 10 => regsOfUnit10
  | 11 => regsOfUnit10
  | 12 => regsOfUnit12
  | 13 => regsOfUnit13
  | 14 => regsOfUnit13
  | 15 => regsOfUnit13
  | 16 => regsOfUnit13
  | 17 => regsOfUnit17
  | 18 => regsOfUnit18
  | 19 => regsOfUnit19
  | 20 => regsOfUnit20
  | 21 => regsOfUnit21
  | 22 => regsOfUnit22
  | 23 => regsOfUnit23
  | 24 => regsOfUnit24
  | 25 => regsOfUnit25
  | 26 => regsOfUnit26
  | 27 => regsOfUnit27
  | _ => []

end Sys2Proof.Machine
end

