-- ==== Sys2Proof/Machine/State.lean ====
section
/-! DEFINITION. The state of the device: everything the spec gives it, as plain data, and its value after power-on reset. -/

namespace Sys2Proof.Machine

/-- What the device's answer to the last bus access was: the observation an outside agent makes. -/
structure Answer where
  resp : Resp := .okay
  data : W64 := 0
  /-- the bytes of a read of more than one word, and the 64-bit words of them that carry POISON (08 R390, R391) -/
  block : List Byte := []
  poison : List Nat := []
  deriving DecidableEq, Repr

/-- The halves of 64-bit registers that each initiator holds (00 R8, R9): register address and word. -/
structure Halves where
  held : Tbl Nat (Nat × W32) := []
  latched : Tbl (Nat × Nat) W32 := []
  deriving DecidableEq, Repr

/-- What a received timing frame brings to its boundary: command and fragment (02 R56, R61). -/
structure TmgFrame where
  cmd : Byte
  frag : BitVec 18
  deriving DecidableEq, Repr

/-- What a completed long message is waiting for (02 R73 to R75). -/
inductive MsgOut where
  | preset (v : W64)
  | queue (words : List W16)
  | drop
  deriving DecidableEq, Repr

/-- Timing-port state outside its register map (02). -/
structure Tmg where
  /-- consecutive frames with sync and valid check, while not locked (R58) -/
  good : Nat := 0
  /-- consecutive frames without sync, while locked (R58) -/
  bad : Nat := 0
  /-- frames whose boundary has not come, oldest first: two at most, since N + 16 cycles are less than three frames (R61) -/
  frames : List (Option TmgFrame) := []
  /-- commands received, with the boundaries left to their effect (R65), in the order received -/
  waiting : List (Nat × Byte) := []
  /-- commands taking effect at the boundary that has come, in the order received (R65) -/
  due : List Byte := []
  /-- the words of the message under assembly, header first (R71, R72) -/
  asm : Option (List W16) := none
  /-- completed messages not yet acted on (R73 to R75) -/
  msgs : List MsgOut := []
  /-- the message queue, the words left of each message (R75) -/
  queue : List (List W16) := []
  /-- crossings since the last ORB took effect; none after a stop of boundaries (R69) -/
  sinceOrb : Option Nat := none
  /-- a relock step is to come (R82) -/
  step : Bool := false
  /-- what the bay spines receive: short tag and command code with its valid bit (R64, R66) -/
  spineTag : W16 := 0
  spineCmd : Option Byte := none
  /-- crossing strobes sent (R64): the model's own count -/
  strobes : Nat := 0
  /-- the last frame sent; none while the transmitter holds a differential 0 (R83) -/
  txFrame : Option W40 := none
  /-- the first Quartz accept the Ledger took in the crossing under way (R85) -/
  accept : Option W16 := none
  deriving DecidableEq, Repr

/-- A word at a lane's bay port. -/
structure LaneWord where
  valid : Bool := false
  ctl : BitVec 4 := 0
  data : W64 := 0
  deriving DecidableEq, Repr

/-- Serial-lane state outside its register map (03). -/
structure Lane where
  /-- running disparities of the transmitter and of the receiver, true when positive (R102) -/
  txRd : Bool := false
  rxRd : Bool := false
  /-- consecutive blocks with a valid header, while not locked (R106) -/
  good : Nat := 0
  /-- the last words under lock, newest first, true for a bad one (R106, R107) -/
  window : List Bool := []
  /-- descrambler and scrambler histories, newest bit in bit 0 (R101) -/
  descr : BitVec 58 := 0
  scr : BitVec 58 := 0
  /-- the word presented to the bay port (R104) -/
  rx : LaneWord := {}
  /-- the deskew buffer: the words of the last 32 word times, newest first (R129) -/
  hist : List LaneWord := []
  /-- the word last driven on the line; none while the transmitter holds a differential 0 (R151) -/
  tx : Option LaneRx := none
  /-- the transmit PCS's output word, before polarity, and the last word received, after it (R149) -/
  pcs : Option LaneRx := none
  line : Option LaneRx := none
  /-- slips made since the domain came on (R113) -/
  slips : Nat := 0
  /-- READY as presented at the last word time (R105) -/
  ready : Bool := false
  /-- blocks sent since the last training block (R118) -/
  since : Nat := 0
  /-- no block lock yet since EN rose (R124) -/
  fresh : Bool := false
  /-- local training: SEQ, request carried, best eye, requests without improvement, requests made (R124) -/
  seq : BitVec 4 := 0
  req : BitVec 10 := 0
  bestEye : Nat := 0
  stale : Nat := 0
  made : Nat := 0
  /-- training has met one of its ends and TRAINING_COMPLETE is to come (R124) -/
  ended : Bool := false
  /-- a valid training block has come since training began; the first timeouts of the two waits have passed (R125) -/
  heard : Bool := false
  respWaited : Bool := false
  echoWaited : Bool := false
  /-- partner service: SEQ last received, request to apply, ECHO and status sent (R120, R123) -/
  partnerSeq : Option (BitVec 4) := none
  pendingReq : Option (BitVec 14) := none
  echo : BitVec 4 := 0
  st : BitVec 6 := 0
  /-- deskew: word times this member's marker came after the first member's; none before one came (R129) -/
  skew : Option Nat := none
  /-- words of delay the deskew buffer adds (R129) -/
  delay : Nat := 0
  /-- power transition under way and the request queued behind it (R153) -/
  target : Option (BitVec 2) := none
  queued : Option (BitVec 2) := none
  /-- PRBS generator and checker registers and counts (R143 to R148) -/
  gen : BitVec 31 := 0x7FFFFFFF
  chk : BitVec 31 := 0
  errs : Nat := 0
  bits : Nat := 0
  bitRem : Nat := 0
  /-- checked bits while not locked, all of them right (R145) -/
  clean : Nat := 0
  /-- bits checked under lock, where the last 64 errors stood, newest first, and that 64 fell within 1,024 bits (R145) -/
  seen : Nat := 0
  errAt : List Nat := []
  lossMet : Bool := false
  /-- generator bits still to be inverted (R148) -/
  inject : Nat := 0
  deriving DecidableEq, Repr


/-- The error a stored word carries. -/
inductive Flaw where
  | none | single | double
  deriving DecidableEq, Repr

/-- A flip-flop of the fabric that a personality uses: its output, INIT, SRVAL and the fabric reset it obeys (04 R164, R165),
and its place: the tile of its grain, its cell, FF0 or FF1, and the control set it selects. -/
structure Flop where
  slab : Nat
  bay : Nat
  q : Bool
  init : Bool
  srval : Bool
  frst : Option Nat
  tile : Tile := (0, 0)
  cell : Nat := 0
  ff1 : Bool := false
  set1 : Bool := false
  deriving DecidableEq, Repr

/-- A user I/O pin: its configuration (04 R189 to R199), and the state of its I/O cell. Pairs hold what the rising and the
falling edge took or give; single data rate uses the first. -/
structure UioPin where
  cfg : PinCfg := {}
  inQ : Bool × Bool := (false, false)
  outQ : Bool × Bool := (false, false)
  oeQ : Bool × Bool := (false, false)
  /-- the last edge of the output registers' trees was a falling one -/
  outFell : Bool := false
  oeFell : Bool := false
  /-- bits shifted into the deserialiser, latest last, the word it last gave; bits the serialiser has still to send -/
  shiftIn : List Bool := []
  word : List Bool := []
  shiftOut : List Bool := []
  /-- the level at the pad when it was last looked at, which a keeper holds (R194) -/
  level : Bool := false
  /-- the pad hold latch: what it drives, if anything, and its pull (04 R207, 17 R901) -/
  held : Option (Option Bool × Pull) := none
  deriving DecidableEq, Repr

/-- Fabric state that is not in a register map (04). -/
structure Fabric where
  /-- fabric resets released, as slab and number; the others are asserted (R182) -/
  released : List (Nat × Nat) := []
  /-- the configured source of a fabric reset, the pin where it is one, and the resets whose pin asserts them (R181) -/
  src : Tbl (Nat × Nat) FrstSrc := []
  frstPin : Tbl (Nat × Nat) Nat := []
  frstPinOn : List (Nat × Nat) := []
  /-- edges of each net in a bay since the release of fabric reset 0 to 3, or of start-up hold 4, two at most: bay, reset, net,
  rising (R184, R185) -/
  synced : Tbl (Nat × Nat × Net × Bool) Nat := []
  /-- global set/reset: asserted until cycle 4 of the default sequence (12 R672, R673) -/
  hold : Bool := true
  /-- bays whose outputs, hold and write enable a sequence has released (12 R672, R676) -/
  outReleased : List Nat := []
  holdReleased : List Nat := []
  weReleased : List Nat := []
  /-- bays whose local set/reset is released (R186) -/
  lsrReleased : List Nat := []
  flops : Tbl Nat Flop := []
  /-- the logic of each bay with a personality -/
  logic : Tbl Nat BayLogic := []
  /-- the global trees: source, and level (R175); the levels of segments that bay signals drive, by bay, clock row and tree -/
  trees : Tbl (Nat × Nat) TreeSrc := []
  treeLevel : Tbl (Nat × Nat) Bool := []
  segLevel : Tbl (Nat × Nat × Nat) Bool := []
  /-- what leaves a bay's fence: outputs and enable of its I/O ports, its outgoing border signals; and what the fence's registers
  of incoming border signals hold (R174, R199) -/
  ports : Tbl (Nat × Nat) (List Bool × Bool) := []
  borderOut : Tbl (Nat × Side × Nat) Bool := []
  borderIn : Tbl (Nat × Side × Nat) Bool := []
  pins : Tbl Nat UioPin := []
  /-- user I/O banks whose VCCO is absent (R206), and the VCCO levels applied (R190) -/
  bankOff : List Nat := []
  vcco : Tbl Nat Vcco := []
  /-- frames that differ from blank, by frame address word: 128 words (R208 to R211) -/
  frames : Tbl Nat (List W32) := []
  /-- frames that carry an upset, by frame address -/
  frameFlaw : Tbl Nat Flaw := []
  deriving DecidableEq, Repr

/-- What an access of a port delivers: data, SBE and DBE (05 R221). -/
structure BramOut where
  d : W64 := 0
  sbe : Bool := false
  dbe : Bool := false
  deriving DecidableEq, Repr

/-- One port of a block memory (05 R221, R233): what the last access delivers at the next edge, DOUT with SBE and DBE, and the
output register. -/
structure BramPort where
  next : Option BramOut := none
  dout : BramOut := {}
  oreg : BramOut := {}
  /-- the word whose error retry is to come -/
  retry : Option Nat := none
  retryDone : Bool := false
  lasting : Bool := false
  deriving DecidableEq, Repr

/-- A block memory in RAM mode (05). -/
structure Bram where
  words : Tbl Nat W64 := []
  flaws : Tbl Nat Flaw := []
  portA : BramPort := {}
  portB : BramPort := {}
  /-- the word that each port wrote last, with what it held before (R226) -/
  wasA : Option (Nat × W64) := none
  wasB : Option (Nat × W64) := none
  deriving DecidableEq, Repr

/-- One entry of a hard FIFO: data, tag, and whether its stored parity fails (05 R242, R243). -/
structure FifoEntry where
  data : W64
  tag : BitVec 2
  bad : Bool
  deriving DecidableEq, Repr

/-- A block in FIFO mode (05 R241 to R260). Pointers are counts of entries since reset. -/
structure Fifo where
  entries : List FifoEntry := []
  wr : Nat := 0
  rd : Nat := 0
  /-- the write pointer as the read side has it, and the read pointer as the write side has it -/
  wrSeen : Nat := 0
  rdSeen : Nat := 0
  /-- the two synchroniser stages of the write pointer on the read side, and of the read pointer on the write side (R247) -/
  wrSync : Nat × Nat := (0, 0)
  rdSync : Nat × Nat := (0, 0)
  /-- write-clock edges until the read pointer has been seen after a reset (R260) -/
  rdUnseen : Nat := 0
  full : Bool := false
  empty : Bool := true
  pfull : Bool := false
  pempty : Bool := true
  dropping : Bool := false
  /-- a dropped END waits for FULL to clear (R253) -/
  dropEnd : Bool := false
  dropCnt : Nat := 0
  flushW : Bool := false
  flushR : Bool := false
  flushReq : Bool := false
  /-- the recorded flush point on its way back (R255) -/
  flushPoint : Option Nat := none
  /-- writes are dropped up to the next END (R256) -/
  drain : Bool := false
  /-- the last entry accepted, and the last write presented, lacked END -/
  openAcc : Bool := false
  openSeen : Bool := false
  underflow : Bool := false
  /-- DOUT, TAG and POISON: the head entry while EMPTY is 0 (R244); and the entry last removed -/
  out : FifoEntry := ⟨0, 0, false⟩
  taken : FifoEntry := ⟨0, 0, false⟩
  rstW : Bool := false
  rstR : Bool := false
  deriving DecidableEq, Repr


/-- The run states of a slice (06 R288), coded as CFG_SLC_STATUS.STATE. -/
inductive RunState where
  | halted | running | waiting | trapped
  deriving DecidableEq, Repr

/-- One loop level (06 R266, 07 R363). -/
structure LoopLevel where
  first : Nat
  last : Nat
  count : Nat
  deriving DecidableEq, Repr

/-- An arithmetic slice (06 R266), with its control and status fields. -/
structure Slice where
  x : Vector W24 8 := Vector.replicate 8 0
  a : Vector (BitVec 56) 4 := Vector.replicate 4 0
  p : Vector (BitVec 10) 4 := Vector.replicate 4 0
  m : Vector (BitVec 11) 4 := Vector.replicate 4 0
  l : Vector (BitVec 10) 4 := Vector.replicate 4 0
  i0 : W16 := 0
  z : Bool := false
  n : Bool := false
  v : Bool := false
  sat : Bool := false
  pc : BitVec 7 := 0
  /-- innermost level first -/
  loops : List LoopLevel := []
  cout : BitVec 56 := 0
  /-- stream-input queue, oldest first -/
  sin : List W24 := []
  pm : Tbl Nat W40 := []
  dm : Tbl Nat W24 := []
  pmFlaw : Tbl Nat Flaw := []
  dmFlaw : Tbl Nat Flaw := []
  /-- corrected words whose write-back is to come (R314, R315) -/
  pmBack : List Nat := []
  dmBack : List Nat := []
  run : RunState := .halted
  /-- the run in progress is a prologue (R298) -/
  prologue : Bool := false
  cause : Nat := 0
  retryDone : Bool := false
  lasting : Bool := false
  /-- CLR_DM under way -/
  busy : Bool := false
  srst : Bool := false
  mode : Bool := false
  start : BitVec 7 := 0
  rsyAction : BitVec 2 := 0
  runAtStart : Bool := false
  overrun : Bool := false
  sinOver : Bool := false
  sinUnder : Bool := false
  accRefused : Bool := false
  overruns : Nat := 0
  skipped : Nat := 0
  pmSbe : Nat := 0
  dmSbe : Nat := 0
  runLag : BitVec 10 := 0
  /-- short tag of the current crossing (R279) -/
  tag : W16 := 0
  /-- words emitted and not yet driven: word and tag (07 R358) -/
  emits : List (W24 × W16) := []
  outData : W24 := 0
  outSt : W16 := 0
  outValid : Bool := false
  deriving DecidableEq, Repr


/-- An outstanding entry of a Sand initiator (08 R385). -/
structure SandEntry where
  req : SandReq
  gen : BitVec 3
  deriving DecidableEq, Repr

/-- A packet on its way through the switches (08 R395, R399): the header of its request, which a response repeats; the flits
of the whole packet and those still to pass the output where it waits; the outputs still to pass, that one first; the input it
came in by; and the Sand-clock cycles it has waited. -/
structure Moving where
  q : SandReq
  /-- a response, with its generation -/
  back : Option (BitVec 3) := none
  flits : Nat := 1
  left : Nat := 1
  path : List Nat := []
  inp : Nat := 0
  age : Nat := 0
  /-- what its target meets, once SAND_REQUEST has told that the target takes it -/
  env : Option Env := none
  /-- the response, once SAND_RESPONSE has told it -/
  rsp : Option SandRsp := none
  deriving DecidableEq, Repr

/-- Sand state outside its register map (08). -/
structure Sand where
  /-- packets on their way, in the order of their issue (R396, R399), and the input that each output served last in each
  priority -/
  moving : List Moving := []
  served : Tbl (Nat × Nat) Nat := []
  /-- outstanding entries by initiator and tag -/
  entries : Tbl (Nat × Nat) SandEntry := []
  /-- generation of each entry, as it stands for its next use (R408) -/
  gens : Tbl (Nat × Nat) (BitVec 3) := []
  /-- token count of an initiator in 1/1,024 tokens (R401); unlisted, the bucket is full -/
  tokens : Tbl Nat Int := []
  /-- links failed for Sand, by the identity of the output that drives them (R411) -/
  failed : List Nat := []
  /-- the whole packet in a bay access point's buffer that waits for its injection (R415) -/
  buffer : Tbl Nat SandReq := []
  deriving DecidableEq, Repr

/-- A Quartz flit (08 R419); `probe` carries the latency counted so far by a flit whose PROBE bit is set (R444). -/
structure Flit where
  data : W64
  tag : W16
  valid : Bool
  probe : Option Nat := none
  deriving DecidableEq, Repr

/-- A transmit or receive channel of a Quartz access point (08 R420). -/
structure QtzChan where
  data : W64 := 0
  tag : W16 := 0
  valid : Bool := false
  deriving DecidableEq, Repr

/-- Where a flit on its way arrives next (08 R428, R441). -/
inductive QtzPlace where
  | port (sw p : Nat)
  | recv (bay : Nat)
  | verdict (p : Nat)
  | ledger
  deriving DecidableEq, Repr

/-- A probe under way (08 R444): the destination, the source circuit found by the trace, and the arrival. -/
structure Probe where
  id : Nat
  slot : Nat
  lane : Nat
  src : Option (Nat × Nat × Nat) := none
  marked : Bool := false
  arrived : Option Nat := none
  deriving DecidableEq, Repr

/-- Quartz state outside its register map (08). Tables are keyed by table identity and slot; unlisted words are 0. -/
structure Quartz where
  tx : Tbl (Nat × Nat) QtzChan := []
  rx : Tbl (Nat × Nat) QtzChan := []
  /-- flits in flight by place, lane and slot of arrival -/
  flights : Tbl (QtzPlace × Nat × Nat) Flit := []
  master : Tbl (Nat × Nat) W64 := []
  pend : Tbl (Nat × Nat) W64 := []
  active : Tbl (Nat × Nat) W64 := []
  /-- the tables and EQD values that the last commit applied (R438) -/
  kept : Tbl (Nat × Nat) W64 := []
  /-- EQD of a receive channel by bay x 8 + channel, of the decision input at 512: at the copy, kept, and in force -/
  pendEqd : Tbl Nat Nat := []
  keptEqd : Tbl Nat Nat := []
  eqd : Tbl Nat Nat := []
  /-- the copy of a commit under way is complete (R434) -/
  copied : Bool := false
  /-- slabs fenced or without rail since GO (R438) -/
  skip : List Nat := []
  /-- slabs whose switches owe a load of the kept tables, and those loading since their bridge reopened (R438) -/
  owing : List Nat := []
  loading : List Nat := []
  /-- a commit has completed since EN rose (QTZ_STATUS.ACTIVE) -/
  committed : Bool := false
  /-- entries changed (table, slot, lane), with the boundary at which they did (R439) -/
  changed : List ((Nat × Nat × Nat) × Nat) := []
  /-- the boundary of the last relock step (R440) -/
  stepAt : Option Nat := none
  /-- destination of the trace under way: table, slot, lane (R444) -/
  trace : Option (Nat × Nat × Nat) := none
  probe : Option Probe := none
  deriving DecidableEq, Repr


/-- An uncorrectable Verdict word whose second read is to come (09 R489): replica, physical bank, word, logical address, source. -/
structure VrdRetry where
  rep : Nat
  phys : Nat
  word : Nat
  addr : Nat
  source : Nat
  deriving DecidableEq, Repr

/-- What STAGE_BUSY stands for (09 R479, R480). -/
inductive VrdJob where
  | idle | copy | load
  deriving DecidableEq, Repr

/-- Verdict Table state outside its register map (09). -/
structure Verdict where
  /-- stored words by replica, physical bank and word, and the errors they carry; unlisted words are 0 and clean (R456) -/
  words : Tbl (Nat × Nat × Nat) W64 := []
  flaws : Tbl (Nat × Nat × Nat) Flaw := []
  /-- physical banks (replica, bank) whose unlisted words are undefined (R486) -/
  undef : List (Nat × Nat) := []
  /-- the maps by replica and logical bank, 64 naming the spare; unlisted is the identity (R455, R456) -/
  maps : Tbl (Nat × Nat) Nat := []
  retired : List Nat := []
  /-- retirements and restores due at the next boundary (R469, R472) -/
  retireDue : List Nat := []
  restoreDue : List Nat := []
  /-- the logical bank staged (R478), the job under way, the pending swap with its crossing if AT_CN (R482) -/
  staged : Option Nat := none
  job : VrdJob := .idle
  swap : Option (Option W64) := none
  /-- swap counts by logical bank (R466, R483) -/
  swaps : Tbl Nat Nat := []
  /-- VRD_PORT_CTRL and VRD_PORT_FIELDS in force, by port (R465) -/
  ctrl : Tbl Nat Nat := []
  fields : Tbl Nat Nat := []
  /-- corrected words to be written back, and words to be read a second time (R1019) -/
  back : List (Nat × Nat × Nat) := []
  second : List VrdRetry := []
  /-- the next word of a replica's patrol, bank x 16,384 + word (R491) -/
  patrol : Tbl Nat Nat := []
  /-- the replica that VRD_RBIST tests (R473) -/
  rbist : Option Nat := none
  deriving DecidableEq, Repr


/-- A fragment in the latency tier (10 R496, R507). -/
structure Frag where
  st : W16
  src : Nat
  /-- the header, POISON as the Ledger sets it -/
  hdr : W64
  data : List Byte
  /-- tier address of its first block -/
  addr : Nat
  /-- the context that pages it -/
  ctx : Option Nat := none
  deriving DecidableEq, Repr

/-- What the Ledger knows of a crossing in the window (10 R514 to R523). -/
inductive CrossSt where
  | undecided
  | rejected
  | accepted (ctx : Nat)
  | deferred (cls stream dec : Nat) (trig : W32)
  deriving DecidableEq, Repr

structure Cross where
  st : CrossSt := .undecided
  /-- a fragment found the tier full (R508) -/
  loss : Bool := false
  /-- the sources stored (R499) -/
  seen : List Nat := []
  deriving DecidableEq, Repr

/-- States of a context in use (10 R525 to R528). -/
inductive CtxSt where
  | collect | closing | queued | sending
  deriving DecidableEq, Repr

/-- An event context (10 R521 to R528, R555). -/
structure Ctx where
  id : Nat
  state : CtxSt := .collect
  tag : W16
  cn : W64
  cls : Nat
  stream : Nat
  packed : Bool
  first : Nat
  count : Nat
  /-- slot lengths in bytes, of a PACKED context (R565) -/
  slots : List Nat := []
  suspect : Bool := false
  early : Bool := false
  oversize : Bool := false
  loss : Bool := false
  wasDeferred : Bool := false
  dataLost : Bool := false
  incomplete : Bool := false
  poisoned : Bool := false
  short : Bool := false
  trig : W32 := 0
  dec : Nat := 0
  /-- the pages of the body, in order: pool and page (R531) -/
  pages : List (Nat × Nat) := []
  /-- bytes of the body so far (FULL) and fragments in it -/
  body : Nat := 0
  frags : Nat := 0
  /-- status code of each source paged (PACKED, R559) -/
  codes : Tbl Nat Nat := []
  /-- mandatory sources that sent no fragment, as found at close, and whether the body's end is written (R556) -/
  missing : List Nat := []
  tailDone : Bool := false
  /-- paging waits for a page (R532) -/
  waits : Bool := false
  /-- it closed while its stream was enabled, and took this sequence number (R526) -/
  numbered : Bool := false
  seq : W32 := 0
  /-- order of closing (R526, R544) -/
  closeNo : Nat := 0
  /-- body ranges lost (R536, R537) -/
  lost : List (Nat × Nat) := []
  /-- bytes of the record sent, the running check sequence and the trailer's DATA_LOST (R560) -/
  sent : Nat := 0
  crc : W32 := 0xFFFFFFFF
  tlost : Bool := false
  /-- flags of the header as sent -/
  hdrLost : Bool := false
  deriving DecidableEq, Repr

/-- Ledger state outside its register map (10). -/
structure Ledger where
  /-- fragments in the tier, in order of arrival -/
  frags : List Frag := []
  cross : Tbl W16 Cross := []
  /-- crossings still open: ages below it are not closed; none: no crossing is (R561 to R563) -/
  open_ : Option Nat := none
  /-- contexts in use, in order of allocation -/
  ctxs : List Ctx := []
  nextCtx : Nat := 0
  closes : Nat := 0
  /-- the pool that gave the last first page; none: the next is the lowest (R531) -/
  lastPool : Option Nat := none
  /-- the tier is being written; RUNNING rises at the next boundary (R506) -/
  init : Bool := false
  startDue : Bool := false
  /-- crossings since each throttle flag last set: tier, contexts, pages (R539) -/
  since : Vector Nat 3 := Vector.replicate 3 0
  /-- FIXED_LEN of a stream's range as its EN rose (R565) -/
  fixed : Tbl Nat (List Nat) := []
  /-- LDG_SRC and LDG_CLASS in force where they differ from reset, and the writes due at the next boundary (R565) -/
  src : Tbl Nat Nat := []
  cls : Tbl Nat Nat := []
  srcDue : List (Nat × Nat) := []
  clsDue : List (Nat × Nat) := []
  /-- the context whose record a KTP readout stream is carrying (R549) -/
  owner : Tbl Nat Nat := []
  /-- the stream last served within a priority (R548) -/
  rr : Tbl Nat Nat := []
  /-- the end of a boundary's actions waits for the decisions of that boundary (R519) -/
  rest : Bool := false
  deriving DecidableEq, Repr


/-- What the device sends on an Ethernet port. -/
inductive SentBody where
  | arp (ip : W32)
  | advert (target : BitVec 128)
  | echo (payload : List Byte)
  /-- a KTP packet: kind, SA, REC_START, stream, SESSION, PN, SEQ, payload in clear -/
  | ktp (kind : Nat) (sa recStart : Bool) (stream : Nat) (session : W32) (pn : Nat) (seq : Nat) (payload : List Byte)
  deriving DecidableEq, Repr

/-- What a port puts into the headers of the frames it sends (11 R576, R578, R579): its MAC address, the VID and PCP of the tag
where it tags, TTL or hop limit, and DSCP. -/
structure SentHdr where
  mac : Nat := 0
  tag : Option (Nat × Nat) := none
  ttl : Nat := 0
  dscp : Nat := 0
  deriving DecidableEq, Repr

structure Sent where
  port : Nat
  peer : Option Peer := none
  body : SentBody
  hdr : SentHdr := {}
  deriving DecidableEq, Repr

/-- A segment of a stream (11 R597): SEQ, REC_START, payload, times sent again. -/
structure Seg where
  seq : Nat
  recStart : Bool := false
  payload : List Byte
  again : Nat := 0
  deriving DecidableEq, Repr

/-- One stream of a session, both directions (11 R597 to R603). -/
structure KtpStream where
  /-- next SEQ to give a segment; the peer's CUM + WINDOW and the PN of the ACK that gave it -/
  next : Nat := 0
  limit : Nat := 16
  ackPn : Option Nat := none
  /-- sent and not acknowledged, and waiting to be sent, oldest first -/
  unacked : List Seg := []
  waiting : List Seg := []
  /-- lowest SEQ not received, segments received ahead of it, and an ACK that is owed -/
  cum : Nat := 0
  ahead : List Seg := []
  ackDue : Bool := false
  deriving DecidableEq, Repr

/-- What a session derives (11 R612): the keys and salts from host to device and from device to host. -/
structure SaKeys where
  rxKey : List Byte := []
  txKey : List Byte := []
  rxSalt : List Byte := []
  txSalt : List Byte := []
  deriving DecidableEq, Repr

/-- A security association of a session (11 R588, R619): the keys held, the PN to send next, the highest PN accepted and those
accepted within the window below it. -/
structure Sa where
  key : Option SaKeys := none
  tx : Nat := 0
  top : Option Nat := none
  seen : List Nat := []
  deriving DecidableEq, Repr

/-- Session states, coded as KTP_S_STATE.STATE. -/
inductive SessSt where
  | closed | opening | opened | held
  deriving DecidableEq, Repr

/-- A session slot (11 R607 to R632). -/
structure Session where
  st : SessSt := .closed
  id : W32 := 0
  port : Nat := 0
  peer : Peer := {}
  /-- the SA used for sending -/
  sa : Bool := false
  sa0 : Sa := {}
  sa1 : Sa := {}
  dfw : List W32 := [0, 0, 0, 0]
  streams : Tbl Nat KtpStream := []
  /-- bytes of the verbs stream not yet executed (R592); bytes of the configuration stream short of a word (R593), and
  whether it has carried any -/
  verbs : List Byte := []
  conf : List Byte := []
  confUsed : Bool := false
  deriving DecidableEq, Repr

/-- The KTP engine outside its register map (11). -/
structure Ktp where
  sess : Tbl Nat Session := []
  /-- chunks taken into the retransmit buffer and not yet cut into segments: stream, first of its record, bytes -/
  hand : List (Nat × Bool × List Byte) := []
  /-- readout streams whose record under way is discarded (R631) -/
  discard : List Nat := []
  /-- the HELLOs in the receive ring: slot, port and peer (R624) -/
  hellos : Tbl Nat (Nat × Peer) := []
  /-- everything sent on the Ethernet ports, oldest first: what the outside world has seen -/
  sent : List Sent := []
  deriving DecidableEq, Repr


/-- What a signed image is waiting for (12 R650 to R655). -/
inductive LoadPhase where
  | idle | sync | header | blocks | ended
  deriving DecidableEq, Repr

/-- A signed image being taken: a full or partial image, a steward image or a warden patch (12 R650 to R664). -/
structure Load where
  phase : LoadPhase := .idle
  /-- words taken after the sync word -/
  words : Nat := 0
  /-- blocks verified -/
  block : Nat := 0
  /-- the hash that the next block must have; its salt and key slot; the block just taken was the last -/
  expect : List Byte := []
  salt : List Byte := []
  ekey : Nat := 0
  last : Bool := false
  /-- words of the unit that is arriving word by word -/
  buf : List W32 := []
  /-- verified words of the packet stream not yet acted on, each with its block and its place after the sync word -/
  stream : List (Nat × Nat × W32) := []
  crc : W32 := 0xFFFFFFFF
  /-- a CHECK has passed since the last FRAMES or WRITE acted on (R664) -/
  checked : Bool := false
  imageId : W64 := 0
  deriving DecidableEq, Repr

/-- Why a load fails: cause, block, words taken, and the frame address where there is one (12 R670). -/
structure LoadFail where
  code : Nat
  block : Nat
  word : Nat
  far : Option Nat := none
  deriving DecidableEq, Repr

/-- A start-up sequence under way (12 R676 to R679). -/
structure Seq where
  step : Nat := 0
  /-- CFG_SEQ_GO has been written since the step began -/
  go : Bool := false
  deriving DecidableEq, Repr

/-- Configuration state outside its register map (12). -/
structure Cfg where
  load : Load := {}
  /-- the device is being blanked; the load has failed; nPROG is low -/
  blanking : Bool := true
  failed : Bool := false
  nprog : Bool := false
  /-- the stream registers PRIV and SEQ by code (R665) -/
  regs : Tbl Nat (List W32) := []
  /-- sequences begun and neither finished nor stopped -/
  seqs : Tbl Nat Seq := []
  /-- CONF_DONE has read high for 4 consecutive cycles and still does -/
  doneHigh : Bool := false
  deriving DecidableEq, Repr

/-- What the fuses hold besides keys (14 R786, R787). -/
structure Fuses where
  authPresent : BitVec 4 := 0xF
  authRevoked : BitVec 4 := 0
  imgPresent : BitVec 4 := 0xF
  lockout : Bool := false
  patchMin : BitVec 8 := 0
  deriving DecidableEq, Repr


/-- A plan of a partial image (13 R696): its payload words. -/
abbrev Plan := List W32

/-- A cache slot (13 R701 to R708). -/
structure Slot where
  /-- 0 FREE, 1 FILLING, 2 VALID -/
  state : Nat := 0
  home : Nat := 0
  quartz : Bool := true
  border : Nat := 0xF
  user : List W32 := [0, 0, 0]
  plans : List Plan := []
  deriving DecidableEq, Repr

/-- A load through the internal configuration port of a slab (13 R694 to R700). -/
structure Icp where
  bay : Nat
  load : Load
  deriving DecidableEq, Repr

/-- A Pager command with its latched argument (13 R705). -/
structure PgrCmd where
  cmd : W64
  arg : Nat
  deriving DecidableEq, Repr

/-- Where the command under way stands (13 relocation table). -/
inductive PgrPhase where
  | running | committed | blankA
  /-- abandoned: the old Quartz entries wait to be committed again, and are being committed -/
  | undo | undone
  deriving DecidableEq, Repr

structure PgrRun where
  cmd : PgrCmd
  phase : PgrPhase := .running
  /-- BAY_A was LIVE at step 3; the slot was VALID before a CAPTURE; the bay's state before a READBACK -/
  wasLive : Bool := false
  wasValid : Bool := false
  prev : Nat := 0
  /-- the plan that applies, whether it waits for another commit to end, and the master entries and EQD values it replaced -/
  plan : Option Plan := none
  planWaits : Bool := false
  undo : List ((Nat × Nat) × W64) := []
  undoEqd : List (Nat × Nat) := []
  deriving DecidableEq, Repr

/-- Pager state outside its register map (13). -/
structure Pgr where
  queue : List PgrCmd := []
  run : Option PgrRun := none
  results : List W64 := []
  slots : Tbl Nat Slot := []
  /-- the rim frames as last copied (R723), and whether PGR_CTRL.EN has been 1 -/
  rim : Tbl Nat (List W32) := []
  rimTaken : Bool := false
  ever : Bool := false
  /-- slabs whose rim frames are to be rewritten from the copy since their rail returned (21 R997) -/
  rimDue : List Nat := []
  icp : Tbl Nat Icp := []
  /-- bays whose clock gate the ICP or the Pager holds off (17 R886) -/
  holds : List Nat := []
  /-- the frame each scrubber takes next, by slab, as a frame address (R719) -/
  scrub : Tbl Nat Nat := []
  deriving DecidableEq, Repr


/-- A core's privilege (14 R753). -/
inductive Priv where
  | u | s | w
  deriving DecidableEq, Repr

/-- A line of a core's data cache (14 R740, R759): address / 64, its 64 bytes, and the errors of its words 0 to 7. -/
structure DLine where
  line : Nat
  data : List Byte
  dirty : Bool := false
  poisoned : Bool := false
  flaw : Tbl Nat Flaw := []
  deriving DecidableEq, Repr

/-- A Clove core or Saffron (14 R729, R753): general registers, program counter and control registers, then what they do not
show. -/
structure Core where
  g : Vector W64 32 := Vector.replicate 32 0
  pc : W64 := 0
  priv : Priv := .s
  ie : Bool := false
  pie : Bool := false
  ppriv : BitVec 2 := 0
  tvec : W64 := 0
  tpc : W64 := 0
  tcause : W64 := 0
  tval : W64 := 0
  tscratch : W64 := 0
  ien : BitVec 3 := 0
  uxb : Vector W64 8 := Vector.replicate 8 0
  uxl : Vector W64 8 := Vector.replicate 8 0
  cacheCtrl : BitVec 2 := 3
  corrected : Nat := 0
  transient : Nat := 0
  retired : W64 := 0
  wfi : Bool := false
  lockup : Bool := false
  /-- no instruction has been fetched since the last trap (R764) -/
  atTvec : Bool := false
  /-- one instruction is to be issued for DBG_STEP (19 R962) -/
  stepping : Bool := false
  /-- an error response to a store or write-back that the core has still to take (R747, R760) -/
  serr : Option (Nat × Resp) := none
  /-- data cache lines; lines that the instruction cache holds -/
  dc : List DLine := []
  ic : List Nat := []
  deriving DecidableEq, Repr

/-- The warden outside the KEY unit's registers (14 R765 to R787). -/
structure Warden where
  /-- the mailbox served last (R776) -/
  last : Nat := 7
  /-- the boot ROM has still to load a steward image (R769) -/
  booting : Bool := true
  /-- steward image words taken through the debug port (R769, 19 R955) -/
  feed : List W32 := []
  deriving DecidableEq, Repr


/-- An entry of a scratchpad bank's merge buffer (15 R809): word address, merged bytes, bytes written since allocation. -/
structure MergeEntry where
  word : Nat
  data : W64
  mask : Nat
  deriving DecidableEq, Repr

/-- A scratchpad bank outside its registers (15). -/
structure Bank where
  /-- oldest first -/
  merge : List MergeEntry := []
  /-- corrected words whose write-back is to come (R813) -/
  back : List Nat := []
  deriving DecidableEq, Repr

/-- The transfer of a DMA channel as latched at GO (15 R821, R822): FILL mode, addresses, length, pattern. -/
structure DmaRun where
  fill : Bool
  src : Nat
  dst : Nat
  len : Nat
  pattern : W64
  /-- ABORT has been written (R825) -/
  stop : Bool := false
  deriving DecidableEq, Repr


/-- What stands in a memory key slot (16 R852): the n-th key generated, or the key that an unwrapped blob gave. -/
inductive MemKey where
  | generated (n : Nat)
  | unwrapped (k : List Byte)
  deriving DecidableEq, Repr

/-- A request in a DDR5 channel's queue (16 R834 to R836): the request, what it meets, whether its response is logged where it
is issued, its age in ns as the queue is released, and whether it has reached urgency 3. -/
structure DramReq where
  q : SandReq
  env : Env
  noted : Bool
  age : Nat := 0
  missed : Bool := false
  deriving DecidableEq, Repr

/-- A DDR5 channel outside its registers (16). -/
structure Chan where
  /-- requests that wait for a frequency change or a short retraining to end, in the order of arrival (R842, R846) -/
  queue : List DramReq := []
  /-- the regions in force at the zero fill, lowest first: first byte, last byte, key (R840) -/
  fill : List (Nat × Nat × MemKey) := []
  /-- set to change to, latched at FREQ_GO (R845) -/
  target : Nat := 0
  /-- refreshes postponed (R832) -/
  owed : Nat := 0
  deriving DecidableEq, Repr


/-- A clock synthesiser outside its registers (17 R877 to R880). -/
structure Synth where
  /-- the VCO relocks, on the fallback input if true -/
  relock : Option Bool := none
  /-- the outputs run; their division is 2 ^ exp times D_o -/
  running : Bool := false
  exp : Nat := 0
  /-- the outputs ramp: up, or down to a stop -/
  rampUp : Bool := false
  rampDown : Bool := false
  deriving DecidableEq, Repr

/-- A wake comparator: consecutive samples that met the threshold (17 R906). -/
abbrev CmpRun := Nat

/-- Power state outside its register map (17 R893 to R903). -/
structure Power where
  /-- domain switches under way, with what each goes to, in the order asked; and reversals to carry out after (R892) -/
  switching : List (Nat × Bool) := []
  /-- a STANDBY exit waits for the steward image (R897) -/
  resume : Bool := false
  /-- RUN of the Clove cores at STANDBY entry (R897) -/
  ran : List Nat := []
  /-- synthesisers that ran at STANDBY entry (R897) -/
  synths : List Nat := []
  /-- the device waits for a wake with the Geode base domain off, or drives the power-off request (R898, R900) -/
  asleep : Bool := false
  powerOff : Bool := false
  deriving DecidableEq, Repr


/-- FIFOs of a UART, oldest first (18 R938). -/
structure Uart where
  tx : List Byte := []
  rx : List Byte := []
  deriving DecidableEq, Repr

/-- The service pins outside their register map (18). -/
structure Svc where
  /-- pins whose synchronised level is high -/
  high : List Nat := []
  /-- pins in a switch window, and pins under the pad hold latch: the output and enable held (R920, 17 R901) -/
  window : Tbl Nat (Bool × Bool) := []
  latch : Tbl Nat (Bool × Bool) := []
  uarts : Tbl Nat Uart := []
  /-- I2C controllers between a START and a STOP: SCL is theirs (R938) -/
  i2cOpen : List Nat := []
  /-- XOUT signals 0 and 1 (R918) -/
  xout : Bool × Bool := (false, false)
  /-- XTRIG signals that drive 1, for 4 flint-clock cycles after their channel's pulse (19 R964) -/
  xtrig : List Nat := []
  deriving DecidableEq, Repr

/-- The event controller outside its register map (18). -/
structure Evc where
  /-- sources asserted whose unit gives their level no register -/
  levels : List Nat := []
  /-- sources in service, with the target that claimed each (R931, R932) -/
  claimed : Tbl Nat Nat := []
  /-- the host queue, oldest first: source and TMG_CN (R934, 11 R594) -/
  host : List (Nat × Nat) := []
  deriving DecidableEq, Repr


/-- The debug port outside the DBG unit's registers (19). -/
structure Dbg where
  /-- TAP instruction register, the output cells of the boundary register as last updated, and what the last Capture-DR took -/
  ir : BitVec 8 := 0x02
  cells : BitVec 3072 := 0
  captured : BitVec 3072 := 0
  /-- access level; authentication (R946 to R948): the nonce's number with the level asked for -/
  level : Nat := 0
  lockedOut : Bool := false
  fails : Nat := 0
  chal : Option (Nat × Nat) := none
  /-- the number of the last nonce drawn, for its capture -/
  nonce : Option Nat := none
  /-- VAP registers (R958): response, address, CSW, data -/
  resp : Nat := 0
  addr : BitVec 48 := 0
  csw : BitVec 11 := 2
  data : W64 := 0
  /-- the command under way: 1 READ, 2 WRITE, 3 IMAGE -/
  busy : Bool := false
  cmd : Nat := 0
  /-- the data of the last VAP_ACC read and its ACK -/
  read : W32 := 0
  ack : BitVec 2 := 0
  /-- a channel pulse with FREEZE_OUT holds the freeze (R965) -/
  pulse : Bool := false
  /-- the trace buffer, oldest packet first, and the packets lost since the last that fitted (R967 to R969) -/
  trace : List (List Byte) := []
  lost : Nat := 0
  deriving DecidableEq, Repr


/-- The whole state of the device. -/
structure State where
  /-- commands waiting, first in first out -/
  pending : List Instr := []
  /-- the register maps: bus address and value of every register that does not hold its constant reset value -/
  regs : Tbl Nat W64 := []
  /-- the free-value counter: the model's own, read and advanced wherever the spec leaves a value open -/
  free : Nat := 0
  /-- the last bus answer given (the model's observation) -/
  ans : Answer := {}
  /-- halves of 64-bit registers held for initiators (00 R8, R9) -/
  halves : Halves := {}
  /-- timing port (02) -/
  tmg : Tmg := {}
  /-- serial lanes 0 to 191 (03) -/
  lanes : Tbl Nat Lane := []
  /-- logic fabric, user I/O and configuration frames (04) -/
  fabric : Fabric := {}
  /-- block memories in RAM mode and in FIFO mode (05) -/
  brams : Tbl BlockId Bram := []
  fifos : Tbl BlockId Fifo := []
  /-- arithmetic slices by bay and slice index (06) -/
  slices : Tbl (Nat × Nat) Slice := []
  /-- the crossing (as the count of strobes) in which a resync strobe took effect last (02 R65, 06 R303) -/
  rsyAt : Option Nat := none
  /-- Sand (08) -/
  sand : Sand := {}
  /-- Quartz (08) -/
  qtz : Quartz := {}
  /-- Verdict Table (09) -/
  vrd : Verdict := {}
  /-- Ledger (10) -/
  ldg : Ledger := {}
  /-- host link (11) -/
  ktp : Ktp := {}
  /-- configuration and start-up (12) -/
  cfg : Cfg := {}
  /-- fuses (14 R786) -/
  fuses : Fuses := {}
  /-- slabs whose VCC_FAB rail is absent (21 R995) -/
  railsOff : List Nat := []
  /-- supplies of the third group that are absent (21 R992, R998) -/
  supplyOff : List Supply := []
  /-- Pager, internal configuration ports and scrubbers (13) -/
  pgr : Pgr := {}
  /-- cores 0 to 7 Clove, 8 Saffron, where they differ from their reset state; the warden (14) -/
  cores : Tbl Nat Core := []
  warden : Warden := {}
  /-- physical memory: scratchpad, DDR5 and Saffron's memories, in canonical form (01 R35) -/
  mem : List Host.Cell := []
  /-- DDR5 channels that the zero fill has filled: their unlisted bytes read 0 (16 R840) -/
  filled : List Nat := []
  /-- errors that stored scratchpad and Saffron words carry, by physical address / 8 (15 R808) -/
  wordFlaw : Tbl Nat Flaw := []
  banks : Tbl Nat Bank := []
  /-- exclusive reservations by core: the granule held (14 R751) -/
  resv : Tbl Nat Nat := []
  /-- DMA transfers under way by channel (15 R822) -/
  dma : Tbl Nat DmaRun := []
  /-- errors that DDR5 lines carry, and the key under which a line was written (none: plaintext), by address / 64 (16 R848, R855) -/
  lineFlaw : Tbl Nat Flaw := []
  seals : Tbl Nat (Option MemKey) := []
  chans : Tbl Nat Chan := []
  /-- the memory key slots (14 R786) -/
  memKeys : Tbl Nat MemKey := []
  /-- synthesisers, comparators and the power manager (17) -/
  synths : Tbl Nat Synth := []
  cmpRuns : Tbl Nat CmpRun := []
  power : Power := {}
  /-- service pins and event controller (18) -/
  svc : Svc := {}
  evc : Evc := {}
  /-- debug port (19) -/
  dbg : Dbg := {}
  deriving DecidableEq, Repr

/-- Why a step can stop with a fault. The spec answers every access of the device with a response code, an error bit or a
free value, so no command of this model faults: the type has no constructor. -/
inductive Fault where
  deriving DecidableEq, Repr

/-- Why a command can be refused. -/
inductive Refusal where
  /-- The arm of a command that has no meaning yet: raised by `exec` only, safe (nothing is claimed of it). -/
  | notModelled (mnemonic : String)
  deriving DecidableEq, Repr

/-- The registers whose reset value differs by index (14 R793, 16 R863, 18 R938). -/
def State.resetRegs : Tbl Nat W64 :=
  [(R.WDG_CTRL.addr 8, 3),
   (R.DMC_TSET0.addr 1, 0x1900), (R.DMC_TSET0.addr 3, 0x1900),
   (R.DMC_TSET0.addr 5, 0x1900), (R.DMC_TSET0.addr 7, 0x1900),
   (R.SVP_PIN_CTRL.addr 0, 0x000003), (R.SVP_PIN_CTRL.addr 1, 0x000013),
   (R.SVP_PIN_CTRL.addr 2, 0x000023), (R.SVP_PIN_CTRL.addr 3, 0x080033)]

/-- The device right after power-on reset. -/
def State.reset : State := { regs := State.resetRegs }

end Sys2Proof.Machine
end

