-- ==== Sys2Proof/Machine/Ops.lean ====
section
/-! DEFINITION. The named operations over registers and the answer of a bus access. -/

namespace Sys2Proof.Machine

abbrev Out := Host.Outcome State Fault Refusal

namespace State

/-- The stored value of index `i` of a register row; an unlisted register holds its reset value (00 R19). -/
def rd (s : State) (r : Reg) (i : Nat := 0) : W64 := s.regs.get (BitVec.ofNat 64 r.rst) (r.addr i)

/-- Stores a register. -/
def wr (s : State) (r : Reg) (i : Nat) (v : W64) : State := { s with regs := s.regs.set (r.addr i) v }

/-- The value of a field. -/
def get (s : State) (f : Fld) (i : Nat := 0) : Nat := bits (s.rd f.reg i).toNat f.lo f.len

/-- A one-bit field as a flag. -/
def on (s : State) (f : Fld) (i : Nat := 0) : Bool := s.get f i != 0

end State

/-- A 64-bit value with `len` bits from `lo` replaced by the low bits of `v`. -/
def setBits (w : W64) (lo len v : Nat) : W64 :=
  BitVec.ofNat 64 (w.toNat - bits w.toNat lo len * 2 ^ lo + (v % 2 ^ len) * 2 ^ lo)

namespace State

/-- Stores a field; the register's other bits stand. -/
def put (s : State) (f : Fld) (i : Nat) (v : Nat) : State :=
  s.wr f.reg i (setBits (s.rd f.reg i) f.lo f.len v)

/-- Sets a one-bit field. -/
def raise (s : State) (f : Fld) (i : Nat := 0) : State := s.put f i 1

/-- Clears a field. -/
def clear (s : State) (f : Fld) (i : Nat := 0) : State := s.put f i 0

/-- Stores a flag. -/
def flag (s : State) (f : Fld) (i : Nat) (b : Bool) : State := s.put f i (ofFlag b)

/-- Adds to a count that holds at all ones. -/
def bumpHold (s : State) (f : Fld) (i : Nat := 0) (n : Nat := 1) : State :=
  s.put f i (min (s.get f i + n) (2 ^ f.len - 1))

/-- Adds to a count that wraps. -/
def bumpWrap (s : State) (f : Fld) (i : Nat := 0) (n : Nat := 1) : State := s.put f i (s.get f i + n)

/-- Applies an operation when a condition holds. -/
def when (s : State) (c : Bool) (g : State → State) : State := if c then g s else s

/-- Applies an operation for each element of a list, in order. -/
def each {α : Type} (s : State) (l : List α) (g : State → α → State) : State := l.foldl g s

/-- The answer of a bus access. -/
def answer (s : State) (r : Resp) (d : W64 := 0) : State := { s with ans := { resp := r, data := d } }

/-- The answer OKAY with a number as data. -/
def okay (s : State) (d : Nat := 0) : State := s.answer .okay (BitVec.ofNat 64 d)

end State
end Sys2Proof.Machine

namespace Sys2Proof.Machine
namespace State

/-- The next free value's number, with the counter advanced: `Config` gives the value itself. -/
def fresh (s : State) : State := { s with free := s.free + 1 }

/-- Power domain `d` is on (01 R51, 17 R888). -/
def domOn (s : State) (d : Nat) : Bool := bit (s.get F.PWR_DOM_STATE_ON (d / 32)) (d % 32)

/-- The Clove core gates are held off in IDLE (17 R886, R895). -/
def idleHolds (s : State) (u : Nat) : Bool := u < 8 && s.get F.PWR_STATE_CURRENT == 1 && !s.on F.PWR_STATE_EMULATED

/-- A clock reaches Geode unit `u`, the unit of domain 76 + u: its gate and the root are on, and no hold acts on it
(17 R882, R886). -/
def unitClocked (s : State) (u : Nat) : Bool :=
  s.on F.CKG_GATE_TOP_ROOT && bit (s.get F.CKG_GATE_GEODE_UNIT) u && s.domOn (76 + u) && !s.idleHolds u

/-- Bay `b` is fenced (13 R683). -/
def fenced (s : State) (b : Nat) : Bool := bit (s.get F.FEN_FENCED_BAYS) b

/-- Sets or clears one bit of a field that holds a bit per unit. -/
def putBit (s : State) (f : Fld) (i k : Nat) (b : Bool) : State :=
  let v := s.get f i
  if bit v k = b then s else if b then s.put f i (v + 2 ^ k) else s.put f i (v - 2 ^ k)

/-- A write under the access codes of R13 alone: RW and open RWL bits take the word, W1C bits written 1 clear, every
other bit stands. `locked` says that the unit's RWL fields are locked. -/
def wrCodes (s : State) (r : Reg) (i : Nat) (v : W64) (locked : Bool) : State :=
  let rw := BitVec.ofNat 64 (if locked then r.rw else r.rw ||| r.rwl)
  let c := BitVec.ofNat 64 r.w1c
  s.wr r i (((s.rd r i &&& ~~~rw) ||| (v &&& rw)) &&& ~~~(c &&& v))

end State
end Sys2Proof.Machine

namespace Sys2Proof.Machine
namespace State

/-- The VCC_FAB rail of a slab is present (01 R54, 21 R995). -/
def railUp (s : State) (slab : Nat) : Bool := !s.railsOff.contains slab

/-- A supply that a rule makes a condition is present (21 R998). -/
def supplied (s : State) (r : Supply) : Bool := !s.supplyOff.contains r

/-- Both supplies of the serial lanes and Ethernet ports are present (01 R21, 21 R998). -/
def laneSupply (s : State) : Bool := s.supplied .vttLane09 && s.supplied .vttLane12

/-- Slab `slab` is fenced (13 R692). -/
def slabFenced (s : State) (slab : Nat) : Bool := bit (s.get F.FEN_SLAB_STATUS_FENCED) slab

end State

/-- The unit's RWL fields are locked (14 R784). -/
def State.locked (s : State) (unit : Nat) : Bool := bit (s.get F.KEY_LOCK_UNITS) unit

/-- A log register takes an address and an initiator while its VALID is 0; the logs of
scratchpad, memory encryption and locks share the form. -/
def logFirst (r : Reg) (addr ini : Nat) (s : State) : State :=
  if bit (s.rd r).toNat 63 then s
  else s.wr r 0 (BitVec.ofNat 64 (addr % 2 ^ 48 + ini % 1024 * 2 ^ 48 + 2 ^ 63))

/-- A halted core selected by DBG_FREEZE.CORES, or a channel pulse, applies the freeze (19 R965). -/
def State.freezing (s : State) : Bool :=
  s.dbg.pulse || (List.range 9).any fun n => bit (s.get F.DBG_FREEZE_CORES) n && s.on F.DBG_CORE_STATUS_HALTED n

/-- The RWL bits of a register (00 R13): those of SP0 to SP3 stand in rows that are RW elsewhere, and watchdog 8 has none
(14 R793, 18 R919). -/
def rwlOf (r : Reg) (i : Nat) : Nat :=
  if r = R.SVP_PIN_CTRL ∧ i < 4 then r.rw
  else if (r = R.WDG_CTRL ∨ r = R.WDG_LOAD) ∧ i = 8 then 0
  else r.rwl

/-- A write to a register with locked fields (14 R784, R785): the word with those fields as they stand, and the record of
a write that would have changed one. -/
def lockStep (r : Reg) (i w ini : Nat) (s : State) : Nat × State :=
  let m := BitVec.ofNat 64 (rwlOf r i)
  let old := s.rd r i &&& m
  let v := BitVec.ofNat 64 w
  if !s.locked r.unit || (v &&& m) == old then (w, s)
  else
    let s1 := logFirst R.KEY_VIOL_LOG (r.addr i) ini (s.bumpHold F.KEY_VIOL_COUNT_COUNT)
    (((v &&& ~~~m) ||| old).toNat, s1.raise F.KEY_ERR_LOCK_VIOL)

/-- Inserts into a list ordered by a relation. -/
def insertBy {α : Type} (le : α → α → Bool) (a : α) : List α → List α
  | [] => [a]
  | b :: t => if le a b then a :: b :: t else b :: insertBy le a t

/-- A list ordered by a relation; equals keep their order. -/
def sortBy {α : Type} (le : α → α → Bool) : List α → List α
  | [] => []
  | a :: t => insertBy le a (sortBy le t)

/-- The number whose flags are given, bit 0 first. -/
def packBits (l : List Bool) : Nat := l.foldr (fun b a => ofFlag b + 2 * a) 0

/-- Little-endian number of a byte list, and the little-endian bytes of a number. -/
def bytesNat (l : List Byte) : Nat := l.foldr (fun b a => b.toNat + 256 * a) 0
def natBytes (n len : Nat) : List Byte := (List.range len).map fun k => BitVec.ofNat 8 (n / 256 ^ k)

/-! Answers of more than one word (08 R390, R391) -/

/-- An answer with its bytes and the numbers of its poisoned words. -/
structure MemAns where
  resp : Resp
  bytes : List Byte := []
  poison : List Nat := []
  deriving DecidableEq, Repr

/-- Data come with the response (08 R390). -/
def hasData (r : Resp) : Bool := r == .okay || r == .busy || r == .uncorrectable

/-- Answers a block read. -/
def State.answerBlock (s : State) (r : Resp) (bs : List Byte) (poison : List Nat) : State :=
  { s with ans := ⟨r, BitVec.ofNat 64 (bytesNat (bs.take 8)), bs, poison⟩ }
def State.answerMem (s : State) (m : MemAns) : State := s.answerBlock m.resp m.bytes m.poison

/-- A register's value with one field replaced, as a number. -/
def withField (w : Nat) (f : Fld) (v : Nat) : Nat := (setBits (BitVec.ofNat 64 w) f.lo f.len v).toNat

end Sys2Proof.Machine
end

