-- ==== Sys2Proof/Machine/Tmg.lean ====
section
/-! DEFINITION. The timing port: frames, boundaries, commands and long messages (02 Crossing Timebase and Timing Port). -/

namespace Sys2Proof.Machine

/-- One bit of the CRC-8 with polynomial x^8 + x^2 + x + 1 (02 R57). -/
def crc8Step (c : Byte) (b : Bool) : Byte :=
  if c.msb != b then (c <<< 1) ^^^ 0x07 else c <<< 1

/-- The check of a frame: the CRC over bits [33:8], bit 33 first (02 R57). -/
def tmgCheck (f : W40) : Byte := (List.range 26).foldl (fun c k => crc8Step c (f.getLsbD (33 - k))) 0

/-- The sync pattern 0b110100 (02 R56). -/
def tmgSync : Nat := 0b110100

/-- Crossing boundaries exist while QTZ_LOCK or HOLDOVER is 1 (02 R1010). -/
def State.boundariesRun (s : State) : Bool := s.on F.TMG_STATUS_QTZ_LOCK || s.on F.TMG_STATUS_HOLDOVER

/-- The crossing number and its short tag (02 R63). -/
def State.cn (s : State) : Nat := s.get F.TMG_CN_CN
def State.shortTag (s : State) : W16 := BitVec.ofNat 16 s.cn

/-- The contract condition of 02 R89. -/
def State.latNow (s : State) : Bool :=
  s.on F.TMG_STATUS_CDR_LOCK && s.on F.TMG_STATUS_FRAME_LOCK && s.on F.TMG_STATUS_QTZ_LOCK
    && !s.on F.TMG_STATUS_HOLDOVER

/-- LAT_VALID and its count of rises after a change of the lock bits (02 R89). -/
def tmgSettle (s : State) : State :=
  let v := s.latNow
  let s1 := s.when (v && !s.on F.TMG_STATUS_LAT_VALID) (·.bumpWrap F.TMG_LAT_EPOCH_EPOCH)
  s1.flag F.TMG_STATUS_LAT_VALID 0 v

/-- Starts a link-clock change of Sand when the lock bits `old` and the present ones call for another clock
(08 R379, R380). -/
def tmgLink (old : Bool) (s : State) : State :=
  s.when (old != s.boundariesRun) (·.raise F.NOC_STATUS_SWITCHING)

/-- Loss of frame lock (02 R81). QTZ_LOCK falls as holdover begins: DESIGN CHOICE, log entry 123. -/
def tmgLose (s : State) : State :=
  let s1 := (s.clear F.TMG_STATUS_FRAME_LOCK).raise F.TMG_ERR_LOCK_LOST
  let s2 := { s1 with tmg := { s1.tmg with good := 0, bad := 0, step := false } }
  if s.on F.TMG_STATUS_QTZ_LOCK then
    tmgSettle (((s2.clear F.TMG_STATUS_QTZ_LOCK).raise F.TMG_STATUS_HOLDOVER).raise F.TMG_STATUS_CN_SUSPECT)
  else if s.on F.TMG_STATUS_HOLDOVER then tmgSettle s2
  else tmgSettle { s2 with tmg := { s2.tmg with sinceOrb := none } }

/-- The check of a received frame fails (02 R57, R59). -/
def tmgBadCheck (f : W40) : Bool := tmgCheck f != BitVec.ofNat 8 f.toNat

/-- A failed check is counted (02 R59). -/
def tmgCountCheck (bad : Bool) (s : State) : State :=
  s.when bad fun t => (t.bumpHold F.TMG_CHECK_ERRS_COUNT).raise F.TMG_ERR_CHECK_ERR

/-- One more frame waits for its boundary. A frame's boundary comes N + 16 cycles after its first bit, so the one before is
still to come only where N + 16 exceeds 2 N (02 R61). -/
def tmgKeep (f : Option TmgFrame) (s : State) : State :=
  let before := if s.get F.TMG_QUARTZ_N < 16 then s.tmg.frames.drop (s.tmg.frames.length - 1) else []
  { s with tmg := { s.tmg with frames := before ++ [f] } }

/-- A frame whose sync pattern is in place; a failed check makes it NOP and idle (02 R58, R59). The frame that completes the
lock is acted on only where boundaries run already, in holdover (02 R1010). -/
def tmgGoodSync (s : State) (f : W40) : State :=
  let ok := !tmgBadCheck f
  let held : TmgFrame :=
    if ok then ⟨BitVec.ofNat 8 (f.toNat / 2 ^ 26), BitVec.ofNat 18 (f.toNat / 2 ^ 8)⟩ else ⟨0, 0⟩
  let s1 := tmgCountCheck (!ok) s
  if s.on F.TMG_STATUS_FRAME_LOCK then tmgKeep (some held) { s1 with tmg := { s1.tmg with bad := 0 } }
  else
    let g := if ok then s.tmg.good + 1 else 0
    if g < 64 then { s1 with tmg := { s1.tmg with good := g } }
    else
      let s2 := s1.raise F.TMG_STATUS_FRAME_LOCK
      let s3 := { s2 with tmg := { s2.tmg with good := 0, bad := 0, step := s.on F.TMG_STATUS_HOLDOVER } }
      tmgSettle (tmgKeep (if s.boundariesRun then some held else none) s3)

/-- A frame position without the sync pattern (02 R58); `bad` says that the frame was received and its check fails, which
counts as in any received frame (02 R59). Its command and fragment are dropped whatever its check says: DESIGN CHOICE, log
entry 123. -/
def tmgNoSync (bad : Bool) (s : State) : State :=
  if s.on F.TMG_STATUS_FRAME_LOCK then
    let s1 := tmgKeep none (tmgCountCheck bad s)
    if s.tmg.bad + 1 < 4 then { s1 with tmg := { s1.tmg with bad := s.tmg.bad + 1 } } else tmgLose s1
  else { s with tmg := { s.tmg with good := 0 } }

/-- One frame position of the receive pair (02 R56, R58, R59). While CDR_LOCK is 0 no bit is received, and the position counts
as one without the sync pattern: DESIGN CHOICE, log entry 123. -/
def execTimingFrameReceived (frame : W40) (s : State) : Out :=
  .next <|
    if !s.on F.TMG_CTRL_EN then s
    else if s.on F.TMG_STATUS_CDR_LOCK && frame.toNat / 2 ^ 34 == tmgSync then tmgGoodSync s frame
    else tmgNoSync (s.on F.TMG_STATUS_CDR_LOCK && tmgBadCheck frame) s

/-- The Quartz PLL locks to the recovered crossing clock (02 R80). -/
def execQuartzPllLock (s : State) : Out :=
  .next <|
    if s.on F.TMG_CTRL_EN && s.on F.TMG_STATUS_FRAME_LOCK && !s.boundariesRun then
      tmgLink s.boundariesRun (tmgSettle (s.raise F.TMG_STATUS_QTZ_LOCK))
    else s

/-- The clock recovered from the receive pair is lost (02 R89). -/
def execTimingPortCdrLoss (s : State) : Out := .next (tmgSettle (s.clear F.TMG_STATUS_CDR_LOCK))

/-- The clock is recovered from the receive pair (02 R89); only an enabled receiver recovers one. -/
def execTimingPortCdrLock (s : State) : Out :=
  .next (if s.on F.TMG_CTRL_EN then tmgSettle (s.raise F.TMG_STATUS_CDR_LOCK) else s)

/-! Long messages -/

/-- What a closed message is for: preset, queue or discard (02 R72 to R75). -/
def msgSort (words : List W16) : MsgOut :=
  match words with
  | [] => .drop
  | h :: body =>
    let ty := h.toNat / 256
    if h.toNat % 256 ≠ body.length ∨ 15 < body.length then .drop
    else if ty = 1 ∧ body.length = 4 then
      .preset (BitVec.ofNat 64 (body.foldl (fun a w => a * 65536 + w.toNat) 0))
    else if 0x80 ≤ ty then .queue words
    else .drop

/-- Takes one fragment into the message under assembly (02 R71, R73): what is left under assembly, and the messages
that it completes or breaks. A start only begins and an end only closes, so a message has two words at least; a continue or
end with nothing under assembly is ignored, without MSG_DROP: DESIGN CHOICE, log entry 124. -/
def fragTake (asm : Option (List W16)) (frag : BitVec 18) : Option (List W16) × List MsgOut :=
  let ty := frag.toNat / 2 ^ 16
  let w := BitVec.ofNat 16 frag.toNat
  let broken := if asm.isSome then [MsgOut.drop] else []
  if ty = 0 then (none, broken)
  else if ty = 1 then (some [w], broken)
  else match asm with
    | none => (none, [])
    | some ws => if ty = 2 then (some (ws ++ [w]), []) else (none, [msgSort (ws ++ [w])])

/-- A preset message loads TMG_CN_PRESET (02 R74), also while the queue, which it does not enter, is full: DESIGN CHOICE, log
entry 124. -/
def execCnPresetMessage (s : State) : Out :=
  .next <| match s.tmg.msgs with
    | .preset v :: r => { s with tmg := { s.tmg with msgs := r } }.wr R.TMG_CN_PRESET 0 v
    | _ => s

/-- A completed message enters the queue of 16, or is discarded when it is full (02 R75). -/
def execQueuedMessage (s : State) : Out :=
  .next <| match s.tmg.msgs with
    | .queue ws :: r =>
      if s.tmg.queue.length < 16 then
        { s with tmg := { s.tmg with msgs := r, queue := s.tmg.queue ++ [ws] } }.raise F.TMG_ERR_MSG_READY
      else { s with tmg := { s.tmg with msgs := r } }.raise F.TMG_ERR_MSG_DROP
    | _ => s

/-- A message that is broken, miscounted, unassigned or finds the queue full is discarded (02 R73, R75). -/
def execMsgDrop (s : State) : Out :=
  .next <| match s.tmg.msgs with
    | .drop :: r => { s with tmg := { s.tmg with msgs := r } }.raise F.TMG_ERR_MSG_DROP
    | .queue _ :: r =>
      if s.tmg.queue.length < 16 then s
      else { s with tmg := { s.tmg with msgs := r } }.raise F.TMG_ERR_MSG_DROP
    | _ => s

/-- The value a read of TMG_MSG_DATA returns (02 R75 and the message-queue table). -/
def msgData (s : State) : Nat :=
  match s.tmg.queue with
  | (w :: r) :: _ => w.toNat + (if r.isEmpty then 2 ^ 16 else 0)
  | _ => 2 ^ 17

/-- The read of TMG_MSG_DATA: it removes the word unless the access is quiet (02 R75, 00 R16). -/
def tmgMsgRead (quiet : Bool) (s : State) : State :=
  let s1 := s.okay (msgData s)
  if quiet then s1
  else match s.tmg.queue with
    | (_ :: []) :: q => { s1 with tmg := { s.tmg with queue := q } }
    | (_ :: r) :: q => { s1 with tmg := { s.tmg with queue := r :: q } }
    | _ => s1

def execMsgDataRead (quiet : Bool) (s : State) : Out := .next (tmgMsgRead quiet s)

/-! Boundaries and commands -/

/-- CMD_DELAY in crossings; 0 and 1 act as 2 (02 R65). -/
def State.cmdDelay (s : State) : Nat := max 2 (s.get F.TMG_CTRL_CMD_DELAY)

/-- What the spine column of a bay receives at a boundary (02 R64): short tag, crossing strobe, command code with its valid
bit. -/
structure Spine where
  tag : W16 := 0
  strobe : Bool := false
  code : Byte := 0
  valid : Bool := false
  deriving DecidableEq, Repr

/-- The spine signals of the crossing under way at bay `b`; a fenced bay receives them as 0 at its fence (02 R64, 01 R29). -/
def State.spine (s : State) (b : Nat) : Spine :=
  if s.fenced b then {}
  else { tag := s.tmg.spineTag, strobe := s.boundariesRun, code := s.tmg.spineCmd.getD 0, valid := s.tmg.spineCmd.isSome }

/-- The timing port at a crossing boundary: TMG_CN, the commands that take effect now, the frame's own command and
fragment, and the spine distribution (02 R63 to R66, R69, R71). A crossing without a frame brings an idle fragment: DESIGN
CHOICE, log entry 124. -/
def tmgBoundary (s : State) : State :=
  let t := s.tmg
  let due := (t.waiting.filter (fun e => e.1 ≤ 1)).map (·.2)
  let later := (t.waiting.filter (fun e => ¬ e.1 ≤ 1)).map (fun e => (e.1 - 1, e.2))
  let frame := t.frames.head?.join
  let own := match frame with
    | some f => [(s.cmdDelay, f.cmd)]
    | none => []
  let (asm, out) := fragTake t.asm (match frame with | some f => f.frag | none => 0)
  let s1 := s.bumpWrap F.TMG_CN_CN
  let s2 := s1.when (2 ≤ due.length) (·.raise F.TMG_ERR_CMD_COLLIDE)
  { s2 with tmg := { t with
      frames := t.frames.tail, waiting := later ++ own, due := t.due ++ due, asm := asm, msgs := t.msgs ++ out,
      sinceOrb := t.sinceOrb.map (· + 1), spineTag := s1.shortTag, spineCmd := due.getLast?,
      strobes := t.strobes + 1 } }

/-- The frame sent eight cycles after the boundary (02 R83 to R85). -/
def tmgTransmit (s : State) : State :=
  let busy := s.on F.TMG_TX_CTRL_FORCE_BUSY || s.on F.TMG_STATUS_HOLDOVER || !s.on F.CFG_STATUS_DONE_IN
  let thr := s.on F.TMG_TX_CTRL_FORCE_THROTTLE || s.on F.LDG_STATUS_THROTTLE
  let acc := if s.on F.TMG_TX_CTRL_ACCEPT_EN then s.tmg.accept else none
  let body := ofFlag busy * 2 ^ 33 + ofFlag thr * 2 ^ 32 + s.get F.TMG_TX_CTRL_USER * 2 ^ 27
    + (match acc with | some st => 2 ^ 25 + st.toNat * 2 ^ 8 | none => 0)
  let f : W40 := BitVec.ofNat 40 (tmgSync * 2 ^ 34 + body)
  let s1 := (s.flag F.TMG_STATUS_TX_BUSY 0 busy).flag F.TMG_STATUS_TX_THROTTLE 0 thr
  { s1 with tmg := { s1.tmg with txFrame := some (f ||| (tmgCheck f).setWidth 40), accept := none } }

/-- A due command may act now: a CNR acts before any other, a resync before an EXA, and of THR and TRL the one received
first (02 R65, 10 R519). -/
def cmdMayAct (due : List Byte) (c : Byte) : Bool :=
  let thr (d : Byte) : Bool := d == 7 || d == 8
  (c == 1 || !due.contains 1) && (c != 4 || !due.contains 3) && (!thr c || due.find? thr == some c)

/-- Takes the first due command that meets a condition off the list, with the state after its removal. -/
def takeDue (p : Nat → Bool) (s : State) : Option State :=
  match s.tmg.due.find? (fun c => p c.toNat && cmdMayAct s.tmg.due c) with
  | some c => some { s with tmg := { s.tmg with due := s.tmg.due.erase c } }
  | none => none

/-- A due command's effect: `g` on the state without it; without such a command nothing happens (02 R65). -/
def onDue (p : Nat → Bool) (g : State → State) (s : State) : State :=
  match takeDue p s with
  | some t => g t
  | none => s

def execNop (s : State) : Out := .next (onDue (· == 0) id s)

/-- ORB latches TMG_CN, counts, and checks the orbit length (02 R65, R69). -/
def tmgOrb (s : State) : State :=
  let len := s.get F.TMG_ORBIT_LEN
  let bad := match s.tmg.sinceOrb with
    | some n => len != 0 && n != len
    | none => false
  let s1 := (s.wr R.TMG_ORBIT_CN 0 (s.rd R.TMG_CN)).bumpWrap F.TMG_ORBIT_COUNT_COUNT
  let s2 := s1.when bad (·.raise F.TMG_ERR_ORBIT_ERR)
  { s2 with tmg := { s2.tmg with sinceOrb := some 0 } }

def execCal (s : State) : Out := .next (onDue (· == 5) id s)
def execTpl (s : State) : Out := .next (onDue (· == 6) id s)
def execThr (s : State) : Out := .next (onDue (· == 7) (·.raise F.TMG_STATUS_EXT_THROTTLE) s)
def execTrl (s : State) : Out := .next (onDue (· == 8) (·.clear F.TMG_STATUS_EXT_THROTTLE) s)

def execReservedCommand (s : State) : Out :=
  .next (onDue (fun c => 9 ≤ c && c < 0x80) (·.raise F.TMG_ERR_RSVD_CMD) s)

def execUserCommand (s : State) : Out := .next (onDue (fun c => 0x80 ≤ c) id s)

/-! Enable and disable -/

/-- TMG_FREQ and TMG_QUARTZ are within 02 R77 and R78. -/
def State.tmgConfigOk (s : State) : Bool :=
  let k := s.get F.TMG_FREQ_KHZ
  let n := s.get F.TMG_QUARTZ_N
  10000 ≤ k && k ≤ 100000 && 12 ≤ n && n ≤ 128 && 1200000 ≤ n * k && n * k ≤ 1600000

/-- The port stops (02 R1011). -/
def tmgStop (s : State) : State :=
  let s0 := s.put F.TMG_CTRL_EN 0 0
  let s1 := s0.when s.tmg.asm.isSome (·.raise F.TMG_ERR_MSG_DROP)
  let s2 := s1.each [F.TMG_STATUS_CDR_LOCK, F.TMG_STATUS_FRAME_LOCK, F.TMG_STATUS_QTZ_LOCK,
    F.TMG_STATUS_HOLDOVER, F.TMG_STATUS_LAT_VALID] (fun s f => s.clear f)
  let s3 := s2.raise F.TMG_STATUS_CN_SUSPECT
  tmgLink s.boundariesRun { s3 with tmg := { s3.tmg with
    good := 0, bad := 0, frames := [], waiting := [], due := [], asm := none, sinceOrb := none,
    step := false, txFrame := none, accept := none } }

/-- A write of TMG_CTRL: CMD_DELAY and EXA_OFFSET are stored; EN starts the port, is refused, or stops it (02 R78, R1011). -/
def tmgCtrlWrite (w : Nat) (s : State) : State :=
  let s1 := (s.put F.TMG_CTRL_CMD_DELAY 0 (bits w 4 4)).put F.TMG_CTRL_EXA_OFFSET 0 (bits w 8 12)
  if bit w 0 then
    if s1.tmgConfigOk then s1.put F.TMG_CTRL_EN 0 1
    else (s1.put F.TMG_CTRL_EN 0 0).raise F.TMG_ERR_CFG_REFUSED
  else if s.on F.TMG_CTRL_EN then tmgStop s1
  else s1

def execTimingPortEnable (w : W32) (s : State) : Out := .next (tmgCtrlWrite (w ||| 1).toNat s)
def execTimingPortDisable (w : W32) (s : State) : Out := .next (tmgCtrlWrite (w &&& 0xFFFFFFFE).toNat s)

/-- TMG registers that are computed when they are read (02 R61, R75). -/
def tmgView (s : State) (r : Reg) : Option Nat :=
  if r = R.TMG_RX_LATENCY then
    some (if s.on F.TMG_STATUS_FRAME_LOCK then (s.get F.TMG_QUARTZ_N + 16) % 256 else 0)
  else if r = R.TMG_MSG_STATUS then
    some (s.tmg.queue.length + 256 * (match s.tmg.queue with | m :: _ => m.length | [] => 0))
  else if r = R.TMG_MSG_DATA then some (msgData s)
  else none

/-- TMG registers whose write is more than its access codes (02 R78, R79, R1011). -/
def tmgWrite (s : State) (r : Reg) (w : Nat) : Option State :=
  if r = R.TMG_CTRL then some (tmgCtrlWrite w s)
  else if (r = R.TMG_FREQ ∨ r = R.TMG_QUARTZ) ∧ s.on F.TMG_CTRL_EN then
    some (s.raise F.TMG_ERR_CFG_REFUSED)
  else none

end Sys2Proof.Machine
end

