-- ==== Sys2Proof/Machine/Sand.lean ====
section
/-! DEFINITION. The Sand network: initiators, entries, tokens, routes, failed links and the error log (08 R374 to R418). -/

namespace Sys2Proof.Machine

/-- The outstanding limit of an initiator (08 R384). -/
def sandLimit (i : Nat) : Nat :=
  if i < 0x40 then 256 else if i < 0x48 then 64 else if i < 0x4A then 32 else if i = 0x4A then 2048
  else if i = 0x4B then 5120 else if i = 0x4C then 256 else if i = 0x4D then 64 else if i < 0x50 then 0
  else if i < 0x70 then 256 else 32

/-- The bytes of a request. -/
def reqBytes (q : SandReq) : Nat := q.len.toNat + 1

/-- Flits of a request, the header included (08 R387 to R389). -/
def reqFlits (q : SandReq) : Nat :=
  match q.op with
  | .read => 1
  | _ => 1 + (q.addr.toNat % 32 + (reqBytes q) + 31) / 32

def reqPosted (q : SandReq) : Bool := q.op == .writeP

/-- The outstanding entries of one initiator (08 R385). -/
def State.outstanding (s : State) (i : Nat) : Nat := (s.sand.entries.filter (fun e => e.1.1 == i)).length

/-! Token buckets (08 R400 to R404), counted in 1/1,024 tokens -/

def State.sandBurst (s : State) (i : Nat) : Nat := max 1 (s.get F.NOC_RATE_BURST i)
def State.sandTokens (s : State) (i : Nat) : Int := s.sand.tokens.get (1024 * (s.sandBurst i : Int)) i

/-- The count after a number of Sand-clock cycles (08 R401). -/
def State.sandAccrue (s : State) (i cycles : Nat) : Int :=
  min (s.sandTokens i + (cycles * max 1 (s.get F.NOC_RATE_RATE i) : Nat)) (1024 * (s.sandBurst i : Int))

/-- The tokens allow a request of `f` flits (08 R402). -/
def tokensAllow (c : Int) (f burst : Nat) : Bool := decide (1024 * (min f burst : Nat) ≤ c)

/-- Opens an outstanding entry (08 R385). -/
def sandOpen (q : SandReq) (s : State) : State :=
  if (reqPosted q) then s
  else
    let k := (q.ini.val, q.tag.toNat)
    { s with sand := { s.sand with entries := s.sand.entries.set k ⟨q, s.sand.gens.get 0 k⟩ } }

/-- Frees an entry: its generation advances modulo 8, and its initiator is no longer held by R386 (08 R408). -/
def sandFree (i tag : Nat) (s : State) : State :=
  let g := s.sand.gens.get 0 (i, tag)
  let s1 := { s with sand := { s.sand with entries := s.sand.entries.erase (i, tag),
                                           gens := s.sand.gens.set (i, tag) (g + 1) } }
  s1.clear F.NOC_INI_STATUS_AT_LIMIT i

/-! The address map as far as routes need it (01 R35) -/

def bayBase : Nat := 0x010000000000
def inBay (a : Nat) : Bool := bayBase ≤ a && a < bayBase + 64 * 2 ^ 32

/-- The bay whose window holds an address. -/
def bayOfAddr (a : Nat) : Nat := a / 2 ^ 32 - 256

/-! Switches, links and routes (08 R374 to R376, R395, R411, R412, R428) -/

/-- Table identity of output `o` of slab switch `sw` (0 to 63, by bay). -/
def outId (sw o : Nat) : Nat := sw / 16 * 256 + sw % 16 * 16 + o

/-- The switch's bay_row and bay_col. -/
def swRow (sw : Nat) : Nat := sw % 16 / 4
def swCol (sw : Nat) : Nat := sw % 4

/-- The output exists (08 R428). -/
def idExists (id : Nat) : Bool :=
  if id < 0x400 then
    let r := id / 16 % 16
    let o := id % 16
    (o == 0 && r / 4 != 3) || (o == 1 && r % 4 != 3) || (o == 2 && r / 4 != 0) || (o == 3 && r % 4 != 0)
      || o == 4 || o == 5 || (8 ≤ o && o < 12 && r % 4 == 0)
  else id ≤ 0x448

/-- The output drives a mesh or bridge link. -/
def isLink (id : Nat) : Bool := idExists id && (if id < 0x400 then id % 16 != 4 && id % 16 != 5 else id < 0x440)

/-- The mesh outputs along a straight line of `n` switches from `sw`, each step adding `d` to the switch number. -/
def meshLine (slab o : Nat) : Nat → Nat → (Nat → Nat) → List Nat
  | 0, _, _ => []
  | n + 1, r, next => outId (slab * 16 + r) o :: meshLine slab o n (next r) next

/-- The mesh outputs from switch `r` to switch `r'` of a slab: along the bay columns first, then the bay rows (08 R395). -/
def meshPath (slab r r' : Nat) : List Nat :=
  let c := r % 4
  let c' := r' % 4
  let cols := if c ≤ c' then meshLine slab 1 (c' - c) r (· + 1) else meshLine slab 3 (c - c') r (· - 1)
  let m := r / 4 * 4 + c'
  let rows := if m ≤ r' then meshLine slab 0 ((r' - m) / 4) m (· + 4) else meshLine slab 2 ((m - r') / 4) m (· - 4)
  cols ++ rows

/-- The four bridge links between Geode and a switch with bay_col 0, in the order in which initiator `ini` takes them: link
INIT mod 4, then the next modulo 4 (08 R395, R412). -/
def bridgeGroup (up : Bool) (slab row ini : Nat) : List Nat :=
  (List.range 4).map fun j =>
    let k := (ini + j) % 4
    if up then outId (slab * 16 + row * 4) (8 + k) else 0x400 + slab * 16 + row * 4 + k

/-- The route of a packet of `ini` between two places, a bay or Geode, as groups of links, each in the order of choice
(08 R395, R412). -/
def sandRoute (ini : Nat) (src dst : Option Nat) : List (List Nat) :=
  let single := List.map (fun (l : Nat) => [l])
  let up (b : Nat) := single (meshPath (b / 16) (b % 16) (swRow b * 4)) ++ [bridgeGroup true (b / 16) (swRow b) ini]
  let down (b : Nat) := bridgeGroup false (b / 16) (swRow b) ini :: single (meshPath (b / 16) (swRow b * 4) (b % 16))
  match src, dst with
  | none, none => []
  | some b, none => up b
  | none, some b => down b
  | some a, some b => if a / 16 = b / 16 then single (meshPath (a / 16) (a % 16) (b % 16)) else up a ++ down b

/-- A route has a failed mesh link, or four failed bridge links (08 R412). -/
def State.routeDown (s : State) (ini : Nat) (src dst : Option Nat) : Bool :=
  (sandRoute ini src dst).any fun g => g.all fun l => s.sand.failed.contains l

/-- The links that a packet takes: of each group the first that has not failed, or the first where all have (08 R412). -/
def State.linksTaken (s : State) (ini : Nat) (src dst : Option Nat) : List Nat :=
  (sandRoute ini src dst).filterMap fun g => (g.find? fun l => !s.sand.failed.contains l).orElse fun _ => g.head?

/-- Where an initiator and a target lie: a bay, or Geode (08 R374 to R376, R384). -/
def iniPlace (ini : Nat) : Option Nat := if ini < 64 then some ini else none
def addrPlace (a : Nat) : Option Nat := if inBay a then some (bayOfAddr a) else none

/-- The request cannot reach its target: a route with failed links (08 R412). -/
def State.cutOff (s : State) (ini a : Nat) : Bool := s.routeDown ini (iniPlace ini) (addrPlace a)

/-- The request as it starts its way to its target. -/
def State.outbound (s : State) (q : SandReq) : Moving :=
  let ini := q.ini.val
  { q, flits := reqFlits q, left := reqFlits q, inp := 0x1000 + ini,
    path := s.linksTaken ini (iniPlace ini) (addrPlace q.addr.toNat) }

/-- Tries an injection after `cycles` Sand-clock cycles since the last (08 R386, R402): whether the request goes, and the
state with the tokens, the entry and the held flags. A request that names an entry in use does not go. -/
def sandInject (q : SandReq) (cycles : Nat) (s : State) : Bool × State :=
  let i := q.ini.val
  let reg := s.on F.NOC_RATE_EN i
  let c := s.sandAccrue i cycles
  let s1 := { s with sand := { s.sand with tokens := s.sand.tokens.set i c } }
  if !(reqPosted q) && sandLimit i ≤ s.outstanding i then (false, s1.raise F.NOC_INI_STATUS_AT_LIMIT i)
  else if !(reqPosted q) && (s.sand.entries.find (i, q.tag.toNat)).isSome then (false, s1)
  else if reg && !tokensAllow c (reqFlits q) (s.sandBurst i) then (false, s1.raise F.NOC_INI_STATUS_RATE_WAIT i)
  else
    let c' := if reg then c - 1024 * ((reqFlits q) : Int) else c
    let s2 := { s1 with sand := { s1.sand with tokens := s1.sand.tokens.set i c' } }
    let s3 := { s2 with sand := { s2.sand with moving := s2.sand.moving ++ [s2.outbound q] } }
    (true, sandOpen q ((s3.clear F.NOC_INI_STATUS_RATE_WAIT i).clear F.NOC_INI_STATUS_AT_LIMIT i))

/-- An initiator injects a waiting request (08 R386, R402). -/
def execSandInjection (q : SandReq) (cycles : Nat) (s : State) : Out := .next (sandInject q cycles s).2

/-- A bay's access point takes a whole packet into its buffer, unless a packet waits there, and injects what the buffer holds;
a fenced bay takes and injects nothing (08 R415). -/
def execAccessPointInject (bay : BayId) (q : SandReq) (cycles : Nat) (s : State) : Out :=
  .next <|
    if s.fenced bay then s
    else
      let b := (s.sand.buffer.find bay.val).getD q
      let (gone, s1) := sandInject { b with ini := ⟨bay.val, by omega⟩ } cycles s
      { s1 with sand := { s1.sand with
          buffer := if gone then s1.sand.buffer.erase bay.val else s1.sand.buffer.set bay.val b } }

/-! Error log (08 R413, R414) -/

/-- Logs an error response while the log holds none. -/
def nocLog (ini addr : Nat) (r : Resp) (posted : Bool) (s : State) : State :=
  if r = .okay ∨ s.on F.NOC_ERR_LOG_VALID then s
  else s.wr R.NOC_ERR_LOG 0
    (BitVec.ofNat 64 (addr % 2 ^ 48 + ini % 1024 * 2 ^ 48 + r.code * 2 ^ 58 + ofFlag posted * 2 ^ 62 + 2 ^ 63))

/-- A timeout is counted, flagged and logged (08 R405). -/
def nocTimeout (ini addr : Nat) (s : State) : State :=
  nocLog ini addr .timeout false ((s.bumpHold F.NOC_TIMEOUTS_COUNT).raise F.NOC_ERR_TIMEOUT)

/-- The end of an access made in one command: a posted write's error is flagged and logged and nothing answers it; any other
access is answered, and an error response logged (08 R405, R413, R414). -/
def sandEnd (ini addr : Nat) (posted : Bool) (r : Resp) (d : W64) (s : State) : State :=
  if posted then
    if r = .okay ∨ r = .timeout then s else nocLog ini addr r true (s.raise F.NOC_ERR_POSTED_ERR)
  else if r = .timeout then (nocTimeout ini addr s).answer .timeout
  else (nocLog ini addr r false s).answer r d

/-- A response reaches its initiator: the entry it matches by TAG and GEN is freed and its contents are delivered, those that
R389 and R390 give it; a late one is discarded, and a fenced bay's is discarded (08 R389 to R391, R397, R408, R415). -/
def rspTake (p : SandRsp) (s : State) : State :=
  let i := p.ini.val
  if i < 64 && s.fenced i then s
  else match s.sand.entries.find (i, p.tag.toNat) with
    | some e =>
      if e.gen = p.gen then
        (nocLog i e.req.addr.toNat p.resp false (sandFree i p.tag.toNat s)).answerMem
          (if e.req.op = .read ∧ hasData p.resp then ⟨p.resp, p.data, p.poison⟩ else ⟨p.resp, [], []⟩)
      else (s.bumpHold F.NOC_LATE_RESPS_COUNT).raise F.NOC_ERR_LATE_RESP
    | none => (s.bumpHold F.NOC_LATE_RESPS_COUNT).raise F.NOC_ERR_LATE_RESP

/-- The route that a response would take has failed: it is lost, but for a LINK response, which comes from the switch before the
failure (08 R412). -/
def State.rspLost (s : State) (p : SandRsp) : Bool :=
  p.resp != .link && (match s.sand.entries.find (p.ini.val, p.tag.toNat) with
    | some e => s.routeDown p.ini.val (addrPlace e.req.addr.toNat) (iniPlace p.ini.val)
    | none => false)

/-- An initiator receives a response: one that is still on its way through the switches is taken when it has passed them. -/
def execSandResponse (p : SandRsp) (s : State) : Out :=
  .next <|
    let mine (m : Moving) : Bool :=
      m.q.ini == p.ini && m.q.tag == p.tag && m.back == some p.gen && m.rsp.isNone
    match s.sand.moving.find? mine with
    | none => if s.rspLost p then s else rspTake p s
    | some m =>
      if m.path.isEmpty then rspTake p { s with sand := { s.sand with moving := s.sand.moving.erase m } }
      else { s with sand := { s.sand with moving := s.sand.moving.map fun n => if n = m then { n with rsp := some p } else n } }

/-- No response arrives within NOC_TMO.US: the interface answers TIMEOUT and frees the entry (08 R405). -/
def execSandTimeout (ini : Ini) (tag : BitVec 13) (s : State) : Out :=
  .next <| match s.sand.entries.find (ini.val, tag.toNat) with
    | some e => (nocTimeout ini.val e.req.addr.toNat (sandFree ini.val tag.toNat s)).answer .timeout
    | none => s

/-! Links (08 R379, R380, R410, R411) -/

/-- A link receiver finds a CRC error and asks for the flit again; when the repeat fails too, the link is failed
(08 R410, R411). -/
def execLinkRetry (link : BitVec 12) (again : Bool) (s : State) : Out :=
  .next <|
    let l := link.toNat
    if !isLink l || s.sand.failed.contains l then s
    else
      let s1 := (s.bumpHold F.NOC_LINK_RETRIES_COUNT).raise F.NOC_ERR_LINK_RETRY
      if !again then s1
      else ({ s1 with sand := { s1.sand with failed := s1.sand.failed ++ [l] } }.put F.NOC_LINK_FAIL_LINK 0 l).raise
        F.NOC_ERR_LINK_FAIL

/-- The links that stop being failed when a slab's rail returns (08 R411). -/
def linkOfSlab (slab l : Nat) : Bool := (l < 0x400 && l / 256 == slab) || (0x400 ≤ l && l < 0x440 && (l - 0x400) / 16 == slab)

/-- The link-clock stall ends (08 R380). -/
def execLinkClockSwitchDone (s : State) : Out := .next (s.clear F.NOC_STATUS_SWITCHING)

/-- A write to NOC_RATE takes effect at once, and the count is cut to the new BURST (08 R404). -/
def nocRateWrite (i w : Nat) (s : State) : State :=
  let c := s.sandTokens i
  let s1 := (s.wrCodes R.NOC_RATE i (BitVec.ofNat 64 w) false).when (!bit w 31) (·.clear F.NOC_INI_STATUS_RATE_WAIT i)
  { s1 with sand := { s1.sand with tokens := s1.sand.tokens.set i (min c (1024 * (s1.sandBurst i : Int))) } }

def execNocRateWrite (ini : Ini) (w : W32) (s : State) : Out := .next (nocRateWrite ini.val w.toNat s)

/-- NOC registers that are computed when read (08 R448). -/
def nocView (s : State) (r : Reg) (i : Nat) : Option Nat :=
  let v := (s.rd r i).toNat
  if r = R.NOC_STATUS then some (withField v F.NOC_STATUS_LINK_CLK (ofFlag s.boundariesRun))
  else if r = R.NOC_OUTSTANDING then some s.sand.entries.length
  else if r = R.NOC_LINK_FAIL then some (withField v F.NOC_LINK_FAIL_COUNT s.sand.failed.length)
  else if r = R.NOC_INI_STATUS then some (withField v F.NOC_INI_STATUS_OUTSTANDING (s.outstanding i))
  else none

/-- NOC registers whose write is more than its access codes (08 R404). -/
def nocWrite (s : State) (r : Reg) (i w : Nat) : Option State :=
  if r = R.NOC_RATE then some (nocRateWrite i w s) else none

end Sys2Proof.Machine
end

