-- ==== Sys2Proof/Machine/Quartz.lean ====
section
/-! DEFINITION. Quartz circuits: channels, flits, schedule tables, commits, trace and probe (08 R419 to R453, R1018). -/

namespace Sys2Proof.Machine

def State.setQtz (s : State) (g : Quartz → Quartz) : State := { s with qtz := g s.qtz }

/-- The number of slots of a crossing (08 R429). -/
def State.qtzN (s : State) : Nat := s.get F.TMG_QUARTZ_N

/-- QTZ_STATUS.ACTIVE (08 R426). -/
def State.qtzActive (s : State) : Bool := s.on F.QTZ_CTRL_EN && s.boundariesRun && s.qtz.committed

/-- A schedule entry (08 R427). -/
structure QtzEntry where
  valid : Bool
  port : Nat
  ch : Nat
  lane : Nat
  deriving DecidableEq, Repr

/-- The entry of a lane of a slot word. -/
def entryAt (t : Tbl (Nat × Nat) W64) (id slot lane : Nat) : QtzEntry :=
  let e := bits (t.get 0 (id, slot)).toNat (16 * lane) 16
  ⟨bit e 15, e % 256, bits e 10 3, bits e 13 2⟩

/-- The input port exists on the switch that drives output `id`; of an INJECT table, the transmit channel (08 R428, R437). -/
def inputExists (id port : Nat) : Bool :=
  if id < 0x400 then
    let r := id / 16 % 16
    if id % 16 = 5 then port < 8
    else (port == 0 && r / 4 != 3) || (port == 1 && r % 4 != 3) || (port == 2 && r / 4 != 0) || (port == 3 && r % 4 != 0)
      || port == 4 || (8 ≤ port && port < 12 && r % 4 == 0)
  else port < 72

/-- The slab whose switch drives the output; 4 for Geode. -/
def idSlab (id : Nat) : Nat := if id < 0x400 then id / 256 else 4

/-! Windows of invalid flits (08 R439, R440) -/

/-- The slot lies in the 64 Quartz-domain cycles after boundary `start`; slots are counted from the present crossing's boundary. -/
def State.inWindow (s : State) (start slot : Nat) : Bool := (s.tmg.strobes - start) * s.qtzN + slot < 64

/-- A flit leaving through this entry in this slot leaves invalid: the entry changed, or a relock step has passed. -/
def State.qtzMuted (s : State) (id slot lane abs : Nat) : Bool :=
  (match s.qtz.stepAt with | some b => s.inWindow b abs | none => false)
    || s.qtz.changed.any (fun c => c.1 == (id, slot, lane) && s.inWindow c.2 abs)
    || (s.qtz.loading.contains (idSlab id))

/-! Fabric side and injection -/

/-- Fabric writes a transmit channel, replacing contents not yet sent (08 R420, R422). -/
def execTransmitChannelWrite (bay : BayId) (ch : Fin 8) (data : W64) (tag : W16) (s : State) : Out :=
  .next (s.setQtz fun q => { q with tx := q.tx.set (bay.val, ch.val) ⟨data, tag, true⟩ })

/-- Puts a flit on its way. -/
def qtzSend (place : QtzPlace) (lane slot : Nat) (f : Flit) (s : State) : State :=
  s.setQtz fun q => { q with flights := q.flights.set (place, lane, slot) f }

/-- The PROBE mark of the next flit that a source sends on the probed circuit (08 R444). -/
def probeMark (src : Nat × Nat × Nat) (f : Flit) (s : State) : Flit × State :=
  match s.qtz.probe with
  | some p =>
    if p.src = some src ∧ p.marked = false ∧ f.valid then
      ({ f with probe := some 0 }, s.setQtz fun q => { q with probe := some { p with marked := true } })
    else (f, s)
  | none => (f, s)

/-- A flit's latency count after `n` more cycles. -/
def Flit.later (f : Flit) (n : Nat) : Flit := { f with probe := f.probe.map (· + n) }

/-- One lane of an injection slot (08 R421, R422, R425). -/
def injectLane (bay slot : Nat) (s : State) (lane : Nat) : State :=
  let id := outId bay 5
  let e := entryAt s.qtz.active id slot lane
  let c := s.qtz.tx.get {} (bay, e.port)
  if !e.valid || !c.valid || s.fenced bay || s.qtzMuted id slot lane slot then s
  else
    let (f, s1) := probeMark (id, slot, lane) ⟨c.data, c.tag, true, none⟩ s
    qtzSend (.port bay 4) lane ((slot + 2) % s.qtzN) (f.later 2) s1

/-- An injection slot of a bay: every lane that the INJECT table gives a channel carries its contents, and the valid bits of the
channels sent clear (08 R421, R422). -/
def execQuartzInjection (bay : BayId) (slot : Fin 128) (s : State) : Out :=
  .next <|
    if !s.qtzActive || s.on F.NOC_STATUS_SWITCHING || s.qtzN ≤ slot.val || !s.railUp (bay.val / 16) then s
    else
      let es := (List.range 4).map (entryAt s.qtz.active (outId bay.val 5) slot.val)
      let s1 := s.each (List.range 4) (injectLane bay.val slot.val)
      s1.each (es.filter (·.valid)) fun t e => t.setQtz fun q =>
        { q with tx := q.tx.set (bay.val, e.port) { q.tx.get {} (bay.val, e.port) with valid := false } }

/-! Forwarding -/

/-- The outputs of a switch (08 R428). -/
def outputsOf (sw : Nat) : List Nat :=
  if sw < 64 then ([0, 1, 2, 3, 4, 8, 9, 10, 11].map (outId sw)).filter idExists
  else (List.range 0x49).map (· + 0x400)

/-- Where output `id` leads, and its delay in cycles (08 R428, R441). -/
def outputLeads (id : Nat) : QtzPlace × Nat :=
  if id < 0x400 then
    let sw := id / 256 * 16 + id / 16 % 16
    match id % 16 with
    | 0 => (.port (sw + 4) 2, 1)
    | 1 => (.port (sw + 1) 3, 1)
    | 2 => (.port (sw - 4) 0, 1)
    | 3 => (.port (sw - 1) 1, 1)
    | 4 => (.recv sw, 2)
    | o => (.port 64 (sw / 16 * 16 + swRow sw * 4 + (o - 8)), 6)
  else if id < 0x440 then
    let l := (id - 0x400) % 16
    (.port ((id - 0x400) / 16 * 16 + l / 4 * 4) (8 + l % 4), 6)
  else if id < 0x448 then (.verdict (id - 0x440), 2)
  else (.ledger, 2)

/-- The output that drives an input port of a switch: none for a port that no output of a switch drives (08 R428, R446). -/
def portDriver (sw port : Nat) : Option Nat :=
  if sw < 64 then
    match port with
    | 0 => some (outId (sw + 4) 2)
    | 1 => some (outId (sw + 1) 3)
    | 2 => some (outId (sw - 4) 0)
    | 3 => some (outId (sw - 1) 1)
    | 4 => some (outId sw 5)
    | p => if 8 ≤ p then some (0x400 + sw / 16 * 16 + swRow sw * 4 + (p - 8)) else none
  else if port < 64 then some (outId (port / 16 * 16 + port % 16 / 4 * 4) (8 + port % 4))
  else if port < 72 then some (0x440 + (port - 64)) else none

/-- Records a parity error on the output `link` (08 R446). -/
def qtzParity (link : Nat) (s : State) : State :=
  ((s.bumpHold F.QTZ_PAR_ERRS_COUNT).put F.QTZ_PAR_LINK_LINK 0 link).raise F.QTZ_ERR_PARITY

/-- The bridge between the slab of a port and Geode carries nothing (08 R418). -/
def State.bridgeShut (s : State) (sw port : Nat) : Bool :=
  if sw < 64 then 8 ≤ port && s.slabFenced (sw / 16)
  else port < 64 && (s.slabFenced (port / 16) || !s.railUp (port / 16))

/-- A flit is taken off its way. -/
def qtzTake (place : QtzPlace) (lane slot : Nat) (s : State) : Option Flit × State :=
  (s.qtz.flights.find (place, lane, slot),
   s.setQtz fun q => { q with flights := q.flights.erase (place, lane, slot) })

/-- Forwards a flit through one output lane whose entry names its input (08 R430 to R432, R439). -/
def forwardTo (port lane slot delay : Nat) (f : Flit) (s : State) (ol : Nat × Nat) : State :=
  let (id, q) := ol
  let o := (slot + delay) % s.qtzN
  let e := entryAt s.qtz.active id o q
  if e.valid && e.port == port && e.lane == lane then
    let (place, d) := outputLeads id
    let ok := f.valid && !s.qtzMuted id o q (slot + delay)
    let f' := { f with valid := ok }
    qtzSend place q ((o + d) % s.qtzN) (f'.later (delay + d)) s
  else s

/-- A flit arriving at a switch input in its slot leaves every output lane scheduled for it, a parity error or a closed bridge
making it invalid (08 R418, R430, R431, R446). -/
def execQuartzFlitArrival (p : QtzIn) (upset : Bool) (s : State) : Out :=
  .next <|
    let sw := p.sw.val
    if s.on F.NOC_STATUS_SWITCHING then s else
    match qtzTake (.port sw p.port.val) p.lane.val p.slot.val s with
    | (none, _) => s
    | (some f, s1) =>
      if !s.qtzActive || (sw < 64 && !s.railUp (sw / 16)) then s1
      else
        let bad := f.valid && upset && !s.bridgeShut sw p.port.val
        let s2 := s1.when bad (qtzParity ((portDriver sw p.port.val).getD 0))
        let f' := { f with valid := f.valid && !upset && !s.bridgeShut sw p.port.val }
        let d := if sw < 64 then 2 else 3
        s2.each ((outputsOf sw).flatMap fun id => (List.range 4).map fun q => (id, q))
          (forwardTo p.port.val p.lane.val p.slot.val d f')

/-- A probed flit reaches the probe's destination: the latency stands (08 R444). -/
def probeArrive (id slot lane : Nat) (f : Flit) (extra : Nat) (s : State) : State :=
  match s.qtz.probe, f.probe with
  | some p, some n =>
    if p.id = id ∧ p.slot = slot ∧ p.lane = lane ∧ f.valid then
      s.setQtz fun q => { q with probe := some { p with arrived := some (n + extra) } }
    else s
  | _, _ => s

/-- An endpoint takes the flit that output `id` sent it in `slot` (08 R446): the flit, invalid when its parity fails, and the
state with the error and the probe's arrival. None where no flit was on its way. -/
def qtzEndpoint (place : QtzPlace) (id slot lane : Nat) (upset : Bool) (extra : Nat) (s : State) : Option Flit × State :=
  match qtzTake place lane ((slot + 2) % s.qtzN) s with
  | (none, s1) => (none, s1)
  | (some f, s1) =>
    let f' := { f with valid := f.valid && !upset }
    (some f', probeArrive id slot lane f' extra (s1.when (f.valid && upset) (qtzParity id)))

/-- A receive channel takes what its LOCAL entry delivers, valid or not, EQD cycles after it arrived; of a slot that carried no
flit the data are free (08 R423, R432, R446). -/
def execReceiveChannelUpdate (bay : BayId) (lane : Fin 4) (slot : Fin 128) (upset : Bool) (s : State) : Out :=
  .next <|
    let id := outId bay.val 4
    let e := entryAt s.qtz.active id slot.val lane.val
    if !s.qtzActive || s.qtzN ≤ slot.val || !e.valid || !s.railUp (bay.val / 16) then s
    else
      let key := (bay.val, e.ch)
      match qtzEndpoint (.recv bay.val) id slot.val lane.val upset (s.qtz.eqd.get 0 (bay.val * 8 + e.ch)) s with
      | (some f, s1) => s1.setQtz fun q => { q with rx := q.rx.set key ⟨f.data, f.tag, f.valid⟩ }
      | (none, s1) =>
        let c : QtzChan := ⟨Config.freeWord s1.free, (Config.freeWord (s1.free + 1)).setWidth 16, false⟩
        (s1.setQtz fun q => { q with rx := q.rx.set key c }).fresh.fresh

/-! Master tables and commit (08 R433 to R439) -/

/-- A master value changes and DIRTY is set, unless a commit is under way or QTZ_TSEL names no table (08 R433, R436, R452). -/
def qtzMasterWrite (t : QtzTarget) (s : State) : State :=
  if s.on F.QTZ_STATUS_COMMIT_BUSY then s.raise F.QTZ_ERR_WRITE_REFUSED
  else match t with
    | .slotWord slot w =>
      let id := s.get F.QTZ_TSEL_ID
      if !idExists id then s
      else (s.setQtz fun q => { q with master := q.master.set (id, slot.val) w }).raise F.QTZ_STATUS_DIRTY
    | .eqd b ch w => (s.wrCodes R.QTZ_EQD (b.val * 8 + ch.val) (w.setWidth 64) false).raise F.QTZ_STATUS_DIRTY
    | .eqdLdg w => (s.wrCodes R.QTZ_EQD_LDG 0 (w.setWidth 64) false).raise F.QTZ_STATUS_DIRTY

def execTableWrite (t : QtzTarget) (s : State) : Out := .next (qtzMasterWrite t s)

/-- The slabs whose bridge is fenced or whose rail is absent. -/
def State.slabsShut (s : State) : List Nat := (List.range 4).filter fun k => s.slabFenced k || !s.railUp k

/-- A write of QTZ_COMMIT (08 R434, R436). -/
def qtzCommitWrite (w : Nat) (s : State) : State :=
  if !bit w 0 then s
  else if s.on F.QTZ_STATUS_COMMIT_BUSY then s.raise F.QTZ_ERR_WRITE_REFUSED
  else (s.setQtz fun q => { q with copied := false, skip := s.slabsShut }).raise F.QTZ_STATUS_COMMIT_BUSY

def execCommit (w : W32) (s : State) : Out := .next (qtzCommitWrite w.toNat s)

/-- The lanes of a slot word whose valid entry names an input port that its switch lacks (08 R437). -/
def badLanes (id : Nat) (w : W64) : List Nat :=
  (List.range 4).filter fun q => let e := bits w.toNat (16 * q) 16; bit e 15 && !inputExists id (e % 256)

/-- A slot word as copied: bad entries are not valid (08 R437). -/
def copyWord (id : Nat) (w : W64) : W64 := (badLanes id w).foldl (fun v q => setBits v (16 * q + 15) 1 0) w

/-- The bad entries of the master tables, as QTZ_BAD lays them out, the last in table order first found greatest. -/
def badEntries (t : Tbl (Nat × Nat) W64) : List (Nat × Nat × Nat) :=
  t.flatMap fun e => (badLanes e.1.1 e.2).map fun q => (e.1.1, e.1.2, q)

/-- The later of two entries in the order table, slot, lane. -/
def laterEntry (a b : Nat × Nat × Nat) : Nat × Nat × Nat :=
  if a.1 * 512 + a.2.1 * 4 + a.2.2 ≤ b.1 * 512 + b.2.1 * 4 + b.2.2 then b else a

/-- The EQD values as the registers hold them. -/
def State.eqdValues (s : State) : Tbl Nat Nat :=
  (List.range 512).map (fun i => (i, s.get F.QTZ_EQD_CYCLES i)) ++ [(512, s.get F.QTZ_EQD_LDG_CYCLES)]

/-- The commit copy completes: the pending tables stand, bad entries are recorded and DIRTY clears (08 R433, R434, R437). -/
def execCommitCopyDone (s : State) : Out :=
  .next <|
    if !s.on F.QTZ_STATUS_COMMIT_BUSY || s.qtz.copied then s
    else
      let s1 := (s.setQtz fun q => { q with
        copied := true, pend := q.master.map (fun e => (e.1, copyWord e.1.1 e.2)), pendEqd := s.eqdValues }).clear
          F.QTZ_STATUS_DIRTY
      match badEntries s.qtz.master with
      | [] => s1
      | b :: r =>
        let (id, slot, lane) := r.foldl laterEntry b
        (s1.wr R.QTZ_BAD 0 (BitVec.ofNat 64 (id + slot * 2 ^ 16 + lane * 2 ^ 24))).raise F.QTZ_ERR_BAD_ENTRY

/-- The entries in which two sets of tables differ, of the tables that `sel` selects. -/
def tableChanges (sel : Nat → Bool) (a b : Tbl (Nat × Nat) W64) : List (Nat × Nat × Nat) :=
  ((a.map (·.1) ++ b.map (·.1)).filter (fun k => sel k.1)).flatMap fun k =>
    ((List.range 4).filter fun q =>
      bits (a.get 0 k).toNat (16 * q) 16 != bits (b.get 0 k).toNat (16 * q) 16).map fun q => (k.1, k.2, q)

/-- The tables with those that `sel` selects replaced from `b`. -/
def tablesFrom (sel : Nat → Bool) (a b : Tbl (Nat × Nat) W64) : Tbl (Nat × Nat) W64 :=
  a.filter (fun e => !sel e.1.1) ++ b.filter (fun e => sel e.1.1)

/-- The EQD values with those of the selected slabs replaced; the decision input's is Geode's. -/
def eqdFrom (sel : Nat → Bool) (a b : Tbl Nat Nat) : Tbl Nat Nat :=
  let mine (k : Nat) := if k < 512 then sel (k / 128 * 256) else sel 0x448
  a.filter (fun e => !mine e.1) ++ b.filter (fun e => mine e.1)

/-- Switches the selected tables to `t`, recording the changed entries (08 R438, R439). -/
def qtzSwitchOver (sel : Nat → Bool) (t : Tbl (Nat × Nat) W64) (e : Tbl Nat Nat) (s : State) : State :=
  s.setQtz fun q => { q with
    changed := q.changed.filter (fun c => s.inWindow c.2 0)
      ++ (tableChanges sel q.active t).map (fun c => (c, s.tmg.strobes)),
    active := tablesFrom sel q.active t, eqd := eqdFrom sel q.eqd e }

/-- All switches change to their pending tables at one boundary, but for those of the slabs skipped (08 R434, R435, R438). -/
def execCommitBoundary (s : State) : Out :=
  .next <|
    if !s.on F.QTZ_STATUS_COMMIT_BUSY || !s.qtz.copied || !s.boundariesRun then s
    else
      let skip := s.qtz.skip ++ s.slabsShut
      let s1 := qtzSwitchOver (fun id => !skip.contains (idSlab id)) s.qtz.pend s.qtz.pendEqd s
      let s2 := s1.setQtz fun q => { q with
        kept := q.pend, keptEqd := q.pendEqd, copied := false, committed := true, skip := [],
        owing := (q.owing.filter skip.contains) ++ ((List.range 4).filter fun k => skip.contains k && !q.owing.contains k),
        loading := q.loading.filter skip.contains }
      ((s2.clear F.QTZ_STATUS_COMMIT_BUSY).wr R.QTZ_COMMIT_CN 0 (BitVec.ofNat 64 s.cn)).raise F.QTZ_ERR_COMMIT_DONE

/-- A slab's bridge closes: a commit under way skips its switches, and a load of kept tables ends (08 R438). -/
def qtzSlabShut (k : Nat) (s : State) : State :=
  s.setQtz fun q => { q with
    skip := if s.on F.QTZ_STATUS_COMMIT_BUSY && !q.skip.contains k then q.skip ++ [k] else q.skip,
    loading := q.loading.filter (· != k) }

/-- A slab's bridge reopens: a load that its switches owe begins (08 R438). -/
def qtzSlabOpen (k : Nat) (s : State) : State :=
  s.setQtz fun q => if q.owing.contains k then { q with loading := q.loading.filter (· != k) ++ [k] } else q

/-- A slab's rail has been away: its switches hold no tables and owe a load (08 R438). -/
def qtzSlabRail (k : Nat) (s : State) : State :=
  s.setQtz fun q => { q with
    active := q.active.filter (fun e => idSlab e.1.1 != k),
    owing := q.owing.filter (· != k) ++ [k] }

/-- The kept tables of a slab are loaded and its switches change to them at a boundary (08 R438, R439). -/
def execSlabTableReload (slab : Fin 4) (s : State) : Out :=
  .next <|
    let k := slab.val
    if !s.qtz.loading.contains k || s.slabFenced k || !s.railUp k then s
    else
      (qtzSwitchOver (fun id => idSlab id == k) s.qtz.kept s.qtz.keptEqd s).setQtz fun q =>
        { q with owing := q.owing.filter (· != k), loading := q.loading.filter (· != k) }

/-! Trace and probe (08 R442 to R444, R1018) -/

/-- The cyclic slot `d` cycles before `slot`. -/
def slotBack (n slot d : Nat) : Nat := (slot + n * d - d) % n

/-- Follows a flit that leaves output `id` in `slot` on `lane` backward through the active tables, with at most `fuel` outputs
to go: its source, channel, slot and lane, and the cycles from there to the output (08 R441, R444). -/
def traceBack (t : Tbl (Nat × Nat) W64) (n : Nat) : Nat → Nat → Nat → Nat → Option (Nat × Nat × Nat × Nat × Nat)
  | 0, _, _, _ => none
  | fuel + 1, id, slot, lane =>
    let e := entryAt t id slot lane
    if !e.valid then none
    else if id < 0x400 ∧ id % 16 = 5 then some (id, e.port % 8, slot, lane, 0)
    else
      let sw := if id < 0x400 then id / 256 * 16 + id / 16 % 16 else 64
      let d := if sw < 64 then 2 else 3
      let a := slotBack n slot d
      if sw = 64 ∧ 64 ≤ e.port then some (0x440 + (e.port - 64), 0, a, e.lane, d)
      else match portDriver sw e.port with
        | none => none
        | some id' =>
          let w := if id' < 0x400 ∧ id' % 16 = 5 then 2 else (outputLeads id').2
          match traceBack t n fuel id' (slotBack n a w) e.lane with
          | none => none
          | some (src, ch, sl, l, lat) => some (src, ch, sl, l, lat + d + w)

/-- The EQD of a destination (08 R442). -/
def State.destEqd (s : State) (id slot lane : Nat) : Nat :=
  if id = 0x448 then s.qtz.eqd.get 0 512
  else if id < 0x400 then
    s.qtz.eqd.get 0 ((id / 256 * 16 + id / 16 % 16) * 8 + (entryAt s.qtz.active id slot lane).ch)
  else 0

/-- The destinations of traces and probes: a LOCAL table, a Verdict port, the decision input. -/
def isDest (id : Nat) : Bool := (id < 0x400 && id % 16 == 4) || (0x440 ≤ id && id ≤ 0x448)

/-- The trace from a destination: source table, channel, slot, lane, and latency with the EQD. -/
def State.traceOf (s : State) (id slot lane : Nat) : Option (Nat × Nat × Nat × Nat × Nat) :=
  if !isDest id || s.qtzN ≤ slot then none
  else match traceBack s.qtz.active s.qtzN 32 id slot lane with
    | none => none
    | some (src, ch, sl, l, lat) => some (src, ch, sl, l, lat + 2 + s.destEqd id slot lane)

/-- A write of QTZ_TRACE (08 R444, R1018). -/
def qtzTraceWrite (w : Nat) (s : State) : State :=
  let s1 := s.wrCodes R.QTZ_TRACE 0 (BitVec.ofNat 64 w) false
  if !bit w 31 then s1
  else if s.qtz.trace.isSome then s1.raise F.QTZ_ERR_WRITE_REFUSED
  else if !s.qtzActive then (s1.wr R.QTZ_TRACE_RES 0 1).raise F.QTZ_ERR_TRACE_DONE
  else (s1.clear F.QTZ_TRACE_RES_DONE).setQtz fun q => { q with trace := some (bits w 0 12, bits w 16 7, bits w 24 2) }

def execTrace (w : W32) (s : State) : Out := .next (qtzTraceWrite w.toNat s)

/-- A trace completes and reports source, channel, slot and latency (08 R442, R444). -/
def execTraceDone (s : State) : Out :=
  .next <| match s.qtz.trace with
    | none => s
    | some (id, slot, lane) =>
      let v := match s.traceOf id slot lane with
        | some (src, ch, sl, _, lat) => 3 + src * 4 + ch * 2 ^ 14 + sl * 2 ^ 17 + lat % 256 * 2 ^ 24
        | none => 1
      ((s.setQtz fun q => { q with trace := none }).wr R.QTZ_TRACE_RES 0 (BitVec.ofNat 64 v)).raise F.QTZ_ERR_TRACE_DONE

/-- A write of QTZ_PROBE (08 R444, R1018). -/
def qtzProbeWrite (w : Nat) (s : State) : State :=
  let s1 := s.wrCodes R.QTZ_PROBE 0 (BitVec.ofNat 64 w) false
  if !bit w 31 then s1
  else if s.qtz.probe.isSome then s1.raise F.QTZ_ERR_WRITE_REFUSED
  else if !s.qtzActive then (s1.clear F.QTZ_PROBE_RES_DONE).raise F.QTZ_ERR_PROBE_DONE
  else
    let id := bits w 0 12
    let slot := bits w 16 7
    let lane := bits w 24 2
    let src := (s.traceOf id slot lane).map fun t => (t.1, t.2.2.1, t.2.2.2.1)
    (s1.clear F.QTZ_PROBE_RES_DONE).setQtz fun q => { q with probe := some { id, slot, lane, src } }

def execProbe (w : W32) (s : State) : Out := .next (qtzProbeWrite w.toNat s)

/-- The probe has arrived and its latency is reported (08 R444). -/
def execProbeDone (s : State) : Out :=
  .next <| match s.qtz.probe with
    | some { arrived := some n, .. } =>
      (((s.setQtz fun q => { q with probe := none }).raise F.QTZ_PROBE_RES_DONE).put F.QTZ_PROBE_RES_LAT 0 n).raise
        F.QTZ_ERR_PROBE_DONE
    | _ => s

/-- A probe that has not arrived within two crossings is lost (08 R444). -/
def execProbeLost (s : State) : Out :=
  .next <| match s.qtz.probe with
    | some { arrived := none, .. } => (s.setQtz fun q => { q with probe := none }).raise F.QTZ_ERR_PROBE_LOST
    | _ => s

/-- QTZ registers that are computed when read (08 R450, R452). -/
def qtzView (s : State) (r : Reg) (i : Nat) : Option Nat :=
  let v := (s.rd r i).toNat
  if r = R.QTZ_STATUS then
    let dis := (match s.qtz.stepAt with | some b => s.inWindow b 0 | none => false)
      || s.qtz.changed.any (fun c => s.inWindow c.2 0)
    some (withField (withField v F.QTZ_STATUS_ACTIVE (ofFlag s.qtzActive)) F.QTZ_STATUS_DISTURB (ofFlag dis))
  else if r = R.QTZ_TSEL then some (withField v F.QTZ_TSEL_INVALID (ofFlag (!idExists (s.get F.QTZ_TSEL_ID))))
  else if r = R.QTZ_TBL then
    let id := s.get F.QTZ_TSEL_ID
    some (if idExists id then (s.qtz.master.get 0 (id, i)).toNat else 0)
  else if r = R.QTZ_PROBE_RES then some (withField v F.QTZ_PROBE_RES_BUSY (ofFlag s.qtz.probe.isSome))
  else none

/-- QTZ registers whose write is more than its access codes (08 R426, R433, R434, R444). -/
def qtzWrite (s : State) (r : Reg) (i w : Nat) : Option State :=
  if r = R.QTZ_CTRL then
    let s1 := s.put F.QTZ_CTRL_EN 0 w
    some (if bit w 0 && !s.on F.QTZ_CTRL_EN then s1.setQtz fun q => { q with committed := false } else s1)
  else if r = R.QTZ_COMMIT then some (qtzCommitWrite w s)
  else if r = R.QTZ_TBL then some (qtzMasterWrite (.slotWord (Fin.ofNat 128 i) (BitVec.ofNat 64 w)) s)
  else if r = R.QTZ_EQD then
    some (qtzMasterWrite (.eqd (Fin.ofNat 64 (i / 8)) (Fin.ofNat 8 i) (BitVec.ofNat 32 w)) s)
  else if r = R.QTZ_EQD_LDG then some (qtzMasterWrite (.eqdLdg (BitVec.ofNat 32 w)) s)
  else if r = R.QTZ_TRACE then some (qtzTraceWrite w s)
  else if r = R.QTZ_PROBE then some (qtzProbeWrite w s)
  else none

/-- The release of a bay's fence empties its channels (20 R985). -/
def qtzRelease (b : Nat) (s : State) : State :=
  s.setQtz fun q => { q with tx := q.tx.filter (fun e => e.1.1 != b), rx := q.rx.filter (fun e => e.1.1 != b) }

end Sys2Proof.Machine
end

