-- ==== Sys2Proof/Machine/Fabric.lean ====
section
/-! DEFINITION. Cells, carry, fabric resets, user I/O banks and frame addresses (04 Logic Fabric, Routing and I/O Cells). -/

namespace Sys2Proof.Machine

/-! The cell -/

/-- The look-up table in whole mode (04 R159): F; J is 0. -/
def lutWhole (t : W64) (i : BitVec 6) : Bool := t.getLsbD i.toNat

/-- The look-up table in split mode (04 R159): F over I0 to I4, J over I0 to I3 and I5. -/
def lutSplit (t : W64) (i : BitVec 6) : Bool × Bool :=
  (t.getLsbD (i.toNat % 32), t.getLsbD (32 + i.toNat % 16 + 16 * (i.toNat / 32)))

/-- F and J of a cell for its inputs I0 to I5, in the mode its configuration chooses (04 R159). -/
def Cell.lutOut (c : Cell) (i : BitVec 6) : Bool × Bool := if c.split then lutSplit c.lut i else (lutWhole c.lut i, false)

/-- Sum and carry out of a cell (04 R160). -/
def cellCarry (f ci g : Bool) : Bool × Bool := (f ^^ ci, if f then ci else g)

/-- The five outputs of a cell but for the flip-flops', and CO: F, J, S, CO for the values of its inputs, X and CI
(04 R160, R162). G is X or J, which in whole mode is 0. -/
def Cell.outputs (c : Cell) (i : BitVec 6) (x ci : Bool) : Bool × Bool × Bool × Bool :=
  let (f, j) := c.lutOut i
  let (s, co) := cellCarry f ci (if c.gFromX then x else j)
  (f, j, s, co)

/-- The D inputs of FF0 and FF1 (04 R161). -/
def Cell.d (c : Cell) (ff1 : Bool) (f j s x y : Bool) : Bool :=
  match ff1, c.d0, c.d1 with
  | false, .lut, _ => f
  | false, .sum, _ => s
  | false, .bypass, _ => x
  | true, _, .lut => j
  | true, _, .sum => s
  | true, _, .bypass => y

/-- The carry through the 16 cells of a grain, from cell 0 upward: the sums and CO of cell 15 (04 R168). -/
def grainCarry (cells : List (Bool × Bool)) (ci : Bool) : List Bool × Bool :=
  cells.foldl (fun (o, c) fg => let (s, co) := cellCarry fg.1 c fg.2; (o ++ [s], co)) ([], ci)

/-- What acts on a flip-flop at one moment (04 R166). -/
structure FlopIn where
  hold : Bool
  localReset : Bool
  fabricReset : Bool
  sr : Bool
  srAsync : Bool
  edge : Bool
  ce : Bool
  d : Bool
  deriving DecidableEq, Repr

/-- The next value of a flip-flop by the priorities of 04 R166. -/
def flopNext (i : FlopIn) (q init srval : Bool) : Bool :=
  if i.hold || i.localReset || i.fabricReset then init
  else if i.sr && i.srAsync then srval
  else if i.edge && i.sr then srval
  else if i.edge && i.ce then i.d
  else q

/-! Frame addresses: the types of columns (01 R27) -/

/-- Column types by local column in a bay, as the M, A and S columns of 01 give them; every other column is L. -/
inductive ColType where
  | L | M | A | S
  deriving DecidableEq, Repr

/-- The type of local column `c` of a bay (01 R27). -/
def colType (c : Nat) : ColType :=
  if c = 8 ∨ c = 18 ∨ c = 28 ∨ c = 31 ∨ c = 49 ∨ c = 59 then .M
  else if c = 9 ∨ c = 27 ∨ c = 40 ∨ c = 50 then .A
  else if c = 29 ∨ c = 30 then .S
  else .L

/-! Routing (04 R171 to R173) -/

/-- The tile exists: one per column and grain row of the bay (04 R171). -/
def tileOk (t : Tile) : Bool := t.1 < 60 && t.2 < 240

/-- Tiles between a tile and the border of its bay in a direction. -/
def toBorder (t : Tile) : Side → Nat
  | .up => 239 - t.2
  | .right => 59 - t.1
  | .down => t.2
  | .left => t.1

/-- The tile `n` tiles away in a direction, at most the last one inside the bay (04 R173). -/
def tileStep (t : Tile) (d : Side) (n : Nat) : Tile :=
  let k := min n (toBorder t d)
  match d with
  | .up => (t.1, t.2 + k)
  | .right => (t.1 + k, t.2)
  | .down => (t.1, t.2 - k)
  | .left => (t.1 - k, t.2)

/-- The tiles at which a routing resource can be left (04 R172, R173): a direct at its neighbour, a double at 1 and 2 tiles, a
hex at 3 and 6, a long line at every sixth column or tile. -/
def Wire.exits : Wire → List Tile
  | .direct t d _ => if toBorder t d = 0 then [] else [tileStep t d 1]
  | .double t d _ => [tileStep t d 1, tileStep t d 2]
  | .hex t d _ => [tileStep t d 3, tileStep t d 6]
  | .hlong row _ => (List.range 10).map fun i => (6 * i + Config.longTap % 6, row)
  | .vlong col _ => (List.range 40).map fun i => (col, 6 * i + Config.longTap % 6)

/-- The tiles at which a routing resource is driven: its own, or the taps of a long line. -/
def Wire.starts : Wire → List Tile
  | .direct t _ _ => [t]
  | .double t _ _ => [t]
  | .hex t _ _ => [t]
  | w => w.exits

/-- The resource exists (04 R172): 16 directs, 24 doubles and 16 hexes per tile and direction, 8 long lines per grain row and per
column. -/
def Wire.ok : Wire → Bool
  | .direct t d k => tileOk t && k < 16 && toBorder t d != 0
  | .double t d k => tileOk t && k < 24 && toBorder t d != 0
  | .hex t d k => tileOk t && k < 16 && toBorder t d != 0
  | .hlong row k => row < 240 && k < 8
  | .vlong col k => col < 60 && k < 8

/-- A signal is at hand at a tile: an output of its grain or hard block, or routing that ends there (04 R163). Ports, border
signals and the spine enter in the S columns, at tiles the toolchain's model gives. Of the carries only that of cell 15 leaves
its chain (04 R162, R169). -/
def Sig.at_ (t : Tile) : Sig → Bool
  | .const _ => true
  | .cell t' n _ => t' == t && n < 16
  | .carry t' n => t' == t && n == 15
  | .wire w => w.ok && w.exits.contains t
  | .block t' _ => t' == t && colType t.1 != .L
  | _ => colType t.1 == .S

/-- What may drive a routing resource: a direct only a grain output (04 R172). -/
def wireOk (w : Wire) (s : Sig) : Bool :=
  w.ok && (match w, s with
    | .direct .., .wire _ => false
    | _, _ => w.starts.any fun t => s.at_ t)

/-- A grain's configuration is one that the device has (04 R163 to R165, R168, R170): 16 cells in an L column, whose inputs the
local interconnect can reach; in grain row 0 no carry from below; trees and resets that exist. -/
def Grain.ok (g : Grain) : Bool :=
  let ctl (c : CtlSet) : Bool :=
    (match c.clk with | .global n => n < 16 | .regional n => n < 8) && (c.frst.all (· < 4))
      && (c.ce.all (Sig.at_ g.tile)) && c.sr.all (Sig.at_ g.tile)
  tileOk g.tile && colType g.tile.1 == .L && g.cells.length == 16
    && g.cells.all (fun c => c.ins.length ≤ 6 && c.ins.all (Sig.at_ g.tile) && c.x.at_ g.tile && c.y.at_ g.tile)
    && ctl g.ctl0 && ctl g.ctl1 && g.flops.all (·.cell < 16) && !(g.ci == .below && g.tile.2 == 0)

/-- The part of a described logic that the device has (04 R158 to R176): a grain, resource, border signal, port or segment that
does not exist, or that nothing can reach, is not configured. A side at the slab edge has no border signals. -/
def BayLogic.real (l : BayLogic) (hasSide : Side → Bool) : BayLogic :=
  { l with
    grains := l.grains.filter Grain.ok
    wires := l.wires.filter fun e => wireOk e.1 e.2
    ports := l.ports.filter fun e => e.1 ≤ exportPort
    borders := l.borders.filter fun e => hasSide e.1.1 && e.1.2 < 512
    segs := l.segs.filter fun e => e.1.1 < 3 && e.1.2 < 8
    blocks := l.blocks.filter fun e => e.2.ok }

/-- The bay on the far side of a border of bay `b` within its slab; none at the slab edge (04 R174). -/
def bayBeside (b : Nat) : Side → Option Nat
  | .up => if b % 16 / 4 = 3 then none else some (b + 4)
  | .right => if b % 4 = 3 then none else some (b + 1)
  | .down => if b % 16 / 4 = 0 then none else some (b - 4)
  | .left => if b % 4 = 0 then none else some (b - 1)

/-- The side that faces a side. -/
def Side.facing : Side → Side
  | .up => .down
  | .right => .left
  | .down => .up
  | .left => .right

/-- The number of a flip-flop on the device. -/
def flopNo (b : Nat) (t : Tile) (cell : Nat) (ff1 : Bool) : Nat :=
  ((b * 60 + t.1) * 240 + t.2) * 32 + cell * 2 + ofFlag ff1

/-- The control set a flip-flop selects. -/
def Grain.ctl (g : Grain) (set1 : Bool) : CtlSet := if set1 then g.ctl1 else g.ctl0

/-- The flip-flops of a bay's logic, each at INIT (04 R165, R166). -/
def BayLogic.flops (l : BayLogic) (b : Nat) : Tbl Nat Flop :=
  l.grains.flatMap fun g => g.flops.map fun c =>
    let f : Flop := ⟨b / 16, b, c.init, c.init, c.srval, (g.ctl c.set1).frst, g.tile, c.cell, c.ff1, c.set1⟩
    (flopNo b g.tile c.cell c.ff1, f)

/-! Fabric resets -/

/-- Flip-flops that a condition selects go to INIT (04 R166 rules 1 to 3). -/
def flopsInit (p : Flop → Bool) (s : State) : State :=
  let f := s.fabric.flops.map (fun e => (e.1, if p e.2 then { e.2 with q := e.2.init } else e.2))
  { s with fabric := { s.fabric with flops := f } }

/-- Reset `n` of slab `slab` is asserted (04 R182). -/
def State.frstOn (s : State) (slab n : Nat) : Bool := !s.fabric.released.contains (slab, n)

/-- The source of a fabric reset calls for assertion: software by CFG_FRST, a pin as FABRIC_RESET_ASSERT and
FABRIC_RESET_RELEASE told; a start-up reset only before its release (04 R181, R182, 12 R682). -/
def State.frstWanted (s : State) (slab n : Nat) (src : FrstSrc) : Bool :=
  match src with
  | .startup => s.fabric.hold
  | .software => bit (s.get F.CFG_FRST_ASSERT) (slab * 4 + n)
  | .pin => s.fabric.frstPinOn.contains (slab, n)

/-- The configured source of a fabric reset. -/
def State.frstSrc (s : State) (slab n : Nat) : FrstSrc := s.fabric.src.get .startup (slab, n)

/-- Asserts a fabric reset: every flip-flop that selects it goes to INIT (04 R183), and its next release counts edges anew. -/
def frstAssert (slab n : Nat) (s : State) : State :=
  flopsInit (fun f => f.slab == slab && f.frst == some n)
    { s with fabric := { s.fabric with
      released := s.fabric.released.filter (· != (slab, n))
      synced := s.fabric.synced.filter fun e => !(e.1.1 / 16 == slab && e.1.2.1 == n) } }

/-- Releases a fabric reset at its root. Its flip-flops leave it at the second active edge of their net (04 R184, R185). -/
def frstFree (slab n : Nat) (s : State) : State :=
  { s with fabric := { s.fabric with
    released := if s.fabric.released.contains (slab, n) then s.fabric.released else s.fabric.released ++ [(slab, n)] } }

/-- The pin that is the source of a fabric reset asserts it, or ceases to. -/
def frstPinSet (slab n : Nat) (v : Bool) (s : State) : State :=
  let rest := s.fabric.frstPinOn.filter (· != (slab, n))
  { s with fabric := { s.fabric with frstPinOn := if v then rest ++ [(slab, n)] else rest } }

/-- A source asserts a fabric reset (04 R181 to R183). Only the source that configuration chose acts: a pin as this command
tells, software while its CFG_FRST bit is 1, start-up before its release. -/
def execFabricResetAssert (slab n : Fin 4) (src : FrstSrc) (s : State) : Out :=
  .next <|
    if s.frstSrc slab n ≠ src then s
    else
      let s1 := s.when (src == .pin) (frstPinSet slab n true)
      if s1.frstWanted slab n src then frstAssert slab n s1 else s1

/-- A fabric reset is released once start-up has released global set/reset and its source no longer asserts it: a pin as this
command tells (04 R182, R184). -/
def execFabricResetRelease (slab n : Fin 4) (s : State) : Out :=
  .next <|
    let src := s.frstSrc slab n
    let s1 := s.when (src == .pin) (frstPinSet slab n false)
    if s.fabric.hold || s1.frstWanted slab n src then s1 else frstFree slab n s1

/-! User I/O -/

/-- Loss and return of a bank's VCCO (04 R206), with the level applied (R190); configuration is kept. -/
def execVccoLoss (bank : Fin 20) (s : State) : Out :=
  .next { s with fabric := { s.fabric with
    bankOff := if s.fabric.bankOff.contains bank.val then s.fabric.bankOff else s.fabric.bankOff ++ [bank.val] } }

def execVccoReturn (bank : Fin 20) (level : Vcco) (s : State) : Out :=
  .next { s with fabric := { s.fabric with
    bankOff := s.fabric.bankOff.filter (· != bank.val), vcco := s.fabric.vcco.set bank.val level } }

/-- The VCCO levels at which a standard may drive (04 R190). -/
def stdMayDrive : IoStd → Vcco → Bool
  | .lvcmos, _ => true
  | .lvds, v => v == .v18 || v == .v25
  | .slvs, v => v == .v12 || v == .v18

/-- The on-die termination of a standard, in ohms across the pair; none for LVCMOS (04 R190). -/
def stdTermination : IoStd → Option Nat
  | .lvcmos => none
  | _ => some 100

/-- The differential pair of a pin within its bank, and its other side (04 R189). -/
def pinPair (i : Nat) : Nat := i % 48 / 2
def pinTrue (i : Nat) : Nat := i / 2 * 2

/-- The pins of a bank's clock-capable pair (04 R189). -/
def clockPin (bank : Nat) : Nat := bank * 48

/-- The step that releases the outputs of a pin has passed: that of its bay, or for a pin bound to none any (04 R204). -/
def State.pinReleased (s : State) (p : UioPin) : Bool :=
  match p.cfg.bound with
  | some (b, _) => s.fabric.outReleased.contains b
  | none => !s.fabric.outReleased.isEmpty

/-- The pull in force at a pin: none before its outputs are released; its pad hold latch keeps the pull it had (04 R194, R204,
R207). -/
def State.pinPull (s : State) (i : Nat) : Pull :=
  let p := s.fabric.pins.get {} i
  match p.held with
  | some (_, pull) => pull
  | none => if s.pinReleased p then p.cfg.pull else .none

/-- What the I/O cell of a bound pin gives its pad: the port's output and enable, through the output and output-enable registers
or the serialiser where they are in use (04 R196, R198, R199). -/
def State.cellDrive (s : State) (p : UioPin) : Option Bool :=
  match p.cfg.bound with
  | none => none
  | some bp =>
    if !s.pinReleased p then none
    else
      let (outs, en) := s.fabric.ports.get ([], false) bp
      let oe := match p.cfg.cell.oeReg with
        | some _ => if p.oeFell then p.oeQ.2 else p.oeQ.1
        | none => en
      let out :=
        if p.cfg.cell.ser.isSome then p.shiftOut.headD false
        else match p.cfg.cell.outReg with
          | some _ => if p.outFell then p.outQ.2 else p.outQ.1
          | none => outs.headD false
      if oe then some out else none

/-- An output whose standard its VCCO does not permit drives a level that nothing states (04 R190, R191). -/
def State.atLevel (s : State) (i : Nat) (p : UioPin) (v : Bool) : Bool :=
  if stdMayDrive p.cfg.std (s.fabric.vcco.get .v18 (i / 48)) then v else Config.freeNat i % 2 == 1

/-- What user pin `p` of device bank `B` (index B × 48 + p) drives: a level, or nothing (04 R189, R190, R202 to R207). A
pin is released with the outputs of its bay; a fenced bay's port carries the levels that the fence clamps; the complement of
a differential pair drives the opposite of its true pin. -/
def State.uioDrive (s : State) (i : Nat) : Option Bool :=
  let p := s.fabric.pins.get {} i
  let q := s.fabric.pins.get {} (pinTrue i)
  if s.fabric.bankOff.contains (i / 48) then none
  else match p.held with
    | some (d, _) => d
    | none =>
      if i % 2 = 1 ∧ q.cfg.diff then (s.cellDrive q).map fun v => !s.atLevel i q v
      else (s.cellDrive p).map (s.atLevel i p)

/-- The output level a pin's port and I/O cell give, driven or not. -/
def State.uioOut (s : State) (i : Nat) : Bool :=
  let p := s.fabric.pins.get {} i
  match p.cfg.bound with
  | some bp => if p.cfg.cell.outReg.isSome then p.outQ.1 else (s.fabric.ports.get ([], false) bp).1.headD false
  | none => false

/-- Every user I/O pin goes under its pad hold latch: driven value, output enable and pull (04 R207). -/
def uioHold (s : State) : State :=
  { s with fabric := { s.fabric with pins := s.fabric.pins.map fun e =>
    (e.1, if e.2.held.isSome then e.2 else { e.2 with held := some (s.uioDrive e.1, s.pinPull e.1) }) } }

/-! Frame addresses -/

/-- The fields of a frame address word (04 R210). -/
def farSlab (a : Nat) : Nat := bits a 30 2
def farType (a : Nat) : Nat := bits a 28 2
def farRow (a : Nat) : Nat := bits a 24 4
def farCol (a : Nat) : Nat := bits a 16 8
def farMinor (a : Nat) : Nat := bits a 8 8

/-- Minor frames of a column and clock row by frame type (04 R208, R209); 0 where the type, column or row is not valid. -/
def farMinors (ty row col : Nat) : Nat :=
  if 12 ≤ row then 0
  else if col < 240 then
    match ty, colType (col % 60) with
    | 0, .L => 40 | 0, .M => 28 | 0, .A => 32 | 0, .S => 36
    | 1, .M => 192
    | 2, .A => 30
    | _, _ => 0
  else if ty ≠ 0 then 0
  else if col ≤ 244 then 20
  else if col ≤ 248 then 16
  else if col = 249 ∧ row = 0 then 80
  else 0

/-- A valid frame address (04 R211). -/
def farValid (a : Nat) : Bool :=
  a < 2 ^ 32 && a % 256 == 0 && farMinor a < farMinors (farType a) (farRow a) (farCol a)

/-- The bay whose frame window holds a frame, numbered slab × 16 + bay_row × 4 + bay_col (04 R214); none for a rim frame. -/
def farBay (a : Nat) : Option Nat :=
  if farCol a < 240 then some (farSlab a * 16 + farRow a / 3 * 4 + farCol a / 60) else none

/-- A frame address made of its fields. -/
def mkFar (slab ty row col minor : Nat) : Nat := slab * 2 ^ 30 + ty * 2 ^ 28 + row * 2 ^ 24 + col * 2 ^ 16 + minor * 2 ^ 8

/-- The address a frame of a bay's window has after a move to bay `dst` (04 R214). -/
def farMove (dst a : Nat) : Nat :=
  mkFar (dst / 16) (farType a) (farRow a % 3 + dst % 16 / 4 * 3) (farCol a % 60 + dst % 4 * 60) (farMinor a)

/-- All addresses of a bay's frame window in the order type, row, column, minor (04 R214). -/
def bayWindow (b : Nat) : List Nat :=
  (List.range 3).flatMap fun ty => (List.range 3).flatMap fun r => (List.range 60).flatMap fun c =>
    (List.range (farMinors ty (b % 16 / 4 * 3 + r) (b % 4 * 60 + c))).map fun m =>
      mkFar (b / 16) ty (b % 16 / 4 * 3 + r) (b % 4 * 60 + c) m

/-- A blank frame: 128 words of 0. -/
def blankFrame : List W32 := List.replicate 128 0

/-- The stored content of a frame. -/
def State.frame (s : State) (a : Nat) : List W32 := s.fabric.frames.get blankFrame a

/-- Stores a frame; a blank one is not listed. A stored frame carries fresh check bits. -/
def State.putFrame (s : State) (a : Nat) (w : List W32) : State :=
  { s with fabric := { s.fabric with
    frames := if w = blankFrame then s.fabric.frames.erase a else s.fabric.frames.set a w,
    frameFlaw := s.fabric.frameFlaw.erase a } }

/-- A frame's stored words and error as a read of it leaves them. -/
def State.keepFrame (s : State) (a : Nat) (w : List W32) (f : Flaw) : State :=
  let t := if w = s.frame a then s else s.putFrame a w
  { t with fabric := { t.fabric with
    frameFlaw := if f = Flaw.none then t.fabric.frameFlaw.erase a else t.fabric.frameFlaw.set a f } }

/-- The words of a frame whose bits are open. -/
def State.openFrame (s : State) : List W32 := (List.range 128).map fun k => BitVec.ofNat 32 (Config.freeNat s.free / 2 ^ (32 * k))

end Sys2Proof.Machine
end

