-- ==== Sys2Proof/Machine/Bram.lean ====
section
/-! DEFINITION. Block memories and hard FIFOs (05 Block Memory and Hard FIFOs). -/

namespace Sys2Proof.Machine

/-! Errors of stored words, shared by every SECDED memory of the device -/

/-- A stored word's error after a strike, and the error this read sees. A second single-bit strike makes two. -/
def strike (f : Flaw) : Upset → Flaw × Flaw
  | .none => (f, f)
  | .single => match f with
    | .none => (.single, .single)
    | _ => (.double, .double)
  | .double => (.double, .double)
  | .glitch => (f, .double)

/-- A stored word and what one access meets: the word and error stored after it, the error seen, the data delivered, and whether
the free word served. -/
structure Met (α : Type) where
  word : α
  flaw : Flaw
  seen : Flaw
  data : α
  fresh : Bool

/-- An access to a stored word that an upset has struck. A single error is corrected. Where two bits are wrong the stored bits
are open once, when they are struck, and stay as they are then; a disturbance of this one read leaves the stored word and
delivers open data. -/
def meet {α : Type} (word : α) (f : Flaw) (u : Upset) (open_ : α) : Met α :=
  let (kept, seen) := strike f u
  let hit := kept = .double ∧ (u = .single ∨ u = .double)
  let glitch := u = .glitch ∧ kept ≠ .double
  { word := if hit then open_ else word, flaw := kept, seen := seen
    data := if hit ∨ glitch then open_ else word, fresh := decide (hit ∨ glitch) }

def State.bram (s : State) (id : BlockId) : Bram := s.brams.get {} id
def State.setBram (s : State) (id : BlockId) (b : Bram) : State := { s with brams := s.brams.set id b }
def State.fifo (s : State) (id : BlockId) : Fifo := s.fifos.get {} id
def State.setFifo (s : State) (id : BlockId) (f : Fifo) : State := { s with fifos := s.fifos.set id f }

/-- The bay a block lies in (01 R26, 04 R214). -/
def blkBay (id : BlockId) : Nat := id.slab.val * 16 + id.row.val / 3 * 4 + id.col.val / 60

/-- The attributes of a block, as its bay's personality sets them (05 R261). -/
def State.blockAttr (s : State) (id : BlockId) : BlockAttr :=
  (s.fabric.logic.get {} (blkBay id)).blocks.get {} (id.row.val % 3, id.col.val % 60, id.blk.val)
def State.blockCfg (s : State) (id : BlockId) (pb : Bool) : BlockCfg := (s.blockAttr id).port pb

/-- A block's ports have edges and act: its bay is not fenced, powered and clocked, and the column holds blocks (04 R180,
05 R215, R224). -/
def State.blockActs (s : State) (id : BlockId) : Bool :=
  !s.fenced (blkBay id) && s.domOn (blkBay id) && bit (s.get F.CKG_EFF_BAY_BAYS) (blkBay id) && colType (id.col.val % 60) == .M

/-- The same in the mode the attribute MODE gives the block (05 R261). -/
def State.ramActs (s : State) (id : BlockId) : Bool := s.blockActs id && !(s.blockAttr id).fifo
def State.fifoActs (s : State) (id : BlockId) : Bool := s.blockActs id && (s.blockAttr id).fifo

/-- A port of a block, and the block with it replaced. -/
def Bram.port (b : Bram) (pb : Bool) : BramPort := if pb then b.portB else b.portA
def Bram.setPort (b : Bram) (pb : Bool) (p : BramPort) : Bram :=
  if pb then { b with portB := p } else { b with portA := p }

/-- The word that a port wrote last, and its record. -/
def Bram.was (b : Bram) (pb : Bool) : Option (Nat × W64) := if pb then b.wasB else b.wasA
def Bram.setWas (b : Bram) (pb : Bool) (w : Option (Nat × W64)) : Bram := if pb then { b with wasB := w } else { b with wasA := w }

/-- Width of a port in bytes. -/
def cfgBytes (c : BlockCfg) : Nat := 2 ^ c.width.val

/-- Depth of a port in entries (05 R218). -/
def cfgDepth (c : BlockCfg) : Nat := portDepth c.width

/-- Physical word and bit offset of an entry (05 R219). -/
def entryPlace (c : BlockCfg) (addr : BitVec 13) : Nat × Nat :=
  let i := addr.toNat % (cfgDepth c)
  (i * (cfgBytes c) / 8, i * (cfgBytes c) % 8 * 8)

/-- The entry of width `c` at a bit offset of a physical word. -/
def entryOf (c : BlockCfg) (w : W64) (sh : Nat) : W64 := (w >>> sh) &&& BitVec.ofNat 64 (2 ^ (8 * (cfgBytes c)) - 1)

/-- The byte mask of a word's enabled bytes. -/
def byteMask (we : Nat) : W64 :=
  (List.range 8).foldl (fun m k => if bit we k then m ||| (0xFF#64 <<< (8 * k)) else m) 0

/-- One edge of a port's clock, before what its access does (05 R221): what the last access delivers appears, the output
register takes RSTREG before REGCE, and the pulses of R233 end. -/
def portEdge (c : BlockCfg) (r : RegPins) (p : BramPort) : BramPort :=
  { p with next := none, dout := p.next.getD p.dout, retryDone := false, lasting := false
           oreg := if !c.outReg then p.oreg else if r.rstreg then ⟨c.srval, false, false⟩ else if r.regce then p.dout else p.oreg }

/-- DOUT, SBE and DBE of a port as the fabric sees them. -/
def portOut (c : BlockCfg) (p : BramPort) : BramOut := if c.outReg then p.oreg else p.dout

/-- An access delivers `o`, to appear at the next edge; one that reports an error asks for a retry of its word (05 R233, R234). -/
def portDeliver (word : Nat) (o : BramOut) (p : BramPort) : BramPort :=
  { p with next := some o, retry := if (o.sbe || o.dbe) && p.retry.isNone then some word else p.retry }

/-- A stored word as this access leaves it and meets it. -/
def bramMeet (b : Bram) (w : Nat) (u : Upset) (s : State) : Met W64 := meet (b.words.get 0 w) (b.flaws.get .none w) u (Config.freeWord s.free)

/-- A port read (05 R220, R221, R226, R227, R229): clean or corrected data, the stored bits where the word is uncorrectable,
free data and flags where the read collides with a write on an unrelated clock; on a common clock the word as before the
cycle. `clash` says that the other port writes the word at this cycle, or within 400 ps. -/
def bramRead (id : BlockId) (pb : Bool) (addr : BitVec 13) (r : RegPins) (u : Upset) (clash : Bool) (s : State) : State :=
  if !s.ramActs id then s
  else
    let c := s.blockCfg id pb
    let b := s.bram id
    let (w, sh) := entryPlace c addr
    let p := portEdge c r (b.port pb)
    if clash && !c.common then
      let n := Config.freeNat (s.free + 1)
      let o : BramOut := ⟨entryOf c (Config.freeWord s.free) 0, n % 2 == 1, n / 2 % 2 == 1⟩
      (s.setBram id (b.setPort pb (portDeliver w o p))).fresh.fresh
    else
      let m := bramMeet b w u s
      let before := match b.was (!pb) with
        | some (w', v) => if clash && w' == w then v else m.data
        | none => m.data
      let b1 := { b with words := b.words.set w m.word, flaws := b.flaws.set w m.flaw }
      let o : BramOut := ⟨entryOf c before sh, m.seen == .single, m.seen == .double⟩
      (s.setBram id (b1.setPort pb (portDeliver w o p))).when m.fresh (·.fresh)

/-- A write to word `w` cancels the retries waiting on it (05 R234). -/
def cancelRetry (w : Nat) (b : Bram) : Bram :=
  let f := fun (p : BramPort) => if p.retry = some w then { p with retry := none, retryDone := false } else p
  { b with portA := f b.portA, portB := f b.portB }

/-- A port write (05 R220, R221, R223, R226, R227, R230 to R232); one with every WE bit 0 is a read. `clash` holds the bytes of
the word that the other port writes in the same cycle, of which port A's prevail, or within 400 ps on an unrelated clock,
which leaves them free. -/
def bramWrite (id : BlockId) (pb : Bool) (addr : BitVec 13) (we : Byte) (din : W64) (r : RegPins) (u : Upset) (clash : Byte)
    (s : State) : State :=
  if we = 0 then bramRead id pb addr r u (clash != 0) s
  else if !s.ramActs id then s
  else
    let c := s.blockCfg id pb
    let b := s.bram id
    let (w, sh) := entryPlace c addr
    let p := portEdge c r (b.port pb)
    let own := we.toNat % 2 ^ (cfgBytes c) * 2 ^ (sh / 8)
    let whole := own = 255
    let m := bramMeet b w u s
    if !whole && m.seen = .double then
      let b1 := { b with words := b.words.set w m.word, flaws := b.flaws.set w m.flaw }
      (s.setBram id (b1.setPort pb (portDeliver w ⟨p.dout.d, false, true⟩ p))).when m.fresh (·.fresh)
    else
      let enab := if pb && c.common then own &&& (255 ^^^ clash.toNat) else own
      let k := byteMask enab
      let new := (m.word &&& ~~~k) ||| ((din <<< sh) &&& k)
      let hit := clash.toNat != 0 && !c.common
      let k2 := byteMask (own ||| clash.toNat)
      let new' := if hit then (new &&& ~~~k2) ||| (Config.freeWord (s.free + 1) &&& k2) else new
      let flaw : Flaw := if hit then
          match Config.freeNat (s.free + 2) % 3 with | 0 => .none | 1 => .single | _ => .double
        else .none
      let b1 := cancelRetry w { b with words := b.words.set w new', flaws := b.flaws.set w flaw }
      let p1 : BramPort := { p with retry := (b1.port pb).retry }
      let p2 : BramPort := match c.mode with
        | .readFirst => portDeliver w ⟨entryOf c m.data sh, false, false⟩ p1
        | .writeFirst => portDeliver w ⟨entryOf c new sh, false, false⟩ p1
        | .noChange => p1
      let s1 := s.setBram id ((b1.setPort pb p2).setWas pb (some (w, m.data)))
      if hit || m.fresh then s1.fresh.fresh.fresh else s1

def execBramRead (id : BlockId) (pb : Bool) (addr : BitVec 13) (r : RegPins) (u : Upset) (clash : Bool) (s : State) : Out :=
  .next (bramRead id pb addr r u clash s)

def execBramWrite (id : BlockId) (pb : Bool) (addr : BitVec 13) (we : Byte) (din : W64) (r : RegPins) (u : Upset) (clash : Byte)
    (s : State) : Out := .next (bramWrite id pb addr we din r u clash s)

/-- The second read of a word that reported an error, in the first cycle of the port in which EN is 0, and its pulse
(05 R233). -/
def execBramErrorRetry (id : BlockId) (pb : Bool) (r : RegPins) (u : Upset) (s : State) : Out :=
  .next <|
    let b := s.bram id
    match (b.port pb).retry with
    | none => s
    | some w =>
      if !s.ramActs id then s
      else
        let m := bramMeet b w u s
        let b1 := { b with words := b.words.set w m.word, flaws := b.flaws.set w m.flaw }
        let p := portEdge (s.blockCfg id pb) r (b.port pb)
        (s.setBram id (b1.setPort pb { p with retry := none, retryDone := true, lasting := m.seen != .none })).when m.fresh (·.fresh)

/-- An edge of a port without an access: RSTREG, which takes precedence over REGCE (05 R221). -/
def execOutputRegisterReset (id : BlockId) (pb : Bool) (regce : Bool) (s : State) : Out :=
  .next <|
    if !s.ramActs id then s
    else
      let b := s.bram id
      s.setBram id (b.setPort pb (portEdge (s.blockCfg id pb) ⟨regce, true⟩ (b.port pb)))

/-- An edge of every idle port whose bay is clocked: REGCE is free (05 R221). -/
def bramsIdle (s : State) : State :=
  let idle (id : BlockId) (n : Nat) (b : Bram) : Bram :=
    let go (pb : Bool) (k : Nat) (b : Bram) : Bram :=
      if (b.port pb).retry.isSome then b
      else b.setPort pb (portEdge (s.blockCfg id pb) ⟨Config.freeNat n / k % 2 == 1, false⟩ (b.port pb))
    if s.ramActs id then go true 2 (go false 1 b) else b
  if s.brams.isEmpty then s
  else { s with brams := s.brams.map fun e => (e.1, idle e.1 s.free e.2), free := s.free + 1 }

/-! Content frames -/

/-- Every word written to zero, which cancels the retries waiting (05 R234, R240). -/
def Bram.zeroed (b : Bram) : Bram :=
  let f := fun (p : BramPort) => { p with retry := none }
  { b with words := [], flaws := [], portA := f b.portA, portB := f b.portB }

/-- The block and first physical word of a type 1 frame (05 R236). -/
def frameBlock (a : Nat) : Option (BlockId × Nat) :=
  if hs : farSlab a < 4 ∧ farRow a < 12 ∧ farCol a < 240 ∧ farMinor a / 16 < 12 then
    some (⟨⟨farSlab a, hs.1⟩, ⟨farRow a, hs.2.1⟩, ⟨farCol a, hs.2.2.1⟩, ⟨farMinor a / 16, hs.2.2.2⟩⟩,
      farMinor a % 16 * 64)
  else none

/-- Writes the 64 words of a type 1 frame with new check bits (05 R236, R237). -/
def bramLoad (a : Nat) (ws : List W32) (s : State) : State :=
  match frameBlock a with
  | none => s
  | some (id, base) =>
    let b := s.bram id
    s.setBram id ((List.range 64).foldl (fun b j =>
      let v := BitVec.ofNat 64 ((ws.getD (2 * j) 0).toNat + (ws.getD (2 * j + 1) 0).toNat * 2 ^ 32)
      cancelRetry (base + j) { b with words := b.words.set (base + j) v, flaws := b.flaws.set (base + j) .none }) b)

/-- Reads back a type 1 frame: the words, and whether one is uncorrectable (05 R239). -/
def bramReadback (a : Nat) (s : State) : List W32 × Bool :=
  match frameBlock a with
  | none => ([], false)
  | some (id, base) =>
    let b := s.bram id
    ((List.range 64).flatMap (fun j =>
      let v := (b.words.get 0 (base + j)).toNat
      [BitVec.ofNat 32 v, BitVec.ofNat 32 (v / 2 ^ 32)]),
     (List.range 64).any (fun j => b.flaws.get .none (base + j) == .double))

/-! FIFO mode -/

/-- Entries the write side and the read side count (05 R248, R249). -/
def Fifo.wrCount (f : Fifo) : Nat := f.wr - f.rdSeen
def Fifo.rdCount (f : Fifo) : Nat := f.wrSeen - f.rd

/-- Write-side flags from the count (05 R248, R250); a drop run whose END has passed ends at an edge with FULL 0 (R253). After a
reset FULL stays until the read pointer has been seen (R260). -/
def fifoWrFlags (c : BlockCfg) (f : Fifo) : Fifo :=
  let full := f.rstW || 0 < f.rdUnseen || cfgDepth c - 1 ≤ f.wrCount
  { f with full := full, pfull := c.pfull ≤ f.wrCount,
           dropping := f.dropping && !(f.dropEnd && !full), dropEnd := f.dropEnd && full }

/-- Read-side flags from the count (05 R249, R250); a flush under way keeps EMPTY (R255). The head entry is presented while
EMPTY is 0 (R244). -/
def fifoRdFlags (c : BlockCfg) (f : Fifo) : Fifo :=
  let empty := f.rstR || f.rdCount = 0 || f.flushR
  { f with empty := empty, pempty := f.rdCount ≤ c.pempty, out := if empty then f.out else f.entries.headD f.out }

/-- The pointers that a write-clock edge moves through the write side's synchroniser: the flag register uses the second stage's
(05 R247). -/
def fifoWrEdge (f : Fifo) : Fifo :=
  if f.rstW then f else { f with rdSeen := f.rdSync.2, rdSync := (f.rd, f.rdSync.1), rdUnseen := f.rdUnseen - 1 }
def fifoRdEdge (f : Fifo) : Fifo :=
  if f.rstR then f else { f with wrSeen := f.wrSync.2, wrSync := (f.wr, f.wrSync.1) }

/-- With COMMON_CLK the synchronisers are bypassed: each side has the other's pointer, and both sides' flags follow (05 R251). -/
def fifoCommon (c : BlockCfg) (f : Fifo) : Fifo :=
  if c.common then
    let g := { f with wrSeen := f.wr, rdSeen := f.rd, wrSync := (f.wr, f.wr), rdSync := (f.rd, f.rd),
                      rdUnseen := if f.rstW || f.rstR then f.rdUnseen else 0 }
    fifoRdFlags c (fifoWrFlags c g)
  else f

/-- Stores one entry at the write pointer. -/
def fifoStore (e : FifoEntry) (f : Fifo) : Fifo := { f with entries := f.entries ++ [e], wr := f.wr + 1 }

/-- Even parity bits of the bytes of a word. -/
def byteParity (d : W64) : Byte :=
  (List.range 8).foldl (fun p k =>
    if (List.range 8).foldl (fun x j => x ^^ d.getLsbD (8 * k + j)) false then p ||| (1#8 <<< k) else p) 0

/-- A write edge with WE = 1 outside reset (05 R241, R242, R246, R252 to R257). -/
def fifoPush (c : BlockCfg) (din : W64) (last : Bool) (pin : Byte) (f : Fifo) : Fifo :=
  let f := { f with openSeen := !last }
  if f.drain then { f with drain := !last, flushW := f.flushW && !last }
  else if f.dropping then
    let f1 := { f with dropCnt := min 0xFFFF (f.dropCnt + 1) }
    if last then (if f.full then { f1 with dropEnd := true } else { f1 with dropping := false, dropEnd := false })
    else { f1 with dropEnd := false }
  else if f.full then
    let f1 := fifoStore ⟨0, 0b10, false⟩ f
    { f1 with dropping := true, dropEnd := last, dropCnt := min 0xFFFF (f.dropCnt + 1) }
  else
    let m : W64 := BitVec.ofNat 64 (2 ^ (8 * (cfgBytes c)) - 1)
    let bad := c.parityIn && ((pin ^^^ byteParity (din &&& m)).toNat % 2 ^ (cfgBytes c) != 0)
    { fifoStore ⟨din &&& m, if last then 0b01 else 0b00, bad⟩ f with openAcc := !last }

def fifoWrite (id : BlockId) (din : W64) (last : Bool) (pin : Byte) (s : State) : State :=
  let c := s.blockCfg id false
  let f := s.fifo id
  if !s.fifoActs id || f.rstW then s
  else s.setFifo id (fifoCommon c (fifoWrFlags c (fifoWrEdge (fifoPush c din last pin f))))

def execFifoWrite (id : BlockId) (din : W64) (last : Bool) (pin : Byte) (s : State) : Out :=
  .next (fifoWrite id din last pin s)

/-- RE = 1 at a read edge (05 R244, R245, R258): the head entry is removed. A struck entry is delivered poisoned with free data. -/
def fifoRead (id : BlockId) (hit tagHit : Bool) (s : State) : State :=
  let c := s.blockCfg id true
  let f := s.fifo id
  if !s.fifoActs id || f.rstR then s
  else
    let under : Fifo := fifoCommon c (fifoRdFlags c (fifoRdEdge { f with underflow := true }))
    match f.entries with
    | e :: es =>
      if f.flushR || f.empty then s.setFifo id under
      else
        let o : FifoEntry := if tagHit then ⟨e.data, 0b01, true⟩ else { e with bad := e.bad || hit }
        let o' := if hit then { o with data := Config.freeWord s.free } else o
        let f1 := fifoRdEdge { f with entries := es, rd := f.rd + 1, taken := o', underflow := false }
        (s.setFifo id (fifoCommon c (fifoRdFlags c f1))).when hit (·.fresh)
    | [] => s.setFifo id under

def execFifoRead (id : BlockId) (hit tagHit : Bool) (s : State) : Out := .next (fifoRead id hit tagHit s)

/-- FLUSH = 1 at a read edge (05 R255, R258). -/
def execFlush (id : BlockId) (s : State) : Out :=
  .next <|
    let f := s.fifo id
    if !s.fifoActs id || f.rstR || f.flushR then s
    else s.setFifo id (fifoRdEdge { f with empty := true, flushR := true, flushReq := true, underflow := false })

/-- The request reaches the write side (05 R255 to R257): an item in progress, or one whose rest an earlier flush still drops,
is dropped up to its END. -/
def execFlushPointRecord (id : BlockId) (s : State) : Out :=
  .next <|
    let c := s.blockCfg id false
    let f := s.fifo id
    if !f.flushReq || f.rstW || !s.fifoActs id then s
    else
      let open' := f.openAcc || (f.dropping && f.openSeen) || f.drain
      s.setFifo id (fifoCommon c (fifoWrFlags c (fifoWrEdge { f with
        flushReq := false, flushPoint := some f.wr, flushW := open', drain := open',
        dropping := false, dropEnd := false, openAcc := false })))

/-- The flush point reaches the read side (05 R255). -/
def execFlushComplete (id : BlockId) (s : State) : Out :=
  .next <|
    let c := s.blockCfg id true
    let f := s.fifo id
    match f.flushPoint with
    | none => s
    | some p =>
      if !s.fifoActs id then s
      else
        let f1 := fifoRdEdge { f with entries := f.entries.drop (p - f.rd), rd := max f.rd p, flushR := false, flushPoint := none }
        let f2 := { f1 with wrSeen := max f1.wrSeen p, wrSync := (max f1.wrSync.1 p, max f1.wrSync.2 p) }
        s.setFifo id (fifoCommon c (fifoRdFlags c f2))

/-- RST asserted (05 R259). -/
def execFifoReset (id : BlockId) (s : State) : Out :=
  .next (if s.fifoActs id then
    s.setFifo id { ({} : Fifo) with full := true, empty := true, rstW := true, rstR := true, rdUnseen := 3 } else s)

/-- One side leaves reset (05 R260); FULL clears once the write side has seen the read side's pointer. -/
def execFifoResetRelease (id : BlockId) (writeSide : Bool) (s : State) : Out :=
  .next <|
    let c := s.blockCfg id writeSide
    let f := s.fifo id
    if !s.fifoActs id then s
    else s.setFifo id (fifoCommon c (if writeSide then { f with rstW := false } else { f with rstR := false }))

/-- An edge of the write or the read clock without write, read or flush: the other side's pointer moves on by one synchroniser
stage, and the flags use the one that leaves the second (05 R247 to R249). -/
def execPointerSync (id : BlockId) (toWriteSide : Bool) (s : State) : Out :=
  .next <|
    let c := s.blockCfg id (!toWriteSide)
    let f := s.fifo id
    if !s.fifoActs id then s
    else if toWriteSide then (if f.rstW then s else s.setFifo id (fifoCommon c (fifoWrFlags c (fifoWrEdge f))))
    else if f.rstR then s else s.setFifo id (fifoCommon c (fifoRdFlags c (fifoRdEdge { f with underflow := false })))

end Sys2Proof.Machine
end

