-- ==== Sys2Proof/Machine/Slice.lean ====
section
/-! DEFINITION. Arithmetic slices: run states, memories, traps and control registers (06 Arithmetic Slices: Architecture). -/

namespace Sys2Proof.Machine

def State.slice (s : State) (b i : Nat) : Slice := s.slices.get {} (b, i)
def State.setSlice (s : State) (b i : Nat) (x : Slice) : State := { s with slices := s.slices.set (b, i) x }
def State.modSlice (s : State) (b i : Nat) (g : Slice → Slice) : State := s.setSlice b i (g (s.slice b i))

/-- The slice's clock runs and no freeze holds it (06 R286): the bay is powered, its clock reaches it, and it is not frozen. -/
def State.sliceClock (s : State) (b : Nat) : Bool :=
  s.domOn b && bit (s.get F.CKG_EFF_BAY_BAYS) b && !(s.freezing && bit (s.get F.DBG_FREEZE_BAY_BAYS) b)

/-! Fields of an instruction word (07 R336) -/

def fldA (w : Nat) : Fin 4 := Fin.ofNat 4 (bits w 32 2)
def fldXD (w : Nat) : Fin 8 := Fin.ofNat 8 (bits w 29 3)
def fldXS (w : Nat) : Fin 8 := Fin.ofNat 8 (bits w 26 3)
def fldPA (w : Nat) : Fin 4 := Fin.ofNat 4 (bits w 24 2)
def fldUA (w : Nat) : Nat := bits w 22 2
def fldPB (w : Nat) : Fin 4 := Fin.ofNat 4 (bits w 20 2)
def fldUB (w : Nat) : Nat := bits w 18 2
def fldS (w : Nat) : Nat := bits w 12 6
def fldMD (w i : Nat) : Bool := bit w (8 + i)
def fldMD2 (w : Nat) : Nat := bits w 8 2
def fldEX (w : Nat) : Nat := bits w 0 2
def fldREG (w : Nat) : Nat := bits w 29 5
def fldRS (w : Nat) : Nat := bits w 24 5
def fldIMM (w : Nat) : W24 := BitVec.ofNat 24 w
def fldN (w : Nat) : Nat := bits w 24 10
def fldCND (w : Nat) : Nat := bits w 20 4
def fldXDJ (w : Nat) : Fin 8 := Fin.ofNat 8 (bits w 7 3)
def fldTGT (w : Nat) : Nat := bits w 0 7

/-- Masks of the fields in bits [33:0]. -/
def mkA : Nat := 3 * 2 ^ 32
def mkXD : Nat := 7 * 2 ^ 29
def mkXS : Nat := 7 * 2 ^ 26
def mkPA : Nat := 15 * 2 ^ 22      -- PA and UA
def mkPB : Nat := 15 * 2 ^ 18      -- PB and UB
def mkS : Nat := 63 * 2 ^ 12
def mkMD (i : Nat) : Nat := 2 ^ (8 + i)
def mkEX : Nat := 3
def mkREG : Nat := 31 * 2 ^ 29
def mkRS : Nat := 31 * 2 ^ 24
def mkIMM : Nat := 2 ^ 24 - 1
def mkN : Nat := 1023 * 2 ^ 24
def mkCND : Nat := 15 * 2 ^ 20
def mkXDJ : Nat := 7 * 2 ^ 7
def mkTGT : Nat := 127

/-- The field bits that the instruction table lists for an opcode (07 R337, R343); none for an unassigned opcode. -/
def sliceMask (op w : Nat) : Option Nat :=
  let mul := mkA + mkXD + mkXS + mkMD 0 + mkMD 1 + mkMD 2
  match op with
  | 0x01 | 0x02 | 0x03 => some 0
  | 0x04 => some mkTGT
  | 0x05 => some (mkCND + mkTGT)
  | 0x06 => some (mkN + mkTGT)
  | 0x07 => some (mkXDJ + mkTGT)
  | 0x08 | 0x17 => some (mkREG + mkIMM)
  | 0x09 => some (mkREG + mkRS)
  | 0x0A | 0x0C => some (mkXD + mkPA)
  | 0x0B => some (mkXD + mkXS + mkPA + mkPB)
  | 0x0D | 0x0E => some mkXD
  | 0x0F => some (mkMD 0 + if fldMD w 0 then mkXD else mkA)
  | 0x10 | 0x11 => some (mkXD + mkXS + mkMD 2)
  | 0x12 | 0x13 | 0x14 | 0x16 | 0x2B | 0x2C => some (mkXD + mkXS)
  | 0x15 => some (mkXD + mkS + mkMD 0 + mkMD 1)
  | 0x18 | 0x19 | 0x1A => some mul
  | 0x1B => some (mkA + mkPA + mkPB + mkMD 0 + mkMD 1 + mkMD 2)
  | 0x1C => some (mkA + mkXD + mkPA + mkPB + mkMD 0 + mkMD 1 + mkMD 2)
  | 0x1D => some (mkA + mkXD + mkS + mkMD 0 + mkMD 2)
  | 0x1E => some (mkA + mkS + mkMD 0 + mkMD 1 + mkMD 2)
  | 0x1F => some (mkA + mkXD + mkS + mkMD 0 + mkMD 1 + mkMD 3)
  | 0x20 => some (mkA + mkMD 2 + mkMD 3)
  | 0x22 | 0x23 => some (mkXD + mkPA + mkMD 0 + mkMD 1 + mkMD 2)
  | 0x24 => some (mkXD + mkXS + mkMD 0 + mkMD 1 + mkEX)
  | 0x25 => some (mkXD + mkEX)
  | 0x28 | 0x29 => some (mkA + mkMD 2 + mkMD 3 + if fldMD w 3 then mkPA else mkXD)
  | 0x2A => some (mkA + mkXD + mkXS + mkMD 2)
  | 0x2D => some (mkA + mkXD + mkS + mkMD 0 + mkMD 1)
  | 0x2E => some (mkA + mkXD)
  | _ => none

/-- No field holds a reserved code or a shift out of range (07 R346, R348, R362 and the ranges of R343). -/
def sliceCodesOk (op w : Nat) : Bool :=
  match op with
  | 0x05 => fldCND w < 12
  | 0x08 => fldREG w < 27
  | 0x09 => fldREG w < 27 && fldRS w < 29
  | 0x17 => fldREG w < 8
  | 0x15 => fldMD2 w != 3 && fldS w ≤ 23
  | 0x1D => fldS w ≤ 32
  | 0x1E => fldMD2 w != 3
  | 0x1F => fldMD2 w != 3 && fldS w ≤ 55
  | 0x24 | 0x25 => fldEX w != 3
  | 0x2D => fldMD2 w != 3 && fldS w ≤ 10
  | _ => true

/-- The loop count of LOOP and LOOPR (07 R363). -/
def loopCount (op w : Nat) (x : Slice) : Nat := if op = 0x06 then fldN w else (x.x[fldXDJ w]).toNat % 1024

/-- The word is legal for the slice that fetches it at its PC (07 R373). -/
def sliceLegal (op w : Nat) (x : Slice) : Bool :=
  match sliceMask op w with
  | none => false
  | some m =>
    (w % 2 ^ 34) &&& ((2 ^ 34 - 1) ^^^ m) == 0 && sliceCodesOk op w
      && !((op == 0x06 || op == 0x07)
          && (fldTGT w ≤ x.pc.toNat || (loopCount op w x != 0 && 2 ≤ x.loops.length)))

/-! Addressing -/

/-- The smallest power of two not less than `n`, for lengths up to 1,024 (06 R273). -/
def pow2Up (n : Nat) : Nat := (List.range 11).foldr (fun k b => if n ≤ 2 ^ k then 2 ^ k else b) 1024

/-- The pointer update of 06 R273. -/
def ptrUpdate (p : BitVec 10) (len : Nat) (d : Int) : BitVec 10 :=
  if len = 0 then BitVec.ofInt 10 ((p.toNat : Int) + d)
  else
    let b := pow2Up len
    let base := p.toNat / b * b
    let ofs := p.toNat - base
    BitVec.ofNat 10 (base + (((ofs : Int) + d) % (len : Int)).toNat)

/-- One update code applied to pointer `k` (07 R338). -/
def ptrStep (k : Fin 4) (u : Nat) (x : Slice) : Slice :=
  if u = 0 then x
  else
    let d : Int := if u = 1 then 1 else if u = 2 then -1 else (x.m[k]).toInt
    { x with p := x.p.set k (ptrUpdate x.p[k] (x.l[k]).toNat d) }

/-- The memory operands an instruction reads through PA and through PB, and whether it uses PA at all (07 R343). -/
def readsA (op w : Nat) : Bool :=
  op == 0x0A || op == 0x0B || op == 0x1B || op == 0x1C || op == 0x22 || op == 0x23 || ((op == 0x28 || op == 0x29) && fldMD w 3)
def readsB (op : Nat) : Bool := op == 0x0B || op == 0x1B || op == 0x1C
def usesA (op w : Nat) : Bool := readsA op w || op == 0x0C

/-- The pointer updates of an instruction, at the end of its issue cycle (07 R339, R340). -/
def ptrUpdates (op w : Nat) (x : Slice) : Slice :=
  let x1 := if usesA op w then ptrStep (fldPA w) (fldUA w) x else x
  if readsB op && fldPB w != fldPA w then ptrStep (fldPB w) (fldUB w) x1 else x1

/-! Issue -/

/-- What an instruction does to the flow of its program. -/
inductive Flow where
  | seq
  | jump (t : Nat)
  | loop (count last : Nat)
  | stop (r : RunState)
  deriving DecidableEq, Repr

/-- Levels that a taken branch to `t` leaves are popped (07 R366). -/
def popLeft (t : Nat) : List LoopLevel → List LoopLevel
  | [] => []
  | l :: r => if l.first ≤ t ∧ t ≤ l.last then l :: r else popLeft t r

/-- The level ends reached by the instruction at `pc` that issues and is no taken branch (07 R364, R365). -/
def loopEnds (pc nxt : Nat) : List LoopLevel → Nat × List LoopLevel
  | [] => (nxt, [])
  | l :: r =>
    if l.last = pc then
      (if 1 < l.count then (l.first, { l with count := l.count - 1 } :: r) else loopEnds pc (pc + 1) r)
    else (nxt, l :: r)

/-- The program counter, loop stack and run state after an instruction (07 R343, R363 to R368). -/
def sliceFlow (fl : Flow) (x : Slice) : Slice :=
  let pc := x.pc.toNat
  match fl with
  | .seq =>
    let (n, ls) := loopEnds pc (pc + 1) x.loops
    { x with pc := BitVec.ofNat 7 n, loops := ls }
  | .jump t => { x with pc := BitVec.ofNat 7 t, loops := popLeft t x.loops }
  | .loop c last =>
    if c = 0 then
      let (n, ls) := loopEnds pc (last + 1) x.loops
      { x with pc := BitVec.ofNat 7 n, loops := ls }
    else { x with pc := BitVec.ofNat 7 (pc + 1), loops := ⟨pc + 1, last, c⟩ :: x.loops }
  | .stop r => { x with pc := BitVec.ofNat 7 (pc + 1), run := r, prologue := x.prologue && r != .waiting }

/-- What an instruction does to its slice: from the word, the two memory words and the cascade input. -/
abbrev SliceEff := Nat → W24 → W24 → BitVec 56 → Slice → Slice × Flow

/-- A trap: state, cause and the retry of the word (06 R318, R319). -/
def sliceTrap (cause : Nat) (lasting : Bool) (x : Slice) : Slice :=
  { x with run := .trapped, cause := cause, retryDone := true, lasting := lasting, outValid := false }

/-- A read of data-memory word `k` under a strike: the slice with the word and error stored after it, and what the read meets.
`open_` is what two struck bits make of the word. -/
def Slice.readDm (x : Slice) (k : Nat) (u : Upset) (open_ : W24) : Slice × Met W24 :=
  let m := meet (x.dm.get 0 k) (x.dmFlaw.get .none k) u open_
  (if u = .none then x else { x with dm := x.dm.set k m.word, dmFlaw := x.dmFlaw.set k m.flaw }, m)

/-- The same of program memory. -/
def Slice.readPm (x : Slice) (k : Nat) (u : Upset) (open_ : W40) : Slice × Met W40 :=
  let m := meet (x.pm.get 0 k) (x.pmFlaw.get .none k) u open_
  (if u = .none then x else { x with pm := x.pm.set k m.word, pmFlaw := x.pmFlaw.set k m.flaw }, m)

/-- A corrected word waits for its write-back, once (06 R314, R315). -/
def queueBack (k : Nat) (l : List Nat) : List Nat := if l.contains k then l else l ++ [k]

/-- The source of the clock of a slice: its A column and clock row of the bay share it (06 R283). -/
def State.sliceSource (s : State) (b i : Nat) : Option SegSrc :=
  let l := s.fabric.logic.get {} b
  match l.sliceClk.find (i / 72, i % 72 / 24) with
  | some (.global n) => some (.global n)
  | some (.regional n) => l.segs.find (i % 72 / 24, n)
  | none => none

/-- The slice and the one below it run on different clocks, which only a clock-row border can part (06 R282, R283). -/
def State.cascAlien (s : State) (b i : Nat) : Bool :=
  i % 24 == 0 && i % 72 != 0 && s.sliceSource b i != s.sliceSource b (i - 1)

/-- CASC_IN of a slice: CASC_OUT of the slice below in its column, 0 at position 0, free between clocks (06 R280, R282). -/
def State.cascIn (s : State) (cx : SliceCx) : BitVec 56 :=
  if cx.slice.val % 72 = 0 then 0
  else if s.cascAlien cx.bay cx.slice then (Config.freeWord s.free).setWidth 56
  else (s.slice cx.bay (cx.slice.val - 1)).cout

/-- What one data-memory read of an instruction meets; no read meets nothing. -/
def Slice.operand (x : Slice) (reads : Bool) (k : Nat) (u : Upset) (open_ : W24) : Slice × Met W24 :=
  if reads then x.readDm k u open_ else (x, meet (x.dm.get 0 k) .none .none 0)

/-- A read that found a single error counts it and has the corrected word written back (06 R315). -/
def Slice.noteDm (k : Nat) (seen : Flaw) (x : Slice) : Slice :=
  if seen = .single then { x with dmSbe := min 0xFF (x.dmSbe + 1), dmBack := queueBack k x.dmBack } else x

/-- The data-memory reads of an instruction and its effect: a trap when a word is uncorrectable (06 R315, R316), and then a
single error that the other read found is neither counted nor written back, as the instruction has no effect (R317). -/
def sliceData (cx : SliceCx) (op w : Nat) (eff : SliceEff) (casc : BitVec 56) (free : Nat) (x : Slice) : Slice :=
  let ka := (x.p[fldPA w]).toNat
  let kb := (x.p[fldPB w]).toNat
  let a := x.operand (readsA op w) ka cx.memA ((Config.freeWord (free + 2)).setWidth 24)
  let b := a.1.operand (readsB op) kb cx.memB ((Config.freeWord (free + 3)).setWidth 24)
  if a.2.seen = .double then sliceTrap 3 (a.2.flaw == .double) b.1
  else if b.2.seen = .double then sliceTrap 3 (b.2.flaw == .double) b.1
  else
    let r := eff w a.2.data b.2.data casc ((b.1.noteDm ka a.2.seen).noteDm kb b.2.seen)
    sliceFlow r.2 (ptrUpdates op w r.1)

/-- A running slice issues one instruction word (06 R288, R314 to R318). -/
def sliceExec (cx : SliceCx) (op w : Nat) (eff : SliceEff) (casc : BitVec 56) (free : Nat) (x0 : Slice) : Slice :=
  let x := { x0 with outValid := false }
  let pc := x.pc.toNat
  let r := x.readPm pc cx.fetch ((Config.freeWord (free + 1)).setWidth 40)
  if r.2.seen = .double then sliceTrap 2 (r.2.flaw == .double) r.1
  else
    let x2 := if r.2.seen = .single then
        { r.1 with pmSbe := min 0xFF (r.1.pmSbe + 1), pmBack := queueBack pc r.1.pmBack } else r.1
    if sliceLegal op w x2 then sliceData cx op w eff casc free x2 else sliceTrap 1 false x2

/-- One issue: only a running slice whose clock runs and whose SRST is 0 issues (06 R286, R288, R305). -/
def sliceIssue (cx : SliceCx) (op : Nat) (f : BitVec 34) (eff : SliceEff) (s : State) : State :=
  let x := s.slice cx.bay cx.slice
  if x.run = .running ∧ s.sliceClock cx.bay ∧ ¬ x.srst then
    let open_ := s.cascAlien cx.bay cx.slice || cx.fetch != .none || cx.memA != .none || cx.memB != .none
    let t := s.setSlice cx.bay cx.slice (sliceExec cx op (op * 2 ^ 34 + f.toNat) eff (s.cascIn cx) s.free x)
    t.when open_ fun t => { t with free := s.free + 4 }
  else s

/-- A fetched word that is illegal; a legal word is no such event (07 R373). -/
def execIllegalInstruction (cx : SliceCx) (w : W40) (s : State) : Out :=
  .next <|
    let x := s.slice cx.bay cx.slice
    if sliceLegal (w.toNat / 2 ^ 34) w.toNat x then s
    else sliceIssue cx (w.toNat / 2 ^ 34) (BitVec.ofNat 34 w.toNat) (fun _ _ _ _ x => (x, .seq)) s

/-! Write-backs and ports -/

/-- What a slice does at an edge of its clock; without one its state is held (06 R286). -/
def sliceEdge (bay slice : Nat) (g : Slice → Slice) (s : State) : State := s.when (s.sliceClock bay) (·.modSlice bay slice g)

def execPmWriteBack (bay : BayId) (slice : SliceIx) (s : State) : Out :=
  .next (sliceEdge bay slice (fun x => match x.pmBack with
    | k :: r => { x with pmBack := r, pmFlaw := if x.pmFlaw.get .none k = .single then x.pmFlaw.set k .none else x.pmFlaw }
    | [] => x) s)

def execDmWriteBack (bay : BayId) (slice : SliceIx) (s : State) : Out :=
  .next (sliceEdge bay slice (fun x => match x.dmBack with
    | k :: r => { x with dmBack := r, dmFlaw := if x.dmFlaw.get .none k = .single then x.dmFlaw.set k .none else x.dmFlaw }
    | [] => x) s)

/-- The oldest emitted word reaches the port for one cycle; a trapped slice drives OUT_VALID = 0 (06 R278, R320, 07 R358). An
edge at which no word is due ends the cycle of the last. -/
def execEmitOutput (bay : BayId) (slice : SliceIx) (s : State) : Out :=
  .next (sliceEdge bay slice (fun x => match x.emits with
    | (w, st) :: r => { x with emits := r, outData := w, outSt := st, outValid := x.run != .trapped }
    | [] => { x with outValid := false }) s)

/-- An edge of every slice clock that runs ends the cycle in which a word stood at the output (06 R278). -/
def slicesIdle (s : State) : State :=
  { s with slices := s.slices.map fun e => if e.2.outValid && s.sliceClock e.1.1 then (e.1, { e.2 with outValid := false }) else e }

/-- SRST holds the slice: it is 1 while the slice is RUNNING or WAITING (06 R305). -/
def Slice.held (x : Slice) : Bool := x.srst && (x.run == .running || x.run == .waiting)

/-- A held slice keeps its stream-input queue and loop stack empty (06 R305). -/
def Slice.settled (x : Slice) : Slice := if x.held then { x with sin := [], loops := [] } else x

/-- IN_VALID at a slice-clock edge (06 R276, R305). -/
def execStreamInputWord (bay : BayId) (slice : SliceIx) (data : W24) (s : State) : Out :=
  .next <|
    let x := s.slice bay slice
    if !s.sliceClock bay || x.held then s
    else if x.sin.length < 4 then s.setSlice bay slice { x with sin := x.sin ++ [data] }
    else s.setSlice bay slice { x with sinOver := true }

/-- A prologue begins at address 0 (06 R298). -/
def slicePrologue (x : Slice) : Slice := Slice.settled { x with pc := 0, prologue := true, run := .running }

/-- The slice sees SRST rise or fall at an edge of its clock (06 R286, R305). -/
def execSrstRise (bay : BayId) (slice : SliceIx) (s : State) : Out :=
  .next (sliceEdge bay slice (fun x => Slice.settled { x with srst := true }) s)

def execSrstFall (bay : BayId) (slice : SliceIx) (s : State) : Out :=
  .next (sliceEdge bay slice (fun x =>
    if x.held then slicePrologue { x with srst := false } else { x with srst := false }) s)

/-- A run begins at START, as a prologue when that is address 0 (06 R298, R299). -/
def sliceBegin (x : Slice) : Slice := { x with run := .running, pc := x.start, prologue := x.start = 0 }

/-- A run-start edge at one slice (06 R297 to R304). A resync that finds the slice RUNNING abandons its run with OVERRUN, as any
such edge does, before it acts: R300 and R303 both hold. -/
def sliceRunStart (tag : W16) (rsy : Bool) (lag : BitVec 10) (x0 : Slice) : Slice :=
  let x := { x0 with tag := tag, runLag := lag, outValid := false }
  if x0.run = .halted ∨ x0.run = .trapped then { x0 with outValid := false }
  else if x0.srst then x
  else if x.prologue && x.run = .running then { x with skipped := min 0xFF (x.skipped + 1) }
  else if !x.mode then { x with run := .running }
  else
    let x1 := if x.run = .running then
        { x with overrun := true, overruns := min 0xFF (x.overruns + 1), loops := [] } else x
    if rsy && (x.rsyAction = 1 || x.rsyAction = 2) then
      let x2 := slicePrologue { x1 with sin := [], loops := [] }
      if x.rsyAction = 2 then { x2 with overrun := false, sinOver := false, sinUnder := false } else x2
    else sliceBegin x1

def execRunStartEdge (bay : BayId) (slice : SliceIx) (lag : BitVec 10) (s : State) : Out :=
  .next <|
    if s.fenced bay || !s.sliceClock bay then s
    else s.modSlice bay slice (sliceRunStart (s.spine bay).tag (s.rsyAt == some s.tmg.strobes) lag)

/-! Fence, power and start-up -/

/-- The slices of a bay when its fence is applied (06 R291). -/
def slicesFence (b : Nat) (s : State) : State :=
  let g := fun (x : Slice) => if x.run = .running ∨ x.run = .waiting then { x with run := .halted } else x
  { s with slices := s.slices.map (fun e => if e.1.1 = b then (e.1, g e.2) else e) }

/-- Slices with RUN_AT_START begin at address 0 (06 R290). -/
def slicesStart (b : Nat) (s : State) : State :=
  { s with slices := s.slices.map (fun e => if e.1.1 = b ∧ e.2.runAtStart then (e.1, slicePrologue e.2) else e) }

/-- The slices of a bay lose all state: HALTED, memories zero (06 R289, R312). -/
def slicesClear (b : Nat) (s : State) : State := { s with slices := s.slices.filter (fun e => e.1.1 ≠ b) }

/-- Every slice of a bay halts after a load of the bay (06 R289). -/
def slicesHalt (b : Nat) (s : State) : State :=
  { s with slices := s.slices.map (fun e => if e.1.1 = b then (e.1, { e.2 with run := .halted }) else e) }

/-! Program frames -/

/-- The slice column, clock row in bay and bay of a type 2 frame, with its first string bit (06 R262, R307). -/
def progFrame (a : Nat) : Option (Nat × Nat × Nat) :=
  let c := farCol a % 60
  let col := if c = 9 then 0 else if c = 27 then 1 else if c = 40 then 2 else 3
  match farBay a with
  | some b => some (b, col * 72 + farRow a % 3 * 24, 4096 * farMinor a)
  | none => none

/-- String bit `i` of a frame's words. -/
def frameBit (ws : List W32) (i : Nat) : Bool := (ws.getD (i / 32) 0).getLsbD (i % 32)

/-- Writes the instructions that one type 2 frame covers: the bits of each word that lie in the frame are replaced and the
word takes new check bits (06 R308, R309). -/
def progLoad (a : Nat) (ws : List W32) (s : State) : State :=
  match progFrame a with
  | none => s
  | some (b, base, first) =>
    let firstIns := first / 40
    (List.range ((first + 4095) / 40 - firstIns + 1)).foldl (fun s k =>
      let ins := firstIns + k
      let n := ins / 128
      let addr := ins % 128
      if n < 24 then
        s.modSlice b (base + n) (fun x =>
          let old := x.pm.get 0 addr
          let new := (List.range 40).foldl (fun (v : W40) i =>
            let g := 40 * ins + i
            if first ≤ g ∧ g < first + 4096 then
              (if frameBit ws (g - first) then v ||| (1#40 <<< i) else v &&& ~~~(1#40 <<< i))
            else v) old
          { x with pm := x.pm.set addr new, pmFlaw := x.pmFlaw.set addr .none, pmBack := x.pmBack.filter (· ≠ addr) })
      else s) s

/-- Reads back a type 2 frame: the words, where uncorrectable ones are their stored bits, and whether an instruction is
uncorrectable (06 R310). -/
def progReadback (a : Nat) (s : State) : List W32 × Bool :=
  match progFrame a with
  | none => ([], false)
  | some (b, base, first) =>
    let bitAt := fun g => ((s.slice b (base + g / 5120)).pm.get 0 (g % 5120 / 40)).getLsbD (g % 40)
    ((List.range 128).map (fun w => (List.range 32).foldl (fun (v : W32) i =>
        if bitAt (first + 32 * w + i) then v ||| (1#32 <<< i) else v) 0),
     (List.range ((first + 4095) / 40 - first / 40 + 1)).any (fun k =>
        let ins := first / 40 + k
        (s.slice b (base + ins / 128)).pmFlaw.get .none (ins % 128) == .double))

/-! Control registers -/

/-- The selected slice, unless CFG_SLC_SEL.INVALID (06 R325). -/
def State.selSlice (s : State) : Option (Nat × Nat) :=
  let i := s.get F.CFG_SLC_SEL_SLICE
  if i < 288 then some (s.get F.CFG_SLC_SEL_BAY, i) else none

/-- An action on the selected slice: ignored while the selection is invalid, POWERED_DOWN while the bay's domain is off
(06 R324, R325). -/
def sliceAction (g : Nat → Nat → State → State) (s : State) : State :=
  match s.selSlice with
  | none => s.okay
  | some (b, i) => if s.domOn b then g b i s.okay else s.answer .poweredDown

def sliceDoHalt (b i : Nat) (s : State) : State :=
  s.modSlice b i (fun x => if x.run = .running ∨ x.run = .waiting then { x with run := .halted } else x)

def sliceDoGo (b i : Nat) (s : State) : State :=
  if s.fenced b then s.modSlice b i (fun x => { x with accRefused := true })
  else s.modSlice b i (fun x => slicePrologue { x with cause := 0, retryDone := false, lasting := false })

def sliceDoResume (b i : Nat) (s : State) : State :=
  s.modSlice b i (fun x => if x.run = .halted ∨ x.run = .trapped
    then Slice.settled { x with run := .running, retryDone := false, lasting := false } else { x with accRefused := true })

def sliceDoClr (b i : Nat) (s : State) : State :=
  s.modSlice b i (fun x => if x.run = .halted ∨ x.run = .trapped
    then { x with busy := true } else { x with accRefused := true })

def execSliceHalt (s : State) : Out := .next (sliceAction sliceDoHalt s)
def execSliceGo (s : State) : Out := .next (sliceAction sliceDoGo s)
def execSliceResume (s : State) : Out := .next (sliceAction sliceDoResume s)
def execClrDm (s : State) : Out := .next (sliceAction sliceDoClr s)

/-- The clear of data memory completes (06 CFG_SLC_CTRL.CLR_DM). -/
def execClrDmDone (bay : BayId) (slice : SliceIx) (s : State) : Out :=
  .next (s.modSlice bay slice (fun x => if x.busy then { x with busy := false, dm := [], dmFlaw := [], dmBack := [] } else x))

/-- A write of CFG_SLC_CTRL: fields, then the actions HALT, GO, RESUME, CLR_DM; one that changes MODE while the slice is RUNNING
or WAITING is ignored whole (06 R297, R326). -/
def sliceCtrlWrite (w : Nat) (s : State) : State :=
  match s.selSlice with
  | none => s
  | some (b, i) =>
    let x := s.slice b i
    if bits w 16 4 ≠ 0 ∧ ¬ s.domOn b then s.answer .poweredDown
    else if bit w 0 ≠ x.mode ∧ (x.run = .running ∨ x.run = .waiting) then s.setSlice b i { x with accRefused := true }
    else
      let x1 := { x with
        mode := bit w 0, start := BitVec.ofNat 7 (bits w 1 7), rsyAction := BitVec.ofNat 2 (bits w 8 2) }
      let s1 := s.setSlice b i x1
      let s2 := s1.when (bit w 16) (sliceDoHalt b i)
      let s3 := s2.when (bit w 17 && !bit w 16) (sliceDoGo b i)
      let s4 := s3.when (bit w 18 && !bit w 16) (sliceDoResume b i)
      s4.when (bit w 19) (sliceDoClr b i)

/-- Register numbers of the register space (06 R334): value and width. -/
def sliceReg (x : Slice) (k : Nat) : Nat :=
  if h : k < 8 then (x.x[k]).toNat
  else if h : k < 12 then (x.a[k - 8]).toNat
  else if h : k < 16 then (x.p[k - 12]).toNat
  else if h : k < 20 then (x.m[k - 16]).toNat
  else if h : k < 24 then (x.l[k - 20]).toNat
  else if k = 24 then x.i0.toNat
  else if k = 25 then ofFlag x.z + 2 * ofFlag x.n + 4 * ofFlag x.v + 8 * ofFlag x.sat
  else if k = 26 then x.cout.toNat
  else if k = 27 then x.loops.length
  else if k = 28 then x.sin.length
  else 0

/-- Writes a register of the register space, truncated to its width; 27 and 28 are read only (06 R329, R334, 07 R347). -/
def setSliceReg (x : Slice) (k : Nat) (v : Nat) : Slice :=
  if h : k < 8 then { x with x := x.x.set k (BitVec.ofNat 24 v) }
  else if h : k < 12 then { x with a := x.a.set (k - 8) (BitVec.ofNat 56 v) }
  else if h : k < 16 then { x with p := x.p.set (k - 12) (BitVec.ofNat 10 v) }
  else if h : k < 20 then { x with m := x.m.set (k - 16) (BitVec.ofNat 11 v) }
  else if h : k < 24 then { x with l := x.l.set (k - 20) (BitVec.ofNat 10 v) }
  else if k = 24 then { x with i0 := BitVec.ofNat 16 v }
  else if k = 25 then { x with z := bit v 0, n := bit v 1, v := bit v 2, sat := bit v 3 }
  else if k = 26 then { x with cout := BitVec.ofNat 56 v }
  else x

/-- ADDR.WORD after a DATA_LO access with AUTO_INC (06 R331). -/
def sliceAutoInc (s : State) : State :=
  s.when (s.on F.CFG_SLC_ADDR_AUTO_INC) (fun s => s.put F.CFG_SLC_ADDR_WORD 0 (s.get F.CFG_SLC_ADDR_WORD + 1))

/-- DATA_LO accesses reach the slice only while it is HALTED or TRAPPED and not BUSY (06 R332). -/
def dataAccessOk (x : Slice) : Bool := (x.run == .halted || x.run == .trapped) && !x.busy

/-- A write of CFG_SLC_DATA_LO (06 R311, R329, R331, R332). -/
def sliceDataStore (lo : Nat) (s : State) : State :=
  match s.selSlice with
  | none => s.okay
  | some (b, i) =>
    let x := s.slice b i
    if !s.domOn b then s.answer .poweredDown
    else if !dataAccessOk x then s.okay.setSlice b i { x with accRefused := true }
    else
      let s1 := s.okay.put F.CFG_SLC_DATA_LO_LO 0 lo
      let k := s.get F.CFG_SLC_ADDR_WORD
      let v := lo % 2 ^ 32 + s.get F.CFG_SLC_DATA_HI_HI * 2 ^ 32
      let x1 := match s.get F.CFG_SLC_ADDR_SPACE with
        | 0 => if k < 128 then 
            { x with pm := x.pm.set k (BitVec.ofNat 40 v), pmFlaw := x.pmFlaw.set k .none, pmBack := x.pmBack.filter (· ≠ k) } else x
        | 1 => { x with dm := x.dm.set k (BitVec.ofNat 24 v), dmFlaw := x.dmFlaw.set k .none, dmBack := x.dmBack.filter (· ≠ k) }
        | 2 => setSliceReg x k v
        | _ => x
      sliceAutoInc (s1.setSlice b i x1)

def execSliceDataWrite (lo : W32) (s : State) : Out := .next (sliceDataStore lo.toNat s)

/-- Location `k` of a space as software reads it: the slice after the read, the bits, and the error found (06 R330, R334). -/
def Slice.fetch (x : Slice) (sp k : Nat) (u : Upset) (open_ : W64) : Slice × Nat × Flaw :=
  if sp = 0 ∧ k < 128 then
    let r := x.readPm k u (open_.setWidth 40)
    (r.1, r.2.data.toNat, r.2.seen)
  else if sp = 1 then
    let r := x.readDm k u (open_.setWidth 24)
    (r.1, r.2.data.toNat, r.2.seen)
  else if sp = 2 then (x, sliceReg x k, .none)
  else (x, 0, .none)

/-- A read of CFG_SLC_DATA_LO (06 R330 to R332); an uncorrectable location returns its stored bits and sets UE. -/
def sliceDataFetch (quiet : Bool) (u : Upset) (s : State) : State :=
  match s.selSlice with
  | none => s.okay
  | some (b, i) =>
    let x := s.slice b i
    if !s.domOn b then s.okay
    else if !dataAccessOk x then if quiet then s.okay else s.okay.setSlice b i { x with accRefused := true }
    else
      let k := s.get F.CFG_SLC_ADDR_WORD
      let sp := s.get F.CFG_SLC_ADDR_SPACE
      let r := x.fetch sp k u (Config.freeWord s.free)
      let s1 := ((s.okay (r.2.1 % 2 ^ 32)).setSlice b i r.1).when (u != .none) (·.fresh)
      let s2 := s1.when (r.2.2 == .double && !quiet) (·.raise F.CFG_SLC_ADDR_UE)
      if quiet then s2
      else sliceAutoInc ((s2.put F.CFG_SLC_DATA_LO_LO 0 r.2.1).put F.CFG_SLC_DATA_HI_HI 0 (r.2.1 / 2 ^ 32))

def execSliceDataRead (quiet : Bool) (u : Upset) (s : State) : Out := .next (sliceDataFetch quiet u s)

/-- The code of a run state. -/
def RunState.code : RunState → Nat
  | .halted => 0 | .running => 1 | .waiting => 2 | .trapped => 3

/-- CFG_SLC registers that are computed when read (06 R325, R334, R335). -/
def sliceView (s : State) (r : Reg) (ix : Nat) : Option Nat :=
  if r = R.CFG_SLC_TRAPPED then
    some ((List.range 32).foldl (fun v b =>
      if ix % 9 * 32 + b < 288 ∧ (s.slice (ix / 9) (ix % 9 * 32 + b)).run = .trapped ∧ s.domOn (ix / 9)
      then v + 2 ^ b else v) 0)
  else if r = R.CFG_SLC_SEL then
    some ((s.rd R.CFG_SLC_SEL).toNat + 2 ^ 31 * ofFlag (288 ≤ s.get F.CFG_SLC_SEL_SLICE))
  else
    let win := r = R.CFG_SLC_CTRL ∨ r = R.CFG_SLC_STATUS ∨ r = R.CFG_SLC_TIMING ∨ r = R.CFG_SLC_ECC
      ∨ r = R.CFG_SLC_ADDR ∨ r = R.CFG_SLC_DATA_HI ∨ r = R.CFG_SLC_DATA_LO
    match s.selSlice with
    | none => if win then some 0 else none
    | some (b, i) =>
      let x := s.slice b i
      let live := s.domOn b
      if r = R.CFG_SLC_CTRL then
        some (ofFlag x.mode + 2 * x.start.toNat + 2 ^ 8 * x.rsyAction.toNat + 2 ^ 10 * ofFlag x.runAtStart)
      else if r = R.CFG_SLC_STATUS then
        some ((if live then x.run.code + 4 * x.pc.toNat + 2 ^ 13 * ofFlag x.busy else 0) + 2 ^ 9 * x.cause
          + 2 ^ 11 * ofFlag x.retryDone + 2 ^ 12 * ofFlag x.lasting + 2 ^ 17 * ofFlag x.overrun
          + 2 ^ 18 * ofFlag x.sinOver + 2 ^ 19 * ofFlag x.sinUnder + 2 ^ 20 * ofFlag x.accRefused)
      else if r = R.CFG_SLC_TIMING then
        some ((if live then x.runLag.toNat else 0) + 2 ^ 16 * x.overruns + 2 ^ 24 * x.skipped)
      else if r = R.CFG_SLC_ECC then some (x.pmSbe + 2 ^ 8 * x.dmSbe)
      else none

/-- CFG_SLC registers whose write reaches the selected slice (06 R325, R326). -/
def sliceWrite (s : State) (r : Reg) (w : Nat) : Option State :=
  if r = R.CFG_SLC_CTRL then some (sliceCtrlWrite w s)
  else if r = R.CFG_SLC_STATUS then
    some (match s.selSlice with
      | none => s
      | some (b, i) => s.modSlice b i (fun x => { x with
          overrun := x.overrun && !bit w 17, sinOver := x.sinOver && !bit w 18,
          sinUnder := x.sinUnder && !bit w 19, accRefused := x.accRefused && !bit w 20 }))
  else if r = R.CFG_SLC_DATA_LO then some (sliceDataStore w s)
  else if (r = R.CFG_SLC_TIMING ∨ r = R.CFG_SLC_ECC ∨ r = R.CFG_SLC_ADDR ∨ r = R.CFG_SLC_DATA_HI) ∧ s.selSlice = none then some s
  else none

/-- The clearing side of a read of the slice counters (06 R328). -/
def sliceReadClear (s : State) (r : Reg) : Option State :=
  match s.selSlice with
  | none => none
  | some (b, i) =>
    if r = R.CFG_SLC_TIMING then some (s.modSlice b i (fun x => { x with overruns := 0, skipped := 0 }))
    else if r = R.CFG_SLC_ECC then some (s.modSlice b i (fun x => { x with pmSbe := 0, dmSbe := 0 }))
    else none

end Sys2Proof.Machine
end

