-- ==== Sys2Proof/Machine/Bay.lean ====
section
/-! DEFINITION. Clock gates of the bays, bay states, the fence and bay windows (13 R683 to R692, 17 R882 to R886, 12 R646). -/

namespace Sys2Proof.Machine

/-! The gating tree -/

/-- Some hold acts on the gate of a bay: its domain is off, or the ICP or the Pager holds it (17 R886). -/
def State.bayHeld (s : State) (b : Nat) : Bool := !s.domOn b || s.pgr.holds.contains b

/-- A clock reaches a bay: its gate and every gate above are on and no hold acts (17 R882). -/
def State.bayClocked (s : State) (b : Nat) : Bool :=
  s.on F.CKG_GATE_TOP_ROOT && bit (s.get F.CKG_GATE_TOP_SLAB) (b / 16) && bit (s.get F.CKG_GATE_TOP_ROW) (b / 4)
    && bit (s.get F.CKG_GATE_BAY_BAYS) b && !s.bayHeld b

/-- The live registers of the bay gates after a change of gates, holds or domains. -/
def gateSettle (s : State) : State :=
  let h := packBits ((List.range 64).map s.bayHeld)
  let e := packBits ((List.range 64).map s.bayClocked)
  (s.put F.CKG_HOLD_BAY_BAYS 0 h).put F.CKG_EFF_BAY_BAYS 0 e

/-- The ICP or the Pager holds a bay's gate off, or releases it. -/
def holdBay (b : Nat) (s : State) : State :=
  gateSettle { s with pgr := { s.pgr with holds := if s.pgr.holds.contains b then s.pgr.holds else s.pgr.holds ++ [b] } }
def unholdBay (b : Nat) (s : State) : State :=
  gateSettle { s with pgr := { s.pgr with holds := s.pgr.holds.filter (· != b) } }

/-! Bay states (13 R683) -/

def bayBlank : Nat := 0
def bayLoading : Nat := 1
def bayIncomplete : Nat := 2
def bayReady : Nat := 3
def bayLive : Nat := 4
def bayTesting : Nat := 5
def bayOffline : Nat := 6

def State.bayState (s : State) (b : Nat) : Nat := s.get F.FEN_BAY_STATUS_STATE b
def State.setBay (s : State) (b st : Nat) : State := s.put F.FEN_BAY_STATUS_STATE b st

/-- The bay's domain is on and its slab's rail is present. -/
def State.bayPowered (s : State) (b : Nat) : Bool := s.domOn b && s.railUp (b / 16)

/-- Agents of FEN_BAY_STATUS.BY. -/
def bySoftware : Nat := 0
def byBlanking : Nat := 1
def byPager : Nat := 2
def byScrubber : Nat := 3
def bySlab : Nat := 4
def byIcp : Nat := 5

/-- The bay no longer has a golden copy (13 R684, R704). -/
def dropGolden (b : Nat) (s : State) : State :=
  (s.clear F.FEN_BAY_STATUS_GOLDEN b).put F.FEN_BAY_STATUS_SLOT b 0xFF

/-! The fence -/

/-- The outgoing signals of a bay take the levels that its fence clamps: I/O port outputs and enables, and border signals
(13 R687). A fenced bay sends nothing else; the inputs are 0 by `State.portIn` and `State.borderIn`. -/
def clampPins (b : Nat) (s : State) : State :=
  let f := s.fabric
  let l := f.logic.get {} b
  let ports := l.ports.foldl (fun (t : Tbl (Nat × Nat) (List Bool × Bool)) e =>
    let (out, oe) := t.get ([], false) (b, e.1)
    let (co, ce) := l.portClamp.get (some false, some false) e.1
    t.set (b, e.1) (match co with | some v => e.2.1.map fun _ => v | none => out, ce.getD oe)) f.ports
  let borders := l.borders.foldl (fun (t : Tbl (Nat × Side × Nat) Bool) e =>
    t.set (b, e.1) ((l.borderClamp.get (some false) e.1).getD (t.get false (b, e.1)))) f.borderOut
  { s with fabric := { f with ports := ports, borderOut := borders } }

/-- The bay local set/reset is asserted (13 R687, 04 R186). -/
def lsrAssert (b : Nat) (s : State) : State :=
  flopsInit (fun f => f.bay == b)
    { s with fabric := { s.fabric with lsrReleased := s.fabric.lsrReleased.filter (· != b) } }

def lsrRelease (b : Nat) (s : State) : State :=
  { s with fabric := { s.fabric with
    lsrReleased := if s.fabric.lsrReleased.contains b then s.fabric.lsrReleased else s.fabric.lsrReleased ++ [b] } }

/-- Applies the fence of a bay for the agent `by_` (13 R687, R688, R1016): a fenced bay stays as it is. `hold` keeps the
flip-flops. -/
def fenceBay (b by_ : Nat) (hold : Bool) (s : State) : State :=
  if s.fenced b then s
  else
    let s1 := ((s.putBit F.FEN_FENCED_BAYS 0 b true).put F.FEN_BAY_STATUS_BY b by_).raise F.FEN_BAY_EVT_ENTRY b
    let s2 := slicesFence b (clampPins b s1)
    let s4 := s2.when (s2.bayState b == bayLive) (·.setBay b bayReady)
    s4.when (!(hold || s4.on F.FEN_BAY_CTRL_HOLD b)) (lsrAssert b)

/-- Opens the fence of a READY bay (13 R688, 06 R290, 20 R985): LIVE, and its pad hold latches release (17 R901). -/
def openBay (b : Nat) (s : State) : State :=
  let s1 := (lsrRelease b s).putBit F.FEN_FENCED_BAYS 0 b false
  let s2 := (s1.setBay b bayLive).raise F.FEN_BAY_EVT_RELEASE b
  let unpad := fun (p : UioPin) => match p.cfg.bound with
    | some (b', _) => if b' = b then { p with held := none } else p
    | none => p
  let s3 := { s2 with fabric := { s2.fabric with pins := s2.fabric.pins.map fun e => (e.1, unpad e.2) } }
  slicesStart b (qtzRelease b s3)

/-- The bays that the Pager command under way holds. -/
def PgrRun.bays (r : PgrRun) : List Nat :=
  let w := r.cmd.cmd.toNat
  let op := bits w 0 4
  if op = 1 ∨ op = 9 then []
  else bits w 8 6 :: (if (op = 4 ∨ op = 5) ∧ r.phase = .running then [bits w 16 6] else [])

/-- A Pager command under way or an ICP load holds the bay (13 R690). -/
def State.bayTaken (s : State) (b : Nat) : Bool :=
  s.pgr.icp.any (fun e => e.2.bay == b) || (s.pgr.run.map fun r => r.bays.contains b).getD false

/-- An UNFENCE is granted (13 R690). -/
def State.unfenceOk (s : State) (b : Nat) : Bool :=
  s.bayState b == bayReady && !s.slabFenced (b / 16) && !s.bayTaken b

/-- An UNFENCE (13 R690, R691): granted, refused, or abandoned by a fence that falls within the release. One written while
the entry of the bay's fence is still under way is refused; one written during the release before it, which has made the bay LIVE, has
no effect. -/
def unfenceBay (b : Nat) (o : FenceOverlap) (s : State) : State :=
  if o = .unfenceInRelease ∧ s.bayState b = bayLive then s
  else if s.unfenceOk b && !(o == .unfenceInEntry && s.fenced b) then
    match o with
    | .fenceInRelease a =>
      let s1 := (lsrRelease b s).raise F.FEN_BAY_EVT_ENTRY b
      (s1.put F.FEN_BAY_STATUS_BY b a).when (!s1.on F.FEN_BAY_CTRL_HOLD b) (lsrAssert b)
    | _ => openBay b s
  else s.raise F.FEN_BAY_EVT_REFUSED b

/-- A write of FEN_BAY_CTRL: its fields, then FENCE, which prevails over UNFENCE (13 R688 to R691). -/
def fenCtrlWrite (b w : Nat) (o : FenceOverlap) (s : State) : State :=
  let s1 := (s.put F.FEN_BAY_CTRL_HOLD b (bits w 2 1)).put F.FEN_BAY_CTRL_AUTO_REOPEN b (bits w 3 1)
  if bit w 0 then
    (fenceBay b bySoftware false s1).when (bit w 1 || (o == .unfenceInEntry && !s1.fenced b)) (·.raise F.FEN_BAY_EVT_REFUSED b)
  else s1.when (bit w 1) (unfenceBay b o)

def execBayFence (bay : BayId) (w : W32) (o : FenceOverlap) (s : State) : Out :=
  .next (fenCtrlWrite bay (w ||| 1).toNat o s)

def execUnfence (bay : BayId) (w : W32) (o : FenceOverlap) (s : State) : Out :=
  .next (fenCtrlWrite bay (w ||| 2).toNat o s)

/-- The bays of a slab. -/
def slabBays (k : Nat) : List Nat := (List.range 16).map (k * 16 + ·)

/-! Bay windows -/

/-- Block and slice memories of the bays selected are zero without error, and their slices HALTED (05 R240, 06 R289, R312). -/
def clearMemories (p : Nat → Bool) (s : State) : State :=
  let g := fun (x : Slice) => { x with
    run := .halted, runAtStart := false, pm := [], pmFlaw := [], pmBack := [], dm := [], dmFlaw := [], dmBack := [] }
  { s with
    brams := s.brams.filter fun e => !p (blkBay e.1)
    fifos := s.fifos.filter fun e => !p (blkBay e.1)
    slices := s.slices.map fun e => if p e.1.1 then (e.1, g e.2) else e }

/-- The window of a bay is blanked (12 R646, 13 R684). -/
def blankWindow (b : Nat) (s : State) : State :=
  let f := s.fabric
  clearMemories (· == b) { s with fabric := { f with
    frames := f.frames.filter fun e => farBay e.1 != some b
    frameFlaw := f.frameFlaw.filter fun e => farBay e.1 != some b
    flops := f.flops.filter fun e => e.2.bay != b
    logic := f.logic.erase b
    borderIn := f.borderIn.filter fun e => e.1.1 != b
    segLevel := f.segLevel.filter fun e => e.1.1 != b } }

/-- The bay is BLANK without golden copy. -/
def bayToBlank (b : Nat) (s : State) : State := dropGolden b ((blankWindow b s).setBay b bayBlank)

/-- The frames of a bay's window that differ from blank. -/
def State.windowFrames (s : State) (b : Nat) : List (Nat × List W32) :=
  s.fabric.frames.filter fun e => farBay e.1 == some b

/-- The personality in a bay's window takes effect: its logic with every flip-flop at INIT, the levels at which the fence clamps
its outgoing signals, and the RUN_AT_START attribute of every slice (04 R166, R203, 06 R290). -/
def configureBay (b : Nat) (s : State) : State :=
  let fr := s.windowFrames b
  let l := (Config.logicOf b fr).real fun d => (bayBeside b d).isSome
  let kept : Tbl Nat Flop := s.fabric.flops.filter fun e => e.2.bay != b
  let s1 := { s with fabric := { s.fabric with flops := kept ++ l.flops b, logic := s.fabric.logic.set b l } }
  let s2 : State := s1.when (s1.fenced b) (clampPins b)
  let off := fun (x : Slice) => { x with runAtStart := false }
  let slices := s2.slices.map fun (e : (Nat × Nat) × Slice) => if e.1.1 = b then (e.1, off e.2) else e
  let s3 : State := { s2 with slices := slices }
  s3.each (Config.runAtStart b fr) fun t i => t.modSlice b i fun x => { x with runAtStart := true }

/-- Type 1 and 2 frames of a bay may be written and read: it is fenced with its clock gate off, or start-up has not
released its write enable (05 R238, 06 R309). -/
def State.contentOk (s : State) (b : Nat) : Bool :=
  (s.fenced b && !s.bayClocked b) || !(s.fabric.weReleased.contains b || s.on F.CFG_STATUS_STARTED)

/-- Stores one frame of the fabric by its type (04 R208, 05 R237, 06 R309); a bay without power takes none, nor does a slab
without its rail (21 R995). -/
def storeFrame (a : Nat) (ws : List W32) (s : State) : State :=
  match farBay a with
  | none => if s.railUp (farSlab a) then s.putFrame a ws else s
  | some b =>
    if !s.bayPowered b then s
    else if farType a = 0 then s.putFrame a ws
    else if !s.contentOk b then s
    else if farType a = 1 then bramLoad a ws s
    else progLoad a ws s

/-- FEN registers that are computed when read (13 R683, R724). -/
def fenView (s : State) (r : Reg) (i : Nat) : Option Nat :=
  let bitsOf := fun (st : Nat) => packBits ((List.range 64).map fun b => s.bayState b == st)
  if r = R.FEN_INCOMPLETE then some (bitsOf bayIncomplete)
  else if r = R.FEN_OFFLINE then some (bitsOf bayOffline)
  else if r = R.FEN_SLAB_STATUS then
    some (withField (s.rd r 0).toNat F.FEN_SLAB_STATUS_RAIL (packBits ((List.range 4).map s.railUp)))
  else if r = R.FEN_BAY_STATUS then
    let v := (s.rd r i).toNat
    let anchor := bit (s.get F.CFG_ANCHOR_BAYS) i
    let priv := (s.cfg.regs.get [] 0x12).any fun w => w.getLsbD 31 && w.toNat % 64 == i
    some (withField (withField (withField v F.FEN_BAY_STATUS_FENCED (ofFlag (s.fenced i)))
      F.FEN_BAY_STATUS_ANCHOR (ofFlag anchor)) F.FEN_BAY_STATUS_PRIV (ofFlag priv))
  else none

end Sys2Proof.Machine
end

