-- ==== Sys2Proof/Machine/Dma.lean ====
section
/-! DEFINITION. The registers of the DMA channels (15 R821, R825, R828). -/

namespace Sys2Proof.Machine

def dmaIdle : Nat := 0
def dmaRunning : Nat := 1
def dmaDone : Nat := 2
def dmaHalted : Nat := 3

/-- GO: refused, or the transfer is latched and starts (15 R821). -/
def dmaStart (c : Nat) (s : State) : State :=
  let src := s.get F.DMA_SRC_ADDR c
  let dst := s.get F.DMA_DST_ADDR c
  let len := s.get F.DMA_LEN_BYTES c
  if s.get F.DMA_STATUS_STATE c = dmaRunning ∨ len = 0 ∨ src % 8 ≠ 0 ∨ dst % 8 ≠ 0 ∨ len % 8 ≠ 0 then
    s.raise F.DMA_STATUS_REFUSED c
  else
    let s1 := (s.put F.DMA_STATUS_STATE c dmaRunning).put F.DMA_DONE_BYTES_BYTES c 0
    { s1 with dma := s1.dma.set c { fill := s.on F.DMA_CTRL_MODE c, src, dst, len, pattern := s.rd R.DMA_PATTERN c } }

/-- ABORT: a running channel is to stop (15 R825). -/
def dmaStop (c : Nat) (s : State) : State :=
  match s.dma.find c with
  | some d => { s with dma := s.dma.set c { d with stop := true } }
  | none => s

/-- A write of DMA_CTRL: MODE and IRQ, then the actions. -/
def dmaCtrlWrite (c w : Nat) (s : State) : State :=
  let s1 := (s.put F.DMA_CTRL_MODE c (w / 2)).put F.DMA_CTRL_IRQ c (w / 4)
  (s1.when (bit w 0) (dmaStart c)).when (bit w 3) (dmaStop c)

/-- DMA registers whose write is more than its access codes. -/
def dmaWrite (s : State) (r : Reg) (i w : Nat) : Option State :=
  if r = R.DMA_CTRL then some (dmaCtrlWrite i w s) else none

def execDmaGo (ch : DmaId) (w : W32) (s : State) : Out := .next (dmaCtrlWrite ch.val (w ||| 1).toNat s)

end Sys2Proof.Machine
end

