-- ==== Sys2Proof/Machine/Verdict.lean ====
section
/-! DEFINITION. The Verdict Table: lookups, replicas, loader window, staging and swap, protection of entries (09). -/

namespace Sys2Proof.Machine

def State.setVrd (s : State) (g : Verdict → Verdict) : State := { s with vrd := g s.vrd }

/-- The table's clock runs and it is initialised (09 R457, 17 R882). -/
def State.vrdReady (s : State) : Bool := s.unitClocked 8 && s.on F.VRD_STATUS_INIT_DONE

/-- An action of the table's registers: refused while PD84 is off (01 R46). -/
def vrdAct (g : State → State) (s : State) : State := if s.domOn 84 then g s else s.answer .poweredDown

def vrdRefuse (s : State) : State := s.raise F.VRD_ERR_CFG_REFUSED

/-! Replicas and ports (09 R455, R468) -/

def vrdMap (v : Verdict) (r b : Nat) : Nat := v.maps.get b (r, b)
def vrdInService (v : Verdict) (r : Nat) : Bool := !v.retired.contains r
def vrdService (v : Verdict) : List Nat := (List.range 4).filter (vrdInService v)

/-- The replica that serves a port; none for a port out of service (09 R468). -/
def vrdServes (v : Verdict) (p : Nat) : Option Nat :=
  let l := vrdService v
  match l.length with
  | 4 => l[p / 2]?
  | 3 | 2 => if p < 4 then l[p / 2]? else none
  | 1 => if p < 2 then l[0]? else none
  | _ => none

/-- The replicas that stay in service after the retirements due (09 R471). -/
def vrdStaying (v : Verdict) : List Nat := (vrdService v).filter fun r => !v.retireDue.contains r

/-! Stored words and their errors (09 R458, R488 to R490, R1019) -/

/-- The place of entry `e` of a logical bank's physical bank: word and entry in it (09 R458). -/
abbrev VrdPlace := Nat × Nat × Nat

/-- The stored bits of a word; a word of a bank with undefined contents is free, and stays what it is found to be. -/
def vrdStored (k : VrdPlace) (s : State) : W64 × State :=
  match s.vrd.words.find k with
  | some w => (w, s)
  | none =>
    if s.vrd.undef.contains (k.1, k.2.1) then
      let w := Config.freeWord s.free
      (w, (s.setVrd fun v => { v with words := v.words.set k w }).fresh)
    else (0, s)

/-- Writes a whole word with valid check bits: its errors, its write-back and its second read's old contents are gone. -/
def vrdStore (k : VrdPlace) (w : W64) (s : State) : State :=
  s.setVrd fun v => { v with words := v.words.set k w, flaws := v.flaws.erase k, back := v.back.filter (· != k) }

/-- Reads a stored word: what the read meets, the strike being kept. -/
def vrdRead (k : VrdPlace) (u : Upset) (s : State) : Met W64 × State :=
  let (w, s1) := vrdStored k s
  let m := meet w (s1.vrd.flaws.get .none k) u (Config.freeWord s1.free)
  if u = .none then (m, s1)
  else
    (m, (s1.setVrd fun v => { v with
      words := if m.fresh then v.words.set k m.word else v.words
      flaws := if m.flaw = .none then v.flaws.erase k else v.flaws.set k m.flaw }).fresh)

/-- Records an uncorrectable error while the log holds none (09 R490). -/
def vrdLog (addr phys rep source : Nat) (lasting : Bool) (s : State) : State :=
  if s.on F.VRD_UE_LOG_VALID then s
  else s.wr R.VRD_UE_LOG 0 (BitVec.ofNat 64
    (addr + phys * 2 ^ 22 + rep * 2 ^ 29 + ofFlag lasting * 2 ^ 31 + source * 2 ^ 32 + 2 ^ 63))

/-- A single-bit error is counted and the corrected word is to be written back (09 R488). -/
def vrdCorrected (k : VrdPlace) (s : State) : State :=
  ((s.bumpHold F.VRD_ECC_CNT_CORRECTED).raise F.VRD_ERR_CORRECTED).setVrd fun v =>
    { v with back := v.back.filter (· != k) ++ [k] }

/-- A lookup or patrol read of a word (09 R488, R489): what it meets, with its consequences under way. -/
def vrdProtectedRead (k : VrdPlace) (addr source : Nat) (u : Upset) (s : State) : Met W64 × State :=
  let (m, s1) := vrdRead k u s
  match m.seen with
  | .none => (m, s1)
  | .single => (m, vrdCorrected k s1)
  | .double => (m, s1.setVrd fun v => { v with second := v.second ++ [⟨k.1, k.2.1, k.2.2, addr, source⟩] })

/-- The corrected word is written back through the maintenance port (09 R488, R1019). -/
def execVerdictWriteBack (s : State) : Out :=
  .next <| match s.vrd.back with
    | k :: r => s.setVrd fun v => { v with back := r, flaws := v.flaws.erase k }
    | [] => s

/-- Asks for the retirement of a replica at the next boundary, unless it is the last to stay in service (09 R469, R489). -/
def vrdAutoRetire (r : Nat) (s : State) : State :=
  if s.on F.VRD_CTRL_AUTO_RETIRE && (vrdStaying s.vrd).contains r && (vrdStaying s.vrd).length != 1 then
    s.setVrd fun v => { v with retireDue := v.retireDue ++ [r] }
  else s

/-- The second read of an uncorrectable word classes the error (09 R489, R490, R1019). -/
def execUeSecondRead (u : Upset) (s : State) : Out :=
  .next <| match s.vrd.second with
    | [] => s
    | q :: r =>
      let k := (q.rep, q.phys, q.word)
      let (m, s1) := vrdRead k u s
      let s2 := (s1.setVrd fun v => { v with second := r }).when (m.seen == .single) (vrdCorrected k)
      if m.seen = .double then
        vrdAutoRetire q.rep (vrdLog q.addr q.phys q.rep q.source true (s2.raise F.VRD_ERR_UE_LASTING))
      else
        vrdLog q.addr q.phys q.rep q.source false
          ((s2.bumpHold F.VRD_ECC_CNT_TRANSIENT).raise F.VRD_ERR_UE_TRANSIENT)

/-! Initialisation (09 R456) -/

/-- The maps are the identity, every replica is in service and every entry 0 (09 R456). -/
def vrdFresh (v : Verdict) : Verdict := { ctrl := v.ctrl, fields := v.fields }

def execVerdictInit (s : State) : Out :=
  .next <|
    if s.unitClocked 8 && !s.on F.VRD_STATUS_INIT_DONE then (s.setVrd vrdFresh).raise F.VRD_STATUS_INIT_DONE else s

/-! Lookups (09 R460 to R466) -/

/-- The composer (09 R463): `base` with the bits of each used field of the request in place, field 0 lowest. -/
def vrdCompose (base fields req : Nat) : Nat :=
  let step (a : Nat × Nat) (f : Nat) : Nat × Nat :=
    let (addr, pos) := a
    let w := bits fields (16 * f + 8) 5
    let o := bits fields (16 * f) 6
    if w = 0 then a
    else (addr - bits addr pos w * 2 ^ pos + bits req o w * 2 ^ pos, pos + w)
  ((List.range 4).foldl step (base, 0)).1 % 2 ^ 22

/-- The data of a valid result (09 R466). -/
def vrdResult (entry addr : Nat) (err mapgen : Bool) (req : W64) : W64 :=
  BitVec.ofNat 64 (entry + addr * 2 ^ 16 + ofFlag err * 2 ^ 38 + ofFlag mapgen * 2 ^ 39 + req.toNat / 2 ^ 40 * 2 ^ 40)

/-- A port takes its request flit of a slot and sends the result 10 cycles later (09 R457, R460 to R462, R466). -/
def execLookup (port : Fin 8) (slot : Fin 128) (parity : Bool) (u : Upset) (s : State) : Out :=
  .next <|
    let p := port.val
    let (got, s1) := qtzEndpoint (.verdict p) (0x440 + p) slot.val 0 parity 0 s
    let out (f : Flit) (t : State) : State :=
      let at_ := (slot.val + 12) % t.qtzN
      let (f', t') := probeMark (0x440 + p, at_, 0) f t
      qtzSend (.port 64 (64 + p)) 0 at_ f' t'
    let dead (t : State) : State := out ⟨0, (Config.freeWord t.free).setWidth 16, false, none⟩ t.fresh
    match got with
    | none => if s.qtzActive then dead s1 else s1
    | some f =>
      let ctrl := s.vrd.ctrl.get 0 p
      match vrdServes s.vrd p with
      | none => dead s1
      | some r =>
        if !f.valid || !s.vrdReady || !bit ctrl 0 then dead s1
        else
          let addr := vrdCompose (bits ctrl 8 22) (s.vrd.fields.get 0 p) f.data.toNat
          let b := addr / 65536
          let k := (r, vrdMap s.vrd r b, addr % 65536 / 4)
          let (m, s2) := vrdProtectedRead k (addr / 4 * 4) 0 u s1
          let err := m.seen == .double
          let entry := if err then s.get F.VRD_CTRL_ERR_VALUE else bits m.data.toNat (16 * (addr % 4)) 16
          let d := vrdResult entry addr err (s.vrd.swaps.get 0 b % 2 == 1) f.data
          out ⟨d, f.tag, true, none⟩ (s2.bumpWrap F.VRD_PORT_LOOKUPS_COUNT p)

/-- VRD_PORT_CTRL and VRD_PORT_FIELDS take effect at the boundary (09 R465). -/
def execPortConfigApply (s : State) : Out :=
  .next <| s.when s.boundariesRun fun s => s.setVrd fun v => { v with
    ctrl := (List.range 8).map fun p => (p, (s.rd R.VRD_PORT_CTRL p).toNat),
    fields := (List.range 8).map fun p => (p, (s.rd R.VRD_PORT_FIELDS p).toNat) }

/-! Retirement and test (09 R469 to R473) -/

/-- A request to retire a replica (09 R471). -/
def vrdRetire (r : Nat) (s : State) : State :=
  if !(vrdStaying s.vrd).contains r then s
  else if (vrdStaying s.vrd).length = 1 then vrdRefuse s
  else s.setVrd fun v => { v with retireDue := v.retireDue ++ [r] }

/-- A request to restore a replica (09 R472). -/
def vrdRestore (r : Nat) (s : State) : State :=
  if vrdInService s.vrd r || s.vrd.staged.isSome || s.vrd.swap.isSome || s.vrd.rbist == some r then vrdRefuse s
  else s.setVrd fun v => { v with restoreDue := v.restoreDue.filter (· != r) ++ [r] }

/-- A write of VRD_RETIRE (09 R471, R472). -/
def vrdRetireWrite (w : Nat) (s : State) : State :=
  let s1 := s.put F.VRD_RETIRE_REPLICA 0 w
  if !bit w 4 && !bit w 5 then s1
  else vrdAct (fun t => (t.when (bit w 4) (vrdRetire (w % 4))).when (bit w 5) (vrdRestore (w % 4))) s1

def execRetire (w : W32) (s : State) : Out := .next (vrdRetireWrite w.toNat s)
def execRestore (w : W32) (s : State) : Out := .next (vrdRetireWrite w.toNat s)

/-- The retirements and restores due take effect at a boundary (09 R469, R472). -/
def execRetirementApply (s : State) : Out :=
  .next <|
    if !s.boundariesRun then s else
    let due := s.vrd.retireDue
    let s1 := s.setVrd fun v => { v with
      retired := (v.retired ++ due).filter (fun r => !v.restoreDue.contains r), retireDue := [], restoreDue := [] }
    s1.when (!due.isEmpty) (·.raise F.VRD_ERR_RETIRED)

/-- A write of VRD_RBIST (09 R473). -/
def vrdRbistWrite (w : Nat) (s : State) : State :=
  let s1 := s.put F.VRD_RBIST_REPLICA 0 w
  if !bit w 4 then s1
  else vrdAct (fun t =>
    if vrdInService t.vrd (w % 4) then vrdRefuse t
    else ((t.clear F.VRD_RBIST_DONE).clear F.VRD_RBIST_PASS).setVrd fun v => { v with rbist := some (w % 4) }) s1

def execRbist (w : W32) (s : State) : Out := .next (vrdRbistWrite w.toNat s)

/-- The test completes: every entry of the replica is 0 with valid check bits (09 R473). -/
def execRbistDone (pass : Bool) (s : State) : Out :=
  .next <| match s.vrd.rbist with
    | none => s
    | some r =>
      let s1 := s.setVrd fun v => { v with
        rbist := none, words := v.words.filter (fun e => e.1.1 != r), flaws := v.flaws.filter (fun e => e.1.1 != r),
        undef := v.undef.filter (fun e => e.1 != r), back := v.back.filter (fun k => k.1 != r),
        second := v.second.filter (fun q => q.rep != r) }
      (s1.raise F.VRD_RBIST_DONE).flag F.VRD_RBIST_PASS 0 pass

/-! Loader window (09 R474 to R477, R485, R492, R1013) -/

/-- Initiators that the window refuses: bays, and cores at privilege U (09 R475). -/
def vrdDenied (ini priv : Nat) : Bool := ini < 0x40 || (0x40 ≤ ini && ini < 0x48 && priv == 0)

/-- The physical bank that a window access reaches (09 R476, R478). -/
def vrdWindowBank (v : Verdict) (r b : Nat) : Nat :=
  if vrdInService v r && v.staged == some b then vrdMap v r 64 else vrdMap v r b

/-- The words of a block of `n` bytes at byte offset `off` of a window. -/
def vrdWords (off n : Nat) : List Nat := (List.range ((off % 8 + n + 7) / 8)).map (· + off / 8)

/-- Bytes of a word list, from byte `skip`, `n` of them. -/
def wordBytes (ws : List W64) (skip n : Nat) : List Byte :=
  ((ws.flatMap fun w => (List.range 8).map fun k => BitVec.ofNat 8 (w.toNat / 2 ^ (8 * k))).drop skip).take n

/-- One word of a window read (09 R1013): its bits, whether it is uncorrectable, and the state after. -/
def vrdReadWord (r : Nat) (u : Upset) (w : Nat) (s : State) : W64 × Bool × State :=
  let k := (r, vrdWindowBank s.vrd r (w / 16384), w % 16384)
  let (m, s1) := vrdRead k u s
  match m.seen with
  | .none => (m.data, false, s1)
  | .single => (m.data, false, vrdCorrected k s1)
  | .double => (m.data, true, vrdLog (w * 4) k.2.1 r 4 false s1)

/-- A window read (09 R474, R475, R1013): response, bytes, poisoned words of the answer and the state after. A request to
a table whose gate is off has no response until it times out (17 R882, 08 R405: DEDUCED, log 129). -/
def vrdWindowRead (q : WinReq) (u : Upset) (s : State) : Resp × List Byte × List Nat × State :=
  if !s.domOn 84 then (.poweredDown, [], [], s)
  else if !s.unitClocked 8 then (.timeout, [], [], s)
  else if q.off.toNat % 2 ≠ 0 ∨ q.len % 2 ≠ 0 ∨ q.len = 0 then (.size, [], [], s)
  else if vrdDenied q.ini.val q.priv.toNat then (.denied, [], [], s)
  else
    let step (a : List (W64 × Bool) × Upset × State) (w : Nat) : List (W64 × Bool) × Upset × State :=
      let (d, bad, t) := vrdReadWord q.rep.val a.2.1 w a.2.2
      (a.1 ++ [(d, bad)], .none, t)
    let (ds, _, s1) := (vrdWords q.off.toNat q.len).foldl step ([], u, s)
    let bad := (List.range ds.length).filter fun i => (ds.getD i (0, false)).2
    (if bad.isEmpty then .okay else .uncorrectable, wordBytes (ds.map (·.1)) (q.off.toNat % 8) q.len, bad, s1)

def execWindowRead (q : WinReq) (u : Upset) (s : State) : Out :=
  .next (let (r, bs, p, s1) := vrdWindowRead q u s; s1.answerBlock r bs p)

/-- The replicas and banks that a window write reaches (09 R476, R478). -/
def vrdWriteBanks (s : State) (r b : Nat) : List (Nat × Nat) :=
  if vrdInService s.vrd r && s.vrd.staged == some b then
    if s.on F.VRD_STAGE_BCAST then (vrdService s.vrd).map fun k => (k, vrdMap s.vrd k 64) else [(r, vrdMap s.vrd r 64)]
  else [(r, vrdMap s.vrd r b)]

/-- The bits of word `w` that a block write of `data` at `off` brings, as value and byte mask. -/
def mergeWord (old : W64) (off : Nat) (data : List Byte) (w : Nat) : W64 :=
  BitVec.ofNat 64 (bytesNat ((List.range 8).map fun k =>
    let a := w * 8 + k
    if off ≤ a ∧ a < off + data.length then data.getD (a - off) 0 else BitVec.ofNat 8 (old.toNat / 2 ^ (8 * k))))

/-- The block covers the whole word. -/
def wholeWord (off n w : Nat) : Bool := off ≤ w * 8 && w * 8 + 8 ≤ off + n

/-- A window write (09 R474 to R479, R485, R492): response and the state after. A word that must be merged and cannot be read
stops the write before anything is written. -/
def vrdWindowWrite (q : WinReq) (u : Upset) (s : State) : Resp × State :=
  let r := q.rep.val
  let off := q.off.toNat
  let n := q.data.length
  let b := off / 131072
  let live := vrdInService s.vrd r
  let mine := live && s.vrd.staged == some b
  if !s.domOn 84 then (.poweredDown, s)
  else if !s.unitClocked 8 then (.timeout, s)
  else if off % 2 ≠ 0 ∨ n % 2 ≠ 0 ∨ n = 0 then (.size, s)
  else if vrdDenied q.ini.val q.priv.toNat then (.denied, s)
  else if live && !mine && (List.range 8).any fun p => s.on F.VRD_PORT_CTRL_EN p then (.denied, s)
  else if mine && s.vrd.job != .idle then (.denied, s)
  else if mine && s.vrd.swap.isSome then (.denied, s.raise F.VRD_ERR_LATE_WRITE)
  else
    let words := vrdWords off n
    let places := (vrdWriteBanks s r b).flatMap fun kb => words.map fun w => ((kb.1, kb.2, w % 16384), w)
    let part := places.filter fun p => !wholeWord off n p.2
    let look (a : Option (VrdPlace × Nat) × Upset × State) (p : VrdPlace × Nat) :=
      let (m, t) := vrdRead p.1 a.2.1 a.2.2
      (if a.1.isNone && m.seen == .double then some p else a.1, Upset.none, t)
    let (bad, _, s1) := part.foldl look (none, u, s)
    match bad with
    | some (k, w) => (.uncorrectable, vrdLog (w * 4) k.2.1 k.1 2 false s1)
    | none => (.okay, s1.each places fun t p =>
        if wholeWord off n p.2 then vrdStore p.1 (mergeWord 0 off q.data p.2) t
        else let (old, t1) := vrdStored p.1 t; vrdStore p.1 (mergeWord old off q.data p.2) t1)

def execWindowWrite (q : WinReq) (u : Upset) (s : State) : Out :=
  .next (let (r, s1) := vrdWindowWrite q u s; s1.answer r)

/-! Staging and swap (09 R478 to R487) -/

/-- The contents of the spares of the in-service replicas become undefined. -/
def vrdSparesUndef (s : State) : State :=
  let l := (vrdService s.vrd).map fun r => (r, vrdMap s.vrd r 64)
  let gone (k : VrdPlace) : Bool := l.contains (k.1, k.2.1)
  s.setVrd fun v => { v with
    words := v.words.filter (fun e => !gone e.1), flaws := v.flaws.filter (fun e => !gone e.1),
    back := v.back.filter (fun k => !gone k), undef := v.undef.filter (fun e => !l.contains e) ++ l }

/-- Ends the staging without a swap (09 R486). -/
def vrdDisarm (s : State) : State :=
  let s1 := s.when (s.vrd.job != .idle) vrdSparesUndef
  s1.setVrd fun v => { v with staged := none, job := .idle }

/-- Stages the bank that VRD_STAGE names (09 R478, R479, R481). -/
def vrdArm (w : Nat) (s : State) : State :=
  if s.vrd.staged.isSome || s.vrd.job != .idle then vrdRefuse s
  else s.setVrd fun v => { v with staged := some (w % 64), job := if bit w 9 then .copy else .idle }

/-- A write of VRD_STAGE (09 R478, R481, R486): DISARM acts first, and when it is refused the ARM is refused too. -/
def vrdStageWrite (w : Nat) (s : State) : State :=
  let s1 := s.wrCodes R.VRD_STAGE 0 (BitVec.ofNat 64 w) false
  if !bit w 8 && !bit w 11 then s1
  else vrdAct (fun t =>
    if bit w 11 && t.vrd.swap.isSome then vrdRefuse t
    else (t.when (bit w 11) vrdDisarm).when (bit w 8) (vrdArm w)) s1

def execArm (w : W32) (s : State) : Out := .next (vrdStageWrite w.toNat s)
def execDisarm (w : W32) (s : State) : Out := .next (vrdStageWrite w.toNat s)

/-- Copies one replica's live bank to its spare: the flaws that stay uncorrectable are kept (09 R479). -/
def vrdCopyReplica (b : Nat) (s : State) (r : Nat) : State :=
  let src := vrdMap s.vrd r b
  let dst := vrdMap s.vrd r 64
  let singles := (s.vrd.flaws.filter fun e => e.1.1 == r && e.1.2.1 == src && e.2 == Flaw.single).map (·.1.2.2)
  let doubles := (s.vrd.flaws.filter fun e => e.1.1 == r && e.1.2.1 == src && e.2 == Flaw.double).map (·.1.2.2)
  let mine (k : VrdPlace) : Bool := k.1 == r && k.2.1 == dst
  let s1 := s.setVrd fun v => { v with
    words := v.words.filter (fun e => !mine e.1)
      ++ (v.words.filter fun e => e.1.1 == r && e.1.2.1 == src).map (fun e => ((r, dst, e.1.2.2), e.2)),
    flaws := v.flaws.filter (fun e => !mine e.1) ++ doubles.map (fun w => ((r, dst, w), Flaw.double)),
    back := v.back.filter (fun k => !mine k),
    undef := v.undef.filter (· != (r, dst)) ++ (if v.undef.contains (r, src) then [(r, dst)] else []) }
  let s2 := s1.each singles fun t w => vrdCorrected (r, src, w) t
  s2.each doubles fun t w => vrdLog (b * 65536 + w * 4) src r 3 true (t.raise F.VRD_ERR_UE_LASTING)

/-- The copy's read of a live word that an upset meets: one whose second read is clean is transient (09 R479). -/
def vrdCopyMeets (b : Nat) (s : State) (g : Fin 4 × Fin 16384 × Upset) : State :=
  let r := g.1.val
  let phys := vrdMap s.vrd r b
  let (m, s1) := vrdRead (r, phys, g.2.1.val) g.2.2 s
  if m.seen = .double ∧ m.flaw ≠ .double then
    vrdLog (b * 65536 + g.2.1.val * 4) phys r 3 false ((s1.bumpHold F.VRD_ECC_CNT_TRANSIENT).raise F.VRD_ERR_UE_TRANSIENT)
  else s1

/-- The copy of the live bank into the spares completes (09 R479); `upsets` lists the words of in-service replicas that an upset
met at the copy's read. -/
def execBankCopyDone (upsets : List (Fin 4 × Fin 16384 × Upset)) (s : State) : Out :=
  .next <| match s.vrd.staged, s.vrd.job with
    | some b, .copy =>
      let s1 := s.each (upsets.filter fun g => vrdInService s.vrd g.1.val) (vrdCopyMeets b)
      (s1.each (vrdService s.vrd) (vrdCopyReplica b)).setVrd fun v => { v with job := .idle }
    | _, _ => s

/-- GO of the loader engine (09 R480, R481). -/
def vrdLoaderGo (s : State) : State :=
  vrdAct (fun t =>
    if t.vrd.staged.isNone || t.vrd.job != .idle then vrdRefuse t
    else t.setVrd fun v => { v with job := .load }) s

def execLoaderGo (s : State) : Out := .next (vrdLoaderGo s)

/-- The loader engine has read `ws`: they stand in the spares of every in-service replica (09 R480). -/
def vrdLoaded (ws : List W64) (s : State) : State :=
  let s1 := s.each (vrdService s.vrd) fun t r =>
    t.each (List.range ws.length) fun t' w => vrdStore (r, vrdMap s.vrd r 64, w) (ws.getD w 0) t'
  s1.setVrd fun v => { v with
    job := .idle, undef := v.undef.filter fun e => !(vrdInService v e.1 && vrdMap v e.1 64 == e.2) }

/-- A source read error stops the engine; what it had written by then is not stated (09 R480). -/
def execLoadErr (s : State) : Out :=
  .next <| if s.vrd.job = .load then
      ((vrdSparesUndef s).setVrd fun v => { v with job := .idle }).raise F.VRD_ERR_LOAD_ERR
    else s

/-- A write of VRD_SWAP (09 R482). -/
def vrdSwapWrite (w : Nat) (s : State) : State :=
  let s1 := s.put F.VRD_SWAP_AT_CN 0 (w / 2)
  if !bit w 0 then s1
  else vrdAct (fun t =>
    if t.vrd.staged.isSome && t.vrd.job == .idle && t.vrd.swap.isNone then
      t.setVrd fun v => { v with swap := some (if bit w 1 then some (t.rd R.VRD_SWAP_CN) else none) }
    else vrdRefuse t) s1

def execSwapGo (w : W32) (s : State) : Out := .next (vrdSwapWrite w.toNat s)

/-- One replica's map after the swap (09 R483). -/
def vrdSwapMap (b : Nat) (v : Verdict) (r : Nat) : Verdict :=
  { v with maps := (v.maps.set (r, b) (vrdMap v r 64)).set (r, 64) (vrdMap v r b) }

/-- The pending swap takes place at a boundary (09 R482, R483). -/
def execSwap (s : State) : Out :=
  .next <| match s.vrd.staged, s.vrd.swap with
    | some b, some at_ =>
      let cn := s.rd R.TMG_CN
      let due := match at_ with | none => true | some c => decide (c.toNat ≤ cn.toNat)
      if !due || !s.boundariesRun then s
      else
        let late := match at_ with | none => false | some c => c != cn
        let s1 := s.setVrd fun v =>
          let v1 := (vrdService v).foldl (vrdSwapMap b) v
          { v1 with swaps := v.swaps.set b (v.swaps.get 0 b + 1), staged := none, swap := none }
        ((s1.wr R.VRD_SWAP_DONE_CN 0 cn).raise F.VRD_ERR_SWAP_DONE).when late (·.raise F.VRD_ERR_SWAP_LATE)
    | _, _ => s

/-! Patrol (09 R491) -/

/-- The logical address of a word of a physical bank: that of the logical bank mapped to it, of the staged bank for the spare,
and none stated for an unstaged spare. -/
def vrdLogical (r phys w : Nat) (s : State) : Nat × State :=
  match (List.range 64).find? fun b => vrdMap s.vrd r b == phys with
  | some b => (b * 65536 + w * 4, s)
  | none => match s.vrd.staged with
    | some b => (b * 65536 + w * 4, s)
    | none => (Config.freeNat s.free % 64 * 65536 + w * 4, s.fresh)

/-- A replica's patrol reads its next word (09 R491). -/
def execPatrolRead (rep : Fin 4) (u : Upset) (s : State) : Out :=
  .next <|
    if !s.vrdReady || !s.on F.VRD_CTRL_PATROL then s
    else
      let r := rep.val
      let n := s.vrd.patrol.get 0 r
      let k := (r, n / 16384, n % 16384)
      let (addr, s1) := vrdLogical r k.2.1 k.2.2 s
      let (_, s2) := vrdProtectedRead k addr 1 u s1
      s2.setVrd fun v => { v with patrol := v.patrol.set r ((n + 1) % (65 * 16384)) }

/-! Registers (09 R493) -/

/-- VRD registers that are computed when read. -/
def vrdView (s : State) (r : Reg) (i : Nat) : Option Nat :=
  let v := s.vrd
  if r = R.VRD_STATUS then
    if !s.domOn 84 then some 0
    else
      let live := (List.range 8).map fun p => bit (v.ctrl.get 0 p) 0 && (vrdServes v p).isSome
      some (packBits ([s.on F.VRD_STATUS_INIT_DONE] ++ (List.range 4).map (vrdInService v) ++ live
        ++ [v.job != .idle, v.staged.isSome, v.swap.isSome]))
  else if r = R.VRD_MAP then some (if s.domOn 84 then vrdMap v (i / 65) (i % 65) else 0)
  else if r = R.VRD_PORT_LOOKUPS ∧ !s.domOn 84 then some 0
  else if r = R.VRD_RBIST ∧ !s.domOn 84 then some (withField (s.rd r i).toNat F.VRD_RBIST_DONE 0)
  else none

/-- The fields of a composer are acceptable (09 R464). -/
def vrdFieldsOk (w : Nat) : Bool :=
  let ws := (List.range 4).map fun f => (bits w (16 * f) 6, bits w (16 * f + 8) 5)
  (ws.map (·.2)).sum ≤ 22 && ws.all fun f => f.2 == 0 || f.1 + f.2 ≤ 64

/-- VRD registers whose write is more than its access codes. -/
def vrdWrite (s : State) (r : Reg) (w : Nat) : Option State :=
  if r = R.VRD_STAGE then some (vrdStageWrite w s)
  else if r = R.VRD_SWAP then some (vrdSwapWrite w s)
  else if r = R.VRD_RETIRE then some (vrdRetireWrite w s)
  else if r = R.VRD_RBIST then some (vrdRbistWrite w s)
  else if r = R.VRD_LDR_CTRL then some (if bit w 0 then vrdLoaderGo s else s)
  else if r = R.VRD_PORT_FIELDS ∧ !vrdFieldsOk w then some (vrdRefuse s)
  else none

/-- PD84 loses its state (01 R55). -/
def vrdPowerOff (s : State) : State :=
  ({ s with vrd := {} }.clear F.VRD_STATUS_INIT_DONE).each (List.range 8) fun t p => t.clear F.VRD_PORT_LOOKUPS_COUNT p

end Sys2Proof.Machine
end

