-- ==== Sys2Proof/Machine/Memory.lean ====
section
/-! DEFINITION. Physical memory as one canonical list of cells, and the scratchpad banks (01 R35, 15). -/

namespace Sys2Proof.Machine

/-! Cells -/

/-- The byte listed for an address. -/
def cellFind : List Host.Cell → Nat → Option Byte
  | [], _ => none
  | c :: t, a => if c.1 = a then some c.2 else cellFind t a

/-- The list with one address set, in its place in the rising order. -/
def cellPut : List Host.Cell → Nat → Byte → List Host.Cell
  | [], a, v => [(a, v)]
  | c :: t, a, v => if a < c.1 then (a, v) :: c :: t else if c.1 = a then (a, v) :: t else c :: cellPut t a v

/-- The list without one address. -/
def cellDrop (l : List Host.Cell) (a : Nat) : List Host.Cell := l.filter fun c => c.1 != a

/-- The list without the addresses from `lo` to below `hi`. -/
def cellClear (l : List Host.Cell) (lo hi : Nat) : List Host.Cell := l.filter fun c => c.1 < lo || hi ≤ c.1

/-- Addresses rise strictly, from above `lo`. -/
def cellsRise : Nat → List Host.Cell → Bool
  | _, [] => true
  | lo, c :: t => decide (lo ≤ c.1) && cellsRise (c.1 + 1) t

/-- The canonical form: strictly rising addresses, and no entry equal to what its address reads as when unlisted. -/
def Memory.wf (dflt : Nat → Option Byte) (l : List Host.Cell) : Bool :=
  cellsRise 0 l && l.all fun c => dflt c.1 != some c.2

def dramBase : Nat := 0x100000000000
def spdBase : Nat := 0x000100000000

/-- The DDR5 channel whose window holds an address (01 R35). -/
def chanOf (a : Nat) : Nat := a / 2 ^ 36 - 256

/-- What an unlisted address reads as: 0 in a zero-filled channel, no value elsewhere (16 R840, 15 R815). -/
def memDefault (filled : List Nat) (a : Nat) : Option Byte :=
  if dramBase ≤ a && filled.contains (chanOf a) then some 0 else none

/-- A byte of memory; none where nothing defined it. -/
def State.peek (s : State) (a : Nat) : Option Byte :=
  match cellFind s.mem a with
  | some b => some b
  | none => memDefault s.filled a

/-- Stores a byte. -/
def State.poke (s : State) (a : Nat) (b : Byte) : State :=
  { s with mem := if memDefault s.filled a = some b then cellDrop s.mem a else cellPut s.mem a b }

/-- Stores bytes at rising addresses. -/
def State.pokes : State → Nat → List Byte → State
  | s, _, [] => s
  | s, a, b :: t => (s.poke a b).pokes (a + 1) t

/-- The bytes of a range, where all are defined. -/
def State.peeks (s : State) (a : Nat) : Nat → Option (List Byte)
  | 0 => some []
  | n + 1 => match s.peek a, s.peeks (a + 1) n with
    | some b, some t => some (b :: t)
    | _, _ => none

/-- Free bytes. -/
def State.freeBytes (s : State) (n : Nat) : List Byte × State :=
  ((List.range n).map fun k => (Config.freeWord (s.free + k)).setWidth 8, { s with free := s.free + n })

/-- The bytes of a range, undefined ones free. -/
def State.reads (s : State) (a n : Nat) : List Byte × State :=
  ((List.range n).map fun k => (s.peek (a + k)).getD ((Config.freeWord (s.free + k)).setWidth 8),
   { s with free := s.free + n })

/-- Makes the bytes of a range undefined. -/
def State.forget (s : State) (lo hi : Nat) : State := { s with mem := cellClear s.mem lo hi }

/-- The memory is in canonical form. -/
def State.memWf (s : State) : Bool := Memory.wf (memDefault s.filled) s.mem

/-- The response code of a number, for accesses that may return any response (15 R815, 16 R841). -/
def respOf (n : Nat) : Resp :=
  match n % 13 with
  | 0 => .okay | 1 => .unmapped | 2 => .size | 3 => .denied | 4 => .poweredDown | 5 => .fenced | 6 => .offline
  | 7 => .notOwner | 8 => .busy | 9 => .uncorrectable | 10 => .integrity | 11 => .timeout | _ => .link

/-- Clears the reservations that a write of `n` bytes by `ini` takes from the other cores (14 R751). -/
def clearResv (ini a n : Nat) (s : State) : State :=
  { s with resv := s.resv.filter fun e => e.1 + 0x40 == ini || decide (e.2 < a / 64) || decide ((a + n - 1) / 64 < e.2) }

/-! Scratchpad banks (15) -/

/-- The bank of an address in the scratchpad window. -/
def bankOf (a : Nat) : Nat := a / 2 ^ 20 % 4096

def State.bank (s : State) (n : Nat) : Bank := s.banks.get {} n
def State.setBank (s : State) (n : Nat) (b : Bank) : State := { s with banks := s.banks.set n b }

/-- The owner code of an initiator (15 R798); none for one that can own no bank. -/
def ownerCode (ini : Nat) : Option Nat :=
  if ini < 0x40 then some (5 + ini * 256)
  else if ini < 0x48 then some (1 + (ini - 0x40) * 256)
  else if ini = 0x48 then some 2
  else if ini = 0x4B then some 3
  else if ini = 0x4D then some 6
  else if 0x50 ≤ ini ∧ ini < 0x70 then some (4 + (ini - 0x50) * 256)
  else none

/-- The initiator owns the bank and no handover is under way (15 R799, R802). -/
def State.owns (s : State) (ini bank : Nat) : Bool :=
  !s.on F.SPD_HANDOVER_PENDING bank && ownerCode ini == some (s.get F.SPD_OWN_OWNER bank)

/-- The checks of a request to a bank, in the order of 08 R394: the error, with the state that a refused owner leaves. A
group whose gate is off gives no response (17 R882: DEDUCED, log 129). -/
@[irreducible] def spdCheck (ini a n : Nat) (s : State) : Option Resp × State :=
  let b := bankOf a
  if a < spdBase ∨ spdBase + 32 * 2 ^ 20 ≤ a then (some .unmapped, s)
  else if !s.domOn (86 + b / 8) then (some .poweredDown, s)
  else if !s.unitClocked (10 + b / 8) then (some .timeout, s)
  else if (n ≤ 8 ∧ 64 < a % 64 + n) ∨ (8 < n ∧ (a % 8 ≠ 0 ∨ n % 8 ≠ 0)) then (some .size, s)
  else if !s.owns ini b then (some .notOwner, logFirst R.SPD_OWNER_LOG a ini (s.raise F.SPD_ERR_NOT_OWNER))
  else (none, s)

/-- The stored error of a word. -/
def State.setWordFlaw (s : State) (w : Nat) (f : Flaw) : State :=
  { s with wordFlaw := if f = Flaw.none then s.wordFlaw.erase w else s.wordFlaw.set w f }

/-- Reads a stored word of `w` = address / 8: its bytes, the error seen, and a response drawn for an undefined word
(15 R812 to R815). The stored bits of an uncorrectable word are open once, when it is struck, and stay (R814). -/
def spdWord (w : Nat) (u : Upset) (s : State) : List Byte × Flaw × Option Resp × State :=
  match (s.bank (bankOf (w * 8))).merge.find? fun e => e.word == w with
  | some e => (natBytes e.data.toNat 8, Flaw.none, none, s)
  | none =>
    match s.peeks (w * 8) 8 with
    | some bs =>
      let (fs, t) := s.freeBytes 8
      let m := meet bs (s.wordFlaw.get .none w) u fs
      let s1 := if m.fresh then t else s
      let s2 := if m.word = bs then s1 else s1.pokes (w * 8) m.word
      (m.data, m.seen, none, s2.setWordFlaw w m.flaw)
    | none =>
      let (bs, s2) := (s.setWordFlaw w (strike (s.wordFlaw.get .none w) u).1).reads (w * 8) 8
      let r := respOf (Config.freeNat s2.free)
      (bs, if r = Resp.uncorrectable then Flaw.double else Flaw.none, some r, s2.fresh)

/-- A corrected error of a bank is counted (15 R809, R813). -/
def spdCorrected (b : Nat) (s : State) : State := (s.bumpHold F.SPD_ECC_CORRECTED b).raise F.SPD_ERR_CORRECTED

/-- The words that a range touches. -/
def wordsOf (a n : Nat) : List Nat := (List.range ((a % 8 + n + 7) / 8)).map (· + a / 8)

/-- One word of a read, with its consequences (15 R813, R814). -/
def spdReadStep (ini a b : Nat) (acc : List Byte × List Bool × Option Resp × Upset × State) (w : Nat) :
    List Byte × List Bool × Option Resp × Upset × State :=
  let (bs, bad, any, u, s) := acc
  let (d, seen, r, s1) := spdWord w u s
  let s2 := match seen with
    | .none => s1
    | .single =>
      let k := s1.bank b
      spdCorrected b (s1.setBank b { k with back := k.back.filter (· != w) ++ [w] })
    | .double => logFirst R.SPD_UE_LOG a ini ((s1.bumpHold F.SPD_ECC_UE b).raise F.SPD_ERR_UE)
  (bs ++ d, bad ++ [seen == .double], any.orElse (fun _ => r), .none, s2)

/-- A read of a scratchpad bank (15 R805 to R807, R812 to R817). -/
def spdRead (ini a n : Nat) (env : Env) (s : State) : MemAns × State :=
  match spdCheck ini a n s with
  | (some r, s1) => (⟨r, [], []⟩, s1)
  | (none, s1) =>
    let (bs, bad, any, _, s2) := (wordsOf a n).foldl (spdReadStep ini a (bankOf a)) ([], [], none, env.upset, s1)
    let data := (bs.drop (a % 8)).take n
    let poison := (List.range bad.length).filter fun i => bad.getD i false
    if env.busy && !(0x40 ≤ ini && ini ≤ 0x48) then
      let (fs, s3) := s2.freeBytes n
      (⟨.busy, fs, poison⟩, s3)
    else if !poison.isEmpty then (⟨.uncorrectable, data, poison⟩, s2)
    else match any with
      | some r => (⟨r, if hasData r then data else [], []⟩, s2)
      | none => (⟨.okay, data, []⟩, s2)

/-- Writes a whole word with new check bits (15 R808); a pending write-back and a merge entry of it are gone. -/
def spdStore (w : Nat) (bs : List Byte) (s : State) : State :=
  let b := bankOf (w * 8)
  let k := s.bank b
  let s1 := s.setBank b { merge := k.merge.filter (fun e => e.word != w), back := k.back.filter (· != w) }
  State.pokes { s1 with wordFlaw := s1.wordFlaw.erase w } (w * 8) bs

/-- Writes a merge entry to its bank (15 R811). -/
def spdFlush (e : MergeEntry) (s : State) : State := spdStore e.word (natBytes e.data.toNat 8) s

/-- The word with the bytes of a write merged, and the mask of those bytes. -/
def mergeBytes (old : List Byte) (a : Nat) (data : List Byte) (w : Nat) : List Byte × Nat :=
  let hit (k : Nat) : Bool := a ≤ w * 8 + k && w * 8 + k < a + data.length
  ((List.range 8).map fun k => if hit k then data.getD (w * 8 + k - a) 0 else old.getD k 0,
   packBits ((List.range 8).map hit))

/-- The allocation read of a word that the merge buffer does not hold (15 R809, R810): the corrected bytes, or none when it is
uncorrectable. -/
def spdAlloc (ini a b w : Nat) (u : Upset) (s : State) : Option (List Byte) × State :=
  let (d, seen, _, s1) := spdWord w u s
  match seen with
  | .none => (some d, s1)
  | .single => (some d, spdCorrected b s1)
  | .double => (none, logFirst R.SPD_UE_LOG a ini (s1.raise F.SPD_ERR_UE))

/-- Merges a partial write into its word's entry, allocated with `old` when the buffer does not hold the word; a full buffer
writes its oldest entry first, and an entry all of whose bytes are written goes to the bank (15 R809, R811). -/
def spdMerge (w a : Nat) (data : List Byte) (old : List Byte) (s : State) : State :=
  let b := bankOf (w * 8)
  let k := s.bank b
  match k.merge.find? fun e => e.word == w with
  | some e =>
    let (bs, m) := mergeBytes (natBytes e.data.toNat 8) a data w
    let e' : MergeEntry := ⟨w, BitVec.ofNat 64 (bytesNat bs), e.mask ||| m⟩
    if e'.mask = 255 then spdFlush e' s
    else s.setBank b { k with merge := k.merge.map fun x => if x.word == w then e' else x }
  | none =>
    let (bs, m) := mergeBytes old a data w
    let s1 := match k.merge with
      | e :: _ => if 8 ≤ k.merge.length then spdFlush e s else s
      | [] => s
    let k1 := s1.bank b
    s1.setBank b { merge := k1.merge ++ [⟨w, BitVec.ofNat 64 (bytesNat bs), m⟩], back := k1.back.filter (· != w) }

/-- A write to a scratchpad bank (15 R805 to R812). When an allocation fails nothing is written. -/
def spdWrite (ini a : Nat) (data : List Byte) (env : Env) (s : State) : Resp × State :=
  let n := data.length
  match spdCheck ini a n s with
  | (some r, s1) => (r, s1)
  | (none, s1) =>
    let b := bankOf a
    let part := (wordsOf a n).filter fun w => !(a ≤ w * 8 && w * 8 + 8 ≤ a + n)
    let alloc (acc : List (Nat × List Byte) × Bool × Upset × State) (w : Nat) :=
      if (acc.2.2.2.bank b).merge.any fun e => e.word == w then acc
      else
        match spdAlloc ini a b w acc.2.2.1 acc.2.2.2 with
        | (some d, t) => (acc.1 ++ [(w, d)], acc.2.1, Upset.none, t)
        | (none, t) => (acc.1, true, Upset.none, t)
    let (olds, failed, _, s2) := part.foldl alloc ([], false, env.upset, s1)
    if failed then (.uncorrectable, s2)
    else
      let s3 := s2.each (wordsOf a n) fun t w =>
        if part.contains w then spdMerge w a data (Tbl.get olds [] w) t
        else spdStore w (mergeBytes [] a data w).1 t
      (.okay, clearResv ini a n s3)

/-- Counts and logs the response of an access that an engine made (08 R405, R413, R414). -/
def noteEnd (ini a : Nat) (posted : Bool) (r : Resp) (s : State) : State :=
  if r = .okay then s
  else if posted then (if r = .timeout then s else nocLog ini a r true (s.raise F.NOC_ERR_POSTED_ERR))
  else if r = .timeout then nocTimeout ini a s
  else nocLog ini a r false s

def execScratchpadRead (q : SandReq) (env : Env) (s : State) : Out :=
  .next (let (m, s1) := spdRead q.ini.val q.addr.toNat (reqBytes q) env s; s1.answerMem m)

/-- A bank serves a write; a posted one gets no response, and its error is flagged and logged (08 R405, R414). -/
def execScratchpadWrite (q : SandReq) (env : Env) (s : State) : Out :=
  .next (let (r, s1) := spdWrite q.ini.val q.addr.toNat q.data env s
         if q.op = .writeP then noteEnd q.ini.val q.addr.toNat true r s1 else s1.answer r)

/-- A merge-buffer entry is written to the bank (15 R811). -/
def execMergeEntryWrite (bank : BankId) (entry : Fin 8) (s : State) : Out :=
  .next <| match (s.bank bank.val).merge[entry.val]? with
    | some e => if s.unitClocked (10 + bank.val / 8) then spdFlush e s else s
    | none => s

/-- A corrected word is written back (15 R813). -/
def execScratchpadWriteBack (bank : BankId) (s : State) : Out :=
  .next <| match (s.bank bank.val).back with
    | w :: t =>
      if s.unitClocked (10 + bank.val / 8) then
        { s.setBank bank.val { s.bank bank.val with back := t } with wordFlaw := s.wordFlaw.erase w }
      else s
    | [] => s

/-! Ownership (15 R798 to R804) -/

/-- The owner code is one that R798 gives. -/
def ownerOk (code : Nat) : Bool :=
  let i := bits code 8 6
  bits code 4 4 == 0 && match bits code 0 4 with
    | 0 | 2 | 3 | 6 => i == 0
    | 1 => i < 8
    | 4 => i < 32
    | 5 => true
    | _ => false

/-- A write to SPD_HANDOVER (15 R801). -/
def spdHandoverWrite (b w : Nat) (s : State) : State :=
  if !s.domOn (86 + b / 8) then s.answer .poweredDown
  else if s.on F.SPD_HANDOVER_PENDING b || !ownerOk (w % 2 ^ 14) then s.raise F.SPD_ERR_CFG_REFUSED
  else (s.put F.SPD_HANDOVER_NEXT b w).raise F.SPD_HANDOVER_PENDING b

def execSpdHandover (bank : BankId) (w : W32) (s : State) : Out := .next (spdHandoverWrite bank.val w.toNat s)

/-- Every entry of a bank's merge buffer is written. -/
def spdDrain (b : Nat) (s : State) : State := s.each (s.bank b).merge fun t e => spdFlush e t

/-- The handover completes: the merge buffer has drained, the reservations in the bank are cleared, and NEXT owns it (15 R803). -/
def spdHandoverDone (b : Nat) (s : State) : State :=
  let lo := (spdBase + b * 2 ^ 20) / 64
  let s1 := spdDrain b s
  let s2 := { s1 with resv := s1.resv.filter fun e => decide (e.2 < lo) || decide (lo + 2 ^ 14 ≤ e.2) }
  ((s2.put F.SPD_OWN_OWNER b (s.get F.SPD_HANDOVER_NEXT b)).clear F.SPD_HANDOVER_PENDING b).raise F.SPD_ERR_HANDOVER_DONE

def execHandoverDone (bank : BankId) (s : State) : Out :=
  .next (if s.on F.SPD_HANDOVER_PENDING bank.val && s.unitClocked (10 + bank.val / 8) then spdHandoverDone bank.val s else s)

/-- A bank that is not retained loses its contents with its domain (15 R820, R804). -/
def spdLose (b : Nat) (s : State) : State :=
  let lo := spdBase + b * 2 ^ 20
  let s1 := (s.forget lo (lo + 2 ^ 20)).setBank b {}
  { s1 with wordFlaw := s1.wordFlaw.filter fun e => bankOf (e.1 * 8) != b || e.1 * 8 < spdBase }

/-- SPD registers whose write is more than its access codes. -/
def spdRegWrite (s : State) (r : Reg) (i w : Nat) : Option State :=
  if r = R.SPD_HANDOVER then some (spdHandoverWrite i w s) else none

end Sys2Proof.Machine
end

