-- ==== Sys2Proof/Machine/Dram.lean ====
section
/-! DEFINITION. The DDR5 channels and the memory encryption engine (16). -/

namespace Sys2Proof.Machine

def State.chan (s : State) (c : Nat) : Chan := s.chans.get {} c
def State.setChan (s : State) (c : Nat) (x : Chan) : State := { s with chans := s.chans.set c x }

/-- The states of a channel (16, DMC_STATUS). -/
def dmcOff : Nat := 0
def dmcTraining : Nat := 1
def dmcFilling : Nat := 2
def dmcReady : Nat := 3
def dmcFreq : Nat := 4
def dmcRetrain : Nat := 5
def dmcRetired : Nat := 6
def dmcFailed : Nat := 7

def State.chanState (s : State) (c : Nat) : Nat := s.get F.DMC_STATUS_STATE c
def dmcRefuse (c : Nat) (s : State) : State := s.raise F.DMC_ERR_CFG_REFUSED c

/-! Regions and keys (16 R851 to R855) -/

/-- The enabled regions, lowest first: first byte, last byte, key. -/
def State.regions (s : State) : List (Nat × Nat × Option MemKey) :=
  ((List.range 8).filter fun r => s.on F.MEE_RGN_CTRL_EN r).map fun r =>
    (s.get F.MEE_RGN_BASE_ADDR r * 4096, s.get F.MEE_RGN_LIMIT_ADDR r * 4096 + 4095, s.memKeys.find r)

/-- The key of a line: none for plaintext, that of the lowest region that covers it otherwise (16 R851, R852). -/
def State.lineKey (s : State) (a : Nat) : Option (Option MemKey) :=
  (s.regions.find? fun r => decide (r.1 ≤ a) && decide (a ≤ r.2.1)).map fun r => r.2.2

/-- The key under which a defined line was written: as recorded, or as the regions stood at the zero fill (16 R840). -/
def State.sealOf (s : State) (a : Nat) : Option MemKey :=
  match s.seals.find (a / 64) with
  | some k => k
  | none => ((s.chan (chanOf a)).fill.find? fun r => decide (r.1 ≤ a) && decide (a ≤ r.2.1)).map fun r => r.2.2

/-- The tag of a defined line verifies under the regions and keys in force (16 R850, R854, R855). -/
def State.tagOk (s : State) (a : Nat) : Bool :=
  match s.lineKey a with
  | none => (s.sealOf a).isNone
  | some none => false
  | some (some k) => s.sealOf a == some k

/-! Retirement (16 R861, 10 R537) -/

/-- Body ranges of a context that have been written: offset and length. -/
def ctxWritten (x : Ctx) : List (Nat × Nat) :=
  if x.packed then
    let lo := (x.count + 31) / 32 * 8
    if x.tailDone then [(0, lo + x.slots.sum)]
    else x.codes.map fun e => (lo + (x.slots.take (e.1 - x.first)).sum, x.slots.getD (e.1 - x.first) 0)
  else [(0, x.body)]

/-- The Ledger's side of a channel's retirement (10 R537): the pool leaves service, and the bytes in its pages are lost. -/
def ldgPoolRetire (c : Nat) (s : State) : State :=
  if s.get F.LDG_POOL_PAGES_COUNT c = 0 then s
  else
    let hit (x : Ctx) : Ctx :=
      let mine := (List.range x.pages.length).filter fun i => (x.pages.getD i (0, 0)).1 == c
      let gone := mine.flatMap fun i => (ctxWritten x).filterMap fun r =>
        let lo := max r.1 (i * 4096)
        let hi := min (r.1 + r.2) ((i + 1) * 4096)
        if lo < hi then some (lo, hi - lo) else none
      { x with lost := x.lost ++ gone, dataLost := x.dataLost || (!gone.isEmpty && x.state != .sending) }
    ({ s with ldg := { s.ldg with ctxs := s.ldg.ctxs.map hit } }.raise F.LDG_POOL_STATUS_RETIRED c).raise
      F.LDG_ERR_CHANNEL_RETIRED

/-- The end of a queued request: its answer, or what a posted one leaves (08 R405, R413, R414). -/
def reqAnswer (r : DramReq) (m : MemAns) (s : State) : State :=
  if r.q.op = .writeP then noteEnd r.q.ini r.q.addr.toNat true m.resp s
  else
    let s1 := s.answerMem m
    if r.noted then noteEnd r.q.ini r.q.addr.toNat false m.resp s1 else s1

/-- Every queued request of a channel receives OFFLINE (16 R861, R1012). -/
def queueOffline (c : Nat) (s : State) : State :=
  (s.setChan c { s.chan c with queue := [] }).each (s.chan c).queue fun t r => reqAnswer r ⟨.offline, [], []⟩ t

/-- Retires a channel (16 R861). -/
def chanRetire (c : Nat) (s : State) : State :=
  if s.chanState c = dmcRetired then s
  else ldgPoolRetire c (queueOffline c ((s.put F.DMC_STATUS_STATE c dmcRetired).raise F.DMC_ERR_RETIRED c))

/-- An uncorrectable line read is counted, and retires the channel at the limit (16 R849, R861, R1017). -/
def chanUe (c : Nat) (s : State) : State :=
  let s1 := ((s.bumpHold F.DMC_ECC_UE c).bumpHold F.DMC_UE_LIMIT_TOTAL c).raise F.DMC_ERR_UE c
  let lim := s.get F.DMC_UE_LIMIT_COUNT c
  if lim ≠ 0 ∧ lim ≤ s1.get F.DMC_UE_LIMIT_TOTAL c ∧ s.on F.DMC_CTRL_AUTO_RETIRE c then chanRetire c s1 else s1

/-- DMC_ERR_LOG takes a line while its VALID is 0. -/
def chanLog (c a ini kind : Nat) (s : State) : State :=
  if s.on F.DMC_ERR_LOG_VALID c then s
  else s.wr R.DMC_ERR_LOG c (BitVec.ofNat 64 (a % 2 ^ 48 + ini % 1024 * 2 ^ 48 + kind * 2 ^ 58 + 2 ^ 63))

/-- A failing tag is counted and logged (16 R850). -/
def tagFail (a ini : Nat) (s : State) : State :=
  logFirst R.MEE_LOG a ini ((s.bumpHold F.MEE_INTEG_COUNT).raise F.MEE_ERR_INTEGRITY)

/-! Lines (16 R848 to R850, R841) -/

/-- What a line read finds. -/
inductive LineRead where
  | good | ue | tag
  deriving DecidableEq, Repr

/-- Reads the line at `a` (a multiple of 64): what it finds, its bytes, and the response drawn for an undefined line. Errors are
counted; `kind0` logs an uncorrectable read. What a strike that cannot be corrected makes of the stored bits is open once. -/
def lineRead (ini a : Nat) (u : Upset) (kind0 : Bool) (s : State) : LineRead × List Byte × Option Resp × State :=
  let c := chanOf a
  let (kept, seen) := strike (s.lineFlaw.get .none (a / 64)) u
  let s1 := { s with lineFlaw := if kept = Flaw.none then s.lineFlaw.erase (a / 64) else s.lineFlaw.set (a / 64) kept }
  let ue (t : State) : State := (chanUe c t).when kind0 (chanLog c a ini 0)
  match s1.peeks a 64 with
  | none =>
    let (bs, s2) := s1.reads a 64
    let r := respOf (Config.freeNat s2.free)
    let s3 := s2.fresh
    if r = Resp.uncorrectable then (.ue, bs, none, ue s3)
    else if r = Resp.integrity then (.tag, bs, none, tagFail a ini s3)
    else (.good, bs, some r, s3)
  | some bs =>
    match seen with
    | .double =>
      let (fs, s2) := s1.freeBytes 64
      if kept ≠ .double then (.ue, fs, none, ue s2)
      else if u = .single ∨ u = .double then (.ue, fs, none, ue (s2.pokes a fs))
      else (.ue, bs, none, ue s1)
    | f =>
      let s2 := if f = Flaw.single then
          let t := (s1.bumpHold F.DMC_ECC_CORRECTED c).raise F.DMC_ERR_CORRECTED c
          { t with lineFlaw := t.lineFlaw.erase (a / 64) }
        else s1
      if s.tagOk a then (.good, bs, none, s2) else (.tag, bs, none, tagFail a ini s2)

/-- Stores a line with new redundancy bits, under the region and key in force (16 R858). -/
def lineStore (a : Nat) (bs : List Byte) (s : State) : State :=
  let key := match s.lineKey a with | some k => k | none => none
  { s with lineFlaw := s.lineFlaw.erase (a / 64), seals := s.seals.set (a / 64) key }.pokes a bs

/-- The checks of a request to a channel (01 R40, 08 R393); one whose gate is off gives no response (17 R882: DEDUCED,
log 129). -/
def dramCheck (a n : Nat) (s : State) : Option Resp :=
  let c := chanOf a
  let top := s.get F.DMC_CONFIG_CAPACITY c * 2 ^ 30
  let st := s.chanState c
  if a < dramBase ∨ 4 ≤ c ∨ top < a % 2 ^ 36 + n then some .unmapped
  else if !s.domOn (90 + c) then some .poweredDown
  else if !s.unitClocked (14 + c) then some .timeout
  else if st = dmcReady ∨ st = dmcFreq ∨ st = dmcRetrain then none
  else some .offline

/-- The lines that a range touches. -/
def linesOf (a n : Nat) : List Nat := (List.range ((a % 64 + n + 63) / 64)).map fun k => (a / 64 + k) * 64

/-- A read of a DDR5 channel (16 R849, R850). -/
def dramRead (ini a n : Nat) (env : Env) (s : State) : MemAns × State :=
  match dramCheck a n s with
  | some r => (⟨r, [], []⟩, s)
  | none =>
    let step (acc : List Byte × List LineRead × Option Resp × Upset × State) (l : Nat) :=
      let (k, bs, r, t) := lineRead ini l acc.2.2.2.1 true acc.2.2.2.2
      (acc.1 ++ bs, acc.2.1 ++ [k], acc.2.2.1.orElse (fun _ => r), Upset.none, t)
    let (bs, ks, any, _, s1) := (linesOf a n).foldl step ([], [], none, env.upset, s)
    let data := (bs.drop (a % 64)).take n
    if ks.contains .tag then (⟨.integrity, [], []⟩, s1)
    else if ks.contains .ue then
      let first := a / 8
      let poison := ((List.range ((a % 8 + n + 7) / 8)).filter fun i =>
        ks.getD ((first + i) / 8 - a / 64) .good == .ue)
      (⟨.uncorrectable, data, poison⟩, s1)
    else match any with
      | some r => (⟨r, if hasData r then data else [], []⟩, s1)
      | none => (⟨.okay, data, []⟩, s1)

/-- One line of a write (16 R858, R859, R1017): the response it gives and the state after. -/
def lineWrite (ini a : Nat) (data : List Byte) (l : Nat) (u : Upset) (s : State) : Resp × State :=
  let n := data.length
  let c := chanOf l
  let merged (old : List Byte) : List Byte := (List.range 64).map fun k =>
    if a ≤ l + k ∧ l + k < a + n then data.getD (l + k - a) 0 else old.getD k 0
  if s.chanState c = dmcRetired then (.offline, s)
  else if a ≤ l ∧ l + 64 ≤ a + n then (.okay, lineStore l (merged []) s)
  else
    let (k1, b1, _, s1) := lineRead ini l u false s
    if s1.chanState c = dmcRetired then (.offline, s1)
    else if k1 = .good then (.okay, lineStore l (merged b1) s1)
    else
      let (k2, b2, _, s2) := lineRead ini l .none false s1
      if s2.chanState c = dmcRetired then (.offline, s2)
      else match k2 with
        | .good => (.okay, lineStore l (merged b2) s2)
        | k =>
          let s3 := ((chanLog c l ini 1 s2).raise F.DMC_ERR_PARTIAL_FAIL c).raise F.MEE_ERR_PARTIAL_FAIL
          (if k = .ue then .uncorrectable else .integrity, s3)

/-! The personality cache region (13 R701, R702) -/

/-- Bytes of a cache slot. -/
def slotBytes : Nat := 5344 * 1024

/-- The address of a slot, and of frame `i` in it. -/
def State.slotBase (s : State) (n : Nat) : Nat := s.get F.PGR_CACHE_BASE_ADDR * 4096 + n * slotBytes
def State.slotFrame (s : State) (n i : Nat) : Nat := s.slotBase n + 4096 + i * 512

/-- An address in the cache region (13 R702). -/
def State.inCache (s : State) (a n : Nat) : Bool :=
  let lo := s.slotBase 0
  let hi := lo + s.get F.PGR_CACHE_SLOTS_COUNT * slotBytes
  s.on F.PGR_CTRL_EN && decide (a < hi) && decide (lo < a + n)

/-- A write that the cache region refuses: only the Pager and Saffron write it (13 R702). -/
def State.cacheDenied (s : State) (ini a n : Nat) : Bool := s.inCache a n && ini != 0x4C && ini != 0x48

/-- A write to a DDR5 channel, line by line: the lines that pass are written, and the first failure is the response
(16 R858 to R860, 13 R702). -/
def dramWrite (ini a : Nat) (data : List Byte) (env : Env) (s : State) : Resp × State :=
  let n := data.length
  match dramCheck a n s with
  | some r => (r, s)
  | none =>
    if s.cacheDenied ini a n then (.denied, s) else
    let step (acc : Resp × Upset × State) (l : Nat) :=
      let (r, t) := lineWrite ini a data l acc.2.1 acc.2.2
      (if acc.1 = Resp.okay then r else acc.1, Upset.none, t)
    let (r, _, s1) := (linesOf a n).foldl step (.okay, env.upset, s)
    (r, clearResv ini a n s1)

/-! The channel's queue (16 R833 to R836, R842, R846) -/

/-- The controller port of an initiator (16 R833). -/
def dmcPort (ini : Nat) : Nat :=
  if ini < 64 then 4
  else if ini < 0x4A then 2
  else if ini = 0x4B then 0
  else if ini = 0x4A then 1
  else if 0x50 ≤ ini ∧ ini < 0x70 then 3
  else 5

/-- The urgency of a request of age `age` at a port whose TARGET_NS is `t` (16 R834). -/
def urgencyOf (t age : Nat) (missed : Bool) : Nat :=
  if t = 0 then 0
  else if missed || t ≤ age then 3
  else if 3 * t ≤ 4 * age then 2
  else if t ≤ 2 * age then 1
  else 0

def State.urgency (s : State) (c : Nat) (r : DramReq) : Nat :=
  urgencyOf (s.get F.DMC_PORT_TARGET_NS (c * 6 + dmcPort r.q.ini)) r.age r.missed

/-- The lines of a request. -/
def reqLines (r : DramReq) : List Nat := linesOf r.q.addr.toNat (reqBytes r.q)

/-- Two requests touch one line, so that their order stands (16 R836). -/
def sameLine (a b : DramReq) : Bool := (reqLines a).any fun l => (reqLines b).contains l

/-- The place in the queue of the request issued next (16 R835, R836): of those that no older request to one of their lines holds
back, the highest urgency, then one to an open row, then the oldest. Bit i of `open_` says that the row of request i is open:
rows and when they close are the controller's, and the spec states neither. -/
def dramPick (s : State) (c open_ : Nat) (q : List DramReq) : Option Nat :=
  let free := (List.range q.length).filter fun i =>
    match q[i]? with
    | none => false
    | some r => (q.take i).all fun o => !sameLine o r
  let key (i : Nat) : Nat := match q[i]? with
    | none => 0
    | some r => s.urgency c r * 2 + ofFlag (bit open_ i)
  free.foldl (fun (best : Option Nat) i => match best with
    | none => some i
    | some j => if key j < key i then some i else some j) none

/-- Issues one request. -/
def dramServe (r : DramReq) (s : State) : State :=
  let ini := r.q.ini.val
  let a := r.q.addr.toNat
  match r.q.op with
  | .read => let (m, t) := dramRead ini a (reqBytes r.q) r.env s; reqAnswer r m t
  | _ => let (x, t) := dramWrite ini a r.q.data r.env s; reqAnswer r ⟨x, [], []⟩ t

/-- The queue is issued, request by request. -/
def dramIssue (c : Nat) : Nat → State → State
  | 0, s => s
  | f + 1, s =>
    match dramPick s c (Config.freeNat s.free) (s.chan c).queue with
    | none => s
    | some i => match (s.chan c).queue[i]? with
      | none => s
      | some r =>
        dramIssue c f (dramServe r ((s.setChan c { s.chan c with queue := (s.chan c).queue.eraseIdx i }).fresh))

/-- The ages of queued requests as the queue is released: how long each waited is open, an older one at least as long. -/
def dramAges (s : State) : Nat → List DramReq → List DramReq
  | _, [] => []
  | k, r :: t =>
    let rest := dramAges s (k + 1) t
    { r with age := Config.freeNat (s.free + k) + ((rest.head?.map (·.age)).getD 0) } :: rest

/-- The channel's queue is released (16 R842, R846). -/
def queueRelease (c : Nat) (s : State) : State :=
  let q := (s.chan c).queue
  let s1 := { s with free := s.free + q.length }
  dramIssue c q.length (s1.setChan c { s1.chan c with queue := dramAges s 0 q })

/-- The channel of an address holds its queue: a frequency change or a short retraining is under way and the request is one that
the channel accepts (01 R40). -/
def State.dramHeld (s : State) (a n : Nat) : Bool :=
  (s.chanState (chanOf a) == dmcFreq || s.chanState (chanOf a) == dmcRetrain) && (dramCheck a n s).isNone

/-- A request arrives at its channel: it waits while the queue is held, and is issued at once else. -/
def dramRequest (q : SandReq) (env : Env) (noted : Bool) (s : State) : State :=
  let r : DramReq := { q, env, noted }
  let c := chanOf q.addr.toNat
  if s.dramHeld q.addr.toNat (reqBytes q) then s.setChan c { s.chan c with queue := (s.chan c).queue ++ [r] }
  else dramServe r s

def execDramRead (q : SandReq) (env : Env) (s : State) : Out := .next (dramRequest { q with op := .read } env false s)

/-- A write row names the write, whatever the packet's operation code says of its posting. -/
def writeReq (q : SandReq) : SandReq := { q with op := if q.op = .writeP then .writeP else .write }

def execDramWrite (q : SandReq) (env : Env) (s : State) : Out := .next (dramRequest (writeReq q) env false s)
def execDramPartialWrite (q : SandReq) (env : Env) (s : State) : Out := .next (dramRequest (writeReq q) env false s)

/-! Channel control (16 R829 to R847, R861, R1012) -/

/-- The Ledger uses the channel's pool for allocation (10 LDG_POOL_STATUS.IN_SERVICE). -/
def State.poolInService (s : State) (c : Nat) : Bool :=
  s.get F.LDG_POOL_PAGES_COUNT c != 0 && !s.on F.LDG_POOL_STATUS_RETIRED c
    && (s.on F.LDG_CTRL_EN || !s.ldg.ctxs.isEmpty)

/-- The channel's contents become undefined (16 R838, R841). -/
def chanForget (c : Nat) (s : State) : State :=
  let lo := dramBase + c * 2 ^ 36
  let out (k : Nat) : Bool := decide (k < lo / 64) || decide (lo / 64 + 2 ^ 30 ≤ k)
  { (queueOffline c s).forget lo (lo + 2 ^ 36) with
    filled := s.filled.filter (· != c), lineFlaw := s.lineFlaw.filter (fun e => out e.1),
    seals := s.seals.filter (fun e => out e.1), chans := s.chans.set c {} }

/-- The channel stops: STATE is OFF and its contents undefined (16 R1012). -/
def chanStop (c : Nat) (s : State) : State :=
  ((chanForget c s).put F.DMC_STATUS_STATE c dmcOff).clear F.DMC_STATUS_B_TRAINED c

/-- A write of DMC_CTRL (16 R837, R861, R1012). -/
def dmcCtrlWrite (c w : Nat) (s : State) : State :=
  let st := s.chanState c
  let s0 := (s.put F.DMC_CTRL_INIT_FILL c (w / 2)).put F.DMC_CTRL_AUTO_RETIRE c (w / 4)
  if (bit w 0 || bit w 3) && !s.domOn (90 + c) then s.answer .poweredDown
  else
    let s1 :=
      if bit w 0 then
        if st = dmcOff then
          if !s.on F.DMC_TSET0_VALID (c * 2) then dmcRefuse c s0
          else
            let t := (chanForget c s0).put F.DMC_UE_LIMIT_TOTAL c 0
            ((t.raise F.DMC_CTRL_EN c).put F.DMC_STATUS_STATE c dmcTraining).clear F.DMC_STATUS_ACTIVE_SET c
        else s0.raise F.DMC_CTRL_EN c
      else if st = dmcOff then s0.clear F.DMC_CTRL_EN c
      else if st = dmcRetired then s0.clear F.DMC_CTRL_EN c
      else if s.poolInService c then dmcRefuse c s0
      else if st = dmcFreq ∨ st = dmcRetrain then s0.clear F.DMC_CTRL_EN c
      else chanStop c (s0.clear F.DMC_CTRL_EN c)
    s1.when (bit w 3) (chanRetire c)

def execDmcEnable (ch : ChanId) (w : W32) (s : State) : Out := .next (dmcCtrlWrite ch.val w.toNat s)
def execDmcDisable (ch : ChanId) (w : W32) (s : State) : Out := .next (dmcCtrlWrite ch.val w.toNat s)
def execChannelRetire (ch : ChanId) (w : W32) (s : State) : Out := .next (dmcCtrlWrite ch.val w.toNat s)

/-- Every lane's window is at least 0.25 UI (16 R839). -/
def trainOk (t : TrainResult) : Bool :=
  (List.range 10).all fun i => 16 ≤ (t.rd.toList.getD i 0).toNat && 16 ≤ (t.wr.toList.getD i 0).toNat

/-- The window widths and the temperature of a training (16 R838). -/
def trainRecord (c : Nat) (t : TrainResult) (s : State) : State :=
  let s1 := s.each (List.range 10) fun u i =>
    u.wr R.DMC_EYE (c * 10 + i) (BitVec.ofNat 64 ((t.rd.toList.getD i 0).toNat + (t.wr.toList.getD i 0).toNat * 256))
  (s1.put F.DMC_TEMP_AT_TRAIN c t.temp.toNat).put F.DMC_TEMP_NOW c t.temp.toNat

/-- The zero fill: every line below the capacity reads 0 under the regions and keys in force (16 R840). -/
def chanFill (c : Nat) (s : State) : State :=
  let s1 := chanForget c s
  let f := s.regions.filterMap fun r => r.2.2.map fun k => (r.1, r.2.1, k)
  ({ s1 with filled := s1.filled ++ [c] }).setChan c { fill := f }

/-- A training of initialisation ends, or the whole of it when `complete` (16 R837 to R840): set A, set B when it is valid, then
the zero fill when it is asked for. -/
def execDmcInitDone (ch : ChanId) (complete : Bool) (a b : TrainResult) (s : State) : Out :=
  .next <|
    let c := ch.val
    let st := s.chanState c
    if st = dmcTraining then
      let useB := s.on F.DMC_TSET0_VALID (c * 2 + 1)
      let s1 := trainRecord c a s
      let s2 := if useB then (trainRecord c b s1).raise F.DMC_STATUS_B_TRAINED c else s1
      if !s.supplied .vddqDmc || !trainOk a || (useB && !trainOk b) then (s2.put F.DMC_STATUS_STATE c dmcFailed).raise F.DMC_ERR_TRAIN_FAIL c
      else
        let fill := s.on F.DMC_CTRL_INIT_FILL c
        if fill && !complete then s2.put F.DMC_STATUS_STATE c dmcFilling
        else ((s2.when fill (chanFill c)).put F.DMC_STATUS_STATE c dmcReady).raise F.DMC_ERR_INIT_DONE c
    else if st = dmcFilling then ((chanFill c s).put F.DMC_STATUS_STATE c dmcReady).raise F.DMC_ERR_INIT_DONE c
    else s

/-- The capacity in GiB of a supported configuration (16 R829). -/
def dmcCapacity (density ranks : Nat) : Option Nat :=
  match density, ranks with
  | 0, 0 => some 32
  | 0, _ => some 64
  | 1, 0 => some 48
  | 2, 0 => some 64
  | _, _ => none

/-- A write of DMC_CONFIG (16 R830). -/
def dmcConfigWrite (c w : Nat) (s : State) : State :=
  match dmcCapacity (w % 4) (bits w 2 1) with
  | some g => if s.chanState c = dmcOff then
      (s.wrCodes R.DMC_CONFIG c (BitVec.ofNat 64 w) false).put F.DMC_CONFIG_CAPACITY c g
    else dmcRefuse c s
  | none => dmcRefuse c s

def execDmcConfigWrite (ch : ChanId) (w : W32) (s : State) : Out := .next (dmcConfigWrite ch.val w.toNat s)

/-- Two's complement value of a temperature. -/
def tempInt (v : Nat) : Int := (BitVec.ofNat 8 v).toInt

/-- A write of DMC_RETRAIN (16 R842, R862). -/
def dmcRetrainWrite (c w : Nat) (s : State) : State :=
  let s1 := s.wrCodes R.DMC_RETRAIN c (BitVec.ofNat 64 w) false
  if !bit w 8 then s1
  else if !s.domOn (90 + c) then s.answer .poweredDown
  else if s.chanState c = dmcRetired then dmcRefuse c s1
  else if s.chanState c = dmcReady then s1.put F.DMC_STATUS_STATE c dmcRetrain
  else s1

/-- Short retraining starts (16 R842). -/
def execShortRetrain (ch : ChanId) (cause : RetrainCause) (s : State) : Out :=
  .next <|
    let c := ch.val
    let go (t : State) : State := if t.chanState c = dmcReady then t.put F.DMC_STATUS_STATE c dmcRetrain else t
    match cause with
    | .force w => dmcRetrainWrite c w.toNat s
    | .drift n => if s.on F.DMC_RETRAIN_DRIFT_EN c && decide (s.get F.DMC_RETRAIN_DRIFT_THR c < n) then go s else s
    | .temp now =>
      let s1 := if s.domOn (90 + c) then s.put F.DMC_TEMP_NOW c now.toNat else s
      let d := tempInt now.toNat - tempInt (s.get F.DMC_TEMP_AT_TRAIN c)
      if s.on F.DMC_RETRAIN_TEMP_EN c && (decide (10 < d) || decide (d < -10)) then go s1 else s1

/-- A short retraining's end: a narrow window sets TRAIN_FAIL and may retire the channel; a stop asked for meanwhile takes place
(16 R842, R843, R1012). -/
def retrainEnd (c : Nat) (t : TrainResult) (s : State) : State :=
  let s1 := (trainRecord c t (s.put F.DMC_STATUS_STATE c dmcReady)).raise F.DMC_ERR_RETRAINED c
  let s2 := s1.when (!trainOk t) (·.raise F.DMC_ERR_TRAIN_FAIL c)
  let s3 := s2.when (!trainOk t && s.on F.DMC_CTRL_AUTO_RETIRE c) (chanRetire c)
  if !s.on F.DMC_CTRL_EN c && s3.chanState c != dmcRetired then chanStop c s3 else queueRelease c s3

def execRetrained (ch : ChanId) (t : TrainResult) (s : State) : Out :=
  .next (if s.chanState ch.val = dmcRetrain then retrainEnd ch.val t s else s)

/-- A write of DMC_FREQ (16 R845). -/
def dmcFreqWrite (c w : Nat) (s : State) : State :=
  let s1 := s.put F.DMC_FREQ_TARGET c w
  if !bit w 1 then s1
  else if !s.domOn (90 + c) then s.answer .poweredDown
  else if s.chanState c ≠ dmcReady ∨ w % 2 = s.get F.DMC_STATUS_ACTIVE_SET c
      ∨ (w % 2 = 1 ∧ !s.on F.DMC_STATUS_B_TRAINED c) then dmcRefuse c s1
  else (s1.setChan c { s1.chan c with target := w % 2 }).put F.DMC_STATUS_STATE c dmcFreq

def execFreqGo (ch : ChanId) (w : W32) (s : State) : Out := .next (dmcFreqWrite ch.val w.toNat s)

/-- The frequency change completes, its short retraining included (16 R846). -/
def execFreqDone (ch : ChanId) (t : TrainResult) (s : State) : Out :=
  .next <|
    let c := ch.val
    if s.chanState c ≠ dmcFreq then s
    else retrainEnd c t ((s.put F.DMC_STATUS_ACTIVE_SET c (s.chan c).target).raise F.DMC_ERR_FREQ_DONE c)

/-- A refresh falls due: it is issued with those postponed, or postponed while a request is at urgency 3, up to four in a row
(16 R832). -/
def execRefresh (ch : ChanId) (urgent : Bool) (s : State) : Out :=
  .next <|
    let c := ch.val
    let k := s.chan c
    if s.chanState c = dmcReady then
      s.setChan c { k with owed := if urgent && k.owed < 4 then k.owed + 1 else 0 }
    else s

/-- The oldest queued request of a port that has not reached urgency 3 does (16 R834). -/
def portMissed (c p : Nat) (s : State) : State :=
  let q := (s.chan c).queue
  match q.findIdx? fun r => dmcPort r.q.ini == p && !r.missed with
  | some i => s.setChan c { s.chan c with queue := q.modify i fun r => { r with missed := true } }
  | none => s

/-- A request of a port reaches urgency 3 before it is issued (16 R834, R836). -/
def execUrgencyMiss (ch : ChanId) (port : Fin 6) (s : State) : Out :=
  .next <|
    let i := ch.val * 6 + port.val
    if s.get F.DMC_PORT_TARGET_NS i = 0 then s
    else portMissed ch.val port.val (s.bumpHold F.DMC_PORT_MISS_COUNT i)

/-- A write of a timing-set word (16 R844): set `k` of channel `c`. -/
def dmcTsetWrite (r : Reg) (i w : Nat) (s : State) : State :=
  let c := i / 2
  let st := s.chanState c
  if (st ≠ dmcOff ∧ st ≠ dmcReady) ∨ (st = dmcReady ∧ i % 2 = s.get F.DMC_STATUS_ACTIVE_SET c) then dmcRefuse c s
  else s.wrCodes r i (BitVec.ofNat 64 w) false

/-- DMC registers whose write is more than its access codes. -/
def dmcWrite (s : State) (r : Reg) (i w : Nat) : Option State :=
  if r = R.DMC_CTRL then some (dmcCtrlWrite i w s)
  else if r = R.DMC_CONFIG then some (dmcConfigWrite i w s)
  else if r = R.DMC_FREQ then some (dmcFreqWrite i w s)
  else if r = R.DMC_RETRAIN then some (dmcRetrainWrite i w s)
  else if r = R.DMC_TSET0 ∨ r = R.DMC_TSET1 ∨ r = R.DMC_TSET2 ∨ r = R.DMC_TSET3 then some (dmcTsetWrite r i w s)
  else none

/-- PD(90 + c) loses its state (01 R55, 16 R847, R862); the register file keeps what was written (01 R44). -/
def chanPowerOff (c : Nat) (s : State) : State :=
  ((chanForget c s).wr R.DMC_STATUS c 0).put F.DMC_TEMP_NOW c 0

/-! Regions (16 R853) -/

/-- The range of a region lies within the DDR5 window. -/
def State.regionOk (s : State) (r : Nat) : Bool :=
  let lo := s.get F.MEE_RGN_BASE_ADDR r * 4096
  let hi := s.get F.MEE_RGN_LIMIT_ADDR r * 4096 + 4095
  dramBase ≤ lo && lo ≤ hi && hi < dramBase + 4 * 2 ^ 36

/-- A write of MEE_RGN_CTRL (16 R853). -/
def meeCtrlWrite (r w : Nat) (s : State) : State :=
  if !bit w 0 then s.clear F.MEE_RGN_CTRL_EN r
  else if s.on F.MEE_RGN_CTRL_EN r then s
  else if (s.memKeys.find r).isNone || !s.regionOk r then s.raise F.MEE_ERR_CFG_REFUSED
  else s.raise F.MEE_RGN_CTRL_EN r

/-- A write of MEE_RGN_CTRL by an initiator: a locked field keeps its value (14 R785). -/
def execMeeRegionEnable (region : Fin 8) (w : W32) (ini : Ini) (s : State) : Out :=
  let (v, s1) := lockStep R.MEE_RGN_CTRL region w.toNat ini s
  .next (meeCtrlWrite region.val v s1)

/-- MEE registers whose write is more than its access codes. -/
def meeWrite (s : State) (r : Reg) (i w : Nat) : Option State :=
  if r = R.MEE_RGN_CTRL then some (meeCtrlWrite i w s)
  else if (r = R.MEE_RGN_BASE ∨ r = R.MEE_RGN_LIMIT) ∧ s.on F.MEE_RGN_CTRL_EN i then some (s.raise F.MEE_ERR_CFG_REFUSED)
  else none

end Sys2Proof.Machine
end

