-- ==== Sys2Proof/Machine/Ledger.lean ====
section
/-! DEFINITION. The Ledger: fragments, decisions, contexts, pages, throttle and streams (10 R495 to R569, R1012 to R1020). -/

namespace Sys2Proof.Machine

def State.setLdg (s : State) (g : Ledger → Ledger) : State := { s with ldg := g s.ldg }
def ldgRefuse (s : State) : State := s.raise F.LDG_ERR_CFG_REFUSED

/-- The Ledger's Sand initiator number (08 R384). -/
def ldgIni : Nat := 0x4B

def State.ldgRunning (s : State) : Bool := s.on F.LDG_STATUS_RUNNING
def State.ldgDrained (s : State) : Bool := s.ldg.ctxs.isEmpty
def State.ldgW (s : State) : Nat := s.get F.LDG_WINDOW_CROSSINGS

/-- LDG_ERR_LOG takes an error while its VALID is 0 (10 R569). -/
def ldgLog (addr kind src : Nat) (s : State) : State :=
  if s.on F.LDG_ERR_LOG_VALID then s
  else s.wr R.LDG_ERR_LOG 0 (BitVec.ofNat 64 (addr % 2 ^ 48 + kind * 2 ^ 48 + src % 1024 * 2 ^ 52 + 2 ^ 63))

/-! Ages and crossings (10 R503, R504, R514) -/

/-- The age of a short tag. -/
def State.age (s : State) (t : W16) : Nat := (s.shortTag - t).toNat

/-- The crossing is closed under R561 to R563. -/
def State.crossClosed (s : State) (t : W16) : Bool :=
  match s.ldg.open_ with
  | some n => n ≤ s.age t
  | none => false

def State.cross (s : State) (t : W16) : Cross := s.ldg.cross.get {} t
def State.setCross (s : State) (t : W16) (c : Cross) : State := s.setLdg fun l => { l with cross := l.cross.set t c }

def ldgCtx (s : State) (id : Nat) : Option Ctx := s.ldg.ctxs.find? fun c => c.id == id
def ldgModCtx (id : Nat) (g : Ctx → Ctx) (s : State) : State :=
  s.setLdg fun l => { l with ctxs := l.ctxs.map fun c => if c.id == id then g c else c }

/-- LDG_SRC and LDG_CLASS in force (10 R565). -/
def ldgSrc (s : State) (n : Nat) : Nat := s.ldg.src.get 0 n
def ldgClass (s : State) (k : Nat) : Nat := s.ldg.cls.get 8 k

/-- Source `n` lies in a context's range; a count of 0 means all sources (10 R525, LDG_STR_SRC). -/
def ctxRange (c : Ctx) (n : Nat) : Bool := (c.count == 0 && !c.packed) || (c.first ≤ n && n < c.first + c.count)

/-! Tier (10 R505 to R509) -/

def tierBanks (s : State) : List Nat := (List.range 32).filter (bit (s.get F.LDG_TIER_BANKS_MASK))
def fragBlocks (f : Frag) : Nat := (8 + f.data.length + 63) / 64
def tierUsed (s : State) : Nat := (s.ldg.frags.map fragBlocks).sum
def tierBlocks (s : State) : Nat := (tierBanks s).length * 16384

/-- A fragment is freed from the tier. -/
def dropFrags (p : Frag → Bool) (s : State) : State := s.setLdg fun l => { l with frags := l.frags.filter fun f => !p f }

/-- A place in the tier banks: the model leaves the choice free. -/
def tierAddr (s : State) : Nat × State :=
  let bs := tierBanks s
  let b := bs.getD (Config.freeNat s.free % bs.length) 0
  (spdBase + b * 2 ^ 20 + Config.freeNat (s.free + 1) % 16384 * 64, s.fresh.fresh)

/-! Fragments (10 R495 to R502, R1014) -/

def hdrSt (h : Nat) : W16 := BitVec.ofNat 16 h
def hdrSrc (h : Nat) : Nat := bits h 16 10
def hdrLen (h : Nat) : Nat := bits h 28 12

/-- The request is a malformed fragment (10 R497). -/
def fragMalformed (addr n h : Nat) : Bool :=
  addr % 32 != 0 || n != 8 + hdrLen h || hdrLen h % 8 != 0 || bits h 26 2 != 0 || bits h 42 2 != 0 || bits h 44 4 != 0

/-- Stores a fragment that passed every test (10 R507, R525, R1014). -/
def fragStore (h : Nat) (poison : Bool) (data : List Byte) (s : State) : State :=
  let t := hdrSt h
  let x := s.cross t
  let s1 := (s.setCross t { x with seen := x.seen ++ [hdrSrc h] }).bumpWrap F.LDG_FRAGS_IN_COUNT
  let (a, s2) := tierAddr s1
  let owner := match x.st with | .accepted id => some id | _ => none
  let keep := match owner with
    | some id => match ldgCtx s id with
      | some c => ctxRange c (hdrSrc h) && !c.oversize
      | none => false
    | none => true
  let hdr : W64 := BitVec.ofNat 64 h ||| (if poison then BitVec.ofNat 64 (2 ^ 42) else 0)
  if keep then s2.setLdg fun l => { l with frags := l.frags ++ [⟨t, hdrSrc h, hdr, data.drop 8, a, owner⟩] } else s2

/-- A write to the ingest window (10 R495, R501, R1014): the response and the state after. -/
def ldgIngest (off : Nat) (poison : Bool) (data : List Byte) (s : State) : Resp × State :=
  let addr := csrBase + 9 * 0x10000 + 0x8000 + off
  let h := bytesNat (data.take 8)
  let t := hdrSt h
  if !s.domOn 85 then (.poweredDown, s)
  else if !s.unitClocked 9 then (.timeout, s)
  else if !s.ldgRunning then (.offline, s)
  else if fragMalformed addr data.length h then
    (.okay, ldgLog addr 2 (hdrSrc h) ((s.bumpHold F.LDG_BAD_FRAGS_COUNT).raise F.LDG_ERR_MALFORMED))
  else if !bit (ldgSrc s (hdrSrc h)) 0 then (.okay, (s.bumpHold F.LDG_BAD_FRAGS_COUNT).raise F.LDG_ERR_UNKNOWN_SRC)
  else if s.ldgW ≤ s.age t ∨ s.crossClosed t then (.okay, (s.bumpHold F.LDG_LATE_FRAGS_COUNT).raise F.LDG_ERR_LATE_FRAG)
  else if (s.cross t).st = .rejected then (.okay, s)
  else if (s.cross t).seen.contains (hdrSrc h) then (.okay, (s.bumpHold F.LDG_BAD_FRAGS_COUNT).raise F.LDG_ERR_DUPLICATE)
  else if tierBlocks s < tierUsed s + (8 + hdrLen h + 63) / 64 ∨ 262144 ≤ s.ldg.frags.length then
    (.okay, ((s.setCross t { s.cross t with loss := true }).bumpHold F.LDG_TIER_DROPS_COUNT).raise F.LDG_ERR_TIER_FULL)
  else (.okay, fragStore h poison data s)

def execFragment (ini : Ini) (off : BitVec 15) (posted poison : Bool) (data : List Byte) (s : State) : Out :=
  .next (let (r, s1) := ldgIngest off.toNat poison data s
         sandEnd ini.val (csrBase + 9 * 0x10000 + 0x8000 + off.toNat) posted r 0 s1)

/-! Contexts (10 R521 to R528) -/

def ctxLimit (s : State) : Nat := min 65536 (max 1 (s.get F.LDG_CTX_LIMIT_COUNT))
def ctxFree (s : State) : Bool := s.ldg.ctxs.length < ctxLimit s

/-- The slot lengths of a stream's range in bytes: FIXED_LEN as it stood when EN rose, or stands now (10 R565). -/
def streamSlots (s : State) (k first count : Nat) : List Nat :=
  if s.on F.LDG_STR_CTRL_EN k then s.ldg.fixed.get [] k
  else (List.range count).map fun i => bits (ldgSrc s (first + i)) 2 9 * 8

/-- Allocates a context for a crossing whose accept fixed class `cls` and stream `k` (10 R515, R521, R524, R525). -/
def ldgAlloc (t : W16) (cls k dec : Nat) (trig : W32) (late : Bool) (s : State) : State :=
  let packed := s.on F.LDG_STR_CTRL_FORMAT k
  let first := s.get F.LDG_STR_SRC_FIRST k
  let count := s.get F.LDG_STR_SRC_COUNT k
  let c : Ctx := {
    id := s.ldg.nextCtx, tag := t, cn := s.rd R.TMG_CN - BitVec.ofNat 64 (s.age t), cls := cls, stream := k,
    packed := packed, first := first, count := count, slots := if packed then streamSlots s k first count else [],
    suspect := s.on F.TMG_STATUS_CN_SUSPECT, wasDeferred := late, trig := trig, dec := dec }
  let s1 := s.setLdg fun l => { l with
    ctxs := l.ctxs ++ [c], nextCtx := l.nextCtx + 1,
    frags := (l.frags.filter fun f => f.ctx.isSome || f.st != t || ctxRange c f.src).map fun f =>
      if f.ctx.isNone && f.st == t then { f with ctx := some c.id } else f }
  s1.setCross t { s.cross t with st := .accepted c.id }

/-- A first accept takes a context, or the crossing is deferred (10 R515, R521). -/
def ldgAccept (t : W16) (cls dec : Nat) (trig : W32) (s : State) : State :=
  let s1 := s.bumpWrap F.LDG_ACCEPTS_COUNT
  let k := ldgClass s cls % 8
  if ctxFree s1 then ldgAlloc t cls k dec trig false s1
  else (s1.setCross t { s.cross t with st := .deferred cls k dec trig }).raise F.LDG_ERR_CTX_DEFERRED

/-- A context and its fragments are freed. -/
def ldgFreeCtx (id : Nat) (s : State) : State :=
  s.setLdg fun l => { l with ctxs := l.ctxs.filter (fun c => c.id != id),
                             frags := l.frags.filter (fun f => f.ctx != some id) }

/-- A context is discarded with its pages (10 R527, R551). -/
def ldgDiscard (c : Ctx) (s : State) : State := (ldgFreeCtx c.id s).bumpHold F.LDG_STR_DISCARDS_COUNT c.stream

/-! Pages (10 R529 to R533) -/

/-- The pages of a pool in use. -/
def poolUsed (s : State) (c : Nat) : List Nat :=
  s.ldg.ctxs.flatMap fun x => (x.pages.filter fun p => p.1 == c).map (·.2)

def poolFree (s : State) (c : Nat) : Nat := s.get F.LDG_POOL_PAGES_COUNT c - (poolUsed s c).length

/-- Pool `c` can give a page. -/
def poolGives (s : State) (c : Nat) : Bool := s.poolInService c && 0 < poolFree s c

/-- The first page at or after `cand`, cyclically, that is not in use. -/
def pickFree (used : List Nat) (n cand : Nat) : Nat :=
  match (List.range (used.length + 1)).find? fun k => !used.contains ((cand + k) % n) with
  | some k => (cand + k) % n
  | none => 0

/-- The next pool with a free page, from pool `c` on. -/
def poolFrom (s : State) (c : Nat) : Option Nat := ((List.range 4).map fun k => (c + k) % 4).find? (poolGives s)

/-- A free page of the first pool with one from pool `start` on (10 R531): which page it is stays free. -/
def pickPage (start : Nat) (s : State) : Option ((Nat × Nat) × State) :=
  (poolFrom s start).map fun c =>
    let n := s.get F.LDG_POOL_PAGES_COUNT c
    ((c, pickFree (poolUsed s c) n (Config.freeNat s.free % n)), s.fresh)

/-- Takes one more page for a context (10 R531); none when no pool has one. -/
def ctxPage (id : Nat) (s : State) : Option State :=
  match ldgCtx s id with
  | none => none
  | some x =>
    let start := match x.pages.getLast? with
      | some p => p.1
      | none => match s.ldg.lastPool with | some c => c + 1 | none => 0
    match pickPage start s with
    | none => none
    | some (p, t) =>
      let s1 := ldgModCtx id (fun y => { y with pages := y.pages ++ [p] }) t
      some (if x.pages.isEmpty then s1.setLdg fun l => { l with lastPool := some p.1 } else s1)

/-- Takes pages until the context has `need`, at most `fuel` of them. -/
def ctxPages (id need : Nat) : Nat → State → Option State
  | 0, s => some s
  | fuel + 1, s => match ldgCtx s id with
    | none => none
    | some x => if need ≤ x.pages.length then some s
      else match ctxPage id s with
        | none => none
        | some t => ctxPages id need fuel t

/-- A page that lies in a retired pool gives way to one of another pool before the context pages more into it (10 R537). -/
def ctxRenew (id i : Nat) (s : State) : Option State :=
  match ldgCtx s id with
  | none => none
  | some x =>
    let c := (x.pages.getD i (0, 0)).1
    if s.on F.LDG_POOL_STATUS_RETIRED c then
      (pickPage c s).map fun (p, t) => ldgModCtx id (fun y => { y with pages := y.pages.set i p }) t
    else some s

/-- The pages that bytes `lo` to `hi` of a context's body need; none when paging must wait. -/
def ctxPlace (id lo hi : Nat) (s : State) : Option State :=
  let need := (hi + 4095) / 4096
  (List.range' (lo / 4096) (need - lo / 4096)).foldl (fun o i => o.bind (ctxRenew id i)) (ctxPages id need need s)

/-- Paging of a context waits for a page (10 R532), or waits no longer. -/
def ldgWait (id : Nat) (s : State) : State :=
  if (ldgCtx s id).any (·.waits) then s
  else (ldgModCtx id (fun y => { y with waits := true }) s).raise F.LDG_ERR_PAGE_WAIT

def ldgGo (id : Nat) (s : State) : State := ldgModCtx id (fun y => { y with waits := false }) s

/-- A Sand access of the Ledger to DRAM, which the network may answer itself. -/
def ldgWriteDram (a : Nat) (bs : List Byte) (e : Env) (s : State) : Resp × State :=
  match e.net with
  | some r => if r = .okay then dramWrite ldgIni a bs e s else (r, s)
  | none => dramWrite ldgIni a bs e s

def ldgReadDram (a n : Nat) (e : Env) (s : State) : MemAns × State :=
  match e.net with
  | some r => if r = .okay then dramRead ldgIni a n e s else (⟨r, [], []⟩, s)
  | none => dramRead ldgIni a n e s

/-- The pieces of a body range that lie in one page each: offset and length. -/
def pagePieces (off n : Nat) : List (Nat × Nat) :=
  (List.range ((off % 4096 + n + 4095) / 4096)).map fun k =>
    let a := max off ((off / 4096 + k) * 4096)
    (a, min (off + n) ((off / 4096 + k + 1) * 4096) - a)

/-- The DRAM address of a body offset. -/
def bodyAddr (s : State) (x : Ctx) (off : Nat) : Nat :=
  let p := x.pages.getD (off / 4096) (0, 0)
  s.get F.LDG_POOL_BASE_ADDR p.1 * 4096 + p.2 * 4096 + off % 4096

/-- Writes bytes of a body into its pages: a write that fails is repeated once, and its bytes are lost when the repeat fails
(10 R536). -/
def bodyWrite (id off src : Nat) (bs : List Byte) (e1 e2 : Env) (s : State) : State :=
  s.each (if bs.isEmpty then [] else pagePieces off bs.length) fun t p =>
    match ldgCtx t id with
    | none => t
    | some x =>
      let a := bodyAddr t x p.1
      let part := (bs.drop (p.1 - off)).take p.2
      let (r1, t1) := ldgWriteDram a part e1 t
      if r1 = .okay then t1
      else
        let (r2, t2) := ldgWriteDram a part e2 t1
        if r2 = .okay then t2
        else ldgLog a 1 src (ldgModCtx id (fun y => { y with lost := y.lost ++ [p], dataLost := true }) t2)

/-! Body layout (10 R556 to R559) -/

/-- Bytes of a PACKED body's status map. -/
def mapBytes (x : Ctx) : Nat := (x.count + 31) / 32 * 8

/-- Offset of the slot of the i-th source of the range. -/
def slotOff (x : Ctx) (i : Nat) : Nat := mapBytes x + (x.slots.take i).sum

/-- Bytes of the body. -/
def bodyLen (x : Ctx) : Nat := if x.packed then mapBytes x + x.slots.sum else x.body

/-- The status map's bytes. -/
def mapOf (x : Ctx) : List Byte :=
  natBytes ((List.range x.count).foldl (fun a i => a + (x.codes.get 1 (x.first + i)) * 4 ^ i) 0) (mapBytes x)

/-- A MISSING entry (10 R556). -/
def missingEntry (x : Ctx) (n : Nat) : List Byte := natBytes (x.tag.toNat + n * 2 ^ 16 + 2 ^ 43) 8

def maxPages (s : State) : Nat := max 1 (s.get F.LDG_MAX_PAGES_COUNT)

/-- Writes the end of a closed context's body, when pages suffice, and queues the context or discards it (10 R526, R527, R556,
R557). -/
def ldgTail (x : Ctx) (e1 e2 : Env) (s : State) : State :=
  let len := if x.packed then bodyLen x else x.body + 8 * x.missing.length
  match ctxPlace x.id (if x.packed then 0 else x.body) len s with
  | none => ldgWait x.id s
  | some s1 =>
    let s2 :=
      if x.packed then
        let absent := (List.range x.count).filter fun i => (x.codes.find (x.first + i)).isNone
        let t := bodyWrite x.id 0 x.first (mapOf x) e1 e2 s1
        t.each absent fun u i => bodyWrite x.id (slotOff x i) (x.first + i) (List.replicate (x.slots.getD i 0) 0) {} {} u
      else bodyWrite x.id x.body 0 (x.missing.flatMap (missingEntry x)) e1 e2 s1
    let s3 := ldgModCtx x.id (fun y => { y with state := .queued, tailDone := true, waits := false, body := len }) s2
    if x.numbered && s.on F.LDG_STR_CTRL_EN x.stream then s3 else ldgDiscard x s3

/-- A context's fragments still in the tier. -/
def unpaged (s : State) (id : Nat) : List Frag := s.ldg.frags.filter fun f => f.ctx == some id

/-- The mandatory sources of a context's range that sent no fragment in time (10 R526, R556, R565). -/
def ldgMissing (s : State) (x : Ctx) : List Nat :=
  let seen := (s.cross x.tag).seen
  (List.range 1024).filter fun n => ctxRange x n && bit (ldgSrc s n) 1 && !seen.contains n

/-- Closes a context (10 R520, R526). -/
def ldgClose (early : Bool) (x : Ctx) (s : State) : State :=
  let miss := ldgMissing s x
  let en := s.on F.LDG_STR_CTRL_EN x.stream
  let y := { x with state := .closing, early := x.early || early, loss := x.loss || (s.cross x.tag).loss,
                    missing := miss, incomplete := !miss.isEmpty, numbered := en,
                    seq := BitVec.ofNat 32 (s.get F.LDG_STR_SEQ_NEXT x.stream), closeNo := s.ldg.closes }
  let s1 := (ldgModCtx x.id (fun _ => y) s).setLdg fun l => { l with closes := l.closes + 1 }
  let s2 := s1.when en (·.bumpWrap F.LDG_STR_SEQ_NEXT x.stream)
  if (unpaged s2 x.id).isEmpty then ldgTail y {} {} s2 else s2

/-- The tier's side of a page write (10 R534, R535): the fragment's header and payload as paged, and the state after. -/
def tierReadFrag (f : Frag) (tier : TierRead) (s : State) : W64 × List Byte × State :=
  let b := bankOf f.addr
  let how := if s.owns ldgIni b && s.domOn (86 + b / 8) then tier else .refused
  let lasting (t : State) : State :=
    ldgLog f.addr 0 f.src ((t.bumpHold F.LDG_POISON_LASTING).raise F.LDG_ERR_POISON_LASTING)
  let hdr := f.hdr ||| BitVec.ofNat 64 (2 ^ 42)
  match how with
  | .clean => (f.hdr, f.data, s)
  | .transient => (f.hdr, f.data, (s.bumpHold F.LDG_POISON_TRANSIENT).raise F.LDG_ERR_POISON_TRANSIENT)
  | .lasting => let (fs, t) := s.freeBytes f.data.length; (hdr, fs, lasting t)
  | .refused => (hdr, List.replicate f.data.length 0, lasting s)

/-- A payload cut or padded with zeros to a slot (10 R558). -/
def fitSlot (d : List Byte) (n : Nat) : List Byte := d.take n ++ List.replicate (n - d.length) 0

/-- The status code of a paged source (10 R559). -/
def slotCode (hdr len slot : Nat) : Nat :=
  if bit hdr 41 || bit hdr 42 then 2 else if bit hdr 40 || len != slot then 3 else 0

/-- The freeze holds paging and the readout scheduler (19 R965). -/
def State.ldgFrozen (s : State) : Bool := s.freezing && s.on F.DBG_FREEZE_LEDGER

/-- An older context waits for a page, and a pool has one for it again: it resumes first (10 R532). -/
def State.pagingYields (s : State) (i : Nat) : Bool :=
  (s.ldg.ctxs.take i).any (·.waits) && (List.range 4).any (poolGives s)

/-- The Ledger pages the next fragment of the `i`-th context in use, or the end of its body once every fragment is paged
(10 R525, R526, R532 to R536). -/
def execPageWrite (i : Nat) (tier : TierRead) (e1 e2 : Env) (s : State) : Out :=
  .next <| match s.ldg.ctxs[i]? with
    | none => s
    | some x =>
      if !s.unitClocked 9 || s.ldgFrozen || s.pagingYields i then s
      else match unpaged s x.id with
        | [] => if x.state = .closing then ldgTail x e1 e2 s else s
        | f :: more =>
          let len := 8 + f.data.length
          let off := if x.packed then slotOff x (f.src - x.first) else x.body
          let slot := x.slots.getD (f.src - x.first) 0
          let top := if x.packed then off + slot else off + len
          let need := (top + 4095) / 4096
          if !x.packed && maxPages s < need then
            let s1 := dropFrags (fun g => g.ctx == some x.id) (ldgModCtx x.id (fun y => { y with oversize := true }) s)
            if x.state = .closing then ldgTail { x with oversize := true } e1 e2 s1 else s1
          else match ctxPlace x.id off top s with
            | none => ldgWait x.id s
            | some s1 =>
              let (hdr, d, s2) := tierReadFrag f tier (ldgGo x.id s1)
              let bs := if x.packed then fitSlot d slot else natBytes hdr.toNat 8 ++ d
              let s3 := bodyWrite x.id off f.src bs e1 e2 s2
              let code := slotCode hdr.toNat f.data.length slot
              let upd (y : Ctx) : Ctx := { y with
                body := if x.packed then y.body else y.body + len, frags := y.frags + 1,
                codes := y.codes.set f.src code,
                poisoned := y.poisoned || bit hdr.toNat 41 || bit hdr.toNat 42,
                short := y.short || bit hdr.toNat 40 || (x.packed && f.data.length != slot) }
              let s4 := dropFrags (fun g => g.ctx == some x.id && g.src == f.src) (ldgModCtx x.id upd s3)
              if x.state = .closing && more.isEmpty then
                match ldgCtx s4 x.id with | some y => ldgTail y {} {} s4 | none => s4
              else s4

/-! Decisions (10 R510 to R518) -/

def decTag (w : Nat) : W16 := BitVec.ofNat 16 w
def decAccept (w : Nat) : Bool := bit w 16
def decClass (w : Nat) : Nat := bits w 20 4
def decTrig (w : Nat) : W32 := BitVec.ofNat 32 (w / 2 ^ 32)

/-- The decision word is not ignored (10 R513). -/
def decTaken (s : State) (w : Nat) : Bool :=
  bits w 17 3 == 0 && bits w 24 8 == 0 && (!decAccept w || bit (ldgClass s (decClass w)) 3)

/-- The decision is late (10 R514). -/
def decLate (s : State) (w : Nat) : Bool :=
  s.ldgW ≤ s.age (decTag w) || s.crossClosed (decTag w) || (s.cross (decTag w)).st == .rejected

/-- Decisions of one source that arrive in the same cycle (10 R513 to R518, R521): accepts merge or open crossings, the lowest
class fixing the stream and the oldest crossing taking its context first, and then rejects act. -/
def ldgDecide (src : Nat) (ws : List Nat) (s : State) : State :=
  let taken := ws.filter (decTaken s)
  let late := taken.filter (decLate s)
  let good := taken.filter fun w => !decLate s w
  let s1 := s.each late fun t _ => (t.bumpHold F.LDG_LATE_DECS_COUNT).raise F.LDG_ERR_LATE_DEC
  let acc := good.filter decAccept
  let merge (t : State) (w : Nat) : State :=
    let x := t.cross (decTag w)
    match x.st with
    | .accepted id => ldgModCtx id (fun c => { c with trig := c.trig ||| decTrig w, dec := c.dec ||| src }) t
    | .deferred cls k dec trig => t.setCross (decTag w) { x with st := .deferred cls k (dec ||| src) (trig ||| decTrig w) }
    | _ => t
  let old := acc.filter fun w => (s.cross (decTag w)).st != .undecided
  let new := acc.filter fun w => (s.cross (decTag w)).st == .undecided
  let s2 := s1.each old merge
  let tags := sortBy (fun a b => decide (s.age b ≤ s.age a)) (new.map decTag).eraseDups
  let s3 := s2.each tags fun t tag =>
    let mine := new.filter fun w => decTag w == tag
    let cls := mine.foldl (fun a w => min a (decClass w)) 15
    ldgAccept tag cls src (mine.foldl (fun a w => a ||| decTrig w) 0) t
  let rej := good.filter fun w => !decAccept w
  s3.each rej fun t w =>
    let tag := decTag w
    if s.on F.LDG_CTRL_EARLY_REJECT && (t.cross tag).st == .undecided then
      (dropFrags (fun f => f.st == tag && f.ctx.isNone) t).setCross tag { t.cross tag with st := .rejected }
    else t

/-- The decision input takes the valid flits of a slot, and the first accept of the crossing is kept for the transmit frame
(10 R510, 02 R85). -/
def execQuartzDecision (slot : Fin 128) (upsets : BitVec 4) (s : State) : Out :=
  .next <|
    let take (a : List Flit × State) (lane : Nat) : List Flit × State :=
      let (f, t) := qtzEndpoint .ledger 0x448 slot.val lane (upsets.getLsbD lane) (s.qtz.eqd.get 0 512) a.2
      (a.1 ++ f.toList.filter (·.valid), t)
    let (fs, s1) := (List.range 4).foldl take ([], s)
    let ws := fs.map fun f => f.data.toNat
    if !s.unitClocked 9 || !s.ldgRunning || !s.on F.LDG_CTRL_DEC_QTZ_EN then s1
    else
      let first := (ws.filter fun w => decAccept w && decTaken s w && !decLate s w).head?
      let s2 := match s1.tmg.accept, first with
        | none, some w => { s1 with tmg := { s1.tmg with accept := some (decTag w) } }
        | _, _ => s1
      ldgDecide 1 ws s2

/-- A write to LDG_HOST_DEC (10 R512). -/
def ldgHostDec (w : Nat) (s : State) : State :=
  if !s.domOn 85 then s.answer .poweredDown
  else if s.unitClocked 9 && s.ldgRunning && s.on F.LDG_CTRL_DEC_HOST_EN then ldgDecide 4 [w] s
  else s

def execHostDecision (w : W64) (s : State) : Out := .next (ldgHostDec w.toNat s)

/-! Boundaries (10 R519, R520, R522, R523, R538 to R541, R565, R1020) -/

/-- The fill level of a resource (10 R538). -/
def fillLevel (used cap : Nat) : Nat := if cap = 0 then 255 else 256 * used / cap

def pagesTotal (s : State) : Nat := (((List.range 4).filter s.poolInService).map fun c => s.get F.LDG_POOL_PAGES_COUNT c).sum
def pagesUsed (s : State) : Nat := (((List.range 4).filter s.poolInService).map fun c => (poolUsed s c).length).sum

/-- One throttle flag: its number, status field and thresholds (10 R539). -/
def thrFlag (k : Nat) (f : Fld) (thr : Reg) (level : Nat) (s : State) : State :=
  let v := (s.rd thr).toNat
  if !s.on f && bits v 0 8 ≤ level then
    (s.raise f).setLdg fun l => { l with since := l.since.setIfInBounds k 0 }
  else if s.on f && level < bits v 8 8 && s.get F.LDG_THR_HOLD_CROSSINGS ≤ l_since s k then s.clear f
  else s
where l_since (s : State) (k : Nat) : Nat := s.ldg.since.toList.getD k 0

/-- The throttle output follows its flags, and a change is flagged (10 R541). -/
def thrOutput (s : State) : State :=
  let out := s.on F.LDG_STATUS_THR_TIER || s.on F.LDG_STATUS_THR_CTX || s.on F.LDG_STATUS_THR_PAGE
  if out == s.on F.LDG_STATUS_THROTTLE then s else (s.flag F.LDG_STATUS_THROTTLE 0 out).raise F.LDG_ERR_THR_CHANGE

/-- Every throttle flag clears (10 R1020). -/
def thrClear (s : State) : State :=
  thrOutput (((s.clear F.LDG_STATUS_THR_TIER).clear F.LDG_STATUS_THR_CTX).clear F.LDG_STATUS_THR_PAGE)

/-- Evaluates the throttle (10 R538 to R541, R1020). -/
def thrEvaluate (s : State) : State :=
  if s.ldgRunning || !s.ldgDrained then
    let s1 := thrFlag 0 F.LDG_STATUS_THR_TIER R.LDG_THR_TIER (fillLevel (tierUsed s) (tierBlocks s)) s
    let s2 := thrFlag 1 F.LDG_STATUS_THR_CTX R.LDG_THR_CTX (fillLevel s.ldg.ctxs.length (ctxLimit s)) s1
    thrOutput (thrFlag 2 F.LDG_STATUS_THR_PAGE R.LDG_THR_PAGE (fillLevel (pagesUsed s) (pagesTotal s)) s2)
  else thrClear s

/-- The crossing whose age becomes W expires (10 R509, R520, R523). -/
def ldgExpire (s : State) : State :=
  let t := s.shortTag - BitVec.ofNat 16 s.ldgW
  match s.ldg.cross.find t with
  | none => s
  | some x =>
    let gone (u : State) : State := u.setLdg fun l => { l with cross := l.cross.erase t }
    let free (u : State) : State := dropFrags (fun f => f.st == t && f.ctx.isNone) u
    match x.st with
    | .accepted id => match ldgCtx s id with
      | some c => gone (if c.state = .collect then ldgClose false c s else s)
      | none => gone s
    | .deferred .. => (gone (free s)).bumpHold F.LDG_CTX_LOST_COUNT |>.raise F.LDG_ERR_CTX_LOST
    | _ => gone (free s)

/-- LDG_SRC and LDG_CLASS as last written come into force (10 R565). Contexts that close at the boundary took MANDATORY as it
stood before. -/
def ldgConfig (s : State) : State :=
  s.setLdg fun l => { l with
    src := l.srcDue.foldl (fun a e => a.set e.1 e.2) l.src, cls := l.clsDue.foldl (fun a e => a.set e.1 e.2) l.cls,
    srcDue := [], clsDue := [] }

/-- The start of a boundary: counts, due starts, and the expiry (10 R506, R519). -/
def ldgBoundary (s : State) : State :=
  if !s.unitClocked 9 then s
  else
    let s1 := s.setLdg fun l => { l with
      open_ := l.open_.map fun n => min (n + 1) 65536, since := l.since.map fun n => min (n + 1) 4096, startDue := false }
    let s2 := s1.when s.ldg.startDue (·.raise F.LDG_STATUS_RUNNING)
    ldgExpire s2

/-- An external accept of a short tag (10 R511). -/
def ldgExternal (t : W16) (s : State) : State :=
  let s1 := ldgConfig s
  if s.unitClocked 9 && s.ldgRunning && s.on F.LDG_CTRL_DEC_EXA_EN then
    ldgDecide 2 [t.toNat + 2 ^ 16 + s.get F.LDG_CTRL_EXA_CLASS * 2 ^ 20] s1
  else s1

/-- Deferred crossings take contexts, oldest first (10 R519, R522). -/
def ldgRetry (s : State) : State :=
  let waits := (s.ldg.cross.filter fun e => match e.2.st with | .deferred .. => true | _ => false).map (·.1)
  s.each (sortBy (fun a b => decide (s.age b ≤ s.age a)) waits) fun t tag =>
    match (t.cross tag).st with
    | .deferred cls k dec trig => if ctxFree t then ldgAlloc tag cls k dec trig true t else t
    | _ => t

/-- The end of a boundary's actions (10 R519). -/
def ldgRest (s : State) : State :=
  let s1 := ldgConfig s
  if s.unitClocked 9 then thrEvaluate (ldgRetry s1) else s1

/-- Discards what is undecided, closes every context in COLLECT and every crossing but the last `n` (10 R561 to R563). -/
def ldgCloseAll (n : Nat) (s : State) : State :=
  let live := sortBy (fun a b => decide (s.age b.tag ≤ s.age a.tag)) (s.ldg.ctxs.filter fun c => c.state == .collect)
  let s1 := s.each live fun t c => ldgClose true c t
  (dropFrags (fun f => f.ctx.isNone) s1).setLdg fun l => { l with cross := [], open_ := some n }

/-- A resync or crossing-number reset at its effect boundary (10 R561, R562). -/
def ldgResync (cnr : Bool) (s : State) : State :=
  if s.unitClocked 9 && (cnr || s.get F.LDG_CTRL_RSY_ACTION == 1) then (ldgCloseAll 1 s).raise F.LDG_ERR_RESYNC else s

/-! Control (10 R506, R529, R530, R540, R546, R547, R550 to R554, R563 to R566) -/

/-- A used pool lies wholly in its channel's window below the capacity (10 R530). -/
def poolPlaced (s : State) (c : Nat) : Bool :=
  let n := s.get F.LDG_POOL_PAGES_COUNT c
  let lo := s.get F.LDG_POOL_BASE_ADDR c * 4096
  let win := dramBase + c * 2 ^ 36
  n == 0 || (win ≤ lo && lo + n * 4096 ≤ win + s.get F.DMC_CONFIG_CAPACITY c * 2 ^ 30)

/-- The Ledger may be enabled (10 R530). -/
def ldgMayStart (s : State) : Bool :=
  (List.range 4).all (poolPlaced s)
    && (List.range 4).all (fun c => s.get F.LDG_POOL_PAGES_COUNT c == 0 || !s.on F.LDG_POOL_STATUS_RETIRED c)
    && ((List.range 4).map fun c => s.get F.LDG_POOL_PAGES_COUNT c).sum ≤ 1048576
    && !(tierBanks s).isEmpty && (tierBanks s).all (s.owns ldgIni)
    && 1 ≤ s.ldgW && s.ldgW ≤ 4096 && s.boundariesRun

/-- A write of LDG_CTRL (10 R506, R530, R563). -/
def ldgCtrlWrite (w : Nat) (s : State) : State :=
  let en := s.on F.LDG_CTRL_EN
  let s0 := (s.wrCodes R.LDG_CTRL 0 (BitVec.ofNat 64 w) false).flag F.LDG_CTRL_EN 0 en
  if bit w 0 == en then s0
  else if !s.domOn 85 then s.answer .poweredDown
  else if bit w 0 then
    if !ldgMayStart s then ldgRefuse s0
    else if s.ldgDrained then
      (s0.raise F.LDG_CTRL_EN).setLdg fun l => { l with init := true, frags := [], cross := [], lastPool := none }
    else (s0.raise F.LDG_CTRL_EN).setLdg fun l => { l with startDue := true }
  else
    let s1 := (s0.clear F.LDG_CTRL_EN).clear F.LDG_STATUS_RUNNING
    ldgCloseAll 0 (s1.setLdg fun l => { l with init := false, startDue := false })

def execLedgerEnable (w : W32) (s : State) : Out := .next (ldgCtrlWrite w.toNat s)
def execLedgerDisable (w : W32) (s : State) : Out := .next (ldgCtrlWrite w.toNat s)

/-- The tier banks are written and RUNNING rises (10 R506); what stands in them is the Ledger's. -/
def execTierInitDone (s : State) : Out :=
  .next <|
    if !s.ldg.init then s
    else
      let s1 := s.each (tierBanks s) fun t b => spdLose b t
      (s1.setLdg fun l => { l with init := false }).raise F.LDG_STATUS_RUNNING

/-- Grants of credit (10 R546). -/
def ldgGrant (k w : Nat) (s : State) : State := s.bumpHold F.LDG_STR_CREDIT_BYTES k w

def ldgGrantWrite (k w : Nat) (s : State) : State := if s.domOn 85 then ldgGrant k w s else s.answer .poweredDown

def execStreamGrant (stream : Fin 8) (w : W32) (s : State) : Out := .next (ldgGrantWrite stream.val w.toNat s)

/-- The stream may be enabled with this FORMAT (10 R553). -/
def streamMayStart (s : State) (k : Nat) (packed : Bool) : Bool :=
  let first := s.get F.LDG_STR_SRC_FIRST k
  let count := s.get F.LDG_STR_SRC_COUNT k
  let slots := (List.range count).map fun i => bits (ldgSrc s (first + i)) 2 9 * 8
  let body := (count + 31) / 32 * 8 + slots.sum
  first + count ≤ 1024 && (!packed || (count != 0 && (body + 4095) / 4096 ≤ maxPages s))

/-- The contexts of a stream in QUEUED. -/
def queuedOf (s : State) (k : Nat) : List Ctx := s.ldg.ctxs.filter fun c => c.stream == k && c.state == .queued

/-- A stream that is disabled discards its QUEUED records, once its record in SENDING is complete (10 R527, R552). -/
def ldgStreamOff (k : Nat) (s : State) : State :=
  if s.on F.LDG_STR_CTRL_EN k || s.ldg.ctxs.any (fun c => c.stream == k && c.state == .sending) then s
  else s.each (queuedOf s k) fun t c => ldgDiscard c t

/-- A write of LDG_STR_CTRL (10 R547, R552 to R554, R565). -/
def ldgStrCtrlWrite (k w : Nat) (s : State) : State :=
  let en := s.on F.LDG_STR_CTRL_EN k
  let old := s.on F.LDG_STR_CTRL_FORMAT k
  let s0 := (s.wrCodes R.LDG_STR_CTRL k (BitVec.ofNat 64 w) false).flag F.LDG_STR_CTRL_EN k en
  if bit w 0 != en && !s.domOn 85 then s.answer .poweredDown
  else
    let s1 := if en && bit w 1 != old then ldgRefuse (s0.flag F.LDG_STR_CTRL_FORMAT k old) else s0
    if bit w 0 && !en then
      if !streamMayStart s k (bit w 1) then ldgRefuse s1
      else
        let first := s.get F.LDG_STR_SRC_FIRST k
        let fixed := (List.range (s.get F.LDG_STR_SRC_COUNT k)).map fun i => bits (ldgSrc s (first + i)) 2 9 * 8
        (((s1.raise F.LDG_STR_CTRL_EN k).put F.LDG_STR_CREDIT_BYTES k 0).put F.LDG_STR_SEQ_NEXT k 0).setLdg fun l =>
          { l with fixed := l.fixed.set k fixed }
    else if !bit w 0 && en then
      ldgStreamOff k (s1.clear F.LDG_STR_CTRL_EN k)
    else s1

def execStreamEnable (stream : Fin 8) (w : W32) (s : State) : Out := .next (ldgStrCtrlWrite stream.val w.toNat s)
def execStreamDisable (stream : Fin 8) (w : W32) (s : State) : Out := .next (ldgStrCtrlWrite stream.val w.toNat s)

/-! Records (10 R543 to R551, R555, R560, R1015) -/

/-- The record a stream sends next: the one in SENDING, else, while it is enabled, the first closed, once it is QUEUED (10 R544,
R552). -/
def nextRecord (s : State) (k : Nat) : Option Ctx :=
  match s.ldg.ctxs.find? fun c => c.stream == k && c.state == .sending with
  | some c => some c
  | none =>
    if !s.on F.LDG_STR_CTRL_EN k then none else
    let l := s.ldg.ctxs.filter fun c => c.stream == k && (c.state == .queued || (c.state == .closing && c.numbered))
    match l with
    | [] => none
    | c :: t =>
      let m := t.foldl (fun a b => if b.closeNo < a.closeNo then b else a) c
      if m.state = .queued then some m else none

def recordLen (x : Ctx) : Nat := 32 + bodyLen x + 8
def chunkLen (x : Ctx) : Nat := min 4096 (recordLen x - x.sent)

/-- One bit of the reflected CRC-32 (10 R560). -/
def crc32Bit (c : W32) : W32 := if c.getLsbD 0 then (c >>> 1) ^^^ 0xEDB88320#32 else c >>> 1

/-- The running CRC-32 over bytes (10 R560). -/
def crc32Run (c : W32) (bs : List Byte) : W32 :=
  bs.foldl (fun a b => (List.range 8).foldl (fun x _ => crc32Bit x) (a ^^^ b.setWidth 32)) c

/-- The record's FLAGS (10 R555). -/
def ctxFlags (x : Ctx) : Nat :=
  packBits [x.incomplete, x.poisoned, x.short, x.suspect, x.early, x.oversize, x.loss, x.wasDeferred, x.hdrLost]

/-- The record header (10 R555). -/
def ctxHeader (x : Ctx) : List Byte :=
  natBytes (recordLen x) 4 ++ natBytes (ofFlag x.packed) 1 ++ natBytes 4 1 ++ natBytes x.stream 1 ++ natBytes x.cls 1
    ++ natBytes x.cn.toNat 8 ++ natBytes x.seq.toNat 4 ++ natBytes x.tag.toNat 2 ++ natBytes (ctxFlags x) 2
    ++ natBytes x.trig.toNat 4 ++ natBytes x.frags 2 ++ natBytes x.dec 1 ++ natBytes (min x.missing.length 255) 1

/-- The record trailer (10 R560). -/
def ctxTrailer (x : Ctx) : List Byte :=
  natBytes (x.crc ^^^ 0xFFFFFFFF#32).toNat 4 ++ natBytes (ofFlag x.tlost) 2 ++ natBytes 0 2

/-- A byte offset lies in a lost range. -/
def lostAt (x : Ctx) (o : Nat) : Bool := x.lost.any fun r => r.1 ≤ o && o < r.1 + r.2

/-- Reads a range of the body for a chunk: bytes, whether any were lost, and the state after (10 R536, R1015). -/
def bodyRead (x : Ctx) (off n : Nat) (e1 e2 : Env) (s : State) : List Byte × Bool × State :=
  let step (a : List Byte × Bool × State) (p : Nat × Nat) : List Byte × Bool × State :=
    let addr := bodyAddr a.2.2 x p.1
    let (m1, t1) := ldgReadDram addr p.2 e1 a.2.2
    let mask (bs : List Byte) : List Byte :=
      (List.range p.2).map fun k => if lostAt x (p.1 + k) then 0 else bs.getD k 0
    let hit := (List.range p.2).any fun k => lostAt x (p.1 + k)
    if m1.resp = .okay then (a.1 ++ mask m1.bytes, a.2.1 || hit, t1)
    else
      let (m2, t2) := ldgReadDram addr p.2 e2 t1
      if m2.resp = .okay then (a.1 ++ mask m2.bytes, a.2.1 || hit, t2)
      else (a.1 ++ List.replicate p.2 0, true, ldgLog addr 3 0 (t2.raise F.LDG_ERR_DATA_LOST))
  (if n = 0 then [] else pagePieces off n).foldl step ([], false, s)

/-- The streams that can send a chunk now: credit, a free KTP readout stream, a record (10 R545, R549), and room for it. -/
def chunkReady (s : State) (room : Nat → Nat → Bool) (k : Nat) : Bool :=
  match nextRecord s k with
  | none => false
  | some x =>
    let ktp := s.get F.LDG_STR_CTRL_KTP_STREAM k
    let free := match s.ldg.owner.find ktp with | some id => id == x.id | none => true
    chunkLen x ≤ s.get F.LDG_STR_CREDIT_BYTES k && free && room ktp (chunkLen x)

/-- The stream served: the highest priority, round-robin within it (10 R548). -/
def chunkStream (s : State) (room : Nat → Nat → Bool) : Option Nat :=
  let ready := (List.range 8).filter (chunkReady s room)
  let pri (k : Nat) := s.get F.LDG_STR_CTRL_PRI k
  let top := ready.foldl (fun a k => max a (pri k)) 0
  let last := s.ldg.rr.get 7 top
  ((List.range 8).map fun i => (last + 1 + i) % 8).find? fun k => ready.contains k && pri k == top

/-- Sends the next chunk (10 R543 to R549, R555, R560): the KTP readout stream, whether it starts a record, its bytes, and the
state after. -/
def ldgChunk (room : Nat → Nat → Bool) (e1 e2 : Env) (s : State) : Option (Nat × Bool × List Byte × State) :=
  match chunkStream s room with
  | none => none
  | some k => match nextRecord s k with
    | none => none
    | some x =>
      let n := chunkLen x
      let lo := x.sent
      let hi := x.sent + n
      let bodyEnd := 32 + bodyLen x
      let b0 := max lo 32 - 32
      let b1 := min hi bodyEnd - 32
      let (bs, lost, s1) := bodyRead x b0 (b1 - b0) e1 e2 s
      let x1 := { x with state := .sending, hdrLost := if lo = 0 then x.dataLost || lost else x.hdrLost,
                         tlost := x.tlost || lost || (lo = 0 && x.dataLost) }
      let head := if lo = 0 then (ctxHeader x1).take n else []
      let x2 := { x1 with crc := crc32Run x.crc (head ++ bs), sent := hi }
      let tr := if bodyEnd < hi then ((ctxTrailer x2).drop (max lo bodyEnd - bodyEnd)).take (hi - max lo bodyEnd) else []
      let ktp := s.get F.LDG_STR_CTRL_KTP_STREAM k
      let done := hi == recordLen x
      let s2 := (s1.put F.LDG_STR_CREDIT_BYTES k (s.get F.LDG_STR_CREDIT_BYTES k - n)).clear F.LDG_STR_STATUS_STALLED k
      let s3 := s2.when (done && x2.tlost) (·.raise F.LDG_ERR_DATA_LOST)
      let s4 := s3.setLdg fun l => { l with
        rr := l.rr.set (s.get F.LDG_STR_CTRL_PRI k) k,
        owner := if done then l.owner.erase ktp else l.owner.set ktp x.id }
      let s5 := if done then ldgStreamOff k (ldgFreeCtx x.id s4) else ldgModCtx x.id (fun _ => x2) s4
      some (ktp, lo == 0, head ++ bs ++ tr, s5)

/-- The next chunk of a stream lacks credit. -/
def lacksCredit (s : State) (k : Nat) : Bool :=
  match nextRecord s k with
  | some x => s.get F.LDG_STR_CREDIT_BYTES k < chunkLen x
  | none => false

/-- A stream's chunk has lacked credit for STALL_TMO ms (10 R550). -/
def execStall (stream : Fin 8) (s : State) : Out :=
  .next <|
    let k := stream.val
    if s.unitClocked 9 && !s.on F.LDG_STR_STATUS_STALLED k && s.get F.LDG_STR_CTRL_STALL_TMO k != 0 && lacksCredit s k then
      (s.raise F.LDG_STR_STATUS_STALLED k).raise F.LDG_ERR_STALL
    else s

/-- A stalled stream discards its oldest QUEUED record (10 R551). -/
def execStallDiscard (stream : Fin 8) (s : State) : Out :=
  .next <|
    let k := stream.val
    if s.unitClocked 9 && s.on F.LDG_STR_STATUS_STALLED k && s.on F.LDG_STR_CTRL_STALL_ACTION k then
      match queuedOf s k with
      | [] => s
      | c :: t => ldgDiscard (t.foldl (fun a b => if b.closeNo < a.closeNo then b else a) c) s
    else s

/-! Registers (10 R567) -/

/-- LDG registers that are computed when read; live fields read 0 while PD85 is off (01 R45). -/
def ldgView (s : State) (r : Reg) (i : Nat) : Option Nat :=
  let v := (s.rd r i).toNat
  let on := s.domOn 85
  let pick (n : Nat) : Option Nat := some (if on then n else 0)
  if r = R.LDG_STATUS then
    let waits := s.ldg.cross.any fun e => match e.2.st with | .deferred .. => true | _ => false
    let w := withField v F.LDG_STATUS_PAGE_WAIT (ofFlag (s.ldg.ctxs.any (·.waits)))
    pick (withField (withField w F.LDG_STATUS_DRAINED (ofFlag s.ldgDrained)) F.LDG_STATUS_DEFERRED (ofFlag waits))
  else if r = R.LDG_OCC_TIER then pick (tierUsed s)
  else if r = R.LDG_OCC_CTX then pick s.ldg.ctxs.length
  else if r = R.LDG_OCC_PAGE then pick (s.ldg.ctxs.map fun c => c.pages.length).sum
  else if r = R.LDG_POOL_STATUS then
    let ret := s.on F.LDG_POOL_STATUS_RETIRED i
    some (if on then (if ret then 0 else poolFree s i) + ofFlag ret * 2 ^ 24 + ofFlag (s.poolInService i) * 2 ^ 25
      else ofFlag ret * 2 ^ 24)
  else if r = R.LDG_STR_STATUS then
    pick (ofFlag (s.on F.LDG_STR_STATUS_STALLED i)
      + ofFlag (s.ldg.ctxs.any fun c => c.stream == i && c.state == .sending) * 2 + (queuedOf s i).length * 4)
  else if (r = R.LDG_FRAGS_IN ∨ r = R.LDG_ACCEPTS ∨ r = R.LDG_STR_CREDIT) ∧ !on then some 0
  else none

/-- LDG registers whose write is more than its access codes. -/
def ldgWrite (s : State) (r : Reg) (i w : Nat) : Option State :=
  let idle := !s.on F.LDG_CTRL_EN && s.ldgDrained
  if r = R.LDG_CTRL then some (ldgCtrlWrite w s)
  else if (r = R.LDG_WINDOW ∨ r = R.LDG_TIER_BANKS) then if idle then none else some (ldgRefuse s)
  else if r = R.LDG_POOL_BASE ∨ r = R.LDG_POOL_PAGES then
    some (if idle then (s.wrCodes r i (BitVec.ofNat 64 w) false).clear F.LDG_POOL_STATUS_RETIRED i else ldgRefuse s)
  else if r = R.LDG_THR_TIER ∨ r = R.LDG_THR_CTX ∨ r = R.LDG_THR_PAGE then
    if bits w 0 8 < bits w 8 8 then some (ldgRefuse s) else none
  else if r = R.LDG_HOST_DEC then some (ldgHostDec w s)
  else if r = R.LDG_STR_CTRL then some (ldgStrCtrlWrite i w s)
  else if r = R.LDG_STR_SRC then if s.on F.LDG_STR_CTRL_EN i then some (ldgRefuse s) else none
  else if r = R.LDG_STR_GRANT then some (ldgGrantWrite i w s)
  else if r = R.LDG_CLASS then
    some ((s.wrCodes r i (BitVec.ofNat 64 w) false).setLdg fun l => { l with clsDue := l.clsDue ++ [(i, w % 16)] })
  else if r = R.LDG_SRC then
    some ((s.wrCodes r i (BitVec.ofNat 64 w) false).setLdg fun l => { l with srcDue := l.srcDue ++ [(i, w % 2048)] })
  else none

/-- PD85 loses its state and the Ledger restarts with EN at 0 (10 R566, R1020); its register files stand. -/
def ldgPowerOff (s : State) : State :=
  let s1 := thrClear ((s.clear F.LDG_CTRL_EN).setLdg fun l => {
    src := l.src, cls := l.cls, srcDue := l.srcDue, clsDue := l.clsDue, fixed := l.fixed })
  let s2 := s1.wr R.LDG_STATUS 0 0
  let s3 := (s2.put F.LDG_FRAGS_IN_COUNT 0 0).put F.LDG_ACCEPTS_COUNT 0 0
  s3.each (List.range 8) fun t k => (t.clear F.LDG_STR_CREDIT_BYTES k).clear F.LDG_STR_STATUS_STALLED k

end Sys2Proof.Machine
end

