-- ==== Sys2Proof/Machine/Plain.lean ====
section
/-! DEFINITION. The physical address map as a Sand request meets it, with what the network does to a request (01 R35 to R42,
08 R387 to R418), and the accesses of engines that the registers start. -/

namespace Sys2Proof.Machine

/-- What the network does to an access: the response it makes in place of the target's, and whether the target was reached. A
timed-out access may have been (08 R409): that is a free choice. -/
def netDoes (env : Env) (s : State) : Option Resp × Bool × State :=
  match env.net with
  | none => (none, true, s)
  | some .timeout => (some .timeout, Config.freeNat s.free % 2 == 0, s.fresh)
  | some r => (some r, false, s)

/-- An address in a DDR5 or a scratchpad window (01 R35). -/
def inDram (a : Nat) : Bool := dramBase ≤ a && a < dramBase + 4 * 2 ^ 36
def inSpd (a : Nat) : Bool := spdBase ≤ a && a < spdBase + 32 * 2 ^ 20

/-! Finding a register -/

/-- The register whose offsets hold an address: row, index and byte within it (00 R10, 01 R43). -/
def regFind (a : Nat) : List Reg → Option (Reg × Nat × Nat)
  | [] => none
  | r :: t => match r.locate a with
    | some (i, b) => some (r, i, b)
    | none => regFind a t

/-- The unit of an address in the register window. -/
def unitOf (a : Nat) : Nat := a / 0x10000 % 0x100000

def csrFind (a : Nat) : Option (Reg × Nat × Nat) := regFind a (regsOfUnit (unitOf a))

/-- The access has a size and alignment that R6 accepts, for a register of `bits` bits met at byte `b`. -/
def regFits (bits b n : Nat) : Bool := (n == 4 && b % 4 == 0) || (n == 8 && bits == 64 && b == 0)

/-- An access as its target sees it (08 R387): initiator, privilege code, QUIET, and POISON with the data of a write. -/
structure Acc where
  ini : Nat
  priv : Nat := 3
  quiet : Bool := false
  poison : Bool := false
  deriving DecidableEq, Repr

/-- The offsets of units PGR and LDG and DBG that are windows and no registers (13 R726, 10 R495, 19 R967). -/
inductive CsrWindow where
  | icp (slab off : Nat)
  | ingest (off : Nat)
  | stim (off : Nat)
  | none
  deriving DecidableEq, Repr

def csrWindow (a : Nat) : CsrWindow :=
  let u := unitOf a
  let o := a % 0x10000
  if u = 1 ∧ 0x4000 ≤ o ∧ o < 0x8000 then .icp ((o - 0x4000) / 0x1000) (o % 0x1000)
  else if u = 9 ∧ 0x8000 ≤ o then .ingest (o - 0x8000)
  else if u = 24 ∧ 0x8000 ≤ o ∧ o < 0x8100 then .stim (o - 0x8000)
  else .none

/-! The address map -/

def vrdBase : Nat := 0x000200000000
def romEnd : Nat := 0x40000

def inVrd (a : Nat) : Bool := vrdBase ≤ a && a < vrdBase + 32 * 2 ^ 20
def inCsr (a : Nat) : Bool := csrBase ≤ a && a < csrBase + 28 * 0x10000
/-- What a bay window answers (08 R416 to R418): FENCED, or what the personality makes of it. -/
def State.bayAnswers (s : State) (b : Nat) (env : Env) : Resp × W64 :=
  if s.slabFenced (b / 16) || !s.railUp (b / 16) || s.fenced b then (.fenced, 0) else env.bay

/-- A request crosses a 4 KiB boundary, which none may (08 R388). -/
def crosses4K (a n : Nat) : Bool := 4096 < a % 4096 + n

/-- A Verdict window access. -/
def winReq (c : Acc) (a n : Nat) (data : List Byte) : WinReq :=
  { ini := Fin.ofNat 116 c.ini, priv := BitVec.ofNat 2 c.priv, rep := Fin.ofNat 4 (a / 2 ^ 23),
    off := BitVec.ofNat 23 a, len := n, data }

/-- How the register window serves a read, and a write. -/
abbrev CsrRead := Acc → Nat → Nat → Env → State → MemAns × State
abbrev CsrWrite := Acc → Nat → List Byte → State → Resp × State

/-- A read as its target serves it (01 R35 to R42, 08 R394). -/
def mapRead (csr : CsrRead) (c : Acc) (a n : Nat) (env : Env) (s : State) : MemAns × State :=
  if inDram a then dramRead c.ini a n env s
  else if inSpd a then spdRead c.ini a n env s
  else if inCsr a then csr c a n env s
  else if inVrd a then
    let (r, bs, p, t) := vrdWindowRead (winReq c a n []) env.upset s
    (⟨r, bs, p⟩, t)
  else if inBay a then
    let (r, d) := s.bayAnswers (bayOfAddr a) env
    let (rest, t) := s.freeBytes (n - 8)
    (⟨r, if hasData r then (natBytes d.toNat 8 ++ rest).take n else [], []⟩, if 8 < n then t else s)
  else if a < romEnd then
    if c.ini = 0x48 then let (bs, t) := s.freeBytes n; (⟨.okay, bs, []⟩, t) else (⟨.denied, [], []⟩, s)
  else (⟨.unmapped, [], []⟩, s)

/-- A write as its target serves it. -/
def mapWrite (csr : CsrWrite) (c : Acc) (a : Nat) (data : List Byte) (env : Env) (s : State) : Resp × State :=
  if inDram a then dramWrite c.ini a data env s
  else if inSpd a then spdWrite c.ini a data env s
  else if inCsr a then csr c a data s
  else if inVrd a then vrdWindowWrite (winReq c a data.length data) env.upset s
  else if inBay a then ((s.bayAnswers (bayOfAddr a) env).1, s)
  else if a < romEnd then (.denied, s)
  else (.unmapped, s)

/-- The checks that a target makes before that of size (08 R394). -/
def beforeSize (r : Resp) : Bool := r == .unmapped || r == .fenced || r == .poweredDown || r == .offline

/-- A read as its target serves it: SIZE where it crosses a 4 KiB boundary, unless an earlier check fails (08 R388, R394). -/
def mapRead4K (csr : CsrRead) (c : Acc) (a n : Nat) (env : Env) (s : State) : MemAns × State :=
  let (m, t) := mapRead csr c a n env s
  if crosses4K a n then (⟨if beforeSize m.resp then m.resp else .size, [], []⟩, s) else (m, t)

/-- A write as its target serves it, likewise. -/
def mapWrite4K (csr : CsrWrite) (c : Acc) (a : Nat) (data : List Byte) (env : Env) (s : State) : Resp × State :=
  let (r, t) := mapWrite csr c a data env s
  if crosses4K a data.length then (if beforeSize r then r else .size, s) else (r, t)

/-- A read by an initiator as one transaction: what the network makes of it, the target's answer, and the error log. -/
def netRead (csr : CsrRead) (c : Acc) (a n : Nat) (env : Env) (s : State) : MemAns × State :=
  let (net, reached, s0) := netDoes env s
  let (m, s1) :=
    if s.cutOff c.ini a then ((⟨.link, [], []⟩ : MemAns), s0)
    else if !reached then (⟨.okay, [], []⟩, s0)
    else mapRead4K csr c a n env s0
  let m1 := match net with | some r => ⟨r, [], []⟩ | none => m
  (m1, noteEnd c.ini a false m1.resp s1)

/-- A write by an initiator as one transaction. -/
def netWrite (csr : CsrWrite) (c : Acc) (a : Nat) (data : List Byte) (posted : Bool) (env : Env) (s : State) : Resp × State :=
  let (net, reached, s0) := netDoes env s
  let (r, s1) :=
    if s.cutOff c.ini a then (Resp.link, s0)
    else if !reached then (.okay, s0)
    else mapWrite4K csr c a data env s0
  let r1 := net.getD r
  (r1, noteEnd c.ini a posted r1 s1)

/-! Accesses of engines that the registers themselves start -/

/-- The register window as the Pager and the KTP engine meet it (01 R36): they move frames, slots and pages, which no register
takes (00 R6); a four-byte read of an image that lies there returns the register's stored fields. -/
def plainCsrRead : CsrRead := fun _ a n _ s =>
  match csrWindow a with
  | .ingest _ => (⟨.denied, [], []⟩, s)
  | .icp .. | .stim _ => (⟨.okay, List.replicate n 0, []⟩, s)
  | .none => match csrFind a with
    | none => (⟨.unmapped, [], []⟩, s)
    | some (r, i, b) =>
      if regFits r.bits b n then (⟨.okay, natBytes ((s.rd r i).toNat / 2 ^ (8 * b)) n, []⟩, s) else (⟨.size, [], []⟩, s)

def plainCsrWrite : CsrWrite := fun _ a _ s =>
  if csrWindow a = .none ∧ (csrFind a).isNone then (.unmapped, s) else (.size, s)

/-- A read by an engine. -/
def plainRead (ini a n : Nat) (env : Env) (s : State) : MemAns × State := netRead plainCsrRead { ini } a n env s

/-- A write by an engine. -/
def plainWrite (ini a : Nat) (data : List Byte) (posted : Bool) (env : Env) (s : State) : Resp × State :=
  netWrite plainCsrWrite { ini } a data posted env s

/-- Pieces of a transfer that cross no 4 KiB boundary (08 R388): start and length, `fuel` at most. -/
def pieces : Nat → Nat → Nat → List (Nat × Nat)
  | 0, _, _ => []
  | f + 1, a, n => if n = 0 then [] else
      let k := min n (4096 - a % 4096)
      (a, k) :: pieces f (a + k) (n - k)

/-- The environment of one piece: what struck the first word belongs to the first piece alone. -/
def Env.at_ (env : Env) (first : Bool) : Env := if first then env else { env with upset := .none, busy := false }

/-- A read of many bytes piece by piece, up to the first error. -/
def longRead (ini a n : Nat) (env : Env) (s : State) : MemAns × State :=
  (pieces (n / 4096 + 2) a n).foldl (fun (acc : MemAns × State) p =>
    if acc.1.resp ≠ .okay then acc
    else
      let (m, t) := plainRead ini p.1 p.2 (Env.at_ env (p.1 == a)) acc.2
      (⟨m.resp, acc.1.bytes ++ m.bytes, []⟩, t)) (⟨.okay, [], []⟩, s)

/-- A write of many bytes piece by piece, up to the first error. -/
def longWrite (ini a : Nat) (data : List Byte) (env : Env) (s : State) : Resp × State :=
  (pieces (data.length / 4096 + 2) a data.length).foldl (fun (acc : Resp × State) p =>
    if acc.1 ≠ .okay then acc
    else plainWrite ini p.1 ((data.drop (p.1 - a)).take p.2) false (Env.at_ env (p.1 == a)) acc.2) (.okay, s)

end Sys2Proof.Machine
end

