-- ==== Sys2Proof/Machine/Load.lean ====
section
/-! DEFINITION. Signed images: header, block chain, packets and their CRC (12 R650 to R664). The full load, partial images,
steward images and warden patches share them. -/

namespace Sys2Proof.Machine

/-- Words of four bytes, least significant byte first (12 R645). -/
def bytesWords : List Byte → List W32
  | a :: b :: c :: d :: t => BitVec.ofNat 32 (a.toNat + 256 * b.toNat + 65536 * c.toNat + 16777216 * d.toNat) :: bytesWords t
  | _ => []

def wordsBytes (ws : List W32) : List Byte := ws.flatMap fun w => natBytes w.toNat 4

/-- `len` bytes from offset `off`, and the number they spell. -/
def sub (bs : List Byte) (off len : Nat) : List Byte := (bs.drop off).take len
def numAt (bs : List Byte) (off len : Nat) : Nat := (sub bs off len).foldr (fun b a => b.toNat + 256 * a) 0

def syncWord : W32 := 0x6B1D96F0
def imageMagic : Nat := 0x5A96C0F1
def patchMagic : Nat := 0x5A96C0F2
def stewardMagic : Nat := 0x5A96C0F3

/-- Failure causes (12). -/
def causeBadMode : Nat := 1
def causeHeader : Nat := 2
def causeWrongDevice : Nat := 3
def causeKey : Nat := 4
def causeSignature : Nat := 5
def causeHash : Nat := 6
def causeDecrypt : Nat := 7
def causeCrc : Nat := 8
def causeBadFar : Nat := 9
def causeBadPacket : Nat := 10
def causeBadSeq : Nat := 11
def causeNoCheck : Nat := 12
def causeNoStart : Nat := 13
def causeSourceLost : Nat := 14
def causeWindow : Nat := 15

/-- The first check of R651 that a header fails, as its cause. -/
def headerFail (magic id : Nat) (fz : Fuses) (h : List Byte) : Option Nat :=
  let akey := numAt h 6 1
  let ekey := numAt h 7 1
  let zero := fun off len => (sub h off len).all (· == 0)
  if numAt h 0 4 ≠ magic ∨ numAt h 4 2 ≠ 1 ∨ !(zero 14 2 && zero 28 4 && zero 177 239) then some causeHeader
  else if numAt h 8 4 ≠ R.IDN_IDCODE.rst ∨ bit (numAt h 12 2) id = false then some causeWrongDevice
  else if 4 ≤ akey ∨ bit fz.authPresent.toNat akey = false ∨ bit fz.authRevoked.toNat akey
      ∨ Config.authHash akey ≠ Config.sha384 (sub h 80 97) then some causeKey
  else if ekey ≠ 0 ∧ (4 < ekey ∨ bit fz.imgPresent.toNat (ekey - 1) = false) then some causeKey
  else if !Config.p384Verify (sub h 80 97) (Config.sha384 (sub h 0 416)) (sub h 416 96) then some causeSignature
  else none

/-- Takes the image header (12 R650, R651). -/
def loadHeader (magic id : Nat) (fz : Fuses) (h : List Byte) (l : Load) : Except LoadFail Load :=
  match headerFail magic id fz h with
  | some c => .error ⟨c, 0xFFFFFF, l.words + 128, none⟩
  | none => .ok { l with
      phase := .blocks, words := l.words + 128, buf := [], expect := sub h 32 48, salt := sub h 24 4,
      ekey := numAt h 7 1, imageId := BitVec.ofNat 64 (numAt h 16 8) }

/-- A LENGTH that R652 allows. -/
def lenOk (len : Nat) : Bool := len % 4 == 0 && 52 ≤ len && len ≤ 65536

/-- Words of a block as sent (12 R652). -/
def blockWords (l : Load) (len : Nat) : Nat := 1 + len / 4 + (if l.ekey = 0 then 0 else 4)

/-- Takes one whole block: hash, tag, and the words of its packet area released (12 R652 to R655). -/
def loadBlock (len : Nat) (body tag : List Byte) (l : Load) : Except LoadFail Load :=
  let words := l.words + blockWords l len
  if !lenOk len then .error ⟨causeHash, l.block, l.words + 1, none⟩
  else if Config.sha384 (natBytes len 4 ++ body ++ tag) ≠ l.expect then .error ⟨causeHash, l.block, words, none⟩
  else
    let plain :=
      if l.ekey = 0 then some body
      else Config.gcmOpen (Config.imageKey (l.ekey - 1)) (l.salt ++ natBytes l.block 8) (natBytes len 4) body tag
    match plain with
    | none => .error ⟨causeDecrypt, l.block, words, none⟩
    | some p =>
      let ws := bytesWords (p.take (len - 48))
      let next := sub p (len - 48) 48
      .ok { l with
        words := words, block := l.block + 1, buf := [], expect := next, last := next.all (· == 0),
        phase := if next.all (· == 0) then .ended else .blocks,
        stream := l.stream ++ ws.zipIdx.map fun e => (l.block, l.words + 2 + e.2, e.1) }

/-- One more word of a load that arrives word by word: the header or block that it completes, or a LENGTH outside R652. -/
def loadWord (magic id : Nat) (fz : Fuses) (w : W32) (l : Load) : Except LoadFail Load :=
  let l1 := { l with buf := l.buf ++ [w] }
  match l.phase with
  | .sync => .ok (if w = syncWord then { l with phase := .header, words := 0 } else l)
  | .header => if l1.buf.length = 128 then loadHeader magic id fz (wordsBytes l1.buf) l1 else .ok l1
  | .blocks =>
    let len := (l1.buf.headD 0).toNat
    if !lenOk len then .error ⟨causeHash, l.block, l.words + 1, none⟩
    else if l1.buf.length = blockWords l len then
      let bs := wordsBytes (l1.buf.drop 1)
      loadBlock len (bs.take len) (bs.drop len) l1
    else .ok l1
  | _ => .ok l

/-! Packets -/

/-- CRC-32 of polynomial 0x1EDC6F41, reflected (12 R662). -/
def crcCBit (c : W32) : W32 := if c.getLsbD 0 then (c >>> 1) ^^^ 0x82F63B78#32 else c >>> 1
def crcCWord (c w : W32) : W32 := (List.range 32).foldl (fun a _ => crcCBit a) (c ^^^ w)
def crcCWords (c : W32) (ws : List W32) : W32 := ws.foldl crcCWord c

/-- A word of the packet stream with its block and place. -/
abbrev Placed := Nat × Nat × W32

/-- What stands at the front of the packet stream (12 R657 to R659). -/
inductive Packet where
  /-- no whole packet yet -/
  | more
  | nop
  /-- malformed; the word that shows it -/
  | bad (at_ : Placed)
  | pkt (ty code mask : Nat) (head count : Placed) (payload : List Placed)
  deriving DecidableEq, Repr

/-- Payload words of a WRITE; `partial_` is a partial image (12 R665, 13 R696). A PLAN has an odd count, checked with its
contents. -/
def regWords (partial_ : Bool) (code : Nat) : Option Nat :=
  if partial_ then (if code = 0x40 then some 4 else none)
  else if code = 0x10 ∨ code = 0x11 ∨ code = 0x30 then some 2
  else if code = 0x12 then some 8
  else if 0x20 ≤ code ∧ code ≤ 0x28 then some 9
  else none

/-- The count fits the type (12 R659). -/
def countOk (partial_ : Bool) (ty code n : Nat) : Bool :=
  if ty = 1 then (if partial_ && code == 0x41 then n % 2 == 1 else regWords partial_ code == some n)
  else if ty = 2 then 129 ≤ n && (n - 1) % 128 == 0
  else if ty = 3 then n == 1
  else n == 0

/-- The type and code are assigned. -/
def codeOk (partial_ : Bool) (ty code : Nat) : Bool :=
  if ty = 1 then (partial_ && code == 0x41) || (regWords partial_ code).isSome
  else if ty = 2 ∨ ty = 3 then code == 0
  else ty == 4 && code == 1

/-- The packet at the front of the stream. -/
def frontPacket (partial_ : Bool) : List Placed → Packet
  | [] => .more
  | h :: rest =>
    let w := h.2.2.toNat
    let ty := bits w 28 4
    let code := bits w 20 8
    if w = 0 then .nop
    else if !codeOk partial_ ty code || bits w 16 4 != 0 then .bad h
    else match rest with
      | [] => .more
      | c :: body =>
        let n := c.2.2.toNat
        if !countOk partial_ ty code n then .bad c
        else if body.length < n then .more
        else
          let p := body.take n
          let e := (p.headD c).2.2.toNat / 65536
          if ty = 1 ∧ code = 0x41 ∧ n ≠ 1 + 2 * e then .bad c
          else .pkt ty code (bits w 0 16) h c p

/-- Words that the packet takes from the stream. -/
def packetLen : Packet → Nat
  | .nop => 1
  | .pkt _ _ _ _ _ p => 2 + p.length
  | _ => 0

/-- The load with the front packet taken; every word but a CHECK's counts in the CRC (12 R658, R662, R663). -/
def dropPacket (p : Packet) (l : Load) : Load :=
  let n := packetLen p
  let ws := (l.stream.take n).map (·.2.2)
  { l with stream := l.stream.drop n, crc := crcCWords l.crc ws }

/-- A CHECK: the CRC of the words before it compared, then restarted (12 R663). -/
def loadCheck (l : Load) (h : Placed) (payload : List Placed) : Except LoadFail Load :=
  let l1 := { l with stream := l.stream.drop 3, crc := 0xFFFFFFFF, checked := true }
  let w := payload.headD h
  if l.crc ^^^ 0xFFFFFFFF#32 = w.2.2 then .ok l1 else .error ⟨causeCrc, w.1, w.2.1, none⟩

/-! Frame addresses in order (12 R660) -/

/-- The first column, from `col` upward, that has frames of a type in a clock row. -/
def firstCol (ty row col : Nat) : Option Nat :=
  ((List.range (250 - col)).map (· + col)).find? fun c => 0 < farMinors ty row c

/-- The first address of a slab and type from clock row `row` upward. -/
def firstFrom (slab ty row : Nat) : Option Nat :=
  ((List.range (12 - row)).map (· + row)).findSome? fun r => (firstCol ty r 0).map fun c => mkFar slab ty r c 0

/-- The next valid address of the same slab and type: minor first, then column upward, then clock row upward. -/
def farNext (a : Nat) : Option Nat :=
  let sl := farSlab a
  let ty := farType a
  let row := farRow a
  if farMinor a + 1 < farMinors ty row (farCol a) then some (a + 256)
  else match firstCol ty row (farCol a + 1) with
    | some c => some (mkFar sl ty row c 0)
    | none => firstFrom sl ty (row + 1)

/-- Stores the frames of a packet one after another from an address, for as long as `ok` accepts the address; answers the
number stored and the address at which it stopped, if it did. -/
def storeFrames (ok : Nat → Bool) (put : Nat → List W32 → State → State) :
    Nat → Option Nat → List W32 → Nat → State → Nat × Option (Option Nat) × State
  | 0, _, _, k, s => (k, none, s)
  | n + 1, a, ws, k, s =>
    match a with
    | none => (k, some none, s)
    | some a =>
      if ok a then storeFrames ok put n (farNext a) (ws.drop 128) (k + 1) (put a (ws.take 128) s)
      else (k, some (some a), s)

end Sys2Proof.Machine
end

