-- ==== Sys2Proof/Machine/Start.lean ====
section
/-! DEFINITION. Configuration stream and start-up: restart, the full load, its packets, CONF_DONE and the sequences (12). -/

namespace Sys2Proof.Machine

/-- States of CFG_STATUS.STATE. -/
def cfgBlanking : Nat := 0
def cfgIdle : Nat := 1
def cfgHeader : Nat := 2
def cfgLoading : Nat := 3
def cfgWaitDone : Nat := 4
def cfgStarted : Nat := 5
def cfgFailed : Nat := 6

def State.cfgState (s : State) : Nat := s.get F.CFG_STATUS_STATE
def State.setCfg (s : State) (g : Cfg → Cfg) : State := { s with cfg := g s.cfg }

/-- The device number strap as last sampled (12 R643). -/
def State.deviceId (s : State) : Nat := s.get F.CFG_STATUS_ID

/-! Blanking, restart and failure -/

/-- Every pad hold latch opens (17 R901). -/
def padsRelease (s : State) : State :=
  { s with svc := { s.svc with latch := [] }, fabric := { s.fabric with pins := s.fabric.pins.map fun e => (e.1, { e.2 with held := none }) } }

/-- The device is fenced and blanked (12 R646): no frame, zero memories, every bay BLANK, fabric resets and start-up hold
asserted, pins without configuration unless a pad hold latch keeps them. -/
def cfgBlank (s : State) : State :=
  let s1 := s.each (List.range 64) fun t b => dropGolden b ((fenceBay b byBlanking false t).setBay b bayBlank)
  let s2 := clearMemories (fun _ => true) s1
  let f := s2.fabric
  let s3 := { s2 with
    fabric := { f with
      frames := [], frameFlaw := [], flops := [], logic := [], trees := [], treeLevel := [], segLevel := [], ports := []
      borderOut := [], borderIn := [], pins := f.pins.filter fun e => e.2.held.isSome
      released := [], src := [], frstPin := [], frstPinOn := [], synced := [], hold := true
      outReleased := [], holdReleased := [], weReleased := [] }
    pgr := { s2.pgr with holds := s2.pgr.holds.filter fun b => !s2.pgr.icp.any (fun e => e.2.bay == b), icp := [], rimDue := [] } }
  let s4 := s3.each (List.range 4) fun t k =>
    if t.get F.PGR_ICP_STATUS_STATE k = 1 then t.clear F.PGR_ICP_STATUS_STATE k else t
  gateSettle ((s4.clear F.CFG_STATUS_STATE).setCfg fun c => { c with blanking := true, seqs := [], doneHigh := false })

/-- The CFG registers that a restart returns to their reset values (12 R682). -/
def cfgRegsReset (s : State) : State :=
  [R.CFG_ERR, R.CFG_CAUSE, R.CFG_CAUSE_WORD, R.CFG_CAUSE_FAR, R.CFG_IMAGE_ID, R.CFG_USERCODE, R.CFG_SEQ_STATUS,
    R.CFG_LOADED, R.CFG_ANCHOR].foldl (fun t r => t.wr r 0 0) s

/-- A load fails (12 R670): recorded, CONF_ERR high, CONF_DONE low, and the device blanked again. -/
def cfgFail (e : LoadFail) (s : State) : State :=
  let s1 := (s.put F.CFG_CAUSE_CODE 0 e.code).put F.CFG_CAUSE_BLOCK 0 e.block
  let s2 := s1.put F.CFG_CAUSE_WORD_WORD 0 e.word
  let s3 := match e.far with
    | some a => s2.put F.CFG_CAUSE_FAR_FAR 0 a
    | none => if e.code = causeBadFar then (s2.put F.CFG_CAUSE_FAR_FAR 0 (Config.freeWord s2.free).toNat).fresh else s2
  let s4 := (s3.raise F.CFG_ERR_LOAD_FAIL).raise F.CFG_STATUS_ERR_OUT
  let s5 := (s4.clear F.CFG_STATUS_DONE_OUT).clear F.CFG_STATUS_DONE_IN
  padsRelease ((cfgBlank s5).setCfg fun c => { c with failed := true, load := { c.load with phase := .idle, buf := [], stream := [] } })

/-- Restarts configuration (12 R646), with straps sampled unless software asked (R643); a reserved MODE fails at once
(R644). -/
def cfgRestart (cause : RestartCause) (mode id : Nat) (s : State) : State :=
  let straps := cause != .software
  let m := if straps then mode else s.get F.CFG_STATUS_MODE
  let d := if straps then id else s.get F.CFG_STATUS_ID
  let s1 := (cfgRegsReset s).wr R.CFG_STATUS 0 0
  let s2 := (s1.put F.CFG_STATUS_MODE 0 m).put F.CFG_STATUS_ID 0 d
  let s3 := (cfgBlank s2).setCfg fun c => { c with
    load := {}, failed := false, regs := [], nprog := c.nprog && cause != .nProg }
  if 4 ≤ m then cfgFail ⟨causeBadMode, 0, 0, none⟩ s3 else s3

def execConfigRestart (cause : RestartCause) (mode : BitVec 3) (id : BitVec 4) (s : State) : Out :=
  .next (cfgRestart cause mode.toNat id.toNat s)

/-- Blanking ends (12 R646 to R648): IDLE, or FAILED after a failure; not while nPROG is low. -/
def execBlankingDone (s : State) : Out :=
  .next <|
    if !s.cfg.blanking || s.cfg.nprog then s
    else if s.cfg.failed then (s.put F.CFG_STATUS_STATE 0 cfgFailed).setCfg fun c => { c with blanking := false }
    else (s.put F.CFG_STATUS_STATE 0 cfgIdle).setCfg fun c => { c with
      blanking := false, load := { c.load with phase := .sync } }

/-- nPROG is low: the state of R646, held (12 R647). -/
def execNprogLow (s : State) : Out :=
  .next ((cfgRestart .software 0 0 s).setCfg fun c => { c with nprog := true })

/-- The source of a load in progress is lost before START (12 failure table). -/
def cfgSourceLost (src : Nat) (s : State) : State :=
  if (s.cfgState = cfgHeader ∨ s.cfgState = cfgLoading) ∧ s.get F.CFG_STATUS_SRC = src then
    cfgFail ⟨causeSourceLost, if s.cfgState = cfgHeader then 0xFFFFFF else s.cfg.load.block,
      s.cfg.load.words + s.cfg.load.buf.length, none⟩ s
  else s

/-! The image -/

def srcCode : CfgSrc → Nat
  | .bus => 0 | .ktp => 1 | .debug => 2

/-- MODE selects the source (12 R644). -/
def State.srcSelected (s : State) (src : CfgSrc) : Bool :=
  match s.get F.CFG_STATUS_MODE with
  | 0 => src == .bus
  | 1 => src == .ktp
  | 2 => src == .debug
  | 3 => src == .bus || src == .ktp
  | _ => false

/-- The sync word is received from a selected source (12 R650). -/
def cfgSync (src : CfgSrc) (s : State) : State :=
  if s.cfgState = cfgIdle ∧ s.cfg.load.phase = .sync ∧ s.srcSelected src = true then
    ((s.put F.CFG_STATUS_STATE 0 cfgHeader).put F.CFG_STATUS_SRC 0 (srcCode src)).setCfg fun c => { c with
      load := { c.load with phase := .header, words := 0 } }
  else s

def execSyncWord (src : CfgSrc) (s : State) : Out := .next (cfgSync src s)

/-- What the front of the stream calls for without a further packet: a malformed packet, or the image's end before START
(12 R659, failure table). -/
def cfgSettle (s : State) : State :=
  if s.cfgState ≠ cfgLoading then s
  else match frontPacket false s.cfg.load.stream with
    | .bad w => cfgFail ⟨causeBadPacket, w.1, w.2.1, none⟩ s
    | .more =>
      if s.cfg.load.phase = .ended then cfgFail ⟨causeNoStart, s.cfg.load.block - 1, s.cfg.load.words, none⟩ s else s
    | _ => s

/-- The state after a step of the load: a failure, or the load with its state. -/
def cfgTake (r : Except LoadFail Load) (s : State) : State :=
  match r with
  | .error e => cfgFail e s
  | .ok l =>
    let s1 := s.setCfg fun c => { c with load := l }
    let s2 := if s.cfgState = cfgHeader ∧ l.phase = .blocks then
        (s1.put F.CFG_STATUS_STATE 0 cfgLoading).put F.CFG_IMAGE_ID_ID 0 l.imageId.toNat else s1
    cfgSettle s2

/-- The 512-byte image header (12 R650, R651). -/
def execImageHeader (h : List Byte) (s : State) : Out :=
  .next <|
    if s.cfgState = cfgHeader ∧ s.cfg.load.phase = .header ∧ h.length = 512 then
      cfgTake (loadHeader imageMagic s.deviceId s.fuses h s.cfg.load) s
    else s

/-- One whole block, as sent (12 R652 to R655). -/
def execBlock (len : W32) (body tag : List Byte) (s : State) : Out :=
  .next <|
    let l := s.cfg.load
    let whole := !lenOk len.toNat || (body.length == len.toNat && tag.length == (if l.ekey = 0 then 0 else 16))
    if s.cfgState = cfgLoading ∧ l.phase = .blocks ∧ whole then cfgTake (loadBlock len.toNat body tag l) s else s

/-- One word of the image from a source (12 R645), as the KTP stream and the debug port deliver it. -/
def cfgWord (src : CfgSrc) (w : W32) (s : State) : State :=
  if s.cfgState = cfgIdle then (if w = syncWord then cfgSync src s else s)
  else if (s.cfgState = cfgHeader ∨ s.cfgState = cfgLoading) ∧ s.get F.CFG_STATUS_SRC = srcCode src then
    cfgTake (loadWord imageMagic s.deviceId s.fuses w s.cfg.load) s
  else s

/-! Packets of the full load -/

/-- Acts on the packet at the front of the stream when it is of the type told. -/
def cfgPacket (g : Packet → Option (State → State)) (s : State) : State :=
  if s.cfgState ≠ cfgLoading then s
  else match g (frontPacket false s.cfg.load.stream) with
    | some f => cfgSettle (f s)
    | none => s

/-- This device acts on a packet with the mask (12 R658). -/
def State.addressed (s : State) (mask : Nat) : Bool := bit mask s.deviceId

/-- The load with the front packet taken. -/
def cfgDrop (p : Packet) (s : State) : State := s.setCfg fun c => { c with load := dropPacket p c.load }

def execNopPacket (s : State) : Out :=
  .next (cfgPacket (fun p => match p with
    | .nop => some (cfgDrop .nop)
    | _ => none) s)

/-- A bay named by LOADED is LOADING, while it has power (13 R685, R686). -/
def cfgMarkLoading (s : State) : State :=
  s.each (List.range 64) fun t b =>
    if bit (t.get F.CFG_LOADED_BAYS) b && t.bayPowered b then t.setBay b bayLoading
    else if t.bayState b = bayLoading then t.setBay b bayBlank else t

/-- A stream register takes the words of a WRITE (12 R665). -/
def streamWrite (code : Nat) (ws : List W32) (s : State) : State :=
  let v := (ws.getD 0 0).toNat + (ws.getD 1 0).toNat * 2 ^ 32
  if code = 0x10 then cfgMarkLoading (s.put F.CFG_LOADED_BAYS 0 v)
  else if code = 0x11 then s.put F.CFG_ANCHOR_BAYS 0 v
  else if code = 0x30 then s.put F.CFG_USERCODE_CODE 0 v
  else s.setCfg fun c => { c with regs := c.regs.set code ws }

/-- A packet was acted on that a CHECK must follow (12 R664). -/
def cfgUncheck (s : State) : State := s.setCfg fun c => { c with load := { c.load with checked := false } }

def execWritePacket (s : State) : Out :=
  .next (cfgPacket (fun p => match p with
    | .pkt 1 code mask _ _ payload => some fun t =>
        let t1 := cfgDrop p t
        if t.addressed mask then streamWrite code (payload.map (·.2.2)) (cfgUncheck t1) else t1
    | _ => none) s)

/-- The frames of a FRAMES packet (12 R660, R661). -/
def cfgFrames (payload : List Placed) (s : State) : State :=
  let far := (payload.map fun e => e.2.2.toNat).headD 0
  let ws := (payload.drop 1).map (·.2.2)
  let (k, stop, s1) := storeFrames farValid storeFrame (ws.length / 128) (some far) ws 0 s
  match stop with
  | none => s1
  | some a =>
    let w := payload.getD (if k = 0 then 0 else 1 + 128 * k) (0, 0, 0)
    cfgFail ⟨causeBadFar, w.1, w.2.1, a⟩ s1

def execFrames (s : State) : Out :=
  .next (cfgPacket (fun p => match p with
    | .pkt 2 _ mask _ _ payload => some fun t =>
        let t1 := cfgDrop p t
        if t.addressed mask then cfgFrames payload (cfgUncheck t1) else t1
    | _ => none) s)

def execCheck (s : State) : Out :=
  .next (cfgPacket (fun p => match p with
    | .pkt 3 _ _ h _ payload => some fun t => match loadCheck t.cfg.load h payload with
        | .ok l => t.setCfg fun c => { c with load := l }
        | .error e => cfgFail e t
    | _ => none) s)

/-! START and the sequences -/

/-- Privileged bay `k`, when its PRIV word is valid (12 R665). -/
def State.privBay (s : State) (k : Nat) : Option Nat :=
  let w := (s.cfg.regs.get [] 0x12).getD k 0
  if w.getLsbD 31 then some (w.toNat % 64) else none

def State.privBays (s : State) : List Nat := (List.range 8).filterMap s.privBay
def State.anchorBay (s : State) (b : Nat) : Bool := bit (s.get F.CFG_ANCHOR_BAYS) b
def State.loadedBay (s : State) (b : Nat) : Bool := bit (s.get F.CFG_LOADED_BAYS) b

/-- The bays that sequence `k` starts, and whether it is in use (12 R667, R669). -/
def State.seqBays (s : State) (k : Nat) : List Nat :=
  if k = 0 then (List.range 64).filter s.anchorBay else (s.privBay (k - 1)).toList
def State.seqUsed (s : State) (k : Nat) : Bool := !(s.seqBays k).isEmpty

/-- The bays that follow the default sequence. -/
def State.defaultBays (s : State) : List Nat :=
  (List.range 64).filter fun b => !s.anchorBay b && !s.privBays.contains b

/-- The step words and the timeout of sequence `k`. -/
def State.seqStep (s : State) (k i : Nat) : Nat := ((s.cfg.regs.get [] (0x20 + k)).getD i 0).toNat

/-- A malformed step (12 R677). -/
def stepBad (w : Nat) : Bool := bits w 24 8 != 0 || 6 ≤ bits w 4 4 || (bits w 4 4 == 2 && 53 < bits w 8 16)

/-- A malformed sequence (12 R677): a malformed step up to the last, no last step, or releases not made exactly once. -/
def seqBad (ws : List Nat) : Bool :=
  match (ws.take 8).findIdx? fun w => bit w 3 with
  | none => true
  | some n =>
    let used := ws.take (n + 1)
    used.any stepBad || (List.range 3).any fun r => (used.filter fun w => bit w r).length != 1

/-- START is refused as BAD_SEQ (12 R669). -/
def State.badSeq (s : State) : Bool :=
  let pv := s.privBays
  pv.any s.anchorBay || !decide pv.Nodup
    || ((List.range 64).filter s.anchorBay ++ pv).any (fun b => !s.loadedBay b)
    || (List.range 9).any fun k => s.seqUsed k && seqBad ((List.range 8).map (s.seqStep k))

/-- Binds the pins that rim frames describe, a pin under its pad hold latch keeping its own: pins in ascending number, to a
port 0 to 63 of a bay of the same slab that no lower pin has (04 R199, R201); the complement of a pair binds to nothing. -/
def bindPins (l : List (Nat × PinCfg)) (t : Tbl Nat UioPin) : Tbl Nat UioPin :=
  (sortBy (fun (a b : Nat × PinCfg) => a.1 ≤ b.1) l).foldl (fun t e =>
    if (t.get {} e.1).held.isSome then t
    else
      let mate := (t.get {} (pinTrue e.1)).cfg
      let free (bp : Nat × Nat) : Bool :=
        bp.1 / 16 == e.1 / 240 && bp.1 < 64 && bp.2 < 64 && !(e.1 % 2 == 1 && mate.diff && mate.bound.isSome)
          && !t.any fun p => p.2.cfg.bound == some bp
      t.set e.1 { cfg := { e.2 with bound := e.2.bound.filter free, diff := e.2.diff && e.1 % 2 == 0 } }) t

/-- The source of a fabric reset as rim frames name it (04 R181): a pin only where it is one of the slab that is bound to no
bay. -/
def frstSource (pins : Tbl Nat UioPin) (slab : Nat) (c : Nat × Nat) : FrstSrc :=
  if c.1 % 3 = 1 then .software
  else if c.1 % 3 = 2 ∧ c.2 / 240 = slab ∧ ((pins.get {} c.2).cfg.bound).isNone then .pin else .startup

/-- The rim frames of the slabs `ks` take effect: pins bound (04 R199 to R201), reset sources (R181) and the sources of global
trees (R175). -/
def configureRim (ks : List Nat) (s : State) : State :=
  let fr := s.fabric.frames.filter fun e => (farBay e.1).isNone
  let on := ks.filter s.railUp
  let f := s.fabric
  let pins := on.foldl (fun t k => bindPins ((Config.pinsOf k fr).filter fun e => e.1 / 240 == k) t)
    (f.pins.filter fun e => e.2.held.isSome || !ks.contains (e.1 / 240))
  let rst := (List.range 16).filter fun i => on.contains (i / 4)
  let src := rst.map fun i => ((i / 4, i % 4), frstSource pins (i / 4) (Config.frstOf (i / 4) fr (i % 4)))
  let trees := on.flatMap fun k => ((Config.treesOf k fr).filter fun e => e.1 < 16 && (match e.2 with
    | .synth n _ => n < 12
    | .pins b => b < 5)).map fun e => ((k, e.1), e.2)
  { s with fabric := { f with
    pins := pins
    src := (f.src.filter fun e => !ks.contains e.1.1) ++ src
    frstPin := (f.frstPin.filter fun e => !ks.contains e.1.1) ++ rst.map fun i => ((i / 4, i % 4), (Config.frstOf (i / 4) fr (i % 4)).2)
    trees := (f.trees.filter fun e => !ks.contains e.1.1) ++ trees } }

/-- The Pager's copy of the rim frames is taken (13 R723). -/
def rimCopy (s : State) : State :=
  { s with pgr := { s.pgr with rim := s.fabric.frames.filter fun e => (farBay e.1).isNone, rimTaken := true } }

/-- START addressed to this device (12 R672 steps 1 to 3, R666): bays in LOADED READY, the others BLANK. -/
def cfgStart (w : Placed) (s : State) : State :=
  if !s.cfg.load.checked then cfgFail ⟨causeNoCheck, w.1, w.2.1, none⟩ s
  else if s.badSeq then cfgFail ⟨causeBadSeq, w.1, w.2.1, none⟩ s
  else
    let s1 := (s.put F.CFG_STATUS_STATE 0 cfgWaitDone).raise F.CFG_STATUS_DONE_OUT
    let s2 := s1.each (List.range 64) fun t b =>
      if t.loadedBay b && t.bayPowered b then configureBay b (slicesHalt b (t.setBay b bayReady)) else blankWindow b t
    let s3 := rimCopy (configureRim (List.range 4) s2)
    s3.setCfg fun c => { c with
      load := { c.load with phase := .idle, stream := [], buf := [] }
      seqs := ((List.range 9).filter s.seqUsed).map fun k => (k, {}) }

def execStart (s : State) : Out :=
  .next (cfgPacket (fun p => match p with
    | .pkt 4 _ mask h _ _ => some fun t =>
        let t1 := cfgDrop p t
        if t.addressed mask then cfgStart h t1 else t1
    | _ => none) s)

/-- Adds numbers to a list that names each once. -/
def addAll (l new : List Nat) : List Nat := new.foldl (fun l b => if l.contains b then l else l ++ [b]) l

/-- Outputs of bays released: bound pins leave high impedance, and pad hold latches release (12 R672, 17 R901). -/
def releaseOutputs (bays : List Nat) (s : State) : State :=
  padsRelease { s with fabric := { s.fabric with outReleased := addAll s.fabric.outReleased bays } }

/-- Start-up hold of bays released. -/
def releaseHold (bays : List Nat) (s : State) : State :=
  { s with fabric := { s.fabric with holdReleased := addAll s.fabric.holdReleased bays } }

/-- Write enable of bays released: the fence of each that is READY opens (12 R672, 13 R685). -/
def releaseWrite (bays : List Nat) (s : State) : State :=
  let s1 := { s with fabric := { s.fabric with weReleased := addAll s.fabric.weReleased bays } }
  s1.each bays fun t b =>
    if t.bayState b = bayReady ∧ t.fenced b = true ∧ t.slabFenced (b / 16) = false then openBay b t else t

/-- Every fabric reset follows its source from now on (04 R182, 12 R673). -/
def releaseResets (s : State) : State :=
  let all := (List.range 16).map fun i => (i / 4, i % 4)
  let go := all.filter fun e => match s.frstSrc e.1 e.2 with
    | .startup => true
    | src => !s.frstWanted e.1 e.2 src
  { s with fabric := { s.fabric with hold := false, released := go } }

/-- CONF_DONE has read high for 4 cycles: the default sequence runs (12 R672). -/
def execConfDoneHigh (s : State) : Out :=
  .next <|
    if !s.on F.CFG_STATUS_DONE_OUT then s
    else
      let s1 := (s.raise F.CFG_STATUS_DONE_IN).setCfg fun c => { c with doneHigh := true }
      if s1.cfgState ≠ cfgWaitDone then s1
      else
        let d := s1.defaultBays
        let s2 := releaseResets (releaseHold d (releaseOutputs d s1))
        let s3 := releaseWrite (d.filter s1.loadedBay) s2
        ((s3.put F.CFG_STATUS_STATE 0 cfgStarted).raise F.CFG_STATUS_STARTED).raise F.CFG_ERR_STARTED

/-- The condition of a step holds (12 R676); condition 4, a time, is what the command testifies. -/
def State.stepHolds (s : State) (q : Seq) (w : Nat) : Bool :=
  match bits w 4 4 with
  | 0 => true
  | 1 => s.cfg.doneHigh
  | 2 => s.on F.CKG_SYN_STATUS_LOCK (bits w 8 16)
  | 3 => s.on F.TMG_STATUS_QTZ_LOCK
  | 4 => true
  | 5 => q.go
  | _ => false

/-- The next step of a programmable sequence, when its condition holds (12 R676, R679). -/
def execSequenceStep (k : Fin 9) (s : State) : Out :=
  .next <| match s.cfg.seqs.find k.val with
    | none => s
    | some q =>
      let w := s.seqStep k q.step
      if !s.stepHolds q w then s
      else
        let bays := s.seqBays k
        let s1 := s.when (bit w 0) (releaseOutputs bays)
        let s2 := s1.when (bit w 1) (releaseHold bays)
        let s3 := s2.when (bit w 2) (releaseWrite bays)
        if bit w 3 then
          ((s3.putBit F.CFG_SEQ_STATUS_DONE 0 k true).raise F.CFG_ERR_SEQ_DONE).setCfg fun c => { c with
            seqs := c.seqs.erase k.val }
        else s3.setCfg fun c => { c with seqs := c.seqs.set k.val { step := q.step + 1 } }

/-- A sequence with a timeout has not finished in it (12 R678). -/
def execSeqTimeout (k : Fin 9) (s : State) : Out :=
  .next <|
    if (s.cfg.seqs.find k.val).isSome && s.seqStep k 8 != 0 then
      ((s.putBit F.CFG_SEQ_STATUS_TIMEOUT 0 k true).raise F.CFG_ERR_SEQ_TIMEOUT).setCfg fun c => { c with
        seqs := c.seqs.erase k.val }
    else s

/-- A write of CFG_SEQ_GO (12 R676 condition 5). -/
def seqGoWrite (w : Nat) (s : State) : State :=
  s.setCfg fun c => { c with seqs := c.seqs.map fun e => if bit w e.1 && e.1 < 9 then (e.1, { e.2 with go := true }) else e }

def execSeqGo (w : W32) (s : State) : Out := .next (seqGoWrite w.toNat s)

/-- CONF_DONE falls (12 R674). -/
def execDoneFell (s : State) : Out :=
  .next <|
    let s1 := (s.clear F.CFG_STATUS_DONE_IN).setCfg fun c => { c with doneHigh := false }
    s1.when (s.on F.CFG_STATUS_STARTED) (·.raise F.CFG_ERR_DONE_FELL)

/-- A write of CFG_FRST: resets whose source is software follow it once start-up has released global set/reset
(12 R682, 04 R181, R182). -/
def frstWrite (w : Nat) (s : State) : State :=
  let s1 := s.put F.CFG_FRST_ASSERT 0 w
  s1.each ((List.range 16).map fun i => (i / 4, i % 4)) fun t e =>
    if t.frstSrc e.1 e.2 ≠ .software ∨ t.fabric.hold = true then t
    else if bit w (e.1 * 4 + e.2) then (if t.fabric.released.contains e then frstAssert e.1 e.2 t else t)
    else frstFree e.1 e.2 t

/-- CFG registers that are computed when read. -/
def cfgView (s : State) (r : Reg) (i : Nat) : Option Nat :=
  if r = R.CFG_WORDS then some (min 0xFFFFFFFF (s.cfg.load.words + s.cfg.load.buf.length))
  else sliceView s r i

/-- CFG registers whose write is more than its access codes. -/
def cfgWrite (s : State) (r : Reg) (w : Nat) : Option State :=
  if r = R.CFG_CTRL then some (if bit w 0 then cfgRestart .software 0 0 s else s)
  else if r = R.CFG_SEQ_GO then some (seqGoWrite w s)
  else if r = R.CFG_FRST then some (frstWrite w s)
  else sliceWrite s r w

end Sys2Proof.Machine
end

