-- ==== Sys2Proof/Machine/HostLink.lean ====
section
/-! DEFINITION. Identity, Ethernet ports and the KTP engine's sessions, streams and rings (11). -/

namespace Sys2Proof.Machine

/-! Identity (11 R642, R1009) -/

/-- MAC_BASE: an even unicast address; bits [47:40] are the octet sent first. -/
def macBase : Nat :=
  let v := Config.macBits.toNat
  v - v % 2 - (if bit v 40 then 2 ^ 40 else 0)

/-- Byte `k` of IDN_IDKEY: 0x04, x and y, then zeros. -/
def idKeyByte (k : Nat) : Byte := if k = 0 then 4 else if k ≤ 96 then Config.idKeyByte k else 0

def idKey : List Byte := (List.range 97).map idKeyByte

/-- IDN registers that fuses hold. -/
def idnView (_s : State) (r : Reg) (i : Nat) : Option Nat :=
  if r = R.IDN_SERIAL then some Config.serial.toNat
  else if r = R.IDN_MAC_BASE then some macBase
  else if r = R.IDN_DFW_SUP then some (if i = 0 then 0xFF else 0)
  else if r = R.IDN_IDKEY then
    some ((List.range 4).foldr (fun k a => (idKeyByte (4 * i + k)).toNat + 256 * a) 0)
  else none

/-- The Device Feature Words offered (11 R616). -/
def dfwOffered : List W32 := [0xFF, 0, 0, 0]

def dfwCore : Nat := 0
def dfwVerbs : Nat := 1
def dfwConfig : Nat := 2
def dfwEvents : Nat := 3
def dfwTrace : Nat := 4
def dfwReadout : Nat := 5
def dfwHold : Nat := 6
def dfwFailover : Nat := 7

/-! Ethernet ports -/

/-- The port has its link and its clock runs (17 R882). -/
def State.portLink (s : State) (p : Nat) : Bool := s.on F.ETH_STATUS_LINK p && s.unitClocked (18 + p)
def State.portOn (s : State) (p : Nat) : Bool := s.on F.ETH_CTRL_EN p && s.unitClocked (18 + p)
def State.setKtp (s : State) (g : Ktp → Ktp) : State := { s with ktp := g s.ktp }

/-- RS-FEC is in use (11 R571, R572). -/
def State.fecUsed (s : State) (p : Nat) : Bool := s.get F.ETH_CTRL_MODE p != 0 || s.on F.ETH_CTRL_FEC p

/-- The port's MAC address: IDN_MAC_BASE + port until ETH_MAC is written (11 ETH_MAC). -/
def State.portMac (s : State) (p : Nat) : Nat :=
  match s.regs.find (R.ETH_MAC.addr p) with
  | some v => v.toNat % 2 ^ 48
  | none => macBase + p

/-- The link-local address of a port: fe80::/64 with the modified EUI-64 of its MAC (11 R580). -/
def State.linkLocal (s : State) (p : Nat) : Nat :=
  let m := s.portMac p
  let hi := m / 2 ^ 24
  let flip := if bit hi 17 then hi - 2 ^ 17 else hi + 2 ^ 17
  0xFE80 * 2 ^ 112 + flip * 2 ^ 40 + 0xFFFE * 2 ^ 24 + m % 2 ^ 24

def State.globalIp (s : State) (p : Nat) : Nat := s.get F.ETH_IP6_HI_ADDR p * 2 ^ 64 + s.get F.ETH_IP6_LO_ADDR p

/-- The port holds the IPv6 address. -/
def State.holdsIp6 (s : State) (p a : Nat) : Bool := a == s.linkLocal p || (a != 0 && a == s.globalIp p)

/-- A solicited-node multicast address of the port, as an Ethernet destination. -/
def State.solicited (s : State) (p dst : Nat) : Bool :=
  let low := fun (a : Nat) => 0x3333FF000000 + a % 2 ^ 24
  dst == low (s.portMac p) || (s.globalIp p != 0 && dst == low (s.globalIp p))

/-- A frame is received. -/
def frameIn (p : Nat) (corr : Nat) (s : State) : State :=
  let s1 := s.bumpWrap F.ETH_RX_FRAMES_COUNT p
  if corr = 0 then s1 else s1.bumpHold F.ETH_FEC_CORR_COUNT p corr

/-- A frame or packet is discarded and counted. -/
def portDrop (p : Nat) (s : State) : State := (s.bumpHold F.ETH_DROPS_COUNT p).raise F.ETH_ERR_DROP p

/-- The IP layer discards the packet (11 R578 to R581). An IPv6 packet to an address that the port does not hold is discarded too,
but for a multicast one, which the destination check of R577 has judged (DEDUCED from R580 and RFC 8200). -/
def State.packetRefused (s : State) (p : Nat) (x : NetPacket) : Bool :=
  let mine := s.get F.KTP_CTRL_UDP_PORT
  match x with
  | .ip4 dst sumOk options fragment body =>
    !sumOk || options || fragment || dst == 0 || dst.toNat != s.get F.ETH_IP4_ADDR p
      || (match body with | .udp port sum => port.toNat != mine || sum == .bad | .icmp => false | .other => false)
  | .ip6 dst body =>
    !(s.holdsIp6 p dst.toNat || dst.toNat / 2 ^ 120 == 0xFF)
      || (match body with | .udp port sum => port.toNat != mine || sum != .good | .icmp => false | .other => true)
  | .other => false

/-- The port discards the packet without counting it in ETH_DROPS: an ARP, ICMP or ICMPv6 message that its own row does not answer
(11 R582), and what is neither ARP nor a transport that the port knows (DEDUCED). -/
def unansweredPacket : NetPacket → Bool
  | .ip4 _ _ _ _ (.udp ..) => false
  | .ip6 _ (.udp ..) => false
  | _ => true

/-- The port discards the frame and counts it (11 R575 to R581). -/
def State.frameRefused (s : State) (p : Nat) (f : Frame) : Bool :=
  let tagged := s.on F.ETH_VLAN_EN p
  let tagOk := if tagged then f.vid == some (BitVec.ofNat 12 (s.get F.ETH_VLAN_VID p)) else f.vid.isNone
  let d := f.dst.toNat
  !f.fcs || f.uncorr || f.control || s.packetRefused p f.packet || !tagOk
    || decide (s.get F.ETH_MTU_BYTES p + (if f.vid.isSome then 22 else 18) < f.bytes)
    || !(d == s.portMac p || d == 2 ^ 48 - 1 || s.solicited p d)

/-- A frame that the port discards. -/
def execFrameDrop (port : PortId) (f : Frame) (s : State) : Out :=
  .next <|
    let p := port.val
    if !s.portLink p then s
    else if !s.frameRefused p f then
      if unansweredPacket f.packet then (frameIn p 0 s).raise F.ETH_ERR_DROP p else s
    else
      let s1 := portDrop p (frameIn p 0 s)
      let s2 := s1.when f.uncorr fun t => (t.bumpHold F.ETH_FEC_UNCORR_COUNT p).raise F.ETH_ERR_FEC_UNCORR p
      s2.when (!f.fcs || f.uncorr) fun t => (t.bumpHold F.ETH_FCS_ERRS_COUNT p).raise F.ETH_ERR_FCS p

/-- The headers of a frame that the port sends now. -/
def State.sentHdr (s : State) (p : Nat) : SentHdr :=
  { mac := s.portMac p, ttl := s.get F.ETH_IPHDR_TTL p, dscp := s.get F.ETH_IPHDR_DSCP p,
    tag := if s.on F.ETH_VLAN_EN p then some (s.get F.ETH_VLAN_VID p, s.get F.ETH_VLAN_PCP p) else none }

/-- A frame leaves a port. -/
def sendFrame (x : Sent) (s : State) : State :=
  (s.setKtp fun k => { k with sent := k.sent ++ [{ x with hdr := s.sentHdr x.port }] }).bumpWrap F.ETH_TX_FRAMES_COUNT x.port

/-- ARP, neighbour discovery and echo (11 R582); other messages are discarded. An echo request to an address that is not the port's
is discarded by R578 or R580, and counted. -/
def execArpRequest (port : PortId) (target : W32) (s : State) : Out :=
  .next <|
    let p := port.val
    if !s.portLink p then s
    else
      let s1 := frameIn p 0 s
      if target ≠ 0 ∧ target.toNat = s.get F.ETH_IP4_ADDR p then sendFrame { port := p, body := .arp target } s1
      else s1.raise F.ETH_ERR_DROP p

def execNeighbourSolicitation (port : PortId) (target : BitVec 128) (s : State) : Out :=
  .next <|
    let p := port.val
    if !s.portLink p then s
    else
      let s1 := frameIn p 0 s
      if s.holdsIp6 p target.toNat then sendFrame { port := p, body := .advert target } s1 else s1.raise F.ETH_ERR_DROP p

def execEchoRequest (port : PortId) (v6 : Bool) (dst : BitVec 128) (payload : List Byte) (s : State) : Out :=
  .next <|
    let p := port.val
    if !s.portLink p then s
    else
      let s1 := frameIn p 0 s
      let mine := if v6 then s.holdsIp6 p dst.toNat else dst != 0 && dst.toNat == s.get F.ETH_IP4_ADDR p
      if !mine then portDrop p s1
      else if s.on F.ETH_CTRL_ECHO_EN p then sendFrame { port := p, body := .echo payload } s1
      else s1.raise F.ETH_ERR_DROP p

/-! Sessions and streams -/

def State.sess (s : State) (n : Nat) : Session := s.ktp.sess.get {} n
def State.setSess (s : State) (n : Nat) (x : Session) : State := s.setKtp fun k => { k with sess := k.sess.set n x }
def State.modSess (s : State) (n : Nat) (g : Session → Session) : State := s.setSess n (g (s.sess n))

def Session.stream (x : Session) (k : Nat) : KtpStream := x.streams.get {} k
def Session.setStream (x : Session) (k : Nat) (t : KtpStream) : Session := { x with streams := x.streams.set k t }
def State.modStream (s : State) (n k : Nat) (g : KtpStream → KtpStream) : State :=
  s.modSess n fun x => x.setStream k (g (x.stream k))

def Session.assoc (x : Session) (sa : Bool) : Sa := if sa then x.sa1 else x.sa0
def Session.setAssoc (x : Session) (sa : Bool) (a : Sa) : Session :=
  if sa then { x with sa1 := a } else { x with sa0 := a }

/-- A feature of the session is enabled (11 R617). -/
def Session.has (x : Session) (f : Nat) : Bool := (x.dfw.headD 0).getLsbD f

def SessSt.code : SessSt → Nat
  | .closed => 0 | .opening => 1 | .opened => 2 | .held => 3

/-- The largest segment payload (11 R584). -/
def State.segMax (s : State) (x : Session) : Nat := s.get F.ETH_MTU_BYTES x.port - (if x.peer.v6 then 96 else 76)

/-- Readout stream `k` is mapped to session `n`. -/
def State.roMapped (s : State) (k n : Nat) : Bool :=
  let w := (s.rd R.KTP_RO_MAP).toNat
  bit w (4 * k + 3) && bits w (4 * k) 3 == n

/-- The session a readout stream is mapped to. -/
def State.roSession (s : State) (k : Nat) : Option Nat :=
  let w := (s.rd R.KTP_RO_MAP).toNat
  if bit w (4 * k + 3) then some (bits w (4 * k) 3) else none

def segBytes (l : List Seg) : Nat := (l.map fun g => g.payload.length).sum

/-- Bytes held in the retransmit buffer. -/
def State.rtxUsed (s : State) : Nat :=
  (s.ktp.sess.map fun e => (e.2.streams.map fun t => segBytes t.2.unacked).sum).sum
    + (s.ktp.hand.map fun h => h.2.2.length).sum
    + (s.ktp.sess.map fun e => (e.2.streams.map fun t => if 16 ≤ t.1 then segBytes t.2.waiting else 0).sum).sum

/-- The retransmit buffer has room for `n` bytes more (11 R596). -/
def State.rtxRoom (s : State) (n : Nat) : Bool := s.rtxUsed + n ≤ s.get F.KTP_RTX_SIZE_MIB * 2 ^ 20

/-- The session closes (11 R631). -/
def sessClose (n : Nat) (s : State) : State :=
  let x := s.sess n
  if x.st = .closed then s
  else
    let ks := (List.range 8).filter fun k => s.roMapped k n
    let lost := ((List.range 8).map fun k => let t := x.stream (16 + k); segBytes t.unacked + segBytes t.waiting).sum
      + ((s.ktp.hand.filter fun h => ks.contains h.1).map fun h => h.2.2.length).sum
    let part := ks.filter fun k => (s.ldg.owner.find k).isSome
    let s1 := s.setKtp fun q => { q with
      sess := q.sess.set n { port := x.port }
      hand := q.hand.filter fun h => !ks.contains h.1
      discard := q.discard.filter (fun k => !part.contains k) ++ part }
    let s2 := s1.raise F.KTP_ERR_SESSION_CLOSED
    let s3 := s2.when (lost != 0) fun t => (t.bumpHold F.KTP_LOST_BYTES_COUNT 0 lost).raise F.KTP_ERR_DATA_LOST
    if x.confUsed then cfgSourceLost 1 s3 else s3

/-- A control message (11 R614). -/
def ctrlMsg (ty : Nat) (body : List Byte) : List Byte := natBytes ty 2 ++ natBytes body.length 2 ++ body

/-- Gives a segment its SEQ and leaves it waiting; a stream that has sent every SEQ sends nothing more (11 R606). -/
def queueSeg (n k : Nat) (recStart : Bool) (payload : List Byte) (s : State) : State :=
  s.modStream n k fun t =>
    if 2 ^ 64 ≤ t.next then t
    else { t with next := t.next + 1, waiting := t.waiting ++ [{ seq := t.next, recStart := recStart, payload := payload }] }

/-- One DATA or ACK packet of a session leaves: it takes the next PN of the sending SA (11 R619). -/
def emitPkt (n kind k seq : Nat) (recStart : Bool) (payload : List Byte) (s : State) : State :=
  let x := s.sess n
  let a := x.assoc x.sa
  sendFrame { port := x.port, peer := some x.peer, body := .ktp kind x.sa recStart k x.id a.tx seq payload }
    (s.setSess n (x.setAssoc x.sa { a with tx := a.tx + 1 }))

/-- REKEY_DUE is sent as the next segment of stream 0 (11 R620); where older ones wait, or the window or the retransmit buffer has no
room, it waits in turn. -/
def rekeyDue (n : Nat) (s : State) : State :=
  let msg := ctrlMsg 6 []
  let t := (s.sess n).stream 0
  if !t.waiting.isEmpty ∨ t.limit ≤ t.next ∨ s.rtxRoom msg.length = false then queueSeg n 0 false msg s
  else
    let g : Seg := { seq := t.next, payload := msg }
    emitPkt n 1 0 g.seq false msg (s.modStream n 0 fun t => { t with next := t.next + 1, unacked := t.unacked ++ [g] })

/-- Sends one DATA or ACK packet of a session (11 R619 to R621). A session in HOLD sends nothing (R628). -/
def sendPkt (n kind k seq : Nat) (recStart : Bool) (payload : List Byte) (s : State) : State :=
  let x := s.sess n
  if x.st = .closed ∨ x.st = .held then s
  else
    let pn := (x.assoc x.sa).tx
    let s1 := emitPkt n kind k seq recStart payload s
    if pn = 2 ^ 64 - 1 then (sessClose n s1).raise F.KTP_ERR_PN_EXHAUSTED
    else if pn = 2 ^ 62 then rekeyDue n (s1.raise F.KTP_ERR_REKEY_DUE)
    else s1

/-- Sends the segments of a stream that wait, as far as the peer's window and the retransmit buffer allow (11 R596, R600). -/
def pumpStream : Nat → Nat → Nat → State → State
  | 0, _, _, s => s
  | f + 1, n, k, s =>
    let x := s.sess n
    let t := x.stream k
    match t.waiting with
    | [] => s
    | g :: rest =>
      if x.st = .closed ∨ x.st = .held ∨ t.limit ≤ g.seq then s
      else if k < 16 ∧ s.rtxRoom g.payload.length = false then s
      else
        let s1 := s.modStream n k fun t => { t with waiting := rest, unacked := t.unacked ++ [g] }
        pumpStream f n k (sendPkt n 1 k g.seq g.recStart g.payload s1)

def pumpOne (n k : Nat) (s : State) : State := pumpStream ((s.sess n).stream k).waiting.length n k s

/-- The records of host events that go into one segment (11 R594). -/
def evtRecords (l : List (Nat × Nat)) : List Byte := l.flatMap fun e => natBytes e.1 2 ++ natBytes 0 6 ++ natBytes e.2 8

/-- Sends event records and trace packets while their services are on and their sessions open (18 R934, 19 R969). A segment
of each is filled as far as LEN allows, `fuel` of each at most. -/
def svcPump : Nat → State → State
  | 0, s => s
  | f + 1, s =>
    let n := s.get F.KTP_SVC_EVT_SESSION
    let x := s.sess n
    let m := s.get F.KTP_SVC_TRACE_SESSION
    let y := s.sess m
    if s.on F.KTP_SVC_EVT_EN && x.st == .opened && x.has dfwEvents && !s.evc.host.isEmpty
        && (x.stream 3).waiting.isEmpty && (x.stream 3).next < (x.stream 3).limit then
      let c := s.segMax x / 16
      let s1 := { s with evc := { s.evc with host := s.evc.host.drop c } }
      svcPump f (pumpOne n 3 (queueSeg n 3 false (evtRecords (s.evc.host.take c)) s1))
    else if s.on F.KTP_SVC_TRACE_EN && y.st == .opened && y.has dfwTrace && (y.stream 4).waiting.isEmpty
        && (y.stream 4).next < (y.stream 4).limit then
      match s.dbg.trace with
      | [] => s
      | p :: t => svcPump f (pumpOne m 4 (queueSeg m 4 false p { s with dbg := { s.dbg with trace := t } }))
    else s

/-- The services send what they can. -/
def svcSend (s : State) : State := svcPump (s.evc.host.length + s.dbg.trace.length) s

/-- Everything of a session that waits and may go is sent. -/
def pumpSess (n : Nat) (s : State) : State :=
  svcSend (s.each ((s.sess n).streams.map (·.1)) fun t k => pumpOne n k t)

/-- A control message of the device, as the next segment of stream 0. -/
def sendCtrl (n ty : Nat) (body : List Byte) (s : State) : State := pumpOne n 0 (queueSeg n 0 false (ctrlMsg ty body) s)

/-- A CLOSE of the device is sent once, and the session closes (11 R632). -/
def sessCloseSend (n : Nat) (s : State) : State :=
  let x := s.sess n
  if x.st = .closed then s
  else
    sessClose n (sendPkt n 1 0 (x.stream 0).next false (ctrlMsg 7 (natBytes 0 4)) s)

/-- Sends one segment again (11 R603). -/
def resend (n k seq : Nat) (s : State) : State :=
  match ((s.sess n).stream k).unacked.find? fun g => g.seq == seq with
  | none => s
  | some g =>
    let s1 := s.modStream n k fun t => { t with
      unacked := t.unacked.map fun h => if h.seq = seq then { h with again := h.again + 1 } else h }
    (sendPkt n 1 k g.seq g.recStart g.payload s1).bumpHold F.KTP_RETRANSMITS_COUNT

/-- Sends every unacknowledged segment of a session again (11 R626, R629). -/
def resendAll (n : Nat) (s : State) : State :=
  s.each ((s.sess n).streams.flatMap fun e => e.2.unacked.map fun g => (e.1, g.seq)) fun t (e : Nat × Nat) => resend n e.1 e.2 t

/-- A held session resumes (11 R629). -/
def sessResume (n : Nat) (s : State) : State :=
  pumpSess n (resendAll n (s.modSess n fun x => { x with st := .opened }))

/-- The port of a session has lost its link, or is treated so (11 R604, R626, R627). -/
def sessLinkLost (n : Nat) (s : State) : State :=
  let x := s.sess n
  if x.st = .closed ∨ x.st = .held then s
  else if x.st = .opened && x.has dfwFailover && s.on F.KTP_CTRL_FAILOVER_EN && s.portLink (1 - x.port) then
    pumpSess n (resendAll n ((s.modSess n fun x => { x with port := 1 - x.port }).raise F.KTP_ERR_FAILOVER))
  else if x.st = .opened && x.has dfwHold && s.get F.KTP_HOLD_MS != 0 then
    (s.modSess n fun x => { x with st := .held }).raise F.KTP_ERR_HOLD
  else sessClose n s

/-! Link state (11 R571 to R574) -/

/-- LINK of a port falls. -/
def portFall (p : Nat) (s : State) : State :=
  if !s.on F.ETH_STATUS_LINK p then s
  else
    let s1 := (s.clear F.ETH_STATUS_LINK p).raise F.ETH_ERR_LINK_DOWN p
    s1.each (List.range 8) fun t n => if (t.sess n).port = p then sessLinkLost n t else t

/-- The port stops: disabled, or its domain is off. -/
def portStop (p : Nat) (s : State) : State := (portFall p s).wr R.ETH_STATUS p 0

/-- A write of ETH_CTRL (11 R638), whose EN is an action of the port's domain (01 R46). -/
def ethCtrlWrite (p w : Nat) (s : State) : State :=
  let old := (s.rd R.ETH_CTRL p).toNat
  if bits w 1 2 = 3 ∨ (bit old 0 = true ∧ bits w 1 4 ≠ bits old 1 4) then s.raise F.ETH_ERR_CFG_REFUSED p
  else if bit w 0 != bit old 0 && !s.domOn (94 + p) then s.answer .poweredDown
  else
    let s1 := s.wrCodes R.ETH_CTRL p (BitVec.ofNat 64 w) false
    if bit old 0 && !bit w 0 then portStop p s1 else s1

def execEthEnable (port : PortId) (w : W32) (s : State) : Out := .next (ethCtrlWrite port.val w.toNat s)

/-- LINK rises (11 R574); not without the lane supplies (21 R998). That the selected reference is 156.25 MHz (R573), and that 20 lanes
are aligned, FEC is locked and hi_ber is clear, the row testifies. -/
def execLinkUp (port : PortId) (s : State) : Out :=
  .next <|
    let p := port.val
    if !s.portOn p || s.portLink p || !s.laneSupply then s
    else
      let neg := s.get F.ETH_CTRL_MODE p != 0
      let s1 := ((s.wr R.ETH_STATUS p 0).raise F.ETH_STATUS_LINK p).raise F.ETH_STATUS_ALIGNED p
      let s2 := (s1.flag F.ETH_STATUS_FEC_LOCK p (s.fecUsed p)).flag F.ETH_STATUS_AN_DONE p neg
      (s2.raise F.ETH_ERR_LINK_UP p).each (List.range 8) fun t n =>
        if (t.sess n).st = .held ∧ (t.sess n).port = p then sessResume n t else t

def execLinkDown (port : PortId) (aligned fecLock hiBer : Bool) (s : State) : Out :=
  .next <|
    let p := port.val
    if !s.portLink p || (aligned && (fecLock || !s.fecUsed p) && !hiBer) then s
    else
      let s1 := (s.flag F.ETH_STATUS_ALIGNED p aligned).flag F.ETH_STATUS_FEC_LOCK p (fecLock && s.fecUsed p)
      portFall p (s1.flag F.ETH_STATUS_HI_BER p hiBer)

/-! Receiving KTP packets (11 R587, R588, R625) -/

/-- The slot of a session identifier, if one is not CLOSED. -/
def State.sessOf (s : State) (id : W32) : Option Nat :=
  (List.range 8).find? fun n => (s.sess n).st != .closed && (s.sess n).id == id

/-- A PN that R588 accepts. -/
def Sa.accepts (a : Sa) (pn : Nat) : Bool :=
  match a.top with
  | none => true
  | some t => t < pn || (t - 1024 ≤ pn && pn < t && !a.seen.contains pn)

def Sa.took (a : Sa) (pn : Nat) : Sa :=
  match a.top with
  | none => { a with top := some pn, seen := [] }
  | some t =>
    if t < pn then { a with top := some pn, seen := (t :: a.seen).filter fun q => pn ≤ q + 1024 }
    else { a with seen := pn :: a.seen }

/-- The UDP length fits (check 3 of R587). -/
def udpFits (p : KtpRx) : Bool :=
  p.udpLen.toNat == 40 + p.len.toNat + (if p.kind == 1 || p.kind == 2 then 16 else 0)

/-- The packet arrives at the engine; a port without link, or an engine that is off, takes none. -/
def State.ktpHears (s : State) (p : KtpRx) : Bool := s.portLink p.port && s.on F.KTP_CTRL_EN

/-- What the checks of R587 say of a packet. -/
inductive RxCheck where
  | drop | badTag | replay
  | hello
  | good (slot : Nat)
  deriving DecidableEq, Repr

def ktpCheck (p : KtpRx) (s : State) : RxCheck :=
  let k := p.kind.toNat
  if p.ver ≠ 0x10 ∨ !(k = 1 ∨ k = 2 ∨ k = 0x10 ∨ k = 0x11) then .drop
  else if k = 0x10 then (if p.session = 0 ∧ udpFits p then .hello else .drop)
  else match s.sessOf p.session with
    | none => .drop
    | some n =>
      let a := (s.sess n).assoc (p.flags.getLsbD 0)
      if !udpFits p ∨ k = 0x11 then .drop
      else if a.key.isNone then .drop
      else if !p.tagOk then .badTag
      else if !a.accepts p.pn.toNat then .replay
      else .good n

/-- An accepted packet of slot `n`: the replay window, the old SA's end after a rekey, the peer record and the port
(11 R588, R623, R625, R629). PNs of the two SAs are not compared: the packet's is held against those accepted under its own SA, and
the latest ACK counts anew with the new SA (DEDUCED). -/
def ktpAccepted (n : Nat) (p : KtpRx) (s : State) : State :=
  let x := s.sess n
  let sa := p.flags.getLsbD 0
  let a := x.assoc sa
  let newest := match a.top with | none => true | some t => t < p.pn.toNat
  let x1 := x.setAssoc sa (a.took p.pn.toNat)
  let x2 := if sa = x.sa ∧ (x.assoc (!sa)).key.isSome then
      { x1.setAssoc (!sa) {} with streams := x1.streams.map fun e => (e.1, { e.2 with ackPn := none }) }
    else x1
  let x3 := if newest then { x2 with peer := p.peer, port := p.port.val } else x2
  let s1 := s.setSess n x3
  if x.st = .held ∧ s1.portLink x3.port then sessResume n s1 else s1

/-- A packet that fails a check (11 R587). -/
def ktpDrop (p : KtpRx) (v : RxCheck) (s : State) : State :=
  match v with
  | .drop => portDrop p.port s
  | .badTag => (s.bumpHold F.KTP_AUTH_FAILS_COUNT).raise F.KTP_ERR_AUTH_FAIL
  | .replay => (s.bumpHold F.KTP_REPLAYS_COUNT).raise F.KTP_ERR_REPLAY
  | _ => s

/-- A packet of a session: checked, then given to `g` with its slot. An engine that is off discards it. -/
def ktpTake (p : KtpRx) (g : Nat → State → State) (s : State) : State :=
  if !s.portLink p.port then s
  else
    let s1 := frameIn p.port p.corr s
    if !s.on F.KTP_CTRL_EN then portDrop p.port s1
    else match ktpCheck p s1 with
      | .good n => g n (ktpAccepted n p s1)
      | .hello => s1
      | v => ktpDrop p v s1

/-- A packet that fails a check is discarded; one that passes them all is not this command's. -/
def execPacketDiscard (p : KtpRx) (s : State) : Out :=
  .next <|
    match ktpCheck p s with
    | .good _ => if s.on F.KTP_CTRL_EN then s else ktpTake p (fun _ t => t) s
    | .hello => if s.on F.KTP_CTRL_EN then s else ktpTake p (fun _ t => t) s
    | _ => ktpTake p (fun _ t => t) s

/-! Control rings (11 R633 to R635) -/

def ktpIni : Nat := 0x4A

/-- The receive ring is full. -/
def State.crxFull (s : State) : Bool := (s.get F.KTP_CRX_PTR_HEAD + 1) % 256 == s.get F.KTP_CRX_PTR_TAIL

/-- Writes a slot of the receive ring and advances HEAD. -/
def crxPut (sess port : Nat) (headers msg : List Byte) (env : Env) (s : State) : State :=
  let h := s.get F.KTP_CRX_PTR_HEAD
  let a := s.get F.KTP_CRX_BASE_ADDR * 4096 + h * 2048
  let head := (headers ++ List.replicate 56 0).take 56
  let m := msg.take 1984
  let bs := natBytes m.length 2 ++ natBytes sess 1 ++ natBytes port 1 ++ natBytes 0 4 ++ head ++ m
  let s1 := (plainWrite ktpIni a bs false env s).2
  let s2 := s1.setKtp fun q => { q with hellos := q.hellos.erase h }
  (s2.put F.KTP_CRX_PTR_HEAD 0 (h + 1)).raise F.KTP_ERR_CTRL_MSG

/-- The bytes of a HELLO packet: header and payload (11 R585, R609). -/
def helloBytes (p : KtpRx) : List Byte :=
  [p.ver, p.kind, p.flags, p.stream] ++ natBytes p.session.toNat 4 ++ natBytes p.pn.toNat 8 ++ natBytes p.seq.toNat 8
    ++ natBytes p.len.toNat 2 ++ natBytes 0 6 ++ p.payload

/-- A HELLO goes to the receive ring; with the ring full it is discarded (11 R607, R633, R634). -/
def execHello (p : KtpRx) (env : Env) (s : State) : Out :=
  .next <|
    if !s.portLink p.port then s
    else
      let s1 := frameIn p.port p.corr s
      if !s.on F.KTP_CTRL_EN then portDrop p.port s1
      else match ktpCheck p s1 with
        | .hello =>
          if s1.crxFull then s1.raise F.KTP_ERR_CRX_FULL
          else
            let h := s1.get F.KTP_CRX_PTR_HEAD
            let s2 := crxPut 0xFF p.port p.headers (helloBytes p) env s1
            s2.setKtp fun q => { q with hellos := q.hellos.set h (p.port.val, p.peer) }
        | .good _ => s1
        | v => ktpDrop p v s1

/-! Delivery (11 R598 to R602) -/

/-- The window the device advertises (11 R601); none for a stream on which it takes no data. -/
def rxWindow (k : Nat) : Option Nat :=
  if k = 0 then some 16 else if k = 1 then some 64 else if k = 2 then some 256 else none

/-- The session takes data on the stream (11 R589). -/
def Session.takes (x : Session) (k : Nat) : Bool :=
  k == 0 || (x.st != .opening && ((k == 1 && x.has dfwVerbs) || (k == 2 && x.has dfwConfig)))

/-- An ACK entry (11 R599). -/
def ackEntry (k : Nat) (t : KtpStream) : List Byte :=
  let w := (rxWindow k).getD 16
  let map := packBits ((List.range 256).map fun i => t.ahead.any fun g => g.seq == t.cum + i)
  natBytes k 1 ++ natBytes 0 1 ++ natBytes w 2 ++ natBytes 0 4 ++ natBytes t.cum 8 ++ natBytes map 32

/-- Sends the ACKs that a session owes (11 R602). -/
def sendAcks (n : Nat) (s : State) : State :=
  let due := ((s.sess n).streams.filter fun e => e.2.ackDue).take 16
  if due.isEmpty ∨ (s.sess n).st = .closed ∨ (s.sess n).st = .held then s
  else
    let s1 := s.each (due.map (·.1)) fun t k => t.modStream n k fun x => { x with ackDue := false }
    sendPkt n 2 0 0 false (due.flatMap fun e => ackEntry e.1 e.2) s1

/-- ACCEPT (11 R617, R618). -/
def ctrlAccept (n : Nat) (body : List Byte) (s : State) : State :=
  let x := s.sess n
  if x.st ≠ .opening ∨ body.length < 16 then s
  else
    let dfw := (bytesWords (body.take 16)).zipWith (· &&& ·) dfwOffered
    if !(dfw.headD 0).getLsbD dfwCore then sessCloseSend n s
    else
      let s1 := (s.modSess n fun x => { x with st := .opened, dfw := dfw }).raise F.KTP_ERR_SESSION_OPEN
      pumpSess n (sendCtrl n 2 (wordsBytes dfw) s1)

/-- GRANT (11 R615). -/
def ctrlGrant (n : Nat) (body : List Byte) (s : State) : State :=
  let k := numAt body 0 1
  if body.length < 8 ∨ 8 ≤ k ∨ s.roMapped k n = false then s
  else s.each (List.range 8) fun t j =>
    if t.domOn 85 ∧ t.get F.LDG_STR_CTRL_KTP_STREAM j = k then ldgGrant j (numAt body 4 4) t else t

/-- The device's public values of an exchange: an ephemeral key of SEC 1 uncompressed form, 97 bytes, and a 32-byte nonce
(11 R609). -/
def kexValues (s : State) : List Byte × State := let (q, t) := s.freeBytes 128; (4 :: q, t)

/-- The keys of SA `sa` of a session from the host's payload of R609 and the device's: 72 bytes, cut (11 R612). `k` numbers the
device's ephemeral key. -/
def saKeys (host device : List Byte) (k : Nat) (id : W32) (sa : Bool) : SaKeys :=
  let b := Config.hkdf384 (Config.ecdhX (host.take 97) k) (sub host 97 32 ++ sub device 97 32)
    ([0x4B, 0x54, 0x50, 0x31] ++ natBytes id.toNat 4 ++ [if sa then 1 else 0]) 72
  { rxKey := sub b 0 32, txKey := sub b 32 32, rxSalt := sub b 64 4, txSalt := sub b 68 4 }

/-- REKEY (11 R622, R623): the warden replies under the old SA, and the device sends under the new one from then on. The
exchange's public values are free bytes. -/
def ctrlRekey (n : Nat) (body : List Byte) (s : State) : State :=
  let x := s.sess n
  if x.st ≠ .opened ∨ body.length < 129 ∨ (x.assoc (!x.sa)).key.isSome then s
  else
    let (q, s1) := kexValues s
    let head := natBytes 0x0005 2 ++ natBytes 225 2
    let sig := Config.p384Sign (Config.sha384 (body.take 129 ++ head ++ q)) s1.free
    let key := saKeys body q s1.free x.id (!x.sa)
    let s2 := sendCtrl n 5 (q ++ sig) s1.fresh
    s2.modSess n fun x => { x.setAssoc (!x.sa) { key := some key } with sa := !x.sa }

/-- A control message that is delivered (11 R614); the receive ring's copy of CLOSE and of user messages is written by
`env`. -/
def ctrlDeliver (n : Nat) (port : Nat) (headers msg : List Byte) (env : Env) (s : State) : State :=
  let ty := numAt msg 0 2
  let body := sub msg 4 (numAt msg 2 2)
  if ty = 1 then ctrlAccept n body s
  else if ty = 3 then ctrlGrant n body s
  else if ty = 4 then ctrlRekey n body s
  else if ty = 7 then sessClose n (crxPut n port headers msg env s)
  else if 0x8000 ≤ ty then crxPut n port headers msg env s
  else s

/-- The message needs a ring slot. -/
def needsRing (msg : List Byte) : Bool := numAt msg 0 2 == 7 || 0x8000 ≤ numAt msg 0 2

/-- The words of a configuration stream's bytes go to the configuration logic (11 R593). -/
def confDeliver (n : Nat) (bs : List Byte) (s : State) : State :=
  let all := (s.sess n).conf ++ bs
  let whole := all.length / 4 * 4
  let s1 := s.modSess n fun x => { x with conf := all.drop whole, confUsed := true }
  s1.each (bytesWords (all.take whole)) fun t w => cfgWord .ktp w t

/-- Delivers one segment's payload. -/
def segDeliver (n k port : Nat) (headers payload : List Byte) (env : Env) (s : State) : State :=
  if k = 0 then ctrlDeliver n port headers payload env s
  else if k = 1 then s.modSess n fun x => { x with verbs := x.verbs ++ payload }
  else confDeliver n payload s

/-- Delivers segments held ahead, as far as they follow one another. -/
def deliverAhead : Nat → Nat → Nat → Nat → List Byte → Env → State → State
  | 0, _, _, _, _, _, s => s
  | f + 1, n, k, port, headers, env, s =>
    let t := (s.sess n).stream k
    match t.ahead.find? fun g => g.seq == t.cum with
    | none => s
    | some g =>
      if (s.sess n).st = .closed then s
      else if k = 0 ∧ needsRing g.payload ∧ s.crxFull then
        (s.modStream n k fun t => { t with ahead := t.ahead.filter fun h => h.seq != g.seq }).raise F.KTP_ERR_CRX_FULL
      else
        let s1 := s.modStream n k fun t => { t with cum := t.cum + 1, ahead := t.ahead.filter fun h => h.seq != g.seq }
        deliverAhead f n k port headers env (segDeliver n k port headers g.payload env s1)

/-- A DATA packet of slot `n` that passed the checks (11 R589, R598, R602, R634). -/
def dataIn (p : KtpRx) (env : Env) (n : Nat) (s : State) : State :=
  let k := p.stream.toNat
  let x := s.sess n
  let t := x.stream k
  let seq := p.seq.toNat
  if !x.takes k then portDrop p.port s
  else
    let w := (rxWindow k).getD 0
    if seq < t.cum ∨ t.ahead.any (fun g => g.seq == seq) then
      sendAcks n (s.modStream n k fun t => { t with ackDue := true })
    else if t.cum + w ≤ seq then sendAcks n (s.modStream n k fun t => { t with ackDue := true })
    else if k = 0 ∧ seq = t.cum ∧ needsRing p.payload ∧ s.crxFull then s.raise F.KTP_ERR_CRX_FULL
    else
      let early := seq != t.cum
      let g : Seg := { seq := seq, payload := p.payload }
      let s1 := s.modStream n k fun t => { t with ahead := t.ahead ++ [g], ackDue := true }
      let s2 := deliverAhead (t.ahead.length + 1) n k p.port p.headers env s1
      if early then sendAcks n s2 else s2

/-- A DATA packet. -/
def ktpData (p : KtpRx) (env : Env) (s : State) : State :=
  ktpTake p (fun n t => if p.kind = 1 then dataIn p env n t else t) s

/-- A DATA packet on the control stream whose message has the type told. -/
def ctrlRow (p : KtpRx) (ty : Nat → Bool) (env : Env) (s : State) : State :=
  if p.kind = 1 ∧ p.stream = 0 ∧ ty (numAt p.payload 0 2) then ktpData p env s else s

def execData (p : KtpRx) (env : Env) (s : State) : Out := .next (if p.kind = 1 then ktpData p env s else s)
def execAccept (p : KtpRx) (s : State) : Out := .next (ctrlRow p (· == 1) {} s)
def execGrant (p : KtpRx) (s : State) : Out := .next (ctrlRow p (· == 3) {} s)
def execRekey (p : KtpRx) (s : State) : Out := .next (ctrlRow p (· == 4) {} s)
def execClose (p : KtpRx) (env : Env) (s : State) : Out := .next (ctrlRow p (· == 7) env s)
def execKeepalive (p : KtpRx) (s : State) : Out := .next (ctrlRow p (· == 8) {} s)
def execUserControlMessage (p : KtpRx) (env : Env) (s : State) : Out := .next (ctrlRow p (fun t => 0x8000 ≤ t) env s)

/-! Acknowledgement and retransmission (11 R599 to R605) -/

/-- One entry of an ACK (11 R599, R600, R603). -/
def ackIn (n pn : Nat) (e : List Byte) (s : State) : State :=
  let k := numAt e 0 1
  let win := numAt e 2 2
  let cum := numAt e 8 8
  let map := numAt e 16 32
  let t := (s.sess n).stream k
  let got := fun (g : Seg) => g.seq < cum || (g.seq < cum + 256 && bit map (g.seq - cum))
  let latest := match t.ackPn with | none => true | some q => q < pn
  let s1 := s.modStream n k fun t => { t with
    unacked := t.unacked.filter fun g => !got g
    limit := if latest then cum + win else t.limit
    ackPn := if latest then some pn else t.ackPn }
  let later := fun (q : Nat) => ((List.range 256).filter fun i => bit map i && q < cum + i).length
  let miss := t.unacked.filter fun g => !got g && decide (3 ≤ later g.seq)
  pumpOne n k (s1.each miss fun u g => resend n k g.seq u)

/-- The entries of an ACK payload. -/
def ackEntries (bs : List Byte) : List (List Byte) :=
  (List.range (min 16 (bs.length / 48))).map fun i => sub bs (48 * i) 48

def execAck (p : KtpRx) (s : State) : Out :=
  .next <|
    if p.kind ≠ 2 then s
    else ktpTake p (fun n t => pumpSess n (t.each (ackEntries p.payload) fun u e => ackIn n p.pn.toNat e u)) s

/-- RTO has passed for a segment (11 R603, R604). -/
def execRetransmitTimeout (slot : SlotId) (stream : Byte) (seq : W64) (s : State) : Out :=
  .next <|
    let n := slot.val
    let k := stream.toNat
    if (s.sess n).st ≠ .opened then s
    else match ((s.sess n).stream k).unacked.find? fun g => g.seq == seq.toNat with
      | none => s
      | some g => if max 1 (s.get F.KTP_RTX_MAX_TRIES) ≤ g.again then sessLinkLost n s else resend n k seq.toNat s

def execAckDelay (slot : SlotId) (s : State) : Out := .next (sendAcks slot.val s)

def execKeepaliveTimer (slot : SlotId) (s : State) : Out :=
  .next (if (s.sess slot.val).st = .opened then sendCtrl slot.val 8 [] s else s)

def execOpeningTimeout (slot : SlotId) (s : State) : Out :=
  .next (if (s.sess slot.val).st = .opening then sessClose slot.val s else s)

def execHoldTimeout (slot : SlotId) (s : State) : Out :=
  .next <|
    let n := slot.val
    if (s.sess n).st ≠ .held then s
    else if s.portLink (s.sess n).port then sessResume n s
    else sessClose n s

/-- A write of KTP_S_CTRL (11 R632). -/
def sessCtrlWrite (n w : Nat) (s : State) : State := if bit w 0 then sessCloseSend n s else s

def execSessionCloseWrite (slot : SlotId) (w : W32) (s : State) : Out := .next (sessCtrlWrite slot.val w.toNat s)

/-- Sends the transmit slot at TAIL (11 R635). -/
def ctxSend (env : Env) (s : State) : State :=
  let t := s.get F.KTP_CTX_PTR_TAIL
  let a := s.get F.KTP_CTX_BASE_ADDR * 4096 + t * 2048
  let (m, s1) := plainRead ktpIni a 2048 env s
  let s2 := s1.put F.KTP_CTX_PTR_TAIL 0 (t + 1)
  let n := numAt m.bytes 2 1
  if m.resp ≠ .okay ∨ 8 ≤ n ∨ (s2.sess n).st ≠ .opened then s2
  else pumpOne n 0 (queueSeg n 0 false (sub m.bytes 64 (min 1984 (numAt m.bytes 0 2))) s2)

/-- The engine sends transmit slots up to HEAD. -/
def execControlRingSend (env : Env) (s : State) : Out :=
  .next <|
    if !s.on F.KTP_CTRL_EN then s
    else
      let n := (s.get F.KTP_CTX_PTR_HEAD + 256 - s.get F.KTP_CTX_PTR_TAIL) % 256
      s.each (List.range n) fun t k => ctxSend (Env.at_ env (k == 0)) t

/-! Readout (11 R595, R596, 10 R545) -/

/-- The engine takes a chunk of `len` bytes of readout stream `k`: its record is being discarded, or its session is open and
the retransmit buffer has room. -/
def State.ktpTakes (s : State) (k len : Nat) : Bool :=
  s.ktp.discard.contains k || (match s.roSession k with
    | some n => (s.sess n).st == .opened && (s.sess n).has dfwReadout && s.on F.KTP_CTRL_EN && s.rtxRoom len
    | none => false)

/-- The Ledger hands a chunk over, into the retransmit buffer or to be discarded; a chunk that waits for room alone sets
RTX_FULL. -/
def chunkMove (e1 e2 : Env) (s : State) : State :=
  if !s.unitClocked 9 || s.ldgFrozen then s
  else match ldgChunk s.ktpTakes e1 e2 s with
    | none =>
      let full := (List.range 8).any fun j => match s.roSession (s.get F.LDG_STR_CTRL_KTP_STREAM j) with
        | some n => (s.sess n).st == .opened && chunkReady s (fun _ _ => true) j
            && (match nextRecord s j with | some x => !s.rtxRoom (chunkLen x) | none => false)
        | none => false
      s.when full (·.raise F.KTP_ERR_RTX_FULL)
    | some (k, first, bs, s1) =>
      if s.ktp.discard.contains k then
        let s2 := (s1.bumpHold F.KTP_LOST_BYTES_COUNT 0 bs.length).raise F.KTP_ERR_DATA_LOST
        if (s1.ldg.owner.find k).isNone then s2.setKtp fun q => { q with discard := q.discard.filter (· != k) } else s2
      else s1.setKtp fun q => { q with hand := q.hand ++ [(k, first, bs)] }

/-- Pieces of a chunk of at most `m` bytes, `fuel` at most; the first carries REC_START (11 R595). -/
def cutChunk : Nat → Nat → Bool → List Byte → List (Bool × List Byte)
  | 0, _, _, _ => []
  | f + 1, m, first, bs => if bs.isEmpty then [] else (first, bs.take m) :: cutChunk f m false (bs.drop m)

/-- The chunk at hand goes out as segments. -/
def handSend (s : State) : State :=
  match s.ktp.hand with
  | [] => s
  | (k, first, bs) :: rest =>
    let s1 := s.setKtp fun q => { q with hand := rest }
    match s.roSession k with
    | none => (s1.bumpHold F.KTP_LOST_BYTES_COUNT 0 bs.length).raise F.KTP_ERR_DATA_LOST
    | some n =>
      let cuts := cutChunk (bs.length + 1) (max 1 (s.segMax (s.sess n))) first bs
      pumpOne n (16 + k) (s1.each cuts fun t c => queueSeg n (16 + k) c.1 c.2 t)

/-- A stream with enough credit hands a chunk to the engine (10 R545). -/
def execChunkSend (first second : Env) (s : State) : Out := .next (chunkMove first second s)

/-- The engine sends the chunk that it holds, or the one it takes now (11 R596). -/
def execChunkTake (first second : Env) (s : State) : Out :=
  .next (handSend (if s.ktp.hand.isEmpty then chunkMove first second s else s))

/-! Registers (11 R636 to R641) -/

/-- A write of KTP_CTRL (11 R641): EN, and UDP_PORT while EN is 0. -/
def ktpCtrlWrite (w : Nat) (s : State) : State :=
  let old := (s.rd R.KTP_CTRL).toNat
  let rise := bit w 0 && !bit old 0
  if rise && s.get F.KTP_RTX_SIZE_MIB == 0 then
    (s.wrCodes R.KTP_CTRL 0 (BitVec.ofNat 64 (w - 1)) false).raise F.KTP_ERR_CFG_REFUSED
  else if bit old 0 && bits w 16 16 != bits old 16 16 then
    (s.wrCodes R.KTP_CTRL 0 (BitVec.ofNat 64 (withField w F.KTP_CTRL_UDP_PORT (bits old 16 16))) false).raise
      F.KTP_ERR_CFG_REFUSED
  else s.wrCodes R.KTP_CTRL 0 (BitVec.ofNat 64 w) false

def execKtpEnable (w : W32) (s : State) : Out := .next (ktpCtrlWrite w.toNat s)

def ethView (s : State) (r : Reg) (i : Nat) : Option Nat :=
  if r = R.ETH_MAC then some (s.portMac i) else none

def ethWrite (s : State) (r : Reg) (i w : Nat) : Option State :=
  if r = R.ETH_CTRL then some (ethCtrlWrite i w s)
  else if r = R.ETH_MTU ∧ (bits w 0 14 < 1280 ∨ 9216 < bits w 0 14) then some (s.raise F.ETH_ERR_CFG_REFUSED i)
  else none

def ktpView (s : State) (r : Reg) (i : Nat) : Option Nat :=
  let x := s.sess i
  if r = R.KTP_STATUS then
    some (packBits ((List.range 8).map fun n => (s.sess n).st == .opened)
      + 256 * packBits ((List.range 8).map fun n => (s.sess n).st == .held))
  else if r = R.KTP_S_STATE then some (x.st.code + 16 * x.port + 32 * ofFlag x.sa)
  else if r = R.KTP_S_ID then some x.id.toNat
  else if r = R.KTP_S_TX_PN then some ((x.assoc x.sa).tx % 2 ^ 64)
  else if r = R.KTP_S_RX_PN then some ((x.assoc x.sa).top.getD 0)
  else if r = R.KTP_S_DFW then some (((s.sess (i / 4)).dfw.getD (i % 4) 0).toNat)
  else none

def ktpWrite (s : State) (r : Reg) (i w : Nat) : Option State :=
  if r = R.KTP_CTRL then some (ktpCtrlWrite w s)
  else if (r = R.KTP_RTX_BASE ∨ r = R.KTP_RTX_SIZE ∨ r = R.KTP_CRX_BASE ∨ r = R.KTP_CTX_BASE) ∧ s.on F.KTP_CTRL_EN then
    some (s.raise F.KTP_ERR_CFG_REFUSED)
  else if r = R.KTP_S_CTRL then some (sessCtrlWrite i w s)
  else if r = R.KTP_SVC then some (svcSend (s.wrCodes r i (BitVec.ofNat 64 w) false))
  else none

end Sys2Proof.Machine
end

