-- ==== Sys2Proof/Machine/Code8b10b.lean ====
section
/-! DEFINITION. The 8b/10b code and its running disparity, as IEEE 802.3 Clause 36 gives them (03 R102). The tables are taken
from that standard, which the spec names: PRESUMED, log entry 125. -/

namespace Sys2Proof.Machine

/-- The 5b/6b codes abcdei of D.x: at negative and at positive running disparity. -/
def code5b6b : Nat → Nat × Nat
  | 0 => (0b100111, 0b011000) | 1 => (0b011101, 0b100010) | 2 => (0b101101, 0b010010) | 3 => (0b110001, 0b110001)
  | 4 => (0b110101, 0b001010) | 5 => (0b101001, 0b101001) | 6 => (0b011001, 0b011001) | 7 => (0b111000, 0b000111)
  | 8 => (0b111001, 0b000110) | 9 => (0b100101, 0b100101) | 10 => (0b010101, 0b010101) | 11 => (0b110100, 0b110100)
  | 12 => (0b001101, 0b001101) | 13 => (0b101100, 0b101100) | 14 => (0b011100, 0b011100) | 15 => (0b010111, 0b101000)
  | 16 => (0b011011, 0b100100) | 17 => (0b100011, 0b100011) | 18 => (0b010011, 0b010011) | 19 => (0b110010, 0b110010)
  | 20 => (0b001011, 0b001011) | 21 => (0b101010, 0b101010) | 22 => (0b011010, 0b011010) | 23 => (0b111010, 0b000101)
  | 24 => (0b110011, 0b001100) | 25 => (0b100110, 0b100110) | 26 => (0b010110, 0b010110) | 27 => (0b110110, 0b001001)
  | 28 => (0b001110, 0b001110) | 29 => (0b101110, 0b010001) | 30 => (0b011110, 0b100001) | _ => (0b101011, 0b010100)

/-- The 3b/4b codes fghj of D.x.y; seven has a primary and an alternate form. -/
def code3b4b : Nat → Nat × Nat
  | 0 => (0b1011, 0b0100) | 1 => (0b1001, 0b1001) | 2 => (0b0101, 0b0101) | 3 => (0b1100, 0b0011)
  | 4 => (0b1101, 0b0010) | 5 => (0b1010, 0b1010) | 6 => (0b0110, 0b0110) | 7 => (0b1110, 0b0001) | _ => (0b0111, 0b1000)

/-- The 3b/4b codes of K.x.y. -/
def code3b4bK : Nat → Nat × Nat
  | 0 => (0b1011, 0b0100) | 1 => (0b0110, 0b1001) | 2 => (0b1010, 0b0101) | 3 => (0b1100, 0b0011)
  | 4 => (0b1101, 0b0010) | 5 => (0b0101, 0b1010) | 6 => (0b1001, 0b0110) | _ => (0b0111, 0b1000)

/-- The ones among the low `w` bits. -/
def onesOf (w v : Nat) : Nat := ((List.range w).filter (bit v)).length

/-- Running disparity (true: positive) after a sub-block of `w` bits. -/
def rdAfter (w : Nat) (rd : Bool) (v : Nat) : Bool :=
  let n := onesOf w v
  if w / 2 < n then true
  else if n < w / 2 then false
  else if v = (if w = 6 then 0b000111 else 0b0011) then true
  else if v = (if w = 6 then 0b111000 else 0b1100) then false
  else rd

/-- One column of a code pair. -/
def codeCol (rd : Bool) (p : Nat × Nat) : Nat := if rd then p.2 else p.1

/-- The form of D.x.7: the alternate one where the primary would make a run of five. -/
def sevenForm (rd : Bool) (x : Nat) : Nat :=
  if (!rd && (x == 17 || x == 18 || x == 20)) || (rd && (x == 11 || x == 13 || x == 14)) then 8 else 7

/-- The symbol of a byte, written abcdeifghj with bit a, sent first, on the left; and the running disparity after it. -/
def encode8b10b (rd k : Bool) (b : Byte) : BitVec 10 × Bool :=
  let x := b.toNat % 32
  let y := b.toNat / 32
  let six := if k && x == 28 then codeCol rd (0b001111, 0b110000) else codeCol rd (code5b6b x)
  let rd1 := rdAfter 6 rd six
  let four := if k then codeCol rd1 (code3b4bK y) else codeCol rd1 (code3b4b (if y = 7 then sevenForm rd1 x else y))
  (BitVec.ofNat 10 (six * 16 + four), rdAfter 4 rd1 four)

/-- The running disparity after a symbol received, whether or not it is one of the code. -/
def rdOf (rd : Bool) (c : BitVec 10) : Bool := rdAfter 4 (rdAfter 6 rd (c.toNat / 16)) (c.toNat % 16)

/-- The control symbols of the code: K28.0 to K28.7, K23.7, K27.7, K29.7, K30.7. -/
def validK (b : Byte) : Bool :=
  b.toNat % 32 == 28 || b == 0xF7 || b == 0xFB || b == 0xFD || b == 0xFE

/-- Every byte of the code, data first, then control. -/
def allSymbols : List (Byte × Bool) :=
  ((List.range 256).map fun b => (BitVec.ofNat 8 b, false)) ++
    (((List.range 256).map (BitVec.ofNat 8)).filter validK).map fun b => (b, true)

/-- The byte and K flag whose symbol at this running disparity is `c`. -/
def decode8b10b (rd : Bool) (c : BitVec 10) : Option (Byte × Bool) :=
  allSymbols.find? fun e => (encode8b10b rd e.2 e.1).1 == c

/-- A comma at the head of a symbol: K28.1, K28.5 or K28.7 of either disparity (03 R107). -/
def isComma (c : BitVec 10) : Bool := c.toNat / 8 == 0b0011111 || c.toNat / 8 == 0b1100000

/-- Four decoded symbols: bytes and K flags, byte 0 first, the number of symbols with a code or disparity error, and of those
outside the code, whose bytes are open. -/
structure Word8b where
  data : BitVec 32 := 0
  k : BitVec 4 := 0
  errs : Nat := 0
  wild : Nat := 0
  rd : Bool := false
  deriving DecidableEq, Repr

/-- Symbol `i` of a 40-bit line word; symbol 0 is sent first. -/
def symbolOf (v : Nat) (i : Nat) : BitVec 10 := BitVec.ofNat 10 (v / 2 ^ (10 * i))

/-- Puts a byte and its K flag into place `i`. -/
def Word8b.put (w : Word8b) (i : Nat) (b : Byte) (k : Bool) : Word8b :=
  { w with data := w.data ||| (b.setWidth 32 <<< (8 * i)), k := if k then w.k ||| (1#4 <<< i) else w.k }

/-- Decodes a line word from a running disparity. A symbol of the other column is a disparity error and still names its byte; one
outside the code is an error whose byte and flag are taken from `wild`, a free value. -/
def decodeWord8b (rd : Bool) (v : Nat) (wild : W64) : Word8b :=
  (List.range 4).foldl (fun w i =>
    let c := symbolOf v i
    let w1 : Word8b := match decode8b10b w.rd c with
      | some (b, k) => w.put i b k
      | none => match decode8b10b (!w.rd) c with
        | some (b, k) => { w.put i b k with errs := w.errs + 1 }
        | none => { w.put i (BitVec.ofNat 8 (wild.toNat / 2 ^ (8 * i))) (wild.getLsbD (32 + i)) with
            errs := w.errs + 1, wild := w.wild + 1 }
    { w1 with rd := rdOf w.rd c }) { rd := rd }

/-- Encodes four bytes with their K flags: the line word, symbol 0 in its low bits, and the running disparity after. -/
def encodeWord8b (rd : Bool) (data : Nat) (k : BitVec 4) : Nat × Bool :=
  (List.range 4).foldl (fun (v, r) i =>
    let (c, r') := encode8b10b r (k.getLsbD i) (BitVec.ofNat 8 (data / 2 ^ (8 * i)))
    (v + c.toNat * 2 ^ (10 * i), r')) (0, rd)

/-- Every K flag of a word stands at a control symbol of the code. -/
def kGood (data : Nat) (k : BitVec 4) : Bool :=
  (List.range 4).all fun i => !k.getLsbD i || validK (BitVec.ofNat 8 (data / 2 ^ (8 * i)))

end Sys2Proof.Machine
end

