-- ==== Sys2Proof/Machine/Lanes.lean ====
section
/-! DEFINITION. Serial lanes, quad PLLs and the rim crossbar (03 Serial Lanes). -/

namespace Sys2Proof.Machine

def State.lane (s : State) (n : Nat) : Lane := s.lanes.get {} n
def State.setLane (s : State) (n : Nat) (l : Lane) : State := { s with lanes := s.lanes.set n l }
def State.modLane (s : State) (n : Nat) (g : Lane → Lane) : State := s.setLane n (g (s.lane n))

/-- Power domain of a lane's group (01 R51). -/
def laneDom (n : Nat) : Nat := 64 + n / 48 * 3 + n % 48 / 16

/-- Lanes of a quad. -/
def quadLanes (q : Nat) : List Nat := (List.range 4).map (q * 4 + ·)

/-- Word length in bits of a PCS code: raw, 8b/10b, 64b/66b (03 R113). -/
def pcsBits (p : Nat) : Nat := if p = 2 then 66 else if p = 1 then 40 else 64

/-- The lane is crossing-locked (03 R132). -/
def State.xlocked (s : State) (n : Nat) : Bool :=
  s.on F.LNE_LANE_CTRL_XLOCK n && s.get F.LNE_QPLL_REF (n / 4) == 2

/-- The lane keeps its quad's PLL running: it is not in the deep state. One that leaves it needs the PLL for its exit (03 R150),
so it counts from the start of the exit; one that enters it counts until the entry ends: DEDUCED, log entry 126. -/
def State.keepsPll (s : State) (n : Nat) : Bool :=
  s.on F.LNE_LANE_CTRL_EN n && (s.get F.LNE_LANE_STATUS_PSTATE n != 2 ||
    (s.on F.LNE_LANE_STATUS_IN_TRANSITION n && (s.lane n).target != some 2))

/-- The quad PLL runs (03 R97, R154). -/
def State.pllOn (s : State) (q : Nat) : Bool :=
  s.on F.LNE_QPLL_EN q && s.domOn (laneDom (q * 4)) && (quadLanes q).any s.keepsPll

/-- The PLL settings of a quad are within 03 R95 and R96 for a reference of `ref` kHz. -/
def State.pllRangeOk (s : State) (q ref : Nat) : Bool :=
  let f := if s.get F.LNE_QPLL_REF q = 2 then s.get F.TMG_FREQ_KHZ else ref
  let p := s.get F.LNE_QPLL_PDIV q + 1
  let m := s.get F.LNE_QPLL_M q
  16 ≤ m && 10000 * p ≤ f && f ≤ 400000 * p && 8000000 * p ≤ f * m && f * m ≤ 16375000 * p &&
    (s.get F.LNE_QPLL_REF q != 2 || s.boundariesRun)

/-- The greatest value of LNE_RX_LAT.MEASURED (03 R135). -/
def State.latBound (s : State) (n : Nat) : Nat :=
  let nq := s.get F.TMG_QUARTZ_N
  let k := s.get F.TMG_FREQ_KHZ
  let m := s.get F.LNE_QPLL_M (n / 4)
  let w := pcsBits (s.get F.LNE_LANE_CTRL_PCS n) * (s.get F.LNE_QPLL_PDIV (n / 4) + 1) * 2 ^ s.get F.LNE_LANE_CTRL_DIV n
  (48 * nq * k * m + w * nq * 1000000 + 1000000 * m - 1) / (1000000 * m)

/-- LAT_OK of 03 R136. -/
def State.latOk (s : State) (n : Nat) : Bool :=
  let t := s.get F.LNE_RX_LAT_TARGET n
  s.xlocked n && s.on F.LNE_LANE_STATUS_BLOCK_LOCK n && s.get F.LNE_LANE_STATUS_PSTATE n == 0
    && !s.on F.LNE_LANE_STATUS_IN_TRANSITION n && s.get F.LNE_LANE_CTRL_LOOPBACK n == 0
    && t != 0 && s.get F.LNE_RX_LAT_MEASURED n ≤ t

/-- LAT_ERR when an aligned crossing-locked lane has a TARGET below MEASURED (03 R136). -/
def laneLatCheck (n : Nat) (s : State) : State :=
  let t := s.get F.LNE_RX_LAT_TARGET n
  s.when (s.xlocked n && s.on F.LNE_LANE_STATUS_BLOCK_LOCK n && t != 0 && t < s.get F.LNE_RX_LAT_MEASURED n)
    (·.raise F.LNE_LANE_ERR_LAT_ERR n)

/-! Deskew groups -/

/-- The lanes bonded with lane `n`, itself among them; none for a lane in no group (03 R128, R131). -/
def State.group (s : State) (n : Nat) : List Nat :=
  let g := s.get F.LNE_LANE_CTRL_DSK_GRP n
  if g = 0 ∨ s.on F.LNE_LANE_CTRL_XLOCK n then []
  else ((List.range 48).map (n / 48 * 48 + ·)).filter (fun m =>
    s.on F.LNE_LANE_CTRL_EN m && !s.on F.LNE_LANE_CTRL_XLOCK m && s.get F.LNE_LANE_CTRL_DSK_GRP m == g)

/-- A group loses alignment by the fault of member `n` (03 R130); a group that is not aligned only forgets its markers. -/
def laneUngroup (n : Nat) (s : State) : State :=
  let g := s.group n
  let s1 := s.when (s.on F.LNE_LANE_STATUS_DESKEWED n) (·.raise F.LNE_LANE_ERR_DESKEW_ERR n)
  s1.each g (fun s m =>
    (s.clear F.LNE_LANE_STATUS_DESKEWED m).modLane m (fun l =>
      { l with skew := none, delay := 0, rx := { l.rx with valid := false } }))

/-- A group whose members all hold lock and have their markers is aligned, if the skew fits the buffers (03 R129). -/
def laneGroupAlign (n : Nat) (s : State) : State :=
  let g := s.group n
  let ok := !g.isEmpty && g.all (fun m =>
    s.on F.LNE_LANE_STATUS_BLOCK_LOCK m && (s.lane m).skew.isSome)
  let worst := g.foldl (fun a m => max a ((s.lane m).skew.getD 0)) 0
  let least := g.foldl (fun a m => min a ((s.lane m).skew.getD 0)) worst
  if ok && worst - least < 32 then
    s.each g (fun s m => (s.raise F.LNE_LANE_STATUS_DESKEWED m).modLane m (fun l =>
      { l with delay := worst - l.skew.getD 0 }))
  else s

/-! Locks -/

/-- Block lock or comma alignment is dropped; `err` says that it counts as a loss (03 R106, R107, R149). -/
def laneUnlock (n : Nat) (err : Bool) (s : State) : State :=
  if s.on F.LNE_LANE_STATUS_BLOCK_LOCK n then
    let s1 := s.when err (·.raise F.LNE_LANE_ERR_LOCK_LOST n)
    let s2 := (laneUngroup n s1).clear F.LNE_LANE_STATUS_BLOCK_LOCK n
    s2.modLane n (fun l => { l with good := 0, window := [], rx := { l.rx with valid := false } })
  else s.modLane n (fun l => { l with good := 0, window := [], rx := { l.rx with valid := false } })

/-- CDR lock is lost, and block lock with it (03 R99, R154). -/
def laneCdrLoss (n : Nat) (s : State) : State :=
  let s1 := s.when (s.on F.LNE_LANE_STATUS_CDR_LOCK n) (·.raise F.LNE_LANE_ERR_CDR_LOST n)
  laneUnlock n true (s1.clear F.LNE_LANE_STATUS_CDR_LOCK n)

/-- Starts or restarts training of the local receiver (03 R124 steps 1 and 2). Its first request asks hold of every tap: DESIGN
CHOICE, log entry 30. -/
def laneTrain (n : Nat) (s : State) : State :=
  let s1 := ((s.raise F.LNE_LANE_STATUS_TRAINING n).clear F.LNE_LANE_STATUS_TRAINED n).clear F.LNE_LANE_STATUS_FALLBACK n
  s1.modLane n (fun l => { l with
    seq := l.seq + 1, req := 0, bestEye := 0, stale := 0, made := 1, ended := false,
    heard := false, respWaited := false, echoWaited := false })

/-- A lane may train: TRAIN_EN and 64b/66b (03 R124). -/
def State.trainable (s : State) (n : Nat) : Bool :=
  s.on F.LNE_EQ_TRAIN_EN n && s.get F.LNE_LANE_CTRL_PCS n == 2

/-- Block lock or comma alignment is reached (03 R106, R107, R124, R135). -/
def laneLock (n : Nat) (s : State) : State :=
  let fresh := (s.lane n).fresh
  let s1 := (s.raise F.LNE_LANE_STATUS_BLOCK_LOCK n).modLane n (fun l =>
    { l with good := 0, window := [], fresh := false })
  let s2 := if s.xlocked n then
      laneLatCheck n ((s1.put F.LNE_RX_LAT_MEASURED n
        (min (Config.laneLatency s.free) (s.latBound n))).fresh)
    else s1
  s2.when (fresh && s.trainable n) (laneTrain n)

/-! Receive path -/

/-- One bit of the self-synchronous descrambler x^58 + x^39 + 1 (03 R101): the plain bit and the new history. -/
def descrBit (h : BitVec 58) (b : Bool) : Bool × BitVec 58 :=
  (b ^^ h.getLsbD 38 ^^ h.getLsbD 57, (h <<< 1) ||| (BitVec.ofBool b).setWidth 58)

/-- Descrambles a payload, bit 0 first. -/
def descramble (h : BitVec 58) (d : W64) : W64 × BitVec 58 :=
  (List.range 64).foldl (fun (o, h) k =>
    let (b, h') := descrBit h (d.getLsbD k)
    (if b then o ||| (1#64 <<< k) else o, h')) (0, h)

/-- Scrambles a payload, bit 0 first; the history takes the scrambled bits. -/
def scramble (h : BitVec 58) (d : W64) : W64 × BitVec 58 :=
  (List.range 64).foldl (fun (o, h) k =>
    let b := d.getLsbD k ^^ h.getLsbD 38 ^^ h.getLsbD 57
    (if b then o ||| (1#64 <<< k) else o, (h <<< 1) ||| (BitVec.ofBool b).setWidth 58)) (0, h)

/-- The CRC-8 of a vendor control block over payload bits [55:8], bit 8 first (03 R115). -/
def ctlCheck (p : W64) : Byte := (List.range 48).foldl (fun c k => crc8Step c (p.getLsbD (8 + k))) 0

/-- The two feedback positions of a PRBS code, as ages in bits (03 R143). -/
def prbsTaps : Nat → Nat × Nat
  | 1 => (7, 6) | 2 => (15, 14) | 3 => (23, 18) | _ => (31, 28)

/-- The next bit of a PRBS register, whose bit 0 is the newest. -/
def prbsNext (code : Nat) (r : BitVec 31) : Bool :=
  r.getLsbD ((prbsTaps code).1 - 1) ^^ r.getLsbD ((prbsTaps code).2 - 1)

/-- The checker over 64 received bits: its register and, bit by bit, whether the bit is not the one predicted. While not locked
it is seeded by the bits. -/
def prbsCheck (code : Nat) (locked inv : Bool) (r : BitVec 31) (d : W64) : BitVec 31 × List Bool :=
  let (r, es) := (List.range 64).foldl (fun (r, es) k =>
    let b := d.getLsbD k ^^ inv
    let p := prbsNext code r
    ((r <<< 1) ||| (BitVec.ofBool (if locked then p else b)).setWidth 31, (p != b) :: es)) (r, [])
  (r, es.reverse)

/-- The generator's next 64 bits. -/
def prbsGen (code : Nat) (r : BitVec 31) : BitVec 31 × W64 :=
  (List.range 64).foldl (fun (r, o) k =>
    let b := prbsNext code r
    ((r <<< 1) ||| (BitVec.ofBool b).setWidth 31, if b then o ||| (1#64 <<< k) else o)) (r, 0)

/-- One word time of the deskew buffer: the word of `delay` word times ago is presented to the bay port, valid under lock,
outside PRBS checking, in a group while aligned, and only where the lane is bound to a port (03 R108, R129, R130, R139, R144). -/
def lanePresent (n : Nat) (w : LaneWord) (s : State) : State :=
  let lock := if s.get F.LNE_LANE_CTRL_PCS n = 0 then s.on F.LNE_LANE_STATUS_CDR_LOCK n || s.get F.LNE_LANE_CTRL_LOOPBACK n == 2
    else s.on F.LNE_LANE_STATUS_BLOCK_LOCK n
  let grp := (s.group n).isEmpty || s.on F.LNE_LANE_STATUS_DESKEWED n
  s.modLane n fun l =>
    let hist := (w :: l.hist).take 32
    let o := hist.getD l.delay {}
    { l with hist, rx := { o with valid := o.valid && lock && grp && s.get F.LNE_PRBS_CHK n == 0 && s.on F.LNE_XBAR_EN n } }

/-- Delivers a word of the receiver. -/
def laneDeliver (n : Nat) (ctl : BitVec 4) (d : W64) (s : State) : State := lanePresent n ⟨true, ctl, d⟩ s

/-- A word time that brings the bay port no word (03 R116, R117). -/
def laneSkip (n : Nat) (s : State) : State := lanePresent n {} s

/-- What lane port `p` of bay `b` receives: the word of the lane bound to it, and 0 at the fence of a fenced bay
(03 R139, R142). -/
def State.lanePort (s : State) (b p : Nat) : LaneWord :=
  if s.fenced b then {}
  else match ((List.range 48).map (b / 16 * 48 + ·)).find? fun n =>
      s.on F.LNE_XBAR_EN n && s.get F.LNE_XBAR_BAY n == b % 16 && s.get F.LNE_XBAR_PORT n == p with
    | some n => (s.lane n).rx
    | none => {}

/-- The partner's request field of a training block: REQ_CM1, REQ_C0, REQ_CP1, REQ_PRESET, PRESET and SEQ. -/
def reqOf (p : W64) : BitVec 14 := BitVec.ofNat 14 (p.toNat / 2 ^ 8)

/-- The result of one training measurement: whether training ends, and the lane with its next request (03 R124). -/
def laneMeasure (s : State) (n : Nat) (eye : Nat) (req : BitVec 10) (l : Lane) : Lane :=
  let better := decide (l.bestEye < eye)
  let stale := if better then 0 else l.stale + 1
  let l1 := { l with bestEye := max l.bestEye eye, stale := stale, echoWaited := false }
  if s.get F.LNE_EQ_EYE_TARGET n ≤ eye ∨ 8 ≤ stale ∨ s.get F.LNE_TRAIN_MAX_STEPS n ≤ l.made then { l1 with ended := true }
  else { l1 with seq := l.seq + 1, req := req, made := l.made + 1 }

/-- A training block whose check and reserved bits hold: the partner's request and status are taken (03 R117, R123, R124). Its
SEQ is noted whether REMOTE_EN is 1 or 0, so a request seen while it was 0 is not new later: DESIGN CHOICE, log entry 127. -/
def laneTrainingBlock (n : Nat) (p : W64) (eye : Byte) (req : BitVec 10) (s : State) : State :=
  if ctlCheck p ≠ BitVec.ofNat 8 (p.toNat / 2 ^ 56) ∨ bits p.toNat 34 22 ≠ 0 then s.raise F.LNE_LANE_ERR_CTL_CHECK n
  else
    let l := s.lane n
    let seq := BitVec.ofNat 4 (p.toNat / 2 ^ 18)
    let s1 := s.put F.LNE_LANE_STATUS_PARTNER_READY n (bits p.toNat 33 1)
    let isNew := l.partnerSeq != some seq
    let l1 := { l with
      partnerSeq := some seq, heard := true, respWaited := false,
      pendingReq := if isNew && s.on F.LNE_EQ_REMOTE_EN n then some (reqOf p) else l.pendingReq }
    let hit := s.on F.LNE_LANE_STATUS_TRAINING n && !l.ended && bits p.toNat 22 4 == l.seq.toNat
    s1.setLane n (if hit then laneMeasure s n eye.toNat req l1 else l1)

/-- A marker: it aligns the group, or breaks an aligned group when it is more than one word time off (03 R129, R130). -/
def laneMarker (n skew : Nat) (s : State) : State :=
  let l := s.lane n
  let off := match l.skew with
    | some k => s.on F.LNE_LANE_STATUS_DESKEWED n && (k + 1 < skew || skew + 1 < k)
    | none => false
  if off then laneUngroup n s
  else if s.on F.LNE_LANE_STATUS_DESKEWED n then s
  else laneGroupAlign n (s.setLane n { l with skew := some skew })

/-- A marker block: discarded when its check or reserved bits fail, delivered as a control word otherwise (03 R116, R117). -/
def laneMarkerBlock (n : Nat) (p : W64) (skew : Nat) (s : State) : State :=
  if ctlCheck p ≠ BitVec.ofNat 8 (p.toNat / 2 ^ 56) ∨ bits p.toNat 48 8 ≠ 0 then
    laneSkip n (s.raise F.LNE_LANE_ERR_CTL_CHECK n)
  else laneDeliver n 1 p (laneMarker n skew s)

/-- The lane's receiver takes words: enabled, active, not in transition, with CDR lock unless loopback 2 bypasses it. -/
def State.receiving (s : State) (n : Nat) : Bool :=
  s.on F.LNE_LANE_CTRL_EN n && s.domOn (laneDom n) && s.get F.LNE_LANE_STATUS_PSTATE n == 0
    && !s.on F.LNE_LANE_STATUS_IN_TRANSITION n
    && (s.on F.LNE_LANE_STATUS_CDR_LOCK n || s.get F.LNE_LANE_CTRL_LOOPBACK n == 2)

/-- The 64-word window after one more word, and whether lock is lost (03 R106, R107). -/
def laneWindow (w : List Bool) (bad : Bool) : List Bool × Bool :=
  let w' := (bad :: w).take 64
  (w', 16 ≤ w'.count true)

/-- Header bookkeeping of one 64b/66b block; the caller delivers it (03 R106). -/
def laneHeader (n : Nat) (bad : Bool) (s : State) : State :=
  let s1 := s.when bad (·.bumpHold F.LNE_BLOCK_ERRS_COUNT n)
  let l := s.lane n
  if s.on F.LNE_LANE_STATUS_BLOCK_LOCK n then
    let (w, lost) := laneWindow l.window bad
    if lost then laneUnlock n true s1 else s1.setLane n { l with window := w }
  else
    let g := if bad then 0 else l.good + 1
    if 64 ≤ g then laneLock n s1 else s1.setLane n { l with good := g }

/-- A 64b/66b block with its plain payload: header, then training, marker or bay word (03 R106, R117). -/
def laneBlock (n : Nat) (hdr : BitVec 2) (p : W64) (skew : Nat) (eye : Byte) (req : BitVec 10) (s : State) : State :=
  let bad := hdr != 0b01 && hdr != 0b10
  let s1 := laneHeader n bad s
  if bad || !s1.on F.LNE_LANE_STATUS_BLOCK_LOCK n then laneSkip n s1
  else if hdr = 0b10 ∧ p.toNat % 256 = 0xA5 then
    laneSkip n (laneTrainingBlock n p eye req s1)
  else if hdr = 0b10 ∧ p.toNat % 256 = 0x5A then laneMarkerBlock n p skew s1
  else laneDeliver n (if hdr = 0b10 then 1 else 0) p s1

/-- Four decoded 8b/10b symbols: errors, the 64-word window, K28.3 markers and delivery (03 R107, R129). -/
def laneSymbols (n : Nat) (w : Word8b) (aligns : Bool) (skew : Nat) (s : State) : State :=
  let bad := w.errs != 0
  let s1 := (s.bumpHold F.LNE_BLOCK_ERRS_COUNT n w.errs).modLane n fun l => { l with rxRd := w.rd }
  let s2 :=
    if s.on F.LNE_LANE_STATUS_BLOCK_LOCK n then
      let (win, lost) := laneWindow (s.lane n).window bad
      if lost then laneUnlock n true s1 else s1.modLane n fun l => { l with window := win }
    else if aligns then laneLock n s1
    else s1
  let mark := (List.range 4).any fun k => w.k.getLsbD k && bits w.data.toNat (8 * k) 8 == 0x7C
  laneDeliver n w.k (w.data.setWidth 64)
    (s2.when (mark && s2.on F.LNE_LANE_STATUS_BLOCK_LOCK n) (laneMarker n skew))

/-- An 8b/10b word from the line (03 R102, R107). A comma in byte 0 aligns an AUTO_ALIGN receiver that is not aligned and tells
it the running disparity. With AUTO_ALIGN at 0 no comma alignment is held and BLOCK_LOCK stays 0: DESIGN CHOICE, log entry 128. -/
def laneWord8b (n : Nat) (v : Nat) (s : State) : State :=
  let c := symbolOf v 0
  let aligns := !s.on F.LNE_LANE_STATUS_BLOCK_LOCK n && s.on F.LNE_LANE_CTRL_AUTO_ALIGN n && isComma c
  let rd := if aligns then c.toNat / 8 == 0b1100000 else (s.lane n).rxRd
  let w := decodeWord8b rd v (Config.freeWord s.free)
  laneSymbols n w aligns 0 (if w.wild = 0 then s else s.fresh)

/-- Where the last 64 bit errors stood, after the bits of one word, and whether 64 of them lie within 1,024 bits (03 R145). -/
def prbsErrors (seen : Nat) (errs : List Bool) (at_ : List Nat) : List Nat × Bool :=
  let (a, met, _) := errs.foldl (fun (acc : List Nat × Bool × Nat) e =>
    let (a, met, k) := acc
    if e then
      let a' := (k :: a).take 64
      (a', met || (a'.length == 64 && decide (k < a'.getLastD 0 + 1024)), k + 1)
    else (a, met, k + 1)) (at_, false, seen)
  (a, met)

/-- The PRBS checker takes 64 bits (03 R145, R146). Seeded by the bits received while not locked, it counts those in a row that
are as predicted; locked, it notes where the errors fall. -/
def lanePrbs (n : Nat) (d : W64) (s : State) : State :=
  let locked := s.on F.LNE_PRBS_LOCK n
  let l := s.lane n
  let (r, es) := prbsCheck (s.get F.LNE_PRBS_CHK n) locked (s.on F.LNE_PRBS_CHK_INV n) l.chk d
  let e := es.count true
  let m := 2 ^ 48 - 1
  let t := l.bitRem + 64
  let (a, met) := prbsErrors l.seen es l.errAt
  s.setLane n (if locked then
      { l with chk := r, errs := min m (l.errs + e), bits := min m (l.bits + t / 1024), bitRem := t % 1024,
               seen := l.seen + 64, errAt := a, lossMet := l.lossMet || met, rx := { l.rx with valid := false } }
    else { l with chk := r, clean := es.foldl (fun c b => if b then 0 else c + 1) l.clean, rx := { l.rx with valid := false } })

/-- A word with its polarity inverted (03 R110): every bit that the line carries. -/
def lineFlip (inv : Bool) (w : LaneRx) : LaneRx := if inv then { hdr := ~~~w.hdr, data := ~~~w.data } else w

/-- What reaches the receiver at one word time: the line, the lane's own serialiser or its transmit PCS (03 R149); none when
nothing does. The parallel loopback passes no polarity stage. -/
def State.received (s : State) (n : Nat) (rx : LaneRx) : Option LaneRx :=
  let inv := s.on F.LNE_LANE_CTRL_RX_INV n
  match s.get F.LNE_LANE_CTRL_LOOPBACK n with
  | 1 => (s.lane n).tx.map (lineFlip inv)
  | 2 => (s.lane n).pcs
  | _ => some (lineFlip inv rx)

/-- The pins' signal reaches the receiver: no near-end loopback (03 R149). -/
def State.fromPins (s : State) (n : Nat) : Bool :=
  s.get F.LNE_LANE_CTRL_LOOPBACK n != 1 && s.get F.LNE_LANE_CTRL_LOOPBACK n != 2

/-- One word received, by the lane's PCS mode (03 R104 to R108). A training block that comes this way measures an opening of 0
and is followed by a request to hold: DESIGN CHOICE, log entry 34. -/
def laneWord (n : Nat) (w : LaneRx) (s : State) : State :=
  if s.get F.LNE_PRBS_CHK n ≠ 0 then lanePrbs n w.data s
  else if s.get F.LNE_LANE_CTRL_PCS n = 2 then
    let (p, h) := descramble (s.lane n).descr w.data
    let p' := if s.on F.LNE_LANE_CTRL_SCRAMBLE n then p else w.data
    laneBlock n w.hdr p' 0 0 0 (s.modLane n (fun l => { l with descr := h }))
  else if s.get F.LNE_LANE_CTRL_PCS n = 1 then laneWord8b n (w.data.toNat % 2 ^ 40) s
  else laneDeliver n 0 w.data s

/-- One receive word time (03 R104 to R110, R149). -/
def laneReceive (n : Nat) (rx : LaneRx) (s : State) : State :=
  if !s.receiving n then s
  else match s.received n rx with
    | none => s
    | some w => laneWord n w (s.modLane n fun l => { l with line := some w })

def execLaneWordReceived (lane : LaneId) (rx : LaneRx) (s : State) : Out := .next (laneReceive lane rx s)

/-- A control block whose plain payload is known passes the descrambler, whose history takes the bits that the line carried
(03 R101). -/
def laneDescr (n : Nat) (p : W64) (s : State) : State :=
  s.modLane n fun l =>
    let h := if s.on F.LNE_LANE_CTRL_SCRAMBLE n then (scramble l.descr p).2 else (descramble l.descr p).2
    { l with descr := h }

/-- A training block as the PCS has decoded it; only a 64b/66b lane that receives from its pins takes one (03 R117, R149). -/
def execTrainingBlockReceived (lane : LaneId) (body : BitVec 56) (eye : Byte) (req : BitVec 10) (s : State) : Out :=
  .next <|
    if s.receiving lane && s.fromPins lane && s.get F.LNE_PRBS_CHK lane == 0 && s.get F.LNE_LANE_CTRL_PCS lane == 2 then
      let p : W64 := BitVec.ofNat 64 (body.toNat * 256 + 0xA5)
      laneBlock lane 0b10 p 0 eye req (laneDescr lane p s)
    else s

/-- An alignment marker: a marker block in 64b/66b mode, K28.3 with three data bytes in 8b/10b mode (03 R129). -/
def execAlignmentMarkerReceived (lane : LaneId) (body : BitVec 56) (skew : Byte) (s : State) : Out :=
  .next <|
    if !s.receiving lane || !s.fromPins lane || s.get F.LNE_PRBS_CHK lane != 0 then s
    else if s.get F.LNE_LANE_CTRL_PCS lane = 2 then
      let p : W64 := BitVec.ofNat 64 (body.toNat * 256 + 0x5A)
      laneBlock lane 0b10 p skew.toNat 0 0 (laneDescr lane p s)
    else if s.get F.LNE_LANE_CTRL_PCS lane = 1 ∧ s.on F.LNE_LANE_STATUS_BLOCK_LOCK lane then
      let d := body.toNat % 2 ^ 24 * 256 + 0x7C
      laneSymbols lane { data := BitVec.ofNat 32 d, k := 1, rd := (encodeWord8b (s.lane lane).rxRd d 1).2 } false skew.toNat s
    else s

/-! Equaliser taps -/

/-- The presets: c-1, c0, c+1 (03 R121). -/
def presetTaps : Nat → Nat × Nat × Nat
  | 0 => (0, 64, 0) | 1 => (0, 56, 8) | 2 => (4, 48, 12) | 3 => (4, 44, 16)
  | 4 => (6, 40, 18) | 5 => (8, 36, 20) | 6 => (10, 32, 22) | _ => (12, 29, 23)

def State.putTaps (s : State) (n : Nat) (t : Nat × Nat × Nat) : State :=
  ((s.put F.LNE_TAPS_CM1 n t.1).put F.LNE_TAPS_C0 n t.2.1).put F.LNE_TAPS_CP1 n t.2.2

def State.taps (s : State) (n : Nat) : Nat × Nat × Nat :=
  (s.get F.LNE_TAPS_CM1 n, s.get F.LNE_TAPS_C0 n, s.get F.LNE_TAPS_CP1 n)

/-- One tap's request: the tap and its status code. `other` is the sum of the other two taps (03 R119, R120). -/
def tapMove (req t lo hi other : Nat) : Nat × Nat :=
  if req = 1 then (if t < hi ∧ t + 1 + other ≤ 64 then (t + 1, 1) else (t, 3))
  else if req = 2 then (if lo < t then (t - 1, 1) else (t, 2))
  else (t, 0)

/-- A request applied to three taps: the taps and the status ST_CM1, ST_C0, ST_CP1 (03 R120). -/
def tapsApply (r : Nat) (t : Nat × Nat × Nat) : (Nat × Nat × Nat) × Nat :=
  if bit r 6 then (presetTaps (bits r 7 3), 0b010101)
  else
    let (a, sa) := tapMove (bits r 0 2) t.1 0 15 (t.2.1 + t.2.2)
    let (b, sb) := tapMove (bits r 2 2) t.2.1 24 64 (a + t.2.2)
    let (c, sc) := tapMove (bits r 4 2) t.2.2 0 23 (a + b)
    ((a, b, c), sa + 4 * sb + 16 * sc)

/-- Applies the partner's last request and reports it (03 R123). -/
def execTapRequestApply (lane : LaneId) (s : State) : Out :=
  .next <| match (s.lane lane).pendingReq with
    | some r =>
      if s.on F.LNE_EQ_REMOTE_EN lane then
        let (t, st) := tapsApply r.toNat (s.taps lane)
        (s.putTaps lane t).modLane lane (fun l => { l with
          pendingReq := none, echo := BitVec.ofNat 4 (r.toNat / 2 ^ 10), st := BitVec.ofNat 6 st })
      else s
    | none => s

/-! Transmit path -/

/-- The training block the lane sends (03 R114, R123, R124). -/
def trainingBlock (s : State) (n : Nat) : W64 :=
  let l := s.lane n
  let tr := s.on F.LNE_LANE_STATUS_TRAINING n
  let rdy := !tr && (s.on F.LNE_LANE_STATUS_TRAINED n || s.on F.LNE_LANE_STATUS_FALLBACK n)
  let st := if s.on F.LNE_EQ_REMOTE_EN n then l.st.toNat else 0
  let p : W64 := BitVec.ofNat 64 (0xA5 + (if tr then l.req.toNat else 0) * 2 ^ 8 + l.seq.toNat * 2 ^ 18
    + l.echo.toNat * 2 ^ 22 + st * 2 ^ 26 + ofFlag tr * 2 ^ 32 + ofFlag rdy * 2 ^ 33)
  p ||| ((ctlCheck p).setWidth 64 <<< 56)

/-- The lane drives its line: enabled, powered, active and in no transition (03 R151). -/
def State.driving (s : State) (n : Nat) : Bool :=
  s.on F.LNE_LANE_CTRL_EN n && s.domOn (laneDom n) && s.get F.LNE_LANE_STATUS_PSTATE n == 0
    && !s.on F.LNE_LANE_STATUS_IN_TRANSITION n

/-- The bay whose port the lane is bound to, when that bay is not fenced (03 R139, R142). -/
def State.openBay (s : State) (n : Nat) : Bool :=
  s.on F.LNE_XBAR_EN n && !s.fenced (n / 48 * 16 + s.get F.LNE_XBAR_BAY n)

/-- The idle of a PCS mode: control or K flags and data (03 R109). In 8b/10b mode a word is two idle ordered sets of Clause 36:
K28.5 D5.6 where the running disparity is positive, K28.5 D16.2 else. -/
def idleWord (pcs : Nat) (rd : Bool) : LaneWord :=
  if pcs = 2 then ⟨false, 1, 0x1E⟩
  else if pcs = 1 then ⟨false, 0b0101, if rd then 0x50BCC5BC else 0x50BC50BC⟩
  else ⟨false, 0, 0x5555555555555555⟩

/-- The word a lane sends at one word time, READY, and the blocks since a training block (03 R105, R109, R118). -/
def laneChoose (s : State) (n : Nat) (port : PortWord) (idleTrain : Bool) : LaneWord × Bool × Nat :=
  let pcs := s.get F.LNE_LANE_CTRL_PCS n
  let have' := port.valid && s.openBay n
  let since := (s.lane n).since
  let due := pcs == 2 && max 1 (s.get F.LNE_EQ_INTERVAL n) ≤ since
  if due || (pcs == 2 && !have' && idleTrain) then (⟨false, 1, trainingBlock s n⟩, !due, 0)
  else if have' then (⟨true, port.ctl, port.data⟩, true, since + 1)
  else (idleWord pcs (s.lane n).txRd, true, since + 1)

/-- The transmit PCS's output for a word: sync header and scrambled payload, or four symbols, or the raw word; with the lane's
scrambler and running disparity after it (03 R101 to R103). A K flag at a byte that is no control symbol gives open symbols. -/
def pcsEncode (s : State) (n : Nat) (w : LaneWord) : LaneRx × Lane :=
  let l := s.lane n
  match s.get F.LNE_LANE_CTRL_PCS n with
  | 2 =>
    let (sc, h) := scramble l.scr w.data
    (⟨if w.ctl.getLsbD 0 then 0b10 else 0b01, if s.on F.LNE_LANE_CTRL_SCRAMBLE n then sc else w.data⟩, { l with scr := h })
  | 1 =>
    if kGood w.data.toNat w.ctl then
      let (v, rd) := encodeWord8b l.txRd w.data.toNat w.ctl
      (⟨0, BitVec.ofNat 64 v⟩, { l with txRd := rd })
    else (⟨0, BitVec.ofNat 64 ((Config.freeWord s.free).toNat % 2 ^ 40)⟩, { l with txRd := Config.freeNat s.free % 2 == 0 })
  | _ => (⟨0, w.data⟩, l)

/-- A running generator's word: its low bits inverted, one for each INJECT not yet carried out (03 R143, R148). -/
def prbsWord (s : State) (n : Nat) : W64 × Lane :=
  let l := s.lane n
  let (g, d) := prbsGen (s.get F.LNE_PRBS_GEN n) l.gen
  let d1 := if s.on F.LNE_PRBS_GEN_INV n then ~~~d else d
  (d1 ^^^ BitVec.ofNat 64 (2 ^ min 64 l.inject - 1), { l with gen := g, inject := l.inject - 64 })

/-- One transmit word time (03 R105, R109, R110, R118, R144, R148, R149). READY is 0 at the word times that R118 takes and, by
the isolation of 17 R890, without power. -/
def laneTransmit (n : Nat) (port : PortWord) (idleTrain : Bool) (s : State) : State :=
  let l := s.lane n
  let inv := s.on F.LNE_LANE_CTRL_TX_INV n
  if !s.driving n then s.setLane n { l with tx := none, pcs := none, ready := s.domOn (laneDom n) }
  else if s.get F.LNE_PRBS_GEN n ≠ 0 then
    let (d, l') := prbsWord s n
    s.setLane n { l' with ready := true, pcs := none, tx := some (lineFlip inv ⟨0, d⟩) }
  else if s.get F.LNE_LANE_CTRL_LOOPBACK n = 3 then
    s.setLane n { l with tx := l.line.map (lineFlip inv), pcs := none, ready := true }
  else
    let (w, rdy, k) := laneChoose s n port idleTrain
    let (o, l') := pcsEncode s n w
    let s1 := s.setLane n { l' with tx := some (lineFlip inv o), pcs := some o, ready := rdy, since := k }
    if s.get F.LNE_LANE_CTRL_PCS n = 1 ∧ !kGood w.data.toNat w.ctl then s1.fresh else s1

def execLaneWordTransmit (lane : LaneId) (port : PortWord) (idleTrain : Bool) (s : State) : Out :=
  .next (laneTransmit lane port idleTrain s)

/-! Training rows -/

/-- A write of 1 to LNE_EQ.RETRAIN (03 R124); refused with POWERED_DOWN while the domain is off (01 R46). -/
def laneRetrain (n : Nat) (s : State) : State :=
  if !s.domOn (laneDom n) then s.answer .poweredDown
  else (s.okay).when (s.on F.LNE_LANE_CTRL_EN n && s.trainable n) (laneTrain n)

def execRetrain (lane : LaneId) (s : State) : Out := .next (laneRetrain lane s)

def execTrainingComplete (lane : LaneId) (s : State) : Out :=
  .next <|
    if s.on F.LNE_LANE_STATUS_TRAINING lane && (s.lane lane).ended then
      ((s.raise F.LNE_LANE_STATUS_TRAINED lane).clear F.LNE_LANE_STATUS_TRAINING lane).modLane lane
        (fun l => { l with ended := false })
    else s

/-- Fallback (03 R126). -/
def laneFallback (n : Nat) (s : State) : State :=
  let s1 := s.put F.LNE_TAPS_CTLE n (s.get F.LNE_EQ_FALLBACK_PRESET n)
  ((s1.raise F.LNE_LANE_STATUS_FALLBACK n).raise F.LNE_LANE_ERR_TRAIN_FALLBACK n).clear F.LNE_LANE_STATUS_TRAINING n

/-- One of the two waits of 03 R125 ends: for a valid training block since the start, or (`echo`) for ECHO to match SEQ. The
first failed wait is repeated, the second one falls back. -/
def execTrainingResponseTimeout (lane : LaneId) (echo : Bool) (s : State) : Out :=
  .next <|
    let l := s.lane lane
    if !s.on F.LNE_LANE_STATUS_TRAINING lane || l.ended || (!echo && l.heard) then s
    else if if echo then l.echoWaited else l.respWaited then laneFallback lane s
    else s.setLane lane (if echo then { l with echoWaited := true } else { l with respWaited := true })

/-! Bit-slip, binding and PRBS rows -/

/-- A write of 1 to LNE_BITSLIP.SLIP (03 R111, R112). -/
def laneBitslip (n : Nat) (s : State) : State :=
  if !s.domOn (laneDom n) then s.answer .poweredDown
  else if s.on F.LNE_BITSLIP_BUSY n || (s.on F.LNE_LANE_CTRL_AUTO_ALIGN n && s.get F.LNE_LANE_CTRL_PCS n != 0) then
    s.okay.raise F.LNE_LANE_ERR_CFG_REFUSED n
  else s.okay.raise F.LNE_BITSLIP_BUSY n

def execBitslip (lane : LaneId) (s : State) : Out := .next (laneBitslip lane s)

/-- OFFSET is the total slip modulo the word length of the mode (03 R113). -/
def laneOffset (n : Nat) (s : State) : State :=
  s.put F.LNE_BITSLIP_OFFSET n ((s.lane n).slips % pcsBits (s.get F.LNE_LANE_CTRL_PCS n))

/-- A slip takes effect: the word boundary stands at another bit position, where good headers are counted anew (03 R106, R111). -/
def execBitslipDone (lane : LaneId) (s : State) : Out :=
  .next <|
    if s.on F.LNE_BITSLIP_BUSY lane then
      laneOffset lane ((s.clear F.LNE_BITSLIP_BUSY lane).modLane lane fun l => { l with good := 0, slips := l.slips + 1 })
    else s

/-- Writes a lane's binding. A change discards the words on their way to the old port (03 R141). -/
def laneRebind (n w : Nat) (s : State) : State :=
  if w % 256 = (s.rd R.LNE_XBAR n).toNat then s
  else (s.wr R.LNE_XBAR n (BitVec.ofNat 64 (w % 256))).modLane n fun l => { l with rx := {}, hist := [] }

/-- A write of LNE_XBAR (03 R139 to R141). -/
def laneBind (n w : Nat) (s : State) : State :=
  let taken := ((List.range 48).map (n / 48 * 48 + ·)).any (fun m =>
    m != n && s.on F.LNE_XBAR_EN m && s.get F.LNE_XBAR_BAY m == bits w 0 4 && s.get F.LNE_XBAR_PORT m == bits w 4 3)
  if bit w 7 && taken then s.okay.raise F.LNE_LANE_ERR_CFG_REFUSED n
  else laneRebind n w s.okay

def execLaneBindingChange (lane : LaneId) (w : W32) (s : State) : Out := .next (laneBind lane w.toNat s)

/-- The checker declares LOCK once 1,024 bits in a row were free of errors (03 R145). -/
def execPrbsLock (lane : LaneId) (s : State) : Out :=
  .next (s.when (s.get F.LNE_PRBS_CHK lane != 0 && !s.on F.LNE_PRBS_LOCK lane && 1024 ≤ (s.lane lane).clean) fun t =>
    (t.raise F.LNE_PRBS_LOCK lane).modLane lane fun l => { l with clean := 0, seen := 0, errAt := [], lossMet := false })

/-- The checker drops lock and reseeds (03 R145). -/
def lanePrbsDrop (n : Nat) (s : State) : State :=
  let s1 := s.modLane n fun l => { l with clean := 0, seen := 0, errAt := [], lossMet := false }
  if s.on F.LNE_PRBS_LOCK n then (s1.clear F.LNE_PRBS_LOCK n).raise F.LNE_LANE_ERR_PRBS_LOST n else s1

/-- The checker drops LOCK once 64 errors fell within 1,024 bits (03 R145). -/
def execPrbsLost (lane : LaneId) (s : State) : Out :=
  .next (if s.on F.LNE_PRBS_LOCK lane && (s.lane lane).lossMet then lanePrbsDrop lane s else s)

def laneSnap (n : Nat) (s : State) : State :=
  let l := s.lane n
  (s.put F.LNE_PRBS_ERRS_ERRS n l.errs).put F.LNE_PRBS_BITS_BITS n l.bits

def laneClr (n : Nat) (s : State) : State := s.modLane n (fun l => { l with errs := 0, bits := 0, bitRem := 0 })
def laneInject (n : Nat) (s : State) : State := s.modLane n (fun l => { l with inject := l.inject + 1 })

/-- An action of a lane register: POWERED_DOWN while its domain is off (01 R46). -/
def laneAction (n : Nat) (g : State → State) (s : State) : State :=
  if s.domOn (laneDom n) then g s.okay else s.answer .poweredDown

def execSnap (lane : LaneId) (s : State) : Out := .next (laneAction lane (laneSnap lane) s)
def execClr (lane : LaneId) (s : State) : Out := .next (laneAction lane (laneClr lane) s)
def execInject (lane : LaneId) (s : State) : Out := .next (laneAction lane (laneInject lane) s)

/-- The generator starts a sequence at an open place of it, never at all zeros (03 R143). -/
def prbsSeed (code n : Nat) (s : State) : State :=
  if code = 0 then s
  else (s.modLane n fun l => { l with
    gen := BitVec.ofNat 31 (Config.freeNat s.free % (2 ^ (prbsTaps code).1 - 1) + 1), inject := 0 }).fresh

/-- A write of LNE_PRBS (03 R143 to R148): SNAP acts before CLR. -/
def lanePrbsWrite (n w : Nat) (s : State) : State :=
  if 5 ≤ bits w 0 3 ∨ 5 ≤ bits w 3 3 then s.raise F.LNE_LANE_ERR_CFG_REFUSED n
  else
    let s1 := s.wrCodes R.LNE_PRBS n (BitVec.ofNat 64 w) false
    let s2 := s1.when (s.get F.LNE_PRBS_CHK n != bits w 3 3) fun t =>
      (t.clear F.LNE_PRBS_LOCK n).modLane n fun l => { l with clean := 0, seen := 0, errAt := [], lossMet := false }
    let s3 := s2.when (s.get F.LNE_PRBS_GEN n != bits w 0 3) (prbsSeed (bits w 0 3) n)
    ((s3.when (bit w 8) (laneSnap n)).when (bit w 9) (laneClr n)).when (bit w 10) (laneInject n)

/-! Locks of PLL and CDR -/

def execQuadPllLock (quad : QuadId) (refKhz : BitVec 24) (s : State) : Out :=
  .next (s.when (s.pllOn quad && s.pllRangeOk quad refKhz.toNat) (·.raise F.LNE_QPLL_STATUS_LOCK quad))

/-- A locked quad PLL loses lock (03 R99). -/
def quadUnlock (q : Nat) (s : State) : State :=
  let s1 := (s.clear F.LNE_QPLL_STATUS_LOCK q).raise F.LNE_QUAD_ERR_PLL_UNLOCK q
  s1.each (quadLanes q) (fun s n => laneCdrLoss n s)

/-- A PLL that no longer runs holds no lock; it loses it as any other does (03 R97, R99). -/
def quadSettle (q : Nat) (s : State) : State :=
  s.when (!s.pllOn q && s.on F.LNE_QPLL_STATUS_LOCK q) (quadUnlock q)

def execQuadPllUnlock (quad : QuadId) (refLost : Bool) (s : State) : Out :=
  .next <|
    let s1 := s.when refLost (·.raise F.LNE_QUAD_ERR_REF_LOST quad)
    if s.on F.LNE_QPLL_STATUS_LOCK quad then quadUnlock quad s1 else s1

/-- CDR lock from valid data at the pins (03 R152), not without the lane supplies (21 R998). -/
def execCdrLock (lane : LaneId) (s : State) : Out :=
  .next <|
    if s.laneSupply && s.driving lane && s.on F.LNE_QPLL_STATUS_LOCK (lane / 4 : Nat) then
      (s.raise F.LNE_LANE_STATUS_CDR_LOCK lane).raise F.LNE_LANE_STATUS_SIGNAL lane
    else s

def execCdrLoss (lane : LaneId) (signal : Bool) (s : State) : Out :=
  .next ((laneCdrLoss lane s).when (s.on F.LNE_LANE_CTRL_EN lane) (·.flag F.LNE_LANE_STATUS_SIGNAL lane signal))

/-! Enable and power states -/

/-- Begins a transition to state `p`; leaving the active state drops every lock (03 R130, R150, R151). -/
def lanePstateBegin (n : Nat) (p : BitVec 2) (s : State) : State :=
  let s1 := s.raise F.LNE_LANE_STATUS_IN_TRANSITION n
  let s2 := if s.get F.LNE_LANE_STATUS_PSTATE n = 0 then
      (laneUnlock n false (laneUngroup n s1)).clear F.LNE_LANE_STATUS_CDR_LOCK n else s1
  s2.modLane n (fun l => { l with target := some p, tx := none, pcs := none })

/-- A request of state `p` (03 R150, R153). -/
def lanePstate (n : Nat) (p : BitVec 2) (s : State) : State :=
  if s.on F.LNE_LANE_STATUS_IN_TRANSITION n then s.modLane n (fun l => { l with queued := some p })
  else if s.get F.LNE_LANE_STATUS_PSTATE n = p.toNat then s
  else lanePstateBegin n p s

/-- A transition completes, and the request queued behind it is carried out (03 R153). -/
def execPstateDone (lane : LaneId) (s : State) : Out :=
  .next <| match (s.lane lane).target with
    | none => s
    | some p =>
      let s1 := (s.put F.LNE_LANE_STATUS_PSTATE lane p.toNat).clear F.LNE_LANE_STATUS_IN_TRANSITION lane
      let s2 := (s1.raise F.LNE_LANE_ERR_PSTATE_DONE lane).modLane lane (fun l => { l with target := none, queued := none })
      let s3 := match (s.lane lane).queued with
        | some q => lanePstate lane q s2
        | none => s2
      quadSettle (lane / 4 : Nat) s3

/-- The lane starts afresh when EN rises (03 R122, R124). -/
def laneStart (n : Nat) (s : State) : State :=
  let l := s.lane n
  let s1 := (s.wr R.LNE_LANE_STATUS n 0).setLane n
    { ({} : Lane) with fresh := true, errs := l.errs, bits := l.bits, bitRem := l.bitRem, gen := l.gen,
                       descr := l.descr, scr := l.scr, slips := l.slips, txRd := l.txRd, rxRd := l.rxRd }
  let s2 := s1.clear F.LNE_BITSLIP_BUSY n
  s2.putTaps n (presetTaps (s.get F.LNE_EQ_TX_INIT_PRESET n))

/-- The lane stops when EN falls: its live state reads 0 and the line is quiet (03 R151). -/
def laneStop (n : Nat) (s : State) : State :=
  let s1 := laneUngroup n s
  let s2 := ((s1.wr R.LNE_LANE_STATUS n 0).clear F.LNE_BITSLIP_BUSY n).clear F.LNE_PRBS_LOCK n
  s2.modLane n (fun l => { l with
    good := 0, window := [], rx := {}, hist := [], tx := none, pcs := none, line := none, target := none, queued := none,
    pendingReq := none, ended := false, respWaited := false, echoWaited := false, clean := 0, seen := 0, errAt := [],
    lossMet := false })

/-- A word sets a reserved code of LNE_LANE_CTRL (03 R157). -/
def laneReserved (w : Nat) : Bool := bits w 1 2 == 3 || 6 ≤ bits w 3 3 || 4 ≤ bits w 9 3 || bits w 12 2 == 3

/-- The fields that 03 R157 freezes while EN is 1. -/
def laneFrozen (w : Nat) : Nat × Nat × Nat × Nat × Nat := (bits w 1 2, bits w 3 3, bits w 6 1, bits w 7 1, bits w 16 4)

/-- A write of LNE_LANE_CTRL (03 R132, R149, R150, R157). -/
def laneCtrlWrite (n w : Nat) (s : State) : State :=
  let old := (s.rd R.LNE_LANE_CTRL n).toNat
  let en := bit old 0
  if bit w 0 != en && !s.domOn (laneDom n) then s.answer .poweredDown
  else if laneReserved w || (en && laneFrozen w != laneFrozen old)
      || (bit w 0 && bit w 6 && s.get F.LNE_QPLL_REF (n / 4) != 2) then
    s.okay.raise F.LNE_LANE_ERR_CFG_REFUSED n
  else
    let s1 := s.okay.wr R.LNE_LANE_CTRL n (BitVec.ofNat 64 (w % 2 ^ 20))
    let p := BitVec.ofNat 2 (bits w 12 2)
    let s2 :=
      if bit w 0 && !en then lanePstate n p (laneStart n s1)
      else if !bit w 0 && en then laneStop n s1
      else if bit w 0 then
        let s3 := s1.when (bits w 9 3 != bits old 9 3) (fun s => lanePrbsDrop n (laneUnlock n true s))
        s3.when (s.domOn (laneDom n)) (lanePstate n p)
      else s1
    quadSettle (n / 4) (s2.when (bits w 1 2 != bits old 1 2) (laneOffset n))

def execLaneEnable (lane : LaneId) (w : W32) (s : State) : Out := .next (laneCtrlWrite lane w.toNat s)

/-- A write that changes LNE_LANE_CTRL.PSTATE alone (03 R150). -/
def execPstateRequest (lane : LaneId) (p : BitVec 2) (s : State) : Out :=
  .next (laneCtrlWrite lane (setBits (s.rd R.LNE_LANE_CTRL lane) 12 2 p.toNat).toNat s)

/-- A write of LNE_QPLL (03 R98 and the register table). -/
def quadPllWrite (q w : Nat) (s : State) : State :=
  let old := (s.rd R.LNE_QPLL q).toNat
  if bit w 16 && !bit old 16 && !s.domOn (laneDom (q * 4)) then s.answer .poweredDown
  else if bits w 0 2 = 3 ∨ (s.pllOn q ∧ bits w 0 16 ≠ bits old 0 16) then s.raise F.LNE_QUAD_ERR_CFG_REFUSED q
  else quadSettle q (s.wr R.LNE_QPLL q (BitVec.ofNat 64 (w % 2 ^ 17)))

/-- A write of LNE_EQ: the fields, then RETRAIN (03 R124). -/
def laneEqWrite (n w : Nat) (s : State) : State :=
  if bit w 24 && !s.domOn (laneDom n) then s.answer .poweredDown
  else (s.wrCodes R.LNE_EQ n (BitVec.ofNat 64 w) false).when (bit w 24) (laneRetrain n)

/-- LNE registers computed when they are read (03 R97, R136, R137). -/
def lneView (s : State) (r : Reg) (i : Nat) : Option Nat :=
  if r = R.LNE_QPLL_STATUS then some (ofFlag (s.pllOn i) + 2 * s.get F.LNE_QPLL_STATUS_LOCK i)
  else if r = R.LNE_LANE_STATUS then
    some ((s.rd R.LNE_LANE_STATUS i).toNat + 2 ^ 10 * ofFlag (s.latOk i))
  else if r = R.LNE_TX_LAT then
    some (if s.xlocked i && s.on F.LNE_LANE_CTRL_EN i && s.domOn (laneDom i) then Config.laneTxLatency i % 1024 else 0)
  else none

/-- LNE registers whose write is more than its access codes. -/
def lneWrite (s : State) (r : Reg) (i w : Nat) : Option State :=
  if r = R.LNE_LANE_CTRL then some (laneCtrlWrite i w s)
  else if r = R.LNE_QPLL then some (quadPllWrite i w s)
  else if r = R.LNE_EQ then some (laneEqWrite i w s)
  else if r = R.LNE_BITSLIP then some (if bit w 0 then laneBitslip i s else s)
  else if r = R.LNE_PRBS then
    some (if bits w 8 3 != 0 && !s.domOn (laneDom i) then s.answer .poweredDown else lanePrbsWrite i w s)
  else if r = R.LNE_RX_LAT then some (laneLatCheck i (s.wrCodes r i (BitVec.ofNat 64 w) false))
  else if r = R.LNE_XBAR then some (laneBind i w s)
  else none

end Sys2Proof.Machine
end

