-- ==== Sys2Proof/Machine/Clock.lean ====
section
/-! DEFINITION. Clock monitors, synthesisers and the gating tree (17 R865 to R887). -/

namespace Sys2Proof.Machine

/-! Synthesiser states (17 CKG_SYN_STATUS) -/

def synOff : Nat := 0
def synLocking : Nat := 1
def synPrimary : Nat := 2
def synFallback : Nat := 3
def synHeld : Nat := 4
def synFlint : Nat := 5

def State.synth (s : State) (n : Nat) : Synth := s.synths.get {} n
def State.setSynth (s : State) (n : Nat) (x : Synth) : State := { s with synths := s.synths.set n x }
def State.synState (s : State) (n : Nat) : Nat := s.get F.CKG_SYN_STATUS_STATE n

/-- The input source of a synthesiser: the fallback or the primary one (17 R878, R879); 3 for none. -/
def State.synInput (s : State) (n : Nat) (fb : Bool) : Nat :=
  if fb then s.get F.CKG_SYN_CTRL_FALLBACK n else s.get F.CKG_SYN_CTRL_INPUT n

/-- The monitor of a source reports it stable (17 R867). -/
def State.srcStable (s : State) (m : Nat) : Bool := m < 3 && s.on F.CKG_MON_STATUS_STABLE m

/-- The live field RAMPING follows the outputs. -/
def synRamping (n : Nat) (s : State) : State :=
  let x := s.synth n
  s.flag F.CKG_SYN_STATUS_RAMPING n (x.rampUp || x.rampDown)

/-- The outputs restart at division 16 × D_o (17 R877). -/
def synRestart (n : Nat) (s : State) : State :=
  synRamping n (s.setSynth n { s.synth n with running := true, exp := 4, rampUp := true, rampDown := false })

/-- The outputs stop at once (17 R878). -/
def synStop (n : Nat) (s : State) : State :=
  synRamping n (s.setSynth n { s.synth n with running := false, exp := 0, rampUp := false, rampDown := false })

/-- The outputs ramp down to a stop, if they run (17 R877). -/
def synRampDown (n : Nat) (s : State) : State :=
  let x := s.synth n
  if x.running then synRamping n (s.setSynth n { x with rampDown := true, rampUp := false }) else s

/-- XLOCK changes; a fall of any bit is an event (17 R881). -/
def synXlock (n v : Nat) (s : State) : State :=
  let old := s.get F.CKG_SYN_STATUS_XLOCK n
  let fell := (List.range 4).any fun o => bit old o && !bit v o
  (s.put F.CKG_SYN_STATUS_XLOCK n v).when fell (·.raise F.CKG_SYN_EVT_XLOCK_LOST n)

def synDivs (s : State) (n : Nat) : List Nat :=
  [s.get F.CKG_SYN_DIV_D0 n, s.get F.CKG_SYN_DIV_D1 n, s.get F.CKG_SYN_DIV_D2 n, s.get F.CKG_SYN_DIV_D3 n]

/-- The outputs that R873 calls crossing-locked. -/
def State.xlockNow (s : State) (n : Nat) : Nat :=
  if s.synState n = synPrimary ∧ s.get F.CKG_SYN_CTRL_INPUT n = 2 ∧ (s.synth n).running then
    packBits ((synDivs s n).map fun d =>
      d != 0 && s.get F.CKG_SYN_CTRL_M n % ((s.get F.CKG_SYN_CTRL_P n + 1) * d) == 0)
  else 0

/-- A crossing boundary: the dividers of synthesisers that have locked to the crossing clock realign (17 R873). -/
def synBoundary (s : State) : State :=
  s.each (List.range 54) fun t n =>
    let v := t.xlockNow n
    if v = t.get F.CKG_SYN_STATUS_XLOCK n then t else synXlock n v t

/-- The VCO is no longer locked to the input in use. -/
def synUnlock (n : Nat) (s : State) : State := synXlock n 0 (s.clear F.CKG_SYN_STATUS_LOCK n)

/-- The outputs carry the flint clock (17 R878). -/
def synToFlint (n : Nat) (s : State) : State :=
  let s1 := (s.put F.CKG_SYN_STATUS_STATE n synFlint).raise F.CKG_SYN_EVT_FLINT n
  synRestart n (s1.setSynth n { s1.synth n with relock := none })

/-- The synthesiser begins to lock on one of its inputs (17 R871, R878). -/
def synRelock (n : Nat) (fb : Bool) (s : State) : State :=
  (s.put F.CKG_SYN_STATUS_STATE n synLocking).setSynth n { s.synth n with relock := some fb }

/-- The active input of synthesiser `n` trips; `fb` says that it is the fallback (17 R878, R879). -/
def synTrip (n : Nat) (fb : Bool) (s : State) : State :=
  let s1 := synStop n (synUnlock n (s.raise F.CKG_SYN_EVT_TRIP n))
  let next := s1.synInput n (!fb)
  if next = 3 then synToFlint n s1
  else if s1.srcStable next then synRelock n (!fb) s1
  else (s1.put F.CKG_SYN_STATUS_STATE n synHeld).setSynth n { s1.synth n with relock := some (!fb) }

/-- The input that synthesiser `n` runs on or locks to: whether the fallback, if it has one. -/
def State.synActive (s : State) (n : Nat) : Option Bool :=
  let st := s.synState n
  if st = synPrimary then some false
  else if st = synFallback then some true
  else if st = synLocking then (s.synth n).relock
  else none

/-- The frequency that monitor `m` expects, in kHz; 0 disables the frequency test (17 R866, R868). -/
def State.monKhz (s : State) (m : Nat) : Nat := if m = 2 then s.get F.TMG_FREQ_KHZ else s.get F.CKG_MON_CTRL_KHZ m

/-- A window count lies within TOL × 2.5 percent of KHZ × 8 / 1,000 (17 R866). -/
def State.monCountOk (s : State) (m count : Nat) : Bool :=
  let khz := s.monKhz m
  let off := max (1000 * count) (8 * khz) - min (1000 * count) (8 * khz)
  khz == 0 || decide (off * 40 ≤ 8 * khz * s.get F.CKG_MON_CTRL_TOL m)

/-- Monitor `m` finds no edge, a wrong count, or its source absent; the crossing-clock monitor does not trip in holdover
(17 R866, R868). -/
def State.monTrips (s : State) (m count : Nat) (silent : Bool) : Bool :=
  !(m == 2 && s.on F.TMG_STATUS_HOLDOVER) && (silent || !s.monCountOk m count || (m == 2 && !s.boundariesRun))

/-- The active input of synthesiser `n` fails on the flint clock: the return under way is given up (17 R880). -/
def synReturnFails (n : Nat) (s : State) : State :=
  let x := s.synth n
  synRamping n ((synUnlock n s).setSynth n { x with relock := none, rampUp := x.rampUp || x.rampDown, rampDown := false })

/-- A monitor ends a window with `count` edges, or sees no edge for 32 flint cycles (17 R866, R868, R869, R878). -/
def execMonitorTrip (m : Fin 3) (count : W24) (silent : Bool) (s : State) : Out :=
  .next <|
    let s0 := s.put F.CKG_MON_STATUS_COUNT m count.toNat
    if !s.monTrips m count.toNat silent then s0
    else
      let s1 := ((s0.clear F.CKG_MON_STATUS_STABLE m).raise F.CKG_MON_STATUS_TRIPPED m).raise F.CKG_ERR_MON_TRIP
      let s2 := s1.each (List.range 48) fun t q =>
        if t.get F.LNE_QPLL_REF q = m.val then t.raise F.LNE_QUAD_ERR_REF_LOST q else t
      s2.each (List.range 54) fun t n =>
        match t.synActive n with
        | some fb => if t.synInput n fb = m.val then synTrip n fb t else t
        | none => if t.synState n = synFlint then
            (match (t.synth n).relock with
             | some fb => if t.synInput n fb = m.val then synReturnFails n t else t
             | none => t) else t

/-- A monitor reports its source stable (17 R867), if the last window passed too; a held synthesiser that waits for it relocks
(R878). -/
def execMonitorStable (m : Fin 3) (count : W24) (s : State) : Out :=
  .next <|
    let s0 := s.put F.CKG_MON_STATUS_COUNT m count.toNat
    if !s.monCountOk m count.toNat || (m == 2 && !s.boundariesRun) then s0
    else
      let s1 := s0.raise F.CKG_MON_STATUS_STABLE m
      s1.each (List.range 54) fun t n =>
        match (t.synth n).relock with
        | some fb => if t.synState n = synHeld ∧ t.synInput n fb = m.val then synRelock n fb t else t
        | none => t

/-- The fields of CKG_SYN_CTRL that R872 holds fixed while EN is 1. -/
def synFixed (w : Nat) : Nat := bits w 0 22

/-- A write of CKG_SYN_CTRL (17 R871, R872, R877). -/
def synCtrlWrite (n w : Nat) (s : State) : State :=
  let old := (s.rd R.CKG_SYN_CTRL n).toNat
  if bits w 0 2 = 3 ∨ (bit old 31 = true ∧ synFixed w ≠ synFixed old) then s.raise F.CKG_SYN_EVT_CFG_REFUSED n
  else
    let s1 := s.wrCodes R.CKG_SYN_CTRL n (BitVec.ofNat 64 w) false
    if bit w 31 && !bit old 31 then synRelock n false s1
    else if !bit w 31 && bit old 31 then
      let s2 := synRampDown n (synUnlock n (s1.put F.CKG_SYN_STATUS_STATE n synOff))
      s2.setSynth n { s2.synth n with relock := none }
    else s1

def execSynthEnable (n : SynId) (w : W32) (s : State) : Out := .next (synCtrlWrite n w.toNat s)

/-- The pre-divider and multiplier in use. -/
def State.synRatio (s : State) (n : Nat) (fb : Bool) : Nat × Nat :=
  if fb then (s.get F.CKG_SYN_FB_FB_P n + 1, s.get F.CKG_SYN_FB_FB_M n)
  else (s.get F.CKG_SYN_CTRL_P n + 1, s.get F.CKG_SYN_CTRL_M n)

/-- The ranges in which a synthesiser locks (17 R871). -/
def synRangeOk (khz p m : Nat) : Bool :=
  16 ≤ m && 5000 * p ≤ khz && khz ≤ 400000 * p && 2400000 * p ≤ khz * m && khz * m ≤ 4800000 * p

/-- The outputs move to the input that the VCO has locked to, and start (17 R877, R878, R880). -/
def synArrive (n : Nat) (fb : Bool) (s : State) : State :=
  let s1 := (s.put F.CKG_SYN_STATUS_STATE n (if fb then synFallback else synPrimary)).when fb (·.raise F.CKG_SYN_EVT_FALLBACK n)
  synRestart n (s1.setSynth n { s1.synth n with relock := none })

/-- The VCO locks on the input it relocks to (17 R871, R878, R880): not before the outputs of the input left have stopped. From
the flint clock the outputs ramp down only then, and move at the end of that. -/
def execSynthLock (n : SynId) (khz : BitVec 24) (s : State) : Out :=
  .next <| match (s.synth n).relock with
    | none => s
    | some fb =>
      let (p, m) := s.synRatio n fb
      let st := s.synState n
      let waits := st = synLocking ∧ (s.synth n).rampDown = false
      if !(decide waits || st == synFlint) || !s.srcStable (s.synInput n fb) || !synRangeOk khz.toNat p m then s
      else
        let s1 := s.raise F.CKG_SYN_STATUS_LOCK n
        if st = synFlint ∧ (s.synth n).running = true then synRampDown n s1 else synArrive n fb s1

/-- A synthesiser held 2 ms moves to the flint clock (17 R878). -/
def execHeldTimeout (n : SynId) (s : State) : Out :=
  .next (if s.synState n = synHeld then synToFlint n s else s)

/-- The return of a synthesiser (17 R880): from FALLBACK to its stable primary input; from FLINT to the primary input or
else the fallback, on the flint clock until it locks. -/
def execRevert (n : SynId) (s : State) : Out :=
  .next <|
    if !s.on F.CKG_SYN_CTRL_REVERT n then s
    else
      let prim := s.srcStable (s.synInput n false)
      if s.synState n = synFallback && prim then
        synRelock n false (synUnlock n (synRampDown n (s.raise F.CKG_SYN_EVT_REVERT n)))
      else if s.synState n = synFlint && (s.synth n).relock.isNone && (prim || s.srcStable (s.synInput n true)) then
        (s.raise F.CKG_SYN_EVT_REVERT n).setSynth n { s.synth n with relock := some (!prim) }
      else s

/-- The ramp down from the flint clock ends: the outputs move to the input that has locked (17 R880). -/
def State.synMoves (s : State) (n : Nat) : Option Bool :=
  let x := s.synth n
  if s.synState n = synFlint ∧ s.on F.CKG_SYN_STATUS_LOCK n = true ∧ x.rampUp = false ∧ x.rampDown = true ∧ 4 ≤ x.exp then x.relock
  else none

/-- A ramping synthesiser's divisions halve or double (17 R877); at the end of a ramp down the outputs stop, or move from the
flint clock (R880). -/
def execRampStep (n : SynId) (s : State) : Out :=
  .next <| match s.synMoves n with
  | some fb => synArrive n fb s
  | none =>
    let x := s.synth n
    let x1 : Synth :=
      if x.rampUp then (if x.exp ≤ 1 then { x with exp := 0, rampUp := false } else { x with exp := x.exp - 1 })
      else if x.rampDown then
        (if 4 ≤ x.exp then { x with exp := 0, rampDown := false, running := false } else { x with exp := x.exp + 1 })
      else x
    synRamping n (s.setSynth n x1)

/-! Gates (17 R882 to R886) -/

/-- Gates in use (17 R883). -/
def State.bayGateUsed (s : State) (b : Nat) : Bool :=
  bit (s.get F.CKG_GATE_BAY_BAYS) b && s.domOn b && s.bayState b != bayBlank && s.bayState b != bayOffline
def State.unitGateUsed (s : State) (u : Nat) : Bool := bit (s.get F.CKG_GATE_GEODE_UNIT) u && s.domOn (76 + u)
def State.rowGateUsed (s : State) (r : Nat) : Bool :=
  bit (s.get F.CKG_GATE_TOP_ROW) r && (List.range 4).any fun c => s.bayGateUsed (r * 4 + c)
def State.slabGateUsed (s : State) (k : Nat) : Bool :=
  bit (s.get F.CKG_GATE_TOP_SLAB) k && (List.range 4).any fun r => s.rowGateUsed (k * 4 + r)

/-- A bay or unit gate is in use: what makes any gate above it be in use, if those between are on. -/
def State.slabBayUsed (s : State) (k : Nat) : Bool := (List.range 16).any fun b => s.bayGateUsed (k * 16 + b)

/-- The first gate that a write of CKG_GATE_TOP would turn off while any gate beneath it is in use (17 R884). -/
def State.topRefused (s : State) (w : Nat) : Option Nat :=
  let root := !bit w 0 && s.on F.CKG_GATE_TOP_ROOT
    && ((List.range 4).any s.slabBayUsed || (List.range 20).any s.unitGateUsed)
  let slab := (List.range 4).find? fun k => !bit w (1 + k) && bit (s.get F.CKG_GATE_TOP_SLAB) k
    && s.slabBayUsed k
  let row := (List.range 16).find? fun r => !bit w (8 + r) && bit (s.get F.CKG_GATE_TOP_ROW) r
    && (List.range 4).any fun c => s.bayGateUsed (r * 4 + c)
  if root then some 0 else (slab.map (1 + ·)).orElse fun _ => row.map (5 + ·)

/-- A write of a gate register (17 R884 to R886). Bay and unit gates have nothing beneath them. -/
def gateRegWrite (g : GateReg) (w : Nat) (s : State) : State :=
  match g with
  | .top => match s.topRefused w with
    | some k => (s.raise F.CKG_ERR_GATE_REFUSED).put F.CKG_GATE_LOG_GATE 0 k
    | none => gateSettle (s.wrCodes R.CKG_GATE_TOP 0 (BitVec.ofNat 64 w) false)
  | .geode => s.wrCodes R.CKG_GATE_GEODE 0 (BitVec.ofNat 64 w) false
  | .bay => gateSettle (s.wrCodes R.CKG_GATE_BAY 0 (BitVec.ofNat 64 w) false)

def gateRow : GateReg → Reg
  | .top => R.CKG_GATE_TOP | .geode => R.CKG_GATE_GEODE | .bay => R.CKG_GATE_BAY

/-- A write that would change CKG_GATE_TOP.ROOT, by another initiator than Saffron (17 R876). -/
def State.rootDenied (s : State) (w ini : Nat) : Bool := ini != 0x48 && bit w 0 != s.on F.CKG_GATE_TOP_ROOT

/-- A write of a gate register by an initiator: ROOT is Saffron's, and a locked register keeps its bits (14 R785). -/
def execGateWrite (g : GateReg) (w : W64) (ini : Ini) (s : State) : Out :=
  if g = .top ∧ s.rootDenied w.toNat ini = true then .next (s.answer .denied)
  else
    let (v, s1) := lockStep (gateRow g) 0 w.toNat ini s
    .next (gateRegWrite g v s1)

/-- CKG registers that are computed when read (17 R875, R877). -/
def ckgView (s : State) (r : Reg) (_i : Nat) : Option Nat :=
  if r = R.CKG_GDOM then
    let fl := fun (n : Nat) => !(s.synState n == synPrimary || s.synState n == synFallback)
    let rp := fun (n : Nat) => (s.synth n).rampUp || (s.synth n).rampDown
    some (ofFlag (fl 48) + 2 * ofFlag (fl 49) + 4 * ofFlag (rp 48 || rp 49))
  else none

/-- CKG registers whose write is more than its access codes (17 R872, R884). -/
def ckgWrite (s : State) (r : Reg) (i w : Nat) : Option State :=
  if r = R.CKG_SYN_CTRL then some (synCtrlWrite i w s)
  else if r = R.CKG_SYN_FB ∨ r = R.CKG_SYN_DIV then
    some (if s.on F.CKG_SYN_CTRL_EN i ∧ (s.rd r i).toNat ≠ bits w 0 (if r = R.CKG_SYN_FB then 18 else 32)
      then s.raise F.CKG_SYN_EVT_CFG_REFUSED i else s.wrCodes r i (BitVec.ofNat 64 w) false)
  else if r = R.CKG_GATE_TOP then some (gateRegWrite .top w s)
  else if r = R.CKG_GATE_GEODE then some (gateRegWrite .geode w s)
  else if r = R.CKG_GATE_BAY then some (gateRegWrite .bay w s)
  else none

end Sys2Proof.Machine
end

