-- ==== Sys2Proof/Machine/Service.lean ====
section
/-! DEFINITION. Service pins, their peripherals and the event controller (18). -/

namespace Sys2Proof.Machine

def State.setSvc (s : State) (g : Svc → Svc) : State := { s with svc := g s.svc }
def State.setEvc (s : State) (g : Evc → Evc) : State := { s with evc := g s.evc }
def State.uart (s : State) (u : Nat) : Uart := s.svc.uarts.get {} u

/-! Signals and pins (18 R912 to R919) -/

def svpNone : Nat := 0
def svpGpio : Nat := 1
def svpUart : Nat := 2
def svpSpi : Nat := 3
def svpI2c : Nat := 4
def svpTimer : Nat := 5
def svpClkout : Nat := 6
def svpFexp : Nat := 7
def svpCmp : Nat := 8
def svpFanPwm : Nat := 9
def svpFanTach : Nat := 10
def svpPwroff : Nat := 11
def svpEvtout : Nat := 12
def svpXtrig : Nat := 13
def svpXout : Nat := 14

/-- Pin `p` carries signal `i` of class `cls` (18 R913). -/
def State.carries (s : State) (p cls i : Nat) : Bool :=
  s.get F.SVP_PIN_CTRL_FUNC p == cls
    && (s.get F.SVP_PIN_CTRL_SIG_A p == i || (s.on F.SVP_PIN_CTRL_SIG_B_EN p && s.get F.SVP_PIN_CTRL_SIG_B p == i))

/-- The pin whose level an input signal takes: the lowest of those assigned (18 R914). -/
def State.sigPin (s : State) (cls i : Nat) : Option Nat := (List.range 64).find? fun p => s.carries p cls i

/-- The level of an input signal; unassigned it has its idle value: 1 for UART RX, SCL and SDA (18 R914). -/
def State.sigIn (s : State) (cls i : Nat) : Bool :=
  match s.sigPin cls i with
  | some p => s.svc.high.contains p
  | none => (cls == svpUart && i % 2 == 1) || cls == svpI2c

/-- A FEXP input as bay `b` sees it: 0 while fenced (18 R916). -/
def State.fexpIn (s : State) (b : Nat) : Bool := !s.fenced b && s.sigIn svpFexp b

/-- Bit n of PEND. -/
def State.evcPend (s : State) (n : Nat) : Bool := bit (s.get F.EVC_PEND_PEND (n / 32)) (n % 32)
def State.setPend (s : State) (n : Nat) (b : Bool) : State := s.putBit F.EVC_PEND_PEND (n / 32) (n % 32) b

/-- Event line `k` (18 R936). -/
def State.evtLine (s : State) (k : Nat) : Bool :=
  let n := s.get F.EVC_EVTOUT_SRC k
  s.on F.EVC_EVTOUT_EN k && (s.evcPend n || (s.evc.claimed.find n).isSome)

/-- The export line of bay `b`, output and enable, as it leaves the fence (18 R916). -/
def State.fexpOut (s : State) (b : Nat) : Bool × Bool :=
  let (outs, oe) := s.fabric.ports.get ([], false) (b, exportPort)
  (outs.headD false, oe)

/-- Output and output enable of a signal. A waveform in time (UART TX and SPI while they send, timers, fan PWM, clock
outputs) drives a free value. -/
def State.sigOut (s : State) (cls i : Nat) : Bool × Bool :=
  let wave := Config.freeNat s.free % 2 == 1
  if cls = svpGpio then (bit (s.get F.SVP_GPIO_OUT_OUT) i, bit (s.get F.SVP_GPIO_OE_OE) i)
  else if cls = svpUart then
    if i < 8 ∧ i % 2 = 0 then (if (s.uart (i / 2)).tx.isEmpty then true else wave, true) else (false, false)
  else if cls = svpSpi then
    if 16 ≤ i then (false, false)
    else if i % 8 = 0 then (if s.on F.SVP_SPI_STATUS_BUSY (i / 8) then wave else bit (s.get F.SVP_SPI_CTRL_MODE (i / 8)) 1, true)
    else if i % 8 = 1 then (wave, true)
    else if 3 ≤ i % 8 ∧ i % 8 ≤ 6 then (!bit (s.get F.SVP_SPI_CTRL_CS (i / 8)) (i % 8 - 3), true)
    else (false, false)
  else if cls = svpI2c then
    if 8 ≤ i then (false, false)
    else if s.on F.SVP_I2C_STATUS_BUSY (i / 2) then (false, wave)
    else (false, s.svc.i2cOpen.contains (i / 2) && i % 2 == 0)
  else if cls = svpTimer then
    if i < 8 ∧ s.get F.SVP_TMR_CTRL_MODE i = 1 then (s.get F.SVP_TMR_CMP_TICKS i != 0 && wave, true) else (false, false)
  else if cls = svpClkout then (wave, i < 12)
  else if cls = svpFexp then (if i < 64 then s.fexpOut i else (false, false))
  else if cls = svpCmp then (i < 8 && s.on F.PWR_CMP_STATUS_OUT i, i < 8)
  else if cls = svpFanPwm then
    let d := s.get F.SVP_FAN_PWM_DUTY i
    (if d = 0 then false else if d = 0xFF then true else wave, i < 4)
  else if cls = svpPwroff then (i == 0 && s.power.powerOff, i == 0)
  else if cls = svpEvtout then (i < 8 && s.evtLine i, i < 8)
  else if cls = svpXtrig then (i < 16 && s.svc.xtrig.contains i, i < 16 && s.on F.DBG_XT_CH_PIN_OUT i)
  else if cls = svpXout then ((i == 0 && s.svc.xout.1) || (i == 1 && s.svc.xout.2), i < 2)
  else (false, false)

/-- What the pin's function drives: the OR of its signals (18 R913). -/
def State.pinFunction (s : State) (p : Nat) : Bool × Bool :=
  let cls := s.get F.SVP_PIN_CTRL_FUNC p
  let a := s.sigOut cls (s.get F.SVP_PIN_CTRL_SIG_A p)
  let b := if s.on F.SVP_PIN_CTRL_SIG_B_EN p then s.sigOut cls (s.get F.SVP_PIN_CTRL_SIG_B p) else (false, false)
  (a.1 || b.1, a.2 || b.2)

/-- What pin `p` drives, output and enable: under the pad hold latch and in a switch window what it drove last. -/
def State.pinDrive (s : State) (p : Nat) : Bool × Bool :=
  ((s.svc.latch.find p).orElse fun _ => s.svc.window.find p).getD (s.pinFunction p)

/-- The pad hold latches of the service pins close on what the pins drive (04 R207). -/
def svcLatch (s : State) : State :=
  (s.setSvc fun v => { v with latch := (List.range 64).map fun p => (p, s.pinDrive p) }).fresh

/-! Interrupts of pins (18 R924 to R927) -/

/-- IRQ follows the level in modes 4 and 5, outside a switch window. -/
def pinSettle (p : Nat) (s : State) : State :=
  let m := s.get F.SVP_PIN_CTRL_IRQ_MODE p
  let h := s.svc.high.contains p
  s.when (!s.on F.SVP_PIN_STATUS_SWITCHING p && ((m == 4 && h) || (m == 5 && !h))) (·.raise F.SVP_PIN_STATUS_IRQ p)

/-- An edge on a pin sets IRQ as its mode says. -/
def pinEdge (p : Nat) (up : Bool) (s : State) : State :=
  let m := s.get F.SVP_PIN_CTRL_IRQ_MODE p
  s.when (!s.on F.SVP_PIN_STATUS_SWITCHING p && (m == 3 || (m == 1 && up) || (m == 2 && !up)))
    (·.raise F.SVP_PIN_STATUS_IRQ p)

/-- A pin's synchronised level changes; an edge on a timer line in capture mode stores its count. -/
def pinLevel (p : Nat) (high : Bool) (s : State) : State :=
  if s.svc.high.contains p = high then s
  else
    let s1 := (s.setSvc fun v => { v with high := if high then v.high ++ [p] else v.high.filter (· != p) }).flag
      F.SVP_PIN_STATUS_IN p high
    let s2 := pinSettle p (pinEdge p high s1)
    s2.each (List.range 8) fun t k =>
      if high ∧ t.get F.SVP_TMR_CTRL_MODE k = 2 ∧ t.sigPin svpTimer k = some p then
        (t.put F.SVP_TMR_VAL_COUNT k (Config.freeNat t.free)).fresh
      else t

/-! Switching a function (18 R920 to R923) -/

/-- A write of SVP_PIN_CTRL. -/
def pinCtrlWrite (p w : Nat) (s : State) : State :=
  let sw := bits w 0 19 != bits (s.rd R.SVP_PIN_CTRL p).toNat 0 19
  let s1 := s.when sw fun t =>
    let held := (t.svc.window.find p).getD (t.pinFunction p)
    ((t.setSvc fun v => { v with window := v.window.set p held }).raise F.SVP_PIN_STATUS_SWITCHING p).fresh
  pinSettle p (s1.wrCodes R.SVP_PIN_CTRL p (BitVec.ofNat 64 w) false)

/-- The switch window of a pin ends. -/
def pinWindowEnd (p : Nat) (s : State) : State :=
  if s.on F.SVP_PIN_STATUS_SWITCHING p then
    pinSettle p ((s.setSvc fun v => { v with window := v.window.erase p }).clear F.SVP_PIN_STATUS_SWITCHING p)
  else s

/-! UARTs, SPI and I2C controllers, timers (18 R938) -/

def State.setUart (s : State) (u : Nat) (x : Uart) : State :=
  let s1 := s.setSvc fun v => { v with uarts := v.uarts.set u x }
  (s1.put F.SVP_UART_STATUS_RX_COUNT u x.rx.length).flag F.SVP_UART_STATUS_TX_FULL u (16 ≤ x.tx.length)

def uartDataPut (u w : Nat) (s : State) : State :=
  let x := s.uart u
  if 16 ≤ x.tx.length then s else s.setUart u { x with tx := x.tx ++ [BitVec.ofNat 8 w] }

def execUartDataWrite (u : Fin 4) (w : W32) (s : State) : Out := .next (uartDataPut u w.toNat s)

/-- A read of SVP_UART_DATA: the head byte, or EMPTY with a free byte. -/
def uartDataGet (u : Nat) (quiet : Bool) (s : State) : Nat × State :=
  match (s.uart u).rx with
  | [] => (0x100 + Config.freeNat s.free % 256, s.fresh)
  | b :: t => (b.toNat, if quiet then s else s.setUart u { s.uart u with rx := t })

def execUartDataRead (u : Fin 4) (quiet : Bool) (s : State) : Out :=
  let (v, s1) := uartDataGet u quiet s
  .next (s1.okay v)

/-- A byte arrives; a UART that is off, or that no pin's RX reaches, receives nothing. -/
def execUartByteReceived (u : Fin 4) (byte : Byte) (s : State) : Out :=
  .next <|
    let x := s.uart u
    if !s.on F.SVP_UART_CTRL_EN u || (s.sigPin svpUart (u * 2 + 1)).isNone then s
    else if 16 ≤ x.rx.length then s.raise F.SVP_UART_STATUS_OVERRUN u
    else s.setUart u { x with rx := x.rx ++ [byte] }

def execUartByteSent (u : Fin 4) (s : State) : Out :=
  .next (if s.on F.SVP_UART_CTRL_EN u then s.setUart u { s.uart u with tx := (s.uart u).tx.tail } else s)

/-- A shift starts; a write during one is ignored. -/
def spiDataPut (c w : Nat) (s : State) : State :=
  if s.on F.SVP_SPI_STATUS_BUSY c then s
  else (s.put F.SVP_SPI_DATA_BYTE c w).raise F.SVP_SPI_STATUS_BUSY c

def execSpiDataWrite (c : Fin 2) (w : W32) (s : State) : Out := .next (spiDataPut c w.toNat s)

/-- The shift ends with the byte that came in on MISO; with MISO on no pin that is 0. -/
def execSpiShiftDone (c : Fin 2) (byte : Byte) (s : State) : Out :=
  .next <|
    if !s.on F.SVP_SPI_STATUS_BUSY c then s
    else
      let b := if (s.sigPin svpSpi (c * 8 + 2)).isNone then 0 else byte.toNat
      (s.put F.SVP_SPI_DATA_BYTE c b).clear F.SVP_SPI_STATUS_BUSY c

def i2cStartOp : Nat := 1
def i2cStopOp : Nat := 2
def i2cWriteOp : Nat := 3
def i2cReadAckOp : Nat := 4
def i2cReadNackOp : Nat := 5

/-- A write of SVP_I2C_CMD: OP names the operation; other codes start none, and a write during one is ignored. -/
def i2cGo (c op byte : Nat) (s : State) : State :=
  if s.on F.SVP_I2C_STATUS_BUSY c then s
  else
    let s1 := s.put F.SVP_I2C_CMD_BYTE c byte
    if 1 ≤ op ∧ op ≤ 5 then (s1.put F.SVP_I2C_CMD_OP c op).raise F.SVP_I2C_STATUS_BUSY c else s1

def execI2cStart (c : Fin 4) (s : State) : Out := .next (i2cGo c i2cStartOp (s.get F.SVP_I2C_CMD_BYTE c) s)
def execI2cStop (c : Fin 4) (s : State) : Out := .next (i2cGo c i2cStopOp (s.get F.SVP_I2C_CMD_BYTE c) s)
def execI2cWrite (c : Fin 4) (byte : Byte) (s : State) : Out := .next (i2cGo c i2cWriteOp byte.toNat s)
def execI2cReadAck (c : Fin 4) (s : State) : Out := .next (i2cGo c i2cReadAckOp (s.get F.SVP_I2C_CMD_BYTE c) s)
def execI2cReadNack (c : Fin 4) (s : State) : Out := .next (i2cGo c i2cReadNackOp (s.get F.SVP_I2C_CMD_BYTE c) s)

/-- The operation ends. With SDA on no pin the line reads 1: no acknowledge, all ones, no lost arbitration (18 R914). -/
def i2cEnd (c : Nat) (e : I2cEnd) (s : State) : State :=
  let op := s.get F.SVP_I2C_CMD_OP c
  let wired := (s.sigPin svpI2c (c * 2 + 1)).isSome
  let s1 := (s.clear F.SVP_I2C_STATUS_BUSY c).clear F.SVP_I2C_CMD_OP c
  let close := fun (v : Svc) => { v with i2cOpen := v.i2cOpen.filter (· != c) }
  if e.arbLost && wired then (s1.setSvc close).raise F.SVP_I2C_STATUS_ARB_LOST c
  else if op = i2cStartOp then s1.setSvc fun v => { v with i2cOpen := v.i2cOpen.filter (· != c) ++ [c] }
  else if op = i2cStopOp then s1.setSvc close
  else if op = i2cWriteOp then s1.when (!(e.ack && wired)) (·.raise F.SVP_I2C_STATUS_NACK c)
  else s1.put F.SVP_I2C_CMD_BYTE c (if wired then e.byte.toNat else 0xFF)

def execI2cOperationDone (c : Fin 4) (e : I2cEnd) (s : State) : Out :=
  .next (if s.on F.SVP_I2C_STATUS_BUSY c then i2cEnd c e s else s)

/-- A PWM timer wraps to 0. -/
def timerWrap (t : Nat) (s : State) : State :=
  if s.get F.SVP_TMR_CTRL_MODE t = 1 then s.clear F.SVP_TMR_VAL_COUNT t else s

/-- SVP registers that are computed when read. -/
def svpView (s : State) (r : Reg) (_i : Nat) : Option Nat :=
  if r = R.SVP_GPIO_IN then some (packBits ((List.range 64).map fun i => s.sigIn svpGpio i))
  else none

/-- A write of SVP_PIN_STATUS: IRQ stays while its level holds (18 R926). -/
def pinStatusWrite (p w : Nat) (s : State) : State :=
  pinSettle p (s.wrCodes R.SVP_PIN_STATUS p (BitVec.ofNat 64 w) false)

/-- SVP registers whose write is more than its access codes. -/
def svpWrite (s : State) (r : Reg) (i w : Nat) : Option State :=
  if r = R.SVP_PIN_CTRL then some (pinCtrlWrite i w s)
  else if r = R.SVP_PIN_STATUS then some (pinStatusWrite i w s)
  else if r = R.SVP_UART_DATA then some (uartDataPut i w s)
  else if r = R.SVP_SPI_DATA then some (spiDataPut i w s)
  else if r = R.SVP_I2C_CMD then some (i2cGo i (bits w 8 3) (bits w 0 8) s)
  else none

/-! The event controller (18 R928 to R937) -/

/-- Some bit of an error or event register is set while its enable is (for instance 02 R92); `mask` selects the bits. -/
def State.errOn (s : State) (e en : Reg) (i : Nat := 0) (mask : W64 := BitVec.allOnes 64) : Bool :=
  (s.rd e i &&& s.rd en i &&& mask) != 0

/-- The masks of error bits by the event source they fire, for units with several sources. -/
def vrdSrcMask (k : Nat) : W64 := [0x00F, 0x010, 0x060, 0x180].getD k 0
def ldgSrcMask (k : Nat) : W64 := [0x00001, 0x00006, 0x00078, 0x00180, 0x00E00, 0x01000, 0x06000, 0x18000].getD k 0
def ktpSrcMask (k : Nat) : W64 := [0x0003, 0x003C, 0x00C0, 0x1F00].getD k 0

/-- The level of an event source that its unit's registers give (01 R48); the others' levels are stored. -/
def State.srcDerived (s : State) (n : Nat) : Option Bool :=
  if n < 256 then
    let b := n / 4
    if n % 4 = 2 then some (s.domOn b && s.slices.any fun e => e.1.1 == b && e.2.run == .trapped)
    else if n % 4 = 3 then some (s.errOn R.FEN_BAY_EVT R.FEN_BAY_EVT_EN b)
    else none
  else if n < 304 then
    let q := n - 256
    some ((List.range 4).any (fun k => s.errOn R.LNE_LANE_ERR R.LNE_LANE_ERR_EN (4 * q + k))
      || s.errOn R.LNE_QUAD_ERR R.LNE_QUAD_ERR_EN q)
  else if n < 336 then
    let k := (n - 304) / 8
    match (n - 304) % 8 with
    | 0 => some (s.errOn R.SCB_ERR R.SCB_ERR_EN k 3)
    | 1 => some (s.errOn R.SCB_ERR R.SCB_ERR_EN k 12)
    | 2 => some (s.errOn R.PGR_ICP_EVT R.PGR_ICP_EVT_EN k)
    | 3 => some ((List.range 12).any fun j => s.errOn R.CKG_SYN_EVT R.CKG_SYN_EVT_EN (12 * k + j))
    | 5 => some (!s.railUp k)
    | _ => none
  else if n < 400 then some (s.on F.SVP_PIN_STATUS_IRQ (n - 336) && s.on F.SVP_PIN_CTRL_IRQ_EN (n - 336))
  else if n < 408 then
    some (s.get F.WDG_CORE_STATUS_STATE (n - 400) == 3 || s.on F.WDG_STATUS_STAGE1 (n - 400))
  else if n = 408 then
    some ((List.range 8).any fun k => s.on F.KEY_REQ_STATUS_DONE k && s.on F.KEY_REQ_CTRL_IRQ k)
  else if n = 409 then some (s.errOn R.TMG_ERR R.TMG_ERR_EN)
  else if n = 410 then
    some (s.errOn R.CKG_ERR R.CKG_ERR_EN
      || (List.range 6).any fun j => s.errOn R.CKG_SYN_EVT R.CKG_SYN_EVT_EN (48 + j))
  else if n = 411 then some (s.errOn R.PWR_ERR R.PWR_ERR_EN)
  else if n < 416 then some (s.errOn R.VRD_ERR R.VRD_ERR_EN 0 (vrdSrcMask (n - 412)))
  else if n < 424 then some (s.errOn R.LDG_ERR R.LDG_ERR_EN 0 (ldgSrcMask (n - 416)))
  else if n < 428 then some (s.errOn R.DMC_ERR R.DMC_ERR_EN (n - 424))
  else if n = 428 then some (s.errOn R.MEE_ERR R.MEE_ERR_EN)
  else if n < 431 then some (s.errOn R.ETH_ERR R.ETH_ERR_EN (n - 429))
  else if n < 435 then some (s.errOn R.KTP_ERR R.KTP_ERR_EN 0 (ktpSrcMask (n - 431)))
  else if n = 435 then some (s.errOn R.SPD_ERR R.SPD_ERR_EN)
  else if n < 468 then some ((s.on F.DMA_STATUS_DONE (n - 436) || s.on F.DMA_STATUS_HALTED (n - 436)) && s.on F.DMA_CTRL_IRQ (n - 436))
  else if n = 468 then some (s.errOn R.NOC_ERR R.NOC_ERR_EN)
  else if n = 469 then some (s.errOn R.QTZ_ERR R.QTZ_ERR_EN)
  else if n = 470 then some (s.errOn R.CFG_ERR R.CFG_ERR_EN)
  else if n = 471 then some (s.errOn R.PGR_ERR R.PGR_ERR_EN)
  else if n = 472 then some (s.errOn R.DBG_ERR R.DBG_ERR_EN)
  else if n = 473 then some (s.errOn R.KEY_ERR R.KEY_ERR_EN)
  else if n < 482 then some (s.on F.PWR_CMP_STATUS_OUT (n - 474))
  else if n < 490 then some (bit (s.get F.EVC_SOFT_SET) (n - 482))
  else some false

/-- An event source is asserted (18 R928); the user events of a fenced bay read 0 (01 R49). -/
def State.srcAsserted (s : State) (n : Nat) : Bool :=
  match s.srcDerived n with
  | some b => b
  | none => s.evc.levels.contains n && !(n < 256 && s.fenced (n / 4))

/-- Source `n` counts for target `t` (18 R930). -/
def State.evcCounts (s : State) (t n : Nat) : Bool :=
  bit (s.get F.EVC_SRC_TARGET n) t && s.evcPend n && (s.evc.claimed.find n).isNone
    && s.get F.EVC_THR_THR t < s.get F.EVC_SRC_PRI n

/-- The source that a claim of target `t` takes: highest PRI, then lowest number (18 R931). -/
@[irreducible] def State.evcBest (s : State) (t : Nat) : Option Nat :=
  (List.range 512).foldl (fun b n =>
    if !s.evcCounts t n then b
    else match b with
      | none => some n
      | some m => if s.get F.EVC_SRC_PRI m < s.get F.EVC_SRC_PRI n then some n else b) none

/-- The EXT input of target `t` (18 R930). -/
def State.extIrq (s : State) (t : Nat) : Bool := (s.evcBest t).isSome

/-- A record for the host (18 R934); a full queue discards and counts it. -/
def evcHost (n : Nat) (s : State) : State :=
  if 256 ≤ s.evc.host.length then s.bumpHold F.EVC_HOST_DROPS_COUNT
  else s.setEvc fun e => { e with host := e.host ++ [(n, s.cn)] }

/-- A source rises (18 R928, R929, R933, R934): whether its event reached a core is told as well. -/
def evcRise (n : Nat) (stays : Bool) (s : State) : State × Bool :=
  if 490 ≤ n then (s, false)
  else if (s.srcDerived n) = some false then (s, false)
  else if n < 256 ∧ n % 4 < 2 ∧ s.fenced (n / 4) = true then (s, false)
  else
    let s1 := if (s.srcDerived n).isSome then s else
      s.setEvc fun e => { e with levels := if stays then e.levels.filter (· != n) ++ [n] else e.levels.filter (· != n) }
    if !s1.on F.EVC_SRC_EN n then (s1, false)
    else
      let t := s1.get F.EVC_SRC_TARGET n
      let s2 := s1.when (t != 0) (·.setPend n true)
      (s2.when (s1.on F.EVC_SRC_HOST n) (evcHost n), t % 256 != 0)

/-- A read of EVC_CLAIM (18 R931). -/
def evcClaim (t : Nat) (quiet : Bool) (s : State) : Nat × State :=
  match s.evcBest t with
  | none => (0x8000, s)
  | some n => (n, if quiet then s
      else (s.setPend n false).setEvc fun e => { e with claimed := e.claimed.set n t })

def execEvcClaim (t : CoreId) (quiet : Bool) (s : State) : Out :=
  let (v, s1) := evcClaim t quiet s
  .next (s1.okay v)

/-- A write of EVC_COMPLETE (18 R932, R929): a source that is still asserted is pending again. -/
def evcComplete (t w : Nat) (s : State) : State :=
  let n := w % 512
  if s.evc.claimed.find n = some t then
    let s1 := s.setEvc fun e => { e with claimed := e.claimed.erase n }
    s1.when (s1.srcAsserted n && s1.on F.EVC_SRC_EN n && s1.get F.EVC_SRC_TARGET n != 0) (·.setPend n true)
  else s

def execEvcComplete (t : CoreId) (w : W32) (s : State) : Out := .next (evcComplete t w.toNat s)

/-- A warm reset in the event controller (18 R937). -/
def evcWarmReset (s : State) : State :=
  let s1 := s.setEvc fun e => { e with claimed := [] }
  let s2 := s1.each (List.range 16) fun t w => t.clear F.EVC_PEND_PEND w
  let s3 := s2.each (List.range 9) fun t k => t.clear F.EVC_THR_THR k
  s3.each (List.range 490) fun t n =>
    if t.on F.EVC_SRC_EN n && t.get F.EVC_SRC_TARGET n != 0 && t.srcAsserted n then t.setPend n true else t

/-- EVC registers that are computed when read. -/
def evcView (s : State) (r : Reg) (i : Nat) : Option Nat :=
  if r = R.EVC_STATUS then some s.evc.host.length
  else if r = R.EVC_SRC then
    some (bits (s.rd R.EVC_SRC i).toNat 0 14 + 2 ^ 16 * ofFlag (s.srcAsserted i) + 2 ^ 17 * ofFlag (s.evcPend i)
      + 2 ^ 18 * ofFlag (s.evc.claimed.find i).isSome)
  else none

/-- A write of EVC_SRC: TARGET bit 8 takes only Saffron's word (18 R939). -/
def evcSrcWrite (n w ini : Nat) (s : State) : State :=
  let old := (s.rd R.EVC_SRC n).toNat
  let w' := if ini = 0x48 then w else w - 2 ^ 12 * ofFlag (bit w 12) + 2 ^ 12 * ofFlag (bit old 12)
  s.wrCodes R.EVC_SRC n (BitVec.ofNat 64 w') false

end Sys2Proof.Machine
end

