-- ==== Sys2Proof/Machine/Cores.lean ====
section
/-! DEFINITION. The nine cores: registers, privilege, traps, control registers, run control, watchdog counts, halting, cross
triggers and the data cache's lines (14 R729 to R768, R788 to R792, 19 R960 to R965). -/

namespace Sys2Proof.Machine

/-! Core state -/

/-- A core as reset leaves it: Saffron at W, at address 0 of the boot ROM (14 R753, R765). -/
def Core.fresh (n : Nat) : Core := if n = 8 then { priv := .w } else {}

def State.core (s : State) (n : Nat) : Core := s.cores.get (Core.fresh n) n
def State.setCore (s : State) (n : Nat) (c : Core) : State := { s with cores := s.cores.set n c }
def State.modCore (s : State) (n : Nat) (g : Core → Core) : State := s.setCore n (g (s.core n))

/-- A general register; g0 reads 0 (14 R729). -/
def Core.reg (c : Core) (r : Nat) : W64 := if r = 0 then 0 else c.g.toList.getD r 0

/-- Writes a general register; a write to g0 is discarded (14 R729). -/
def Core.setReg (c : Core) (r : Nat) (v : W64) : Core :=
  if r = 0 then c else { c with g := c.g.setIfInBounds r v }

def State.greg (s : State) (n r : Nat) : W64 := (s.core n).reg r
def State.setGreg (s : State) (n r : Nat) (v : W64) : State := s.modCore n (·.setReg r v)

/-- The code of a privilege, in STATUS.PRIV and in Sand's PRIV (14 R731, R753). -/
def Priv.code : Priv → Nat
  | .u => 0 | .s => 1 | .w => 2

/-- The initiator identity of core `n` (08 R384). -/
def coreIni (n : Nat) : Nat := 0x40 + n

/-- The privilege that traps enter. -/
def topPriv (n : Nat) : Priv := if n = 8 then .w else .s

def State.coreU (s : State) (n : Nat) : Bool := (s.core n).priv == .u

/-- The core's run bit: Saffron always runs (14 R765, R766). -/
def State.coreRuns (s : State) (n : Nat) : Bool := n == 8 || s.on F.WDG_CORE_CTRL_RUN n

def State.coreHalted (s : State) (n : Nat) : Bool := s.on F.DBG_CORE_STATUS_HALTED n

/-- Clock and power reach the core. -/
def State.corePowered (s : State) (n : Nat) : Bool := if n = 8 then !s.power.asleep else s.unitClocked n

/-- WDG_CORE_STATUS.STATE of a Clove core follows (14 R793). -/
def coreSettle (n : Nat) (s : State) : State :=
  if 8 ≤ n then s
  else s.put F.WDG_CORE_STATUS_STATE n
    (if !s.coreRuns n then 0 else if s.coreHalted n then 2 else if (s.core n).lockup then 3 else 1)

/-- The core's exclusive reservation ends (14 R751). -/
def dropResv (n : Nat) (s : State) : State := { s with resv := s.resv.erase n }
def State.holdsResv (s : State) (n : Nat) : Bool := (s.resv.find n).isSome

/-! Interrupts (14 R753, R762, R763) -/

/-- IP: EXT from the event controller, WDG while the watchdog's STAGE1 is set, REQ of Saffron while a mailbox waits. -/
def State.coreIp (s : State) (n : Nat) : Nat :=
  packBits [s.extIrq n, s.on F.WDG_STATUS_STAGE1 n,
    n == 8 && (List.range 8).any fun k => s.on F.KEY_REQ_STATUS_BUSY k]

/-- The pending enabled interrupt of lowest CODE: 1 EXT, 2 WDG, 3 REQ. -/
def State.irqCode (s : State) (n : Nat) : Option Nat :=
  let p := s.coreIp n
  let e := (s.core n).ien.toNat
  ([1, 2, 3].find? fun k => bit p (k - 1) && bit e (k - 1))

/-! Traps (14 R754, R755) -/

/-- Trap causes. -/
def trapIllegal : Nat := 1
def trapPrivilege : Nat := 2
def trapMisFetch : Nat := 3
def trapMisData : Nat := 4
def trapAccess : Nat := 5
def trapFetchPoison : Nat := 6
def trapFetchErr : Nat := 7
def trapLoadPoison : Nat := 8
def trapLoadErr : Nat := 9
def trapStoreErr : Nat := 10
def trapEcall : Nat := 11
def trapBreak : Nat := 12
def trapExcl : Nat := 13

/-- Takes a trap or an interrupt: `cause` as TCAUSE holds it, `tpc` the PC saved, `tval` (14 R755). -/
def trapTo (n : Nat) (cause tpc tval : W64) (s : State) : State :=
  dropResv n <| s.modCore n fun c => { c with
    tpc := tpc, tcause := cause, tval := tval, ppriv := BitVec.ofNat 2 c.priv.code, pie := c.ie, ie := false,
    priv := topPriv n, pc := c.tvec, atTvec := true, wfi := false }

/-- A precise trap at the instruction at PC. -/
def trap (n code : Nat) (tval : W64) (s : State) : State := trapTo n (BitVec.ofNat 64 code) (s.core n).pc tval s

/-- A precise trap that carries a Sand response. -/
def trapResp (n code : Nat) (r : Resp) (tval : W64) (s : State) : State :=
  trapTo n (BitVec.ofNat 64 (code + 256 * r.code)) (s.core n).pc tval s

/-- An interrupt (14 R762): TPC is the next instruction. -/
def trapIrq (n code : Nat) (s : State) : State :=
  trapTo n (BitVec.ofNat 64 (code + 2 ^ 63)) (s.core n).pc 0 s

/-- A return from a trap (14 R761). Saffron runs only at W (R730). -/
def trapReturn (n : Nat) (s : State) : State :=
  dropResv n <| s.modCore n fun c => { c with
    pc := c.tpc, ie := c.pie, priv := if n = 8 then .w else if c.ppriv = 0 then .u else .s
    ppriv := if n = 8 then c.ppriv else 0 }

/-! Checks of an address (14 R732, R733) -/

/-- One enabled user window covers the bytes with a permission: bit 0 R, 1 W, 2 X (14 R733). -/
def Core.window (c : Core) (a n perm : Nat) : Bool :=
  (List.range 8).any fun k =>
    let l := (c.uxl.toList.getD k 0).toNat
    bit l 3 && bit l perm && bits (c.uxb.toList.getD k 0).toNat 12 36 ≤ a / 4096
      && (a + n - 1) / 4096 ≤ bits l 12 36

/-- An access or fetch that takes an ACCESS trap. -/
def Core.refuses (c : Core) (a n perm : Nat) : Bool :=
  2 ^ 48 ≤ a || (c.priv == .u && !c.window a n perm)

/-! Control registers (14 R753) -/

def Core.status (c : Core) : W64 :=
  BitVec.ofNat 64 (c.priv.code + 4 * ofFlag c.ie + 8 * ofFlag c.pie + 16 * c.ppriv.toNat)

/-- The control register exists. -/
def csrListed (num : Nat) : Bool :=
  num < 8 || (0x10 ≤ num && num < 0x20) || num == 0x20 || num == 0x21 || num == 0x22 || num == 0x30 || num == 0x31

/-- The value of a control register; CYCLE counts core clocks, a free value. -/
def csrGet (n num : Nat) (s : State) : W64 :=
  let c := s.core n
  if num = 0 then c.status
  else if num = 1 then c.tvec
  else if num = 2 then c.tpc
  else if num = 3 then c.tcause
  else if num = 4 then c.tval
  else if num = 5 then c.tscratch
  else if num = 6 then c.ien.setWidth 64
  else if num = 7 then BitVec.ofNat 64 (s.coreIp n)
  else if num = 0x20 then BitVec.ofNat 64 n
  else if num = 0x21 then Config.freeWord s.free
  else if num = 0x22 then c.retired
  else if num = 0x31 then BitVec.ofNat 64 (c.corrected + 65536 * c.transient)
  else if n = 8 then 0
  else if num = 0x30 then c.cacheCtrl.setWidth 64
  else if num % 2 = 0 then c.uxb.toList.getD ((num - 0x10) / 2) 0
  else c.uxl.toList.getD ((num - 0x10) / 2) 0

/-- What a read leaves: ERRCNT is cleared, a free value was drawn for CYCLE. -/
def csrTaken (n num : Nat) (s : State) : State :=
  if num = 0x31 then s.modCore n fun c => { c with corrected := 0, transient := 0 }
  else if num = 0x21 then s.fresh
  else s

/-- PPRIV as stored: 2 is stored as 1 on a Clove core, and the code 3, which names no privilege, as well. -/
def ppStored (n v : Nat) : Nat := if n ≠ 8 ∧ 2 ≤ v then 1 else v

/-- Writes a control register's writable fields. -/
def csrPut (n num : Nat) (v : W64) (s : State) : State :=
  let w := v.toNat
  s.modCore n fun c =>
    if num = 0 then { c with ie := bit w 2, pie := bit w 3, ppriv := BitVec.ofNat 2 (ppStored n (bits w 4 2)) }
    else if num = 1 then { c with tvec := v &&& 0x0000FFFFFFFFFF00 }
    else if num = 2 then { c with tpc := v }
    else if num = 3 then { c with tcause := v &&& 0x8000000000000F3F }
    else if num = 4 then { c with tval := v }
    else if num = 5 then { c with tscratch := v }
    else if num = 6 then { c with ien := v.setWidth 3 }
    else if n = 8 then c
    else if num = 0x30 then { c with cacheCtrl := v.setWidth 2 }
    else if 0x10 ≤ num ∧ num < 0x20 then
      if num % 2 = 0 then { c with uxb := c.uxb.setIfInBounds ((num - 0x10) / 2) (v &&& 0x0000FFFFFFFFF000) }
      else { c with uxl := c.uxl.setIfInBounds ((num - 0x10) / 2) (v &&& 0x0000FFFFFFFFF00F) }
    else c

def bump16 (v : Nat) : Nat := min (v + 1) 0xFFFF
def noteCorrected (n : Nat) (s : State) : State := s.modCore n fun c => { c with corrected := bump16 c.corrected }
def noteTransient (n : Nat) (s : State) : State := s.modCore n fun c => { c with transient := bump16 c.transient }

/-! Watchdog counts (14 R788 to R792) -/

def State.wdgLoad (s : State) (w : Nat) : Nat := max 1 (s.get F.WDG_LOAD_TICKS w)

/-- The debug port holds the count (14 R792). -/
def State.wdgFrozen (s : State) (w : Nat) : Bool := s.on F.WDG_CTRL_FREEZE w && s.coreHalted w && !(s.core w).stepping

/-- The count falls with time. -/
def State.wdgCounts (s : State) (w : Nat) : Bool :=
  s.on F.WDG_CTRL_EN w && s.coreRuns w && !s.wdgFrozen w && s.get F.WDG_COUNT_COUNT w != 0

/-- Fixes the value of a count that has been falling: some value from 1 to the last one known. -/
def wdgSample (w : Nat) (s : State) : State :=
  if s.wdgCounts w then
    (s.put F.WDG_COUNT_COUNT w (1 + Config.freeNat s.free % s.get F.WDG_COUNT_COUNT w)).fresh
  else s

/-- The count after a halt ends: the held value, or 1,024 when that is less (14 R792). -/
def wdgRelease (w : Nat) (s : State) : State :=
  if s.on F.WDG_CTRL_FREEZE w ∧ s.get F.WDG_COUNT_COUNT w ≠ 0 then
    s.put F.WDG_COUNT_COUNT w (max 1024 (s.get F.WDG_COUNT_COUNT w))
  else s

/-! Halting, freeze and cross triggers (19 R960 to R965) -/

def State.setDbg (s : State) (g : Dbg → Dbg) : State := { s with dbg := g s.dbg }

/-- Timer counts are fixed when a freeze of SVP begins: they hold through it (19 R965). -/
def svpHold (s : State) : State :=
  if !(s.freezing && s.on F.DBG_FREEZE_SVP) then s
  else s.each (List.range 8) fun t k =>
    if t.get F.SVP_TMR_CTRL_MODE k = 1 then
      (t.put F.SVP_TMR_VAL_COUNT k (Config.freeNat t.free % (t.get F.SVP_TMR_PERIOD_TICKS k + 1))).fresh
    else t

/-- An operation that may begin a freeze. -/
def withFreeze (g : State → State) (s : State) : State :=
  let t := g s
  if t.freezing && !s.freezing then svpHold t else t

/-- Core `n` halts now. -/
def haltNow (n : Nat) (s : State) : State :=
  let s1 := wdgSample n s
  let s2 := (s1.raise F.DBG_CORE_STATUS_HALTED n).clear F.DBG_CORE_STATUS_DEFERRED n
  coreSettle n ((s2.raise F.DBG_ERR_HALTED).modCore n fun c => { c with stepping := false })

/-- A halt request to core `n` (19 R960, R961): whether the core halted at once. -/
def haltReq (n : Nat) (s : State) : Bool × State :=
  if s.coreHalted n then (false, s)
  else if !s.coreRuns n then (false, s.raise F.DBG_ERR_REFUSED)
  else if s.holdsResv n then (false, s.raise F.DBG_CORE_STATUS_DEFERRED n)
  else (true, haltNow n s)

/-- Channels that the halt of a core fires. -/
def State.haltFires (s : State) (n : Nat) : List Nat :=
  (List.range 16).filter fun c => bit (s.get F.DBG_XT_CH_IN_HALT c) n

/-- Pulses of cross-trigger channels and what follows them (19 R964): each channel in the list acts and drives its XTRIG signal,
and the cores that halt fire further channels. Each core halts once, so `fuel` of ten rounds is enough. -/
def pulses : Nat → List Nat → State → State
  | 0, _, s => s
  | f + 1, chs, s =>
    if chs.isEmpty then s
    else
      let cores := (List.range 9).filter fun n => chs.any fun c => bit (s.get F.DBG_XT_CH_HALT_OUT c) n
      let (halted, s1) := cores.foldl (fun (acc : List Nat × State) n =>
        let (h, t) := haltReq n acc.2
        (if h then acc.1 ++ [n] else acc.1, t)) ([], s)
      let stays := (List.range 9).any fun n => s1.coreHalted n || s1.on F.DBG_CORE_STATUS_DEFERRED n
      let s2 := s1.when (stays && chs.any fun c => s.on F.DBG_XT_CH_FREEZE_OUT c) (·.setDbg fun d => { d with pulse := true })
      let outs := chs.filter fun c => s.on F.DBG_XT_CH_PIN_OUT c && !s.svc.xtrig.contains c
      pulses f (halted.flatMap s2.haltFires) (s2.setSvc fun v => { v with xtrig := v.xtrig ++ outs })

/-- A set of channels pulses. -/
def xtPulse (chs : List Nat) (s : State) : State := withFreeze (pulses 10 chs) s

/-- Core `n` halts at a boundary, and its halt fires its channels. -/
def haltFire (n : Nat) (s : State) : State := withFreeze (fun t => let t1 := haltNow n t; pulses 10 (t1.haltFires n) t1) s

/-- A halt request from DBG_HALT to one core. -/
def haltAsk (n : Nat) (s : State) : State :=
  withFreeze (fun t => let (h, t1) := haltReq n t; if h then pulses 10 (t1.haltFires n) t1 else t1) s

/-- A halted core resumes (19 R960, R965); a watchdog it froze counts again. -/
def resumeCore (n : Nat) (s : State) : State :=
  if !s.coreHalted n then s
  else
    let s1 := wdgRelease n (s.clear F.DBG_CORE_STATUS_HALTED n)
    let s2 := coreSettle n (s1.modCore n fun c => { c with stepping := false })
    if (List.range 9).any fun k => s2.coreHalted k || s2.on F.DBG_CORE_STATUS_DEFERRED k then s2
    else s2.setDbg fun d => { d with pulse := false }

/-! Start and stop (14 R744, R766, R767, 19 R963) -/

/-- The core is reset: registers, caches, reservation and the halt of the debug port. Its control registers take their reset
values. -/
def coreReset (n : Nat) (s : State) : State :=
  let s1 := dropResv n (s.setCore n (Core.fresh n))
  coreSettle n ((s1.clear F.DBG_CORE_STATUS_HALTED n).clear F.DBG_CORE_STATUS_DEFERRED n)

/-- A core that starts halts before its first instruction while its bit of DBG_RESET_HALT is 1. -/
def resetHalt (n : Nat) (s : State) : State :=
  if bit (s.get F.DBG_RESET_HALT_CORES) n then haltFire n s else s

/-- RUN has risen: the core starts at ENTRY, at S, with every g register 0. -/
def coreBegin (n : Nat) (s : State) : State :=
  let s1 := coreReset n s
  resetHalt n (coreSettle n (s1.modCore n fun c => { c with pc := BitVec.ofNat 64 (s.get F.WDG_CORE_CTRL_ENTRY n * 4) }))

/-- RUN falls: the core is reset at once, its dirty lines are lost, its watchdog holds. -/
def coreEnd (n : Nat) (s : State) : State := coreReset n ((wdgSample n s).clear F.WDG_CORE_CTRL_RUN n)

/-- A write of WDG_CORE_CTRL (14 R766, R767). A core out of service is held in reset (R783). Without power RUN cannot rise: the
write is answered POWERED_DOWN (01 R46). -/
def coreCtrlWrite (n : Nat) (w : W64) (s : State) : State :=
  let was := s.on F.WDG_CORE_CTRL_RUN n
  let run := bit w.toNat 0 && !s.on F.WDG_CORE_STATUS_OFFLINE n
  if run && !was && !s.domOn (76 + n) then s.answer .poweredDown
  else
    let s1 := if was && !run then coreEnd n s else s
    let s2 := (s1.wrCodes R.WDG_CORE_CTRL n w false).flag F.WDG_CORE_CTRL_RUN n run
    if run && !was then coreBegin n s2 else s2

def execCoreStart (n : Fin 8) (w : W64) (s : State) : Out := .next (coreCtrlWrite n.val (w ||| 1) s)
def execCoreStop (n : Fin 8) (w : W64) (s : State) : Out := .next (coreCtrlWrite n.val (w &&& ~~~1) s)

/-! Data cache lines (14 R740, R745, R747, R759) -/

/-- Accesses to the DDR5 and scratchpad windows are cacheable on a Clove core while the cache is enabled (14 R741). -/
def State.dcOn (s : State) (n a : Nat) : Bool := n != 8 && (s.core n).cacheCtrl.getLsbD 1 && (inDram a || inSpd a)
def State.icOn (s : State) (n a : Nat) : Bool := n != 8 && (s.core n).cacheCtrl.getLsbD 0 && (inDram a || inSpd a)

def Core.lineAt (c : Core) (l : Nat) : Option DLine := c.dc.find? fun d => d.line == l
def Core.dropLine (c : Core) (l : Nat) : Core := { c with dc := c.dc.filter fun d => d.line != l }
def Core.putLine (c : Core) (d : DLine) : Core := { c with dc := (c.dropLine d.line).dc ++ [d] }

/-- A store or write-back of core `n` has met a response: an error is kept until the core takes it (14 R747, R760). -/
def storeDone (n a : Nat) (r : Resp) (s : State) : State :=
  if r = .okay ∨ (s.core n).serr.isSome then s else s.modCore n fun c => { c with serr := some (a, r) }

/-- Writes a line back. A poisoned line's words are sent with POISON and hold no trustworthy data (14 R759, 08 R391). -/
def lineBack (n : Nat) (d : DLine) (env : Env) (s : State) : State :=
  let (bs, s1) := if d.poisoned then s.freeBytes 64 else (d.data, s)
  let (r, s2) := plainWrite (coreIni n) (d.line * 64) bs false env s1
  storeDone n (d.line * 64) r s2

/-- DCLEAN of a line (14 R745): it is written back if it is dirty, and stays. -/
def lineClean (n l : Nat) (env : Env) (s : State) : State :=
  match (s.core n).lineAt l with
  | none => s
  | some d =>
    if d.dirty then (lineBack n d env s).modCore n fun c => c.putLine { d with dirty := false, poisoned := false }
    else s

/-- DINV of a line. -/
def lineDrop (n l : Nat) (s : State) : State := s.modCore n (·.dropLine l)

/-- DFLUSH of a line: written back if dirty, then invalidated. -/
def lineFlush (n l : Nat) (env : Env) (s : State) : State := lineDrop n l (lineClean n l env s)

/-- DFLUSH of every line. -/
def cacheFlush (n : Nat) (env : Env) (s : State) : State :=
  s.each (s.core n).dc fun t d => lineFlush n d.line env t

/-- Places a line in its set of four; a full set gives up one of its lines, whichever the cache chooses (14 R740). -/
def linePlace (n : Nat) (d : DLine) (env : Env) (s : State) : State :=
  let set := (s.core n).dc.filter fun e => e.line % 256 == d.line % 256
  let s1 :=
    if set.length < 4 then s
    else match set[Config.freeNat s.free % set.length]? with
      | some v => (lineFlush n v.line env s).fresh
      | none => s
  s1.modCore n (·.putLine d)

/-- The instruction cache holds the line of a fetch. -/
def fetchPlace (n l : Nat) (s : State) : State :=
  if (s.core n).ic.contains l then s
  else
    let set := (s.core n).ic.filter fun e => e % 256 == l % 256
    let s1 :=
      if set.length < 4 then s
      else match set[Config.freeNat s.free % set.length]? with
        | some v => (s.modCore n fun c => { c with ic := c.ic.filter (· != v) }).fresh
        | none => s
    s1.modCore n fun c => { c with ic := c.ic ++ [l] }

/-! Out of service (14 R783) -/

/-- Core `n` leaves service: its data cache is written back if it responds, and it is held in reset. -/
def coreOffline (n : Nat) (responds : Bool) (env : Env) (s : State) : State :=
  let s1 := if responds && s.coreRuns n then cacheFlush n env s else s
  let s2 := if s1.coreRuns n then coreEnd n s1 else s1
  s2.raise F.WDG_CORE_STATUS_OFFLINE n

/-! Watchdog events -/

/-- A write of WDG_KICK (14 R789). -/
def wdgKick (w data : Nat) (s : State) : State :=
  if data % 65536 = 0xC10E then s.put F.WDG_COUNT_COUNT w (s.wdgLoad w) else s.raise F.WDG_STATUS_BAD_KICK w

def execWatchdogKick (w : CoreId) (data : W32) (s : State) : Out := .next (wdgKick w.val data.toNat s)

/-- The first expiry (14 R790); its event is source 400 + w, whose level follows STAGE1. -/
def execWatchdogFirstExpiry (w : CoreId) (s : State) : Out :=
  .next <|
    if s.wdgCounts w && !s.on F.WDG_STATUS_STAGE1 w then
      (s.raise F.WDG_STATUS_STAGE1 w).put F.WDG_COUNT_COUNT w (s.wdgLoad w)
    else s

/-- WDG registers that are computed when read. -/
def wdgView (s : State) (r : Reg) (i : Nat) : Option Nat :=
  if r = R.WDG_STATUS then
    some (withField (s.rd R.WDG_STATUS i).toNat F.WDG_STATUS_FROZEN (ofFlag (s.wdgFrozen i)))
  else if r = R.WDG_CORE_STATUS then
    some (withField (s.rd R.WDG_CORE_STATUS i).toNat F.WDG_CORE_STATUS_WFI
      (ofFlag ((s.core i).wfi && (s.irqCode i).isNone)))
  else none

/-- WDG registers whose write is more than its access codes. -/
def wdgWrite (s : State) (r : Reg) (i w : Nat) : Option State :=
  if r = R.WDG_KICK then some (wdgKick i w s)
  else if r = R.WDG_CORE_CTRL then some (coreCtrlWrite i (BitVec.ofNat 64 w) s)
  else if r = R.WDG_CTRL then some ((wdgSample i s).wrCodes r i (BitVec.ofNat 64 w) false)
  else none

end Sys2Proof.Machine
end

