-- ==== Sys2Proof/Machine/Mailbox.lean ====
section
/-! DEFINITION. The warden's mailboxes and the form of a request (14 R774 to R780, R784). -/

namespace Sys2Proof.Machine

def State.setWarden (s : State) (g : Warden → Warden) : State := { s with warden := g s.warden }

/-- Request status codes. -/
def reqOk : Nat := 0
def reqBadCode : Nat := 1
def reqBadArg : Nat := 2
def reqDenied : Nat := 3
def reqFailed : Nat := 4
def reqAuth : Nat := 5

/-- The mailbox served next: round-robin from the one after the last (14 R776). -/
def State.boxNext (s : State) : Option Nat :=
  ((List.range 8).map fun i => (s.warden.last + 1 + i) % 8).find? fun b => s.on F.KEY_REQ_STATUS_BUSY b

def State.boxArg (s : State) (b a : Nat) : W64 := s.rd R.KEY_REQ_ARG (b * 4 + a)

/-- A request completes (14 R777). -/
def reqEnd (b status : Nat) (res0 : W64) (s : State) : State :=
  let s1 := (s.put F.KEY_REQ_STATUS_STATUS b status).wr R.KEY_REQ_RES0 b res0
  let s2 := ((s1.wr R.KEY_REQ_RES1 b 0).clear F.KEY_REQ_STATUS_BUSY b).raise F.KEY_REQ_STATUS_DONE b
  s2.setWarden fun w => { w with last := b }

/-- What the warden makes of a request: an ending that changes nothing, one that leaves only the record of its failure (of a
memory access it made, or PATCH_FAIL), or its whole effect with RES0 (14 R778). -/
inductive ReqDoes where
  | ends (status : Nat)
  | fails (status : Nat) (g : State → State)
  | does (res0 : W64) (g : State → State)

/-- The warden serves the request of mailbox `b`, whose turn it is and whose code is `code`. -/
def reqServe (b code : Nat) (g : State → ReqDoes) (s : State) : State :=
  if s.boxNext ≠ some b ∨ s.get F.KEY_REQ_CTRL_CODE b ≠ code then s
  else match g s with
    | .ends st => reqEnd b st 0 s
    | .fails st f => reqEnd b st 0 (f s)
    | .does r f => reqEnd b reqOk r (f s)

/-- A write of KEY_REQ_CTRL (14 R775). A code that no request has ends at once with BAD_CODE. -/
def reqCtrlWrite (b w : Nat) (s : State) : State :=
  let busy := s.on F.KEY_REQ_STATUS_BUSY b
  let s1 := s.put F.KEY_REQ_CTRL_IRQ b (bits w 9 1)
  let code := bits w 0 8
  if busy then
    s1.when (bit w 8 || code != s.get F.KEY_REQ_CTRL_CODE b) (·.raise F.KEY_REQ_STATUS_REFUSED b)
  else
    let s2 := s1.put F.KEY_REQ_CTRL_CODE b code
    if !bit w 8 then s2
    else if code = 0 ∨ 0x0C < code then reqEnd b reqBadCode 0 s2
    else s2.raise F.KEY_REQ_STATUS_BUSY b

def execRequestGo (box : BoxId) (w : W32) (s : State) : Out := .next (reqCtrlWrite box.val (w ||| 0x100).toNat s)

/-- A write of an argument: ignored and refused while BUSY (14 R775). -/
def reqArgWrite (i w : Nat) (s : State) : State :=
  if s.on F.KEY_REQ_STATUS_BUSY (i / 4) then s.raise F.KEY_REQ_STATUS_REFUSED (i / 4)
  else s.wr R.KEY_REQ_ARG i (BitVec.ofNat 64 w)

/-- Every mailbox is cleared (14 R780). -/
def boxesClear (s : State) : State :=
  s.each (List.range 8) fun t b =>
    let t1 := (((t.wr R.KEY_REQ_CTRL b 0).wr R.KEY_REQ_STATUS b 0).wr R.KEY_REQ_RES0 b 0).wr R.KEY_REQ_RES1 b 0
    t1.each (List.range 4) fun u a => u.wr R.KEY_REQ_ARG (b * 4 + a) 0

/-- KEY registers that are computed when read (14 R786, R787). -/
def keyView (s : State) (r : Reg) (_i : Nat) : Option Nat :=
  if r = R.KEY_STATUS then
    let v := (s.rd R.KEY_STATUS).toNat
    let f := s.fuses
    let mem := packBits ((List.range 8).map fun k => (s.memKeys.find k).isSome)
    some (f.authPresent.toNat + 16 * f.authRevoked.toNat + 256 * f.imgPresent.toNat + 4096 * mem
      + 2 ^ 20 * bits v 20 1 + 2 ^ 21 * ofFlag f.lockout + 2 ^ 24 * f.patchMin.toNat)
  else none

/-- KEY registers whose write is more than its access codes. -/
def keyWrite (s : State) (r : Reg) (i w : Nat) : Option State :=
  if r = R.KEY_REQ_CTRL then some (reqCtrlWrite i w s)
  else if r = R.KEY_REQ_ARG then some (reqArgWrite i w s)
  else if r = R.KEY_LOCK then some (s.put F.KEY_LOCK_UNITS 0 (s.get F.KEY_LOCK_UNITS ||| bits w 0 28))
  else none

end Sys2Proof.Machine
end

