-- ==== Sys2Proof/Machine/Pager.lean ====
section
/-! DEFINITION. Internal configuration ports, the Pager and its cache, and the scrubbers (13 R693 to R723, 20 R988). -/

namespace Sys2Proof.Machine

def State.setPgr (s : State) (g : Pgr → Pgr) : State := { s with pgr := g s.pgr }

/-- The Pager's Sand identity (08 R384). -/
def pgrIni : Nat := 0x4C

/-! Internal configuration ports (13 R693 to R700) -/

/-- The ICP of slab `k` leaves a load: idle, and the bay's clock gate on again. -/
def icpLeave (k b : Nat) (s : State) : State :=
  unholdBay b ((s.clear F.PGR_ICP_STATUS_STATE k).setPgr fun p => { p with icp := p.icp.erase k })

/-- A load through the ICP is abandoned (13 R698). -/
def icpAbandon (k b cause : Nat) (s : State) : State :=
  let s1 := (icpLeave k b s).put F.PGR_ICP_STATUS_CAUSE k cause
  ((s1.setBay b bayIncomplete).raise F.PGR_ICP_EVT_FAIL k).raise F.FEN_BAY_EVT_INCOMPLETE b

/-- START of a partial image (13 R699). -/
def icpFinish (k b : Nat) (s : State) : State :=
  let s1 := dropGolden b ((slicesHalt b (icpLeave k b s)).setBay b bayReady)
  (configureBay b s1).raise F.PGR_ICP_EVT_DONE k

/-- Acts on the packets that stand whole in the stream of slab `k`'s load (13 R696, R697), `fuel` at most. -/
def icpPackets : Nat → Nat → State → State
  | 0, _, s => s
  | fuel + 1, k, s => match s.pgr.icp.find k with
    | none => s
    | some i =>
      let b := i.bay
      let p := frontPacket true i.load.stream
      let keep (l : Load) (t : State) : State := t.setPgr fun q => { q with icp := q.icp.set k { i with load := l } }
      let dropped := dropPacket p i.load
      match p with
      | .bad _ => icpAbandon k b causeBadPacket s
      | .more => if i.load.phase = .ended then icpAbandon k b causeNoStart s else s
      | .nop => icpPackets fuel k (keep dropped s)
      | .pkt ty _ mask h _ payload =>
        if ty = 3 then
          match loadCheck i.load h payload with
          | .ok l => icpPackets fuel k (keep l s)
          | .error e => icpAbandon k b e.code s
        else if !s.addressed mask then icpPackets fuel k (keep dropped s)
        else if ty = 1 then icpPackets fuel k (keep { dropped with checked := false } s)
        else if ty = 2 then
          let ws := (payload.drop 1).map (·.2.2)
          let far := (payload.headD h).2.2.toNat
          let (n, stop, s1) := storeFrames (fun a => farValid a && farBay a == some b) storeFrame (ws.length / 128)
            (some far) ws 0 (keep { dropped with checked := false } s)
          let s2 := s1.put F.PGR_ICP_STATUS_FRAMES k (s1.get F.PGR_ICP_STATUS_FRAMES k + n)
          if stop.isSome then icpAbandon k b causeWindow s2 else icpPackets fuel k s2
        else if i.load.checked then icpFinish k b (keep dropped s)
        else icpAbandon k b causeNoCheck s

/-- One word of a partial image (13 R694 to R696). -/
def icpWord (k : Nat) (s : State) (w : W32) : State :=
  match s.pgr.icp.find k with
  | none => s
  | some i => match loadWord imageMagic s.deviceId s.fuses w i.load with
    | .error e => icpAbandon k i.bay e.code s
    | .ok l =>
      icpPackets (l.stream.length + 1) k (s.setPgr fun q => { q with icp := q.icp.set k { i with load := l } })

/-- A write to the data window of slab `k` (13 R695). -/
def icpData (k off : Nat) (data : List Byte) (s : State) : State :=
  if off % 4 ≠ 0 ∨ data.length % 4 ≠ 0 ∨ data = [] then s.answer .size
  else (bytesWords data).foldl (icpWord k) s.okay

def execIcpDataWrite (slab : Fin 4) (off : BitVec 12) (data : List Byte) (s : State) : Out :=
  .next (icpData slab off.toNat data s)

/-- ARM (13 R686, R694). -/
def icpArm (k b : Nat) (s : State) : State :=
  if b / 16 = k ∧ s.bayPowered b = false then s.answer .poweredDown
  else if b / 16 ≠ k ∨ s.get F.PGR_ICP_STATUS_STATE k ≠ 0 ∨ s.anchorBay b = true ∨ s.bayState b = bayTesting then
    s.put F.PGR_ICP_STATUS_CAUSE k 15
  else
    let s1 := blankWindow b ((holdBay b (fenceBay b byIcp false s)).setBay b bayLoading)
    let s2 := (s1.wr R.PGR_ICP_STATUS k 0).put F.PGR_ICP_STATUS_STATE k 1
    s2.setPgr fun p => { p with icp := p.icp.set k { bay := b, load := { phase := .sync } } }

/-- ABORT (13 R700). -/
def icpAbort (k : Nat) (s : State) : State :=
  match s.pgr.icp.find k with
  | some i => icpAbandon k i.bay causeSourceLost s
  | none => s

/-- A write of PGR_ICP_CTRL: BAY, then the actions. -/
def icpCtrlWrite (k w : Nat) (s : State) : State :=
  let s1 := (s.put F.PGR_ICP_CTRL_BAY k w).okay
  (s1.when (bit w 8) (icpArm k (bits w 0 6))).when (bit w 9) (icpAbort k)

def execIcpArm (slab : Fin 4) (w : W32) (s : State) : Out := .next (icpCtrlWrite slab (w ||| 0x100).toNat s)
def execIcpAbort (slab : Fin 4) (w : W32) (s : State) : Out := .next (icpCtrlWrite slab (w ||| 0x200).toNat s)

/-! The cache (13 R701 to R704) -/

def State.slot (s : State) (n : Nat) : Slot := s.pgr.slots.get {} n
def State.setSlot (s : State) (n : Nat) (x : Slot) : State := s.setPgr fun p => { p with slots := p.slots.set n x }
def State.slotIn (s : State) (n : Nat) : Bool := n < s.get F.PGR_CACHE_SLOTS_COUNT

/-- The number of frames before those of a type in a window (04 R214). -/
def typeFirst (ty : Nat) : Nat := if ty = 0 then 0 else if ty = 1 then 6864 else 10320

/-- The place of a frame in its bay's window: type, clock row, column, minor. -/
def frameIndex (a : Nat) : Nat :=
  let ty := farType a
  let cols := fun (c : Nat) => ((List.range c).map fun k => farMinors ty 0 k).foldl (· + ·) 0
  typeFirst ty + farRow a % 3 * cols 60 + cols (farCol a % 60) + farMinor a

/-- The regions are those of the zero fill of a channel: lines that nothing has written since read as zeros (16 R840). -/
def State.fillStands (s : State) (c : Nat) : Bool :=
  s.filled.contains c && s.regions == (s.chan c).fill.map fun r => (r.1, r.2.1, some r.2.2)

/-- Frames of 512 bytes from `base`, of `n`, that may read otherwise than the zero fill left them, the first among them. -/
def State.touched (s : State) (base n : Nat) : List Nat :=
  if inDram base && s.fillStands (chanOf base) && base % 64 == 0 then
    let at_ := fun (a : Nat) => if base ≤ a ∧ a < base + n * 512 then [(a - base) / 512] else []
    (0 :: (s.mem.flatMap fun c => at_ c.1) ++ (s.seals.flatMap fun e => at_ (e.1 * 64))
      ++ s.lineFlaw.flatMap fun e => at_ (e.1 * 64)).eraseDups
  else List.range' 0 n

/-- Reads the frames at the places `is` of slot `n`, the first error ending it; `base` is the first place of the command. -/
def framesRead (n base : Nat) (env : Env) :
    List Nat → List (Nat × List W32) → State → Resp × List (Nat × List W32) × State
  | [], fr, s => (.okay, fr, s)
  | i :: is, fr, s =>
    let m := plainRead pgrIni (s.slotFrame n i) 512 (Env.at_ env (i == base)) s
    let fr1 := fr ++ [(i, bytesWords m.1.bytes)]
    if m.1.resp = .okay then framesRead n base env is fr1 m.2 else (m.1.resp, fr1, m.2)

/-- Reads frames of a slot from DDR5; a frame left out holds the zero fill. Answers the first error. -/
def slotRead (n : Nat) (from_ upto : Nat) (env : Env) (s : State) : Resp × List (Nat × List W32) × State :=
  framesRead n from_ env ((s.touched (s.slotFrame n from_) (upto - from_)).map (· + from_)) [] s

/-- Writes frames at consecutive places of 512 bytes: those listed, and blank ones where memory may hold something else. -/
def framesWrite (base n : Nat) (fr : List (Nat × List W32)) (env : Env) (s : State) : Resp × State :=
  let blank := (s.touched base n).filter fun i => !fr.any (fun e => e.1 == i)
  ((fr.filter fun e => e.1 < n) ++ blank.map fun i => (i, blankFrame)).foldl (fun (acc : Resp × State) e =>
    if acc.1 ≠ .okay then acc
    else longWrite pgrIni (base + e.1 * 512) (wordsBytes e.2) (Env.at_ env (e.1 == 0)) acc.2) (.okay, s)

/-- Writes the first frames of a slot, those not listed blank. -/
def slotWrite (n upto : Nat) (fr : List (Nat × List W32)) (env : Env) (s : State) : Resp × State :=
  framesWrite (s.slotFrame n 0) upto fr env s

/-- The frames of the window of bay `b` in the order of a slot. -/
def frameAt (b i : Nat) : Nat := (bayWindow b).getD i 0

/-- A frame taken from the window of `home`, as it is written to bay `b` (04 R213, 13 R709). -/
def placed (home b far : Nat) (ws : List W32) : List W32 :=
  if home = b ∨ colType (farCol far % 60) ≠ .S ∨ farType far ≠ 0 then ws else Config.placeFrame b far ws

/-! Results (13 R706) -/

def stOk : Nat := 0
def stState : Nat := 1
def stSlot : Nat := 2
def stAnchor : Nat := 3
def stBorder : Nat := 4
def stRim : Nat := 5
def stNoPlan : Nat := 6
def stQtzDirty : Nat := 7
def stPoweredDown : Nat := 8
def stAuth : Nat := 9
def stWindow : Nat := 10
def stSrcErr : Nat := 11
def stUe : Nat := 12
def stBistFail : Nat := 13
def stAborted : Nat := 14

def PgrCmd.op (c : PgrCmd) : Nat := bits c.cmd.toNat 0 4
def PgrCmd.bayA (c : PgrCmd) : Nat := bits c.cmd.toNat 8 6
def PgrCmd.bayB (c : PgrCmd) : Nat := bits c.cmd.toNat 16 6
def PgrCmd.slotNo (c : PgrCmd) : Nat := bits c.cmd.toNat 24 8
def PgrCmd.content (c : PgrCmd) : Bool := bit c.cmd.toNat 32
def PgrCmd.open_ (c : PgrCmd) : Bool := bit c.cmd.toNat 33

/-- The command ends with one result word. -/
def pgrResult (c : PgrCmd) (status : Nat) (skipped : Bool) (s : State) : State :=
  let keep := c.cmd &&& 0xFFFF0000FF3F3F0F#64
  let w := setBits (setBits keep 4 4 status) 32 1 (ofFlag skipped)
  let s1 := s.raise F.PGR_ERR_DONE
  let s2 := s1.when (status != 0) (·.raise F.PGR_ERR_FAILED)
  if s2.pgr.results.length < 16 then s2.setPgr fun p => { p with results := p.results ++ [w] }
  else s2.raise F.PGR_ERR_RESULT_LOST

/-! The start of a command (13 R705 to R713) -/

/-- The slot that a bay names as its golden copy. -/
def State.goldenOf (s : State) (b : Nat) : Option Nat :=
  let n := s.get F.FEN_BAY_STATUS_SLOT b
  if s.on F.FEN_BAY_STATUS_GOLDEN b && (s.slot n).state == 2 && s.slotIn n then some n else none

/-- A lane or a user pin is bound to the bay (13 R711). -/
def State.rimBound (s : State) (b : Nat) : Bool :=
  (List.range 48).any (fun k => let n := b / 16 * 48 + k
    s.on F.LNE_XBAR_EN n && s.get F.LNE_XBAR_BAY n == b % 16)
  || s.fabric.pins.any fun e => e.2.cfg.bound.any fun p => p.1 == b

def planFrom (p : Plan) : Nat := (p.headD 0).toNat % 64
def planDest (p : Plan) : Nat := bits (p.headD 0).toNat 8 6

/-- The status with which a command is turned away; 0 when it is accepted (13 R706, R707, R710 to R712). -/
def pgrCheck (c : PgrCmd) (s : State) : Nat :=
  let a := c.bayA
  let b := c.bayB
  let op := c.op
  let st := s.bayState a
  let two := op == 4 || op == 5
  let slot := if two then (s.goldenOf a).getD 256 else c.slotNo
  let dst := if two then b else a
  let x := s.slot slot
  let ok := match op with
    | 2 => if c.content then st == bayReady && !s.bayClocked a else st == bayLive || st == bayReady
    | 3 => st == bayBlank || st == bayIncomplete || st == bayReady || st == bayLive
    | 4 => (st == bayLive || st == bayReady) && s.bayState b == bayBlank
    | 5 => st != bayTesting && s.bayState b == bayBlank
    | 6 => st != bayOffline && st != bayTesting
    | 7 => st == bayBlank || st == bayOffline
    | 8 => st != bayLoading && st != bayTesting
    | 1 | 9 => true
    | _ => false
  let slotOk := match op with
    | 1 => s.slotIn slot && x.state == 0
    | 2 => s.slotIn slot
    | 3 => s.slotIn slot && x.state == 2
    | 4 | 5 => (s.goldenOf a).isSome
    | 9 => s.slotIn slot && !(List.range 64).any fun k => s.on F.FEN_BAY_STATUS_GOLDEN k && s.get F.FEN_BAY_STATUS_SLOT k == slot
    | _ => true
  if 2 ≤ op ∧ op ≤ 8 ∧ !(s.bayPowered a && (!two || s.bayPowered b)) then stPoweredDown
  else if 3 ≤ op ∧ op ≤ 7 ∧ (s.anchorBay a || (two && s.anchorBay b)) then stAnchor
  else if !ok then stState
  else if !slotOk then stSlot
  else if 3 ≤ op ∧ op ≤ 5 ∧ dst ≠ x.home ∧ x.border ≠ 0 then stBorder
  else if two && a / 16 != b / 16 && s.rimBound a then stRim
  else if two && x.quartz && !x.plans.any (fun p => planFrom p == a && planDest p == b) then stNoPlan
  else if two && x.quartz && s.on F.QTZ_STATUS_DIRTY then stQtzDirty
  else stOk

/-- The pairs of a plan. -/
def planPairs : List W32 → List (Nat × Nat)
  | a :: b :: t => (a.toNat, b.toNat) :: planPairs t
  | _ => []

/-- The entries of a plan enter the master tables, and GO is written; what they replace is kept (13 relocation step 5). -/
def planApply (p : Plan) (r : PgrRun) (s : State) : PgrRun × State :=
  let step := fun (acc : PgrRun × State) (e : Nat × Nat) =>
    let (r, t) := acc
    let (a, b) := e
    if bit a 31 then
      let i := planDest p * 8 + a % 8
      ({ r with undoEqd := (i, t.get F.QTZ_EQD_CYCLES i) :: r.undoEqd }, t.put F.QTZ_EQD_CYCLES i b)
    else
      let key := (bits a 0 12, bits a 16 7)
      if !idExists key.1 then acc
      else
        let old := t.qtz.master.get 0 key
        ({ r with undo := (key, old) :: r.undo },
          t.setQtz fun q => { q with master := q.master.set key (setBits old (16 * bits a 24 2) 16 b) })
  let (r1, s1) := (planPairs (p.drop 1)).foldl step (r, s)
  (r1, qtzCommitWrite 1 (s1.raise F.QTZ_STATUS_DIRTY))

/-- The plan waits for a commit that is under way when its command starts. -/
def planStart (p : Plan) (r : PgrRun) (s : State) : PgrRun × State :=
  if s.on F.QTZ_STATUS_COMMIT_BUSY then ({ r with planWaits := true }, s) else planApply p { r with planWaits := false } s

/-- The old entries of an abandoned plan enter the master tables again, and a second commit begins (13 R715). -/
def planUndo (r : PgrRun) (s : State) : State :=
  let s1 := r.undo.foldl (fun t e => t.setQtz fun q => { q with master := q.master.set e.1 e.2 }) s
  let s2 := r.undoEqd.foldl (fun t e => t.put F.QTZ_EQD_CYCLES e.1 e.2) s1
  qtzCommitWrite 1 (s2.raise F.QTZ_STATUS_DIRTY)

/-- The ICP of a bay's slab is used by the Pager, or idle again. -/
def icpUse (b : Nat) (s : State) : State :=
  if s.get F.PGR_ICP_STATUS_STATE (b / 16) = 0 then s.put F.PGR_ICP_STATUS_STATE (b / 16) 2 else s
def icpFreed (b : Nat) (s : State) : State :=
  if s.get F.PGR_ICP_STATUS_STATE (b / 16) = 2 then s.clear F.PGR_ICP_STATUS_STATE (b / 16) else s

/-- What a command does as it starts: the bays it holds leave service (13 R706, relocation steps 1 to 5, R716). -/
def pgrBegin (c : PgrCmd) (s : State) : State :=
  let a := c.bayA
  let b := c.bayB
  let r : PgrRun := { cmd := c, wasLive := s.bayState a == bayLive, prev := s.bayState a,
                      wasValid := (s.slot c.slotNo).state == 2 }
  let run := fun (r : PgrRun) (t : State) => t.setPgr fun p => { p with run := some r }
  match c.op with
  | 1 | 2 => run r (s.setSlot c.slotNo { s.slot c.slotNo with state := 1 })
  | 3 => run r (icpUse a (holdBay a ((fenceBay a byPager false s).setBay a bayLoading)))
  | 4 | 5 =>
    let slot := s.slot ((s.goldenOf a).getD 256)
    let s1 := holdBay b (icpUse b (s.setBay b bayLoading))
    let s2 := holdBay a (icpUse a (fenceBay a byPager true s1))
    if slot.quartz then
      match slot.plans.find? (fun p => planFrom p == a && planDest p == b) with
      | some p => let (r1, s3) := planStart p { r with plan := some p } s2; run r1 s3
      | none => run r s2
    else run r s2
  | 6 => run r (icpUse a (holdBay a ((fenceBay a byPager false s).setBay a bayLoading)))
  | 7 => run r ((fenceBay a byPager false s).setBay a bayTesting)
  | 8 => run r (if s.bayState a = bayLive then s else s.setBay a bayTesting)
  | _ => run r s

/-- Starts queued commands until one is under way; the Pager starts no step while it is frozen (13 R705, 19 R963). -/
def pgrNext : Nat → State → State
  | 0, s => s
  | fuel + 1, s =>
    if s.pgr.run.isSome || (s.freezing && s.on F.DBG_FREEZE_PAGER) then s
    else match s.pgr.queue with
      | [] => s
      | c :: q =>
        let s1 := s.setPgr fun p => { p with queue := q }
        let st := pgrCheck c s1
        if st ≠ 0 then pgrNext fuel (pgrResult c st false s1) else pgrBegin c s1

/-- A write of PGR_CMD (13 R705). -/
def pgrSubmit (w : W64) (s : State) : State :=
  if s.on F.PGR_CTRL_EN = false ∨ 16 ≤ s.pgr.queue.length then s.raise F.PGR_ERR_CMD_REFUSED
  else pgrNext 17 (s.setPgr fun p => { p with queue := p.queue ++ [⟨w, s.get F.PGR_ARG_ADDR⟩] })

def pgrOp (op : Nat) (w : W64) : W64 := setBits w 0 4 op

def execCache (w : W64) (s : State) : Out := .next (pgrSubmit (pgrOp 1 w) s)
def execCapture (w : W64) (s : State) : Out := .next (pgrSubmit (pgrOp 2 w) s)
def execLoad (w : W64) (s : State) : Out := .next (pgrSubmit (pgrOp 3 w) s)
def execRelocate (w : W64) (s : State) : Out := .next (pgrSubmit (pgrOp 4 w) s)
def execSpare (w : W64) (s : State) : Out := .next (pgrSubmit (pgrOp 5 w) s)
def execBlank (w : W64) (s : State) : Out := .next (pgrSubmit (pgrOp 6 w) s)
def execBist (w : W64) (s : State) : Out := .next (pgrSubmit (pgrOp 7 w) s)
def execReadback (w : W64) (s : State) : Out := .next (pgrSubmit (pgrOp 8 w) s)
def execFree (w : W64) (s : State) : Out := .next (pgrSubmit (pgrOp 9 w) s)

/-- A read of PGR_RESULT (13 R706); EMPTY alone when no result waits. -/
def pgrResultRead (quiet : Bool) (s : State) : State :=
  match s.pgr.results with
  | [] => s.answer .okay 0x200000000
  | w :: t => (if quiet then s else s.setPgr fun p => { p with results := t }).answer .okay w

def execResultRead (quiet : Bool) (s : State) : Out := .next (pgrResultRead quiet s)

/-! The end of a command -/

/-- The command under way is over: its bays' clocks and the ICPs are released. -/
def pgrEnd (r : PgrRun) (s : State) : State :=
  let s1 := r.bays.foldl (fun t b => icpFreed b (unholdBay b t)) s
  s1.setPgr fun p => { p with run := none }

/-- Frames of one slot written to bay `b` (13 LOAD, R709): all types. -/
def loadWindow (b home : Nat) (fr : List (Nat × List W32)) (s : State) : State :=
  let f := s.fabric
  let pm := fun (x : Slice) => { x with pm := [], pmFlaw := [], pmBack := [] }
  let s1 := { s with
    fabric := { f with
      frames := f.frames.filter fun e => farBay e.1 != some b
      frameFlaw := f.frameFlaw.filter fun e => farBay e.1 != some b }
    brams := s.brams.map fun e => if blkBay e.1 = b then (e.1, e.2.zeroed) else e
    slices := s.slices.map fun e => if e.1.1 = b then (e.1, pm e.2) else e }
  fr.foldl (fun t e =>
    let far := frameAt b e.1
    storeFrame far (placed home b far e.2) t) s1

/-- A window whose writing was cut short: which frames were written, out of those that `new` gives by address, is free
(13 state 2 of R683). -/
def windowMix (b : Nat) (new : Nat → List W32) (s : State) : State :=
  let n := Config.freeNat s.free
  s.fresh.each ((bayWindow b).filter fun a => n.testBit (frameIndex a)) fun t a => storeFrame a (new a) t

/-- The same of the slices' data memories, by slice x 1,024 + word. -/
def dataMix (b : Nat) (new : Nat → W24) (s : State) : State :=
  let n := Config.freeNat s.free
  s.fresh.each (List.range 288) fun t i => t.modSlice b i fun x =>
    { x with
      dm := ((List.range 1024).filter fun w => n.testBit (1024 * i + w)).foldl (fun d w => d.set w (new (1024 * i + w))) x.dm
      dmFlaw := x.dmFlaw.filter fun e => !n.testBit (1024 * i + e.1) }

/-- The slot's frames as far as they were read, any words beyond a read that failed. -/
def loadMix (r : PgrRun) (resp : Resp) (fr : List (Nat × List W32)) (s : State) : State :=
  let b := r.cmd.bayA
  let m := Config.freeNat s.free
  let rest := fun i => if resp = .okay then blankFrame
    else (List.range 128).map fun k => BitVec.ofNat 32 (m / 2 ^ (32 * (128 * i + k)))
  windowMix b (fun a => match fr.find? fun e => e.1 == frameIndex a with
    | some e => placed (s.slot r.cmd.slotNo).home b a e.2
    | none => rest (frameIndex a)) s.fresh

/-- A BLANK cut short; a bay test cut short leaves any pattern in what it had reached. -/
def blankMix (b : Nat) (s : State) : State := dataMix b (fun _ => 0) (windowMix b (fun _ => blankFrame) s)
def bistMix (b : Nat) (s : State) : State :=
  let m := Config.freeNat s.free
  dataMix b (fun k => BitVec.ofNat 24 (m / 2 ^ (24 * k))) (windowMix b (fun a =>
    (List.range 128).map fun k => BitVec.ofNat 32 (m / 2 ^ (32 * (128 * frameIndex a + k)))) s.fresh)

/-- What an abandoned LOAD, BLANK or BIST leaves in its bay's window. -/
def abandonMix (r : PgrRun) (s : State) : State :=
  if r.cmd.op = 3 then
    let m := slotRead r.cmd.slotNo 0 10680 {} s
    loadMix r m.1 m.2.1 m.2.2
  else if r.cmd.op = 6 then blankMix r.cmd.bayA s
  else bistMix r.cmd.bayA s

/-- The bay holds the personality loaded: READY, its slices halted and configured. -/
def bayLoaded (b : Nat) (s : State) : State := configureBay b (slicesHalt b (s.setBay b bayReady))

/-- A personality opens when OPEN asks and R690 permits. -/
def openIf (c : Bool) (b : Nat) (s : State) : State :=
  if c && s.bayState b == bayReady && !s.slabFenced (b / 16) then openBay b s else s

/-- The status that an error response of memory gives a command. -/
def respStatus (r : Resp) : Nat := if r = .okay then stOk else stSrcErr

/-- A LOAD once its slot has been read: the window takes the frames, or the read failed and the bay is INCOMPLETE (13 R706). -/
def loadRead (r : PgrRun) (m : Resp × List (Nat × List W32) × State) : State :=
  let a := r.cmd.bayA
  let s1 := m.2.2
  if m.1 ≠ .okay then
    pgrResult r.cmd (respStatus m.1) false (pgrEnd r ((loadMix r m.1 m.2.1 s1).setBay a bayIncomplete))
  else
    let s2 := bayLoaded a (loadWindow a (s1.slot r.cmd.slotNo).home m.2.1 s1)
    openIf r.cmd.open_ a (pgrResult r.cmd stOk false (pgrEnd r s2))

/-- LOAD: every frame of the slot, then READY and LIVE when OPEN (13 R706). -/
def doneLoad (r : PgrRun) (env : Env) (s : State) : State :=
  loadRead r (slotRead r.cmd.slotNo 0 10680 env s)

/-- BLANK (13 R706), and the BLANK of BAY_A that follows a relocation; `leave` is the state after. -/
def blankDone (a leave : Nat) (s : State) : State := dropGolden a ((blankWindow a s).setBay a leave)

/-- BIST (13 R716): zero memories, BLANK or OFFLINE. -/
def doneBist (r : PgrRun) (pass : Bool) (s : State) : State :=
  let s1 := blankDone r.cmd.bayA (if pass then bayBlank else bayOffline) s
  pgrResult r.cmd (if pass then stOk else stBistFail) false (pgrEnd r s1)

/-- Content frames of a bay's window that differ from blank, each with its place, and those that hold an uncorrectable word. -/
def State.contentFrames (s : State) (b : Nat) : List (Nat × List W32) × List Nat :=
  let all := (bayWindow b).filter fun a => farType a ≠ 0
  let brs := s.brams.filter fun e => blkBay e.1 == b
  let sls := s.slices.filter fun e => e.1.1 == b
  let step := fun (acc : List (Nat × List W32) × List Nat) (a : Nat) =>
    let (ws, ue) := if farType a = 1 then bramReadback a { s with brams := brs } else progReadback a { s with slices := sls }
    (if ws.all (· == 0) then acc.1 else acc.1 ++ [(frameIndex a, ws)], if ue then acc.2 ++ [frameIndex a] else acc.2)
  if brs.isEmpty && sls.isEmpty then ([], []) else all.foldl step ([], [])

/-- Type 0 frames of a bay's window that differ from blank, corrected, and those that are uncorrectable (13 R717). -/
def State.logicFrames (s : State) (b : Nat) : List (Nat × List W32) × List Nat :=
  ((s.windowFrames b).map fun e => (frameIndex e.1, e.2),
   (s.fabric.frameFlaw.filter fun e => farBay e.1 == some b && e.2 == .double).map fun e => frameIndex e.1)

/-- The least of some frame indices, logged as PGR_UE_FRAME; the status that they give. -/
def ueStatus (ue : List Nat) (s : State) : Nat × State :=
  match ue with
  | [] => (stOk, s)
  | i :: t => (stUe, s.put F.PGR_UE_FRAME_INDEX 0 (t.foldl min i))

/-- The payloads of a descriptor block: each a count word and that many words, up to a count of 0 (13 R708). -/
def descPayloads : Nat → List W32 → List (List W32)
  | 0, _ => []
  | f + 1, ws => match ws with
    | [] => []
    | n :: t => if n = 0 then [] else (t.take n.toNat) :: descPayloads f (t.drop n.toNat)

/-- A plan whose count is 1 + 2E. -/
def planOk (p : Plan) : Bool := p.length == 1 + 2 * ((p.headD 0).toNat / 65536)

/-- A slot's descriptor from DESC words. -/
def slotDesc (d : List W32) (plans : List Plan) (x : Slot) : Slot :=
  let w := (d.headD 0).toNat
  { x with quartz := bit w 6, border := bits w 8 4, user := (d.drop 1).take 3, plans := plans }

/-- The descriptor that CAPTURE gives the slot (13 R708): a status when it has none. -/
def captureDesc (r : PgrRun) (env : Env) (s : State) : Except Nat Slot × State :=
  let x := s.slot r.cmd.slotNo
  let a := r.cmd.bayA
  if r.cmd.arg ≠ 0 then
    let (m, s1) := plainRead pgrIni r.cmd.arg 4096 env s
    if m.resp ≠ .okay then (.error stSrcErr, s1)
    else
      match descPayloads 1024 (bytesWords m.bytes) with
      | d :: plans =>
        if d.length ≠ 4 ∨ plans.any (fun p => !planOk p) ∨ 15 < plans.length then (.error stSlot, s1)
        else (.ok (slotDesc d plans { x with home := a }), s1)
      | [] => (.error stSlot, s1)
  else if r.wasValid && x.home == a then (.ok x, s)
  else (.ok { x with home := a, quartz := true, border := 0xF, user := [0, 0, 0], plans := [] }, s)

/-- A CAPTURE that fails: the slot is FREE again. -/
def captureFail (r : PgrRun) (st : Nat) (s : State) : State :=
  pgrResult r.cmd st false (pgrEnd r (s.setSlot r.cmd.slotNo { s.slot r.cmd.slotNo with state := 0 }))

/-- The frames that a CAPTURE stores, its content frames only where they may be read (05 R238), and those of them that are uncorrectable. -/
def captureFrames (r : PgrRun) (s : State) : List (Nat × List W32) × List Nat :=
  let l := s.logicFrames r.cmd.bayA
  let c := if r.cmd.content && s.contentOk r.cmd.bayA then s.contentFrames r.cmd.bayA else ([], [])
  (l.1 ++ c.1, l.2 ++ c.2)

/-- The frames of a CAPTURE go to the slot, which becomes VALID and the bay's golden copy. -/
def captureStore (r : PgrRun) (x : Slot) (fr : List (Nat × List W32)) (ue : List Nat) (s : State) : State :=
  let a := r.cmd.bayA
  let n := r.cmd.slotNo
  let w := slotWrite n (if r.cmd.content then 10680 else 6864) fr {} s
  if w.1 ≠ .okay then captureFail r (respStatus w.1) w.2
  else
    let u := ueStatus ue w.2
    let s4 := (u.2.setSlot n { x with state := 2 }).raise F.FEN_BAY_STATUS_GOLDEN a
    pgrResult r.cmd u.1 false (pgrEnd r (s4.put F.FEN_BAY_STATUS_SLOT a n))

/-- CAPTURE (13 R706, R708, R717). -/
def doneCapture (r : PgrRun) (env : Env) (s : State) : State :=
  match captureDesc r env s with
  | (.error st, s1) => captureFail r st s1
  | (.ok x, s1) => captureStore r x (captureFrames r s1).1 (captureFrames r s1).2 s1

/-- The frames of a window as READBACK copies them, and whether content was skipped (13 R717). -/
def readbackFrames (a : Nat) (s : State) : List (Nat × List W32) × List Nat × Bool :=
  let (f0, u0) := s.logicFrames a
  if s.contentOk a then
    let (f1, u1) := s.contentFrames a
    (f0 ++ f1, u0 ++ u1, false)
  else (f0, u0, true)

/-- The bay after a READBACK is in the state it was in. -/
def readbackEnd (r : PgrRun) (s : State) : State :=
  if s.bayState r.cmd.bayA = bayTesting then s.setBay r.cmd.bayA r.prev else s

def doneReadback (r : PgrRun) (env : Env) (s : State) : State :=
  let a := r.cmd.bayA
  let (fr, ue, skipped) := readbackFrames a s
  let (resp, s1) := framesWrite r.cmd.arg 10680 fr env s
  let (st, s2) := ueStatus ue s1
  let s3 := readbackEnd r s2
  pgrResult r.cmd (if resp = .okay then st else stSrcErr) skipped (pgrEnd r s3)

/-! CACHE (13 R703) -/

/-- Reads a partial image from memory block by block, `fuel` blocks at most: the load after its last block, or a status. -/
def imageBlocks (id : Nat) (fz : Fuses) : Nat → Nat → Load → State → Except Nat Load × State
  | 0, _, _, s => (.error stAuth, s)
  | f + 1, at_, l, s =>
    if l.phase = .ended then (.ok l, s)
    else
      let (m, s1) := plainRead pgrIni at_ 4 {} s
      if m.resp ≠ .okay then (.error stSrcErr, s1)
      else
        let len := bytesNat m.bytes
        if !lenOk len then (.error stAuth, s1)
        else
          let n := (blockWords l len - 1) * 4
          let (m2, s2) := longRead pgrIni (at_ + 4) n {} s1
          if m2.resp ≠ .okay then (.error stSrcErr, s2)
          else match loadBlock len (m2.bytes.take len) (m2.bytes.drop len) l with
            | .error _ => (.error stAuth, s2)
            | .ok l1 => imageBlocks id fz f (at_ + 4 + n) l1 s2

/-- What the packets of a partial image give a slot. -/
structure CacheTake where
  frames : List (Nat × List W32) := []
  desc : Option (List W32) := none
  plans : List Plan := []
  deriving DecidableEq, Repr

/-- Acts on the packets of a partial image for the cache: frames by address, DESC and PLANs; a status when the image fails. -/
def cachePackets (id : Nat) : Nat → Load → CacheTake → Except Nat CacheTake
  | 0, _, _ => .error stAuth
  | f + 1, l, t =>
    let p := frontPacket true l.stream
    let l1 := dropPacket p l
    match p with
    | .bad _ | .more => .error stAuth
    | .nop => cachePackets id f l1 t
    | .pkt ty code mask h _ payload =>
      let ws := payload.map (·.2.2)
      if ty = 3 then
        match loadCheck l h payload with
        | .ok l2 => cachePackets id f l2 t
        | .error _ => .error stAuth
      else if !bit mask id then cachePackets id f l1 t
      else if ty = 1 then
        let t1 := if code = 0x40 then { t with desc := some ws }
          else { t with plans := if t.plans.length < 15 then t.plans ++ [ws] else t.plans }
        cachePackets id f { l1 with checked := false } t1
      else if ty = 2 then
        let step := fun (acc : Option Nat × List (Nat × List W32) × Bool) (k : Nat) =>
          match acc.1 with
          | some a => (farNext a, acc.2.1.filter (fun e => e.1 != a) ++ [(a, (ws.drop (1 + 128 * k)).take 128)],
              acc.2.2 && farValid a)
          | none => (none, acc.2.1, false)
        let (_, fr, ok) := (List.range ((ws.length - 1) / 128)).foldl step (some (ws.headD 0).toNat, t.frames, true)
        if ok then cachePackets id f { l1 with checked := false } { t with frames := fr } else .error stWindow
      else if l.checked then .ok t else .error stAuth

/-- CACHE: the image at ARG authenticated and its frames, DESC and PLANs stored; a failure leaves the slot FREE. -/
def doneCache (r : PgrRun) (env : Env) (s : State) : State :=
  let n := r.cmd.slotNo
  let fin := fun (st : Nat) (x : Slot) (t : State) => pgrResult r.cmd st false (pgrEnd r (t.setSlot n x))
  let fail := fun (st : Nat) (t : State) => fin st { t.slot n with state := 0 } t
  let x := longRead pgrIni r.cmd.arg 516 env s
  if x.1.resp ≠ .okay then fail stSrcErr x.2
  else if bytesNat (x.1.bytes.take 4) ≠ syncWord.toNat then fail stAuth x.2
  else match loadHeader imageMagic s.deviceId s.fuses (x.1.bytes.drop 4) { phase := .header } with
    | .error _ => fail stAuth x.2
    | .ok l =>
      let y := imageBlocks s.deviceId s.fuses 65536 (r.cmd.arg + 516) l x.2
      match y.1 with
      | .error st => fail st y.2
      | .ok l1 => match cachePackets s.deviceId (l1.stream.length + 1) l1 {} with
        | .error st => fail st y.2
        | .ok t => match t.desc with
          | none => fail stAuth y.2
          | some d =>
            let home := (d.headD 0).toNat % 64
            if t.frames.any fun e => farBay e.1 != some home then fail stWindow y.2
            else
              let z := slotWrite n 10680 (t.frames.map fun e => (frameIndex e.1, e.2)) {} y.2
              if z.1 ≠ .okay then fail stSrcErr z.2
              else fin stOk { slotDesc d t.plans { z.2.slot n with home := home } with state := 2 } z.2

/-! Relocation (13 R714, R715) -/

/-- Settings of the bay's four event sources, of its Sand initiator and of its lanes and pins move to the new bay (13 R714). -/
def relocateMove (a b : Nat) (s : State) : State :=
  let s1 := s.each (List.range 4) fun t k =>
    let keep := t.rd R.EVC_SRC (b * 4 + k) &&& ~~~0x3FFF#64
    (t.wr R.EVC_SRC (b * 4 + k) (keep ||| (t.rd R.EVC_SRC (a * 4 + k) &&& 0x3FFF))).wr R.EVC_SRC (a * 4 + k)
      (t.rd R.EVC_SRC (a * 4 + k) &&& ~~~0x3FFF#64)
  let s2 := ((s1.wr R.NOC_RATE b (s1.rd R.NOC_RATE a)).wr R.NOC_TMO b (s1.rd R.NOC_TMO a))
  let s3 := (s2.wr R.NOC_RATE a (BitVec.ofNat 64 R.NOC_RATE.rst)).wr R.NOC_TMO a (BitVec.ofNat 64 R.NOC_TMO.rst)
  let s4 := s3.each (List.range 48) fun t k =>
    let n := a / 16 * 48 + k
    if t.on F.LNE_XBAR_EN n && t.get F.LNE_XBAR_BAY n == a % 16 then
      laneRebind n (withField (t.rd R.LNE_XBAR n).toNat F.LNE_XBAR_BAY (b % 16)) t else t
  let pin := fun (p : UioPin) => match p.cfg.bound with
    | some (b', port) => if b' = a then { p with cfg := { p.cfg with bound := some (b, port) } } else p
    | none => p
  let f := s4.fabric
  let rim := f.frames.map fun (e : Nat × List W32) =>
    if (farCol e.1 = 248 ∨ (240 ≤ farCol e.1 ∧ farCol e.1 ≤ 244)) ∧ farSlab e.1 = a / 16 then (e.1, Config.rebindFrame a b e.1 e.2) else e
  let pins : Tbl Nat UioPin := f.pins.map fun e => (e.1, pin e.2)
  let s5 := { s4 with fabric := { f with pins := pins, frames := rim } }
  let slot := s5.get F.FEN_BAY_STATUS_SLOT a
  let gold := s5.get F.FEN_BAY_STATUS_GOLDEN a
  rimCopy (dropGolden a ((s5.put F.FEN_BAY_STATUS_SLOT b slot).put F.FEN_BAY_STATUS_GOLDEN b gold))

/-- The command under way is a relocation before its commit step. -/
def PgrRun.relocating (r : PgrRun) : Bool := (r.cmd.op == 4 || r.cmd.op == 5) && r.phase == .running

/-- An abandoned relocation: BAY_A authoritative and READY with its slot, BAY_B blanked, or left INCOMPLETE when a slab is
fenced (13 R715, 20 R988). -/
def relocateAbandon (r : PgrRun) (bState status : Nat) (s : State) : State :=
  let a := r.cmd.bayA
  let b := r.cmd.bayB
  let s1 := icpFreed a (icpFreed b (unholdBay a (unholdBay b s)))
  let s2 := s1.setBay a (if r.prev = bayLive then bayReady else r.prev)
  let s3 := if bState = bayBlank then blankDone b bayBlank s2 else s2.setBay b bState
  let s4 := pgrResult r.cmd status false s3
  if r.plan.isNone || r.planWaits then s4.setPgr fun p => { p with run := none }
  else if s4.on F.QTZ_STATUS_COMMIT_BUSY then s4.setPgr fun p => { p with run := some { r with phase := .undo } }
  else (planUndo r s4).setPgr fun p => { p with run := some { r with phase := .undone } }

/-- The frames of slot `n` written to BAY_B's window, with BAY_A's own content frames where the command moves content. -/
def relocateRead (r : PgrRun) (content : Bool) (n : Nat) (m : Resp × List (Nat × List W32) × State) : Resp × State :=
  if m.1 ≠ .okay then (m.1, m.2.2)
  else
    let extra := if content then (m.2.2.contentFrames r.cmd.bayA).1 else []
    (.okay, loadWindow r.cmd.bayB (m.2.2.slot n).home (m.2.1 ++ extra) m.2.2)

/-- The frames of BAY_B: the slot's, or with CONTENT the type 1 and 2 frames of BAY_A (13 relocation steps 2 and 4). -/
def relocateFrames (r : PgrRun) (env : Env) (s : State) : Resp × State :=
  let n := s.get F.FEN_BAY_STATUS_SLOT r.cmd.bayA
  let content := r.cmd.op == 4 && r.cmd.content
  relocateRead r content n (slotRead n 0 (if content then 6864 else 10680) env s)

/-- The switch of the commit step: BAY_B takes BAY_A's place, or the read of the slot failed and the relocation is abandoned. -/
def relocateTaken (r : PgrRun) (m : Resp × State) : State :=
  let a := r.cmd.bayA
  let b := r.cmd.bayB
  if m.1 ≠ .okay then relocateAbandon r bayBlank (respStatus m.1) m.2
  else (icpFreed b (unholdBay b (bayLoaded b (relocateMove a b m.2)))).setPgr fun p =>
    { p with run := some { r with phase := .committed } }

/-- The commit step (13 relocation step 6): after the plan's commit has taken effect, or at once without a plan. -/
def execRelocateCommit (env : PgrEnv) (s : State) : Out :=
  .next <| match s.pgr.run with
    | none => s
    | some r =>
      if !r.relocating || (s.freezing && s.on F.DBG_FREEZE_PAGER) || (r.plan.isSome && s.on F.QTZ_STATUS_COMMIT_BUSY) then s
      else if r.planWaits then
        let (r1, s1) := planStart (r.plan.getD []) r s
        s1.setPgr fun p => { p with run := some r1 }
      else relocateTaken r (relocateFrames r env.mem s)

/-- A relocation that has committed is complete (13 relocation step 7): its result, BAY_B opened, and BAY_A to be blanked. -/
def doneRelocate (r : PgrRun) (s : State) : State :=
  let open' := r.cmd.op == 5 || r.cmd.open_
  let s1 := openIf (open' && r.wasLive) r.cmd.bayB (pgrResult r.cmd stOk false s)
  let s2 := s1.setBay r.cmd.bayA bayLoading
  s2.setPgr fun p => { p with run := some { r with phase := .blankA } }

/-- The Pager command under way ends, or its next part does, and the next queued command starts (13 R706). -/
def pgrDone (env : PgrEnv) (s : State) : State :=
  match s.pgr.run with
  | none => pgrNext 17 s
  | some r =>
    if (s.freezing && s.on F.DBG_FREEZE_PAGER) then s
    else match r.phase with
      | .undo => if s.on F.QTZ_STATUS_COMMIT_BUSY then s
          else (planUndo r s).setPgr fun p => { p with run := some { r with phase := .undone } }
      | .undone => if s.on F.QTZ_STATUS_COMMIT_BUSY then s
          else pgrNext 17 (s.setPgr fun p => { p with run := none })
      | .committed => doneRelocate r s
      | .blankA =>
        let leave := if r.cmd.op = 5 then bayOffline else bayBlank
        pgrNext 17 (pgrEnd r (blankDone r.cmd.bayA leave s))
      | .running => match r.cmd.op with
        | 1 => pgrNext 17 (doneCache r env.mem s)
        | 2 => pgrNext 17 (doneCapture r env.mem s)
        | 3 => pgrNext 17 (doneLoad r env.mem s)
        | 4 | 5 => s
        | 6 => pgrNext 17 (pgrResult r.cmd stOk false (pgrEnd r (blankDone r.cmd.bayA bayBlank s)))
        | 7 => pgrNext 17 (doneBist r env.pass s)
        | 8 => pgrNext 17 (doneReadback r env.mem s)
        | _ => pgrNext 17 (pgrResult r.cmd stOk false (pgrEnd r (s.setSlot r.cmd.slotNo {})))

def execPagerCommandDone (env : PgrEnv) (s : State) : Out := .next (pgrDone env s)

/-- The command under way is abandoned (13 R715). -/
def pgrAbandon (s : State) : State :=
  match s.pgr.run with
  | none => s
  | some r =>
    let a := r.cmd.bayA
    match r.phase with
    | .undo | .undone => s
    | .committed => pgrEnd r ((blankMix a (doneRelocate r s)).setBay a bayIncomplete)
    | .blankA => pgrEnd r ((blankMix a s).setBay a bayIncomplete)
    | .running => match r.cmd.op with
      | 1 | 2 => pgrResult r.cmd stAborted false (pgrEnd r (s.setSlot r.cmd.slotNo { s.slot r.cmd.slotNo with state := 0 }))
      | 4 | 5 => relocateAbandon r bayBlank stAborted s
      | 3 | 6 | 7 => pgrResult r.cmd stAborted false (pgrEnd r ((abandonMix r s).setBay a bayIncomplete))
      | 8 =>
        let n := Config.freeNat s.free % 10681
        let (fr, _, skipped) := readbackFrames a s
        let (_, s1) := framesWrite r.cmd.arg n fr {} s.fresh
        pgrResult r.cmd stAborted skipped (pgrEnd r (readbackEnd r s1))
      | _ => pgrResult r.cmd stAborted false (pgrEnd r s)

/-- ABORT, and a warm reset (13 R715): the command under way and the queue are abandoned. -/
def pgrAbort (s : State) : State :=
  let s1 := pgrAbandon s
  let q := s1.pgr.queue
  q.foldl (fun t c => pgrResult c stAborted false t) (s1.setPgr fun p => { p with queue := [] })

/-- The Pager rewrites the rim frames of slabs whose rail has returned, while it is enabled and its copy exists (21 R997). -/
def rimRestore (s : State) : State :=
  let ks := s.pgr.rimDue.filter s.railUp
  if !s.on F.PGR_CTRL_EN || !s.pgr.rimTaken || ks.isEmpty then s
  else
    let s1 := s.each (s.pgr.rim.filter fun e => ks.contains (farSlab e.1)) fun t e => t.putFrame e.1 e.2
    (configureRim ks s1).setPgr fun p => { p with rimDue := p.rimDue.filter fun k => !ks.contains k }

/-- A write of PGR_CTRL. -/
def pgrCtrlWrite (w : Nat) (s : State) : State :=
  let s1 := (s.put F.PGR_CTRL_EN 0 w).setPgr fun p => { p with ever := p.ever || bit w 0 }
  (rimRestore s1).when (bit w 1) pgrAbort

def execPagerAbort (w : W32) (s : State) : Out := .next (pgrCtrlWrite (w ||| 2).toNat s)

/-! Slab fences (13 R692, 20 R988) -/

/-- Slab `k` is fenced: its bays and bridge, its ICP load abandoned, and a relocation of its bays before the commit step. -/
def slabShut (k : Nat) (s : State) : State :=
  if s.slabFenced k then s
  else
    let s1 := s.each (slabBays k) fun t b => fenceBay b bySlab false t
    let s2 := qtzSlabShut k (s1.putBit F.FEN_SLAB_STATUS_FENCED 0 k true)
    let s3 := icpAbort k s2
    match s3.pgr.run with
    | some r => if r.relocating && (r.cmd.bayA / 16 == k || r.cmd.bayB / 16 == k)
        then relocateAbandon r bayIncomplete stAborted s3 else s3
    | none => s3

/-- The bridge of a slab reopens, its rail being present; the bays stay fenced (13 R692). -/
def slabReopen (k : Nat) (s : State) : State :=
  if s.slabFenced k && s.railUp k then qtzSlabOpen k (s.putBit F.FEN_SLAB_STATUS_FENCED 0 k false) else s

/-- A write of FEN_SLAB_CTRL (13 R692); a 0 for a slab without its rail is ignored. -/
def fenSlabWrite (w : Nat) (s : State) : State :=
  s.each (List.range 4) fun t k =>
    if bit w k then slabShut k (t.putBit F.FEN_SLAB_CTRL_FENCE 0 k true)
    else if t.railUp k then slabReopen k (t.putBit F.FEN_SLAB_CTRL_FENCE 0 k false) else t

def execSlabFence (w : W32) (s : State) : Out := .next (fenSlabWrite w.toNat s)
def execSlabUnfence (w : W32) (s : State) : Out := .next (fenSlabWrite w.toNat s)

/-- FEN registers whose write is more than its access codes. -/
def fenWrite (s : State) (r : Reg) (i w : Nat) : Option State :=
  if r = R.FEN_BAY_CTRL then some (fenCtrlWrite i w .none s)
  else if r = R.FEN_SLAB_CTRL then some (fenSlabWrite w s)
  else none

/-! The scrubbers (13 R718 to R723) -/

/-- The frame a slab's scrubber takes next, and the frame after it with the pass count. -/
def State.scrubAt (s : State) (k : Nat) : Nat := s.pgr.scrub.get (mkFar k 0 0 0 0) k

def scrubMove (k : Nat) (s : State) : State :=
  match farNext (s.scrubAt k) with
  | some a => s.setPgr fun p => { p with scrub := p.scrub.set k a }
  | none => (s.setPgr fun p => { p with scrub := p.scrub.set k (mkFar k 0 0 0 0) }).bumpWrap F.SCB_STATUS_PASSES k

/-- The frame of a bay's golden copy, repositioned; none when it has none or it cannot be read. -/
def goldenFrame (b a : Nat) (s : State) : Option (List W32) × State :=
  match s.goldenOf b with
  | none => (none, s)
  | some n =>
    let x := plainRead pgrIni (s.slotFrame n (frameIndex a)) 512 {} s
    (if x.1.resp = .okay then some (placed (s.slot n).home b a (bytesWords x.1.bytes)) else none, x.2)

/-- Repairs a frame with a lasting error (13 R722, R723). -/
def scrubRepair (k a : Nat) (s : State) : State :=
  match farBay a with
  | none =>
    if s.pgr.rimTaken && s.pgr.ever then s.putFrame a (s.pgr.rim.get blankFrame a) else s.raise F.SCB_ERR_NO_GOLDEN k
  | some b =>
    let st := s.bayState b
    if st = bayBlank ∨ st = bayOffline then s.putFrame a blankFrame
    else
      let live := st == bayLive
      let s1 := s.when live fun t => (fenceBay b byScrubber false t).raise F.FEN_BAY_EVT_SCRUB_FENCE b
      match goldenFrame b a s1 with
      | (some ws, s2) => (s2.putFrame a ws).when (live && s2.on F.FEN_BAY_CTRL_AUTO_REOPEN b) (unfenceBay b .none)
      | (none, s2) => (s2.setBay b bayIncomplete).raise F.SCB_ERR_NO_GOLDEN k

/-- A lasting error is counted and logged (13 R721). -/
def scrubLasting (k a : Nat) (s : State) : State :=
  let s1 := (s.bumpHold F.SCB_UE_LASTING k).raise F.SCB_ERR_LASTING k
  if s1.on F.SCB_LOG_VALID k then s1 else s1.wr R.SCB_LOG k (BitVec.ofNat 64 (a + 2 ^ 63))

/-- A frame is read unless its bay is LOADING, TESTING or off (13 R719). -/
def State.scrubReads (s : State) (k a : Nat) : Bool :=
  s.railUp k && (match farBay a with
    | some b => s.domOn b && s.bayState b != bayLoading && s.bayState b != bayTesting
    | none => true)

/-- A scrubber takes its next frame (13 R719 to R723). The bits of a frame with a lasting error are open once, when they are struck, and
stay so until the frame is written. -/
def execScrubFrameRead (slab : Fin 4) (first second : Upset) (s : State) : Out :=
  .next <|
    let k := slab.val
    let a := s.scrubAt k
    if !s.on F.SCB_CTRL_EN k then s
    else if !s.scrubReads k a then scrubMove k s
    else
      let m := meet (s.frame a) (s.fabric.frameFlaw.get .none a) first s.openFrame
      let s1 := (scrubMove k s).when m.fresh (·.fresh)
      match m.seen with
      | .none => s1.keepFrame a m.word m.flaw
      | .single => ((s1.bumpHold F.SCB_CORRECTED_COUNT k).raise F.SCB_ERR_CORRECTED k).keepFrame a m.word .none
      | .double =>
        let n := meet m.word m.flaw second s1.openFrame
        let s2 := s1.when n.fresh (·.fresh)
        match n.seen with
        | .double => scrubRepair k a (scrubLasting k a (s2.keepFrame a n.word n.flaw))
        | .single => ((s2.bumpHold F.SCB_UE_TRANSIENT k).raise F.SCB_ERR_TRANSIENT k).keepFrame a n.word .none
        | .none => ((s2.bumpHold F.SCB_UE_TRANSIENT k).raise F.SCB_ERR_TRANSIENT k).keepFrame a n.word n.flaw

/-! Register views -/

/-- PGR registers that are computed when read. -/
def pgrView (s : State) (r : Reg) (_i : Nat) : Option Nat :=
  if r = R.PGR_STATUS then
    let held := (s.pgr.run.map fun r => r.plan.isSome && r.phase != .committed && r.phase != .blankA).getD false
    some (ofFlag s.pgr.run.isSome + s.pgr.queue.length * 2 + s.pgr.results.length * 64 + ofFlag held * 2048)
  else if r = R.PGR_SLOT_INFO then
    let n := s.get F.PGR_SLOT_SEL_SLOT
    let x := s.slot n
    let used := (List.range 64).any fun b => s.on F.FEN_BAY_STATUS_GOLDEN b && s.get F.FEN_BAY_STATUS_SLOT b == n
    some (x.state + x.home * 4 + ofFlag x.quartz * 256 + x.border * 512 + x.plans.length * 8192 + ofFlag used * 131072)
  else none

/-- PGR registers whose write is more than its access codes (13 R705, R727). -/
def pgrWrite (s : State) (r : Reg) (i w : Nat) : Option State :=
  if r = R.PGR_CTRL then some (pgrCtrlWrite w s)
  else if r = R.PGR_CMD then some (pgrSubmit (BitVec.ofNat 64 w) s)
  else if r = R.PGR_ICP_CTRL then some (icpCtrlWrite i w s)
  else if r = R.PGR_CACHE_BASE ∨ r = R.PGR_CACHE_SLOTS then
    some (if s.on F.PGR_CTRL_EN then s.raise F.PGR_ERR_CMD_REFUSED
      else s.wrCodes r i (BitVec.ofNat 64 (if r = R.PGR_CACHE_SLOTS then min w 256 else w)) false)
  else none

end Sys2Proof.Machine
end

