-- ==== Sys2Proof/Machine/Power.lean ====
section
/-! DEFINITION. Power domains, power states, wake sources and comparators (17 R888 to R907). -/

namespace Sys2Proof.Machine

def State.setPower (s : State) (g : Power → Power) : State := { s with power := g s.power }

/-! Domains -/

/-- The rail of a domain: VCC_FAB of a slab, or VCC_HUB as 4 (17 R891). -/
def domRail (d : Nat) : Nat := if d < 64 then d / 16 else if d < 76 then (d - 64) / 3 else 4

/-- PWR_DOM_ON asks for the domain. -/
def State.domWanted (s : State) (d : Nat) : Bool := bit (s.get F.PWR_DOM_ON_ON (d / 32)) (d % 32)

def State.domSwitching (s : State) (d : Nat) : Bool := s.power.switching.any fun e => e.1 == d

/-- The lanes and PLLs of a lane group lose power (03 R154). -/
def laneGroupOff (g : Nat) (s : State) : State :=
  let q0 := g / 3 * 12 + g % 3 * 4
  s.each (List.range 4) fun t j =>
    let t1 := t.wr R.LNE_QPLL_STATUS (q0 + j) 0
    t1.each (quadLanes (q0 + j)) fun u n =>
      let u1 := ((((laneUnlock n false u).setLane n {}).wr R.LNE_LANE_STATUS n 0).wr R.LNE_TAPS n 0).wr R.LNE_BITSLIP n 0
      (u1.clear F.LNE_RX_LAT_MEASURED n).clear F.LNE_PRBS_LOCK n

/-- The lanes of a group whose EN is 1 start as the power comes on (01 R44, 03 R122, R154). -/
def laneGroupUp (g : Nat) (s : State) : State :=
  let n0 := g / 3 * 48 + g % 3 * 16
  s.each (((List.range 16).map (n0 + ·)).filter fun n => s.on F.LNE_LANE_CTRL_EN n) fun t n =>
    lanePstate n (BitVec.ofNat 2 (t.get F.LNE_LANE_CTRL_PSTATE n)) (laneStart n t)

/-- Bay `b` loses its power (13 R686, 01 R55): fenced, BLANK, everything in it lost. -/
def bayOff (b : Nat) (s : State) : State :=
  let s1 := bayToBlank b (fenceBay b byBlanking false s)
  { s1 with slices := s1.slices.filter fun e => e.1.1 != b,
            brams := s1.brams.filter fun e => blkBay e.1 != b,
            fifos := s1.fifos.filter fun e => blkBay e.1 != b }

/-- A scratchpad group loses its power: merge buffers drain, banks not retained lose their contents (15 R811, R819, R820). -/
def spdGroupOff (g : Nat) (s : State) : State :=
  s.each ((List.range 8).map (g * 8 + ·)) fun t b =>
    let t1 := (spdDrain b t).setBank b {}
    if bit (t.get F.PWR_RETAIN_BANKS) b then t1 else spdLose b t1

/-- What a domain's power-off does to its unit (17 R889, R890). -/
def unitOff (d : Nat) (s : State) : State :=
  if d < 64 then bayOff d s
  else if d < 76 then laneGroupOff (d - 64) s
  else if d < 84 then coreReset (d - 76) s
  else if d = 84 then vrdPowerOff s
  else if d = 85 then ldgPowerOff s
  else if d < 90 then spdGroupOff (d - 86) s
  else if d < 94 then chanPowerOff (d - 90) s
  else portStop (d - 94) s

/-- A domain goes off. -/
def domOff (d : Nat) (s : State) : State :=
  if !s.domOn d then s
  else gateSettle ((unitOff d s).putBit F.PWR_DOM_STATE_ON (d / 32) (d % 32) false)

/-- A domain comes on; a bay of it is blanked, a core whose RUN is 1 starts (17 R891). -/
def domUp (d : Nat) (s : State) : State :=
  if s.domOn d then s
  else
    let s1 := gateSettle (s.putBit F.PWR_DOM_STATE_ON (d / 32) (d % 32) true)
    if d < 64 then bayToBlank d s1
    else if d < 76 then laneGroupUp (d - 64) s1
    else if 76 ≤ d ∧ d < 84 ∧ s1.coreRuns (d - 76) then coreBegin (d - 76) s1
    else s1

/-- The device's domains are powered as PWR_DOM_ON asks: not in STANDBY, HIBERNATE or OFF. -/
def State.domainsServed (s : State) : Bool := s.get F.PWR_STATE_CURRENT < 2 || s.on F.PWR_STATE_EMULATED

def execDomainPowerOff (d : DomId) (s : State) : Out :=
  .next <|
    if !s.domOn d || s.domWanted d || s.domSwitching d then s
    else (domOff d.val s).setPower fun p => { p with switching := p.switching ++ [(d.val, false)] }

/-- A rail ramps one domain at a time, in domain order (17 R891). -/
def State.rampFree (s : State) (d : Nat) : Bool :=
  !(s.power.switching.any fun e => e.2 && domRail e.1 == domRail d)
    && !((List.range d).any fun e => domRail e == domRail d && s.domWanted e && !s.domOn e && !s.domSwitching e)

def execDomainPowerOn (d : DomId) (s : State) : Out :=
  .next <|
    let rail := domRail d == 4 || s.railUp (domRail d)
    if s.domOn d || !s.domWanted d || s.domSwitching d || !s.domainsServed || !rail || !s.rampFree d then s
    else (domUp d.val s).setPower fun p => { p with switching := p.switching ++ [(d.val, true)] }

/-- A switch completes (17 R892). -/
def execDomainDone (d : DomId) (s : State) : Out :=
  .next <|
    if !s.domSwitching d then s
    else (s.setPower fun p => { p with switching := p.switching.filter fun e => e.1 != d.val }).raise F.PWR_ERR_DOMAIN_DONE

/-- The warden denies a POWER_DOMAIN request of core `n` (17 R888). -/
def State.domDenied (s : State) (n d : Nat) (on : Bool) : Bool :=
  if d = 76 + n then true
  else if on then false
  else if d = 85 then s.on F.LDG_STATUS_RUNNING
  else if d = 84 then (List.range 8).any fun p => s.on F.VRD_PORT_CTRL_EN p
  else if 86 ≤ d ∧ d < 90 then
    (s.on F.LDG_STATUS_RUNNING && (tierBanks s).any fun b => b / 8 == d - 86) || (d == 89 && s.coreRuns 0)
  else if 90 ≤ d ∧ d < 94 then s.poolInService (d - 90)
  else if 76 ≤ d ∧ d < 84 then !s.on F.WDG_CORE_STATUS_OFFLINE (d - 76)
  else false

def execPowerDomain (box : BoxId) (s : State) : Out :=
  .next <| reqServe box.val 3 (fun t =>
    let d := (t.boxArg box 0).toNat
    let on := (t.boxArg box 1).toNat
    if 96 ≤ d ∨ 1 < on then .ends reqBadArg
    else if t.domDenied box d (on == 1) then .ends reqDenied
    else .does 0 fun u => u.putBit F.PWR_DOM_ON_ON (d / 32) (d % 32) (on == 1)) s

/-! Comparators (17 R905 to R907) -/

/-- The value of a sample or threshold: temperatures are two's complement. -/
def cmpInt (sel v : Nat) : Int := if 4 ≤ sel ∧ sel ≤ 8 then (BitVec.ofNat 12 v).toInt else v

def cmpSample (c v : Nat) (s : State) : State :=
  if !s.on F.PWR_CMP_CTRL_EN c then s
  else
    let s0 := s.put F.PWR_CMP_STATUS_VALUE c v
    let sel := s.get F.PWR_CMP_CTRL_SEL c
    if 17 ≤ sel then { s0.clear F.PWR_CMP_STATUS_OUT c with cmpRuns := s0.cmpRuns.set c 0 }
    else
      let x := cmpInt sel v
      let th := cmpInt sel (s.get F.PWR_CMP_CTRL_THRESH c)
      let hy : Int := s.get F.PWR_CMP_CTRL_HYST c
      let below := s.on F.PWR_CMP_CTRL_DIR c
      let met := if below then decide (x ≤ th) else decide (th ≤ x)
      let falls := if below then decide (th + hy < x) else decide (x < th - hy)
      let run := if met then s.cmpRuns.get 0 c + 1 else 0
      let s1 := { s0 with cmpRuns := s0.cmpRuns.set c (min run 16) }
      if s.on F.PWR_CMP_STATUS_OUT c then (if falls then s1.clear F.PWR_CMP_STATUS_OUT c else s1)
      else if s.get F.PWR_CMP_CTRL_FILTER c + 1 ≤ run then
        (s1.raise F.PWR_CMP_STATUS_OUT c).raise F.PWR_CMP_STATUS_ROSE c
      else s1

/-! Power states (17 R893 to R904) -/

def pwrRun : Nat := 0
def pwrIdle : Nat := 1
def pwrStandby : Nat := 2
def pwrHibernate : Nat := 3
def pwrOff : Nat := 4

/-- Every user I/O and service pin goes under its pad hold latch (04 R207). -/
def padsHold (s : State) : State := uioHold (svcLatch s)

/-- A software release of held pads (17 R901). -/
def pwrCtrlWrite (w : Nat) (s : State) : State := if bit w 0 then padsRelease s else s

def execPadRelease (w : W32) (s : State) : Out := .next (pwrCtrlWrite w.toNat s)

/-- Synthesisers stop for STANDBY (17 R896 step 5). -/
def synthsStop (s : State) : State :=
  let on := (List.range 54).filter fun n => s.on F.CKG_SYN_CTRL_EN n
  let s1 := s.each on fun t n =>
    let t1 := synStop n (synUnlock n (t.put F.CKG_SYN_STATUS_STATE n synOff))
    t1.setSynth n { t1.synth n with relock := none }
  s1.setPower fun p => { p with synths := on }

/-- The Quartz PLL stops; the timing port stays enabled (17 R896 step 5). -/
def quartzStop (s : State) : State :=
  if s.on F.TMG_CTRL_EN then (tmgStop s).raise F.TMG_CTRL_EN else s

/-- Domains are switched off one after the other; the completion of a switch is an event (17 R892, R896). -/
def domsOff (ds : List Nat) (s : State) : State :=
  (s.each ds fun t d => domOff d t).when (ds.any s.domOn) (·.raise F.PWR_ERR_DOMAIN_DONE)

/-- Steps 1 to 5 of STANDBY entry (17 R896): pads held, cores stopped, domains off, clocks stopped. -/
def standbySteps (s : State) : State :=
  let s0 := padsHold (s.raise F.PWR_STATE_IN_TRANSITION)
  let ran := (List.range 8).filter s.coreRuns
  let s1 := (s0.each ran fun t n => coreEnd n t).setPower fun p => { p with ran := ran, switching := [] }
  let s2 := domsOff ((List.range 76) ++ [84, 85, 94, 95, 90, 91, 92, 93]) s1
  quartzStop (synthsStop (domsOff ((List.range 8).map (76 + ·) ++ [86, 87, 88, 89]) s2))

/-- The enabled wake sources that are active: comparators' outputs, and the interrupt of a pin enabled for wake (17 R902,
R903). -/
def State.wakesActive (s : State) : List Nat :=
  let en := s.get F.PWR_WAKE_EN_EN
  (List.range 9).filter fun k => bit en k &&
    (if k < 8 then s.on F.PWR_CMP_STATUS_OUT k
     else (List.range 64).any fun p => s.on F.SVP_PIN_CTRL_WAKE p && s.on F.SVP_PIN_STATUS_IRQ p)

/-- Step 4 and 5 of the exit from STANDBY (17 R897). -/
def standbyFinish (s : State) : State :=
  let s1 := s.each s.power.ran fun t n => if t.coreRuns n then t else coreCtrlWrite n (t.rd R.WDG_CORE_CTRL n ||| 1) t
  let s2 := (s1.setPower fun p => { p with ran := [], resume := false }).put F.PWR_STATE_CURRENT 0 pwrRun
  ((s2.put F.PWR_STATE_FROM 0 pwrStandby).clear F.PWR_STATE_IN_TRANSITION).raise F.PWR_ERR_EXIT_DONE

/-- The exit from STANDBY (17 R897). When banks 30 and 31 were not both retained, the steward image is reloaded before the
cores start. -/
def standbyExit (s : State) : State :=
  let s1 := s.raise F.PWR_STATE_IN_TRANSITION
  let s2 := (s1.each (s1.power.synths.filter (· < 51)) fun t n => synRelock n false t).setPower fun p => { p with synths := [] }
  let due := (List.range 96).filter fun d => s2.domWanted d && (domRail d == 4 || s2.railUp (domRail d))
  let s3 := (s2.each due fun t d => domUp d t).when (due.any fun d => !s2.domOn d) (·.raise F.PWR_ERR_DOMAIN_DONE)
  let kept := bit (s3.get F.PWR_RETAIN_BANKS) 30 && bit (s3.get F.PWR_RETAIN_BANKS) 31
  if kept then standbyFinish s3
  else (s3.setPower fun p => { p with resume := true }).setWarden fun w => { w with booting := true, feed := [] }

/-- nRESET and power-on reset leave every register at its reset value and no bank retained (20 R978 to R980): what stands is
fuse values, rails, the levels at pins, and the record of the outside world. -/
def deviceReset (s : State) : State :=
  { State.reset with
    pending := s.pending, free := s.free, ans := s.ans, fuses := s.fuses, railsOff := s.railsOff, supplyOff := s.supplyOff
    svc := { high := s.svc.high }, ktp := { sent := s.ktp.sent }
    fabric := { bankOff := s.fabric.bankOff, vcco := s.fabric.vcco } }

/-- The slabs without their rail are fenced, as a reset finds them (21 R996). -/
def railsFence (s : State) : State := s.each s.railsOff fun t k => t.putBit F.FEN_SLAB_STATUS_FENCED 0 k true

/-- The Geode base domain returns after HIBERNATE: reset as nRESET resets it, but for the state of R898 (17 R899). The straps
stand as last sampled, and the scan port's TAP has worked on (19 R941, R959). -/
def hibernateExit (s : State) : State :=
  let t := railsFence (deviceReset s)
  let keep := [R.PWR_RETAIN, R.PWR_WAKE_EN, R.PWR_WAKE_CAUSE]
  let t1 := t.each keep fun u r => u.wr r 0 (s.rd r 0)
  let t2 := t1.each (List.range 8) fun u c => u.wr R.PWR_CMP_CTRL c (s.rd R.PWR_CMP_CTRL c)
  let rb := (List.range 32).filter fun b => bit (s.get F.PWR_RETAIN_BANKS) b
  let inBank := fun (a : Nat) => spdBase ≤ a && a < spdBase + 32 * 2 ^ 20 && rb.contains (bankOf a)
  let t3 := { t2 with
    mem := s.mem.filter fun c => inBank c.1
    wordFlaw := s.wordFlaw.filter fun e => inBank (e.1 * 8)
    svc := { t2.svc with latch := s.svc.latch }
    fabric := { t2.fabric with pins := s.fabric.pins.filter fun e => e.2.held.isSome }
    cmpRuns := s.cmpRuns, dbg := { t2.dbg with ir := s.dbg.ir, cells := s.dbg.cells, captured := s.dbg.captured } }
  let t4 := t3.each rb fun u b => u.wr R.SPD_OWN b (s.rd R.SPD_OWN b)
  let t5 := cfgRestart .nReset (s.get F.CFG_STATUS_MODE) (s.get F.CFG_STATUS_ID) t4
  (t5.put F.PWR_STATE_FROM 0 pwrHibernate).raise F.PWR_ERR_EXIT_DONE

/-- The device wakes from the state that it is in (17 R895, R897, R899, R966). -/
def wakeUp (s : State) : State :=
  let cur := s.get F.PWR_STATE_CURRENT
  if s.on F.PWR_STATE_EMULATED then
    ((s.put F.PWR_STATE_CURRENT 0 pwrRun).clear F.PWR_STATE_EMULATED).raise F.PWR_ERR_EXIT_DONE
  else if cur = pwrIdle then (s.put F.PWR_STATE_CURRENT 0 pwrRun).put F.PWR_STATE_FROM 0 pwrIdle
  else if cur = pwrStandby then standbyExit s
  else if cur = pwrHibernate then hibernateExit s
  else s

/-- A wake that was active at entry is replayed: the exit begins at once (17 R902). -/
def wakeReplay (s : State) : State :=
  if s.wakesActive.isEmpty then s
  else (wakeUp (s.each s.wakesActive fun t k => t.putBit F.PWR_WAKE_CAUSE_CAUSE 0 k true)).raise F.PWR_ERR_REPLAY

/-- The entry of a power state, as a whole (17 R893 to R900). -/
def pwrEnter (st : Nat) (s : State) : State :=
  let s0 := s.put F.PWR_STATE_TARGET 0 st
  if st = pwrIdle then wakeReplay ((s0.put F.PWR_STATE_CURRENT 0 pwrIdle).raise F.PWR_ERR_ENTRY_DONE)
  else if st = pwrStandby then
    let s1 := ((standbySteps s0).put F.PWR_STATE_CURRENT 0 pwrStandby).raise F.PWR_ERR_ENTRY_DONE
    wakeReplay (s1.clear F.PWR_STATE_IN_TRANSITION)
  else if st = pwrHibernate then
    let s1 := (standbySteps s0).put F.PWR_STATE_CURRENT 0 pwrHibernate
    wakeReplay ((s1.clear F.PWR_STATE_IN_TRANSITION).setPower fun p => { p with asleep := true })
  else if st = pwrOff then
    let s1 := (standbySteps s0).put F.PWR_STATE_CURRENT 0 pwrOff
    let s2 := (s1.clear F.PWR_STATE_IN_TRANSITION).put F.PWR_WAKE_EN_EN 0 0
    s2.setPower fun p => { p with asleep := true, powerOff := true }
  else s0.put F.PWR_STATE_CURRENT 0 pwrRun

/-- The debugger is attached (19 R951). -/
def State.attached (s : State) : Bool := 3 ≤ s.dbg.level

/-- The state a request asks for: emulated while the debugger is attached (17 R904). -/
def pwrAsk (st : Nat) (s : State) : State :=
  if s.attached && 1 ≤ st && st ≤ 3 then
    ((s.put F.PWR_STATE_TARGET 0 st).put F.PWR_STATE_CURRENT 0 st).raise F.PWR_STATE_EMULATED
  else if st = pwrRun then (pwrEnter st s).clear F.PWR_STATE_EMULATED
  else pwrEnter st s

def execPowerState (box : BoxId) (s : State) : Out :=
  .next <| reqServe box.val 4 (fun t =>
    let st := (t.boxArg box 0).toNat
    if 4 < st then .ends reqBadArg
    else if t.on F.PWR_STATE_IN_TRANSITION then .ends reqDenied
    else .does 0 (pwrAsk st)) s

/-- A wake source fires (17 R895, R902, R903): it acts while its bit is enabled and the device is not in RUN. -/
def wakeFire (k : Nat) (s : State) : State :=
  let cur := s.get F.PWR_STATE_CURRENT
  if !bit (s.get F.PWR_WAKE_EN_EN) k || cur = pwrRun || cur = pwrOff || (k = 11 && cur != pwrIdle) then s
  else wakeUp (s.putBit F.PWR_WAKE_CAUSE_CAUSE 0 k true)

def execWake (k : Fin 12) (s : State) : Out := .next (wakeFire k.val s)

/-- A sample of a comparator; a rise of its output wakes the device (17 R905 to R907). -/
def execComparatorSample (c : Fin 8) (v : BitVec 12) (s : State) : Out :=
  .next <|
    let s1 := cmpSample c.val v.toNat s
    s1.when (!s.on F.PWR_CMP_STATUS_OUT c && s1.on F.PWR_CMP_STATUS_OUT c) (wakeFire c.val)

/-- An event source rises (18 R928); one routed to a Clove core ends IDLE (17 R895). -/
def execEventSourceRise (n : SourceId) (stays : Bool) (s : State) : Out :=
  .next <|
    let (s1, toCore) := evcRise n.val stays s
    let s2 := svcSend s1
    if toCore && s2.get F.PWR_STATE_CURRENT == pwrIdle then
      wakeUp (s2.when (bit (s2.get F.PWR_WAKE_EN_EN) 11) (·.putBit F.PWR_WAKE_CAUSE_CAUSE 0 11 true))
    else s2

def pwrWrite (s : State) (r : Reg) (_i w : Nat) : Option State :=
  if r = R.PWR_CTRL then some (pwrCtrlWrite w s) else none

end Sys2Proof.Machine
end

