-- ==== Sys2Proof/Machine/RunControl.lean ====
section
/-! DEFINITION. The DBG unit: run control, stimulus trace and virtual terminals (19 R960 to R971). -/

namespace Sys2Proof.Machine

/-! Who may reach the DBG unit (19 R970, R971) -/

/-- The run-control, freeze and cross-trigger registers. -/
def dbgControl (r : Reg) : Bool :=
  r == R.DBG_HALT || r == R.DBG_RESUME || r == R.DBG_STEP || r == R.DBG_RESET_HALT || r == R.DBG_BREAK_HALT
    || r == R.DBG_CORE_STATUS || r == R.DBG_FREEZE || r == R.DBG_FREEZE_BAY || r == R.DBG_XT_PULSE || r == R.DBG_XT_CH

def dbgTerminal (r : Reg) : Bool := r == R.DBG_VT_OUT || r == R.DBG_VT_IN || r == R.DBG_VT_STATUS

/-- The bits of a register that stand for Saffron. -/
def saffronBits (r : Reg) : Nat :=
  if r = R.DBG_XT_CH then 0x1000100
  else if r = R.DBG_HALT ∨ r = R.DBG_RESUME ∨ r = R.DBG_STEP ∨ r = R.DBG_RESET_HALT ∨ r = R.DBG_BREAK_HALT
      ∨ r = R.DBG_FREEZE then 0x100
  else 0

/-- The level that the debug port needs for core `n`. -/
def dbgNeeds (n : Nat) : Nat := if n = 8 then 4 else 3

/-- An access to a DBG register is denied; `changes` are the bits of the register that a write sets or alters. -/
def State.dbgDenied (s : State) (r : Reg) (i ini priv changes : Nat) : Bool :=
  let lv := s.dbg.level
  if dbgControl r then
    ini != 0x49 || decide (lv < 3) || (decide (lv < 4) && ((r == R.DBG_CORE_STATUS && i == 8)
      || (BitVec.ofNat 64 changes &&& BitVec.ofNat 64 (saffronBits r)) != 0))
  else if dbgTerminal r then
    if ini = 0x49 then decide (lv < dbgNeeds i) else ini != coreIni i
  else if r = R.DBG_STIM_EN then !(ini == 0x49 || (0x40 ≤ ini && ini ≤ 0x48 && (priv == 1 || priv == 2)))
  else false

/-! Register effects -/

/-- DBG registers that are computed when read. -/
def dbgView (s : State) (r : Reg) (_i : Nat) : Option Nat :=
  if r = R.DBG_TRACE_STATUS then
    some (withField (s.rd r 0).toNat F.DBG_TRACE_STATUS_FILL ((s.dbg.trace.map List.length).sum / 16))
  else none

/-- DBG_HALT: a halt request to each core named. -/
def dbgHaltWrite (w : Nat) (s : State) : State := s.each (List.range 9) fun t n => if bit w n then haltAsk n t else t

/-- DBG_RESUME. -/
def dbgResumeWrite (w : Nat) (s : State) : State := s.each (List.range 9) fun t n => if bit w n then resumeCore n t else t

/-- DBG_STEP: a halted core is to issue one instruction (19 R962). -/
def dbgStepWrite (w : Nat) (s : State) : State :=
  s.each (List.range 9) fun t n => if bit w n && t.coreHalted n then t.modCore n fun c => { c with stepping := true } else t

/-- DBG_XT_PULSE. -/
def dbgPulseWrite (w : Nat) (s : State) : State := xtPulse ((List.range 16).filter fun c => bit w c) s

/-- A write of DBG_VT_OUT of core `i`: the core's word (19 R970); the debugger only reads it. -/
def vtOut (i w ini : Nat) (s : State) : State :=
  if ini ≠ coreIni i then s
  else if s.on F.DBG_VT_STATUS_OUT_FULL i then s.raise F.DBG_VT_STATUS_OVERRUN i
  else (s.put F.DBG_VT_OUT_DATA i w).raise F.DBG_VT_STATUS_OUT_FULL i

/-- A write of DBG_VT_IN of core `i`: the debugger's word; the core only reads it. -/
def vtIn (i w ini : Nat) (s : State) : State :=
  if ini ≠ 0x49 then s else ((s.put F.DBG_VT_IN_DATA i w).raise F.DBG_VT_STATUS_IN_FULL i).raise F.DBG_ERR_VT_IN

/-- What a read of a terminal register takes (19 R970). -/
def vtTake (r : Reg) (i ini : Nat) (quiet : Bool) (s : State) : State :=
  if quiet then s
  else if r = R.DBG_VT_OUT ∧ ini = 0x49 then s.clear F.DBG_VT_STATUS_OUT_FULL i
  else if r = R.DBG_VT_IN ∧ ini = coreIni i then s.clear F.DBG_VT_STATUS_IN_FULL i
  else s

/-- DBG registers whose write is more than its access codes. -/
def dbgWrite (s : State) (r : Reg) (i w ini : Nat) : Option State :=
  if r = R.DBG_HALT then some (dbgHaltWrite w s)
  else if r = R.DBG_RESUME then some (dbgResumeWrite w s)
  else if r = R.DBG_STEP then some (dbgStepWrite w s)
  else if r = R.DBG_XT_PULSE then some (dbgPulseWrite w s)
  else if r = R.DBG_FREEZE then some (withFreeze (fun t => t.wrCodes r i (BitVec.ofNat 64 w) false) s)
  else if r = R.DBG_VT_OUT then some (vtOut i w ini s)
  else if r = R.DBG_VT_IN then some (vtIn i w ini s)
  else none

/-- The bits that a write of a DBG register sets or alters. -/
def State.dbgChanges (s : State) (r : Reg) (i w : Nat) : Nat :=
  if r.rw = 0 then w else ((s.rd r i ^^^ BitVec.ofNat 64 w) &&& BitVec.ofNat 64 r.rw).toNat

/-! Stimulus trace (19 R967 to R969) -/

/-- A trace packet: KIND, CORE, PORT, LEN, CYCLE or packets lost, CN, and the bytes stored padded to a multiple of 8. -/
def tracePacket (kind core port cycle cn : Nat) (data : List Byte) : List Byte :=
  natBytes kind 1 ++ natBytes core 1 ++ natBytes port 1 ++ natBytes data.length 1 ++ natBytes cycle 4 ++ natBytes cn 8
    ++ data ++ List.replicate ((8 - data.length % 8) % 8) 0

def traceBytes : Nat := 65536

/-- Places a packet in the trace buffer, after an overflow packet when packets were lost; a packet that does not fit is
discarded and counted. -/
def tracePut (p : List Byte) (s : State) : State :=
  let lostPkt := if s.dbg.lost = 0 then [] else [tracePacket 2 0xFF 0 s.dbg.lost s.cn []]
  let all := s.dbg.trace ++ lostPkt ++ [p]
  if (all.map List.length).sum ≤ traceBytes then
    svcSend (s.setDbg fun d => { d with trace := all, lost := 0 })
  else
    ((s.setDbg fun d => { d with lost := d.lost + 1 }).bumpHold F.DBG_TRACE_STATUS_LOST).raise F.DBG_ERR_TRACE_LOST

/-- A store to the DBG_STIM window at byte offset `off` of it (19 R967): the response and the state after. -/
def stimStore (ini off : Nat) (data : List Byte) (s : State) : Resp × State :=
  let n := data.length
  let port := off / 8
  if off % 8 ≠ 0 ∨ !(n == 1 || n == 2 || n == 4 || n == 8) then (.size, s)
  else if ini < 0x40 ∨ 0x48 ≤ ini then (.denied, s)
  else
    let core := ini - 0x40
    if bit (s.get F.DBG_STIM_EN_PORTS core) port then
      (.okay, tracePut (tracePacket 1 core port (Config.freeNat s.free) s.cn data) s.fresh)
    else (.okay, s)

/-! Rows of the DBG unit -/

/-- A write by the debug port to a register of the DBG unit, as R971 lets it. -/
def dbgPortWrite (r : Reg) (i w : Nat) (s : State) : State :=
  if s.dbgDenied r i 0x49 3 (s.dbgChanges r i w) then s.answer .denied
  else ((dbgWrite s r i w 0x49).getD s).okay

def execDbgHalt (w : W32) (s : State) : Out := .next (dbgPortWrite R.DBG_HALT 0 w.toNat s)
def execDbgResume (w : W32) (s : State) : Out := .next (dbgPortWrite R.DBG_RESUME 0 w.toNat s)
def execDbgStep (w : W32) (s : State) : Out := .next (dbgPortWrite R.DBG_STEP 0 w.toNat s)
def execCrossTrigger (w : W32) (s : State) : Out := .next (dbgPortWrite R.DBG_XT_PULSE 0 w.toNat s)

/-- A deferred halt is forced (19 R961). -/
def execHaltForced (core : CoreId) (s : State) : Out :=
  .next <|
    if s.on F.DBG_CORE_STATUS_DEFERRED core.val && s.holdsResv core.val then
      haltFire core.val ((dropResv core.val s).raise F.DBG_CORE_STATUS_FORCED core.val)
    else s

def execStimulusStore (core : Fin 8) (off : Byte) (data : List Byte) (s : State) : Out :=
  .next (let (r, s1) := stimStore (coreIni core.val) off.toNat data s; s1.answer r)

def execVtOutWrite (core : CoreId) (w : W32) (s : State) : Out :=
  .next (vtOut core.val w.toNat (coreIni core.val) s).okay

def execVtInWrite (core : CoreId) (w : W32) (s : State) : Out :=
  .next <| if s.dbg.level < dbgNeeds core.val then s.answer .denied else (vtIn core.val w.toNat 0x49 s).okay

def execVtOutRead (core : CoreId) (quiet : Bool) (s : State) : Out :=
  .next <| if s.dbg.level < dbgNeeds core.val then s.answer .denied
    else (vtTake R.DBG_VT_OUT core.val 0x49 quiet s).okay (s.get F.DBG_VT_OUT_DATA core.val)

def execVtInRead (core : CoreId) (s : State) : Out :=
  .next ((vtTake R.DBG_VT_IN core.val (coreIni core.val) false s).okay (s.get F.DBG_VT_IN_DATA core.val))

end Sys2Proof.Machine
end

