-- ==== Sys2Proof/Machine/Bus.lean ====
section
/-! DEFINITION. The physical address map as a Sand request meets it: registers, windows and memory, with their access rules
(00 R5 to R18, 01 R35 to R47, 08 R387 to R418, 14 R768, R774, R784, R795). -/

namespace Sys2Proof.Machine

/-! Permissions -/

def isMailbox (r : Reg) : Bool :=
  r == R.KEY_REQ_CTRL || r == R.KEY_REQ_STATUS || r == R.KEY_REQ_ARG || r == R.KEY_REQ_RES0 || r == R.KEY_REQ_RES1

/-- A mailbox accepts its core at S, and Saffron (14 R774). -/
def boxDenied (b : Nat) (c : Acc) : Bool := !((c.ini == 0x40 + b && c.priv == 1) || c.ini == 0x48)

/-- A bay, or a core at U, may not write what R693 names. -/
def State.loadDenied (s : State) (c : Acc) : Bool :=
  (decide (c.ini < 64) && !bit (s.get F.PGR_ALLOW_BAYS) c.ini) || (decide (0x40 ≤ c.ini ∧ c.ini < 0x49) && c.priv == 0)

/-- A read that is DENIED (14 R774, R795, 19 R970, R971). -/
def State.readDenied (s : State) (r : Reg) (i : Nat) (c : Acc) : Bool :=
  if r.unit = 26 then
    if isMailbox r then boxDenied (if r = R.KEY_REQ_ARG then i / 4 else i) c
    else !(c.ini == 0x49 || (decide (0x40 ≤ c.ini ∧ c.ini < 0x49) && (c.priv == 1 || c.priv == 2)))
  else if r.unit = 24 then s.dbgDenied r i c.ini c.priv 0
  else false

/-- A register that only Saffron writes (14 R768, 17 R876). -/
def saffronOnly (r : Reg) (i : Nat) : Bool :=
  r.unit == 22 || (r.unit == 26 && !isMailbox r) || r == R.WDG_CORE_CTRL || r == R.WDG_CORE_STATUS
    || ((r == R.WDG_CTRL || r == R.WDG_LOAD || r == R.WDG_COUNT || r == R.WDG_KICK || r == R.WDG_STATUS) && i == 8)
    || r == R.SPD_OWN || r == R.SPD_HANDOVER
    || ((r == R.CKG_SYN_CTRL || r == R.CKG_SYN_FB || r == R.CKG_SYN_DIV || r == R.CKG_SYN_STATUS || r == R.CKG_SYN_EVT
        || r == R.CKG_SYN_EVT_EN) && 48 ≤ i && i ≤ 50)

/-- A write that is DENIED. -/
def State.writeDenied (s : State) (r : Reg) (i w : Nat) (c : Acc) : Bool :=
  if saffronOnly r i then c.ini != 0x48
  else if isMailbox r then boxDenied (if r = R.KEY_REQ_ARG then i / 4 else i) c
  else if r = R.CKG_GATE_TOP then s.rootDenied w c.ini
  else if r = R.PGR_CMD then s.loadDenied c
  else if r.unit = 24 then s.dbgDenied r i c.ini c.priv (s.dbgChanges r i w)
  else false

/-! Reading -/

/-- A register's value that is computed when it is read, by unit. -/
def unitView (s : State) (r : Reg) (i : Nat) : Option Nat :=
  match r.unit with
  | 0 => cfgView s r i
  | 1 => pgrView s r i
  | 3 => fenView s r i
  | 4 => tmgView s r
  | 5 => lneView s r i
  | 6 => nocView s r i
  | 7 => qtzView s r i
  | 8 => vrdView s r i
  | 9 => ldgView s r i
  | 10 => ethView s r i
  | 12 => ktpView s r i
  | 20 => evcView s r i
  | 21 => ckgView s r i
  | 23 => svpView s r i
  | 24 => dbgView s r i
  | 25 => wdgView s r i
  | 26 => keyView s r i
  | 27 => idnView s r i
  | _ => none

/-- The power domain that a register's live fields report on, and those fields (01 R45, R47); none in the base domain. -/
def liveOf (r : Reg) (i : Nat) : Option (Nat × Nat) :=
  if r = R.LNE_TAPS then some (laneDom i, 0x7FFFF)
  else if r = R.LNE_BITSLIP then some (laneDom i, 0x7F02)
  else if r = R.LNE_RX_LAT then some (laneDom i, 0x3FF0000)
  else if r = R.LNE_TX_LAT ∨ r = R.LNE_LANE_STATUS then some (laneDom i, 0xFFFFFFFF)
  else if r = R.LNE_PRBS then some (laneDom i, 0x10000)
  else if r = R.LNE_QPLL_STATUS then some (laneDom (i * 4), 3)
  else if r = R.VRD_STATUS ∨ r = R.VRD_PORT_LOOKUPS ∨ r = R.VRD_MAP then some (84, 0xFFFFFFFF)
  else if r = R.VRD_RBIST then some (84, 0x100)
  else if r = R.LDG_STATUS then some (85, 0xFF)
  else if r = R.LDG_OCC_TIER ∨ r = R.LDG_OCC_CTX ∨ r = R.LDG_OCC_PAGE ∨ r = R.LDG_FRAGS_IN ∨ r = R.LDG_ACCEPTS
      ∨ r = R.LDG_STR_CREDIT then some (85, 0xFFFFFFFF)
  else if r = R.LDG_POOL_STATUS then some (85, 0x21FFFFF)
  else if r = R.LDG_STR_STATUS then some (85, 0x7FFFF)
  else if r = R.ETH_STATUS then some (94 + i, 0x1F)
  else if r = R.ETH_RX_FRAMES ∨ r = R.ETH_TX_FRAMES then some (94 + i, 0xFFFFFFFF)
  else if r = R.DMC_STATUS then some (90 + i, 0x1F)
  else if r = R.DMC_TEMP then some (90 + i, 0xFF)
  else if r = R.DMC_UE_LIMIT then some (90 + i, 0xFFFF0000)
  else if r = R.WDG_CORE_STATUS ∧ i < 8 then some (76 + i, 7)
  else if r = R.SPD_OWN then some (86 + i / 8, 0x3FFF)
  else if r = R.SPD_HANDOVER then some (86 + i / 8, 0x80000000)
  else none

/-- The value of a register: live fields of a unit without power read 0 (01 R45). -/
def State.view (s : State) (r : Reg) (i : Nat) : W64 :=
  let v := match unitView s r i with
    | some v => BitVec.ofNat 64 v
    | none => s.rd r i
  match liveOf r i with
  | some (d, m) => if s.domOn d then v else v &&& ~~~(BitVec.ofNat 64 m)
  | none => v

/-- Clears the RC bits that a read has returned, those in `mask` (00 R13). -/
def rcTake (r : Reg) (i : Nat) (mask : W64) (s : State) : State :=
  match sliceReadClear s r with
  | some t => t
  | none => if r.rc = 0 then s else s.wr r i (s.rd r i &&& ~~~(BitVec.ofNat 64 r.rc &&& mask))

/-- Counts that run with time take a value before they are read (14 R788, 18 R938). -/
def countSample (r : Reg) (i : Nat) (s : State) : State :=
  if r = R.WDG_COUNT then wdgSample i s
  else if r = R.SVP_TMR_VAL ∧ s.get F.SVP_TMR_CTRL_MODE i = 1 ∧ !(s.freezing && s.on F.DBG_FREEZE_SVP) then
    (s.put F.SVP_TMR_VAL_COUNT i (Config.freeNat s.free % (s.get F.SVP_TMR_PERIOD_TICKS i + 1))).fresh
  else if r = R.SVP_FAN_TACH then (s.put F.SVP_FAN_TACH_COUNT i (Config.freeNat s.free)).fresh
  else s

/-- The whole value of a register as a read returns it, and the state after; a quiet read takes no side effect
(00 R13, R16, 08 R392). -/
def regRead (r : Reg) (i : Nat) (mask : W64) (c : Acc) (env : Env) (s : State) : W64 × State :=
  let by_ (t : State) : W64 × State := (t.ans.data, t)
  if r = R.TMG_MSG_DATA then by_ (tmgMsgRead c.quiet s)
  else if r = R.CFG_SLC_DATA_LO then by_ (sliceDataFetch c.quiet env.upset s)
  else if r = R.PGR_RESULT then by_ (pgrResultRead c.quiet s)
  else if r = R.SVP_UART_DATA then let (v, t) := uartDataGet i c.quiet s; (BitVec.ofNat 64 v, t)
  else if r = R.EVC_CLAIM then let (v, t) := evcClaim i c.quiet s; (BitVec.ofNat 64 v, t)
  else
    let s1 := countSample r i s
    (s1.view r i, if c.quiet then s1 else vtTake r i c.ini c.quiet (rcTake r i mask s1))

/-- A read of a register as one access, or of half a 64-bit one (00 R7, R8). -/
def regAccess (r : Reg) (i b n : Nat) (c : Acc) (env : Env) (s : State) : W64 × State :=
  let all := BitVec.allOnes 64
  if n = 8 ∨ r.bits = 32 then regRead r i all c env s
  else if b = 0 then
    let (v, t) := regRead r i all c env s
    (v &&& 0xFFFFFFFF, { t with halves := { t.halves with
      latched := t.halves.latched.set (c.ini, r.addr i) ((v >>> 32).setWidth 32) } })
  else match s.halves.latched.find (c.ini, r.addr i) with
    | some v => (v.setWidth 64, { s with halves := { s.halves with latched := s.halves.latched.erase (c.ini, r.addr i) } })
    | none => let (v, t) := regRead r i 0xFFFFFFFF00000000 c env s; (v >>> 32, t)

/-! Writing -/

/-- The effect of a write where it is more than the access codes, by unit. -/
def unitWrite (s : State) (r : Reg) (i w ini : Nat) : Option State :=
  match r.unit with
  | 0 => cfgWrite s r w
  | 1 => pgrWrite s r i w
  | 3 => fenWrite s r i w
  | 4 => tmgWrite s r w
  | 5 => lneWrite s r i w
  | 6 => nocWrite s r i w
  | 7 => qtzWrite s r i w
  | 8 => vrdWrite s r w
  | 9 => ldgWrite s r i w
  | 10 => ethWrite s r i w
  | 12 => ktpWrite s r i w
  | 13 => dmcWrite s r i w
  | 17 => meeWrite s r i w
  | 18 => spdRegWrite s r i w
  | 19 => dmaWrite s r i w
  | 20 => if r = R.EVC_SRC then some (evcSrcWrite i w ini s)
      else if r = R.EVC_COMPLETE then some (evcComplete i w s) else none
  | 21 => ckgWrite s r i w
  | 22 => pwrWrite s r i w
  | 23 => svpWrite s r i w
  | 24 => dbgWrite s r i w ini
  | 25 => wdgWrite s r i w
  | 26 => keyWrite s r i w
  | _ => none

/-- A write of a whole register: its locked fields stand, then its effect; the answer stands in the state (00 R13, R18,
14 R785, 01 R46). -/
def regWrite (r : Reg) (i w : Nat) (c : Acc) (s : State) : State :=
  let (v, s1) := lockStep r i w c.ini s.okay
  match unitWrite s1 r i v c.ini with
  | some t => t
  | none => s1.wrCodes r i (BitVec.ofNat 64 v) false

/-- What a write of the upper word alone joins (00 R9): the lower word held, or the register's present one, which is 0 for a
WO register. -/
def lowerWord (r : Reg) (i : Nat) (c : Acc) (s : State) : Nat :=
  match s.halves.held.find c.ini with
  | some (a, w) => if a = r.addr i then w.toNat else (s.view r i).toNat % 2 ^ 32
  | none => (s.view r i).toNat % 2 ^ 32

/-- The held lower word of an initiator is gone when it stood for this register. -/
def dropHeld (r : Reg) (i : Nat) (c : Acc) (s : State) : State :=
  match s.halves.held.find c.ini with
  | some (a, _) => if a = r.addr i then { s with halves := { s.halves with held := s.halves.held.erase c.ini } } else s
  | none => s

/-- The write of a register that passed its size check, as one access or as a half (00 R7, R9): the response and the state. -/
def regPut (r : Reg) (i b n w : Nat) (c : Acc) (s : State) : Resp × State :=
  let whole (v : Nat) (t : State) : Resp × State :=
    if t.writeDenied r i v c then (.denied, t) else let u := regWrite r i v c t; (u.ans.resp, u)
  if n = 8 ∨ r.bits = 32 then whole w s
  else if b = 0 then
    if s.writeDenied r i (s.rd r i).toNat c then (.denied, s)
    else (.okay, { s with halves := { s.halves with held := s.halves.held.set c.ini (r.addr i, BitVec.ofNat 32 w) } })
  else whole (lowerWord r i c s + w * 2 ^ 32) (dropHeld r i c s)

/-- A write of these bytes at byte `b` would be answered POWERED_DOWN: it starts an action of a unit without power (01 R46). A
lower half alone starts none (00 R9). Targets judge this before size and permission (08 R394). -/
def State.actionUnpowered (s : State) (r : Reg) (i b w : Nat) (c : Acc) : Bool :=
  (r == R.SPD_HANDOVER && !s.domOn (86 + i / 8)) ||
    (r.bits == 32 || b != 0 || 2 ^ 32 ≤ w) && (regWrite r i (w * 2 ^ (8 * b) % 2 ^ r.bits) c s).ans.resp == .poweredDown

/-! The register window -/

def csrRead (c : Acc) (a n : Nat) (env : Env) (s : State) : MemAns × State :=
  match csrWindow a with
  | .ingest _ => (⟨.denied, [], []⟩, s)
  | .icp .. | .stim _ => (⟨.okay, List.replicate n 0, []⟩, s)
  | .none => match csrFind a with
    | none => (⟨.unmapped, [], []⟩, s)
    | some (r, i, b) =>
      if !regFits r.bits b n then (⟨.size, [], []⟩, s)
      else if s.readDenied r i c then (⟨.denied, [], []⟩, s)
      else let (v, t) := regAccess r i b n c env s; (⟨.okay, natBytes v.toNat n, []⟩, t)

def csrWrite (c : Acc) (a : Nat) (data : List Byte) (s : State) : Resp × State :=
  let n := data.length
  match csrWindow a with
  | .ingest o => ldgIngest o c.poison data s
  | .icp k o =>
    if o % 4 ≠ 0 ∨ n % 4 ≠ 0 then (.size, s)
    else if s.loadDenied c then (.denied, s)
    else let t := icpData k o data s; (t.ans.resp, t)
  | .stim o => stimStore c.ini o data s
  | .none => match csrFind a with
    | none => (.unmapped, s)
    | some (r, i, b) =>
      if s.actionUnpowered r i b (bytesNat data) c then (.poweredDown, s)
      else if !regFits r.bits b n then (.size, s)
      else regPut r i b n (bytesNat data) c s

/-! The map with its registers -/

def busRead (c : Acc) (a n : Nat) (env : Env) (s : State) : MemAns × State := mapRead csrRead c a n env s
def busRead4K (c : Acc) (a n : Nat) (env : Env) (s : State) : MemAns × State := mapRead4K csrRead c a n env s
def busWrite4K (c : Acc) (a : Nat) (data : List Byte) (env : Env) (s : State) : Resp × State :=
  mapWrite4K csrWrite c a data env s
def busWrite (c : Acc) (a : Nat) (data : List Byte) (env : Env) (s : State) : Resp × State := mapWrite csrWrite c a data env s
def sandRead (c : Acc) (a n : Nat) (env : Env) (s : State) : MemAns × State := netRead csrRead c a n env s
def sandWrite (c : Acc) (a : Nat) (data : List Byte) (posted : Bool) (env : Env) (s : State) : Resp × State :=
  netWrite csrWrite c a data posted env s

/-- The data of a write packet: LEN + 1 bytes (08 R389). -/
def reqData (q : SandReq) : List Byte := (List.range (reqBytes q)).map fun k => q.data.getD k 0

/-- The privilege of a register access by an initiator: a core's own, 3 of any other (14 R731, 08 R387). -/
def State.accOf (s : State) (ini : Nat) (quiet : Bool) : Acc :=
  { ini, priv := if 0x40 ≤ ini ∧ ini ≤ 0x48 then (s.core (ini - 0x40)).priv.code else 3, quiet }

/-- What R396 counts as one target: a DDR5 channel, a scratchpad bank, a register unit, a Verdict replica window, a bay
window, or the boot ROM. -/
def sandTarget (a : Nat) : Nat × Nat :=
  if inDram a then (0, chanOf a) else if inSpd a then (1, bankOf a) else if inCsr a then (2, unitOf a)
  else if inVrd a then (3, a / 2 ^ 23) else if inBay a then (4, bayOfAddr a) else (5, 0)

/-- The flits of a packet's response: its data travel with READ_RSP where R390 gives it any. -/
def rspFlits (q : SandReq) (r : Resp) : Nat :=
  if q.op = .read ∧ hasData r then 1 + (q.addr.toNat % 32 + reqBytes q + 31) / 32 else 1

/-- The response of an open entry starts its way back (08 R395, R398). -/
def sandRespond (q : SandReq) (s : State) : State :=
  let ini := q.ini.val
  let m : Moving := {
    q, back := some (s.sand.gens.get 0 (ini, q.tag.toNat)), flits := rspFlits q s.ans.resp, left := rspFlits q s.ans.resp
    inp := 0x2000, path := s.linksTaken ini (addrPlace q.addr.toNat) (iniPlace ini) }
  { s with sand := { s.sand with moving := s.sand.moving ++ [m] } }

/-- A request that its target takes. The response of one that holds an outstanding entry travels on its own
(SAND_RESPONSE); otherwise the transaction ends here. A bay of a fenced slab sends nothing past its bridge (08 R418), and
nothing moves while the Geode base domain is off. -/
def sandServe (q : SandReq) (env : Env) (s : State) : State :=
  let ini := q.ini.val
  let a := q.addr.toNat
  let c : Acc := { ini, priv := q.priv.toNat, quiet := q.quiet, poison := !q.poison.isEmpty }
  let open_ := (s.sand.entries.find (ini, q.tag.toNat)).isSome && !reqPosted q
  if s.power.asleep || (decide (ini < 64) && (s.slabFenced (ini / 16) || !s.railUp (ini / 16))) then s
  else if inDram a && env.net.isNone && !s.cutOff ini a && !crosses4K a (reqBytes q) && s.dramHeld a (reqBytes q) then
    dramRequest { q with data := reqData q } env (!open_) s
  else match q.op with
    | .read =>
      if open_ then
        if s.cutOff ini a then sandRespond q (s.answer .link)
        else let (m, t) := busRead4K c a (reqBytes q) env s; sandRespond q (t.answerMem m)
      else let (m, t) := sandRead c a (reqBytes q) env s; t.answerMem m
    | .write =>
      if open_ then
        if s.cutOff ini a then sandRespond q (s.answer .link)
        else let (r, t) := busWrite4K c a (reqData q) env s; sandRespond q (t.answer r)
      else let (r, t) := sandWrite c a (reqData q) false env s; t.answer r
    | .writeP => (sandWrite c a (reqData q) true env s).2

/-- A packet stays on its way. -/
def keepMoving (m : Moving) (s : State) : State := { s with sand := { s.sand with moving := s.sand.moving ++ [m] } }

/-- What has passed its switches arrives: requests of one initiator to one target in the order of their issue, responses in any
order (08 R396, R397). A request arrives once SAND_REQUEST has told what it meets, a response once SAND_RESPONSE has. -/
def sandDrain (s : State) : State :=
  (s.sand.moving.foldl (fun (acc : List (Nat × Nat × Nat) × State) m =>
    if m.back.isSome then
      match m.rsp with
      | some p => (acc.1, if m.path.isEmpty then rspTake p acc.2 else keepMoving m acc.2)
      | none => (acc.1, keepMoving m acc.2)
    else
      let key := (m.q.ini.val, sandTarget m.q.addr.toNat)
      match m.env with
      | some e =>
        if m.path.isEmpty && !acc.1.contains key then (acc.1, sandServe m.q e acc.2)
        else (acc.1 ++ [key], keepMoving m acc.2)
      | none => (acc.1 ++ [key], keepMoving m acc.2))
    ([], { s with sand := { s.sand with moving := [] } })).2

/-- SAND_REQUEST tells what a request meets at its target. One that SAND_INJECTION issued is taken when it has passed its
switches; any other's journey is over, unless a link-clock change stalls the links it has to pass (08 R380). -/
def sandArrive (q : SandReq) (env : Env) (s : State) : State :=
  let put (l : List Moving) : State := sandDrain { s with sand := { s.sand with moving := l } }
  let mine (m : Moving) : Bool := m.q == q && m.back.isNone && m.env.isNone
  if s.sand.moving.any mine then
    match s.sand.moving.span (fun m => !mine m) with
    | (before, m :: after) => put (before ++ { m with env := some env } :: after)
    | _ => s
  else
    let m := s.outbound q
    put (s.sand.moving ++ [{ m with path := if s.on F.NOC_STATUS_SWITCHING then m.path else [], env := some env }])

def execSandRequest (req : SandReq) (env : Env) (s : State) : Out := .next (sandArrive req env s)

def execRegisterWrite (ini : Ini) (addr : BitVec 48) (sz : Size) (data : W64) (env : Env) (s : State) : Out :=
  .next <|
    if s.power.asleep then s
    else let (r, t) := sandWrite (s.accOf ini.val false) addr.toNat (natBytes data.toNat sz.bytes) false env s; t.answer r

def execRcRegisterRead (ini : Ini) (addr : BitVec 48) (sz : Size) (quiet : Bool) (env : Env) (s : State) : Out :=
  .next <|
    if s.power.asleep then s
    else let (m, t) := sandRead (s.accOf ini.val quiet) addr.toNat sz.bytes env s; t.answerMem m

end Sys2Proof.Machine
end

