-- ==== Sys2Proof/Machine/CoreMem.lean ====
section
/-! DEFINITION. Loads and stores of the cores: caches, Saffron's private memories, uncached accesses (14 R731 to R734, R740 to
R747, R756 to R759). -/

namespace Sys2Proof.Machine

/-- How a load ends: its bytes, poisoned data, or another error response. -/
inductive LoadEnd where
  | data (bs : List Byte)
  | poison
  | err (r : Resp)
  deriving DecidableEq, Repr

/-- Saffron's patch and data memory (14 R743). -/
def privLo : Nat := 0x40000
def privHi : Nat := 0x70000
def inPriv (n a : Nat) : Bool := n == 8 && privLo ≤ a && a < privHi

/-- Core `n` as an initiator, at its present privilege (14 R731). -/
def State.coreAcc (s : State) (n : Nat) (quiet : Bool) : Acc := { ini := coreIni n, priv := (s.core n).priv.code, quiet }

/-! Saffron's private memories -/

/-- Reads a word's bytes with its SECDED check; an uncorrectable error is read once more (14 R743, 20 R972). -/
def privLoad (a k : Nat) (env : Env) (s : State) : LoadEnd × State :=
  let w := a / 8
  let (kept, seen) := strike (s.wordFlaw.get .none w) env.upset
  let (kept2, seen2) := if seen = .double then strike kept .none else (kept, seen)
  let flaw := if seen2 = Flaw.single then Flaw.none else kept2
  let s1 := { s with wordFlaw := if flaw = Flaw.none then s.wordFlaw.erase w else s.wordFlaw.set w flaw }
  if seen2 = .double then (.poison, s1) else let (bs, s2) := s1.reads a k; (.data bs, s2)

def privStore (a : Nat) (data : List Byte) (s : State) : State :=
  State.pokes (if data.length = 8 then { s with wordFlaw := s.wordFlaw.erase (a / 8) } else s) a data

/-! The data cache (14 R740, R756, R759) -/

/-- Reads a line to fill the cache, once more after an uncorrectable error (14 R756). -/
def lineFill (n l : Nat) (env : Env) (s : State) : LoadEnd × State :=
  let (m, s1) := plainRead (coreIni n) (l * 64) 64 env s
  if m.resp = .okay ∧ m.poison.isEmpty then (.data m.bytes, s1)
  else if m.resp = .okay ∨ m.resp = .uncorrectable then
    let (m2, s2) := plainRead (coreIni n) (l * 64) 64 { env with upset := .none } s1
    if m2.resp = .okay ∧ m2.poison.isEmpty then (.data m2.bytes, noteTransient n s2)
    else if m2.resp = .okay ∨ m2.resp = .uncorrectable then (.poison, s2)
    else (.err m2.resp, s2)
  else (.err m.resp, s1)

/-- The line in the cache after the check of the word at `k` of it, that `u` struck: the line when its data stand, none when it
must be filled. -/
def lineCheck (n : Nat) (d : DLine) (k : Nat) (u : Upset) (s : State) : Option DLine × State :=
  let (kept, seen) := strike (d.flaw.get .none k) u
  match seen with
  | .none => (some d, s)
  | .single =>
    let d1 := { d with flaw := d.flaw.erase k }
    (some d1, (noteCorrected n s).modCore n fun c => c.putLine d1)
  | .double =>
    if d.dirty then
      let d1 := { d with poisoned := true, flaw := if kept = Flaw.none then d.flaw.erase k else d.flaw.set k kept }
      (some d1, s.modCore n fun c => c.putLine d1)
    else (none, lineDrop n d.line s)

/-- The line of an address, filled when the cache does not hold it; `k` is the word that will be read, none when a whole word
is to be overwritten. -/
def lineGet (n l : Nat) (k : Option Nat) (env : Env) (s : State) : Except LoadEnd DLine × State :=
  let fill (e : Env) (t : State) : Except LoadEnd DLine × State :=
    match lineFill n l e t with
    | (.data bs, u) =>
      let d : DLine := { line := l, data := bs }
      (.ok d, linePlace n d {} u)
    | (e, u) => (.error e, u)
  match (s.core n).lineAt l with
  | none => fill env s
  | some d => match k with
    | none => (.ok d, s)
    | some w => match lineCheck n d w env.upset s with
      | (some d1, t) => (.ok d1, t)
      | (none, t) => fill { env with upset := .none } t

/-- A cached load of `k` bytes. -/
def cacheLoad (n a k : Nat) (env : Env) (s : State) : LoadEnd × State :=
  match lineGet n (a / 64) (some (a % 64 / 8)) env s with
  | (.ok d, t) => if d.poisoned then (.poison, t) else (.data ((d.data.drop (a % 64)).take k), t)
  | (.error e, t) => (e, t)

/-- A cached store: write-allocate, the line becomes dirty. A fill that fails ends the store with an error response. -/
def cacheStore (n a : Nat) (data : List Byte) (env : Env) (s : State) : State :=
  let w := a % 64 / 8
  match lineGet n (a / 64) (if data.length = 8 then none else some w) env s with
  | (.ok d, t) =>
    let bs := d.data.take (a % 64) ++ data ++ d.data.drop (a % 64 + data.length)
    let fl := if data.length = 8 then d.flaw.erase w else d.flaw
    t.modCore n fun c => c.putLine { d with data := bs, dirty := true, flaw := fl }
  | (.error (.err r), t) => storeDone n a r t
  | (.error _, t) => storeDone n a .uncorrectable t

/-! Loads and stores -/

/-- A load of `k` bytes at `a`, its address checks passed. -/
def coreLoad (n a k : Nat) (quiet : Bool) (env : Env) (s : State) : LoadEnd × State :=
  if inPriv n a then privLoad a k env s
  else if s.dcOn n a then cacheLoad n a k env s
  else
    let (m, t) := sandRead (s.coreAcc n quiet) a k env s
    (if m.resp = .okay then .data m.bytes else .err m.resp, t)

/-- A store. The core does not wait for the response of an uncached one (14 R747). -/
def coreStore (n a : Nat) (data : List Byte) (env : Env) (s : State) : State :=
  if inPriv n a then privStore a data s
  else if s.dcOn n a then cacheStore n a data env s
  else let (r, t) := sandWrite (s.coreAcc n false) a data false env s; storeDone n a r t

/-! Address checks -/

/-- The trap that an access of `k` bytes at `a` takes before it is made; when both checks fail either may come
(14 R732 to R734). -/
def State.accessTrap (s : State) (n : Nat) (a : W64) (k perm : Nat) : Option Nat :=
  let bad := (s.core n).refuses a.toNat k perm
  let mis := a.toNat % k != 0
  if bad && mis then some (if Config.freeNat s.free % 2 = 0 then trapAccess else trapMisData)
  else if bad then some trapAccess
  else if mis then some trapMisData
  else none

/-- The same for an exclusive access (14 R749). -/
def State.exclTrap (s : State) (n : Nat) (a : W64) (perm : Nat) : Option Nat :=
  let bad := (s.core n).refuses a.toNat 8 perm
  let mis := a.toNat % 8 != 0 || !(inDram a.toNat || inSpd a.toNat)
  if bad && mis then some (if Config.freeNat s.free % 2 = 0 then trapAccess else trapExcl)
  else if bad then some trapAccess
  else if mis then some trapExcl
  else none

end Sys2Proof.Machine
end

