-- ==== Sys2Proof/Machine/CoreIsa.lean ====
section
/-! DEFINITION. The instructions of the cores (14 R735 to R739, R745 to R755, R760 to R764). -/

namespace Sys2Proof.Machine

/-! Issue -/

/-- What an instruction does once it is fetched: it completes and goes on after itself or at an address, traps, or stays. -/
inductive CoreDoes where
  | next (s : State)
  | jump (pc : W64) (s : State)
  | trapped (s : State)
  | stay (s : State)

/-- The core halts at this boundary when its deferred halt may take place (19 R961). -/
def boundaryHalt (n : Nat) (s : State) : State :=
  if s.on F.DBG_CORE_STATUS_DEFERRED n && !s.holdsResv n then haltFire n s else s

/-- The end of an instruction or a trap: a step halts again, a deferred halt takes place (19 R961, R962). -/
def coreAfter (n : Nat) (stepped : Bool) (s : State) : State := if stepped then haltFire n s else boundaryHalt n s

/-- A trap at the fetch, or LOCKUP when it is the fetch at TVEC (14 R764). -/
def fetchTrap (n code : Nat) (r : Resp) (s : State) : State :=
  let c := s.core n
  if c.atTvec then coreSettle n (s.modCore n fun c => { c with lockup := true })
  else trapResp n code r c.pc s

/-- The core can issue an instruction now: powered, running, not halted unless it steps, not in LOCKUP, not waiting under WFI,
and no interrupt to take first (14 R762 to R764, 19 R960, R962). -/
def State.coreIssues (s : State) (n : Nat) : Bool :=
  let c := s.core n
  let irq := (s.irqCode n).isSome
  s.corePowered n && s.coreRuns n && (!s.coreHalted n || c.stepping) && !c.lockup && (!c.wfi || irq)
    && (c.stepping || !(c.ie && irq))

/-- The fetch of an instruction: the trap it ends in, or the state after (14 R732, R733, R756 to R758). -/
def coreFetch (n : Nat) (f : Fetch) (s : State) : Except State State :=
  let c := s.core n
  let pc := c.pc.toNat
  let seen (r : Resp) (t : State) : State := if inPriv n pc then t else noteEnd (coreIni n) pc false r t
  let good (t : State) : Except State State :=
    let t1 := t.modCore n fun c => { c with atTvec := false, wfi := false }
    .ok (if s.icOn n pc then fetchPlace n (pc / 64) t1 else t1)
  if c.refuses pc 4 2 then .error (fetchTrap n trapAccess .okay s)
  else match f with
    | .ok => good s
    | .parity => good (if s.icOn n pc && c.ic.contains (pc / 64) then noteCorrected n s else s)
    | .transient => good (noteTransient n (seen .uncorrectable s))
    | .poison => .error (fetchTrap n trapFetchPoison .okay (seen .uncorrectable s))
    | .err r => .error (fetchTrap n trapFetchErr r (seen r s))

/-- One instruction of a core: its fetch, its body, and what follows it. -/
def coreIssue (cx : Cx) (body : Nat → State → CoreDoes) (s : State) : State :=
  let n := cx.core.val
  if !s.coreIssues n then s
  else if s.on F.DBG_CORE_STATUS_DEFERRED n && !s.holdsResv n then haltFire n s
  else
    let stepped := (s.core n).stepping
    let pc := (s.core n).pc
    let done (p : W64) (t : State) : State :=
      coreAfter n stepped (t.modCore n fun c => { c with pc := p, retired := c.retired + 1 })
    match coreFetch n cx.fetch s with
    | .error t => coreAfter n stepped t
    | .ok t => match body n t with
      | .next u => done (pc + 4) u
      | .jump p u => done p u
      | .trapped u => coreAfter n stepped u
      | .stay u => coreAfter n stepped u

/-! Instruction words, for TVAL (14 R735) -/

def encR (op rd ra rb fn : Nat) : W64 := BitVec.ofNat 64 (op * 2 ^ 26 + rd * 2 ^ 21 + ra * 2 ^ 16 + rb * 2 ^ 11 + fn)
def encI (op rd ra imm : Nat) : W64 := BitVec.ofNat 64 (op * 2 ^ 26 + rd * 2 ^ 21 + ra * 2 ^ 16 + imm)

/-- An instruction that S alone may execute: a PRIVILEGE trap at U (14 R739). -/
def atS (word : W64) (body : Nat → State → CoreDoes) (n : Nat) (s : State) : CoreDoes :=
  if s.coreU n then .trapped (trap n trapPrivilege word s) else body n s

/-! Arithmetic (14 R736, R737) -/

/-- A result from two registers. -/
def coreR (cx : Cx) (rd ra rb : Gpr) (f : W64 → W64 → W64) (s : State) : Out :=
  .next (coreIssue cx (fun n t => .next (t.setGreg n rd (f (t.greg n ra) (t.greg n rb)))) s)

/-- A result from one register and an immediate. -/
def coreI (cx : Cx) (rd ra : Gpr) (f : W64 → W64) (s : State) : Out :=
  .next (coreIssue cx (fun n t => .next (t.setGreg n rd (f (t.greg n ra)))) s)

def ofBool64 (b : Bool) : W64 := if b then 1 else 0
def mulHigh (a b : W64) : W64 := BitVec.ofInt 64 (a.toInt * b.toInt / 2 ^ 64)
def mulHighU (a b : W64) : W64 := BitVec.ofNat 64 (a.toNat * b.toNat / 2 ^ 64)
def divS (a b : W64) : W64 := if b = 0 then BitVec.allOnes 64 else a.sdiv b
def divU (a b : W64) : W64 := if b = 0 then BitVec.allOnes 64 else a / b
def remS (a b : W64) : W64 := if b = 0 then a else a.srem b
def remU (a b : W64) : W64 := if b = 0 then a else a % b
def shiftOf (b : W64) : Nat := b.toNat % 64

def execAdd (cx : Cx) (rd ra rb : Gpr) (s : State) : Out := coreR cx rd ra rb (· + ·) s
def execSub (cx : Cx) (rd ra rb : Gpr) (s : State) : Out := coreR cx rd ra rb (· - ·) s
def execAnd (cx : Cx) (rd ra rb : Gpr) (s : State) : Out := coreR cx rd ra rb (· &&& ·) s
def execOr (cx : Cx) (rd ra rb : Gpr) (s : State) : Out := coreR cx rd ra rb (· ||| ·) s
def execXor (cx : Cx) (rd ra rb : Gpr) (s : State) : Out := coreR cx rd ra rb (· ^^^ ·) s
def execSll (cx : Cx) (rd ra rb : Gpr) (s : State) : Out := coreR cx rd ra rb (fun a b => a <<< shiftOf b) s
def execSrl (cx : Cx) (rd ra rb : Gpr) (s : State) : Out := coreR cx rd ra rb (fun a b => a >>> shiftOf b) s
def execSra (cx : Cx) (rd ra rb : Gpr) (s : State) : Out := coreR cx rd ra rb (fun a b => a.sshiftRight (shiftOf b)) s
def execSlt (cx : Cx) (rd ra rb : Gpr) (s : State) : Out := coreR cx rd ra rb (fun a b => ofBool64 (a.slt b)) s
def execSltu (cx : Cx) (rd ra rb : Gpr) (s : State) : Out := coreR cx rd ra rb (fun a b => ofBool64 (a.ult b)) s
def execMul (cx : Cx) (rd ra rb : Gpr) (s : State) : Out := coreR cx rd ra rb (· * ·) s
def execMulh (cx : Cx) (rd ra rb : Gpr) (s : State) : Out := coreR cx rd ra rb mulHigh s
def execMulhu (cx : Cx) (rd ra rb : Gpr) (s : State) : Out := coreR cx rd ra rb mulHighU s
def execDiv (cx : Cx) (rd ra rb : Gpr) (s : State) : Out := coreR cx rd ra rb divS s
def execDivu (cx : Cx) (rd ra rb : Gpr) (s : State) : Out := coreR cx rd ra rb divU s
def execRem (cx : Cx) (rd ra rb : Gpr) (s : State) : Out := coreR cx rd ra rb remS s
def execRemu (cx : Cx) (rd ra rb : Gpr) (s : State) : Out := coreR cx rd ra rb remU s

/-- imm := sext(IMM16, 64). -/
def sx (imm : W16) : W64 := imm.signExtend 64
def zx (imm : W16) : W64 := imm.setWidth 64

def execAddi (cx : Cx) (rd ra : Gpr) (imm : W16) (s : State) : Out := coreI cx rd ra (· + sx imm) s
def execAndi (cx : Cx) (rd ra : Gpr) (imm : W16) (s : State) : Out := coreI cx rd ra (· &&& zx imm) s
def execOri (cx : Cx) (rd ra : Gpr) (imm : W16) (s : State) : Out := coreI cx rd ra (· ||| zx imm) s
def execXori (cx : Cx) (rd ra : Gpr) (imm : W16) (s : State) : Out := coreI cx rd ra (· ^^^ zx imm) s
def execSlli (cx : Cx) (rd ra : Gpr) (sh : BitVec 6) (s : State) : Out := coreI cx rd ra (· <<< sh.toNat) s
def execSrli (cx : Cx) (rd ra : Gpr) (sh : BitVec 6) (s : State) : Out := coreI cx rd ra (· >>> sh.toNat) s
def execSrai (cx : Cx) (rd ra : Gpr) (sh : BitVec 6) (s : State) : Out := coreI cx rd ra (·.sshiftRight sh.toNat) s
def execSlti (cx : Cx) (rd ra : Gpr) (imm : W16) (s : State) : Out := coreI cx rd ra (fun a => ofBool64 (a.slt (sx imm))) s
def execSltiu (cx : Cx) (rd ra : Gpr) (imm : W16) (s : State) : Out := coreI cx rd ra (fun a => ofBool64 (a.ult (sx imm))) s
def execLui (cx : Cx) (rd : Gpr) (imm : W16) (s : State) : Out := coreI cx rd 0 (fun _ => sx imm <<< 16) s
def execShori (cx : Cx) (rd ra : Gpr) (imm : W16) (s : State) : Out := coreI cx rd ra (fun a => (a <<< 16) ||| zx imm) s

/-! Loads and stores (14 R733, R734, R756, R757) -/

/-- A load's bytes as a register value. -/
def loadValue (k : Nat) (signed : Bool) (bs : List Byte) : W64 :=
  let v := bytesNat (bs.take k)
  if signed then BitVec.ofNat 64 v <<< (64 - 8 * k) |>.sshiftRight (64 - 8 * k) else BitVec.ofNat 64 v

/-- What follows a load's end: the register written, or its trap. -/
def loadEnds (n : Nat) (rd : Gpr) (a : W64) (k : Nat) (signed : Bool) : LoadEnd × State → CoreDoes
  | (.data bs, t) => .next (t.setGreg n rd (loadValue k signed bs))
  | (.poison, t) => .trapped (trap n trapLoadPoison a t)
  | (.err r, t) => .trapped (trapResp n trapLoadErr r a t)

/-- A load of `k` bytes. -/
def coreLd (cx : Cx) (rd ra : Gpr) (imm : W16) (k : Nat) (signed : Bool) (env : Env) (s : State) : Out :=
  .next (coreIssue cx (fun n t =>
    let a := t.greg n ra + sx imm
    match t.accessTrap n a k 0 with
    | some code => .trapped (trap n code a t.fresh)
    | none => loadEnds n rd a k signed (coreLoad n a.toNat k false env t)) s)

/-- A store of the low `k` bytes of the register that the rd field names. -/
def coreSt (cx : Cx) (rd ra : Gpr) (imm : W16) (k : Nat) (env : Env) (s : State) : Out :=
  .next (coreIssue cx (fun n t =>
    let a := t.greg n ra + sx imm
    match t.accessTrap n a k 1 with
    | some code => .trapped (trap n code a t.fresh)
    | none => .next (coreStore n a.toNat (natBytes (t.greg n rd).toNat k) env t)) s)

def execLb (cx : Cx) (rd ra : Gpr) (imm : W16) (env : Env) (s : State) : Out := coreLd cx rd ra imm 1 true env s
def execLbu (cx : Cx) (rd ra : Gpr) (imm : W16) (env : Env) (s : State) : Out := coreLd cx rd ra imm 1 false env s
def execLh (cx : Cx) (rd ra : Gpr) (imm : W16) (env : Env) (s : State) : Out := coreLd cx rd ra imm 2 true env s
def execLhu (cx : Cx) (rd ra : Gpr) (imm : W16) (env : Env) (s : State) : Out := coreLd cx rd ra imm 2 false env s
def execLw (cx : Cx) (rd ra : Gpr) (imm : W16) (env : Env) (s : State) : Out := coreLd cx rd ra imm 4 true env s
def execLwu (cx : Cx) (rd ra : Gpr) (imm : W16) (env : Env) (s : State) : Out := coreLd cx rd ra imm 4 false env s
def execLd (cx : Cx) (rd ra : Gpr) (imm : W16) (env : Env) (s : State) : Out := coreLd cx rd ra imm 8 true env s
def execSb (cx : Cx) (rd ra : Gpr) (imm : W16) (env : Env) (s : State) : Out := coreSt cx rd ra imm 1 env s
def execSh (cx : Cx) (rd ra : Gpr) (imm : W16) (env : Env) (s : State) : Out := coreSt cx rd ra imm 2 env s
def execSw (cx : Cx) (rd ra : Gpr) (imm : W16) (env : Env) (s : State) : Out := coreSt cx rd ra imm 4 env s
def execSd (cx : Cx) (rd ra : Gpr) (imm : W16) (env : Env) (s : State) : Out := coreSt cx rd ra imm 8 env s

/-! Exclusive sequences (14 R748 to R752) -/

def execLdx (cx : Cx) (rd ra : Gpr) (env : Env) (s : State) : Out :=
  .next (coreIssue cx (fun n t =>
    let a := t.greg n ra
    match t.exclTrap n a 0 with
    | some code => .trapped (trap n code a t.fresh)
    | none =>
      let (m, u) := sandRead (t.coreAcc n false) a.toNat 8 env (lineFlush n (a.toNat / 64) {} t)
      if m.resp = .okay then
        .next ({ u with resv := u.resv.set n (a.toNat / 64) }.setGreg n rd (loadValue 8 false m.bytes))
      else .trapped (trapResp n trapLoadErr m.resp a u)) s)

def execStx (cx : Cx) (rd ra rb : Gpr) (env : Env) (s : State) : Out :=
  .next (coreIssue cx (fun n t =>
    let a := t.greg n ra
    match t.exclTrap n a 1 with
    | some code => .trapped (trap n code a t.fresh)
    | none =>
      if t.resv.find n = some (a.toNat / 64) then
        let (r, u) := sandWrite (t.coreAcc n false) a.toNat (natBytes (t.greg n rb).toNat 8) false env t
        .next ((dropResv n (storeDone n a.toNat r u)).setGreg n rd 0)
      else .next ((dropResv n t).setGreg n rd 1)) s)

/-- A reservation ends 1,024 cycles after its LDX (14 R751). -/
def execReservationExpiry (core : CoreId) (s : State) : Out :=
  .next (if s.holdsResv core.val then boundaryHalt core.val (dropResv core.val s) else s)

/-! Branches and jumps (14 R736, R738) -/

def coreB (cx : Cx) (ra rb : Gpr) (off : W16) (p : W64 → W64 → Bool) (s : State) : Out :=
  .next (coreIssue cx (fun n t =>
    if p (t.greg n ra) (t.greg n rb) then .jump ((t.core n).pc + (sx off <<< 2)) t else .next t) s)

def execBeq (cx : Cx) (ra rb : Gpr) (off : W16) (s : State) : Out := coreB cx ra rb off (· == ·) s
def execBne (cx : Cx) (ra rb : Gpr) (off : W16) (s : State) : Out := coreB cx ra rb off (· != ·) s
def execBlt (cx : Cx) (ra rb : Gpr) (off : W16) (s : State) : Out := coreB cx ra rb off (fun a b => a.slt b) s
def execBge (cx : Cx) (ra rb : Gpr) (off : W16) (s : State) : Out := coreB cx ra rb off (fun a b => !a.slt b) s
def execBltu (cx : Cx) (ra rb : Gpr) (off : W16) (s : State) : Out := coreB cx ra rb off (fun a b => a.ult b) s
def execBgeu (cx : Cx) (ra rb : Gpr) (off : W16) (s : State) : Out := coreB cx ra rb off (fun a b => !a.ult b) s

def execJal (cx : Cx) (rd : Gpr) (off : BitVec 21) (s : State) : Out :=
  .next (coreIssue cx (fun n t =>
    let pc := (t.core n).pc
    .jump (pc + (off.signExtend 64 <<< 2)) (t.setGreg n rd (pc + 4))) s)

def execJalr (cx : Cx) (rd ra : Gpr) (imm : W16) (s : State) : Out :=
  .next (coreIssue cx (fun n t =>
    let dst := t.greg n ra + sx imm
    if dst.toNat % 4 ≠ 0 then .trapped (trap n trapMisFetch dst t)
    else .jump dst (t.setGreg n rd ((t.core n).pc + 4))) s)

/-! Control registers (14 R739, R753) -/

/-- An access to control register `num`; at U only a read of CORE_ID, CYCLE or RETIRED passes. -/
def coreCsr (cx : Cx) (op : Nat) (rd ra : Gpr) (num : BitVec 12) (write : Option (W64 → W64 → W64)) (s : State) : Out :=
  .next (coreIssue cx (fun n t =>
    let k := num.toNat
    let word := encI op rd ra k
    if !csrListed k then .trapped (trap n trapIllegal word t)
    else if t.coreU n && (write.isSome || !(0x20 ≤ k && k ≤ 0x22)) then .trapped (trap n trapPrivilege word t)
    else
      let old := csrGet n k t
      let v := t.greg n ra
      let t1 := csrTaken n k t
      let t2 := match write with | some f => csrPut n k (f old v) t1 | none => t1
      .next (t2.setGreg n rd old)) s)

def execCsrr (cx : Cx) (rd : Gpr) (num : BitVec 12) (s : State) : Out := coreCsr cx 0x30 rd 0 num none s
def execCsrw (cx : Cx) (rd ra : Gpr) (num : BitVec 12) (s : State) : Out := coreCsr cx 0x31 rd ra num (some fun _ v => v) s
def execCsrs (cx : Cx) (rd ra : Gpr) (num : BitVec 12) (s : State) : Out :=
  coreCsr cx 0x32 rd ra num (some fun old v => old ||| v) s
def execCsrc (cx : Cx) (rd ra : Gpr) (num : BitVec 12) (s : State) : Out :=
  coreCsr cx 0x33 rd ra num (some fun old v => old &&& ~~~v) s

/-! Cache operations (14 R745, R746) -/

/-- A line operation, after its address checks. -/
def coreLine (cx : Cx) (ra : Gpr) (imm : W16) (g : Nat → Nat → State → State) (s : State) : Out :=
  .next (coreIssue cx (fun n t =>
    let a := t.greg n ra + sx imm
    if (t.core n).refuses a.toNat 1 0 then .trapped (trap n trapAccess a t) else .next (g n (a.toNat / 64) t)) s)

def execDclean (cx : Cx) (ra : Gpr) (imm : W16) (env : Env) (s : State) : Out :=
  coreLine cx ra imm (fun n l t => lineClean n l env t) s

def execDinv (cx : Cx) (ra : Gpr) (imm : W16) (_env : Env) (s : State) : Out :=
  .next (coreIssue cx (atS (encI 0x34 1 ra imm.toNat) (fun n t =>
    let a := t.greg n ra + sx imm
    if (t.core n).refuses a.toNat 1 0 then .trapped (trap n trapAccess a t) else .next (lineDrop n (a.toNat / 64) t))) s)

def execDflush (cx : Cx) (ra : Gpr) (imm : W16) (env : Env) (s : State) : Out :=
  coreLine cx ra imm (fun n l t => lineFlush n l env t) s

def execIinv (cx : Cx) (ra : Gpr) (imm : W16) (_env : Env) (s : State) : Out :=
  coreLine cx ra imm (fun n l t => t.modCore n fun c => { c with ic := c.ic.filter (· != l) }) s

def execDflushAll (cx : Cx) (ra : Gpr) (imm : W16) (env : Env) (s : State) : Out :=
  .next (coreIssue cx (atS (encI 0x34 8 ra imm.toNat) (fun n t => .next (cacheFlush n env t))) s)

def execIinvAll (cx : Cx) (_ra : Gpr) (_imm : W16) (_env : Env) (s : State) : Out :=
  .next (coreIssue cx (fun n t => .next (t.modCore n fun c => { c with ic := [] })) s)

/-! System instructions -/

def execEcall (cx : Cx) (s : State) : Out :=
  .next (coreIssue cx (fun n t => .trapped (trap n trapEcall 0 t)) s)

def execTret (cx : Cx) (s : State) : Out :=
  .next (coreIssue cx (atS (encR 0x3F 0 0 0 1) (fun n t => let u := trapReturn n t; .jump (u.core n).pc u)) s)

def execWfi (cx : Cx) (s : State) : Out :=
  .next (coreIssue cx (atS (encR 0x3F 0 0 0 2) (fun n t => .next (t.modCore n fun c => { c with wfi := true }))) s)

/-- FENCE completes once every response has come: one with an error that the core has still to take holds it (14 R746). -/
def execFence (cx : Cx) (s : State) : Out :=
  .next (coreIssue cx (fun n t => if (t.core n).serr.isSome then .stay t else .next t) s)

def execIfence (cx : Cx) (s : State) : Out := .next (coreIssue cx (fun _ t => .next t) s)

/-- BREAK halts the core at itself while its bit of DBG_BREAK_HALT is 1, or traps (14, 19 R960, R961). -/
def execBrk (cx : Cx) (s : State) : Out :=
  .next (coreIssue cx (fun n t =>
    if bit (t.get F.DBG_BREAK_HALT_CORES) n then
      if (t.core n).stepping then .stay t
      else if t.holdsResv n then .stay (t.raise F.DBG_CORE_STATUS_DEFERRED n)
      else .stay (haltFire n t)
    else .trapped (trap n trapBreak 0 t)) s)

/-! Illegal words (14 R736) -/

/-- The word is an instruction: its opcode and FN are assigned, and the fields that must be 0 are 0. -/
def coreLegal (w : Nat) : Bool :=
  let op := bits w 26 6
  let rd := bits w 21 5
  let ra := bits w 16 5
  let fn := bits w 0 11
  let imm := bits w 0 16
  if op = 0x00 then fn ≤ 0x010
  else if op ≤ 0x04 then true
  else if op ≤ 0x07 then imm < 64
  else if op = 0x08 ∨ op = 0x09 ∨ op = 0x0B then true
  else if op = 0x0A then ra == 0
  else if 0x10 ≤ op ∧ op ≤ 0x16 then true
  else if 0x18 ≤ op ∧ op ≤ 0x1B then true
  else if op = 0x1C then imm == 0
  else if op = 0x1D then fn == 0
  else if 0x20 ≤ op ∧ op ≤ 0x25 then true
  else if op = 0x28 ∨ op = 0x29 then true
  else if op = 0x30 then ra == 0 && imm < 4096 && csrListed imm
  else if 0x31 ≤ op ∧ op ≤ 0x33 then imm < 4096 && csrListed imm
  else if op = 0x34 then rd ≤ 3 || rd == 8 || rd == 9
  else if op = 0x3F then rd == 0 && ra == 0 && bits w 11 5 == 0 && fn ≤ 5
  else false

/-- A core meets a word that is no instruction. -/
def execCoreIllegal (cx : Cx) (word : W32) (s : State) : Out :=
  .next (if coreLegal word.toNat then s
    else coreIssue cx (fun n t => .trapped (trap n trapIllegal (word.setWidth 64) t)) s)

/-! Traps that no instruction makes (14 R760, R762) -/

/-- The core takes a trap at an instruction boundary now. -/
def State.coreTakes (s : State) (n : Nat) : Bool :=
  s.corePowered n && s.coreRuns n && (!s.coreHalted n || (s.core n).stepping) && !(s.core n).lockup

/-- STORE_ERR: the error response of a store or write-back is taken, whatever IE is. -/
def execStoreErr (core : CoreId) (s : State) : Out :=
  .next <|
    let n := core.val
    match (s.core n).serr with
    | some (a, r) =>
      if s.coreTakes n then
        let s1 := s.modCore n fun c => { c with serr := none }
        coreAfter n (s.core n).stepping (trapResp n trapStoreErr r (BitVec.ofNat 64 a) s1)
      else s
    | none => s

/-- An interrupt is taken: not by a halted core, and not during a step (19 R960, R962). -/
def execInterrupt (core : CoreId) (s : State) : Out :=
  .next <|
    let n := core.val
    if s.coreTakes n && !s.coreHalted n && (s.core n).ie then
      match s.irqCode n with
      | some k => boundaryHalt n (trapIrq n k s)
      | none => s
    else s

end Sys2Proof.Machine
end

