-- ==== Sys2Proof/Machine/Crossing.lean ====
section
/-! DEFINITION. The crossing boundary and the commands that reach beyond the timing port (02 R63 to R69, R82 to R85, 10 R519,
17 R873, R874). -/

namespace Sys2Proof.Machine

/-- A due command that the Ledger applies before it retries contexts: CNR, RSY, EXA (10 R519). -/
def ledgerCmd (c : Byte) : Bool := c == 1 || c == 3 || c == 4

/-- The end of a boundary's actions, once the commands that come before it have acted: the Ledger's retries and throttle
(10 R519), then the transmit frame (02 R83). -/
def crossingTail (s : State) : State :=
  if s.ldg.rest && !s.tmg.due.any ledgerCmd then
    tmgTransmit (ldgRest (s.setLdg fun l => { l with rest := false }))
  else s

/-- ORB: what the timing port does, and the pulse of XOUT signal 1 (02 R65, 18 R918). -/
def execOrb (s : State) : Out :=
  .next (onDue (· == 2) (fun t => tmgOrb (t.setSvc fun v => { v with xout := (v.xout.1, true) })) s)

/-- A crossing boundary; XOUT signal 0 pulses (18 R918). The commands of the boundary before have acted by then. -/
def crossingBoundary (s : State) : State :=
  if !s.boundariesRun || s.power.asleep || !s.tmg.due.isEmpty then s
  else crossingTail ((ldgBoundary (synBoundary (tmgBoundary (s.setSvc fun v => { v with xout := (true, false) })))).setLdg fun l => { l with rest := true })

def execCrossingBoundary (s : State) : Out := .next (crossingBoundary s)

/-- CNR: the crossing that begins has TMG_CN = TMG_CN_PRESET (02 R65, 10 R562). -/
def tmgCnr (s : State) : State :=
  let s1 := (s.wr R.TMG_CN 0 (s.rd R.TMG_CN_PRESET)).clear F.TMG_STATUS_CN_SUSPECT
  ldgResync true { s1 with tmg := { s1.tmg with spineTag := s1.shortTag } }

def execCnr (s : State) : Out := .next (onDue (· == 1) (fun t => crossingTail (tmgCnr t)) s)

/-- RSY: the resync strobe to bays, slices and the Ledger (02 R65, R67, 06 R303, 10 R561). -/
def tmgRsy (s : State) : State := ldgResync false { s with rsyAt := some s.tmg.strobes }

def execRsy (s : State) : Out := .next (onDue (· == 3) (fun t => crossingTail (tmgRsy t)) s)

/-- EXA: an accept to the Ledger for the short tag (TMG_CN − EXA_OFFSET)[15:0] (02 R65). -/
def tmgExa (s : State) : State :=
  ldgExternal (BitVec.ofInt 16 ((s.cn : Int) - (s.get F.TMG_CTRL_EXA_OFFSET : Int))) s

def execExa (s : State) : Out := .next (onDue (· == 4) (fun t => crossingTail (tmgExa t)) s)

/-- The boundary step of a relock: HOLDOVER ends, forwarded flits are invalid for 64 cycles, and crossing-locked outputs
realign (02 R82, 08 R440, 17 R874). -/
def relockStep (s : State) : State :=
  if s.on F.TMG_STATUS_HOLDOVER && s.on F.TMG_STATUS_FRAME_LOCK && s.tmg.step then
    let s1 := (s.clear F.TMG_STATUS_HOLDOVER).raise F.TMG_STATUS_QTZ_LOCK
    tmgSettle ({ s1 with tmg := { s1.tmg with step := false } }.setQtz fun q => { q with stepAt := some s.tmg.strobes })
  else s

def execRelockBoundaryStep (s : State) : Out := .next (relockStep s)

end Sys2Proof.Machine
end

