-- ==== Sys2Proof/Machine/Debug.lean ====
section
/-! DEFINITION. The debug port: scan instructions, authorisation and VAP accesses (19 R940 to R959, R966). -/

namespace Sys2Proof.Machine

/-! Scan instructions (19 R942) -/

def irExtest : Nat := 0x00
def irSample : Nat := 0x01
def irIdcode : Nat := 0x02
def irClamp : Nat := 0x03
def irHighz : Nat := 0x04
def irVapChal : Nat := 0x10
def irVapAuth : Nat := 0x11
def irVapAcc : Nat := 0x12
def irBypass : Nat := 0xFF

/-- The least level of an instruction; none for a code that is not listed. -/
def irLevel (c : Nat) : Option Nat :=
  if c = irExtest ∨ c = irClamp ∨ c = irHighz then some 1
  else if c = irSample ∨ c = irIdcode ∨ c = irVapChal ∨ c = irVapAuth ∨ c = irVapAcc ∨ c = irBypass then some 0
  else none

/-- The instruction that the register's code acts as at the present level. -/
def State.irActs (s : State) (c : Nat) : Nat :=
  match irLevel c with
  | some l => if l ≤ s.dbg.level then c else irBypass
  | none => irBypass

/-- An Update-IR that loads a code. -/
def irLoad (c : Nat) (s : State) : State := s.setDbg fun d => { d with ir := BitVec.ofNat 8 c }

/-- What a Capture-DR takes. -/
def drCapture (v : BitVec 3072) (s : State) : State := s.setDbg fun d => { d with captured := v }

/-! Boundary register (19 R943 to R945) -/

/-- Pins with cells: user pins 0 to 959 by bank × 48 + pin, service pins from 960. -/
def boundaryPins : Nat := 1024

/-- The output and enable that a pin's function drives. -/
def State.padFunction (s : State) (k : Nat) : Bool × Bool :=
  if k < 960 then (match s.uioDrive k with
    | some v => (v, true)
    | none => (s.uioOut k, false))
  else s.pinDrive (k - 960)

/-- The output and enable at a pin, under the scan instruction in force (19 R944). -/
def State.padDrive (s : State) (k : Nat) : Bool × Bool :=
  let i := s.irActs s.dbg.ir.toNat
  if i = irExtest ∨ i = irClamp then (s.dbg.cells.getLsbD (3 * k + 1), s.dbg.cells.getLsbD (3 * k + 2))
  else if i = irHighz then ((s.padFunction k).1, false)
  else s.padFunction k

/-- The level at a pin as its input cell captures it; a bank without VCCO captures 0 (19 R945). -/
def State.padLevel (s : State) (levels : BitVec 960) (k : Nat) : Bool :=
  if k < 960 then !s.fabric.bankOff.contains (k / 48) && levels.getLsbD k else s.svc.high.contains (k - 960)

/-- What the boundary register captures. -/
def State.boundary (s : State) (levels : BitVec 960) : BitVec 3072 :=
  BitVec.ofNat 3072 (packBits ((List.range boundaryPins).flatMap fun k =>
    let d := s.padDrive k
    [s.padLevel levels k, d.1, d.2]))

/-- One scan of the boundary register under an instruction; a level below its own makes it BYPASS. -/
def boundaryScan (c : Nat) (cells : BitVec 3072) (levels : BitVec 960) (s : State) : State :=
  let s1 := irLoad c s
  if s1.irActs c ≠ c then drCapture 0 s1
  else (drCapture (s1.boundary levels) s1).setDbg fun d => { d with cells := cells }

def execExtest (cells : BitVec 3072) (levels : BitVec 960) (s : State) : Out := .next (boundaryScan irExtest cells levels s)
def execSamplePreload (cells : BitVec 3072) (levels : BitVec 960) (s : State) : Out :=
  .next (boundaryScan irSample cells levels s)

def execIdcode (s : State) : Out := .next (drCapture (BitVec.ofNat 3072 R.IDN_IDCODE.rst) (irLoad irIdcode s))
def execClamp (s : State) : Out := .next (drCapture 0 (irLoad irClamp s))
def execHighz (s : State) : Out := .next (drCapture 0 (irLoad irHighz s))

/-- BYPASS, or another code that acts as it. -/
def execBypass (code : Byte) (s : State) : Out :=
  .next (if s.irActs code.toNat = irBypass then drCapture 0 (irLoad code.toNat s) else s)

/-! Access level (19 R949 to R952, R966) -/

/-- Cores that the debug port may stop no longer: they resume, and their bits of DBG_RESET_HALT and DBG_BREAK_HALT clear. -/
def dbgLeave (cores : List Nat) (s : State) : State :=
  s.each cores fun t n =>
    let t1 := resumeCore n (t.clear F.DBG_CORE_STATUS_DEFERRED n)
    (t1.putBit F.DBG_RESET_HALT_CORES 0 n false).putBit F.DBG_BREAK_HALT_CORES 0 n false

/-- Emulation of a power state ends: the state is entered (19 R966). -/
def emulationEnd (s : State) : State :=
  if s.on F.PWR_STATE_EMULATED then pwrEnter (s.get F.PWR_STATE_CURRENT) (s.clear F.PWR_STATE_EMULATED) else s

/-- The access level becomes `l`. -/
def levelTo (l : Nat) (s : State) : State :=
  let old := s.dbg.level
  if l = old then s
  else
    let s1 := (s.setDbg fun d => { d with level := l }).raise F.DBG_ERR_LEVEL
    let s2 := s1.when (decide (l < 4) && decide (4 ≤ old)) (dbgLeave [8])
    s2.when (decide (l < 3) && decide (3 ≤ old)) fun t =>
      emulationEnd ((dbgLeave (List.range 8) t).setDbg fun d => { d with pulse := false })

/-- Test-Logic-Reset, which loads IDCODE; TRST_N low also makes the level 0 (19 R941, R949). -/
def execTapReset (trst : Bool) (s : State) : Out := .next ((irLoad irIdcode s).when trst (levelTo 0))

/-! Authorisation (19 R946 to R948) -/

/-- The nonce of draw `k`: 32 bytes. -/
def nonceBytes (k : Nat) : List Byte := (List.range 4).flatMap fun i => natBytes (Config.freeWord (k + i)).toNat 8

/-- Takes `n` draws of the random source. -/
def State.draws (s : State) (n : Nat) : State := { s with free := s.free + n }

/-- What VAP_CHAL captures: the last nonce drawn; before there is one, a free value. -/
def chalCapture (s : State) : State :=
  match s.dbg.nonce with
  | some k => drCapture (BitVec.ofNat 3072 (bytesNat (nonceBytes k))) s
  | none => drCapture (BitVec.ofNat 3072 (bytesNat (nonceBytes s.free))) (s.draws 4)

/-- A challenge for level `l`: ignored while locked out, or for level 4 when the fuses lock warden debug out. -/
def chalAsk (l : Nat) (s : State) : State :=
  if l = 0 ∨ 4 < l ∨ s.dbg.lockedOut ∨ (l = 4 ∧ s.fuses.lockout) then s
  else (s.setDbg fun d => { d with chal := some (s.free, l), nonce := some s.free }).draws 4

/-- A VAP register or the warden cannot be reached: the Geode base domain is off (19 R959). -/
def execVapChal (dr : BitVec 256) (s : State) : Out :=
  .next <|
    let s1 := irLoad irVapChal s
    if s.power.asleep then drCapture 0 s1 else chalAsk (dr.toNat % 8) (chalCapture s1)

/-- The bytes whose HMAC answers a challenge: VAPUNLK1, the serial number, the nonce, the level (19 R947). -/
def unlockBytes (k l : Nat) : List Byte :=
  [0x56, 0x41, 0x50, 0x55, 0x4E, 0x4C, 0x4B, 0x31] ++ natBytes Config.serial.toNat 8 ++ nonceBytes k ++ natBytes l 1

/-- An answer is judged. -/
def authJudge (r : BitVec 256) (s : State) : State :=
  let done := s.setDbg fun d => { d with chal := none }
  let hit := match s.dbg.chal with
    | some (k, l) => if (Config.unlockHmac (unlockBytes k l)) = r then some l else none
    | none => none
  match hit with
  | some l => levelTo l (done.setDbg fun d => { d with fails := 0 })
  | none =>
    let n := min 7 (s.dbg.fails + 1)
    (done.setDbg fun d => { d with fails := n, lockedOut := d.lockedOut || n == 7 }).raise F.DBG_ERR_AUTH_FAIL

def execVapAuth (dr : BitVec 256) (s : State) : Out :=
  .next <|
    let s1 := drCapture 0 (irLoad irVapAuth s)
    if s.power.asleep then s1 else authJudge dr s1

/-! VAP registers (19 R953 to R959) -/

def vapStatus (s : State) : Nat :=
  let d := s.dbg
  d.level + 8 * ofFlag s.attached + 16 * ofFlag d.lockedOut + 32 * d.fails + 256 * ofFlag d.chal.isSome
    + 512 * ofFlag d.busy + 4096 * d.resp

/-- The value of VAP register `r`; all read 0 while the base domain is off. -/
def vapRead (r : Nat) (s : State) : Nat :=
  let d := s.dbg
  if s.power.asleep then 0
  else if r = 0 then vapStatus s
  else if r = 2 then d.addr.toNat % 2 ^ 32
  else if r = 3 then d.addr.toNat / 2 ^ 32
  else if r = 4 then d.csw.toNat
  else if r = 5 then d.data.toNat % 2 ^ 32
  else if r = 6 then d.data.toNat / 2 ^ 32
  else 0

/-- A write of VAP_CTRL: LEVEL_SET, then WAKE (19 R949, 17 R903). -/
def vapCtrl (w : Nat) (s : State) : State := (levelTo (min s.dbg.level (w % 8)) s).when (bit w 8) (wakeFire 10)

/-- A write of VAP register `r`. -/
def vapPut (r w : Nat) (s : State) : State :=
  if r = 1 then vapCtrl w s
  else s.setDbg fun d =>
    if r = 2 then { d with addr := BitVec.ofNat 48 (d.addr.toNat / 2 ^ 32 * 2 ^ 32 + w) }
    else if r = 3 then { d with addr := BitVec.ofNat 48 (w % 2 ^ 16 * 2 ^ 32 + d.addr.toNat % 2 ^ 32) }
    else if r = 4 then { d with csw := BitVec.ofNat 11 w }
    else if r = 5 then { d with data := BitVec.ofNat 64 (d.data.toNat / 2 ^ 32 * 2 ^ 32 + w) }
    else if r = 6 then { d with data := BitVec.ofNat 64 (w * 2 ^ 32 + d.data.toNat % 2 ^ 32) }
    else if r = 7 ∧ w % 4 ≠ 0 then { d with busy := true, cmd := w % 4 }
    else d

/-- The level permits the register: VAP_STATUS and VAP_CTRL always, the others with the accesses of level 2 (19 R950). -/
def State.vapPermits (s : State) (r : Nat) : Bool := r < 2 || 2 ≤ s.dbg.level

def ackOk : BitVec 2 := 0
def ackWait : BitVec 2 := 1
def ackFault : BitVec 2 := 2

/-- An Update-DR of VAP_ACC (19 R953, R954). -/
def vapAccess (dr : Nat) (s : State) : State :=
  let w := dr % 2 ^ 32
  let r := bits dr 32 3
  let write := bit dr 35
  let ack := fun (a : BitVec 2) (t : State) => t.setDbg fun d => { d with ack := a }
  if bits dr 36 4 ≠ 0 ∨ !s.vapPermits r then ack ackFault s
  else if write && r == 7 && s.dbg.busy then ack ackWait s
  else if !write then ack ackOk (s.setDbg fun d => { d with read := BitVec.ofNat 32 (vapRead r s) })
  else ack ackOk (if s.power.asleep then s else vapPut r w s)

/-- One scan of VAP_ACC: the capture of the last read and its ACK, then the update. -/
def vapScan (dr : Nat) (s : State) : State :=
  let s1 := irLoad irVapAcc s
  vapAccess dr (drCapture (BitVec.ofNat 3072 (s1.dbg.read.toNat + 2 ^ 32 * s1.dbg.ack.toNat)) s1)

def execVapAcc (dr : BitVec 40) (s : State) : Out := .next (vapScan dr.toNat s)

/-- The scan of VAP_ACC that writes a word to VAP_CTRL (19 R956). -/
def vapCtrlScan (w : W32) : Nat := w.toNat + 2 ^ 32 + 2 ^ 35

/-- A scan that writes VAP_CTRL. -/
def execLevelSet (w : W32) (s : State) : Out := .next (vapScan (vapCtrlScan w) s)

/-! VAP accesses (19 R955 to R958) -/

def vapBytes (s : State) : Nat := 2 ^ (s.dbg.csw.toNat % 4)
def vapMode (s : State) : Nat := bits s.dbg.csw.toNat 2 2
def vapCore (s : State) : Nat := bits s.dbg.csw.toNat 4 4
def vapQuiet (s : State) : Bool := !s.dbg.csw.getLsbD 9

/-- A Sand access that the level permits (19 R950). -/
def State.vapSandOk (s : State) (a : Nat) (write : Bool) : Bool :=
  let l := s.dbg.level
  if 3 ≤ l then true
  else if l = 2 then (if write then inCsr a && unitOf a < 4 else inCsr a || inBay a)
  else false

/-- The core that an access names is halted and open to the level. -/
def State.vapCoreOk (s : State) (n : Nat) : Bool := n < 9 && s.coreHalted n && dbgNeeds n ≤ s.dbg.level

/-- The checks of an access through a core; a check that would trap ends it instead. -/
def State.vapCoreCheck (s : State) (n a k perm : Nat) : Option Resp :=
  if !s.vapCoreOk n then some .denied
  else if (s.core n).refuses a k perm then some .denied
  else if a % k ≠ 0 then some .size
  else none

/-- A read through a core's own caches. -/
def vapCoreRead (n a k : Nat) (env : Env) (s : State) : Resp × List Byte × State :=
  match s.vapCoreCheck n a k 0 with
  | some r => (r, [], s)
  | none => match coreLoad n a k (vapQuiet s) env s with
    | (.data bs, t) => (.okay, bs, t)
    | (.poison, t) => (.uncorrectable, [], t)
    | (.err r, t) => (r, [], t)

/-- A write through a core: its response goes to the port, not to the core. -/
def vapCoreWrite (n a : Nat) (data : List Byte) (env : Env) (s : State) : Resp × State :=
  match s.vapCoreCheck n a data.length 1 with
  | some r => (r, s)
  | none =>
    let kept := (s.core n).serr
    let t := coreStore n a data env (s.modCore n fun c => { c with serr := none })
    (((t.core n).serr.map (·.2)).getD .okay, t.modCore n fun c => { c with serr := kept })

/-- The register of a core that ADDR selects. -/
inductive CoreReg where
  | g (r : Nat)
  | pc
  | csr (num : Nat)
  | none
  deriving DecidableEq, Repr

def coreRegOf (a : Nat) : CoreReg :=
  if a < 32 then .g a
  else if a = 32 then .pc
  else if 0x1000 ≤ a ∧ a < 0x2000 ∧ csrListed (a - 0x1000) then .csr (a - 0x1000)
  else .none

/-- The checks of a core-register access: SIZE is 3, the core halted. -/
def State.vapRegCheck (s : State) (n : Nat) : Option Resp :=
  if !s.vapCoreOk n then some .denied else if vapBytes s ≠ 8 then some .size else none

def vapRegRead (n a : Nat) (s : State) : Resp × W64 × State :=
  match s.vapRegCheck n with
  | some r => (r, 0, s)
  | none => match coreRegOf a with
    | .g r => (.okay, s.greg n r, s)
    | .pc => (.okay, (s.core n).pc, s)
    | .csr num => (.okay, csrGet n num s, if num = 0x31 ∧ vapQuiet s then s else csrTaken n num s)
    | .none => (.denied, 0, s)

def vapRegWrite (n a : Nat) (v : W64) (s : State) : Resp × State :=
  match s.vapRegCheck n with
  | some r => (r, s)
  | none => match coreRegOf a with
    | .g r => (.okay, s.setGreg n r v)
    | .pc => (.okay, s.modCore n fun c => { c with pc := v })
    | .csr num => (.okay, csrPut n num v s)
    | .none => (.denied, s)

/-- The access ends: RESP, and ADDR advanced under AUTO_INC after a READ or WRITE. -/
def vapEnd (r : Resp) (moves : Bool) (s : State) : State :=
  s.setDbg fun d => { d with
    busy := false, resp := r.code
    addr := if moves && d.csw.getLsbD 8 then d.addr + BitVec.ofNat 48 (2 ^ (d.csw.toNat % 4)) else d.addr }

/-- A command of the port is under way. -/
def State.vapRuns (s : State) (cmd : Nat) : Bool := s.dbg.busy && s.dbg.cmd == cmd && !s.power.asleep

/-- The port as an initiator: PRIV 3, QUIET by SIDE_EFFECT (19 R956). -/
def vapAcc (s : State) : Acc := { ini := 0x49, quiet := vapQuiet s }

/-- READ: data that come with the response fill the data registers. -/
def vapReadDoes (env : Env) (s : State) : State :=
  let a := s.dbg.addr.toNat
  let k := vapBytes s
  let fill := fun (v : W64) (t : State) => t.setDbg fun d => { d with data := v }
  match vapMode s with
  | 0 =>
    if !s.vapSandOk a false then vapEnd .denied true s
    else
      let (m, t) := sandRead (vapAcc s) a k env s
      vapEnd m.resp true (if hasData m.resp then fill (BitVec.ofNat 64 (bytesNat m.bytes)) t else t)
  | 1 =>
    let (r, bs, t) := vapCoreRead (vapCore s) a k env s
    vapEnd r true (if r = .okay then fill (BitVec.ofNat 64 (bytesNat bs)) t else t)
  | 2 =>
    let (r, v, t) := vapRegRead (vapCore s) a s
    vapEnd r true (if r = .okay then fill v t else t)
  | _ => vapEnd .denied true s

def execVapRead (env : Env) (s : State) : Out := .next (if s.vapRuns 1 then vapReadDoes env s else s)

/-- WRITE. -/
def vapWriteDoes (env : Env) (s : State) : State :=
  let a := s.dbg.addr.toNat
  let data := natBytes s.dbg.data.toNat (vapBytes s)
  match vapMode s with
  | 0 =>
    if !s.vapSandOk a true then vapEnd .denied true s
    else let (r, t) := sandWrite (vapAcc s) a data false env s; vapEnd r true t
  | 1 => let (r, t) := vapCoreWrite (vapCore s) a data env s; vapEnd r true t
  | 2 => let (r, t) := vapRegWrite (vapCore s) a s.dbg.data s; vapEnd r true t
  | _ => vapEnd .denied true s

def execVapWrite (env : Env) (s : State) : Out := .next (if s.vapRuns 2 then vapWriteDoes env s else s)

/-- IMAGE: DATA_LO goes to the configuration logic or to the warden's steward-image input (19 R955). -/
def execImage (s : State) : Out :=
  .next <|
    if !s.vapRuns 3 then s
    else if s.dbg.level < 2 then vapEnd .denied false s
    else
      let w : W32 := s.dbg.data.setWidth 32
      let t := if s.dbg.csw.getLsbD 10 then
          (if s.warden.booting then s.setWarden fun v => { v with feed := v.feed ++ [w] } else s)
        else cfgWord .debug w s
      vapEnd .okay false t

/-- The debug wake request: a rising edge of TCK while the base domain is off, or a write of VAP_CTRL.WAKE (19 R959, 17 R903). -/
def execDebugWake (tck : Bool) (s : State) : Out := .next (if tck = s.power.asleep then wakeFire 10 s else s)

end Sys2Proof.Machine
end

