-- ==== Sys2Proof/Machine/Masters.lean ====
section
/-! DEFINITION. Engines that move data over Sand: DMA channels and the Verdict loader (15 R821 to R826, 09 R480). -/

namespace Sys2Proof.Machine

/-- How a movement of data ends: all of it, or at the request that failed, with its address. -/
inductive MoveEnd where
  | done
  | failed (r : Resp) (addr : Nat)
  deriving DecidableEq, Repr

/-- A DMA channel as an initiator. -/
def dmaAcc (c : Nat) : Acc := { ini := 0x50 + c }

/-- The requests of a transfer: offset and length of each, none of them crossing a 4 KiB boundary on either side (15 R822). -/
def dmaPieces (src dst : Nat) : Nat → Nat → Nat → List (Nat × Nat)
  | 0, _, _ => []
  | f + 1, o, n => if n = 0 then [] else
      let k := min n (min (4096 - (src + o) % 4096) (4096 - (dst + o) % 4096))
      (o, k) :: dmaPieces src dst f (o + k) (n - k)

/-- A read of a DMA channel with its one repeat (15 R818, R823). -/
def dmaRead (c a n : Nat) (env : Env) (s : State) : MemAns × State :=
  let (m, s1) := sandRead (dmaAcc c) a n env s
  if m.resp = .uncorrectable ∨ m.resp = .busy ∨ !m.poison.isEmpty then
    let (m2, s2) := sandRead (dmaAcc c) a n { env with upset := .none, busy := false } s1
    if m2.resp = .okay ∧ m2.poison.isEmpty then (m2, s2.bumpHold F.DMA_STATUS_TRANSIENT c) else (m2, s2)
  else (m, s1)

/-- One request of a transfer. -/
def dmaPiece (c : Nat) (d : DmaRun) (o n : Nat) (env : Env) (s : State) : MoveEnd × State :=
  let write (bs : List Byte) (t : State) : MoveEnd × State :=
    let (r, u) := sandWrite (dmaAcc c) (d.dst + o) bs false env t
    if r = .okay then (.done, u) else (.failed r (d.dst + o), u)
  if d.fill then write ((List.range n).map fun k => BitVec.ofNat 8 (d.pattern.toNat / 256 ^ (k % 8))) s
  else
    let (m, s1) := dmaRead c (d.src + o) n env s
    if m.resp = .okay ∧ m.poison.isEmpty then write m.bytes s1
    else (.failed m.resp (d.src + o), s1)

/-- The bytes from the start up to `upto`: how it ends, the bytes written, and the state after. -/
def dmaMove (c : Nat) (d : DmaRun) (upto : Nat) (env : Env) (s : State) : MoveEnd × Nat × State :=
  (dmaPieces d.src d.dst (upto / 2048 + 4) 0 upto).foldl (fun (acc : MoveEnd × Nat × State) p =>
    match acc.1 with
    | .failed .. => acc
    | .done =>
      let (e, t) := dmaPiece c d p.1 p.2 (Env.at_ env (p.1 == 0)) acc.2.2
      (e, if e = .done then p.1 + p.2 else acc.2.1, t)) (.done, 0, s)

/-- The channel has ended: state and bytes done. -/
def dmaEnd (c state bytes : Nat) (s : State) : State :=
  let s1 := (s.put F.DMA_STATUS_STATE c state).put F.DMA_DONE_BYTES_BYTES c bytes
  { s1 with dma := s1.dma.erase c }

/-- A halt (15 R824). -/
def dmaHaltAt (c bytes : Nat) (r : Resp) (addr : Nat) (s : State) : State :=
  let s1 := ((dmaEnd c dmaHalted bytes s).raise F.DMA_STATUS_HALTED c).put F.DMA_STATUS_RESP c r.code
  s1.put F.DMA_ERR_ADDR_ADDR c addr

/-- A stop by ABORT after `moved` bytes at most: RESP is 0 and no address fails (15 R825). -/
def dmaStopAt (c : Nat) (d : DmaRun) (moved : Nat) (env : Env) (s : State) : State :=
  let (e, n, s1) := dmaMove c d (min moved d.len / 8 * 8) env s
  match e with
  | .done => ((dmaEnd c dmaHalted n s1).raise F.DMA_STATUS_HALTED c).put F.DMA_STATUS_RESP c 0
  | .failed r a => dmaHaltAt c n r a s1

/-- A freeze of the DMA channels (19 R965). -/
def State.dmaFrozen (s : State) : Bool := s.freezing && s.on F.DBG_FREEZE_DMA

/-- A transfer is complete, unless a request of it fails (15 R822, R824). -/
def execDmaDone (ch : DmaId) (env : Env) (s : State) : Out :=
  .next <|
    let c := ch.val
    match s.dma.find c with
    | none => s
    | some d =>
      if d.stop || s.dmaFrozen || s.power.asleep then s
      else
        let (e, n, s1) := dmaMove c d d.len env s
        match e with
        | .done => (dmaEnd c dmaDone n s1).raise F.DMA_STATUS_DONE c
        | .failed r a => dmaHaltAt c n r a s1

/-- A channel halts at the request at byte `at_` of its transfer, whose read or write received `resp` from outside the
device's own rules (15 R823, R824): a timeout, a failed link, a bay's answer, a second BUSY or UNCORRECTABLE. -/
def execDmaHalt (ch : DmaId) (at_ : W32) (resp : Resp) (write : Bool) (s : State) : Out :=
  .next <|
    let c := ch.val
    match s.dma.find c with
    | none => s
    | some d =>
      if s.dmaFrozen || s.power.asleep || resp = .okay || d.len ≤ at_.toNat then s
      else
        let o := at_.toNat / 8 * 8
        let (e, n, s1) := dmaMove c d o {} s
        match e with
        | .failed r a => dmaHaltAt c n r a s1
        | .done =>
          let a := if write || d.fill then d.dst + o else d.src + o
          dmaHaltAt c n resp a (noteEnd (0x50 + c) a false resp s1)

/-- ABORT stops a running channel once `moved` bytes have been written (15 R825). -/
def execDmaAbort (ch : DmaId) (w moved : W32) (s : State) : Out :=
  .next <|
    let c := ch.val
    let s1 := dmaCtrlWrite c (w ||| 8).toNat s
    match s1.dma.find c with
    | none => s1
    | some d => if d.stop then dmaStopAt c d moved.toNat {} s1 else s1

/-! The Verdict loader engine (09 R480) -/

def loaderAcc : Acc := { ini := 0x4D }

/-- The engine reads 128 KiB and writes it to the spares of the replicas in service; a source read that fails stops it. -/
def execLoaderDone (s : State) : Out :=
  .next <|
    if s.vrd.job ≠ .load ∨ !s.unitClocked 8 then s
    else
      let a := s.get F.VRD_LDR_SRC_ADDR * 4096
      let (m, s1) := (pieces 34 a 131072).foldl (fun (acc : MemAns × State) p =>
        if acc.1.resp ≠ .okay then acc
        else let (m, t) := sandRead loaderAcc p.1 p.2 {} acc.2; (⟨m.resp, acc.1.bytes ++ m.bytes, []⟩, t)) (⟨.okay, [], []⟩, s)
      if m.resp = .okay then
        vrdLoaded ((List.range 16384).map fun k => BitVec.ofNat 64 (numAt m.bytes (8 * k) 8)) s1
      else ((vrdSparesUndef s1).setVrd fun v => { v with job := .idle }).raise F.VRD_ERR_LOAD_ERR

end Sys2Proof.Machine
end

