-- ==== Sys2Proof/Machine/Pins.lean ====
section
/-! DEFINITION. Events at the service pins that reach beyond their unit (18 R924 to R927, 19 R964, R965). -/

namespace Sys2Proof.Machine

/-- Channels whose XTRIG pin signal is pin `p` and that take it as an input. -/
def State.xtrigOf (s : State) (p : Nat) : List Nat :=
  (List.range 16).filter fun c => s.on F.DBG_XT_CH_IN_PIN c && s.sigPin svpXtrig c == some p

/-- Pin `p` asks for a wake: its IRQ is 1 and it is enabled for wake (18 R927). -/
def State.pinWakes (s : State) (p : Nat) : Bool := s.on F.SVP_PIN_CTRL_WAKE p && s.on F.SVP_PIN_STATUS_IRQ p

/-- `g` acts on pin `p`; where it sets the IRQ of a pin enabled for wake, wake source 8 fires (18 R927, 17 R903). -/
def pinWaking (p : Nat) (g : State → State) (s : State) : State :=
  let s1 := g s
  s1.when (s1.pinWakes p && !s.on F.SVP_PIN_STATUS_IRQ p) (wakeFire 8)

/-- A pin's level changes; a rise of an XTRIG signal fires its channel. The detector lies in the flint domain: it also acts with
the Geode base domain off (18 R911). -/
def pinChange (p : Nat) (high : Bool) (s : State) : State :=
  if s.svc.high.contains p = high then s
  else if s.power.asleep then
    let others := s.svc.high.filter (· != p)
    let s1 := s.setSvc fun v => { v with high := if high then others ++ [p] else others }
    pinWaking p (fun t => pinSettle p (pinEdge p high (t.flag F.SVP_PIN_STATUS_IN p high))) s1
  else (pinWaking p (pinLevel p high) s).when (high && !(s.xtrigOf p).isEmpty) (xtPulse (s.xtrigOf p))

def execPinLevelChange (pin : PinId) (high : Bool) (s : State) : Out := .next (pinChange pin.val high s)

def execPinFunctionSwitch (p : PinId) (w : W32) (ini : Ini) (s : State) : Out :=
  let (v, s1) := lockStep R.SVP_PIN_CTRL p w.toNat ini s
  .next (pinWaking p (pinCtrlWrite p v) s1)

def execSwitchWindowEnd (p : PinId) (s : State) : Out := .next (pinWaking p (pinWindowEnd p) s)

/-- A PWM timer wraps, unless a freeze holds its count. -/
def execTimerWrap (t : Fin 8) (s : State) : Out :=
  .next (if s.freezing && s.on F.DBG_FREEZE_SVP then s else timerWrap t.val s)

end Sys2Proof.Machine
end

