-- ==== Sys2Proof/Machine/Reset.lean ====
section
/-! DEFINITION. Warm reset, nRESET, power-on reset, and loss and return of a slab's rail (20 R978 to R988, 21 R994 to R997). -/

namespace Sys2Proof.Machine

/-! Warm reset (20 R981 to R983) -/

/-- Every running DMA channel stops wherever it is (step 2). -/
def dmaStopAll (s : State) : State :=
  s.each s.dma fun t e => dmaStopAt e.1 e.2 (Config.freeNat t.free % (e.2.len + 1)) {} t.fresh

/-- The watchdogs (step 5): watchdog 8 at its settings of reset, every count at its LOAD, STATUS of 0 to 7 cleared. -/
def wdgWarmReset (s : State) : State :=
  let s1 := (s.wr R.WDG_CTRL 8 3).wr R.WDG_LOAD 8 (BitVec.ofNat 64 R.WDG_LOAD.rst)
  let s2 := s1.each (List.range 9) fun t w => t.put F.WDG_COUNT_COUNT w (t.wdgLoad w)
  s2.each (List.range 8) fun t w => t.wr R.WDG_STATUS w 0

/-- The nine cores are reset with their control registers; no core is halted any more. -/
def coresWarmReset (s : State) : State :=
  let s1 := s.each (List.range 8) fun t n => t.wr R.WDG_CORE_CTRL n 0
  let s2 := s1.each (List.range 9) fun t n => (coreReset n t).wr R.DBG_CORE_STATUS n 0
  s2.setDbg fun d => { d with pulse := false }

/-- An exit from STANDBY that waits for the steward image ends in RUN, with the Clove cores in reset (20 R987). -/
def standbyCut (s : State) : State :=
  if s.power.resume then standbyFinish (s.setPower fun p => { p with ran := [] }) else s

/-- The warden begins again: the boot ROM, then the steward image (step 6). -/
def wardenBegin (s : State) : State :=
  (s.clear F.KEY_STATUS_PATCH_ACTIVE).setWarden fun _ => {}

/-- A warm reset. -/
def warmReset (s : State) : State :=
  let s1 := s.each ((List.range 8).filter s.coreRuns) fun t n => coreEnd n t
  let s2 := pgrAbort (dmaStopAll s1)
  let s3 := (evcWarmReset (boxesClear s2))
  resetHalt 8 (standbyCut (wardenBegin (coresWarmReset (wdgWarmReset s3))))

/-- The second expiry of watchdog `w` (14 R791): by ACTION for a Clove core, always a warm reset for Saffron. -/
def wdgSecond (w : Nat) (responds : Bool) (env : Env) (s : State) : State :=
  if !s.wdgCounts w || !s.on F.WDG_STATUS_STAGE1 w then s
  else
    let s1 := (s.raise F.WDG_STATUS_STAGE2 w).put F.WDG_COUNT_COUNT w 0
    if w = 8 then warmReset s1
    else match s.get F.WDG_CTRL_ACTION w with
      | 1 => coreBegin w ((coreEnd w s1).raise F.WDG_CORE_CTRL_RUN w)
      | 2 => coreOffline w responds env s1
      | _ => s1

def execWatchdogSecondExpiry (w : CoreId) (responds : Bool) (env : Env) (s : State) : Out :=
  .next (wdgSecond w.val responds env s)

/-- A warm reset by one of its causes (20 R978): a WARM_RESET request, LOCKUP of Saffron, the second expiry of watchdog 8. -/
def execWarmReset (cause : WarmCause) (s : State) : Out :=
  .next <|
    if s.power.asleep then s
    else match cause with
      | .request box =>
        if s.boxNext = some box.val ∧ s.get F.KEY_REQ_CTRL_CODE box.val = 0x0C then warmReset s else s
      | .lockup => if (s.core 8).lockup then warmReset s else s
      | .watchdog => wdgSecond 8 false {} s

/-! nRESET and power-on reset (20 R978 to R980, 21 R994, R995) -/

/-- Every register at its reset value and no bank retained; slabs without their rail fenced; configuration restarts. -/
def fullReset (cause : RestartCause) (mode id : Nat) (s : State) : State :=
  cfgRestart cause mode id (railsFence (deviceReset s))

/-- A low pulse of nRESET of `ns` nanoseconds: none below 100 ns, a reset from 1 µs; between them the device may do either
(20 R979). The scan port's TAP is not reset by it (19 R941). -/
def execNreset (ns : Nat) (mode : BitVec 3) (id : BitVec 4) (s : State) : Out :=
  .next <|
    let reset (t : State) : State :=
      (fullReset .nReset mode.toNat id.toNat t).setDbg fun d => { d with
        ir := t.dbg.ir, cells := t.dbg.cells, captured := t.dbg.captured }
    if ns < 100 then s
    else if ns < 1000 then (if Config.freeNat s.free % 2 = 0 then s.fresh else reset s.fresh)
    else reset s

/-- Power-on reset: bit k of `rails` is the VCC_FAB rail of slab k as it stands when the reset ends, and `off` the supplies of
the third group that are absent then (21 R992, R995, R998). -/
def execPowerOnReset (mode : BitVec 3) (id rails : BitVec 4) (off : List Supply) (s : State) : Out :=
  .next (fullReset .powerOn mode.toNat id.toNat
    { s with railsOff := (List.range 4).filter fun k => !rails.getLsbD k, supplyOff := off })

/-! Rails of the slabs (21 R996, R997) -/

/-- The rail of slab `k` is lost: the slab is fenced, its lane groups have no power, its pins are at high impedance. -/
def railLoss (k : Nat) (s : State) : State :=
  let s1 := { slabShut k s with railsOff := s.railsOff ++ [k] }
  let s2 := s1.each (List.range 3) fun t g => laneGroupOff (k * 3 + g) t
  { s2 with fabric := { s2.fabric with pins := s2.fabric.pins.filter fun e => e.2.held.isSome || e.1 / 240 != k } }

def execVccFabLoss (slab : Fin 4) (s : State) : Out := .next (if s.railUp slab.val then railLoss slab.val s else s)

/-- The rail of slab `k` returns: every frame of the slab blank, its bays BLANK, its links cleared; it stays fenced, and the
Pager rewrites its rim. -/
def railReturn (k : Nat) (s : State) : State :=
  let s1 := { s with railsOff := s.railsOff.filter (· != k) }
  let s2 := s1.each (slabBays k) fun t b => bayOff b t
  let f := s2.fabric
  let s3 := { s2 with
    fabric := { f with
      frames := f.frames.filter fun e => farSlab e.1 != k
      frameFlaw := f.frameFlaw.filter fun e => farSlab e.1 != k
      src := f.src.filter fun e => e.1.1 != k }
    sand := { s2.sand with failed := s2.sand.failed.filter fun l => !linkOfSlab k l } }
  rimRestore (s3.setPgr fun p => { p with rimDue := p.rimDue.filter (· != k) ++ [k] })

def execVccFabReturn (slab : Fin 4) (s : State) : Out := .next (if s.railUp slab.val then s else railReturn slab.val s)

end Sys2Proof.Machine
end

