-- ==== Sys2Proof/Machine/SliceIsa.lean ====
section
/-! DEFINITION. The slice instruction set: exact arithmetic, flags and every instruction (07 Arithmetic Slices: Instruction Set). -/

namespace Sys2Proof.Machine

/-! Arithmetic (07 R341) -/

/-- A value narrowed to a destination, with V and whether a clamp set SAT. -/
structure Fit where
  r : Int
  v : Bool
  clamp : Bool
  deriving DecidableEq, Repr

/-- Narrowing to the range `lo` to `hi`: V when outside, a clamp when saturation is asked for. -/
def fitTo (lo hi r : Int) (sat : Bool) : Fit :=
  let v := decide (r < lo ∨ hi < r)
  if v && sat then ⟨min (max r lo) hi, true, true⟩ else ⟨r, v, false⟩

/-- `fits` and `fitu` of 07 R341. -/
def fits (r : Int) (n : Nat) (sat : Bool) : Fit := fitTo (-(2 ^ (n - 1))) (2 ^ (n - 1) - 1) r sat
def fitu (r : Int) (n : Nat) (sat : Bool) : Fit := fitTo 0 (2 ^ n - 1) r sat

/-- `rnd` of 07 R341: division by 2^s with truncation, half up or half to even. -/
def rndDiv (r : Int) (s mode : Nat) : Int :=
  let d : Int := 2 ^ s
  let q := r / d
  if s = 0 ∨ mode = 0 then q
  else if mode = 1 then (r + d / 2) / d
  else
    let rem := r - q * d
    if d / 2 < rem ∨ (rem = d / 2 ∧ q % 2 = 1) then q + 1 else q

/-- `val` of the notation: two's complement, or unsigned when `u`. -/
def valOf {n : Nat} (v : BitVec n) (u : Bool) : Int := if u then (v.toNat : Int) else v.toInt

/-! Writing results -/

/-- Z and N from a written value, V as given, SAT set by a clamp only (07 R344, R345). -/
def setZNV (z n v clamp : Bool) (x : Slice) : Slice := { x with z := z, n := n, v := v, sat := x.sat || clamp }

/-- Writes a data register with flags Z N V. -/
def putX (k : Fin 8) (f : Fit) (x : Slice) : Slice :=
  let w := BitVec.ofInt 24 f.r
  setZNV (w == 0) w.msb f.v f.clamp { x with x := x.x.set k w }

/-- Writes an accumulator with flags Z N V. -/
def putA (k : Fin 4) (f : Fit) (x : Slice) : Slice :=
  let w := BitVec.ofInt 56 f.r
  setZNV (w == 0) w.msb f.v f.clamp { x with a := x.a.set k w }

/-- Writes a data register and leaves the flags. -/
def moveX (k : Fin 8) (w : W24) (x : Slice) : Slice := { x with x := x.x.set k w }

/-- Stores a word of data memory with new check bits; a write-back waiting on it is cancelled (06 R315). -/
def putDm (k : Nat) (w : W24) (x : Slice) : Slice :=
  { x with dm := x.dm.set k w, dmFlaw := x.dmFlaw.set k .none, dmBack := x.dmBack.filter (· ≠ k) }

/-- An emitted word enters the two-cycle path to the port with the tag of the current crossing (07 R357, R358). -/
def emitWord (w : Nat) (x : Slice) : Slice :=
  let d := x.x[fldXD w]
  let o : W24 := match fldEX w with
    | 0 => d
    | 1 => BitVec.ofNat 24 (x.i0.toNat % 256 * 2 ^ 16 + d.toNat % 2 ^ 16)
    | _ => BitVec.ofNat 24 (x.i0.toNat % 4096 * 2 ^ 12 + d.toNat % 2 ^ 12)
  { x with emits := x.emits ++ [(o, x.tag)] }

/-! The effects -/

def effNop : SliceEff := fun _ _ _ _ x => (x, .seq)
def effWaitx : SliceEff := fun _ _ _ _ x => (x, .stop .waiting)
def effHalt : SliceEff := fun _ _ _ _ x => (x, .stop .halted)
def effJmp : SliceEff := fun w _ _ _ x => (x, .jump (fldTGT w))

/-- The branch conditions (07 R362). -/
def sliceCond (c : Nat) (x : Slice) : Bool :=
  match c with
  | 0 => x.z | 1 => !x.z | 2 => x.n | 3 => !x.n | 4 => x.v | 5 => !x.v | 6 => x.sat | 7 => !x.sat
  | 8 => !x.z && x.n == x.v | 9 => x.z || x.n != x.v | 10 => x.n == x.v | _ => x.n != x.v

def effBr : SliceEff := fun w _ _ _ x => (x, if sliceCond (fldCND w) x then .jump (fldTGT w) else .seq)
def effLoop : SliceEff := fun w _ _ _ x => (x, .loop (fldN w) (fldTGT w))
def effLoopr : SliceEff := fun w _ _ _ x => (x, .loop ((x.x[fldXDJ w]).toNat % 1024) (fldTGT w))

/-- SETI writes the sign-extended immediate (07 R347). -/
def effSeti : SliceEff := fun w _ _ _ x => (setSliceReg x (fldREG w) ((fldIMM w).signExtend 64).toNat, .seq)

/-- The source of MOVR: signed for x, a, m and the cascade-out register, unsigned for the others (07 R347). -/
def moveSource (x : Slice) (k : Nat) : Nat :=
  let v := sliceReg x k
  if k < 8 then ((BitVec.ofNat 24 v).signExtend 64).toNat
  else if k < 12 ∨ k = 26 then ((BitVec.ofNat 56 v).signExtend 64).toNat
  else if 16 ≤ k ∧ k < 20 then ((BitVec.ofNat 11 v).signExtend 64).toNat
  else v

def effMovr : SliceEff := fun w _ _ _ x => (setSliceReg x (fldREG w) (moveSource x (fldRS w)), .seq)
def effLd : SliceEff := fun w u _ _ x => (moveX (fldXD w) u x, .seq)
def effLdd : SliceEff := fun w u v _ x => (moveX (fldXS w) v (moveX (fldXD w) u x), .seq)
def effSt : SliceEff := fun w _ _ _ x => (putDm (x.p[fldPA w]).toNat x.x[fldXD w] x, .seq)

/-- RDS removes the oldest stream word, or returns 0 with SIN_UNDER (06 R277). -/
def effRds : SliceEff := fun w _ _ _ x =>
  match x.sin with
  | d :: r => (moveX (fldXD w) d { x with sin := r }, .seq)
  | [] => (moveX (fldXD w) 0 { x with sinUnder := true }, .seq)

def effCinx : SliceEff := fun w _ _ c x => (moveX (fldXD w) (c.setWidth 24) x, .seq)
def effCout : SliceEff := fun w _ _ _ x =>
  ({ x with cout := if fldMD w 0 then (x.x[fldXD w]).signExtend 56 else x.a[fldA w] }, .seq)

def effAdd : SliceEff := fun w _ _ _ x =>
  (putX (fldXD w) (fits ((x.x[fldXD w]).toInt + (x.x[fldXS w]).toInt) 24 (fldMD w 2)) x, .seq)
def effSub : SliceEff := fun w _ _ _ x =>
  (putX (fldXD w) (fits ((x.x[fldXD w]).toInt - (x.x[fldXS w]).toInt) 24 (fldMD w 2)) x, .seq)

/-- A result that cannot overflow: Z and N from the word, V cleared. -/
def putXw (k : Fin 8) (r : W24) (x : Slice) : Slice := putX k ⟨r.toNat, false, false⟩ x

def effAnd : SliceEff := fun w _ _ _ x => (putXw (fldXD w) (x.x[fldXD w] &&& x.x[fldXS w]) x, .seq)
def effOr : SliceEff := fun w _ _ _ x => (putXw (fldXD w) (x.x[fldXD w] ||| x.x[fldXS w]) x, .seq)
def effXor : SliceEff := fun w _ _ _ x => (putXw (fldXD w) (x.x[fldXD w] ^^^ x.x[fldXS w]) x, .seq)
def effShf : SliceEff := fun w _ _ _ x =>
  let d := x.x[fldXD w]
  (putXw (fldXD w) (match fldMD2 w with
    | 0 => d <<< fldS w
    | 1 => d >>> fldS w
    | _ => d.sshiftRight (fldS w)) x, .seq)

/-- CMP sets the flags of the difference and writes nothing (07 R343, R344). -/
def effCmp : SliceEff := fun w _ _ _ x =>
  let f := fits ((x.x[fldXD w]).toInt - (x.x[fldXS w]).toInt) 24 false
  let r := BitVec.ofInt 24 f.r
  (setZNV (r == 0) r.msb f.v false x, .seq)

def effAddi : SliceEff := fun w _ _ _ x =>
  let k : Fin 8 := Fin.ofNat 8 (fldREG w)
  (putX k (fits ((x.x[k]).toInt + (fldIMM w).toInt) 24 false) x, .seq)

/-! Multiply family (07 R350) -/

/-- The product of two operands with their signedness bits. -/
def mulProd (w : Nat) (u v : W24) : Int := valOf u (fldMD w 0) * valOf v (fldMD w 1)

def effMpy : SliceEff := fun w _ _ _ x =>
  (putA (fldA w) (fits (mulProd w x.x[fldXD w] x.x[fldXS w]) 56 (fldMD w 2)) x, .seq)
def effMac : SliceEff := fun w _ _ _ x =>
  (putA (fldA w) (fits ((x.a[fldA w]).toInt + mulProd w x.x[fldXD w] x.x[fldXS w]) 56 (fldMD w 2)) x, .seq)
def effMsu : SliceEff := fun w _ _ _ x =>
  (putA (fldA w) (fits ((x.a[fldA w]).toInt - mulProd w x.x[fldXD w] x.x[fldXS w]) 56 (fldMD w 2)) x, .seq)
def effMacm : SliceEff := fun w u v _ x =>
  (putA (fldA w) (fits ((x.a[fldA w]).toInt + mulProd w u v) 56 (fldMD w 2)) x, .seq)

/-- TAP multiplies the value XD held, stores that value over the word it reads, and returns the word (07 R351). -/
def effTap : SliceEff := fun w u v _ x =>
  let d := x.x[fldXD w]
  let x1 := putA (fldA w) (fits ((x.a[fldA w]).toInt + mulProd w d v) 56 (fldMD w 2)) x
  (moveX (fldXD w) u (putDm (x.p[fldPA w]).toNat d x1), .seq)

def effAdda : SliceEff := fun w _ _ _ x =>
  (putA (fldA w) (fits ((x.a[fldA w]).toInt + valOf x.x[fldXD w] (fldMD w 0) * 2 ^ fldS w) 56 (fldMD w 2)) x, .seq)

/-- ASH: left with saturation, right with rounding (07 R352). -/
def effAsh : SliceEff := fun w _ _ _ x =>
  let k := (BitVec.ofNat 6 (fldS w)).toInt
  let a := (x.a[fldA w]).toInt
  (putA (fldA w) (if 0 ≤ k then fits (a * 2 ^ k.toNat) 56 (fldMD w 2)
    else fits (rndDiv a (-k).toNat (fldMD2 w)) 56 false) x, .seq)

/-- RND rounds and clamps to signed or unsigned 24 bits (07 R353). -/
def effRnd : SliceEff := fun w _ _ _ x =>
  let r := rndDiv (x.a[fldA w]).toInt (fldS w) (fldMD2 w)
  (putX (fldXD w) (if fldMD w 3 then fitu r 24 true else fits r 24 true) x, .seq)

def effCadd : SliceEff := fun w _ _ c x =>
  (putA (fldA w) (if fldMD w 3 then ⟨c.toInt, false, false⟩
    else fits ((x.a[fldA w]).toInt + c.toInt) 56 (fldMD w 2)) x, .seq)

/-! Search and emit -/

/-- A search step: `better` compares the memory word with XD (07 R354, R355). -/
def searchStep (better : Int → Int → Bool) (w : Nat) (u : W24) (x : Slice) : Slice :=
  let d := x.x[fldXD w]
  let a := valOf u (fldMD w 0)
  let b := valOf d (fldMD w 0)
  if better a b || (fldMD w 1 && a == b) then
    let idx := if fldMD w 2 then (match x.loops with | l :: _ => l.count | [] => 0) else (x.p[fldPA w]).toNat
    { moveX (fldXD w) u x with i0 := BitVec.ofNat 16 idx }
  else x

def effMaxs : SliceEff := fun w u _ _ x => (searchStep (fun a b => decide (b < a)) w u x, .seq)
def effMins : SliceEff := fun w u _ _ x => (searchStep (fun a b => decide (a < b)) w u x, .seq)

/-- THE emits when XD reaches the threshold in XS, and sets Z when it does not (07 R356). -/
def effThe : SliceEff := fun w _ _ _ x =>
  let c := valOf x.x[fldXD w] (fldMD w 0) - valOf x.x[fldXS w] (fldMD w 0)
  let e := decide (0 < c) || (!fldMD w 1 && c == 0)
  ({ (if e then emitWord w x else x) with z := !e }, .seq)

def effEmit : SliceEff := fun w _ _ _ x => (emitWord w x, .seq)

/-! Tri-8 forms (07 R359 to R361) -/

/-- Lane `j` of an accumulator and of a data register. -/
def accLane (a : BitVec 56) (j : Nat) : Nat := bits a.toNat (18 * j) 18
def wordLane (d : W24) (j : Nat) : Nat := bits d.toNat (8 * j) 8

/-- Three lane results into an accumulator, with V and SAT over the lanes and Z, N of the accumulator. -/
def putLanes (k : Fin 4) (f : Nat → Fit) (x : Slice) : Slice :=
  let l := fun j => ((f j).r % 2 ^ 18).toNat
  let a := BitVec.ofNat 56 (l 0 + 2 ^ 18 * l 1 + 2 ^ 36 * l 2)
  setZNV (a == 0) a.msb ((f 0).v || (f 1).v || (f 2).v) ((f 0).clamp || (f 1).clamp || (f 2).clamp)
    { x with a := x.a.set k a }

/-- The lane source of T8ADD and T8SUB. -/
def t8Source (w : Nat) (u : W24) (x : Slice) : W24 := if fldMD w 3 then u else x.x[fldXD w]

def effT8add : SliceEff := fun w u _ _ x =>
  (putLanes (fldA w) (fun j => fitu ((accLane x.a[fldA w] j : Int) + wordLane (t8Source w u x) j) 18 (fldMD w 2)) x, .seq)
def effT8sub : SliceEff := fun w u _ _ x =>
  (putLanes (fldA w) (fun j => fitu ((accLane x.a[fldA w] j : Int) - wordLane (t8Source w u x) j) 18 (fldMD w 2)) x, .seq)
def effT8mac : SliceEff := fun w _ _ _ x =>
  (putLanes (fldA w) (fun j => fitu ((accLane x.a[fldA w] j : Int)
    + wordLane x.x[fldXD w] j * wordLane x.x[fldXS w] j) 18 (fldMD w 2)) x, .seq)

/-- Three 8-bit lanes into a word. -/
def packLanes (l : Nat → Nat) : W24 := BitVec.ofNat 24 (l 0 % 256 + 2 ^ 8 * (l 1 % 256) + 2 ^ 16 * (l 2 % 256))

def effT8max : SliceEff := fun w _ _ _ x =>
  (moveX (fldXD w) (packLanes (fun j => max (wordLane x.x[fldXD w] j) (wordLane x.x[fldXS w] j))) x, .seq)
def effT8min : SliceEff := fun w _ _ _ x =>
  (moveX (fldXD w) (packLanes (fun j => min (wordLane x.x[fldXD w] j) (wordLane x.x[fldXS w] j))) x, .seq)

/-- T8PK: rounded and clamped lanes; N is cleared, Z and V follow (07 R343, R360). -/
def effT8pk : SliceEff := fun w _ _ _ x =>
  let f := fun j => fitu (rndDiv (accLane x.a[fldA w] j) (fldS w) (fldMD2 w)) 8 true
  let r := packLanes (fun j => (f j).r.toNat)
  (setZNV (r == 0) false ((f 0).v || (f 1).v || (f 2).v) ((f 0).clamp || (f 1).clamp || (f 2).clamp)
    (moveX (fldXD w) r x), .seq)

def effT8hs : SliceEff := fun w _ _ _ x =>
  let a := x.a[fldA w]
  let r := BitVec.ofNat 24 (accLane a 0 + accLane a 1 + accLane a 2)
  (setZNV (r == 0) false false false (moveX (fldXD w) r x), .seq)

/-! The rows -/

def execSliceNop (cx : SliceCx) (f : BitVec 34) (s : State) : Out := .next (sliceIssue cx 0x01 f effNop s)
def execWaitx (cx : SliceCx) (f : BitVec 34) (s : State) : Out := .next (sliceIssue cx 0x02 f effWaitx s)
def execHalt (cx : SliceCx) (f : BitVec 34) (s : State) : Out := .next (sliceIssue cx 0x03 f effHalt s)
def execJmp (cx : SliceCx) (f : BitVec 34) (s : State) : Out := .next (sliceIssue cx 0x04 f effJmp s)
def execBr (cx : SliceCx) (f : BitVec 34) (s : State) : Out := .next (sliceIssue cx 0x05 f effBr s)
def execLoop (cx : SliceCx) (f : BitVec 34) (s : State) : Out := .next (sliceIssue cx 0x06 f effLoop s)
def execLoopr (cx : SliceCx) (f : BitVec 34) (s : State) : Out := .next (sliceIssue cx 0x07 f effLoopr s)
def execSeti (cx : SliceCx) (f : BitVec 34) (s : State) : Out := .next (sliceIssue cx 0x08 f effSeti s)
def execMovr (cx : SliceCx) (f : BitVec 34) (s : State) : Out := .next (sliceIssue cx 0x09 f effMovr s)
def execSliceLd (cx : SliceCx) (f : BitVec 34) (s : State) : Out := .next (sliceIssue cx 0x0A f effLd s)
def execLdd (cx : SliceCx) (f : BitVec 34) (s : State) : Out := .next (sliceIssue cx 0x0B f effLdd s)
def execSt (cx : SliceCx) (f : BitVec 34) (s : State) : Out := .next (sliceIssue cx 0x0C f effSt s)
def execRds (cx : SliceCx) (f : BitVec 34) (s : State) : Out := .next (sliceIssue cx 0x0D f effRds s)
def execCinx (cx : SliceCx) (f : BitVec 34) (s : State) : Out := .next (sliceIssue cx 0x0E f effCinx s)
def execCout (cx : SliceCx) (f : BitVec 34) (s : State) : Out := .next (sliceIssue cx 0x0F f effCout s)
def execSliceAdd (cx : SliceCx) (f : BitVec 34) (s : State) : Out := .next (sliceIssue cx 0x10 f effAdd s)
def execSliceSub (cx : SliceCx) (f : BitVec 34) (s : State) : Out := .next (sliceIssue cx 0x11 f effSub s)
def execSliceAnd (cx : SliceCx) (f : BitVec 34) (s : State) : Out := .next (sliceIssue cx 0x12 f effAnd s)
def execSliceOr (cx : SliceCx) (f : BitVec 34) (s : State) : Out := .next (sliceIssue cx 0x13 f effOr s)
def execSliceXor (cx : SliceCx) (f : BitVec 34) (s : State) : Out := .next (sliceIssue cx 0x14 f effXor s)
def execShf (cx : SliceCx) (f : BitVec 34) (s : State) : Out := .next (sliceIssue cx 0x15 f effShf s)
def execCmp (cx : SliceCx) (f : BitVec 34) (s : State) : Out := .next (sliceIssue cx 0x16 f effCmp s)
def execSliceAddi (cx : SliceCx) (f : BitVec 34) (s : State) : Out := .next (sliceIssue cx 0x17 f effAddi s)
def execMpy (cx : SliceCx) (f : BitVec 34) (s : State) : Out := .next (sliceIssue cx 0x18 f effMpy s)
def execMac (cx : SliceCx) (f : BitVec 34) (s : State) : Out := .next (sliceIssue cx 0x19 f effMac s)
def execMsu (cx : SliceCx) (f : BitVec 34) (s : State) : Out := .next (sliceIssue cx 0x1A f effMsu s)
def execMacm (cx : SliceCx) (f : BitVec 34) (s : State) : Out := .next (sliceIssue cx 0x1B f effMacm s)
def execTap (cx : SliceCx) (f : BitVec 34) (s : State) : Out := .next (sliceIssue cx 0x1C f effTap s)
def execAdda (cx : SliceCx) (f : BitVec 34) (s : State) : Out := .next (sliceIssue cx 0x1D f effAdda s)
def execAsh (cx : SliceCx) (f : BitVec 34) (s : State) : Out := .next (sliceIssue cx 0x1E f effAsh s)
def execRnd (cx : SliceCx) (f : BitVec 34) (s : State) : Out := .next (sliceIssue cx 0x1F f effRnd s)
def execCadd (cx : SliceCx) (f : BitVec 34) (s : State) : Out := .next (sliceIssue cx 0x20 f effCadd s)
def execMaxs (cx : SliceCx) (f : BitVec 34) (s : State) : Out := .next (sliceIssue cx 0x22 f effMaxs s)
def execMins (cx : SliceCx) (f : BitVec 34) (s : State) : Out := .next (sliceIssue cx 0x23 f effMins s)
def execThe (cx : SliceCx) (f : BitVec 34) (s : State) : Out := .next (sliceIssue cx 0x24 f effThe s)
def execEmit (cx : SliceCx) (f : BitVec 34) (s : State) : Out := .next (sliceIssue cx 0x25 f effEmit s)
def execT8add (cx : SliceCx) (f : BitVec 34) (s : State) : Out := .next (sliceIssue cx 0x28 f effT8add s)
def execT8sub (cx : SliceCx) (f : BitVec 34) (s : State) : Out := .next (sliceIssue cx 0x29 f effT8sub s)
def execT8mac (cx : SliceCx) (f : BitVec 34) (s : State) : Out := .next (sliceIssue cx 0x2A f effT8mac s)
def execT8max (cx : SliceCx) (f : BitVec 34) (s : State) : Out := .next (sliceIssue cx 0x2B f effT8max s)
def execT8min (cx : SliceCx) (f : BitVec 34) (s : State) : Out := .next (sliceIssue cx 0x2C f effT8min s)
def execT8pk (cx : SliceCx) (f : BitVec 34) (s : State) : Out := .next (sliceIssue cx 0x2D f effT8pk s)
def execT8hs (cx : SliceCx) (f : BitVec 34) (s : State) : Out := .next (sliceIssue cx 0x2E f effT8hs s)

end Sys2Proof.Machine
end

