-- ==== Sys2Proof/Machine/Verbs.lean ====
section
/-! DEFINITION. The verbs stream of a session: register and memory accesses by the host (11 R590 to R592). -/

namespace Sys2Proof.Machine

/-- A verb with OP, LEN and ADDR as its header gives them, and the bytes of a WRITE. -/
structure Verb where
  op : Nat
  len : Nat
  addr : Nat
  head : List Byte
  data : List Byte
  deriving DecidableEq, Repr

def verbOpRead : Nat := 1
def verbOpWrite : Nat := 2

/-- Bytes padded with zeros to a multiple of 8. -/
def pad8 (bs : List Byte) : List Byte := bs ++ List.replicate ((8 - bs.length % 8) % 8) 0

/-- Bytes that a verb takes in the stream: header and DATA padded to a multiple of 8. -/
def verbSize (op len : Nat) : Nat := if op = verbOpWrite then (16 + len + 1 + 7) / 8 * 8 else 16

/-- The verb at the front of the stream, once every byte of it has been received (11 R592). -/
def verbFront (bs : List Byte) : Option Verb :=
  let op := numAt bs 0 1
  let len := numAt bs 2 2
  if bs.length < 16 ∨ bs.length < verbSize op len then none
  else some { op, len, addr := numAt bs 8 8, head := bs.take 16, data := if op = verbOpWrite then sub bs 16 (len + 1) else [] }

/-- The engine executes the verb: its OP is known and it crosses no 4 KiB boundary (11 R590, R591). -/
def verbGood (v : Verb) : Bool :=
  (v.op == verbOpRead || v.op == verbOpWrite) && v.addr < 2 ^ 48 && !crosses4K v.addr (v.len + 1)

/-- The response: the verb's header with STATUS, and the data of a READ. -/
def verbReply (v : Verb) (status : Nat) (data : List Byte) : List Byte :=
  pad8 (v.head.take 1 ++ natBytes status 1 ++ v.head.drop 2 ++ data)

/-- Sends response bytes on the verbs stream, each segment filled (11 R592). -/
def verbSend (n : Nat) (bs : List Byte) (s : State) : State :=
  let cuts := cutChunk (bs.length + 1) (max 1 (s.segMax (s.sess n))) false bs
  pumpOne n 1 (s.each cuts fun t c => queueSeg n 1 false c.2 t)

/-- Takes the front verb when it is of the kind told, and answers it with what `g` makes of it. -/
def verbTake (n : Nat) (p : Verb → Bool) (g : Verb → State → Nat × List Byte × State) (s : State) : State :=
  let x := s.sess n
  if x.st = .closed ∨ s.power.asleep then s
  else match verbFront x.verbs with
    | none => s
    | some v =>
      if !p v then s
      else
        let (status, data, t) := g v (s.modSess n fun y => { y with verbs := y.verbs.drop (verbSize v.op v.len) })
        verbSend n (verbReply v status data) t

/-- The engine as an initiator: PRIV 3, QUIET 0 (11 R591). -/
def ktpAcc : Acc := { ini := ktpIni }

def execVerbRead (slot : SlotId) (env : Env) (s : State) : Out :=
  .next <| verbTake slot.val (fun v => verbGood v && v.op == verbOpRead) (fun v t =>
    let (m, u) := sandRead ktpAcc v.addr (v.len + 1) env t
    (m.resp.code, if hasData m.resp then m.bytes else [], u)) s

def execVerbWrite (slot : SlotId) (env : Env) (s : State) : Out :=
  .next <| verbTake slot.val (fun v => verbGood v && v.op == verbOpWrite) (fun v t =>
    let (r, u) := sandWrite ktpAcc v.addr v.data false env t
    (r.code, [], u)) s

/-- A verb that is not executed answers with the code of SIZE. -/
def execBadVerb (slot : SlotId) (s : State) : Out :=
  .next <| verbTake slot.val (fun v => !verbGood v) (fun _ t => (Resp.size.code, [], t)) s

end Sys2Proof.Machine
end

