-- ==== Sys2Proof/Machine/Warden.lean ====
section
/-! DEFINITION. The warden's requests and the steward image (14 R769 to R783, 11 R607 to R612, 15 HANDOVER, 16 R852). -/

namespace Sys2Proof.Machine

/-! The warden's own memory accesses -/

/-- Saffron at W as an initiator. -/
def wardenAcc : Acc := { ini := 0x48, priv := 2 }

/-- A read piece by piece, up to the first error. -/
def wardenRead (a n : Nat) (env : Env) (s : State) : MemAns × State :=
  (pieces (n / 4096 + 2) a n).foldl (fun (acc : MemAns × State) p =>
    if acc.1.resp ≠ .okay then acc
    else let (m, t) := sandRead wardenAcc p.1 p.2 (Env.at_ env (p.1 == a)) acc.2; (⟨m.resp, acc.1.bytes ++ m.bytes, []⟩, t))
    (⟨.okay, [], []⟩, s)

/-- A write piece by piece, up to the first error. -/
def wardenWrite (a : Nat) (data : List Byte) (env : Env) (s : State) : Resp × State :=
  (pieces (data.length / 4096 + 2) a data.length).foldl (fun (acc : Resp × State) p =>
    if acc.1 ≠ .okay then acc
    else sandWrite wardenAcc p.1 ((data.drop (p.1 - a)).take p.2) false (Env.at_ env (p.1 == a)) acc.2) (.okay, s)

/-- An argument is a physical address. -/
def addrArg (w : W64) : Bool := w.toNat < 2 ^ 48

/-! Scratchpad, keys and locks -/

/-- Clove core 0 runs steward code from banks 30 and 31. -/
def State.stewardRuns (s : State) : Bool := s.coreRuns 0

def doHandover (box : Nat) (s : State) : ReqDoes :=
  let b := (s.boxArg box 0).toNat
  let code := (s.boxArg box 1).toNat
  if 32 ≤ b ∨ 2 ^ 14 ≤ code ∨ !ownerOk code ∨ s.on F.SPD_HANDOVER_PENDING b then .ends reqBadArg
  else if (s.on F.LDG_STATUS_RUNNING && bit (s.get F.LDG_TIER_BANKS_MASK) b) || (30 ≤ b && s.stewardRuns) then .ends reqDenied
  else if !s.domOn (86 + b / 8) then .ends reqFailed
  else .does 0 fun t => spdHandoverDone b (spdHandoverWrite b code t)

/-- HANDOVER (15 R803). -/
def execHandover (box : BoxId) (s : State) : Out := .next (reqServe box.val 2 (doHandover box.val) s)

def doMemKey (box : Nat) (env : Env) (s : State) : ReqDoes :=
  let r := (s.boxArg box 0).toNat
  let k := (s.boxArg box 1).toNat
  if 8 ≤ r ∨ 3 ≤ k then .ends reqBadArg
  else if k = 0 then .does 0 fun t => { t with memKeys := t.memKeys.set r (.generated t.free) }.fresh
  else if k = 2 then
    if s.on F.MEE_RGN_CTRL_EN r then .ends reqDenied else .does 0 fun t => { t with memKeys := t.memKeys.erase r }
  else if !addrArg (s.boxArg box 2) then .ends reqBadArg
  else
    let (m, s1) := wardenRead (s.boxArg box 2).toNat Config.blobBytes env s
    if m.resp ≠ .okay then .fails reqFailed fun _ => s1
    else match Config.unwrapBlob m.bytes with
      | none => .fails reqAuth fun _ => s1
      | some key => .does 0 fun _ => { s1 with memKeys := s1.memKeys.set r (.unwrapped key) }

/-- MEM_KEY (16 R852). -/
def execMemKey (box : BoxId) (env : Env) (s : State) : Out := .next (reqServe box.val 5 (doMemKey box.val env) s)

/-- LOCK (14 R784). -/
def execLock (box : BoxId) (s : State) : Out :=
  .next <| reqServe box.val 6 (fun t =>
    .does 0 fun u => u.put F.KEY_LOCK_UNITS 0 (u.get F.KEY_LOCK_UNITS ||| bits (t.boxArg box.val 0).toNat 0 28)) s

/-- RANDOM. -/
def execRandom (box : BoxId) (s : State) : Out :=
  .next <| reqServe box.val 0x0A (fun t => .does (Config.freeWord t.free) State.fresh) s

/-- Authentication key slots that hold a key and are not revoked. -/
def State.authSlots (s : State) : List Nat :=
  (List.range 4).filter fun k => s.fuses.authPresent.getLsbD k && !s.fuses.authRevoked.getLsbD k

/-- REVOKE (14 R782): a slot without a key, or revoked already, is in the wrong state. -/
def execRevoke (box : BoxId) (s : State) : Out :=
  .next <| reqServe box.val 0x0B (fun t =>
    let k := (t.boxArg box.val 0).toNat
    if !t.authSlots.contains k then .ends reqBadArg
    else if t.authSlots = [k] then .ends reqDenied
    else .does 0 fun u => { u with fuses := { u.fuses with authRevoked := u.fuses.authRevoked ||| BitVec.ofNat 4 (2 ^ k) } }) s

/-! SIGN (14 R781) -/

/-- The bytes signed over a hash: ATTEST1, then the hash. -/
def attestBytes (h : List Byte) : List Byte := [0x41, 0x54, 0x54, 0x45, 0x53, 0x54, 0x31] ++ h

def doSign (box : Nat) (env : Env) (s : State) : ReqDoes :=
  if !addrArg (s.boxArg box 0) || !addrArg (s.boxArg box 1) then .ends reqBadArg
  else
    let (m, s1) := wardenRead (s.boxArg box 0).toNat 48 env s
    if m.resp ≠ .okay then .fails reqFailed fun _ => s1
    else
      let sig := ((Config.p384Sign (Config.sha384 (attestBytes m.bytes)) s1.free) ++ List.replicate 96 0).take 96
      let (r, s2) := wardenWrite (s.boxArg box 1).toNat sig {} s1.fresh
      if r ≠ .okay then .fails reqFailed fun _ => s1 else .does 0 fun _ => s2

def execSign (box : BoxId) (env : Env) (s : State) : Out := .next (reqServe box.val 9 (doSign box.val env) s)

/-! CORE_SERVICE (14 R783) -/

def doCoreService (box : Nat) (responds : Bool) (env : Env) (s : State) : ReqDoes :=
  let n := (s.boxArg box 0).toNat
  let what := (s.boxArg box 1).toNat
  let entry := s.boxArg box 2
  if 8 ≤ n ∨ n = box ∨ 3 ≤ what then .ends reqBadArg
  else if what = 0 then .does 0 (coreOffline n responds env)
  else if what = 1 then .does 0 fun t => t.clear F.WDG_CORE_STATUS_OFFLINE n
  else if !addrArg entry ∨ s.on F.WDG_CORE_STATUS_OFFLINE n then .ends reqBadArg
  else .does 0 fun t => coreCtrlWrite n ((entry &&& ~~~3) ||| 1) (if t.coreRuns n then coreEnd n t else t)

def execCoreService (box : BoxId) (responds : Bool) (env : Env) (s : State) : Out :=
  .next (reqServe box.val 8 (doCoreService box.val responds env) s)

/-! Signed code (14 R770 to R773) -/

/-- How an image taken word by word stands: it goes on, all of it is verified, or a check has failed. -/
inductive CodeEnd where
  | more
  | whole (l : Load)
  | bad
  deriving DecidableEq, Repr

/-- The words of an image from its sync word on. -/
def codeTake (magic id : Nat) (fz : Fuses) : List W32 → Load → CodeEnd
  | [], l => if l.phase = .ended then .whole l else .more
  | w :: t, l => match loadWord magic id fz w l with
    | .error _ => .bad
    | .ok l1 => if l1.phase = .ended then .whole l1 else codeTake magic id fz t l1

/-- The packet areas of an image in order: its code. -/
def Load.code (l : Load) : List Byte := wordsBytes (l.stream.map (·.2.2))

/-- The image of a memory address, read word by word until its last block; an error response ends it. `fuel` words suffice for
64 KiB of code in the smallest blocks. -/
def patchRead (id : Nat) (fz : Fuses) (env : Env) : Nat → Nat → Load → State → Resp × CodeEnd × State
  | 0, _, _, s => (.okay, .bad, s)
  | f + 1, a, l, s =>
    let (m, s1) := sandRead wardenAcc a 4 env s
    if m.resp ≠ .okay then (m.resp, .bad, s1)
    else match loadWord patchMagic id fz (BitVec.ofNat 32 (bytesNat m.bytes)) l with
      | .error _ => (.okay, .bad, s1)
      | .ok l1 =>
        if l1.phase = .ended then (.okay, .whole l1, s1)
        else patchRead id fz { env with upset := .none, busy := false } f (a + 4) l1 s1

/-- A patch that passed its checks is small enough and new enough (14 R773). -/
def State.patchOk (s : State) (l : Load) : Bool :=
  l.code.length ≤ 65536 && s.fuses.patchMin.toNat ≤ l.imageId.toNat % 256

/-- The code of a patch in patch memory: whole words, with new check bits. -/
def patchPut (code : List Byte) (s : State) : State :=
  let last := (privLo + code.length) / 8
  State.pokes { s with wordFlaw := s.wordFlaw.filter fun e => e.1 < privLo / 8 || last ≤ e.1 } privLo code

def doLoadPatch (box : Nat) (env : Env) (s : State) : ReqDoes :=
  if !addrArg (s.boxArg box 0) then .ends reqBadArg
  else
    let (r, e, s1) := patchRead s.deviceId s.fuses env 300000 (s.boxArg box 0).toNat { phase := .sync } s
    let bad : ReqDoes := .fails reqAuth fun _ => s1.raise F.KEY_ERR_PATCH_FAIL
    if r ≠ .okay then .fails reqFailed fun _ => s1
    else match e with
      | .whole l => if s.patchOk l then .does 0 fun _ => (patchPut l.code s1).raise F.KEY_STATUS_PATCH_ACTIVE else bad
      | _ => bad

/-- LOAD_PATCH. -/
def execLoadPatch (box : BoxId) (env : Env) (s : State) : Out := .next (reqServe box.val 7 (doLoadPatch box.val env) s)

/-- Where the steward code goes: the first byte of bank 30. -/
def stewardBase : Nat := spdBase + 30 * 2 ^ 20
def stewardMax : Nat := 2 * 2 ^ 20

/-- The verified steward code is written to banks 30 and 31, both go to Clove core 0, and core 0 starts (14 R771). An exit from
STANDBY that waited for it goes on. Whole words are written (15 R815); bytes past the code are free. -/
def stewardStart (code : List Byte) (s : State) : State :=
  let take := fun (owner : Nat) (t : State) (b : Nat) =>
    if t.get F.SPD_OWN_OWNER b = owner then t else spdHandoverDone b (spdHandoverWrite b owner t)
  let s1 := s.each [30, 31] (take 2)
  let (fill, t1) := s1.freeBytes ((8 - code.length % 8) % 8)
  let (_, s2) := wardenWrite stewardBase (code ++ fill) {} t1
  let s3 := (s2.each [30, 31] (take 1)).setWarden fun w => { w with booting := false, feed := [] }
  let s4 := coreCtrlWrite 0 0x000101E00001 s3
  if s4.power.resume then standbyFinish s4 else s4

/-- An image is judged: `good` takes its code, a bad one is not run and sets BOOT_FAIL (14 R772). -/
def stewardJudge (ws : List W32) (s : State) : CodeEnd :=
  match codeTake stewardMagic s.deviceId s.fuses ws { phase := .sync } with
  | .whole l => if l.code.length ≤ stewardMax then .whole l else .bad
  | e => e

/-- The boot ROM reads the flash, and without a valid image there takes what the debug port has given (14 R769). -/
def execStewardBoot (flash : List W32) (s : State) : Out :=
  .next <|
    if !s.warden.booting || !s.domOn 89 || s.power.asleep then s
    else match stewardJudge flash s with
      | .whole l => stewardStart l.code s
      | e =>
        let s1 := s.when (e == .bad) (·.raise F.KEY_ERR_BOOT_FAIL)
        match stewardJudge s.warden.feed s1 with
        | .whole l => stewardStart l.code s1
        | .bad => (s1.raise F.KEY_ERR_BOOT_FAIL).setWarden fun w => { w with feed := [] }
        | .more => s1

/-! OPEN_SESSION (11 R607 to R612) -/

/-- A session identifier that is not 0 and that no session holds, whichever the device chooses. -/
def State.newSession (s : State) : W32 :=
  let r := Config.freeNat s.free
  let pick := fun (k : Nat) => BitVec.ofNat 32 (1 + (r + k) % (2 ^ 32 - 1))
  (((List.range 9).map pick).find? fun id => (s.sessOf id).isNone).getD 1

/-- The header of a HELLO_REPLY (11 R585). -/
def replyHeader (id : W32) : List Byte :=
  [0x10, 0x11, 0, 0] ++ natBytes id.toNat 4 ++ natBytes 0 16 ++ natBytes 338 2 ++ natBytes 0 6

/-- The HELLO of a ring slot is answered: keys for SA 0, the reply, and the session in OPENING. -/
def sessOpen (n : Nat) (port : Nat) (peer : Peer) (hello : List Byte) (s : State) : W32 × State :=
  let id := s.newSession
  let (kex, s1) := kexValues s.fresh
  let body := kex ++ wordsBytes dfwOffered ++ idKey
  let sig := Config.p384Sign (Config.sha384 (hello ++ replyHeader id ++ body)) s1.free
  let s2 := s1.fresh.setSess n { st := .opening, id, port, peer, sa0 := { key := some (saKeys hello kex s1.free id false) } }
  (id, sendFrame { port, peer := some peer, body := .ktp 0x11 false false 0 id 0 0 (body ++ sig) } s2)

def doOpenSession (box : Nat) (env : Env) (s : State) : ReqDoes :=
  let slot := (s.boxArg box 0).toNat
  let n := (s.boxArg box 1).toNat
  match s.ktp.hellos.find slot with
  | none => .ends reqBadArg
  | some (port, peer) =>
    if 8 ≤ n ∨ (s.sess n).st ≠ .closed then .ends reqBadArg
    else if !s.on F.KTP_CTRL_EN then .ends reqFailed
    else
      let (m, s1) := wardenRead (s.get F.KTP_CRX_BASE_ADDR * 4096 + slot * 2048 + 96) 129 env s
      if m.resp ≠ .okay then .fails reqFailed fun _ => s1
      else
        let (id, s2) := sessOpen n port peer m.bytes s1
        .does (id.setWidth 64) fun _ => s2

def execOpenSession (box : BoxId) (env : Env) (s : State) : Out := .next (reqServe box.val 1 (doOpenSession box.val env) s)

end Sys2Proof.Machine
end

