-- ==== Sys2Proof/Machine/Dispatch.lean ====
section
/-! DEFINITION. The meaning of each command: one arm per row of the opcode table. -/

namespace Sys2Proof.Machine

def exec (i : Instr) (s : State) : Host.Outcome State Fault Refusal :=
  match i with
  | .registerWrite ini addr sz data env => Sys2Proof.Machine.execRegisterWrite ini addr sz data env s
  | .rcRegisterRead ini addr sz quiet env => Sys2Proof.Machine.execRcRegisterRead ini addr sz quiet env s
  | .timingFrameReceived frame => Sys2Proof.Machine.execTimingFrameReceived frame s
  | .quartzPllLock => Sys2Proof.Machine.execQuartzPllLock s
  | .relockBoundaryStep => Sys2Proof.Machine.execRelockBoundaryStep s
  | .crossingBoundary => Sys2Proof.Machine.execCrossingBoundary s
  | .nop => Sys2Proof.Machine.execNop s
  | .cnr => Sys2Proof.Machine.execCnr s
  | .orb => Sys2Proof.Machine.execOrb s
  | .rsy => Sys2Proof.Machine.execRsy s
  | .exa => Sys2Proof.Machine.execExa s
  | .cal => Sys2Proof.Machine.execCal s
  | .tpl => Sys2Proof.Machine.execTpl s
  | .thr => Sys2Proof.Machine.execThr s
  | .trl => Sys2Proof.Machine.execTrl s
  | .reservedCommand => Sys2Proof.Machine.execReservedCommand s
  | .userCommand => Sys2Proof.Machine.execUserCommand s
  | .cnPresetMessage => Sys2Proof.Machine.execCnPresetMessage s
  | .queuedMessage => Sys2Proof.Machine.execQueuedMessage s
  | .msgDrop => Sys2Proof.Machine.execMsgDrop s
  | .msgDataRead quiet => Sys2Proof.Machine.execMsgDataRead quiet s
  | .timingPortEnable w => Sys2Proof.Machine.execTimingPortEnable w s
  | .timingPortDisable w => Sys2Proof.Machine.execTimingPortDisable w s
  | .timingPortCdrLoss => Sys2Proof.Machine.execTimingPortCdrLoss s
  | .timingPortCdrLock => Sys2Proof.Machine.execTimingPortCdrLock s
  | .laneEnable lane w => Sys2Proof.Machine.execLaneEnable lane w s
  | .quadPllLock quad refKhz => Sys2Proof.Machine.execQuadPllLock quad refKhz s
  | .quadPllUnlock quad refLost => Sys2Proof.Machine.execQuadPllUnlock quad refLost s
  | .cdrLock lane => Sys2Proof.Machine.execCdrLock lane s
  | .cdrLoss lane signal => Sys2Proof.Machine.execCdrLoss lane signal s
  | .laneWordReceived lane rx => Sys2Proof.Machine.execLaneWordReceived lane rx s
  | .trainingBlockReceived lane body eye req => Sys2Proof.Machine.execTrainingBlockReceived lane body eye req s
  | .tapRequestApply lane => Sys2Proof.Machine.execTapRequestApply lane s
  | .alignmentMarkerReceived lane body skew => Sys2Proof.Machine.execAlignmentMarkerReceived lane body skew s
  | .laneWordTransmit lane port idleTrain => Sys2Proof.Machine.execLaneWordTransmit lane port idleTrain s
  | .retrain lane => Sys2Proof.Machine.execRetrain lane s
  | .trainingComplete lane => Sys2Proof.Machine.execTrainingComplete lane s
  | .trainingResponseTimeout lane echo => Sys2Proof.Machine.execTrainingResponseTimeout lane echo s
  | .bitslip lane => Sys2Proof.Machine.execBitslip lane s
  | .bitslipDone lane => Sys2Proof.Machine.execBitslipDone lane s
  | .laneBindingChange lane w => Sys2Proof.Machine.execLaneBindingChange lane w s
  | .prbsLock lane => Sys2Proof.Machine.execPrbsLock lane s
  | .prbsLost lane => Sys2Proof.Machine.execPrbsLost lane s
  | .snap lane => Sys2Proof.Machine.execSnap lane s
  | .clr lane => Sys2Proof.Machine.execClr lane s
  | .inject lane => Sys2Proof.Machine.execInject lane s
  | .pstateRequest lane p => Sys2Proof.Machine.execPstateRequest lane p s
  | .pstateDone lane => Sys2Proof.Machine.execPstateDone lane s
  | .fabricResetAssert slab n src => Sys2Proof.Machine.execFabricResetAssert slab n src s
  | .fabricResetRelease slab n => Sys2Proof.Machine.execFabricResetRelease slab n s
  | .vccoLoss bank => Sys2Proof.Machine.execVccoLoss bank s
  | .vccoReturn bank level => Sys2Proof.Machine.execVccoReturn bank level s
  | .bramRead id portB addr reg upset clash => Sys2Proof.Machine.execBramRead id portB addr reg upset clash s
  | .bramWrite id portB addr we din reg upset clash => Sys2Proof.Machine.execBramWrite id portB addr we din reg upset clash s
  | .bramErrorRetry id portB reg upset => Sys2Proof.Machine.execBramErrorRetry id portB reg upset s
  | .outputRegisterReset id portB regce => Sys2Proof.Machine.execOutputRegisterReset id portB regce s
  | .fifoWrite id din last pin => Sys2Proof.Machine.execFifoWrite id din last pin s
  | .fifoRead id strike tagStrike => Sys2Proof.Machine.execFifoRead id strike tagStrike s
  | .flush id => Sys2Proof.Machine.execFlush id s
  | .flushPointRecord id => Sys2Proof.Machine.execFlushPointRecord id s
  | .flushComplete id => Sys2Proof.Machine.execFlushComplete id s
  | .fifoReset id => Sys2Proof.Machine.execFifoReset id s
  | .fifoResetRelease id writeSide => Sys2Proof.Machine.execFifoResetRelease id writeSide s
  | .pointerSync id toWriteSide => Sys2Proof.Machine.execPointerSync id toWriteSide s
  | .sliceNop cx f => Sys2Proof.Machine.execSliceNop cx f s
  | .waitx cx f => Sys2Proof.Machine.execWaitx cx f s
  | .halt cx f => Sys2Proof.Machine.execHalt cx f s
  | .jmp cx f => Sys2Proof.Machine.execJmp cx f s
  | .br cx f => Sys2Proof.Machine.execBr cx f s
  | .loop cx f => Sys2Proof.Machine.execLoop cx f s
  | .loopr cx f => Sys2Proof.Machine.execLoopr cx f s
  | .seti cx f => Sys2Proof.Machine.execSeti cx f s
  | .movr cx f => Sys2Proof.Machine.execMovr cx f s
  | .sliceLd cx f => Sys2Proof.Machine.execSliceLd cx f s
  | .ldd cx f => Sys2Proof.Machine.execLdd cx f s
  | .st cx f => Sys2Proof.Machine.execSt cx f s
  | .rds cx f => Sys2Proof.Machine.execRds cx f s
  | .cinx cx f => Sys2Proof.Machine.execCinx cx f s
  | .cout cx f => Sys2Proof.Machine.execCout cx f s
  | .sliceAdd cx f => Sys2Proof.Machine.execSliceAdd cx f s
  | .sliceSub cx f => Sys2Proof.Machine.execSliceSub cx f s
  | .sliceAnd cx f => Sys2Proof.Machine.execSliceAnd cx f s
  | .sliceOr cx f => Sys2Proof.Machine.execSliceOr cx f s
  | .sliceXor cx f => Sys2Proof.Machine.execSliceXor cx f s
  | .shf cx f => Sys2Proof.Machine.execShf cx f s
  | .cmp cx f => Sys2Proof.Machine.execCmp cx f s
  | .sliceAddi cx f => Sys2Proof.Machine.execSliceAddi cx f s
  | .mpy cx f => Sys2Proof.Machine.execMpy cx f s
  | .mac cx f => Sys2Proof.Machine.execMac cx f s
  | .msu cx f => Sys2Proof.Machine.execMsu cx f s
  | .macm cx f => Sys2Proof.Machine.execMacm cx f s
  | .tap cx f => Sys2Proof.Machine.execTap cx f s
  | .adda cx f => Sys2Proof.Machine.execAdda cx f s
  | .ash cx f => Sys2Proof.Machine.execAsh cx f s
  | .rnd cx f => Sys2Proof.Machine.execRnd cx f s
  | .cadd cx f => Sys2Proof.Machine.execCadd cx f s
  | .maxs cx f => Sys2Proof.Machine.execMaxs cx f s
  | .mins cx f => Sys2Proof.Machine.execMins cx f s
  | .the cx f => Sys2Proof.Machine.execThe cx f s
  | .emit cx f => Sys2Proof.Machine.execEmit cx f s
  | .t8add cx f => Sys2Proof.Machine.execT8add cx f s
  | .t8sub cx f => Sys2Proof.Machine.execT8sub cx f s
  | .t8mac cx f => Sys2Proof.Machine.execT8mac cx f s
  | .t8max cx f => Sys2Proof.Machine.execT8max cx f s
  | .t8min cx f => Sys2Proof.Machine.execT8min cx f s
  | .t8pk cx f => Sys2Proof.Machine.execT8pk cx f s
  | .t8hs cx f => Sys2Proof.Machine.execT8hs cx f s
  | .illegalInstruction cx w => Sys2Proof.Machine.execIllegalInstruction cx w s
  | .pmWriteBack bay slice => Sys2Proof.Machine.execPmWriteBack bay slice s
  | .dmWriteBack bay slice => Sys2Proof.Machine.execDmWriteBack bay slice s
  | .emitOutput bay slice => Sys2Proof.Machine.execEmitOutput bay slice s
  | .streamInputWord bay slice data => Sys2Proof.Machine.execStreamInputWord bay slice data s
  | .runStartEdge bay slice lag => Sys2Proof.Machine.execRunStartEdge bay slice lag s
  | .srstRise bay slice => Sys2Proof.Machine.execSrstRise bay slice s
  | .srstFall bay slice => Sys2Proof.Machine.execSrstFall bay slice s
  | .sliceHalt => Sys2Proof.Machine.execSliceHalt s
  | .sliceGo => Sys2Proof.Machine.execSliceGo s
  | .sliceResume => Sys2Proof.Machine.execSliceResume s
  | .clrDm => Sys2Proof.Machine.execClrDm s
  | .clrDmDone bay slice => Sys2Proof.Machine.execClrDmDone bay slice s
  | .sliceDataWrite lo => Sys2Proof.Machine.execSliceDataWrite lo s
  | .sliceDataRead quiet upset => Sys2Proof.Machine.execSliceDataRead quiet upset s
  | .sandRequest req env => Sys2Proof.Machine.execSandRequest req env s
  | .sandResponse rsp => Sys2Proof.Machine.execSandResponse rsp s
  | .sandTimeout ini tag => Sys2Proof.Machine.execSandTimeout ini tag s
  | .sandInjection req cycles => Sys2Proof.Machine.execSandInjection req cycles s
  | .linkRetry link again => Sys2Proof.Machine.execLinkRetry link again s
  | .linkClockSwitchDone => Sys2Proof.Machine.execLinkClockSwitchDone s
  | .nocRateWrite ini w => Sys2Proof.Machine.execNocRateWrite ini w s
  | .accessPointInject bay req cycles => Sys2Proof.Machine.execAccessPointInject bay req cycles s
  | .transmitChannelWrite bay ch data tag => Sys2Proof.Machine.execTransmitChannelWrite bay ch data tag s
  | .quartzInjection bay slot => Sys2Proof.Machine.execQuartzInjection bay slot s
  | .quartzFlitArrival at_ upset => Sys2Proof.Machine.execQuartzFlitArrival at_ upset s
  | .receiveChannelUpdate bay lane slot upset => Sys2Proof.Machine.execReceiveChannelUpdate bay lane slot upset s
  | .tableWrite target => Sys2Proof.Machine.execTableWrite target s
  | .commit w => Sys2Proof.Machine.execCommit w s
  | .commitCopyDone => Sys2Proof.Machine.execCommitCopyDone s
  | .commitBoundary => Sys2Proof.Machine.execCommitBoundary s
  | .slabTableReload slab => Sys2Proof.Machine.execSlabTableReload slab s
  | .trace w => Sys2Proof.Machine.execTrace w s
  | .traceDone => Sys2Proof.Machine.execTraceDone s
  | .probe w => Sys2Proof.Machine.execProbe w s
  | .probeDone => Sys2Proof.Machine.execProbeDone s
  | .probeLost => Sys2Proof.Machine.execProbeLost s
  | .verdictInit => Sys2Proof.Machine.execVerdictInit s
  | .lookup port slot parity word => Sys2Proof.Machine.execLookup port slot parity word s
  | .verdictWriteBack => Sys2Proof.Machine.execVerdictWriteBack s
  | .ueSecondRead word => Sys2Proof.Machine.execUeSecondRead word s
  | .portConfigApply => Sys2Proof.Machine.execPortConfigApply s
  | .retire w => Sys2Proof.Machine.execRetire w s
  | .retirementApply => Sys2Proof.Machine.execRetirementApply s
  | .restore w => Sys2Proof.Machine.execRestore w s
  | .rbist w => Sys2Proof.Machine.execRbist w s
  | .rbistDone pass => Sys2Proof.Machine.execRbistDone pass s
  | .windowRead req word => Sys2Proof.Machine.execWindowRead req word s
  | .windowWrite req word => Sys2Proof.Machine.execWindowWrite req word s
  | .arm w => Sys2Proof.Machine.execArm w s
  | .bankCopyDone glitch => Sys2Proof.Machine.execBankCopyDone glitch s
  | .loaderGo => Sys2Proof.Machine.execLoaderGo s
  | .loaderDone => Sys2Proof.Machine.execLoaderDone s
  | .loadErr => Sys2Proof.Machine.execLoadErr s
  | .swapGo w => Sys2Proof.Machine.execSwapGo w s
  | .swap => Sys2Proof.Machine.execSwap s
  | .disarm w => Sys2Proof.Machine.execDisarm w s
  | .patrolRead rep word => Sys2Proof.Machine.execPatrolRead rep word s
  | .fragment ini off posted poison data => Sys2Proof.Machine.execFragment ini off posted poison data s
  | .quartzDecision slot upsets => Sys2Proof.Machine.execQuartzDecision slot upsets s
  | .hostDecision w => Sys2Proof.Machine.execHostDecision w s
  | .pageWrite ctx tier first second => Sys2Proof.Machine.execPageWrite ctx tier first second s
  | .chunkSend first second => Sys2Proof.Machine.execChunkSend first second s
  | .streamGrant stream w => Sys2Proof.Machine.execStreamGrant stream w s
  | .stall stream => Sys2Proof.Machine.execStall stream s
  | .stallDiscard stream => Sys2Proof.Machine.execStallDiscard stream s
  | .streamEnable stream w => Sys2Proof.Machine.execStreamEnable stream w s
  | .streamDisable stream w => Sys2Proof.Machine.execStreamDisable stream w s
  | .ledgerEnable w => Sys2Proof.Machine.execLedgerEnable w s
  | .tierInitDone => Sys2Proof.Machine.execTierInitDone s
  | .ledgerDisable w => Sys2Proof.Machine.execLedgerDisable w s
  | .ethEnable port w => Sys2Proof.Machine.execEthEnable port w s
  | .linkUp port => Sys2Proof.Machine.execLinkUp port s
  | .linkDown port aligned fecLock hiBer => Sys2Proof.Machine.execLinkDown port aligned fecLock hiBer s
  | .frameDrop port f => Sys2Proof.Machine.execFrameDrop port f s
  | .arpRequest port target => Sys2Proof.Machine.execArpRequest port target s
  | .neighbourSolicitation port target => Sys2Proof.Machine.execNeighbourSolicitation port target s
  | .echoRequest port v6 dst payload => Sys2Proof.Machine.execEchoRequest port v6 dst payload s
  | .packetDiscard p => Sys2Proof.Machine.execPacketDiscard p s
  | .hello p env => Sys2Proof.Machine.execHello p env s
  | .data p env => Sys2Proof.Machine.execData p env s
  | .ack p => Sys2Proof.Machine.execAck p s
  | .verbRead slot env => Sys2Proof.Machine.execVerbRead slot env s
  | .verbWrite slot env => Sys2Proof.Machine.execVerbWrite slot env s
  | .badVerb slot => Sys2Proof.Machine.execBadVerb slot s
  | .accept p => Sys2Proof.Machine.execAccept p s
  | .grant p => Sys2Proof.Machine.execGrant p s
  | .rekey p => Sys2Proof.Machine.execRekey p s
  | .close p env => Sys2Proof.Machine.execClose p env s
  | .keepalive p => Sys2Proof.Machine.execKeepalive p s
  | .userControlMessage p env => Sys2Proof.Machine.execUserControlMessage p env s
  | .sessionCloseWrite slot w => Sys2Proof.Machine.execSessionCloseWrite slot w s
  | .retransmitTimeout slot stream seq => Sys2Proof.Machine.execRetransmitTimeout slot stream seq s
  | .ackDelay slot => Sys2Proof.Machine.execAckDelay slot s
  | .keepaliveTimer slot => Sys2Proof.Machine.execKeepaliveTimer slot s
  | .openingTimeout slot => Sys2Proof.Machine.execOpeningTimeout slot s
  | .holdTimeout slot => Sys2Proof.Machine.execHoldTimeout slot s
  | .chunkTake first second => Sys2Proof.Machine.execChunkTake first second s
  | .controlRingSend env => Sys2Proof.Machine.execControlRingSend env s
  | .ktpEnable w => Sys2Proof.Machine.execKtpEnable w s
  | .openSession box env => Sys2Proof.Machine.execOpenSession box env s
  | .configRestart cause mode id => Sys2Proof.Machine.execConfigRestart cause mode id s
  | .blankingDone => Sys2Proof.Machine.execBlankingDone s
  | .nprogLow => Sys2Proof.Machine.execNprogLow s
  | .syncWord src => Sys2Proof.Machine.execSyncWord src s
  | .imageHeader hdr => Sys2Proof.Machine.execImageHeader hdr s
  | .block len body tag => Sys2Proof.Machine.execBlock len body tag s
  | .nopPacket => Sys2Proof.Machine.execNopPacket s
  | .writePacket => Sys2Proof.Machine.execWritePacket s
  | .frames => Sys2Proof.Machine.execFrames s
  | .check => Sys2Proof.Machine.execCheck s
  | .start => Sys2Proof.Machine.execStart s
  | .confDoneHigh => Sys2Proof.Machine.execConfDoneHigh s
  | .sequenceStep k => Sys2Proof.Machine.execSequenceStep k s
  | .seqTimeout k => Sys2Proof.Machine.execSeqTimeout k s
  | .seqGo w => Sys2Proof.Machine.execSeqGo w s
  | .doneFell => Sys2Proof.Machine.execDoneFell s
  | .bayFence bay w overlap => Sys2Proof.Machine.execBayFence bay w overlap s
  | .unfence bay w overlap => Sys2Proof.Machine.execUnfence bay w overlap s
  | .slabFence w => Sys2Proof.Machine.execSlabFence w s
  | .slabUnfence w => Sys2Proof.Machine.execSlabUnfence w s
  | .icpArm slab w => Sys2Proof.Machine.execIcpArm slab w s
  | .icpDataWrite slab off data => Sys2Proof.Machine.execIcpDataWrite slab off data s
  | .icpAbort slab w => Sys2Proof.Machine.execIcpAbort slab w s
  | .cache w => Sys2Proof.Machine.execCache w s
  | .capture w => Sys2Proof.Machine.execCapture w s
  | .load w => Sys2Proof.Machine.execLoad w s
  | .relocate w => Sys2Proof.Machine.execRelocate w s
  | .relocateCommit env => Sys2Proof.Machine.execRelocateCommit env s
  | .spare w => Sys2Proof.Machine.execSpare w s
  | .blank w => Sys2Proof.Machine.execBlank w s
  | .bist w => Sys2Proof.Machine.execBist w s
  | .readback w => Sys2Proof.Machine.execReadback w s
  | .free w => Sys2Proof.Machine.execFree w s
  | .resultRead quiet => Sys2Proof.Machine.execResultRead quiet s
  | .pagerAbort w => Sys2Proof.Machine.execPagerAbort w s
  | .scrubFrameRead slab first second => Sys2Proof.Machine.execScrubFrameRead slab first second s
  | .pagerCommandDone env => Sys2Proof.Machine.execPagerCommandDone env s
  | .add cx rd ra rb => Sys2Proof.Machine.execAdd cx rd ra rb s
  | .sub cx rd ra rb => Sys2Proof.Machine.execSub cx rd ra rb s
  | .and cx rd ra rb => Sys2Proof.Machine.execAnd cx rd ra rb s
  | .or cx rd ra rb => Sys2Proof.Machine.execOr cx rd ra rb s
  | .xor cx rd ra rb => Sys2Proof.Machine.execXor cx rd ra rb s
  | .sll cx rd ra rb => Sys2Proof.Machine.execSll cx rd ra rb s
  | .srl cx rd ra rb => Sys2Proof.Machine.execSrl cx rd ra rb s
  | .sra cx rd ra rb => Sys2Proof.Machine.execSra cx rd ra rb s
  | .slt cx rd ra rb => Sys2Proof.Machine.execSlt cx rd ra rb s
  | .sltu cx rd ra rb => Sys2Proof.Machine.execSltu cx rd ra rb s
  | .mul cx rd ra rb => Sys2Proof.Machine.execMul cx rd ra rb s
  | .mulh cx rd ra rb => Sys2Proof.Machine.execMulh cx rd ra rb s
  | .mulhu cx rd ra rb => Sys2Proof.Machine.execMulhu cx rd ra rb s
  | .div cx rd ra rb => Sys2Proof.Machine.execDiv cx rd ra rb s
  | .divu cx rd ra rb => Sys2Proof.Machine.execDivu cx rd ra rb s
  | .rem cx rd ra rb => Sys2Proof.Machine.execRem cx rd ra rb s
  | .remu cx rd ra rb => Sys2Proof.Machine.execRemu cx rd ra rb s
  | .addi cx rd ra imm => Sys2Proof.Machine.execAddi cx rd ra imm s
  | .andi cx rd ra imm => Sys2Proof.Machine.execAndi cx rd ra imm s
  | .ori cx rd ra imm => Sys2Proof.Machine.execOri cx rd ra imm s
  | .xori cx rd ra imm => Sys2Proof.Machine.execXori cx rd ra imm s
  | .slli cx rd ra sh => Sys2Proof.Machine.execSlli cx rd ra sh s
  | .srli cx rd ra sh => Sys2Proof.Machine.execSrli cx rd ra sh s
  | .srai cx rd ra sh => Sys2Proof.Machine.execSrai cx rd ra sh s
  | .slti cx rd ra imm => Sys2Proof.Machine.execSlti cx rd ra imm s
  | .sltiu cx rd ra imm => Sys2Proof.Machine.execSltiu cx rd ra imm s
  | .lui cx rd imm => Sys2Proof.Machine.execLui cx rd imm s
  | .shori cx rd ra imm => Sys2Proof.Machine.execShori cx rd ra imm s
  | .lb cx rd ra imm env => Sys2Proof.Machine.execLb cx rd ra imm env s
  | .lbu cx rd ra imm env => Sys2Proof.Machine.execLbu cx rd ra imm env s
  | .lh cx rd ra imm env => Sys2Proof.Machine.execLh cx rd ra imm env s
  | .lhu cx rd ra imm env => Sys2Proof.Machine.execLhu cx rd ra imm env s
  | .lw cx rd ra imm env => Sys2Proof.Machine.execLw cx rd ra imm env s
  | .lwu cx rd ra imm env => Sys2Proof.Machine.execLwu cx rd ra imm env s
  | .ld cx rd ra imm env => Sys2Proof.Machine.execLd cx rd ra imm env s
  | .sb cx rd ra imm env => Sys2Proof.Machine.execSb cx rd ra imm env s
  | .sh cx rd ra imm env => Sys2Proof.Machine.execSh cx rd ra imm env s
  | .sw cx rd ra imm env => Sys2Proof.Machine.execSw cx rd ra imm env s
  | .sd cx rd ra imm env => Sys2Proof.Machine.execSd cx rd ra imm env s
  | .ldx cx rd ra env => Sys2Proof.Machine.execLdx cx rd ra env s
  | .stx cx rd ra rb env => Sys2Proof.Machine.execStx cx rd ra rb env s
  | .beq cx ra rb off => Sys2Proof.Machine.execBeq cx ra rb off s
  | .bne cx ra rb off => Sys2Proof.Machine.execBne cx ra rb off s
  | .blt cx ra rb off => Sys2Proof.Machine.execBlt cx ra rb off s
  | .bge cx ra rb off => Sys2Proof.Machine.execBge cx ra rb off s
  | .bltu cx ra rb off => Sys2Proof.Machine.execBltu cx ra rb off s
  | .bgeu cx ra rb off => Sys2Proof.Machine.execBgeu cx ra rb off s
  | .jal cx rd off => Sys2Proof.Machine.execJal cx rd off s
  | .jalr cx rd ra imm => Sys2Proof.Machine.execJalr cx rd ra imm s
  | .csrr cx rd num => Sys2Proof.Machine.execCsrr cx rd num s
  | .csrw cx rd ra num => Sys2Proof.Machine.execCsrw cx rd ra num s
  | .csrs cx rd ra num => Sys2Proof.Machine.execCsrs cx rd ra num s
  | .csrc cx rd ra num => Sys2Proof.Machine.execCsrc cx rd ra num s
  | .dclean cx ra imm env => Sys2Proof.Machine.execDclean cx ra imm env s
  | .dinv cx ra imm env => Sys2Proof.Machine.execDinv cx ra imm env s
  | .dflush cx ra imm env => Sys2Proof.Machine.execDflush cx ra imm env s
  | .iinv cx ra imm env => Sys2Proof.Machine.execIinv cx ra imm env s
  | .dflushAll cx ra imm env => Sys2Proof.Machine.execDflushAll cx ra imm env s
  | .iinvAll cx ra imm env => Sys2Proof.Machine.execIinvAll cx ra imm env s
  | .ecall cx => Sys2Proof.Machine.execEcall cx s
  | .tret cx => Sys2Proof.Machine.execTret cx s
  | .wfi cx => Sys2Proof.Machine.execWfi cx s
  | .fence cx => Sys2Proof.Machine.execFence cx s
  | .ifence cx => Sys2Proof.Machine.execIfence cx s
  | .brk cx => Sys2Proof.Machine.execBrk cx s
  | .coreIllegal cx word => Sys2Proof.Machine.execCoreIllegal cx word s
  | .storeErr core => Sys2Proof.Machine.execStoreErr core s
  | .interrupt core => Sys2Proof.Machine.execInterrupt core s
  | .reservationExpiry core => Sys2Proof.Machine.execReservationExpiry core s
  | .coreStart core w => Sys2Proof.Machine.execCoreStart core w s
  | .coreStop core w => Sys2Proof.Machine.execCoreStop core w s
  | .stewardBoot flash => Sys2Proof.Machine.execStewardBoot flash s
  | .requestGo box w => Sys2Proof.Machine.execRequestGo box w s
  | .lock box => Sys2Proof.Machine.execLock box s
  | .loadPatch box env => Sys2Proof.Machine.execLoadPatch box env s
  | .coreService box responds env => Sys2Proof.Machine.execCoreService box responds env s
  | .sign box env => Sys2Proof.Machine.execSign box env s
  | .random box => Sys2Proof.Machine.execRandom box s
  | .revoke box => Sys2Proof.Machine.execRevoke box s
  | .watchdogKick w data => Sys2Proof.Machine.execWatchdogKick w data s
  | .watchdogFirstExpiry w => Sys2Proof.Machine.execWatchdogFirstExpiry w s
  | .watchdogSecondExpiry w responds env => Sys2Proof.Machine.execWatchdogSecondExpiry w responds env s
  | .handover box => Sys2Proof.Machine.execHandover box s
  | .scratchpadRead req env => Sys2Proof.Machine.execScratchpadRead req env s
  | .scratchpadWrite req env => Sys2Proof.Machine.execScratchpadWrite req env s
  | .mergeEntryWrite bank entry => Sys2Proof.Machine.execMergeEntryWrite bank entry s
  | .scratchpadWriteBack bank => Sys2Proof.Machine.execScratchpadWriteBack bank s
  | .spdHandover bank w => Sys2Proof.Machine.execSpdHandover bank w s
  | .handoverDone bank => Sys2Proof.Machine.execHandoverDone bank s
  | .dmaGo ch w => Sys2Proof.Machine.execDmaGo ch w s
  | .dmaDone ch env => Sys2Proof.Machine.execDmaDone ch env s
  | .dmaHalt ch at_ resp write => Sys2Proof.Machine.execDmaHalt ch at_ resp write s
  | .dmaAbort ch w moved => Sys2Proof.Machine.execDmaAbort ch w moved s
  | .memKey box env => Sys2Proof.Machine.execMemKey box env s
  | .dmcEnable ch w => Sys2Proof.Machine.execDmcEnable ch w s
  | .dmcInitDone ch complete a b => Sys2Proof.Machine.execDmcInitDone ch complete a b s
  | .dmcDisable ch w => Sys2Proof.Machine.execDmcDisable ch w s
  | .dmcConfigWrite ch w => Sys2Proof.Machine.execDmcConfigWrite ch w s
  | .shortRetrain ch cause => Sys2Proof.Machine.execShortRetrain ch cause s
  | .retrained ch t => Sys2Proof.Machine.execRetrained ch t s
  | .freqGo ch w => Sys2Proof.Machine.execFreqGo ch w s
  | .freqDone ch t => Sys2Proof.Machine.execFreqDone ch t s
  | .refresh ch urgent => Sys2Proof.Machine.execRefresh ch urgent s
  | .urgencyMiss ch port => Sys2Proof.Machine.execUrgencyMiss ch port s
  | .dramRead req env => Sys2Proof.Machine.execDramRead req env s
  | .dramWrite req env => Sys2Proof.Machine.execDramWrite req env s
  | .dramPartialWrite req env => Sys2Proof.Machine.execDramPartialWrite req env s
  | .channelRetire ch w => Sys2Proof.Machine.execChannelRetire ch w s
  | .meeRegionEnable region w ini => Sys2Proof.Machine.execMeeRegionEnable region w ini s
  | .powerDomain box => Sys2Proof.Machine.execPowerDomain box s
  | .powerState box => Sys2Proof.Machine.execPowerState box s
  | .monitorTrip m count silent => Sys2Proof.Machine.execMonitorTrip m count silent s
  | .monitorStable m count => Sys2Proof.Machine.execMonitorStable m count s
  | .synthEnable n w => Sys2Proof.Machine.execSynthEnable n w s
  | .synthLock n inputKhz => Sys2Proof.Machine.execSynthLock n inputKhz s
  | .heldTimeout n => Sys2Proof.Machine.execHeldTimeout n s
  | .revert n => Sys2Proof.Machine.execRevert n s
  | .rampStep n => Sys2Proof.Machine.execRampStep n s
  | .gateWrite reg w ini => Sys2Proof.Machine.execGateWrite reg w ini s
  | .domainPowerOff d => Sys2Proof.Machine.execDomainPowerOff d s
  | .domainPowerOn d => Sys2Proof.Machine.execDomainPowerOn d s
  | .domainDone d => Sys2Proof.Machine.execDomainDone d s
  | .wake source => Sys2Proof.Machine.execWake source s
  | .padRelease w => Sys2Proof.Machine.execPadRelease w s
  | .comparatorSample c value => Sys2Proof.Machine.execComparatorSample c value s
  | .pinFunctionSwitch pin w ini => Sys2Proof.Machine.execPinFunctionSwitch pin w ini s
  | .switchWindowEnd pin => Sys2Proof.Machine.execSwitchWindowEnd pin s
  | .pinLevelChange pin high => Sys2Proof.Machine.execPinLevelChange pin high s
  | .uartDataWrite u w => Sys2Proof.Machine.execUartDataWrite u w s
  | .uartDataRead u quiet => Sys2Proof.Machine.execUartDataRead u quiet s
  | .uartByteReceived u byte => Sys2Proof.Machine.execUartByteReceived u byte s
  | .spiDataWrite c w => Sys2Proof.Machine.execSpiDataWrite c w s
  | .i2cStart c => Sys2Proof.Machine.execI2cStart c s
  | .i2cStop c => Sys2Proof.Machine.execI2cStop c s
  | .i2cWrite c byte => Sys2Proof.Machine.execI2cWrite c byte s
  | .i2cReadAck c => Sys2Proof.Machine.execI2cReadAck c s
  | .i2cReadNack c => Sys2Proof.Machine.execI2cReadNack c s
  | .timerWrap t => Sys2Proof.Machine.execTimerWrap t s
  | .eventSourceRise n stays => Sys2Proof.Machine.execEventSourceRise n stays s
  | .evcClaim target quiet => Sys2Proof.Machine.execEvcClaim target quiet s
  | .evcComplete target w => Sys2Proof.Machine.execEvcComplete target w s
  | .spiShiftDone c byte => Sys2Proof.Machine.execSpiShiftDone c byte s
  | .i2cOperationDone c e => Sys2Proof.Machine.execI2cOperationDone c e s
  | .uartByteSent u => Sys2Proof.Machine.execUartByteSent u s
  | .tapReset trst => Sys2Proof.Machine.execTapReset trst s
  | .extest cells levels => Sys2Proof.Machine.execExtest cells levels s
  | .samplePreload cells levels => Sys2Proof.Machine.execSamplePreload cells levels s
  | .idcode => Sys2Proof.Machine.execIdcode s
  | .clamp => Sys2Proof.Machine.execClamp s
  | .highz => Sys2Proof.Machine.execHighz s
  | .bypass code => Sys2Proof.Machine.execBypass code s
  | .vapChal dr => Sys2Proof.Machine.execVapChal dr s
  | .vapAuth dr => Sys2Proof.Machine.execVapAuth dr s
  | .vapAcc dr => Sys2Proof.Machine.execVapAcc dr s
  | .levelSet w => Sys2Proof.Machine.execLevelSet w s
  | .vapRead env => Sys2Proof.Machine.execVapRead env s
  | .vapWrite env => Sys2Proof.Machine.execVapWrite env s
  | .image => Sys2Proof.Machine.execImage s
  | .debugWake tck => Sys2Proof.Machine.execDebugWake tck s
  | .dbgHalt w => Sys2Proof.Machine.execDbgHalt w s
  | .haltForced core => Sys2Proof.Machine.execHaltForced core s
  | .dbgResume w => Sys2Proof.Machine.execDbgResume w s
  | .dbgStep w => Sys2Proof.Machine.execDbgStep w s
  | .crossTrigger w => Sys2Proof.Machine.execCrossTrigger w s
  | .stimulusStore core off data => Sys2Proof.Machine.execStimulusStore core off data s
  | .vtOutWrite core w => Sys2Proof.Machine.execVtOutWrite core w s
  | .vtOutRead core quiet => Sys2Proof.Machine.execVtOutRead core quiet s
  | .vtInWrite core w => Sys2Proof.Machine.execVtInWrite core w s
  | .vtInRead core => Sys2Proof.Machine.execVtInRead core s
  | .warmReset cause => Sys2Proof.Machine.execWarmReset cause s
  | .nreset ns mode id => Sys2Proof.Machine.execNreset ns mode id s
  | .powerOnReset mode id rails off => Sys2Proof.Machine.execPowerOnReset mode id rails off s
  | .vccFabLoss slab => Sys2Proof.Machine.execVccFabLoss slab s
  | .vccFabReturn slab => Sys2Proof.Machine.execVccFabReturn slab s

end Sys2Proof.Machine
end

