-- ==== Sys2Proof/Machine/Network.lean ====
section
/-! DEFINITION. Slots of links and the Sand service of switch outputs: what a slot carries, which packet an output serves, and one
Sand-clock cycle of the whole network (08 R378, R380, R382, R387 to R391, R399, R412, R418). -/

namespace Sys2Proof.Machine

/-! Packets as flits (08 R387 to R391) -/

/-- The operation code of a packet (08 R387). -/
def Moving.opc (m : Moving) : Nat :=
  match m.back.isSome, m.q.op with
  | false, .read => 0x01
  | false, .write => 0x02
  | false, .writeP => 0x03
  | true, .read => 0x81
  | true, _ => 0x82

/-- The header flit (08 R387); its reserved bits are 0. -/
def Moving.header (m : Moving) : BitVec 256 :=
  BitVec.ofNat 256 (m.q.addr.toNat + m.opc * 2 ^ 48 + m.q.len.toNat * 2 ^ 56 + m.q.ini.val * 2 ^ 68 + m.q.tag.toNat * 2 ^ 78
    + (m.back.getD 0).toNat * 2 ^ 91 + (match m.rsp with | some p => p.resp.code | none => 0) * 2 ^ 94 + m.q.pri.toNat * 2 ^ 98
    + ofFlag m.q.quiet * 2 ^ 100 + m.q.priv.toNat * 2 ^ 101)

/-- The data that a packet carries (08 R389, R390) and its poisoned words. -/
def Moving.data (m : Moving) : List Byte × List Nat :=
  match m.back.isSome, m.rsp with
  | false, _ => (m.q.data, m.q.poison)
  | true, some p => (p.data, p.poison)
  | true, none => ([], [])

/-- Data flit k, the first byte of the data at lane ADDR mod 32 of flit 0 (08 R388), and its POISON bits, one for each word
(08 R391). -/
def Moving.dataFlit (m : Moving) (k : Nat) : BitVec 256 × List Bool :=
  let o := m.q.addr.toNat % 32
  let (bs, ps) := m.data
  let lane (j : Nat) : Byte := if 32 * k + j < o then 0 else bs.getD (32 * k + j - o) 0
  (BitVec.ofNat 256 (bytesNat ((List.range 32).map lane)),
   (List.range 4).map fun w => ps.contains ((32 * k + 8 * w - o) / 8) && o ≤ 32 * k + 8 * w + 7)

/-! Slots (08 R378, R382, R419) -/

/-- The payload of a slot: a Sand flit of 256 bits with 64 bits of sideband, or four Quartz lanes of 80 bits, data with tag. -/
inductive SlotPayload where
  | sand (flit : BitVec 256) (sideband : W64)
  | quartz (lanes : List (BitVec 80))
  deriving DecidableEq, Repr

/-- A slot of a link: 16 control bits and a payload. -/
structure LinkSlot where
  control : W16
  payload : SlotPayload
  deriving DecidableEq, Repr

/-- The 80 bits of a Quartz lane and their even parity bit (08 R419). -/
def Flit.lane (f : Flit) : BitVec 80 := BitVec.ofNat 80 (f.data.toNat + f.tag.toNat * 2 ^ 64)
def Flit.parity (f : Flit) : Bool := (List.range 80).foldl (fun p k => p != f.lane.getLsbD k) false

/-- The output's schedule has a valid entry for some lane of the slot (08 R382); no slot is reserved while Quartz rests (R426). -/
def State.slotReserved (s : State) (out slot : Nat) : Bool :=
  s.qtzActive && (List.range 4).any fun q => (entryAt s.qtz.active out slot q).valid

/-- The flit that leaves an output in a lane of a slot: what travels from there, else an invalid one (08 R432). -/
def State.flitOn (s : State) (out slot lane : Nat) : Flit :=
  let (place, d) := outputLeads out
  s.qtz.flights.get ⟨0, 0, false, none⟩ (place, lane, (slot + d) % s.qtzN)

/-! Service of an output (08 R399) -/

/-- The priority a packet is served with. -/
def Moving.prio (m : Moving) : Nat := if 1024 ≤ m.age then 3 else m.q.pri.toNat

/-- Of two packets that wait for one output, the one served first: a packet under way keeps the output; else the higher
priority; else the input next after the one served last. -/
def servedBefore (last : Nat → Option Nat) (a b : Moving) : Bool :=
  let turn (m : Moving) : Nat := match last m.prio with
    | some l => if l < m.inp then m.inp else m.inp + 0x10000
    | none => m.inp
  if a.left < a.flits then true
  else if b.left < b.flits then false
  else if a.prio ≠ b.prio then b.prio < a.prio
  else turn a ≤ turn b

/-- The packet that an output serves next, the first issued among equals. -/
def State.outputPick (s : State) (out : Nat) : Option Moving :=
  let here := s.sand.moving.filter fun m => m.path.head? == some out
  let last (p : Nat) : Option Nat := s.sand.served.find (out, p)
  here.foldl (fun best m => match best with
    | none => some m
    | some b => if servedBefore last b m then some b else some m) none

/-- What a slot of a link carries (08 R378, R382). Where in the control bits and the sideband their contents stand is open. -/
def State.linkSlot (s : State) (out slot : Nat) : LinkSlot :=
  if s.slotReserved out slot then
    let fs := (List.range 4).map (s.flitOn out slot)
    ⟨Config.slotControl (fs.map (·.valid)) (fs.map Flit.parity) (fs.map (·.probe.isSome)), .quartz (fs.map Flit.lane)⟩
  else match s.outputPick out with
    | some m =>
      if m.left = m.flits then ⟨Config.slotControl [] [] [], .sand m.header (Config.sideband m.header [])⟩
      else
        let (f, p) := m.dataFlit (m.flits - m.left - 1)
        ⟨Config.slotControl [] [] [], .sand f (Config.sideband f p)⟩
    | none => ⟨Config.slotControl [] [] [], .sand 0 (Config.sideband 0 [])⟩

/-! One Sand-clock cycle -/

/-- The links of the group that a bridge link belongs to, in the order in which a packet of that link tries them (08 R412). -/
def bridgeTurn (out : Nat) : List Nat := (List.range 4).map fun j => out / 4 * 4 + (out % 4 + j) % 4

/-- The output drives a bridge link. -/
def isBridge (out : Nat) : Bool := (out < 0x400 && 8 ≤ out % 16) || (0x400 ≤ out && out < 0x440)

/-- A request whose target or route answers in place of it: it goes no further, and its answer is told. -/
def Moving.answered (m : Moving) (net : Option Resp) : Option Moving :=
  if m.back.isSome then none
  else
    let e : Env := m.env.getD {}
    some { m with path := [], env := some { e with net := net.orElse fun _ => e.net } }

/-- What becomes of a packet that its output serves for one slot: a flit passes, and after the last one the packet stands at the
next output; a failed bridge link sends it to the next one that works, a failed mesh link ends its way (08 R412); a shut slab
takes nothing and gives nothing (08 R418). -/
def State.passOutput (s : State) (out : Nat) (m : Moving) : Option Moving :=
  let shut (k : Nat) : Bool := s.slabFenced k || !s.railUp k
  if s.sand.failed.contains out then
    match if isBridge out then (bridgeTurn out).find? fun l => !s.sand.failed.contains l else none with
    | some l => some { m with path := l :: m.path.tail, left := m.flits }
    | none => m.answered (some .link)
  else if out < 0x400 && (!s.railUp (out / 256) || (isBridge out && shut (out / 256))) then none
  else if 0x400 ≤ out && shut ((out - 0x400) / 16) then m.answered none
  else if 1 < m.left then some { m with left := m.left - 1 }
  else some { m with path := m.path.tail, inp := out, left := m.flits, age := 0 }

/-- The list with its first entry equal to `a` replaced. -/
def replaceFirst (a : Moving) (b : Option Moving) : List Moving → List Moving
  | [] => []
  | m :: t => if m = a then (match b with | some n => n :: t | none => t) else m :: replaceFirst a b t

/-- One cycle of one output: an unreserved slot is offered to Sand (08 R382). Which slot the cycle meets is free. -/
def outputCycle (out : Nat) (s : State) : State :=
  let t := if s.qtzActive then s.fresh else s
  if s.slotReserved out (Config.freeNat s.free % s.qtzN) then t
  else match t.outputPick out with
    | none => t
    | some m => { t with sand := { t.sand with
        moving := replaceFirst m (t.passOutput out m) t.sand.moving,
        served := t.sand.served.set (out, m.prio) m.inp } }

/-- The outputs at which packets wait, each once. -/
def State.busyOutputs (s : State) : List Nat := (s.sand.moving.filterMap fun m => m.path.head?).eraseDups

/-- One Sand-clock cycle: waiting packets age, every output serves a packet, unless a link-clock change stalls the links
(08 R380), and what has arrived is taken. -/
def sandCycle (s : State) : State :=
  if s.power.asleep || s.sand.moving.isEmpty then s
  else
    let aged := { s with sand := { s.sand with
      moving := s.sand.moving.map fun m => if m.path.isEmpty then m else { m with age := m.age + 1 } } }
    sandDrain (if s.on F.NOC_STATUS_SWITCHING then aged else aged.each s.busyOutputs fun t o => outputCycle o t)

end Sys2Proof.Machine
end

