-- ==== Sys2Proof/Machine/Edge.lean ====
section
/-! DEFINITION. One clock edge of the fabric: the signals of a bay, flip-flops, I/O cells and fence registers, and what happens
when no command waits (04 R158 to R203). -/

namespace Sys2Proof.Machine

/-! What reaches a bay from outside its logic -/

/-- The spine signals of a bay by number: short tag, strobe, command code, its valid bit (02 R64). -/
def State.spineBit (s : State) (b k : Nat) : Bool :=
  let p := s.spine b
  if k < 16 then p.tag.getLsbD k else if k = 16 then p.strobe else if k < 25 then p.code.getLsbD (k - 17) else k = 25 && p.valid

/-- What an output of a hard block shows (04 R171); what the model does not follow is open. -/
def State.blockBit (s : State) (b : Nat) (t : Tile) (k : Nat) : Bool :=
  let id (row col blk : Nat) : BlockId :=
    ⟨Fin.ofNat 4 (b / 16), Fin.ofNat 12 (b % 16 / 4 * 3 + row % 3), Fin.ofNat 240 (b % 4 * 60 + col % 60), Fin.ofNat 12 blk⟩
  match Config.blockPort t k with
  | .bram row col blk portB n =>
    let m := s.bram (id row col blk)
    (portOut (s.blockCfg (id row col blk) portB) (m.port portB)).d.getLsbD n
  | .fifo row col blk n => (s.fifo (id row col blk)).out.data.getLsbD n
  | .slice n bit => if bit < 24 then (s.slice b n).outData.getLsbD bit else bit = 24 && (s.slice b n).outValid
  | .recv ch n =>
    let c : QtzChan := if s.fenced b then {} else s.qtz.rx.get {} (b, ch)
    if n < 64 then c.data.getLsbD n else if n < 80 then c.tag.getLsbD (n - 64) else n = 80 && c.valid
  | .other j => Config.freeNat (s.free + j) % 2 == 1

/-- The level at a user pin: what a pin drives, else what the outside drives, else what the pull makes of it, a keeper holding
the last level (04 R194, R204). `outside` is what the outside drives. -/
def State.padLevelWith (s : State) (outside : Option Bool) (i : Nat) : Bool :=
  let d := s.padDrive i
  if d.2 then d.1
  else match outside with
    | some v => v
    | none => match s.pinPull i with
      | .up => true
      | .down => false
      | .keeper => (s.fabric.pins.get {} i).level
      | .none => Config.freeNat (s.free + i) % 2 == 1

/-- Bit `k` of the input of an I/O port: that of the pin bound to it, through the deserialiser or the input register where they
are in use; 0 for a fenced bay, and without a pin (04 R196, R198, R199, R203). The export line takes the level of its FEXP input
(18 R916). -/
def State.portIn (s : State) (b port k : Nat) : Bool :=
  if port = exportPort then k = 0 && s.fexpIn b
  else if s.fenced b then false
  else match s.fabric.pins.find? fun e => e.2.cfg.bound == some (b, port) with
    | none => false
    | some (_, p) =>
      if p.cfg.cell.deser.isSome then p.word.getD k false
      else if p.cfg.cell.inReg.isSome then (if k = 0 then p.inQ.1 else p.inQ.2)
      else p.level

/-- An incoming border signal: the outgoing one of the neighbour that faces it, as it passes the fence or as the fence's register
holds it; 0 for a fenced bay (04 R174, 13 R687). -/
def State.borderIn (s : State) (b : Nat) (d : Side) (k : Nat) : Bool :=
  if s.fenced b then false
  else if ((s.fabric.logic.get {} b).borderReg.find (false, d, k)).isSome then s.fabric.borderIn.get false (b, d, k)
  else match bayBeside b d with
    | some n => s.fabric.borderOut.get false (n, d.facing, k)
    | none => false

/-! The signals of a bay -/

def BayLogic.grainAt (l : BayLogic) (t : Tile) : Option Grain := l.grains.find? fun g => g.tile == t

/-- The value of a signal of bay `b`, at most `fuel` signals deep: a loop of logic without a flip-flop has no value that the spec
states. `v` below stands for the signals one step nearer to their sources. -/
def State.sig (s : State) (b : Nat) (l : BayLogic) : Nat → Sig → Bool
  | 0, _ => Config.freeNat s.free % 2 == 1
  | fuel + 1, σ =>
    let v := s.sig b l fuel
    let inputs (c : Cell) : BitVec 6 := BitVec.ofNat 6 (packBits (c.ins.map v))
    let carryIn (g : Grain) (n : Nat) : Bool :=
      if n = 0 then match g.ci with
        | .below => v (.carry (g.tile.1, g.tile.2 - 1) 15)
        | .zero => false
        | .one => true
        | .x => v (g.cells.getD 0 {}).x
      else v (.carry g.tile (n - 1))
    let outs (t : Tile) (n : Nat) : Bool × Bool × Bool × Bool := match l.grainAt t with
      | none => (false, false, false, false)
      | some g => let c := g.cells.getD n {}; c.outputs (inputs c) (v c.x) (carryIn g n)
    match σ with
    | .const c => c
    | .cell t n .f => (outs t n).1
    | .cell t n .j => (outs t n).2.1
    | .cell t n .s => (outs t n).2.2.1
    | .cell t n .q0 => ((s.fabric.flops.find (flopNo b t n false)).map (·.q)).getD false
    | .cell t n .q1 => ((s.fabric.flops.find (flopNo b t n true)).map (·.q)).getD false
    | .carry t n => (outs t n).2.2.2
    | .wire w => match l.wires.find w with
      | some src => v src
      | none => Config.freeNat s.free % 2 == 1
    | .port p k => s.portIn b p k
    | .border d k => s.borderIn b d k
    | .spine k => s.spineBit b k
    | .block t k => s.blockBit b t k

/-- The depth to which signals are followed: more than the signals a bay can have in one path, grain by grain. -/
def sigDepth (l : BayLogic) : Nat := 64 * (l.grains.length + 1) + l.wires.length

def State.signal (s : State) (b : Nat) (σ : Sig) : Bool :=
  let l := s.fabric.logic.get {} b
  s.sig b l (sigDepth l) σ

/-! Flip-flops -/

/-- The control set of a flip-flop and the net that clocks it: a global tree, also through a regional segment, or a segment that
a bay signal drives (04 R164, R176). -/
def State.flopCtl (s : State) (f : Flop) : CtlSet :=
  (((s.fabric.logic.get {} f.bay).grainAt f.tile).map (·.ctl f.set1)).getD {}

def State.flopNet (s : State) (f : Flop) : Option Net :=
  match (s.flopCtl f).clk with
  | .global n => some (.global n)
  | .regional n => match (s.fabric.logic.get {} f.bay).segs.find (f.tile.2 / 80, n) with
    | some (.global g) => some (.global g)
    | some (.bay _) => some (.segment (f.tile.2 / 80) n)
    | none => none

/-- Fabric reset `n`, or the start-up hold as number 4, still acts on a flip-flop of bay `b` on a net: it is asserted, or fewer
than two active edges have followed its release (04 R166, R184, R185). -/
def State.stillReset (s : State) (b n : Nat) (net : Net) (rising : Bool) : Bool :=
  let asserted := if n = 4 then !s.fabric.holdReleased.contains b else s.frstOn (b / 16) n
  asserted || s.fabric.synced.get 0 (b, n, net, rising) < 2

/-- What acts on a flip-flop at an edge of `net`, if any (04 R166). -/
def State.flopIn (s : State) (f : Flop) (at_ : Option (Net × Bool)) : FlopIn :=
  let c := s.flopCtl f
  let l := s.fabric.logic.get {} f.bay
  let g := l.grainAt f.tile
  let cell := ((g.map (·.cells)).getD []).getD f.cell {}
  let v := s.signal f.bay
  let net := (s.flopNet f).getD (.segment 3 0)
  { hold := s.stillReset f.bay 4 net c.rising
    localReset := !s.fabric.lsrReleased.contains f.bay
    fabricReset := (f.frst.map fun n => s.stillReset f.bay n net c.rising).getD false
    sr := (c.sr.map v).getD false != c.srInv
    srAsync := c.srAsync
    edge := at_ == some (net, c.rising)
    ce := (c.ce.map v).getD true
    d := cell.d f.ff1 (v (.cell f.tile f.cell .f)) (v (.cell f.tile f.cell .j)) (v (.cell f.tile f.cell .s)) (v cell.x) (v cell.y) }

/-- The flip-flops of the bays selected take their next values, all from one state (04 R166). -/
def flopsStep (sel : Nat → Bool) (at_ : Option (Net × Bool)) (s : State) : State :=
  let next (f : Flop) : Flop := if sel f.bay then { f with q := flopNext (s.flopIn f at_) f.q f.init f.srval } else f
  { s with fabric := { s.fabric with flops := s.fabric.flops.map fun e => (e.1, next e.2) } }

/-- An edge of a net in a bay counts towards the release of the resets that are released (04 R184, R185). -/
def syncEdge (b : Nat) (net : Net) (rising : Bool) (s : State) : State :=
  let free (n : Nat) : Bool := if n = 4 then s.fabric.holdReleased.contains b else !s.frstOn (b / 16) n
  let count (t : Tbl (Nat × Nat × Net × Bool) Nat) (n : Nat) : Tbl (Nat × Nat × Net × Bool) Nat :=
    t.set (b, n, net, rising) (min 2 (t.get 0 (b, n, net, rising) + 1))
  { s with fabric := { s.fabric with synced := ((List.range 5).filter free).foldl count s.fabric.synced } }

/-! I/O cells and fence registers -/

/-- The pin as a rising or falling edge of global tree `g` leaves it (04 R196, R198): single data rate acts on rising edges, and
double on both; the deserialiser takes a bit at each rising edge of its faster tree and gives its word at one of the slower,
the serialiser the other way. -/
def State.pinEdge (s : State) (g : Nat) (rising : Bool) (p : UioPin) : UioPin :=
  let c := p.cfg.cell
  let (outs, en) := match p.cfg.bound with
    | some bp => s.fabric.ports.get ([], false) bp
    | none => ([], false)
  let on (r : Option IoReg) : Bool := r.any fun r => r.tree == g && (rising || r.ddr)
  let ddr (r : Option IoReg) : Bool := r.any (·.ddr)
  let p1 := if on c.inReg then { p with inQ := if rising then (p.level, p.inQ.2) else (p.inQ.1, p.level) } else p
  let p2 := if on c.outReg then { p1 with outFell := !rising, outQ :=
      if rising then (outs.getD 0 false, if ddr c.outReg then outs.getD 1 false else outs.getD 0 false) else p1.outQ } else p1
  let p3 := if on c.oeReg then { p2 with oeFell := !rising, oeQ := if rising then (en, en) else p2.oeQ } else p2
  let p4 := match c.deser with
    | some (fast, slow) =>
      let q := if fast = g ∧ rising then { p3 with shiftIn := (p3.shiftIn ++ [p.level]).drop (p3.shiftIn.length - 3) } else p3
      if slow = g ∧ rising then { q with word := p.shiftIn } else q
    | none => p3
  match c.ser with
  | some (fast, slow) =>
    if slow = g ∧ rising then { p4 with shiftOut := outs.take 4 }
    else if fast = g ∧ rising then { p4 with shiftOut := p4.shiftOut.tail } else p4
  | none => p4

/-- The fence's registers of border signals, outgoing and incoming. -/
abbrev BorderRegs := Tbl (Nat × Side × Nat) Bool × Tbl (Nat × Side × Nat) Bool

/-- The fence's registers of border signals of a bay on global tree `g` take their signals from the state before the edge
(04 R174); outgoing ones of a fenced bay stay as the fence clamps them. -/
def borderEdge (b g : Nat) (s : State) (regs : BorderRegs) : BorderRegs :=
  let l := s.fabric.logic.get {} b
  (l.borderReg.filter fun e => e.2 == g).foldl (fun a e =>
    let (out, d, k) := e.1
    if out then
      match (if s.fenced b then none else l.borders.find (d, k)) with
      | some σ => (a.1.set (b, d, k) (s.signal b σ), a.2)
      | none => a
    else
      let v := match bayBeside b d with
        | some n => s.fabric.borderOut.get false (n, d.facing, k)
        | none => false
      (a.1, a.2.set (b, d, k) v)) regs

/-- What leaves the fence of an open bay follows its signals: I/O ports, and border signals that are passed through
(04 R174, R199). -/
def bayOutputs (b : Nat) (s : State) : State :=
  if s.fenced b then s
  else
    let l := s.fabric.logic.get {} b
    let ports := l.ports.foldl (fun (t : Tbl (Nat × Nat) (List Bool × Bool)) e =>
      t.set (b, e.1) (e.2.1.map (s.signal b), s.signal b e.2.2)) s.fabric.ports
    let borders := (l.borders.filter fun e => (l.borderReg.find (true, e.1)).isNone).foldl
      (fun (t : Tbl (Nat × Side × Nat) Bool) e => t.set (b, e.1) (s.signal b e.2)) s.fabric.borderOut
    { s with fabric := { s.fabric with ports := ports, borderOut := borders } }

/-- The fabric after a change: what acts on flip-flops at once acts, outputs follow, and the pads take their levels. A border
signal passes one bay in each of the four rounds. -/
def fabricSettle (outside : Nat → Option Bool) (s : State) : State :=
  let round (t : State) : State :=
    let u := (flopsStep (fun _ => true) none t).each (t.fabric.logic.map (·.1)) fun u b => bayOutputs b u
    let look (i : Nat) (p : UioPin) : UioPin := { p with level := u.padLevelWith (outside i) i }
    { u with fabric := { u.fabric with pins := u.fabric.pins.map fun e => (e.1, look e.1 e.2) } }
  round (round (round (round s)))

/-! Edges -/

/-- What can give an edge now: a global tree of a slab, or a segment of a bay that a bay signal drives. -/
inductive Clocked where
  | tree (slab g : Nat)
  | segment (b r n : Nat)
  deriving DecidableEq, Repr

/-- Synthesiser outputs may have an edge whenever they run; a clock-capable pair, and a bay signal, when its level has changed
(04 R175, R176). -/
def State.edgesDue (s : State) : List Clocked :=
  let trees := s.fabric.trees.filterMap fun e =>
    let due := match e.2 with
      | .synth n _ => (s.synth (e.1.1 * 12 + n)).running
      | .pins k => (s.fabric.pins.get {} (clockPin (e.1.1 * 5 + k))).level != s.fabric.treeLevel.get false e.1
    if due then some (Clocked.tree e.1.1 e.1.2) else none
  let segs := s.fabric.logic.flatMap fun e => e.2.segs.filterMap fun g => match g.2 with
    | .global _ => none
    | .bay σ =>
      if s.signal e.1 σ != s.fabric.segLevel.get false (e.1, g.1.1, g.1.2) then some (Clocked.segment e.1 g.1.1 g.1.2) else none
  trees ++ segs

/-- A net of the bays that it reaches has an edge: resets count it, and flip-flops and fence registers take it. A bay whose clock
is gated off gets none (04 R180). -/
def netEdge (bays : List Nat) (net : Net) (rising : Bool) (s : State) : State :=
  let on := bays.filter s.bayClocked
  let s1 := s.each on fun t b => syncEdge b net rising t
  let s2 := flopsStep on.contains (some (net, rising)) s1
  match net, rising with
  | .global g, true =>
    let (out, in_) := on.foldl (fun a b => borderEdge b g s1 a) (s1.fabric.borderOut, s1.fabric.borderIn)
    { s2 with fabric := { s2.fabric with borderOut := out, borderIn := in_ } }
  | _, _ => s2

/-- One edge. -/
def clockEdge (c : Clocked) (s : State) : State :=
  match c with
  | .tree k g =>
    let rising := !s.fabric.treeLevel.get false (k, g)
    let s1 := netEdge ((List.range 16).map (k * 16 + ·)) (.global g) rising
      { s with fabric := { s.fabric with treeLevel := s.fabric.treeLevel.set (k, g) rising } }
    let cell (i : Nat) (p : UioPin) : UioPin := if i / 240 = k then s.pinEdge g rising p else p
    if s.on F.CKG_GATE_TOP_ROOT && bit (s.get F.CKG_GATE_TOP_SLAB) k then
      { s1 with fabric := { s1.fabric with pins := s1.fabric.pins.map fun e => (e.1, cell e.1 e.2) } }
    else s1
  | .segment b r n =>
    let rising := !s.fabric.segLevel.get false (b, r, n)
    netEdge [b] (.segment r n) rising { s with fabric := { s.fabric with segLevel := s.fabric.segLevel.set (b, r, n) rising } }

/-- The fabric goes on by one edge, if any is due: which one, and what the outside drives onto each pin, is free. Nothing happens
where no frame has configured anything. -/
def fabricTick (s : State) : State :=
  let f := s.fabric
  if f.trees.isEmpty && f.logic.isEmpty && f.pins.isEmpty then s
  else
    let outside (i : Nat) : Option Bool := match Config.freeNat (s.free + 1 + i) % 3 with
      | 0 => none
      | 1 => some false
      | _ => some true
    let s1 : State := match s.edgesDue[Config.freeNat s.free % (s.edgesDue.length + 1)]? with
      | some c => clockEdge c s
      | none => s
    fabricSettle outside { s1 with free := s1.free + 1024 }

/-- The flint-clock cycles of XOUT and XTRIG pulses are over (18 R918, 19 R964). -/
def xoutIdle (s : State) : State := s.setSvc fun v => { v with xout := (false, false), xtrig := [] }

/-- What happens in a step that finds no command: the fabric and the slices go on by one edge, Sand by one cycle (DESIGN CHOICE, log entry 1). -/
def tick (s : State) : State := sandCycle (fabricTick (slicesIdle (bramsIdle (xoutIdle s))))

end Sys2Proof.Machine
end

