-- ==== Sys2Proof/WellFormed.lean ====
section
/-! DEFINITION. Which commands are well formed: operands that the spec's own descriptions of a packet, a fetch or an event
allow. The meanings do not rest on it. -/

namespace Sys2Proof

/-- The identity is one that R384 lists: 0x4E and 0x4F are reserved. -/
def iniOk (i : Ini) : Bool := i.val != 0x4E && i.val != 0x4F

/-- A core's privilege, or 3 of any other initiator (08 R387). -/
def privOk (i : Ini) (p : BitVec 2) : Bool := if 0x40 ≤ i.val ∧ i.val ≤ 0x48 then p != 3 else p == 3

/-- The numbers of poisoned words lie among the words that `n` bytes from `a` touch (08 R391). -/
def poisonOk (a n : Nat) (p : List Nat) : Bool := p.all (· < (a % 8 + n + 7) / 8)

/-- A request packet: a listed initiator and its privilege, no 4 KiB boundary crossed, LEN + 1 bytes with a write and none
with a read (08 R384 to R389). -/
def SandReq.wf (q : SandReq) : Bool :=
  iniOk q.ini && privOk q.ini q.priv && q.addr.toNat % 4096 + q.len.toNat < 4096
    && (q.data.length == if q.op == .read then 0 else q.len.toNat + 1) && poisonOk q.addr.toNat q.data.length q.poison

/-- A response packet: LEN + 1 bytes with a READ_RSP that is OKAY, BUSY or UNCORRECTABLE, and none otherwise (08 R389 to R391). -/
def SandRsp.wf (r : SandRsp) : Bool :=
  iniOk r.ini && poisonOk r.addr.toNat r.data.length r.poison
    && (r.data.length == if !r.write && (r.resp == .okay || r.resp == .busy || r.resp == .uncorrectable) then r.len.toNat + 1 else 0)

/-- A loader window access: 1 to 4,096 bytes, and a write brings them all. -/
def WinReq.wf (q : WinReq) (write : Bool) : Bool :=
  iniOk q.ini && privOk q.ini q.priv && 1 ≤ q.len && q.len ≤ 4096 && (q.data.length == if write then q.len else 0)

/-- A fetch that ends in an error ends in one that is neither OKAY nor UNCORRECTABLE (14 R756, R757). -/
def Fetch.wf : Fetch → Bool
  | .err r => r != .okay && r != .uncorrectable
  | _ => true

def Cx.wf (c : Cx) : Bool := c.fetch.wf

/-- A KTP packet's payload is at most what LEN can say. -/
def KtpRx.wf (p : KtpRx) : Bool := p.payload.length < 2 ^ 16 && p.headers.length ≤ 56

/-- A store to a stimulus port is of 1, 2, 4 or 8 bytes (19 R967). -/
def stimWf (data : List Byte) : Bool := data.length == 1 || data.length == 2 || data.length == 4 || data.length == 8

/-- The command is well formed. -/
def Instr.wf : Instr → Bool
  | .registerWrite ini _ _ _ _ => iniOk ini
  | .rcRegisterRead ini _ _ _ _ => iniOk ini
  | .timingFrameReceived _ => true
  | .quartzPllLock => true
  | .relockBoundaryStep => true
  | .crossingBoundary => true
  | .nop => true
  | .cnr => true
  | .orb => true
  | .rsy => true
  | .exa => true
  | .cal => true
  | .tpl => true
  | .thr => true
  | .trl => true
  | .reservedCommand => true
  | .userCommand => true
  | .cnPresetMessage => true
  | .queuedMessage => true
  | .msgDrop => true
  | .msgDataRead _ => true
  | .timingPortEnable _ => true
  | .timingPortDisable _ => true
  | .timingPortCdrLoss => true
  | .timingPortCdrLock => true
  | .laneEnable _ _ => true
  | .quadPllLock _ _ => true
  | .quadPllUnlock _ _ => true
  | .cdrLock _ => true
  | .cdrLoss _ _ => true
  | .laneWordReceived _ _ => true
  | .trainingBlockReceived _ _ _ _ => true
  | .tapRequestApply _ => true
  | .alignmentMarkerReceived _ _ _ => true
  | .laneWordTransmit _ _ _ => true
  | .retrain _ => true
  | .trainingComplete _ => true
  | .trainingResponseTimeout _ _ => true
  | .bitslip _ => true
  | .bitslipDone _ => true
  | .laneBindingChange _ _ => true
  | .prbsLock _ => true
  | .prbsLost _ => true
  | .snap _ => true
  | .clr _ => true
  | .inject _ => true
  | .pstateRequest _ _ => true
  | .pstateDone _ => true
  | .fabricResetAssert _ _ _ => true
  | .fabricResetRelease _ _ => true
  | .vccoLoss _ => true
  | .vccoReturn _ _ => true
  | .bramRead _ _ _ _ _ _ => true
  | .bramWrite _ _ _ _ _ _ _ _ => true
  | .bramErrorRetry _ _ _ _ => true
  | .outputRegisterReset _ _ _ => true
  | .fifoWrite _ _ _ _ => true
  | .fifoRead _ _ _ => true
  | .flush _ => true
  | .flushPointRecord _ => true
  | .flushComplete _ => true
  | .fifoReset _ => true
  | .fifoResetRelease _ _ => true
  | .pointerSync _ _ => true
  | .sliceNop _ _ => true
  | .waitx _ _ => true
  | .halt _ _ => true
  | .jmp _ _ => true
  | .br _ _ => true
  | .loop _ _ => true
  | .loopr _ _ => true
  | .seti _ _ => true
  | .movr _ _ => true
  | .sliceLd _ _ => true
  | .ldd _ _ => true
  | .st _ _ => true
  | .rds _ _ => true
  | .cinx _ _ => true
  | .cout _ _ => true
  | .sliceAdd _ _ => true
  | .sliceSub _ _ => true
  | .sliceAnd _ _ => true
  | .sliceOr _ _ => true
  | .sliceXor _ _ => true
  | .shf _ _ => true
  | .cmp _ _ => true
  | .sliceAddi _ _ => true
  | .mpy _ _ => true
  | .mac _ _ => true
  | .msu _ _ => true
  | .macm _ _ => true
  | .tap _ _ => true
  | .adda _ _ => true
  | .ash _ _ => true
  | .rnd _ _ => true
  | .cadd _ _ => true
  | .maxs _ _ => true
  | .mins _ _ => true
  | .the _ _ => true
  | .emit _ _ => true
  | .t8add _ _ => true
  | .t8sub _ _ => true
  | .t8mac _ _ => true
  | .t8max _ _ => true
  | .t8min _ _ => true
  | .t8pk _ _ => true
  | .t8hs _ _ => true
  | .illegalInstruction _ _ => true
  | .pmWriteBack _ _ => true
  | .dmWriteBack _ _ => true
  | .emitOutput _ _ => true
  | .streamInputWord _ _ _ => true
  | .runStartEdge _ _ _ => true
  | .srstRise _ _ => true
  | .srstFall _ _ => true
  | .sliceHalt => true
  | .sliceGo => true
  | .sliceResume => true
  | .clrDm => true
  | .clrDmDone _ _ => true
  | .sliceDataWrite _ => true
  | .sliceDataRead _ _ => true
  | .sandRequest q _ => q.wf
  | .sandResponse r => r.wf
  | .sandTimeout ini _ => iniOk ini
  | .sandInjection q _ => q.wf
  | .linkRetry _ _ => true
  | .linkClockSwitchDone => true
  | .nocRateWrite ini _ => iniOk ini
  | .accessPointInject b q _ => q.wf && q.ini.val == b.val
  | .transmitChannelWrite _ _ _ _ => true
  | .quartzInjection _ _ => true
  | .quartzFlitArrival _ _ => true
  | .receiveChannelUpdate _ _ _ _ => true
  | .tableWrite _ => true
  | .commit _ => true
  | .commitCopyDone => true
  | .commitBoundary => true
  | .slabTableReload _ => true
  | .trace _ => true
  | .traceDone => true
  | .probe _ => true
  | .probeDone => true
  | .probeLost => true
  | .verdictInit => true
  | .lookup _ _ _ _ => true
  | .verdictWriteBack => true
  | .ueSecondRead _ => true
  | .portConfigApply => true
  | .retire _ => true
  | .retirementApply => true
  | .restore _ => true
  | .rbist _ => true
  | .rbistDone _ => true
  | .windowRead q _ => q.wf false
  | .windowWrite q _ => q.wf true
  | .arm _ => true
  | .bankCopyDone _ => true
  | .loaderGo => true
  | .loaderDone => true
  | .loadErr => true
  | .swapGo _ => true
  | .swap => true
  | .disarm _ => true
  | .patrolRead _ _ => true
  | .fragment ini _ _ _ bs => iniOk ini && bs.length ≤ 4096
  | .quartzDecision _ _ => true
  | .hostDecision _ => true
  | .pageWrite _ _ _ _ => true
  | .chunkSend _ _ => true
  | .streamGrant _ _ => true
  | .stall _ => true
  | .stallDiscard _ => true
  | .streamEnable _ _ => true
  | .streamDisable _ _ => true
  | .ledgerEnable _ => true
  | .tierInitDone => true
  | .ledgerDisable _ => true
  | .ethEnable _ _ => true
  | .linkUp _ => true
  | .linkDown _ _ _ _ => true
  | .frameDrop _ _ => true
  | .arpRequest _ _ => true
  | .neighbourSolicitation _ _ => true
  | .echoRequest _ _ _ _ => true
  | .packetDiscard p => p.wf
  | .hello p _ => p.wf
  | .data p _ => p.wf
  | .ack p => p.wf
  | .verbRead _ _ => true
  | .verbWrite _ _ => true
  | .badVerb _ => true
  | .accept p => p.wf
  | .grant p => p.wf
  | .rekey p => p.wf
  | .close p _ => p.wf
  | .keepalive p => p.wf
  | .userControlMessage p _ => p.wf
  | .sessionCloseWrite _ _ => true
  | .retransmitTimeout _ _ _ => true
  | .ackDelay _ => true
  | .keepaliveTimer _ => true
  | .openingTimeout _ => true
  | .holdTimeout _ => true
  | .chunkTake _ _ => true
  | .controlRingSend _ => true
  | .ktpEnable _ => true
  | .openSession _ _ => true
  | .configRestart _ _ _ => true
  | .blankingDone => true
  | .nprogLow => true
  | .syncWord _ => true
  | .imageHeader h => h.length == 512
  | .block _ _ _ => true
  | .nopPacket => true
  | .writePacket => true
  | .frames => true
  | .check => true
  | .start => true
  | .confDoneHigh => true
  | .sequenceStep _ => true
  | .seqTimeout _ => true
  | .seqGo _ => true
  | .doneFell => true
  | .bayFence _ _ _ => true
  | .unfence _ _ _ => true
  | .slabFence _ => true
  | .slabUnfence _ => true
  | .icpArm _ _ => true
  | .icpDataWrite _ _ _ => true
  | .icpAbort _ _ => true
  | .cache _ => true
  | .capture _ => true
  | .load _ => true
  | .relocate _ => true
  | .relocateCommit _ => true
  | .spare _ => true
  | .blank _ => true
  | .bist _ => true
  | .readback _ => true
  | .free _ => true
  | .resultRead _ => true
  | .pagerAbort _ => true
  | .scrubFrameRead _ _ _ => true
  | .pagerCommandDone _ => true
  | .add cx _ _ _ => cx.wf
  | .sub cx _ _ _ => cx.wf
  | .and cx _ _ _ => cx.wf
  | .or cx _ _ _ => cx.wf
  | .xor cx _ _ _ => cx.wf
  | .sll cx _ _ _ => cx.wf
  | .srl cx _ _ _ => cx.wf
  | .sra cx _ _ _ => cx.wf
  | .slt cx _ _ _ => cx.wf
  | .sltu cx _ _ _ => cx.wf
  | .mul cx _ _ _ => cx.wf
  | .mulh cx _ _ _ => cx.wf
  | .mulhu cx _ _ _ => cx.wf
  | .div cx _ _ _ => cx.wf
  | .divu cx _ _ _ => cx.wf
  | .rem cx _ _ _ => cx.wf
  | .remu cx _ _ _ => cx.wf
  | .addi cx _ _ _ => cx.wf
  | .andi cx _ _ _ => cx.wf
  | .ori cx _ _ _ => cx.wf
  | .xori cx _ _ _ => cx.wf
  | .slli cx _ _ _ => cx.wf
  | .srli cx _ _ _ => cx.wf
  | .srai cx _ _ _ => cx.wf
  | .slti cx _ _ _ => cx.wf
  | .sltiu cx _ _ _ => cx.wf
  | .lui cx _ _ => cx.wf
  | .shori cx _ _ _ => cx.wf
  | .lb cx _ _ _ _ => cx.wf
  | .lbu cx _ _ _ _ => cx.wf
  | .lh cx _ _ _ _ => cx.wf
  | .lhu cx _ _ _ _ => cx.wf
  | .lw cx _ _ _ _ => cx.wf
  | .lwu cx _ _ _ _ => cx.wf
  | .ld cx _ _ _ _ => cx.wf
  | .sb cx _ _ _ _ => cx.wf
  | .sh cx _ _ _ _ => cx.wf
  | .sw cx _ _ _ _ => cx.wf
  | .sd cx _ _ _ _ => cx.wf
  | .ldx cx _ _ _ => cx.wf
  | .stx cx _ _ _ _ => cx.wf
  | .beq cx _ _ _ => cx.wf
  | .bne cx _ _ _ => cx.wf
  | .blt cx _ _ _ => cx.wf
  | .bge cx _ _ _ => cx.wf
  | .bltu cx _ _ _ => cx.wf
  | .bgeu cx _ _ _ => cx.wf
  | .jal cx _ _ => cx.wf
  | .jalr cx _ _ _ => cx.wf
  | .csrr cx _ _ => cx.wf
  | .csrw cx _ _ _ => cx.wf
  | .csrs cx _ _ _ => cx.wf
  | .csrc cx _ _ _ => cx.wf
  | .dclean cx _ _ _ => cx.wf
  | .dinv cx _ _ _ => cx.wf
  | .dflush cx _ _ _ => cx.wf
  | .iinv cx _ _ _ => cx.wf
  | .dflushAll cx _ _ _ => cx.wf
  | .iinvAll cx _ _ _ => cx.wf
  | .ecall cx => cx.wf
  | .tret cx => cx.wf
  | .wfi cx => cx.wf
  | .fence cx => cx.wf
  | .ifence cx => cx.wf
  | .brk cx => cx.wf
  | .coreIllegal cx _ => cx.wf
  | .storeErr _ => true
  | .interrupt _ => true
  | .reservationExpiry _ => true
  | .coreStart _ _ => true
  | .coreStop _ _ => true
  | .stewardBoot _ => true
  | .requestGo _ _ => true
  | .lock _ => true
  | .loadPatch _ _ => true
  | .coreService _ _ _ => true
  | .sign _ _ => true
  | .random _ => true
  | .revoke _ => true
  | .watchdogKick _ _ => true
  | .watchdogFirstExpiry _ => true
  | .watchdogSecondExpiry _ _ _ => true
  | .handover _ => true
  | .scratchpadRead q _ => q.wf && q.op == .read
  | .scratchpadWrite q _ => q.wf && q.op != .read
  | .mergeEntryWrite _ _ => true
  | .scratchpadWriteBack _ => true
  | .spdHandover _ _ => true
  | .handoverDone _ => true
  | .dmaGo _ _ => true
  | .dmaDone _ _ => true
  | .dmaHalt _ _ r _ => r != .okay
  | .dmaAbort _ _ _ => true
  | .memKey _ _ => true
  | .dmcEnable _ _ => true
  | .dmcInitDone _ _ _ _ => true
  | .dmcDisable _ _ => true
  | .dmcConfigWrite _ _ => true
  | .shortRetrain _ _ => true
  | .retrained _ _ => true
  | .freqGo _ _ => true
  | .freqDone _ _ => true
  | .refresh _ _ => true
  | .urgencyMiss _ _ => true
  | .dramRead q _ => q.wf && q.op == .read
  | .dramWrite q _ => q.wf && q.op != .read
  | .dramPartialWrite q _ => q.wf && q.op != .read
  | .channelRetire _ _ => true
  | .meeRegionEnable _ _ ini => iniOk ini
  | .powerDomain _ => true
  | .powerState _ => true
  | .monitorTrip _ _ _ => true
  | .monitorStable _ _ => true
  | .synthEnable _ _ => true
  | .synthLock _ _ => true
  | .heldTimeout _ => true
  | .revert _ => true
  | .rampStep _ => true
  | .gateWrite _ _ ini => iniOk ini
  | .domainPowerOff _ => true
  | .domainPowerOn _ => true
  | .domainDone _ => true
  | .wake _ => true
  | .padRelease _ => true
  | .comparatorSample _ _ => true
  | .pinFunctionSwitch _ _ ini => iniOk ini
  | .switchWindowEnd _ => true
  | .pinLevelChange _ _ => true
  | .uartDataWrite _ _ => true
  | .uartDataRead _ _ => true
  | .uartByteReceived _ _ => true
  | .spiDataWrite _ _ => true
  | .i2cStart _ => true
  | .i2cStop _ => true
  | .i2cWrite _ _ => true
  | .i2cReadAck _ => true
  | .i2cReadNack _ => true
  | .timerWrap _ => true
  | .eventSourceRise _ _ => true
  | .evcClaim _ _ => true
  | .evcComplete _ _ => true
  | .spiShiftDone _ _ => true
  | .i2cOperationDone _ _ => true
  | .uartByteSent _ => true
  | .tapReset _ => true
  | .extest _ _ => true
  | .samplePreload _ _ => true
  | .idcode => true
  | .clamp => true
  | .highz => true
  | .bypass _ => true
  | .vapChal _ => true
  | .vapAuth _ => true
  | .vapAcc _ => true
  | .levelSet _ => true
  | .vapRead _ => true
  | .vapWrite _ => true
  | .image => true
  | .debugWake _ => true
  | .dbgHalt _ => true
  | .haltForced _ => true
  | .dbgResume _ => true
  | .dbgStep _ => true
  | .crossTrigger _ => true
  | .stimulusStore _ _ d => stimWf d
  | .vtOutWrite _ _ => true
  | .vtOutRead _ _ => true
  | .vtInWrite _ _ => true
  | .vtInRead _ => true
  | .warmReset _ => true
  | .nreset _ _ _ => true
  | .powerOnReset _ _ _ _ => true
  | .vccFabLoss _ => true
  | .vccFabReturn _ => true

end Sys2Proof
end

