-- ==== Sys2Proof/Safety.lean ====
section
/-! DEFINITION. What counts as a safe run: the properties of a state that every step keeps, and that a step completes. -/

namespace Sys2Proof.Machine

/-- A step or a command completes with a next state. -/
def completes (o : Host.Outcome State Fault Refusal) : Bool :=
  match o with
  | .next _ => true
  | .fault _ => false
  | .refused _ => false

/-- The state after a completed step. -/
def after (o : Host.Outcome State Fault Refusal) (d : State) : State :=
  match o with
  | .next t => t
  | .fault _ => d
  | .refused _ => d

/-- The command completes from a state, and the state after has a property. -/
def Completes (c : Instr) (s : State) (P : State → Prop) : Prop := ∃ t, exec c s = .next t ∧ P t

/-- The commands of a list, run one after another. -/
def runs : List Instr → State → Host.Outcome State Fault Refusal
  | [], s => .next s
  | c :: r, s => match exec c s with
    | .next t => runs r t
    | o => o

/-- Every register but those at the listed bus addresses holds what it held. -/
def RegsBut (s t : State) (l : List Nat) : Prop := ∀ a, a ∉ l → ∀ d, t.regs.get d a = s.regs.get d a

/-- Every byte of memory outside a list of addresses reads as it did. -/
def BytesBut (s t : State) (l : List Nat) : Prop := ∀ a, a ∉ l → t.peek a = s.peek a

/-- The instruction word of opcode `op` with bits [33:0] `f` (07 R336). -/
def sliceWord (op : Nat) (f : BitVec 34) : Nat := op * 2 ^ 34 + f.toNat

/-- A slice issues the word without a trap: it runs, its clock runs, SRST is 0, the word is legal, and neither the word nor
the data it reads carries or meets an error (06 R286, R288, R305, R314 to R317). -/
def SliceReady (cx : SliceCx) (op : Nat) (f : BitVec 34) (s : State) : Prop :=
  let x := s.slice cx.bay cx.slice
  let w := sliceWord op f
  x.run = .running ∧ s.sliceClock cx.bay = true ∧ x.srst = false ∧ sliceLegal op w x = true ∧
    s.cascAlien cx.bay cx.slice = false ∧ cx.fetch = .none ∧ cx.memA = .none ∧ cx.memB = .none ∧
    x.pmFlaw.get .none x.pc.toNat = .none ∧ x.dmFlaw.get .none (x.p[fldPA w]).toNat = .none ∧
    x.dmFlaw.get .none (x.p[fldPB w]).toNat = .none

/-- The slice as an error-free issue finds it: the cycle in which a word stood at its output is over (06 R278). -/
def sliceFound (x : Slice) : Slice := { x with outValid := false }

/-- The row completes with effect `g` on its slice, then the pointer updates and the flow `fl`, and changes nothing else. -/
def SliceRuns (c : Instr) (cx : SliceCx) (op : Nat) (f : BitVec 34) (s : State) (g : Slice → Slice) (fl : Flow) : Prop :=
  let w := sliceWord op f
  exec c s = .next (s.setSlice cx.bay cx.slice
    (sliceFlow fl (ptrUpdates op w (g (sliceFound (s.slice cx.bay cx.slice))))))

/-- A data register takes the word `y` that the exact result `r` wraps to, or the nearest 24-bit bound when it lies outside
the signed range and saturation is asked for, with flags Z N V (07 R341, R344, R345). -/
def write24 (k : Fin 8) (r : Int) (y : W24) (sat : Bool) (x : Slice) : Slice :=
  let ov := decide (r < -8388608 ∨ 8388607 < r)
  let q : W24 := if ov && sat then (if r < 0 then 0x800000 else 0x7FFFFF) else y
  { x with x := x.x.set k q, z := q == 0, n := q.msb, v := ov, sat := x.sat || (ov && sat) }

/-- The same for an accumulator and 56 bits. -/
def write56 (k : Fin 4) (r : Int) (y : BitVec 56) (sat : Bool) (x : Slice) : Slice :=
  let ov := decide (r < -36028797018963968 ∨ 36028797018963967 < r)
  let q : BitVec 56 := if ov && sat then (if r < 0 then 0x80000000000000 else 0x7FFFFFFFFFFFFF) else y
  { x with a := x.a.set k q, z := q == 0, n := q.msb, v := ov, sat := x.sat || (ov && sat) }

/-- Core `cx.core` issues an instruction now, whose fetch is good: it is powered, running, not halted, stepping, in LOCKUP or
waiting, no interrupt or deferred halt comes first, and the PC may be fetched from (14 R732, R733, R762 to R764, 19 R960). -/
def CoreReady (cx : Cx) (s : State) : Prop :=
  let n := cx.core.val
  s.coreIssues n = true ∧ (s.core n).stepping = false ∧ s.on F.DBG_CORE_STATUS_DEFERRED n = false ∧ cx.fetch = .ok ∧
    (s.core n).refuses (s.core n).pc.toNat 4 2 = false

/-- The state in which a ready core executes the instruction: the fetch has marked that one was fetched and placed its line. -/
def coreFetched (n : Nat) (s : State) : State :=
  let t := s.modCore n fun c => { c with atTvec := false, wfi := false }
  if s.icOn n (s.core n).pc.toNat then fetchPlace n ((s.core n).pc.toNat / 64) t else t

/-- The instruction completes: register `rd` takes `v` (none when it is g0), the PC goes to `pc`, RETIRED counts, and no other
register, control register, core or other state changes. -/
def CoreGives (c : Instr) (cx : Cx) (s : State) (rd : Gpr) (v pc : W64) : Prop :=
  let n := cx.core.val
  let k := s.core n
  Completes c s fun t =>
    t.greg n rd.val = (if rd.val = 0 then 0 else v) ∧ (∀ r : Gpr, r ≠ rd → t.greg n r.val = s.greg n r.val) ∧
    t.core n = { k with
      g := (t.core n).g, ic := (t.core n).ic, pc := pc, retired := k.retired + 1, atTvec := false, wfi := false } ∧
    (∀ m, m ≠ n → t.core m = s.core m) ∧ t = { s with cores := t.cores, free := t.free }

/-- The instruction takes the trap with cause `code`, saved PC its own and TVAL `tval`: no register changes (14 R755). -/
def CoreTraps (c : Instr) (cx : Cx) (s : State) (code : Nat) (tval : W64) : Prop :=
  let n := cx.core.val
  let k := s.core n
  Completes c s fun t =>
    t.core n = { k with
      tpc := k.pc, tcause := BitVec.ofNat 64 code, tval := tval, ppriv := BitVec.ofNat 2 k.priv.code, pie := k.ie
      ie := false, priv := if n = 8 then .w else .s, pc := k.tvec, atTvec := true, wfi := false, ic := (t.core n).ic } ∧
    t.resv.find n = none ∧ (∀ m, m ≠ n → t.core m = s.core m ∧ t.resv.find m = s.resv.find m) ∧
    t = { s with cores := t.cores, resv := t.resv, free := t.free }

/-- Some authentication key slot holds a key that is not revoked (14 R782). -/
def State.keyLeft (s : State) : Prop := s.authSlots ≠ []

/-- Every merge-buffer entry of a scratchpad bank holds a word of that bank (15 R809). -/
def State.mergeHome (s : State) : Prop := ∀ b, ∀ e ∈ (s.bank b).merge, bankOf (e.word * 8) = b

/-- Every command that waits is well formed. -/
def State.queueWf (s : State) : Prop := ∀ c ∈ s.pending, c.wf = true

end Sys2Proof.Machine
end

