-- ==== Sys2Proof/Certificates/Slice0/Obligations.lean ====
section
/-! DEFINITION. The statements for the provers. -/

open Sys2Proof Sys2Proof.Machine

/-- The step and its queue; that an empty queue ticks the clocks is the model's choice (log entry 1). -/
def Obligations.StepRunsTheFrontCommand : Prop :=
  (∀ (c : Instr) (rest : List Instr) (s : State), s.pending = c :: rest → step s = exec c { s with pending := rest }) ∧
  (∀ s : State, s.pending = [] → step s = .next (tick s)) ∧
  (∀ (n w : Nat) (s : State), decodeTableWord n w = none ∧ s.withFetchWord n w = s)

/-- No data, mode or order of commands stops the device. Where it goes beyond those rules it rests on the model's choices of log entries 1, 3, 4. -/
def Obligations.EveryStepCompletes : Prop :=
  ∀ s : State, ∃ t, step s = .next t ∧ t.pending = s.pending.tail ∧ (s.queueWf → t.queueWf)

/-- 01 R35, 15 R809. Where it goes beyond those rules it rests on the model's choices of log entry 14. -/
def Obligations.MemoryStaysCanonical : Prop :=
  ∀ s t : State, step s = .next t → (s.memWf = true → t.memWf = true) ∧ (s.mergeHome → t.mergeHome)

/-- 14 R782. -/
def Obligations.RevocationIsPermanent : Prop :=
  (∀ (box : BoxId) (s : State), s.boxNext = some box.val → s.get F.KEY_REQ_CTRL_CODE box.val = 0x0B →
    let k := (s.boxArg box.val 0).toNat
    (s.authSlots = [k] → Completes (.revoke box) s fun t => t.get F.KEY_REQ_STATUS_STATUS box.val = reqDenied ∧
      t.on F.KEY_REQ_STATUS_DONE box.val = true ∧ t.on F.KEY_REQ_STATUS_BUSY box.val = false ∧ t.fuses = s.fuses) ∧
    (k ∈ s.authSlots → s.authSlots ≠ [k] → Completes (.revoke box) s fun t => t.get F.KEY_REQ_STATUS_STATUS box.val = reqOk ∧
      t.on F.KEY_REQ_STATUS_DONE box.val = true ∧ t.on F.KEY_REQ_STATUS_BUSY box.val = false ∧ t.fuses.authRevoked.getLsbD k = true)) ∧
  (∀ s t : State, step s = .next t → (∀ k, s.fuses.authRevoked.getLsbD k = true → t.fuses.authRevoked.getLsbD k = true) ∧
    (s.keyLeft → t.keyLeft))

/-- 00 R19 and the Reset columns; the fuses' keys, pin levels and rails at reset are the model's choices. Where it goes beyond those rules it rests on the model's choices of log entries 8, 10, 11, 12. -/
def Obligations.ResetState : Prop :=
  let s := State.reset
  s.pending = [] ∧ s.memWf = true ∧ s.mergeHome ∧ s.keyLeft ∧ s.queueWf ∧ s.mem = [] ∧
  (∀ b : Fin 64, s.fenced b.val = true ∧ s.bayState b.val = bayBlank ∧ s.on F.FEN_BAY_STATUS_GOLDEN b.val = false ∧ s.get F.FEN_BAY_STATUS_SLOT b.val = 0xFF ∧
    s.get F.FEN_BAY_STATUS_BY b.val = 1) ∧
  (∀ n : Fin 9, s.get F.WDG_LOAD_TICKS n.val = 1000000 ∧ s.coreHalted n.val = false ∧ s.core n.val = Core.fresh n.val ∧ s.resv.find n.val = none) ∧
  (∀ n : Fin 8, s.coreRuns n.val = false ∧ s.on F.KEY_REQ_STATUS_BUSY n.val = false) ∧
  s.rd R.WDG_CTRL 8 = 3 ∧ (∀ n : Fin 8, s.rd R.WDG_CTRL n.val = 2) ∧ s.boxNext = none ∧
  (∀ b : Fin 32, s.get F.SPD_OWN_OWNER b.val = 2) ∧
  (∀ k : Fin 4, s.rd R.DMC_TSET0 (2 * k.val + 1) = 0x1900 ∧ s.slabFenced k.val = false) ∧
  s.rd R.SVP_PIN_CTRL 0 = 0x03 ∧ s.rd R.SVP_PIN_CTRL 1 = 0x13 ∧ s.rd R.SVP_PIN_CTRL 2 = 0x23 ∧ s.rd R.SVP_PIN_CTRL 3 = 0x80033 ∧
  s.get F.CKG_HOLD_BAY_BAYS = 2 ^ 64 - 1 ∧ s.dbg.level = 0 ∧ s.dbg.ir = 2 ∧ s.qtz = {} ∧ s.ldg = {} ∧ s.ktp = {} ∧ s.dma = [] ∧ s.power.asleep = false

/-- 02 R58: frame lock after 64 consecutive frames with sync pattern and valid check, lost after 4 without the pattern. 02 R80, R82, R89, R1010: the events of the receive clock, the PLL and the relock. 02 R1011: a write of 0 to EN. Where it goes beyond those rules it rests on the model's choices of log entries 4, 28, 29, 123. -/
def Obligations.TimingFrameLock : Prop :=
  ((∀ (s : State) (fs : List W40), (∀ f ∈ fs, f.toNat / 2 ^ 34 = 0b110100 ∧ tmgCheck f = BitVec.ofNat 8 f.toNat) →
      s.on F.TMG_CTRL_EN = true → s.on F.TMG_STATUS_CDR_LOCK = true → s.on F.TMG_STATUS_FRAME_LOCK = false →
      s.tmg.good = 0 → fs.length ≤ 64 →
      ∃ t, runs (fs.map .timingFrameReceived) s = .next t ∧ (t.on F.TMG_STATUS_FRAME_LOCK = true ↔ fs.length = 64)) ∧
    (∀ (s : State) (fs : List W40), (∀ f ∈ fs, f.toNat / 2 ^ 34 ≠ 0b110100) →
      s.on F.TMG_CTRL_EN = true → s.on F.TMG_STATUS_FRAME_LOCK = true → s.tmg.bad = 0 → fs.length ≤ 4 →
      ∃ t, runs (fs.map .timingFrameReceived) s = .next t ∧ (t.on F.TMG_STATUS_FRAME_LOCK = false ↔ fs.length = 4))) ∧
  (∀ s : State,
      (s.on F.TMG_CTRL_EN = true → s.on F.TMG_STATUS_FRAME_LOCK = true → s.boundariesRun = false →
        Completes .quartzPllLock s fun t => t.on F.TMG_STATUS_QTZ_LOCK = true ∧ t.on F.TMG_STATUS_HOLDOVER = false ∧
          t.boundariesRun = true ∧ t = { s with regs := t.regs } ∧
          RegsBut s t [R.TMG_STATUS.addr 0, R.TMG_LAT_EPOCH.addr 0, R.NOC_STATUS.addr 0]) ∧
      (s.on F.TMG_CTRL_EN = true → Completes .timingPortCdrLock s fun t => t.on F.TMG_STATUS_CDR_LOCK = true ∧
        t = { s with regs := t.regs } ∧ RegsBut s t [R.TMG_STATUS.addr 0, R.TMG_LAT_EPOCH.addr 0]) ∧
      (Completes .timingPortCdrLoss s fun t => t.on F.TMG_STATUS_CDR_LOCK = false ∧ t.on F.TMG_STATUS_LAT_VALID = false ∧
        t = { s with regs := t.regs } ∧ RegsBut s t [R.TMG_STATUS.addr 0]) ∧
      (s.on F.TMG_STATUS_HOLDOVER = true → s.on F.TMG_STATUS_FRAME_LOCK = true → s.tmg.step = true →
        Completes .relockBoundaryStep s fun t => t.on F.TMG_STATUS_HOLDOVER = false ∧ t.on F.TMG_STATUS_QTZ_LOCK = true ∧
          t.on F.TMG_STATUS_CN_SUSPECT = s.on F.TMG_STATUS_CN_SUSPECT ∧ t.rd R.TMG_CN = s.rd R.TMG_CN ∧
          t = { s with regs := t.regs, tmg := { s.tmg with step := false }, qtz := { s.qtz with stepAt := some s.tmg.strobes } } ∧
          RegsBut s t [R.TMG_STATUS.addr 0, R.TMG_LAT_EPOCH.addr 0])) ∧
  (∀ s : State,
      (∀ f ∈ [F.TMG_CTRL_EN, F.TMG_STATUS_CDR_LOCK, F.TMG_STATUS_FRAME_LOCK, F.TMG_STATUS_QTZ_LOCK,
        F.TMG_STATUS_HOLDOVER, F.TMG_STATUS_LAT_VALID], (tmgStop s).on f = false) ∧
      (tmgStop s).on F.TMG_STATUS_CN_SUSPECT = true ∧
      (tmgStop s).on F.TMG_ERR_MSG_DROP = (s.on F.TMG_ERR_MSG_DROP || s.tmg.asm.isSome) ∧
      (tmgStop s).on F.TMG_ERR_LOCK_LOST = s.on F.TMG_ERR_LOCK_LOST ∧
      (tmgStop s).rd R.TMG_CN = s.rd R.TMG_CN ∧ (tmgStop s).rd R.TMG_CN_PRESET = s.rd R.TMG_CN_PRESET ∧
      (tmgStop s).tmg.waiting = [] ∧ (tmgStop s).tmg.due = [] ∧ (tmgStop s).tmg.asm = none ∧
      (tmgStop s).tmg.txFrame = none ∧ (tmgStop s).tmg.queue = s.tmg.queue ∧
      tmgStop s = { s with regs := (tmgStop s).regs, tmg := (tmgStop s).tmg } ∧
      RegsBut s (tmgStop s) [R.TMG_CTRL.addr 0, R.TMG_STATUS.addr 0, R.TMG_ERR.addr 0, R.NOC_STATUS.addr 0])

/-- 02 R59: a failed check turns the frame into NOP and idle, is counted and flagged, and leaves the lock. -/
def Obligations.TimingFrameHeld : Prop :=
  ∀ (s : State) (f : W40), s.on F.TMG_CTRL_EN = true → s.on F.TMG_STATUS_CDR_LOCK = true →
    s.on F.TMG_STATUS_FRAME_LOCK = true → f.toNat / 2 ^ 34 = 0b110100 →
    let before := if s.get F.TMG_QUARTZ_N < 16 then s.tmg.frames.drop (s.tmg.frames.length - 1) else []
    (tmgCheck f ≠ BitVec.ofNat 8 f.toNat →
      ∃ t, exec (.timingFrameReceived f) s = .next t ∧
        t = { (s.put F.TMG_CHECK_ERRS_COUNT 0 (min (s.get F.TMG_CHECK_ERRS_COUNT + 1) 0xFFFFFFFF)).put
            F.TMG_ERR_CHECK_ERR 0 1 with tmg := { s.tmg with bad := 0, frames := before ++ [some ⟨0, 0⟩] } } ∧
        t.get F.TMG_CHECK_ERRS_COUNT = min (s.get F.TMG_CHECK_ERRS_COUNT + 1) 0xFFFFFFFF ∧
        t.on F.TMG_ERR_CHECK_ERR = true ∧ t.on F.TMG_STATUS_FRAME_LOCK = true) ∧
    (tmgCheck f = BitVec.ofNat 8 f.toNat →
      exec (.timingFrameReceived f) s = .next { s with
        tmg := { s.tmg with bad := 0, frames := before ++ [some ⟨f.extractLsb' 26 8, f.extractLsb' 8 18⟩] } })

/-- 02 R89: the contract condition, and its count of rises. -/
def Obligations.TimingLatencyContract : Prop :=
  ∀ (s : State), s.on F.TMG_STATUS_LAT_VALID = s.latNow →
    ∀ c : Instr, ((∃ f, c = .timingFrameReceived f) ∨ c = .timingPortCdrLock ∨ c = .timingPortCdrLoss ∨
      c = .quartzPllLock ∨ c = .relockBoundaryStep ∨ (∃ w, c = .timingPortEnable w) ∨ (∃ w, c = .timingPortDisable w)) →
    Completes c s fun t => t.on F.TMG_STATUS_LAT_VALID = t.latNow ∧
      t.get F.TMG_LAT_EPOCH_EPOCH = (s.get F.TMG_LAT_EPOCH_EPOCH
        + (if t.on F.TMG_STATUS_LAT_VALID && !s.on F.TMG_STATUS_LAT_VALID then 1 else 0)) % 2 ^ 32

/-- 02 R65: the due command that a row takes, and the list it leaves. 02 R65 to R69: the effect of each command, on the state `t` that `takeDue` leaves. 02 R63 to R66, R71, R1010: the boundary at the timing port. Where it goes beyond those rules it rests on the model's choices of log entries 24, 25, 26, 27, 124. -/
def Obligations.TimingBoundary : Prop :=
  (∀ (p : Nat → Bool) (s : State),
      (∀ t, takeDue p s = some t ↔ ∃ l c r, s.tmg.due = l ++ c :: r ∧ p c.toNat = true ∧ cmdMayAct s.tmg.due c = true ∧
        (∀ d ∈ l, (p d.toNat && cmdMayAct s.tmg.due d) = false) ∧ t = { s with tmg := { s.tmg with due := l ++ r } }) ∧
      (takeDue p s = none ↔ ∀ d ∈ s.tmg.due, (p d.toNat && cmdMayAct s.tmg.due d) = false)) ∧
  (∀ s t : State,
      (takeDue (· == 0) s = some t → exec .nop s = .next t) ∧
      (takeDue (· == 5) s = some t → exec .cal s = .next t) ∧
      (takeDue (· == 6) s = some t → exec .tpl s = .next t) ∧
      (takeDue (0x80 ≤ ·) s = some t → exec .userCommand s = .next t) ∧
      (takeDue (fun c => 9 ≤ c && c < 0x80) s = some t → exec .reservedCommand s = .next (t.put F.TMG_ERR_RSVD_CMD 0 1)) ∧
      (takeDue (· == 7) s = some t → exec .thr s = .next (t.put F.TMG_STATUS_EXT_THROTTLE 0 1)) ∧
      (takeDue (· == 8) s = some t → exec .trl s = .next (t.put F.TMG_STATUS_EXT_THROTTLE 0 0)) ∧
      (takeDue (· == 2) s = some t → Completes .orb s fun u =>
        u.rd R.TMG_ORBIT_CN = t.rd R.TMG_CN ∧
        u.get F.TMG_ORBIT_COUNT_COUNT = (t.get F.TMG_ORBIT_COUNT_COUNT + 1) % 2 ^ 32 ∧
        u.on F.TMG_ERR_ORBIT_ERR = (t.on F.TMG_ERR_ORBIT_ERR ||
          (t.get F.TMG_ORBIT_LEN != 0 && t.tmg.sinceOrb.any (· != t.get F.TMG_ORBIT_LEN))) ∧
        u = { t with regs := u.regs, tmg := { t.tmg with sinceOrb := some 0 }, svc := { t.svc with xout := (t.svc.xout.1, true) } } ∧
        RegsBut t u [R.TMG_ORBIT_CN.addr 0, R.TMG_ORBIT_COUNT.addr 0, R.TMG_ERR.addr 0]) ∧
      (takeDue (· == 1) s = some t → exec .cnr s = .next (crossingTail (ldgResync true
        { (t.wr R.TMG_CN 0 (t.rd R.TMG_CN_PRESET)).put F.TMG_STATUS_CN_SUSPECT 0 0 with
          tmg := { t.tmg with spineTag := (t.rd R.TMG_CN_PRESET).setWidth 16 } }))) ∧
      (takeDue (· == 3) s = some t → exec .rsy s = .next (crossingTail (ldgResync false { t with rsyAt := some t.tmg.strobes }))) ∧
      (takeDue (· == 4) s = some t → exec .exa s = .next (crossingTail (ldgExternal
        ((t.rd R.TMG_CN).setWidth 16 - BitVec.ofNat 16 (t.get F.TMG_CTRL_EXA_OFFSET)) t)))) ∧
  (∀ s : State,
      (s.boundariesRun = true → s.power.asleep = false → s.tmg.due = [] →
        exec .crossingBoundary s = .next (crossingTail
          ((ldgBoundary (synBoundary (tmgBoundary { s with svc := { s.svc with xout := (true, false) } }))).setLdg
            fun l => { l with rest := true }))) ∧
      (tmgBoundary s).get F.TMG_CN_CN = (s.get F.TMG_CN_CN + 1) % 2 ^ 64 ∧
      (tmgBoundary s).tmg.spineTag = BitVec.ofNat 16 (s.get F.TMG_CN_CN + 1) ∧
      (tmgBoundary s).tmg.due = s.tmg.due ++ (s.tmg.waiting.filter (fun e => e.1 ≤ 1)).map (·.2) ∧
      (tmgBoundary s).tmg.spineCmd = ((s.tmg.waiting.filter (fun e => e.1 ≤ 1)).map (·.2)).getLast? ∧
      (tmgBoundary s).on F.TMG_ERR_CMD_COLLIDE = (s.on F.TMG_ERR_CMD_COLLIDE ||
        decide (2 ≤ (s.tmg.waiting.filter (fun e => e.1 ≤ 1)).length)) ∧
      (∀ e, e ∈ (tmgBoundary s).tmg.waiting ↔ ((e.1 + 1, e.2) ∈ s.tmg.waiting ∧ 1 ≤ e.1) ∨
        ∃ f, s.tmg.frames.head? = some (some f) ∧ e = (max 2 (s.get F.TMG_CTRL_CMD_DELAY), f.cmd)) ∧
      ((tmgBoundary s).tmg.asm, (tmgBoundary s).tmg.msgs) =
        ((fragTake s.tmg.asm ((s.tmg.frames.head?.join.map (·.frag)).getD 0)).1,
          s.tmg.msgs ++ (fragTake s.tmg.asm ((s.tmg.frames.head?.join.map (·.frag)).getD 0)).2) ∧
      (tmgBoundary s).tmg.strobes = s.tmg.strobes + 1 ∧ (tmgBoundary s).tmg.frames = s.tmg.frames.tail ∧
      tmgBoundary s = { s with regs := (tmgBoundary s).regs, tmg := (tmgBoundary s).tmg } ∧
      RegsBut s (tmgBoundary s) [R.TMG_CN.addr 0, R.TMG_ERR.addr 0])

/-- 02 R71 to R75: assembly and sorting of long messages. 02 R73 to R75: the completed messages at the head of the port's list, and the read of the queue. Where it goes beyond those rules it rests on the model's choices of log entries 4, 124. -/
def Obligations.TimingMessages : Prop :=
  ((∀ (h : W16) (mid : List W16) (e : W16) (asm : Option (List W16)),
      let frag (ty : Nat) (w : W16) : BitVec 18 := BitVec.ofNat 18 (ty * 65536 + w.toNat)
      let fs := frag 1 h :: mid.map (frag 2) ++ [frag 3 e]
      let r := fs.foldl (fun a f => ((fragTake a.1 f).1, a.2 ++ (fragTake a.1 f).2)) (asm, [])
      r = (none, (if asm.isSome then [MsgOut.drop] else []) ++ [msgSort (h :: mid ++ [e])])) ∧
    (∀ (h : W16) (body : List W16),
      ((h.toNat % 256 ≠ body.length ∨ 15 < body.length) → msgSort (h :: body) = .drop) ∧
      (h.toNat % 256 = body.length → body.length ≤ 15 →
        (∀ a b c d : W16, h.toNat / 256 = 1 → body = [a, b, c, d] → msgSort (h :: body) = .preset (a ++ b ++ c ++ d)) ∧
        (h.toNat / 256 = 1 → body.length ≠ 4 → msgSort (h :: body) = .drop) ∧
        (0x80 ≤ h.toNat / 256 → msgSort (h :: body) = .queue (h :: body)) ∧
        (h.toNat / 256 ≠ 1 → h.toNat / 256 < 0x80 → msgSort (h :: body) = .drop))) ∧
    (∀ (ws : List W16) (w : W16),
      fragTake (some ws) (BitVec.ofNat 18 w.toNat) = (none, [.drop]) ∧
      fragTake (some ws) (BitVec.ofNat 18 (65536 + w.toNat)) = (some [w], [.drop]) ∧
      fragTake none (BitVec.ofNat 18 (2 * 65536 + w.toNat)) = (none, []) ∧
      fragTake none (BitVec.ofNat 18 (3 * 65536 + w.toNat)) = (none, []))) ∧
  (∀ s : State,
      (∀ v r, s.tmg.msgs = .preset v :: r →
        exec .cnPresetMessage s = .next ({ s with tmg := { s.tmg with msgs := r } }.wr R.TMG_CN_PRESET 0 v)) ∧
      (∀ ws r, s.tmg.msgs = .queue ws :: r → s.tmg.queue.length < 16 →
        exec .queuedMessage s = .next ({ s with tmg := { s.tmg with
          msgs := r, queue := s.tmg.queue ++ [ws] } }.put F.TMG_ERR_MSG_READY 0 1)) ∧
      (∀ ws r, s.tmg.msgs = .queue ws :: r → 16 ≤ s.tmg.queue.length →
        exec .queuedMessage s = .next ({ s with tmg := { s.tmg with msgs := r } }.put F.TMG_ERR_MSG_DROP 0 1) ∧
        exec .msgDrop s = .next ({ s with tmg := { s.tmg with msgs := r } }.put F.TMG_ERR_MSG_DROP 0 1)) ∧
      (∀ r, s.tmg.msgs = .drop :: r →
        exec .msgDrop s = .next ({ s with tmg := { s.tmg with msgs := r } }.put F.TMG_ERR_MSG_DROP 0 1)) ∧
      (s.tmg.queue = [] → ∀ quiet, exec (.msgDataRead quiet) s = .next (s.okay (2 ^ 17))) ∧
      (∀ w q, s.tmg.queue = [w] :: q →
        exec (.msgDataRead true) s = .next (s.okay (w.toNat + 2 ^ 16)) ∧
        exec (.msgDataRead false) s = .next ({ s with tmg := { s.tmg with queue := q } }.okay (w.toNat + 2 ^ 16))) ∧
      (∀ w x r q, s.tmg.queue = (w :: x :: r) :: q →
        exec (.msgDataRead true) s = .next (s.okay w.toNat) ∧
        exec (.msgDataRead false) s = .next ({ s with tmg := { s.tmg with queue := (x :: r) :: q } }.okay w.toNat)))

/-- 02 R77, R78, R1011: writes of TMG_CTRL. Where it goes beyond those rules it rests on the model's choices of log entry 29. -/
def Obligations.TimingEnable : Prop :=
  ∀ (s : State) (w : W32),
    let u := (s.put F.TMG_CTRL_CMD_DELAY 0 (w.extractLsb' 4 4).toNat).put F.TMG_CTRL_EXA_OFFSET 0 (w.extractLsb' 8 12).toNat
    let ok := 10000 ≤ s.get F.TMG_FREQ_KHZ ∧ s.get F.TMG_FREQ_KHZ ≤ 100000 ∧ 12 ≤ s.get F.TMG_QUARTZ_N ∧
      s.get F.TMG_QUARTZ_N ≤ 128 ∧ 1200000 ≤ s.get F.TMG_QUARTZ_N * s.get F.TMG_FREQ_KHZ ∧
      s.get F.TMG_QUARTZ_N * s.get F.TMG_FREQ_KHZ ≤ 1600000
    (ok → exec (.timingPortEnable w) s = .next (u.put F.TMG_CTRL_EN 0 1)) ∧
    (¬ ok → exec (.timingPortEnable w) s = .next ((u.put F.TMG_CTRL_EN 0 0).put F.TMG_ERR_CFG_REFUSED 0 1)) ∧
    (s.on F.TMG_CTRL_EN = true → exec (.timingPortDisable w) s = .next (tmgStop u)) ∧
    (s.on F.TMG_CTRL_EN = false → exec (.timingPortDisable w) s = .next u)

/-- 03 R101: the self-synchronous scrambler and its inverse. 03 R101, R102, R104 to R110, R116 to R118, R123, R129, R139, R142, R144. Where it goes beyond those rules it rests on the model's choices of log entries 12, 31, 32, 34, 125, 128. -/
def Obligations.LaneWords : Prop :=
  ((∀ (h : BitVec 58) (d : W64), descramble h (scramble h d).1 = (d, (scramble h d).2)) ∧
    (∀ (h h' : BitVec 58) (d : W64), (descramble h d).2 = (descramble h' d).2)) ∧
  (∀ (s : State) (n : LaneId),
      let pcs := s.get F.LNE_LANE_CTRL_PCS n
      let grouped := (s.group n).isEmpty || s.on F.LNE_LANE_STATUS_DESKEWED n
      let shown (w : LaneWord) (l : Lane) : Lane :=
        let o := ((w :: l.hist).take 32).getD l.delay {}
        { l with hist := (w :: l.hist).take 32, rx := { o with valid := o.valid && grouped && s.on F.LNE_XBAR_EN n } }
      let lined (w : LaneRx) (l : Lane) : Lane := { l with line := some w }
      (s.receiving n = true → s.get F.LNE_PRBS_CHK n = 0 → ∀ rx w, s.received n rx = some w →
        (pcs = 0 → exec (.laneWordReceived n rx) s = .next (s.setLane n (shown ⟨true, 0, w.data⟩ (lined w (s.lane n))))) ∧
        (pcs = 2 → s.on F.LNE_LANE_STATUS_BLOCK_LOCK n = true → ((false :: (s.lane n).window).take 64).count true < 16 →
          w.hdr = 0b01 →
          let d := descramble (s.lane n).descr w.data
          exec (.laneWordReceived n rx) s = .next (s.setLane n (shown
            ⟨true, 0, if s.on F.LNE_LANE_CTRL_SCRAMBLE n then d.1 else w.data⟩
            { lined w (s.lane n) with descr := d.2, window := (false :: (s.lane n).window).take 64 })))) ∧
      (∀ rx, s.get F.LNE_LANE_CTRL_LOOPBACK n = 0 →
        s.received n rx = some (if s.on F.LNE_LANE_CTRL_RX_INV n then ⟨~~~rx.hdr, ~~~rx.data⟩ else rx)) ∧
      (s.receiving n = true → s.fromPins n = true → s.get F.LNE_PRBS_CHK n = 0 → pcs = 2 →
        s.on F.LNE_LANE_STATUS_BLOCK_LOCK n = true → ((false :: (s.lane n).window).take 64).count true < 16 →
        ∀ body eye req,
          let p : W64 := BitVec.ofNat 64 (body.toNat * 256 + 0xA5)
          (ctlCheck p = BitVec.ofNat 8 (p.toNat / 2 ^ 56) → bits p.toNat 34 22 = 0 →
            Completes (.trainingBlockReceived n body eye req) s fun t =>
              t.get F.LNE_LANE_STATUS_PARTNER_READY n = bits p.toNat 33 1 ∧
              (t.lane n).partnerSeq = some (BitVec.ofNat 4 (p.toNat / 2 ^ 18)) ∧ (t.lane n).heard = true ∧
              (t.lane n).hist = ({} :: (s.lane n).hist).take 32 ∧ ((s.lane n).delay = 0 → (t.lane n).rx.valid = false) ∧
              (s.on F.LNE_EQ_REMOTE_EN n = true → (s.lane n).partnerSeq ≠ some (BitVec.ofNat 4 (p.toNat / 2 ^ 18)) →
                (t.lane n).pendingReq = some (BitVec.ofNat 14 (p.toNat / 2 ^ 8))) ∧
              (∀ m, m ≠ n.val → t.lane m = s.lane m) ∧ t = { s with lanes := t.lanes, regs := t.regs } ∧
              RegsBut s t [R.LNE_LANE_STATUS.addr n]) ∧
          ((ctlCheck p ≠ BitVec.ofNat 8 (p.toNat / 2 ^ 56) ∨ bits p.toNat 34 22 ≠ 0) →
            Completes (.trainingBlockReceived n body eye req) s fun t =>
              t.on F.LNE_LANE_ERR_CTL_CHECK n = true ∧ (t.lane n).hist = ({} :: (s.lane n).hist).take 32 ∧
              (t.lane n).partnerSeq = (s.lane n).partnerSeq ∧ (t.lane n).pendingReq = (s.lane n).pendingReq ∧
              t = { s with lanes := t.lanes, regs := t.regs } ∧ RegsBut s t [R.LNE_LANE_ERR.addr n])) ∧
      (s.receiving n = true → s.fromPins n = true → s.get F.LNE_PRBS_CHK n = 0 → pcs = 1 →
        s.on F.LNE_LANE_STATUS_BLOCK_LOCK n = true → ((false :: (s.lane n).window).take 64).count true < 16 →
        ∀ body skew, Completes (.alignmentMarkerReceived n body skew) s fun t =>
          (t.lane n).hist = (⟨true, 1, BitVec.ofNat 64 (body.toNat % 2 ^ 24 * 256 + 0x7C)⟩ :: (s.lane n).hist).take 32 ∧
          (s.on F.LNE_LANE_STATUS_DESKEWED n = false → (t.lane n).skew = some skew.toNat)) ∧
      (∀ port it, s.driving n = false → exec (.laneWordTransmit n port it) s =
        .next (s.setLane n { s.lane n with tx := none, pcs := none, ready := s.domOn (laneDom n) })) ∧
      (s.driving n = true → s.get F.LNE_PRBS_GEN n = 0 → s.get F.LNE_LANE_CTRL_LOOPBACK n ≠ 3 →
        let sent (o : LaneRx) (rdy : Bool) (k : Nat) (l : Lane) : Lane := { l with
          pcs := some o, ready := rdy, since := k, tx := some (if s.on F.LNE_LANE_CTRL_TX_INV n then ⟨~~~o.hdr, ~~~o.data⟩ else o) }
        let next := (s.lane n).since + 1
        (pcs = 0 → ∀ port it, exec (.laneWordTransmit n port it) s = .next (s.setLane n (sent
          ⟨0, if port.valid && s.openBay n then port.data else 0x5555555555555555⟩ true next (s.lane n)))) ∧
        (pcs = 1 → ∀ (port : PortWord) it, port.valid = true → s.openBay n = true → kGood port.data.toNat port.ctl = true →
          let e := encodeWord8b (s.lane n).txRd port.data.toNat port.ctl
          exec (.laneWordTransmit n port it) s = .next (s.setLane n (sent ⟨0, BitVec.ofNat 64 e.1⟩ true next { s.lane n with txRd := e.2 }))) ∧
        (pcs = 2 → ∀ port it,
          let due := max 1 (s.get F.LNE_EQ_INTERVAL n) ≤ (s.lane n).since
          let have' := port.valid && s.openBay n
          let train := ¬ due ∧ have' = false ∧ it = true
          let w : W64 := if due ∨ train then trainingBlock s n else if have' then port.data else 0x1E
          let sc := scramble (s.lane n).scr w
          exec (.laneWordTransmit n port it) s = .next (s.setLane n (sent
            ⟨if have' = true ∧ ¬ due ∧ port.ctl.getLsbD 0 = false then 0b01 else 0b10, if s.on F.LNE_LANE_CTRL_SCRAMBLE n then sc.1 else w⟩
            (!decide due) (if due ∨ train then 0 else next) { s.lane n with scr := sc.2 })))))

/-- 03 R119, R120, R123: the tap limits and the application of the partner's request. Where it goes beyond those rules it rests on the model's choices of log entry 30. -/
def Obligations.LaneTapLimits : Prop :=
  let inRange (t : Nat × Nat × Nat) : Prop :=
    t.1 ≤ 15 ∧ 24 ≤ t.2.1 ∧ t.2.1 ≤ 64 ∧ t.2.2 ≤ 23 ∧ t.1 + t.2.1 + t.2.2 ≤ 64
  (∀ r t, inRange t → inRange (tapsApply r t).1) ∧
  (∀ p, p < 8 → inRange (presetTaps p)) ∧
  (∀ r t, bit r 6 = true → (tapsApply r t).1 = presetTaps (bits r 7 3)) ∧
  (∀ req t lo hi other,
    ((req = 0 ∨ req = 3) → tapMove req t lo hi other = (t, 0)) ∧
    (req = 1 → t + 1 ≤ hi → t + 1 + other ≤ 64 → tapMove req t lo hi other = (t + 1, 1)) ∧
    (req = 1 → (hi < t + 1 ∨ 64 < t + 1 + other) → tapMove req t lo hi other = (t, 3)) ∧
    (req = 2 → lo + 1 ≤ t → tapMove req t lo hi other = (t - 1, 1)) ∧
    (req = 2 → t < lo + 1 → tapMove req t lo hi other = (t, 2))) ∧
  (∀ (s : State) (n : LaneId) (r : BitVec 14), (s.lane n).pendingReq = some r → s.on F.LNE_EQ_REMOTE_EN n = true →
    exec (.tapRequestApply n) s = .next ((s.putTaps n (tapsApply r.toNat (s.taps n)).1).modLane n fun l => { l with
      pendingReq := none, echo := BitVec.ofNat 4 (r.toNat / 2 ^ 10),
      st := BitVec.ofNat 6 (tapsApply r.toNat (s.taps n)).2 }))

/-- 03 R111 to R113, R122, R124, R139 to R141, R147, R148, R150, R153, R157. 03 R97, R99, R111, R113, R124 to R126, R145, R152, R153. Where it goes beyond those rules it rests on the model's choices of log entries 4, 10, 15, 30, 33, 34, 126, 127. -/
def Obligations.LaneControl : Prop :=
  (∀ (s : State) (n : LaneId),
      (s.domOn (laneDom n) = true →
        (∀ w : W32, bit (s.rd R.LNE_LANE_CTRL n).toNat 0 = false → bit w.toNat 0 = true → laneReserved w.toNat = false →
          (bit w.toNat 6 = false ∨ s.get F.LNE_QPLL_REF (n / 4 : Nat) = 2) →
          let u := lanePstate n (BitVec.ofNat 2 (bits w.toNat 12 2))
            (laneStart n (s.okay.wr R.LNE_LANE_CTRL n (BitVec.ofNat 64 (w.toNat % 2 ^ 20))))
          exec (.laneEnable n w) s = .next (quadSettle (n / 4 : Nat)
            (if bits w.toNat 1 2 = bits (s.rd R.LNE_LANE_CTRL n).toNat 1 2 then u else laneOffset n u))) ∧
        (∀ w : W32, (laneReserved w.toNat = true ∨
            (bit (s.rd R.LNE_LANE_CTRL n).toNat 0 = true ∧ laneFrozen w.toNat ≠ laneFrozen (s.rd R.LNE_LANE_CTRL n).toNat) ∨
            (bit w.toNat 0 = true ∧ bit w.toNat 6 = true ∧ s.get F.LNE_QPLL_REF (n / 4 : Nat) ≠ 2)) →
          exec (.laneEnable n w) s = .next (s.okay.put F.LNE_LANE_ERR_CFG_REFUSED n 1)) ∧
        (s.on F.LNE_BITSLIP_BUSY n = false → (s.on F.LNE_LANE_CTRL_AUTO_ALIGN n = false ∨ s.get F.LNE_LANE_CTRL_PCS n = 0) →
          exec (.bitslip n) s = .next (s.okay.put F.LNE_BITSLIP_BUSY n 1)) ∧
        ((s.on F.LNE_BITSLIP_BUSY n = true ∨ (s.on F.LNE_LANE_CTRL_AUTO_ALIGN n = true ∧ s.get F.LNE_LANE_CTRL_PCS n ≠ 0)) →
          exec (.bitslip n) s = .next (s.okay.put F.LNE_LANE_ERR_CFG_REFUSED n 1)) ∧
        exec (.snap n) s = .next ((s.okay.put F.LNE_PRBS_ERRS_ERRS n (s.lane n).errs).put F.LNE_PRBS_BITS_BITS n (s.lane n).bits) ∧
        exec (.clr n) s = .next (s.okay.modLane n fun l => { l with errs := 0, bits := 0, bitRem := 0 }) ∧
        exec (.inject n) s = .next (s.okay.modLane n fun l => { l with inject := l.inject + 1 }) ∧
        (s.on F.LNE_LANE_CTRL_EN n = true → s.on F.LNE_EQ_TRAIN_EN n = true → s.get F.LNE_LANE_CTRL_PCS n = 2 →
          exec (.retrain n) s = .next (laneTrain n s.okay))) ∧
      (s.domOn (laneDom n) = false →
        exec (.bitslip n) s = .next (s.answer .poweredDown) ∧ exec (.snap n) s = .next (s.answer .poweredDown) ∧
        exec (.clr n) s = .next (s.answer .poweredDown) ∧ exec (.inject n) s = .next (s.answer .poweredDown) ∧
        exec (.retrain n) s = .next (s.answer .poweredDown)) ∧
      (∀ w : W32, (bit w.toNat 7 = false ∨ ∀ m, m / 48 = n / 48 → m ≠ n → s.on F.LNE_XBAR_EN m = true →
            ¬ (s.get F.LNE_XBAR_BAY m = bits w.toNat 0 4 ∧ s.get F.LNE_XBAR_PORT m = bits w.toNat 4 3)) →
          exec (.laneBindingChange n w) s = .next (if w.toNat % 256 = (s.rd R.LNE_XBAR n).toNat then s.okay
            else (s.okay.wr R.LNE_XBAR n (BitVec.ofNat 64 (w.toNat % 256))).modLane n fun l => { l with rx := {}, hist := [] })) ∧
      (∀ (w : W32) (m : Nat), bit w.toNat 7 = true → m / 48 = n / 48 → m ≠ n → s.on F.LNE_XBAR_EN m = true →
          s.get F.LNE_XBAR_BAY m = bits w.toNat 0 4 → s.get F.LNE_XBAR_PORT m = bits w.toNat 4 3 →
          exec (.laneBindingChange n w) s = .next (s.okay.put F.LNE_LANE_ERR_CFG_REFUSED n 1))) ∧
  (∀ (s : State) (n : LaneId) (q : QuadId),
      (∀ ref : BitVec 24, s.pllOn q = true → s.pllRangeOk q ref.toNat = true →
        exec (.quadPllLock q ref) s = .next (s.put F.LNE_QPLL_STATUS_LOCK q 1)) ∧
      (s.on F.LNE_QPLL_STATUS_LOCK q = true → exec (.quadPllUnlock q false) s = .next
        (laneCdrLoss (q * 4 + 3) (laneCdrLoss (q * 4 + 2) (laneCdrLoss (q * 4 + 1) (laneCdrLoss (q * 4)
          ((s.put F.LNE_QPLL_STATUS_LOCK q 0).put F.LNE_QUAD_ERR_PLL_UNLOCK q 1)))))) ∧
      (s.driving n = true → s.on F.LNE_QPLL_STATUS_LOCK (n / 4 : Nat) = true → s.laneSupply = true →
        exec (.cdrLock n) s = .next ((s.put F.LNE_LANE_STATUS_CDR_LOCK n 1).put F.LNE_LANE_STATUS_SIGNAL n 1)) ∧
      (s.laneSupply = false → exec (.cdrLock n) s = .next s) ∧
      (∀ sig, s.on F.LNE_LANE_CTRL_EN n = true →
        exec (.cdrLoss n sig) s = .next ((laneCdrLoss n s).put F.LNE_LANE_STATUS_SIGNAL n (if sig then 1 else 0))) ∧
      (s.on F.LNE_LANE_STATUS_CDR_LOCK n = true → s.on F.LNE_LANE_STATUS_BLOCK_LOCK n = false →
        laneCdrLoss n s = (((s.put F.LNE_LANE_ERR_CDR_LOST n 1).put F.LNE_LANE_STATUS_CDR_LOCK n 0).modLane n fun l =>
          { l with good := 0, window := [], rx := { l.rx with valid := false } })) ∧
      (s.on F.LNE_BITSLIP_BUSY n = true → exec (.bitslipDone n) s = .next (((s.put F.LNE_BITSLIP_BUSY n 0).modLane n
        fun l => { l with good := 0, slips := l.slips + 1 }).put
        F.LNE_BITSLIP_OFFSET n (((s.lane n).slips + 1) % pcsBits (s.get F.LNE_LANE_CTRL_PCS n)))) ∧
      (let anew (u : State) : State := u.modLane n fun l => { l with clean := 0, seen := 0, errAt := [], lossMet := false };
        (s.get F.LNE_PRBS_CHK n ≠ 0 → s.on F.LNE_PRBS_LOCK n = false → 1024 ≤ (s.lane n).clean →
          exec (.prbsLock n) s = .next (anew (s.put F.LNE_PRBS_LOCK n 1))) ∧
        ((s.lane n).clean < 1024 → exec (.prbsLock n) s = .next s) ∧
        (s.on F.LNE_PRBS_LOCK n = true → (s.lane n).lossMet = true →
          exec (.prbsLost n) s = .next (((anew s).put F.LNE_PRBS_LOCK n 0).put F.LNE_LANE_ERR_PRBS_LOST n 1)) ∧
        ((s.lane n).lossMet = false → exec (.prbsLost n) s = .next s)) ∧
      (s.on F.LNE_LANE_STATUS_TRAINING n = true → (s.lane n).ended = true →
        exec (.trainingComplete n) s = .next (((s.put F.LNE_LANE_STATUS_TRAINED n 1).put F.LNE_LANE_STATUS_TRAINING n 0).modLane n
          fun l => { l with ended := false })) ∧
      (s.on F.LNE_LANE_STATUS_TRAINING n = true → (s.lane n).ended = false →
        let fallen : State := (((s.put F.LNE_TAPS_CTLE n (s.get F.LNE_EQ_FALLBACK_PRESET n)).put F.LNE_LANE_STATUS_FALLBACK n 1).put
          F.LNE_LANE_ERR_TRAIN_FALLBACK n 1).put F.LNE_LANE_STATUS_TRAINING n 0
        ((s.lane n).heard = false → exec (.trainingResponseTimeout n false) s = .next (if (s.lane n).respWaited then fallen
          else s.setLane n { s.lane n with respWaited := true })) ∧
        ((s.lane n).heard = true → exec (.trainingResponseTimeout n false) s = .next s) ∧
        exec (.trainingResponseTimeout n true) s = .next (if (s.lane n).echoWaited then fallen
          else s.setLane n { s.lane n with echoWaited := true })) ∧
      (∀ r, (s.lane n).pendingReq = some r → s.on F.LNE_EQ_REMOTE_EN n = true → Completes (.tapRequestApply n) s fun t =>
        t.taps n = (tapsApply r.toNat (s.taps n)).1 ∧ (t.lane n).echo = BitVec.ofNat 4 (r.toNat / 2 ^ 10) ∧
        (t.lane n).pendingReq = none ∧ RegsBut s t [R.LNE_TAPS.addr n]) ∧
      (∀ p, (s.lane n).target = some p →
        let u := (((s.put F.LNE_LANE_STATUS_PSTATE n p.toNat).put F.LNE_LANE_STATUS_IN_TRANSITION n 0).put
          F.LNE_LANE_ERR_PSTATE_DONE n 1).modLane n fun l => { l with target := none, queued := none }
        ((s.lane n).queued = none → exec (.pstateDone n) s = .next (quadSettle (n / 4 : Nat) u)) ∧
        (∀ q', (s.lane n).queued = some q' → exec (.pstateDone n) s = .next (quadSettle (n / 4 : Nat) (lanePstate n q' u)))) ∧
      (∀ p : BitVec 2, s.on F.LNE_LANE_CTRL_EN n = true → p ≠ 3 → s.domOn (laneDom n) = true →
        laneReserved (s.rd R.LNE_LANE_CTRL n).toNat = false → (s.on F.LNE_LANE_CTRL_XLOCK n = false ∨ s.get F.LNE_QPLL_REF (n / 4 : Nat) = 2) →
        Completes (.pstateRequest n p) s fun t => t.get F.LNE_LANE_CTRL_PSTATE n = p.toNat ∧
          (s.on F.LNE_LANE_STATUS_IN_TRANSITION n = false → s.get F.LNE_LANE_STATUS_PSTATE n ≠ p.toNat →
            t.on F.LNE_LANE_STATUS_IN_TRANSITION n = true ∧ (t.lane n).target = some p ∧ (t.lane n).tx = none) ∧
          (s.on F.LNE_LANE_STATUS_IN_TRANSITION n = true → (t.lane n).queued = some p)))

/-- 04 R210, R211, R214: frame addresses and their move between bays. 04 R166, R181 to R184, R190, R206. Where it goes beyond those rules it rests on the model's choices of log entries 4, 35, 36, 130. -/
def Obligations.FramesAndFabricResets : Prop :=
  ((∀ b < 64, ∀ d < 64, ∀ a ∈ bayWindow b, farMove d a ∈ bayWindow d ∧ farValid (farMove d a) = true ∧
      farBay (farMove d a) = some d ∧ farType (farMove d a) = farType a ∧ farMinor (farMove d a) = farMinor a ∧
      farMove b (farMove d a) = a) ∧
    (∀ slab ty row col minor, slab < 4 → ty < 4 → row < 16 → col < 256 → minor < 256 →
      let a := mkFar slab ty row col minor
      a < 2 ^ 32 ∧ a % 256 = 0 ∧ farSlab a = slab ∧ farType a = ty ∧ farRow a = row ∧ farCol a = col ∧ farMinor a = minor)) ∧
  (∀ s : State,
      (∀ slab n : Fin 4,
        let src := s.frstSrc slab n
        let wanted : Prop := src = .pin ∨ (src = .software ∧ bit (s.get F.CFG_FRST_ASSERT) (slab * 4 + n) = true) ∨
          (src = .startup ∧ s.fabric.hold = true)
        let others (t : State) : Prop := ∀ a b, (a, b) ≠ (slab.val, n.val) → t.frstOn a b = s.frstOn a b
        (∀ src', src' ≠ src → exec (.fabricResetAssert slab n src') s = .next s) ∧
        (wanted → Completes (.fabricResetAssert slab n src) s fun t =>
          t.frstOn slab n = true ∧ others t ∧
          t.fabric.flops = s.fabric.flops.map (fun e =>
            (e.1, if e.2.slab = slab.val ∧ e.2.frst = some n.val then { e.2 with q := e.2.init } else e.2)) ∧
          t = { s with fabric := { s.fabric with
            released := t.fabric.released, flops := t.fabric.flops, synced := t.fabric.synced, frstPinOn := t.fabric.frstPinOn } }) ∧
        (s.fabric.hold = false → (src = .software → bit (s.get F.CFG_FRST_ASSERT) (slab * 4 + n) = false) →
          Completes (.fabricResetRelease slab n) s fun t => t.frstOn slab n = false ∧ others t ∧
            t = { s with fabric := { s.fabric with released := t.fabric.released, frstPinOn := t.fabric.frstPinOn } })) ∧
      (∀ bank : Fin 20, Completes (.vccoLoss bank) s fun t =>
        (∀ p < 48, t.uioDrive (bank * 48 + p) = none) ∧ (∀ i, i / 48 ≠ bank.val → t.uioDrive i = s.uioDrive i) ∧
        t = { s with fabric := { s.fabric with bankOff := t.fabric.bankOff } }) ∧
      (∀ (bank : Fin 20) level, Completes (.vccoReturn bank level) s fun t =>
        t.fabric.vcco.get .v18 bank.val = level ∧
        (∀ p < 48, s.fabric.bankOff = [bank.val] → t.uioDrive (bank * 48 + p) =
          { s with fabric := { s.fabric with bankOff := [], vcco := s.fabric.vcco.set bank.val level } }.uioDrive (bank * 48 + p)) ∧
        (∀ b, b ∈ t.fabric.bankOff ↔ b ∈ s.fabric.bankOff ∧ b ≠ bank.val) ∧
        t = { s with fabric := { s.fabric with bankOff := t.fabric.bankOff, vcco := t.fabric.vcco } }))

/-- 05 R219 to R221, R230, R231: read after write. 05 R220, R221, R224, R229, R232, R233. Where it goes beyond those rules it rests on the model's choices of log entries 37, 38, 39. -/
def Obligations.BlockMemory : Prop :=
  (∀ (s : State) (id : BlockId) (pa pb : Bool) (addr : BitVec 13) (din : W64) (ra rb : RegPins),
      let c := s.blockCfg id pa
      let given (u : State) := ((u.bram id).port pb).next
      s.ramActs id = true → (s.blockCfg id pb).width = c.width → (s.bram id).flaws.get .none (entryPlace c addr).1 ≠ .double →
      ∃ t, exec (.bramWrite id pa addr 0xFF din ra .none 0) s = .next t ∧
        (∃ u, exec (.bramRead id pb addr rb .none false) t = .next u ∧
          given u = some ⟨din &&& BitVec.ofNat 64 (2 ^ (8 * cfgBytes c) - 1), false, false⟩) ∧
        (∀ addr' : BitVec 13, addr'.toNat % cfgDepth c ≠ addr.toNat % cfgDepth c →
          (s.bram id).flaws.get .none (entryPlace c addr').1 = .none →
          ∃ u v, exec (.bramRead id pb addr' rb .none false) t = .next u ∧
            exec (.bramRead id pb addr' rb .none false) s = .next v ∧ given u = given v) ∧
        (∀ id', id' ≠ id → t.bram id' = s.bram id') ∧ t = { s with brams := t.brams }) ∧
  (∀ (s : State) (id : BlockId) (pb : Bool) (addr : BitVec 13) (r : RegPins),
      let c := s.blockCfg id pb
      let b := s.bram id
      let w := (entryPlace c addr).1
      let sh := (entryPlace c addr).2
      let port (t : State) : BramPort := (t.bram id).port pb
      let kept (t : State) : Prop := (∀ x, (t.bram id).words.get 0 x = b.words.get 0 x) ∧
        (∀ x, (t.bram id).flaws.get .none x = b.flaws.get .none x) ∧ (t.bram id).port (!pb) = b.port (!pb) ∧
        (∀ id', id' ≠ id → t.bram id' = s.bram id') ∧ t = { s with brams := t.brams }
      (s.ramActs id = true →
        (b.flaws.get .none w = .single → Completes (.bramRead id pb addr r .none false) s fun t =>
          (port t).next = some ⟨entryOf c (b.words.get 0 w) sh, true, false⟩ ∧
          (port t).retry = some ((b.port pb).retry.getD w) ∧ kept t) ∧
        (b.flaws.get .none w = .double → Completes (.bramRead id pb addr r .none false) s fun t =>
          (port t).next = some ⟨entryOf c (b.words.get 0 w) sh, false, true⟩ ∧
          (port t).retry = some ((b.port pb).retry.getD w) ∧ kept t) ∧
        Completes (.bramRead id pb addr r .double false) s (fun t =>
          (port t).next = some ⟨entryOf c (Config.freeWord s.free) sh, false, true⟩ ∧
          (t.bram id).words.get 0 w = Config.freeWord s.free ∧ (t.bram id).flaws.get .none w = .double ∧
          (port t).retry = some ((b.port pb).retry.getD w) ∧ t = { s with brams := t.brams, free := s.free + 1 }) ∧
        (∀ (we : Byte) din cl, b.flaws.get .none w = .double → we ≠ 0 → we.toNat % 2 ^ cfgBytes c * 2 ^ (sh / 8) ≠ 255 →
          Completes (.bramWrite id pb addr we din r .none cl) s fun t =>
            (port t).next.map (·.dbe) = some true ∧ (port t).retry = some ((b.port pb).retry.getD w) ∧ kept t) ∧
        (∀ regce, Completes (.outputRegisterReset id pb regce) s fun t =>
          (c.outReg = true → (port t).oreg = ⟨c.srval, false, false⟩) ∧
          (port t).dout = (b.port pb).next.getD (b.port pb).dout ∧ (port t).retry = (b.port pb).retry ∧ kept t) ∧
        (∀ x, (b.port pb).retry = some x → Completes (.bramErrorRetry id pb r .none) s fun t =>
          (port t).retry = none ∧ (port t).retryDone = true ∧ (port t).lasting = (b.flaws.get .none x != .none) ∧ kept t)) ∧
      (s.ramActs id = false → (∀ u cl, exec (.bramRead id pb addr r u cl) s = .next s) ∧
        (∀ we din u cl, exec (.bramWrite id pb addr we din r u cl) s = .next s) ∧
        (∀ regce, exec (.outputRegisterReset id pb regce) s = .next s) ∧ ∀ u, exec (.bramErrorRetry id pb r u) s = .next s))

/-- 05 R241 to R260. 05 R241 to R260: the pointers of every FIFO, through every FIFO command. Where it goes beyond those rules it rests on the model's choices of log entries 37, 40. -/
def Obligations.BlockFifo : Prop :=
  (∀ (s : State) (id : BlockId),
      let c := s.blockCfg id false
      let f := s.fifo id
      let only (t : State) : Prop := (∀ id', id' ≠ id → t.fifo id' = s.fifo id') ∧ t = { s with fifos := t.fifos }
      (s.fifoActs id = true →
        (f.rstW = false → f.drain = false → f.dropping = false → ∀ (din : W64) (last : Bool) (pin : Byte),
          (f.full = false → Completes (.fifoWrite id din last pin) s fun t =>
            let m : W64 := BitVec.ofNat 64 (2 ^ (8 * cfgBytes c) - 1)
            (t.fifo id).entries = f.entries ++ [⟨din &&& m, if last then 0b01 else 0b00,
              c.parityIn && ((pin ^^^ byteParity (din &&& m)).toNat % 2 ^ cfgBytes c != 0)⟩] ∧
            (t.fifo id).wr = f.wr + 1 ∧ (t.fifo id).dropCnt = f.dropCnt ∧ only t) ∧
          (f.full = true → Completes (.fifoWrite id din last pin) s fun t =>
            (t.fifo id).entries = f.entries ++ [⟨0, 0b10, false⟩] ∧ (t.fifo id).dropCnt = min 0xFFFF (f.dropCnt + 1) ∧
            (t.fifo id).wr = f.wr + 1 ∧ only t)) ∧
        (f.rstR = false →
          (∀ e es, f.entries = e :: es → f.flushR = false → f.empty = false →
            Completes (.fifoRead id false false) s fun t => (t.fifo id).taken = e ∧ (t.fifo id).entries = es ∧
              (t.fifo id).rd = f.rd + 1 ∧ (t.fifo id).underflow = false ∧
              (∀ e2 r, es = e2 :: r → (t.fifo id).empty = false → (t.fifo id).out = e2) ∧ only t) ∧
          ((f.entries = [] ∨ f.empty = true ∨ f.flushR = true) → ∀ h1 h2, Completes (.fifoRead id h1 h2) s fun t =>
            (t.fifo id).underflow = true ∧ (t.fifo id).entries = f.entries ∧ (t.fifo id).rd = f.rd ∧ only t) ∧
          (f.flushR = false → Completes (.flush id) s fun t => (t.fifo id).empty = true ∧ (t.fifo id).flushR = true ∧
            (t.fifo id).flushReq = true ∧ (t.fifo id).entries = f.entries ∧ only t)) ∧
        exec (.fifoReset id) s = .next (s.setFifo id
          { ({} : Fifo) with full := true, empty := true, rstW := true, rstR := true, rdUnseen := 3 }) ∧
        (f.flushReq = true → f.rstW = false → Completes (.flushPointRecord id) s fun t => (t.fifo id).flushPoint = some f.wr ∧
          (t.fifo id).flushReq = false ∧ (t.fifo id).dropping = false ∧
          (t.fifo id).drain = (f.openAcc || (f.dropping && f.openSeen) || f.drain) ∧ (t.fifo id).entries = f.entries ∧ only t) ∧
        (∀ p, f.flushPoint = some p → Completes (.flushComplete id) s fun t =>
          (t.fifo id).entries = f.entries.drop (p - f.rd) ∧ (t.fifo id).rd = max f.rd p ∧ (t.fifo id).flushR = false ∧
          (t.fifo id).flushPoint = none ∧ only t) ∧
        Completes (.fifoResetRelease id true) s (fun t => (t.fifo id).rstW = false ∧ (t.fifo id).rstR = f.rstR ∧ only t) ∧
        Completes (.fifoResetRelease id false) s (fun t => (t.fifo id).rstR = false ∧ (t.fifo id).rstW = f.rstW ∧ only t) ∧
        (f.rstW = false → c.common = false → Completes (.pointerSync id true) s fun t =>
          (t.fifo id).rdSeen = f.rdSync.2 ∧ (t.fifo id).rdSync = (f.rd, f.rdSync.1) ∧ only t) ∧
        (f.rstR = false → c.common = false → Completes (.pointerSync id false) s fun t =>
          (t.fifo id).wrSeen = f.wrSync.2 ∧ (t.fifo id).wrSync = (f.wr, f.wrSync.1) ∧ only t)) ∧
      (s.fifoActs id = false → ∀ i : Instr, ((∃ din last pin, i = .fifoWrite id din last pin) ∨ (∃ h k, i = .fifoRead id h k) ∨
        i = .flush id ∨ i = .flushPointRecord id ∨ i = .flushComplete id ∨ i = .fifoReset id ∨ (∃ w, i = .fifoResetRelease id w) ∨
        (∃ w, i = .pointerSync id w)) → exec i s = .next s)) ∧
  (let ok (f : Fifo) : Prop := f.wr = f.rd + f.entries.length ∧ f.wrSeen ≤ f.wr ∧ f.rdSeen ≤ f.rd ∧
      f.wrSync.1 ≤ f.wr ∧ f.wrSync.2 ≤ f.wr ∧ f.rdSync.1 ≤ f.rd ∧ f.rdSync.2 ≤ f.rd ∧
      ∀ p, f.flushPoint = some p → p ≤ f.wr
    ∀ (s : State) (id : BlockId) (i : Instr), ok (s.fifo id) →
      ((∃ din last pin, i = .fifoWrite id din last pin) ∨ (∃ h k, i = .fifoRead id h k) ∨ i = .flush id ∨
        i = .flushPointRecord id ∨ i = .flushComplete id ∨ i = .fifoReset id ∨ (∃ w, i = .fifoResetRelease id w) ∨
        (∃ w, i = .pointerSync id w)) →
      Completes i s fun t => ok (t.fifo id) ∧ ∀ id', id' ≠ id → t.fifo id' = s.fifo id')

/-- 06 R314 to R318, 07 R373. Where it goes beyond those rules it rests on the model's choices of log entries 41, 45, 133. -/
def Obligations.SliceTraps : Prop :=
  ∀ (cx : SliceCx) (s : State),
    let x := s.slice cx.bay cx.slice
    let stopped (c : Nat) (t : State) : Prop := let y := t.slice cx.bay cx.slice
      y.run = .trapped ∧ y.cause = c ∧ y.retryDone = true ∧ y.outValid = false ∧
      y.x = x.x ∧ y.a = x.a ∧ y.p = x.p ∧ y.pc = x.pc ∧ y.loops = x.loops ∧
      (∀ b i, (b, i) ≠ (cx.bay.val, cx.slice.val) → t.slice b i = s.slice b i) ∧ t = { s with slices := t.slices, free := t.free }
    let pmBut (l : List Nat) (t : State) : Prop := ∀ k, k ∉ l → (t.slice cx.bay cx.slice).pm.get 0 k = x.pm.get 0 k
    let dmBut (l : List Nat) (t : State) : Prop := ∀ k, k ∉ l → (t.slice cx.bay cx.slice).dm.get 0 k = x.dm.get 0 k
    (x.run = .running → s.sliceClock cx.bay = true → x.srst = false →
      (∀ w : W40, cx.fetch = .none → x.pmFlaw.get .none x.pc.toNat = .none →
        sliceLegal (w.toNat / 2 ^ 34) w.toNat x = false →
        Completes (.illegalInstruction cx w) s fun t => stopped 1 t ∧ pmBut [] t ∧ dmBut [] t) ∧
      ((cx.fetch = .double ∨ x.pmFlaw.get .none x.pc.toNat = .double) → ∀ f,
        Completes (.sliceNop cx f) s (fun t => stopped 2 t ∧ pmBut [x.pc.toNat] t ∧ dmBut [] t) ∧
        Completes (.mac cx f) s (fun t => stopped 2 t ∧ pmBut [x.pc.toNat] t ∧ dmBut [] t)) ∧
      (∀ f, SliceReady { cx with memA := .none } 0x0A f s → cx.memA = .double →
        Completes (.sliceLd cx f) s fun t => stopped 3 t ∧ pmBut [] t ∧ dmBut [(x.p[fldPA (sliceWord 0x0A f)]).toNat] t)) ∧
    (x.run ≠ .running ∨ s.sliceClock cx.bay = false ∨ x.srst = true →
      (∀ f, exec (.sliceNop cx f) s = .next s ∧ exec (.mac cx f) s = .next s) ∧
      ∀ w, exec (.illegalInstruction cx w) s = .next s)

/-- 06 R276, R278, R286, R297 to R305, R314, R315. 06 R297, R324, R325, R329 to R332. Where it goes beyond those rules it rests on the model's choices of log entries 4, 41, 42, 43, 44, 45, 133. -/
def Obligations.SlicePortsAndControl : Prop :=
  (∀ (s : State) (b : BayId) (i : SliceIx),
      let x := s.slice b i
      (s.sliceClock b = true →
        (∀ k r, x.pmBack = k :: r → x.pmFlaw.get .none k = .single → exec (.pmWriteBack b i) s =
          .next (s.setSlice b i { x with pmBack := r, pmFlaw := x.pmFlaw.set k .none })) ∧
        (∀ k r, x.dmBack = k :: r → x.dmFlaw.get .none k = .single → exec (.dmWriteBack b i) s =
          .next (s.setSlice b i { x with dmBack := r, dmFlaw := x.dmFlaw.set k .none })) ∧
        (∀ w st r, x.emits = (w, st) :: r → exec (.emitOutput b i) s =
          .next (s.setSlice b i { x with emits := r, outData := w, outSt := st, outValid := x.run != .trapped })) ∧
        ((x.srst = false ∨ (x.run ≠ .running ∧ x.run ≠ .waiting)) →
          ∀ d, exec (.streamInputWord b i d) s = .next (s.setSlice b i
            (if x.sin.length < 4 then { x with sin := x.sin ++ [d] } else { x with sinOver := true }))) ∧
        ((x.run = .running ∨ x.run = .waiting) →
          exec (.srstRise b i) s = .next (s.setSlice b i { x with srst := true, sin := [], loops := [] }) ∧
          (x.srst = true → exec (.srstFall b i) s =
            .next (s.setSlice b i { x with srst := false, pc := 0, prologue := true, run := .running })))) ∧
      (s.fenced b = false → s.sliceClock b = true → x.srst = false → ∀ lag,
        let y := { x with tag := s.tmg.spineTag, runLag := lag, outValid := false }
        let begun (z : Slice) : Slice := { z with run := .running, pc := x.start, prologue := x.start = 0 }
        let abandoned := { y with overrun := true, overruns := min 0xFF (x.overruns + 1), loops := [] }
        let rsy := s.rsyAt = some s.tmg.strobes ∧ (x.rsyAction = 1 ∨ x.rsyAction = 2)
        let gives (z : Slice) : Prop := exec (.runStartEdge b i lag) s = .next (s.setSlice b i z)
        (x.run = .waiting → x.mode = false → gives { y with run := .running }) ∧
        (x.run = .waiting → x.mode = true → ¬ rsy → gives (begun y)) ∧
        (x.run = .running → x.prologue = true → gives { y with skipped := min 0xFF (x.skipped + 1) }) ∧
        (x.run = .running → x.prologue = false → x.mode = true → ¬ rsy → gives (begun abandoned)) ∧
        (x.run = .waiting → x.mode = true → rsy → x.rsyAction = 1 →
          gives { y with sin := [], loops := [], pc := 0, prologue := true, run := .running }) ∧
        (x.run = .running → x.prologue = false → x.mode = true → rsy → x.rsyAction = 1 →
          gives { abandoned with sin := [], pc := 0, prologue := true, run := .running })) ∧
      (s.sliceClock b = false → ∀ c ∈ [Instr.pmWriteBack b i, .dmWriteBack b i, .emitOutput b i, .srstRise b i, .srstFall b i],
        exec c s = .next s) ∧
      (x.busy = true → exec (.clrDmDone b i) s =
        .next (s.setSlice b i { x with busy := false, dm := [], dmFlaw := [], dmBack := [] }))) ∧
  (∀ (s : State) (b i : Nat), s.selSlice = some (b, i) →
      let x := s.slice b i
      let emptied (y : Slice) : Slice := if x.srst then { y with sin := [], loops := [] } else y
      (s.domOn b = true →
        ((x.run = .running ∨ x.run = .waiting) → exec .sliceHalt s = .next (s.okay.setSlice b i { x with run := .halted })) ∧
        (s.fenced b = false → exec .sliceGo s = .next (s.okay.setSlice b i (emptied { x with
          pc := 0, prologue := true, run := .running, cause := 0, retryDone := false, lasting := false }))) ∧
        (s.fenced b = true → exec .sliceGo s = .next (s.okay.setSlice b i { x with accRefused := true })) ∧
        ((x.run = .halted ∨ x.run = .trapped) →
          exec .sliceResume s = .next (s.okay.setSlice b i (emptied { x with run := .running, retryDone := false, lasting := false })) ∧
          exec .clrDm s = .next (s.okay.setSlice b i { x with busy := true })) ∧
        ((x.run = .running ∨ x.run = .waiting) →
          exec .sliceResume s = .next (s.okay.setSlice b i { x with accRefused := true }) ∧
          exec .clrDm s = .next (s.okay.setSlice b i { x with accRefused := true })) ∧
        (x.run = .running ∨ x.run = .waiting ∨ x.busy = true →
          (∀ lo, exec (.sliceDataWrite lo) s = .next (s.okay.setSlice b i { x with accRefused := true })) ∧
          ∀ u, exec (.sliceDataRead false u) s = .next (s.okay.setSlice b i { x with accRefused := true })) ∧
        ((x.run = .halted ∨ x.run = .trapped) → x.busy = false →
          let k := s.get F.CFG_SLC_ADDR_WORD
          (∀ lo : W32, s.get F.CFG_SLC_ADDR_SPACE = 1 → Completes (.sliceDataWrite lo) s fun t =>
            (t.slice b i).dm.get 0 k = lo.setWidth 24 ∧ (t.slice b i).dmFlaw.get .none k = .none ∧
            (∀ j, j ≠ k → (t.slice b i).dm.get 0 j = x.dm.get 0 j) ∧ (t.slice b i).x = x.x ∧ (t.slice b i).pm = x.pm) ∧
          (∀ lo : W32, s.get F.CFG_SLC_ADDR_SPACE = 2 → k < 8 → Completes (.sliceDataWrite lo) s fun t =>
            sliceReg (t.slice b i) k = lo.toNat % 2 ^ 24 ∧ (t.slice b i).dm = x.dm ∧
            t.get F.CFG_SLC_ADDR_WORD = if s.on F.CFG_SLC_ADDR_AUTO_INC then (k + 1) % 2 ^ F.CFG_SLC_ADDR_WORD.len else k) ∧
          (s.get F.CFG_SLC_ADDR_SPACE = 1 → x.dmFlaw.get .none k = .none → Completes (.sliceDataRead false .none) s fun t =>
            t.ans = { resp := .okay, data := (x.dm.get 0 k).setWidth 64 } ∧ (t.slice b i).dm = x.dm ∧
            t.get F.CFG_SLC_ADDR_WORD = if s.on F.CFG_SLC_ADDR_AUTO_INC then (k + 1) % 2 ^ F.CFG_SLC_ADDR_WORD.len else k))) ∧
      (s.domOn b = false → exec .sliceHalt s = .next (s.answer .poweredDown) ∧ exec .sliceGo s = .next (s.answer .poweredDown) ∧
        exec .sliceResume s = .next (s.answer .poweredDown) ∧ exec .clrDm s = .next (s.answer .poweredDown)))

/-- 07 R343, R362 to R366, R368. 07 R343, R347, R349, R354 to R357; 06 R277. 06 R273: the pointer update. Where it goes beyond those rules it rests on the model's choices of log entries 41, 45, 46. -/
def Obligations.SliceFlowAndMoves : Prop :=
  ((∀ (cx : SliceCx) (f : BitVec 34) (s : State),
      let x := s.slice cx.bay cx.slice
      (SliceReady cx 0x01 f s → SliceRuns (.sliceNop cx f) cx 0x01 f s id .seq) ∧
      (SliceReady cx 0x02 f s → SliceRuns (.waitx cx f) cx 0x02 f s id (.stop .waiting)) ∧
      (SliceReady cx 0x03 f s → SliceRuns (.halt cx f) cx 0x03 f s id (.stop .halted)) ∧
      (SliceReady cx 0x04 f s → SliceRuns (.jmp cx f) cx 0x04 f s id (.jump (f.extractLsb' 0 7).toNat)) ∧
      (SliceReady cx 0x05 f s → SliceRuns (.br cx f) cx 0x05 f s id
        (if [x.z, !x.z, x.n, !x.n, x.v, !x.v, x.sat, !x.sat, !x.z && (x.n == x.v), x.z || (x.n != x.v), x.n == x.v,
            x.n != x.v].getD (f.extractLsb' 20 4).toNat false
         then .jump (f.extractLsb' 0 7).toNat else .seq)) ∧
      (SliceReady cx 0x06 f s → SliceRuns (.loop cx f) cx 0x06 f s id
        (.loop (f.extractLsb' 24 10).toNat (f.extractLsb' 0 7).toNat)) ∧
      (SliceReady cx 0x07 f s → SliceRuns (.loopr cx f) cx 0x07 f s id
        (.loop (x.x[fldXDJ f.toNat].toNat % 1024) (f.extractLsb' 0 7).toNat))) ∧
    (∀ x : Slice,
      ((∀ l ∈ x.loops, l.last ≠ x.pc.toNat) → sliceFlow .seq x = { x with pc := x.pc + 1 }) ∧
      (∀ l r, x.loops = l :: r → l.last = x.pc.toNat → 1 < l.count →
        sliceFlow .seq x = { x with pc := BitVec.ofNat 7 l.first, loops := { l with count := l.count - 1 } :: r }) ∧
      (∀ l r, x.loops = l :: r → l.last = x.pc.toNat → l.count ≤ 1 → (∀ q ∈ r, q.last ≠ x.pc.toNat) →
        sliceFlow .seq x = { x with pc := x.pc + 1, loops := r }) ∧
      (∀ t l r, x.loops = l :: r → l.first ≤ t → t ≤ l.last →
        sliceFlow (.jump t) x = { x with pc := BitVec.ofNat 7 t }) ∧
      (∀ t, (∀ l ∈ x.loops, ¬ (l.first ≤ t ∧ t ≤ l.last)) →
        sliceFlow (.jump t) x = { x with pc := BitVec.ofNat 7 t, loops := [] }) ∧
      (∀ c t, c ≠ 0 → sliceFlow (.loop c t) x = { x with pc := x.pc + 1, loops := ⟨x.pc.toNat + 1, t, c⟩ :: x.loops }) ∧
      (∀ t, (∀ l ∈ x.loops, l.last ≠ x.pc.toNat) → sliceFlow (.loop 0 t) x = { x with pc := BitVec.ofNat 7 (t + 1) }) ∧
      sliceFlow (.stop .waiting) x = { x with pc := x.pc + 1, run := .waiting, prologue := false } ∧
      sliceFlow (.stop .halted) x = { x with pc := x.pc + 1, run := .halted })) ∧
  (∀ (cx : SliceCx) (f : BitVec 34) (s : State),
      let x := s.slice cx.bay cx.slice
      let xd := fldXD f.toNat
      let xs := fldXS f.toNat
      let u := x.dm.get 0 (x.p[fldPA f.toNat]).toNat
      let v := x.dm.get 0 (x.p[fldPB f.toNat]).toNat
      let un (d : W24) : Int := if f.getLsbD 8 then (d.toNat : Int) else d.toInt
      let word := match (f.extractLsb' 0 2).toNat with
        | 0 => x.x[xd]
        | 1 => x.i0.extractLsb' 0 8 ++ x.x[xd].extractLsb' 0 16
        | _ => x.i0.extractLsb' 0 12 ++ x.x[xd].extractLsb' 0 12
      let pick (better : Prop) [Decidable better] (y : Slice) : Slice :=
        if better ∨ (f.getLsbD 9 = true ∧ un u = un x.x[xd]) then
          { y with x := y.x.set xd u, i0 := if f.getLsbD 10 then BitVec.ofNat 16 ((x.loops.head?.map (·.count)).getD 0)
                                            else (x.p[fldPA f.toNat]).setWidth 16 }
        else y
      (SliceReady cx 0x08 f s → SliceRuns (.seti cx f) cx 0x08 f s
        (fun y => setSliceReg y (f.extractLsb' 29 5).toNat ((f.extractLsb' 0 24).signExtend 64).toNat) .seq) ∧
      (SliceReady cx 0x09 f s → SliceRuns (.movr cx f) cx 0x09 f s
        (fun y => setSliceReg y (f.extractLsb' 29 5).toNat (moveSource x (f.extractLsb' 24 5).toNat)) .seq) ∧
      (SliceReady cx 0x0A f s → SliceRuns (.sliceLd cx f) cx 0x0A f s (fun y => { y with x := y.x.set xd u }) .seq) ∧
      (SliceReady cx 0x0B f s → SliceRuns (.ldd cx f) cx 0x0B f s
        (fun y => { y with x := (y.x.set xd u).set xs v }) .seq) ∧
      (SliceReady cx 0x0C f s → SliceRuns (.st cx f) cx 0x0C f s
        (fun y => putDm (x.p[fldPA f.toNat]).toNat x.x[xd] y) .seq) ∧
      (∀ d r, x.sin = d :: r → SliceReady cx 0x0D f s → SliceRuns (.rds cx f) cx 0x0D f s
        (fun y => { y with x := y.x.set xd d, sin := r }) .seq) ∧
      (x.sin = [] → SliceReady cx 0x0D f s → SliceRuns (.rds cx f) cx 0x0D f s
        (fun y => { y with x := y.x.set xd 0, sinUnder := true }) .seq) ∧
      (SliceReady cx 0x0E f s → SliceRuns (.cinx cx f) cx 0x0E f s
        (fun y => { y with x := y.x.set xd ((s.cascIn cx).setWidth 24) }) .seq) ∧
      (SliceReady cx 0x0F f s → SliceRuns (.cout cx f) cx 0x0F f s
        (fun y => { y with cout := if f.getLsbD 8 then x.x[xd].signExtend 56 else x.a[fldA f.toNat] }) .seq) ∧
      (SliceReady cx 0x22 f s → SliceRuns (.maxs cx f) cx 0x22 f s (pick (un x.x[xd] < un u)) .seq) ∧
      (SliceReady cx 0x23 f s → SliceRuns (.mins cx f) cx 0x23 f s (pick (un u < un x.x[xd])) .seq) ∧
      (SliceReady cx 0x25 f s → SliceRuns (.emit cx f) cx 0x25 f s
        (fun y => { y with emits := y.emits ++ [(word, y.tag)] }) .seq) ∧
      (SliceReady cx 0x24 f s →
        (un x.x[xs] < un x.x[xd] ∨ (f.getLsbD 9 = false ∧ un x.x[xs] = un x.x[xd]) →
          SliceRuns (.the cx f) cx 0x24 f s (fun y => { y with emits := y.emits ++ [(word, y.tag)], z := false }) .seq) ∧
        (¬ (un x.x[xs] < un x.x[xd] ∨ (f.getLsbD 9 = false ∧ un x.x[xs] = un x.x[xd])) →
          SliceRuns (.the cx f) cx 0x24 f s (fun y => { y with z := true }) .seq))) ∧
  (∀ (p : BitVec 10) (d : Int),
      (∀ n, 0 < n → n ≤ 1024 → p.toNat % pow2Up n < n →
        (ptrUpdate p n d).toNat / pow2Up n = p.toNat / pow2Up n ∧
        (((ptrUpdate p n d).toNat % pow2Up n : Nat) : Int) = ((p.toNat % pow2Up n : Nat) + d) % n ∧
        n ≤ pow2Up n ∧ pow2Up n < 2 * n) ∧
      ((ptrUpdate p 0 d).toNat : Int) = (p.toNat + d) % 1024)

/-- 07 R341, R343 to R345. 07 R341, R350 to R353. 07 R341: what `rnd` means. Where it goes beyond those rules it rests on the model's choices of log entry 41. -/
def Obligations.SliceArithmetic : Prop :=
  (∀ (cx : SliceCx) (f : BitVec 34) (s : State),
      let x := s.slice cx.bay cx.slice
      let xd := fldXD f.toNat
      let a := x.x[xd]
      let b := x.x[fldXS f.toNat]
      let k : Fin 8 := Fin.ofNat 8 (f.extractLsb' 29 5).toNat
      let imm : W24 := f.extractLsb' 0 24
      let bitw (r : W24) (y : Slice) : Slice := { y with x := y.x.set xd r, z := r == 0, n := r.msb, v := false }
      (SliceReady cx 0x10 f s → SliceRuns (.sliceAdd cx f) cx 0x10 f s
        (write24 xd (a.toInt + b.toInt) (a + b) (f.getLsbD 10)) .seq) ∧
      (SliceReady cx 0x11 f s → SliceRuns (.sliceSub cx f) cx 0x11 f s
        (write24 xd (a.toInt - b.toInt) (a - b) (f.getLsbD 10)) .seq) ∧
      (SliceReady cx 0x17 f s → SliceRuns (.sliceAddi cx f) cx 0x17 f s
        (write24 k (x.x[k].toInt + imm.toInt) (x.x[k] + imm) false) .seq) ∧
      (SliceReady cx 0x16 f s → SliceRuns (.cmp cx f) cx 0x16 f s (fun y => { y with
        z := a == b, n := (a - b).msb, v := decide (a.toInt - b.toInt < -8388608 ∨ 8388607 < a.toInt - b.toInt) }) .seq) ∧
      (SliceReady cx 0x12 f s → SliceRuns (.sliceAnd cx f) cx 0x12 f s (bitw (a &&& b)) .seq) ∧
      (SliceReady cx 0x13 f s → SliceRuns (.sliceOr cx f) cx 0x13 f s (bitw (a ||| b)) .seq) ∧
      (SliceReady cx 0x14 f s → SliceRuns (.sliceXor cx f) cx 0x14 f s (bitw (a ^^^ b)) .seq) ∧
      (SliceReady cx 0x15 f s → SliceRuns (.shf cx f) cx 0x15 f s (bitw
        (if (f.extractLsb' 8 2).toNat = 0 then a <<< (f.extractLsb' 12 6).toNat
         else if (f.extractLsb' 8 2).toNat = 1 then a >>> (f.extractLsb' 12 6).toNat
         else a.sshiftRight (f.extractLsb' 12 6).toNat)) .seq)) ∧
  (∀ (cx : SliceCx) (f : BitVec 34) (s : State),
      let x := s.slice cx.bay cx.slice
      let k := fldA f.toNat
      let acc := x.a[k]
      let a := x.x[fldXD f.toNat]
      let b := x.x[fldXS f.toNat]
      let u := x.dm.get 0 (x.p[fldPA f.toNat]).toNat
      let v := x.dm.get 0 (x.p[fldPB f.toNat]).toNat
      let va (bitNo : Nat) (d : W24) : Int := if f.getLsbD bitNo then (d.toNat : Int) else d.toInt
      let ext (bitNo : Nat) (d : W24) : BitVec 56 := if f.getLsbD bitNo then d.setWidth 56 else d.signExtend 56
      let sat := f.getLsbD 10
      let sh := (f.extractLsb' 12 6).toNat
      (SliceReady cx 0x18 f s → SliceRuns (.mpy cx f) cx 0x18 f s
        (write56 k (va 8 a * va 9 b) (ext 8 a * ext 9 b) sat) .seq) ∧
      (SliceReady cx 0x19 f s → SliceRuns (.mac cx f) cx 0x19 f s
        (write56 k (acc.toInt + va 8 a * va 9 b) (acc + ext 8 a * ext 9 b) sat) .seq) ∧
      (SliceReady cx 0x1A f s → SliceRuns (.msu cx f) cx 0x1A f s
        (write56 k (acc.toInt - va 8 a * va 9 b) (acc - ext 8 a * ext 9 b) sat) .seq) ∧
      (SliceReady cx 0x1B f s → SliceRuns (.macm cx f) cx 0x1B f s
        (write56 k (acc.toInt + va 8 u * va 9 v) (acc + ext 8 u * ext 9 v) sat) .seq) ∧
      (SliceReady cx 0x1C f s → SliceRuns (.tap cx f) cx 0x1C f s (fun y =>
        { putDm (x.p[fldPA f.toNat]).toNat a (write56 k (acc.toInt + va 8 a * va 9 v) (acc + ext 8 a * ext 9 v) sat y) with
          x := y.x.set (fldXD f.toNat) u }) .seq) ∧
      (SliceReady cx 0x1D f s → SliceRuns (.adda cx f) cx 0x1D f s
        (write56 k (acc.toInt + va 8 a * 2 ^ sh) (acc + ext 8 a <<< sh) sat) .seq) ∧
      (SliceReady cx 0x20 f s → SliceRuns (.cadd cx f) cx 0x20 f s
        (if f.getLsbD 11 then write56 k (s.cascIn cx).toInt (s.cascIn cx) false
         else write56 k (acc.toInt + (s.cascIn cx).toInt) (acc + s.cascIn cx) sat) .seq) ∧
      (SliceReady cx 0x1E f s → f.getLsbD 17 = false → SliceRuns (.ash cx f) cx 0x1E f s
        (write56 k (acc.toInt * 2 ^ sh) (acc <<< sh) sat) .seq) ∧
      (SliceReady cx 0x1E f s → f.getLsbD 17 = true → SliceRuns (.ash cx f) cx 0x1E f s
        (let q := rndDiv acc.toInt (64 - sh) (f.extractLsb' 8 2).toNat
         write56 k q (BitVec.ofInt 56 q) false) .seq) ∧
      (SliceReady cx 0x1F f s → SliceRuns (.rnd cx f) cx 0x1F f s (fun y =>
        let q := rndDiv acc.toInt sh (f.extractLsb' 8 2).toNat
        let lo : Int := if f.getLsbD 11 then 0 else -8388608
        let hi : Int := if f.getLsbD 11 then 16777215 else 8388607
        let w : W24 := BitVec.ofInt 24 (min (max q lo) hi)
        { y with x := y.x.set (fldXD f.toNat) w, z := w == 0, n := w.msb, v := decide (q < lo ∨ hi < q),
                 sat := y.sat || decide (q < lo ∨ hi < q) }) .seq)) ∧
  (∀ (r : Int) (s : Nat),
      (rndDiv r s 0 * 2 ^ s ≤ r ∧ r < (rndDiv r s 0 + 1) * 2 ^ s) ∧
      (∀ m, rndDiv r 0 m = r) ∧
      (0 < s → ∀ m, m = 1 ∨ m = 2 → -(2 ^ s) ≤ 2 * (rndDiv r s m * 2 ^ s - r) ∧ 2 * (rndDiv r s m * 2 ^ s - r) ≤ 2 ^ s) ∧
      (0 < s → 2 * (r - rndDiv r s 0 * 2 ^ s) = 2 ^ s →
        rndDiv r s 1 = rndDiv r s 0 + 1 ∧ rndDiv r s 2 % 2 = 0))

/-- 07 R359 to R361. Where it goes beyond those rules it rests on the model's choices of log entry 41. -/
def Obligations.SliceTri8 : Prop :=
  ∀ (cx : SliceCx) (f : BitVec 34) (s : State),
    let x := s.slice cx.bay cx.slice
    let k := fldA f.toNat
    let xd := fldXD f.toNat
    let lane (j : Nat) : Int := ((x.a[k]).extractLsb' (18 * j) 18).toNat
    let byte (d : W24) (j : Nat) : Int := (d.extractLsb' (8 * j) 8).toNat
    let src := if f.getLsbD 11 then x.dm.get 0 (x.p[fldPA f.toNat]).toNat else x.x[xd]
    let sat := f.getLsbD 10
    let off (r : Int) : Bool := decide (r < 0 ∨ 262143 < r)
    let cut (r : Int) : BitVec 18 := if off r && sat then (if r < 0 then 0 else 0x3FFFF) else BitVec.ofInt 18 r
    let wr (g : Nat → Int) (y : Slice) : Slice :=
      let a : BitVec 56 := (0 : BitVec 2) ++ cut (g 2) ++ cut (g 1) ++ cut (g 0)
      let v := off (g 0) || off (g 1) || off (g 2)
      { y with a := y.a.set k a, z := a == 0, n := a.msb, v := v, sat := y.sat || (v && sat) }
    let pack (g : Nat → BitVec 8) : W24 := g 2 ++ g 1 ++ g 0
    (SliceReady cx 0x28 f s → SliceRuns (.t8add cx f) cx 0x28 f s (wr fun j => lane j + byte src j) .seq) ∧
    (SliceReady cx 0x29 f s → SliceRuns (.t8sub cx f) cx 0x29 f s (wr fun j => lane j - byte src j) .seq) ∧
    (SliceReady cx 0x2A f s → SliceRuns (.t8mac cx f) cx 0x2A f s
      (wr fun j => lane j + byte x.x[xd] j * byte x.x[fldXS f.toNat] j) .seq) ∧
    (SliceReady cx 0x2B f s → SliceRuns (.t8max cx f) cx 0x2B f s (fun y => { y with
      x := y.x.set xd (pack fun j => BitVec.ofInt 8 (max (byte x.x[xd] j) (byte x.x[fldXS f.toNat] j))) }) .seq) ∧
    (SliceReady cx 0x2C f s → SliceRuns (.t8min cx f) cx 0x2C f s (fun y => { y with
      x := y.x.set xd (pack fun j => BitVec.ofInt 8 (min (byte x.x[xd] j) (byte x.x[fldXS f.toNat] j))) }) .seq) ∧
    (SliceReady cx 0x2D f s → SliceRuns (.t8pk cx f) cx 0x2D f s (fun y =>
      let q (j : Nat) := rndDiv (lane j) (f.extractLsb' 12 6).toNat (f.extractLsb' 8 2).toNat
      let w := pack fun j => BitVec.ofInt 8 (min (q j) 255)
      let v := decide (255 < q 0 ∨ 255 < q 1 ∨ 255 < q 2)
      { y with x := y.x.set xd w, z := w == 0, n := false, v := v, sat := y.sat || v }) .seq) ∧
    (SliceReady cx 0x2E f s → SliceRuns (.t8hs cx f) cx 0x2E f s (fun y =>
      let w : W24 := BitVec.ofInt 24 (lane 0 + lane 1 + lane 2)
      { y with x := y.x.set xd w, z := w == 0, n := false, v := false }) .seq)

/-- 08 R385, R386, R400 to R402, R415. 08 R380, R397, R404, R405, R410, R411, R413. Where it goes beyond those rules it rests on the model's choices of log entries 22, 47, 48, 49, 132. -/
def Obligations.SandInjectionAndResponses : Prop :=
  (∀ (s : State) (q : SandReq) (cycles : Nat),
      let i := q.ini.val
      let c := min (s.sandTokens i + (cycles * max 1 (s.get F.NOC_RATE_RATE i) : Nat)) (1024 * (s.sandBurst i : Int))
      let posted := q.op == .writeP
      let free := posted = true ∨ (s.outstanding i < sandLimit i ∧ s.sand.entries.find (i, q.tag.toNat) = none)
      let paid := s.on F.NOC_RATE_EN i = false ∨ (1024 * (min (reqFlits q) (s.sandBurst i) : Nat) : Int) ≤ c
      exec (.sandInjection q cycles) s = .next (sandInject q cycles s).2 ∧
      ((sandInject q cycles s).1 = true ↔ free ∧ paid) ∧
      (free → paid → (sandInject q cycles s).2.sand = { s.sand with
        tokens := (s.sand.tokens.set i c).set i (if s.on F.NOC_RATE_EN i then c - 1024 * (reqFlits q : Int) else c),
        moving := s.sand.moving ++ [s.outbound q],
        entries := if posted then s.sand.entries
                   else s.sand.entries.set (i, q.tag.toNat) ⟨q, s.sand.gens.get 0 (i, q.tag.toNat)⟩ }) ∧
      (¬ (free ∧ paid) → (sandInject q cycles s).2.sand = { s.sand with tokens := s.sand.tokens.set i c }) ∧
      (∀ j, s.outstanding j ≤ sandLimit j → (sandInject q cycles s).2.outstanding j ≤ sandLimit j) ∧
      ((sandInject q cycles s).2.sandTokens i ≤ 1024 * ((sandInject q cycles s).2.sandBurst i : Int)) ∧
      (sandInject q cycles s).2 = { s with sand := (sandInject q cycles s).2.sand, regs := (sandInject q cycles s).2.regs } ∧
      RegsBut s (sandInject q cycles s).2 [R.NOC_INI_STATUS.addr i] ∧
      (∀ bay : BayId, q.ini.val = bay.val → s.fenced bay = false → s.sand.buffer.find bay.val = none →
        Completes (.accessPointInject bay q cycles) s fun t =>
          t.sand.buffer.find bay.val = (if (sandInject q cycles s).1 then none else some q) ∧
          t.sand.entries = (sandInject q cycles s).2.sand.entries)) ∧
  (∀ s : State,
      (∀ (p : SandRsp) e, s.sand.entries.find (p.ini.val, p.tag.toNat) = some e → e.gen = p.gen →
        (p.ini.val < 64 → s.fenced p.ini.val = false) → s.sand.moving = [] →
        (p.resp = .link ∨ ∀ x y, s.routeDown p.ini.val x y = false) →
        exec (.sandResponse p) s = .next ((nocLog p.ini.val e.req.addr.toNat p.resp false
          (sandFree p.ini.val p.tag.toNat s)).answerMem
            (if e.req.op = .read ∧ hasData p.resp = true then ⟨p.resp, p.data, p.poison⟩ else ⟨p.resp, [], []⟩))) ∧
      (∀ (ini : Ini) (tag : BitVec 13) e, s.sand.entries.find (ini.val, tag.toNat) = some e →
        exec (.sandTimeout ini tag) s = .next ((nocLog ini.val e.req.addr.toNat .timeout false
          (((sandFree ini.val tag.toNat s).put F.NOC_TIMEOUTS_COUNT 0
            (min ((sandFree ini.val tag.toNat s).get F.NOC_TIMEOUTS_COUNT + 1) 0xFFFFFFFF)).put F.NOC_ERR_TIMEOUT 0 1)).answer
            .timeout)) ∧
      (∀ ini addr r posted, (s.on F.NOC_ERR_LOG_VALID = true ∨ r = .okay) → nocLog ini addr r posted s = s) ∧
      (∀ ini addr r posted, s.on F.NOC_ERR_LOG_VALID = false → r ≠ .okay → addr < 2 ^ 48 → ini < 116 →
        let t := nocLog ini addr r posted s
        t.on F.NOC_ERR_LOG_VALID = true ∧ bits (t.rd R.NOC_ERR_LOG).toNat 0 48 = addr ∧
          bits (t.rd R.NOC_ERR_LOG).toNat 48 10 = ini ∧ bits (t.rd R.NOC_ERR_LOG).toNat 58 4 = r.code ∧
          bit (t.rd R.NOC_ERR_LOG).toNat 62 = posted ∧ t = { s with regs := t.regs } ∧ RegsBut s t [R.NOC_ERR_LOG.addr 0]) ∧
      (∀ link : BitVec 12, isLink link.toNat = true → link.toNat ∉ s.sand.failed →
        let u := (s.put F.NOC_LINK_RETRIES_COUNT 0 (min (s.get F.NOC_LINK_RETRIES_COUNT + 1) 0xFFFFFFFF)).put F.NOC_ERR_LINK_RETRY 0 1
        exec (.linkRetry link false) s = .next u ∧
        exec (.linkRetry link true) s = .next (({ u with sand := { s.sand with failed := s.sand.failed ++ [link.toNat] } }.put
          F.NOC_LINK_FAIL_LINK 0 link.toNat).put F.NOC_ERR_LINK_FAIL 0 1)) ∧
      (∀ (link : BitVec 12) again, link.toNat ∈ s.sand.failed → exec (.linkRetry link again) s = .next s) ∧
      exec .linkClockSwitchDone s = .next (s.put F.NOC_STATUS_SWITCHING 0 0) ∧
      (∀ (ini : Ini) (w : W32), Completes (.nocRateWrite ini w) s fun t =>
        t.rd R.NOC_RATE ini = (s.rd R.NOC_RATE ini &&& ~~~(BitVec.ofNat 64 R.NOC_RATE.rw)) ||| (w.setWidth 64 &&& BitVec.ofNat 64 R.NOC_RATE.rw) ∧
        t.sandTokens ini = min (s.sandTokens ini) (1024 * (t.sandBurst ini : Int)) ∧
        (bit w.toNat 31 = false → t.on F.NOC_INI_STATUS_RATE_WAIT ini = false) ∧
        t = { s with regs := t.regs, sand := { s.sand with tokens := t.sand.tokens } } ∧
        RegsBut s t [R.NOC_RATE.addr ini, R.NOC_INI_STATUS.addr ini]))

/-- 08 R408: generations and late responses. -/
def Obligations.SandLateResponse : Prop :=
  (∀ (s : State) (i tag : Nat), (sandFree i tag s).sand.gens.get 0 (i, tag) = s.sand.gens.get 0 (i, tag) + 1 ∧
    (sandFree i tag s).sand.entries.find (i, tag) = none) ∧
  (∀ (s : State) (p : SandRsp) (e : SandEntry) (t : State),
    s.sand.entries.find (p.ini.val, p.tag.toNat) = some e → s.sand.gens.get 0 (p.ini.val, p.tag.toNat) = e.gen →
    p.gen = e.gen → (p.ini.val < 64 → s.fenced p.ini.val = false) → s.sand.moving = [] →
    (∀ x y, s.routeDown p.ini.val x y = false) → exec (.sandTimeout p.ini p.tag) s = .next t →
    let late (u : State) : State := (u.put F.NOC_LATE_RESPS_COUNT 0
      (min (u.get F.NOC_LATE_RESPS_COUNT + 1) 0xFFFFFFFF)).put F.NOC_ERR_LATE_RESP 0 1
    exec (.sandResponse p) t = .next (late t) ∧
    ∀ q : SandReq, q.ini = p.ini → q.tag.toNat = p.tag.toNat → q.op ≠ .writeP →
      exec (.sandResponse p) (sandOpen q t) = .next (late (sandOpen q t)))

/-- 00 R6 to R9, R13, R16; 14 R768. 08 R388, R394, R395, R412 to R417; 01 R35. Where it goes beyond those rules it rests on the model's choices of log entries 15, 16, 20, 22, 23. -/
def Obligations.BusAccess : Prop :=
  (∀ s : State,
      (s.power.asleep = false →
        let saff : Ini := 0x48
        let at_ (r : Reg) (k : Nat) : BitVec 48 := BitVec.ofNat 48 (r.addr 0 + k)
        (∀ v, Completes (.registerWrite saff (at_ R.TMG_CN_PRESET 0) .b8 v {}) s fun t => t.rd R.TMG_CN_PRESET = v ∧
          t.ans.resp = .okay ∧ t = { s with regs := t.regs, ans := t.ans } ∧ RegsBut s t [R.TMG_CN_PRESET.addr 0]) ∧
        (∀ v w : W64, Completes (.registerWrite saff (at_ R.TMG_CN_PRESET 0) .b4 v {}) s fun t =>
          t.regs = s.regs ∧ t.ans.resp = .okay ∧
          Completes (.registerWrite saff (at_ R.TMG_CN_PRESET 4) .b4 w {}) t fun u =>
            u.rd R.TMG_CN_PRESET = w.extractLsb' 0 32 ++ v.extractLsb' 0 32 ∧ u.ans.resp = .okay ∧
            RegsBut s u [R.TMG_CN_PRESET.addr 0]) ∧
        (∀ v, Completes (.rcRegisterRead saff (at_ R.TMG_CN_PRESET 0) .b4 false {}) s fun t =>
          t.ans.resp = .okay ∧ t.ans.data.setWidth 32 = (s.rd R.TMG_CN_PRESET).setWidth 32 ∧ t.regs = s.regs ∧
          Completes (.rcRegisterRead saff (at_ R.TMG_CN_PRESET 4) .b4 false {}) (t.wr R.TMG_CN_PRESET 0 v) fun u =>
            u.ans.resp = .okay ∧ u.ans.data.setWidth 32 = (s.rd R.TMG_CN_PRESET).extractLsb' 32 32) ∧
        (∀ v, Completes (.registerWrite saff (at_ R.TMG_ERR 0) .b4 v {}) s fun t => t.ans.resp = .okay ∧
          t.rd R.TMG_ERR = s.rd R.TMG_ERR &&& ~~~(v &&& 0xFF) ∧ RegsBut s t [R.TMG_ERR.addr 0]) ∧
        (∀ v, Completes (.registerWrite saff (at_ R.TMG_CN 0) .b8 v {}) s fun t => t.ans.resp = .okay ∧
          t.rd R.TMG_CN = s.rd R.TMG_CN ∧ RegsBut s t [R.TMG_CN.addr 0]) ∧
        (∀ quiet, Completes (.rcRegisterRead saff (at_ R.TMG_CHECK_ERRS 0) .b4 quiet {}) s fun t => t.ans.resp = .okay ∧
          t.ans.data.setWidth 32 = (s.rd R.TMG_CHECK_ERRS).setWidth 32 ∧
          t.get F.TMG_CHECK_ERRS_COUNT = (if quiet then s.get F.TMG_CHECK_ERRS_COUNT else 0) ∧
          RegsBut s t [R.TMG_CHECK_ERRS.addr 0]) ∧
        (∀ v, Completes (.registerWrite saff (at_ R.TMG_ERR 0) .b8 v {}) s fun t => t.ans.resp = .size ∧
          RegsBut s t [R.NOC_ERR_LOG.addr 0]) ∧
        (∀ v, Completes (.registerWrite saff (at_ R.TMG_CTRL 0xFF00) .b4 v {}) s fun t => t.ans.resp = .unmapped ∧
          RegsBut s t [R.NOC_ERR_LOG.addr 0]) ∧
        (∀ v (ini : Ini), 0x49 ≤ ini.val → Completes (.registerWrite ini (at_ R.PWR_CTRL 0) .b4 v {}) s fun t =>
          t.ans.resp = .denied ∧ RegsBut s t [R.NOC_ERR_LOG.addr 0])) ∧
      (s.power.asleep = true → (∀ ini a sz v env, exec (.registerWrite ini a sz v env) s = .next s) ∧
        ∀ ini a sz quiet env, exec (.rcRegisterRead ini a sz quiet env) s = .next s)) ∧
  (∀ (s : State) (q : SandReq), s.power.asleep = false → 0x40 ≤ q.ini.val → s.on F.NOC_STATUS_SWITCHING = false → s.sand.moving = [] →
      s.cutOff q.ini.val q.addr.toNat = false →
      let a := q.addr.toNat
      let cross := crosses4K a (reqBytes q)
      let same (t : State) : Prop := t.mem = s.mem ∧ t.sand = s.sand
      let frame (t : State) : Prop := same t ∧ t = { s with regs := t.regs, ans := t.ans, free := t.free } ∧ RegsBut s t [R.NOC_ERR_LOG.addr 0]
      (s.sand.entries.find (q.ini.val, q.tag.toNat) = none →
        (a = R.TMG_CN_PRESET.addr 0 → q.len = 7 →
          (q.op = .read → Completes (.sandRequest q {}) s fun t => t.ans.resp = .okay ∧ t.ans.data = s.rd R.TMG_CN_PRESET ∧ frame t) ∧
          (q.op = .write → Completes (.sandRequest q {}) s fun t => t.ans.resp = .okay ∧ same t ∧
            t.rd R.TMG_CN_PRESET = BitVec.ofNat 64 (bytesNat (reqData q)) ∧
            t = { s with regs := t.regs, ans := t.ans } ∧ RegsBut s t [R.TMG_CN_PRESET.addr 0])) ∧
        (inBay a = true → s.fenced (bayOfAddr a) = false → s.slabFenced (bayOfAddr a / 16) = false → s.railUp (bayOfAddr a / 16) = true →
          cross = false → q.op ≠ .writeP → ∀ env : Env, env.net = none → env.bay.1 ≠ .timeout → Completes (.sandRequest q env) s fun t =>
            t.ans.resp = env.bay.1 ∧ (q.op = .read → q.len = 7 → hasData env.bay.1 = true → t.ans.data = env.bay.2) ∧ frame t) ∧
        (q.op ≠ .writeP → ∀ r : Resp,
          (r = .size ∧ cross = true ∧ a < 0x40000) ∨ (r = .unmapped ∧ 0x40000 ≤ a ∧ a < 0x000100000000 ∧ ¬ inSpd a) ∨
            (r = .fenced ∧ inBay a = true ∧ s.fenced (bayOfAddr a) = true) ∨
            (r = .denied ∧ cross = false ∧ a < 0x40000 ∧ (q.op = .write ∨ q.ini.val ≠ 0x48)) ∨
            (r = .okay ∧ cross = false ∧ a < 0x40000 ∧ q.op = .read ∧ q.ini.val = 0x48) →
          Completes (.sandRequest q {}) s fun t => t.ans.resp = r ∧ frame t)) ∧
      (q.op = .writeP → cross = false → a < 0x40000 →
        Completes (.sandRequest q {}) s fun t => t.ans = s.ans ∧ t.mem = s.mem ∧ t.on F.NOC_ERR_POSTED_ERR = true ∧
          (s.on F.NOC_ERR_LOG_VALID = false → bit (t.rd R.NOC_ERR_LOG).toNat 62 = true) ∧
          RegsBut s t [R.NOC_ERR_LOG.addr 0, R.NOC_ERR.addr 0]) ∧
      (∀ e, s.sand.entries.find (q.ini.val, q.tag.toNat) = some e → a = R.TMG_CN_PRESET.addr 0 → q.len = 7 → q.op = .read →
        Completes (.sandRequest q {}) s fun t => t.ans.resp = .okay ∧ t.ans.data = s.rd R.TMG_CN_PRESET ∧
          t.sand.entries = s.sand.entries ∧ ∃ m, t.sand.moving = [m] ∧ m.q = q ∧ m.back = some (s.sand.gens.get 0 (q.ini.val, q.tag.toNat))))

/-- 08 R433 to R437. Where it goes beyond those rules it rests on the model's choices of log entries 50, 55. -/
def Obligations.QuartzCommit : Prop :=
  (∀ s : State,
    (s.on F.QTZ_STATUS_COMMIT_BUSY = false →
      (∀ slot w, idExists (s.get F.QTZ_TSEL_ID) = true → exec (.tableWrite (.slotWord slot w)) s =
        .next ({ s with qtz := { s.qtz with master := s.qtz.master.set (s.get F.QTZ_TSEL_ID, slot.val) w } }.put
          F.QTZ_STATUS_DIRTY 0 1)) ∧
      (∀ w : W32, bit w.toNat 0 = true → exec (.commit w) s = .next
        ({ s with qtz := { s.qtz with copied := false, skip := s.slabsShut } }.put F.QTZ_STATUS_COMMIT_BUSY 0 1))) ∧
    (s.on F.QTZ_STATUS_COMMIT_BUSY = true →
      (∀ t, exec (.tableWrite t) s = .next (s.put F.QTZ_ERR_WRITE_REFUSED 0 1)) ∧
      (∀ w : W32, bit w.toNat 0 = true → exec (.commit w) s = .next (s.put F.QTZ_ERR_WRITE_REFUSED 0 1)))) ∧
  (∀ (s : State) (w : W32), s.on F.QTZ_STATUS_COMMIT_BUSY = false → s.slabsShut = [] → s.boundariesRun = true →
    bit w.toNat 0 = true →
    ∃ t, runs [.commit w, .commitCopyDone] s = .next t ∧ t.qtz.active = s.qtz.active ∧
      t.on F.QTZ_STATUS_DIRTY = false ∧
      ((∃ e ∈ s.qtz.master, badLanes e.1.1 e.2 ≠ []) → t.on F.QTZ_ERR_BAD_ENTRY = true) ∧
      ∃ u, exec .commitBoundary t = .next u ∧
        (∀ id slot, u.qtz.active.get 0 (id, slot) = copyWord id (s.qtz.master.get 0 (id, slot))) ∧
        u.on F.QTZ_STATUS_COMMIT_BUSY = false ∧ u.get F.QTZ_COMMIT_CN_CN = s.cn ∧ u.on F.QTZ_ERR_COMMIT_DONE = true ∧
        u.qtz.master = s.qtz.master ∧ u.qtz.tx = s.qtz.tx ∧ u = { s with regs := u.regs, qtz := u.qtz } ∧
        RegsBut s u [R.QTZ_STATUS.addr 0, R.QTZ_COMMIT_CN.addr 0, R.QTZ_ERR.addr 0, R.QTZ_BAD.addr 0]) ∧
  (∀ (id : Nat) (w : W64) (q : Nat), q < 4 →
    let e := bits w.toNat (16 * q) 16
    bits (copyWord id w).toNat (16 * q) 16 = if bit e 15 && !inputExists id (e % 256) then e - 2 ^ 15 else e)

/-- 08 R420 to R425, R430 to R432, R446. 08 R428, R441: the two wiring tables agree. 08 R438, R442, R444, R1018. Where it goes beyond those rules it rests on the model's choices of log entries 50, 51, 52, 53, 54. -/
def Obligations.QuartzPaths : Prop :=
  (∀ s : State,
      (∀ (bay : BayId) (ch : Fin 8) data tag, exec (.transmitChannelWrite bay ch data tag) s =
        .next { s with qtz := { s.qtz with tx := s.qtz.tx.set (bay.val, ch.val) ⟨data, tag, true⟩ } }) ∧
      (∀ (bay : BayId) (slot : Fin 128), s.qtzActive = true → s.on F.NOC_STATUS_SWITCHING = false → slot.val < s.qtzN →
        s.railUp (bay.val / 16) = true → s.qtz.probe = none → Completes (.quartzInjection bay slot) s fun t =>
          (∀ lane < 4,
            let e := entryAt s.qtz.active (outId bay.val 5) slot.val lane
            let c := s.qtz.tx.get {} (bay.val, e.port)
            (e.valid = true → (t.qtz.tx.get {} (bay.val, e.port)).valid = false) ∧
            (e.valid = true → c.valid = true → s.fenced bay = false →
              s.qtzMuted (outId bay.val 5) slot.val lane slot.val = false →
              t.qtz.flights.find (.port bay.val 4, lane, (slot.val + 2) % s.qtzN) = some ⟨c.data, c.tag, true, none⟩)) ∧
          (∀ b k, (∀ lane < 4, (entryAt s.qtz.active (outId bay.val 5) slot.val lane).valid = true →
              (b, k) ≠ (bay.val, (entryAt s.qtz.active (outId bay.val 5) slot.val lane).port)) →
            t.qtz.tx.get {} (b, k) = s.qtz.tx.get {} (b, k)) ∧
          t = { s with qtz := { s.qtz with tx := t.qtz.tx, flights := t.qtz.flights } }) ∧
      (∀ (p : QtzIn) (upset : Bool) (f : Flit), s.qtzActive = true → s.on F.NOC_STATUS_SWITCHING = false → (p.sw.val < 64 → s.railUp (p.sw.val / 16) = true) →
        s.qtz.flights.find (.port p.sw.val p.port.val, p.lane.val, p.slot.val) = some f → f.probe = none → f.valid = true →
        s.bridgeShut p.sw.val p.port.val = false →
        Completes (.quartzFlitArrival p upset) s fun t =>
          (∀ id ∈ outputsOf p.sw.val, ∀ q < 4,
            let o := (p.slot.val + (if p.sw.val < 64 then 2 else 3)) % s.qtzN
            let e := entryAt s.qtz.active id o q
            e.valid = true → e.port = p.port.val → e.lane = p.lane.val →
            t.qtz.flights.find ((outputLeads id).1, q, (o + (outputLeads id).2) % s.qtzN) = some { f with
              valid := !upset && !s.qtzMuted id o q (p.slot.val + (if p.sw.val < 64 then 2 else 3)) }) ∧
          (upset = true → t.get F.QTZ_PAR_ERRS_COUNT = min (s.get F.QTZ_PAR_ERRS_COUNT + 1) (2 ^ F.QTZ_PAR_ERRS_COUNT.len - 1) ∧
            t.on F.QTZ_ERR_PARITY = true) ∧
          (upset = false → t.regs = s.regs) ∧
          t = { s with regs := t.regs, qtz := { s.qtz with flights := t.qtz.flights } }) ∧
      (∀ (bay : BayId) (lane : Fin 4) (slot : Fin 128) (upset : Bool) (f : Flit), s.qtzActive = true →
        slot.val < s.qtzN → s.railUp (bay.val / 16) = true → f.probe = none →
        (entryAt s.qtz.active (outId bay.val 4) slot.val lane.val).valid = true →
        s.qtz.flights.find (.recv bay.val, lane.val, (slot.val + 2) % s.qtzN) = some f →
        Completes (.receiveChannelUpdate bay lane slot upset) s fun t =>
          let ch := (entryAt s.qtz.active (outId bay.val 4) slot.val lane.val).ch
          t.qtz.rx.get {} (bay.val, ch) = ⟨f.data, f.tag, f.valid && !upset⟩ ∧
          (∀ k, k ≠ (bay.val, ch) → t.qtz.rx.get {} k = s.qtz.rx.get {} k) ∧
          t.qtz.flights.find (.recv bay.val, lane.val, (slot.val + 2) % s.qtzN) = none ∧
          (f.valid = true → upset = true → t.on F.QTZ_ERR_PARITY = true) ∧ (upset = false → t.regs = s.regs))) ∧
  ((∀ id < 0x449, idExists id = true → ∀ sw p, (outputLeads id).1 = .port sw p → id % 16 ≠ 5 ∨ 0x400 ≤ id →
      portDriver sw p = some id ∧ ∀ id' ∈ outputsOf sw, id' % 16 ≠ 5 → inputExists id' p = true) ∧
    (∀ a b sw, a ∈ outputsOf sw → b ∈ outputsOf sw → sw < 65 → (outputLeads a).1 = (outputLeads b).1 → a = b)) ∧
  (∀ s : State,
      (∀ w : W32, bit w.toNat 31 = true →
        (s.qtzActive = true → s.qtz.trace = none → Completes (.trace w) s fun t =>
          t.qtz.trace = some (bits w.toNat 0 12, bits w.toNat 16 7, bits w.toNat 24 2) ∧ t.on F.QTZ_TRACE_RES_DONE = false ∧
          t = { s with regs := t.regs, qtz := { s.qtz with trace := t.qtz.trace } } ∧
          RegsBut s t [R.QTZ_TRACE.addr 0, R.QTZ_TRACE_RES.addr 0]) ∧
        (s.qtzActive = false → s.qtz.trace = none → Completes (.trace w) s fun t =>
          t.rd R.QTZ_TRACE_RES = 1 ∧ t.on F.QTZ_ERR_TRACE_DONE = true ∧ t.qtz = s.qtz) ∧
        (s.qtz.trace ≠ none → Completes (.trace w) s fun t => t.on F.QTZ_ERR_WRITE_REFUSED = true ∧ t.qtz = s.qtz) ∧
        (s.qtzActive = true → s.qtz.probe = none → Completes (.probe w) s fun t =>
          t.qtz.probe = some (Probe.mk (bits w.toNat 0 12) (bits w.toNat 16 7) (bits w.toNat 24 2)
            ((s.traceOf (bits w.toNat 0 12) (bits w.toNat 16 7) (bits w.toNat 24 2)).map fun r => (r.1, r.2.2.1, r.2.2.2.1))
            false none) ∧
          t.on F.QTZ_PROBE_RES_DONE = false ∧ t = { s with regs := t.regs, qtz := { s.qtz with probe := t.qtz.probe } }) ∧
        (s.qtz.probe ≠ none → Completes (.probe w) s fun t => t.on F.QTZ_ERR_WRITE_REFUSED = true ∧ t.qtz = s.qtz)) ∧
      (∀ id slot lane, s.qtz.trace = some (id, slot, lane) → exec .traceDone s = .next
        (({ s with qtz := { s.qtz with trace := none } }.wr R.QTZ_TRACE_RES 0 (BitVec.ofNat 64
          (match s.traceOf id slot lane with
            | some (src, ch, sl, _, lat) => 3 + src * 4 + ch * 2 ^ 14 + sl * 2 ^ 17 + lat % 256 * 2 ^ 24
            | none => 1))).put F.QTZ_ERR_TRACE_DONE 0 1)) ∧
      (∀ p n, s.qtz.probe = some p → p.arrived = some n → exec .probeDone s = .next
        ((({ s with qtz := { s.qtz with probe := none } }.put F.QTZ_PROBE_RES_DONE 0 1).put F.QTZ_PROBE_RES_LAT 0 n).put
          F.QTZ_ERR_PROBE_DONE 0 1)) ∧
      (∀ p, s.qtz.probe = some p → p.arrived = none → exec .probeLost s = .next
        ({ s with qtz := { s.qtz with probe := none } }.put F.QTZ_ERR_PROBE_LOST 0 1)) ∧
      (∀ slab : Fin 4, slab.val ∈ s.qtz.loading → s.slabFenced slab = false → s.railUp slab = true →
        Completes (.slabTableReload slab) s fun t =>
          (∀ id slot, idSlab id = slab.val → t.qtz.active.get 0 (id, slot) = s.qtz.kept.get 0 (id, slot)) ∧
          (∀ id slot, idSlab id ≠ slab.val → t.qtz.active.get 0 (id, slot) = s.qtz.active.get 0 (id, slot)) ∧
          slab.val ∉ t.qtz.owing ∧ slab.val ∉ t.qtz.loading ∧ t = { s with qtz := t.qtz }))

/-- 09 R457 to R468, R488, R489: a lookup. Where it goes beyond those rules it rests on the model's choices of log entries 59, 60, 129. -/
def Obligations.VerdictLookup : Prop :=
  (∀ base fields req : Nat, base < 2 ^ 22 →
    let w (f : Nat) := bits fields (16 * f + 8) 5
    let pos (f : Nat) := ((List.range f).map w).sum
    pos 4 ≤ 22 → vrdCompose base fields req < 2 ^ 22 ∧
    (∀ f k, f < 4 → k < w f → bit (vrdCompose base fields req) (pos f + k) = bit req (bits fields (16 * f) 6 + k)) ∧
    ∀ j, pos 4 ≤ j → j < 22 → bit (vrdCompose base fields req) j = bit base j) ∧
  (∀ (v : Verdict) (p : Nat), p < 8 → ((vrdService v).length = 4 → vrdServes v p = some (p / 2)) ∧
    ((vrdService v).length = 2 ∨ (vrdService v).length = 3 →
      vrdServes v p = if p < 4 then (vrdService v)[p / 2]? else none) ∧
    ((vrdService v).length = 1 → vrdServes v p = if p < 2 then (vrdService v)[0]? else none)) ∧
  (∀ (s u : State) (port : Fin 8) (slot : Fin 128) (parity : Bool) (f : Flit),
    qtzEndpoint (.verdict port.val) (0x440 + port.val) slot.val 0 parity 0 s = (some f, u) →
    let sends (d : W64) (valid : Bool) (x : State) (tag : W16) : State :=
      let at_ := (slot.val + 12) % x.qtzN
      let m := probeMark (0x440 + port.val, at_, 0) ⟨d, tag, valid, none⟩ x
      qtzSend (.port 64 (64 + port.val)) 0 at_ m.1 m.2
    let ctrl := s.vrd.ctrl.get 0 port.val
    ((f.valid = false ∨ s.vrdReady = false ∨ bit ctrl 0 = false ∨ vrdServes s.vrd port.val = none) → ∀ up,
      exec (.lookup port slot parity up) s = .next (sends 0 false { u with free := u.free + 1 } ((Config.freeWord u.free).setWidth 16))) ∧
    (∀ r, f.valid = true → s.vrdReady = true → bit ctrl 0 = true → vrdServes s.vrd port.val = some r →
      let addr := vrdCompose (bits ctrl 8 22) (s.vrd.fields.get 0 port.val) f.data.toNat
      let b := addr / 65536
      let k := (r, vrdMap s.vrd r b, addr % 65536 / 4)
      let entry (w : W64) := bits w.toNat (16 * (addr % 4)) 16
      let res (e : Nat) (err : Bool) : W64 := BitVec.ofNat 64 (e + addr * 2 ^ 16 + ofFlag err * 2 ^ 38
        + s.vrd.swaps.get 0 b % 2 * 2 ^ 39 + f.data.toNat / 2 ^ 40 * 2 ^ 40)
      let count (x : State) := x.put F.VRD_PORT_LOOKUPS_COUNT port.val (x.get F.VRD_PORT_LOOKUPS_COUNT port.val + 1)
      ∀ w, u.vrd.words.find k = some w →
      (u.vrd.flaws.find k = none → exec (.lookup port slot parity .none) s =
        .next (sends (res (entry w) false) true (count u) f.tag)) ∧
      (u.vrd.flaws.find k = none → exec (.lookup port slot parity .single) s = .next (sends (res (entry w) false) true (count
        (let e := (u.put F.VRD_ECC_CNT_CORRECTED 0 (min (u.get F.VRD_ECC_CNT_CORRECTED + 1) 0xFFFF)).put F.VRD_ERR_CORRECTED 0 1
         { e with free := u.free + 1, vrd := { u.vrd with flaws := u.vrd.flaws.set k .single, back := u.vrd.back.filter (· != k) ++ [k] } })) f.tag)) ∧
      (u.vrd.flaws.find k = some .double → exec (.lookup port slot parity .none) s =
        .next (sends (res (s.get F.VRD_CTRL_ERR_VALUE) true) true (count { u with vrd := { u.vrd with
          second := u.vrd.second ++ [⟨r, k.2.1, k.2.2, addr / 4 * 4, 0⟩] } }) f.tag))))

/-- 09 R482, R483: the swap. -/
def Obligations.VerdictSwap : Prop :=
  ∀ (s : State) (b : Nat) (at_ : Option W64), s.vrd.staged = some b → b < 64 → s.vrd.swap = some at_ →
    s.boundariesRun = true →
    ((∃ c, at_ = some c ∧ s.rd R.TMG_CN < c) → exec .swap s = .next s) ∧
    ((∀ c, at_ = some c → c ≤ s.rd R.TMG_CN) → Completes .swap s fun t =>
      (∀ r, r < 4 →
        (r ∉ s.vrd.retired → vrdMap t.vrd r b = vrdMap s.vrd r 64 ∧ vrdMap t.vrd r 64 = vrdMap s.vrd r b) ∧
        (∀ k, k ≤ 64 → (r ∈ s.vrd.retired ∨ (k ≠ b ∧ k ≠ 64)) → vrdMap t.vrd r k = vrdMap s.vrd r k) ∧
        (((List.range 65).map (vrdMap s.vrd r)).Perm (List.range 65) →
          ((List.range 65).map (vrdMap t.vrd r)).Perm (List.range 65))) ∧
      t.vrd.swaps.get 0 b = s.vrd.swaps.get 0 b + 1 ∧ (∀ k, k ≠ b → t.vrd.swaps.get 0 k = s.vrd.swaps.get 0 k) ∧
      t.rd R.VRD_SWAP_DONE_CN = s.rd R.TMG_CN ∧ t.on F.VRD_ERR_SWAP_DONE = true ∧
      t.on F.VRD_ERR_SWAP_LATE = (s.on F.VRD_ERR_SWAP_LATE || (at_ != none && at_ != some (s.rd R.TMG_CN))) ∧
      t.vrd = { s.vrd with maps := t.vrd.maps, swaps := t.vrd.swaps, staged := none, swap := none } ∧
      t = { s with regs := t.regs, vrd := t.vrd } ∧ RegsBut s t [R.VRD_SWAP_DONE_CN.addr 0, R.VRD_ERR.addr 0])

/-- 09 R474 to R486: staging and the loader window. Where it goes beyond those rules it rests on the model's choices of log entries 15, 56, 58, 134. -/
def Obligations.VerdictStaging : Prop :=
  ∀ s : State,
    (s.domOn 84 = false → ∀ q u, exec (.windowRead q u) s = .next (s.answerBlock .poweredDown [] []) ∧
      exec (.windowWrite q u) s = .next (s.answer .poweredDown)) ∧
    (s.domOn 84 = true → s.unitClocked 8 = false → ∀ q u, exec (.windowRead q u) s = .next (s.answerBlock .timeout [] []) ∧
      exec (.windowWrite q u) s = .next (s.answer .timeout)) ∧
    (s.domOn 84 = true →
      (∀ w : W32, bit w.toNat 8 = true → bit w.toNat 11 = false →
        (s.vrd.staged = none → s.vrd.job = .idle → Completes (.arm w) s fun t =>
          t.vrd = { s.vrd with staged := some (w.toNat % 64), job := if bit w.toNat 9 then .copy else .idle } ∧
          t.get F.VRD_STAGE_BANK = w.toNat % 64 ∧ t.on F.VRD_STAGE_BCAST = bit w.toNat 10 ∧
          t = { s with regs := t.regs, vrd := t.vrd } ∧ RegsBut s t [R.VRD_STAGE.addr 0]) ∧
        ((s.vrd.staged ≠ none ∨ s.vrd.job ≠ .idle) → Completes (.arm w) s fun t => t.vrd = s.vrd ∧
          t.on F.VRD_ERR_CFG_REFUSED = true)) ∧
      (∀ w : W32, bit w.toNat 11 = true → bit w.toNat 8 = false →
        (s.vrd.swap = none → Completes (.disarm w) s fun t => t.vrd.staged = none ∧ t.vrd.job = .idle ∧
          t.vrd.maps = s.vrd.maps ∧ t.on F.VRD_ERR_LOAD_ERR = s.on F.VRD_ERR_LOAD_ERR ∧
          (s.vrd.job = .idle → t.vrd.words = s.vrd.words) ∧ RegsBut s t [R.VRD_STAGE.addr 0]) ∧
        (s.vrd.swap ≠ none → Completes (.disarm w) s fun t => t.vrd = s.vrd ∧ t.on F.VRD_ERR_CFG_REFUSED = true)) ∧
      (∀ b, s.vrd.staged = some b → s.vrd.job = .idle → exec .loaderGo s = .next { s with vrd := { s.vrd with job := .load } }) ∧
      ((s.vrd.staged = none ∨ s.vrd.job ≠ .idle) → exec .loaderGo s = .next (s.put F.VRD_ERR_CFG_REFUSED 0 1)) ∧
      (s.vrd.job = .load → Completes .loadErr s fun t => t.on F.VRD_ERR_LOAD_ERR = true ∧ t.vrd.job = .idle ∧
        t.vrd.staged = s.vrd.staged ∧ t.vrd.maps = s.vrd.maps ∧ t = { s with regs := t.regs, vrd := t.vrd } ∧
        RegsBut s t [R.VRD_ERR.addr 0]) ∧
      (∀ w : W32, bit w.toNat 0 = true →
        (s.vrd.staged ≠ none → s.vrd.job = .idle → s.vrd.swap = none → Completes (.swapGo w) s fun t =>
          t.vrd = { s.vrd with swap := some (if bit w.toNat 1 then some (s.rd R.VRD_SWAP_CN) else none) } ∧
          t = { s with regs := t.regs, vrd := t.vrd } ∧ RegsBut s t [R.VRD_SWAP.addr 0]) ∧
        ((s.vrd.staged = none ∨ s.vrd.job ≠ .idle ∨ s.vrd.swap ≠ none) → Completes (.swapGo w) s fun t =>
          t.vrd = s.vrd ∧ t.on F.VRD_ERR_CFG_REFUSED = true)) ∧
      (∀ b, s.vrd.staged = some b → s.vrd.job = .copy → (∀ k, s.vrd.flaws.find k = none) → s.vrd.undef = [] →
        (∀ r, r < 4 → vrdMap s.vrd r b ≠ vrdMap s.vrd r 64) → Completes (.bankCopyDone []) s fun t =>
          t.vrd.job = .idle ∧ t.vrd.staged = some b ∧ t.vrd.maps = s.vrd.maps ∧ t.regs = s.regs ∧
          (∀ r w, r < 4 → r ∉ s.vrd.retired →
            t.vrd.words.get 0 (r, vrdMap s.vrd r 64, w) = s.vrd.words.get 0 (r, vrdMap s.vrd r b, w)) ∧
          (∀ r p w, (r ∈ s.vrd.retired ∨ p ≠ vrdMap s.vrd r 64) → t.vrd.words.get 0 (r, p, w) = s.vrd.words.get 0 (r, p, w))) ∧
      (∀ (q : WinReq) (b k : Nat) (d : W64), s.unitClocked 8 = true → q.ini.val = 0x4A → b < 64 → k < 16384 →
        q.off.toNat = b * 131072 + 8 * k → q.data = (List.range 8).map (fun i => (BitVec.ofNat 8 (d.toNat / 2 ^ (8 * i)) : Byte)) →
        q.len = 8 → q.rep.val ∉ s.vrd.retired → s.vrd.staged = some b →
        (s.vrd.job = .idle → s.vrd.swap = none → Completes (.windowWrite q .none) s fun t => t.ans.resp = .okay ∧
          t.regs = s.regs ∧ t.vrd.maps = s.vrd.maps ∧
          (∀ r p w, t.vrd.words.find (r, p, w) =
            if r < 4 ∧ r ∉ s.vrd.retired ∧ p = vrdMap s.vrd r 64 ∧ w = k ∧ (s.on F.VRD_STAGE_BCAST = true ∨ r = q.rep.val)
            then some d else s.vrd.words.find (r, p, w)) ∧
          Completes (.windowRead q .none) t fun x => x.ans.resp = .okay ∧ x.ans.data = d ∧ x.vrd.words = t.vrd.words) ∧
        (s.vrd.job ≠ .idle → ∀ u, exec (.windowWrite q u) s = .next (s.answer .denied)) ∧
        (s.vrd.job = .idle → s.vrd.swap ≠ none → ∀ u, exec (.windowWrite q u) s =
          .next ((s.put F.VRD_ERR_LATE_WRITE 0 1).answer .denied))) ∧
      (∀ (q : WinReq) u, s.unitClocked 8 = true → q.data.length = q.len → 0 < q.len →
        ((q.off.toNat % 2 = 1 ∨ q.len % 2 = 1) → exec (.windowWrite q u) s = .next (s.answer .size) ∧
          exec (.windowRead q u) s = .next (s.answerBlock .size [] [])) ∧
        (q.off.toNat % 2 = 0 → q.len % 2 = 0 →
          (q.ini.val < 0x40 ∨ (0x40 ≤ q.ini.val ∧ q.ini.val < 0x48 ∧ q.priv = 0) →
            exec (.windowWrite q u) s = .next (s.answer .denied) ∧ exec (.windowRead q u) s = .next (s.answerBlock .denied [] [])) ∧
          (q.ini.val = 0x4A → q.rep.val ∉ s.vrd.retired → s.vrd.staged ≠ some (q.off.toNat / 131072) →
            (∃ p, p < 8 ∧ s.on F.VRD_PORT_CTRL_EN p = true) → exec (.windowWrite q u) s = .next (s.answer .denied)))))

/-- 09 R456, R465, R469 to R473, R489 to R491, R1019. Where it goes beyond those rules it rests on the model's choices of log entries 56, 57, 59. -/
def Obligations.VerdictReplicas : Prop :=
  ∀ s : State,
    (s.unitClocked 8 = true → s.on F.VRD_STATUS_INIT_DONE = false → Completes .verdictInit s fun t =>
      t.on F.VRD_STATUS_INIT_DONE = true ∧ (∀ r b, vrdMap t.vrd r b = b) ∧ vrdService t.vrd = [0, 1, 2, 3] ∧
      t.vrd.staged = none ∧ t.vrd.swap = none ∧ (∀ k, t.vrd.words.get 0 k = 0 ∧ t.vrd.flaws.get .none k = .none) ∧
      t = { s with regs := t.regs, vrd := t.vrd } ∧ RegsBut s t [R.VRD_STATUS.addr 0]) ∧
    (s.boundariesRun = true → Completes .portConfigApply s fun t => (∀ p, p < 8 → t.vrd.ctrl.get 0 p = (s.rd R.VRD_PORT_CTRL p).toNat ∧
        t.vrd.fields.get 0 p = (s.rd R.VRD_PORT_FIELDS p).toNat) ∧
      t = { s with vrd := { s.vrd with ctrl := t.vrd.ctrl, fields := t.vrd.fields } }) ∧
    (s.domOn 84 = true → ∀ (w : W32) (r : Nat), r = w.toNat % 4 →
      (bit w.toNat 4 = true → bit w.toNat 5 = false →
        (r ∈ vrdStaying s.vrd → (vrdStaying s.vrd).length ≠ 1 → exec (.retire w) s = .next
          ({ s with vrd := { s.vrd with retireDue := s.vrd.retireDue ++ [r] } }.put F.VRD_RETIRE_REPLICA 0 r)) ∧
        (vrdStaying s.vrd = [r] → exec (.retire w) s = .next ((s.put F.VRD_RETIRE_REPLICA 0 r).put F.VRD_ERR_CFG_REFUSED 0 1)) ∧
        (r ∉ vrdStaying s.vrd → exec (.retire w) s = .next (s.put F.VRD_RETIRE_REPLICA 0 r))) ∧
      (bit w.toNat 5 = true → bit w.toNat 4 = false →
        (r ∈ s.vrd.retired → s.vrd.staged = none → s.vrd.swap = none → s.vrd.rbist ≠ some r → exec (.restore w) s = .next
          ({ s with vrd := { s.vrd with restoreDue := s.vrd.restoreDue.filter (· != r) ++ [r] } }.put F.VRD_RETIRE_REPLICA 0 r)) ∧
        ((r ∉ s.vrd.retired ∨ s.vrd.staged ≠ none ∨ s.vrd.swap ≠ none ∨ s.vrd.rbist = some r) →
          exec (.restore w) s = .next ((s.put F.VRD_RETIRE_REPLICA 0 r).put F.VRD_ERR_CFG_REFUSED 0 1))) ∧
      (bit w.toNat 4 = true → r ∈ s.vrd.retired → Completes (.rbist w) s fun t => t.vrd = { s.vrd with rbist := some r } ∧
        t.on F.VRD_RBIST_DONE = false ∧ t.on F.VRD_RBIST_PASS = false ∧ RegsBut s t [R.VRD_RBIST.addr 0]) ∧
      (bit w.toNat 4 = true → r ∉ s.vrd.retired → Completes (.rbist w) s fun t => t.vrd = s.vrd ∧
        t.on F.VRD_ERR_CFG_REFUSED = true)) ∧
    (s.boundariesRun = true → Completes .retirementApply s fun t =>
      (∀ r, r ∈ t.vrd.retired ↔ (r ∈ s.vrd.retired ∨ r ∈ s.vrd.retireDue) ∧ r ∉ s.vrd.restoreDue) ∧
      t.vrd.retireDue = [] ∧ t.vrd.restoreDue = [] ∧
      t.on F.VRD_ERR_RETIRED = (s.on F.VRD_ERR_RETIRED || !s.vrd.retireDue.isEmpty) ∧
      t.vrd = { s.vrd with retired := t.vrd.retired, retireDue := [], restoreDue := [] } ∧
      t = { s with regs := t.regs, vrd := t.vrd } ∧ RegsBut s t [R.VRD_ERR.addr 0]) ∧
    (∀ r pass, s.vrd.rbist = some r → Completes (.rbistDone pass) s fun t => t.vrd.rbist = none ∧
      t.on F.VRD_RBIST_DONE = true ∧ t.on F.VRD_RBIST_PASS = pass ∧
      (∀ p w, t.vrd.words.get 0 (r, p, w) = 0 ∧ t.vrd.flaws.get .none (r, p, w) = .none ∧ (r, p) ∉ t.vrd.undef) ∧
      (∀ q p w, q ≠ r → t.vrd.words.get 0 (q, p, w) = s.vrd.words.get 0 (q, p, w) ∧
        t.vrd.flaws.get .none (q, p, w) = s.vrd.flaws.get .none (q, p, w)) ∧ t.vrd.maps = s.vrd.maps) ∧
    (∀ q l, s.vrd.second = q :: l → s.on F.VRD_UE_LOG_VALID = false →
      q.addr < 2 ^ 22 → q.phys < 65 → q.rep < 4 → q.source < 2 →
      let at_ := s.vrd.flaws.get .none (q.rep, q.phys, q.word)
      (at_ ≠ .double → Completes (.ueSecondRead .none) s fun t => t.on F.VRD_ERR_UE_TRANSIENT = true ∧
        t.get F.VRD_ECC_CNT_TRANSIENT = min (s.get F.VRD_ECC_CNT_TRANSIENT + 1) 0xFFFF ∧ t.vrd.second = l ∧
        t.vrd.retireDue = s.vrd.retireDue ∧ (t.rd R.VRD_UE_LOG).toNat = q.addr + q.phys * 2 ^ 22 + q.rep * 2 ^ 29 + q.source * 2 ^ 32 + 2 ^ 63 ∧
        RegsBut s t [R.VRD_ERR.addr 0, R.VRD_ECC_CNT.addr 0, R.VRD_UE_LOG.addr 0]) ∧
      (at_ = .double → Completes (.ueSecondRead .none) s fun t => t.on F.VRD_ERR_UE_LASTING = true ∧ t.vrd.second = l ∧
        t.vrd.retireDue = (if s.on F.VRD_CTRL_AUTO_RETIRE = true ∧ q.rep ∈ vrdStaying s.vrd ∧ (vrdStaying s.vrd).length ≠ 1
          then s.vrd.retireDue ++ [q.rep] else s.vrd.retireDue) ∧
        (t.rd R.VRD_UE_LOG).toNat = q.addr + q.phys * 2 ^ 22 + q.rep * 2 ^ 29 + 2 ^ 31 + q.source * 2 ^ 32 + 2 ^ 63 ∧
        RegsBut s t [R.VRD_ERR.addr 0, R.VRD_UE_LOG.addr 0])) ∧
    (∀ k l, s.vrd.back = k :: l → exec .verdictWriteBack s =
      .next { s with vrd := { s.vrd with back := l, flaws := s.vrd.flaws.erase k } }) ∧
    (∀ rep : Fin 4, s.vrdReady = true → s.on F.VRD_CTRL_PATROL = true → s.vrd.patrol.get 0 rep.val < 65 * 16384 →
      let n := s.vrd.patrol.get 0 rep.val
      ∀ u, Completes (.patrolRead rep u) s fun t => t.vrd.patrol.get 0 rep.val = (if n = 65 * 16384 - 1 then 0 else n + 1) ∧
        t.vrd.maps = s.vrd.maps ∧
        (∀ j p w, (j, p, w) ≠ (rep.val, n / 16384, n % 16384) →
          t.vrd.words.get 0 (j, p, w) = s.vrd.words.get 0 (j, p, w) ∧
          t.vrd.flaws.get .none (j, p, w) = s.vrd.flaws.get .none (j, p, w)) ∧
        RegsBut s t [R.VRD_ERR.addr 0, R.VRD_ECC_CNT.addr 0]) ∧
    (∀ w u, (vrdStaying s.vrd).length ≠ 0 → ∀ t, (exec (.retire w) s = .next t ∨ exec (.ueSecondRead u) s = .next t) →
      (vrdStaying t.vrd).length ≠ 0)

/-- 10 R495 to R508, R1014: a fragment. -/
def Obligations.LedgerFragmentTests : Prop :=
  ∀ (s : State) (ini : Ini) (off : BitVec 15) (poison : Bool) (data : List Byte), s.unitClocked 9 = true →
    let a := csrBase + 0x98000 + off.toNat
    let h := bytesNat (data.take 8)
    let tag : W16 := BitVec.ofNat 16 h
    let src := bits h 16 10
    let len := bits h 28 12
    let blocks := (8 + len + 63) / 64
    let ends (t : State) : Prop := exec (.fragment ini off false poison data) s = .next (t.answer .okay)
    let bad (e : Fld) : State := (s.put F.LDG_BAD_FRAGS_COUNT 0 (min (s.get F.LDG_BAD_FRAGS_COUNT + 1) 0xFFFFFFFF)).put e 0 1
    let malformed : Prop := a % 32 ≠ 0 ∨ data.length ≠ 8 + len ∨ len % 8 ≠ 0 ∨ bits h 26 2 ≠ 0 ∨ bits h 42 6 ≠ 0
    let late : Prop := s.get F.LDG_WINDOW_CROSSINGS ≤ s.age tag ∨ ∃ n, s.ldg.open_ = some n ∧ n ≤ s.age tag
    let x := s.cross tag
    (s.on F.LDG_STATUS_RUNNING = false → s.on F.NOC_ERR_LOG_VALID = true →
      exec (.fragment ini off false poison data) s = .next (s.answer .offline)) ∧
    (s.on F.LDG_STATUS_RUNNING = true →
      (malformed → s.on F.LDG_ERR_LOG_VALID = true → ends (bad F.LDG_ERR_MALFORMED)) ∧
      (malformed → s.on F.LDG_ERR_LOG_VALID = false → Completes (.fragment ini off false poison data) s fun t =>
        (t.rd R.LDG_ERR_LOG).toNat = a + 2 * 2 ^ 48 + src * 2 ^ 52 + 2 ^ 63 ∧ t.ldg = s.ldg ∧ t.ans.resp = .okay ∧
        RegsBut s t [R.LDG_BAD_FRAGS.addr 0, R.LDG_ERR.addr 0, R.LDG_ERR_LOG.addr 0]) ∧
      (¬ malformed →
        (bit (s.ldg.src.get 0 src) 0 = false → ends (bad F.LDG_ERR_UNKNOWN_SRC)) ∧
        (bit (s.ldg.src.get 0 src) 0 = true →
          (late → ends ((s.put F.LDG_LATE_FRAGS_COUNT 0 (min (s.get F.LDG_LATE_FRAGS_COUNT + 1) 0xFFFFFFFF)).put F.LDG_ERR_LATE_FRAG 0 1)) ∧
          (¬ late → x.st = .rejected → ends s) ∧
          (¬ late → x.st ≠ .rejected →
            (src ∈ x.seen → ends (bad F.LDG_ERR_DUPLICATE)) ∧
            (src ∉ x.seen → (tierBlocks s < tierUsed s + blocks ∨ 262144 ≤ s.ldg.frags.length) →
              Completes (.fragment ini off false poison data) s fun t => t.on F.LDG_ERR_TIER_FULL = true ∧
                t.get F.LDG_TIER_DROPS_COUNT = min (s.get F.LDG_TIER_DROPS_COUNT + 1) 0xFFFFFFFF ∧ t.ans.resp = .okay ∧
                (t.cross tag).loss = true ∧ t.ldg.frags = s.ldg.frags ∧
                RegsBut s t [R.LDG_TIER_DROPS.addr 0, R.LDG_ERR.addr 0]) ∧
            (src ∉ x.seen → tierUsed s + blocks ≤ tierBlocks s → s.ldg.frags.length < 262144 →
              Completes (.fragment ini off false poison data) s fun t => t.ans.resp = .okay ∧ t.mem = s.mem ∧
                t.get F.LDG_FRAGS_IN_COUNT = (s.get F.LDG_FRAGS_IN_COUNT + 1) % 2 ^ 32 ∧
                (t.cross tag).seen = x.seen ++ [src] ∧ (t.cross tag).st = x.st ∧
                (x.st = .undecided → ∃ fa, t.ldg.frags = s.ldg.frags ++ [⟨tag, src,
                  BitVec.ofNat 64 h ||| (if poison then BitVec.ofNat 64 (2 ^ 42) else 0), data.drop 8, fa, none⟩] ∧
                  tierUsed t = tierUsed s + blocks ∧ tierUsed t ≤ tierBlocks t) ∧
                RegsBut s t [R.LDG_FRAGS_IN.addr 0])))))

/-- 10 R510 to R526: decisions and expiry. Where it goes beyond those rules it rests on the model's choices of log entries 24, 64, 66, 134. -/
def Obligations.LedgerDecisions : Prop :=
  (∀ (s : State) (w : W64), s.unitClocked 9 = true → s.on F.LDG_STATUS_RUNNING = true → s.on F.LDG_CTRL_DEC_HOST_EN = true →
    let tag : W16 := w.setWidth 16
    let cls := bits w.toNat 20 4
    let accept := bit w.toNat 16
    let fit : Prop := bits w.toNat 17 3 = 0 ∧ bits w.toNat 24 8 = 0 ∧ (accept = true → bit (s.ldg.cls.get 8 cls) 3 = true)
    let late : Prop := s.get F.LDG_WINDOW_CROSSINGS ≤ s.age tag ∨ (∃ n, s.ldg.open_ = some n ∧ n ≤ s.age tag) ∨ (s.cross tag).st = .rejected
    (¬ fit → exec (.hostDecision w) s = .next s) ∧
    (fit → late → exec (.hostDecision w) s = .next ((s.put F.LDG_LATE_DECS_COUNT 0
      (min (s.get F.LDG_LATE_DECS_COUNT + 1) 0xFFFFFFFF)).put F.LDG_ERR_LATE_DEC 0 1)) ∧
    (fit → ¬ late → accept = true → (s.cross tag).st = .undecided →
      ((s.ldg.ctxs.length < ctxLimit s ∧ ∀ c ∈ s.ldg.ctxs, c.id < s.ldg.nextCtx) → Completes (.hostDecision w) s fun t =>
        ∃ c, t.ldg.ctxs = s.ldg.ctxs ++ [c] ∧ (t.cross tag).st = .accepted c.id ∧ (∀ d ∈ s.ldg.ctxs, d.id ≠ c.id) ∧
          c.tag = tag ∧ c.cn = s.rd R.TMG_CN - BitVec.ofNat 64 (s.age tag) ∧ c.cls = cls ∧
          c.stream = s.ldg.cls.get 8 cls % 8 ∧ c.state = .collect ∧ c.trig = w.extractLsb' 32 32 ∧ c.dec = 4 ∧
          c.suspect = s.on F.TMG_STATUS_CN_SUSPECT ∧ c.wasDeferred = false ∧
          (∀ f, f ∈ t.ldg.frags → f.st = tag → f.ctx = none → False) ∧
          t.get F.LDG_ACCEPTS_COUNT = (s.get F.LDG_ACCEPTS_COUNT + 1) % 2 ^ 32 ∧
          t = { s with regs := t.regs, ldg := t.ldg } ∧ RegsBut s t [R.LDG_ACCEPTS.addr 0]) ∧
      (ctxLimit s ≤ s.ldg.ctxs.length → Completes (.hostDecision w) s fun t =>
        (t.cross tag).st = .deferred cls (s.ldg.cls.get 8 cls % 8) 4 (w.extractLsb' 32 32) ∧ t.ldg.ctxs = s.ldg.ctxs ∧ t.ldg.frags = s.ldg.frags ∧
        t.on F.LDG_ERR_CTX_DEFERRED = true ∧ RegsBut s t [R.LDG_ACCEPTS.addr 0, R.LDG_ERR.addr 0])) ∧
    (fit → ¬ late → accept = true → ∀ id, (s.cross tag).st = .accepted id → exec (.hostDecision w) s = .next
      { s with ldg := { s.ldg with ctxs := s.ldg.ctxs.map fun c =>
          if c.id == id then { c with trig := c.trig ||| w.extractLsb' 32 32, dec := c.dec ||| 4 } else c } }) ∧
    (fit → ¬ late → accept = false →
      (s.on F.LDG_CTRL_EARLY_REJECT = false ∨ (s.cross tag).st ≠ .undecided → exec (.hostDecision w) s = .next s) ∧
      (s.on F.LDG_CTRL_EARLY_REJECT = true → (s.cross tag).st = .undecided → Completes (.hostDecision w) s fun t =>
        (t.cross tag).st = .rejected ∧ t.ldg.frags = s.ldg.frags.filter (fun f => !(f.st == tag && f.ctx.isNone)) ∧
        t.ldg.ctxs = s.ldg.ctxs ∧ t.regs = s.regs))) ∧
  (∀ (s : State) (slot : Fin 128) (ups : BitVec 4), Completes (.quartzDecision slot ups) s fun t =>
    let one (a : List Flit × State) (lane : Nat) : List Flit × State :=
      let r := qtzEndpoint .ledger 0x448 slot.val lane (ups.getLsbD lane) (s.qtz.eqd.get 0 512) a.2
      (a.1 ++ r.1.toList.filter (·.valid), r.2)
    let got := (List.range 4).foldl one ([], s)
    (s.unitClocked 9 = false ∨ s.on F.LDG_STATUS_RUNNING = false ∨ s.on F.LDG_CTRL_DEC_QTZ_EN = false → t = got.2) ∧
    (s.unitClocked 9 = true → s.on F.LDG_STATUS_RUNNING = true → s.on F.LDG_CTRL_DEC_QTZ_EN = true → ∃ a,
      t = ldgDecide 1 (got.1.map fun f => f.data.toNat) { got.2 with tmg := { got.2.tmg with accept := a } } ∧
      (got.2.tmg.accept ≠ none → a = got.2.tmg.accept))) ∧
  (∀ (s : State) (tag : W16) (k j : Nat) (src : Nat), k < j → j < 16 → s.get F.LDG_WINDOW_CROSSINGS > s.age tag →
    s.ldg.open_ = none → (s.cross tag).st = .undecided → s.ldg.ctxs.length < ctxLimit s →
    bit (s.ldg.cls.get 8 k) 3 = true → bit (s.ldg.cls.get 8 j) 3 = true →
    let dec (c : Nat) : Nat := tag.toNat + 2 ^ 16 + c * 2 ^ 20
    ∀ ws, ws = [dec k, dec j] ∨ ws = [dec j, dec k] →
      ∃ c, (ldgDecide src ws s).ldg.ctxs = s.ldg.ctxs ++ [c] ∧ c.cls = k ∧ c.stream = s.ldg.cls.get 8 k % 8) ∧
  (∀ (s : State) (x : Cross), let tag := s.shortTag - BitVec.ofNat 16 (s.get F.LDG_WINDOW_CROSSINGS)
    s.ldg.cross.find tag = some x →
    (x.st = .undecided → (ldgExpire s).ldg.frags = s.ldg.frags.filter (fun f => !(f.st == tag && f.ctx.isNone)) ∧
      (ldgExpire s).ldg.ctxs = s.ldg.ctxs ∧ (ldgExpire s).regs = s.regs) ∧
    (∀ c k d w, x.st = .deferred c k d w → (ldgExpire s).on F.LDG_ERR_CTX_LOST = true ∧
      (ldgExpire s).get F.LDG_CTX_LOST_COUNT = min (s.get F.LDG_CTX_LOST_COUNT + 1) 0xFFFFFFFF ∧
      (ldgExpire s).ldg.frags = s.ldg.frags.filter (fun f => !(f.st == tag && f.ctx.isNone))) ∧
    (∀ c f, x.st = .accepted c.id → s.ldg.ctxs = [c] → c.tag = tag → c.state = .collect → f ∈ s.ldg.frags → f.ctx = some c.id →
      s.on F.LDG_STR_CTRL_EN c.stream = true → c.stream < 8 →
      ∃ d, (ldgExpire s).ldg.ctxs = [d] ∧ d.state = .closing ∧ d.seq.toNat = s.get F.LDG_STR_SEQ_NEXT c.stream ∧
        d.numbered = true ∧ d.loss = (c.loss || x.loss) ∧ d.early = c.early ∧
        (ldgExpire s).get F.LDG_STR_SEQ_NEXT c.stream = (s.get F.LDG_STR_SEQ_NEXT c.stream + 1) % 2 ^ 32) ∧
    (ldgExpire s).ldg.cross.find tag = none)

/-- 10 R525 to R551: paging and readout. Where it goes beyond those rules it rests on the model's choices of log entries 61, 63, 65. -/
def Obligations.LedgerPagesAndChunks : Prop :=
  ∀ s : State,
    (∀ id x t, ldgCtx s id = some x → ctxPage id s = some t →
      ∃ c p, (ldgCtx t id).map (·.pages) = some (x.pages ++ [(c, p)]) ∧ c < 4 ∧ s.poolInService c = true ∧
        p ∉ poolUsed s c ∧ p < s.get F.LDG_POOL_PAGES_COUNT c ∧
        (∀ q, x.pages.getLast? = some q → q.1 < 4 → poolGives s q.1 = true → c = q.1) ∧
        t = { s with ldg := t.ldg, free := t.free }) ∧
    (∀ i x f l tier e1 e2, s.unitClocked 9 = true → s.ldgFrozen = false → s.pagingYields i = false → s.ldg.ctxs[i]? = some x → unpaged s x.id = f :: l →
      x.packed = false → (∀ c ∈ s.ldg.ctxs, c.id = x.id → c = x) →
      let need := (x.body + (8 + f.data.length) + 4095) / 4096
      (maxPages s < need → x.state = .collect → Completes (.pageWrite i tier e1 e2) s fun t =>
        unpaged t x.id = [] ∧ (ldgCtx t x.id).map (·.oversize) = some true ∧ t.mem = s.mem ∧ t.regs = s.regs) ∧
      (need ≤ maxPages s → x.pages.length < need → (∀ c, c < 4 → poolGives s c = false) →
        exec (.pageWrite i tier e1 e2) s = .next (if x.waits then s else
          (ldgModCtx x.id (fun y => { y with waits := true }) s).put F.LDG_ERR_PAGE_WAIT 0 1)) ∧
      (need ≤ maxPages s → need ≤ x.pages.length → (∀ p ∈ x.pages, s.on F.LDG_POOL_STATUS_RETIRED p.1 = false) → x.state = .collect → tier = .clean → s.owns 0x4B (bankOf f.addr) = true →
        s.domOn (86 + bankOf f.addr / 8) = true → exec (.pageWrite i tier e1 e2) s = .next
          (dropFrags (fun g => g.ctx == some x.id && g.src == f.src) (ldgModCtx x.id (fun y => { y with
            body := y.body + (8 + f.data.length), frags := y.frags + 1,
            codes := y.codes.set f.src (slotCode f.hdr.toNat f.data.length (x.slots.getD (f.src - x.first) 0)),
            poisoned := y.poisoned || bit f.hdr.toNat 41 || bit f.hdr.toNat 42, short := y.short || bit f.hdr.toNat 40 })
            (bodyWrite x.id x.body f.src (natBytes f.hdr.toNat 8 ++ f.data) e1 e2
              (ldgModCtx x.id (fun y => { y with waits := false }) s)))))) ∧
    (∀ (f : Frag) tier, (tier = .lasting ∨ tier = .refused) → (tierReadFrag f tier s).1 = f.hdr ||| BitVec.ofNat 64 (2 ^ 42) ∧
      (tierReadFrag f tier s).2.2.on F.LDG_ERR_POISON_LASTING = true ∧
      (tierReadFrag f tier s).2.2.get F.LDG_POISON_LASTING = min (s.get F.LDG_POISON_LASTING + 1) 0xFFFF ∧
      (tierReadFrag f tier s).2.1.length = f.data.length) ∧
    (∀ id x off src bs e1 e2 r1 r2, e1.net = some r1 → r1 ≠ .okay → e2.net = some r2 → r2 ≠ .okay → ldgCtx s id = some x →
      0 < bs.length → off % 4096 + bs.length ≤ 4096 →
      ∃ y, ldgCtx (bodyWrite id off src bs e1 e2 s) id = some y ∧ y.lost = x.lost ++ [(off, bs.length)] ∧ y.dataLost = true ∧
        y.pages = x.pages ∧ (bodyWrite id off src bs e1 e2 s).mem = s.mem) ∧
    (∀ e1 e2, s.unitClocked 9 = true → s.ldgFrozen = false → chunkStream s s.ktpTakes = none →
      Completes (.chunkSend e1 e2) s fun t => t = { s with regs := t.regs } ∧ RegsBut s t [R.KTP_ERR.addr 0]) ∧
    (∀ e1 e2 k x, s.unitClocked 9 = true → s.ldgFrozen = false → chunkStream s s.ktpTakes = some k → nextRecord s k = some x →
      let n := min 4096 (32 + bodyLen x + 8 - x.sent)
      let ktp := s.get F.LDG_STR_CTRL_KTP_STREAM k
      n ≤ s.get F.LDG_STR_CREDIT_BYTES k ∧ k < 8 ∧
      (∀ j, j < 8 → chunkReady s s.ktpTakes j = true → s.get F.LDG_STR_CTRL_PRI j ≤ s.get F.LDG_STR_CTRL_PRI k) ∧
      (∀ id, s.ldg.owner.find ktp = some id → id = x.id) ∧
      Completes (.chunkSend e1 e2) s fun t => t.get F.LDG_STR_CREDIT_BYTES k = s.get F.LDG_STR_CREDIT_BYTES k - n ∧
        t.on F.LDG_STR_STATUS_STALLED k = false ∧
        (∀ j r q, j < 8 → j ≠ k → e1.net = some r → r ≠ .okay → e2.net = some q → q ≠ .okay → t.get F.LDG_STR_CREDIT_BYTES j = s.get F.LDG_STR_CREDIT_BYTES j) ∧
        (ktp ∉ s.ktp.discard → ∃ bs, t.ktp.hand = s.ktp.hand ++ [(ktp, x.sent == 0, bs)]) ∧
        (ktp ∈ s.ktp.discard → t.ktp.hand = s.ktp.hand ∧ t.on F.KTP_ERR_DATA_LOST = true)) ∧
    (∀ stream : Fin 8, s.unitClocked 9 = true →
      (s.on F.LDG_STR_STATUS_STALLED stream.val = false → s.get F.LDG_STR_CTRL_STALL_TMO stream.val ≠ 0 → lacksCredit s stream.val = true → exec (.stall stream) s = .next
        ((s.put F.LDG_STR_STATUS_STALLED stream.val 1).put F.LDG_ERR_STALL 0 1)) ∧
      (s.on F.LDG_STR_STATUS_STALLED stream.val = true ∨ s.get F.LDG_STR_CTRL_STALL_TMO stream.val = 0 ∨ lacksCredit s stream.val = false → exec (.stall stream) s = .next s) ∧
      (∀ w : W32, exec (.streamGrant stream w) s = .next (s.put F.LDG_STR_CREDIT_BYTES stream.val
        (min (s.get F.LDG_STR_CREDIT_BYTES stream.val + w.toNat) 0xFFFFFFFF)))) ∧
    (∀ (stream : Fin 8) c, s.unitClocked 9 = true → s.on F.LDG_STR_STATUS_STALLED stream.val = true → s.on F.LDG_STR_CTRL_STALL_ACTION stream.val = true →
      c ∈ queuedOf s stream.val → (∀ d ∈ queuedOf s stream.val, d = c ∨ c.closeNo < d.closeNo) →
      exec (.stallDiscard stream) s = .next ({ s with ldg := { s.ldg with
          ctxs := s.ldg.ctxs.filter (fun d => d.id != c.id), frags := s.ldg.frags.filter (fun f => f.ctx != some c.id) } }.put
        F.LDG_STR_DISCARDS_COUNT c.stream (min (s.get F.LDG_STR_DISCARDS_COUNT c.stream + 1) (2 ^ F.LDG_STR_DISCARDS_COUNT.len - 1))))

/-- 10 R506, R530, R547, R552, R553, R561, R563. Where it goes beyond those rules it rests on the model's choices of log entries 62, 65. -/
def Obligations.LedgerControl : Prop :=
  ∀ s : State, s.domOn 85 = true →
    (∀ w : W32, bit w.toNat 0 = true → s.on F.LDG_CTRL_EN = false →
      let pages (c : Nat) := s.get F.LDG_POOL_PAGES_COUNT c
      let lo (c : Nat) := s.get F.LDG_POOL_BASE_ADDR c * 4096
      let placed (c : Nat) : Prop := pages c = 0 ∨ (dramBase + c * 2 ^ 36 ≤ lo c ∧
        lo c + pages c * 4096 ≤ dramBase + c * 2 ^ 36 + s.get F.DMC_CONFIG_CAPACITY c * 2 ^ 30 ∧ s.on F.LDG_POOL_STATUS_RETIRED c = false)
      let may : Prop := (∀ c, c < 4 → placed c) ∧ pages 0 + pages 1 + pages 2 + pages 3 ≤ 1048576 ∧
        s.get F.LDG_TIER_BANKS_MASK ≠ 0 ∧ (∀ b, b < 32 → bit (s.get F.LDG_TIER_BANKS_MASK) b = true → s.owns 0x4B b = true) ∧
        1 ≤ s.get F.LDG_WINDOW_CROSSINGS ∧ s.get F.LDG_WINDOW_CROSSINGS ≤ 4096 ∧
        (s.on F.TMG_STATUS_QTZ_LOCK = true ∨ s.on F.TMG_STATUS_HOLDOVER = true)
      (¬ may → Completes (.ledgerEnable w) s fun t => t.on F.LDG_CTRL_EN = false ∧ t.on F.LDG_ERR_CFG_REFUSED = true ∧
        t.ldg = s.ldg ∧ RegsBut s t [R.LDG_CTRL.addr 0, R.LDG_ERR.addr 0]) ∧
      (may → s.ldg.ctxs = [] → Completes (.ledgerEnable w) s fun t => t.on F.LDG_CTRL_EN = true ∧
        t.ldg = { s.ldg with init := true, frags := [], cross := [], lastPool := none } ∧
        t.on F.LDG_STATUS_RUNNING = s.on F.LDG_STATUS_RUNNING ∧ RegsBut s t [R.LDG_CTRL.addr 0] ∧
        Completes .tierInitDone t fun u => u.on F.LDG_STATUS_RUNNING = true ∧ u.ldg = { t.ldg with init := false }) ∧
      (may → s.ldg.ctxs ≠ [] → Completes (.ledgerEnable w) s fun t => t.on F.LDG_CTRL_EN = true ∧
        t.ldg = { s.ldg with startDue := true } ∧ RegsBut s t [R.LDG_CTRL.addr 0])) ∧
    (∀ w : W32, bit w.toNat 0 = false → s.on F.LDG_CTRL_EN = true → Completes (.ledgerDisable w) s fun t =>
      t.ldg.cross = [] ∧ t.ldg.open_ = some 0 ∧ (∀ f ∈ t.ldg.frags, f.ctx ≠ none) ∧
      ((∀ c ∈ s.ldg.ctxs, c.state ≠ .collect) → t.ldg.ctxs = s.ldg.ctxs ∧ t.ldg.init = false ∧ t.ldg.startDue = false ∧
        t.on F.LDG_CTRL_EN = false ∧ t.on F.LDG_STATUS_RUNNING = false ∧
        RegsBut s t [R.LDG_CTRL.addr 0, R.LDG_STATUS.addr 0]) ∧
      (∀ c f, s.ldg.ctxs = [c] → c.stream < 8 → c.state = .collect → f ∈ s.ldg.frags → f.ctx = some c.id →
        (∃ d, t.ldg.ctxs = [d] ∧ d.state = .closing ∧ d.early = true) ∧ t.on F.LDG_CTRL_EN = false ∧
        t.on F.LDG_STATUS_RUNNING = false ∧
        RegsBut s t [R.LDG_CTRL.addr 0, R.LDG_STATUS.addr 0, R.LDG_STR_SEQ.addr c.stream])) ∧
    (∀ (stream : Fin 8) (w : W32), let k := stream.val
      let first := s.get F.LDG_STR_SRC_FIRST k
      let count := s.get F.LDG_STR_SRC_COUNT k
      let body := (count + 31) / 32 * 8 + ((List.range count).map fun i => bits (s.ldg.src.get 0 (first + i)) 2 9 * 8).sum
      let may : Prop := first + count ≤ 1024 ∧ (bit w.toNat 1 = true → count ≠ 0 ∧ (body + 4095) / 4096 ≤ maxPages s)
      (bit w.toNat 0 = true → s.on F.LDG_STR_CTRL_EN k = false →
        (may → Completes (.streamEnable stream w) s fun t => t.on F.LDG_STR_CTRL_EN k = true ∧
          t.get F.LDG_STR_CREDIT_BYTES k = 0 ∧ t.get F.LDG_STR_SEQ_NEXT k = 0 ∧ t.ldg.ctxs = s.ldg.ctxs ∧
          t.on F.LDG_STR_CTRL_FORMAT k = bit w.toNat 1 ∧
          RegsBut s t [R.LDG_STR_CTRL.addr k, R.LDG_STR_CREDIT.addr k, R.LDG_STR_SEQ.addr k]) ∧
        (¬ may → Completes (.streamEnable stream w) s fun t => t.on F.LDG_STR_CTRL_EN k = false ∧
          t.on F.LDG_ERR_CFG_REFUSED = true ∧ t.ldg = s.ldg ∧ RegsBut s t [R.LDG_STR_CTRL.addr k, R.LDG_ERR.addr 0])) ∧
      (bit w.toNat 0 = false → s.on F.LDG_STR_CTRL_EN k = true → Completes (.streamDisable stream w) s fun t =>
        t.on F.LDG_STR_CTRL_EN k = false ∧
        ((∀ c ∈ s.ldg.ctxs, c.stream = k → c.state ≠ .sending) → ∀ c ∈ t.ldg.ctxs, c.stream = k → c.state ≠ .queued) ∧
        (∀ d ∈ s.ldg.ctxs, d.stream = k → d.state = .sending → t.ldg = s.ldg ∧ (∀ c, nextRecord t k = some c → c.state = .sending)) ∧
        (∀ c ∈ s.ldg.ctxs, (c.stream ≠ k ∨ c.state ≠ .queued) →
          (∀ d ∈ s.ldg.ctxs, d.id = c.id → d = c) → c ∈ t.ldg.ctxs))) ∧
    (∀ (stream : Fin 8) (w : W32), exec (.streamGrant stream w) s = .next (s.put F.LDG_STR_CREDIT_BYTES stream.val
      (min (s.get F.LDG_STR_CREDIT_BYTES stream.val + w.toNat) 0xFFFFFFFF))) ∧
    (s.unitClocked 9 = true → ∀ stream : Fin 8,
      (s.on F.LDG_STR_STATUS_STALLED stream.val = false → s.get F.LDG_STR_CTRL_STALL_TMO stream.val ≠ 0 →
        lacksCredit s stream.val = true → exec (.stall stream) s = .next
          ((s.put F.LDG_STR_STATUS_STALLED stream.val 1).put F.LDG_ERR_STALL 0 1)) ∧
      (∀ c, s.on F.LDG_STR_STATUS_STALLED stream.val = true → s.on F.LDG_STR_CTRL_STALL_ACTION stream.val = true →
        c ∈ queuedOf s stream.val → (∀ d ∈ queuedOf s stream.val, d = c ∨ c.closeNo < d.closeNo) →
        exec (.stallDiscard stream) s = .next ({ s with ldg := { s.ldg with
            ctxs := s.ldg.ctxs.filter (fun d => d.id != c.id), frags := s.ldg.frags.filter (fun f => f.ctx != some c.id) } }.put
          F.LDG_STR_DISCARDS_COUNT c.stream
          (min (s.get F.LDG_STR_DISCARDS_COUNT c.stream + 1) (2 ^ F.LDG_STR_DISCARDS_COUNT.len - 1))))) ∧
    (s.unitClocked 9 = true → s.ldgFrozen = false →
      (∀ i x f l e1 e2, s.pagingYields i = false → s.ldg.ctxs[i]? = some x → unpaged s x.id = f :: l → x.packed = false →
        (∀ c ∈ s.ldg.ctxs, c.id = x.id → c = x) → x.state = .collect →
        (x.body + (8 + f.data.length) + 4095) / 4096 ≤ min (maxPages s) x.pages.length →
        (∀ p ∈ x.pages, s.on F.LDG_POOL_STATUS_RETIRED p.1 = false) →
        s.owns 0x4B (bankOf f.addr) = true → s.domOn (86 + bankOf f.addr / 8) = true →
        exec (.pageWrite i .clean e1 e2) s = .next
          (dropFrags (fun g => g.ctx == some x.id && g.src == f.src) (ldgModCtx x.id (fun y => { y with
            body := y.body + (8 + f.data.length), frags := y.frags + 1,
            codes := y.codes.set f.src (slotCode f.hdr.toNat f.data.length (x.slots.getD (f.src - x.first) 0)),
            poisoned := y.poisoned || bit f.hdr.toNat 41 || bit f.hdr.toNat 42, short := y.short || bit f.hdr.toNat 40 })
            (bodyWrite x.id x.body f.src (natBytes f.hdr.toNat 8 ++ f.data) e1 e2
              (ldgModCtx x.id (fun y => { y with waits := false }) s))))) ∧
      (∀ e1 e2 k x, chunkStream s s.ktpTakes = some k → nextRecord s k = some x →
        let ktp := s.get F.LDG_STR_CTRL_KTP_STREAM k
        ktp ∉ s.ktp.discard → Completes (.chunkSend e1 e2) s fun t =>
          t.get F.LDG_STR_CREDIT_BYTES k = s.get F.LDG_STR_CREDIT_BYTES k - min 4096 (32 + bodyLen x + 8 - x.sent) ∧
          t.on F.LDG_STR_STATUS_STALLED k = false ∧ ∃ bs l, t.ktp.hand = l ++ [(ktp, x.sent == 0, bs)]))

/-- 11 R571 to R582, R638, R641. Where it goes beyond those rules it rests on the model's choices of log entries 4, 10, 68. -/
def Obligations.HostPorts : Prop :=
  ∀ s : State,
    (∀ (port : PortId) (w : W32), let p := port.val
      let held : Prop := s.on F.ETH_CTRL_EN p = true ∧ bits w.toNat 1 4 ≠ bits (s.rd R.ETH_CTRL p).toNat 1 4
      ((bits w.toNat 1 2 = 3 ∨ held) → exec (.ethEnable port w) s = .next (s.put F.ETH_ERR_CFG_REFUSED p 1)) ∧
      (bits w.toNat 1 2 ≠ 3 → ¬ held → bit w.toNat 0 ≠ s.on F.ETH_CTRL_EN p → s.domOn (94 + p) = false →
        exec (.ethEnable port w) s = .next (s.answer .poweredDown)) ∧
      (bits w.toNat 1 2 ≠ 3 → ¬ held → (s.on F.ETH_CTRL_EN p = false ∨ bit w.toNat 0 = true) →
        (bit w.toNat 0 = s.on F.ETH_CTRL_EN p ∨ s.domOn (94 + p) = true) → Completes (.ethEnable port w) s fun t =>
        t.on F.ETH_CTRL_EN p = bit w.toNat 0 ∧ t.get F.ETH_CTRL_MODE p = bits w.toNat 1 2 ∧
        t = { s with regs := t.regs } ∧ RegsBut s t [R.ETH_CTRL.addr p]) ∧
      (bits w.toNat 1 2 ≠ 3 → ¬ held → s.on F.ETH_CTRL_EN p = true → bit w.toNat 0 = false → s.domOn (94 + p) = true → (∀ n, n < 8 → (s.sess n).st = .closed ∨ (s.sess n).port ≠ p) →
        Completes (.ethEnable port w) s fun t => t.on F.ETH_CTRL_EN p = false ∧ t.rd R.ETH_STATUS p = 0 ∧
          t.on F.ETH_ERR_LINK_DOWN p = (s.on F.ETH_ERR_LINK_DOWN p || s.on F.ETH_STATUS_LINK p) ∧ t.ktp = s.ktp ∧
          RegsBut s t [R.ETH_CTRL.addr p, R.ETH_STATUS.addr p, R.ETH_ERR.addr p]) ∧
      (s.portOn p = true → s.portLink p = false → s.laneSupply = true → (∀ n, n < 8 → (s.sess n).st ≠ .held) → Completes (.linkUp port) s fun t =>
        t.portLink p = true ∧ t.on F.ETH_STATUS_ALIGNED p = true ∧ t.on F.ETH_STATUS_FEC_LOCK p = s.fecUsed p ∧
        t.on F.ETH_STATUS_AN_DONE p = (s.get F.ETH_CTRL_MODE p != 0) ∧ t.on F.ETH_ERR_LINK_UP p = true ∧
        t = { s with regs := t.regs } ∧ RegsBut s t [R.ETH_STATUS.addr p, R.ETH_ERR.addr p]) ∧
      (s.portOn p = false ∨ s.portLink p = true ∨ s.laneSupply = false → exec (.linkUp port) s = .next s) ∧
      (∀ al fl hb, s.portLink p = true →
        ((al = true ∧ (fl = true ∨ s.fecUsed p = false) ∧ hb = false) → exec (.linkDown port al fl hb) s = .next s) ∧
        (¬ (al = true ∧ (fl = true ∨ s.fecUsed p = false) ∧ hb = false) → (∀ n, n < 8 → (s.sess n).st = .closed ∨ (s.sess n).port ≠ p) →
          Completes (.linkDown port al fl hb) s fun t => t.portLink p = false ∧ t.on F.ETH_ERR_LINK_DOWN p = true ∧
            t.on F.ETH_STATUS_ALIGNED p = al ∧ t.on F.ETH_STATUS_HI_BER p = hb ∧ t.ktp = s.ktp ∧
            RegsBut s t [R.ETH_STATUS.addr p, R.ETH_ERR.addr p])) ∧
      (∀ f : Frame, s.portLink p = true → s.frameRefused p f = true → Completes (.frameDrop port f) s fun t =>
        t.get F.ETH_RX_FRAMES_COUNT p = (s.get F.ETH_RX_FRAMES_COUNT p + 1) % 2 ^ F.ETH_RX_FRAMES_COUNT.len ∧
        t.get F.ETH_DROPS_COUNT p = min (s.get F.ETH_DROPS_COUNT p + 1) (2 ^ F.ETH_DROPS_COUNT.len - 1) ∧
        t.get F.ETH_FEC_UNCORR_COUNT p = (if f.uncorr then min (s.get F.ETH_FEC_UNCORR_COUNT p + 1) (2 ^ F.ETH_FEC_UNCORR_COUNT.len - 1)
          else s.get F.ETH_FEC_UNCORR_COUNT p) ∧
        t.get F.ETH_FCS_ERRS_COUNT p = (if !f.fcs || f.uncorr then min (s.get F.ETH_FCS_ERRS_COUNT p + 1) (2 ^ F.ETH_FCS_ERRS_COUNT.len - 1)
          else s.get F.ETH_FCS_ERRS_COUNT p) ∧ t.on F.ETH_ERR_DROP p = true ∧ t = { s with regs := t.regs }) ∧
      (∀ f : Frame, s.portLink p = true → s.frameRefused p f = false → unansweredPacket f.packet = true →
        exec (.frameDrop port f) s = .next ((s.put F.ETH_RX_FRAMES_COUNT p (s.get F.ETH_RX_FRAMES_COUNT p + 1)).put F.ETH_ERR_DROP p 1)) ∧
      (s.portLink p = true → ∀ c x (mine count : Bool),
        ((∃ ip : W32, c = .arpRequest port ip ∧ x = SentBody.arp ip ∧ mine = (ip != 0 && ip.toNat == s.get F.ETH_IP4_ADDR p) ∧ count = false) ∨
         (∃ a : BitVec 128, c = .neighbourSolicitation port a ∧ x = .advert a ∧ mine = s.holdsIp6 p a.toNat ∧ count = false) ∨
         (∃ v6 a bs, c = .echoRequest port v6 a bs ∧ x = .echo bs ∧ mine = (s.on F.ETH_CTRL_ECHO_EN p && !count) ∧
           count = !(if v6 then s.holdsIp6 p a.toNat else a != 0 && a.toNat == s.get F.ETH_IP4_ADDR p))) →
        exec c s = .next (let r := s.put F.ETH_RX_FRAMES_COUNT p (s.get F.ETH_RX_FRAMES_COUNT p + 1)
          if mine then ({ r with ktp := { s.ktp with sent := s.ktp.sent ++ [({ port := p, body := x, hdr := s.sentHdr p } : Sent)] } } : State).put F.ETH_TX_FRAMES_COUNT p
            (s.get F.ETH_TX_FRAMES_COUNT p + 1)
          else (if count then r.put F.ETH_DROPS_COUNT p (min (r.get F.ETH_DROPS_COUNT p + 1) (2 ^ F.ETH_DROPS_COUNT.len - 1)) else r).put
            F.ETH_ERR_DROP p 1))) ∧
    (∀ w : W32, let en := s.on F.KTP_CTRL_EN
      (bit w.toNat 0 = true → en = false → s.get F.KTP_RTX_SIZE_MIB = 0 → Completes (.ktpEnable w) s fun t =>
        t.on F.KTP_CTRL_EN = false ∧ t.on F.KTP_ERR_CFG_REFUSED = true ∧ RegsBut s t [R.KTP_CTRL.addr 0, R.KTP_ERR.addr 0]) ∧
      (en = true → bits w.toNat 16 16 ≠ s.get F.KTP_CTRL_UDP_PORT → Completes (.ktpEnable w) s fun t =>
        t.get F.KTP_CTRL_UDP_PORT = s.get F.KTP_CTRL_UDP_PORT ∧ t.on F.KTP_CTRL_EN = bit w.toNat 0 ∧
        t.on F.KTP_ERR_CFG_REFUSED = true ∧ RegsBut s t [R.KTP_CTRL.addr 0, R.KTP_ERR.addr 0]) ∧
      (en = false → s.get F.KTP_RTX_SIZE_MIB ≠ 0 → Completes (.ktpEnable w) s fun t =>
        t.on F.KTP_CTRL_EN = bit w.toNat 0 ∧ t.get F.KTP_CTRL_UDP_PORT = bits w.toNat 16 16 ∧ RegsBut s t [R.KTP_CTRL.addr 0]))

/-- 11 R587 to R602, R607, R615, R634. Where it goes beyond those rules it rests on the model's choices of log entries 67, 68, 69. -/
def Obligations.KtpReceive : Prop :=
  (∀ (a : Sa) (pn q : Nat), a.accepts pn = true →
    (a.took pn).accepts pn = false ∧ (a.accepts q = false → (a.took pn).accepts q = false) ∧
    (∀ t, a.top = some t → q + 1024 < t → a.accepts q = false)) ∧
  (∀ (s : State) (p : KtpRx), s.portLink p.port.val = true → s.on F.KTP_CTRL_EN = true →
    let r := frameIn p.port.val p.corr s
    (ktpCheck p s = .drop → exec (.packetDiscard p) s = .next
      ((r.put F.ETH_DROPS_COUNT p.port.val (min (r.get F.ETH_DROPS_COUNT p.port.val + 1) (2 ^ F.ETH_DROPS_COUNT.len - 1))).put
        F.ETH_ERR_DROP p.port.val 1)) ∧
    (ktpCheck p s = .badTag → exec (.packetDiscard p) s = .next
      ((r.put F.KTP_AUTH_FAILS_COUNT 0 (min (r.get F.KTP_AUTH_FAILS_COUNT + 1) (2 ^ F.KTP_AUTH_FAILS_COUNT.len - 1))).put F.KTP_ERR_AUTH_FAIL 0 1)) ∧
    (ktpCheck p s = .replay → exec (.packetDiscard p) s = .next
      ((r.put F.KTP_REPLAYS_COUNT 0 (min (r.get F.KTP_REPLAYS_COUNT + 1) (2 ^ F.KTP_REPLAYS_COUNT.len - 1))).put F.KTP_ERR_REPLAY 0 1)) ∧
    (ktpCheck p s = .hello → ∀ env,
      ((r.get F.KTP_CRX_PTR_HEAD + 1) % 256 = r.get F.KTP_CRX_PTR_TAIL → exec (.hello p env) s = .next (r.put F.KTP_ERR_CRX_FULL 0 1)) ∧
      ((r.get F.KTP_CRX_PTR_HEAD + 1) % 256 ≠ r.get F.KTP_CRX_PTR_TAIL → Completes (.hello p env) s fun t =>
        t.ktp.hellos.find (r.get F.KTP_CRX_PTR_HEAD) = some (p.port.val, p.peer) ∧
        t.on F.KTP_ERR_CTRL_MSG = true ∧ t.get F.KTP_CRX_PTR_HEAD = (r.get F.KTP_CRX_PTR_HEAD + 1) % 256)) ∧
    (∀ n, ktpCheck p s = .good n →
      let u := ktpAccepted n p r
      let k := p.stream.toNat
      let x := u.sess n
      let st := x.stream k
      (p.kind = 1 → ∀ env,
        (x.takes k = false → exec (.data p env) s = .next (portDrop p.port.val u)) ∧
        (x.takes k = true → (p.seq.toNat < st.cum ∨ (∃ g ∈ st.ahead, g.seq = p.seq.toNat) ∨
            st.cum + (rxWindow k).getD 0 ≤ p.seq.toNat) →
          exec (.data p env) s = .next (sendAcks n (u.modStream n k fun t => { t with ackDue := true }))) ∧
        (x.takes k = true → (¬ ∃ g ∈ st.ahead, g.seq = p.seq.toNat) → st.cum < p.seq.toNat →
          p.seq.toNat < st.cum + (rxWindow k).getD 0 → (¬ ∃ g ∈ st.ahead, g.seq = st.cum) → exec (.data p env) s = .next
            (sendAcks n (u.modStream n k fun t => { t with ahead := t.ahead ++ [{ seq := p.seq.toNat, payload := p.payload }], ackDue := true }))) ∧
        (k = 1 → x.takes 1 = true → x.st ≠ .closed → st.ahead = [] → p.seq.toNat = st.cum → Completes (.data p env) s fun t =>
          (t.sess n).verbs = x.verbs ++ p.payload ∧ ((t.sess n).stream 1).cum = st.cum + 1 ∧
          ((t.sess n).stream 1).ahead = [] ∧ ((t.sess n).stream 1).ackDue = true ∧ t.mem = u.mem ∧ t.regs = u.regs)) ∧
      (p.kind = 1 → p.stream = 0 → p.seq.toNat = st.cum → st.ahead = [] → x.st ≠ .closed → x.confUsed = false →
        let ty := numAt p.payload 0 2
        let body := sub p.payload 4 (numAt p.payload 2 2)
        (ty = 3 → 8 ≤ body.length → 8 ≤ numAt body 0 1 ∨ u.roMapped (numAt body 0 1) n = false → Completes (.grant p) s fun t =>
          t.regs = u.regs ∧ t.ldg = u.ldg) ∧
        (ty = 3 → 8 ≤ body.length → numAt body 0 1 < 8 → u.roMapped (numAt body 0 1) n = true → u.domOn 85 = true →
          Completes (.grant p) s fun t => ∀ j, j < 8 → t.get F.LDG_STR_CREDIT_BYTES j =
            if u.get F.LDG_STR_CTRL_KTP_STREAM j = numAt body 0 1 then min (u.get F.LDG_STR_CREDIT_BYTES j + numAt body 4 4) 0xFFFFFFFF
            else u.get F.LDG_STR_CREDIT_BYTES j) ∧
        (ty = 8 → Completes (.keepalive p) s fun t => ((t.sess n).stream 0).cum = st.cum + 1 ∧ t.regs = u.regs ∧ t.mem = u.mem) ∧
        (ty = 1 → x.st = .opening → 16 ≤ body.length → bit (numAt body 0 4) 0 = false → Completes (.accept p) s fun t =>
          (t.sess n).st = .closed ∧ t.on F.KTP_ERR_SESSION_CLOSED = true) ∧
        (ty = 7 → u.crxFull = false → ∀ env, Completes (.close p env) s fun t => (t.sess n).st = .closed ∧
          t.on F.KTP_ERR_SESSION_CLOSED = true ∧ t.on F.KTP_ERR_CTRL_MSG = true) ∧
        (ty = 4 → x.st = .opened → 129 ≤ body.length → (x.assoc (!x.sa)).key = none → (x.assoc x.sa).tx < 2 ^ 62 → st.waiting = [] →
          Completes (.rekey p) s fun t => (t.sess n).st = .opened ∧ (t.sess n).sa = !x.sa ∧
            ((t.sess n).assoc (!x.sa)).key ≠ none ∧ ((t.sess n).assoc (!x.sa)).tx = 0) ∧
        (0x8000 ≤ ty → (u.crxFull = true → ∀ env, exec (.userControlMessage p env) s = .next (u.put F.KTP_ERR_CRX_FULL 0 1)) ∧
          (u.crxFull = false → ∀ env, Completes (.userControlMessage p env) s fun t =>
            t.on F.KTP_ERR_CTRL_MSG = true ∧ ((t.sess n).stream 0).cum = st.cum + 1))) ∧
      (p.kind = 2 → p.payload.length = 48 → exec (.ack p) s = .next (pumpSess n (ackIn n p.pn.toNat p.payload u))))) ∧
  (∀ (s : State) (n pn : Nat) (e : List Byte), let k := numAt e 0 1
    let cum := numAt e 8 8
    let st := (s.sess n).stream k
    let covered (g : Seg) : Bool := decide (g.seq < cum) || (decide (g.seq < cum + 256) && bit (numAt e 16 32) (g.seq - cum))
    st.waiting = [] → numAt e 16 32 = 0 →
    (((ackIn n pn e s).sess n).stream k).unacked = st.unacked.filter (fun g => !covered g) ∧
    (((ackIn n pn e s).sess n).stream k).limit =
      (if st.ackPn = none ∨ (∃ q, st.ackPn = some q ∧ q < pn) then cum + numAt e 2 2 else st.limit) ∧
    (ackIn n pn e s).regs = s.regs)

/-- 11 R590 to R606, R619, R630, R631, R635. Where it goes beyond those rules it rests on the model's choices of log entries 68, 69, 70, 71, 72. -/
def Obligations.KtpSend : Prop :=
  (∀ (s : State) (n kind k seq : Nat) (rs : Bool) (bs : List Byte), let x := s.sess n
    (x.st = .opening ∨ x.st = .opened) → (x.assoc x.sa).tx < 2 ^ 62 →
    let t := sendPkt n kind k seq rs bs s
    t.ktp.sent = s.ktp.sent ++ [{ port := x.port, peer := some x.peer, body := .ktp kind x.sa rs k x.id (x.assoc x.sa).tx seq bs, hdr := s.sentHdr x.port }] ∧
    ((t.sess n).assoc x.sa).tx = (x.assoc x.sa).tx + 1 ∧ (t.sess n).streams = x.streams ∧ (∀ m, m ≠ n → t.sess m = s.sess m) ∧
    RegsBut s t [R.ETH_TX_FRAMES.addr x.port]) ∧
  (∀ (s : State) (n k : Nat), k ≠ 0 → ((pumpOne n k s).sess n).st ≠ .closed →
    let a := (s.sess n).stream k
    let b := ((pumpOne n k s).sess n).stream k
    ∃ m, a.waiting = m ++ b.waiting ∧ b.unacked = a.unacked ++ m ∧ ∀ g ∈ m, g.seq < a.limit) ∧
  (∀ (s : State) n k rs bs, ((s.sess n).stream k).next < 2 ^ 64 → let b := ((queueSeg n k rs bs s).sess n).stream k
    b.next = ((s.sess n).stream k).next + 1 ∧
    b.waiting = ((s.sess n).stream k).waiting ++ [{ seq := ((s.sess n).stream k).next, recStart := rs, payload := bs }]) ∧
  (∀ (m : Nat) (first : Bool) (bs : List Byte), 0 < m → let cuts := cutChunk (bs.length + 1) m first bs
    (cuts.map (·.2)).flatten = bs ∧ (∀ c ∈ cuts, c.2.length ≤ m ∧ c.2 ≠ []) ∧
    (∀ i c, cuts[i]? = some c → c.1 = (first && i == 0))) ∧
  (∀ (s : State) k f bs l e1 e2, s.ktp.hand = (k, f, bs) :: l →
    (∀ n, s.roSession k = some n → exec (.chunkTake e1 e2) s = .next
      (pumpOne n (16 + k) (((cutChunk (bs.length + 1) (max 1 (s.segMax (s.sess n))) f bs).foldl
        (fun v c => queueSeg n (16 + k) c.1 c.2 v) ({ s with ktp := { s.ktp with hand := l } } : State))))) ∧
    (s.roSession k = none → Completes (.chunkTake e1 e2) s fun t => t.ktp.hand = l ∧ t.on F.KTP_ERR_DATA_LOST = true ∧
      t.get F.KTP_LOST_BYTES_COUNT = min (s.get F.KTP_LOST_BYTES_COUNT + bs.length) (2 ^ F.KTP_LOST_BYTES_COUNT.len - 1))) ∧
  (∀ (s : State) (slot : SlotId), let n := slot.val
    let shut (t : State) : Prop := (t.sess n).st = .closed ∧ (t.sess n).streams = [] ∧ t.on F.KTP_ERR_SESSION_CLOSED = true ∧
      ∀ m, m ≠ n → t.sess m = s.sess m
    (∀ (k : Byte) (q : W64) g, (s.sess n).st = .opened → (((s.sess n).stream k.toNat).unacked.find? fun h => h.seq == q.toNat) = some g →
      (g.again < max 1 (s.get F.KTP_RTX_MAX_TRIES) → ((s.sess n).assoc (s.sess n).sa).tx < 2 ^ 62 →
        Completes (.retransmitTimeout slot k q) s fun t => (∃ a, t.ktp.sent = s.ktp.sent ++ [a] ∧
          a.body = .ktp 1 (s.sess n).sa g.recStart k.toNat (s.sess n).id ((s.sess n).assoc (s.sess n).sa).tx g.seq g.payload) ∧
          t.get F.KTP_RETRANSMITS_COUNT = min (s.get F.KTP_RETRANSMITS_COUNT + 1) (2 ^ F.KTP_RETRANSMITS_COUNT.len - 1)) ∧
      (max 1 (s.get F.KTP_RTX_MAX_TRIES) ≤ g.again → exec (.retransmitTimeout slot k q) s = .next (sessLinkLost n s))) ∧
    (∀ w : W32, bit w.toNat 0 = true → (s.sess n).st ≠ .closed → (s.sess n).confUsed = false → Completes (.sessionCloseWrite slot w) s fun t =>
      (t.sess n).st = .closed ∧ t.on F.KTP_ERR_SESSION_CLOSED = true) ∧
    ((s.sess n).st = .opening → (s.sess n).confUsed = false → Completes (.openingTimeout slot) s shut) ∧
    ((s.sess n).st = .held → (s.sess n).confUsed = false → s.portLink (s.sess n).port = false → Completes (.holdTimeout slot) s shut) ∧
    ((s.sess n).st = .opened → exec (.keepaliveTimer slot) s = .next (pumpOne n 0 (queueSeg n 0 false (natBytes 8 2 ++ natBytes 0 2) s))) ∧
    ((∀ e ∈ (s.sess n).streams, e.2.ackDue = false) → exec (.ackDelay slot) s = .next s) ∧
    (∀ k st, (s.sess n).st = .opening ∨ (s.sess n).st = .opened → (s.sess n).streams = [(k, st)] → st.ackDue = true → exec (.ackDelay slot) s = .next
      (sendPkt n 2 0 0 false (ackEntry k st) (s.modStream n k fun t => { t with ackDue := false }))) ∧
    ((s.sess n).st ≠ .closed → s.power.asleep = false →
      (∀ env, verbFront (s.sess n).verbs = none → exec (.verbRead slot env) s = .next s ∧ exec (.verbWrite slot env) s = .next s ∧
        exec (.badVerb slot) s = .next s) ∧
      (∀ v, verbFront (s.sess n).verbs = some v →
        let rest := s.modSess n fun y => { y with verbs := y.verbs.drop (verbSize v.op v.len) }
        (verbGood v = false → exec (.badVerb slot) s = .next (verbSend n (verbReply v 2 []) rest)) ∧
        (verbGood v = true → v.op = 1 → ∀ env, exec (.verbRead slot env) s = .next
          (let a := sandRead { ini := 0x4A } v.addr (v.len + 1) env rest
           verbSend n (verbReply v a.1.resp.code (if hasData a.1.resp then a.1.bytes else [])) a.2)) ∧
        (verbGood v = true → v.op = 2 → ∀ env, exec (.verbWrite slot env) s = .next
          (let a := sandWrite { ini := 0x4A } v.addr v.data false env rest
           verbSend n (verbReply v a.1.code []) a.2))))) ∧
  (∀ (s : State) env, (s.on F.KTP_CTRL_EN = false ∨ s.get F.KTP_CTX_PTR_HEAD = s.get F.KTP_CTX_PTR_TAIL → exec (.controlRingSend env) s = .next s) ∧
    (s.on F.KTP_CTRL_EN = true → s.get F.KTP_CTX_PTR_HEAD = (s.get F.KTP_CTX_PTR_TAIL + 1) % 256 →
      exec (.controlRingSend env) s = .next (ctxSend env s)))

/-- 12 R643 to R648, R670, R674. Where it goes beyond those rules it rests on the model's choices of log entries 74, 75, 77. -/
def Obligations.ConfigRestartAndFailure : Prop :=
  (∀ (s : State) (cause : RestartCause) (mode : BitVec 3) (id : BitVec 4),
    let m := if cause = .software then s.get F.CFG_STATUS_MODE else mode.toNat
    let d := if cause = .software then s.get F.CFG_STATUS_ID else id.toNat
    Completes (.configRestart cause mode id) s fun t =>
      t.get F.CFG_STATUS_STATE = 0 ∧ t.cfg.blanking = true ∧ (∀ b, b < 64 → t.fenced b = true) ∧ t.fabric.frames = [] ∧
      t.fabric.hold = true ∧ t.fabric.released = [] ∧ t.brams = [] ∧ t.fifos = [] ∧
      (∀ b i, (t.slice b i).run = .halted) ∧ t.cfg.seqs = [] ∧
      t.get F.CFG_STATUS_MODE = m ∧ t.get F.CFG_STATUS_ID = d ∧ t.mem = s.mem ∧
      (m < 4 → t.cfg.failed = false ∧ t.rd R.CFG_CAUSE = 0 ∧ t.rd R.CFG_IMAGE_ID = 0 ∧ t.rd R.CFG_USERCODE = 0 ∧
        t.rd R.CFG_LOADED = 0 ∧ t.rd R.CFG_ANCHOR = 0) ∧
      (4 ≤ m → t.cfg.failed = true ∧ t.get F.CFG_CAUSE_CODE = 1 ∧ t.on F.CFG_ERR_LOAD_FAIL = true)) ∧
  (∀ s : State, exec .nprogLow s = .next { cfgRestart .software 0 0 s with cfg := { (cfgRestart .software 0 0 s).cfg with nprog := true } }) ∧
  (∀ s : State, (s.cfg.blanking = false ∨ s.cfg.nprog = true → exec .blankingDone s = .next s) ∧
    (s.cfg.blanking = true → s.cfg.nprog = false → Completes .blankingDone s fun t => t.cfg.blanking = false ∧
      t.get F.CFG_STATUS_STATE = (if s.cfg.failed then 6 else 1) ∧
      t.cfg.load.phase = (if s.cfg.failed then s.cfg.load.phase else .sync) ∧
      t = { s with regs := t.regs, cfg := t.cfg } ∧ RegsBut s t [R.CFG_STATUS.addr 0])) ∧
  (∀ (s : State) (src : CfgSrc), s.get F.CFG_STATUS_STATE = 1 → s.cfg.load.phase = .sync →
    (s.srcSelected src = false → exec (.syncWord src) s = .next s) ∧
    (s.srcSelected src = true → Completes (.syncWord src) s fun t => t.get F.CFG_STATUS_STATE = 2 ∧
      t.cfg = { s.cfg with load := { s.cfg.load with phase := .header, words := 0 } } ∧
      t.get F.CFG_STATUS_SRC = (match src with | .bus => 0 | .ktp => 1 | .debug => 2) ∧
      t = { s with regs := t.regs, cfg := t.cfg } ∧ RegsBut s t [R.CFG_STATUS.addr 0])) ∧
  (∀ (s : State) (h : List Byte) c, s.get F.CFG_STATUS_STATE = 2 → s.cfg.load.phase = .header → h.length = 512 →
    headerFail imageMagic s.deviceId s.fuses h = some c → s.cfg.load.words + 128 < 2 ^ 31 → Completes (.imageHeader h) s fun t =>
      t.get F.CFG_CAUSE_CODE = c ∧ t.get F.CFG_CAUSE_BLOCK = 0xFFFFFF ∧
      t.get F.CFG_CAUSE_WORD_WORD = s.cfg.load.words + 128 ∧ t.on F.CFG_ERR_LOAD_FAIL = true ∧ t.on F.CFG_STATUS_ERR_OUT = true ∧
      t.on F.CFG_STATUS_DONE_OUT = false ∧ t.cfg.failed = true ∧ t.get F.CFG_STATUS_STATE = 0 ∧ t.fabric.frames = [] ∧
      t.cfg.load.stream = [] ∧ ∀ b, b < 64 → t.fenced b = true) ∧
  (∀ (magic id : Nat) (fz : Fuses) (h : List Byte), headerFail magic id fz h = none →
    numAt h 0 4 = magic ∧ numAt h 4 2 = 1 ∧ numAt h 8 4 = 0x296410F3 ∧ bit (numAt h 12 2) id = true ∧ numAt h 6 1 < 4 ∧
    bit fz.authPresent.toNat (numAt h 6 1) = true ∧ bit fz.authRevoked.toNat (numAt h 6 1) = false ∧
    Config.p384Verify (sub h 80 97) (Config.sha384 (sub h 0 416)) (sub h 416 96) = true) ∧
  (∀ s : State, Completes .doneFell s fun t => t.on F.CFG_STATUS_DONE_IN = false ∧ t.cfg = { s.cfg with doneHigh := false } ∧
    t.on F.CFG_ERR_DONE_FELL = (s.on F.CFG_ERR_DONE_FELL || s.on F.CFG_STATUS_STARTED) ∧
    t = { s with regs := t.regs, cfg := t.cfg } ∧ RegsBut s t [R.CFG_STATUS.addr 0, R.CFG_ERR.addr 0])

/-- 12 R650 to R665. Where it goes beyond those rules it rests on the model's choices of log entries 73, 74, 75. -/
def Obligations.ConfigBlocksAndPackets : Prop :=
  (∀ (s : State) (h : List Byte), s.get F.CFG_STATUS_STATE = 2 → s.cfg.load.phase = .header → h.length = 512 →
    headerFail imageMagic s.deviceId s.fuses h = none → s.cfg.load.stream = [] → Completes (.imageHeader h) s fun t =>
      t.cfg = { s.cfg with load := { s.cfg.load with
        phase := .blocks, words := s.cfg.load.words + 128, buf := [], expect := sub h 32 48, salt := sub h 24 4, ekey := numAt h 7 1, imageId := BitVec.ofNat 64 (numAt h 16 8) } } ∧
      t.get F.CFG_STATUS_STATE = 3 ∧ t.get F.CFG_IMAGE_ID_ID = numAt h 16 8 ∧ t = { s with regs := t.regs, cfg := t.cfg } ∧
      RegsBut s t [R.CFG_STATUS.addr 0, R.CFG_IMAGE_ID.addr 0]) ∧
  (∀ (s : State) (len : W32) (body tag : List Byte), s.get F.CFG_STATUS_STATE = 3 → s.cfg.load.phase = .blocks →
    let l := s.cfg.load
    let bad (words : Nat) : LoadFail := ⟨6, l.block, words, none⟩
    (lenOk len.toNat = false → exec (.block len body tag) s = .next (cfgFail (bad (l.words + 1)) s)) ∧
    (lenOk len.toNat = true → l.ekey = 0 → body.length = len.toNat → tag = [] →
      (Config.sha384 (natBytes len.toNat 4 ++ body ++ []) ≠ l.expect →
        exec (.block len body tag) s = .next (cfgFail (bad (l.words + (1 + len.toNat / 4))) s)) ∧
      (Config.sha384 (natBytes len.toNat 4 ++ body ++ []) = l.expect →
        let next := sub body (len.toNat - 48) 48
        exec (.block len body tag) s = .next (cfgSettle { s with cfg := { s.cfg with load := { l with
          words := l.words + (1 + len.toNat / 4), block := l.block + 1, buf := [], expect := next, last := next.all (· == 0)
          phase := if next.all (· == 0) then .ended else .blocks
          stream := l.stream ++ (bytesWords (body.take (len.toNat - 48))).zipIdx.map fun e => (l.block, l.words + 2 + e.2, e.1) } } })))) ∧
  (∀ (mask : W16) (code : Nat) (h c a b : Placed) (l : List Placed), code = 0x10 ∨ code = 0x11 ∨ code = 0x30 →
    h.2.2.toNat = 2 ^ 28 + code * 2 ^ 20 + mask.toNat → c.2.2 = 2 →
    frontPacket false (h :: c :: a :: b :: l) = .pkt 1 code mask.toNat h c [a, b] ∧
    frontPacket false [h, c, a] = .more ∧ frontPacket false [h] = .more ∧
    (∀ d : Placed, d.2.2 ≠ 2 → frontPacket false (h :: d :: l) = .bad d) ∧
    (∀ g : Placed, g.2.2.toNat / 2 ^ 28 = 0 ∨ 5 ≤ g.2.2.toNat / 2 ^ 28 → g.2.2 ≠ 0 → frontPacket false (g :: l) = .bad g)) ∧
  (∀ s : State, s.get F.CFG_STATUS_STATE = 3 →
    let l := s.cfg.load
    let took (n : Nat) : State := { s with cfg := { s.cfg with load := { l with
      stream := l.stream.drop n, crc := crcCWords l.crc ((l.stream.take n).map fun (e : Placed) => e.2.2) } } }
    let unchecked (t : State) : State := { t with cfg := { t.cfg with load := { t.cfg.load with checked := false } } }
    (frontPacket false l.stream = .nop → exec .nopPacket s = .next (cfgSettle (took 1))) ∧
    (∀ w, frontPacket false l.stream = .bad w → exec .nopPacket s = .next s ∧ cfgSettle s = cfgFail ⟨10, w.1, w.2.1, none⟩ s) ∧
    (∀ code mask h c p, frontPacket false l.stream = .pkt 1 code mask h c p →
      (bit mask s.deviceId = false → exec .writePacket s = .next (cfgSettle (took (2 + p.length)))) ∧
      (bit mask s.deviceId = true → code = 0x11 → exec .writePacket s = .next (cfgSettle ((unchecked (took (2 + p.length))).put
        F.CFG_ANCHOR_BAYS 0 (((p.map fun (e : Placed) => e.2.2).getD 0 0).toNat + ((p.map fun (e : Placed) => e.2.2).getD 1 0).toNat * 2 ^ 32)))) ∧
      (bit mask s.deviceId = true → 0x12 ≤ code → code ≠ 0x30 → exec .writePacket s = .next (cfgSettle
        (let u := unchecked (took (2 + p.length))
         { u with cfg := { u.cfg with regs := s.cfg.regs.set code (p.map fun (e : Placed) => e.2.2) } })))) ∧
    (∀ code mask h c a p, frontPacket false l.stream = .pkt 2 code mask h c (a :: p) → bit mask s.deviceId = true →
      p.length = 128 → farValid a.2.2.toNat = true → exec .frames s = .next (cfgSettle (storeFrame a.2.2.toNat (p.map fun (e : Placed) => e.2.2)
        (unchecked (took 131))))) ∧
    (∀ code mask h c w, frontPacket false l.stream = .pkt 3 code mask h c [w] →
      (l.crc ^^^ 0xFFFFFFFF#32 = w.2.2 → exec .check s = .next (cfgSettle { s with cfg := { s.cfg with load := { l with
        stream := l.stream.drop 3, crc := 0xFFFFFFFF, checked := true } } })) ∧
      (l.crc ^^^ 0xFFFFFFFF#32 ≠ w.2.2 → exec .check s = .next (cfgSettle (cfgFail ⟨8, w.1, w.2.1, none⟩ s)))))

/-- 12 R664 to R679. Where it goes beyond those rules it rests on the model's choices of log entries 75, 76. -/
def Obligations.ConfigStart : Prop :=
  ∀ s : State,
    (∀ code mask h c p, s.get F.CFG_STATUS_STATE = 3 → frontPacket false s.cfg.load.stream = .pkt 4 code mask h c p →
      let u := cfgDrop (.pkt 4 code mask h c p) s
      (bit mask s.deviceId = false → exec .start s = .next (cfgSettle u)) ∧
      (bit mask s.deviceId = true →
        (s.cfg.load.checked = false → exec .start s = .next (cfgSettle (cfgFail ⟨12, h.1, h.2.1, none⟩ u))) ∧
        (s.cfg.load.checked = true → s.badSeq = true → exec .start s = .next (cfgSettle (cfgFail ⟨11, h.1, h.2.1, none⟩ u))) ∧
        (s.cfg.load.checked = true → s.badSeq = false → Completes .start s fun t =>
          t.get F.CFG_STATUS_STATE = 4 ∧ t.on F.CFG_STATUS_DONE_OUT = true ∧ t.cfg.load.phase = .idle ∧ t.cfg.load.stream = [] ∧
          (∀ b, b < 64 → s.loadedBay b = true → s.bayPowered b = true → t.bayState b = 3) ∧
          (∀ k, k < 9 → (t.cfg.seqs.find k = some {} ↔ s.seqUsed k = true)) ∧ t.mem = s.mem))) ∧
    (s.on F.CFG_STATUS_DONE_OUT = true →
      (s.get F.CFG_STATUS_STATE ≠ 4 → exec .confDoneHigh s = .next
        ({ s with cfg := { s.cfg with doneHigh := true } }.put F.CFG_STATUS_DONE_IN 0 1)) ∧
      (s.get F.CFG_STATUS_STATE = 4 → Completes .confDoneHigh s fun t => t.get F.CFG_STATUS_STATE = 5 ∧
        t.on F.CFG_STATUS_STARTED = true ∧ t.on F.CFG_ERR_STARTED = true ∧ t.on F.CFG_STATUS_DONE_IN = true ∧
        t.fabric.hold = false ∧ (∀ b ∈ s.defaultBays, b ∈ t.fabric.outReleased ∧ b ∈ t.fabric.holdReleased ∧
          (s.loadedBay b = true → b ∈ t.fabric.weReleased)))) ∧
    (s.on F.CFG_STATUS_DONE_OUT = false → exec .confDoneHigh s = .next s) ∧
    (∀ (k : Fin 9) (q : Seq), s.cfg.seqs.find k.val = some q →
      let w := s.seqStep k.val q.step
      (s.stepHolds q w = false → exec (.sequenceStep k) s = .next s) ∧
      (s.stepHolds q w = true → bits w 0 3 = 0 → bit w 3 = false → exec (.sequenceStep k) s = .next
        { s with cfg := { s.cfg with seqs := s.cfg.seqs.set k.val { step := q.step + 1 } } }) ∧
      (s.stepHolds q w = true → bits w 0 3 = 0 → bit w 3 = true → Completes (.sequenceStep k) s fun t =>
        t.cfg = { s.cfg with seqs := s.cfg.seqs.erase k.val } ∧ bit (t.get F.CFG_SEQ_STATUS_DONE) k.val = true ∧
        (∀ j, j < 9 → j ≠ k.val → bit (t.get F.CFG_SEQ_STATUS_DONE) j = bit (s.get F.CFG_SEQ_STATUS_DONE) j) ∧
        t.on F.CFG_ERR_SEQ_DONE = true ∧ RegsBut s t [R.CFG_SEQ_STATUS.addr 0, R.CFG_ERR.addr 0]) ∧
      (s.stepHolds q w = true → bit w 2 = true → Completes (.sequenceStep k) s fun t => ∀ b ∈ s.seqBays k.val, b ∈ t.fabric.weReleased) ∧
      (s.seqStep k.val 8 ≠ 0 → Completes (.seqTimeout k) s fun t => t.cfg = { s.cfg with seqs := s.cfg.seqs.erase k.val } ∧
        bit (t.get F.CFG_SEQ_STATUS_TIMEOUT) k.val = true ∧ t.on F.CFG_ERR_SEQ_TIMEOUT = true ∧
        RegsBut s t [R.CFG_SEQ_STATUS.addr 0, R.CFG_ERR.addr 0]) ∧
      (s.seqStep k.val 8 = 0 → exec (.seqTimeout k) s = .next s) ∧
      (∀ v : W32, Completes (.seqGo v) s fun t => t.cfg.seqs.find k.val = some (if bit v.toNat k.val then { q with go := true } else q) ∧
        t = { s with cfg := { s.cfg with seqs := t.cfg.seqs } })) ∧
    (∀ ws : List Nat, seqBad ws = false → ∃ n, n < 8 ∧ bit (ws.getD n 0) 3 = true ∧
      (∀ i, i < n → bit (ws.getD i 0) 3 = false) ∧
      ∀ r, r < 3 → ∃ i, i ≤ n ∧ bit (ws.getD i 0) r = true ∧ ∀ j, j ≤ n → bit (ws.getD j 0) r = true → j = i)

/-- 13 R683 to R692. Where it goes beyond those rules it rests on the model's choices of log entry 78. -/
def Obligations.BayFencing : Prop :=
  ∀ s : State,
    (∀ (bay : BayId) (w : W32), let b := bay.val
      (s.fenced b = false → bit w.toNat 1 = false → Completes (.bayFence bay w .none) s fun t =>
        t.fenced b = true ∧ (∀ c, c < 64 → c ≠ b → t.fenced c = s.fenced c) ∧ t.get F.FEN_BAY_STATUS_BY b = 0 ∧
        t.on F.FEN_BAY_EVT_ENTRY b = true ∧ t.bayState b = (if s.bayState b = 4 then 3 else s.bayState b) ∧
        t.on F.FEN_BAY_EVT_REFUSED b = s.on F.FEN_BAY_EVT_REFUSED b ∧
        (∀ i, (t.slice b i).run ≠ .running ∧ (t.slice b i).run ≠ .waiting) ∧ (∀ c i, c ≠ b → t.slice c i = s.slice c i) ∧
        t.fabric.frames = s.fabric.frames ∧ t.mem = s.mem ∧
        RegsBut s t [R.FEN_FENCED.addr 0, R.FEN_BAY_CTRL.addr b, R.FEN_BAY_STATUS.addr b, R.FEN_BAY_EVT.addr b]) ∧
      (s.fenced b = true → bit w.toNat 1 = false → Completes (.bayFence bay w .none) s fun t =>
        t = { s with regs := t.regs } ∧ RegsBut s t [R.FEN_BAY_CTRL.addr b] ∧ t.get F.FEN_BAY_CTRL_HOLD b = bits w.toNat 2 1 ∧
        t.get F.FEN_BAY_CTRL_AUTO_REOPEN b = bits w.toNat 3 1) ∧
      (bit w.toNat 1 = true → Completes (.bayFence bay w .none) s fun t => t.fenced b = true ∧ t.on F.FEN_BAY_EVT_REFUSED b = true) ∧
      (bit w.toNat 0 = false →
        (s.bayState b = 3 → s.fenced b = true → s.slabFenced (b / 16) = false → s.pgr.icp = [] → s.pgr.run = none →
          Completes (.unfence bay w .none) s fun t => t.fenced b = false ∧ t.bayState b = 4 ∧ t.on F.FEN_BAY_EVT_RELEASE b = true ∧
            (∀ c, c < 64 → c ≠ b → t.fenced c = s.fenced c ∧ t.bayState c = s.bayState c) ∧ t.fabric.frames = s.fabric.frames ∧
            t.mem = s.mem ∧ RegsBut s t [R.FEN_FENCED.addr 0, R.FEN_BAY_CTRL.addr b, R.FEN_BAY_STATUS.addr b, R.FEN_BAY_EVT.addr b]) ∧
        ((s.bayState b ≠ 3 ∨ s.slabFenced (b / 16) = true ∨ s.bayTaken b = true) → ∀ o, Completes (.unfence bay w o) s fun t =>
          t.on F.FEN_BAY_EVT_REFUSED b = (s.on F.FEN_BAY_EVT_REFUSED b || !(o == .unfenceInRelease && s.bayState b == 4)) ∧ t.fenced b = s.fenced b ∧ t.bayState b = s.bayState b ∧ t = { s with regs := t.regs } ∧
          RegsBut s t [R.FEN_BAY_CTRL.addr b, R.FEN_BAY_EVT.addr b]))) ∧
    (∀ (w : W32) (k : Nat), k < 4 → w.toNat % 16 = 2 ^ k → (∀ j, j < 4 → j ≠ k → s.slabFenced j = false) → s.slabFenced k = false →
      s.pgr.icp = [] → s.pgr.run = none → Completes (.slabFence w) s fun t => t.slabFenced k = true ∧
        (∀ j, j < 4 → j ≠ k → t.slabFenced j = false) ∧ (∀ b, b < 64 → b / 16 = k → t.fenced b = true) ∧
        (∀ b, b < 64 → b / 16 ≠ k → t.fenced b = s.fenced b ∧ t.bayState b = s.bayState b) ∧
        (∀ b, b < 64 → b / 16 = k → t.bayState b = if s.fenced b = false ∧ s.bayState b = 4 then 3 else s.bayState b)) ∧
    (∀ (w : W32) (k : Nat), k < 4 → w.toNat % 16 = 0 → (∀ j, j < 4 → (s.slabFenced j = true ↔ j = k)) →
      (s.railUp k = true → Completes (.slabUnfence w) s fun t => (∀ j, j < 4 → t.slabFenced j = false) ∧
        (∀ b, b < 64 → t.fenced b = s.fenced b ∧ t.bayState b = s.bayState b) ∧
        t = { s with regs := t.regs, qtz := t.qtz } ∧ RegsBut s t [R.FEN_SLAB_CTRL.addr 0, R.FEN_SLAB_STATUS.addr 0]) ∧
      (s.railUp k = false → Completes (.slabUnfence w) s fun t => t.slabFenced k = true ∧ t.qtz = s.qtz))

/-- 13 R686, R694 to R700, R718 to R723. Where it goes beyond those rules it rests on the model's choices of log entries 83, 84. -/
def Obligations.IcpAndScrub : Prop :=
  ∀ (s : State) (slab : Fin 4), let k := slab.val
    (∀ w : W32, let b := w.toNat % 64
      bit w.toNat 9 = false →
      (b / 16 = k → s.bayPowered b = false → Completes (.icpArm slab w) s fun t => t.ans.resp = .poweredDown ∧ t.pgr = s.pgr ∧
        t.fenced b = s.fenced b ∧ t.bayState b = s.bayState b) ∧
      (b / 16 ≠ k ∨ (s.bayPowered b = true ∧ (s.get F.PGR_ICP_STATUS_STATE k ≠ 0 ∨ s.anchorBay b = true ∨ s.bayState b = 5)) →
        Completes (.icpArm slab w) s fun t => t.get F.PGR_ICP_STATUS_CAUSE k = 15 ∧ t.pgr = s.pgr ∧
          RegsBut s t [R.PGR_ICP_CTRL.addr k, R.PGR_ICP_STATUS.addr k]) ∧
      (b / 16 = k → s.bayPowered b = true → s.get F.PGR_ICP_STATUS_STATE k = 0 → s.anchorBay b = false → s.bayState b ≠ 5 →
        Completes (.icpArm slab w) s fun t => t.fenced b = true ∧ t.bayState b = 1 ∧ t.windowFrames b = [] ∧ b ∈ t.pgr.holds ∧
          t.get F.PGR_ICP_STATUS_STATE k = 1 ∧ t.get F.PGR_ICP_STATUS_CAUSE k = 0 ∧ t.get F.PGR_ICP_STATUS_FRAMES k = 0 ∧
          t.pgr.icp.find k = some { bay := b, load := { phase := .sync } } ∧
          (∀ c, c ≠ b → t.windowFrames c = s.windowFrames c) ∧ (∀ c, c < 64 → c ≠ b → t.bayState c = s.bayState c ∧ t.fenced c = s.fenced c))) ∧
    (∀ (off : BitVec 12) (data : List Byte),
      (off.toNat % 4 ≠ 0 ∨ data.length % 4 ≠ 0 ∨ data = [] → exec (.icpDataWrite slab off data) s = .next (s.answer .size)) ∧
      (off.toNat % 4 = 0 → data.length % 4 = 0 → data ≠ [] → s.pgr.icp.find k = none →
        exec (.icpDataWrite slab off data) s = .next (s.answer .okay)) ∧
      (∀ i, off.toNat % 4 = 0 → data.length = 4 → s.pgr.icp.find k = some i → i.load.phase = .sync → i.load.stream = [] →
        let j := if bytesWords data = [syncWord] then { i with load := { i.load with phase := .header, words := 0 } } else i
        exec (.icpDataWrite slab off data) s = .next { s.answer .okay with pgr := { s.pgr with icp := s.pgr.icp.set k j } })) ∧
    (∀ (w : W32) i, s.pgr.icp.find k = some i → bit w.toNat 8 = false → i.bay < 64 → Completes (.icpAbort slab w) s fun t =>
      t.bayState i.bay = 2 ∧ t.on F.PGR_ICP_EVT_FAIL k = true ∧ t.get F.PGR_ICP_STATUS_STATE k = 0 ∧
      t.on F.FEN_BAY_EVT_INCOMPLETE i.bay = true ∧ t.get F.PGR_ICP_STATUS_CAUSE k = 14 ∧ t.pgr.icp.find k = none ∧ i.bay ∉ t.pgr.holds) ∧
    (∀ i h c mask, s.pgr.icp.find k = some i → i.bay < 64 →
      (frontPacket true i.load.stream = .bad h → let t := icpPackets 1 k s
        t.bayState i.bay = 2 ∧ t.on F.PGR_ICP_EVT_FAIL k = true ∧ t.pgr.icp.find k = none) ∧
      (frontPacket true i.load.stream = .pkt 4 1 mask h c [] → bit mask s.deviceId = true →
        (i.load.checked = false → let t := icpPackets 1 k s
          t.bayState i.bay = 2 ∧ t.get F.PGR_ICP_STATUS_CAUSE k = 12 ∧ t.on F.PGR_ICP_EVT_FAIL k = true) ∧
        (i.load.checked = true → let t := icpPackets 1 k s
          t.bayState i.bay = 3 ∧ t.on F.FEN_BAY_STATUS_GOLDEN i.bay = false ∧ t.on F.PGR_ICP_EVT_DONE k = true ∧
          t.pgr.icp.find k = none))) ∧
    (∀ u v, let a := s.scrubAt k
      let flaw := s.fabric.frameFlaw.get .none a
      let keep (f : Flaw) (t : State) : State := { t with fabric := { t.fabric with
        frameFlaw := if f = Flaw.none then t.fabric.frameFlaw.erase a else t.fabric.frameFlaw.set a f } }
      (s.on F.SCB_CTRL_EN k = false → exec (.scrubFrameRead slab u v) s = .next s) ∧
      (s.on F.SCB_CTRL_EN k = true → s.scrubReads k a = false → exec (.scrubFrameRead slab u v) s = .next (scrubMove k s)) ∧
      (s.on F.SCB_CTRL_EN k = true → s.scrubReads k a = true →
        (flaw = .none → exec (.scrubFrameRead slab .none v) s = .next (keep .none (scrubMove k s))) ∧
        (flaw = .single → Completes (.scrubFrameRead slab .none v) s fun t => t.fabric.frameFlaw.get .none a = .none ∧
          t.get F.SCB_CORRECTED_COUNT k = min (s.get F.SCB_CORRECTED_COUNT k + 1) 0xFFFFFFFF ∧ t.on F.SCB_ERR_CORRECTED k = true ∧
          t.fabric.frames = s.fabric.frames ∧ RegsBut s t [R.SCB_STATUS.addr k, R.SCB_CORRECTED.addr k, R.SCB_ERR.addr k]) ∧
        (flaw = .none → Completes (.scrubFrameRead slab .glitch .none) s fun t => t.fabric.frameFlaw.get .none a = .none ∧
          t.get F.SCB_UE_TRANSIENT k = min (s.get F.SCB_UE_TRANSIENT k + 1) 0xFFFF ∧ t.on F.SCB_ERR_TRANSIENT k = true ∧
          t.fabric.frames = s.fabric.frames ∧ RegsBut s t [R.SCB_STATUS.addr k, R.SCB_UE.addr k, R.SCB_ERR.addr k]) ∧
        (flaw = .double → exec (.scrubFrameRead slab .none .none) s =
          .next (scrubRepair k a (scrubLasting k a (keep .double (scrubMove k s))))))) ∧
    (∀ a, (let t := scrubLasting k a s
      t.get F.SCB_UE_LASTING k = min (s.get F.SCB_UE_LASTING k + 1) 0xFFFF ∧ t.on F.SCB_ERR_LASTING k = true ∧
      (s.on F.SCB_LOG_VALID k = false → a < 2 ^ 32 → (t.rd R.SCB_LOG k).toNat = a + 2 ^ 63) ∧
      (s.on F.SCB_LOG_VALID k = true → t.rd R.SCB_LOG k = s.rd R.SCB_LOG k)) ∧
      (∀ b, farBay a = some b → b < 64 → s.bayState b = 0 ∨ s.bayState b = 6 → scrubRepair k a s = s.putFrame a blankFrame) ∧
      (∀ b, farBay a = some b → b < 64 → s.bayState b = 4 → s.fenced b = false → s.on F.FEN_BAY_STATUS_GOLDEN b = false →
        let t := scrubRepair k a s
        t.fenced b = true ∧ t.bayState b = 2 ∧ t.get F.FEN_BAY_STATUS_BY b = 3 ∧ t.on F.FEN_BAY_EVT_SCRUB_FENCE b = true ∧
          t.on F.SCB_ERR_NO_GOLDEN k = true ∧ t.fabric.frames = s.fabric.frames))

/-- 13 R705 to R716. Where it goes beyond those rules it rests on the model's choices of log entries 79, 80, 81, 82. -/
def Obligations.PagerCommands : Prop :=
  ∀ s : State,
    (∀ (c : Instr) (op : Nat) (w : W64),
      ((c = .cache w ∧ op = 1) ∨ (c = .capture w ∧ op = 2) ∨ (c = .load w ∧ op = 3) ∨ (c = .relocate w ∧ op = 4) ∨
       (c = .spare w ∧ op = 5) ∨ (c = .blank w ∧ op = 6) ∨ (c = .bist w ∧ op = 7) ∨ (c = .readback w ∧ op = 8) ∨ (c = .free w ∧ op = 9)) →
      let q : PgrCmd := ⟨setBits w 0 4 op, s.get F.PGR_ARG_ADDR⟩
      ((s.on F.PGR_CTRL_EN = false ∨ 16 ≤ s.pgr.queue.length) → exec c s = .next (s.put F.PGR_ERR_CMD_REFUSED 0 1)) ∧
      (s.on F.PGR_CTRL_EN = true → s.pgr.queue.length < 16 → s.pgr.run ≠ none →
        exec c s = .next { s with pgr := { s.pgr with queue := s.pgr.queue ++ [q] } }) ∧
      (s.on F.PGR_CTRL_EN = true → s.pgr.queue = [] → s.pgr.run = none → (s.freezing && s.on F.DBG_FREEZE_PAGER) = false →
        (pgrCheck q s ≠ 0 → exec c s = .next (pgrResult q (pgrCheck q s) false s)) ∧
        (pgrCheck q s = 0 → Completes c s fun t => (∃ r, t.pgr.run = some r ∧ r.cmd = q ∧ r.phase = .running) ∧
          t.pgr.queue = [] ∧ t.pgr.results = s.pgr.results ∧
          (op = 1 ∨ op = 2 → (t.slot q.slotNo).state = 1) ∧
          (op = 3 ∨ op = 6 → t.fenced q.bayA = true ∧ t.bayState q.bayA = 1 ∧ q.bayA ∈ t.pgr.holds) ∧
          (op = 4 ∨ op = 5 → q.bayA ≠ q.bayB → t.fenced q.bayA = true ∧ t.bayState q.bayB = 1 ∧ q.bayA ∈ t.pgr.holds ∧ q.bayB ∈ t.pgr.holds) ∧
          (op = 7 → t.fenced q.bayA = true ∧ t.bayState q.bayA = 5) ∧
          (op = 8 → t.bayState q.bayA = if s.bayState q.bayA = 4 then 4 else 5) ∧ t.mem = s.mem)) ∧
      (3 ≤ op → op ≤ 7 → s.anchorBay q.bayA = true → pgrCheck q s ≠ 0)) ∧
    (∀ (q : PgrCmd) (st : Nat) (skip : Bool), st < 16 → let t := pgrResult q st skip s
      t.on F.PGR_ERR_DONE = true ∧ (st ≠ 0 → t.on F.PGR_ERR_FAILED = true) ∧
      (s.pgr.results.length < 16 → ∃ w, t.pgr.results = s.pgr.results ++ [w] ∧ bits w.toNat 0 4 = q.op ∧ bits w.toNat 4 4 = st ∧
        bits w.toNat 8 6 = q.bayA ∧ bits w.toNat 16 6 = q.bayB ∧ bits w.toNat 24 8 = q.slotNo ∧ bit w.toNat 32 = skip ∧
        bits w.toNat 48 16 = bits q.cmd.toNat 48 16) ∧
      (16 ≤ s.pgr.results.length → t.pgr.results = s.pgr.results ∧ t.on F.PGR_ERR_RESULT_LOST = true)) ∧
    (∀ quiet, (s.pgr.results = [] → exec (.resultRead quiet) s = .next (s.answer .okay 0x200000000)) ∧
      (∀ w l, s.pgr.results = w :: l → exec (.resultRead quiet) s =
        .next ({ s with pgr := { s.pgr with results := if quiet then w :: l else l } }.answer .okay w))) ∧
    (∀ (r : PgrRun) (env : PgrEnv), s.pgr.run = some r → s.pgr.queue = [] → r.phase = .running → s.pgr.results = [] →
      (s.freezing && s.on F.DBG_FREEZE_PAGER) = false →
      let ends (t : State) (st : Nat) : Prop := t.pgr.run = none ∧ ∃ w, t.pgr.results = [w] ∧ bits w.toNat 4 4 = st ∧ bits w.toNat 0 4 = r.cmd.op
      let a := r.cmd.bayA
      (r.cmd.op = 6 → Completes (.pagerCommandDone env) s fun t => ends t 0 ∧ t.bayState a = 0 ∧ t.windowFrames a = [] ∧
        t.on F.FEN_BAY_STATUS_GOLDEN a = false ∧ a ∉ t.pgr.holds ∧ ∀ c, c ≠ a → t.windowFrames c = s.windowFrames c) ∧
      (r.cmd.op = 7 → Completes (.pagerCommandDone env) s fun t => ends t (if env.pass then 0 else 13) ∧
        t.bayState a = (if env.pass then 0 else 6) ∧ t.windowFrames a = []) ∧
      (r.cmd.op = 9 → Completes (.pagerCommandDone env) s fun t => ends t 0 ∧ t.slot r.cmd.slotNo = {} ∧
        ∀ n, n ≠ r.cmd.slotNo → t.slot n = s.slot n) ∧
      (r.cmd.op = 3 → ∀ resp fr u, slotRead r.cmd.slotNo 0 10680 env.mem s = (resp, fr, u) → u.pgr = s.pgr →
        (resp ≠ .okay → Completes (.pagerCommandDone env) s fun t => ends t 11 ∧ t.bayState a = 2) ∧
        (resp = .okay → Completes (.pagerCommandDone env) s fun t => ends t 0 ∧
          t.bayState a = (if r.cmd.open_ = true ∧ u.slabFenced (a / 16) = false then 4 else 3))) ∧
      (r.cmd.op = 4 ∨ r.cmd.op = 5 → r.plan = none → r.cmd.bayB ≠ a → ∀ resp u, relocateFrames r env.mem s = (resp, u) → u.pgr = s.pgr →
        (resp = .okay → Completes (.relocateCommit env) s fun t => (t.pgr.run.map (·.phase)) = some .committed ∧
          t.bayState r.cmd.bayB = 3 ∧ t.get F.FEN_BAY_STATUS_SLOT r.cmd.bayB = u.get F.FEN_BAY_STATUS_SLOT a ∧
          t.on F.FEN_BAY_STATUS_GOLDEN a = false ∧ t.pgr.results = []) ∧
        (resp ≠ .okay → Completes (.relocateCommit env) s fun t => t.pgr.run = none ∧ t.bayState r.cmd.bayB = 0 ∧
          t.bayState a = (if r.prev = 4 then 3 else r.prev % 8) ∧ ∃ w, t.pgr.results = [w] ∧ bits w.toNat 4 4 = 11)) ∧
      (∀ w : W32, r.cmd.op = 6 → s.pgr.rimDue = [] → Completes (.pagerAbort w) s fun t => ends t 14 ∧ t.bayState a = 2 ∧ t.pgr.queue = []))

/-- 14 R729, R736, R737. -/
def Obligations.CoreArithmetic : Prop :=
  ∀ (cx : Cx) (rd ra rb : Gpr) (imm : W16) (sh : BitVec 6) (s : State), CoreReady cx s →
    let n := cx.core.val
    let a := s.greg n ra.val
    let b := s.greg n rb.val
    let i : W64 := BitVec.ofInt 64 imm.toInt
    let z : W64 := BitVec.ofNat 64 imm.toNat
    let k := b.toNat % 64
    let gives (c : Instr) (v : W64) : Prop := CoreGives c cx s rd v ((s.core n).pc + 4)
    let int (v : Int) : W64 := BitVec.ofInt 64 v
    let nat (v : Nat) : W64 := BitVec.ofNat 64 v
    s.greg n 0 = 0 ∧
    gives (.add cx rd ra rb) (int (a.toInt + b.toInt)) ∧ gives (.sub cx rd ra rb) (int (a.toInt - b.toInt)) ∧
    gives (.and cx rd ra rb) (a &&& b) ∧ gives (.or cx rd ra rb) (a ||| b) ∧ gives (.xor cx rd ra rb) (a ^^^ b) ∧
    gives (.sll cx rd ra rb) (nat (a.toNat * 2 ^ k)) ∧ gives (.srl cx rd ra rb) (nat (a.toNat / 2 ^ k)) ∧
    gives (.sra cx rd ra rb) (int (a.toInt / 2 ^ k)) ∧
    gives (.slt cx rd ra rb) (if a.toInt < b.toInt then 1 else 0) ∧ gives (.sltu cx rd ra rb) (if a.toNat < b.toNat then 1 else 0) ∧
    gives (.mul cx rd ra rb) (int (a.toInt * b.toInt)) ∧ gives (.mulh cx rd ra rb) (int (a.toInt * b.toInt / 2 ^ 64)) ∧
    gives (.mulhu cx rd ra rb) (nat (a.toNat * b.toNat / 2 ^ 64)) ∧
    gives (.div cx rd ra rb) (if b = 0 then BitVec.allOnes 64 else int (a.toInt.tdiv b.toInt)) ∧
    gives (.divu cx rd ra rb) (if b = 0 then BitVec.allOnes 64 else nat (a.toNat / b.toNat)) ∧
    gives (.rem cx rd ra rb) (if b = 0 then a else int (a.toInt.tmod b.toInt)) ∧
    gives (.remu cx rd ra rb) (if b = 0 then a else nat (a.toNat % b.toNat)) ∧
    (a.toInt = -(2 : Int) ^ 63 → b.toInt = -1 → gives (.div cx rd ra rb) a ∧ gives (.rem cx rd ra rb) 0) ∧
    gives (.addi cx rd ra imm) (int (a.toInt + imm.toInt)) ∧ gives (.andi cx rd ra imm) (a &&& z) ∧
    gives (.ori cx rd ra imm) (a ||| z) ∧ gives (.xori cx rd ra imm) (a ^^^ z) ∧
    gives (.slli cx rd ra sh) (nat (a.toNat * 2 ^ sh.toNat)) ∧ gives (.srli cx rd ra sh) (nat (a.toNat / 2 ^ sh.toNat)) ∧
    gives (.srai cx rd ra sh) (int (a.toInt / 2 ^ sh.toNat)) ∧
    gives (.slti cx rd ra imm) (if a.toInt < imm.toInt then 1 else 0) ∧
    gives (.sltiu cx rd ra imm) (if a.toNat < i.toNat then 1 else 0) ∧
    gives (.lui cx rd imm) (int (imm.toInt * 2 ^ 16)) ∧
    gives (.shori cx rd ra imm) (nat (a.toNat * 2 ^ 16 + imm.toNat))

/-- 14 R732 to R734, R740 to R751, R756, R759. Where it goes beyond those rules it rests on the model's choices of log entries 85, 86, 90, 91, 92. -/
def Obligations.CoreMemory : Prop :=
  (∀ (cx : Cx) (rd ra : Gpr) (imm : W16) (env : Env) (s : State) (c : Instr) (k : Nat) (signed : Bool),
    ((c = .lb cx rd ra imm env ∧ k = 1 ∧ signed = true) ∨ (c = .lbu cx rd ra imm env ∧ k = 1 ∧ signed = false) ∨
     (c = .lh cx rd ra imm env ∧ k = 2 ∧ signed = true) ∨ (c = .lhu cx rd ra imm env ∧ k = 2 ∧ signed = false) ∨
     (c = .lw cx rd ra imm env ∧ k = 4 ∧ signed = true) ∨ (c = .lwu cx rd ra imm env ∧ k = 4 ∧ signed = false) ∨
     (c = .ld cx rd ra imm env ∧ k = 8 ∧ signed = false)) → CoreReady cx s →
    let n := cx.core.val
    let x := s.core n
    let a : W64 := BitVec.ofInt 64 ((s.greg n ra.val).toInt + imm.toInt)
    let u := coreFetched n s
    let value (bs : List Byte) : W64 :=
      BitVec.ofInt 64 (if signed ∧ 2 ^ (8 * k - 1) ≤ bytesNat bs then (bytesNat bs : Int) - 2 ^ (8 * k) else bytesNat bs)
    (x.refuses a.toNat k 0 = true → a.toNat % k = 0 → CoreTraps c cx s 5 a) ∧
    (x.refuses a.toNat k 0 = false → a.toNat % k ≠ 0 → CoreTraps c cx s 4 a) ∧
    (x.refuses a.toNat k 0 = true → a.toNat % k ≠ 0 → CoreTraps c cx s 4 a ∨ CoreTraps c cx s 5 a) ∧
    (x.refuses a.toNat k 0 = false → a.toNat % k = 0 → ∀ e t, coreLoad n a.toNat k false env u = (e, t) →
      t.on F.DBG_CORE_STATUS_DEFERRED n = false →
      (∀ bs, e = .data bs → bs.length = k → exec c s = .next ((t.setGreg n rd.val (value bs)).modCore n fun y =>
        { y with pc := x.pc + 4, retired := y.retired + 1 })) ∧
      (e = .poison → exec c s = .next (trap n 8 a t)) ∧ (∀ r, e = .err r → exec c s = .next (trapResp n 9 r a t))) ∧
    (x.refuses a.toNat k 0 = false → a.toNat % k = 0 → s.dcOn n a.toNat = true → env.upset = .none →
      ∀ d, x.lineAt (a.toNat / 64) = some d → d.flaw.get .none (a.toNat % 64 / 8) = .none → d.data.length = 64 →
      (d.poisoned = false → CoreGives c cx s rd (value ((d.data.drop (a.toNat % 64)).take k)) (x.pc + 4)) ∧
      (d.poisoned = true → CoreTraps c cx s 8 a))) ∧
  (∀ (cx : Cx) (rd ra : Gpr) (imm : W16) (env : Env) (s : State) (c : Instr) (k : Nat),
    ((c = .sb cx rd ra imm env ∧ k = 1) ∨ (c = .sh cx rd ra imm env ∧ k = 2) ∨ (c = .sw cx rd ra imm env ∧ k = 4) ∨
     (c = .sd cx rd ra imm env ∧ k = 8)) → CoreReady cx s →
    let n := cx.core.val
    let x := s.core n
    let a : W64 := BitVec.ofInt 64 ((s.greg n ra.val).toInt + imm.toInt)
    let bs := natBytes (s.greg n rd.val).toNat k
    (x.refuses a.toNat k 1 = true → a.toNat % k = 0 → CoreTraps c cx s 5 a) ∧
    (x.refuses a.toNat k 1 = false → a.toNat % k ≠ 0 → CoreTraps c cx s 4 a) ∧
    (x.refuses a.toNat k 1 = true → a.toNat % k ≠ 0 → CoreTraps c cx s 4 a ∨ CoreTraps c cx s 5 a) ∧
    (x.refuses a.toNat k 1 = false → a.toNat % k = 0 →
      let t := coreStore n a.toNat bs env (coreFetched n s)
      t.on F.DBG_CORE_STATUS_DEFERRED n = false →
        exec c s = .next (t.modCore n fun y => { y with pc := x.pc + 4, retired := y.retired + 1 })) ∧
    (x.refuses a.toNat k 1 = false → a.toNat % k = 0 → s.dcOn n a.toNat = true → env.upset = .none →
      ∀ d, x.lineAt (a.toNat / 64) = some d → d.flaw.get .none (a.toNat % 64 / 8) = .none → d.data.length = 64 →
      Completes c s fun t => BytesBut s t [] ∧ RegsBut s t [] ∧ (t.core n).pc = x.pc + 4 ∧ (t.core n).g = x.g ∧
        ∃ e, (t.core n).lineAt (a.toNat / 64) = some e ∧ e.dirty = true ∧ e.poisoned = d.poisoned ∧
          (∀ i, i < 64 → e.data[i]? = if a.toNat % 64 ≤ i ∧ i < a.toNat % 64 + k then bs[i - a.toNat % 64]? else d.data[i]?) ∧
          ∀ l, l ≠ a.toNat / 64 → (t.core n).lineAt l = x.lineAt l) ∧
    (x.refuses a.toNat k 1 = false → a.toNat % k = 0 → inPriv n a.toNat = true →
      Completes c s fun t => BytesBut s t ((List.range k).map (a.toNat + ·)) ∧ RegsBut s t [] ∧ (t.core n).pc = x.pc + 4 ∧
        (t.core n).g = x.g ∧ ∀ i, i < k → t.peek (a.toNat + i) = bs[i]?)) ∧
  (∀ (cx : Cx) (rd ra rb : Gpr) (env : Env) (s : State), CoreReady cx s →
    let n := cx.core.val
    let x := s.core n
    let a := s.greg n ra.val
    let l := a.toNat / 64
    let u := coreFetched n s
    let there := a.toNat % 8 = 0 ∧ (inDram a.toNat ∨ inSpd a.toNat)
    (x.refuses a.toNat 8 0 = true → there → CoreTraps (.ldx cx rd ra env) cx s 5 a) ∧
    (x.refuses a.toNat 8 0 = false → ¬there → CoreTraps (.ldx cx rd ra env) cx s 13 a) ∧
    (x.refuses a.toNat 8 0 = false → there → ∀ m t, sandRead (u.coreAcc n false) a.toNat 8 env (lineFlush n l {} u) = (m, t) →
      t.on F.DBG_CORE_STATUS_DEFERRED n = false →
      (m.resp = .okay → m.bytes.length = 8 → exec (.ldx cx rd ra env) s =
        .next (({ t with resv := t.resv.set n l }.setGreg n rd.val (BitVec.ofNat 64 (bytesNat m.bytes))).modCore n fun y =>
          { y with pc := x.pc + 4, retired := y.retired + 1 })) ∧
      (m.resp ≠ .okay → exec (.ldx cx rd ra env) s = .next (trapResp n 9 m.resp a t))) ∧
    (x.refuses a.toNat 8 1 = true → there → CoreTraps (.stx cx rd ra rb env) cx s 5 a) ∧
    (x.refuses a.toNat 8 1 = false → ¬there → CoreTraps (.stx cx rd ra rb env) cx s 13 a) ∧
    (x.refuses a.toNat 8 1 = false → there → s.resv.find n ≠ some l → Completes (.stx cx rd ra rb env) s fun t =>
      t.greg n rd.val = (if rd.val = 0 then 0 else 1) ∧ (∀ r : Gpr, r ≠ rd → t.greg n r.val = s.greg n r.val) ∧
      t.resv.find n = none ∧ (∀ m, m ≠ n → t.resv.find m = s.resv.find m) ∧ (t.core n).pc = x.pc + 4 ∧ BytesBut s t [] ∧
      t = { s with cores := t.cores, resv := t.resv, free := t.free }) ∧
    (x.refuses a.toNat 8 1 = false → there → s.resv.find n = some l →
      ∀ r t, sandWrite (u.coreAcc n false) a.toNat (natBytes (s.greg n rb.val).toNat 8) false env u = (r, t) →
      t.on F.DBG_CORE_STATUS_DEFERRED n = false →
      Completes (.stx cx rd ra rb env) s fun v => v.resv.find n = none ∧ v.greg n rd.val = 0 ∧ (v.core n).pc = x.pc + 4 ∧
        v = { t with cores := v.cores, resv := v.resv } ∧
        (r ≠ .okay → (t.core n).serr = none → (v.core n).serr = some (a.toNat, r)))) ∧
  (∀ (core : CoreId) (s : State), s.on F.DBG_CORE_STATUS_DEFERRED core.val = false →
    exec (.reservationExpiry core) s = .next { s with resv := s.resv.erase core.val })

/-- 14 R736, R738, R739, R745, R746, R753 to R755, R760 to R763. Where it goes beyond those rules it rests on the model's choices of log entries 85, 87, 88, 89, 91, 134. -/
def Obligations.CoreControl : Prop :=
  (∀ (cx : Cx) (rd ra rb : Gpr) (imm : W16) (off : BitVec 21) (s : State), CoreReady cx s →
    let n := cx.core.val
    let pc := (s.core n).pc
    let a := s.greg n ra.val
    let b := s.greg n rb.val
    let br (c : Instr) (p : Prop) : Prop :=
      (p → CoreGives c cx s 0 0 (BitVec.ofInt 64 (pc.toInt + imm.toInt * 4))) ∧ (¬p → CoreGives c cx s 0 0 (pc + 4))
    let t := BitVec.ofInt 64 (a.toInt + imm.toInt)
    br (.beq cx ra rb imm) (a = b) ∧ br (.bne cx ra rb imm) (a ≠ b) ∧ br (.blt cx ra rb imm) (a.toInt < b.toInt) ∧
    br (.bge cx ra rb imm) (b.toInt ≤ a.toInt) ∧ br (.bltu cx ra rb imm) (a.toNat < b.toNat) ∧ br (.bgeu cx ra rb imm) (b.toNat ≤ a.toNat) ∧
    CoreGives (.jal cx rd off) cx s rd (pc + 4) (BitVec.ofInt 64 (pc.toInt + off.toInt * 4)) ∧
    (t.toNat % 4 = 0 → CoreGives (.jalr cx rd ra imm) cx s rd (pc + 4) t) ∧
    (t.toNat % 4 ≠ 0 → CoreTraps (.jalr cx rd ra imm) cx s 3 t)) ∧
  (∀ (cx : Cx) (rd ra : Gpr) (num : BitVec 12) (s : State), CoreReady cx s →
    let n := cx.core.val
    let k := num.toNat
    let v := s.greg n ra.val
    let word (op : Nat) (ra : Nat) : W64 := BitVec.ofNat 64 (op * 2 ^ 26 + rd.val * 2 ^ 21 + ra * 2 ^ 16 + k)
    let all (p : Instr → W64 → Prop) : Prop := p (.csrr cx rd num) (word 0x30 0) ∧ p (.csrw cx rd ra num) (word 0x31 ra.val) ∧
      p (.csrs cx rd ra num) (word 0x32 ra.val) ∧ p (.csrc cx rd ra num) (word 0x33 ra.val)
    (csrListed k = true ↔ k ≤ 7 ∨ (0x10 ≤ k ∧ k ≤ 0x1F) ∨ k = 0x20 ∨ k = 0x21 ∨ k = 0x22 ∨ k = 0x30 ∨ k = 0x31) ∧
    (csrListed k = false → all fun c w => CoreTraps c cx s 1 w) ∧
    (csrListed k = true → (s.core n).priv = .u → all fun c w => (∀ d, c ≠ .csrr cx d num) ∨ k < 0x20 ∨ 0x22 < k → CoreTraps c cx s 2 w) ∧
    (csrListed k = true → (s.core n).priv ≠ .u ∨ (0x20 ≤ k ∧ k ≤ 0x22) → Completes (.csrr cx rd num) s fun t =>
      t.greg n rd.val = (if rd.val = 0 then 0 else csrGet n k (coreFetched n s)) ∧ (∀ r : Gpr, r ≠ rd → t.greg n r.val = s.greg n r.val) ∧
      (t.core n).pc = (s.core n).pc + 4 ∧ (k = 0x31 → (t.core n).corrected = 0 ∧ (t.core n).transient = 0) ∧
      t = { s with cores := t.cores, free := t.free }) ∧
    (csrListed k = true → (s.core n).priv ≠ .u →
      let writes (c : Instr) (g : W64) : Prop := Completes c s fun t =>
        t.greg n rd.val = (if rd.val = 0 then 0 else csrGet n k (coreFetched n s)) ∧ (∀ r : Gpr, r ≠ rd → t.greg n r.val = s.greg n r.val) ∧
        (t.core n).pc = (s.core n).pc + 4 ∧ (t.core n).priv = (s.core n).priv ∧
        (1 ≤ k → k ≤ 6 → csrGet n k t = if k = 1 then g &&& 0x0000FFFFFFFFFF00 else if k = 3 then g &&& 0x8000000000000F3F
          else if k = 6 then g &&& 7 else g) ∧
        (k = 0 → bit (csrGet n 0 t).toNat 2 = bit g.toNat 2 ∧ bit (csrGet n 0 t).toNat 3 = bit g.toNat 3 ∧
          (bits g.toNat 4 2 < 2 → bits (csrGet n 0 t).toNat 4 2 = bits g.toNat 4 2) ∧
          (n < 8 → bits g.toNat 4 2 = 2 → bits (csrGet n 0 t).toNat 4 2 = 1)) ∧
        (n < 8 → 0x10 ≤ k → k < 0x20 → csrGet n k t = g &&& if k % 2 = 0 then 0x0000FFFFFFFFF000 else 0x0000FFFFFFFFF00F) ∧
        (n < 8 → k = 0x30 → csrGet n k t = g &&& 3) ∧ (n = 8 → 0x10 ≤ k → k < 0x20 ∨ k = 0x30 → csrGet n k t = 0) ∧
        t = { s with cores := t.cores, free := t.free }
      let old := csrGet n k (coreFetched n s)
      writes (.csrw cx rd ra num) v ∧ writes (.csrs cx rd ra num) (old ||| v) ∧ writes (.csrc cx rd ra num) (old &&& ~~~v))) ∧
  (∀ (cx : Cx) (ra : Gpr) (imm : W16) (env : Env) (w : W32) (s : State), CoreReady cx s →
    let n := cx.core.val
    let x := s.core n
    let u := coreFetched n s
    let a : W64 := BitVec.ofInt 64 ((s.greg n ra.val).toInt + imm.toInt)
    let l := a.toNat / 64
    let nextPc (t : State) : State := t.modCore n fun y => { y with pc := x.pc + 4, retired := y.retired + 1 }
    let i (rd : Nat) : W64 := BitVec.ofNat 64 (0xD0000000 + rd * 2 ^ 21 + ra.val * 2 ^ 16 + imm.toNat)
    CoreTraps (.ecall cx) cx s 11 0 ∧
    (bit (s.get F.DBG_BREAK_HALT_CORES) n = false → CoreTraps (.brk cx) cx s 12 0) ∧
    (bit (s.get F.DBG_BREAK_HALT_CORES) n = true → s.holdsResv n = false → exec (.brk cx) s = .next (haltFire n u)) ∧
    (coreLegal w.toNat = false → CoreTraps (.coreIllegal cx w) cx s 1 (BitVec.ofNat 64 w.toNat)) ∧
    (x.priv = .u → CoreTraps (.tret cx) cx s 2 0xFC000001 ∧ CoreTraps (.wfi cx) cx s 2 0xFC000002 ∧
      CoreTraps (.dinv cx ra imm env) cx s 2 (i 1) ∧ CoreTraps (.dflushAll cx ra imm env) cx s 2 (i 8)) ∧
    (x.priv ≠ .u → Completes (.tret cx) s fun t => (t.core n).pc = x.tpc ∧ (t.core n).ie = x.pie ∧ t.resv.find n = none ∧
      (n < 8 → x.ppriv.toNat < 2 → (t.core n).priv.code = x.ppriv.toNat ∧ (t.core n).ppriv = 0) ∧ (n = 8 → (t.core n).priv = .w) ∧
      (t.core n).g = x.g ∧ (∀ m, m ≠ n → t.core m = s.core m) ∧ t = { s with cores := t.cores, resv := t.resv, free := t.free }) ∧
    (x.priv ≠ .u → Completes (.wfi cx) s fun t => (t.core n).wfi = true ∧ (t.core n).pc = x.pc + 4 ∧
      ((s.irqCode n).isSome = false → t.coreIssues n = false) ∧ t = { s with cores := t.cores, free := t.free }) ∧
    (x.serr = none → CoreGives (.fence cx) cx s 0 0 (x.pc + 4)) ∧ (x.serr ≠ none → exec (.fence cx) s = .next u) ∧
    CoreGives (.ifence cx) cx s 0 0 (x.pc + 4) ∧
    (let line (c : Instr) (g : State → State) : Prop :=
       (x.refuses a.toNat 1 0 = true → CoreTraps c cx s 5 a) ∧
       (x.refuses a.toNat 1 0 = false → (g u).on F.DBG_CORE_STATUS_DEFERRED n = false → exec c s = .next (nextPc (g u)))
     line (.dclean cx ra imm env) (lineClean n l env) ∧ line (.dflush cx ra imm env) (fun t => lineDrop n l (lineClean n l env t)) ∧
     line (.iinv cx ra imm env) (fun t => t.modCore n fun c => { c with ic := c.ic.filter (· != l) }) ∧
     (x.priv ≠ .u → line (.dinv cx ra imm env) (lineDrop n l)) ∧
     ((lineDrop n l u).core n).lineAt l = none ∧ ((lineClean n l env u).core n).lineAt l =
       (x.lineAt l).map fun d => { d with dirty := false, poisoned := d.poisoned && !d.dirty }) ∧
    (x.priv ≠ .u → (cacheFlush n env u).on F.DBG_CORE_STATUS_DEFERRED n = false →
      exec (.dflushAll cx ra imm env) s = .next (nextPc (cacheFlush n env u)) ∧ ((cacheFlush n env u).core n).dc = []) ∧
    Completes (.iinvAll cx ra imm env) s fun t => (t.core n).ic = [] ∧ (t.core n).pc = x.pc + 4 ∧ (t.core n).g = x.g ∧
      (t.core n).dc = x.dc ∧ t = { s with cores := t.cores, free := t.free }) ∧
  (∀ (core : CoreId) (s : State), s.coreTakes core.val = true → s.coreHalted core.val = false →
    s.on F.DBG_CORE_STATUS_DEFERRED core.val = false →
    let n := core.val
    let x := s.core n
    let enters (t : State) (cause tval : W64) : Prop :=
      t.core n = { t.core n with tpc := x.pc, tcause := cause, tval := tval, ppriv := BitVec.ofNat 2 x.priv.code, pie := x.ie
                                 ie := false, priv := if n = 8 then .w else .s, pc := x.tvec } ∧
      (t.core n).g = x.g ∧ t.resv.find n = none ∧ (∀ m, m ≠ n → t.core m = s.core m) ∧ t = { s with cores := t.cores, resv := t.resv }
    (∀ a r, x.serr = some (a, r) → x.stepping = false → Completes (.storeErr core) s fun t =>
      enters t (BitVec.ofNat 64 (10 + 256 * r.code)) (BitVec.ofNat 64 a) ∧ (t.core n).serr = none) ∧
    (∀ k, x.ie = true → s.irqCode n = some k → Completes (.interrupt core) s fun t =>
      enters t (BitVec.ofNat 64 (k + 2 ^ 63)) 0 ∧ (1 ≤ k ∧ k ≤ 3) ∧ bit (s.coreIp n) (k - 1) = true ∧ bit x.ien.toNat (k - 1) = true ∧
      ∀ j, 1 ≤ j → j < k → (bit (s.coreIp n) (j - 1) && bit x.ien.toNat (j - 1)) = false) ∧
    (x.ie = false → exec (.interrupt core) s = .next s))

/-- 14 R766, R767, R788 to R790. 14 R791, 20 R978 to R983. Where it goes beyond those rules it rests on the model's choices of log entries 93, 94, 117. -/
def Obligations.CoreRunWatchdogAndWarmReset : Prop :=
  ((∀ (core : Fin 8) (w : W64) (s : State),
      let n := core.val
      let entry := bits w.toNat 2 46
      (s.on F.WDG_CORE_CTRL_RUN n = false → s.on F.WDG_CORE_STATUS_OFFLINE n = false → s.domOn (76 + n) = true →
        bit (s.get F.DBG_RESET_HALT_CORES) n = false → Completes (.coreStart core w) s fun t =>
        t.core n = { pc := BitVec.ofNat 64 (entry * 4) } ∧ (t.core n).priv = .s ∧ (∀ r : Gpr, t.greg n r.val = 0) ∧ (t.core n).dc = [] ∧
          t.on F.WDG_CORE_CTRL_RUN n = true ∧ t.get F.WDG_CORE_CTRL_ENTRY n = entry ∧ t.get F.WDG_CORE_STATUS_STATE n = 1 ∧
          t.resv.find n = none ∧ (∀ m, m ≠ n → t.core m = s.core m) ∧ BytesBut s t [] ∧
          RegsBut s t [R.WDG_CORE_CTRL.addr n, R.WDG_CORE_STATUS.addr n, R.DBG_CORE_STATUS.addr n]) ∧
      (s.on F.WDG_CORE_CTRL_RUN n = true → s.on F.WDG_CORE_STATUS_OFFLINE n = false → Completes (.coreStart core w) s fun t =>
        t.cores = s.cores ∧ t.on F.WDG_CORE_CTRL_RUN n = true ∧ t.get F.WDG_CORE_CTRL_ENTRY n = entry ∧ RegsBut s t [R.WDG_CORE_CTRL.addr n]) ∧
      (s.on F.WDG_CORE_CTRL_RUN n = false → s.on F.WDG_CORE_STATUS_OFFLINE n = false → s.domOn (76 + n) = false →
        exec (.coreStart core w) s = .next (s.answer .poweredDown)) ∧
      (s.on F.WDG_CORE_CTRL_RUN n = false → s.on F.WDG_CORE_STATUS_OFFLINE n = true → Completes (.coreStart core w) s fun t =>
        t.cores = s.cores ∧ t.on F.WDG_CORE_CTRL_RUN n = false) ∧
      (s.on F.WDG_CORE_CTRL_RUN n = true → Completes (.coreStop core w) s fun t =>
        t.core n = {} ∧ (t.core n).dc = [] ∧ t.on F.WDG_CORE_CTRL_RUN n = false ∧ t.get F.WDG_CORE_STATUS_STATE n = 0 ∧
          t.coreHalted n = false ∧ t.resv.find n = none ∧ (∀ m, m ≠ n → t.core m = s.core m) ∧ BytesBut s t [] ∧
          RegsBut s t [R.WDG_CORE_CTRL.addr n, R.WDG_CORE_STATUS.addr n, R.DBG_CORE_STATUS.addr n, R.WDG_COUNT.addr n])) ∧
    (∀ (w : CoreId) (data : W32) (s : State),
      let n := w.val
      let load := if s.get F.WDG_LOAD_TICKS n = 0 then 1 else s.get F.WDG_LOAD_TICKS n
      (data.toNat % 65536 = 0xC10E → Completes (.watchdogKick w data) s fun t => t.get F.WDG_COUNT_COUNT n = load ∧ RegsBut s t [R.WDG_COUNT.addr n]) ∧
      (data.toNat % 65536 ≠ 0xC10E → Completes (.watchdogKick w data) s fun t => t.on F.WDG_STATUS_BAD_KICK n = true ∧
        t.get F.WDG_COUNT_COUNT n = s.get F.WDG_COUNT_COUNT n ∧ RegsBut s t [R.WDG_STATUS.addr n]) ∧
      (s.wdgCounts n = true → s.on F.WDG_STATUS_STAGE1 n = false → Completes (.watchdogFirstExpiry w) s fun t =>
        t.on F.WDG_STATUS_STAGE1 n = true ∧ t.on F.WDG_STATUS_STAGE2 n = s.on F.WDG_STATUS_STAGE2 n ∧ t.get F.WDG_COUNT_COUNT n = load ∧
          bit (t.coreIp n) 1 = true ∧ RegsBut s t [R.WDG_STATUS.addr n, R.WDG_COUNT.addr n] ∧ t = { s with regs := t.regs }) ∧
      (s.wdgCounts n = true ↔ s.on F.WDG_CTRL_EN n = true ∧ (n = 8 ∨ s.on F.WDG_CORE_CTRL_RUN n = true) ∧ s.get F.WDG_COUNT_COUNT n ≠ 0 ∧
        ¬(s.on F.WDG_CTRL_FREEZE n = true ∧ s.coreHalted n = true ∧ (s.core n).stepping = false)) ∧
      (s.wdgCounts n = false → exec (.watchdogFirstExpiry w) s = .next s))) ∧
  (let reset (s t : State) : Prop :=
      (∀ n, n < 9 → t.core n = Core.fresh n ∧ t.resv.find n = none ∧ t.rd R.DBG_CORE_STATUS n = 0 ∧ t.get F.EVC_THR_THR n = 0 ∧
        t.get F.WDG_COUNT_COUNT n = max 1 (if n = 8 then State.reset.get F.WDG_LOAD_TICKS 8 else s.get F.WDG_LOAD_TICKS n)) ∧
      (∀ n, n < 8 → t.rd R.WDG_CORE_CTRL n = 0 ∧ t.rd R.WDG_STATUS n = 0 ∧ t.get F.WDG_CORE_STATUS_STATE n = 0 ∧
        t.get F.WDG_CORE_STATUS_OFFLINE n = s.get F.WDG_CORE_STATUS_OFFLINE n ∧ t.rd R.KEY_REQ_CTRL n = 0 ∧ t.rd R.KEY_REQ_STATUS n = 0 ∧
        t.rd R.KEY_REQ_RES0 n = 0 ∧ t.rd R.KEY_REQ_RES1 n = 0 ∧ ∀ a, a < 4 → t.rd R.KEY_REQ_ARG (n * 4 + a) = 0) ∧
      t.rd R.WDG_CTRL 8 = 3 ∧ t.rd R.WDG_LOAD 8 = BitVec.ofNat 64 R.WDG_LOAD.rst ∧ t.rd R.WDG_STATUS 8 = s.rd R.WDG_STATUS 8 ∧
      t.on F.KEY_STATUS_PATCH_ACTIVE = false ∧ t.warden = {} ∧ t.evc = { s.evc with claimed := [] } ∧
      (∀ n, n < 490 → t.evcPend n = true → s.on F.EVC_SRC_EN n = true ∧ s.get F.EVC_SRC_TARGET n ≠ 0) ∧
      t = { s with regs := t.regs, cores := t.cores, resv := t.resv, free := t.free, evc := t.evc, dbg := { s.dbg with pulse := false }, warden := t.warden } ∧
      RegsBut s t ((List.range 9).flatMap (fun n => [R.WDG_COUNT.addr n, R.DBG_CORE_STATUS.addr n, R.EVC_THR.addr n]) ++
        (List.range 8).flatMap (fun n => [R.WDG_STATUS.addr n, R.WDG_CORE_CTRL.addr n, R.WDG_CORE_STATUS.addr n, R.KEY_REQ_CTRL.addr n,
          R.KEY_REQ_STATUS.addr n, R.KEY_REQ_RES0.addr n, R.KEY_REQ_RES1.addr n]) ++ (List.range 32).map (fun k => R.KEY_REQ_ARG.addr k) ++
        (List.range 16).map (fun k => R.EVC_PEND.addr k) ++ [R.WDG_CTRL.addr 8, R.WDG_LOAD.addr 8, R.KEY_STATUS.addr 0])
    let still (s : State) : Prop := s.dma = [] ∧ s.pgr.run = none ∧ s.pgr.queue = [] ∧ s.power.resume = false ∧ bit (s.get F.DBG_RESET_HALT_CORES) 8 = false
    (∀ (w : CoreId) (responds : Bool) (env : Env) (s : State),
      let n := w.val
      let due := s.wdgCounts n = true ∧ s.on F.WDG_STATUS_STAGE1 n = true
      (¬due → exec (.watchdogSecondExpiry w responds env) s = .next s) ∧
      (due → n < 8 → s.get F.WDG_CTRL_ACTION n ≠ 1 → s.get F.WDG_CTRL_ACTION n ≠ 2 → Completes (.watchdogSecondExpiry w responds env) s fun t =>
        t.on F.WDG_STATUS_STAGE2 n = true ∧ t.get F.WDG_COUNT_COUNT n = 0 ∧ t = { s with regs := t.regs } ∧
        RegsBut s t [R.WDG_STATUS.addr n, R.WDG_COUNT.addr n]) ∧
      (due → n < 8 → s.get F.WDG_CTRL_ACTION n = 1 → bit (s.get F.DBG_RESET_HALT_CORES) n = false → Completes (.watchdogSecondExpiry w responds env) s fun t =>
        t.on F.WDG_STATUS_STAGE2 n = true ∧ t.get F.WDG_COUNT_COUNT n = 0 ∧ t.on F.WDG_CORE_CTRL_RUN n = true ∧
        t.core n = { Core.fresh n with pc := BitVec.ofNat 64 (s.get F.WDG_CORE_CTRL_ENTRY n * 4) } ∧ t.resv.find n = none ∧ t.coreHalted n = false ∧
        (∀ m, m ≠ n → t.core m = s.core m) ∧ t = { s with regs := t.regs, cores := t.cores, resv := t.resv } ∧
        RegsBut s t [R.WDG_STATUS.addr n, R.WDG_COUNT.addr n, R.WDG_CORE_CTRL.addr n, R.WDG_CORE_STATUS.addr n, R.DBG_CORE_STATUS.addr n]) ∧
      (due → n < 8 → s.get F.WDG_CTRL_ACTION n = 2 → Completes (.watchdogSecondExpiry w responds env) s fun t => t.on F.WDG_STATUS_STAGE2 n = true ∧
        t.on F.WDG_CORE_STATUS_OFFLINE n = true ∧ t.on F.WDG_CORE_CTRL_RUN n = false ∧ t.core n = Core.fresh n ∧ ∀ m, m ≠ n → t.core m = s.core m) ∧
      (due → n = 8 → still s → Completes (.watchdogSecondExpiry w responds env) s fun t => t.on F.WDG_STATUS_STAGE2 8 = true ∧ t.on F.WDG_STATUS_STAGE1 8 = true ∧
        ∃ u, reset u t ∧ u = { s with regs := u.regs } ∧ RegsBut s u [R.WDG_STATUS.addr 8, R.WDG_COUNT.addr 8])) ∧
    (∀ (box : BoxId) (cause : WarmCause) (s : State),
      let asks := s.boxNext = some box.val ∧ s.get F.KEY_REQ_CTRL_CODE box.val = 0x0C
      (s.power.asleep = false → asks → still s → Completes (.warmReset (.request box)) s (reset s)) ∧
      (s.power.asleep = false → (s.core 8).lockup = true → still s → Completes (.warmReset .lockup) s (reset s)) ∧
      (s.power.asleep = false → exec (.warmReset .watchdog) s = exec (.watchdogSecondExpiry 8 false {}) s) ∧
      (s.power.asleep = false → ¬asks → exec (.warmReset (.request box)) s = .next s) ∧
      (s.power.asleep = false → (s.core 8).lockup = false → exec (.warmReset .lockup) s = .next s) ∧
      (s.power.asleep = true → exec (.warmReset cause) s = .next s) ∧
      (∀ c d, c < 8 → s.power.asleep = false → asks → s.dma = [(c, d)] → s.pgr.run = none → d.fill = true → spdBase ≤ d.dst → d.dst + d.len ≤ spdBase + 32 * 2 ^ 20 →
        Completes (.warmReset (.request box)) s fun t => t.dma = [] ∧ t.get F.DMA_STATUS_STATE c = dmaHalted ∧ t.on F.DMA_STATUS_HALTED c = true)))

/-- 14 R769 to R784, 11 R607, R608, 15 R803, 16 R852. Where it goes beyond those rules it rests on the model's choices of log entries 95, 96, 97, 134. -/
def Obligations.WardenRequests : Prop :=
  (∀ (box : BoxId) (w : W32) (s : State),
    let b := box.val
    let code := bits w.toNat 0 8
    (s.on F.KEY_REQ_STATUS_BUSY b = true → Completes (.requestGo box w) s fun t => t.on F.KEY_REQ_STATUS_REFUSED b = true ∧
      t.on F.KEY_REQ_STATUS_BUSY b = true ∧ t.get F.KEY_REQ_CTRL_CODE b = s.get F.KEY_REQ_CTRL_CODE b ∧
      RegsBut s t [R.KEY_REQ_CTRL.addr b, R.KEY_REQ_STATUS.addr b]) ∧
    (s.on F.KEY_REQ_STATUS_BUSY b = false → 1 ≤ code → code ≤ 0x0C → Completes (.requestGo box w) s fun t =>
      t.on F.KEY_REQ_STATUS_BUSY b = true ∧ t.get F.KEY_REQ_CTRL_CODE b = code ∧ t.get F.KEY_REQ_CTRL_IRQ b = bits w.toNat 9 1 ∧
      RegsBut s t [R.KEY_REQ_CTRL.addr b, R.KEY_REQ_STATUS.addr b]) ∧
    (s.on F.KEY_REQ_STATUS_BUSY b = false → code = 0 ∨ 0x0C < code → Completes (.requestGo box w) s fun t =>
      t.on F.KEY_REQ_STATUS_BUSY b = false ∧ t.on F.KEY_REQ_STATUS_DONE b = true ∧ t.get F.KEY_REQ_STATUS_STATUS b = 1)) ∧
  (∀ (box : BoxId) (env : Env) (responds : Bool) (s : State), s.boxNext = some box.val →
    let b := box.val
    let ends (c : Instr) (u : State) (st : Nat) (r : W64) : Prop := Completes c s fun t =>
      t.get F.KEY_REQ_STATUS_STATUS b = st ∧ t.rd R.KEY_REQ_RES0 b = r ∧ t.rd R.KEY_REQ_RES1 b = 0 ∧
      t.on F.KEY_REQ_STATUS_BUSY b = false ∧ t.on F.KEY_REQ_STATUS_DONE b = true ∧ t.warden.last = b ∧
      RegsBut u t [R.KEY_REQ_STATUS.addr b, R.KEY_REQ_RES0.addr b, R.KEY_REQ_RES1.addr b] ∧
      t = { u with regs := t.regs, warden := { u.warden with last := b } }
    let arg (k : Nat) := (s.boxArg b k).toNat
    let code := s.get F.KEY_REQ_CTRL_CODE b
    s.on F.KEY_REQ_STATUS_BUSY b = true ∧ (∀ c, s.warden.last ≤ 7 → c < b → s.warden.last < c → s.on F.KEY_REQ_STATUS_BUSY c = false) ∧
    (code = 6 → ends (.lock box) (s.put F.KEY_LOCK_UNITS 0 (s.get F.KEY_LOCK_UNITS ||| bits (arg 0) 0 28)) 0 0 ∧
      ∀ k, k < 28 → (s.put F.KEY_LOCK_UNITS 0 (s.get F.KEY_LOCK_UNITS ||| bits (arg 0) 0 28)).locked k = (s.locked k || bit (arg 0) k)) ∧
    (code = 0x0A → ends (.random box) { s with free := s.free + 1 } 0 (Config.freeWord s.free)) ∧
    (code = 0x0B → (arg 0 ∉ s.authSlots → ends (.revoke box) s 2 0) ∧ (s.authSlots = [arg 0] → ends (.revoke box) s 3 0) ∧
      (∀ k, k = arg 0 → k ∈ s.authSlots → s.authSlots ≠ [k] → ∃ u : State, ends (.revoke box) u 0 0 ∧
        u.authSlots = s.authSlots.filter (· ≠ k) ∧ u.authSlots ≠ [] ∧ u = { s with fuses := u.fuses } ∧
        u.fuses = { s.fuses with authRevoked := u.fuses.authRevoked } ∧
        ∀ j, s.fuses.authRevoked.getLsbD j = true → u.fuses.authRevoked.getLsbD j = true)) ∧
    (code = 8 → (8 ≤ arg 0 ∨ arg 0 = b ∨ 3 ≤ arg 1 → ends (.coreService box responds env) s 2 0) ∧
      (arg 0 < 8 → arg 0 ≠ b →
        (arg 1 = 0 → ends (.coreService box responds env) (coreOffline (arg 0) responds env s) 0 0 ∧
          let u := coreOffline (arg 0) responds env s
          u.on F.WDG_CORE_STATUS_OFFLINE (arg 0) = true ∧ (s.coreRuns (arg 0) = true → responds = false → (u.core (arg 0)).dc = [] ∧
            u.on F.WDG_CORE_CTRL_RUN (arg 0) = false ∧ BytesBut s u [])) ∧
        (arg 1 = 1 → ends (.coreService box responds env) (s.clear F.WDG_CORE_STATUS_OFFLINE (arg 0)) 0 0) ∧
        (arg 1 = 2 → s.on F.WDG_CORE_STATUS_OFFLINE (arg 0) = true ∨ 2 ^ 48 ≤ arg 2 → ends (.coreService box responds env) s 2 0) ∧
        (arg 1 = 2 → arg 2 < 2 ^ 48 → arg 2 % 4 = 0 → s.on F.WDG_CORE_STATUS_OFFLINE (arg 0) = false → s.domOn (76 + arg 0) = true →
          bit (s.get F.DBG_RESET_HALT_CORES) (arg 0) = false → ∃ u : State, ends (.coreService box responds env) u 0 0 ∧
          u.core (arg 0) = { pc := BitVec.ofNat 64 (arg 2) } ∧ u.on F.WDG_CORE_CTRL_RUN (arg 0) = true ∧
          ∀ m, m ≠ arg 0 → u.core m = s.core m))) ∧
    (code = 5 → (8 ≤ arg 0 ∨ 3 ≤ arg 1 → ends (.memKey box env) s 2 0) ∧
      (arg 0 < 8 →
        (arg 1 = 0 → ends (.memKey box env) { s with memKeys := s.memKeys.set (arg 0) (.generated s.free), free := s.free + 1 } 0 0) ∧
        (arg 1 = 2 → s.on F.MEE_RGN_CTRL_EN (arg 0) = true → ends (.memKey box env) s 3 0) ∧
        (arg 1 = 2 → s.on F.MEE_RGN_CTRL_EN (arg 0) = false → ends (.memKey box env) { s with memKeys := s.memKeys.erase (arg 0) } 0 0) ∧
        (arg 1 = 1 → arg 2 < 2 ^ 48 → ∀ m u, wardenRead (arg 2) Config.blobBytes env s = (m, u) →
          (m.resp ≠ .okay → ends (.memKey box env) u 4 0) ∧
          (m.resp = .okay → Config.unwrapBlob m.bytes = none → ends (.memKey box env) u 5 0) ∧
          (m.resp = .okay → ∀ key, Config.unwrapBlob m.bytes = some key →
            ends (.memKey box env) { u with memKeys := u.memKeys.set (arg 0) (.unwrapped key) } 0 0)))) ∧
    (code = 2 →
      (32 ≤ arg 0 ∨ 2 ^ 14 ≤ arg 1 ∨ ownerOk (arg 1) = false → ends (.handover box) s 2 0) ∧
      (arg 0 < 32 → arg 1 < 2 ^ 14 → ownerOk (arg 1) = true →
        (s.on F.SPD_HANDOVER_PENDING (arg 0) = true → ends (.handover box) s 2 0) ∧
        (s.on F.SPD_HANDOVER_PENDING (arg 0) = false →
          (30 ≤ arg 0 → s.on F.WDG_CORE_CTRL_RUN 0 = true → ends (.handover box) s 3 0) ∧
          (s.on F.LDG_STATUS_RUNNING = true → bit (s.get F.LDG_TIER_BANKS_MASK) (arg 0) = true → ends (.handover box) s 3 0) ∧
          (s.on F.LDG_STATUS_RUNNING = false ∨ bit (s.get F.LDG_TIER_BANKS_MASK) (arg 0) = false →
            arg 0 < 30 ∨ s.on F.WDG_CORE_CTRL_RUN 0 = false → s.domOn (86 + arg 0 / 8) = true →
            ends (.handover box) (spdHandoverDone (arg 0) (spdHandoverWrite (arg 0) (arg 1) s)) 0 0)))) ∧
    (code = 9 → (2 ^ 48 ≤ arg 0 ∨ 2 ^ 48 ≤ arg 1 → ends (.sign box env) s 2 0) ∧
      (arg 0 < 2 ^ 48 → arg 1 < 2 ^ 48 → ∀ m u, wardenRead (arg 0) 48 env s = (m, u) →
        (m.resp ≠ .okay → ends (.sign box env) u 4 0) ∧
        (m.resp = .okay → ∀ r v, wardenWrite (arg 1) ((Config.p384Sign (Config.sha384
            ([0x41, 0x54, 0x54, 0x45, 0x53, 0x54, 0x31] ++ m.bytes)) u.free ++ List.replicate 96 0).take 96) {} { u with free := u.free + 1 } = (r, v) →
          ends (.sign box env) (if r = .okay then v else u) (if r = .okay then 0 else 4) 0))) ∧
    (code = 7 → (2 ^ 48 ≤ arg 0 → ends (.loadPatch box env) s 2 0) ∧
      (arg 0 < 2 ^ 48 → ∀ r e u, patchRead s.deviceId s.fuses env 300000 (arg 0) { phase := .sync } s = (r, e, u) →
        (r ≠ .okay → ends (.loadPatch box env) u 4 0) ∧
        (r = .okay → e = .bad → ends (.loadPatch box env) (u.raise F.KEY_ERR_PATCH_FAIL) 5 0) ∧
        (r = .okay → ∀ l, e = .whole l → (l.code.length ≤ 65536 ∧ s.fuses.patchMin.toNat ≤ l.imageId.toNat % 256) →
          ends (.loadPatch box env) ((patchPut l.code u).raise F.KEY_STATUS_PATCH_ACTIVE) 0 0 ∧
          ∀ i, i < l.code.length → (patchPut l.code u).peek (0x40000 + i) = l.code[i]?) ∧
        (r = .okay → ∀ l, e = .whole l → 65536 < l.code.length ∨ l.imageId.toNat % 256 < s.fuses.patchMin.toNat →
          ends (.loadPatch box env) (u.raise F.KEY_ERR_PATCH_FAIL) 5 0))) ∧
    (code = 1 → (s.ktp.hellos.find (arg 0) = none ∨ 8 ≤ arg 1 ∨ (s.sess (arg 1)).st ≠ .closed → ends (.openSession box env) s 2 0) ∧
      (∀ port peer, s.ktp.hellos.find (arg 0) = some (port, peer) → arg 1 < 8 → (s.sess (arg 1)).st = .closed →
        (s.on F.KTP_CTRL_EN = false → ends (.openSession box env) s 4 0) ∧
        (s.on F.KTP_CTRL_EN = true → ∀ m u, wardenRead (s.get F.KTP_CRX_BASE_ADDR * 4096 + arg 0 * 2048 + 96) 129 env s = (m, u) →
          (m.resp ≠ .okay → ends (.openSession box env) u 4 0) ∧
          (m.resp = .okay → ∃ v : State, ends (.openSession box env) v 0 (BitVec.ofNat 64 (v.sess (arg 1)).id.toNat) ∧
            (v.sess (arg 1)).st = .opening ∧ (v.sess (arg 1)).id ≠ 0 ∧ (v.sess (arg 1)).peer = peer ∧ (v.sess (arg 1)).port = port ∧
            (v.sess (arg 1)).sa0.key.isSome = true ∧ ∀ k, k ≠ arg 1 → v.sess k = u.sess k))))) ∧
  (∀ (flash : List W32) (s : State),
    (s.warden.booting = true → s.domOn 89 = true → s.power.asleep = false →
      (∀ l, stewardJudge flash s = .whole l → exec (.stewardBoot flash) s = .next (stewardStart l.code s)) ∧
      (stewardJudge flash s = .bad → s.warden.feed = [] → Completes (.stewardBoot flash) s fun t => t.on F.KEY_ERR_BOOT_FAIL = true ∧
        t.warden.booting = true ∧ t.cores = s.cores ∧ RegsBut s t [R.KEY_ERR.addr 0])) ∧
    (s.warden.booting = true → s.domOn 89 = true → s.power.asleep = false → ∀ l, stewardJudge flash s = .whole l →
      s.on F.WDG_CORE_CTRL_RUN 0 = false → s.on F.WDG_CORE_STATUS_OFFLINE 0 = false → s.domOn 76 = true → s.power.resume = false →
      bit (s.get F.DBG_RESET_HALT_CORES) 0 = false → s.on F.SPD_HANDOVER_PENDING 30 = false → s.on F.SPD_HANDOVER_PENDING 31 = false →
      Completes (.stewardBoot flash) s fun t => t.get F.SPD_OWN_OWNER 30 = 1 ∧ t.get F.SPD_OWN_OWNER 31 = 1 ∧
        t.core 0 = { pc := 0x101E00000 } ∧ t.on F.WDG_CORE_CTRL_RUN 0 = true ∧ t.warden.booting = false) ∧
    (s.warden.booting = false → exec (.stewardBoot flash) s = .next s) ∧
    (∀ l, stewardJudge flash s = .whole l → l.code.length ≤ 2 * 2 ^ 20 ∧ l.phase = .ended))

/-- 15 R799, R802, R805 to R814. Where it goes beyond those rules it rests on the model's choices of log entries 14, 98, 129. -/
def Obligations.ScratchpadAccess : Prop :=
  (∀ (q : SandReq) (env : Env) (s : State) (b off : Nat), b < 32 → off < 2 ^ 20 → q.addr.toNat = 0x100000000 + b * 2 ^ 20 + off →
    off % 4096 + q.len.toNat < 4096 → (q.op ≠ .read → q.data.length = q.len.toNat + 1) → env.upset = .none → env.busy = false →
    let a := q.addr.toNat
    let n := q.len.toNat + 1
    let w := a / 8
    let sizeBad := (n ≤ 8 ∧ 64 < a % 64 + n) ∨ (8 < n ∧ (a % 8 ≠ 0 ∨ n % 8 ≠ 0))
    let owned := s.on F.SPD_HANDOVER_PENDING b = false ∧ ownerCode q.ini.val = some (s.get F.SPD_OWN_OWNER b)
    let both (p : Instr → Prop) : Prop := p (.scratchpadRead q env) ∧ (q.op = .write → p (.scratchpadWrite q env))
    (s.domOn (86 + b / 8) = false → both fun c => Completes c s fun t => t.ans.resp = .poweredDown ∧ t = { s with ans := t.ans }) ∧
    (s.domOn (86 + b / 8) = true → s.unitClocked (10 + b / 8) = false →
      both fun c => Completes c s fun t => t.ans.resp = .timeout ∧ t = { s with ans := t.ans }) ∧
    (s.unitClocked (10 + b / 8) = true → sizeBad → both fun c => Completes c s fun t => t.ans.resp = .size ∧ t = { s with ans := t.ans }) ∧
    (s.unitClocked (10 + b / 8) = true → ¬sizeBad → ¬owned → both fun c => Completes c s fun t => t.ans.resp = .notOwner ∧
      t.on F.SPD_ERR_NOT_OWNER = true ∧ (s.on F.SPD_OWNER_LOG_VALID = false → t.get F.SPD_OWNER_LOG_ADDR = a ∧
        t.get F.SPD_OWNER_LOG_INIT = q.ini.val % 1024 ∧ t.on F.SPD_OWNER_LOG_VALID = true) ∧
      (s.on F.SPD_OWNER_LOG_VALID = true → t.rd R.SPD_OWNER_LOG = s.rd R.SPD_OWNER_LOG) ∧
      RegsBut s t [R.SPD_ERR.addr 0, R.SPD_OWNER_LOG.addr 0] ∧ t = { s with ans := t.ans, regs := t.regs }) ∧
    (s.domOn (86 + b / 8) = false → q.op = .writeP → Completes (.scratchpadWrite q env) s fun t => t.ans = s.ans ∧ t.mem = s.mem ∧
      t.on F.NOC_ERR_POSTED_ERR = true) ∧
    (s.unitClocked (10 + b / 8) = true → ¬sizeBad → owned →
      (∀ bs, s.peeks a n = some bs → (∀ k ∈ wordsOf a n, s.peeks (k * 8) 8 ≠ none ∧ s.wordFlaw.get .none k = .none ∧
          ∀ e ∈ (s.bank b).merge, e.word ≠ k) → Completes (.scratchpadRead q env) s fun t =>
        t.ans = { resp := .okay, data := t.ans.data, block := bs, poison := [] } ∧ t.mem = s.mem ∧
          t = { s with ans := t.ans, wordFlaw := t.wordFlaw }) ∧
      (off / 8 = (off + n - 1) / 8 → s.peeks (w * 8) 8 ≠ none → (∀ e ∈ (s.bank b).merge, e.word ≠ w) →
        (s.wordFlaw.get .none w = .single → Completes (.scratchpadRead q env) s fun t => t.ans.resp = .okay ∧ some t.ans.block = s.peeks a n ∧
          t.get F.SPD_ECC_CORRECTED b = min (s.get F.SPD_ECC_CORRECTED b + 1) 65535 ∧ t.on F.SPD_ERR_CORRECTED = true ∧
          w ∈ (t.bank b).back ∧ t.mem = s.mem ∧ RegsBut s t [R.SPD_ECC.addr b, R.SPD_ERR.addr 0]) ∧
        (s.wordFlaw.get .none w = .double → Completes (.scratchpadRead q env) s fun t => t.ans.resp = .uncorrectable ∧ t.ans.poison = [0] ∧
          t.get F.SPD_ECC_UE b = min (s.get F.SPD_ECC_UE b + 1) 65535 ∧ t.on F.SPD_ERR_UE = true ∧
          (s.on F.SPD_UE_LOG_VALID = false → t.get F.SPD_UE_LOG_ADDR = a ∧ t.on F.SPD_UE_LOG_VALID = true) ∧ t.mem = s.mem ∧
          t.wordFlaw.get .none w = .double ∧ RegsBut s t [R.SPD_ECC.addr b, R.SPD_ERR.addr 0, R.SPD_UE_LOG.addr 0]) ∧
        (q.op = .write → n < 8 → s.wordFlaw.get .none w = .double → Completes (.scratchpadWrite q env) s fun t => t.ans.resp = .uncorrectable ∧
          t.on F.SPD_ERR_UE = true ∧ t.mem = s.mem ∧ t.banks = s.banks ∧ RegsBut s t [R.SPD_ERR.addr 0, R.SPD_UE_LOG.addr 0]) ∧
        (q.op = .write → n < 8 → s.wordFlaw.get .none w = .none → (s.bank b).merge.length < 8 → Completes (.scratchpadWrite q env) s fun t =>
          t.ans.resp = .okay ∧ t.mem = s.mem ∧ RegsBut s t [] ∧ (∀ c, c ≠ b → t.bank c = s.bank c) ∧
          ∃ e, (t.bank b).merge = (s.bank b).merge ++ [e] ∧ e.word = w ∧
            ∀ i, i < 8 → some (BitVec.ofNat 8 (e.data.toNat / 256 ^ i)) =
              if a ≤ w * 8 + i ∧ w * 8 + i < a + n then q.data[w * 8 + i - a]? else s.peek (w * 8 + i))) ∧
      (∀ e, (s.bank b).merge = [e] → e.word = w → off / 8 = (off + n - 1) / 8 → Completes (.scratchpadRead q env) s fun t =>
        t.ans.resp = .okay ∧ t.ans.block = ((natBytes e.data.toNat 8).drop (a % 8)).take n ∧ t.mem = s.mem ∧ RegsBut s t []) ∧
      (q.op ≠ .read → a % 8 = 0 → n % 8 = 0 → Completes (.scratchpadWrite q env) s fun t =>
        (if q.op = .write then t.ans.resp = .okay else t.ans = s.ans) ∧ RegsBut s t [] ∧
        BytesBut s t ((List.range n).map (a + ·)) ∧ (∀ i, i < n → t.peek (a + i) = q.data[i]?) ∧
        (∀ k ∈ wordsOf a n, t.wordFlaw.get .none k = .none ∧ (∀ e ∈ (t.bank b).merge, e.word ≠ k) ∧ k ∉ (t.bank b).back) ∧
        ∀ e, e ∈ t.resv ↔ e ∈ s.resv ∧ (e.1 + 0x40 = q.ini.val ∨ e.2 < a / 64 ∨ (a + n - 1) / 64 < e.2)))) ∧
  (∀ (bank : BankId) (entry : Fin 8) (s : State), s.unitClocked (10 + bank.val / 8) = true →
    (∀ e, (s.bank bank.val).merge[entry.val]? = some e → s.mergeHome → Completes (.mergeEntryWrite bank entry) s fun t =>
      (∀ i, i < 8 → t.peek (e.word * 8 + i) = (natBytes e.data.toNat 8)[i]?) ∧ BytesBut s t ((List.range 8).map (e.word * 8 + ·)) ∧
      (∀ x ∈ (t.bank bank.val).merge, x.word ≠ e.word) ∧ t.wordFlaw.get .none e.word = .none ∧ RegsBut s t []) ∧
    (∀ w r, (s.bank bank.val).back = w :: r → Completes (.scratchpadWriteBack bank) s fun t => t.wordFlaw.get .none w = .none ∧
      (t.bank bank.val).back = r ∧ (t.bank bank.val).merge = (s.bank bank.val).merge ∧ t.mem = s.mem ∧ RegsBut s t []))

/-- 15 R798, R801, R803, R821 to R825; 09 R480. Where it goes beyond those rules it rests on the model's choices of log entries 95, 99, 129. -/
def Obligations.HandoverAndDma : Prop :=
  (∀ code, code < 2 ^ 14 → (ownerOk code = true ↔ bits code 4 4 = 0 ∧
    ((bits code 0 4 ∈ [0, 2, 3, 6] ∧ bits code 8 6 = 0) ∨ (bits code 0 4 = 1 ∧ bits code 8 6 < 8) ∨
     (bits code 0 4 = 4 ∧ bits code 8 6 < 32) ∨ bits code 0 4 = 5))) ∧
  (∀ (bank : BankId) (w : W32) (s : State), s.domOn (86 + bank.val / 8) = true →
    let b := bank.val
    let lo := (0x100000000 + b * 2 ^ 20) / 64
    (s.on F.SPD_HANDOVER_PENDING b = true ∨ ownerOk (w.toNat % 2 ^ 14) = false →
      exec (.spdHandover bank w) s = .next (s.put F.SPD_ERR_CFG_REFUSED 0 1)) ∧
    (s.on F.SPD_HANDOVER_PENDING b = false → ownerOk (w.toNat % 2 ^ 14) = true → Completes (.spdHandover bank w) s fun t =>
      t.get F.SPD_HANDOVER_NEXT b = w.toNat % 2 ^ 14 ∧ t.on F.SPD_HANDOVER_PENDING b = true ∧
        t.get F.SPD_OWN_OWNER b = s.get F.SPD_OWN_OWNER b ∧ RegsBut s t [R.SPD_HANDOVER.addr b]) ∧
    (s.on F.SPD_HANDOVER_PENDING b = true → s.unitClocked (10 + b / 8) = true → s.mergeHome → Completes (.handoverDone bank) s fun t =>
      t.get F.SPD_OWN_OWNER b = s.get F.SPD_HANDOVER_NEXT b ∧ t.on F.SPD_HANDOVER_PENDING b = false ∧ t.on F.SPD_ERR_HANDOVER_DONE = true ∧
        (t.bank b).merge = [] ∧ (∀ e, e ∈ t.resv ↔ e ∈ s.resv ∧ (e.2 < lo ∨ lo + 16384 ≤ e.2)) ∧
        RegsBut s t [R.SPD_OWN.addr b, R.SPD_HANDOVER.addr b, R.SPD_ERR.addr 0]) ∧
    (s.on F.SPD_HANDOVER_PENDING b = false → exec (.handoverDone bank) s = .next s)) ∧
  (∀ (src dst f o n : Nat) (p : Nat × Nat), p ∈ dmaPieces src dst f o n → 0 < p.2 ∧ p.2 ≤ 4096 ∧ o ≤ p.1 ∧ p.1 + p.2 ≤ o + n ∧
    (src + p.1) % 4096 + p.2 ≤ 4096 ∧ (dst + p.1) % 4096 + p.2 ≤ 4096) ∧
  (∀ (ch : DmaId) (w moved : W32) (s : State),
    let c := ch.val
    let src := s.get F.DMA_SRC_ADDR c
    let dst := s.get F.DMA_DST_ADDR c
    let len := s.get F.DMA_LEN_BYTES c
    let bad := s.get F.DMA_STATUS_STATE c = 1 ∨ len = 0 ∨ src % 8 ≠ 0 ∨ dst % 8 ≠ 0 ∨ len % 8 ≠ 0
    (bit w.toNat 3 = false → bad → Completes (.dmaGo ch w) s fun t => t.on F.DMA_STATUS_REFUSED c = true ∧ t.dma = s.dma ∧
      t.get F.DMA_STATUS_STATE c = s.get F.DMA_STATUS_STATE c ∧ RegsBut s t [R.DMA_CTRL.addr c, R.DMA_STATUS.addr c]) ∧
    (bit w.toNat 3 = false → ¬bad → Completes (.dmaGo ch w) s fun t => t.get F.DMA_STATUS_STATE c = 1 ∧ t.get F.DMA_DONE_BYTES_BYTES c = 0 ∧
      t.dma.find c = some { fill := bit w.toNat 1, src, dst, len, pattern := s.rd R.DMA_PATTERN c } ∧ t.mem = s.mem ∧
      (∀ k, k ≠ c → t.dma.find k = s.dma.find k) ∧ RegsBut s t [R.DMA_CTRL.addr c, R.DMA_STATUS.addr c, R.DMA_DONE_BYTES.addr c]) ∧
    (∀ d, s.dma.find c = some d → bit w.toNat 0 = false → Completes (.dmaAbort ch w moved) s fun t =>
      t.get F.DMA_STATUS_STATE c = 3 ∧ t.on F.DMA_STATUS_HALTED c = true ∧ t.dma.find c = none ∧
      (moved.toNat < 8 → t.get F.DMA_STATUS_RESP c = 0 ∧ t.get F.DMA_DONE_BYTES_BYTES c = 0 ∧ t.mem = s.mem)) ∧
    (s.dma.find c = none → bit w.toNat 0 = false → Completes (.dmaAbort ch w moved) s fun t => RegsBut s t [R.DMA_CTRL.addr c] ∧
      t = { s with regs := t.regs })) ∧
  (∀ (ch : DmaId) (env : Env) (at_ : W32) (resp : Resp) (write : Bool) (s : State) (d : DmaRun), s.dma.find ch.val = some d →
    s.dmaFrozen = false → s.power.asleep = false →
    let c := ch.val
    let halted (t : State) (n : Nat) (r : Resp) (a : Nat) : Prop := t.get F.DMA_STATUS_STATE c = 3 ∧ t.on F.DMA_STATUS_HALTED c = true ∧
      t.get F.DMA_STATUS_RESP c = r.code ∧ t.get F.DMA_ERR_ADDR_ADDR c = a % 2 ^ 48 ∧ t.get F.DMA_DONE_BYTES_BYTES c = n % 2 ^ 32 ∧ t.dma.find c = none
    (d.stop = false → ∀ e n u, dmaMove c d d.len env s = (e, n, u) →
      (e = .done → Completes (.dmaDone ch env) s fun t => t.get F.DMA_STATUS_STATE c = 2 ∧ t.on F.DMA_STATUS_DONE c = true ∧
        t.get F.DMA_DONE_BYTES_BYTES c = n % 2 ^ 32 ∧ t.dma.find c = none ∧ t.mem = u.mem ∧
        RegsBut u t [R.DMA_STATUS.addr c, R.DMA_DONE_BYTES.addr c]) ∧
      (∀ r a, e = .failed r a → Completes (.dmaDone ch env) s fun t => halted t n r a ∧ t.mem = u.mem)) ∧
    (d.stop = true → exec (.dmaDone ch env) s = .next s) ∧
    (resp ≠ .okay → at_.toNat < d.len → ∀ e n u, dmaMove c d (at_.toNat / 8 * 8) {} s = (e, n, u) →
      (e = .done → Completes (.dmaHalt ch at_ resp write) s fun t => t.mem = u.mem ∧
        halted t n resp ((if write || d.fill then d.dst else d.src) + at_.toNat / 8 * 8)) ∧
      (∀ r a, e = .failed r a → Completes (.dmaHalt ch at_ resp write) s fun t => halted t n r a ∧ t.mem = u.mem))) ∧
  (∀ s : State, (s.vrd.job ≠ .load → exec .loaderDone s = .next s) ∧
    (s.vrd.job = .load → s.unitClocked 8 = true → ∀ (m : MemAns) (u : State),
      (pieces 34 (s.get F.VRD_LDR_SRC_ADDR * 4096) 131072).foldl (fun (acc : MemAns × State) p =>
        if acc.1.resp ≠ .okay then acc
        else let (k, t) := sandRead { ini := 0x4D } p.1 p.2 {} acc.2; (⟨k.resp, acc.1.bytes ++ k.bytes, []⟩, t)) (⟨.okay, [], []⟩, s) = (m, u) →
      (m.resp = .okay → exec .loaderDone s = .next (vrdLoaded ((List.range 16384).map fun k => BitVec.ofNat 64 (numAt m.bytes (8 * k) 8)) u)) ∧
      (m.resp ≠ .okay → Completes .loaderDone s fun t => t.on F.VRD_ERR_LOAD_ERR = true ∧ t.vrd.job = .idle ∧ t.mem = u.mem)))

/-- 16 R829 to R847, R861, R1012. Where it goes beyond those rules it rests on the model's choices of log entries 101, 102. -/
def Obligations.DramChannels : Prop :=
  ∀ (ch : ChanId) (w : W32) (t1 t2 : TrainResult) (s : State),
    let c := ch.val
    let st := s.chanState c
    let lo := 0x100000000000 + c * 2 ^ 36
    let lost (t : State) : Prop := (∀ a, lo ≤ a → a < lo + 2 ^ 36 → t.peek a = none) ∧ (∀ a, a < lo ∨ lo + 2 ^ 36 ≤ a → t.peek a = s.peek a)
    let en := bit w.toNat 0
    let calm := (s.chan c).queue = []
    let wide (t : TrainResult) : Prop := ∀ i : Fin 10, 16 ≤ t.rd[i].toNat ∧ 16 ≤ t.wr[i].toNat
    (en = true → bit w.toNat 3 = false → s.domOn (90 + c) = true → st = 0 →
      (s.on F.DMC_TSET0_VALID (c * 2) = false → Completes (.dmcEnable ch w) s fun t => t.on F.DMC_ERR_CFG_REFUSED c = true ∧ t.chanState c = 0 ∧
        t.mem = s.mem ∧ t.on F.DMC_CTRL_EN c = s.on F.DMC_CTRL_EN c) ∧
      (s.on F.DMC_TSET0_VALID (c * 2) = true → calm → Completes (.dmcEnable ch w) s fun t => t.chanState c = 1 ∧ t.on F.DMC_CTRL_EN c = true ∧
        t.get F.DMC_UE_LIMIT_TOTAL c = 0 ∧ t.get F.DMC_STATUS_ACTIVE_SET c = 0 ∧ t.on F.DMC_CTRL_INIT_FILL c = bit w.toNat 1 ∧
        t.on F.DMC_CTRL_AUTO_RETIRE c = bit w.toNat 2 ∧ lost t ∧ RegsBut s t [R.DMC_CTRL.addr c, R.DMC_STATUS.addr c, R.DMC_UE_LIMIT.addr c])) ∧
    (en = true → s.domOn (90 + c) = false → Completes (.dmcEnable ch w) s fun t => t.ans.resp = .poweredDown ∧ t = { s with ans := t.ans }) ∧
    (st = 1 → s.supplied .vddqDmc = false → ∀ whole, Completes (.dmcInitDone ch whole t1 t2) s fun t => t.chanState c = 7 ∧
      t.on F.DMC_ERR_TRAIN_FAIL c = true ∧ t.mem = s.mem) ∧
    (st = 1 → s.supplied .vddqDmc = true → s.on F.DMC_TSET0_VALID (c * 2 + 1) = false ∨ wide t2 →
      (wide t1 → s.on F.DMC_CTRL_INIT_FILL c = false → ∀ whole, Completes (.dmcInitDone ch whole t1 t2) s fun t => t.chanState c = 3 ∧
        t.on F.DMC_ERR_INIT_DONE c = true ∧ t.mem = s.mem ∧ t.filled = s.filled ∧
        (s.on F.DMC_TSET0_VALID (c * 2 + 1) = true → t.on F.DMC_STATUS_B_TRAINED c = true)) ∧
      (wide t1 → s.on F.DMC_CTRL_INIT_FILL c = true → Completes (.dmcInitDone ch true t1 t2) s fun t => t.chanState c = 3 ∧
        t.on F.DMC_ERR_INIT_DONE c = true ∧ ∀ a, lo ≤ a → a < lo + 2 ^ 36 → t.peek a = some 0) ∧
      (wide t1 → s.on F.DMC_CTRL_INIT_FILL c = true → Completes (.dmcInitDone ch false t1 t2) s fun t => t.chanState c = 2) ∧
      (¬wide t1 → ∀ whole, Completes (.dmcInitDone ch whole t1 t2) s fun t => t.chanState c = 7 ∧ t.on F.DMC_ERR_TRAIN_FAIL c = true ∧ t.mem = s.mem)) ∧
    (st = 2 → ∀ whole, Completes (.dmcInitDone ch whole t1 t2) s fun t => t.chanState c = 3 ∧ t.on F.DMC_ERR_INIT_DONE c = true ∧
      ∀ a, lo ≤ a → a < lo + 2 ^ 36 → t.peek a = some 0) ∧
    (en = false → bit w.toNat 3 = false →
      (st = 3 → s.poolInService c = false → Completes (.dmcDisable ch w) s fun t => t.chanState c = 0 ∧ t.on F.DMC_CTRL_EN c = false ∧
        t.on F.DMC_STATUS_B_TRAINED c = false ∧ lost t) ∧
      (st = 3 → s.poolInService c = true → Completes (.dmcDisable ch w) s fun t => t.chanState c = 3 ∧ t.on F.DMC_ERR_CFG_REFUSED c = true ∧ t.mem = s.mem) ∧
      (st = 4 ∨ st = 5 → s.poolInService c = false → Completes (.dmcDisable ch w) s fun t => t.chanState c = st ∧ t.on F.DMC_CTRL_EN c = false ∧ t.mem = s.mem)) ∧
    (en = true → bit w.toNat 3 = true → s.domOn (90 + c) = true → st ≠ 0 → st ≠ 6 → Completes (.channelRetire ch w) s fun t => t.chanState c = 6 ∧
      t.on F.DMC_ERR_RETIRED c = true ∧ t.mem = s.mem ∧ (s.get F.LDG_POOL_PAGES_COUNT c ≠ 0 → t.on F.LDG_POOL_STATUS_RETIRED c = true ∧
        t.on F.LDG_ERR_CHANNEL_RETIRED = true)) ∧
    (let d := w.toNat % 4
     let r := bits w.toNat 2 1
     let cap := if d = 0 then (if r = 0 then 32 else 64) else if d = 1 then 48 else 64
     (st = 0 → (d = 0 ∨ (d < 3 ∧ r = 0)) → Completes (.dmcConfigWrite ch w) s fun t => t.get F.DMC_CONFIG_CAPACITY c = cap ∧
       t.get F.DMC_CONFIG_DENSITY c = d ∧ t.get F.DMC_CONFIG_RANKS c = r ∧ RegsBut s t [R.DMC_CONFIG.addr c]) ∧
     (st ≠ 0 ∨ d = 3 ∨ (d ≠ 0 ∧ r = 1) → exec (.dmcConfigWrite ch w) s = .next (s.put F.DMC_ERR_CFG_REFUSED c 1))) ∧
    (st = 3 → s.domOn (90 + c) = true → bit w.toNat 8 = true → Completes (.shortRetrain ch (.force w)) s fun t => t.chanState c = 5) ∧
    (∀ n, (st = 3 → s.on F.DMC_RETRAIN_DRIFT_EN c = true → s.get F.DMC_RETRAIN_DRIFT_THR c < n → Completes (.shortRetrain ch (.drift n)) s fun t =>
        t.chanState c = 5 ∧ RegsBut s t [R.DMC_STATUS.addr c]) ∧
      (st ≠ 3 ∨ s.on F.DMC_RETRAIN_DRIFT_EN c = false ∨ n ≤ s.get F.DMC_RETRAIN_DRIFT_THR c → exec (.shortRetrain ch (.drift n)) s = .next s)) ∧
    (∀ now : BitVec 8, s.domOn (90 + c) = true → Completes (.shortRetrain ch (.temp now)) s fun t => t.get F.DMC_TEMP_NOW c = now.toNat ∧
      t.chanState c = if st = 3 ∧ s.on F.DMC_RETRAIN_TEMP_EN c = true ∧
        10 < (now.toInt - (BitVec.ofNat 8 (s.get F.DMC_TEMP_AT_TRAIN c)).toInt).natAbs then 5 else st) ∧
    (st = 5 →
      (s.on F.DMC_CTRL_EN c = true → wide t1 → calm → Completes (.retrained ch t1) s fun t => t.chanState c = 3 ∧ t.on F.DMC_ERR_RETRAINED c = true ∧
        t.get F.DMC_TEMP_AT_TRAIN c = t1.temp.toNat ∧ t.mem = s.mem ∧ ∀ i : Fin 10, t.get F.DMC_EYE_RD_WIDTH (c * 10 + i.val) = t1.rd[i].toNat) ∧
      (s.on F.DMC_CTRL_EN c = true → wide t1 → ∃ u : State, u.chanState c = 3 ∧ u.on F.DMC_ERR_RETRAINED c = true ∧ u.mem = s.mem ∧
        (u.chan c).queue = (s.chan c).queue ∧ exec (.retrained ch t1) s = .next (queueRelease c u)) ∧
      (¬wide t1 → s.on F.DMC_CTRL_AUTO_RETIRE c = true → Completes (.retrained ch t1) s fun t => t.chanState c = 6 ∧
        t.on F.DMC_ERR_TRAIN_FAIL c = true) ∧
      (s.on F.DMC_CTRL_EN c = false → wide t1 → Completes (.retrained ch t1) s fun t => t.chanState c = 0 ∧ lost t)) ∧
    (bit w.toNat 1 = true → s.domOn (90 + c) = true →
      let ok := st = 3 ∧ w.toNat % 2 ≠ s.get F.DMC_STATUS_ACTIVE_SET c ∧ (w.toNat % 2 = 1 → s.on F.DMC_STATUS_B_TRAINED c = true)
      (ok → Completes (.freqGo ch w) s fun t => t.chanState c = 4 ∧ (t.chan c).target = w.toNat % 2 ∧ t.mem = s.mem) ∧
      (¬ok → Completes (.freqGo ch w) s fun t => t.chanState c = st ∧ t.on F.DMC_ERR_CFG_REFUSED c = true)) ∧
    (st = 4 → s.on F.DMC_CTRL_EN c = true → wide t1 → calm → (s.chan c).target < 2 → Completes (.freqDone ch t1) s fun t => t.chanState c = 3 ∧
      t.get F.DMC_STATUS_ACTIVE_SET c = (s.chan c).target ∧ t.on F.DMC_ERR_FREQ_DONE c = true ∧ t.mem = s.mem) ∧
    (st = 3 → ∀ urgent, Completes (.refresh ch urgent) s fun t =>
      (t.chan c).owed = (if urgent = true ∧ (s.chan c).owed < 4 then (s.chan c).owed + 1 else 0) ∧ t = { s with chans := t.chans }) ∧
    (∀ port : Fin 6, let i := c * 6 + port.val
      (s.get F.DMC_PORT_TARGET_NS i = 0 → exec (.urgencyMiss ch port) s = .next s) ∧
      (s.get F.DMC_PORT_TARGET_NS i ≠ 0 → Completes (.urgencyMiss ch port) s fun t =>
        t.get F.DMC_PORT_MISS_COUNT i = min (s.get F.DMC_PORT_MISS_COUNT i + 1) 0xFFFFFFFF ∧ RegsBut s t [R.DMC_PORT_MISS.addr i]))

/-- 16 R848 to R860, R1017; 14 R785. Where it goes beyond those rules it rests on the model's choices of log entries 14, 100, 101, 129. -/
def Obligations.DramData : Prop :=
  (∀ (q : SandReq) (env : Env) (s : State) (ch : ChanId) (off : Nat), off < 2 ^ 36 → q.addr.toNat = 0x100000000000 + ch.val * 2 ^ 36 + off →
    (q.op ≠ .read → q.data.length = q.len.toNat + 1) → env.upset = .none →
    let a := q.addr.toNat
    let c := ch.val
    let n := q.len.toNat + 1
    let l := a / 64 * 64
    let cap := s.get F.DMC_CONFIG_CAPACITY c * 2 ^ 30
    let held := s.chanState c = 4 ∨ s.chanState c = 5
    let serves := s.chanState c = 3
    let clocked := s.unitClocked (14 + c) = true
    let free := s.cacheDenied q.ini.val a n = false
    let both (p : Instr → Prop) : Prop := q.op = .write → p (.dramWrite q env) ∧ p (.dramPartialWrite q env)
    let all (p : Instr → Prop) : Prop := p (.dramRead q env) ∧ both p
    let writes (p : Instr → Prop) : Prop := free → both p
    let ends (r : Resp) : Prop := all fun i => Completes i s fun t => t.ans.resp = r ∧ t = { s with ans := t.ans }
    (cap < off + n → ends .unmapped) ∧
    (off + n ≤ cap → s.domOn (90 + c) = false → ends .poweredDown) ∧
    (off + n ≤ cap → s.domOn (90 + c) = true → ¬clocked → ends .timeout) ∧
    (off + n ≤ cap → clocked → ¬held → ¬serves → ends .offline) ∧
    (off + n ≤ cap → clocked → held → ∀ i ∈ [Instr.dramRead q env, .dramWrite q env, .dramPartialWrite q env], Completes i s fun t =>
      t = { s with chans := t.chans } ∧ ∃ r, (t.chan c).queue = (s.chan c).queue ++ [r] ∧ r.q.addr = q.addr ∧ r.q.len = q.len ∧
        r.q.data = q.data ∧ r.q.ini = q.ini ∧ r.env = env) ∧
    (q.op = .writeP → ∀ i ∈ [Instr.dramWrite q env, .dramPartialWrite q env],
      (cap < off + n → Completes i s fun t => t.ans = s.ans ∧ t.mem = s.mem ∧ t.on F.NOC_ERR_POSTED_ERR = true) ∧
      (off + n ≤ cap → clocked → serves → free → a % 64 = 0 → n % 64 = 0 → Completes i s fun t => t.ans = s.ans ∧ RegsBut s t [] ∧
        BytesBut s t ((List.range n).map (a + ·)) ∧ ∀ i, i < n → t.peek (a + i) = q.data[i]?)) ∧
    (off + n ≤ cap → clocked → serves → ¬free → both fun i => Completes i s fun t =>
      t.ans.resp = .denied ∧ t = { s with ans := t.ans }) ∧
    (off + n ≤ cap → clocked → serves →
      (∀ bs, s.peeks a n = some bs → (∀ k ∈ linesOf a n, s.peeks k 64 ≠ none ∧ s.lineFlaw.get .none (k / 64) = .none ∧ s.tagOk k = true) →
        Completes (.dramRead q env) s fun t => t.ans.resp = .okay ∧ t.ans.block = bs ∧ t.ans.poison = [] ∧ t.mem = s.mem ∧
          t = { s with ans := t.ans, lineFlaw := t.lineFlaw }) ∧
      (a % 64 + n ≤ 64 → s.peeks l 64 ≠ none →
        (s.lineFlaw.get .none (a / 64) = .none → s.tagOk l = false → Completes (.dramRead q env) s fun t => t.ans.resp = .integrity ∧
          t.ans.block = [] ∧ t.get F.MEE_INTEG_COUNT = min (s.get F.MEE_INTEG_COUNT + 1) 0xFFFFFFFF ∧ t.on F.MEE_ERR_INTEGRITY = true ∧
          (s.on F.MEE_LOG_VALID = false → t.get F.MEE_LOG_ADDR = l ∧ t.get F.MEE_LOG_INIT = q.ini.val % 1024) ∧ t.mem = s.mem ∧
          RegsBut s t [R.MEE_INTEG.addr 0, R.MEE_ERR.addr 0, R.MEE_LOG.addr 0]) ∧
        (s.lineFlaw.get .none (a / 64) = .single → s.tagOk l = true → Completes (.dramRead q env) s fun t => t.ans.resp = .okay ∧
          some t.ans.block = s.peeks a n ∧ t.get F.DMC_ECC_CORRECTED c = min (s.get F.DMC_ECC_CORRECTED c + 1) 65535 ∧
          t.on F.DMC_ERR_CORRECTED c = true ∧ t.lineFlaw.get .none (a / 64) = .none ∧ t.mem = s.mem ∧
          RegsBut s t [R.DMC_ECC.addr c, R.DMC_ERR.addr c]) ∧
        (s.lineFlaw.get .none (a / 64) = .double → s.get F.DMC_UE_LIMIT_COUNT c = 0 →
          (Completes (.dramRead q env) s fun t => t.ans.resp = .uncorrectable ∧ t.ans.poison = List.range ((a % 8 + n + 7) / 8) ∧
            t.get F.DMC_ECC_UE c = min (s.get F.DMC_ECC_UE c + 1) 65535 ∧ t.on F.DMC_ERR_UE c = true ∧ t.mem = s.mem ∧
            (s.on F.DMC_ERR_LOG_VALID c = false → t.get F.DMC_ERR_LOG_ADDR c = l ∧ t.on F.DMC_ERR_LOG_VALID c = true ∧
              t.get F.DMC_ERR_LOG_KIND c = 0) ∧ RegsBut s t [R.DMC_ECC.addr c, R.DMC_UE_LIMIT.addr c, R.DMC_ERR.addr c, R.DMC_ERR_LOG.addr c]) ∧
          (n < 64 → writes fun i => Completes i s fun t => t.ans.resp = .uncorrectable ∧ t.mem = s.mem ∧ t.seals = s.seals ∧
            t.on F.DMC_ERR_PARTIAL_FAIL c = true ∧ t.on F.MEE_ERR_PARTIAL_FAIL = true)) ∧
        (n < 64 → s.lineFlaw.get .none (a / 64) = .none → s.tagOk l = true → writes fun i => Completes i s fun t => t.ans.resp = .okay ∧
          BytesBut s t ((List.range n).map (a + ·)) ∧ (∀ i, i < n → t.peek (a + i) = q.data[i]?) ∧ RegsBut s t [])) ∧
      (a % 64 = 0 → n % 64 = 0 → writes fun i => Completes i s fun t => t.ans.resp = .okay ∧ RegsBut s t [] ∧
        BytesBut s t ((List.range n).map (a + ·)) ∧ (∀ i, i < n → t.peek (a + i) = q.data[i]?) ∧
        (∀ k ∈ linesOf a n, t.lineFlaw.get .none (k / 64) = .none ∧ (s.lineKey k ≠ some none → t.tagOk k = true) ∧
          (∀ key, s.lineKey k = some (some key) → ∀ key', key' ≠ key → ∀ u : State, u.seals = t.seals → u.lineKey k = some (some key') →
            u.tagOk k = false)) ∧
        ∀ e, e ∈ t.resv ↔ e ∈ s.resv ∧ (e.1 + 0x40 = q.ini.val ∨ e.2 < a / 64 ∨ (a + n - 1) / 64 < e.2)))) ∧
  (∀ (region : Fin 8) (w : W32) (ini : Ini) (s : State),
    let r := region.val
    let lo := s.get F.MEE_RGN_BASE_ADDR r * 4096
    let hi := s.get F.MEE_RGN_LIMIT_ADDR r * 4096 + 4095
    let inDdr := 0x100000000000 ≤ lo ∧ lo ≤ hi ∧ hi < 0x100000000000 + 4 * 2 ^ 36
    (s.locked 17 = false →
      (bit w.toNat 0 = false → Completes (.meeRegionEnable region w ini) s fun t => t.on F.MEE_RGN_CTRL_EN r = false ∧
        RegsBut s t [R.MEE_RGN_CTRL.addr r]) ∧
      (bit w.toNat 0 = true → s.on F.MEE_RGN_CTRL_EN r = false → (s.memKeys.find r).isSome = true → inDdr →
        Completes (.meeRegionEnable region w ini) s fun t => t.on F.MEE_RGN_CTRL_EN r = true ∧ RegsBut s t [R.MEE_RGN_CTRL.addr r]) ∧
      (bit w.toNat 0 = true → s.on F.MEE_RGN_CTRL_EN r = false → ¬((s.memKeys.find r).isSome = true ∧ inDdr) →
        Completes (.meeRegionEnable region w ini) s fun t => t.on F.MEE_RGN_CTRL_EN r = false ∧ t.on F.MEE_ERR_CFG_REFUSED = true)) ∧
    (s.locked 17 = true → s.on F.MEE_RGN_CTRL_EN r ≠ bit w.toNat 0 → Completes (.meeRegionEnable region w ini) s fun t =>
      t.on F.MEE_RGN_CTRL_EN r = s.on F.MEE_RGN_CTRL_EN r ∧ t.on F.KEY_ERR_LOCK_VIOL = true ∧
      t.get F.KEY_VIOL_COUNT_COUNT = min (s.get F.KEY_VIOL_COUNT_COUNT + 1) 0xFFFFFFFF ∧
      (s.on F.KEY_VIOL_LOG_VALID = false → t.get F.KEY_VIOL_LOG_ADDR = R.MEE_RGN_CTRL.addr r ∧ t.get F.KEY_VIOL_LOG_INIT = ini.val)))

/-- 17 R866 to R886. That a count is judged in the window it is reported for, that TMG_FREQ.KHZ = 0 switches the frequency test
of the crossing clock off, and that a return from the flint clock is given up when its input trips, are the model's choices
(log 131). Where it goes beyond those rules it rests on the model's choices of log entries 103, 104, 131. -/
def Obligations.ClockTree : Prop :=
  (∀ (m : Fin 3) (count : W24) (silent : Bool) (s : State),
    let khz := if m.val = 2 then s.get F.TMG_FREQ_KHZ else s.get F.CKG_MON_CTRL_KHZ m
    let inTol := khz = 0 ∨ ((1000 * count.toNat : Int) - 8 * khz).natAbs * 40 ≤ 8 * khz * s.get F.CKG_MON_CTRL_TOL m
    let trips := ¬(m.val = 2 ∧ s.on F.TMG_STATUS_HOLDOVER = true) ∧ (silent = true ∨ ¬inTol ∨ (m.val = 2 ∧ s.boundariesRun = false))
    (¬trips → Completes (.monitorTrip m count silent) s fun t =>
      t.get F.CKG_MON_STATUS_COUNT m = count.toNat ∧ t = { s with regs := t.regs } ∧ RegsBut s t [R.CKG_MON_STATUS.addr m] ∧
      t.on F.CKG_MON_STATUS_STABLE m = s.on F.CKG_MON_STATUS_STABLE m) ∧
    (trips → Completes (.monitorTrip m count silent) s fun t =>
      t.on F.CKG_MON_STATUS_STABLE m = false ∧ t.on F.CKG_MON_STATUS_TRIPPED m = true ∧ t.on F.CKG_ERR_MON_TRIP = true ∧
      (∀ q, q < 48 → t.on F.LNE_QUAD_ERR_REF_LOST q = (s.on F.LNE_QUAD_ERR_REF_LOST q || decide (s.get F.LNE_QPLL_REF q = m.val))) ∧
      (∀ (n : SynId) (fb : Bool), s.synActive n = some fb → s.synInput n fb = m.val →
        let next := s.synInput n (!fb)
        t.on F.CKG_SYN_EVT_TRIP n = true ∧ t.on F.CKG_SYN_STATUS_LOCK n = false ∧ t.get F.CKG_SYN_STATUS_XLOCK n = 0 ∧
        (next = 3 → t.synState n = 5 ∧ t.on F.CKG_SYN_EVT_FLINT n = true ∧ (t.synth n).running = true ∧ (t.synth n).exp = 4) ∧
        (next ≠ 3 → (t.synth n).running = false ∧ (t.synth n).relock = some (!fb) ∧
          t.synState n = if next ≠ m.val ∧ s.on F.CKG_MON_STATUS_STABLE next = true then 1 else 4)) ∧
      (∀ (n : SynId) (fb : Bool), s.synActive n = some fb → s.synInput n fb ≠ m.val →
        t.synth n = s.synth n ∧ t.synState n = s.synState n ∧ t.rd R.CKG_SYN_EVT n = s.rd R.CKG_SYN_EVT n) ∧
      (∀ (n : SynId) (fb : Bool), s.synState n = 5 → (s.synth n).relock = some fb → s.synInput n fb = m.val → t.synState n = 5 ∧
        (t.synth n).relock = none ∧ t.on F.CKG_SYN_STATUS_LOCK n = false ∧ (t.synth n).running = (s.synth n).running ∧
        (t.synth n).rampDown = false)) ∧
    (inTol → m.val ≠ 2 ∨ s.boundariesRun = true → Completes (.monitorStable m count) s fun t => t.on F.CKG_MON_STATUS_STABLE m = true ∧
      (∀ (n : SynId) (fb : Bool), s.synState n = 4 → (s.synth n).relock = some fb → s.synInput n fb = m.val → t.synState n = 1) ∧
      ∀ n : SynId, s.synState n ≠ 4 → t.synState n = s.synState n ∧ t.synth n = s.synth n) ∧
    (¬inTol ∨ (m.val = 2 ∧ s.boundariesRun = false) → Completes (.monitorStable m count) s fun t => t = { s with regs := t.regs } ∧
      RegsBut s t [R.CKG_MON_STATUS.addr m] ∧ t.get F.CKG_MON_STATUS_COUNT m = count.toNat ∧ t.on F.CKG_MON_STATUS_STABLE m = s.on F.CKG_MON_STATUS_STABLE m)) ∧
  (∀ (n : SynId) (w : W32) (khz : BitVec 24) (s : State),
    let old := (s.rd R.CKG_SYN_CTRL n).toNat
    let x := s.synth n
    let fixedSame := bits w.toNat 0 22 = bits old 0 22
    (bits w.toNat 0 2 = 3 ∨ (bit old 31 = true ∧ ¬fixedSame) → exec (.synthEnable n w) s = .next (s.put F.CKG_SYN_EVT_CFG_REFUSED n 1)) ∧
    (bits w.toNat 0 2 ≠ 3 → bit old 31 = false → bit w.toNat 31 = true → Completes (.synthEnable n w) s fun t => t.synState n = 1 ∧
      (t.synth n).relock = some false ∧ t.get F.CKG_SYN_CTRL_M n = bits w.toNat 10 12 ∧ t.get F.CKG_SYN_CTRL_INPUT n = bits w.toNat 0 2 ∧
      t.on F.CKG_SYN_CTRL_EN n = true) ∧
    (bits w.toNat 0 2 ≠ 3 → bit old 31 = true → fixedSame → bit w.toNat 31 = false → Completes (.synthEnable n w) s fun t => t.synState n = 0 ∧
      (t.synth n).relock = none ∧ t.on F.CKG_SYN_STATUS_LOCK n = false ∧ (x.running = true → (t.synth n).rampDown = true)) ∧
    (∀ fb, x.relock = some fb →
      let p := (if fb then s.get F.CKG_SYN_FB_FB_P n else s.get F.CKG_SYN_CTRL_P n) + 1
      let mul := if fb then s.get F.CKG_SYN_FB_FB_M n else s.get F.CKG_SYN_CTRL_M n
      let ranges := 16 ≤ mul ∧ 5000 * p ≤ khz.toNat ∧ khz.toNat ≤ 400000 * p ∧ 2400000 * p ≤ khz.toNat * mul ∧ khz.toNat * mul ≤ 4800000 * p
      ((s.synState n = 1 ∧ x.rampDown = false) ∨ (s.synState n = 5 ∧ x.running = false) → s.srcStable (s.synInput n fb) = true → ranges → Completes (.synthLock n khz) s fun t =>
        t.synState n = (if fb then 3 else 2) ∧ t.on F.CKG_SYN_STATUS_LOCK n = true ∧ (fb = true → t.on F.CKG_SYN_EVT_FALLBACK n = true) ∧
        t.synth n = { relock := none, running := true, exp := 4, rampUp := true, rampDown := false } ∧ t.on F.CKG_SYN_STATUS_RAMPING n = true) ∧
      (s.synState n = 5 → x.running = true → s.srcStable (s.synInput n fb) = true → ranges → Completes (.synthLock n khz) s fun t =>
        t.synState n = 5 ∧ t.on F.CKG_SYN_STATUS_LOCK n = true ∧ t.synth n = { x with rampDown := true, rampUp := false } ∧
        t.on F.CKG_SYN_STATUS_RAMPING n = true) ∧
      (s.srcStable (s.synInput n fb) = false ∨ ¬ranges ∨ (s.synState n = 1 ∧ x.rampDown = true) → exec (.synthLock n khz) s = .next s)) ∧
    (s.synState n = 4 → Completes (.heldTimeout n) s fun t => t.synState n = 5 ∧ t.on F.CKG_SYN_EVT_FLINT n = true ∧
      (t.synth n).running = true ∧ (t.synth n).relock = none) ∧
    (s.synState n ≠ 4 → exec (.heldTimeout n) s = .next s) ∧
    (s.on F.CKG_SYN_CTRL_REVERT n = true →
      (s.synState n = 3 → s.srcStable (s.synInput n false) = true → Completes (.revert n) s fun t => t.synState n = 1 ∧
        (t.synth n).relock = some false ∧ t.on F.CKG_SYN_EVT_REVERT n = true ∧ t.on F.CKG_SYN_STATUS_LOCK n = false) ∧
      (s.synState n = 5 → x.relock = none → s.srcStable (s.synInput n false) = true ∨ s.srcStable (s.synInput n true) = true → Completes (.revert n) s fun t =>
        t.synState n = 5 ∧ (t.synth n).relock = some (!s.srcStable (s.synInput n false)) ∧ (t.synth n).running = x.running ∧
        t.on F.CKG_SYN_EVT_REVERT n = true)) ∧
    (s.on F.CKG_SYN_CTRL_REVERT n = false ∨ (s.synState n = 5 ∧ x.relock ≠ none) → exec (.revert n) s = .next s) ∧
    (x.rampUp = true → Completes (.rampStep n) s fun t => (t.synth n).exp = x.exp - 1 ∧ (t.synth n).rampUp = decide (1 < x.exp) ∧
      (t.synth n).running = x.running) ∧
    (x.rampUp = false → x.rampDown = true → Completes (.rampStep n) s fun t => (x.exp < 4 → (t.synth n).exp = x.exp + 1 ∧ (t.synth n).rampDown = true) ∧
      (4 ≤ x.exp → ¬(s.synState n = 5 ∧ s.on F.CKG_SYN_STATUS_LOCK n = true ∧ x.relock ≠ none) →
        (t.synth n).running = false ∧ (t.synth n).rampDown = false) ∧
      (4 ≤ x.exp → s.synState n = 5 → s.on F.CKG_SYN_STATUS_LOCK n = true → ∀ fb, x.relock = some fb →
        t.synState n = (if fb then 3 else 2) ∧ t.synth n = { relock := none, running := true, exp := 4, rampUp := true, rampDown := false } ∧
        (fb = true → t.on F.CKG_SYN_EVT_FALLBACK n = true)))) ∧
  (∀ (w : W64) (ini : Ini) (s : State), s.locked 21 = false →
    let rowOff (r : Nat) := bit (s.get F.CKG_GATE_TOP_ROW) r = true ∧ bit w.toNat (8 + r) = false ∧
      ∃ c, c < 4 ∧ bit (s.get F.CKG_GATE_BAY_BAYS) (r * 4 + c) = true ∧ s.domOn (r * 4 + c) = true ∧ s.bayState (r * 4 + c) ≠ 0 ∧ s.bayState (r * 4 + c) ≠ 6
    (ini.val ≠ 0x48 → bit w.toNat 0 ≠ s.on F.CKG_GATE_TOP_ROOT → Completes (.gateWrite .top w ini) s fun t => t.ans.resp = .denied ∧ t = { s with ans := t.ans }) ∧
    (ini.val = 0x48 ∨ bit w.toNat 0 = s.on F.CKG_GATE_TOP_ROOT →
      (∀ r, r < 16 → rowOff r → Completes (.gateWrite .top w ini) s fun t => t.on F.CKG_ERR_GATE_REFUSED = true ∧
        t.rd R.CKG_GATE_TOP = s.rd R.CKG_GATE_TOP ∧ RegsBut s t [R.CKG_ERR.addr 0, R.CKG_GATE_LOG.addr 0]) ∧
      (bit w.toNat 0 = true → bits w.toNat 1 4 = 15 → (∀ r, r < 16 → ¬rowOff r) → Completes (.gateWrite .top w ini) s fun t =>
        t.get F.CKG_GATE_TOP_ROW = bits w.toNat 8 16 ∧ t.get F.CKG_GATE_TOP_SLAB = 15 ∧ t.on F.CKG_GATE_TOP_ROOT = true ∧
        RegsBut s t [R.CKG_GATE_TOP.addr 0, R.CKG_HOLD_BAY.addr 0, R.CKG_EFF_BAY.addr 0])) ∧
    (Completes (.gateWrite .geode w ini) s fun t => t.get F.CKG_GATE_GEODE_UNIT = bits w.toNat 0 20 ∧ RegsBut s t [R.CKG_GATE_GEODE.addr 0]) ∧
    (Completes (.gateWrite .bay w ini) s fun t => t.get F.CKG_GATE_BAY_BAYS = w.toNat ∧
      RegsBut s t [R.CKG_GATE_BAY.addr 0, R.CKG_HOLD_BAY.addr 0, R.CKG_EFF_BAY.addr 0]))

/-- 17 R888 to R906. Where it goes beyond those rules it rests on the model's choices of log entries 105, 106, 107, 108, 131. -/
def Obligations.PowerManager : Prop :=
  (∀ (box : BoxId) (s : State), s.boxNext = some box.val →
    let b := box.val
    let d := (s.boxArg b 0).toNat
    let v := (s.boxArg b 1).toNat
    let ends (c : Instr) (u : State) (st : Nat) : Prop := Completes c s fun t => t.get F.KEY_REQ_STATUS_STATUS b = st ∧
      t.on F.KEY_REQ_STATUS_BUSY b = false ∧ t.on F.KEY_REQ_STATUS_DONE b = true ∧
      RegsBut u t [R.KEY_REQ_STATUS.addr b, R.KEY_REQ_RES0.addr b, R.KEY_REQ_RES1.addr b] ∧
      t = { u with regs := t.regs, warden := { u.warden with last := b } }
    (s.get F.KEY_REQ_CTRL_CODE b = 3 → (96 ≤ d ∨ 1 < v → ends (.powerDomain box) s 2) ∧
      (d < 96 → v ≤ 1 →
        (d = 76 + b ∨ (v = 0 ∧ ((d = 85 ∧ s.on F.LDG_STATUS_RUNNING = true) ∨ (∃ p, p < 8 ∧ d = 84 ∧ s.on F.VRD_PORT_CTRL_EN p = true) ∨
          (d = 89 ∧ s.on F.WDG_CORE_CTRL_RUN 0 = true) ∨ (90 ≤ d ∧ d < 94 ∧ s.poolInService (d - 90) = true) ∨
          (76 ≤ d ∧ d < 84 ∧ s.on F.WDG_CORE_STATUS_OFFLINE (d - 76) = false))) → ends (.powerDomain box) s 3) ∧
        (v = 1 ∨ d < 76 ∨ 94 ≤ d → d ≠ 76 + b → ∃ u : State, ends (.powerDomain box) u 0 ∧ u.domWanted d = (v == 1) ∧
          (∀ e, e ≠ d → u.domWanted e = s.domWanted e) ∧ u = { s with regs := u.regs } ∧ RegsBut s u [R.PWR_DOM_ON.addr (d / 32)]))) ∧
    (s.get F.KEY_REQ_CTRL_CODE b = 4 → (4 < d → ends (.powerState box) s 2) ∧
      (d ≤ 4 → s.on F.PWR_STATE_IN_TRANSITION = true → ends (.powerState box) s 3) ∧
      (d ≤ 4 → s.on F.PWR_STATE_IN_TRANSITION = false → ends (.powerState box) (pwrAsk d s) 0)) ∧
    (3 ≤ s.dbg.level → 1 ≤ d → d ≤ 3 → (pwrAsk d s).get F.PWR_STATE_CURRENT = d ∧ (pwrAsk d s).on F.PWR_STATE_EMULATED = true ∧
      RegsBut s (pwrAsk d s) [R.PWR_STATE.addr 0]) ∧
    (s.dbg.level < 3 → s.wakesActive = [] → (pwrAsk 1 s).get F.PWR_STATE_CURRENT = 1 ∧ (pwrAsk 1 s).on F.PWR_ERR_ENTRY_DONE = true ∧
      RegsBut s (pwrAsk 1 s) [R.PWR_STATE.addr 0, R.PWR_ERR.addr 0]) ∧
    (s.dbg.level < 3 → s.get F.PWR_WAKE_EN_EN = 0 → let t := pwrAsk 2 s
      t.get F.PWR_STATE_CURRENT = 2 ∧ t.on F.PWR_STATE_IN_TRANSITION = false ∧ t.on F.PWR_ERR_ENTRY_DONE = true ∧
      (∀ e, e < 96 → t.domOn e = false) ∧ (∀ n, n < 8 → t.on F.WDG_CORE_CTRL_RUN n = false) ∧ t.power.ran = (List.range 8).filter s.coreRuns ∧
      ∀ n : SynId, s.on F.CKG_SYN_CTRL_EN n = true → t.synState n = 0) ∧
    (s.dbg.level < 3 → s.get F.PWR_WAKE_EN_EN = 0 → (pwrAsk 3 s).power.asleep = true ∧ (pwrAsk 3 s).get F.PWR_STATE_CURRENT = 3) ∧
    ((pwrAsk 4 s).power.asleep = true ∧ (pwrAsk 4 s).power.powerOff = true ∧ (pwrAsk 4 s).get F.PWR_WAKE_EN_EN = 0)) ∧
  (∀ (dom : DomId) (s : State),
    let d := dom.val
    (s.domOn d = true → s.domWanted d = false → s.domSwitching d = false → Completes (.domainPowerOff dom) s fun t => t.domOn d = false ∧
      t.domSwitching d = true ∧ (∀ e, e < 96 → e ≠ d → t.domOn e = s.domOn e) ∧
      (d < 64 → t.fenced d = true ∧ t.bayState d = 0 ∧ t.windowFrames d = []) ∧
      (76 ≤ d → d < 84 → t.core (d - 76) = {} ∧ t.get F.WDG_CORE_STATUS_STATE (d - 76) ≠ 2 ∧ ∀ m, m ≠ d - 76 → t.core m = s.core m) ∧
      (86 ≤ d → d < 90 → s.mergeHome → ∀ k, k < 8 → ∀ a, (0x100000000 + ((d - 86) * 8 + k) * 2 ^ 20 ≤ a ∧ a < 0x100000000 + ((d - 86) * 8 + k + 1) * 2 ^ 20) →
        bit (s.get F.PWR_RETAIN_BANKS) ((d - 86) * 8 + k) = false → t.peek a = none) ∧
      (90 ≤ d → d < 94 → t.chanState (d - 90) = 0 ∧ ∀ a, 0x100000000000 + (d - 90) * 2 ^ 36 ≤ a → a < 0x100000000000 + (d - 89) * 2 ^ 36 → t.peek a = none)) ∧
    (s.domOn d = false ∨ s.domWanted d = true ∨ s.domSwitching d = true → exec (.domainPowerOff dom) s = .next s) ∧
    (s.domOn d = false → s.domWanted d = true → s.domSwitching d = false → s.domainsServed = true →
      (76 ≤ d ∨ s.railUp (if d < 64 then d / 16 else (d - 64) / 3) = true) → s.rampFree d = true → Completes (.domainPowerOn dom) s fun t =>
      t.domOn d = true ∧ t.domSwitching d = true ∧ (∀ e, e < 96 → e ≠ d → t.domOn e = s.domOn e) ∧ (d < 64 → t.bayState d = 0 ∧ t.windowFrames d = []) ∧
      (76 ≤ d → d < 84 → s.on F.WDG_CORE_CTRL_RUN (d - 76) = true → bit (s.get F.DBG_RESET_HALT_CORES) (d - 76) = false →
        t.core (d - 76) = { pc := BitVec.ofNat 64 (s.get F.WDG_CORE_CTRL_ENTRY (d - 76) * 4) })) ∧
    (s.domWanted d = false → exec (.domainPowerOn dom) s = .next s) ∧
    (s.domSwitching d = true → Completes (.domainDone dom) s fun t => t.domSwitching d = false ∧ t.on F.PWR_ERR_DOMAIN_DONE = true ∧
      t.domOn d = s.domOn d ∧ RegsBut s t [R.PWR_ERR.addr 0])) ∧
  (∀ (k : Fin 12) (s : State),
    let cur := s.get F.PWR_STATE_CURRENT
    (bit (s.get F.PWR_WAKE_EN_EN) k.val = false ∨ cur = 0 ∨ cur = 4 → exec (.wake k) s = .next s) ∧
    (bit (s.get F.PWR_WAKE_EN_EN) k.val = true → cur = 1 → s.on F.PWR_STATE_EMULATED = false → Completes (.wake k) s fun t =>
      t.get F.PWR_STATE_CURRENT = 0 ∧ t.get F.PWR_STATE_FROM = 1 ∧ bit (t.get F.PWR_WAKE_CAUSE_CAUSE) k.val = true ∧
      RegsBut s t [R.PWR_STATE.addr 0, R.PWR_WAKE_CAUSE.addr 0] ∧ t = { s with regs := t.regs }) ∧
    (bit (s.get F.PWR_WAKE_EN_EN) k.val = true → 1 ≤ cur → cur ≤ 3 → k.val < 11 → s.on F.PWR_STATE_EMULATED = true → Completes (.wake k) s fun t =>
      t.get F.PWR_STATE_CURRENT = 0 ∧ t.on F.PWR_STATE_EMULATED = false ∧ t.on F.PWR_ERR_EXIT_DONE = true ∧ t = { s with regs := t.regs })) ∧
  (∀ (w : W32) (s : State), (bit w.toNat 0 = true → Completes (.padRelease w) s fun t => t.svc.latch = [] ∧ (∀ e ∈ t.fabric.pins, e.2.held = none) ∧
      RegsBut s t []) ∧
    (bit w.toNat 0 = false → exec (.padRelease w) s = .next s)) ∧
  (∀ (ix : Fin 8) (value : BitVec 12) (s : State),
    let c := ix.val
    let sel := s.get F.PWR_CMP_CTRL_SEL c
    let num (v : Nat) : Int := if 4 ≤ sel ∧ sel ≤ 8 ∧ 2048 ≤ v then (v : Int) - 4096 else v
    let x := num value.toNat
    let th := num (s.get F.PWR_CMP_CTRL_THRESH c)
    let hy : Int := s.get F.PWR_CMP_CTRL_HYST c
    let met := if s.on F.PWR_CMP_CTRL_DIR c then x ≤ th else th ≤ x
    let run := s.cmpRuns.get 0 c
    let rises := s.on F.PWR_CMP_STATUS_OUT c = false ∧ met ∧ s.get F.PWR_CMP_CTRL_FILTER c ≤ run
    let wakes := bit (s.get F.PWR_WAKE_EN_EN) c = true ∧ s.get F.PWR_STATE_CURRENT ≠ 0
    (s.on F.PWR_CMP_CTRL_EN c = false → exec (.comparatorSample ix value) s = .next s) ∧
    (s.on F.PWR_CMP_CTRL_EN c = true → 17 ≤ sel → Completes (.comparatorSample ix value) s fun t => t.on F.PWR_CMP_STATUS_OUT c = false ∧
      t.get F.PWR_CMP_STATUS_VALUE c = value.toNat ∧ t.cmpRuns.get 0 c = 0 ∧ RegsBut s t [R.PWR_CMP_STATUS.addr c]) ∧
    (s.on F.PWR_CMP_CTRL_EN c = true → sel ≤ 16 → rises → wakes → s.get F.PWR_STATE_CURRENT = 1 → s.on F.PWR_STATE_EMULATED = false →
      Completes (.comparatorSample ix value) s fun t => t.get F.PWR_STATE_CURRENT = 0 ∧ t.get F.PWR_STATE_FROM = 1 ∧
        bit (t.get F.PWR_WAKE_CAUSE_CAUSE) c = true ∧ t.on F.PWR_CMP_STATUS_OUT c = true ∧ t.on F.PWR_CMP_STATUS_ROSE c = true ∧
        RegsBut s t [R.PWR_CMP_STATUS.addr c, R.PWR_STATE.addr 0, R.PWR_WAKE_CAUSE.addr 0]) ∧
    (s.on F.PWR_CMP_CTRL_EN c = true → sel ≤ 16 → ¬(rises ∧ wakes) → Completes (.comparatorSample ix value) s fun t => t.get F.PWR_CMP_STATUS_VALUE c = value.toNat ∧
      RegsBut s t [R.PWR_CMP_STATUS.addr c] ∧
      (¬met → t.cmpRuns.get 0 c = 0) ∧ (met → t.cmpRuns.get 0 c = min (run + 1) 16) ∧
      (s.on F.PWR_CMP_STATUS_OUT c = false → t.on F.PWR_CMP_STATUS_OUT c = decide (met ∧ s.get F.PWR_CMP_CTRL_FILTER c ≤ run)) ∧
      (rises → t.on F.PWR_CMP_STATUS_ROSE c = true) ∧
      (s.on F.PWR_CMP_STATUS_OUT c = true → (t.on F.PWR_CMP_STATUS_OUT c = false ↔
        if s.on F.PWR_CMP_CTRL_DIR c then th + hy < x else x < th - hy))))

/-- 18 R913 to R926, R938. Where it goes beyond those rules it rests on the model's choices of log entries 108, 110, 111, 113. -/
def Obligations.PinsAndPeripherals : Prop :=
  (∀ (pin : PinId) (w : W32) (ini : Ini) (high : Bool) (s : State),
    let p := pin.val
    let old := (s.rd R.SVP_PIN_CTRL p).toNat
    let mode (t : State) := t.get F.SVP_PIN_CTRL_IRQ_MODE p
    let has := s.svc.high.contains p
    let level (m : Nat) (h : Bool) : Prop := (m = 4 ∧ h = true) ∨ (m = 5 ∧ h = false)
    let quiet := bit (s.get F.PWR_WAKE_EN_EN) 8 = false ∨ s.get F.PWR_STATE_CURRENT = 0
    let edge := mode s = 3 ∨ (mode s = 1 ∧ high = true) ∨ (mode s = 2 ∧ high = false) ∨ level (mode s) high
    (s.locked 23 = false ∨ 4 ≤ p → quiet →
      (bits w.toNat 0 19 ≠ bits old 0 19 → Completes (.pinFunctionSwitch pin w ini) s fun t => t.on F.SVP_PIN_STATUS_SWITCHING p = true ∧
        (t.rd R.SVP_PIN_CTRL p).toNat = bits w.toNat 0 27 + old / 2 ^ 27 * 2 ^ 27 ∧ t.pinDrive p = s.pinDrive p ∧
        t.on F.SVP_PIN_STATUS_IRQ p = s.on F.SVP_PIN_STATUS_IRQ p ∧ RegsBut s t [R.SVP_PIN_CTRL.addr p, R.SVP_PIN_STATUS.addr p]) ∧
      (bits w.toNat 0 19 = bits old 0 19 → s.on F.SVP_PIN_STATUS_SWITCHING p = false → Completes (.pinFunctionSwitch pin w ini) s fun t =>
        (t.rd R.SVP_PIN_CTRL p).toNat = bits w.toNat 0 27 + old / 2 ^ 27 * 2 ^ 27 ∧ t.on F.SVP_PIN_STATUS_SWITCHING p = false ∧
        t.svc = s.svc ∧ t.on F.SVP_PIN_STATUS_IRQ p = (s.on F.SVP_PIN_STATUS_IRQ p || decide (level (bits w.toNat 22 3) has)))) ∧
    (s.locked 23 = true → p < 4 → bits w.toNat 0 27 ≠ bits old 0 27 → Completes (.pinFunctionSwitch pin w ini) s fun t =>
      t.rd R.SVP_PIN_CTRL p = s.rd R.SVP_PIN_CTRL p ∧ t.on F.KEY_ERR_LOCK_VIOL = true ∧ t.svc = s.svc) ∧
    (s.on F.SVP_PIN_STATUS_SWITCHING p = false → exec (.switchWindowEnd pin) s = .next s) ∧
    (s.on F.SVP_PIN_STATUS_SWITCHING p = true → quiet → Completes (.switchWindowEnd pin) s fun t => t.on F.SVP_PIN_STATUS_SWITCHING p = false ∧
      t.svc.window.find p = none ∧ (s.svc.latch.find p = none → t.pinDrive p = t.pinFunction p) ∧
      t.on F.SVP_PIN_STATUS_IRQ p = (s.on F.SVP_PIN_STATUS_IRQ p || decide (level (mode s) has)) ∧ RegsBut s t [R.SVP_PIN_STATUS.addr p]) ∧
    (has = high → exec (.pinLevelChange pin high) s = .next s) ∧
    (s.power.asleep = false → high = false ∨ s.xtrigOf p = [] → has ≠ high → quiet →
      Completes (.pinLevelChange pin high) s fun t => t.svc.high.contains p = high ∧ t.on F.SVP_PIN_STATUS_IN p = high ∧
        (∀ q, q ≠ p → t.svc.high.contains q = s.svc.high.contains q) ∧
        RegsBut s t (R.SVP_PIN_STATUS.addr p :: ((List.range 8).filter fun k =>
          high && s.get F.SVP_TMR_CTRL_MODE k == 2 && s.sigPin 5 k == some p).map fun k => R.SVP_TMR_VAL.addr k) ∧
        t.on F.SVP_PIN_STATUS_IRQ p = (s.on F.SVP_PIN_STATUS_IRQ p || (!s.on F.SVP_PIN_STATUS_SWITCHING p && decide edge))) ∧
    (s.power.asleep = true → has ≠ high → quiet → Completes (.pinLevelChange pin high) s fun t => t.svc.high.contains p = high ∧
      t.on F.SVP_PIN_STATUS_IN p = high ∧ RegsBut s t [R.SVP_PIN_STATUS.addr p] ∧
      t.on F.SVP_PIN_STATUS_IRQ p = (s.on F.SVP_PIN_STATUS_IRQ p || (!s.on F.SVP_PIN_STATUS_SWITCHING p && decide edge))) ∧
    (high = false ∨ s.xtrigOf p = [] → has ≠ high → edge → s.on F.SVP_PIN_STATUS_SWITCHING p = false → s.on F.SVP_PIN_STATUS_IRQ p = false →
      s.on F.SVP_PIN_CTRL_WAKE p = true → bit (s.get F.PWR_WAKE_EN_EN) 8 = true → s.get F.PWR_STATE_CURRENT = 1 →
      s.on F.PWR_STATE_EMULATED = false → Completes (.pinLevelChange pin high) s fun t => t.get F.PWR_STATE_CURRENT = 0 ∧
        t.get F.PWR_STATE_FROM = 1 ∧ bit (t.get F.PWR_WAKE_CAUSE_CAUSE) 8 = true ∧ t.on F.SVP_PIN_STATUS_IRQ p = true)) ∧
  (∀ (ix : Fin 4) (w : W32) (byte : Byte) (quiet : Bool) (s : State),
    let u := ix.val
    let x := s.uart u
    (x.tx.length < 16 → Completes (.uartDataWrite ix w) s fun t => (t.uart u).tx = x.tx ++ [BitVec.ofNat 8 w.toNat] ∧ (t.uart u).rx = x.rx ∧
      t.on F.SVP_UART_STATUS_TX_FULL u = decide (x.tx.length = 15)) ∧
    (16 ≤ x.tx.length → exec (.uartDataWrite ix w) s = .next s) ∧
    (∀ b r, x.rx = b :: r → Completes (.uartDataRead ix quiet) s fun t => t.ans.data = BitVec.ofNat 64 b.toNat ∧
      (t.uart u).rx = (if quiet then b :: r else r) ∧ (t.uart u).tx = x.tx) ∧
    (x.rx = [] → Completes (.uartDataRead ix quiet) s fun t => bit t.ans.data.toNat 8 = true ∧ (t.uart u).rx = []) ∧
    (s.on F.SVP_UART_CTRL_EN u = true → (s.sigPin 2 (u * 2 + 1)).isSome = true →
      (x.rx.length < 16 → Completes (.uartByteReceived ix byte) s fun t => (t.uart u).rx = x.rx ++ [byte] ∧ t.get F.SVP_UART_STATUS_RX_COUNT u = x.rx.length + 1) ∧
      (16 ≤ x.rx.length → exec (.uartByteReceived ix byte) s = .next (s.put F.SVP_UART_STATUS_OVERRUN u 1))) ∧
    (s.on F.SVP_UART_CTRL_EN u = false → exec (.uartByteReceived ix byte) s = .next s ∧ exec (.uartByteSent ix) s = .next s) ∧
    (s.on F.SVP_UART_CTRL_EN u = true → Completes (.uartByteSent ix) s fun t => (t.uart u).tx = x.tx.tail ∧ (t.uart u).rx = x.rx)) ∧
  (∀ (ix : Fin 2) (w : W32) (byte : Byte) (s : State),
    let c := ix.val
    (s.on F.SVP_SPI_STATUS_BUSY c = false → Completes (.spiDataWrite ix w) s fun t => t.on F.SVP_SPI_STATUS_BUSY c = true ∧
      t.get F.SVP_SPI_DATA_BYTE c = w.toNat % 256 ∧ RegsBut s t [R.SVP_SPI_DATA.addr c, R.SVP_SPI_STATUS.addr c]) ∧
    (s.on F.SVP_SPI_STATUS_BUSY c = true → exec (.spiDataWrite ix w) s = .next s) ∧
    (s.on F.SVP_SPI_STATUS_BUSY c = true → Completes (.spiShiftDone ix byte) s fun t => t.on F.SVP_SPI_STATUS_BUSY c = false ∧
      t.get F.SVP_SPI_DATA_BYTE c = if (s.sigPin 3 (c * 8 + 2)).isSome then byte.toNat else 0)) ∧
  (∀ (ix : Fin 4) (byte : Byte) (e : I2cEnd) (s : State),
    let c := ix.val
    let go (i : Instr) (op : Nat) : Prop :=
      (s.on F.SVP_I2C_STATUS_BUSY c = true → exec i s = .next s) ∧
      (s.on F.SVP_I2C_STATUS_BUSY c = false → Completes i s fun t => t.on F.SVP_I2C_STATUS_BUSY c = true ∧ t.get F.SVP_I2C_CMD_OP c = op ∧
        t.get F.SVP_I2C_CMD_BYTE c = (if op = 3 then byte.toNat else s.get F.SVP_I2C_CMD_BYTE c) ∧
        RegsBut s t [R.SVP_I2C_CMD.addr c, R.SVP_I2C_STATUS.addr c])
    let op := s.get F.SVP_I2C_CMD_OP c
    let wired := (s.sigPin 4 (c * 2 + 1)).isSome
    go (.i2cStart ix) 1 ∧ go (.i2cStop ix) 2 ∧ go (.i2cWrite ix byte) 3 ∧ go (.i2cReadAck ix) 4 ∧ go (.i2cReadNack ix) 5 ∧
    (s.on F.SVP_I2C_STATUS_BUSY c = true → Completes (.i2cOperationDone ix e) s fun t => t.on F.SVP_I2C_STATUS_BUSY c = false ∧
      (e.arbLost = true → wired = true → t.on F.SVP_I2C_STATUS_ARB_LOST c = true ∧ c ∉ t.svc.i2cOpen) ∧
      (e.arbLost = false ∨ wired = false →
        (op = 1 → c ∈ t.svc.i2cOpen) ∧ (op = 2 → c ∉ t.svc.i2cOpen) ∧
        (op = 3 → t.on F.SVP_I2C_STATUS_NACK c = (s.on F.SVP_I2C_STATUS_NACK c || !(e.ack && wired))) ∧
        (op = 4 ∨ op = 5 → t.get F.SVP_I2C_CMD_BYTE c = if wired then e.byte.toNat else 0xFF))) ∧
    (s.on F.SVP_I2C_STATUS_BUSY c = false → exec (.i2cOperationDone ix e) s = .next s)) ∧
  (∀ (k : Fin 8) (s : State), ¬(s.freezing = true ∧ s.on F.DBG_FREEZE_SVP = true) →
    (s.get F.SVP_TMR_CTRL_MODE k = 1 → Completes (.timerWrap k) s fun t => t.get F.SVP_TMR_VAL_COUNT k = 0 ∧ RegsBut s t [R.SVP_TMR_VAL.addr k]) ∧
    (s.get F.SVP_TMR_CTRL_MODE k ≠ 1 → exec (.timerWrap k) s = .next s))

/-- 18 R928 to R934. Where it goes beyond those rules it rests on the model's choices of log entries 109, 112. -/
def Obligations.EventController : Prop :=
  (∀ (src : SourceId) (stays : Bool) (s : State),
    let n := src.val
    let never := 490 ≤ n ∨ s.srcDerived n = some false ∨ (n < 256 ∧ n % 4 < 2 ∧ s.fenced (n / 4) = true)
    let target := s.get F.EVC_SRC_TARGET n
    (never → exec (.eventSourceRise src stays) s = .next (svcSend s)) ∧
    (¬never → s.on F.EVC_SRC_EN n = false → ∃ u : State, exec (.eventSourceRise src stays) s = .next (svcSend u) ∧ u = { s with evc := u.evc } ∧
      u.evc.host = s.evc.host ∧ u.evc.claimed = s.evc.claimed) ∧
    (¬never → s.on F.EVC_SRC_EN n = true → s.get F.PWR_STATE_CURRENT ≠ 1 → ∃ u : State, exec (.eventSourceRise src stays) s = .next (svcSend u) ∧
      (u.evcPend n = (s.evcPend n || target != 0)) ∧ (∀ m, m < 512 → m ≠ n → u.evcPend m = s.evcPend m) ∧ u.evc.claimed = s.evc.claimed ∧
      (s.on F.EVC_SRC_HOST n = true → s.evc.host.length < 256 → u.evc.host = s.evc.host ++ [(n, s.get F.TMG_CN_CN)]) ∧
      (s.on F.EVC_SRC_HOST n = true → 256 ≤ s.evc.host.length → u.evc.host = s.evc.host ∧
        u.get F.EVC_HOST_DROPS_COUNT = min (s.get F.EVC_HOST_DROPS_COUNT + 1) 0xFFFFFFFF) ∧
      (s.on F.EVC_SRC_HOST n = false → u.evc.host = s.evc.host) ∧ u = { s with regs := u.regs, evc := u.evc } ∧
      RegsBut s u [R.EVC_PEND.addr (n / 32), R.EVC_HOST_DROPS.addr 0]) ∧
    (¬never → s.on F.EVC_SRC_EN n = true → s.get F.PWR_STATE_CURRENT = 1 → s.on F.PWR_STATE_EMULATED = false → target % 256 ≠ 0 →
      s.on F.KTP_SVC_EVT_EN = false → s.on F.KTP_SVC_TRACE_EN = false → Completes (.eventSourceRise src stays) s fun t =>
      t.get F.PWR_STATE_CURRENT = 0 ∧ t.get F.PWR_STATE_FROM = 1 ∧ t.evcPend n = true ∧
      (bit (s.get F.PWR_WAKE_EN_EN) 11 = true → bit (t.get F.PWR_WAKE_CAUSE_CAUSE) 11 = true))) ∧
  (∀ (tgt : CoreId) (quiet : Bool) (w : W32) (s : State),
    let k := tgt.val
    let counts (n : Nat) : Prop := n < 512 ∧ bit (s.get F.EVC_SRC_TARGET n) k = true ∧ s.evcPend n = true ∧ s.evc.claimed.find n = none ∧
      s.get F.EVC_THR_THR k < s.get F.EVC_SRC_PRI n
    let pri (n : Nat) := s.get F.EVC_SRC_PRI n
    (s.extIrq k = true ↔ ∃ n, counts n) ∧
    ((∀ n, ¬counts n) → Completes (.evcClaim tgt quiet) s fun t => t.ans.data = 0x8000 ∧ t = { s with ans := t.ans }) ∧
    (∀ n, counts n → (∀ m, counts m → pri m < pri n ∨ (pri m = pri n ∧ n ≤ m)) → Completes (.evcClaim tgt quiet) s fun t =>
      t.ans.data = BitVec.ofNat 64 n ∧ (quiet = true → t = { s with ans := t.ans }) ∧
      (quiet = false → t.evcPend n = false ∧ t.evc.claimed.find n = some k ∧ (∀ m, m < 512 → m ≠ n → t.evcPend m = s.evcPend m ∧
        t.evc.claimed.find m = s.evc.claimed.find m) ∧ RegsBut s t [R.EVC_PEND.addr (n / 32)] ∧ (∀ j, t.extIrq j = true → t.evcBest j ≠ some n))) ∧
    (let n := w.toNat % 512
     (s.evc.claimed.find n ≠ some k → exec (.evcComplete tgt w) s = .next s) ∧
     (s.evc.claimed.find n = some k → Completes (.evcComplete tgt w) s fun t => t.evc.claimed.find n = none ∧
       (∀ m, m ≠ n → t.evc.claimed.find m = s.evc.claimed.find m) ∧ (∀ m, m < 512 → m ≠ n → t.evcPend m = s.evcPend m) ∧
       t.evcPend n = (s.evcPend n || (s.srcAsserted n && s.on F.EVC_SRC_EN n && s.get F.EVC_SRC_TARGET n != 0)) ∧
       RegsBut s t [R.EVC_PEND.addr (n / 32)])))

/-- 19 R941 to R959. Where it goes beyond those rules it rests on the model's choices of log entry 114. -/
def Obligations.DebugPort : Prop :=
  (∀ (cells : BitVec 3072) (levels : BitVec 960) (code : Byte) (trst tck : Bool) (s : State),
    let lvl := s.dbg.level
    let pin (k : Nat) : Bool := if k < 960 then !s.fabric.bankOff.contains (k / 48) && levels.getLsbD k else s.svc.high.contains (k - 960)
    let only (t : State) : Prop := t = { s with dbg := t.dbg } ∧ t.dbg.level = lvl
    (1 ≤ lvl → Completes (.extest cells levels) s fun t => t.dbg.ir = 0 ∧ t.dbg.cells = cells ∧ only t ∧
      ∀ k, k < 1024 → t.padDrive k = (cells.getLsbD (3 * k + 1), cells.getLsbD (3 * k + 2)) ∧ t.dbg.captured.getLsbD (3 * k) = pin k ∧
        t.dbg.captured.getLsbD (3 * k + 1) = s.dbg.cells.getLsbD (3 * k + 1) ∧ t.dbg.captured.getLsbD (3 * k + 2) = s.dbg.cells.getLsbD (3 * k + 2)) ∧
    (lvl = 0 → Completes (.extest cells levels) s fun t => t.dbg.ir = 0 ∧ t.dbg.cells = s.dbg.cells ∧ t.dbg.captured = 0 ∧ only t ∧
      ∀ k, t.padDrive k = s.padFunction k) ∧
    (Completes (.samplePreload cells levels) s fun t => t.dbg.ir = 1 ∧ t.dbg.cells = cells ∧ only t ∧
      ∀ k, k < 1024 → t.padDrive k = s.padFunction k ∧ t.dbg.captured.getLsbD (3 * k) = pin k ∧
        (t.dbg.captured.getLsbD (3 * k + 1), t.dbg.captured.getLsbD (3 * k + 2)) = s.padFunction k) ∧
    (Completes .idcode s fun t => t.dbg.ir = 2 ∧ t.dbg.captured.toNat = 0x296410F3 ∧ only t) ∧
    (Completes .clamp s fun t => t.dbg.ir = 3 ∧ t.dbg.captured = 0 ∧ only t ∧
      (1 ≤ lvl → ∀ k, t.padDrive k = (s.dbg.cells.getLsbD (3 * k + 1), s.dbg.cells.getLsbD (3 * k + 2)))) ∧
    (Completes .highz s fun t => t.dbg.ir = 4 ∧ t.dbg.captured = 0 ∧ only t ∧ (1 ≤ lvl → ∀ k, (t.padDrive k).2 = false)) ∧
    (code.toNat ∉ [0, 1, 2, 3, 4, 0x10, 0x11, 0x12] → Completes (.bypass code) s fun t => t.dbg.ir = code ∧ t.dbg.captured = 0 ∧ only t ∧
      ∀ k, t.padDrive k = s.padFunction k) ∧
    (Completes (.tapReset false) s fun t => t.dbg.ir = 2 ∧ only t) ∧
    (s.on F.PWR_STATE_EMULATED = false → Completes (.tapReset trst) s fun t => t.dbg.ir = 2 ∧ (trst = true → t.dbg.level = 0 ∧
      (lvl ≠ 0 → t.on F.DBG_ERR_LEVEL = true) ∧ ∀ n, n < 9 → (n < 8 → 3 ≤ lvl) → (n = 8 → 4 ≤ lvl) → t.coreHalted n = false ∧
        bit (t.get F.DBG_RESET_HALT_CORES) n = false ∧ bit (t.get F.DBG_BREAK_HALT_CORES) n = false)) ∧
    (tck = s.power.asleep → exec (.debugWake tck) s = exec (.wake 10) s) ∧
    (tck = s.power.asleep → bit (s.get F.PWR_WAKE_EN_EN) 10 = true → s.get F.PWR_STATE_CURRENT = 1 → s.on F.PWR_STATE_EMULATED = false →
      Completes (.debugWake tck) s fun t => t.get F.PWR_STATE_CURRENT = 0 ∧ t.get F.PWR_STATE_FROM = 1 ∧ bit (t.get F.PWR_WAKE_CAUSE_CAUSE) 10 = true ∧
        RegsBut s t [R.PWR_STATE.addr 0, R.PWR_WAKE_CAUSE.addr 0] ∧ t = { s with regs := t.regs }) ∧
    (tck = s.power.asleep → bit (s.get F.PWR_WAKE_EN_EN) 10 = false → exec (.debugWake tck) s = .next s) ∧ (tck ≠ s.power.asleep → exec (.debugWake tck) s = .next s)) ∧
  (∀ (dr : BitVec 256) (s : State), s.power.asleep = false →
    let l := dr.toNat % 8
    let refused := l = 0 ∨ 4 < l ∨ s.dbg.lockedOut = true ∨ (l = 4 ∧ s.fuses.lockout = true)
    (¬refused → Completes (.vapChal dr) s fun t => ∃ k, t.dbg.chal = some (k, l) ∧ t.dbg.nonce = some k ∧ t.dbg.level = s.dbg.level ∧
      t = { s with dbg := t.dbg, free := t.free } ∧ k < t.free) ∧
    (refused → Completes (.vapChal dr) s fun t => t.dbg.chal = s.dbg.chal ∧ t.dbg.nonce = s.dbg.nonce) ∧
    (∀ k, s.dbg.nonce = some k → Completes (.vapChal dr) s fun t => t.dbg.captured = BitVec.ofNat 3072 (bytesNat (nonceBytes k))) ∧
    (∀ k lv, s.dbg.chal = some (k, lv) → Config.unlockHmac (unlockBytes k lv) = dr → s.dbg.level ≤ lv →
      Completes (.vapAuth dr) s fun t => t.dbg.level = lv ∧ t.dbg.fails = 0 ∧ t.dbg.chal = none) ∧
    ((∀ k lv, s.dbg.chal = some (k, lv) → Config.unlockHmac (unlockBytes k lv) ≠ dr) → Completes (.vapAuth dr) s fun t =>
      t.dbg.level = s.dbg.level ∧ t.dbg.chal = none ∧ t.dbg.fails = min 7 (s.dbg.fails + 1) ∧ t.on F.DBG_ERR_AUTH_FAIL = true ∧
      t.dbg.lockedOut = (s.dbg.lockedOut || decide (6 ≤ s.dbg.fails)) ∧ RegsBut s t [R.DBG_ERR.addr 0])) ∧
  (∀ (dr : BitVec 40) (w : W32) (s : State), s.power.asleep = false →
    let r := bits dr.toNat 32 3
    let v := dr.toNat % 2 ^ 32
    let write := bit dr.toNat 35
    let fault := bits dr.toNat 36 4 ≠ 0 ∨ (2 ≤ r ∧ s.dbg.level < 2)
    (Completes (.vapAcc dr) s fun t => t.dbg.captured.toNat = s.dbg.read.toNat + 2 ^ 32 * s.dbg.ack.toNat ∧ (fault → t.dbg.ack = 2 ∧ t = { s with dbg := t.dbg }) ∧
      (¬fault → write = true → r = 7 → s.dbg.busy = true → t.dbg.ack = 1 ∧ t.dbg.cmd = s.dbg.cmd) ∧
      (¬fault → write = true → r = 7 → s.dbg.busy = false → v % 4 ≠ 0 → t.dbg.ack = 0 ∧ t.dbg.busy = true ∧ t.dbg.cmd = v % 4) ∧
      (¬fault → write = false → t.dbg.ack = 0 ∧ t.dbg.read.toNat = vapRead r s % 2 ^ 32) ∧
      (¬fault → write = true → (r = 2 → t.dbg.addr.toNat % 2 ^ 32 = v) ∧ (r = 3 → t.dbg.addr.toNat / 2 ^ 32 = v % 2 ^ 16) ∧ (r = 4 → t.dbg.csw.toNat = v % 2 ^ 11) ∧
        (r = 5 → t.dbg.data.toNat % 2 ^ 32 = v) ∧ (r = 6 → t.dbg.data.toNat / 2 ^ 32 = v))) ∧
    (s.dbg.level < 3 → bit w.toNat 8 = false → Completes (.levelSet w) s fun t => t.dbg.level = min s.dbg.level (w.toNat % 8) ∧ t.dbg.ack = 0 ∧
      (w.toNat % 8 < s.dbg.level → t.on F.DBG_ERR_LEVEL = true) ∧ RegsBut s t [R.DBG_ERR.addr 0])) ∧
  (∀ (env : Env) (s : State), s.power.asleep = false → s.dbg.busy = true →
    let a := s.dbg.addr.toNat
    let csw := s.dbg.csw.toNat
    let k := 2 ^ (csw % 4)
    let n := bits csw 4 4
    let ends (t : State) (r : Resp) : Prop := t.dbg.busy = false ∧ t.dbg.resp = r.code ∧
      t.dbg.addr = if bit csw 8 then s.dbg.addr + BitVec.ofNat 48 k else s.dbg.addr
    let mine := n < 9 ∧ s.coreHalted n = true ∧ (if n = 8 then 4 else 3) ≤ s.dbg.level
    let both (p : Instr → Prop) : Prop := (s.dbg.cmd = 1 → p (.vapRead env)) ∧ (s.dbg.cmd = 2 → p (.vapWrite env))
    let denied : Prop := both fun c => Completes c s fun t => ends t .denied ∧ t = { s with dbg := t.dbg } ∧ t.dbg.data = s.dbg.data
    (bits csw 2 2 = 0 → s.dbg.level < 2 → denied) ∧
    (bits csw 2 2 = 0 → s.vapSandOk a false = true → s.dbg.cmd = 1 → ∀ m u, sandRead { ini := 0x49, quiet := !bit csw 9 } a k env s = (m, u) → u.dbg = s.dbg →
      Completes (.vapRead env) s fun t => ends t m.resp ∧ t = { u with dbg := t.dbg } ∧ (m.resp = .okay → t.dbg.data = BitVec.ofNat 64 (bytesNat m.bytes))) ∧
    (bits csw 2 2 = 0 → s.vapSandOk a true = true → s.dbg.cmd = 2 →
      ∀ r u, sandWrite { ini := 0x49, quiet := !bit csw 9 } a (natBytes s.dbg.data.toNat k) false env s = (r, u) → u.dbg = s.dbg →
      Completes (.vapWrite env) s fun t => ends t r ∧ t = { u with dbg := t.dbg }) ∧
    (s.vapSandOk a true = true ↔ 3 ≤ s.dbg.level ∨ (s.dbg.level = 2 ∧ inCsr a = true ∧ unitOf a < 4)) ∧
    (bits csw 2 2 = 1 ∨ bits csw 2 2 = 2 → ¬mine → denied) ∧ (bits csw 2 2 = 3 → denied) ∧
    (bits csw 2 2 = 1 → mine → (s.core n).refuses a k 0 = false → a % k ≠ 0 → s.dbg.cmd = 1 → Completes (.vapRead env) s fun t => ends t .size ∧ t = { s with dbg := t.dbg }) ∧
    (bits csw 2 2 = 2 → mine → k = 8 →
      (a < 32 → (s.dbg.cmd = 1 → Completes (.vapRead env) s fun t => ends t .okay ∧ t.dbg.data = s.greg n a ∧ t = { s with dbg := t.dbg }) ∧
        (s.dbg.cmd = 2 → Completes (.vapWrite env) s fun t => ends t .okay ∧ t.greg n a = (if a = 0 then 0 else s.dbg.data) ∧
          (∀ m, m ≠ n → t.core m = s.core m) ∧ t = { s with dbg := t.dbg, cores := t.cores })) ∧
      (a = 32 → (s.dbg.cmd = 1 → Completes (.vapRead env) s fun t => ends t .okay ∧ t.dbg.data = (s.core n).pc) ∧
        (s.dbg.cmd = 2 → Completes (.vapWrite env) s fun t => ends t .okay ∧ (t.core n).pc = s.dbg.data)) ∧
      (33 ≤ a → a < 0x1000 → denied))) ∧
  (∀ s : State, s.power.asleep = false → s.dbg.busy = true → s.dbg.cmd = 3 →
    (s.dbg.level < 2 → Completes .image s fun t => t.dbg.busy = false ∧ t.dbg.resp = Resp.denied.code ∧ t = { s with dbg := t.dbg }) ∧
    (2 ≤ s.dbg.level → s.dbg.csw.getLsbD 10 = true → s.warden.booting = true → Completes .image s fun t => t.dbg.busy = false ∧ t.dbg.resp = 0 ∧
      t.warden.feed = s.warden.feed ++ [BitVec.ofNat 32 s.dbg.data.toNat] ∧ RegsBut s t []) ∧
    (2 ≤ s.dbg.level → s.dbg.csw.getLsbD 10 = false → exec .image s = .next (vapEnd .okay false (cfgWord .debug (BitVec.ofNat 32 s.dbg.data.toNat) s))))

/-- 19 R960 to R971. Where it goes beyond those rules it rests on the model's choices of log entries 94, 115, 116. -/
def Obligations.RunControl : Prop :=
  (∀ (w : W32) (s : State),
    let denied (c : Instr) : Prop := Completes c s fun t => t.ans.resp = .denied ∧ t = { s with ans := t.ans }
    (s.dbg.level < 3 ∨ (s.dbg.level = 3 ∧ bit w.toNat 8 = true) → denied (.dbgHalt w) ∧ denied (.dbgResume w) ∧ denied (.dbgStep w)) ∧
    (s.dbg.level < 3 → denied (.crossTrigger w)) ∧
    (3 ≤ s.dbg.level → ∀ n, n < 9 → (n = 8 → s.dbg.level = 4) → w.toNat = 2 ^ n → s.haltFires n = [] →
      let runs := n = 8 ∨ s.on F.WDG_CORE_CTRL_RUN n = true
      (s.coreHalted n = false → runs → s.holdsResv n = false → Completes (.dbgHalt w) s fun t => t.ans.resp = .okay ∧ t.coreHalted n = true ∧
        t.on F.DBG_ERR_HALTED = true ∧ (n < 8 → t.get F.WDG_CORE_STATUS_STATE n = 2) ∧ (t.core n).pc = (s.core n).pc ∧ (t.core n).g = (s.core n).g ∧
        (∀ m, m ≠ n → t.core m = s.core m ∧ t.coreHalted m = s.coreHalted m) ∧ t.coreIssues n = false) ∧
      (s.coreHalted n = false → runs → s.holdsResv n = true → Completes (.dbgHalt w) s fun t => t.on F.DBG_CORE_STATUS_DEFERRED n = true ∧
        t.coreHalted n = false ∧ t.cores = s.cores) ∧
      (s.coreHalted n = false → ¬runs → Completes (.dbgHalt w) s fun t => t.on F.DBG_ERR_REFUSED = true ∧ t.coreHalted n = false ∧ t.cores = s.cores) ∧
      (s.coreHalted n = true → Completes (.dbgResume w) s fun t => t.ans.resp = .okay ∧ t.coreHalted n = false ∧ (t.core n).pc = (s.core n).pc ∧
        (t.core n).g = (s.core n).g ∧ (∀ m, m ≠ n → t.core m = s.core m ∧ t.coreHalted m = s.coreHalted m)) ∧
      (s.coreHalted n = true → Completes (.dbgStep w) s fun t => (t.core n).stepping = true ∧ t.coreHalted n = true ∧ RegsBut s t []) ∧
      (s.coreHalted n = false → Completes (.dbgStep w) s fun t => t = { s with ans := t.ans } ∧ t.ans.resp = .okay)) ∧
    (3 ≤ s.dbg.level → ∀ ch n, ch < 16 → n < 8 → w.toNat = 2 ^ ch → s.get F.DBG_XT_CH_HALT_OUT ch = 2 ^ n → s.haltFires n = [] →
      s.coreHalted n = false → s.on F.WDG_CORE_CTRL_RUN n = true → s.holdsResv n = false → Completes (.crossTrigger w) s fun t =>
      t.coreHalted n = true ∧ t.get F.WDG_CORE_STATUS_STATE n = 2 ∧ (s.on F.DBG_XT_CH_FREEZE_OUT ch = true → t.freezing = true) ∧
      (s.on F.DBG_XT_CH_PIN_OUT ch = true → ch ∈ t.svc.xtrig) ∧
      ∀ m, m ≠ n → t.coreHalted m = s.coreHalted m)) ∧
  (∀ (core : CoreId) (s : State),
    let n := core.val
    (s.on F.DBG_CORE_STATUS_DEFERRED n = true → s.holdsResv n = true → s.haltFires n = [] → Completes (.haltForced core) s fun t => t.coreHalted n = true ∧
      t.on F.DBG_CORE_STATUS_FORCED n = true ∧ t.on F.DBG_CORE_STATUS_DEFERRED n = false ∧ t.holdsResv n = false ∧ (t.core n).pc = (s.core n).pc) ∧
    (s.on F.DBG_CORE_STATUS_DEFERRED n = false ∨ s.holdsResv n = false → exec (.haltForced core) s = .next s)) ∧
  (∀ (core : Fin 8) (off : Byte) (data : List Byte) (s : State), s.on F.KTP_SVC_TRACE_EN = false → s.on F.KTP_SVC_EVT_EN = false →
    let n := core.val
    let port := off.toNat / 8
    let ok := off.toNat % 8 = 0 ∧ data.length ∈ [1, 2, 4, 8]
    (¬ok → Completes (.stimulusStore core off data) s fun t => t.ans.resp = .size ∧ t = { s with ans := t.ans }) ∧
    (ok → bit (s.get F.DBG_STIM_EN_PORTS n) port = false → Completes (.stimulusStore core off data) s fun t => t.ans.resp = .okay ∧ t = { s with ans := t.ans }) ∧
    (ok → bit (s.get F.DBG_STIM_EN_PORTS n) port = true → s.dbg.lost = 0 → (s.dbg.trace.map List.length).sum + 24 ≤ 65536 →
      Completes (.stimulusStore core off data) s fun t => t.ans.resp = .okay ∧ RegsBut s t [] ∧ ∃ p, t.dbg.trace = s.dbg.trace ++ [p] ∧ p.length = 24 ∧
        p.take 4 = [1, BitVec.ofNat 8 n, BitVec.ofNat 8 port, BitVec.ofNat 8 data.length] ∧ (p.drop 8).take 8 = natBytes (s.get F.TMG_CN_CN) 8 ∧
        (p.drop 16).take data.length = data) ∧
    (ok → bit (s.get F.DBG_STIM_EN_PORTS n) port = true → 65536 ≤ (s.dbg.trace.map List.length).sum →
      Completes (.stimulusStore core off data) s fun t => t.ans.resp = .okay ∧ t.dbg.trace = s.dbg.trace ∧ t.dbg.lost = s.dbg.lost + 1 ∧
        t.on F.DBG_ERR_TRACE_LOST = true)) ∧
  (∀ (core : CoreId) (w : W32) (quiet : Bool) (s : State),
    let n := core.val
    let need := if n = 8 then 4 else 3
    (s.on F.DBG_VT_STATUS_OUT_FULL n = false → Completes (.vtOutWrite core w) s fun t => t.on F.DBG_VT_STATUS_OUT_FULL n = true ∧
      t.get F.DBG_VT_OUT_DATA n = w.toNat ∧ RegsBut s t [R.DBG_VT_OUT.addr n, R.DBG_VT_STATUS.addr n]) ∧
    (s.on F.DBG_VT_STATUS_OUT_FULL n = true → Completes (.vtOutWrite core w) s fun t => t.on F.DBG_VT_STATUS_OVERRUN n = true ∧
      t.get F.DBG_VT_OUT_DATA n = s.get F.DBG_VT_OUT_DATA n ∧ RegsBut s t [R.DBG_VT_STATUS.addr n]) ∧
    (need ≤ s.dbg.level → Completes (.vtOutRead core quiet) s fun t => t.ans.data = BitVec.ofNat 64 (s.get F.DBG_VT_OUT_DATA n) ∧
      t.on F.DBG_VT_STATUS_OUT_FULL n = (quiet && s.on F.DBG_VT_STATUS_OUT_FULL n) ∧ RegsBut s t [R.DBG_VT_STATUS.addr n]) ∧
    (s.dbg.level < need → Completes (.vtOutRead core quiet) s fun t => t.ans.resp = .denied ∧ t = { s with ans := t.ans }) ∧
    (s.dbg.level < need → Completes (.vtInWrite core w) s fun t => t.ans.resp = .denied ∧ t = { s with ans := t.ans }) ∧
    (need ≤ s.dbg.level → Completes (.vtInWrite core w) s fun t => t.get F.DBG_VT_IN_DATA n = w.toNat ∧ t.on F.DBG_VT_STATUS_IN_FULL n = true ∧
      t.on F.DBG_ERR_VT_IN = true ∧ RegsBut s t [R.DBG_VT_IN.addr n, R.DBG_VT_STATUS.addr n, R.DBG_ERR.addr 0]) ∧
    (Completes (.vtInRead core) s fun t => t.ans.data = BitVec.ofNat 64 (s.get F.DBG_VT_IN_DATA n) ∧ t.on F.DBG_VT_STATUS_IN_FULL n = false ∧
      RegsBut s t [R.DBG_VT_STATUS.addr n]))

/-- 20 R978 to R980, 21 R995 to R997. Where it goes beyond those rules it rests on the model's choices of log entries 9, 10, 118, 119, 120. -/
def Obligations.DeviceReset : Prop :=
  let fresh (mode id : Nat) (rails : List Nat) (off : List Supply) (s t : State) : Prop :=
    (∀ a, unitOf a ∉ [0, 3, 21] → ∀ d, t.regs.get d a = State.reset.regs.get d a) ∧
    (∀ b, b < 64 → t.rd R.FEN_BAY_STATUS b = 0x1FF8 ∧ t.fenced b = true ∧ t.bayState b = bayBlank) ∧ (∀ k, k < 4 → t.slabFenced k = rails.contains k) ∧
    t.get F.CFG_STATUS_MODE = mode ∧ t.get F.CFG_STATUS_ID = id ∧ t.get F.CFG_STATUS_STATE = cfgBlanking ∧
    t.on F.CFG_ERR_LOAD_FAIL = decide (4 ≤ mode) ∧ (4 ≤ mode → t.get F.CFG_CAUSE_CODE = causeBadMode) ∧ t.cfg.blanking = true ∧ t.cfg.failed = decide (4 ≤ mode) ∧
    t.fabric = { bankOff := s.fabric.bankOff, vcco := s.fabric.vcco } ∧ t.svc = { high := s.svc.high } ∧ t.ktp = { sent := s.ktp.sent } ∧
    t = { State.reset with regs := t.regs, pending := s.pending, free := t.free, ans := s.ans, fuses := s.fuses, railsOff := rails, supplyOff := off, svc := t.svc, ktp := t.ktp,
                           fabric := t.fabric, cfg := t.cfg, dbg := t.dbg }
  let pulse (mode id : Nat) (s t : State) : Prop := fresh mode id s.railsOff s.supplyOff s t ∧
    t.dbg = { ir := s.dbg.ir, cells := s.dbg.cells, captured := s.dbg.captured }
  (∀ (ns : Nat) (mode : BitVec 3) (id rails : BitVec 4) (off : List Supply) (s : State),
    (ns < 100 → exec (.nreset ns mode id) s = .next s) ∧ (1000 ≤ ns → Completes (.nreset ns mode id) s (pulse mode.toNat id.toNat s)) ∧
    (100 ≤ ns → ns < 1000 → Completes (.nreset ns mode id) s fun t => t = { s with free := t.free } ∨ pulse mode.toNat id.toNat s t) ∧
    Completes (.powerOnReset mode id rails off) s fun t => t.dbg = {} ∧ (∀ k : Fin 4, t.railUp k.val = rails.getLsbD k.val) ∧
      fresh mode.toNat id.toNat t.railsOff off s t) ∧
  (∀ (slab : Fin 4) (s : State),
    let k := slab.val
    (s.railUp k = false → exec (.vccFabLoss slab) s = .next s) ∧ (s.railUp k = true → exec (.vccFabReturn slab) s = .next s) ∧
    (s.railUp k = true → s.pgr.run = none → Completes (.vccFabLoss slab) s fun t => t.railUp k = false ∧ t.slabFenced k = true ∧
      (∀ j, j < 4 → j ≠ k → t.railUp j = s.railUp j ∧ t.slabFenced j = s.slabFenced j) ∧
      (∀ b, b < 64 → (b / 16 = k → s.slabFenced k = false → t.fenced b = true) ∧ (b / 16 ≠ k → t.fenced b = s.fenced b)) ∧
      (∀ e ∈ t.fabric.pins, e.2.held.isSome = true ∨ e.1 / 240 ≠ k) ∧ t.mem = s.mem ∧ t.cores = s.cores ∧ t.ldg = s.ldg ∧ t.vrd = s.vrd ∧ t.ktp = s.ktp) ∧
    (s.railUp k = false → Completes (.vccFabReturn slab) s fun t => t.railUp k = true ∧ t.slabFenced k = s.slabFenced k ∧
      (∀ b, b < 64 → b / 16 = k → t.fenced b = true ∧ t.bayState b = bayBlank) ∧ (∀ l ∈ t.sand.failed, linkOfSlab k l = false) ∧
      (s.on F.PGR_CTRL_EN = false ∨ s.pgr.rimTaken = false → (∀ e ∈ t.fabric.frames, farSlab e.1 ≠ k) ∧ k ∈ t.pgr.rimDue) ∧
      (s.on F.PGR_CTRL_EN = true → s.pgr.rimTaken = true → k ∉ t.pgr.rimDue ∧ ∀ e ∈ t.fabric.frames, farSlab e.1 = k → ∃ p ∈ s.pgr.rim, p.1 = e.1) ∧
      t.mem = s.mem ∧ t.cores = s.cores ∧ t.ldg = s.ldg ∧ t.ktp = s.ktp))
end

