-- ==== Sys2Proof/Laws/Regs.lean ====
section
/-! SUPPORT. What reading and writing a register or a field of one does: the laws every statement about a register rests on. -/

namespace Sys2Proof.Machine

/-- Replacing a field keeps the value within 64 bits. -/
theorem setBits_toNat (w : W64) {lo len : Nat} (v : Nat) (h : lo + len ≤ 64) :
    (setBits w lo len v).toNat = w.toNat - bits w.toNat lo len * 2 ^ lo + v % 2 ^ len * 2 ^ lo := by
  have hw := w.isLt
  have hv : v % 2 ^ len < 2 ^ len := Nat.mod_lt _ (Nat.two_pow_pos _)
  have hp : (2:Nat) ^ (lo + len) = 2 ^ lo * 2 ^ len := Nat.pow_add ..
  have h1 : bits w.toNat lo len * 2 ^ lo ≤ w.toNat :=
    (Nat.mul_le_mul_right _ (Nat.mod_le _ _)).trans (Nat.div_mul_le_self _ _)
  have hd : (2:Nat) ^ (lo + len) ∣ 2 ^ 64 := Nat.pow_dvd_pow 2 h
  have key : w.toNat - bits w.toNat lo len * 2 ^ lo + v % 2 ^ len * 2 ^ lo < 2 ^ 64 := by
    obtain ⟨k, hk⟩ := hd
    have e1 := Nat.div_add_mod w.toNat (2 ^ lo)
    have e2 := Nat.div_add_mod (w.toNat / 2 ^ lo) (2 ^ len)
    have l1 : w.toNat % 2 ^ lo < 2 ^ lo := Nat.mod_lt _ (Nat.two_pow_pos _)
    have hq : w.toNat / 2 ^ lo / 2 ^ len < k := by
      rw [Nat.div_div_eq_div_mul, ← hp]
      exact Nat.div_lt_of_lt_mul (hk ▸ hw)
    simp only [bits]
    have f1 : w.toNat - w.toNat / 2 ^ lo % 2 ^ len * 2 ^ lo =
        2 ^ lo * (2 ^ len * (w.toNat / 2 ^ lo / 2 ^ len)) + w.toNat % 2 ^ lo := by
      have : w.toNat = 2 ^ lo * (2 ^ len * (w.toNat / 2 ^ lo / 2 ^ len))
          + w.toNat / 2 ^ lo % 2 ^ len * 2 ^ lo + w.toNat % 2 ^ lo := by
        conv_lhs => rw [← e1, ← e2]
        ring
      omega
    rw [f1, hk, hp]
    have g1 : 2 ^ len * (w.toNat / 2 ^ lo / 2 ^ len) + v % 2 ^ len + 1 ≤ 2 ^ len * k := by
      have := Nat.mul_le_mul_left (2 ^ len) (Nat.succ_le_of_lt hq)
      rw [Nat.mul_succ] at this
      omega
    have g2 := Nat.mul_le_mul_left (2 ^ lo) g1
    calc _ < 2 ^ lo * (2 ^ len * (w.toNat / 2 ^ lo / 2 ^ len) + v % 2 ^ len + 1) := by
            have : v % 2 ^ len * 2 ^ lo = 2 ^ lo * (v % 2 ^ len) := Nat.mul_comm ..
            rw [this, Nat.mul_add, Nat.mul_add]; omega
      _ ≤ _ := by rw [Nat.mul_assoc]; exact g2
  rw [setBits, BitVec.toNat_ofNat, Nat.mod_eq_of_lt key]

theorem bits_setBits_same (w : W64) {lo len : Nat} (v : Nat) (h : lo + len ≤ 64) :
    bits (setBits w lo len v).toNat lo len = v % 2 ^ len := by
  rw [setBits_toNat w v h]
  have e1 := Nat.div_add_mod w.toNat (2 ^ lo)
  have e2 := Nat.div_add_mod (w.toNat / 2 ^ lo) (2 ^ len)
  have l1 : w.toNat % 2 ^ lo < 2 ^ lo := Nat.mod_lt _ (Nat.two_pow_pos _)
  have f1 : w.toNat - w.toNat / 2 ^ lo % 2 ^ len * 2 ^ lo =
      2 ^ lo * (2 ^ len * (w.toNat / 2 ^ lo / 2 ^ len)) + w.toNat % 2 ^ lo := by
    have : w.toNat = 2 ^ lo * (2 ^ len * (w.toNat / 2 ^ lo / 2 ^ len))
        + w.toNat / 2 ^ lo % 2 ^ len * 2 ^ lo + w.toNat % 2 ^ lo := by
      conv_lhs => rw [← e1, ← e2]
      ring
    omega
  simp only [bits]
  rw [f1]
  have : 2 ^ lo * (2 ^ len * (w.toNat / 2 ^ lo / 2 ^ len)) + w.toNat % 2 ^ lo + v % 2 ^ len * 2 ^ lo
      = w.toNat % 2 ^ lo + 2 ^ lo * (v % 2 ^ len + 2 ^ len * (w.toNat / 2 ^ lo / 2 ^ len)) := by ring
  rw [this, Nat.add_mul_div_left _ _ (Nat.two_pow_pos _), Nat.div_eq_of_lt l1, Nat.zero_add,
    Nat.add_mul_mod_self_left, Nat.mod_mod]

/-- Replacing a field leaves each bit outside it. -/
theorem testBit_setBits_out (w : W64) {lo len : Nat} (v k : Nat) (h : lo + len ≤ 64) (hk : k < lo ∨ lo + len ≤ k) :
    (setBits w lo len v).toNat.testBit k = w.toNat.testBit k := by
  have e1 := Nat.div_add_mod w.toNat (2 ^ lo)
  have e2 := Nat.div_add_mod (w.toNat / 2 ^ lo) (2 ^ len)
  have l1 : w.toNat % 2 ^ lo < 2 ^ lo := Nat.mod_lt _ (Nat.two_pow_pos _)
  have hp : (2:Nat) ^ (lo + len) = 2 ^ lo * 2 ^ len := Nat.pow_add ..
  have wsplit : w.toNat = 2 ^ lo * (2 ^ len * (w.toNat / 2 ^ lo / 2 ^ len))
        + w.toNat / 2 ^ lo % 2 ^ len * 2 ^ lo + w.toNat % 2 ^ lo := by
    conv_lhs => rw [← e1, ← e2]
    ring
  have f1 : (setBits w lo len v).toNat =
      2 ^ lo * (2 ^ len * (w.toNat / 2 ^ lo / 2 ^ len)) + v % 2 ^ len * 2 ^ lo + w.toNat % 2 ^ lo := by
    rw [setBits_toNat w v h]; simp only [bits]; omega
  have hi : (setBits w lo len v).toNat / 2 ^ (lo + len) = w.toNat / 2 ^ (lo + len) := by
    have hv : v % 2 ^ len < 2 ^ len := Nat.mod_lt _ (Nat.two_pow_pos _)
    rw [hp, ← Nat.div_div_eq_div_mul, ← Nat.div_div_eq_div_mul, f1]
    have : 2 ^ lo * (2 ^ len * (w.toNat / 2 ^ lo / 2 ^ len)) + v % 2 ^ len * 2 ^ lo + w.toNat % 2 ^ lo
      = w.toNat % 2 ^ lo + 2 ^ lo * (v % 2 ^ len + 2 ^ len * (w.toNat / 2 ^ lo / 2 ^ len)) := by ring
    rw [this, Nat.add_mul_div_left _ _ (Nat.two_pow_pos _), Nat.div_eq_of_lt l1, Nat.zero_add,
      Nat.add_mul_div_left _ _ (Nat.two_pow_pos _), Nat.div_eq_of_lt hv, Nat.zero_add]
  have lw : (setBits w lo len v).toNat % 2 ^ lo = w.toNat % 2 ^ lo := by
    rw [f1]
    have : 2 ^ lo * (2 ^ len * (w.toNat / 2 ^ lo / 2 ^ len)) + v % 2 ^ len * 2 ^ lo + w.toNat % 2 ^ lo
      = w.toNat % 2 ^ lo + 2 ^ lo * (v % 2 ^ len + 2 ^ len * (w.toNat / 2 ^ lo / 2 ^ len)) := by ring
    rw [this, Nat.add_mul_mod_self_left, Nat.mod_mod]
  rcases hk with hk | hk
  · have a := Nat.testBit_mod_two_pow (setBits w lo len v).toNat lo k
    have b := Nat.testBit_mod_two_pow w.toNat lo k
    rw [lw] at a
    simpa [hk] using a.symm.trans b
  · obtain ⟨j, rfl⟩ := Nat.exists_eq_add_of_le hk
    have a : ((setBits w lo len v).toNat / 2 ^ (lo + len)).testBit j = (setBits w lo len v).toNat.testBit (j + (lo + len)) :=
      Nat.testBit_div_two_pow _ _
    have b : (w.toNat / 2 ^ (lo + len)).testBit j = w.toNat.testBit (j + (lo + len)) := Nat.testBit_div_two_pow _ _
    rw [hi] at a
    rw [Nat.add_comm (lo + len) j]
    exact a.symm.trans b

theorem testBit_bits (v lo len k : Nat) : (bits v lo len).testBit k = (decide (k < len) && v.testBit (lo + k)) := by
  rw [bits, Nat.testBit_mod_two_pow, Nat.testBit_div_two_pow, Nat.add_comm]

/-- Replacing a field leaves every field that does not overlap it. -/
theorem bits_setBits_disj (w : W64) {lo len lo' len' : Nat} (v : Nat) (h : lo + len ≤ 64)
    (hd : lo' + len' ≤ lo ∨ lo + len ≤ lo') :
    bits (setBits w lo len v).toNat lo' len' = bits w.toNat lo' len' := by
  apply Nat.eq_of_testBit_eq
  intro k
  rw [testBit_bits, testBit_bits]
  by_cases hk : k < len'
  · rw [testBit_setBits_out w v (lo' + k) h (by omega)]
  · simp [hk]

namespace State

theorem rd_wr_same (s : State) (r : Reg) (i : Nat) (v : W64) : (s.wr r i v).rd r i = v := by
  simp [rd, wr]

theorem rd_wr_ne (s : State) (r q : Reg) {i j : Nat} (v : W64) (h : r.addr i ≠ q.addr j) :
    (s.wr r i v).rd q j = s.rd q j := by
  simp only [rd, wr]
  exact Tbl.get_set_ne _ _ _ h

/-- Reading back a stored field. -/
theorem get_put_same (s : State) (f : Fld) (i v : Nat) (h : f.lo + f.len ≤ 64) :
    (s.put f i v).get f i = v % 2 ^ f.len := by
  rw [get, put, rd_wr_same, bits_setBits_same _ _ h]

/-- Storing a field leaves every field of another register. -/
theorem get_put_reg (s : State) (f g : Fld) {i j : Nat} (v : Nat) (h : f.reg.addr i ≠ g.reg.addr j) :
    (s.put f i v).get g j = s.get g j := by
  rw [get, put, rd_wr_ne _ _ _ _ h, get]

/-- Storing a field leaves every other field of its register. -/
theorem get_put_fld (s : State) (f g : Fld) (i v : Nat) (hr : g.reg = f.reg) (h : f.lo + f.len ≤ 64)
    (hd : g.lo + g.len ≤ f.lo ∨ f.lo + f.len ≤ g.lo) :
    (s.put f i v).get g i = s.get g i := by
  rw [get, put, hr, rd_wr_same, bits_setBits_disj _ _ h hd, get, hr]

theorem on_put_same (s : State) (f : Fld) (i v : Nat) (h : f.lo + f.len ≤ 64) :
    (s.put f i v).on f i = (v % 2 ^ f.len != 0) := by rw [on, get_put_same _ _ _ _ h]

theorem on_put_fld (s : State) (f g : Fld) (i v : Nat) (hr : g.reg = f.reg) (h : f.lo + f.len ≤ 64)
    (hd : g.lo + g.len ≤ f.lo ∨ f.lo + f.len ≤ g.lo) :
    (s.put f i v).on g i = s.on g i := by rw [on, get_put_fld _ _ _ _ _ hr h hd, on]

theorem on_put_reg (s : State) (f g : Fld) {i j : Nat} (v : Nat) (h : f.reg.addr i ≠ g.reg.addr j) :
    (s.put f i v).on g j = s.on g j := by rw [on, get_put_reg _ _ _ _ h, on]

/-- A field is below the power of its width. -/
theorem get_lt (s : State) (f : Fld) (i : Nat) : s.get f i < 2 ^ f.len := Nat.mod_lt _ (Nat.two_pow_pos _)

end State
end Sys2Proof.Machine
end

