-- ==== Sys2Proof/Laws/Frame.lean ====
section
/-! SUPPORT. The laws of the register frame: which operations leave every register but the listed ones. -/

namespace Sys2Proof.Machine

theorem regsBut_refl (s : State) (l : List Nat) : RegsBut s s l := fun _ _ _ => rfl

theorem regsBut_regs {s t : State} (l : List Nat) (h : t.regs = s.regs) : RegsBut s t l := fun _ _ _ => by rw [h]

theorem regsBut_trans {s u t : State} {l : List Nat} (h : RegsBut s u l) (k : RegsBut u t l) : RegsBut s t l :=
  fun a ha d => (k a ha d).trans (h a ha d)

theorem regsBut_mono {s t : State} {l m : List Nat} (h : RegsBut s t l) (hm : ∀ a ∈ l, a ∈ m) : RegsBut s t m :=
  fun a ha d => h a (fun k => ha (hm a k)) d

theorem regsBut_wr {s u : State} {l : List Nat} (r : Reg) (i : Nat) (v : W64) (h : RegsBut s u l) (hm : r.addr i ∈ l) :
    RegsBut s (u.wr r i v) l := fun a ha d => by
  rw [State.wr]
  exact (Tbl.get_set_ne _ _ _ (by rintro rfl; exact ha hm)).trans (h a ha d)

theorem regsBut_put {s u : State} {l : List Nat} (f : Fld) (i v : Nat) (h : RegsBut s u l) (hm : f.reg.addr i ∈ l) :
    RegsBut s (u.put f i v) l := regsBut_wr _ _ _ h hm

theorem regsBut_ite {s a b : State} {l : List Nat} {c : Prop} [Decidable c] (h : RegsBut s a l) (k : RegsBut s b l) :
    RegsBut s (if c then a else b) l := by split <;> assumption

theorem regsBut_rd {s t : State} {l : List Nat} (h : RegsBut s t l) (r : Reg) (i : Nat) (hr : r.addr i ∉ l) :
    t.rd r i = s.rd r i := h _ hr _

end Sys2Proof.Machine
end

