-- ==== Sys2Proof/Laws/Memory.lean ====
section
/-! SUPPORT. The memory operations: what a byte reads as after each of them, and that each keeps the canonical form. -/

namespace Sys2Proof.Machine

/-! The canonical form -/

theorem cellsRise_mono {lo lo' : Nat} (h : lo' ≤ lo) {l : List Host.Cell} (w : cellsRise lo l = true) :
    cellsRise lo' l = true := by
  cases l with
  | nil => rfl
  | cons c t => simp only [cellsRise, Bool.and_eq_true, decide_eq_true_eq] at *; exact ⟨h.trans w.1, w.2⟩

theorem cellsRise_filter (p : Host.Cell → Bool) {lo : Nat} {l : List Host.Cell} (w : cellsRise lo l = true) :
    cellsRise lo (l.filter p) = true := by
  induction l generalizing lo with
  | nil => rfl
  | cons c t ih =>
    simp only [cellsRise, Bool.and_eq_true, decide_eq_true_eq] at w
    rw [List.filter_cons]
    split
    · simp only [cellsRise, Bool.and_eq_true, decide_eq_true_eq]; exact ⟨w.1, ih w.2⟩
    · exact cellsRise_mono (by omega) (ih w.2)

theorem cellsRise_cellPut (a : Nat) (v : Byte) {lo : Nat} {l : List Host.Cell} (w : cellsRise lo l = true) (h : lo ≤ a) :
    cellsRise lo (cellPut l a v) = true := by
  induction l generalizing lo with
  | nil => simp [cellPut, cellsRise, h]
  | cons c t ih =>
    simp only [cellsRise, Bool.and_eq_true, decide_eq_true_eq] at w
    unfold cellPut
    split
    · simp only [cellsRise, Bool.and_eq_true, decide_eq_true_eq]; exact ⟨h, by omega, w.2⟩
    · split
      · rename_i hc
        simp only [cellsRise, Bool.and_eq_true, decide_eq_true_eq]; exact ⟨h, hc ▸ w.2⟩
      · simp only [cellsRise, Bool.and_eq_true, decide_eq_true_eq]; exact ⟨w.1, ih w.2 (by omega)⟩

/-- Taking entries out keeps the canonical form. -/
theorem wf_filter (p : Host.Cell → Bool) {d : Nat → Option Byte} {l : List Host.Cell} (w : Memory.wf d l = true) :
    Memory.wf d (l.filter p) = true := by
  simp only [Memory.wf, Bool.and_eq_true, List.all_eq_true] at *
  exact ⟨cellsRise_filter p w.1, fun c hc => w.2 c (List.mem_filter.mp hc).1⟩

theorem mem_cellPut {l : List Host.Cell} {a : Nat} {v : Byte} {c : Host.Cell} (h : c ∈ cellPut l a v) :
    c = (a, v) ∨ c ∈ l := by
  induction l with
  | nil => simpa [cellPut] using h
  | cons e t ih =>
    unfold cellPut at h
    split at h
    · simpa using h
    · split at h
      · rcases List.mem_cons.mp h with h | h
        · exact .inl h
        · exact .inr (List.mem_cons_of_mem _ h)
      · rcases List.mem_cons.mp h with h | h
        · exact .inr (h ▸ List.mem_cons_self)
        · exact (ih h).imp id (List.mem_cons_of_mem _)

/-- Listing a byte that differs from what its address reads as unlisted keeps the canonical form. -/
theorem wf_cellPut {d : Nat → Option Byte} {l : List Host.Cell} {a : Nat} {v : Byte} (w : Memory.wf d l = true)
    (h : d a ≠ some v) : Memory.wf d (cellPut l a v) = true := by
  simp only [Memory.wf, Bool.and_eq_true, List.all_eq_true] at *
  refine ⟨cellsRise_cellPut a v w.1 (Nat.zero_le _), fun c hc => ?_⟩
  rcases mem_cellPut hc with rfl | hc
  · simpa using h
  · exact w.2 c hc

theorem State.memWf_reset : State.reset.memWf = true := rfl

/-- Storing a byte keeps the canonical form. -/
theorem State.poke_memWf {s : State} (a : Nat) (b : Byte) (h : s.memWf = true) : (s.poke a b).memWf = true := by
  simp only [State.memWf, State.poke] at *
  split
  · exact wf_filter _ h
  · exact wf_cellPut h ‹_›

theorem State.pokes_memWf {s : State} (a : Nat) (l : List Byte) (h : s.memWf = true) : (s.pokes a l).memWf = true := by
  induction l generalizing s a with
  | nil => exact h
  | cons b t ih => exact ih _ (State.poke_memWf a b h)

theorem State.forget_memWf {s : State} (lo hi : Nat) (h : s.memWf = true) : (s.forget lo hi).memWf = true :=
  wf_filter _ h

/-! What a byte reads as -/

theorem cellFind_cellPut_same (l : List Host.Cell) (a : Nat) (v : Byte) : cellFind (cellPut l a v) a = some v := by
  induction l with
  | nil => simp [cellPut, cellFind]
  | cons c t ih =>
    unfold cellPut
    split
    · simp [cellFind]
    · split
      · simp [cellFind]
      · simp [cellFind, *]

theorem cellFind_cellPut_ne (l : List Host.Cell) {a q : Nat} (v : Byte) (h : a ≠ q) :
    cellFind (cellPut l a v) q = cellFind l q := by
  induction l with
  | nil => simp [cellPut, cellFind, h]
  | cons c t ih =>
    unfold cellPut
    split
    · simp [cellFind, h]
    · split
      · simp [cellFind, h, show c.1 ≠ q by omega]
      · simp [cellFind, ih]

theorem cellFind_filter (p : Host.Cell → Bool) (l : List Host.Cell) (q : Nat) (h : ∀ v, p (q, v) = true) :
    cellFind (l.filter p) q = cellFind l q := by
  induction l with
  | nil => rfl
  | cons c t ih =>
    rw [List.filter_cons]
    split
    · simp [cellFind, ih]
    · rename_i hc
      have : c.1 ≠ q := by rintro rfl; exact hc (h c.2)
      simp [cellFind, this, ih]

theorem cellFind_filter_none (p : Host.Cell → Bool) (l : List Host.Cell) (q : Nat) (h : ∀ v, p (q, v) = false) :
    cellFind (l.filter p) q = none := by
  induction l with
  | nil => rfl
  | cons c t ih =>
    rw [List.filter_cons]
    split
    · rename_i hc
      have : c.1 ≠ q := by rintro rfl; simp [h c.2] at hc
      simp [cellFind, this, ih]
    · exact ih

namespace State

/-- A stored byte reads back. -/
@[simp] theorem peek_poke_same (s : State) (a : Nat) (b : Byte) : (s.poke a b).peek a = some b := by
  unfold peek poke
  by_cases h : memDefault s.filled a = some b
  · have : cellFind (cellDrop s.mem a) a = none := cellFind_filter_none _ _ _ (by simp)
    simp [h, this]
  · simp [h, cellFind_cellPut_same]

/-- Storing a byte leaves every other byte. -/
theorem peek_poke_ne (s : State) {a q : Nat} (b : Byte) (h : a ≠ q) : (s.poke a b).peek q = s.peek q := by
  unfold peek poke
  by_cases hd : memDefault s.filled a = some b
  · have : cellFind (cellDrop s.mem a) q = cellFind s.mem q := cellFind_filter _ _ _ (by simp [Ne.symm h])
    simp [hd, this]
  · simp [hd, cellFind_cellPut_ne _ _ h]

/-- Storing bytes leaves every byte outside their range. -/
theorem peek_pokes_out (s : State) (a q : Nat) (l : List Byte) (h : q < a ∨ a + l.length ≤ q) :
    (s.pokes a l).peek q = s.peek q := by
  induction l generalizing s a with
  | nil => rfl
  | cons b t ih =>
    simp only [List.length_cons] at h
    rw [pokes, ih _ _ (by omega), peek_poke_ne _ _ (by omega)]

/-- Stored bytes read back. -/
theorem peek_pokes_in (s : State) (a : Nat) (l : List Byte) (k : Nat) (h : k < l.length) :
    (s.pokes a l).peek (a + k) = some l[k] := by
  induction l generalizing s a k with
  | nil => simp at h
  | cons b t ih =>
    cases k with
    | zero => rw [pokes, Nat.add_zero, peek_pokes_out _ _ _ _ (by omega)]; simp
    | succ k =>
      have := ih (s.poke a b) (a + 1) k (by simpa using h)
      rw [pokes, show a + (k + 1) = a + 1 + k by omega, this]; simp

/-- Making a range undefined leaves every byte outside it. -/
theorem peek_forget_out (s : State) {lo hi q : Nat} (h : q < lo ∨ hi ≤ q) : (s.forget lo hi).peek q = s.peek q := by
  have : cellFind (cellClear s.mem lo hi) q = cellFind s.mem q := cellFind_filter _ _ _ (by simpa using h)
  simp [peek, forget, this]

@[simp] theorem poke_regs (s : State) (a : Nat) (b : Byte) : (s.poke a b).regs = s.regs := rfl

@[simp] theorem pokes_regs (s : State) (a : Nat) (l : List Byte) : (s.pokes a l).regs = s.regs := by
  induction l generalizing s a with
  | nil => rfl
  | cons b t ih => exact ih _ _

end State
end Sys2Proof.Machine
end

