-- ==== Sys2Proof/Laws/Kept.lean ====
section
/-! SUPPORT. The relation that every meaning keeps: the queue stands, an authentication key stays unrevoked where one was, and memory keeps its canonical form; with the lemmas of the shared register operations. -/

set_option linter.unusedTactic false
set_option linter.unreachableTactic false
set_option linter.unusedSimpArgs false
set_option linter.unusedVariables false

namespace Sys2Proof.Machine


/-- What no meaning disturbs: the queue, the possession of an unrevoked authentication key (14 R782), the canonical form of memory. -/
structure Kept (s t : State) : Prop where
  pending : t.pending = s.pending
  key : s.authSlots ≠ [] → t.authSlots ≠ []
  mem : s.memWf = true → t.memWf = true
  home : s.mergeHome → t.mergeHome

@[simp] theorem Kept.rfl' (s : State) : Kept s s := ⟨rfl, id, id, id⟩

theorem kept_of {s u t : State} (h : Kept s u) (hp : t.pending = u.pending) (hf : t.fuses = u.fuses)
    (hm : t.mem = u.mem) (hk : t.filled = u.filled) (hb : t.banks = u.banks) : Kept s t :=
  ⟨hp.trans h.pending, fun k => by
    have := h.key k
    simpa only [State.authSlots, hf] using this, fun w => by
    have := h.mem w
    simpa only [State.memWf, hm, hk] using this, fun w => by
    have := h.home w
    simpa only [State.mergeHome, State.bank, hb] using this⟩

@[simp] theorem kept_ite {s a b : State} {c : Prop} [Decidable c] (ha : Kept s a) (hb : Kept s b) :
    Kept s (if c then a else b) := by split <;> assumption

theorem opt_eq {o : Option State} {t : State} (d : State) : o = some t ↔ o.isSome = true ∧ o.getD d = t := by
  cases o <;> simp

@[simp] theorem after_next (t d : State) : after (.next t) d = t := rfl

/-- The effects that a request may have keep `Kept`. -/
def ReqDoes.keeps (s0 s : State) : ReqDoes → Prop
  | .ends _ => True
  | .fails _ f => Kept s0 (f s)
  | .does _ f => Kept s0 (f s)

/-- The state an instruction leaves. -/
def CoreDoes.st : CoreDoes → State
  | .next s => s
  | .jump _ s => s
  | .trapped s => s
  | .stay s => s

/-- The state of a fetch, whichever way it ends. -/
def exSt : Except State State → State
  | .ok t => t
  | .error t => t

theorem kept_ite_getD {s d : State} {a b : Option State} {c : Prop} [Decidable c] (ha : Kept s (a.getD d)) (hb : Kept s (b.getD d)) :
    Kept s ((if c then a else b).getD d) := by split <;> assumption

theorem kept_getD {s d : State} {a : Option State} (ha : Kept s (a.getD s)) (hb : Kept s d) : Kept s (a.getD d) := by
  cases a <;> assumption

@[simp] theorem st_next (s : State) : (CoreDoes.next s).st = s := rfl
@[simp] theorem st_jump (p : W64) (s : State) : (CoreDoes.jump p s).st = s := rfl
@[simp] theorem st_trapped (s : State) : (CoreDoes.trapped s).st = s := rfl
@[simp] theorem st_stay (s : State) : (CoreDoes.stay s).st = s := rfl
theorem keeps_ends (s0 s : State) (n : Nat) : (ReqDoes.ends n).keeps s0 s = True := rfl
theorem keeps_fails (s0 s : State) (n : Nat) (f : State → State) : (ReqDoes.fails n f).keeps s0 s = Kept s0 (f s) := rfl
theorem keeps_does (s0 s : State) (r : W64) (f : State → State) : (ReqDoes.does r f).keeps s0 s = Kept s0 (f s) := rfl

theorem kept_atS {s0 s : State} (w) {b : Nat → State → CoreDoes} (n) (ht : ∀ c v, Kept s0 (trap n c v s)) (h : Kept s0 (b n s).st) :
    Kept s0 (atS w b n s).st := by
  unfold atS
  split
  · exact ht _ _
  · exact h

@[simp] theorem kept_mk {s u : State} (x_regs : Tbl Nat W64) (x_free : Nat) (x_ans : Answer) (x_halves : Halves) (x_tmg : Tmg) (x_lanes : Tbl Nat Lane) (x_fabric : Fabric) (x_brams : Tbl BlockId Bram) (x_fifos : Tbl BlockId Fifo) (x_slices : Tbl (Nat × Nat) Slice) (x_rsyAt : Option Nat) (x_sand : Sand) (x_qtz : Quartz) (x_vrd : Verdict) (x_ldg : Ledger) (x_ktp : Ktp) (x_cfg : Cfg) (x_railsOff : List Nat) (x_supplyOff : List Supply) (x_pgr : Pgr) (x_cores : Tbl Nat Core) (x_warden : Warden) (x_wordFlaw : Tbl Nat Flaw) (x_resv : Tbl Nat Nat) (x_dma : Tbl Nat DmaRun) (x_lineFlaw : Tbl Nat Flaw) (x_seals : Tbl Nat (Option MemKey)) (x_chans : Tbl Nat Chan) (x_memKeys : Tbl Nat MemKey) (x_synths : Tbl Nat Synth) (x_cmpRuns : Tbl Nat CmpRun) (x_power : Power) (x_svc : Svc) (x_evc : Evc) (x_dbg : Dbg) (h : Kept s u) : Kept s (State.mk (State.pending u) x_regs x_free x_ans x_halves x_tmg x_lanes x_fabric x_brams x_fifos x_slices x_rsyAt x_sand x_qtz x_vrd x_ldg x_ktp x_cfg (State.fuses u) x_railsOff x_supplyOff x_pgr x_cores x_warden (State.mem u) (State.filled u) x_wordFlaw (State.banks u) x_resv x_dma x_lineFlaw x_seals x_chans x_memKeys x_synths x_cmpRuns x_power x_svc x_evc x_dbg) :=
  kept_of h rfl rfl rfl rfl rfl

theorem kept_mk_iff {s u : State} (x_regs : Tbl Nat W64) (x_free : Nat) (x_ans : Answer) (x_halves : Halves) (x_tmg : Tmg) (x_lanes : Tbl Nat Lane) (x_fabric : Fabric) (x_brams : Tbl BlockId Bram) (x_fifos : Tbl BlockId Fifo) (x_slices : Tbl (Nat × Nat) Slice) (x_rsyAt : Option Nat) (x_sand : Sand) (x_qtz : Quartz) (x_vrd : Verdict) (x_ldg : Ledger) (x_ktp : Ktp) (x_cfg : Cfg) (x_railsOff : List Nat) (x_supplyOff : List Supply) (x_pgr : Pgr) (x_cores : Tbl Nat Core) (x_warden : Warden) (x_wordFlaw : Tbl Nat Flaw) (x_resv : Tbl Nat Nat) (x_dma : Tbl Nat DmaRun) (x_lineFlaw : Tbl Nat Flaw) (x_seals : Tbl Nat (Option MemKey)) (x_chans : Tbl Nat Chan) (x_memKeys : Tbl Nat MemKey) (x_synths : Tbl Nat Synth) (x_cmpRuns : Tbl Nat CmpRun) (x_power : Power) (x_svc : Svc) (x_evc : Evc) (x_dbg : Dbg) : Kept s (State.mk (State.pending u) x_regs x_free x_ans x_halves x_tmg x_lanes x_fabric x_brams x_fifos x_slices x_rsyAt x_sand x_qtz x_vrd x_ldg x_ktp x_cfg (State.fuses u) x_railsOff x_supplyOff x_pgr x_cores x_warden (State.mem u) (State.filled u) x_wordFlaw (State.banks u) x_resv x_dma x_lineFlaw x_seals x_chans x_memKeys x_synths x_cmpRuns x_power x_svc x_evc x_dbg) ↔ Kept s u :=
  ⟨fun h => kept_of h rfl rfl rfl rfl rfl, fun h => kept_of h rfl rfl rfl rfl rfl⟩

theorem kept_mk_mem {s u : State} {x_regs : Tbl Nat W64} {x_free : Nat} {x_ans : Answer} {x_halves : Halves} {x_tmg : Tmg} {x_lanes : Tbl Nat Lane} {x_fabric : Fabric} {x_brams : Tbl BlockId Bram} {x_fifos : Tbl BlockId Fifo} {x_slices : Tbl (Nat × Nat) Slice} {x_rsyAt : Option Nat} {x_sand : Sand} {x_qtz : Quartz} {x_vrd : Verdict} {x_ldg : Ledger} {x_ktp : Ktp} {x_cfg : Cfg} {x_railsOff : List Nat} {x_supplyOff : List Supply} {x_pgr : Pgr} {x_cores : Tbl Nat Core} {x_warden : Warden} {x_wordFlaw : Tbl Nat Flaw} {x_resv : Tbl Nat Nat} {x_dma : Tbl Nat DmaRun} {x_lineFlaw : Tbl Nat Flaw} {x_seals : Tbl Nat (Option MemKey)} {x_chans : Tbl Nat Chan} {x_memKeys : Tbl Nat MemKey} {x_synths : Tbl Nat Synth} {x_cmpRuns : Tbl Nat CmpRun} {x_power : Power} {x_svc : Svc} {x_evc : Evc} {x_dbg : Dbg} {x_mem : List Host.Cell} (h : Kept s u) (hm : s.memWf = true → Memory.wf (memDefault u.filled) x_mem = true) : Kept s (State.mk (State.pending u) x_regs x_free x_ans x_halves x_tmg x_lanes x_fabric x_brams x_fifos x_slices x_rsyAt x_sand x_qtz x_vrd x_ldg x_ktp x_cfg (State.fuses u) x_railsOff x_supplyOff x_pgr x_cores x_warden x_mem (State.filled u) x_wordFlaw (State.banks u) x_resv x_dma x_lineFlaw x_seals x_chans x_memKeys x_synths x_cmpRuns x_power x_svc x_evc x_dbg) :=
  ⟨h.pending, fun k => by
    have := h.key k
    simpa only [State.authSlots] using this, hm, fun k => h.home k⟩

@[simp] theorem kept_State_wr {s0 s : State} (a1) (a2) (a3) (h : Kept s0 s) : Kept s0 (State.wr s a1 a2 a3) := by
  unfold State.wr
  simp (maxDischargeDepth := 60) [h]

@[simp] theorem kept_State_put {s0 s : State} (a1) (a2) (a3) (h : Kept s0 s) : Kept s0 (State.put s a1 a2 a3) := by
  unfold State.put
  simp (maxDischargeDepth := 60) [h]

@[simp] theorem kept_State_raise {s0 s : State} (a1) (a2) (h : Kept s0 s) : Kept s0 (State.raise s a1 a2) := by
  unfold State.raise
  simp (maxDischargeDepth := 60) [h]

@[simp] theorem kept_State_clear {s0 s : State} (a1) (a2) (h : Kept s0 s) : Kept s0 (State.clear s a1 a2) := by
  unfold State.clear
  simp (maxDischargeDepth := 60) [h]

@[simp] theorem kept_State_flag {s0 s : State} (a1) (a2) (a3) (h : Kept s0 s) : Kept s0 (State.flag s a1 a2 a3) := by
  unfold State.flag
  simp (maxDischargeDepth := 60) [h]

@[simp] theorem kept_State_bumpHold {s0 s : State} (a1) (a2) (a3) (h : Kept s0 s) : Kept s0 (State.bumpHold s a1 a2 a3) := by
  unfold State.bumpHold
  simp (maxDischargeDepth := 60) [h]

@[simp] theorem kept_State_bumpWrap {s0 s : State} (a1) (a2) (a3) (h : Kept s0 s) : Kept s0 (State.bumpWrap s a1 a2 a3) := by
  unfold State.bumpWrap
  simp (maxDischargeDepth := 60) [h]

@[simp] theorem kept_State_when {s0 s : State} {c : Bool} {g : State → State} (h : Kept s0 s)
    (hg : ∀ t, Kept s0 t → Kept s0 (g t)) : Kept s0 (s.when c g) := by
  unfold State.when; split
  · exact hg _ h
  · exact h


@[simp] theorem kept_State_each {s0 s : State} {α : Type} {l : List α} {g : State → α → State} (h : Kept s0 s)
    (hg : ∀ t a, Kept s0 t → Kept s0 (g t a)) : Kept s0 (s.each l g) := by
  unfold State.each
  induction l generalizing s with
  | nil => exact h
  | cons a l ih => exact ih (hg _ _ h)

@[simp] theorem kept_foldl {s0 s : State} {α : Type} {l : List α} {g : State → α → State} (h : Kept s0 s)
    (hg : ∀ t a, Kept s0 t → Kept s0 (g t a)) : Kept s0 (l.foldl g s) := kept_State_each h hg

@[simp] theorem kept_foldl_prod {s0 : State} {α β : Type} {l : List α} {p : β × State} {g : β × State → α → β × State}
    (h : Kept s0 p.2) (hg : ∀ t a, Kept s0 t.2 → Kept s0 (g t a).2) : Kept s0 (l.foldl g p).2 := by
  induction l generalizing p with
  | nil => exact h
  | cons a l ih => exact ih (hg _ _ h)

@[simp] theorem kept_foldl_prod2 {s0 : State} {α β0 β1 : Type} {l : List α} {p : β0 × β1 × State}
    {g : β0 × β1 × State → α → β0 × β1 × State}
    (h : Kept s0 p.2.2) (hg : ∀ t a, Kept s0 t.2.2 → Kept s0 (g t a).2.2) : Kept s0 (l.foldl g p).2.2 := by
  induction l generalizing p with
  | nil => exact h
  | cons a l ih => exact ih (hg _ _ h)

@[simp] theorem kept_foldl_prod3 {s0 : State} {α β0 β1 β2 : Type} {l : List α} {p : β0 × β1 × β2 × State}
    {g : β0 × β1 × β2 × State → α → β0 × β1 × β2 × State}
    (h : Kept s0 p.2.2.2) (hg : ∀ t a, Kept s0 t.2.2.2 → Kept s0 (g t a).2.2.2) : Kept s0 (l.foldl g p).2.2.2 := by
  induction l generalizing p with
  | nil => exact h
  | cons a l ih => exact ih (hg _ _ h)

@[simp] theorem kept_foldl_prod4 {s0 : State} {α β0 β1 β2 β3 : Type} {l : List α} {p : β0 × β1 × β2 × β3 × State}
    {g : β0 × β1 × β2 × β3 × State → α → β0 × β1 × β2 × β3 × State}
    (h : Kept s0 p.2.2.2.2) (hg : ∀ t a, Kept s0 t.2.2.2.2 → Kept s0 (g t a).2.2.2.2) : Kept s0 (l.foldl g p).2.2.2.2 := by
  induction l generalizing p with
  | nil => exact h
  | cons a l ih => exact ih (hg _ _ h)


@[simp] theorem kept_State_answer {s0 s : State} (a1) (a2) (h : Kept s0 s) : Kept s0 (State.answer s a1 a2) := by
  unfold State.answer
  simp (maxDischargeDepth := 60) [h]

@[simp] theorem kept_State_okay {s0 s : State} (a1) (h : Kept s0 s) : Kept s0 (State.okay s a1) := by
  unfold State.okay
  simp (maxDischargeDepth := 60) [h]

@[simp] theorem kept_State_fresh {s0 s : State}  (h : Kept s0 s) : Kept s0 (State.fresh s) := by
  unfold State.fresh
  simp (maxDischargeDepth := 60) [h]

@[simp] theorem kept_State_putBit {s0 s : State} (a1) (a2) (a3) (a4) (h : Kept s0 s) : Kept s0 (State.putBit s a1 a2 a3 a4) := by
  unfold State.putBit
  simp (maxDischargeDepth := 60) [h]

@[simp] theorem kept_State_wrCodes {s0 s : State} (a1) (a2) (a3) (a4) (h : Kept s0 s) : Kept s0 (State.wrCodes s a1 a2 a3 a4) := by
  unfold State.wrCodes
  simp (maxDischargeDepth := 60) [h]

@[simp] theorem kept_logFirst {s0 s : State} (a1) (a2) (a3) (h : Kept s0 s) : Kept s0 (logFirst a1 a2 a3 s) := by
  unfold logFirst
  simp (maxDischargeDepth := 60) [h]

@[simp] theorem kept_lockStep {s0 s : State} (r i w ini) (h : Kept s0 s) : Kept s0 (lockStep r i w ini s).2 := by
  unfold lockStep
  simp only
  split <;> simp (maxDischargeDepth := 60) [h]


@[simp] theorem kept_State_answerBlock {s0 s : State} (a1) (a2) (a3) (h : Kept s0 s) : Kept s0 (State.answerBlock s a1 a2 a3) := by
  unfold State.answerBlock
  simp (maxDischargeDepth := 60) [h]

@[simp] theorem kept_State_answerMem {s0 s : State} (a1) (h : Kept s0 s) : Kept s0 (State.answerMem s a1) := by
  unfold State.answerMem
  simp (maxDischargeDepth := 60) [h]

end Sys2Proof.Machine
end

