-- ==== Sys2Proof/Laws/KeptFabric.lean ====
section
/-! SUPPORT. Each operation of the timing port, the fabric, block memories, slices, Sand, Quartz and bays is Kept. -/

set_option linter.unusedTactic false
set_option linter.unreachableTactic false
set_option linter.unusedSimpArgs false
set_option linter.unusedVariables false

namespace Sys2Proof.Machine

@[simp] theorem kept_flopsInit {s0 s : State} (a1) (h : Kept s0 s) : Kept s0 (flopsInit a1 s) := by
  unfold flopsInit
  simp (maxDischargeDepth := 60) [h]

@[simp] theorem kept_frstAssert {s0 s : State} (a1) (a2) (h : Kept s0 s) : Kept s0 (frstAssert a1 a2 s) := by
  unfold frstAssert
  simp (maxDischargeDepth := 60) [h]

@[simp] theorem kept_frstFree {s0 s : State} (a1) (a2) (h : Kept s0 s) : Kept s0 (frstFree a1 a2 s) := by
  unfold frstFree
  simp (maxDischargeDepth := 60) [h]

@[simp] theorem kept_frstPinSet {s0 s : State} (a1) (a2) (a3) (h : Kept s0 s) : Kept s0 (frstPinSet a1 a2 a3 s) := by
  unfold frstPinSet
  simp (maxDischargeDepth := 60) [h]

theorem kept_execFabricResetAssert {s0 s : State} (a1) (a2) (a3) (h : Kept s0 s) : Kept s0 (after (execFabricResetAssert a1 a2 a3 s) s0) := by
  first | rewrite [execFabricResetAssert] | unfold execFabricResetAssert
  try dsimp only
  repeat' first
    | with_reducible assumption
    | with_reducible intro t
    | with_reducible refine kept_State_when ?_ (fun t ht => ?_)
    | with_reducible apply kept_frstAssert
    | with_reducible apply kept_frstPinSet
    | with_reducible exact Kept.rfl' _
    | simp only [after_next]
    | (split <;> (try simp only [Prod.ext_iff, opt_eq s0] at *) <;> (try casesm* _ ∧ _) <;> (try subst_vars) <;> (try dsimp only))

theorem kept_execFabricResetRelease {s0 s : State} (a1) (a2) (h : Kept s0 s) : Kept s0 (after (execFabricResetRelease a1 a2 s) s0) := by
  first | rewrite [execFabricResetRelease] | unfold execFabricResetRelease
  try dsimp only
  repeat' first
    | with_reducible assumption
    | with_reducible intro t
    | with_reducible refine kept_State_when ?_ (fun t ht => ?_)
    | with_reducible apply kept_frstFree
    | with_reducible apply kept_frstPinSet
    | with_reducible exact Kept.rfl' _
    | simp only [after_next]
    | (split <;> (try simp only [Prod.ext_iff, opt_eq s0] at *) <;> (try casesm* _ ∧ _) <;> (try subst_vars) <;> (try dsimp only))

theorem kept_execVccoLoss {s0 s : State} (a1) (h : Kept s0 s) : Kept s0 (after (execVccoLoss a1 s) s0) := by
  unfold execVccoLoss
  simp (maxDischargeDepth := 60) [h]

theorem kept_execVccoReturn {s0 s : State} (a1) (a2) (h : Kept s0 s) : Kept s0 (after (execVccoReturn a1 a2 s) s0) := by
  unfold execVccoReturn
  simp (maxDischargeDepth := 60) [h]

@[simp] theorem kept_uioHold {s0 s : State}  (h : Kept s0 s) : Kept s0 (uioHold s) := by
  unfold uioHold
  simp (maxDischargeDepth := 60) [h]

@[simp] theorem kept_State_putFrame {s0 s : State} (a1) (a2) (h : Kept s0 s) : Kept s0 (State.putFrame s a1 a2) := by
  unfold State.putFrame
  simp (maxDischargeDepth := 60) [h]

@[simp] theorem kept_State_keepFrame {s0 s : State} (a1) (a2) (a3) (h : Kept s0 s) : Kept s0 (State.keepFrame s a1 a2 a3) := by
  unfold State.keepFrame
  simp (maxDischargeDepth := 60) [h]

@[simp] theorem kept_State_setBram {s0 s : State} (a1) (a2) (h : Kept s0 s) : Kept s0 (State.setBram s a1 a2) := by
  unfold State.setBram
  simp (maxDischargeDepth := 60) [h]

@[simp] theorem kept_State_setFifo {s0 s : State} (a1) (a2) (h : Kept s0 s) : Kept s0 (State.setFifo s a1 a2) := by
  unfold State.setFifo
  simp (maxDischargeDepth := 60) [h]

@[simp] theorem kept_bramRead {s0 s : State} (a1) (a2) (a3) (a4) (a5) (a6) (h : Kept s0 s) : Kept s0 (bramRead a1 a2 a3 a4 a5 a6 s) := by
  first | rewrite [bramRead] | unfold bramRead
  try dsimp only
  repeat' first
    | with_reducible assumption
    | with_reducible intro t
    | with_reducible refine kept_State_when ?_ (fun t ht => ?_)
    | with_reducible apply kept_State_fresh
    | with_reducible apply kept_State_setBram
    | with_reducible exact Kept.rfl' _
    | simp only [after_next]
    | simp only [kept_mk_iff]
    | (split <;> (try simp only [Prod.ext_iff, opt_eq s0] at *) <;> (try casesm* _ ∧ _) <;> (try subst_vars) <;> (try dsimp only))

@[simp] theorem kept_bramWrite {s0 s : State} (a1) (a2) (a3) (a4) (a5) (a6) (a7) (a8) (h : Kept s0 s) : Kept s0 (bramWrite a1 a2 a3 a4 a5 a6 a7 a8 s) := by
  first | rewrite [bramWrite] | unfold bramWrite
  try dsimp only
  repeat' first
    | with_reducible assumption
    | with_reducible intro t
    | with_reducible refine kept_State_when ?_ (fun t ht => ?_)
    | with_reducible apply kept_State_fresh
    | with_reducible apply kept_State_setBram
    | with_reducible apply kept_bramRead
    | with_reducible exact Kept.rfl' _
    | simp only [kept_mk_iff]
    | (split <;> (try simp only [Prod.ext_iff, opt_eq s0] at *) <;> (try casesm* _ ∧ _) <;> (try subst_vars) <;> (try dsimp only))

theorem kept_execBramRead {s0 s : State} (a1) (a2) (a3) (a4) (a5) (a6) (h : Kept s0 s) : Kept s0 (after (execBramRead a1 a2 a3 a4 a5 a6 s) s0) := by
  unfold execBramRead
  simp (maxDischargeDepth := 60) [h]

theorem kept_execBramWrite {s0 s : State} (a1) (a2) (a3) (a4) (a5) (a6) (a7) (a8) (h : Kept s0 s) : Kept s0 (after (execBramWrite a1 a2 a3 a4 a5 a6 a7 a8 s) s0) := by
  unfold execBramWrite
  simp (maxDischargeDepth := 60) [h]

theorem kept_execBramErrorRetry {s0 s : State} (a1) (a2) (a3) (a4) (h : Kept s0 s) : Kept s0 (after (execBramErrorRetry a1 a2 a3 a4 s) s0) := by
  first | rewrite [execBramErrorRetry] | unfold execBramErrorRetry
  try dsimp only
  repeat' first
    | (simp (maxDischargeDepth := 60) (contextual := true) [h]; done)
    | (split <;> (try simp only [Prod.ext_iff, opt_eq s0] at *) <;> (try casesm* _ ∧ _) <;> (try subst_vars) <;> (try dsimp only))

theorem kept_execOutputRegisterReset {s0 s : State} (a1) (a2) (a3) (h : Kept s0 s) : Kept s0 (after (execOutputRegisterReset a1 a2 a3 s) s0) := by
  unfold execOutputRegisterReset
  simp (maxDischargeDepth := 60) [h]

@[simp] theorem kept_bramsIdle {s0 s : State}  (h : Kept s0 s) : Kept s0 (bramsIdle s) := by
  unfold bramsIdle
  simp (maxDischargeDepth := 60) [h]

@[simp] theorem kept_bramLoad {s0 s : State} (a1) (a2) (h : Kept s0 s) : Kept s0 (bramLoad a1 a2 s) := by
  first | rewrite [bramLoad] | unfold bramLoad
  try dsimp only
  repeat' first
    | (simp (maxDischargeDepth := 60) (contextual := true) [h]; done)
    | (split <;> (try simp only [Prod.ext_iff, opt_eq s0] at *) <;> (try casesm* _ ∧ _) <;> (try subst_vars) <;> (try dsimp only))

@[simp] theorem kept_fifoWrite {s0 s : State} (a1) (a2) (a3) (a4) (h : Kept s0 s) : Kept s0 (fifoWrite a1 a2 a3 a4 s) := by
  unfold fifoWrite
  simp (maxDischargeDepth := 60) [h]

theorem kept_execFifoWrite {s0 s : State} (a1) (a2) (a3) (a4) (h : Kept s0 s) : Kept s0 (after (execFifoWrite a1 a2 a3 a4 s) s0) := by
  unfold execFifoWrite
  simp (maxDischargeDepth := 60) [h]

@[simp] theorem kept_fifoRead {s0 s : State} (a1) (a2) (a3) (h : Kept s0 s) : Kept s0 (fifoRead a1 a2 a3 s) := by
  first | rewrite [fifoRead] | unfold fifoRead
  try dsimp only
  repeat' first
    | (simp (maxDischargeDepth := 60) (contextual := true) [h]; done)
    | (split <;> (try simp only [Prod.ext_iff, opt_eq s0] at *) <;> (try casesm* _ ∧ _) <;> (try subst_vars) <;> (try dsimp only))

theorem kept_execFifoRead {s0 s : State} (a1) (a2) (a3) (h : Kept s0 s) : Kept s0 (after (execFifoRead a1 a2 a3 s) s0) := by
  unfold execFifoRead
  simp (maxDischargeDepth := 60) [h]

theorem kept_execFlush {s0 s : State} (a1) (h : Kept s0 s) : Kept s0 (after (execFlush a1 s) s0) := by
  unfold execFlush
  simp (maxDischargeDepth := 60) [h]

theorem kept_execFlushPointRecord {s0 s : State} (a1) (h : Kept s0 s) : Kept s0 (after (execFlushPointRecord a1 s) s0) := by
  unfold execFlushPointRecord
  simp (maxDischargeDepth := 60) [h]

theorem kept_execFlushComplete {s0 s : State} (a1) (h : Kept s0 s) : Kept s0 (after (execFlushComplete a1 s) s0) := by
  first | rewrite [execFlushComplete] | unfold execFlushComplete
  try dsimp only
  repeat' first
    | (simp (maxDischargeDepth := 60) (contextual := true) [h]; done)
    | (split <;> (try simp only [Prod.ext_iff, opt_eq s0] at *) <;> (try casesm* _ ∧ _) <;> (try subst_vars) <;> (try dsimp only))

theorem kept_execFifoReset {s0 s : State} (a1) (h : Kept s0 s) : Kept s0 (after (execFifoReset a1 s) s0) := by
  unfold execFifoReset
  simp (maxDischargeDepth := 60) [h]

theorem kept_execFifoResetRelease {s0 s : State} (a1) (a2) (h : Kept s0 s) : Kept s0 (after (execFifoResetRelease a1 a2 s) s0) := by
  unfold execFifoResetRelease
  simp (maxDischargeDepth := 60) [h]

theorem kept_execPointerSync {s0 s : State} (a1) (a2) (h : Kept s0 s) : Kept s0 (after (execPointerSync a1 a2 s) s0) := by
  unfold execPointerSync
  simp (maxDischargeDepth := 60) [h]

@[simp] theorem kept_tmgSettle {s0 s : State}  (h : Kept s0 s) : Kept s0 (tmgSettle s) := by
  first | rewrite [tmgSettle] | unfold tmgSettle
  try dsimp only
  repeat' first
    | (simp (maxDischargeDepth := 60) (contextual := true) [h]; done)
    | (split <;> (try simp only [Prod.ext_iff, opt_eq s0] at *) <;> (try casesm* _ ∧ _) <;> (try subst_vars) <;> (try dsimp only))

@[simp] theorem kept_tmgLink {s0 s : State} (a1) (h : Kept s0 s) : Kept s0 (tmgLink a1 s) := by
  first | rewrite [tmgLink] | unfold tmgLink
  try dsimp only
  repeat' first
    | (simp (maxDischargeDepth := 60) (contextual := true) [h]; done)
    | (split <;> (try simp only [Prod.ext_iff, opt_eq s0] at *) <;> (try casesm* _ ∧ _) <;> (try subst_vars) <;> (try dsimp only))

@[simp] theorem kept_tmgLose {s0 s : State}  (h : Kept s0 s) : Kept s0 (tmgLose s) := by
  unfold tmgLose
  simp (maxDischargeDepth := 60) [h]

@[simp] theorem kept_tmgCountCheck {s0 s : State} (a1) (h : Kept s0 s) : Kept s0 (tmgCountCheck a1 s) := by
  first | rewrite [tmgCountCheck] | unfold tmgCountCheck
  try dsimp only
  repeat' first
    | with_reducible assumption
    | with_reducible intro t
    | with_reducible refine kept_State_when ?_ (fun t ht => ?_)
    | with_reducible apply kept_State_raise
    | with_reducible apply kept_State_bumpHold
    | with_reducible exact Kept.rfl' _
    | split

@[simp] theorem kept_tmgKeep {s0 s : State} (a1) (h : Kept s0 s) : Kept s0 (tmgKeep a1 s) := by
  unfold tmgKeep
  simp (maxDischargeDepth := 60) [h]

@[simp] theorem kept_tmgGoodSync {s0 s : State} (a1) (h : Kept s0 s) : Kept s0 (tmgGoodSync s a1) := by
  unfold tmgGoodSync
  simp (maxDischargeDepth := 60) [h]

@[simp] theorem kept_tmgNoSync {s0 s : State} (a1) (h : Kept s0 s) : Kept s0 (tmgNoSync a1 s) := by
  unfold tmgNoSync
  simp (maxDischargeDepth := 60) [h]

theorem kept_execTimingFrameReceived {s0 s : State} (a1) (h : Kept s0 s) : Kept s0 (after (execTimingFrameReceived a1 s) s0) := by
  unfold execTimingFrameReceived
  simp (maxDischargeDepth := 60) [h]

theorem kept_execQuartzPllLock {s0 s : State}  (h : Kept s0 s) : Kept s0 (after (execQuartzPllLock s) s0) := by
  unfold execQuartzPllLock
  simp (maxDischargeDepth := 60) [h]

theorem kept_execTimingPortCdrLoss {s0 s : State}  (h : Kept s0 s) : Kept s0 (after (execTimingPortCdrLoss s) s0) := by
  unfold execTimingPortCdrLoss
  simp (maxDischargeDepth := 60) [h]

theorem kept_execTimingPortCdrLock {s0 s : State}  (h : Kept s0 s) : Kept s0 (after (execTimingPortCdrLock s) s0) := by
  unfold execTimingPortCdrLock
  simp (maxDischargeDepth := 60) [h]

theorem kept_execCnPresetMessage {s0 s : State}  (h : Kept s0 s) : Kept s0 (after (execCnPresetMessage s) s0) := by
  first | rewrite [execCnPresetMessage] | unfold execCnPresetMessage
  try dsimp only
  repeat' first
    | (simp (maxDischargeDepth := 60) (contextual := true) [h]; done)
    | (split <;> (try simp only [Prod.ext_iff, opt_eq s0] at *) <;> (try casesm* _ ∧ _) <;> (try subst_vars) <;> (try dsimp only))

theorem kept_execQueuedMessage {s0 s : State}  (h : Kept s0 s) : Kept s0 (after (execQueuedMessage s) s0) := by
  first | rewrite [execQueuedMessage] | unfold execQueuedMessage
  try dsimp only
  repeat' first
    | (simp (maxDischargeDepth := 60) (contextual := true) [h]; done)
    | (split <;> (try simp only [Prod.ext_iff, opt_eq s0] at *) <;> (try casesm* _ ∧ _) <;> (try subst_vars) <;> (try dsimp only))

theorem kept_execMsgDrop {s0 s : State}  (h : Kept s0 s) : Kept s0 (after (execMsgDrop s) s0) := by
  first | rewrite [execMsgDrop] | unfold execMsgDrop
  try dsimp only
  repeat' first
    | (simp (maxDischargeDepth := 60) (contextual := true) [h]; done)
    | (split <;> (try simp only [Prod.ext_iff, opt_eq s0] at *) <;> (try casesm* _ ∧ _) <;> (try subst_vars) <;> (try dsimp only))

@[simp] theorem kept_tmgMsgRead {s0 s : State} (a1) (h : Kept s0 s) : Kept s0 (tmgMsgRead a1 s) := by
  first | rewrite [tmgMsgRead] | unfold tmgMsgRead
  try dsimp only
  repeat' first
    | (simp (maxDischargeDepth := 60) (contextual := true) [h]; done)
    | (split <;> (try simp only [Prod.ext_iff, opt_eq s0] at *) <;> (try casesm* _ ∧ _) <;> (try subst_vars) <;> (try dsimp only))

theorem kept_execMsgDataRead {s0 s : State} (a1) (h : Kept s0 s) : Kept s0 (after (execMsgDataRead a1 s) s0) := by
  unfold execMsgDataRead
  simp (maxDischargeDepth := 60) [h]

@[simp] theorem kept_tmgBoundary {s0 s : State}  (h : Kept s0 s) : Kept s0 (tmgBoundary s) := by
  first | rewrite [tmgBoundary] | unfold tmgBoundary
  try dsimp only
  repeat' first
    | (simp (maxDischargeDepth := 60) (contextual := true) [h]; done)
    | (split <;> (try simp only [Prod.ext_iff, opt_eq s0] at *) <;> (try casesm* _ ∧ _) <;> (try subst_vars) <;> (try dsimp only))

@[simp] theorem kept_tmgTransmit {s0 s : State}  (h : Kept s0 s) : Kept s0 (tmgTransmit s) := by
  unfold tmgTransmit
  simp (maxDischargeDepth := 60) [h]

@[simp] theorem kept_takeDue {s0 s : State} (a1) (h : Kept s0 s) : Kept s0 ((takeDue a1 s).getD s0) := by
  first | rewrite [takeDue] | unfold takeDue
  try dsimp only
  repeat' first
    | (simp (maxDischargeDepth := 60) (contextual := true) [h]; done)
    | (split <;> (try simp only [Prod.ext_iff, opt_eq s0] at *) <;> (try casesm* _ ∧ _) <;> (try subst_vars) <;> (try dsimp only))

@[simp] theorem kept_onDue {s0 s : State} (p) {g : State → State} (h : Kept s0 s)
    (hg : ∀ t, Kept s0 t → Kept s0 (g t)) : Kept s0 (onDue p g s) := by
  unfold onDue
  have k := kept_takeDue (s0 := s0) p h
  split <;> simp_all


theorem kept_execNop {s0 s : State}  (h : Kept s0 s) : Kept s0 (after (execNop s) s0) := by
  unfold execNop
  simp (maxDischargeDepth := 60) [h]

@[simp] theorem kept_tmgOrb {s0 s : State}  (h : Kept s0 s) : Kept s0 (tmgOrb s) := by
  first | rewrite [tmgOrb] | unfold tmgOrb
  try dsimp only
  repeat' first
    | (simp (maxDischargeDepth := 60) (contextual := true) [h]; done)
    | (split <;> (try simp only [Prod.ext_iff, opt_eq s0] at *) <;> (try casesm* _ ∧ _) <;> (try subst_vars) <;> (try dsimp only))

theorem kept_execCal {s0 s : State}  (h : Kept s0 s) : Kept s0 (after (execCal s) s0) := by
  unfold execCal
  simp (maxDischargeDepth := 60) [h]

theorem kept_execTpl {s0 s : State}  (h : Kept s0 s) : Kept s0 (after (execTpl s) s0) := by
  unfold execTpl
  simp (maxDischargeDepth := 60) [h]

theorem kept_execThr {s0 s : State}  (h : Kept s0 s) : Kept s0 (after (execThr s) s0) := by
  first | rewrite [execThr] | unfold execThr
  try dsimp only
  repeat' first
    | (simp (maxDischargeDepth := 60) (contextual := true) [h]; done)
    | (split <;> (try simp only [Prod.ext_iff, opt_eq s0] at *) <;> (try casesm* _ ∧ _) <;> (try subst_vars) <;> (try dsimp only))

theorem kept_execTrl {s0 s : State}  (h : Kept s0 s) : Kept s0 (after (execTrl s) s0) := by
  first | rewrite [execTrl] | unfold execTrl
  try dsimp only
  repeat' first
    | (simp (maxDischargeDepth := 60) (contextual := true) [h]; done)
    | (split <;> (try simp only [Prod.ext_iff, opt_eq s0] at *) <;> (try casesm* _ ∧ _) <;> (try subst_vars) <;> (try dsimp only))

theorem kept_execReservedCommand {s0 s : State}  (h : Kept s0 s) : Kept s0 (after (execReservedCommand s) s0) := by
  first | rewrite [execReservedCommand] | unfold execReservedCommand
  try dsimp only
  repeat' first
    | (simp (maxDischargeDepth := 60) (contextual := true) [h]; done)
    | (split <;> (try simp only [Prod.ext_iff, opt_eq s0] at *) <;> (try casesm* _ ∧ _) <;> (try subst_vars) <;> (try dsimp only))

theorem kept_execUserCommand {s0 s : State}  (h : Kept s0 s) : Kept s0 (after (execUserCommand s) s0) := by
  unfold execUserCommand
  simp (maxDischargeDepth := 60) [h]

@[simp] theorem kept_tmgStop {s0 s : State}  (h : Kept s0 s) : Kept s0 (tmgStop s) := by
  first | rewrite [tmgStop] | unfold tmgStop
  try dsimp only
  repeat' first
    | (simp (maxDischargeDepth := 60) (contextual := true) [h]; done)
    | (split <;> (try simp only [Prod.ext_iff, opt_eq s0] at *) <;> (try casesm* _ ∧ _) <;> (try subst_vars) <;> (try dsimp only))

@[simp] theorem kept_tmgCtrlWrite {s0 s : State} (a1) (h : Kept s0 s) : Kept s0 (tmgCtrlWrite a1 s) := by
  unfold tmgCtrlWrite
  simp (maxDischargeDepth := 60) [h]

theorem kept_execTimingPortEnable {s0 s : State} (a1) (h : Kept s0 s) : Kept s0 (after (execTimingPortEnable a1 s) s0) := by
  unfold execTimingPortEnable
  simp (maxDischargeDepth := 60) [h]

theorem kept_execTimingPortDisable {s0 s : State} (a1) (h : Kept s0 s) : Kept s0 (after (execTimingPortDisable a1 s) s0) := by
  unfold execTimingPortDisable
  simp (maxDischargeDepth := 60) [h]

@[simp] theorem kept_tmgWrite {s0 s : State} (a1) (a2) (h : Kept s0 s) : Kept s0 ((tmgWrite s a1 a2).getD s0) := by
  first | rewrite [tmgWrite] | unfold tmgWrite
  try dsimp only
  repeat' first
    | (simp (maxDischargeDepth := 60) (contextual := true) [h]; done)
    | (split <;> (try simp only [Prod.ext_iff, opt_eq s0] at *) <;> (try casesm* _ ∧ _) <;> (try subst_vars) <;> (try dsimp only))

@[simp] theorem kept_State_setSlice {s0 s : State} (a1) (a2) (a3) (h : Kept s0 s) : Kept s0 (State.setSlice s a1 a2 a3) := by
  unfold State.setSlice
  simp (maxDischargeDepth := 60) [h]

@[simp] theorem kept_State_modSlice {s0 s : State} (a1) (a2) (a3) (h : Kept s0 s) : Kept s0 (State.modSlice s a1 a2 a3) := by
  unfold State.modSlice
  simp (maxDischargeDepth := 60) [h]

@[simp] theorem kept_sliceIssue {s0 s : State} (a1) (a2) (a3) (a4) (h : Kept s0 s) : Kept s0 (sliceIssue a1 a2 a3 a4 s) := by
  first | rewrite [sliceIssue] | unfold sliceIssue
  try dsimp only
  repeat' first
    | (simp (maxDischargeDepth := 60) (contextual := true) [h]; done)
    | (split <;> (try simp only [Prod.ext_iff, opt_eq s0] at *) <;> (try casesm* _ ∧ _) <;> (try subst_vars) <;> (try dsimp only))

theorem kept_execIllegalInstruction {s0 s : State} (a1) (a2) (h : Kept s0 s) : Kept s0 (after (execIllegalInstruction a1 a2 s) s0) := by
  unfold execIllegalInstruction
  simp (maxDischargeDepth := 60) [h]

@[simp] theorem kept_sliceEdge {s0 s : State} (a1) (a2) (a3) (h : Kept s0 s) : Kept s0 (sliceEdge a1 a2 a3 s) := by
  first | rewrite [sliceEdge] | unfold sliceEdge
  try dsimp only
  repeat' first
    | with_reducible assumption
    | with_reducible intro t
    | with_reducible refine kept_State_when ?_ (fun t ht => ?_)
    | with_reducible apply kept_State_modSlice
    | with_reducible exact Kept.rfl' _
    | split

theorem kept_execPmWriteBack {s0 s : State} (a1) (a2) (h : Kept s0 s) : Kept s0 (after (execPmWriteBack a1 a2 s) s0) := by
  unfold execPmWriteBack
  simp (maxDischargeDepth := 60) [h]

theorem kept_execDmWriteBack {s0 s : State} (a1) (a2) (h : Kept s0 s) : Kept s0 (after (execDmWriteBack a1 a2 s) s0) := by
  unfold execDmWriteBack
  simp (maxDischargeDepth := 60) [h]

theorem kept_execEmitOutput {s0 s : State} (a1) (a2) (h : Kept s0 s) : Kept s0 (after (execEmitOutput a1 a2 s) s0) := by
  unfold execEmitOutput
  simp (maxDischargeDepth := 60) [h]

@[simp] theorem kept_slicesIdle {s0 s : State}  (h : Kept s0 s) : Kept s0 (slicesIdle s) := by
  unfold slicesIdle
  simp (maxDischargeDepth := 60) [h]

theorem kept_execStreamInputWord {s0 s : State} (a1) (a2) (a3) (h : Kept s0 s) : Kept s0 (after (execStreamInputWord a1 a2 a3 s) s0) := by
  unfold execStreamInputWord
  simp (maxDischargeDepth := 60) [h]

theorem kept_execSrstRise {s0 s : State} (a1) (a2) (h : Kept s0 s) : Kept s0 (after (execSrstRise a1 a2 s) s0) := by
  unfold execSrstRise
  simp (maxDischargeDepth := 60) [h]

theorem kept_execSrstFall {s0 s : State} (a1) (a2) (h : Kept s0 s) : Kept s0 (after (execSrstFall a1 a2 s) s0) := by
  unfold execSrstFall
  simp (maxDischargeDepth := 60) [h]

theorem kept_execRunStartEdge {s0 s : State} (a1) (a2) (a3) (h : Kept s0 s) : Kept s0 (after (execRunStartEdge a1 a2 a3 s) s0) := by
  unfold execRunStartEdge
  simp (maxDischargeDepth := 60) [h]

@[simp] theorem kept_slicesFence {s0 s : State} (a1) (h : Kept s0 s) : Kept s0 (slicesFence a1 s) := by
  unfold slicesFence
  simp (maxDischargeDepth := 60) [h]

@[simp] theorem kept_slicesStart {s0 s : State} (a1) (h : Kept s0 s) : Kept s0 (slicesStart a1 s) := by
  unfold slicesStart
  simp (maxDischargeDepth := 60) [h]

@[simp] theorem kept_slicesClear {s0 s : State} (a1) (h : Kept s0 s) : Kept s0 (slicesClear a1 s) := by
  unfold slicesClear
  simp (maxDischargeDepth := 60) [h]

@[simp] theorem kept_slicesHalt {s0 s : State} (a1) (h : Kept s0 s) : Kept s0 (slicesHalt a1 s) := by
  unfold slicesHalt
  simp (maxDischargeDepth := 60) [h]

@[simp] theorem kept_progLoad {s0 s : State} (a1) (a2) (h : Kept s0 s) : Kept s0 (progLoad a1 a2 s) := by
  first | rewrite [progLoad] | unfold progLoad
  try dsimp only
  repeat' first
    | (simp (maxDischargeDepth := 60) (contextual := true) [h]; done)
    | (split <;> (try simp only [Prod.ext_iff, opt_eq s0] at *) <;> (try casesm* _ ∧ _) <;> (try subst_vars) <;> (try dsimp only))

@[simp] theorem kept_sliceAction {s0 s : State} {g : Nat → Nat → State → State} (h : Kept s0 s)
    (hg : ∀ b i t, Kept s0 t → Kept s0 (g b i t)) : Kept s0 (sliceAction g s) := by
  unfold sliceAction; split <;> simp (maxDischargeDepth := 60) [*]


@[simp] theorem kept_sliceDoHalt {s0 s : State} (a1) (a2) (h : Kept s0 s) : Kept s0 (sliceDoHalt a1 a2 s) := by
  unfold sliceDoHalt
  simp (maxDischargeDepth := 60) [h]

@[simp] theorem kept_sliceDoGo {s0 s : State} (a1) (a2) (h : Kept s0 s) : Kept s0 (sliceDoGo a1 a2 s) := by
  unfold sliceDoGo
  simp (maxDischargeDepth := 60) [h]

@[simp] theorem kept_sliceDoResume {s0 s : State} (a1) (a2) (h : Kept s0 s) : Kept s0 (sliceDoResume a1 a2 s) := by
  unfold sliceDoResume
  simp (maxDischargeDepth := 60) [h]

@[simp] theorem kept_sliceDoClr {s0 s : State} (a1) (a2) (h : Kept s0 s) : Kept s0 (sliceDoClr a1 a2 s) := by
  unfold sliceDoClr
  simp (maxDischargeDepth := 60) [h]

theorem kept_execSliceHalt {s0 s : State}  (h : Kept s0 s) : Kept s0 (after (execSliceHalt s) s0) := by
  first | rewrite [execSliceHalt] | unfold execSliceHalt
  try dsimp only
  repeat' first
    | (simp (maxDischargeDepth := 60) (contextual := true) [h]; done)
    | (split <;> (try simp only [Prod.ext_iff, opt_eq s0] at *) <;> (try casesm* _ ∧ _) <;> (try subst_vars) <;> (try dsimp only))

theorem kept_execSliceGo {s0 s : State}  (h : Kept s0 s) : Kept s0 (after (execSliceGo s) s0) := by
  first | rewrite [execSliceGo] | unfold execSliceGo
  try dsimp only
  repeat' first
    | (simp (maxDischargeDepth := 60) (contextual := true) [h]; done)
    | (split <;> (try simp only [Prod.ext_iff, opt_eq s0] at *) <;> (try casesm* _ ∧ _) <;> (try subst_vars) <;> (try dsimp only))

theorem kept_execSliceResume {s0 s : State}  (h : Kept s0 s) : Kept s0 (after (execSliceResume s) s0) := by
  first | rewrite [execSliceResume] | unfold execSliceResume
  try dsimp only
  repeat' first
    | (simp (maxDischargeDepth := 60) (contextual := true) [h]; done)
    | (split <;> (try simp only [Prod.ext_iff, opt_eq s0] at *) <;> (try casesm* _ ∧ _) <;> (try subst_vars) <;> (try dsimp only))

theorem kept_execClrDm {s0 s : State}  (h : Kept s0 s) : Kept s0 (after (execClrDm s) s0) := by
  first | rewrite [execClrDm] | unfold execClrDm
  try dsimp only
  repeat' first
    | (simp (maxDischargeDepth := 60) (contextual := true) [h]; done)
    | (split <;> (try simp only [Prod.ext_iff, opt_eq s0] at *) <;> (try casesm* _ ∧ _) <;> (try subst_vars) <;> (try dsimp only))

theorem kept_execClrDmDone {s0 s : State} (a1) (a2) (h : Kept s0 s) : Kept s0 (after (execClrDmDone a1 a2 s) s0) := by
  unfold execClrDmDone
  simp (maxDischargeDepth := 60) [h]

@[simp] theorem kept_sliceCtrlWrite {s0 s : State} (a1) (h : Kept s0 s) : Kept s0 (sliceCtrlWrite a1 s) := by
  first | rewrite [sliceCtrlWrite] | unfold sliceCtrlWrite
  try dsimp only
  repeat' first
    | (simp (maxDischargeDepth := 60) (contextual := true) [h]; done)
    | (split <;> (try simp only [Prod.ext_iff, opt_eq s0] at *) <;> (try casesm* _ ∧ _) <;> (try subst_vars) <;> (try dsimp only))

@[simp] theorem kept_sliceAutoInc {s0 s : State}  (h : Kept s0 s) : Kept s0 (sliceAutoInc s) := by
  first | rewrite [sliceAutoInc] | unfold sliceAutoInc
  try dsimp only
  repeat' first
    | (simp (maxDischargeDepth := 60) (contextual := true) [h]; done)
    | (split <;> (try simp only [Prod.ext_iff, opt_eq s0] at *) <;> (try casesm* _ ∧ _) <;> (try subst_vars) <;> (try dsimp only))

@[simp] theorem kept_sliceDataStore {s0 s : State} (a1) (h : Kept s0 s) : Kept s0 (sliceDataStore a1 s) := by
  first | rewrite [sliceDataStore] | unfold sliceDataStore
  try dsimp only
  repeat' first
    | (simp (maxDischargeDepth := 60) (contextual := true) [h]; done)
    | (split <;> (try simp only [Prod.ext_iff, opt_eq s0] at *) <;> (try casesm* _ ∧ _) <;> (try subst_vars) <;> (try dsimp only))

theorem kept_execSliceDataWrite {s0 s : State} (a1) (h : Kept s0 s) : Kept s0 (after (execSliceDataWrite a1 s) s0) := by
  unfold execSliceDataWrite
  simp (maxDischargeDepth := 60) [h]

@[simp] theorem kept_sliceDataFetch {s0 s : State} (a1) (a2) (h : Kept s0 s) : Kept s0 (sliceDataFetch a1 a2 s) := by
  first | rewrite [sliceDataFetch] | unfold sliceDataFetch
  try dsimp only
  repeat' first
    | (simp (maxDischargeDepth := 60) (contextual := true) [h]; done)
    | (split <;> (try simp only [Prod.ext_iff, opt_eq s0] at *) <;> (try casesm* _ ∧ _) <;> (try subst_vars) <;> (try dsimp only))

theorem kept_execSliceDataRead {s0 s : State} (a1) (a2) (h : Kept s0 s) : Kept s0 (after (execSliceDataRead a1 a2 s) s0) := by
  unfold execSliceDataRead
  simp (maxDischargeDepth := 60) [h]

@[simp] theorem kept_sliceWrite {s0 s : State} (a1) (a2) (h : Kept s0 s) : Kept s0 ((sliceWrite s a1 a2).getD s0) := by
  first | rewrite [sliceWrite] | unfold sliceWrite
  try dsimp only
  repeat' first
    | (simp (maxDischargeDepth := 60) (contextual := true) [h]; done)
    | (split <;> (try simp only [Prod.ext_iff, opt_eq s0] at *) <;> (try casesm* _ ∧ _) <;> (try subst_vars) <;> (try dsimp only))

@[simp] theorem kept_sliceReadClear {s0 s : State} (a1) (h : Kept s0 s) : Kept s0 ((sliceReadClear s a1).getD s0) := by
  first | rewrite [sliceReadClear] | unfold sliceReadClear
  try dsimp only
  repeat' first
    | (simp (maxDischargeDepth := 60) (contextual := true) [h]; done)
    | (split <;> (try simp only [Prod.ext_iff, opt_eq s0] at *) <;> (try casesm* _ ∧ _) <;> (try subst_vars) <;> (try dsimp only))

@[simp] theorem kept_sandOpen {s0 s : State} (a1) (h : Kept s0 s) : Kept s0 (sandOpen a1 s) := by
  unfold sandOpen
  simp (maxDischargeDepth := 60) [h]

@[simp] theorem kept_sandFree {s0 s : State} (a1) (a2) (h : Kept s0 s) : Kept s0 (sandFree a1 a2 s) := by
  unfold sandFree
  simp (maxDischargeDepth := 60) [h]

@[simp] theorem kept_sandInject {s0 s : State} (a1) (a2) (h : Kept s0 s) : Kept s0 (sandInject a1 a2 s).2 := by
  first | rewrite [sandInject] | unfold sandInject
  try dsimp only
  repeat' first
    | (simp (maxDischargeDepth := 60) (contextual := true) [h]; done)
    | (split <;> (try simp only [Prod.ext_iff, opt_eq s0] at *) <;> (try casesm* _ ∧ _) <;> (try subst_vars) <;> (try dsimp only))

theorem kept_execSandInjection {s0 s : State} (a1) (a2) (h : Kept s0 s) : Kept s0 (after (execSandInjection a1 a2 s) s0) := by
  unfold execSandInjection
  simp (maxDischargeDepth := 60) [h]

theorem kept_execAccessPointInject {s0 s : State} (a1) (a2) (a3) (h : Kept s0 s) : Kept s0 (after (execAccessPointInject a1 a2 a3 s) s0) := by
  unfold execAccessPointInject
  simp (maxDischargeDepth := 60) [h]

@[simp] theorem kept_nocLog {s0 s : State} (a1) (a2) (a3) (a4) (h : Kept s0 s) : Kept s0 (nocLog a1 a2 a3 a4 s) := by
  unfold nocLog
  simp (maxDischargeDepth := 60) [h]

@[simp] theorem kept_nocTimeout {s0 s : State} (a1) (a2) (h : Kept s0 s) : Kept s0 (nocTimeout a1 a2 s) := by
  unfold nocTimeout
  simp (maxDischargeDepth := 60) [h]

@[simp] theorem kept_sandEnd {s0 s : State} (a1) (a2) (a3) (a4) (a5) (h : Kept s0 s) : Kept s0 (sandEnd a1 a2 a3 a4 a5 s) := by
  unfold sandEnd
  simp (maxDischargeDepth := 60) [h]

@[simp] theorem kept_rspTake {s0 s : State} (a1) (h : Kept s0 s) : Kept s0 (rspTake a1 s) := by
  first | rewrite [rspTake] | unfold rspTake
  try dsimp only
  repeat' first
    | with_reducible assumption
    | with_reducible intro t
    | with_reducible apply kept_State_raise
    | with_reducible apply kept_State_bumpHold
    | with_reducible apply kept_State_answerMem
    | with_reducible apply kept_sandFree
    | with_reducible apply kept_nocLog
    | with_reducible exact Kept.rfl' _
    | simp only [kept_mk_iff]
    | (split <;> (try simp only [Prod.ext_iff, opt_eq s0] at *) <;> (try casesm* _ ∧ _) <;> (try subst_vars) <;> (try dsimp only))

theorem kept_execSandResponse {s0 s : State} (a1) (h : Kept s0 s) : Kept s0 (after (execSandResponse a1 s) s0) := by
  first | rewrite [execSandResponse] | unfold execSandResponse
  try dsimp only
  repeat' first
    | (simp (maxDischargeDepth := 60) (contextual := true) [h]; done)
    | (split <;> (try simp only [Prod.ext_iff, opt_eq s0] at *) <;> (try casesm* _ ∧ _) <;> (try subst_vars) <;> (try dsimp only))

theorem kept_execSandTimeout {s0 s : State} (a1) (a2) (h : Kept s0 s) : Kept s0 (after (execSandTimeout a1 a2 s) s0) := by
  first | rewrite [execSandTimeout] | unfold execSandTimeout
  try dsimp only
  repeat' first
    | (simp (maxDischargeDepth := 60) (contextual := true) [h]; done)
    | (split <;> (try simp only [Prod.ext_iff, opt_eq s0] at *) <;> (try casesm* _ ∧ _) <;> (try subst_vars) <;> (try dsimp only))

theorem kept_execLinkRetry {s0 s : State} (a1) (a2) (h : Kept s0 s) : Kept s0 (after (execLinkRetry a1 a2 s) s0) := by
  unfold execLinkRetry
  simp (maxDischargeDepth := 60) [h]

theorem kept_execLinkClockSwitchDone {s0 s : State}  (h : Kept s0 s) : Kept s0 (after (execLinkClockSwitchDone s) s0) := by
  unfold execLinkClockSwitchDone
  simp (maxDischargeDepth := 60) [h]

@[simp] theorem kept_nocRateWrite {s0 s : State} (a1) (a2) (h : Kept s0 s) : Kept s0 (nocRateWrite a1 a2 s) := by
  first | rewrite [nocRateWrite] | unfold nocRateWrite
  try dsimp only
  repeat' first
    | with_reducible assumption
    | with_reducible intro t
    | with_reducible refine kept_State_when ?_ (fun t ht => ?_)
    | with_reducible apply kept_State_clear
    | with_reducible apply kept_State_wrCodes
    | with_reducible exact Kept.rfl' _
    | simp only [kept_mk_iff]
    | (split <;> (try simp only [Prod.ext_iff, opt_eq s0] at *) <;> (try casesm* _ ∧ _) <;> (try subst_vars) <;> (try dsimp only))

theorem kept_execNocRateWrite {s0 s : State} (a1) (a2) (h : Kept s0 s) : Kept s0 (after (execNocRateWrite a1 a2 s) s0) := by
  unfold execNocRateWrite
  simp (maxDischargeDepth := 60) [h]

@[simp] theorem kept_nocWrite {s0 s : State} (a1) (a2) (a3) (h : Kept s0 s) : Kept s0 ((nocWrite s a1 a2 a3).getD s0) := by
  first | rewrite [nocWrite] | unfold nocWrite
  try dsimp only
  repeat' first
    | (simp (maxDischargeDepth := 60) (contextual := true) [h]; done)
    | (split <;> (try simp only [Prod.ext_iff, opt_eq s0] at *) <;> (try casesm* _ ∧ _) <;> (try subst_vars) <;> (try dsimp only))

@[simp] theorem kept_State_setQtz {s0 s : State} (a1) (h : Kept s0 s) : Kept s0 (State.setQtz s a1) := by
  unfold State.setQtz
  simp (maxDischargeDepth := 60) [h]

theorem kept_execTransmitChannelWrite {s0 s : State} (a1) (a2) (a3) (a4) (h : Kept s0 s) : Kept s0 (after (execTransmitChannelWrite a1 a2 a3 a4 s) s0) := by
  unfold execTransmitChannelWrite
  simp (maxDischargeDepth := 60) [h]

@[simp] theorem kept_qtzSend {s0 s : State} (a1) (a2) (a3) (a4) (h : Kept s0 s) : Kept s0 (qtzSend a1 a2 a3 a4 s) := by
  unfold qtzSend
  simp (maxDischargeDepth := 60) [h]

@[simp] theorem kept_probeMark {s0 s : State} (a1) (a2) (h : Kept s0 s) : Kept s0 (probeMark a1 a2 s).2 := by
  first | rewrite [probeMark] | unfold probeMark
  try dsimp only
  repeat' first
    | (simp (maxDischargeDepth := 60) (contextual := true) [h]; done)
    | (split <;> (try simp only [Prod.ext_iff, opt_eq s0] at *) <;> (try casesm* _ ∧ _) <;> (try subst_vars) <;> (try dsimp only))

@[simp] theorem kept_injectLane {s0 s : State} (a1) (a2) (a3) (h : Kept s0 s) : Kept s0 (injectLane a1 a2 s a3) := by
  unfold injectLane
  simp (maxDischargeDepth := 60) [h]

theorem kept_execQuartzInjection {s0 s : State} (a1) (a2) (h : Kept s0 s) : Kept s0 (after (execQuartzInjection a1 a2 s) s0) := by
  first | rewrite [execQuartzInjection] | unfold execQuartzInjection
  try dsimp only
  repeat' first
    | (simp (maxDischargeDepth := 60) (contextual := true) [h]; done)
    | (split <;> (try simp only [Prod.ext_iff, opt_eq s0] at *) <;> (try casesm* _ ∧ _) <;> (try subst_vars) <;> (try dsimp only))

@[simp] theorem kept_qtzParity {s0 s : State} (a1) (h : Kept s0 s) : Kept s0 (qtzParity a1 s) := by
  unfold qtzParity
  simp (maxDischargeDepth := 60) [h]

@[simp] theorem kept_qtzTake {s0 s : State} (a1) (a2) (a3) (h : Kept s0 s) : Kept s0 (qtzTake a1 a2 a3 s).2 := by
  unfold qtzTake
  simp (maxDischargeDepth := 60) [h]

@[simp] theorem kept_forwardTo {s0 s : State} (a1) (a2) (a3) (a4) (a5) (a6) (h : Kept s0 s) : Kept s0 (forwardTo a1 a2 a3 a4 a5 s a6) := by
  unfold forwardTo
  simp (maxDischargeDepth := 60) [h]

theorem kept_execQuartzFlitArrival {s0 s : State} (a1) (a2) (h : Kept s0 s) : Kept s0 (after (execQuartzFlitArrival a1 a2 s) s0) := by
  first | rewrite [execQuartzFlitArrival] | unfold execQuartzFlitArrival
  try dsimp only
  repeat' first
    | (simp (maxDischargeDepth := 60) (contextual := true) [h]; done)
    | (split <;> (try simp only [Prod.ext_iff, opt_eq s0] at *) <;> (try casesm* _ ∧ _) <;> (try subst_vars) <;> (try dsimp only))

@[simp] theorem kept_probeArrive {s0 s : State} (a1) (a2) (a3) (a4) (a5) (h : Kept s0 s) : Kept s0 (probeArrive a1 a2 a3 a4 a5 s) := by
  first | rewrite [probeArrive] | unfold probeArrive
  try dsimp only
  repeat' first
    | (simp (maxDischargeDepth := 60) (contextual := true) [h]; done)
    | (split <;> (try simp only [Prod.ext_iff, opt_eq s0] at *) <;> (try casesm* _ ∧ _) <;> (try subst_vars) <;> (try dsimp only))

@[simp] theorem kept_qtzEndpoint {s0 s : State} (a1) (a2) (a3) (a4) (a5) (a6) (h : Kept s0 s) : Kept s0 (qtzEndpoint a1 a2 a3 a4 a5 a6 s).2 := by
  first | rewrite [qtzEndpoint] | unfold qtzEndpoint
  try dsimp only
  repeat' first
    | (simp (maxDischargeDepth := 60) (contextual := true) [h]; done)
    | (split <;> (try simp only [Prod.ext_iff, opt_eq s0] at *) <;> (try casesm* _ ∧ _) <;> (try subst_vars) <;> (try dsimp only))

theorem kept_execReceiveChannelUpdate {s0 s : State} (a1) (a2) (a3) (a4) (h : Kept s0 s) : Kept s0 (after (execReceiveChannelUpdate a1 a2 a3 a4 s) s0) := by
  first | rewrite [execReceiveChannelUpdate] | unfold execReceiveChannelUpdate
  try dsimp only
  repeat' first
    | (simp (maxDischargeDepth := 60) (contextual := true) [h]; done)
    | (split <;> (try simp only [Prod.ext_iff, opt_eq s0] at *) <;> (try casesm* _ ∧ _) <;> (try subst_vars) <;> (try dsimp only))

@[simp] theorem kept_qtzMasterWrite {s0 s : State} (a1) (h : Kept s0 s) : Kept s0 (qtzMasterWrite a1 s) := by
  first | rewrite [qtzMasterWrite] | unfold qtzMasterWrite
  try dsimp only
  repeat' first
    | (simp (maxDischargeDepth := 60) (contextual := true) [h]; done)
    | (split <;> (try simp only [Prod.ext_iff, opt_eq s0] at *) <;> (try casesm* _ ∧ _) <;> (try subst_vars) <;> (try dsimp only))

theorem kept_execTableWrite {s0 s : State} (a1) (h : Kept s0 s) : Kept s0 (after (execTableWrite a1 s) s0) := by
  unfold execTableWrite
  simp (maxDischargeDepth := 60) [h]

@[simp] theorem kept_qtzCommitWrite {s0 s : State} (a1) (h : Kept s0 s) : Kept s0 (qtzCommitWrite a1 s) := by
  unfold qtzCommitWrite
  simp (maxDischargeDepth := 60) [h]

theorem kept_execCommit {s0 s : State} (a1) (h : Kept s0 s) : Kept s0 (after (execCommit a1 s) s0) := by
  unfold execCommit
  simp (maxDischargeDepth := 60) [h]

theorem kept_execCommitCopyDone {s0 s : State}  (h : Kept s0 s) : Kept s0 (after (execCommitCopyDone s) s0) := by
  first | rewrite [execCommitCopyDone] | unfold execCommitCopyDone
  try dsimp only
  repeat' first
    | (simp (maxDischargeDepth := 60) (contextual := true) [h]; done)
    | (split <;> (try simp only [Prod.ext_iff, opt_eq s0] at *) <;> (try casesm* _ ∧ _) <;> (try subst_vars) <;> (try dsimp only))

@[simp] theorem kept_qtzSwitchOver {s0 s : State} (a1) (a2) (a3) (h : Kept s0 s) : Kept s0 (qtzSwitchOver a1 a2 a3 s) := by
  unfold qtzSwitchOver
  simp (maxDischargeDepth := 60) [h]

theorem kept_execCommitBoundary {s0 s : State}  (h : Kept s0 s) : Kept s0 (after (execCommitBoundary s) s0) := by
  unfold execCommitBoundary
  simp (maxDischargeDepth := 60) [h]

@[simp] theorem kept_qtzSlabShut {s0 s : State} (a1) (h : Kept s0 s) : Kept s0 (qtzSlabShut a1 s) := by
  unfold qtzSlabShut
  simp (maxDischargeDepth := 60) [h]

@[simp] theorem kept_qtzSlabOpen {s0 s : State} (a1) (h : Kept s0 s) : Kept s0 (qtzSlabOpen a1 s) := by
  unfold qtzSlabOpen
  simp (maxDischargeDepth := 60) [h]

@[simp] theorem kept_qtzSlabRail {s0 s : State} (a1) (h : Kept s0 s) : Kept s0 (qtzSlabRail a1 s) := by
  unfold qtzSlabRail
  simp (maxDischargeDepth := 60) [h]

theorem kept_execSlabTableReload {s0 s : State} (a1) (h : Kept s0 s) : Kept s0 (after (execSlabTableReload a1 s) s0) := by
  unfold execSlabTableReload
  simp (maxDischargeDepth := 60) [h]

@[simp] theorem kept_qtzTraceWrite {s0 s : State} (a1) (h : Kept s0 s) : Kept s0 (qtzTraceWrite a1 s) := by
  unfold qtzTraceWrite
  simp (maxDischargeDepth := 60) [h]

theorem kept_execTrace {s0 s : State} (a1) (h : Kept s0 s) : Kept s0 (after (execTrace a1 s) s0) := by
  unfold execTrace
  simp (maxDischargeDepth := 60) [h]

theorem kept_execTraceDone {s0 s : State}  (h : Kept s0 s) : Kept s0 (after (execTraceDone s) s0) := by
  first | rewrite [execTraceDone] | unfold execTraceDone
  try dsimp only
  repeat' first
    | (simp (maxDischargeDepth := 60) (contextual := true) [h]; done)
    | (split <;> (try simp only [Prod.ext_iff, opt_eq s0] at *) <;> (try casesm* _ ∧ _) <;> (try subst_vars) <;> (try dsimp only))

@[simp] theorem kept_qtzProbeWrite {s0 s : State} (a1) (h : Kept s0 s) : Kept s0 (qtzProbeWrite a1 s) := by
  unfold qtzProbeWrite
  simp (maxDischargeDepth := 60) [h]

theorem kept_execProbe {s0 s : State} (a1) (h : Kept s0 s) : Kept s0 (after (execProbe a1 s) s0) := by
  unfold execProbe
  simp (maxDischargeDepth := 60) [h]

theorem kept_execProbeDone {s0 s : State}  (h : Kept s0 s) : Kept s0 (after (execProbeDone s) s0) := by
  first | rewrite [execProbeDone] | unfold execProbeDone
  try dsimp only
  repeat' first
    | (simp (maxDischargeDepth := 60) (contextual := true) [h]; done)
    | (split <;> (try simp only [Prod.ext_iff, opt_eq s0] at *) <;> (try casesm* _ ∧ _) <;> (try subst_vars) <;> (try dsimp only))

theorem kept_execProbeLost {s0 s : State}  (h : Kept s0 s) : Kept s0 (after (execProbeLost s) s0) := by
  first | rewrite [execProbeLost] | unfold execProbeLost
  try dsimp only
  repeat' first
    | (simp (maxDischargeDepth := 60) (contextual := true) [h]; done)
    | (split <;> (try simp only [Prod.ext_iff, opt_eq s0] at *) <;> (try casesm* _ ∧ _) <;> (try subst_vars) <;> (try dsimp only))

@[simp] theorem kept_qtzWrite {s0 s : State} (a1) (a2) (a3) (h : Kept s0 s) : Kept s0 ((qtzWrite s a1 a2 a3).getD s0) := by
  first | rewrite [qtzWrite] | unfold qtzWrite
  try dsimp only
  repeat' first
    | (simp (maxDischargeDepth := 60) (contextual := true) [h]; done)
    | (split <;> (try simp only [Prod.ext_iff, opt_eq s0] at *) <;> (try casesm* _ ∧ _) <;> (try subst_vars) <;> (try dsimp only))

@[simp] theorem kept_qtzRelease {s0 s : State} (a1) (h : Kept s0 s) : Kept s0 (qtzRelease a1 s) := by
  unfold qtzRelease
  simp (maxDischargeDepth := 60) [h]

@[simp] theorem kept_gateSettle {s0 s : State}  (h : Kept s0 s) : Kept s0 (gateSettle s) := by
  unfold gateSettle
  simp (maxDischargeDepth := 60) [h]

@[simp] theorem kept_holdBay {s0 s : State} (a1) (h : Kept s0 s) : Kept s0 (holdBay a1 s) := by
  unfold holdBay
  simp (maxDischargeDepth := 60) [h]

@[simp] theorem kept_unholdBay {s0 s : State} (a1) (h : Kept s0 s) : Kept s0 (unholdBay a1 s) := by
  unfold unholdBay
  simp (maxDischargeDepth := 60) [h]

@[simp] theorem kept_State_setBay {s0 s : State} (a1) (a2) (h : Kept s0 s) : Kept s0 (State.setBay s a1 a2) := by
  unfold State.setBay
  simp (maxDischargeDepth := 60) [h]

@[simp] theorem kept_dropGolden {s0 s : State} (a1) (h : Kept s0 s) : Kept s0 (dropGolden a1 s) := by
  unfold dropGolden
  simp (maxDischargeDepth := 60) [h]

@[simp] theorem kept_clampPins {s0 s : State} (a1) (h : Kept s0 s) : Kept s0 (clampPins a1 s) := by
  unfold clampPins
  simp (maxDischargeDepth := 60) [h]

@[simp] theorem kept_lsrAssert {s0 s : State} (a1) (h : Kept s0 s) : Kept s0 (lsrAssert a1 s) := by
  unfold lsrAssert
  simp (maxDischargeDepth := 60) [h]

@[simp] theorem kept_lsrRelease {s0 s : State} (a1) (h : Kept s0 s) : Kept s0 (lsrRelease a1 s) := by
  unfold lsrRelease
  simp (maxDischargeDepth := 60) [h]

@[simp] theorem kept_fenceBay {s0 s : State} (a1) (a2) (a3) (h : Kept s0 s) : Kept s0 (fenceBay a1 a2 a3 s) := by
  first | rewrite [fenceBay] | unfold fenceBay
  try dsimp only
  repeat' first
    | (simp (maxDischargeDepth := 60) (contextual := true) [h]; done)
    | (split <;> (try simp only [Prod.ext_iff, opt_eq s0] at *) <;> (try casesm* _ ∧ _) <;> (try subst_vars) <;> (try dsimp only))

@[simp] theorem kept_openBay {s0 s : State} (a1) (h : Kept s0 s) : Kept s0 (openBay a1 s) := by
  unfold openBay
  simp (maxDischargeDepth := 60) [h]

@[simp] theorem kept_unfenceBay {s0 s : State} (a1) (a2) (h : Kept s0 s) : Kept s0 (unfenceBay a1 a2 s) := by
  unfold unfenceBay
  try dsimp only
  repeat' first
    | (simp (maxDischargeDepth := 60) (contextual := true) [h]; done)
    | (split <;> (try simp only [Prod.ext_iff, opt_eq s0] at *) <;> (try casesm* _ ∧ _) <;> (try subst_vars) <;> (try dsimp only))

@[simp] theorem kept_fenCtrlWrite {s0 s : State} (a1) (a2) (a3) (h : Kept s0 s) : Kept s0 (fenCtrlWrite a1 a2 a3 s) := by
  first | rewrite [fenCtrlWrite] | unfold fenCtrlWrite
  try dsimp only
  repeat' first
    | (simp (maxDischargeDepth := 60) (contextual := true) [h]; done)
    | (split <;> (try simp only [Prod.ext_iff, opt_eq s0] at *) <;> (try casesm* _ ∧ _) <;> (try subst_vars) <;> (try dsimp only))

theorem kept_execBayFence {s0 s : State} (a1) (a2) (a3) (h : Kept s0 s) : Kept s0 (after (execBayFence a1 a2 a3 s) s0) := by
  unfold execBayFence
  simp (maxDischargeDepth := 60) [h]

theorem kept_execUnfence {s0 s : State} (a1) (a2) (a3) (h : Kept s0 s) : Kept s0 (after (execUnfence a1 a2 a3 s) s0) := by
  unfold execUnfence
  simp (maxDischargeDepth := 60) [h]

@[simp] theorem kept_clearMemories {s0 s : State} (a1) (h : Kept s0 s) : Kept s0 (clearMemories a1 s) := by
  unfold clearMemories
  simp (maxDischargeDepth := 60) [h]

@[simp] theorem kept_blankWindow {s0 s : State} (a1) (h : Kept s0 s) : Kept s0 (blankWindow a1 s) := by
  unfold blankWindow
  simp (maxDischargeDepth := 60) [h]

@[simp] theorem kept_bayToBlank {s0 s : State} (a1) (h : Kept s0 s) : Kept s0 (bayToBlank a1 s) := by
  unfold bayToBlank
  simp (maxDischargeDepth := 60) [h]

@[simp] theorem kept_configureBay {s0 s : State} (a1) (h : Kept s0 s) : Kept s0 (configureBay a1 s) := by
  first | rewrite [configureBay] | unfold configureBay
  try dsimp only
  repeat' first
    | (simp (maxDischargeDepth := 60) (contextual := true) [h]; done)
    | (split <;> (try simp only [Prod.ext_iff, opt_eq s0] at *) <;> (try casesm* _ ∧ _) <;> (try subst_vars) <;> (try dsimp only))

@[simp] theorem kept_storeFrame {s0 s : State} (a1) (a2) (h : Kept s0 s) : Kept s0 (storeFrame a1 a2 s) := by
  first | rewrite [storeFrame] | unfold storeFrame
  try dsimp only
  repeat' first
    | (simp (maxDischargeDepth := 60) (contextual := true) [h]; done)
    | (split <;> (try simp only [Prod.ext_iff, opt_eq s0] at *) <;> (try casesm* _ ∧ _) <;> (try subst_vars) <;> (try dsimp only))

end Sys2Proof.Machine
end

