-- ==== Sys2Proof/Laws/KeptMemory.lean ====
section
/-! SUPPORT. Each operation of the Verdict Table, the memories, the Ledger, and configuration is Kept. -/

set_option linter.unusedTactic false
set_option linter.unreachableTactic false
set_option linter.unusedSimpArgs false
set_option linter.unusedVariables false

namespace Sys2Proof.Machine

@[simp] theorem kept_State_setVrd {s0 s : State} (a1) (h : Kept s0 s) : Kept s0 (State.setVrd s a1) := by
  unfold State.setVrd
  simp (maxDischargeDepth := 60) [h]

@[simp] theorem kept_vrdAct {s0 s : State} {g : State → State} (h : Kept s0 s)
    (hg : ∀ t, Kept s0 t → Kept s0 (g t)) : Kept s0 (vrdAct g s) := by
  unfold vrdAct; simp (maxDischargeDepth := 60) [*]


@[simp] theorem kept_vrdRefuse {s0 s : State}  (h : Kept s0 s) : Kept s0 (vrdRefuse s) := by
  unfold vrdRefuse
  simp (maxDischargeDepth := 60) [h]

@[simp] theorem kept_vrdStored {s0 s : State} (a1) (h : Kept s0 s) : Kept s0 (vrdStored a1 s).2 := by
  first | rewrite [vrdStored] | unfold vrdStored
  try dsimp only
  repeat' first
    | (simp (maxDischargeDepth := 60) (contextual := true) [h]; done)
    | (split <;> (try simp only [Prod.ext_iff, opt_eq s0] at *) <;> (try casesm* _ ∧ _) <;> (try subst_vars) <;> (try dsimp only))

@[simp] theorem kept_vrdStore {s0 s : State} (a1) (a2) (h : Kept s0 s) : Kept s0 (vrdStore a1 a2 s) := by
  unfold vrdStore
  simp (maxDischargeDepth := 60) [h]

@[simp] theorem kept_vrdRead {s0 s : State} (a1) (a2) (h : Kept s0 s) : Kept s0 (vrdRead a1 a2 s).2 := by
  first | rewrite [vrdRead] | unfold vrdRead
  try dsimp only
  repeat' first
    | with_reducible assumption
    | with_reducible intro t
    | with_reducible apply kept_State_fresh
    | with_reducible apply kept_State_setVrd
    | with_reducible apply kept_vrdStored
    | with_reducible exact Kept.rfl' _
    | simp only [kept_mk_iff]
    | (split <;> (try simp only [Prod.ext_iff, opt_eq s0] at *) <;> (try casesm* _ ∧ _) <;> (try subst_vars) <;> (try dsimp only))

@[simp] theorem kept_vrdLog {s0 s : State} (a1) (a2) (a3) (a4) (a5) (h : Kept s0 s) : Kept s0 (vrdLog a1 a2 a3 a4 a5 s) := by
  unfold vrdLog
  simp (maxDischargeDepth := 60) [h]

@[simp] theorem kept_vrdCorrected {s0 s : State} (a1) (h : Kept s0 s) : Kept s0 (vrdCorrected a1 s) := by
  unfold vrdCorrected
  simp (maxDischargeDepth := 60) [h]

@[simp] theorem kept_vrdProtectedRead {s0 s : State} (a1) (a2) (a3) (a4) (h : Kept s0 s) : Kept s0 (vrdProtectedRead a1 a2 a3 a4 s).2 := by
  first | rewrite [vrdProtectedRead] | unfold vrdProtectedRead
  try dsimp only
  repeat' first
    | (simp (maxDischargeDepth := 60) (contextual := true) [h]; done)
    | (split <;> (try simp only [Prod.ext_iff, opt_eq s0] at *) <;> (try casesm* _ ∧ _) <;> (try subst_vars) <;> (try dsimp only))

theorem kept_execVerdictWriteBack {s0 s : State}  (h : Kept s0 s) : Kept s0 (after (execVerdictWriteBack s) s0) := by
  first | rewrite [execVerdictWriteBack] | unfold execVerdictWriteBack
  try dsimp only
  repeat' first
    | (simp (maxDischargeDepth := 60) (contextual := true) [h]; done)
    | (split <;> (try simp only [Prod.ext_iff, opt_eq s0] at *) <;> (try casesm* _ ∧ _) <;> (try subst_vars) <;> (try dsimp only))

@[simp] theorem kept_vrdAutoRetire {s0 s : State} (a1) (h : Kept s0 s) : Kept s0 (vrdAutoRetire a1 s) := by
  unfold vrdAutoRetire
  simp (maxDischargeDepth := 60) [h]

theorem kept_execUeSecondRead {s0 s : State} (a1) (h : Kept s0 s) : Kept s0 (after (execUeSecondRead a1 s) s0) := by
  first | rewrite [execUeSecondRead] | unfold execUeSecondRead
  try dsimp only
  repeat' first
    | (simp (maxDischargeDepth := 60) (contextual := true) [h]; done)
    | (split <;> (try simp only [Prod.ext_iff, opt_eq s0] at *) <;> (try casesm* _ ∧ _) <;> (try subst_vars) <;> (try dsimp only))

theorem kept_execVerdictInit {s0 s : State}  (h : Kept s0 s) : Kept s0 (after (execVerdictInit s) s0) := by
  unfold execVerdictInit
  simp (maxDischargeDepth := 60) [h]

theorem kept_execLookup {s0 s : State} (a1) (a2) (a3) (a4) (h : Kept s0 s) : Kept s0 (after (execLookup a1 a2 a3 a4 s) s0) := by
  first | rewrite [execLookup] | unfold execLookup
  try dsimp only
  repeat' first
    | (simp (maxDischargeDepth := 60) (contextual := true) [h]; done)
    | (split <;> (try simp only [Prod.ext_iff, opt_eq s0] at *) <;> (try casesm* _ ∧ _) <;> (try subst_vars) <;> (try dsimp only))

theorem kept_execPortConfigApply {s0 s : State}  (h : Kept s0 s) : Kept s0 (after (execPortConfigApply s) s0) := by
  first | rewrite [execPortConfigApply] | unfold execPortConfigApply
  try dsimp only
  repeat' first
    | with_reducible assumption
    | with_reducible intro t
    | with_reducible refine kept_State_when ?_ (fun t ht => ?_)
    | with_reducible apply kept_State_setVrd
    | with_reducible exact Kept.rfl' _
    | simp only [after_next]
    | simp only [kept_mk_iff]
    | split

@[simp] theorem kept_vrdRetire {s0 s : State} (a1) (h : Kept s0 s) : Kept s0 (vrdRetire a1 s) := by
  unfold vrdRetire
  simp (maxDischargeDepth := 60) [h]

@[simp] theorem kept_vrdRestore {s0 s : State} (a1) (h : Kept s0 s) : Kept s0 (vrdRestore a1 s) := by
  unfold vrdRestore
  simp (maxDischargeDepth := 60) [h]

@[simp] theorem kept_vrdRetireWrite {s0 s : State} (a1) (h : Kept s0 s) : Kept s0 (vrdRetireWrite a1 s) := by
  first | rewrite [vrdRetireWrite] | unfold vrdRetireWrite
  try dsimp only
  repeat' first
    | (simp (maxDischargeDepth := 60) (contextual := true) [h]; done)
    | (split <;> (try simp only [Prod.ext_iff, opt_eq s0] at *) <;> (try casesm* _ ∧ _) <;> (try subst_vars) <;> (try dsimp only))

theorem kept_execRetire {s0 s : State} (a1) (h : Kept s0 s) : Kept s0 (after (execRetire a1 s) s0) := by
  unfold execRetire
  simp (maxDischargeDepth := 60) [h]

theorem kept_execRestore {s0 s : State} (a1) (h : Kept s0 s) : Kept s0 (after (execRestore a1 s) s0) := by
  unfold execRestore
  simp (maxDischargeDepth := 60) [h]

theorem kept_execRetirementApply {s0 s : State}  (h : Kept s0 s) : Kept s0 (after (execRetirementApply s) s0) := by
  first | rewrite [execRetirementApply] | unfold execRetirementApply
  try dsimp only
  repeat' first
    | (simp (maxDischargeDepth := 60) (contextual := true) [h]; done)
    | (split <;> (try simp only [Prod.ext_iff, opt_eq s0] at *) <;> (try casesm* _ ∧ _) <;> (try subst_vars) <;> (try dsimp only))

@[simp] theorem kept_vrdRbistWrite {s0 s : State} (a1) (h : Kept s0 s) : Kept s0 (vrdRbistWrite a1 s) := by
  first | rewrite [vrdRbistWrite] | unfold vrdRbistWrite
  try dsimp only
  repeat' first
    | (simp (maxDischargeDepth := 60) (contextual := true) [h]; done)
    | (split <;> (try simp only [Prod.ext_iff, opt_eq s0] at *) <;> (try casesm* _ ∧ _) <;> (try subst_vars) <;> (try dsimp only))

theorem kept_execRbist {s0 s : State} (a1) (h : Kept s0 s) : Kept s0 (after (execRbist a1 s) s0) := by
  unfold execRbist
  simp (maxDischargeDepth := 60) [h]

theorem kept_execRbistDone {s0 s : State} (a1) (h : Kept s0 s) : Kept s0 (after (execRbistDone a1 s) s0) := by
  first | rewrite [execRbistDone] | unfold execRbistDone
  try dsimp only
  repeat' first
    | (simp (maxDischargeDepth := 60) (contextual := true) [h]; done)
    | (split <;> (try simp only [Prod.ext_iff, opt_eq s0] at *) <;> (try casesm* _ ∧ _) <;> (try subst_vars) <;> (try dsimp only))

@[simp] theorem kept_vrdReadWord {s0 s : State} (a1) (a2) (a3) (h : Kept s0 s) : Kept s0 (vrdReadWord a1 a2 a3 s).2.2 := by
  first | rewrite [vrdReadWord] | unfold vrdReadWord
  try dsimp only
  repeat' first
    | (simp (maxDischargeDepth := 60) (contextual := true) [h]; done)
    | (split <;> (try simp only [Prod.ext_iff, opt_eq s0] at *) <;> (try casesm* _ ∧ _) <;> (try subst_vars) <;> (try dsimp only))

@[simp] theorem kept_vrdWindowRead {s0 s : State} (a1) (a2) (h : Kept s0 s) : Kept s0 (vrdWindowRead a1 a2 s).2.2.2 := by
  first | rewrite [vrdWindowRead] | unfold vrdWindowRead
  try dsimp only
  repeat' first
    | (simp (maxDischargeDepth := 60) (contextual := true) [h]; done)
    | (split <;> (try simp only [Prod.ext_iff, opt_eq s0] at *) <;> (try casesm* _ ∧ _) <;> (try subst_vars) <;> (try dsimp only))

theorem kept_execWindowRead {s0 s : State} (a1) (a2) (h : Kept s0 s) : Kept s0 (after (execWindowRead a1 a2 s) s0) := by
  unfold execWindowRead
  simp (maxDischargeDepth := 60) [h]

@[simp] theorem kept_vrdWindowWrite {s0 s : State} (a1) (a2) (h : Kept s0 s) : Kept s0 (vrdWindowWrite a1 a2 s).2 := by
  first | rewrite [vrdWindowWrite] | unfold vrdWindowWrite
  try dsimp only
  repeat' first
    | with_reducible assumption
    | with_reducible intro t
    | with_reducible refine kept_State_each ?_ (fun t a ht => ?_)
    | with_reducible refine kept_foldl ?_ (fun t a ht => ?_)
    | with_reducible refine kept_foldl_prod ?_ (fun t a ht => ?_)
    | with_reducible refine kept_foldl_prod2 ?_ (fun t a ht => ?_)
    | with_reducible refine kept_foldl_prod3 ?_ (fun t a ht => ?_)
    | with_reducible refine kept_foldl_prod4 ?_ (fun t a ht => ?_)
    | with_reducible apply kept_State_raise
    | with_reducible apply kept_State_okay
    | with_reducible apply kept_vrdStored
    | with_reducible apply kept_vrdStore
    | with_reducible apply kept_vrdRead
    | with_reducible apply kept_vrdLog
    | with_reducible exact Kept.rfl' _
    | with_reducible refine kept_ite_getD ?_ ?_
    | with_reducible refine kept_getD ?_ (by with_reducible assumption)
    | simp only [Option.getD_some, Option.getD_none]
    | simp only [kept_mk_iff]
    | (split <;> (try simp only [Prod.ext_iff, opt_eq s0] at *) <;> (try casesm* _ ∧ _) <;> (try subst_vars) <;> (try dsimp only))

theorem kept_execWindowWrite {s0 s : State} (a1) (a2) (h : Kept s0 s) : Kept s0 (after (execWindowWrite a1 a2 s) s0) := by
  unfold execWindowWrite
  simp (maxDischargeDepth := 60) [h]

@[simp] theorem kept_vrdSparesUndef {s0 s : State}  (h : Kept s0 s) : Kept s0 (vrdSparesUndef s) := by
  unfold vrdSparesUndef
  simp (maxDischargeDepth := 60) [h]

@[simp] theorem kept_vrdDisarm {s0 s : State}  (h : Kept s0 s) : Kept s0 (vrdDisarm s) := by
  first | rewrite [vrdDisarm] | unfold vrdDisarm
  try dsimp only
  repeat' first
    | (simp (maxDischargeDepth := 60) (contextual := true) [h]; done)
    | (split <;> (try simp only [Prod.ext_iff, opt_eq s0] at *) <;> (try casesm* _ ∧ _) <;> (try subst_vars) <;> (try dsimp only))

@[simp] theorem kept_vrdArm {s0 s : State} (a1) (h : Kept s0 s) : Kept s0 (vrdArm a1 s) := by
  unfold vrdArm
  simp (maxDischargeDepth := 60) [h]

@[simp] theorem kept_vrdStageWrite {s0 s : State} (a1) (h : Kept s0 s) : Kept s0 (vrdStageWrite a1 s) := by
  first | rewrite [vrdStageWrite] | unfold vrdStageWrite
  try dsimp only
  repeat' first
    | (simp (maxDischargeDepth := 60) (contextual := true) [h]; done)
    | (split <;> (try simp only [Prod.ext_iff, opt_eq s0] at *) <;> (try casesm* _ ∧ _) <;> (try subst_vars) <;> (try dsimp only))

theorem kept_execArm {s0 s : State} (a1) (h : Kept s0 s) : Kept s0 (after (execArm a1 s) s0) := by
  unfold execArm
  simp (maxDischargeDepth := 60) [h]

theorem kept_execDisarm {s0 s : State} (a1) (h : Kept s0 s) : Kept s0 (after (execDisarm a1 s) s0) := by
  unfold execDisarm
  simp (maxDischargeDepth := 60) [h]

@[simp] theorem kept_vrdCopyReplica {s0 s : State} (a1) (a2) (h : Kept s0 s) : Kept s0 (vrdCopyReplica a1 s a2) := by
  first | rewrite [vrdCopyReplica] | unfold vrdCopyReplica
  try dsimp only
  repeat' first
    | (simp (maxDischargeDepth := 60) (contextual := true) [h]; done)
    | (split <;> (try simp only [Prod.ext_iff, opt_eq s0] at *) <;> (try casesm* _ ∧ _) <;> (try subst_vars) <;> (try dsimp only))

@[simp] theorem kept_vrdCopyMeets {s0 s : State} (a1) (a2) (h : Kept s0 s) : Kept s0 (vrdCopyMeets a1 s a2) := by
  unfold vrdCopyMeets
  simp (maxDischargeDepth := 60) [h]

theorem kept_execBankCopyDone {s0 s : State} (a1) (h : Kept s0 s) : Kept s0 (after (execBankCopyDone a1 s) s0) := by
  first | rewrite [execBankCopyDone] | unfold execBankCopyDone
  try dsimp only
  repeat' first
    | (simp (maxDischargeDepth := 60) (contextual := true) [h]; done)
    | (split <;> (try simp only [Prod.ext_iff, opt_eq s0] at *) <;> (try casesm* _ ∧ _) <;> (try subst_vars) <;> (try dsimp only))

@[simp] theorem kept_vrdLoaderGo {s0 s : State}  (h : Kept s0 s) : Kept s0 (vrdLoaderGo s) := by
  first | rewrite [vrdLoaderGo] | unfold vrdLoaderGo
  try dsimp only
  repeat' first
    | (simp (maxDischargeDepth := 60) (contextual := true) [h]; done)
    | (split <;> (try simp only [Prod.ext_iff, opt_eq s0] at *) <;> (try casesm* _ ∧ _) <;> (try subst_vars) <;> (try dsimp only))

theorem kept_execLoaderGo {s0 s : State}  (h : Kept s0 s) : Kept s0 (after (execLoaderGo s) s0) := by
  unfold execLoaderGo
  simp (maxDischargeDepth := 60) [h]

@[simp] theorem kept_vrdLoaded {s0 s : State} (a1) (h : Kept s0 s) : Kept s0 (vrdLoaded a1 s) := by
  first | rewrite [vrdLoaded] | unfold vrdLoaded
  try dsimp only
  repeat' first
    | (simp (maxDischargeDepth := 60) (contextual := true) [h]; done)
    | (split <;> (try simp only [Prod.ext_iff, opt_eq s0] at *) <;> (try casesm* _ ∧ _) <;> (try subst_vars) <;> (try dsimp only))

theorem kept_execLoadErr {s0 s : State}  (h : Kept s0 s) : Kept s0 (after (execLoadErr s) s0) := by
  unfold execLoadErr
  simp (maxDischargeDepth := 60) [h]

@[simp] theorem kept_vrdSwapWrite {s0 s : State} (a1) (h : Kept s0 s) : Kept s0 (vrdSwapWrite a1 s) := by
  first | rewrite [vrdSwapWrite] | unfold vrdSwapWrite
  try dsimp only
  repeat' first
    | (simp (maxDischargeDepth := 60) (contextual := true) [h]; done)
    | (split <;> (try simp only [Prod.ext_iff, opt_eq s0] at *) <;> (try casesm* _ ∧ _) <;> (try subst_vars) <;> (try dsimp only))

theorem kept_execSwapGo {s0 s : State} (a1) (h : Kept s0 s) : Kept s0 (after (execSwapGo a1 s) s0) := by
  unfold execSwapGo
  simp (maxDischargeDepth := 60) [h]

theorem kept_execSwap {s0 s : State}  (h : Kept s0 s) : Kept s0 (after (execSwap s) s0) := by
  first | rewrite [execSwap] | unfold execSwap
  try dsimp only
  repeat' first
    | (simp (maxDischargeDepth := 60) (contextual := true) [h]; done)
    | (split <;> (try simp only [Prod.ext_iff, opt_eq s0] at *) <;> (try casesm* _ ∧ _) <;> (try subst_vars) <;> (try dsimp only))

@[simp] theorem kept_vrdLogical {s0 s : State} (a1) (a2) (a3) (h : Kept s0 s) : Kept s0 (vrdLogical a1 a2 a3 s).2 := by
  first | rewrite [vrdLogical] | unfold vrdLogical
  try dsimp only
  repeat' first
    | (simp (maxDischargeDepth := 60) (contextual := true) [h]; done)
    | (split <;> (try simp only [Prod.ext_iff, opt_eq s0] at *) <;> (try casesm* _ ∧ _) <;> (try subst_vars) <;> (try dsimp only))

theorem kept_execPatrolRead {s0 s : State} (a1) (a2) (h : Kept s0 s) : Kept s0 (after (execPatrolRead a1 a2 s) s0) := by
  unfold execPatrolRead
  simp (maxDischargeDepth := 60) [h]

@[simp] theorem kept_vrdWrite {s0 s : State} (a1) (a2) (h : Kept s0 s) : Kept s0 ((vrdWrite s a1 a2).getD s0) := by
  first | rewrite [vrdWrite] | unfold vrdWrite
  try dsimp only
  repeat' first
    | (simp (maxDischargeDepth := 60) (contextual := true) [h]; done)
    | (split <;> (try simp only [Prod.ext_iff, opt_eq s0] at *) <;> (try casesm* _ ∧ _) <;> (try subst_vars) <;> (try dsimp only))

@[simp] theorem kept_vrdPowerOff {s0 s : State}  (h : Kept s0 s) : Kept s0 (vrdPowerOff s) := by
  first | rewrite [vrdPowerOff] | unfold vrdPowerOff
  try dsimp only
  repeat' first
    | (simp (maxDischargeDepth := 60) (contextual := true) [h]; done)
    | (split <;> (try simp only [Prod.ext_iff, opt_eq s0] at *) <;> (try casesm* _ ∧ _) <;> (try subst_vars) <;> (try dsimp only))

@[simp] theorem kept_State_poke {s0 s : State} (a b) (h : Kept s0 s) : Kept s0 (s.poke a b) :=
  ⟨h.pending, h.key, fun w => State.poke_memWf a b (h.mem w), h.home⟩


@[simp] theorem kept_State_pokes {s0 s : State} (a l) (h : Kept s0 s) : Kept s0 (s.pokes a l) := by
  induction l generalizing s a with
  | nil => exact h
  | cons b t ih => exact ih _ (kept_State_poke a b h)


@[simp] theorem kept_State_freeBytes {s0 s : State} (a1) (h : Kept s0 s) : Kept s0 (State.freeBytes s a1).2 := by
  unfold State.freeBytes
  simp (maxDischargeDepth := 60) [h]

@[simp] theorem kept_State_reads {s0 s : State} (a1) (a2) (h : Kept s0 s) : Kept s0 (State.reads s a1 a2).2 := by
  unfold State.reads
  simp (maxDischargeDepth := 60) [h]

@[simp] theorem kept_State_forget {s0 s : State} (lo hi) (h : Kept s0 s) : Kept s0 (s.forget lo hi) :=
  ⟨h.pending, h.key, fun w => State.forget_memWf lo hi (h.mem w), h.home⟩


@[simp] theorem kept_clearResv {s0 s : State} (a1) (a2) (a3) (h : Kept s0 s) : Kept s0 (clearResv a1 a2 a3 s) := by
  unfold clearResv
  simp (maxDischargeDepth := 60) [h]

theorem kept_State_setBank {s0 s : State} (b k) (h : Kept s0 s)
    (hk : s.mergeHome → ∀ e ∈ k.merge, bankOf (e.word * 8) = b) : Kept s0 (s.setBank b k) := by
  refine ⟨h.pending, h.key, h.mem, fun w => ?_⟩
  have hw := h.home w
  intro b' e he
  by_cases hb : b = b'
  · subst hb
    refine hk hw e ?_
    simpa only [State.bank, State.setBank, Tbl.get_set_same] using he
  · refine hw b' e ?_
    simpa only [State.bank, State.setBank, Tbl.get_set_ne _ _ _ hb] using he


@[simp] theorem kept_spdCheck {s0 s : State} (a1) (a2) (a3) (h : Kept s0 s) : Kept s0 (spdCheck a1 a2 a3 s).2 := by
  first | rewrite [spdCheck] | unfold spdCheck
  try dsimp only
  repeat' first
    | with_reducible assumption
    | with_reducible intro t
    | with_reducible apply kept_State_raise
    | with_reducible apply kept_logFirst
    | with_reducible exact Kept.rfl' _
    | with_reducible refine kept_ite_getD ?_ ?_
    | with_reducible refine kept_getD ?_ (by with_reducible assumption)
    | simp only [Option.getD_some, Option.getD_none]
    | (split <;> (try simp only [Prod.ext_iff, opt_eq s0] at *) <;> (try casesm* _ ∧ _) <;> (try subst_vars) <;> (try dsimp only))

@[simp] theorem kept_State_setWordFlaw {s0 s : State} (a1) (a2) (h : Kept s0 s) : Kept s0 (State.setWordFlaw s a1 a2) := by
  unfold State.setWordFlaw
  simp (maxDischargeDepth := 60) [h]

@[simp] theorem kept_spdWord {s0 s : State} (a1) (a2) (h : Kept s0 s) : Kept s0 (spdWord a1 a2 s).2.2.2 := by
  first | rewrite [spdWord] | unfold spdWord
  try dsimp only
  repeat' first
    | (simp (maxDischargeDepth := 60) (contextual := true) [h]; done)
    | (split <;> (try simp only [Prod.ext_iff, opt_eq s0] at *) <;> (try casesm* _ ∧ _) <;> (try subst_vars) <;> (try dsimp only))

@[simp] theorem kept_spdCorrected {s0 s : State} (a1) (h : Kept s0 s) : Kept s0 (spdCorrected a1 s) := by
  unfold spdCorrected
  simp (maxDischargeDepth := 60) [h]

@[simp] theorem kept_spdReadStep {s0 : State} (ini a b acc w) (h : Kept s0 acc.2.2.2.2) :
    Kept s0 (spdReadStep ini a b acc w).2.2.2.2 := by
  unfold spdReadStep
  obtain ⟨a1, a2, a3, a4, s⟩ := acc
  simp only at *
  have k := kept_spdWord (s0 := s0) w a4 h
  revert k
  generalize spdWord w a4 s = q
  obtain ⟨d, seen, r, t⟩ := q
  intro k
  cases seen
  · simp_all (maxDischargeDepth := 60)
  · exact kept_spdCorrected _ (kept_State_setBank _ _ k fun w e he => w b e he)
  · simp_all (maxDischargeDepth := 60)


@[simp] theorem kept_spdRead {s0 s : State} (a1) (a2) (a3) (a4) (h : Kept s0 s) : Kept s0 (spdRead a1 a2 a3 a4 s).2 := by
  rewrite [spdRead]
  repeat' first
    | with_reducible assumption
    | simp only [after_next]
    | with_reducible refine kept_State_each ?_ (fun t a ht => ?_)
    | with_reducible refine kept_foldl_prod3 ?_ (fun t a ht => ?_)
    | with_reducible refine kept_foldl_prod4 ?_ (fun t a ht => ?_)
    | (split <;> (try simp only [Prod.ext_iff] at *) <;> (try casesm* _ ∧ _) <;> (try subst_vars))
    | with_reducible apply kept_State_okay
    | with_reducible apply kept_State_freeBytes
    | with_reducible apply kept_spdCheck
    | with_reducible apply kept_spdReadStep

@[simp] theorem kept_spdStore {s0 s : State} (a1) (a2) (h : Kept s0 s) : Kept s0 (spdStore a1 a2 s) := by
  unfold spdStore
  refine kept_State_pokes _ _ ?_
  rw [kept_mk_iff]
  exact kept_State_setBank _ _ h fun w e he => w _ e (List.mem_of_mem_filter he)


@[simp] theorem kept_spdFlush {s0 s : State} (a1) (h : Kept s0 s) : Kept s0 (spdFlush a1 s) := by
  unfold spdFlush
  simp (maxDischargeDepth := 60) [h]

@[simp] theorem kept_spdAlloc {s0 s : State} (a1) (a2) (a3) (a4) (a5) (h : Kept s0 s) : Kept s0 (spdAlloc a1 a2 a3 a4 a5 s).2 := by
  first | rewrite [spdAlloc] | unfold spdAlloc
  try dsimp only
  repeat' first
    | (simp (maxDischargeDepth := 60) (contextual := true) [h]; done)
    | (split <;> (try simp only [Prod.ext_iff, opt_eq s0] at *) <;> (try casesm* _ ∧ _) <;> (try subst_vars) <;> (try dsimp only))

@[simp] theorem kept_spdMerge {s0 s : State} (a1) (a2) (a3) (a4) (h : Kept s0 s) : Kept s0 (spdMerge a1 a2 a3 a4 s) := by
  unfold spdMerge
  dsimp only
  split
  · split
    · exact kept_spdFlush _ h
    · refine kept_State_setBank _ _ h fun w e he => ?_
      simp only [List.mem_map] at he
      obtain ⟨x, hx, rfl⟩ := he
      split
      · rfl
      · exact w _ x hx
  · refine kept_State_setBank _ _ (by split <;> [(split <;> [exact kept_spdFlush _ h; exact h]); exact h]) fun w e he => ?_
    rcases List.mem_append.1 he with he | he
    · exact w _ e he
    · rw [List.mem_singleton.1 he]


@[simp] theorem kept_spdWrite {s0 s : State} (a1) (a2) (a3) (a4) (h : Kept s0 s) : Kept s0 (spdWrite a1 a2 a3 a4 s).2 := by
  rewrite [spdWrite]
  repeat' first
    | with_reducible assumption
    | simp only [after_next]
    | with_reducible refine kept_State_each ?_ (fun t a ht => ?_)
    | with_reducible refine kept_foldl_prod3 ?_ (fun t a ht => ?_)
    | with_reducible refine kept_foldl_prod4 ?_ (fun t a ht => ?_)
    | (split <;> (try simp only [Prod.ext_iff] at *) <;> (try casesm* _ ∧ _) <;> (try subst_vars))
    | with_reducible apply kept_State_okay
    | with_reducible apply kept_clearResv
    | with_reducible apply kept_spdCheck
    | with_reducible apply kept_spdStore
    | with_reducible apply kept_spdAlloc
    | with_reducible apply kept_spdMerge

theorem kept_execScratchpadRead {s0 s : State} (a1) (a2) (h : Kept s0 s) : Kept s0 (after (execScratchpadRead a1 a2 s) s0) := by
  rewrite [execScratchpadRead]
  repeat' first
    | with_reducible assumption
    | simp only [after_next]
    | with_reducible refine kept_State_each ?_ (fun t a ht => ?_)
    | with_reducible refine kept_foldl_prod3 ?_ (fun t a ht => ?_)
    | with_reducible refine kept_foldl_prod4 ?_ (fun t a ht => ?_)
    | (split <;> (try simp only [Prod.ext_iff] at *) <;> (try casesm* _ ∧ _) <;> (try subst_vars))
    | with_reducible apply kept_State_answerMem
    | with_reducible apply kept_spdRead

@[simp] theorem kept_noteEnd {s0 s : State} (a1) (a2) (a3) (a4) (h : Kept s0 s) : Kept s0 (noteEnd a1 a2 a3 a4 s) := by
  unfold noteEnd
  simp (maxDischargeDepth := 60) [h]

theorem kept_execScratchpadWrite {s0 s : State} (a1) (a2) (h : Kept s0 s) : Kept s0 (after (execScratchpadWrite a1 a2 s) s0) := by
  rewrite [execScratchpadWrite]
  repeat' first
    | with_reducible assumption
    | simp only [after_next]
    | with_reducible refine kept_State_each ?_ (fun t a ht => ?_)
    | with_reducible refine kept_foldl_prod3 ?_ (fun t a ht => ?_)
    | with_reducible refine kept_foldl_prod4 ?_ (fun t a ht => ?_)
    | (split <;> (try simp only [Prod.ext_iff] at *) <;> (try casesm* _ ∧ _) <;> (try subst_vars))
    | with_reducible apply kept_State_answer
    | with_reducible apply kept_noteEnd
    | with_reducible apply kept_spdWrite

theorem kept_execMergeEntryWrite {s0 s : State} (a1) (a2) (h : Kept s0 s) : Kept s0 (after (execMergeEntryWrite a1 a2 s) s0) := by
  first | rewrite [execMergeEntryWrite] | unfold execMergeEntryWrite
  try dsimp only
  repeat' first
    | (simp (maxDischargeDepth := 60) (contextual := true) [h]; done)
    | (split <;> (try simp only [Prod.ext_iff, opt_eq s0] at *) <;> (try casesm* _ ∧ _) <;> (try subst_vars) <;> (try dsimp only))

theorem kept_execScratchpadWriteBack {s0 s : State} (a1) (h : Kept s0 s) : Kept s0 (after (execScratchpadWriteBack a1 s) s0) := by
  unfold execScratchpadWriteBack
  simp only [after_next]
  split
  · split
    · rw [kept_mk_iff]
      exact kept_State_setBank _ _ h fun w e he => w _ e he
    · exact h
  · exact h


@[simp] theorem kept_spdHandoverWrite {s0 s : State} (a1) (a2) (h : Kept s0 s) : Kept s0 (spdHandoverWrite a1 a2 s) := by
  unfold spdHandoverWrite
  simp (maxDischargeDepth := 60) [h]

theorem kept_execSpdHandover {s0 s : State} (a1) (a2) (h : Kept s0 s) : Kept s0 (after (execSpdHandover a1 a2 s) s0) := by
  unfold execSpdHandover
  simp (maxDischargeDepth := 60) [h]

@[simp] theorem kept_spdDrain {s0 s : State} (a1) (h : Kept s0 s) : Kept s0 (spdDrain a1 s) := by
  first | rewrite [spdDrain] | unfold spdDrain
  try dsimp only
  repeat' first
    | (simp (maxDischargeDepth := 60) (contextual := true) [h]; done)
    | (split <;> (try simp only [Prod.ext_iff, opt_eq s0] at *) <;> (try casesm* _ ∧ _) <;> (try subst_vars) <;> (try dsimp only))

@[simp] theorem kept_spdHandoverDone {s0 s : State} (a1) (h : Kept s0 s) : Kept s0 (spdHandoverDone a1 s) := by
  unfold spdHandoverDone
  simp (maxDischargeDepth := 60) [h]

theorem kept_execHandoverDone {s0 s : State} (a1) (h : Kept s0 s) : Kept s0 (after (execHandoverDone a1 s) s0) := by
  unfold execHandoverDone
  simp (maxDischargeDepth := 60) [h]

@[simp] theorem kept_spdLose {s0 s : State} (a1) (h : Kept s0 s) : Kept s0 (spdLose a1 s) := by
  unfold spdLose
  dsimp only
  rw [kept_mk_iff]
  exact kept_State_setBank _ _ (kept_State_forget _ _ h) fun _ e he => absurd he (by simp)


@[simp] theorem kept_spdRegWrite {s0 s : State} (a1) (a2) (a3) (h : Kept s0 s) : Kept s0 ((spdRegWrite s a1 a2 a3).getD s0) := by
  first | rewrite [spdRegWrite] | unfold spdRegWrite
  try dsimp only
  repeat' first
    | (simp (maxDischargeDepth := 60) (contextual := true) [h]; done)
    | (split <;> (try simp only [Prod.ext_iff, opt_eq s0] at *) <;> (try casesm* _ ∧ _) <;> (try subst_vars) <;> (try dsimp only))

@[simp] theorem kept_State_setChan {s0 s : State} (a1) (a2) (h : Kept s0 s) : Kept s0 (State.setChan s a1 a2) := by
  unfold State.setChan
  simp (maxDischargeDepth := 60) [h]

@[simp] theorem kept_dmcRefuse {s0 s : State} (a1) (h : Kept s0 s) : Kept s0 (dmcRefuse a1 s) := by
  unfold dmcRefuse
  simp (maxDischargeDepth := 60) [h]

@[simp] theorem kept_ldgPoolRetire {s0 s : State} (a1) (h : Kept s0 s) : Kept s0 (ldgPoolRetire a1 s) := by
  unfold ldgPoolRetire
  simp (maxDischargeDepth := 60) [h]

@[simp] theorem kept_reqAnswer {s0 s : State} (a1) (a2) (h : Kept s0 s) : Kept s0 (reqAnswer a1 a2 s) := by
  unfold reqAnswer
  simp (maxDischargeDepth := 60) [h]

theorem queueOffline_frame (c : Nat) (s : State) :
    (queueOffline c s).filled = s.filled ∧ (queueOffline c s).mem = s.mem := by
  unfold queueOffline State.each
  generalize (s.chan c).queue = l
  suffices h : ∀ t : State, (l.foldl (fun t r => reqAnswer r ⟨.offline, [], []⟩ t) t).filled = t.filled ∧
      (l.foldl (fun t r => reqAnswer r ⟨.offline, [], []⟩ t) t).mem = t.mem from h _
  induction l with
  | nil => exact fun _ => ⟨rfl, rfl⟩
  | cons a l ih =>
    intro t
    have e : (reqAnswer a ⟨.offline, [], []⟩ t).filled = t.filled ∧ (reqAnswer a ⟨.offline, [], []⟩ t).mem = t.mem := by
      unfold reqAnswer noteEnd nocTimeout nocLog
      dsimp only
      repeat' split
      all_goals exact ⟨rfl, rfl⟩
    exact ⟨(ih _).1.trans e.1, (ih _).2.trans e.2⟩

theorem queueOffline_filled (c : Nat) (s : State) : (queueOffline c s).filled = s.filled := (queueOffline_frame c s).1

@[simp] theorem kept_queueOffline {s0 s : State} (c) (h : Kept s0 s) : Kept s0 (queueOffline c s) :=
  kept_State_each (kept_State_setChan _ _ h) fun _ _ ht => kept_reqAnswer _ _ ht


@[simp] theorem kept_chanRetire {s0 s : State} (a1) (h : Kept s0 s) : Kept s0 (chanRetire a1 s) := by
  unfold chanRetire
  simp (maxDischargeDepth := 60) [h]

@[simp] theorem kept_chanUe {s0 s : State} (a1) (h : Kept s0 s) : Kept s0 (chanUe a1 s) := by
  unfold chanUe
  simp (maxDischargeDepth := 60) [h]

@[simp] theorem kept_chanLog {s0 s : State} (a1) (a2) (a3) (a4) (h : Kept s0 s) : Kept s0 (chanLog a1 a2 a3 a4 s) := by
  unfold chanLog
  simp (maxDischargeDepth := 60) [h]

@[simp] theorem kept_tagFail {s0 s : State} (a1) (a2) (h : Kept s0 s) : Kept s0 (tagFail a1 a2 s) := by
  unfold tagFail
  simp (maxDischargeDepth := 60) [h]

@[simp] theorem kept_lineRead {s0 s : State} (a1) (a2) (a3) (a4) (h : Kept s0 s) : Kept s0 (lineRead a1 a2 a3 a4 s).2.2.2 := by
  first | rewrite [lineRead] | unfold lineRead
  try dsimp only
  repeat' first
    | (simp (maxDischargeDepth := 60) (contextual := true) [h]; done)
    | (split <;> (try simp only [Prod.ext_iff, opt_eq s0] at *) <;> (try casesm* _ ∧ _) <;> (try subst_vars) <;> (try dsimp only))

@[simp] theorem kept_lineStore {s0 s : State} (a1) (a2) (h : Kept s0 s) : Kept s0 (lineStore a1 a2 s) := by
  unfold lineStore
  simp (maxDischargeDepth := 60) [h]

@[simp] theorem kept_dramRead {s0 s : State} (a1) (a2) (a3) (a4) (h : Kept s0 s) : Kept s0 (dramRead a1 a2 a3 a4 s).2 := by
  first | rewrite [dramRead] | unfold dramRead
  try dsimp only
  repeat' first
    | (simp (maxDischargeDepth := 60) (contextual := true) [h]; done)
    | (split <;> (try simp only [Prod.ext_iff, opt_eq s0] at *) <;> (try casesm* _ ∧ _) <;> (try subst_vars) <;> (try dsimp only))

@[simp] theorem kept_lineWrite {s0 s : State} (a1) (a2) (a3) (a4) (a5) (h : Kept s0 s) : Kept s0 (lineWrite a1 a2 a3 a4 a5 s).2 := by
  first | rewrite [lineWrite] | unfold lineWrite
  try dsimp only
  repeat' first
    | with_reducible assumption
    | with_reducible intro t
    | with_reducible apply kept_State_raise
    | with_reducible apply kept_State_okay
    | with_reducible apply kept_chanLog
    | with_reducible apply kept_lineRead
    | with_reducible apply kept_lineStore
    | with_reducible exact Kept.rfl' _
    | with_reducible refine kept_ite_getD ?_ ?_
    | with_reducible refine kept_getD ?_ (by with_reducible assumption)
    | simp only [Option.getD_some, Option.getD_none]
    | simp only [kept_mk_iff]
    | (split <;> (try simp only [Prod.ext_iff, opt_eq s0] at *) <;> (try casesm* _ ∧ _) <;> (try subst_vars) <;> (try dsimp only))

@[simp] theorem kept_dramWrite {s0 s : State} (a1) (a2) (a3) (a4) (h : Kept s0 s) : Kept s0 (dramWrite a1 a2 a3 a4 s).2 := by
  first | rewrite [dramWrite] | unfold dramWrite
  try dsimp only
  repeat' first
    | (simp (maxDischargeDepth := 60) (contextual := true) [h]; done)
    | (split <;> (try simp only [Prod.ext_iff, opt_eq s0] at *) <;> (try casesm* _ ∧ _) <;> (try subst_vars) <;> (try dsimp only))

@[simp] theorem kept_dramServe {s0 s : State} (a1) (h : Kept s0 s) : Kept s0 (dramServe a1 s) := by
  first | rewrite [dramServe] | unfold dramServe
  try dsimp only
  repeat' first
    | with_reducible assumption
    | with_reducible intro t
    | with_reducible apply kept_reqAnswer
    | with_reducible apply kept_dramRead
    | with_reducible apply kept_dramWrite
    | with_reducible exact Kept.rfl' _
    | simp only [kept_mk_iff]
    | (split <;> (try simp only [Prod.ext_iff, opt_eq s0] at *) <;> (try casesm* _ ∧ _) <;> (try subst_vars) <;> (try dsimp only))

@[simp] theorem kept_dramIssue {s0 s : State} (c f) (h : Kept s0 s) : Kept s0 (dramIssue c f s) := by
  induction f generalizing s with
  | zero => exact h
  | succ f ih =>
    unfold dramIssue
    split
    · exact h
    · split
      · exact h
      · exact ih (kept_dramServe _ (kept_State_fresh (kept_State_setChan _ _ h)))


@[simp] theorem kept_queueRelease {s0 s : State} (a1) (h : Kept s0 s) : Kept s0 (queueRelease a1 s) := by
  unfold queueRelease
  simp (maxDischargeDepth := 60) [h]

@[simp] theorem kept_dramRequest {s0 s : State} (a1) (a2) (a3) (h : Kept s0 s) : Kept s0 (dramRequest a1 a2 a3 s) := by
  unfold dramRequest
  simp (maxDischargeDepth := 60) [h]

theorem kept_execDramRead {s0 s : State} (a1) (a2) (h : Kept s0 s) : Kept s0 (after (execDramRead a1 a2 s) s0) := by
  unfold execDramRead
  simp (maxDischargeDepth := 60) [h]

theorem kept_execDramWrite {s0 s : State} (a1) (a2) (h : Kept s0 s) : Kept s0 (after (execDramWrite a1 a2 s) s0) := by
  unfold execDramWrite
  simp (maxDischargeDepth := 60) [h]

theorem kept_execDramPartialWrite {s0 s : State} (a1) (a2) (h : Kept s0 s) : Kept s0 (after (execDramPartialWrite a1 a2 s) s0) := by
  unfold execDramPartialWrite
  simp (maxDischargeDepth := 60) [h]

theorem memDefault_filter {l : List Nat} {p : Nat → Bool} {a : Nat} {b : Byte} (h : memDefault (l.filter p) a = some b) :
    memDefault l a = some b := by
  simp only [memDefault, List.contains_iff_mem, List.mem_filter, Bool.and_eq_true] at *
  split at h
  · rename_i k; rw [if_pos ⟨k.1, k.2.1⟩]; exact h
  · exact absurd h (by simp)

theorem wf_default {d d' : Nat → Option Byte} {l : List Host.Cell} (h : Memory.wf d l = true)
    (k : ∀ a b, d' a = some b → d a = some b) : Memory.wf d' l = true := by
  simp only [Memory.wf, Bool.and_eq_true, List.all_eq_true, bne_iff_ne] at *
  exact ⟨h.1, fun c hc e => h.2 c hc (k _ _ e)⟩

@[simp] theorem kept_chanForget {s0 s : State} (c) (h : Kept s0 s) : Kept s0 (chanForget c s) := by
  have k := kept_queueOffline c h
  exact ⟨k.pending, k.key, fun w =>
    wf_default (State.forget_memWf (s := queueOffline c s) _ _ (k.mem w)) fun _ _ e => by
      show memDefault (queueOffline c s).filled _ = _
      rw [queueOffline_filled]; exact memDefault_filter e, k.home⟩


@[simp] theorem kept_chanStop {s0 s : State} (a1) (h : Kept s0 s) : Kept s0 (chanStop a1 s) := by
  unfold chanStop
  simp (maxDischargeDepth := 60) [h]

@[simp] theorem kept_dmcCtrlWrite {s0 s : State} (a1) (a2) (h : Kept s0 s) : Kept s0 (dmcCtrlWrite a1 a2 s) := by
  first | rewrite [dmcCtrlWrite] | unfold dmcCtrlWrite
  try dsimp only
  repeat' first
    | (simp (maxDischargeDepth := 60) (contextual := true) [h]; done)
    | (split <;> (try simp only [Prod.ext_iff, opt_eq s0] at *) <;> (try casesm* _ ∧ _) <;> (try subst_vars) <;> (try dsimp only))

theorem kept_execDmcEnable {s0 s : State} (a1) (a2) (h : Kept s0 s) : Kept s0 (after (execDmcEnable a1 a2 s) s0) := by
  unfold execDmcEnable
  simp (maxDischargeDepth := 60) [h]

theorem kept_execDmcDisable {s0 s : State} (a1) (a2) (h : Kept s0 s) : Kept s0 (after (execDmcDisable a1 a2 s) s0) := by
  unfold execDmcDisable
  simp (maxDischargeDepth := 60) [h]

theorem kept_execChannelRetire {s0 s : State} (a1) (a2) (h : Kept s0 s) : Kept s0 (after (execChannelRetire a1 a2 s) s0) := by
  unfold execChannelRetire
  simp (maxDischargeDepth := 60) [h]

@[simp] theorem kept_trainRecord {s0 s : State} (a1) (a2) (h : Kept s0 s) : Kept s0 (trainRecord a1 a2 s) := by
  first | rewrite [trainRecord] | unfold trainRecord
  try dsimp only
  repeat' first
    | (simp (maxDischargeDepth := 60) (contextual := true) [h]; done)
    | (split <;> (try simp only [Prod.ext_iff, opt_eq s0] at *) <;> (try casesm* _ ∧ _) <;> (try subst_vars) <;> (try dsimp only))

/-- No byte of a channel is listed once it is forgotten. -/
theorem forget_chan {c : Nat} {s : State} {e : Host.Cell} (h : e ∈ (chanForget c s).mem) (hb : dramBase ≤ e.1) :
    chanOf e.1 ≠ c := by
  have hm : (chanForget c s).mem = cellClear s.mem (dramBase + c * 2 ^ 36) (dramBase + c * 2 ^ 36 + 2 ^ 36) := by
    show cellClear (queueOffline c s).mem _ _ = _
    rw [(queueOffline_frame c s).2]
  rewrite [hm, cellClear, List.mem_filter] at h
  have := h.2
  have h2 : e.1 < dramBase + c * 2 ^ 36 ∨ dramBase + c * 2 ^ 36 + 2 ^ 36 ≤ e.1 := by simpa using this
  have hd : dramBase = 256 * 2 ^ 36 := by decide
  rewrite [hd] at h2 hb
  unfold chanOf
  have hm0 : 0 < (2:Nat) ^ 36 := Nat.two_pow_pos 36
  clear hd hm this h
  generalize (2:Nat) ^ 36 = m at *
  intro hc
  have q := Nat.div_add_mod e.1 m
  have r := Nat.mod_lt e.1 hm0
  have hq : 256 ≤ e.1 / m := (Nat.le_div_iff_mul_le hm0).2 hb
  have e1 : e.1 / m = c + 256 := by omega
  have e2 : m * (e.1 / m) = c * m + 256 * m := by rw [e1]; ring
  omega

@[simp] theorem kept_chanFill {s0 s : State} (c) (h : Kept s0 s) : Kept s0 (chanFill c s) := by
  have k := kept_chanForget c h
  refine ⟨k.pending, k.key, fun w => ?_, k.home⟩
  have m := k.mem w
  show Memory.wf (memDefault ((chanForget c s).filled ++ [c])) (chanForget c s).mem = true
  simp only [State.memWf, Memory.wf, Bool.and_eq_true, List.all_eq_true, bne_iff_ne] at *
  refine ⟨m.1, fun e he => ?_⟩
  have n := m.2 e he
  by_cases hb : dramBase ≤ e.1
  · have nc := forget_chan he hb
    have : ((chanForget c s).filled ++ [c]).contains (chanOf e.1) = (chanForget c s).filled.contains (chanOf e.1) := by
      simp [nc]
    simpa only [memDefault, this] using n
  · simp [memDefault, hb]


theorem kept_execDmcInitDone {s0 s : State} (a1) (a2) (a3) (a4) (h : Kept s0 s) : Kept s0 (after (execDmcInitDone a1 a2 a3 a4 s) s0) := by
  first | rewrite [execDmcInitDone] | unfold execDmcInitDone
  try dsimp only
  repeat' first
    | (simp (maxDischargeDepth := 60) (contextual := true) [h]; done)
    | (split <;> (try simp only [Prod.ext_iff, opt_eq s0] at *) <;> (try casesm* _ ∧ _) <;> (try subst_vars) <;> (try dsimp only))

@[simp] theorem kept_dmcConfigWrite {s0 s : State} (a1) (a2) (h : Kept s0 s) : Kept s0 (dmcConfigWrite a1 a2 s) := by
  first | rewrite [dmcConfigWrite] | unfold dmcConfigWrite
  try dsimp only
  repeat' first
    | (simp (maxDischargeDepth := 60) (contextual := true) [h]; done)
    | (split <;> (try simp only [Prod.ext_iff, opt_eq s0] at *) <;> (try casesm* _ ∧ _) <;> (try subst_vars) <;> (try dsimp only))

theorem kept_execDmcConfigWrite {s0 s : State} (a1) (a2) (h : Kept s0 s) : Kept s0 (after (execDmcConfigWrite a1 a2 s) s0) := by
  unfold execDmcConfigWrite
  simp (maxDischargeDepth := 60) [h]

@[simp] theorem kept_dmcRetrainWrite {s0 s : State} (a1) (a2) (h : Kept s0 s) : Kept s0 (dmcRetrainWrite a1 a2 s) := by
  unfold dmcRetrainWrite
  simp (maxDischargeDepth := 60) [h]

theorem kept_execShortRetrain {s0 s : State} (a1) (a2) (h : Kept s0 s) : Kept s0 (after (execShortRetrain a1 a2 s) s0) := by
  first | rewrite [execShortRetrain] | unfold execShortRetrain
  try dsimp only
  repeat' first
    | (simp (maxDischargeDepth := 60) (contextual := true) [h]; done)
    | (split <;> (try simp only [Prod.ext_iff, opt_eq s0] at *) <;> (try casesm* _ ∧ _) <;> (try subst_vars) <;> (try dsimp only))

@[simp] theorem kept_retrainEnd {s0 s : State} (a1) (a2) (h : Kept s0 s) : Kept s0 (retrainEnd a1 a2 s) := by
  first | rewrite [retrainEnd] | unfold retrainEnd
  try dsimp only
  repeat' first
    | (simp (maxDischargeDepth := 60) (contextual := true) [h]; done)
    | (split <;> (try simp only [Prod.ext_iff, opt_eq s0] at *) <;> (try casesm* _ ∧ _) <;> (try subst_vars) <;> (try dsimp only))

theorem kept_execRetrained {s0 s : State} (a1) (a2) (h : Kept s0 s) : Kept s0 (after (execRetrained a1 a2 s) s0) := by
  unfold execRetrained
  simp (maxDischargeDepth := 60) [h]

@[simp] theorem kept_dmcFreqWrite {s0 s : State} (a1) (a2) (h : Kept s0 s) : Kept s0 (dmcFreqWrite a1 a2 s) := by
  unfold dmcFreqWrite
  simp (maxDischargeDepth := 60) [h]

theorem kept_execFreqGo {s0 s : State} (a1) (a2) (h : Kept s0 s) : Kept s0 (after (execFreqGo a1 a2 s) s0) := by
  unfold execFreqGo
  simp (maxDischargeDepth := 60) [h]

theorem kept_execFreqDone {s0 s : State} (a1) (a2) (h : Kept s0 s) : Kept s0 (after (execFreqDone a1 a2 s) s0) := by
  unfold execFreqDone
  simp (maxDischargeDepth := 60) [h]

theorem kept_execRefresh {s0 s : State} (a1) (a2) (h : Kept s0 s) : Kept s0 (after (execRefresh a1 a2 s) s0) := by
  unfold execRefresh
  simp (maxDischargeDepth := 60) [h]

@[simp] theorem kept_portMissed {s0 s : State} (a1) (a2) (h : Kept s0 s) : Kept s0 (portMissed a1 a2 s) := by
  first | rewrite [portMissed] | unfold portMissed
  try dsimp only
  repeat' first
    | with_reducible assumption
    | with_reducible intro t
    | with_reducible apply kept_State_setChan
    | with_reducible exact Kept.rfl' _
    | simp only [kept_mk_iff]
    | (split <;> (try simp only [Prod.ext_iff, opt_eq s0] at *) <;> (try casesm* _ ∧ _) <;> (try subst_vars) <;> (try dsimp only))

theorem kept_execUrgencyMiss {s0 s : State} (a1) (a2) (h : Kept s0 s) : Kept s0 (after (execUrgencyMiss a1 a2 s) s0) := by
  unfold execUrgencyMiss
  simp (maxDischargeDepth := 60) [h]

@[simp] theorem kept_dmcTsetWrite {s0 s : State} (a1) (a2) (a3) (h : Kept s0 s) : Kept s0 (dmcTsetWrite a1 a2 a3 s) := by
  unfold dmcTsetWrite
  simp (maxDischargeDepth := 60) [h]

@[simp] theorem kept_dmcWrite {s0 s : State} (a1) (a2) (a3) (h : Kept s0 s) : Kept s0 ((dmcWrite s a1 a2 a3).getD s0) := by
  first | rewrite [dmcWrite] | unfold dmcWrite
  try dsimp only
  repeat' first
    | (simp (maxDischargeDepth := 60) (contextual := true) [h]; done)
    | (split <;> (try simp only [Prod.ext_iff, opt_eq s0] at *) <;> (try casesm* _ ∧ _) <;> (try subst_vars) <;> (try dsimp only))

@[simp] theorem kept_chanPowerOff {s0 s : State} (a1) (h : Kept s0 s) : Kept s0 (chanPowerOff a1 s) := by
  unfold chanPowerOff
  simp (maxDischargeDepth := 60) [h]

@[simp] theorem kept_meeCtrlWrite {s0 s : State} (a1) (a2) (h : Kept s0 s) : Kept s0 (meeCtrlWrite a1 a2 s) := by
  unfold meeCtrlWrite
  simp (maxDischargeDepth := 60) [h]

theorem kept_execMeeRegionEnable {s0 s : State} (a1) (a2) (a3) (h : Kept s0 s) : Kept s0 (after (execMeeRegionEnable a1 a2 a3 s) s0) := by
  unfold execMeeRegionEnable
  simp (maxDischargeDepth := 60) [h]

@[simp] theorem kept_meeWrite {s0 s : State} (a1) (a2) (a3) (h : Kept s0 s) : Kept s0 ((meeWrite s a1 a2 a3).getD s0) := by
  first | rewrite [meeWrite] | unfold meeWrite
  try dsimp only
  repeat' first
    | (simp (maxDischargeDepth := 60) (contextual := true) [h]; done)
    | (split <;> (try simp only [Prod.ext_iff, opt_eq s0] at *) <;> (try casesm* _ ∧ _) <;> (try subst_vars) <;> (try dsimp only))

@[simp] theorem kept_State_setLdg {s0 s : State} (a1) (h : Kept s0 s) : Kept s0 (State.setLdg s a1) := by
  unfold State.setLdg
  simp (maxDischargeDepth := 60) [h]

@[simp] theorem kept_ldgRefuse {s0 s : State}  (h : Kept s0 s) : Kept s0 (ldgRefuse s) := by
  unfold ldgRefuse
  simp (maxDischargeDepth := 60) [h]

@[simp] theorem kept_ldgLog {s0 s : State} (a1) (a2) (a3) (h : Kept s0 s) : Kept s0 (ldgLog a1 a2 a3 s) := by
  unfold ldgLog
  simp (maxDischargeDepth := 60) [h]

@[simp] theorem kept_State_setCross {s0 s : State} (a1) (a2) (h : Kept s0 s) : Kept s0 (State.setCross s a1 a2) := by
  unfold State.setCross
  simp (maxDischargeDepth := 60) [h]

@[simp] theorem kept_ldgModCtx {s0 s : State} (a1) (a2) (h : Kept s0 s) : Kept s0 (ldgModCtx a1 a2 s) := by
  unfold ldgModCtx
  simp (maxDischargeDepth := 60) [h]

@[simp] theorem kept_dropFrags {s0 s : State} (a1) (h : Kept s0 s) : Kept s0 (dropFrags a1 s) := by
  unfold dropFrags
  simp (maxDischargeDepth := 60) [h]

@[simp] theorem kept_tierAddr {s0 s : State}  (h : Kept s0 s) : Kept s0 (tierAddr s).2 := by
  unfold tierAddr
  simp (maxDischargeDepth := 60) [h]

@[simp] theorem kept_fragStore {s0 s : State} (a1) (a2) (a3) (h : Kept s0 s) : Kept s0 (fragStore a1 a2 a3 s) := by
  unfold fragStore
  simp (maxDischargeDepth := 60) [h]

@[simp] theorem kept_ldgIngest {s0 s : State} (a1) (a2) (a3) (h : Kept s0 s) : Kept s0 (ldgIngest a1 a2 a3 s).2 := by
  first | rewrite [ldgIngest] | unfold ldgIngest
  try dsimp only
  repeat' first
    | with_reducible assumption
    | with_reducible intro t
    | with_reducible apply kept_State_raise
    | with_reducible apply kept_State_bumpHold
    | with_reducible apply kept_State_okay
    | with_reducible apply kept_ldgLog
    | with_reducible apply kept_State_setCross
    | with_reducible apply kept_fragStore
    | with_reducible exact Kept.rfl' _
    | simp only [kept_mk_iff]
    | (split <;> (try simp only [Prod.ext_iff, opt_eq s0] at *) <;> (try casesm* _ ∧ _) <;> (try subst_vars) <;> (try dsimp only))

theorem kept_execFragment {s0 s : State} (a1) (a2) (a3) (a4) (a5) (h : Kept s0 s) : Kept s0 (after (execFragment a1 a2 a3 a4 a5 s) s0) := by
  unfold execFragment
  simp (maxDischargeDepth := 60) [h]

@[simp] theorem kept_ldgAlloc {s0 s : State} (a1) (a2) (a3) (a4) (a5) (a6) (h : Kept s0 s) : Kept s0 (ldgAlloc a1 a2 a3 a4 a5 a6 s) := by
  unfold ldgAlloc
  simp (maxDischargeDepth := 60) [h]

@[simp] theorem kept_ldgAccept {s0 s : State} (a1) (a2) (a3) (a4) (h : Kept s0 s) : Kept s0 (ldgAccept a1 a2 a3 a4 s) := by
  unfold ldgAccept
  simp (maxDischargeDepth := 60) [h]

@[simp] theorem kept_ldgFreeCtx {s0 s : State} (a1) (h : Kept s0 s) : Kept s0 (ldgFreeCtx a1 s) := by
  unfold ldgFreeCtx
  simp (maxDischargeDepth := 60) [h]

@[simp] theorem kept_ldgDiscard {s0 s : State} (a1) (h : Kept s0 s) : Kept s0 (ldgDiscard a1 s) := by
  unfold ldgDiscard
  simp (maxDischargeDepth := 60) [h]

theorem kept_pickPage {s0 s t : State} {k p} (h : Kept s0 s) (e : pickPage k s = some (p, t)) : Kept s0 t := by
  unfold pickPage at e
  obtain ⟨c, -, e⟩ := Option.map_eq_some_iff.1 e
  simp only [Prod.mk.injEq] at e
  exact e.2 ▸ kept_State_fresh h


@[simp] theorem kept_ctxPage {s0 s : State} (id) (h : Kept s0 s) : Kept s0 ((ctxPage id s).getD s0) := by
  unfold ctxPage
  split
  · exact Kept.rfl' _
  · dsimp only
    split
    · exact Kept.rfl' _
    · rename_i e
      have k := kept_pickPage h e
      dsimp only [Option.getD_some]
      split
      · exact kept_State_setLdg _ (kept_ldgModCtx _ _ k)
      · exact kept_ldgModCtx _ _ k


@[simp] theorem kept_ctxPages {s0 s : State} (a1) (a2) (a3) (h : Kept s0 s) : Kept s0 ((ctxPages a1 a2 a3 s).getD s0) := by
  induction a3 generalizing s with
  | zero => rw [ctxPages]; exact h
  | succ n ih =>
    rewrite [ctxPages]
    try dsimp only
    repeat' first
      | with_reducible assumption
      | with_reducible intro t
      | with_reducible apply kept_ctxPage
      | with_reducible exact Kept.rfl' _
      | with_reducible apply ih
      | with_reducible refine kept_ite_getD ?_ ?_
      | with_reducible refine kept_getD ?_ (by with_reducible assumption)
      | simp only [Option.getD_some, Option.getD_none]
      | simp only [kept_mk_iff]
      | (split <;> (try simp only [Prod.ext_iff, opt_eq s0] at *) <;> (try casesm* _ ∧ _) <;> (try subst_vars) <;> (try dsimp only))

@[simp] theorem kept_ctxRenew {s0 s : State} (id i) (h : Kept s0 s) : Kept s0 ((ctxRenew id i s).getD s0) := by
  unfold ctxRenew
  split
  · exact Kept.rfl' _
  · dsimp only
    split
    · rename_i x _ _
      cases e : pickPage (x.pages.getD i (0, 0)).1 s with
      | none => exact Kept.rfl' _
      | some q => exact kept_ldgModCtx _ _ (kept_pickPage h e)
    · exact h


theorem kept_foldl_bind {s0 : State} {α : Type} {l : List α} {g : α → State → Option State} {o : Option State}
    (h : Kept s0 (o.getD s0)) (hg : ∀ a t, Kept s0 t → Kept s0 ((g a t).getD s0)) :
    Kept s0 ((l.foldl (fun o a => o.bind (g a)) o).getD s0) := by
  induction l generalizing o with
  | nil => exact h
  | cons a l ih =>
    refine ih ?_
    cases o with
    | none => exact Kept.rfl' _
    | some t => exact hg a t h

@[simp] theorem kept_ctxPlace {s0 s : State} (id lo hi) (h : Kept s0 s) : Kept s0 ((ctxPlace id lo hi s).getD s0) :=
  kept_foldl_bind (kept_ctxPages _ _ _ h) fun _ _ k => kept_ctxRenew _ _ k


@[simp] theorem kept_ldgWait {s0 s : State} (a1) (h : Kept s0 s) : Kept s0 (ldgWait a1 s) := by
  unfold ldgWait
  simp (maxDischargeDepth := 60) [h]

@[simp] theorem kept_ldgGo {s0 s : State} (a1) (h : Kept s0 s) : Kept s0 (ldgGo a1 s) := by
  unfold ldgGo
  simp (maxDischargeDepth := 60) [h]

@[simp] theorem kept_ldgWriteDram {s0 s : State} (a1) (a2) (a3) (h : Kept s0 s) : Kept s0 (ldgWriteDram a1 a2 a3 s).2 := by
  first | rewrite [ldgWriteDram] | unfold ldgWriteDram
  try dsimp only
  repeat' first
    | (simp (maxDischargeDepth := 60) (contextual := true) [h]; done)
    | (split <;> (try simp only [Prod.ext_iff, opt_eq s0] at *) <;> (try casesm* _ ∧ _) <;> (try subst_vars) <;> (try dsimp only))

@[simp] theorem kept_ldgReadDram {s0 s : State} (a1) (a2) (a3) (h : Kept s0 s) : Kept s0 (ldgReadDram a1 a2 a3 s).2 := by
  first | rewrite [ldgReadDram] | unfold ldgReadDram
  try dsimp only
  repeat' first
    | (simp (maxDischargeDepth := 60) (contextual := true) [h]; done)
    | (split <;> (try simp only [Prod.ext_iff, opt_eq s0] at *) <;> (try casesm* _ ∧ _) <;> (try subst_vars) <;> (try dsimp only))

@[simp] theorem kept_bodyWrite {s0 s : State} (a1) (a2) (a3) (a4) (a5) (a6) (h : Kept s0 s) : Kept s0 (bodyWrite a1 a2 a3 a4 a5 a6 s) := by
  first | rewrite [bodyWrite] | unfold bodyWrite
  try dsimp only
  repeat' first
    | with_reducible assumption
    | with_reducible intro t
    | with_reducible refine kept_State_each ?_ (fun t a ht => ?_)
    | with_reducible apply kept_State_okay
    | with_reducible apply kept_ldgLog
    | with_reducible apply kept_ldgModCtx
    | with_reducible apply kept_ldgWriteDram
    | with_reducible exact Kept.rfl' _
    | simp only [kept_mk_iff]
    | (split <;> (try simp only [Prod.ext_iff, opt_eq s0] at *) <;> (try casesm* _ ∧ _) <;> (try subst_vars) <;> (try dsimp only))

@[simp] theorem kept_ldgTail {s0 s : State} (a1) (a2) (a3) (h : Kept s0 s) : Kept s0 (ldgTail a1 a2 a3 s) := by
  first | rewrite [ldgTail] | unfold ldgTail
  try dsimp only
  repeat' first
    | (simp (maxDischargeDepth := 60) (contextual := true) [h]; done)
    | (split <;> (try simp only [Prod.ext_iff, opt_eq s0] at *) <;> (try casesm* _ ∧ _) <;> (try subst_vars) <;> (try dsimp only))

@[simp] theorem kept_ldgClose {s0 s : State} (a1) (a2) (h : Kept s0 s) : Kept s0 (ldgClose a1 a2 s) := by
  first | rewrite [ldgClose] | unfold ldgClose
  try dsimp only
  repeat' first
    | (simp (maxDischargeDepth := 60) (contextual := true) [h]; done)
    | (split <;> (try simp only [Prod.ext_iff, opt_eq s0] at *) <;> (try casesm* _ ∧ _) <;> (try subst_vars) <;> (try dsimp only))

@[simp] theorem kept_tierReadFrag {s0 s : State} (a1) (a2) (h : Kept s0 s) : Kept s0 (tierReadFrag a1 a2 s).2.2 := by
  first | rewrite [tierReadFrag] | unfold tierReadFrag
  try dsimp only
  repeat' first
    | (simp (maxDischargeDepth := 60) (contextual := true) [h]; done)
    | (split <;> (try simp only [Prod.ext_iff, opt_eq s0] at *) <;> (try casesm* _ ∧ _) <;> (try subst_vars) <;> (try dsimp only))

theorem kept_execPageWrite {s0 s : State} (a1) (a2) (a3) (a4) (h : Kept s0 s) : Kept s0 (after (execPageWrite a1 a2 a3 a4 s) s0) := by
  first | rewrite [execPageWrite] | unfold execPageWrite
  try dsimp only
  repeat' first
    | with_reducible assumption
    | with_reducible intro t
    | with_reducible apply kept_ldgModCtx
    | with_reducible apply kept_dropFrags
    | with_reducible apply kept_ctxPlace
    | with_reducible apply kept_ldgWait
    | with_reducible apply kept_ldgGo
    | with_reducible apply kept_bodyWrite
    | with_reducible apply kept_ldgTail
    | with_reducible apply kept_tierReadFrag
    | with_reducible exact Kept.rfl' _
    | simp only [after_next]
    | with_reducible refine kept_ite_getD ?_ ?_
    | with_reducible refine kept_getD ?_ (by with_reducible assumption)
    | simp only [Option.getD_some, Option.getD_none]
    | simp only [kept_mk_iff]
    | (split <;> (try simp only [Prod.ext_iff, opt_eq s0] at *) <;> (try casesm* _ ∧ _) <;> (try subst_vars) <;> (try dsimp only))

@[simp] theorem kept_ldgDecide {s0 s : State} (a1) (a2) (h : Kept s0 s) : Kept s0 (ldgDecide a1 a2 s) := by
  first | rewrite [ldgDecide] | unfold ldgDecide
  try dsimp only
  repeat' first
    | with_reducible assumption
    | with_reducible intro t
    | with_reducible refine kept_State_each ?_ (fun t a ht => ?_)
    | with_reducible refine kept_foldl ?_ (fun t a ht => ?_)
    | with_reducible refine kept_foldl_prod ?_ (fun t a ht => ?_)
    | with_reducible refine kept_foldl_prod2 ?_ (fun t a ht => ?_)
    | with_reducible refine kept_foldl_prod3 ?_ (fun t a ht => ?_)
    | with_reducible refine kept_foldl_prod4 ?_ (fun t a ht => ?_)
    | with_reducible apply kept_State_raise
    | with_reducible apply kept_State_bumpHold
    | with_reducible apply kept_State_setCross
    | with_reducible apply kept_ldgModCtx
    | with_reducible apply kept_dropFrags
    | with_reducible apply kept_ldgAccept
    | with_reducible exact Kept.rfl' _
    | simp only [kept_mk_iff]
    | (split <;> (try simp only [Prod.ext_iff, opt_eq s0] at *) <;> (try casesm* _ ∧ _) <;> (try subst_vars) <;> (try dsimp only))

theorem kept_execQuartzDecision {s0 s : State} (a1) (a2) (h : Kept s0 s) : Kept s0 (after (execQuartzDecision a1 a2 s) s0) := by
  first | rewrite [execQuartzDecision] | unfold execQuartzDecision
  try dsimp only
  repeat' first
    | (simp (maxDischargeDepth := 60) (contextual := true) [h]; done)
    | (split <;> (try simp only [Prod.ext_iff, opt_eq s0] at *) <;> (try casesm* _ ∧ _) <;> (try subst_vars) <;> (try dsimp only))

@[simp] theorem kept_ldgHostDec {s0 s : State} (a1) (h : Kept s0 s) : Kept s0 (ldgHostDec a1 s) := by
  unfold ldgHostDec
  simp (maxDischargeDepth := 60) [h]

theorem kept_execHostDecision {s0 s : State} (a1) (h : Kept s0 s) : Kept s0 (after (execHostDecision a1 s) s0) := by
  unfold execHostDecision
  simp (maxDischargeDepth := 60) [h]

@[simp] theorem kept_thrFlag {s0 s : State} (a1) (a2) (a3) (a4) (h : Kept s0 s) : Kept s0 (thrFlag a1 a2 a3 a4 s) := by
  unfold thrFlag
  simp (maxDischargeDepth := 60) [h]

@[simp] theorem kept_thrOutput {s0 s : State}  (h : Kept s0 s) : Kept s0 (thrOutput s) := by
  unfold thrOutput
  simp (maxDischargeDepth := 60) [h]

@[simp] theorem kept_thrClear {s0 s : State}  (h : Kept s0 s) : Kept s0 (thrClear s) := by
  unfold thrClear
  simp (maxDischargeDepth := 60) [h]

@[simp] theorem kept_thrEvaluate {s0 s : State}  (h : Kept s0 s) : Kept s0 (thrEvaluate s) := by
  unfold thrEvaluate
  simp (maxDischargeDepth := 60) [h]

@[simp] theorem kept_ldgExpire {s0 s : State}  (h : Kept s0 s) : Kept s0 (ldgExpire s) := by
  first | rewrite [ldgExpire] | unfold ldgExpire
  try dsimp only
  repeat' first
    | (simp (maxDischargeDepth := 60) (contextual := true) [h]; done)
    | (split <;> (try simp only [Prod.ext_iff, opt_eq s0] at *) <;> (try casesm* _ ∧ _) <;> (try subst_vars) <;> (try dsimp only))

@[simp] theorem kept_ldgConfig {s0 s : State}  (h : Kept s0 s) : Kept s0 (ldgConfig s) := by
  unfold ldgConfig
  simp (maxDischargeDepth := 60) [h]

@[simp] theorem kept_ldgBoundary {s0 s : State}  (h : Kept s0 s) : Kept s0 (ldgBoundary s) := by
  first | rewrite [ldgBoundary] | unfold ldgBoundary
  try dsimp only
  repeat' first
    | (simp (maxDischargeDepth := 60) (contextual := true) [h]; done)
    | (split <;> (try simp only [Prod.ext_iff, opt_eq s0] at *) <;> (try casesm* _ ∧ _) <;> (try subst_vars) <;> (try dsimp only))

@[simp] theorem kept_ldgExternal {s0 s : State} (a1) (h : Kept s0 s) : Kept s0 (ldgExternal a1 s) := by
  unfold ldgExternal
  simp (maxDischargeDepth := 60) [h]

@[simp] theorem kept_ldgRetry {s0 s : State}  (h : Kept s0 s) : Kept s0 (ldgRetry s) := by
  first | rewrite [ldgRetry] | unfold ldgRetry
  try dsimp only
  repeat' first
    | with_reducible assumption
    | with_reducible intro t
    | with_reducible refine kept_State_each ?_ (fun t a ht => ?_)
    | with_reducible apply kept_ldgAlloc
    | with_reducible exact Kept.rfl' _
    | simp only [kept_mk_iff]
    | (split <;> (try simp only [Prod.ext_iff, opt_eq s0] at *) <;> (try casesm* _ ∧ _) <;> (try subst_vars) <;> (try dsimp only))

@[simp] theorem kept_ldgRest {s0 s : State}  (h : Kept s0 s) : Kept s0 (ldgRest s) := by
  unfold ldgRest
  simp (maxDischargeDepth := 60) [h]

@[simp] theorem kept_ldgCloseAll {s0 s : State} (a1) (h : Kept s0 s) : Kept s0 (ldgCloseAll a1 s) := by
  first | rewrite [ldgCloseAll] | unfold ldgCloseAll
  try dsimp only
  repeat' first
    | (simp (maxDischargeDepth := 60) (contextual := true) [h]; done)
    | (split <;> (try simp only [Prod.ext_iff, opt_eq s0] at *) <;> (try casesm* _ ∧ _) <;> (try subst_vars) <;> (try dsimp only))

@[simp] theorem kept_ldgResync {s0 s : State} (a1) (h : Kept s0 s) : Kept s0 (ldgResync a1 s) := by
  unfold ldgResync
  simp (maxDischargeDepth := 60) [h]

@[simp] theorem kept_ldgCtrlWrite {s0 s : State} (a1) (h : Kept s0 s) : Kept s0 (ldgCtrlWrite a1 s) := by
  unfold ldgCtrlWrite
  simp (maxDischargeDepth := 60) [h]

theorem kept_execLedgerEnable {s0 s : State} (a1) (h : Kept s0 s) : Kept s0 (after (execLedgerEnable a1 s) s0) := by
  unfold execLedgerEnable
  simp (maxDischargeDepth := 60) [h]

theorem kept_execLedgerDisable {s0 s : State} (a1) (h : Kept s0 s) : Kept s0 (after (execLedgerDisable a1 s) s0) := by
  unfold execLedgerDisable
  simp (maxDischargeDepth := 60) [h]

theorem kept_execTierInitDone {s0 s : State}  (h : Kept s0 s) : Kept s0 (after (execTierInitDone s) s0) := by
  first | rewrite [execTierInitDone] | unfold execTierInitDone
  try dsimp only
  repeat' first
    | (simp (maxDischargeDepth := 60) (contextual := true) [h]; done)
    | (split <;> (try simp only [Prod.ext_iff, opt_eq s0] at *) <;> (try casesm* _ ∧ _) <;> (try subst_vars) <;> (try dsimp only))

@[simp] theorem kept_ldgGrant {s0 s : State} (a1) (a2) (h : Kept s0 s) : Kept s0 (ldgGrant a1 a2 s) := by
  unfold ldgGrant
  simp (maxDischargeDepth := 60) [h]

@[simp] theorem kept_ldgGrantWrite {s0 s : State} (a1) (a2) (h : Kept s0 s) : Kept s0 (ldgGrantWrite a1 a2 s) := by
  unfold ldgGrantWrite
  simp (maxDischargeDepth := 60) [h]

theorem kept_execStreamGrant {s0 s : State} (a1) (a2) (h : Kept s0 s) : Kept s0 (after (execStreamGrant a1 a2 s) s0) := by
  unfold execStreamGrant
  simp (maxDischargeDepth := 60) [h]

@[simp] theorem kept_ldgStreamOff {s0 s : State} (a1) (h : Kept s0 s) : Kept s0 (ldgStreamOff a1 s) := by
  first | rewrite [ldgStreamOff] | unfold ldgStreamOff
  try dsimp only
  repeat' first
    | with_reducible assumption
    | with_reducible intro t
    | with_reducible refine kept_State_each ?_ (fun t a ht => ?_)
    | with_reducible apply kept_ldgDiscard
    | with_reducible exact Kept.rfl' _
    | split

@[simp] theorem kept_ldgStrCtrlWrite {s0 s : State} (a1) (a2) (h : Kept s0 s) : Kept s0 (ldgStrCtrlWrite a1 a2 s) := by
  first | rewrite [ldgStrCtrlWrite] | unfold ldgStrCtrlWrite
  try dsimp only
  repeat' first
    | (simp (maxDischargeDepth := 60) (contextual := true) [h]; done)
    | (split <;> (try simp only [Prod.ext_iff, opt_eq s0] at *) <;> (try casesm* _ ∧ _) <;> (try subst_vars) <;> (try dsimp only))

theorem kept_execStreamEnable {s0 s : State} (a1) (a2) (h : Kept s0 s) : Kept s0 (after (execStreamEnable a1 a2 s) s0) := by
  unfold execStreamEnable
  simp (maxDischargeDepth := 60) [h]

theorem kept_execStreamDisable {s0 s : State} (a1) (a2) (h : Kept s0 s) : Kept s0 (after (execStreamDisable a1 a2 s) s0) := by
  unfold execStreamDisable
  simp (maxDischargeDepth := 60) [h]

@[simp] theorem kept_bodyRead {s0 s : State} (a1) (a2) (a3) (a4) (a5) (h : Kept s0 s) : Kept s0 (bodyRead a1 a2 a3 a4 a5 s).2.2 := by
  first | rewrite [bodyRead] | unfold bodyRead
  try dsimp only
  repeat' first
    | with_reducible assumption
    | with_reducible intro t
    | with_reducible refine kept_foldl ?_ (fun t a ht => ?_)
    | with_reducible refine kept_foldl_prod ?_ (fun t a ht => ?_)
    | with_reducible refine kept_foldl_prod2 ?_ (fun t a ht => ?_)
    | with_reducible refine kept_foldl_prod3 ?_ (fun t a ht => ?_)
    | with_reducible refine kept_foldl_prod4 ?_ (fun t a ht => ?_)
    | with_reducible apply kept_State_raise
    | with_reducible apply kept_State_okay
    | with_reducible apply kept_ldgLog
    | with_reducible apply kept_ldgReadDram
    | with_reducible exact Kept.rfl' _
    | with_reducible refine kept_ite_getD ?_ ?_
    | with_reducible refine kept_getD ?_ (by with_reducible assumption)
    | simp only [Option.getD_some, Option.getD_none]
    | (split <;> (try simp only [Prod.ext_iff, opt_eq s0] at *) <;> (try casesm* _ ∧ _) <;> (try subst_vars) <;> (try dsimp only))

theorem kept_ldgChunk {s0 s t : State} {room e1 e2 k first bs} (h : Kept s0 s)
    (e : ldgChunk room e1 e2 s = some (k, first, bs, t)) : Kept s0 t := by
  rewrite [ldgChunk] at e
  split at e
  · cases e
  · split at e
    · cases e
    · simp only [Option.some.injEq, Prod.mk.injEq] at e
      obtain ⟨-, -, -, rfl⟩ := e
      repeat' first
        | with_reducible assumption
        | with_reducible apply kept_ldgStreamOff
        | with_reducible apply kept_ldgFreeCtx
        | with_reducible apply kept_ldgModCtx
        | with_reducible apply kept_State_setLdg
        | with_reducible refine kept_State_when ?_ (fun t ht => ?_)
        | with_reducible apply kept_State_raise
        | with_reducible apply kept_State_clear
        | with_reducible apply kept_State_put
        | with_reducible apply kept_bodyRead
        | split


theorem kept_execStall {s0 s : State} (a1) (h : Kept s0 s) : Kept s0 (after (execStall a1 s) s0) := by
  unfold execStall
  simp (maxDischargeDepth := 60) [h]

theorem kept_execStallDiscard {s0 s : State} (a1) (h : Kept s0 s) : Kept s0 (after (execStallDiscard a1 s) s0) := by
  first | rewrite [execStallDiscard] | unfold execStallDiscard
  try dsimp only
  repeat' first
    | (simp (maxDischargeDepth := 60) (contextual := true) [h]; done)
    | (split <;> (try simp only [Prod.ext_iff, opt_eq s0] at *) <;> (try casesm* _ ∧ _) <;> (try subst_vars) <;> (try dsimp only))

@[simp] theorem kept_ldgWrite {s0 s : State} (a1) (a2) (a3) (h : Kept s0 s) : Kept s0 ((ldgWrite s a1 a2 a3).getD s0) := by
  first | rewrite [ldgWrite] | unfold ldgWrite
  try dsimp only
  repeat' first
    | with_reducible assumption
    | with_reducible intro t
    | with_reducible apply kept_State_clear
    | with_reducible apply kept_State_wrCodes
    | with_reducible apply kept_State_setLdg
    | with_reducible apply kept_ldgRefuse
    | with_reducible apply kept_ldgHostDec
    | with_reducible apply kept_ldgCtrlWrite
    | with_reducible apply kept_ldgGrantWrite
    | with_reducible apply kept_ldgStrCtrlWrite
    | with_reducible exact Kept.rfl' _
    | with_reducible refine kept_ite_getD ?_ ?_
    | with_reducible refine kept_getD ?_ (by with_reducible assumption)
    | simp only [Option.getD_some, Option.getD_none]
    | simp only [kept_mk_iff]
    | (split <;> (try simp only [Prod.ext_iff, opt_eq s0] at *) <;> (try casesm* _ ∧ _) <;> (try subst_vars) <;> (try dsimp only))

@[simp] theorem kept_ldgPowerOff {s0 s : State}  (h : Kept s0 s) : Kept s0 (ldgPowerOff s) := by
  first | rewrite [ldgPowerOff] | unfold ldgPowerOff
  try dsimp only
  repeat' first
    | (simp (maxDischargeDepth := 60) (contextual := true) [h]; done)
    | (split <;> (try simp only [Prod.ext_iff, opt_eq s0] at *) <;> (try casesm* _ ∧ _) <;> (try subst_vars) <;> (try dsimp only))

@[simp] theorem kept_storeFrames {s0 s : State} (ok) {put : Nat → List W32 → State → State} (n a ws k) (h : Kept s0 s)
    (hp : ∀ a w t, Kept s0 t → Kept s0 (put a w t)) : Kept s0 (storeFrames ok put n a ws k s).2.2 := by
  induction n generalizing a ws k s with
  | zero => exact h
  | succ n ih =>
    unfold storeFrames
    split
    · exact h
    · split
      · exact ih _ _ _ (hp _ _ _ h)
      · exact h


@[simp] theorem kept_State_setCfg {s0 s : State} (a1) (h : Kept s0 s) : Kept s0 (State.setCfg s a1) := by
  unfold State.setCfg
  simp (maxDischargeDepth := 60) [h]

@[simp] theorem kept_padsRelease {s0 s : State}  (h : Kept s0 s) : Kept s0 (padsRelease s) := by
  unfold padsRelease
  simp (maxDischargeDepth := 60) [h]

@[simp] theorem kept_cfgBlank {s0 s : State}  (h : Kept s0 s) : Kept s0 (cfgBlank s) := by
  first | rewrite [cfgBlank] | unfold cfgBlank
  try dsimp only
  repeat' first
    | (simp (maxDischargeDepth := 60) (contextual := true) [h]; done)
    | (split <;> (try simp only [Prod.ext_iff, opt_eq s0] at *) <;> (try casesm* _ ∧ _) <;> (try subst_vars) <;> (try dsimp only))

@[simp] theorem kept_cfgRegsReset {s0 s : State}  (h : Kept s0 s) : Kept s0 (cfgRegsReset s) := by
  unfold cfgRegsReset
  simp (maxDischargeDepth := 60) [h]

@[simp] theorem kept_cfgFail {s0 s : State} (a1) (h : Kept s0 s) : Kept s0 (cfgFail a1 s) := by
  first | rewrite [cfgFail] | unfold cfgFail
  try dsimp only
  repeat' first
    | (simp (maxDischargeDepth := 60) (contextual := true) [h]; done)
    | (split <;> (try simp only [Prod.ext_iff, opt_eq s0] at *) <;> (try casesm* _ ∧ _) <;> (try subst_vars) <;> (try dsimp only))

@[simp] theorem kept_cfgRestart {s0 s : State} (a1) (a2) (a3) (h : Kept s0 s) : Kept s0 (cfgRestart a1 a2 a3 s) := by
  unfold cfgRestart
  simp (maxDischargeDepth := 60) [h]

theorem kept_execConfigRestart {s0 s : State} (a1) (a2) (a3) (h : Kept s0 s) : Kept s0 (after (execConfigRestart a1 a2 a3 s) s0) := by
  unfold execConfigRestart
  simp (maxDischargeDepth := 60) [h]

theorem kept_execBlankingDone {s0 s : State}  (h : Kept s0 s) : Kept s0 (after (execBlankingDone s) s0) := by
  unfold execBlankingDone
  simp (maxDischargeDepth := 60) [h]

theorem kept_execNprogLow {s0 s : State}  (h : Kept s0 s) : Kept s0 (after (execNprogLow s) s0) := by
  unfold execNprogLow
  simp (maxDischargeDepth := 60) [h]

@[simp] theorem kept_cfgSourceLost {s0 s : State} (a1) (h : Kept s0 s) : Kept s0 (cfgSourceLost a1 s) := by
  unfold cfgSourceLost
  simp (maxDischargeDepth := 60) [h]

@[simp] theorem kept_cfgSync {s0 s : State} (a1) (h : Kept s0 s) : Kept s0 (cfgSync a1 s) := by
  unfold cfgSync
  simp (maxDischargeDepth := 60) [h]

theorem kept_execSyncWord {s0 s : State} (a1) (h : Kept s0 s) : Kept s0 (after (execSyncWord a1 s) s0) := by
  unfold execSyncWord
  simp (maxDischargeDepth := 60) [h]

@[simp] theorem kept_cfgSettle {s0 s : State}  (h : Kept s0 s) : Kept s0 (cfgSettle s) := by
  first | rewrite [cfgSettle] | unfold cfgSettle
  try dsimp only
  repeat' first
    | (simp (maxDischargeDepth := 60) (contextual := true) [h]; done)
    | (split <;> (try simp only [Prod.ext_iff, opt_eq s0] at *) <;> (try casesm* _ ∧ _) <;> (try subst_vars) <;> (try dsimp only))

@[simp] theorem kept_cfgTake {s0 s : State} (a1) (h : Kept s0 s) : Kept s0 (cfgTake a1 s) := by
  first | rewrite [cfgTake] | unfold cfgTake
  try dsimp only
  repeat' first
    | (simp (maxDischargeDepth := 60) (contextual := true) [h]; done)
    | (split <;> (try simp only [Prod.ext_iff, opt_eq s0] at *) <;> (try casesm* _ ∧ _) <;> (try subst_vars) <;> (try dsimp only))

theorem kept_execImageHeader {s0 s : State} (a1) (h : Kept s0 s) : Kept s0 (after (execImageHeader a1 s) s0) := by
  unfold execImageHeader
  simp (maxDischargeDepth := 60) [h]

theorem kept_execBlock {s0 s : State} (a1) (a2) (a3) (h : Kept s0 s) : Kept s0 (after (execBlock a1 a2 a3 s) s0) := by
  unfold execBlock
  simp (maxDischargeDepth := 60) [h]

@[simp] theorem kept_cfgWord {s0 s : State} (a1) (a2) (h : Kept s0 s) : Kept s0 (cfgWord a1 a2 s) := by
  unfold cfgWord
  simp (maxDischargeDepth := 60) [h]

@[simp] theorem kept_cfgPacket {s0 s : State} {g : Packet → Option (State → State)} (h : Kept s0 s)
    (hg : ∀ p f, g p = some f → ∀ t, Kept s0 t → Kept s0 (f t)) : Kept s0 (cfgPacket g s) := by
  unfold cfgPacket
  split
  · exact h
  · split
    · rename_i f e; exact kept_cfgSettle (hg _ f e _ h)
    · exact h


@[simp] theorem kept_cfgDrop {s0 s : State} (a1) (h : Kept s0 s) : Kept s0 (cfgDrop a1 s) := by
  unfold cfgDrop
  simp (maxDischargeDepth := 60) [h]

theorem kept_execNopPacket {s0 s : State} (h : Kept s0 s) : Kept s0 (after (execNopPacket s) s0) := by
  rewrite [execNopPacket]
  rewrite [after_next]
  refine kept_cfgPacket h fun p f e t ht => ?_
  repeat' split at e
  all_goals first | cases e | (simp only [Option.some.injEq] at e; subst e)
  repeat' first
    | with_reducible assumption
    | with_reducible apply kept_cfgDrop
    | with_reducible apply kept_cfgUncheck
    | with_reducible apply kept_streamWrite
    | with_reducible apply kept_cfgFrames
    | with_reducible apply kept_cfgFail
    | with_reducible apply kept_cfgStart
    | with_reducible apply kept_State_setCfg
    | split
    | dsimp only


@[simp] theorem kept_cfgMarkLoading {s0 s : State}  (h : Kept s0 s) : Kept s0 (cfgMarkLoading s) := by
  first | rewrite [cfgMarkLoading] | unfold cfgMarkLoading
  try dsimp only
  repeat' first
    | (simp (maxDischargeDepth := 60) (contextual := true) [h]; done)
    | (split <;> (try simp only [Prod.ext_iff, opt_eq s0] at *) <;> (try casesm* _ ∧ _) <;> (try subst_vars) <;> (try dsimp only))

@[simp] theorem kept_streamWrite {s0 s : State} (a1) (a2) (h : Kept s0 s) : Kept s0 (streamWrite a1 a2 s) := by
  unfold streamWrite
  simp (maxDischargeDepth := 60) [h]

@[simp] theorem kept_cfgUncheck {s0 s : State}  (h : Kept s0 s) : Kept s0 (cfgUncheck s) := by
  unfold cfgUncheck
  simp (maxDischargeDepth := 60) [h]

theorem kept_execWritePacket {s0 s : State} (h : Kept s0 s) : Kept s0 (after (execWritePacket s) s0) := by
  rewrite [execWritePacket]
  rewrite [after_next]
  refine kept_cfgPacket h fun p f e t ht => ?_
  repeat' split at e
  all_goals first | cases e | (simp only [Option.some.injEq] at e; subst e)
  repeat' first
    | with_reducible assumption
    | with_reducible apply kept_cfgDrop
    | with_reducible apply kept_cfgUncheck
    | with_reducible apply kept_streamWrite
    | with_reducible apply kept_cfgFrames
    | with_reducible apply kept_cfgFail
    | with_reducible apply kept_cfgStart
    | with_reducible apply kept_State_setCfg
    | split
    | dsimp only


@[simp] theorem kept_cfgFrames {s0 s : State} (a1) (h : Kept s0 s) : Kept s0 (cfgFrames a1 s) := by
  first | rewrite [cfgFrames] | unfold cfgFrames
  try dsimp only
  repeat' first
    | (simp (maxDischargeDepth := 60) (contextual := true) [h]; done)
    | (split <;> (try simp only [Prod.ext_iff, opt_eq s0] at *) <;> (try casesm* _ ∧ _) <;> (try subst_vars) <;> (try dsimp only))

theorem kept_execFrames {s0 s : State} (h : Kept s0 s) : Kept s0 (after (execFrames s) s0) := by
  rewrite [execFrames]
  rewrite [after_next]
  refine kept_cfgPacket h fun p f e t ht => ?_
  repeat' split at e
  all_goals first | cases e | (simp only [Option.some.injEq] at e; subst e)
  repeat' first
    | with_reducible assumption
    | with_reducible apply kept_cfgDrop
    | with_reducible apply kept_cfgUncheck
    | with_reducible apply kept_streamWrite
    | with_reducible apply kept_cfgFrames
    | with_reducible apply kept_cfgFail
    | with_reducible apply kept_cfgStart
    | with_reducible apply kept_State_setCfg
    | split
    | dsimp only


theorem kept_execCheck {s0 s : State} (h : Kept s0 s) : Kept s0 (after (execCheck s) s0) := by
  rewrite [execCheck]
  rewrite [after_next]
  refine kept_cfgPacket h fun p f e t ht => ?_
  repeat' split at e
  all_goals first | cases e | (simp only [Option.some.injEq] at e; subst e)
  repeat' first
    | with_reducible assumption
    | with_reducible apply kept_cfgDrop
    | with_reducible apply kept_cfgUncheck
    | with_reducible apply kept_streamWrite
    | with_reducible apply kept_cfgFrames
    | with_reducible apply kept_cfgFail
    | with_reducible apply kept_cfgStart
    | with_reducible apply kept_State_setCfg
    | split
    | dsimp only


@[simp] theorem kept_configureRim {s0 s : State} (a1) (h : Kept s0 s) : Kept s0 (configureRim a1 s) := by
  unfold configureRim
  simp (maxDischargeDepth := 60) [h]

@[simp] theorem kept_rimCopy {s0 s : State}  (h : Kept s0 s) : Kept s0 (rimCopy s) := by
  unfold rimCopy
  simp (maxDischargeDepth := 60) [h]

@[simp] theorem kept_cfgStart {s0 s : State} (a1) (h : Kept s0 s) : Kept s0 (cfgStart a1 s) := by
  first | rewrite [cfgStart] | unfold cfgStart
  try dsimp only
  repeat' first
    | (simp (maxDischargeDepth := 60) (contextual := true) [h]; done)
    | (split <;> (try simp only [Prod.ext_iff, opt_eq s0] at *) <;> (try casesm* _ ∧ _) <;> (try subst_vars) <;> (try dsimp only))

theorem kept_execStart {s0 s : State} (h : Kept s0 s) : Kept s0 (after (execStart s) s0) := by
  rewrite [execStart]
  rewrite [after_next]
  refine kept_cfgPacket h fun p f e t ht => ?_
  repeat' split at e
  all_goals first | cases e | (simp only [Option.some.injEq] at e; subst e)
  repeat' first
    | with_reducible assumption
    | with_reducible apply kept_cfgDrop
    | with_reducible apply kept_cfgUncheck
    | with_reducible apply kept_streamWrite
    | with_reducible apply kept_cfgFrames
    | with_reducible apply kept_cfgFail
    | with_reducible apply kept_cfgStart
    | with_reducible apply kept_State_setCfg
    | split
    | dsimp only


@[simp] theorem kept_releaseOutputs {s0 s : State} (a1) (h : Kept s0 s) : Kept s0 (releaseOutputs a1 s) := by
  unfold releaseOutputs
  simp (maxDischargeDepth := 60) [h]

@[simp] theorem kept_releaseHold {s0 s : State} (a1) (h : Kept s0 s) : Kept s0 (releaseHold a1 s) := by
  unfold releaseHold
  simp (maxDischargeDepth := 60) [h]

@[simp] theorem kept_releaseWrite {s0 s : State} (a1) (h : Kept s0 s) : Kept s0 (releaseWrite a1 s) := by
  first | rewrite [releaseWrite] | unfold releaseWrite
  try dsimp only
  repeat' first
    | (simp (maxDischargeDepth := 60) (contextual := true) [h]; done)
    | (split <;> (try simp only [Prod.ext_iff, opt_eq s0] at *) <;> (try casesm* _ ∧ _) <;> (try subst_vars) <;> (try dsimp only))

@[simp] theorem kept_releaseResets {s0 s : State}  (h : Kept s0 s) : Kept s0 (releaseResets s) := by
  unfold releaseResets
  simp (maxDischargeDepth := 60) [h]

theorem kept_execConfDoneHigh {s0 s : State}  (h : Kept s0 s) : Kept s0 (after (execConfDoneHigh s) s0) := by
  unfold execConfDoneHigh
  simp (maxDischargeDepth := 60) [h]

theorem kept_execSequenceStep {s0 s : State} (a1) (h : Kept s0 s) : Kept s0 (after (execSequenceStep a1 s) s0) := by
  first | rewrite [execSequenceStep] | unfold execSequenceStep
  try dsimp only
  repeat' first
    | (simp (maxDischargeDepth := 60) (contextual := true) [h]; done)
    | (split <;> (try simp only [Prod.ext_iff, opt_eq s0] at *) <;> (try casesm* _ ∧ _) <;> (try subst_vars) <;> (try dsimp only))

theorem kept_execSeqTimeout {s0 s : State} (a1) (h : Kept s0 s) : Kept s0 (after (execSeqTimeout a1 s) s0) := by
  unfold execSeqTimeout
  simp (maxDischargeDepth := 60) [h]

@[simp] theorem kept_seqGoWrite {s0 s : State} (a1) (h : Kept s0 s) : Kept s0 (seqGoWrite a1 s) := by
  unfold seqGoWrite
  simp (maxDischargeDepth := 60) [h]

theorem kept_execSeqGo {s0 s : State} (a1) (h : Kept s0 s) : Kept s0 (after (execSeqGo a1 s) s0) := by
  unfold execSeqGo
  simp (maxDischargeDepth := 60) [h]

theorem kept_execDoneFell {s0 s : State}  (h : Kept s0 s) : Kept s0 (after (execDoneFell s) s0) := by
  first | rewrite [execDoneFell] | unfold execDoneFell
  try dsimp only
  repeat' first
    | (simp (maxDischargeDepth := 60) (contextual := true) [h]; done)
    | (split <;> (try simp only [Prod.ext_iff, opt_eq s0] at *) <;> (try casesm* _ ∧ _) <;> (try subst_vars) <;> (try dsimp only))

@[simp] theorem kept_frstWrite {s0 s : State} (a1) (h : Kept s0 s) : Kept s0 (frstWrite a1 s) := by
  first | rewrite [frstWrite] | unfold frstWrite
  try dsimp only
  repeat' first
    | (simp (maxDischargeDepth := 60) (contextual := true) [h]; done)
    | (split <;> (try simp only [Prod.ext_iff, opt_eq s0] at *) <;> (try casesm* _ ∧ _) <;> (try subst_vars) <;> (try dsimp only))

@[simp] theorem kept_cfgWrite {s0 s : State} (a1) (a2) (h : Kept s0 s) : Kept s0 ((cfgWrite s a1 a2).getD s0) := by
  first | rewrite [cfgWrite] | unfold cfgWrite
  try dsimp only
  repeat' first
    | (simp (maxDischargeDepth := 60) (contextual := true) [h]; done)
    | (split <;> (try simp only [Prod.ext_iff, opt_eq s0] at *) <;> (try casesm* _ ∧ _) <;> (try subst_vars) <;> (try dsimp only))

@[simp] theorem kept_netDoes {s0 s : State} (a1) (h : Kept s0 s) : Kept s0 (netDoes a1 s).2.2 := by
  first | rewrite [netDoes] | unfold netDoes
  try dsimp only
  repeat' first
    | (simp (maxDischargeDepth := 60) (contextual := true) [h]; done)
    | (split <;> (try simp only [Prod.ext_iff, opt_eq s0] at *) <;> (try casesm* _ ∧ _) <;> (try subst_vars) <;> (try dsimp only))

theorem kept_mapRead {s0 s : State} {csr : CsrRead} (c a n env) (h : Kept s0 s)
    (hc : ∀ c a n env t, Kept s0 t → Kept s0 (csr c a n env t).2) : Kept s0 (mapRead csr c a n env s).2 := by
  unfold mapRead
  repeat' first
    | with_reducible assumption
    | with_reducible apply kept_dramRead
    | with_reducible apply kept_spdRead
    | with_reducible apply hc
    | with_reducible apply kept_vrdWindowRead
    | with_reducible apply kept_State_freeBytes
    | (split <;> (try simp only [Prod.ext_iff, opt_eq s0] at *) <;> (try casesm* _ ∧ _) <;> (try subst_vars) <;> (try dsimp only))


theorem kept_mapWrite {s0 s : State} {csr : CsrWrite} (c a d env) (h : Kept s0 s)
    (hc : ∀ c a d t, Kept s0 t → Kept s0 (csr c a d t).2) : Kept s0 (mapWrite csr c a d env s).2 := by
  unfold mapWrite
  repeat' first
    | with_reducible assumption
    | with_reducible apply kept_dramWrite
    | with_reducible apply kept_spdWrite
    | with_reducible apply hc
    | with_reducible apply kept_vrdWindowWrite
    | (split <;> (try simp only [Prod.ext_iff, opt_eq s0] at *) <;> (try casesm* _ ∧ _) <;> (try subst_vars) <;> (try dsimp only))


theorem kept_mapRead4K {s0 s : State} {csr : CsrRead} (c a n env) (h : Kept s0 s)
    (hc : ∀ c a n env t, Kept s0 t → Kept s0 (csr c a n env t).2) : Kept s0 (mapRead4K csr c a n env s).2 := by
  unfold mapRead4K
  have k := kept_mapRead c a n env h hc
  dsimp only
  split
  · exact h
  · exact k


theorem kept_mapWrite4K {s0 s : State} {csr : CsrWrite} (c a d env) (h : Kept s0 s)
    (hc : ∀ c a d t, Kept s0 t → Kept s0 (csr c a d t).2) : Kept s0 (mapWrite4K csr c a d env s).2 := by
  unfold mapWrite4K
  have k := kept_mapWrite c a d env h hc
  dsimp only
  split
  · exact h
  · exact k


theorem kept_netRead {s0 s : State} {csr : CsrRead} (c a n env) (h : Kept s0 s)
    (hc : ∀ c a n env t, Kept s0 t → Kept s0 (csr c a n env t).2) : Kept s0 (netRead csr c a n env s).2 := by
  unfold netRead
  have k := kept_netDoes env h
  dsimp only
  refine kept_noteEnd _ _ _ _ ?_
  split
  · exact k
  · split
    · exact k
    · exact kept_mapRead4K c a n env k hc


theorem kept_netWrite {s0 s : State} {csr : CsrWrite} (c a d p env) (h : Kept s0 s)
    (hc : ∀ c a d t, Kept s0 t → Kept s0 (csr c a d t).2) : Kept s0 (netWrite csr c a d p env s).2 := by
  unfold netWrite
  have k := kept_netDoes env h
  dsimp only
  refine kept_noteEnd _ _ _ _ ?_
  split
  · exact k
  · split
    · exact k
    · exact kept_mapWrite4K c a d env k hc


@[simp] theorem kept_plainCsrRead {s0 s : State} (a1) (a2) (a3) (a4) (h : Kept s0 s) : Kept s0 (plainCsrRead a1 a2 a3 a4 s).2 := by
  first | rewrite [plainCsrRead] | unfold plainCsrRead
  try dsimp only
  repeat' first
    | with_reducible assumption
    | with_reducible intro t
    | with_reducible apply kept_State_okay
    | with_reducible exact Kept.rfl' _
    | simp only [kept_mk_iff]
    | (split <;> (try simp only [Prod.ext_iff, opt_eq s0] at *) <;> (try casesm* _ ∧ _) <;> (try subst_vars) <;> (try dsimp only))

@[simp] theorem kept_plainCsrWrite {s0 s : State} (a1) (a2) (a3) (h : Kept s0 s) : Kept s0 (plainCsrWrite a1 a2 a3 s).2 := by
  first | rewrite [plainCsrWrite] | unfold plainCsrWrite
  try dsimp only
  repeat' first
    | with_reducible assumption
    | with_reducible intro t
    | with_reducible exact Kept.rfl' _
    | split

@[simp] theorem kept_plainRead {s0 s : State} (ini a n env) (h : Kept s0 s) : Kept s0 (plainRead ini a n env s).2 :=
  kept_netRead _ _ _ _ h fun c a n env t ht => kept_plainCsrRead c a n env ht


@[simp] theorem kept_plainWrite {s0 s : State} (ini a d p env) (h : Kept s0 s) : Kept s0 (plainWrite ini a d p env s).2 :=
  kept_netWrite _ _ _ _ _ h fun c a d t ht => kept_plainCsrWrite c a d ht


@[simp] theorem kept_longRead {s0 s : State} (a1) (a2) (a3) (a4) (h : Kept s0 s) : Kept s0 (longRead a1 a2 a3 a4 s).2 := by
  first | rewrite [longRead] | unfold longRead
  try dsimp only
  repeat' first
    | with_reducible assumption
    | with_reducible intro t
    | with_reducible refine kept_foldl ?_ (fun t a ht => ?_)
    | with_reducible refine kept_foldl_prod ?_ (fun t a ht => ?_)
    | with_reducible refine kept_foldl_prod2 ?_ (fun t a ht => ?_)
    | with_reducible refine kept_foldl_prod3 ?_ (fun t a ht => ?_)
    | with_reducible refine kept_foldl_prod4 ?_ (fun t a ht => ?_)
    | with_reducible apply kept_State_okay
    | with_reducible apply kept_plainRead
    | with_reducible exact Kept.rfl' _
    | (split <;> (try simp only [Prod.ext_iff, opt_eq s0] at *) <;> (try casesm* _ ∧ _) <;> (try subst_vars) <;> (try dsimp only))

@[simp] theorem kept_longWrite {s0 s : State} (a1) (a2) (a3) (a4) (h : Kept s0 s) : Kept s0 (longWrite a1 a2 a3 a4 s).2 := by
  first | rewrite [longWrite] | unfold longWrite
  try dsimp only
  repeat' first
    | with_reducible assumption
    | with_reducible intro t
    | with_reducible refine kept_foldl ?_ (fun t a ht => ?_)
    | with_reducible refine kept_foldl_prod ?_ (fun t a ht => ?_)
    | with_reducible refine kept_foldl_prod2 ?_ (fun t a ht => ?_)
    | with_reducible refine kept_foldl_prod3 ?_ (fun t a ht => ?_)
    | with_reducible refine kept_foldl_prod4 ?_ (fun t a ht => ?_)
    | with_reducible apply kept_State_okay
    | with_reducible apply kept_plainWrite
    | with_reducible exact Kept.rfl' _
    | split

end Sys2Proof.Machine
end

