-- ==== Sys2Proof/Laws/KeptLinks.lean ====
section
/-! SUPPORT. Each operation of the host link, the serial lanes, the clocks and the service pins is Kept. -/

set_option linter.unusedTactic false
set_option linter.unreachableTactic false
set_option linter.unusedSimpArgs false
set_option linter.unusedVariables false

namespace Sys2Proof.Machine

@[simp] theorem kept_State_setKtp {s0 s : State} (a1) (h : Kept s0 s) : Kept s0 (State.setKtp s a1) := by
  unfold State.setKtp
  simp (maxDischargeDepth := 60) [h]

@[simp] theorem kept_frameIn {s0 s : State} (a1) (a2) (h : Kept s0 s) : Kept s0 (frameIn a1 a2 s) := by
  unfold frameIn
  simp (maxDischargeDepth := 60) [h]

@[simp] theorem kept_portDrop {s0 s : State} (a1) (h : Kept s0 s) : Kept s0 (portDrop a1 s) := by
  unfold portDrop
  simp (maxDischargeDepth := 60) [h]

theorem kept_execFrameDrop {s0 s : State} (a1) (a2) (h : Kept s0 s) : Kept s0 (after (execFrameDrop a1 a2 s) s0) := by
  first | rewrite [execFrameDrop] | unfold execFrameDrop
  try dsimp only
  repeat' first
    | (simp (maxDischargeDepth := 60) (contextual := true) [h]; done)
    | (split <;> (try simp only [Prod.ext_iff, opt_eq s0] at *) <;> (try casesm* _ ∧ _) <;> (try subst_vars) <;> (try dsimp only))

@[simp] theorem kept_sendFrame {s0 s : State} (a1) (h : Kept s0 s) : Kept s0 (sendFrame a1 s) := by
  unfold sendFrame
  simp (maxDischargeDepth := 60) [h]

theorem kept_execArpRequest {s0 s : State} (a1) (a2) (h : Kept s0 s) : Kept s0 (after (execArpRequest a1 a2 s) s0) := by
  unfold execArpRequest
  simp (maxDischargeDepth := 60) [h]

theorem kept_execNeighbourSolicitation {s0 s : State} (a1) (a2) (h : Kept s0 s) : Kept s0 (after (execNeighbourSolicitation a1 a2 s) s0) := by
  unfold execNeighbourSolicitation
  simp (maxDischargeDepth := 60) [h]

theorem kept_execEchoRequest {s0 s : State} (a1) (a2) (a3) (a4) (h : Kept s0 s) : Kept s0 (after (execEchoRequest a1 a2 a3 a4 s) s0) := by
  unfold execEchoRequest
  simp (maxDischargeDepth := 60) [h]

@[simp] theorem kept_State_setSess {s0 s : State} (a1) (a2) (h : Kept s0 s) : Kept s0 (State.setSess s a1 a2) := by
  unfold State.setSess
  simp (maxDischargeDepth := 60) [h]

@[simp] theorem kept_State_modSess {s0 s : State} (a1) (a2) (h : Kept s0 s) : Kept s0 (State.modSess s a1 a2) := by
  unfold State.modSess
  simp (maxDischargeDepth := 60) [h]

@[simp] theorem kept_State_modStream {s0 s : State} (a1) (a2) (a3) (h : Kept s0 s) : Kept s0 (State.modStream s a1 a2 a3) := by
  unfold State.modStream
  simp (maxDischargeDepth := 60) [h]

@[simp] theorem kept_sessClose {s0 s : State} (a1) (h : Kept s0 s) : Kept s0 (sessClose a1 s) := by
  first | rewrite [sessClose] | unfold sessClose
  try dsimp only
  repeat' first
    | (simp (maxDischargeDepth := 60) (contextual := true) [h]; done)
    | (split <;> (try simp only [Prod.ext_iff, opt_eq s0] at *) <;> (try casesm* _ ∧ _) <;> (try subst_vars) <;> (try dsimp only))

@[simp] theorem kept_queueSeg {s0 s : State} (a1) (a2) (a3) (a4) (h : Kept s0 s) : Kept s0 (queueSeg a1 a2 a3 a4 s) := by
  unfold queueSeg
  simp (maxDischargeDepth := 60) [h]

@[simp] theorem kept_emitPkt {s0 s : State} (a1) (a2) (a3) (a4) (a5) (a6) (h : Kept s0 s) : Kept s0 (emitPkt a1 a2 a3 a4 a5 a6 s) := by
  unfold emitPkt
  simp (maxDischargeDepth := 60) [h]

@[simp] theorem kept_rekeyDue {s0 s : State} (a1) (h : Kept s0 s) : Kept s0 (rekeyDue a1 s) := by
  unfold rekeyDue
  simp (maxDischargeDepth := 60) [h]

@[simp] theorem kept_sendPkt {s0 s : State} (a1) (a2) (a3) (a4) (a5) (a6) (h : Kept s0 s) : Kept s0 (sendPkt a1 a2 a3 a4 a5 a6 s) := by
  unfold sendPkt
  simp (maxDischargeDepth := 60) [h]

@[simp] theorem kept_pumpStream {s0 s : State} (a1) (a2) (a3) (h : Kept s0 s) : Kept s0 (pumpStream a1 a2 a3 s) := by
  induction a1 generalizing s with
  | zero => rw [pumpStream]; exact h
  | succ n ih =>
    rewrite [pumpStream]
    try dsimp only
    repeat' first
      | with_reducible assumption
      | with_reducible intro t
      | with_reducible apply kept_State_modStream
      | with_reducible apply kept_sendPkt
      | with_reducible exact Kept.rfl' _
      | with_reducible apply ih
      | simp only [kept_mk_iff]
      | (split <;> (try simp only [Prod.ext_iff, opt_eq s0] at *) <;> (try casesm* _ ∧ _) <;> (try subst_vars) <;> (try dsimp only))

@[simp] theorem kept_pumpOne {s0 s : State} (a1) (a2) (h : Kept s0 s) : Kept s0 (pumpOne a1 a2 s) := by
  unfold pumpOne
  simp (maxDischargeDepth := 60) [h]

@[simp] theorem kept_svcPump {s0 s : State} (a1) (h : Kept s0 s) : Kept s0 (svcPump a1 s) := by
  induction a1 generalizing s with
  | zero => rw [svcPump]; exact h
  | succ n ih =>
    rewrite [svcPump]
    try dsimp only
    repeat' first
      | with_reducible assumption
      | with_reducible intro t
      | with_reducible apply kept_queueSeg
      | with_reducible apply kept_pumpOne
      | with_reducible exact Kept.rfl' _
      | with_reducible apply ih
      | simp only [kept_mk_iff]
      | (split <;> (try simp only [Prod.ext_iff, opt_eq s0] at *) <;> (try casesm* _ ∧ _) <;> (try subst_vars) <;> (try dsimp only))

@[simp] theorem kept_svcSend {s0 s : State}  (h : Kept s0 s) : Kept s0 (svcSend s) := by
  unfold svcSend
  simp (maxDischargeDepth := 60) [h]

@[simp] theorem kept_pumpSess {s0 s : State} (a1) (h : Kept s0 s) : Kept s0 (pumpSess a1 s) := by
  first | rewrite [pumpSess] | unfold pumpSess
  try dsimp only
  repeat' first
    | (simp (maxDischargeDepth := 60) (contextual := true) [h]; done)
    | (split <;> (try simp only [Prod.ext_iff, opt_eq s0] at *) <;> (try casesm* _ ∧ _) <;> (try subst_vars) <;> (try dsimp only))

@[simp] theorem kept_sendCtrl {s0 s : State} (a1) (a2) (a3) (h : Kept s0 s) : Kept s0 (sendCtrl a1 a2 a3 s) := by
  unfold sendCtrl
  simp (maxDischargeDepth := 60) [h]

@[simp] theorem kept_sessCloseSend {s0 s : State} (a1) (h : Kept s0 s) : Kept s0 (sessCloseSend a1 s) := by
  unfold sessCloseSend
  simp (maxDischargeDepth := 60) [h]

@[simp] theorem kept_resend {s0 s : State} (a1) (a2) (a3) (h : Kept s0 s) : Kept s0 (resend a1 a2 a3 s) := by
  first | rewrite [resend] | unfold resend
  try dsimp only
  repeat' first
    | (simp (maxDischargeDepth := 60) (contextual := true) [h]; done)
    | (split <;> (try simp only [Prod.ext_iff, opt_eq s0] at *) <;> (try casesm* _ ∧ _) <;> (try subst_vars) <;> (try dsimp only))

@[simp] theorem kept_resendAll {s0 s : State} (a1) (h : Kept s0 s) : Kept s0 (resendAll a1 s) := by
  first | rewrite [resendAll] | unfold resendAll
  try dsimp only
  repeat' first
    | (simp (maxDischargeDepth := 60) (contextual := true) [h]; done)
    | (split <;> (try simp only [Prod.ext_iff, opt_eq s0] at *) <;> (try casesm* _ ∧ _) <;> (try subst_vars) <;> (try dsimp only))

@[simp] theorem kept_sessResume {s0 s : State} (a1) (h : Kept s0 s) : Kept s0 (sessResume a1 s) := by
  unfold sessResume
  simp (maxDischargeDepth := 60) [h]

@[simp] theorem kept_sessLinkLost {s0 s : State} (a1) (h : Kept s0 s) : Kept s0 (sessLinkLost a1 s) := by
  unfold sessLinkLost
  simp (maxDischargeDepth := 60) [h]

@[simp] theorem kept_portFall {s0 s : State} (a1) (h : Kept s0 s) : Kept s0 (portFall a1 s) := by
  first | rewrite [portFall] | unfold portFall
  try dsimp only
  repeat' first
    | (simp (maxDischargeDepth := 60) (contextual := true) [h]; done)
    | (split <;> (try simp only [Prod.ext_iff, opt_eq s0] at *) <;> (try casesm* _ ∧ _) <;> (try subst_vars) <;> (try dsimp only))

@[simp] theorem kept_portStop {s0 s : State} (a1) (h : Kept s0 s) : Kept s0 (portStop a1 s) := by
  unfold portStop
  simp (maxDischargeDepth := 60) [h]

@[simp] theorem kept_ethCtrlWrite {s0 s : State} (a1) (a2) (h : Kept s0 s) : Kept s0 (ethCtrlWrite a1 a2 s) := by
  unfold ethCtrlWrite
  simp (maxDischargeDepth := 60) [h]

theorem kept_execEthEnable {s0 s : State} (a1) (a2) (h : Kept s0 s) : Kept s0 (after (execEthEnable a1 a2 s) s0) := by
  unfold execEthEnable
  simp (maxDischargeDepth := 60) [h]

theorem kept_execLinkUp {s0 s : State} (a1) (h : Kept s0 s) : Kept s0 (after (execLinkUp a1 s) s0) := by
  first | rewrite [execLinkUp] | unfold execLinkUp
  try dsimp only
  repeat' first
    | (simp (maxDischargeDepth := 60) (contextual := true) [h]; done)
    | (split <;> (try simp only [Prod.ext_iff, opt_eq s0] at *) <;> (try casesm* _ ∧ _) <;> (try subst_vars) <;> (try dsimp only))

theorem kept_execLinkDown {s0 s : State} (a1) (a2) (a3) (a4) (h : Kept s0 s) : Kept s0 (after (execLinkDown a1 a2 a3 a4 s) s0) := by
  unfold execLinkDown
  simp (maxDischargeDepth := 60) [h]

@[simp] theorem kept_ktpAccepted {s0 s : State} (a1) (a2) (h : Kept s0 s) : Kept s0 (ktpAccepted a1 a2 s) := by
  unfold ktpAccepted
  simp (maxDischargeDepth := 60) [h]

@[simp] theorem kept_ktpDrop {s0 s : State} (a1) (a2) (h : Kept s0 s) : Kept s0 (ktpDrop a1 a2 s) := by
  unfold ktpDrop
  try dsimp only
  repeat' first
    | (simp (maxDischargeDepth := 60) (contextual := true) [h]; done)
    | (split <;> (try simp only [Prod.ext_iff, opt_eq s0] at *) <;> (try casesm* _ ∧ _) <;> (try subst_vars) <;> (try dsimp only))

@[simp] theorem kept_ktpTake {s0 s : State} (p) {g : Nat → State → State} (h : Kept s0 s)
    (hg : ∀ n t, Kept s0 t → Kept s0 (g n t)) : Kept s0 (ktpTake p g s) := by
  rewrite [ktpTake]
  dsimp only
  repeat' first
    | assumption
    | apply hg
    | with_reducible apply kept_ktpAccepted
    | with_reducible apply kept_ktpDrop
    | with_reducible apply kept_portDrop
    | with_reducible apply kept_frameIn
    | split


theorem kept_execPacketDiscard {s0 s : State} (a1) (h : Kept s0 s) : Kept s0 (after (execPacketDiscard a1 s) s0) := by
  first | rewrite [execPacketDiscard] | unfold execPacketDiscard
  try dsimp only
  repeat' first
    | (simp (maxDischargeDepth := 60) (contextual := true) [h]; done)
    | (split <;> (try simp only [Prod.ext_iff, opt_eq s0] at *) <;> (try casesm* _ ∧ _) <;> (try subst_vars) <;> (try dsimp only))

@[simp] theorem kept_crxPut {s0 s : State} (a1) (a2) (a3) (a4) (a5) (h : Kept s0 s) : Kept s0 (crxPut a1 a2 a3 a4 a5 s) := by
  unfold crxPut
  simp (maxDischargeDepth := 60) [h]

theorem kept_execHello {s0 s : State} (a1) (a2) (h : Kept s0 s) : Kept s0 (after (execHello a1 a2 s) s0) := by
  first | rewrite [execHello] | unfold execHello
  try dsimp only
  repeat' first
    | (simp (maxDischargeDepth := 60) (contextual := true) [h]; done)
    | (split <;> (try simp only [Prod.ext_iff, opt_eq s0] at *) <;> (try casesm* _ ∧ _) <;> (try subst_vars) <;> (try dsimp only))

@[simp] theorem kept_sendAcks {s0 s : State} (a1) (h : Kept s0 s) : Kept s0 (sendAcks a1 s) := by
  first | rewrite [sendAcks] | unfold sendAcks
  try dsimp only
  repeat' first
    | (simp (maxDischargeDepth := 60) (contextual := true) [h]; done)
    | (split <;> (try simp only [Prod.ext_iff, opt_eq s0] at *) <;> (try casesm* _ ∧ _) <;> (try subst_vars) <;> (try dsimp only))

@[simp] theorem kept_ctrlAccept {s0 s : State} (a1) (a2) (h : Kept s0 s) : Kept s0 (ctrlAccept a1 a2 s) := by
  unfold ctrlAccept
  simp (maxDischargeDepth := 60) [h]

@[simp] theorem kept_ctrlGrant {s0 s : State} (a1) (a2) (h : Kept s0 s) : Kept s0 (ctrlGrant a1 a2 s) := by
  first | rewrite [ctrlGrant] | unfold ctrlGrant
  try dsimp only
  repeat' first
    | (simp (maxDischargeDepth := 60) (contextual := true) [h]; done)
    | (split <;> (try simp only [Prod.ext_iff, opt_eq s0] at *) <;> (try casesm* _ ∧ _) <;> (try subst_vars) <;> (try dsimp only))

@[simp] theorem kept_kexValues {s0 s : State}  (h : Kept s0 s) : Kept s0 (kexValues s).2 := by
  unfold kexValues
  simp (maxDischargeDepth := 60) [h]

@[simp] theorem kept_ctrlRekey {s0 s : State} (a1) (a2) (h : Kept s0 s) : Kept s0 (ctrlRekey a1 a2 s) := by
  unfold ctrlRekey
  simp (maxDischargeDepth := 60) [h]

@[simp] theorem kept_ctrlDeliver {s0 s : State} (a1) (a2) (a3) (a4) (a5) (h : Kept s0 s) : Kept s0 (ctrlDeliver a1 a2 a3 a4 a5 s) := by
  unfold ctrlDeliver
  simp (maxDischargeDepth := 60) [h]

@[simp] theorem kept_confDeliver {s0 s : State} (a1) (a2) (h : Kept s0 s) : Kept s0 (confDeliver a1 a2 s) := by
  first | rewrite [confDeliver] | unfold confDeliver
  try dsimp only
  repeat' first
    | (simp (maxDischargeDepth := 60) (contextual := true) [h]; done)
    | (split <;> (try simp only [Prod.ext_iff, opt_eq s0] at *) <;> (try casesm* _ ∧ _) <;> (try subst_vars) <;> (try dsimp only))

@[simp] theorem kept_segDeliver {s0 s : State} (a1) (a2) (a3) (a4) (a5) (a6) (h : Kept s0 s) : Kept s0 (segDeliver a1 a2 a3 a4 a5 a6 s) := by
  unfold segDeliver
  simp (maxDischargeDepth := 60) [h]

@[simp] theorem kept_deliverAhead {s0 s : State} (a1) (a2) (a3) (a4) (a5) (a6) (h : Kept s0 s) : Kept s0 (deliverAhead a1 a2 a3 a4 a5 a6 s) := by
  induction a1 generalizing s with
  | zero => rw [deliverAhead]; exact h
  | succ n ih =>
    rewrite [deliverAhead]
    try dsimp only
    repeat' first
      | with_reducible assumption
      | with_reducible intro t
      | with_reducible apply kept_State_raise
      | with_reducible apply kept_State_modStream
      | with_reducible apply kept_segDeliver
      | with_reducible exact Kept.rfl' _
      | with_reducible apply ih
      | simp only [kept_mk_iff]
      | (split <;> (try simp only [Prod.ext_iff, opt_eq s0] at *) <;> (try casesm* _ ∧ _) <;> (try subst_vars) <;> (try dsimp only))

@[simp] theorem kept_dataIn {s0 s : State} (a1) (a2) (a3) (h : Kept s0 s) : Kept s0 (dataIn a1 a2 a3 s) := by
  unfold dataIn
  simp (maxDischargeDepth := 60) [h]

@[simp] theorem kept_ktpData {s0 s : State} (a1) (a2) (h : Kept s0 s) : Kept s0 (ktpData a1 a2 s) := by
  first | rewrite [ktpData] | unfold ktpData
  try dsimp only
  repeat' first
    | (simp (maxDischargeDepth := 60) (contextual := true) [h]; done)
    | (split <;> (try simp only [Prod.ext_iff, opt_eq s0] at *) <;> (try casesm* _ ∧ _) <;> (try subst_vars) <;> (try dsimp only))

@[simp] theorem kept_ctrlRow {s0 s : State} (a1) (a2) (a3) (h : Kept s0 s) : Kept s0 (ctrlRow a1 a2 a3 s) := by
  unfold ctrlRow
  simp (maxDischargeDepth := 60) [h]

theorem kept_execData {s0 s : State} (a1) (a2) (h : Kept s0 s) : Kept s0 (after (execData a1 a2 s) s0) := by
  unfold execData
  simp (maxDischargeDepth := 60) [h]

theorem kept_execAccept {s0 s : State} (a1) (h : Kept s0 s) : Kept s0 (after (execAccept a1 s) s0) := by
  unfold execAccept
  simp (maxDischargeDepth := 60) [h]

theorem kept_execGrant {s0 s : State} (a1) (h : Kept s0 s) : Kept s0 (after (execGrant a1 s) s0) := by
  unfold execGrant
  simp (maxDischargeDepth := 60) [h]

theorem kept_execRekey {s0 s : State} (a1) (h : Kept s0 s) : Kept s0 (after (execRekey a1 s) s0) := by
  unfold execRekey
  simp (maxDischargeDepth := 60) [h]

theorem kept_execClose {s0 s : State} (a1) (a2) (h : Kept s0 s) : Kept s0 (after (execClose a1 a2 s) s0) := by
  unfold execClose
  simp (maxDischargeDepth := 60) [h]

theorem kept_execKeepalive {s0 s : State} (a1) (h : Kept s0 s) : Kept s0 (after (execKeepalive a1 s) s0) := by
  unfold execKeepalive
  simp (maxDischargeDepth := 60) [h]

theorem kept_execUserControlMessage {s0 s : State} (a1) (a2) (h : Kept s0 s) : Kept s0 (after (execUserControlMessage a1 a2 s) s0) := by
  unfold execUserControlMessage
  simp (maxDischargeDepth := 60) [h]

@[simp] theorem kept_ackIn {s0 s : State} (a1) (a2) (a3) (h : Kept s0 s) : Kept s0 (ackIn a1 a2 a3 s) := by
  first | rewrite [ackIn] | unfold ackIn
  try dsimp only
  repeat' first
    | (simp (maxDischargeDepth := 60) (contextual := true) [h]; done)
    | (split <;> (try simp only [Prod.ext_iff, opt_eq s0] at *) <;> (try casesm* _ ∧ _) <;> (try subst_vars) <;> (try dsimp only))

theorem kept_execAck {s0 s : State} (a1) (h : Kept s0 s) : Kept s0 (after (execAck a1 s) s0) := by
  first | rewrite [execAck] | unfold execAck
  try dsimp only
  repeat' first
    | (simp (maxDischargeDepth := 60) (contextual := true) [h]; done)
    | (split <;> (try simp only [Prod.ext_iff, opt_eq s0] at *) <;> (try casesm* _ ∧ _) <;> (try subst_vars) <;> (try dsimp only))

theorem kept_execRetransmitTimeout {s0 s : State} (a1) (a2) (a3) (h : Kept s0 s) : Kept s0 (after (execRetransmitTimeout a1 a2 a3 s) s0) := by
  first | rewrite [execRetransmitTimeout] | unfold execRetransmitTimeout
  try dsimp only
  repeat' first
    | (simp (maxDischargeDepth := 60) (contextual := true) [h]; done)
    | (split <;> (try simp only [Prod.ext_iff, opt_eq s0] at *) <;> (try casesm* _ ∧ _) <;> (try subst_vars) <;> (try dsimp only))

theorem kept_execAckDelay {s0 s : State} (a1) (h : Kept s0 s) : Kept s0 (after (execAckDelay a1 s) s0) := by
  unfold execAckDelay
  simp (maxDischargeDepth := 60) [h]

theorem kept_execKeepaliveTimer {s0 s : State} (a1) (h : Kept s0 s) : Kept s0 (after (execKeepaliveTimer a1 s) s0) := by
  unfold execKeepaliveTimer
  simp (maxDischargeDepth := 60) [h]

theorem kept_execOpeningTimeout {s0 s : State} (a1) (h : Kept s0 s) : Kept s0 (after (execOpeningTimeout a1 s) s0) := by
  unfold execOpeningTimeout
  simp (maxDischargeDepth := 60) [h]

theorem kept_execHoldTimeout {s0 s : State} (a1) (h : Kept s0 s) : Kept s0 (after (execHoldTimeout a1 s) s0) := by
  unfold execHoldTimeout
  simp (maxDischargeDepth := 60) [h]

@[simp] theorem kept_sessCtrlWrite {s0 s : State} (a1) (a2) (h : Kept s0 s) : Kept s0 (sessCtrlWrite a1 a2 s) := by
  unfold sessCtrlWrite
  simp (maxDischargeDepth := 60) [h]

theorem kept_execSessionCloseWrite {s0 s : State} (a1) (a2) (h : Kept s0 s) : Kept s0 (after (execSessionCloseWrite a1 a2 s) s0) := by
  unfold execSessionCloseWrite
  simp (maxDischargeDepth := 60) [h]

@[simp] theorem kept_ctxSend {s0 s : State} (a1) (h : Kept s0 s) : Kept s0 (ctxSend a1 s) := by
  unfold ctxSend
  simp (maxDischargeDepth := 60) [h]

theorem kept_execControlRingSend {s0 s : State} (a1) (h : Kept s0 s) : Kept s0 (after (execControlRingSend a1 s) s0) := by
  first | rewrite [execControlRingSend] | unfold execControlRingSend
  try dsimp only
  repeat' first
    | (simp (maxDischargeDepth := 60) (contextual := true) [h]; done)
    | (split <;> (try simp only [Prod.ext_iff, opt_eq s0] at *) <;> (try casesm* _ ∧ _) <;> (try subst_vars) <;> (try dsimp only))

@[simp] theorem kept_chunkMove {s0 s : State} (a1) (a2) (h : Kept s0 s) : Kept s0 (chunkMove a1 a2 s) := by
  first | rewrite [chunkMove] | unfold chunkMove
  try dsimp only
  repeat' first
    | with_reducible assumption
    | with_reducible intro t
    | with_reducible refine kept_State_when ?_ (fun t ht => ?_)
    | with_reducible apply kept_State_raise
    | with_reducible apply kept_State_bumpHold
    | with_reducible apply kept_State_setKtp
    | with_reducible exact Kept.rfl' _
    | with_reducible exact kept_ldgChunk (by with_reducible assumption) (by with_reducible assumption)
    | simp only [kept_mk_iff]
    | (split <;> (try simp only [Prod.ext_iff, opt_eq s0] at *) <;> (try casesm* _ ∧ _) <;> (try subst_vars) <;> (try dsimp only))

@[simp] theorem kept_handSend {s0 s : State}  (h : Kept s0 s) : Kept s0 (handSend s) := by
  first | rewrite [handSend] | unfold handSend
  try dsimp only
  repeat' first
    | (simp (maxDischargeDepth := 60) (contextual := true) [h]; done)
    | (split <;> (try simp only [Prod.ext_iff, opt_eq s0] at *) <;> (try casesm* _ ∧ _) <;> (try subst_vars) <;> (try dsimp only))

theorem kept_execChunkSend {s0 s : State} (a1) (a2) (h : Kept s0 s) : Kept s0 (after (execChunkSend a1 a2 s) s0) := by
  unfold execChunkSend
  simp (maxDischargeDepth := 60) [h]

theorem kept_execChunkTake {s0 s : State} (a1) (a2) (h : Kept s0 s) : Kept s0 (after (execChunkTake a1 a2 s) s0) := by
  unfold execChunkTake
  simp (maxDischargeDepth := 60) [h]

@[simp] theorem kept_ktpCtrlWrite {s0 s : State} (a1) (h : Kept s0 s) : Kept s0 (ktpCtrlWrite a1 s) := by
  unfold ktpCtrlWrite
  simp (maxDischargeDepth := 60) [h]

theorem kept_execKtpEnable {s0 s : State} (a1) (h : Kept s0 s) : Kept s0 (after (execKtpEnable a1 s) s0) := by
  unfold execKtpEnable
  simp (maxDischargeDepth := 60) [h]

@[simp] theorem kept_ethWrite {s0 s : State} (a1) (a2) (a3) (h : Kept s0 s) : Kept s0 ((ethWrite s a1 a2 a3).getD s0) := by
  first | rewrite [ethWrite] | unfold ethWrite
  try dsimp only
  repeat' first
    | (simp (maxDischargeDepth := 60) (contextual := true) [h]; done)
    | (split <;> (try simp only [Prod.ext_iff, opt_eq s0] at *) <;> (try casesm* _ ∧ _) <;> (try subst_vars) <;> (try dsimp only))

@[simp] theorem kept_ktpWrite {s0 s : State} (a1) (a2) (a3) (h : Kept s0 s) : Kept s0 ((ktpWrite s a1 a2 a3).getD s0) := by
  first | rewrite [ktpWrite] | unfold ktpWrite
  try dsimp only
  repeat' first
    | (simp (maxDischargeDepth := 60) (contextual := true) [h]; done)
    | (split <;> (try simp only [Prod.ext_iff, opt_eq s0] at *) <;> (try casesm* _ ∧ _) <;> (try subst_vars) <;> (try dsimp only))

@[simp] theorem kept_State_setLane {s0 s : State} (a1) (a2) (h : Kept s0 s) : Kept s0 (State.setLane s a1 a2) := by
  unfold State.setLane
  simp (maxDischargeDepth := 60) [h]

@[simp] theorem kept_State_modLane {s0 s : State} (a1) (a2) (h : Kept s0 s) : Kept s0 (State.modLane s a1 a2) := by
  unfold State.modLane
  simp (maxDischargeDepth := 60) [h]

@[simp] theorem kept_laneLatCheck {s0 s : State} (a1) (h : Kept s0 s) : Kept s0 (laneLatCheck a1 s) := by
  first | rewrite [laneLatCheck] | unfold laneLatCheck
  try dsimp only
  repeat' first
    | (simp (maxDischargeDepth := 60) (contextual := true) [h]; done)
    | (split <;> (try simp only [Prod.ext_iff, opt_eq s0] at *) <;> (try casesm* _ ∧ _) <;> (try subst_vars) <;> (try dsimp only))

@[simp] theorem kept_laneUngroup {s0 s : State} (a1) (h : Kept s0 s) : Kept s0 (laneUngroup a1 s) := by
  first | rewrite [laneUngroup] | unfold laneUngroup
  try dsimp only
  repeat' first
    | (simp (maxDischargeDepth := 60) (contextual := true) [h]; done)
    | (split <;> (try simp only [Prod.ext_iff, opt_eq s0] at *) <;> (try casesm* _ ∧ _) <;> (try subst_vars) <;> (try dsimp only))

@[simp] theorem kept_laneGroupAlign {s0 s : State} (a1) (h : Kept s0 s) : Kept s0 (laneGroupAlign a1 s) := by
  first | rewrite [laneGroupAlign] | unfold laneGroupAlign
  try dsimp only
  repeat' first
    | (simp (maxDischargeDepth := 60) (contextual := true) [h]; done)
    | (split <;> (try simp only [Prod.ext_iff, opt_eq s0] at *) <;> (try casesm* _ ∧ _) <;> (try subst_vars) <;> (try dsimp only))

@[simp] theorem kept_laneUnlock {s0 s : State} (a1) (a2) (h : Kept s0 s) : Kept s0 (laneUnlock a1 a2 s) := by
  first | rewrite [laneUnlock] | unfold laneUnlock
  try dsimp only
  repeat' first
    | (simp (maxDischargeDepth := 60) (contextual := true) [h]; done)
    | (split <;> (try simp only [Prod.ext_iff, opt_eq s0] at *) <;> (try casesm* _ ∧ _) <;> (try subst_vars) <;> (try dsimp only))

@[simp] theorem kept_laneCdrLoss {s0 s : State} (a1) (h : Kept s0 s) : Kept s0 (laneCdrLoss a1 s) := by
  first | rewrite [laneCdrLoss] | unfold laneCdrLoss
  try dsimp only
  repeat' first
    | (simp (maxDischargeDepth := 60) (contextual := true) [h]; done)
    | (split <;> (try simp only [Prod.ext_iff, opt_eq s0] at *) <;> (try casesm* _ ∧ _) <;> (try subst_vars) <;> (try dsimp only))

@[simp] theorem kept_laneTrain {s0 s : State} (a1) (h : Kept s0 s) : Kept s0 (laneTrain a1 s) := by
  unfold laneTrain
  simp (maxDischargeDepth := 60) [h]

@[simp] theorem kept_laneLock {s0 s : State} (a1) (h : Kept s0 s) : Kept s0 (laneLock a1 s) := by
  first | rewrite [laneLock] | unfold laneLock
  try dsimp only
  repeat' first
    | (simp (maxDischargeDepth := 60) (contextual := true) [h]; done)
    | (split <;> (try simp only [Prod.ext_iff, opt_eq s0] at *) <;> (try casesm* _ ∧ _) <;> (try subst_vars) <;> (try dsimp only))

@[simp] theorem kept_lanePresent {s0 s : State} (a1) (a2) (h : Kept s0 s) : Kept s0 (lanePresent a1 a2 s) := by
  unfold lanePresent
  simp (maxDischargeDepth := 60) [h]

@[simp] theorem kept_laneDeliver {s0 s : State} (a1) (a2) (a3) (h : Kept s0 s) : Kept s0 (laneDeliver a1 a2 a3 s) := by
  unfold laneDeliver
  simp (maxDischargeDepth := 60) [h]

@[simp] theorem kept_laneSkip {s0 s : State} (a1) (h : Kept s0 s) : Kept s0 (laneSkip a1 s) := by
  unfold laneSkip
  simp (maxDischargeDepth := 60) [h]

@[simp] theorem kept_laneTrainingBlock {s0 s : State} (a1) (a2) (a3) (a4) (h : Kept s0 s) : Kept s0 (laneTrainingBlock a1 a2 a3 a4 s) := by
  unfold laneTrainingBlock
  simp (maxDischargeDepth := 60) [h]

@[simp] theorem kept_laneMarker {s0 s : State} (a1) (a2) (h : Kept s0 s) : Kept s0 (laneMarker a1 a2 s) := by
  unfold laneMarker
  simp (maxDischargeDepth := 60) [h]

@[simp] theorem kept_laneMarkerBlock {s0 s : State} (a1) (a2) (a3) (h : Kept s0 s) : Kept s0 (laneMarkerBlock a1 a2 a3 s) := by
  unfold laneMarkerBlock
  simp (maxDischargeDepth := 60) [h]

@[simp] theorem kept_laneHeader {s0 s : State} (a1) (a2) (h : Kept s0 s) : Kept s0 (laneHeader a1 a2 s) := by
  first | rewrite [laneHeader] | unfold laneHeader
  try dsimp only
  repeat' first
    | (simp (maxDischargeDepth := 60) (contextual := true) [h]; done)
    | (split <;> (try simp only [Prod.ext_iff, opt_eq s0] at *) <;> (try casesm* _ ∧ _) <;> (try subst_vars) <;> (try dsimp only))

@[simp] theorem kept_laneBlock {s0 s : State} (a1) (a2) (a3) (a4) (a5) (a6) (h : Kept s0 s) : Kept s0 (laneBlock a1 a2 a3 a4 a5 a6 s) := by
  unfold laneBlock
  simp (maxDischargeDepth := 60) [h]

@[simp] theorem kept_laneSymbols {s0 s : State} (a1) (a2) (a3) (a4) (h : Kept s0 s) : Kept s0 (laneSymbols a1 a2 a3 a4 s) := by
  first | rewrite [laneSymbols] | unfold laneSymbols
  try dsimp only
  repeat' first
    | with_reducible assumption
    | with_reducible intro t
    | with_reducible refine kept_State_when ?_ (fun t ht => ?_)
    | with_reducible apply kept_State_bumpHold
    | with_reducible apply kept_State_modLane
    | with_reducible apply kept_laneUnlock
    | with_reducible apply kept_laneLock
    | with_reducible apply kept_laneDeliver
    | with_reducible apply kept_laneMarker
    | with_reducible exact Kept.rfl' _
    | simp only [kept_mk_iff]
    | (split <;> (try simp only [Prod.ext_iff, opt_eq s0] at *) <;> (try casesm* _ ∧ _) <;> (try subst_vars) <;> (try dsimp only))

@[simp] theorem kept_laneWord8b {s0 s : State} (a1) (a2) (h : Kept s0 s) : Kept s0 (laneWord8b a1 a2 s) := by
  first | rewrite [laneWord8b] | unfold laneWord8b
  try dsimp only
  repeat' first
    | (simp (maxDischargeDepth := 60) (contextual := true) [h]; done)
    | (split <;> (try simp only [Prod.ext_iff, opt_eq s0] at *) <;> (try casesm* _ ∧ _) <;> (try subst_vars) <;> (try dsimp only))

@[simp] theorem kept_lanePrbs {s0 s : State} (a1) (a2) (h : Kept s0 s) : Kept s0 (lanePrbs a1 a2 s) := by
  unfold lanePrbs
  simp (maxDischargeDepth := 60) [h]

@[simp] theorem kept_laneWord {s0 s : State} (a1) (a2) (h : Kept s0 s) : Kept s0 (laneWord a1 a2 s) := by
  unfold laneWord
  simp (maxDischargeDepth := 60) [h]

@[simp] theorem kept_laneReceive {s0 s : State} (a1) (a2) (h : Kept s0 s) : Kept s0 (laneReceive a1 a2 s) := by
  first | rewrite [laneReceive] | unfold laneReceive
  try dsimp only
  repeat' first
    | with_reducible assumption
    | with_reducible intro t
    | with_reducible apply kept_State_modLane
    | with_reducible apply kept_laneWord
    | with_reducible exact Kept.rfl' _
    | simp only [kept_mk_iff]
    | (split <;> (try simp only [Prod.ext_iff, opt_eq s0] at *) <;> (try casesm* _ ∧ _) <;> (try subst_vars) <;> (try dsimp only))

theorem kept_execLaneWordReceived {s0 s : State} (a1) (a2) (h : Kept s0 s) : Kept s0 (after (execLaneWordReceived a1 a2 s) s0) := by
  unfold execLaneWordReceived
  simp (maxDischargeDepth := 60) [h]

@[simp] theorem kept_laneDescr {s0 s : State} (a1) (a2) (h : Kept s0 s) : Kept s0 (laneDescr a1 a2 s) := by
  unfold laneDescr
  simp (maxDischargeDepth := 60) [h]

theorem kept_execTrainingBlockReceived {s0 s : State} (a1) (a2) (a3) (a4) (h : Kept s0 s) : Kept s0 (after (execTrainingBlockReceived a1 a2 a3 a4 s) s0) := by
  unfold execTrainingBlockReceived
  simp (maxDischargeDepth := 60) [h]

theorem kept_execAlignmentMarkerReceived {s0 s : State} (a1) (a2) (a3) (h : Kept s0 s) : Kept s0 (after (execAlignmentMarkerReceived a1 a2 a3 s) s0) := by
  unfold execAlignmentMarkerReceived
  simp (maxDischargeDepth := 60) [h]

@[simp] theorem kept_State_putTaps {s0 s : State} (a1) (a2) (h : Kept s0 s) : Kept s0 (State.putTaps s a1 a2) := by
  unfold State.putTaps
  simp (maxDischargeDepth := 60) [h]

theorem kept_execTapRequestApply {s0 s : State} (a1) (h : Kept s0 s) : Kept s0 (after (execTapRequestApply a1 s) s0) := by
  first | rewrite [execTapRequestApply] | unfold execTapRequestApply
  try dsimp only
  repeat' first
    | (simp (maxDischargeDepth := 60) (contextual := true) [h]; done)
    | (split <;> (try simp only [Prod.ext_iff, opt_eq s0] at *) <;> (try casesm* _ ∧ _) <;> (try subst_vars) <;> (try dsimp only))

@[simp] theorem kept_laneTransmit {s0 s : State} (a1) (a2) (a3) (h : Kept s0 s) : Kept s0 (laneTransmit a1 a2 a3 s) := by
  unfold laneTransmit
  simp (maxDischargeDepth := 60) [h]

theorem kept_execLaneWordTransmit {s0 s : State} (a1) (a2) (a3) (h : Kept s0 s) : Kept s0 (after (execLaneWordTransmit a1 a2 a3 s) s0) := by
  unfold execLaneWordTransmit
  simp (maxDischargeDepth := 60) [h]

@[simp] theorem kept_laneRetrain {s0 s : State} (a1) (h : Kept s0 s) : Kept s0 (laneRetrain a1 s) := by
  first | rewrite [laneRetrain] | unfold laneRetrain
  try dsimp only
  repeat' first
    | (simp (maxDischargeDepth := 60) (contextual := true) [h]; done)
    | (split <;> (try simp only [Prod.ext_iff, opt_eq s0] at *) <;> (try casesm* _ ∧ _) <;> (try subst_vars) <;> (try dsimp only))

theorem kept_execRetrain {s0 s : State} (a1) (h : Kept s0 s) : Kept s0 (after (execRetrain a1 s) s0) := by
  unfold execRetrain
  simp (maxDischargeDepth := 60) [h]

theorem kept_execTrainingComplete {s0 s : State} (a1) (h : Kept s0 s) : Kept s0 (after (execTrainingComplete a1 s) s0) := by
  unfold execTrainingComplete
  simp (maxDischargeDepth := 60) [h]

@[simp] theorem kept_laneFallback {s0 s : State} (a1) (h : Kept s0 s) : Kept s0 (laneFallback a1 s) := by
  unfold laneFallback
  simp (maxDischargeDepth := 60) [h]

theorem kept_execTrainingResponseTimeout {s0 s : State} (a1) (a2) (h : Kept s0 s) : Kept s0 (after (execTrainingResponseTimeout a1 a2 s) s0) := by
  unfold execTrainingResponseTimeout
  simp (maxDischargeDepth := 60) [h]

@[simp] theorem kept_laneBitslip {s0 s : State} (a1) (h : Kept s0 s) : Kept s0 (laneBitslip a1 s) := by
  unfold laneBitslip
  simp (maxDischargeDepth := 60) [h]

theorem kept_execBitslip {s0 s : State} (a1) (h : Kept s0 s) : Kept s0 (after (execBitslip a1 s) s0) := by
  unfold execBitslip
  simp (maxDischargeDepth := 60) [h]

@[simp] theorem kept_laneOffset {s0 s : State} (a1) (h : Kept s0 s) : Kept s0 (laneOffset a1 s) := by
  unfold laneOffset
  simp (maxDischargeDepth := 60) [h]

theorem kept_execBitslipDone {s0 s : State} (a1) (h : Kept s0 s) : Kept s0 (after (execBitslipDone a1 s) s0) := by
  unfold execBitslipDone
  simp (maxDischargeDepth := 60) [h]

@[simp] theorem kept_laneRebind {s0 s : State} (a1) (a2) (h : Kept s0 s) : Kept s0 (laneRebind a1 a2 s) := by
  unfold laneRebind
  simp (maxDischargeDepth := 60) [h]

@[simp] theorem kept_laneBind {s0 s : State} (a1) (a2) (h : Kept s0 s) : Kept s0 (laneBind a1 a2 s) := by
  unfold laneBind
  simp (maxDischargeDepth := 60) [h]

theorem kept_execLaneBindingChange {s0 s : State} (a1) (a2) (h : Kept s0 s) : Kept s0 (after (execLaneBindingChange a1 a2 s) s0) := by
  unfold execLaneBindingChange
  simp (maxDischargeDepth := 60) [h]

theorem kept_execPrbsLock {s0 s : State} (a1) (h : Kept s0 s) : Kept s0 (after (execPrbsLock a1 s) s0) := by
  first | rewrite [execPrbsLock] | unfold execPrbsLock
  try dsimp only
  repeat' first
    | (simp (maxDischargeDepth := 60) (contextual := true) [h]; done)
    | (split <;> (try simp only [Prod.ext_iff, opt_eq s0] at *) <;> (try casesm* _ ∧ _) <;> (try subst_vars) <;> (try dsimp only))

@[simp] theorem kept_lanePrbsDrop {s0 s : State} (a1) (h : Kept s0 s) : Kept s0 (lanePrbsDrop a1 s) := by
  unfold lanePrbsDrop
  simp (maxDischargeDepth := 60) [h]

theorem kept_execPrbsLost {s0 s : State} (a1) (h : Kept s0 s) : Kept s0 (after (execPrbsLost a1 s) s0) := by
  unfold execPrbsLost
  simp (maxDischargeDepth := 60) [h]

@[simp] theorem kept_laneSnap {s0 s : State} (a1) (h : Kept s0 s) : Kept s0 (laneSnap a1 s) := by
  unfold laneSnap
  simp (maxDischargeDepth := 60) [h]

@[simp] theorem kept_laneClr {s0 s : State} (a1) (h : Kept s0 s) : Kept s0 (laneClr a1 s) := by
  unfold laneClr
  simp (maxDischargeDepth := 60) [h]

@[simp] theorem kept_laneInject {s0 s : State} (a1) (h : Kept s0 s) : Kept s0 (laneInject a1 s) := by
  unfold laneInject
  simp (maxDischargeDepth := 60) [h]

@[simp] theorem kept_laneAction {s0 s : State} (n) {g : State → State} (h : Kept s0 s)
    (hg : ∀ t, Kept s0 t → Kept s0 (g t)) : Kept s0 (laneAction n g s) := by
  unfold laneAction; simp (maxDischargeDepth := 60) [*]


theorem kept_execSnap {s0 s : State} (a1) (h : Kept s0 s) : Kept s0 (after (execSnap a1 s) s0) := by
  first | rewrite [execSnap] | unfold execSnap
  try dsimp only
  repeat' first
    | (simp (maxDischargeDepth := 60) (contextual := true) [h]; done)
    | (split <;> (try simp only [Prod.ext_iff, opt_eq s0] at *) <;> (try casesm* _ ∧ _) <;> (try subst_vars) <;> (try dsimp only))

theorem kept_execClr {s0 s : State} (a1) (h : Kept s0 s) : Kept s0 (after (execClr a1 s) s0) := by
  first | rewrite [execClr] | unfold execClr
  try dsimp only
  repeat' first
    | (simp (maxDischargeDepth := 60) (contextual := true) [h]; done)
    | (split <;> (try simp only [Prod.ext_iff, opt_eq s0] at *) <;> (try casesm* _ ∧ _) <;> (try subst_vars) <;> (try dsimp only))

theorem kept_execInject {s0 s : State} (a1) (h : Kept s0 s) : Kept s0 (after (execInject a1 s) s0) := by
  first | rewrite [execInject] | unfold execInject
  try dsimp only
  repeat' first
    | (simp (maxDischargeDepth := 60) (contextual := true) [h]; done)
    | (split <;> (try simp only [Prod.ext_iff, opt_eq s0] at *) <;> (try casesm* _ ∧ _) <;> (try subst_vars) <;> (try dsimp only))

@[simp] theorem kept_prbsSeed {s0 s : State} (a1) (a2) (h : Kept s0 s) : Kept s0 (prbsSeed a1 a2 s) := by
  unfold prbsSeed
  simp (maxDischargeDepth := 60) [h]

@[simp] theorem kept_lanePrbsWrite {s0 s : State} (a1) (a2) (h : Kept s0 s) : Kept s0 (lanePrbsWrite a1 a2 s) := by
  first | rewrite [lanePrbsWrite] | unfold lanePrbsWrite
  try dsimp only
  repeat' first
    | (simp (maxDischargeDepth := 60) (contextual := true) [h]; done)
    | (split <;> (try simp only [Prod.ext_iff, opt_eq s0] at *) <;> (try casesm* _ ∧ _) <;> (try subst_vars) <;> (try dsimp only))

theorem kept_execQuadPllLock {s0 s : State} (a1) (a2) (h : Kept s0 s) : Kept s0 (after (execQuadPllLock a1 a2 s) s0) := by
  first | rewrite [execQuadPllLock] | unfold execQuadPllLock
  try dsimp only
  repeat' first
    | (simp (maxDischargeDepth := 60) (contextual := true) [h]; done)
    | (split <;> (try simp only [Prod.ext_iff, opt_eq s0] at *) <;> (try casesm* _ ∧ _) <;> (try subst_vars) <;> (try dsimp only))

@[simp] theorem kept_quadUnlock {s0 s : State} (a1) (h : Kept s0 s) : Kept s0 (quadUnlock a1 s) := by
  first | rewrite [quadUnlock] | unfold quadUnlock
  try dsimp only
  repeat' first
    | (simp (maxDischargeDepth := 60) (contextual := true) [h]; done)
    | (split <;> (try simp only [Prod.ext_iff, opt_eq s0] at *) <;> (try casesm* _ ∧ _) <;> (try subst_vars) <;> (try dsimp only))

@[simp] theorem kept_quadSettle {s0 s : State} (a1) (h : Kept s0 s) : Kept s0 (quadSettle a1 s) := by
  first | rewrite [quadSettle] | unfold quadSettle
  try dsimp only
  repeat' first
    | (simp (maxDischargeDepth := 60) (contextual := true) [h]; done)
    | (split <;> (try simp only [Prod.ext_iff, opt_eq s0] at *) <;> (try casesm* _ ∧ _) <;> (try subst_vars) <;> (try dsimp only))

theorem kept_execQuadPllUnlock {s0 s : State} (a1) (a2) (h : Kept s0 s) : Kept s0 (after (execQuadPllUnlock a1 a2 s) s0) := by
  first | rewrite [execQuadPllUnlock] | unfold execQuadPllUnlock
  try dsimp only
  repeat' first
    | (simp (maxDischargeDepth := 60) (contextual := true) [h]; done)
    | (split <;> (try simp only [Prod.ext_iff, opt_eq s0] at *) <;> (try casesm* _ ∧ _) <;> (try subst_vars) <;> (try dsimp only))

theorem kept_execCdrLock {s0 s : State} (a1) (h : Kept s0 s) : Kept s0 (after (execCdrLock a1 s) s0) := by
  unfold execCdrLock
  simp (maxDischargeDepth := 60) [h]

theorem kept_execCdrLoss {s0 s : State} (a1) (a2) (h : Kept s0 s) : Kept s0 (after (execCdrLoss a1 a2 s) s0) := by
  first | rewrite [execCdrLoss] | unfold execCdrLoss
  try dsimp only
  repeat' first
    | (simp (maxDischargeDepth := 60) (contextual := true) [h]; done)
    | (split <;> (try simp only [Prod.ext_iff, opt_eq s0] at *) <;> (try casesm* _ ∧ _) <;> (try subst_vars) <;> (try dsimp only))

@[simp] theorem kept_lanePstateBegin {s0 s : State} (a1) (a2) (h : Kept s0 s) : Kept s0 (lanePstateBegin a1 a2 s) := by
  unfold lanePstateBegin
  simp (maxDischargeDepth := 60) [h]

@[simp] theorem kept_lanePstate {s0 s : State} (a1) (a2) (h : Kept s0 s) : Kept s0 (lanePstate a1 a2 s) := by
  unfold lanePstate
  simp (maxDischargeDepth := 60) [h]

theorem kept_execPstateDone {s0 s : State} (a1) (h : Kept s0 s) : Kept s0 (after (execPstateDone a1 s) s0) := by
  first | rewrite [execPstateDone] | unfold execPstateDone
  try dsimp only
  repeat' first
    | (simp (maxDischargeDepth := 60) (contextual := true) [h]; done)
    | (split <;> (try simp only [Prod.ext_iff, opt_eq s0] at *) <;> (try casesm* _ ∧ _) <;> (try subst_vars) <;> (try dsimp only))

@[simp] theorem kept_laneStart {s0 s : State} (a1) (h : Kept s0 s) : Kept s0 (laneStart a1 s) := by
  unfold laneStart
  simp (maxDischargeDepth := 60) [h]

@[simp] theorem kept_laneStop {s0 s : State} (a1) (h : Kept s0 s) : Kept s0 (laneStop a1 s) := by
  unfold laneStop
  simp (maxDischargeDepth := 60) [h]

@[simp] theorem kept_laneCtrlWrite {s0 s : State} (a1) (a2) (h : Kept s0 s) : Kept s0 (laneCtrlWrite a1 a2 s) := by
  first | rewrite [laneCtrlWrite] | unfold laneCtrlWrite
  try dsimp only
  repeat' first
    | (simp (maxDischargeDepth := 60) (contextual := true) [h]; done)
    | (split <;> (try simp only [Prod.ext_iff, opt_eq s0] at *) <;> (try casesm* _ ∧ _) <;> (try subst_vars) <;> (try dsimp only))

theorem kept_execLaneEnable {s0 s : State} (a1) (a2) (h : Kept s0 s) : Kept s0 (after (execLaneEnable a1 a2 s) s0) := by
  unfold execLaneEnable
  simp (maxDischargeDepth := 60) [h]

theorem kept_execPstateRequest {s0 s : State} (a1) (a2) (h : Kept s0 s) : Kept s0 (after (execPstateRequest a1 a2 s) s0) := by
  unfold execPstateRequest
  simp (maxDischargeDepth := 60) [h]

@[simp] theorem kept_quadPllWrite {s0 s : State} (a1) (a2) (h : Kept s0 s) : Kept s0 (quadPllWrite a1 a2 s) := by
  unfold quadPllWrite
  simp (maxDischargeDepth := 60) [h]

@[simp] theorem kept_laneEqWrite {s0 s : State} (a1) (a2) (h : Kept s0 s) : Kept s0 (laneEqWrite a1 a2 s) := by
  first | rewrite [laneEqWrite] | unfold laneEqWrite
  try dsimp only
  repeat' first
    | (simp (maxDischargeDepth := 60) (contextual := true) [h]; done)
    | (split <;> (try simp only [Prod.ext_iff, opt_eq s0] at *) <;> (try casesm* _ ∧ _) <;> (try subst_vars) <;> (try dsimp only))

@[simp] theorem kept_lneWrite {s0 s : State} (a1) (a2) (a3) (h : Kept s0 s) : Kept s0 ((lneWrite s a1 a2 a3).getD s0) := by
  first | rewrite [lneWrite] | unfold lneWrite
  try dsimp only
  repeat' first
    | (simp (maxDischargeDepth := 60) (contextual := true) [h]; done)
    | (split <;> (try simp only [Prod.ext_iff, opt_eq s0] at *) <;> (try casesm* _ ∧ _) <;> (try subst_vars) <;> (try dsimp only))

@[simp] theorem kept_State_setSynth {s0 s : State} (a1) (a2) (h : Kept s0 s) : Kept s0 (State.setSynth s a1 a2) := by
  unfold State.setSynth
  simp (maxDischargeDepth := 60) [h]

@[simp] theorem kept_synRamping {s0 s : State} (a1) (h : Kept s0 s) : Kept s0 (synRamping a1 s) := by
  unfold synRamping
  simp (maxDischargeDepth := 60) [h]

@[simp] theorem kept_synRestart {s0 s : State} (a1) (h : Kept s0 s) : Kept s0 (synRestart a1 s) := by
  unfold synRestart
  simp (maxDischargeDepth := 60) [h]

@[simp] theorem kept_synStop {s0 s : State} (a1) (h : Kept s0 s) : Kept s0 (synStop a1 s) := by
  unfold synStop
  simp (maxDischargeDepth := 60) [h]

@[simp] theorem kept_synRampDown {s0 s : State} (a1) (h : Kept s0 s) : Kept s0 (synRampDown a1 s) := by
  unfold synRampDown
  simp (maxDischargeDepth := 60) [h]

@[simp] theorem kept_synXlock {s0 s : State} (a1) (a2) (h : Kept s0 s) : Kept s0 (synXlock a1 a2 s) := by
  first | rewrite [synXlock] | unfold synXlock
  try dsimp only
  repeat' first
    | (simp (maxDischargeDepth := 60) (contextual := true) [h]; done)
    | (split <;> (try simp only [Prod.ext_iff, opt_eq s0] at *) <;> (try casesm* _ ∧ _) <;> (try subst_vars) <;> (try dsimp only))

@[simp] theorem kept_synBoundary {s0 s : State}  (h : Kept s0 s) : Kept s0 (synBoundary s) := by
  first | rewrite [synBoundary] | unfold synBoundary
  try dsimp only
  repeat' first
    | (simp (maxDischargeDepth := 60) (contextual := true) [h]; done)
    | (split <;> (try simp only [Prod.ext_iff, opt_eq s0] at *) <;> (try casesm* _ ∧ _) <;> (try subst_vars) <;> (try dsimp only))

@[simp] theorem kept_synUnlock {s0 s : State} (a1) (h : Kept s0 s) : Kept s0 (synUnlock a1 s) := by
  unfold synUnlock
  simp (maxDischargeDepth := 60) [h]

@[simp] theorem kept_synToFlint {s0 s : State} (a1) (h : Kept s0 s) : Kept s0 (synToFlint a1 s) := by
  unfold synToFlint
  simp (maxDischargeDepth := 60) [h]

@[simp] theorem kept_synRelock {s0 s : State} (a1) (a2) (h : Kept s0 s) : Kept s0 (synRelock a1 a2 s) := by
  unfold synRelock
  simp (maxDischargeDepth := 60) [h]

@[simp] theorem kept_synTrip {s0 s : State} (a1) (a2) (h : Kept s0 s) : Kept s0 (synTrip a1 a2 s) := by
  unfold synTrip
  simp (maxDischargeDepth := 60) [h]

@[simp] theorem kept_synReturnFails {s0 s : State} (a1) (h : Kept s0 s) : Kept s0 (synReturnFails a1 s) := by
  unfold synReturnFails
  simp (maxDischargeDepth := 60) [h]

theorem kept_execMonitorTrip {s0 s : State} (a1) (a2) (a3) (h : Kept s0 s) : Kept s0 (after (execMonitorTrip a1 a2 a3 s) s0) := by
  first | rewrite [execMonitorTrip] | unfold execMonitorTrip
  try dsimp only
  repeat' first
    | with_reducible assumption
    | with_reducible intro t
    | with_reducible refine kept_State_each ?_ (fun t a ht => ?_)
    | with_reducible apply kept_State_put
    | with_reducible apply kept_State_raise
    | with_reducible apply kept_State_clear
    | with_reducible apply kept_synTrip
    | with_reducible apply kept_synReturnFails
    | with_reducible exact Kept.rfl' _
    | simp only [after_next]
    | simp only [kept_mk_iff]
    | (split <;> (try simp only [Prod.ext_iff, opt_eq s0] at *) <;> (try casesm* _ ∧ _) <;> (try subst_vars) <;> (try dsimp only))

theorem kept_execMonitorStable {s0 s : State} (a1) (a2) (h : Kept s0 s) : Kept s0 (after (execMonitorStable a1 a2 s) s0) := by
  first | rewrite [execMonitorStable] | unfold execMonitorStable
  try dsimp only
  repeat' first
    | with_reducible assumption
    | with_reducible intro t
    | with_reducible refine kept_State_each ?_ (fun t a ht => ?_)
    | with_reducible apply kept_State_put
    | with_reducible apply kept_State_raise
    | with_reducible apply kept_synRelock
    | with_reducible exact Kept.rfl' _
    | simp only [after_next]
    | simp only [kept_mk_iff]
    | (split <;> (try simp only [Prod.ext_iff, opt_eq s0] at *) <;> (try casesm* _ ∧ _) <;> (try subst_vars) <;> (try dsimp only))

@[simp] theorem kept_synCtrlWrite {s0 s : State} (a1) (a2) (h : Kept s0 s) : Kept s0 (synCtrlWrite a1 a2 s) := by
  unfold synCtrlWrite
  simp (maxDischargeDepth := 60) [h]

theorem kept_execSynthEnable {s0 s : State} (a1) (a2) (h : Kept s0 s) : Kept s0 (after (execSynthEnable a1 a2 s) s0) := by
  unfold execSynthEnable
  simp (maxDischargeDepth := 60) [h]

@[simp] theorem kept_synArrive {s0 s : State} (a1) (a2) (h : Kept s0 s) : Kept s0 (synArrive a1 a2 s) := by
  first | rewrite [synArrive] | unfold synArrive
  try dsimp only
  repeat' first
    | with_reducible assumption
    | with_reducible intro t
    | with_reducible refine kept_State_when ?_ (fun t ht => ?_)
    | with_reducible apply kept_State_put
    | with_reducible apply kept_State_raise
    | with_reducible apply kept_State_setSynth
    | with_reducible apply kept_synRestart
    | with_reducible exact Kept.rfl' _
    | simp only [kept_mk_iff]
    | (split <;> (try simp only [Prod.ext_iff, opt_eq s0] at *) <;> (try casesm* _ ∧ _) <;> (try subst_vars) <;> (try dsimp only))

theorem kept_execSynthLock {s0 s : State} (a1) (a2) (h : Kept s0 s) : Kept s0 (after (execSynthLock a1 a2 s) s0) := by
  first | rewrite [execSynthLock] | unfold execSynthLock
  try dsimp only
  repeat' first
    | (simp (maxDischargeDepth := 60) (contextual := true) [h]; done)
    | (split <;> (try simp only [Prod.ext_iff, opt_eq s0] at *) <;> (try casesm* _ ∧ _) <;> (try subst_vars) <;> (try dsimp only))

theorem kept_execHeldTimeout {s0 s : State} (a1) (h : Kept s0 s) : Kept s0 (after (execHeldTimeout a1 s) s0) := by
  unfold execHeldTimeout
  simp (maxDischargeDepth := 60) [h]

theorem kept_execRevert {s0 s : State} (a1) (h : Kept s0 s) : Kept s0 (after (execRevert a1 s) s0) := by
  unfold execRevert
  simp (maxDischargeDepth := 60) [h]

theorem kept_execRampStep {s0 s : State} (a1) (h : Kept s0 s) : Kept s0 (after (execRampStep a1 s) s0) := by
  first | rewrite [execRampStep] | unfold execRampStep
  try dsimp only
  repeat' first
    | with_reducible assumption
    | with_reducible intro t
    | with_reducible apply kept_State_setSynth
    | with_reducible apply kept_synRamping
    | with_reducible apply kept_synArrive
    | with_reducible exact Kept.rfl' _
    | simp only [after_next]
    | simp only [kept_mk_iff]
    | (split <;> (try simp only [Prod.ext_iff, opt_eq s0] at *) <;> (try casesm* _ ∧ _) <;> (try subst_vars) <;> (try dsimp only))

@[simp] theorem kept_gateRegWrite {s0 s : State} (a1) (a2) (h : Kept s0 s) : Kept s0 (gateRegWrite a1 a2 s) := by
  first | rewrite [gateRegWrite] | unfold gateRegWrite
  try dsimp only
  repeat' first
    | (simp (maxDischargeDepth := 60) (contextual := true) [h]; done)
    | (split <;> (try simp only [Prod.ext_iff, opt_eq s0] at *) <;> (try casesm* _ ∧ _) <;> (try subst_vars) <;> (try dsimp only))

theorem kept_execGateWrite {s0 s : State} (a1) (a2) (a3) (h : Kept s0 s) : Kept s0 (after (execGateWrite a1 a2 a3 s) s0) := by
  first | rewrite [execGateWrite] | unfold execGateWrite
  try dsimp only
  repeat' first
    | (simp (maxDischargeDepth := 60) (contextual := true) [h]; done)
    | (split <;> (try simp only [Prod.ext_iff, opt_eq s0] at *) <;> (try casesm* _ ∧ _) <;> (try subst_vars) <;> (try dsimp only))

@[simp] theorem kept_ckgWrite {s0 s : State} (a1) (a2) (a3) (h : Kept s0 s) : Kept s0 ((ckgWrite s a1 a2 a3).getD s0) := by
  first | rewrite [ckgWrite] | unfold ckgWrite
  try dsimp only
  repeat' first
    | (simp (maxDischargeDepth := 60) (contextual := true) [h]; done)
    | (split <;> (try simp only [Prod.ext_iff, opt_eq s0] at *) <;> (try casesm* _ ∧ _) <;> (try subst_vars) <;> (try dsimp only))

@[simp] theorem kept_State_setSvc {s0 s : State} (a1) (h : Kept s0 s) : Kept s0 (State.setSvc s a1) := by
  unfold State.setSvc
  simp (maxDischargeDepth := 60) [h]

@[simp] theorem kept_State_setEvc {s0 s : State} (a1) (h : Kept s0 s) : Kept s0 (State.setEvc s a1) := by
  unfold State.setEvc
  simp (maxDischargeDepth := 60) [h]

@[simp] theorem kept_State_setPend {s0 s : State} (a1) (a2) (h : Kept s0 s) : Kept s0 (State.setPend s a1 a2) := by
  unfold State.setPend
  simp (maxDischargeDepth := 60) [h]

@[simp] theorem kept_svcLatch {s0 s : State}  (h : Kept s0 s) : Kept s0 (svcLatch s) := by
  unfold svcLatch
  simp (maxDischargeDepth := 60) [h]

@[simp] theorem kept_pinSettle {s0 s : State} (a1) (h : Kept s0 s) : Kept s0 (pinSettle a1 s) := by
  first | rewrite [pinSettle] | unfold pinSettle
  try dsimp only
  repeat' first
    | (simp (maxDischargeDepth := 60) (contextual := true) [h]; done)
    | (split <;> (try simp only [Prod.ext_iff, opt_eq s0] at *) <;> (try casesm* _ ∧ _) <;> (try subst_vars) <;> (try dsimp only))

@[simp] theorem kept_pinEdge {s0 s : State} (a1) (a2) (h : Kept s0 s) : Kept s0 (pinEdge a1 a2 s) := by
  first | rewrite [pinEdge] | unfold pinEdge
  try dsimp only
  repeat' first
    | (simp (maxDischargeDepth := 60) (contextual := true) [h]; done)
    | (split <;> (try simp only [Prod.ext_iff, opt_eq s0] at *) <;> (try casesm* _ ∧ _) <;> (try subst_vars) <;> (try dsimp only))

@[simp] theorem kept_pinLevel {s0 s : State} (a1) (a2) (h : Kept s0 s) : Kept s0 (pinLevel a1 a2 s) := by
  first | rewrite [pinLevel] | unfold pinLevel
  try dsimp only
  repeat' first
    | (simp (maxDischargeDepth := 60) (contextual := true) [h]; done)
    | (split <;> (try simp only [Prod.ext_iff, opt_eq s0] at *) <;> (try casesm* _ ∧ _) <;> (try subst_vars) <;> (try dsimp only))

@[simp] theorem kept_pinCtrlWrite {s0 s : State} (a1) (a2) (h : Kept s0 s) : Kept s0 (pinCtrlWrite a1 a2 s) := by
  first | rewrite [pinCtrlWrite] | unfold pinCtrlWrite
  try dsimp only
  repeat' first
    | (simp (maxDischargeDepth := 60) (contextual := true) [h]; done)
    | (split <;> (try simp only [Prod.ext_iff, opt_eq s0] at *) <;> (try casesm* _ ∧ _) <;> (try subst_vars) <;> (try dsimp only))

@[simp] theorem kept_pinWindowEnd {s0 s : State} (a1) (h : Kept s0 s) : Kept s0 (pinWindowEnd a1 s) := by
  unfold pinWindowEnd
  simp (maxDischargeDepth := 60) [h]

@[simp] theorem kept_State_setUart {s0 s : State} (a1) (a2) (h : Kept s0 s) : Kept s0 (State.setUart s a1 a2) := by
  unfold State.setUart
  simp (maxDischargeDepth := 60) [h]

@[simp] theorem kept_uartDataPut {s0 s : State} (a1) (a2) (h : Kept s0 s) : Kept s0 (uartDataPut a1 a2 s) := by
  unfold uartDataPut
  simp (maxDischargeDepth := 60) [h]

theorem kept_execUartDataWrite {s0 s : State} (a1) (a2) (h : Kept s0 s) : Kept s0 (after (execUartDataWrite a1 a2 s) s0) := by
  unfold execUartDataWrite
  simp (maxDischargeDepth := 60) [h]

@[simp] theorem kept_uartDataGet {s0 s : State} (a1) (a2) (h : Kept s0 s) : Kept s0 (uartDataGet a1 a2 s).2 := by
  first | rewrite [uartDataGet] | unfold uartDataGet
  try dsimp only
  repeat' first
    | (simp (maxDischargeDepth := 60) (contextual := true) [h]; done)
    | (split <;> (try simp only [Prod.ext_iff, opt_eq s0] at *) <;> (try casesm* _ ∧ _) <;> (try subst_vars) <;> (try dsimp only))

theorem kept_execUartDataRead {s0 s : State} (a1) (a2) (h : Kept s0 s) : Kept s0 (after (execUartDataRead a1 a2 s) s0) := by
  unfold execUartDataRead
  simp (maxDischargeDepth := 60) [h]

theorem kept_execUartByteReceived {s0 s : State} (a1) (a2) (h : Kept s0 s) : Kept s0 (after (execUartByteReceived a1 a2 s) s0) := by
  unfold execUartByteReceived
  simp (maxDischargeDepth := 60) [h]

theorem kept_execUartByteSent {s0 s : State} (a1) (h : Kept s0 s) : Kept s0 (after (execUartByteSent a1 s) s0) := by
  unfold execUartByteSent
  simp (maxDischargeDepth := 60) [h]

@[simp] theorem kept_spiDataPut {s0 s : State} (a1) (a2) (h : Kept s0 s) : Kept s0 (spiDataPut a1 a2 s) := by
  unfold spiDataPut
  simp (maxDischargeDepth := 60) [h]

theorem kept_execSpiDataWrite {s0 s : State} (a1) (a2) (h : Kept s0 s) : Kept s0 (after (execSpiDataWrite a1 a2 s) s0) := by
  unfold execSpiDataWrite
  simp (maxDischargeDepth := 60) [h]

theorem kept_execSpiShiftDone {s0 s : State} (a1) (a2) (h : Kept s0 s) : Kept s0 (after (execSpiShiftDone a1 a2 s) s0) := by
  unfold execSpiShiftDone
  simp (maxDischargeDepth := 60) [h]

@[simp] theorem kept_i2cGo {s0 s : State} (a1) (a2) (a3) (h : Kept s0 s) : Kept s0 (i2cGo a1 a2 a3 s) := by
  unfold i2cGo
  simp (maxDischargeDepth := 60) [h]

theorem kept_execI2cStart {s0 s : State} (a1) (h : Kept s0 s) : Kept s0 (after (execI2cStart a1 s) s0) := by
  unfold execI2cStart
  simp (maxDischargeDepth := 60) [h]

theorem kept_execI2cStop {s0 s : State} (a1) (h : Kept s0 s) : Kept s0 (after (execI2cStop a1 s) s0) := by
  unfold execI2cStop
  simp (maxDischargeDepth := 60) [h]

theorem kept_execI2cWrite {s0 s : State} (a1) (a2) (h : Kept s0 s) : Kept s0 (after (execI2cWrite a1 a2 s) s0) := by
  unfold execI2cWrite
  simp (maxDischargeDepth := 60) [h]

theorem kept_execI2cReadAck {s0 s : State} (a1) (h : Kept s0 s) : Kept s0 (after (execI2cReadAck a1 s) s0) := by
  unfold execI2cReadAck
  simp (maxDischargeDepth := 60) [h]

theorem kept_execI2cReadNack {s0 s : State} (a1) (h : Kept s0 s) : Kept s0 (after (execI2cReadNack a1 s) s0) := by
  unfold execI2cReadNack
  simp (maxDischargeDepth := 60) [h]

@[simp] theorem kept_i2cEnd {s0 s : State} (a1) (a2) (h : Kept s0 s) : Kept s0 (i2cEnd a1 a2 s) := by
  first | rewrite [i2cEnd] | unfold i2cEnd
  try dsimp only
  repeat' first
    | (simp (maxDischargeDepth := 60) (contextual := true) [h]; done)
    | (split <;> (try simp only [Prod.ext_iff, opt_eq s0] at *) <;> (try casesm* _ ∧ _) <;> (try subst_vars) <;> (try dsimp only))

theorem kept_execI2cOperationDone {s0 s : State} (a1) (a2) (h : Kept s0 s) : Kept s0 (after (execI2cOperationDone a1 a2 s) s0) := by
  unfold execI2cOperationDone
  simp (maxDischargeDepth := 60) [h]

@[simp] theorem kept_timerWrap {s0 s : State} (a1) (h : Kept s0 s) : Kept s0 (timerWrap a1 s) := by
  unfold timerWrap
  simp (maxDischargeDepth := 60) [h]

@[simp] theorem kept_pinStatusWrite {s0 s : State} (a1) (a2) (h : Kept s0 s) : Kept s0 (pinStatusWrite a1 a2 s) := by
  unfold pinStatusWrite
  simp (maxDischargeDepth := 60) [h]

@[simp] theorem kept_svpWrite {s0 s : State} (a1) (a2) (a3) (h : Kept s0 s) : Kept s0 ((svpWrite s a1 a2 a3).getD s0) := by
  first | rewrite [svpWrite] | unfold svpWrite
  try dsimp only
  repeat' first
    | (simp (maxDischargeDepth := 60) (contextual := true) [h]; done)
    | (split <;> (try simp only [Prod.ext_iff, opt_eq s0] at *) <;> (try casesm* _ ∧ _) <;> (try subst_vars) <;> (try dsimp only))

@[simp] theorem kept_evcHost {s0 s : State} (a1) (h : Kept s0 s) : Kept s0 (evcHost a1 s) := by
  unfold evcHost
  simp (maxDischargeDepth := 60) [h]

@[simp] theorem kept_evcRise {s0 s : State} (a1) (a2) (h : Kept s0 s) : Kept s0 (evcRise a1 a2 s).1 := by
  first | rewrite [evcRise] | unfold evcRise
  try dsimp only
  repeat' first
    | (simp (maxDischargeDepth := 60) (contextual := true) [h]; done)
    | (split <;> (try simp only [Prod.ext_iff, opt_eq s0] at *) <;> (try casesm* _ ∧ _) <;> (try subst_vars) <;> (try dsimp only))

@[simp] theorem kept_evcClaim {s0 s : State} (a1) (a2) (h : Kept s0 s) : Kept s0 (evcClaim a1 a2 s).2 := by
  rewrite [evcClaim]
  repeat' first
    | with_reducible assumption
    | simp only [after_next]
    | with_reducible refine kept_State_each ?_ (fun t a ht => ?_)
    | with_reducible refine kept_foldl_prod3 ?_ (fun t a ht => ?_)
    | with_reducible refine kept_foldl_prod4 ?_ (fun t a ht => ?_)
    | (split <;> (try simp only [Prod.ext_iff] at *) <;> (try casesm* _ ∧ _) <;> (try subst_vars))
    | with_reducible apply kept_State_setEvc
    | with_reducible apply kept_State_setPend

theorem kept_execEvcClaim {s0 s : State} (a1) (a2) (h : Kept s0 s) : Kept s0 (after (execEvcClaim a1 a2 s) s0) := by
  unfold execEvcClaim
  simp (maxDischargeDepth := 60) [h]

@[simp] theorem kept_evcComplete {s0 s : State} (a1) (a2) (h : Kept s0 s) : Kept s0 (evcComplete a1 a2 s) := by
  first | rewrite [evcComplete] | unfold evcComplete
  try dsimp only
  repeat' first
    | (simp (maxDischargeDepth := 60) (contextual := true) [h]; done)
    | (split <;> (try simp only [Prod.ext_iff, opt_eq s0] at *) <;> (try casesm* _ ∧ _) <;> (try subst_vars) <;> (try dsimp only))

theorem kept_execEvcComplete {s0 s : State} (a1) (a2) (h : Kept s0 s) : Kept s0 (after (execEvcComplete a1 a2 s) s0) := by
  unfold execEvcComplete
  simp (maxDischargeDepth := 60) [h]

@[simp] theorem kept_evcWarmReset {s0 s : State}  (h : Kept s0 s) : Kept s0 (evcWarmReset s) := by
  first | rewrite [evcWarmReset] | unfold evcWarmReset
  try dsimp only
  repeat' first
    | (simp (maxDischargeDepth := 60) (contextual := true) [h]; done)
    | (split <;> (try simp only [Prod.ext_iff, opt_eq s0] at *) <;> (try casesm* _ ∧ _) <;> (try subst_vars) <;> (try dsimp only))

@[simp] theorem kept_evcSrcWrite {s0 s : State} (a1) (a2) (a3) (h : Kept s0 s) : Kept s0 (evcSrcWrite a1 a2 a3 s) := by
  unfold evcSrcWrite
  simp (maxDischargeDepth := 60) [h]

end Sys2Proof.Machine
end

