-- ==== Sys2Proof/Laws/KeptCores.lean ====
section
/-! SUPPORT. Each operation of the cores, the Pager, power, DMA and the bus is Kept. -/

set_option linter.unusedTactic false
set_option linter.unreachableTactic false
set_option linter.unusedSimpArgs false
set_option linter.unusedVariables false

namespace Sys2Proof.Machine

@[simp] theorem kept_State_setCore {s0 s : State} (a1) (a2) (h : Kept s0 s) : Kept s0 (State.setCore s a1 a2) := by
  unfold State.setCore
  simp (maxDischargeDepth := 60) [h]

@[simp] theorem kept_State_modCore {s0 s : State} (a1) (a2) (h : Kept s0 s) : Kept s0 (State.modCore s a1 a2) := by
  unfold State.modCore
  simp (maxDischargeDepth := 60) [h]

@[simp] theorem kept_State_setGreg {s0 s : State} (a1) (a2) (a3) (h : Kept s0 s) : Kept s0 (State.setGreg s a1 a2 a3) := by
  unfold State.setGreg
  simp (maxDischargeDepth := 60) [h]

@[simp] theorem kept_coreSettle {s0 s : State} (a1) (h : Kept s0 s) : Kept s0 (coreSettle a1 s) := by
  unfold coreSettle
  simp (maxDischargeDepth := 60) [h]

@[simp] theorem kept_dropResv {s0 s : State} (a1) (h : Kept s0 s) : Kept s0 (dropResv a1 s) := by
  unfold dropResv
  simp (maxDischargeDepth := 60) [h]

@[simp] theorem kept_trapTo {s0 s : State} (a1) (a2) (a3) (a4) (h : Kept s0 s) : Kept s0 (trapTo a1 a2 a3 a4 s) := by
  unfold trapTo
  simp (maxDischargeDepth := 60) [h]

@[simp] theorem kept_trap {s0 s : State} (a1) (a2) (a3) (h : Kept s0 s) : Kept s0 (trap a1 a2 a3 s) := by
  unfold trap
  simp (maxDischargeDepth := 60) [h]

@[simp] theorem kept_trapResp {s0 s : State} (a1) (a2) (a3) (a4) (h : Kept s0 s) : Kept s0 (trapResp a1 a2 a3 a4 s) := by
  unfold trapResp
  simp (maxDischargeDepth := 60) [h]

@[simp] theorem kept_trapIrq {s0 s : State} (a1) (a2) (h : Kept s0 s) : Kept s0 (trapIrq a1 a2 s) := by
  unfold trapIrq
  simp (maxDischargeDepth := 60) [h]

@[simp] theorem kept_trapReturn {s0 s : State} (a1) (h : Kept s0 s) : Kept s0 (trapReturn a1 s) := by
  unfold trapReturn
  simp (maxDischargeDepth := 60) [h]

@[simp] theorem kept_csrTaken {s0 s : State} (a1) (a2) (h : Kept s0 s) : Kept s0 (csrTaken a1 a2 s) := by
  unfold csrTaken
  simp (maxDischargeDepth := 60) [h]

@[simp] theorem kept_csrPut {s0 s : State} (a1) (a2) (a3) (h : Kept s0 s) : Kept s0 (csrPut a1 a2 a3 s) := by
  first | rewrite [csrPut] | unfold csrPut
  try dsimp only
  repeat' first
    | with_reducible assumption
    | with_reducible intro t
    | with_reducible apply kept_State_modCore
    | with_reducible exact Kept.rfl' _
    | simp only [kept_mk_iff]
    | (split <;> (try simp only [Prod.ext_iff, opt_eq s0] at *) <;> (try casesm* _ ∧ _) <;> (try subst_vars) <;> (try dsimp only))

@[simp] theorem kept_noteCorrected {s0 s : State} (a1) (h : Kept s0 s) : Kept s0 (noteCorrected a1 s) := by
  unfold noteCorrected
  simp (maxDischargeDepth := 60) [h]

@[simp] theorem kept_noteTransient {s0 s : State} (a1) (h : Kept s0 s) : Kept s0 (noteTransient a1 s) := by
  unfold noteTransient
  simp (maxDischargeDepth := 60) [h]

@[simp] theorem kept_wdgSample {s0 s : State} (a1) (h : Kept s0 s) : Kept s0 (wdgSample a1 s) := by
  unfold wdgSample
  simp (maxDischargeDepth := 60) [h]

@[simp] theorem kept_wdgRelease {s0 s : State} (a1) (h : Kept s0 s) : Kept s0 (wdgRelease a1 s) := by
  unfold wdgRelease
  simp (maxDischargeDepth := 60) [h]

@[simp] theorem kept_State_setDbg {s0 s : State} (a1) (h : Kept s0 s) : Kept s0 (State.setDbg s a1) := by
  unfold State.setDbg
  simp (maxDischargeDepth := 60) [h]

@[simp] theorem kept_svpHold {s0 s : State}  (h : Kept s0 s) : Kept s0 (svpHold s) := by
  first | rewrite [svpHold] | unfold svpHold
  try dsimp only
  repeat' first
    | (simp (maxDischargeDepth := 60) (contextual := true) [h]; done)
    | (split <;> (try simp only [Prod.ext_iff, opt_eq s0] at *) <;> (try casesm* _ ∧ _) <;> (try subst_vars) <;> (try dsimp only))

@[simp] theorem kept_withFreeze {s0 s : State} {g : State → State} (h : Kept s0 s)
    (hg : ∀ t, Kept s0 t → Kept s0 (g t)) : Kept s0 (withFreeze g s) := by
  unfold withFreeze; simp (maxDischargeDepth := 60) [*]


@[simp] theorem kept_haltNow {s0 s : State} (a1) (h : Kept s0 s) : Kept s0 (haltNow a1 s) := by
  unfold haltNow
  simp (maxDischargeDepth := 60) [h]

@[simp] theorem kept_haltReq {s0 s : State} (a1) (h : Kept s0 s) : Kept s0 (haltReq a1 s).2 := by
  first | rewrite [haltReq] | unfold haltReq
  try dsimp only
  repeat' first
    | (simp (maxDischargeDepth := 60) (contextual := true) [h]; done)
    | (split <;> (try simp only [Prod.ext_iff, opt_eq s0] at *) <;> (try casesm* _ ∧ _) <;> (try subst_vars) <;> (try dsimp only))

@[simp] theorem kept_pulses {s0 s : State} (a1) (a2) (h : Kept s0 s) : Kept s0 (pulses a1 a2 s) := by
  induction a1 generalizing s a2 with
  | zero => rw [pulses]; exact h
  | succ n ih =>
    rewrite [pulses]
    try dsimp only
    repeat' first
      | with_reducible assumption
      | with_reducible intro t
      | with_reducible refine kept_foldl ?_ (fun t a ht => ?_)
      | with_reducible refine kept_foldl_prod ?_ (fun t a ht => ?_)
      | with_reducible refine kept_foldl_prod2 ?_ (fun t a ht => ?_)
      | with_reducible refine kept_foldl_prod3 ?_ (fun t a ht => ?_)
      | with_reducible refine kept_foldl_prod4 ?_ (fun t a ht => ?_)
      | with_reducible refine kept_State_when ?_ (fun t ht => ?_)
      | with_reducible apply kept_State_setSvc
      | with_reducible apply kept_State_setDbg
      | with_reducible apply kept_haltReq
      | with_reducible exact Kept.rfl' _
      | with_reducible apply ih
      | simp only [kept_mk_iff]
      | (split <;> (try simp only [Prod.ext_iff, opt_eq s0] at *) <;> (try casesm* _ ∧ _) <;> (try subst_vars) <;> (try dsimp only))

@[simp] theorem kept_xtPulse {s0 s : State} (a1) (h : Kept s0 s) : Kept s0 (xtPulse a1 s) := by
  first | rewrite [xtPulse] | unfold xtPulse
  try dsimp only
  repeat' first
    | (simp (maxDischargeDepth := 60) (contextual := true) [h]; done)
    | (split <;> (try simp only [Prod.ext_iff, opt_eq s0] at *) <;> (try casesm* _ ∧ _) <;> (try subst_vars) <;> (try dsimp only))

@[simp] theorem kept_haltFire {s0 s : State} (a1) (h : Kept s0 s) : Kept s0 (haltFire a1 s) := by
  first | rewrite [haltFire] | unfold haltFire
  try dsimp only
  repeat' first
    | (simp (maxDischargeDepth := 60) (contextual := true) [h]; done)
    | (split <;> (try simp only [Prod.ext_iff, opt_eq s0] at *) <;> (try casesm* _ ∧ _) <;> (try subst_vars) <;> (try dsimp only))

@[simp] theorem kept_haltAsk {s0 s : State} (a1) (h : Kept s0 s) : Kept s0 (haltAsk a1 s) := by
  first | rewrite [haltAsk] | unfold haltAsk
  try dsimp only
  repeat' first
    | (simp (maxDischargeDepth := 60) (contextual := true) [h]; done)
    | (split <;> (try simp only [Prod.ext_iff, opt_eq s0] at *) <;> (try casesm* _ ∧ _) <;> (try subst_vars) <;> (try dsimp only))

@[simp] theorem kept_resumeCore {s0 s : State} (a1) (h : Kept s0 s) : Kept s0 (resumeCore a1 s) := by
  unfold resumeCore
  simp (maxDischargeDepth := 60) [h]

@[simp] theorem kept_coreReset {s0 s : State} (a1) (h : Kept s0 s) : Kept s0 (coreReset a1 s) := by
  unfold coreReset
  simp (maxDischargeDepth := 60) [h]

@[simp] theorem kept_resetHalt {s0 s : State} (a1) (h : Kept s0 s) : Kept s0 (resetHalt a1 s) := by
  unfold resetHalt
  simp (maxDischargeDepth := 60) [h]

@[simp] theorem kept_coreBegin {s0 s : State} (a1) (h : Kept s0 s) : Kept s0 (coreBegin a1 s) := by
  unfold coreBegin
  simp (maxDischargeDepth := 60) [h]

@[simp] theorem kept_coreEnd {s0 s : State} (a1) (h : Kept s0 s) : Kept s0 (coreEnd a1 s) := by
  unfold coreEnd
  simp (maxDischargeDepth := 60) [h]

@[simp] theorem kept_coreCtrlWrite {s0 s : State} (a1) (a2) (h : Kept s0 s) : Kept s0 (coreCtrlWrite a1 a2 s) := by
  unfold coreCtrlWrite
  simp (maxDischargeDepth := 60) [h]

theorem kept_execCoreStart {s0 s : State} (a1) (a2) (h : Kept s0 s) : Kept s0 (after (execCoreStart a1 a2 s) s0) := by
  unfold execCoreStart
  simp (maxDischargeDepth := 60) [h]

theorem kept_execCoreStop {s0 s : State} (a1) (a2) (h : Kept s0 s) : Kept s0 (after (execCoreStop a1 a2 s) s0) := by
  unfold execCoreStop
  simp (maxDischargeDepth := 60) [h]

@[simp] theorem kept_storeDone {s0 s : State} (a1) (a2) (a3) (h : Kept s0 s) : Kept s0 (storeDone a1 a2 a3 s) := by
  unfold storeDone
  simp (maxDischargeDepth := 60) [h]

@[simp] theorem kept_lineBack {s0 s : State} (a1) (a2) (a3) (h : Kept s0 s) : Kept s0 (lineBack a1 a2 a3 s) := by
  first | rewrite [lineBack] | unfold lineBack
  try dsimp only
  repeat' first
    | (simp (maxDischargeDepth := 60) (contextual := true) [h]; done)
    | (split <;> (try simp only [Prod.ext_iff, opt_eq s0] at *) <;> (try casesm* _ ∧ _) <;> (try subst_vars) <;> (try dsimp only))

@[simp] theorem kept_lineClean {s0 s : State} (a1) (a2) (a3) (h : Kept s0 s) : Kept s0 (lineClean a1 a2 a3 s) := by
  first | rewrite [lineClean] | unfold lineClean
  try dsimp only
  repeat' first
    | (simp (maxDischargeDepth := 60) (contextual := true) [h]; done)
    | (split <;> (try simp only [Prod.ext_iff, opt_eq s0] at *) <;> (try casesm* _ ∧ _) <;> (try subst_vars) <;> (try dsimp only))

@[simp] theorem kept_lineDrop {s0 s : State} (a1) (a2) (h : Kept s0 s) : Kept s0 (lineDrop a1 a2 s) := by
  unfold lineDrop
  simp (maxDischargeDepth := 60) [h]

@[simp] theorem kept_lineFlush {s0 s : State} (a1) (a2) (a3) (h : Kept s0 s) : Kept s0 (lineFlush a1 a2 a3 s) := by
  unfold lineFlush
  simp (maxDischargeDepth := 60) [h]

@[simp] theorem kept_cacheFlush {s0 s : State} (a1) (a2) (h : Kept s0 s) : Kept s0 (cacheFlush a1 a2 s) := by
  first | rewrite [cacheFlush] | unfold cacheFlush
  try dsimp only
  repeat' first
    | (simp (maxDischargeDepth := 60) (contextual := true) [h]; done)
    | (split <;> (try simp only [Prod.ext_iff, opt_eq s0] at *) <;> (try casesm* _ ∧ _) <;> (try subst_vars) <;> (try dsimp only))

@[simp] theorem kept_linePlace {s0 s : State} (a1) (a2) (a3) (h : Kept s0 s) : Kept s0 (linePlace a1 a2 a3 s) := by
  first | rewrite [linePlace] | unfold linePlace
  try dsimp only
  repeat' first
    | (simp (maxDischargeDepth := 60) (contextual := true) [h]; done)
    | (split <;> (try simp only [Prod.ext_iff, opt_eq s0] at *) <;> (try casesm* _ ∧ _) <;> (try subst_vars) <;> (try dsimp only))

@[simp] theorem kept_fetchPlace {s0 s : State} (a1) (a2) (h : Kept s0 s) : Kept s0 (fetchPlace a1 a2 s) := by
  first | rewrite [fetchPlace] | unfold fetchPlace
  try dsimp only
  repeat' first
    | (simp (maxDischargeDepth := 60) (contextual := true) [h]; done)
    | (split <;> (try simp only [Prod.ext_iff, opt_eq s0] at *) <;> (try casesm* _ ∧ _) <;> (try subst_vars) <;> (try dsimp only))

@[simp] theorem kept_coreOffline {s0 s : State} (a1) (a2) (a3) (h : Kept s0 s) : Kept s0 (coreOffline a1 a2 a3 s) := by
  unfold coreOffline
  simp (maxDischargeDepth := 60) [h]

@[simp] theorem kept_wdgKick {s0 s : State} (a1) (a2) (h : Kept s0 s) : Kept s0 (wdgKick a1 a2 s) := by
  unfold wdgKick
  simp (maxDischargeDepth := 60) [h]

theorem kept_execWatchdogKick {s0 s : State} (a1) (a2) (h : Kept s0 s) : Kept s0 (after (execWatchdogKick a1 a2 s) s0) := by
  unfold execWatchdogKick
  simp (maxDischargeDepth := 60) [h]

theorem kept_execWatchdogFirstExpiry {s0 s : State} (a1) (h : Kept s0 s) : Kept s0 (after (execWatchdogFirstExpiry a1 s) s0) := by
  unfold execWatchdogFirstExpiry
  simp (maxDischargeDepth := 60) [h]

@[simp] theorem kept_wdgWrite {s0 s : State} (a1) (a2) (a3) (h : Kept s0 s) : Kept s0 ((wdgWrite s a1 a2 a3).getD s0) := by
  first | rewrite [wdgWrite] | unfold wdgWrite
  try dsimp only
  repeat' first
    | (simp (maxDischargeDepth := 60) (contextual := true) [h]; done)
    | (split <;> (try simp only [Prod.ext_iff, opt_eq s0] at *) <;> (try casesm* _ ∧ _) <;> (try subst_vars) <;> (try dsimp only))

@[simp] theorem kept_dbgHaltWrite {s0 s : State} (a1) (h : Kept s0 s) : Kept s0 (dbgHaltWrite a1 s) := by
  first | rewrite [dbgHaltWrite] | unfold dbgHaltWrite
  try dsimp only
  repeat' first
    | (simp (maxDischargeDepth := 60) (contextual := true) [h]; done)
    | (split <;> (try simp only [Prod.ext_iff, opt_eq s0] at *) <;> (try casesm* _ ∧ _) <;> (try subst_vars) <;> (try dsimp only))

@[simp] theorem kept_dbgResumeWrite {s0 s : State} (a1) (h : Kept s0 s) : Kept s0 (dbgResumeWrite a1 s) := by
  first | rewrite [dbgResumeWrite] | unfold dbgResumeWrite
  try dsimp only
  repeat' first
    | (simp (maxDischargeDepth := 60) (contextual := true) [h]; done)
    | (split <;> (try simp only [Prod.ext_iff, opt_eq s0] at *) <;> (try casesm* _ ∧ _) <;> (try subst_vars) <;> (try dsimp only))

@[simp] theorem kept_dbgStepWrite {s0 s : State} (a1) (h : Kept s0 s) : Kept s0 (dbgStepWrite a1 s) := by
  first | rewrite [dbgStepWrite] | unfold dbgStepWrite
  try dsimp only
  repeat' first
    | (simp (maxDischargeDepth := 60) (contextual := true) [h]; done)
    | (split <;> (try simp only [Prod.ext_iff, opt_eq s0] at *) <;> (try casesm* _ ∧ _) <;> (try subst_vars) <;> (try dsimp only))

@[simp] theorem kept_dbgPulseWrite {s0 s : State} (a1) (h : Kept s0 s) : Kept s0 (dbgPulseWrite a1 s) := by
  unfold dbgPulseWrite
  simp (maxDischargeDepth := 60) [h]

@[simp] theorem kept_vtOut {s0 s : State} (a1) (a2) (a3) (h : Kept s0 s) : Kept s0 (vtOut a1 a2 a3 s) := by
  unfold vtOut
  simp (maxDischargeDepth := 60) [h]

@[simp] theorem kept_vtIn {s0 s : State} (a1) (a2) (a3) (h : Kept s0 s) : Kept s0 (vtIn a1 a2 a3 s) := by
  unfold vtIn
  simp (maxDischargeDepth := 60) [h]

@[simp] theorem kept_vtTake {s0 s : State} (a1) (a2) (a3) (a4) (h : Kept s0 s) : Kept s0 (vtTake a1 a2 a3 a4 s) := by
  unfold vtTake
  simp (maxDischargeDepth := 60) [h]

@[simp] theorem kept_dbgWrite {s0 s : State} (a1) (a2) (a3) (a4) (h : Kept s0 s) : Kept s0 ((dbgWrite s a1 a2 a3 a4).getD s0) := by
  first | rewrite [dbgWrite] | unfold dbgWrite
  try dsimp only
  repeat' first
    | (simp (maxDischargeDepth := 60) (contextual := true) [h]; done)
    | (split <;> (try simp only [Prod.ext_iff, opt_eq s0] at *) <;> (try casesm* _ ∧ _) <;> (try subst_vars) <;> (try dsimp only))

@[simp] theorem kept_tracePut {s0 s : State} (a1) (h : Kept s0 s) : Kept s0 (tracePut a1 s) := by
  unfold tracePut
  simp (maxDischargeDepth := 60) [h]

@[simp] theorem kept_stimStore {s0 s : State} (a1) (a2) (a3) (h : Kept s0 s) : Kept s0 (stimStore a1 a2 a3 s).2 := by
  first | rewrite [stimStore] | unfold stimStore
  try dsimp only
  repeat' first
    | (simp (maxDischargeDepth := 60) (contextual := true) [h]; done)
    | (split <;> (try simp only [Prod.ext_iff, opt_eq s0] at *) <;> (try casesm* _ ∧ _) <;> (try subst_vars) <;> (try dsimp only))

@[simp] theorem kept_dbgPortWrite {s0 s : State} (a1) (a2) (a3) (h : Kept s0 s) : Kept s0 (dbgPortWrite a1 a2 a3 s) := by
  first | rewrite [dbgPortWrite] | unfold dbgPortWrite
  try dsimp only
  repeat' first
    | with_reducible assumption
    | with_reducible intro t
    | with_reducible apply kept_State_answer
    | with_reducible apply kept_State_okay
    | with_reducible apply kept_dbgWrite
    | with_reducible exact Kept.rfl' _
    | with_reducible refine kept_ite_getD ?_ ?_
    | with_reducible refine kept_getD ?_ (by with_reducible assumption)
    | simp only [Option.getD_some, Option.getD_none]
    | split

theorem kept_execDbgHalt {s0 s : State} (a1) (h : Kept s0 s) : Kept s0 (after (execDbgHalt a1 s) s0) := by
  unfold execDbgHalt
  simp (maxDischargeDepth := 60) [h]

theorem kept_execDbgResume {s0 s : State} (a1) (h : Kept s0 s) : Kept s0 (after (execDbgResume a1 s) s0) := by
  unfold execDbgResume
  simp (maxDischargeDepth := 60) [h]

theorem kept_execDbgStep {s0 s : State} (a1) (h : Kept s0 s) : Kept s0 (after (execDbgStep a1 s) s0) := by
  unfold execDbgStep
  simp (maxDischargeDepth := 60) [h]

theorem kept_execCrossTrigger {s0 s : State} (a1) (h : Kept s0 s) : Kept s0 (after (execCrossTrigger a1 s) s0) := by
  unfold execCrossTrigger
  simp (maxDischargeDepth := 60) [h]

theorem kept_execHaltForced {s0 s : State} (a1) (h : Kept s0 s) : Kept s0 (after (execHaltForced a1 s) s0) := by
  unfold execHaltForced
  simp (maxDischargeDepth := 60) [h]

theorem kept_execStimulusStore {s0 s : State} (a1) (a2) (a3) (h : Kept s0 s) : Kept s0 (after (execStimulusStore a1 a2 a3 s) s0) := by
  unfold execStimulusStore
  simp (maxDischargeDepth := 60) [h]

theorem kept_execVtOutWrite {s0 s : State} (a1) (a2) (h : Kept s0 s) : Kept s0 (after (execVtOutWrite a1 a2 s) s0) := by
  unfold execVtOutWrite
  simp (maxDischargeDepth := 60) [h]

theorem kept_execVtInWrite {s0 s : State} (a1) (a2) (h : Kept s0 s) : Kept s0 (after (execVtInWrite a1 a2 s) s0) := by
  unfold execVtInWrite
  simp (maxDischargeDepth := 60) [h]

theorem kept_execVtOutRead {s0 s : State} (a1) (a2) (h : Kept s0 s) : Kept s0 (after (execVtOutRead a1 a2 s) s0) := by
  unfold execVtOutRead
  simp (maxDischargeDepth := 60) [h]

theorem kept_execVtInRead {s0 s : State} (a1) (h : Kept s0 s) : Kept s0 (after (execVtInRead a1 s) s0) := by
  unfold execVtInRead
  simp (maxDischargeDepth := 60) [h]

@[simp] theorem kept_State_setWarden {s0 s : State} (a1) (h : Kept s0 s) : Kept s0 (State.setWarden s a1) := by
  unfold State.setWarden
  simp (maxDischargeDepth := 60) [h]

@[simp] theorem kept_reqEnd {s0 s : State} (a1) (a2) (a3) (h : Kept s0 s) : Kept s0 (reqEnd a1 a2 a3 s) := by
  unfold reqEnd
  simp (maxDischargeDepth := 60) [h]

@[simp] theorem kept_reqServe {s0 s : State} (b code) {g : State → ReqDoes} (h : Kept s0 s)
    (hg : (g s).keeps s0 s) : Kept s0 (reqServe b code g s) := by
  unfold reqServe
  split
  · exact h
  · revert hg
    cases g s <;> simp +contextual [ReqDoes.keeps, h]


@[simp] theorem kept_reqCtrlWrite {s0 s : State} (a1) (a2) (h : Kept s0 s) : Kept s0 (reqCtrlWrite a1 a2 s) := by
  first | rewrite [reqCtrlWrite] | unfold reqCtrlWrite
  try dsimp only
  repeat' first
    | (simp (maxDischargeDepth := 60) (contextual := true) [h]; done)
    | (split <;> (try simp only [Prod.ext_iff, opt_eq s0] at *) <;> (try casesm* _ ∧ _) <;> (try subst_vars) <;> (try dsimp only))

theorem kept_execRequestGo {s0 s : State} (a1) (a2) (h : Kept s0 s) : Kept s0 (after (execRequestGo a1 a2 s) s0) := by
  unfold execRequestGo
  simp (maxDischargeDepth := 60) [h]

@[simp] theorem kept_reqArgWrite {s0 s : State} (a1) (a2) (h : Kept s0 s) : Kept s0 (reqArgWrite a1 a2 s) := by
  unfold reqArgWrite
  simp (maxDischargeDepth := 60) [h]

@[simp] theorem kept_boxesClear {s0 s : State}  (h : Kept s0 s) : Kept s0 (boxesClear s) := by
  first | rewrite [boxesClear] | unfold boxesClear
  try dsimp only
  repeat' first
    | (simp (maxDischargeDepth := 60) (contextual := true) [h]; done)
    | (split <;> (try simp only [Prod.ext_iff, opt_eq s0] at *) <;> (try casesm* _ ∧ _) <;> (try subst_vars) <;> (try dsimp only))

@[simp] theorem kept_keyWrite {s0 s : State} (a1) (a2) (a3) (h : Kept s0 s) : Kept s0 ((keyWrite s a1 a2 a3).getD s0) := by
  first | rewrite [keyWrite] | unfold keyWrite
  try dsimp only
  repeat' first
    | (simp (maxDischargeDepth := 60) (contextual := true) [h]; done)
    | (split <;> (try simp only [Prod.ext_iff, opt_eq s0] at *) <;> (try casesm* _ ∧ _) <;> (try subst_vars) <;> (try dsimp only))

@[simp] theorem kept_State_setPgr {s0 s : State} (a1) (h : Kept s0 s) : Kept s0 (State.setPgr s a1) := by
  unfold State.setPgr
  simp (maxDischargeDepth := 60) [h]

@[simp] theorem kept_icpLeave {s0 s : State} (a1) (a2) (h : Kept s0 s) : Kept s0 (icpLeave a1 a2 s) := by
  unfold icpLeave
  simp (maxDischargeDepth := 60) [h]

@[simp] theorem kept_icpAbandon {s0 s : State} (a1) (a2) (a3) (h : Kept s0 s) : Kept s0 (icpAbandon a1 a2 a3 s) := by
  unfold icpAbandon
  simp (maxDischargeDepth := 60) [h]

@[simp] theorem kept_icpFinish {s0 s : State} (a1) (a2) (h : Kept s0 s) : Kept s0 (icpFinish a1 a2 s) := by
  unfold icpFinish
  simp (maxDischargeDepth := 60) [h]

@[simp] theorem kept_icpPackets {s0 s : State} (a1) (a2) (h : Kept s0 s) : Kept s0 (icpPackets a1 a2 s) := by
  induction a1 generalizing s with
  | zero => rw [icpPackets]; exact h
  | succ n ih =>
    rewrite [icpPackets]
    try dsimp only
    repeat' first
      | with_reducible assumption
      | with_reducible intro t
      | with_reducible apply kept_State_put
      | with_reducible apply kept_storeFrame
      | with_reducible apply kept_storeFrames
      | with_reducible apply kept_State_setPgr
      | with_reducible apply kept_icpAbandon
      | with_reducible apply kept_icpFinish
      | with_reducible exact Kept.rfl' _
      | with_reducible apply ih
      | simp only [kept_mk_iff]
      | (split <;> (try simp only [Prod.ext_iff, opt_eq s0] at *) <;> (try casesm* _ ∧ _) <;> (try subst_vars) <;> (try dsimp only))

@[simp] theorem kept_icpWord {s0 s : State} (a1) (a2) (h : Kept s0 s) : Kept s0 (icpWord a1 s a2) := by
  first | rewrite [icpWord] | unfold icpWord
  try dsimp only
  repeat' first
    | (simp (maxDischargeDepth := 60) (contextual := true) [h]; done)
    | (split <;> (try simp only [Prod.ext_iff, opt_eq s0] at *) <;> (try casesm* _ ∧ _) <;> (try subst_vars) <;> (try dsimp only))

@[simp] theorem kept_icpData {s0 s : State} (a1) (a2) (a3) (h : Kept s0 s) : Kept s0 (icpData a1 a2 a3 s) := by
  first | rewrite [icpData] | unfold icpData
  try dsimp only
  repeat' first
    | (simp (maxDischargeDepth := 60) (contextual := true) [h]; done)
    | (split <;> (try simp only [Prod.ext_iff, opt_eq s0] at *) <;> (try casesm* _ ∧ _) <;> (try subst_vars) <;> (try dsimp only))

theorem kept_execIcpDataWrite {s0 s : State} (a1) (a2) (a3) (h : Kept s0 s) : Kept s0 (after (execIcpDataWrite a1 a2 a3 s) s0) := by
  unfold execIcpDataWrite
  simp (maxDischargeDepth := 60) [h]

@[simp] theorem kept_icpArm {s0 s : State} (a1) (a2) (h : Kept s0 s) : Kept s0 (icpArm a1 a2 s) := by
  unfold icpArm
  simp (maxDischargeDepth := 60) [h]

@[simp] theorem kept_icpAbort {s0 s : State} (a1) (h : Kept s0 s) : Kept s0 (icpAbort a1 s) := by
  first | rewrite [icpAbort] | unfold icpAbort
  try dsimp only
  repeat' first
    | (simp (maxDischargeDepth := 60) (contextual := true) [h]; done)
    | (split <;> (try simp only [Prod.ext_iff, opt_eq s0] at *) <;> (try casesm* _ ∧ _) <;> (try subst_vars) <;> (try dsimp only))

@[simp] theorem kept_icpCtrlWrite {s0 s : State} (a1) (a2) (h : Kept s0 s) : Kept s0 (icpCtrlWrite a1 a2 s) := by
  first | rewrite [icpCtrlWrite] | unfold icpCtrlWrite
  try dsimp only
  repeat' first
    | (simp (maxDischargeDepth := 60) (contextual := true) [h]; done)
    | (split <;> (try simp only [Prod.ext_iff, opt_eq s0] at *) <;> (try casesm* _ ∧ _) <;> (try subst_vars) <;> (try dsimp only))

theorem kept_execIcpArm {s0 s : State} (a1) (a2) (h : Kept s0 s) : Kept s0 (after (execIcpArm a1 a2 s) s0) := by
  unfold execIcpArm
  simp (maxDischargeDepth := 60) [h]

theorem kept_execIcpAbort {s0 s : State} (a1) (a2) (h : Kept s0 s) : Kept s0 (after (execIcpAbort a1 a2 s) s0) := by
  unfold execIcpAbort
  simp (maxDischargeDepth := 60) [h]

@[simp] theorem kept_State_setSlot {s0 s : State} (a1) (a2) (h : Kept s0 s) : Kept s0 (State.setSlot s a1 a2) := by
  unfold State.setSlot
  simp (maxDischargeDepth := 60) [h]

theorem kept_third {s t : State} {α β : Type} {a : α} {b : β} (h : Kept s t) : Kept s (a, b, t).2.2 := h

@[simp] theorem kept_framesRead {s0 s : State} (n b env l fr) (h : Kept s0 s) : Kept s0 (framesRead n b env l fr s).2.2 := by
  induction l generalizing fr s with
  | nil => rw [framesRead]; exact h
  | cons i is ih =>
    rw [framesRead]
    generalize e : plainRead _ _ _ _ s = m
    have k : Kept s0 m.2 := e ▸ kept_plainRead _ _ _ _ h
    split
    · exact ih _ k
    · exact kept_third k


@[simp] theorem kept_slotRead {s0 s : State} (a1) (a2) (a3) (a4) (h : Kept s0 s) : Kept s0 (slotRead a1 a2 a3 a4 s).2.2 := by
  first | rewrite [slotRead] | unfold slotRead
  try dsimp only
  repeat' first
    | with_reducible assumption
    | with_reducible intro t
    | with_reducible apply kept_framesRead
    | with_reducible exact Kept.rfl' _
    | split

@[simp] theorem kept_framesWrite {s0 s : State} (a1) (a2) (a3) (a4) (h : Kept s0 s) : Kept s0 (framesWrite a1 a2 a3 a4 s).2 := by
  first | rewrite [framesWrite] | unfold framesWrite
  try dsimp only
  repeat' first
    | with_reducible assumption
    | with_reducible intro t
    | with_reducible refine kept_foldl ?_ (fun t a ht => ?_)
    | with_reducible refine kept_foldl_prod ?_ (fun t a ht => ?_)
    | with_reducible refine kept_foldl_prod2 ?_ (fun t a ht => ?_)
    | with_reducible refine kept_foldl_prod3 ?_ (fun t a ht => ?_)
    | with_reducible refine kept_foldl_prod4 ?_ (fun t a ht => ?_)
    | with_reducible apply kept_State_okay
    | with_reducible apply kept_longWrite
    | with_reducible exact Kept.rfl' _
    | (split <;> (try simp only [Prod.ext_iff, opt_eq s0] at *) <;> (try casesm* _ ∧ _) <;> (try subst_vars) <;> (try dsimp only))

@[simp] theorem kept_slotWrite {s0 s : State} (a1) (a2) (a3) (a4) (h : Kept s0 s) : Kept s0 (slotWrite a1 a2 a3 a4 s).2 := by
  first | rewrite [slotWrite] | unfold slotWrite
  try dsimp only
  repeat' first
    | with_reducible assumption
    | with_reducible intro t
    | with_reducible apply kept_framesWrite
    | with_reducible exact Kept.rfl' _
    | split

@[simp] theorem kept_pgrResult {s0 s : State} (a1) (a2) (a3) (h : Kept s0 s) : Kept s0 (pgrResult a1 a2 a3 s) := by
  first | rewrite [pgrResult] | unfold pgrResult
  try dsimp only
  repeat' first
    | (simp (maxDischargeDepth := 60) (contextual := true) [h]; done)
    | (split <;> (try simp only [Prod.ext_iff, opt_eq s0] at *) <;> (try casesm* _ ∧ _) <;> (try subst_vars) <;> (try dsimp only))

@[simp] theorem kept_planApply {s0 s : State} (a1) (a2) (h : Kept s0 s) : Kept s0 (planApply a1 a2 s).2 := by
  first | rewrite [planApply] | unfold planApply
  try dsimp only
  repeat' first
    | with_reducible assumption
    | with_reducible intro t
    | with_reducible refine kept_foldl ?_ (fun t a ht => ?_)
    | with_reducible refine kept_foldl_prod ?_ (fun t a ht => ?_)
    | with_reducible refine kept_foldl_prod2 ?_ (fun t a ht => ?_)
    | with_reducible refine kept_foldl_prod3 ?_ (fun t a ht => ?_)
    | with_reducible refine kept_foldl_prod4 ?_ (fun t a ht => ?_)
    | with_reducible apply kept_State_put
    | with_reducible apply kept_State_raise
    | with_reducible apply kept_State_setQtz
    | with_reducible apply kept_qtzCommitWrite
    | with_reducible exact Kept.rfl' _
    | simp only [kept_mk_iff]
    | (split <;> (try simp only [Prod.ext_iff, opt_eq s0] at *) <;> (try casesm* _ ∧ _) <;> (try subst_vars) <;> (try dsimp only))

@[simp] theorem kept_planStart {s0 s : State} (a1) (a2) (h : Kept s0 s) : Kept s0 (planStart a1 a2 s).2 := by
  first | rewrite [planStart] | unfold planStart
  try dsimp only
  repeat' first
    | with_reducible assumption
    | with_reducible intro t
    | with_reducible apply kept_planApply
    | with_reducible exact Kept.rfl' _
    | simp only [kept_mk_iff]
    | split

@[simp] theorem kept_planUndo {s0 s : State} (a1) (h : Kept s0 s) : Kept s0 (planUndo a1 s) := by
  first | rewrite [planUndo] | unfold planUndo
  try dsimp only
  repeat' first
    | (simp (maxDischargeDepth := 60) (contextual := true) [h]; done)
    | (split <;> (try simp only [Prod.ext_iff, opt_eq s0] at *) <;> (try casesm* _ ∧ _) <;> (try subst_vars) <;> (try dsimp only))

@[simp] theorem kept_icpUse {s0 s : State} (a1) (h : Kept s0 s) : Kept s0 (icpUse a1 s) := by
  unfold icpUse
  simp (maxDischargeDepth := 60) [h]

@[simp] theorem kept_icpFreed {s0 s : State} (a1) (h : Kept s0 s) : Kept s0 (icpFreed a1 s) := by
  unfold icpFreed
  simp (maxDischargeDepth := 60) [h]

@[simp] theorem kept_pgrBegin {s0 s : State} (a1) (h : Kept s0 s) : Kept s0 (pgrBegin a1 s) := by
  first | rewrite [pgrBegin] | unfold pgrBegin
  try dsimp only
  repeat' first
    | (simp (maxDischargeDepth := 60) (contextual := true) [h]; done)
    | (split <;> (try simp only [Prod.ext_iff, opt_eq s0] at *) <;> (try casesm* _ ∧ _) <;> (try subst_vars) <;> (try dsimp only))

@[simp] theorem kept_pgrNext {s0 s : State} (a1) (h : Kept s0 s) : Kept s0 (pgrNext a1 s) := by
  induction a1 generalizing s with
  | zero => rw [pgrNext]; exact h
  | succ n ih =>
    rewrite [pgrNext]
    try dsimp only
    repeat' first
      | with_reducible assumption
      | with_reducible intro t
      | with_reducible apply kept_State_setPgr
      | with_reducible apply kept_pgrResult
      | with_reducible apply kept_pgrBegin
      | with_reducible exact Kept.rfl' _
      | with_reducible apply ih
      | simp only [kept_mk_iff]
      | (split <;> (try simp only [Prod.ext_iff, opt_eq s0] at *) <;> (try casesm* _ ∧ _) <;> (try subst_vars) <;> (try dsimp only))

@[simp] theorem kept_pgrSubmit {s0 s : State} (a1) (h : Kept s0 s) : Kept s0 (pgrSubmit a1 s) := by
  unfold pgrSubmit
  simp (maxDischargeDepth := 60) [h]

theorem kept_execCache {s0 s : State} (a1) (h : Kept s0 s) : Kept s0 (after (execCache a1 s) s0) := by
  unfold execCache
  simp (maxDischargeDepth := 60) [h]

theorem kept_execCapture {s0 s : State} (a1) (h : Kept s0 s) : Kept s0 (after (execCapture a1 s) s0) := by
  unfold execCapture
  simp (maxDischargeDepth := 60) [h]

theorem kept_execLoad {s0 s : State} (a1) (h : Kept s0 s) : Kept s0 (after (execLoad a1 s) s0) := by
  unfold execLoad
  simp (maxDischargeDepth := 60) [h]

theorem kept_execRelocate {s0 s : State} (a1) (h : Kept s0 s) : Kept s0 (after (execRelocate a1 s) s0) := by
  unfold execRelocate
  simp (maxDischargeDepth := 60) [h]

theorem kept_execSpare {s0 s : State} (a1) (h : Kept s0 s) : Kept s0 (after (execSpare a1 s) s0) := by
  unfold execSpare
  simp (maxDischargeDepth := 60) [h]

theorem kept_execBlank {s0 s : State} (a1) (h : Kept s0 s) : Kept s0 (after (execBlank a1 s) s0) := by
  unfold execBlank
  simp (maxDischargeDepth := 60) [h]

theorem kept_execBist {s0 s : State} (a1) (h : Kept s0 s) : Kept s0 (after (execBist a1 s) s0) := by
  unfold execBist
  simp (maxDischargeDepth := 60) [h]

theorem kept_execReadback {s0 s : State} (a1) (h : Kept s0 s) : Kept s0 (after (execReadback a1 s) s0) := by
  unfold execReadback
  simp (maxDischargeDepth := 60) [h]

theorem kept_execFree {s0 s : State} (a1) (h : Kept s0 s) : Kept s0 (after (execFree a1 s) s0) := by
  unfold execFree
  simp (maxDischargeDepth := 60) [h]

@[simp] theorem kept_pgrResultRead {s0 s : State} (a1) (h : Kept s0 s) : Kept s0 (pgrResultRead a1 s) := by
  first | rewrite [pgrResultRead] | unfold pgrResultRead
  try dsimp only
  repeat' first
    | (simp (maxDischargeDepth := 60) (contextual := true) [h]; done)
    | (split <;> (try simp only [Prod.ext_iff, opt_eq s0] at *) <;> (try casesm* _ ∧ _) <;> (try subst_vars) <;> (try dsimp only))

theorem kept_execResultRead {s0 s : State} (a1) (h : Kept s0 s) : Kept s0 (after (execResultRead a1 s) s0) := by
  unfold execResultRead
  simp (maxDischargeDepth := 60) [h]

@[simp] theorem kept_pgrEnd {s0 s : State} (a1) (h : Kept s0 s) : Kept s0 (pgrEnd a1 s) := by
  first | rewrite [pgrEnd] | unfold pgrEnd
  try dsimp only
  repeat' first
    | (simp (maxDischargeDepth := 60) (contextual := true) [h]; done)
    | (split <;> (try simp only [Prod.ext_iff, opt_eq s0] at *) <;> (try casesm* _ ∧ _) <;> (try subst_vars) <;> (try dsimp only))

@[simp] theorem kept_loadWindow {s0 s : State} (a1) (a2) (a3) (h : Kept s0 s) : Kept s0 (loadWindow a1 a2 a3 s) := by
  first | rewrite [loadWindow] | unfold loadWindow
  try dsimp only
  repeat' first
    | (simp (maxDischargeDepth := 60) (contextual := true) [h]; done)
    | (split <;> (try simp only [Prod.ext_iff, opt_eq s0] at *) <;> (try casesm* _ ∧ _) <;> (try subst_vars) <;> (try dsimp only))

@[simp] theorem kept_windowMix {s0 s : State} (b new) (h : Kept s0 s) : Kept s0 (windowMix b new s) :=
  kept_State_each (kept_State_fresh h) fun _ _ k => kept_storeFrame _ _ k


@[simp] theorem kept_dataMix {s0 s : State} (b new) (h : Kept s0 s) : Kept s0 (dataMix b new s) :=
  kept_State_each (kept_State_fresh h) fun _ _ k => kept_State_modSlice _ _ _ k


@[simp] theorem kept_loadMix {s0 s : State} (a1) (a2) (a3) (h : Kept s0 s) : Kept s0 (loadMix a1 a2 a3 s) := by
  unfold loadMix
  simp (maxDischargeDepth := 60) [h]

@[simp] theorem kept_blankMix {s0 s : State} (a1) (h : Kept s0 s) : Kept s0 (blankMix a1 s) := by
  unfold blankMix
  simp (maxDischargeDepth := 60) [h]

@[simp] theorem kept_bistMix {s0 s : State} (a1) (h : Kept s0 s) : Kept s0 (bistMix a1 s) := by
  unfold bistMix
  simp (maxDischargeDepth := 60) [h]

@[simp] theorem kept_abandonMix {s0 s : State} (a1) (h : Kept s0 s) : Kept s0 (abandonMix a1 s) := by
  unfold abandonMix
  simp (maxDischargeDepth := 60) [h]

@[simp] theorem kept_bayLoaded {s0 s : State} (a1) (h : Kept s0 s) : Kept s0 (bayLoaded a1 s) := by
  unfold bayLoaded
  simp (maxDischargeDepth := 60) [h]

@[simp] theorem kept_openIf {s0 s : State} (a1) (a2) (h : Kept s0 s) : Kept s0 (openIf a1 a2 s) := by
  unfold openIf
  simp (maxDischargeDepth := 60) [h]

theorem kept_loadRead {s0 : State} (r) {m : Resp × List (Nat × List W32) × State} (h : Kept s0 m.2.2) :
    Kept s0 (loadRead r m) := by
  rewrite [loadRead]
  dsimp only
  repeat' first
    | with_reducible assumption
    | with_reducible apply kept_pgrResult
    | with_reducible apply kept_pgrEnd
    | with_reducible apply kept_State_setBay
    | with_reducible apply kept_loadMix
    | with_reducible apply kept_openIf
    | with_reducible apply kept_bayLoaded
    | with_reducible apply kept_loadWindow
    | (split <;> (try simp only [Prod.ext_iff, opt_eq s0] at *) <;> (try casesm* _ ∧ _) <;> (try subst_vars) <;> (try dsimp only))


@[simp] theorem kept_doneLoad {s0 s : State} (a1) (a2) (h : Kept s0 s) : Kept s0 (doneLoad a1 a2 s) := by
  first | rewrite [doneLoad] | unfold doneLoad
  try dsimp only
  repeat' first
    | with_reducible assumption
    | with_reducible intro t
    | with_reducible apply kept_slotRead
    | with_reducible apply kept_loadRead
    | with_reducible exact Kept.rfl' _
    | split

@[simp] theorem kept_blankDone {s0 s : State} (a1) (a2) (h : Kept s0 s) : Kept s0 (blankDone a1 a2 s) := by
  unfold blankDone
  simp (maxDischargeDepth := 60) [h]

@[simp] theorem kept_doneBist {s0 s : State} (a1) (a2) (h : Kept s0 s) : Kept s0 (doneBist a1 a2 s) := by
  unfold doneBist
  simp (maxDischargeDepth := 60) [h]

@[simp] theorem kept_ueStatus {s0 s : State} (a1) (h : Kept s0 s) : Kept s0 (ueStatus a1 s).2 := by
  first | rewrite [ueStatus] | unfold ueStatus
  try dsimp only
  repeat' first
    | (simp (maxDischargeDepth := 60) (contextual := true) [h]; done)
    | (split <;> (try simp only [Prod.ext_iff, opt_eq s0] at *) <;> (try casesm* _ ∧ _) <;> (try subst_vars) <;> (try dsimp only))

@[simp] theorem kept_captureDesc {s0 s : State} (a1) (a2) (h : Kept s0 s) : Kept s0 (captureDesc a1 a2 s).2 := by
  first | rewrite [captureDesc] | unfold captureDesc
  try dsimp only
  repeat' first
    | (simp (maxDischargeDepth := 60) (contextual := true) [h]; done)
    | (split <;> (try simp only [Prod.ext_iff, opt_eq s0] at *) <;> (try casesm* _ ∧ _) <;> (try subst_vars) <;> (try dsimp only))

@[simp] theorem kept_captureFail {s0 s : State} (a1) (a2) (h : Kept s0 s) : Kept s0 (captureFail a1 a2 s) := by
  first | rewrite [captureFail] | unfold captureFail
  try dsimp only
  repeat' first
    | with_reducible assumption
    | with_reducible intro t
    | with_reducible apply kept_State_setSlot
    | with_reducible apply kept_pgrResult
    | with_reducible apply kept_pgrEnd
    | with_reducible exact Kept.rfl' _
    | simp only [kept_mk_iff]
    | split

@[simp] theorem kept_captureStore {s0 s : State} (a1) (a2) (a3) (a4) (h : Kept s0 s) : Kept s0 (captureStore a1 a2 a3 a4 s) := by
  first | rewrite [captureStore] | unfold captureStore
  try dsimp only
  repeat' first
    | with_reducible assumption
    | with_reducible intro t
    | with_reducible apply kept_State_put
    | with_reducible apply kept_State_raise
    | with_reducible apply kept_State_okay
    | with_reducible apply kept_State_setSlot
    | with_reducible apply kept_slotWrite
    | with_reducible apply kept_pgrResult
    | with_reducible apply kept_pgrEnd
    | with_reducible apply kept_ueStatus
    | with_reducible apply kept_captureFail
    | with_reducible exact Kept.rfl' _
    | simp only [kept_mk_iff]
    | (split <;> (try simp only [Prod.ext_iff, opt_eq s0] at *) <;> (try casesm* _ ∧ _) <;> (try subst_vars) <;> (try dsimp only))

@[simp] theorem kept_doneCapture {s0 s : State} (a1) (a2) (h : Kept s0 s) : Kept s0 (doneCapture a1 a2 s) := by
  rewrite [doneCapture]
  repeat' first
    | with_reducible assumption
    | simp only [after_next]
    | with_reducible refine kept_State_each ?_ (fun t a ht => ?_)
    | with_reducible refine kept_foldl_prod3 ?_ (fun t a ht => ?_)
    | with_reducible refine kept_foldl_prod4 ?_ (fun t a ht => ?_)
    | (split <;> (try simp only [Prod.ext_iff] at *) <;> (try casesm* _ ∧ _) <;> (try subst_vars))
    | with_reducible apply kept_captureDesc
    | with_reducible apply kept_captureFail
    | with_reducible apply kept_captureStore

@[simp] theorem kept_readbackEnd {s0 s : State} (a1) (h : Kept s0 s) : Kept s0 (readbackEnd a1 s) := by
  unfold readbackEnd
  simp (maxDischargeDepth := 60) [h]

@[simp] theorem kept_doneReadback {s0 s : State} (a1) (a2) (h : Kept s0 s) : Kept s0 (doneReadback a1 a2 s) := by
  first | rewrite [doneReadback] | unfold doneReadback
  try dsimp only
  repeat' first
    | (simp (maxDischargeDepth := 60) (contextual := true) [h]; done)
    | (split <;> (try simp only [Prod.ext_iff, opt_eq s0] at *) <;> (try casesm* _ ∧ _) <;> (try subst_vars) <;> (try dsimp only))

@[simp] theorem kept_imageBlocks {s0 s : State} (a1) (a2) (a3) (a4) (a5) (h : Kept s0 s) : Kept s0 (imageBlocks a1 a2 a3 a4 a5 s).2 := by
  induction a3 generalizing s a4 a5 with
  | zero => rw [imageBlocks]; exact h
  | succ n ih =>
    rewrite [imageBlocks]
    try dsimp only
    repeat' first
      | with_reducible assumption
      | with_reducible intro t
      | with_reducible apply kept_State_okay
      | with_reducible apply kept_plainRead
      | with_reducible apply kept_longRead
      | with_reducible exact Kept.rfl' _
      | with_reducible apply ih
      | simp only [kept_mk_iff]
      | (split <;> (try simp only [Prod.ext_iff, opt_eq s0] at *) <;> (try casesm* _ ∧ _) <;> (try subst_vars) <;> (try dsimp only))

@[simp] theorem kept_doneCache {s0 s : State} (a1) (a2) (h : Kept s0 s) : Kept s0 (doneCache a1 a2 s) := by
  first | rewrite [doneCache] | unfold doneCache
  try dsimp only
  repeat' first
    | with_reducible assumption
    | with_reducible intro t
    | with_reducible apply kept_State_okay
    | with_reducible apply kept_longRead
    | with_reducible apply kept_State_setSlot
    | with_reducible apply kept_slotWrite
    | with_reducible apply kept_pgrResult
    | with_reducible apply kept_pgrEnd
    | with_reducible apply kept_imageBlocks
    | with_reducible exact Kept.rfl' _
    | simp only [kept_mk_iff]
    | (split <;> (try simp only [Prod.ext_iff, opt_eq s0] at *) <;> (try casesm* _ ∧ _) <;> (try subst_vars) <;> (try dsimp only))

@[simp] theorem kept_relocateMove {s0 s : State} (a1) (a2) (h : Kept s0 s) : Kept s0 (relocateMove a1 a2 s) := by
  first | rewrite [relocateMove] | unfold relocateMove
  try dsimp only
  repeat' first
    | (simp (maxDischargeDepth := 60) (contextual := true) [h]; done)
    | (split <;> (try simp only [Prod.ext_iff, opt_eq s0] at *) <;> (try casesm* _ ∧ _) <;> (try subst_vars) <;> (try dsimp only))

@[simp] theorem kept_relocateAbandon {s0 s : State} (a1) (a2) (a3) (h : Kept s0 s) : Kept s0 (relocateAbandon a1 a2 a3 s) := by
  unfold relocateAbandon
  simp (maxDischargeDepth := 60) [h]

theorem kept_relocateRead {s0 : State} (r c n) {m : Resp × List (Nat × List W32) × State} (h : Kept s0 m.2.2) :
    Kept s0 (relocateRead r c n m).2 := by
  rewrite [relocateRead]
  dsimp only
  repeat' first
    | with_reducible assumption
    | with_reducible apply kept_loadWindow
    | (split <;> (try simp only [Prod.ext_iff, opt_eq s0] at *) <;> (try casesm* _ ∧ _) <;> (try subst_vars) <;> (try dsimp only))


@[simp] theorem kept_relocateFrames {s0 s : State} (a1) (a2) (h : Kept s0 s) : Kept s0 (relocateFrames a1 a2 s).2 := by
  first | rewrite [relocateFrames] | unfold relocateFrames
  try dsimp only
  repeat' first
    | with_reducible assumption
    | with_reducible intro t
    | with_reducible apply kept_slotRead
    | with_reducible apply kept_relocateRead
    | with_reducible exact Kept.rfl' _
    | (split <;> (try simp only [Prod.ext_iff, opt_eq s0] at *) <;> (try casesm* _ ∧ _) <;> (try subst_vars) <;> (try dsimp only))

theorem kept_relocateTaken {s0 : State} (r) {m : Resp × State} (h : Kept s0 m.2) :
    Kept s0 (relocateTaken r m) := by
  rewrite [relocateTaken]
  try dsimp only
  repeat' first
    | with_reducible assumption
    | with_reducible apply kept_relocateAbandon
    | with_reducible apply kept_State_setPgr
    | with_reducible apply kept_icpFreed
    | with_reducible apply kept_unholdBay
    | with_reducible apply kept_bayLoaded
    | with_reducible apply kept_relocateMove
    | (split <;> (try simp only [Prod.ext_iff, opt_eq s0] at *) <;> (try casesm* _ ∧ _) <;> (try subst_vars) <;> (try dsimp only))


theorem kept_execRelocateCommit {s0 s : State} (a1) (h : Kept s0 s) : Kept s0 (after (execRelocateCommit a1 s) s0) := by
  first | rewrite [execRelocateCommit] | unfold execRelocateCommit
  try dsimp only
  repeat' first
    | with_reducible assumption
    | with_reducible intro t
    | with_reducible apply kept_State_setPgr
    | with_reducible apply kept_planStart
    | with_reducible apply kept_relocateFrames
    | with_reducible apply kept_relocateTaken
    | with_reducible exact Kept.rfl' _
    | simp only [after_next]
    | with_reducible refine kept_ite_getD ?_ ?_
    | with_reducible refine kept_getD ?_ (by with_reducible assumption)
    | simp only [Option.getD_some, Option.getD_none]
    | simp only [kept_mk_iff]
    | (split <;> (try simp only [Prod.ext_iff, opt_eq s0] at *) <;> (try casesm* _ ∧ _) <;> (try subst_vars) <;> (try dsimp only))

@[simp] theorem kept_doneRelocate {s0 s : State} (a1) (h : Kept s0 s) : Kept s0 (doneRelocate a1 s) := by
  unfold doneRelocate
  simp (maxDischargeDepth := 60) [h]

@[simp] theorem kept_pgrDone {s0 s : State} (a1) (h : Kept s0 s) : Kept s0 (pgrDone a1 s) := by
  first | rewrite [pgrDone] | unfold pgrDone
  try dsimp only
  repeat' first
    | (simp (maxDischargeDepth := 60) (contextual := true) [h]; done)
    | (split <;> (try simp only [Prod.ext_iff, opt_eq s0] at *) <;> (try casesm* _ ∧ _) <;> (try subst_vars) <;> (try dsimp only))

theorem kept_execPagerCommandDone {s0 s : State} (a1) (h : Kept s0 s) : Kept s0 (after (execPagerCommandDone a1 s) s0) := by
  unfold execPagerCommandDone
  simp (maxDischargeDepth := 60) [h]

@[simp] theorem kept_pgrAbandon {s0 s : State}  (h : Kept s0 s) : Kept s0 (pgrAbandon s) := by
  first | rewrite [pgrAbandon] | unfold pgrAbandon
  try dsimp only
  repeat' first
    | (simp (maxDischargeDepth := 60) (contextual := true) [h]; done)
    | (split <;> (try simp only [Prod.ext_iff, opt_eq s0] at *) <;> (try casesm* _ ∧ _) <;> (try subst_vars) <;> (try dsimp only))

@[simp] theorem kept_pgrAbort {s0 s : State}  (h : Kept s0 s) : Kept s0 (pgrAbort s) := by
  first | rewrite [pgrAbort] | unfold pgrAbort
  try dsimp only
  repeat' first
    | (simp (maxDischargeDepth := 60) (contextual := true) [h]; done)
    | (split <;> (try simp only [Prod.ext_iff, opt_eq s0] at *) <;> (try casesm* _ ∧ _) <;> (try subst_vars) <;> (try dsimp only))

@[simp] theorem kept_rimRestore {s0 s : State}  (h : Kept s0 s) : Kept s0 (rimRestore s) := by
  first | rewrite [rimRestore] | unfold rimRestore
  try dsimp only
  repeat' first
    | (simp (maxDischargeDepth := 60) (contextual := true) [h]; done)
    | (split <;> (try simp only [Prod.ext_iff, opt_eq s0] at *) <;> (try casesm* _ ∧ _) <;> (try subst_vars) <;> (try dsimp only))

@[simp] theorem kept_pgrCtrlWrite {s0 s : State} (a1) (h : Kept s0 s) : Kept s0 (pgrCtrlWrite a1 s) := by
  first | rewrite [pgrCtrlWrite] | unfold pgrCtrlWrite
  try dsimp only
  repeat' first
    | (simp (maxDischargeDepth := 60) (contextual := true) [h]; done)
    | (split <;> (try simp only [Prod.ext_iff, opt_eq s0] at *) <;> (try casesm* _ ∧ _) <;> (try subst_vars) <;> (try dsimp only))

theorem kept_execPagerAbort {s0 s : State} (a1) (h : Kept s0 s) : Kept s0 (after (execPagerAbort a1 s) s0) := by
  unfold execPagerAbort
  simp (maxDischargeDepth := 60) [h]

@[simp] theorem kept_slabShut {s0 s : State} (a1) (h : Kept s0 s) : Kept s0 (slabShut a1 s) := by
  first | rewrite [slabShut] | unfold slabShut
  try dsimp only
  repeat' first
    | (simp (maxDischargeDepth := 60) (contextual := true) [h]; done)
    | (split <;> (try simp only [Prod.ext_iff, opt_eq s0] at *) <;> (try casesm* _ ∧ _) <;> (try subst_vars) <;> (try dsimp only))

@[simp] theorem kept_slabReopen {s0 s : State} (a1) (h : Kept s0 s) : Kept s0 (slabReopen a1 s) := by
  unfold slabReopen
  simp (maxDischargeDepth := 60) [h]

@[simp] theorem kept_fenSlabWrite {s0 s : State} (a1) (h : Kept s0 s) : Kept s0 (fenSlabWrite a1 s) := by
  first | rewrite [fenSlabWrite] | unfold fenSlabWrite
  try dsimp only
  repeat' first
    | (simp (maxDischargeDepth := 60) (contextual := true) [h]; done)
    | (split <;> (try simp only [Prod.ext_iff, opt_eq s0] at *) <;> (try casesm* _ ∧ _) <;> (try subst_vars) <;> (try dsimp only))

theorem kept_execSlabFence {s0 s : State} (a1) (h : Kept s0 s) : Kept s0 (after (execSlabFence a1 s) s0) := by
  unfold execSlabFence
  simp (maxDischargeDepth := 60) [h]

theorem kept_execSlabUnfence {s0 s : State} (a1) (h : Kept s0 s) : Kept s0 (after (execSlabUnfence a1 s) s0) := by
  unfold execSlabUnfence
  simp (maxDischargeDepth := 60) [h]

@[simp] theorem kept_fenWrite {s0 s : State} (a1) (a2) (a3) (h : Kept s0 s) : Kept s0 ((fenWrite s a1 a2 a3).getD s0) := by
  first | rewrite [fenWrite] | unfold fenWrite
  try dsimp only
  repeat' first
    | (simp (maxDischargeDepth := 60) (contextual := true) [h]; done)
    | (split <;> (try simp only [Prod.ext_iff, opt_eq s0] at *) <;> (try casesm* _ ∧ _) <;> (try subst_vars) <;> (try dsimp only))

@[simp] theorem kept_scrubMove {s0 s : State} (a1) (h : Kept s0 s) : Kept s0 (scrubMove a1 s) := by
  first | rewrite [scrubMove] | unfold scrubMove
  try dsimp only
  repeat' first
    | (simp (maxDischargeDepth := 60) (contextual := true) [h]; done)
    | (split <;> (try simp only [Prod.ext_iff, opt_eq s0] at *) <;> (try casesm* _ ∧ _) <;> (try subst_vars) <;> (try dsimp only))

theorem kept_pair {s t : State} {α : Type} {a : α} (h : Kept s t) : Kept s (a, t).2 := h

@[simp] theorem kept_goldenFrame {s0 s : State} (b a) (h : Kept s0 s) : Kept s0 (goldenFrame b a s).2 := by
  unfold goldenFrame
  split
  · exact h
  · exact kept_pair (kept_plainRead _ _ _ _ h)


@[simp] theorem kept_scrubRepair {s0 s : State} (a1) (a2) (h : Kept s0 s) : Kept s0 (scrubRepair a1 a2 s) := by
  first | rewrite [scrubRepair] | unfold scrubRepair
  try dsimp only
  repeat' first
    | (simp (maxDischargeDepth := 60) (contextual := true) [h]; done)
    | (split <;> (try simp only [Prod.ext_iff, opt_eq s0] at *) <;> (try casesm* _ ∧ _) <;> (try subst_vars) <;> (try dsimp only))

@[simp] theorem kept_scrubLasting {s0 s : State} (a1) (a2) (h : Kept s0 s) : Kept s0 (scrubLasting a1 a2 s) := by
  unfold scrubLasting
  simp (maxDischargeDepth := 60) [h]

theorem kept_execScrubFrameRead {s0 s : State} (a1) (a2) (a3) (h : Kept s0 s) : Kept s0 (after (execScrubFrameRead a1 a2 a3 s) s0) := by
  first | rewrite [execScrubFrameRead] | unfold execScrubFrameRead
  try dsimp only
  repeat' first
    | (simp (maxDischargeDepth := 60) (contextual := true) [h]; done)
    | (split <;> (try simp only [Prod.ext_iff, opt_eq s0] at *) <;> (try casesm* _ ∧ _) <;> (try subst_vars) <;> (try dsimp only))

@[simp] theorem kept_pgrWrite {s0 s : State} (a1) (a2) (a3) (h : Kept s0 s) : Kept s0 ((pgrWrite s a1 a2 a3).getD s0) := by
  first | rewrite [pgrWrite] | unfold pgrWrite
  try dsimp only
  repeat' first
    | (simp (maxDischargeDepth := 60) (contextual := true) [h]; done)
    | (split <;> (try simp only [Prod.ext_iff, opt_eq s0] at *) <;> (try casesm* _ ∧ _) <;> (try subst_vars) <;> (try dsimp only))

@[simp] theorem kept_State_setPower {s0 s : State} (a1) (h : Kept s0 s) : Kept s0 (State.setPower s a1) := by
  unfold State.setPower
  simp (maxDischargeDepth := 60) [h]

@[simp] theorem kept_laneGroupOff {s0 s : State} (a1) (h : Kept s0 s) : Kept s0 (laneGroupOff a1 s) := by
  first | rewrite [laneGroupOff] | unfold laneGroupOff
  try dsimp only
  repeat' first
    | (simp (maxDischargeDepth := 60) (contextual := true) [h]; done)
    | (split <;> (try simp only [Prod.ext_iff, opt_eq s0] at *) <;> (try casesm* _ ∧ _) <;> (try subst_vars) <;> (try dsimp only))

@[simp] theorem kept_laneGroupUp {s0 s : State} (a1) (h : Kept s0 s) : Kept s0 (laneGroupUp a1 s) := by
  first | rewrite [laneGroupUp] | unfold laneGroupUp
  try dsimp only
  repeat' first
    | with_reducible assumption
    | with_reducible intro t
    | with_reducible refine kept_State_each ?_ (fun t a ht => ?_)
    | with_reducible apply kept_lanePstate
    | with_reducible apply kept_laneStart
    | with_reducible exact Kept.rfl' _
    | (split <;> (try simp only [Prod.ext_iff, opt_eq s0] at *) <;> (try casesm* _ ∧ _) <;> (try subst_vars) <;> (try dsimp only))

@[simp] theorem kept_bayOff {s0 s : State} (a1) (h : Kept s0 s) : Kept s0 (bayOff a1 s) := by
  unfold bayOff
  simp (maxDischargeDepth := 60) [h]

@[simp] theorem kept_spdGroupOff {s0 s : State} (a1) (h : Kept s0 s) : Kept s0 (spdGroupOff a1 s) := by
  unfold spdGroupOff
  refine kept_State_each h fun t b ht => ?_
  have k := kept_State_setBank b {} (kept_spdDrain b ht) fun _ e he => absurd he (by simp)
  dsimp only
  split
  · exact k
  · exact kept_spdLose _ k


@[simp] theorem kept_unitOff {s0 s : State} (a1) (h : Kept s0 s) : Kept s0 (unitOff a1 s) := by
  unfold unitOff
  simp (maxDischargeDepth := 60) [h]

@[simp] theorem kept_domOff {s0 s : State} (a1) (h : Kept s0 s) : Kept s0 (domOff a1 s) := by
  unfold domOff
  simp (maxDischargeDepth := 60) [h]

@[simp] theorem kept_domUp {s0 s : State} (a1) (h : Kept s0 s) : Kept s0 (domUp a1 s) := by
  unfold domUp
  simp (maxDischargeDepth := 60) [h]

theorem kept_execDomainPowerOff {s0 s : State} (a1) (h : Kept s0 s) : Kept s0 (after (execDomainPowerOff a1 s) s0) := by
  unfold execDomainPowerOff
  simp (maxDischargeDepth := 60) [h]

theorem kept_execDomainPowerOn {s0 s : State} (a1) (h : Kept s0 s) : Kept s0 (after (execDomainPowerOn a1 s) s0) := by
  unfold execDomainPowerOn
  simp (maxDischargeDepth := 60) [h]

theorem kept_execDomainDone {s0 s : State} (a1) (h : Kept s0 s) : Kept s0 (after (execDomainDone a1 s) s0) := by
  unfold execDomainDone
  simp (maxDischargeDepth := 60) [h]

theorem kept_execPowerDomain {s0 s : State} (a1) (h : Kept s0 s) : Kept s0 (after (execPowerDomain a1 s) s0) := by
  first | rewrite [execPowerDomain] | unfold execPowerDomain
  try dsimp only
  repeat' first
    | with_reducible assumption
    | with_reducible intro t
    | with_reducible apply kept_State_putBit
    | with_reducible exact Kept.rfl' _
    | with_reducible exact True.intro
    | with_reducible refine kept_reqServe _ _ ?_ ?_
    | simp only [keeps_ends, keeps_fails, keeps_does]
    | simp only [after_next]
    | (split <;> (try simp only [Prod.ext_iff, opt_eq s0] at *) <;> (try casesm* _ ∧ _) <;> (try subst_vars) <;> (try dsimp only))

@[simp] theorem kept_cmpSample {s0 s : State} (a1) (a2) (h : Kept s0 s) : Kept s0 (cmpSample a1 a2 s) := by
  unfold cmpSample
  simp (maxDischargeDepth := 60) [h]

@[simp] theorem kept_padsHold {s0 s : State}  (h : Kept s0 s) : Kept s0 (padsHold s) := by
  unfold padsHold
  simp (maxDischargeDepth := 60) [h]

@[simp] theorem kept_pwrCtrlWrite {s0 s : State} (a1) (h : Kept s0 s) : Kept s0 (pwrCtrlWrite a1 s) := by
  unfold pwrCtrlWrite
  simp (maxDischargeDepth := 60) [h]

theorem kept_execPadRelease {s0 s : State} (a1) (h : Kept s0 s) : Kept s0 (after (execPadRelease a1 s) s0) := by
  unfold execPadRelease
  simp (maxDischargeDepth := 60) [h]

@[simp] theorem kept_synthsStop {s0 s : State}  (h : Kept s0 s) : Kept s0 (synthsStop s) := by
  first | rewrite [synthsStop] | unfold synthsStop
  try dsimp only
  repeat' first
    | (simp (maxDischargeDepth := 60) (contextual := true) [h]; done)
    | (split <;> (try simp only [Prod.ext_iff, opt_eq s0] at *) <;> (try casesm* _ ∧ _) <;> (try subst_vars) <;> (try dsimp only))

@[simp] theorem kept_quartzStop {s0 s : State}  (h : Kept s0 s) : Kept s0 (quartzStop s) := by
  unfold quartzStop
  simp (maxDischargeDepth := 60) [h]

@[simp] theorem kept_domsOff {s0 s : State} (a1) (h : Kept s0 s) : Kept s0 (domsOff a1 s) := by
  first | rewrite [domsOff] | unfold domsOff
  try dsimp only
  repeat' first
    | with_reducible assumption
    | with_reducible intro t
    | with_reducible refine kept_State_each ?_ (fun t a ht => ?_)
    | with_reducible refine kept_State_when ?_ (fun t ht => ?_)
    | with_reducible apply kept_State_raise
    | with_reducible apply kept_domOff
    | with_reducible exact Kept.rfl' _
    | split

@[simp] theorem kept_standbySteps {s0 s : State}  (h : Kept s0 s) : Kept s0 (standbySteps s) := by
  first | rewrite [standbySteps] | unfold standbySteps
  try dsimp only
  repeat' first
    | (simp (maxDischargeDepth := 60) (contextual := true) [h]; done)
    | (split <;> (try simp only [Prod.ext_iff, opt_eq s0] at *) <;> (try casesm* _ ∧ _) <;> (try subst_vars) <;> (try dsimp only))

@[simp] theorem kept_standbyFinish {s0 s : State}  (h : Kept s0 s) : Kept s0 (standbyFinish s) := by
  first | rewrite [standbyFinish] | unfold standbyFinish
  try dsimp only
  repeat' first
    | (simp (maxDischargeDepth := 60) (contextual := true) [h]; done)
    | (split <;> (try simp only [Prod.ext_iff, opt_eq s0] at *) <;> (try casesm* _ ∧ _) <;> (try subst_vars) <;> (try dsimp only))

@[simp] theorem kept_standbyExit {s0 s : State}  (h : Kept s0 s) : Kept s0 (standbyExit s) := by
  first | rewrite [standbyExit] | unfold standbyExit
  try dsimp only
  repeat' first
    | (simp (maxDischargeDepth := 60) (contextual := true) [h]; done)
    | (split <;> (try simp only [Prod.ext_iff, opt_eq s0] at *) <;> (try casesm* _ ∧ _) <;> (try subst_vars) <;> (try dsimp only))

@[simp] theorem kept_deviceReset {s0 s : State} (h : Kept s0 s) : Kept s0 (deviceReset s) :=
  ⟨h.pending, h.key, fun _ => rfl, fun _ _ _ he => absurd he (by simp [State.bank, deviceReset, State.reset, Tbl.get, Tbl.find])⟩


@[simp] theorem kept_railsFence {s0 s : State}  (h : Kept s0 s) : Kept s0 (railsFence s) := by
  first | rewrite [railsFence] | unfold railsFence
  try dsimp only
  repeat' first
    | with_reducible assumption
    | with_reducible intro t
    | with_reducible refine kept_State_each ?_ (fun t a ht => ?_)
    | with_reducible apply kept_State_putBit
    | with_reducible exact Kept.rfl' _
    | split

theorem wf_nothing {l : List Host.Cell} {d d' : Nat → Option Byte} (h : Memory.wf d l = true) (k : ∀ a, d' a = none) :
    Memory.wf d' l = true := wf_default h fun a b e => by simp [k] at e

theorem kept_regs {s0 s : State} (l : List Reg) (h : Kept s0 s) (x : State) (i : Nat) :
    Kept s0 (s.each l fun u r => u.wr r i (x.rd r i)) := kept_State_each h fun _ _ k => kept_State_wr _ _ _ k

theorem each_filled {α : Type} (l : List α) (g : State → α → State) (u : State) (h : ∀ t a, (g t a).filled = t.filled) :
    (u.each l g).filled = u.filled := by
  unfold State.each
  induction l generalizing u with
  | nil => rfl
  | cons a l ih => exact (ih _).trans (h _ _)

theorem deviceReset_filled (s : State) : (deviceReset s).filled = [] := rfl

theorem putBit_filled (t : State) (f i k b) : (t.putBit f i k b).filled = t.filled := by
  unfold State.putBit
  dsimp only
  split
  · rfl
  · split <;> rfl

@[simp] theorem kept_hibernateExit {s0 s : State} (h : Kept s0 s) : Kept s0 (hibernateExit s) := by
  unfold hibernateExit
  extract_lets t keep t1 t2 rb inBank sv fb db t3 t4 t5
  have k : Kept s0 t2 :=
    kept_State_each (kept_State_each (kept_railsFence (kept_deviceReset h)) fun _ _ k => kept_State_wr _ _ _ k)
      fun _ _ k => kept_State_wr _ _ _ k
  have f : t2.filled = [] :=
    (show t2.filled = t1.filled from each_filled _ _ _ fun _ _ => rfl).trans
      ((show t1.filled = t.filled from each_filled _ _ _ fun _ _ => rfl).trans
        ((show t.filled = (deviceReset s).filled from each_filled _ _ _ fun _ _ => putBit_filled _ _ _ _ _).trans
          (deviceReset_filled s)))
  have k3 : Kept s0 t3 := by
    refine kept_mk_mem k fun w => ?_
    rw [f]
    exact wf_nothing (wf_filter _ (h.mem w)) (by simp [memDefault])
  exact kept_State_raise _ _ (kept_State_put _ _ _ (kept_cfgRestart _ _ _ (kept_State_each k3 fun _ _ k => kept_State_wr _ _ _ k)))


@[simp] theorem kept_wakeUp {s0 s : State}  (h : Kept s0 s) : Kept s0 (wakeUp s) := by
  unfold wakeUp
  simp (maxDischargeDepth := 60) [h]

@[simp] theorem kept_wakeReplay {s0 s : State}  (h : Kept s0 s) : Kept s0 (wakeReplay s) := by
  first | rewrite [wakeReplay] | unfold wakeReplay
  try dsimp only
  repeat' first
    | (simp (maxDischargeDepth := 60) (contextual := true) [h]; done)
    | (split <;> (try simp only [Prod.ext_iff, opt_eq s0] at *) <;> (try casesm* _ ∧ _) <;> (try subst_vars) <;> (try dsimp only))

@[simp] theorem kept_pwrEnter {s0 s : State} (a1) (h : Kept s0 s) : Kept s0 (pwrEnter a1 s) := by
  unfold pwrEnter
  simp (maxDischargeDepth := 60) [h]

@[simp] theorem kept_pwrAsk {s0 s : State} (a1) (h : Kept s0 s) : Kept s0 (pwrAsk a1 s) := by
  unfold pwrAsk
  simp (maxDischargeDepth := 60) [h]

theorem kept_execPowerState {s0 s : State} (a1) (h : Kept s0 s) : Kept s0 (after (execPowerState a1 s) s0) := by
  first | rewrite [execPowerState] | unfold execPowerState
  try dsimp only
  repeat' first
    | with_reducible assumption
    | with_reducible intro t
    | with_reducible apply kept_pwrAsk
    | with_reducible exact Kept.rfl' _
    | with_reducible exact True.intro
    | with_reducible refine kept_reqServe _ _ ?_ ?_
    | simp only [keeps_ends, keeps_fails, keeps_does]
    | simp only [after_next]
    | (split <;> (try simp only [Prod.ext_iff, opt_eq s0] at *) <;> (try casesm* _ ∧ _) <;> (try subst_vars) <;> (try dsimp only))

@[simp] theorem kept_wakeFire {s0 s : State} (a1) (h : Kept s0 s) : Kept s0 (wakeFire a1 s) := by
  unfold wakeFire
  simp (maxDischargeDepth := 60) [h]

theorem kept_execWake {s0 s : State} (a1) (h : Kept s0 s) : Kept s0 (after (execWake a1 s) s0) := by
  unfold execWake
  simp (maxDischargeDepth := 60) [h]

theorem kept_execComparatorSample {s0 s : State} (a1) (a2) (h : Kept s0 s) : Kept s0 (after (execComparatorSample a1 a2 s) s0) := by
  first | rewrite [execComparatorSample] | unfold execComparatorSample
  try dsimp only
  repeat' first
    | with_reducible assumption
    | with_reducible intro t
    | with_reducible refine kept_State_when ?_ (fun t ht => ?_)
    | with_reducible apply kept_cmpSample
    | with_reducible apply kept_wakeFire
    | with_reducible exact Kept.rfl' _
    | simp only [after_next]
    | (split <;> (try simp only [Prod.ext_iff, opt_eq s0] at *) <;> (try casesm* _ ∧ _) <;> (try subst_vars) <;> (try dsimp only))

theorem kept_execEventSourceRise {s0 s : State} (a1) (a2) (h : Kept s0 s) : Kept s0 (after (execEventSourceRise a1 a2 s) s0) := by
  first | rewrite [execEventSourceRise] | unfold execEventSourceRise
  try dsimp only
  repeat' first
    | (simp (maxDischargeDepth := 60) (contextual := true) [h]; done)
    | (split <;> (try simp only [Prod.ext_iff, opt_eq s0] at *) <;> (try casesm* _ ∧ _) <;> (try subst_vars) <;> (try dsimp only))

@[simp] theorem kept_pwrWrite {s0 s : State} (a1) (a2) (a3) (h : Kept s0 s) : Kept s0 ((pwrWrite s a1 a2 a3).getD s0) := by
  first | rewrite [pwrWrite] | unfold pwrWrite
  try dsimp only
  repeat' first
    | (simp (maxDischargeDepth := 60) (contextual := true) [h]; done)
    | (split <;> (try simp only [Prod.ext_iff, opt_eq s0] at *) <;> (try casesm* _ ∧ _) <;> (try subst_vars) <;> (try dsimp only))

@[simp] theorem kept_dmaStart {s0 s : State} (a1) (h : Kept s0 s) : Kept s0 (dmaStart a1 s) := by
  unfold dmaStart
  simp (maxDischargeDepth := 60) [h]

@[simp] theorem kept_dmaStop {s0 s : State} (a1) (h : Kept s0 s) : Kept s0 (dmaStop a1 s) := by
  first | rewrite [dmaStop] | unfold dmaStop
  try dsimp only
  repeat' first
    | (simp (maxDischargeDepth := 60) (contextual := true) [h]; done)
    | (split <;> (try simp only [Prod.ext_iff, opt_eq s0] at *) <;> (try casesm* _ ∧ _) <;> (try subst_vars) <;> (try dsimp only))

@[simp] theorem kept_dmaCtrlWrite {s0 s : State} (a1) (a2) (h : Kept s0 s) : Kept s0 (dmaCtrlWrite a1 a2 s) := by
  first | rewrite [dmaCtrlWrite] | unfold dmaCtrlWrite
  try dsimp only
  repeat' first
    | (simp (maxDischargeDepth := 60) (contextual := true) [h]; done)
    | (split <;> (try simp only [Prod.ext_iff, opt_eq s0] at *) <;> (try casesm* _ ∧ _) <;> (try subst_vars) <;> (try dsimp only))

@[simp] theorem kept_dmaWrite {s0 s : State} (a1) (a2) (a3) (h : Kept s0 s) : Kept s0 ((dmaWrite s a1 a2 a3).getD s0) := by
  first | rewrite [dmaWrite] | unfold dmaWrite
  try dsimp only
  repeat' first
    | (simp (maxDischargeDepth := 60) (contextual := true) [h]; done)
    | (split <;> (try simp only [Prod.ext_iff, opt_eq s0] at *) <;> (try casesm* _ ∧ _) <;> (try subst_vars) <;> (try dsimp only))

theorem kept_execDmaGo {s0 s : State} (a1) (a2) (h : Kept s0 s) : Kept s0 (after (execDmaGo a1 a2 s) s0) := by
  unfold execDmaGo
  simp (maxDischargeDepth := 60) [h]

@[simp] theorem kept_rcTake {s0 s : State} (a1) (a2) (a3) (h : Kept s0 s) : Kept s0 (rcTake a1 a2 a3 s) := by
  first | rewrite [rcTake] | unfold rcTake
  try dsimp only
  repeat' first
    | (simp (maxDischargeDepth := 60) (contextual := true) [h]; done)
    | (split <;> (try simp only [Prod.ext_iff, opt_eq s0] at *) <;> (try casesm* _ ∧ _) <;> (try subst_vars) <;> (try dsimp only))

@[simp] theorem kept_countSample {s0 s : State} (a1) (a2) (h : Kept s0 s) : Kept s0 (countSample a1 a2 s) := by
  unfold countSample
  simp (maxDischargeDepth := 60) [h]

@[simp] theorem kept_regRead {s0 s : State} (a1) (a2) (a3) (a4) (a5) (h : Kept s0 s) : Kept s0 (regRead a1 a2 a3 a4 a5 s).2 := by
  first | rewrite [regRead] | unfold regRead
  try dsimp only
  repeat' first
    | (simp (maxDischargeDepth := 60) (contextual := true) [h]; done)
    | (split <;> (try simp only [Prod.ext_iff, opt_eq s0] at *) <;> (try casesm* _ ∧ _) <;> (try subst_vars) <;> (try dsimp only))

@[simp] theorem kept_regAccess {s0 s : State} (a1) (a2) (a3) (a4) (a5) (a6) (h : Kept s0 s) : Kept s0 (regAccess a1 a2 a3 a4 a5 a6 s).2 := by
  first | rewrite [regAccess] | unfold regAccess
  try dsimp only
  repeat' first
    | (simp (maxDischargeDepth := 60) (contextual := true) [h]; done)
    | (split <;> (try simp only [Prod.ext_iff, opt_eq s0] at *) <;> (try casesm* _ ∧ _) <;> (try subst_vars) <;> (try dsimp only))

@[simp] theorem kept_unitWrite {s0 s : State} (a1) (a2) (a3) (a4) (h : Kept s0 s) : Kept s0 ((unitWrite s a1 a2 a3 a4).getD s0) := by
  first | rewrite [unitWrite] | unfold unitWrite
  try dsimp only
  repeat' first
    | (simp (maxDischargeDepth := 60) (contextual := true) [h]; done)
    | (split <;> (try simp only [Prod.ext_iff, opt_eq s0] at *) <;> (try casesm* _ ∧ _) <;> (try subst_vars) <;> (try dsimp only))

@[simp] theorem kept_regWrite {s0 s : State} (a1) (a2) (a3) (a4) (h : Kept s0 s) : Kept s0 (regWrite a1 a2 a3 a4 s) := by
  first | rewrite [regWrite] | unfold regWrite
  try dsimp only
  repeat' first
    | (simp (maxDischargeDepth := 60) (contextual := true) [h]; done)
    | (split <;> (try simp only [Prod.ext_iff, opt_eq s0] at *) <;> (try casesm* _ ∧ _) <;> (try subst_vars) <;> (try dsimp only))

@[simp] theorem kept_dropHeld {s0 s : State} (a1) (a2) (a3) (h : Kept s0 s) : Kept s0 (dropHeld a1 a2 a3 s) := by
  first | rewrite [dropHeld] | unfold dropHeld
  try dsimp only
  repeat' first
    | (simp (maxDischargeDepth := 60) (contextual := true) [h]; done)
    | (split <;> (try simp only [Prod.ext_iff, opt_eq s0] at *) <;> (try casesm* _ ∧ _) <;> (try subst_vars) <;> (try dsimp only))

@[simp] theorem kept_regPut {s0 s : State} (a1) (a2) (a3) (a4) (a5) (a6) (h : Kept s0 s) : Kept s0 (regPut a1 a2 a3 a4 a5 a6 s).2 := by
  first | rewrite [regPut] | unfold regPut
  try dsimp only
  repeat' first
    | (simp (maxDischargeDepth := 60) (contextual := true) [h]; done)
    | (split <;> (try simp only [Prod.ext_iff, opt_eq s0] at *) <;> (try casesm* _ ∧ _) <;> (try subst_vars) <;> (try dsimp only))

@[simp] theorem kept_csrRead {s0 s : State} (a1) (a2) (a3) (a4) (h : Kept s0 s) : Kept s0 (csrRead a1 a2 a3 a4 s).2 := by
  first | rewrite [csrRead] | unfold csrRead
  try dsimp only
  repeat' first
    | (simp (maxDischargeDepth := 60) (contextual := true) [h]; done)
    | (split <;> (try simp only [Prod.ext_iff, opt_eq s0] at *) <;> (try casesm* _ ∧ _) <;> (try subst_vars) <;> (try dsimp only))

@[simp] theorem kept_csrWrite {s0 s : State} (a1) (a2) (a3) (h : Kept s0 s) : Kept s0 (csrWrite a1 a2 a3 s).2 := by
  first | rewrite [csrWrite] | unfold csrWrite
  try dsimp only
  repeat' first
    | (simp (maxDischargeDepth := 60) (contextual := true) [h]; done)
    | (split <;> (try simp only [Prod.ext_iff, opt_eq s0] at *) <;> (try casesm* _ ∧ _) <;> (try subst_vars) <;> (try dsimp only))

@[simp] theorem kept_busRead {s0 s : State} (c a n env) (h : Kept s0 s) : Kept s0 (busRead c a n env s).2 :=
  kept_mapRead _ _ _ _ h fun c a n env t ht => kept_csrRead c a n env ht


@[simp] theorem kept_busRead4K {s0 s : State} (c a n env) (h : Kept s0 s) : Kept s0 (busRead4K c a n env s).2 :=
  kept_mapRead4K _ _ _ _ h fun c a n env t ht => kept_csrRead c a n env ht


@[simp] theorem kept_busWrite4K {s0 s : State} (c a d env) (h : Kept s0 s) : Kept s0 (busWrite4K c a d env s).2 :=
  kept_mapWrite4K _ _ _ _ h fun c a d t ht => kept_csrWrite c a d ht


@[simp] theorem kept_busWrite {s0 s : State} (c a d env) (h : Kept s0 s) : Kept s0 (busWrite c a d env s).2 :=
  kept_mapWrite _ _ _ _ h fun c a d t ht => kept_csrWrite c a d ht


@[simp] theorem kept_sandRead {s0 s : State} (c a n env) (h : Kept s0 s) : Kept s0 (sandRead c a n env s).2 :=
  kept_netRead _ _ _ _ h fun c a n env t ht => kept_csrRead c a n env ht


@[simp] theorem kept_sandWrite {s0 s : State} (c a d p env) (h : Kept s0 s) : Kept s0 (sandWrite c a d p env s).2 :=
  kept_netWrite _ _ _ _ _ h fun c a d t ht => kept_csrWrite c a d ht


@[simp] theorem kept_sandRespond {s0 s : State} (a1) (h : Kept s0 s) : Kept s0 (sandRespond a1 s) := by
  unfold sandRespond
  simp (maxDischargeDepth := 60) [h]

@[simp] theorem kept_sandServe {s0 s : State} (a1) (a2) (h : Kept s0 s) : Kept s0 (sandServe a1 a2 s) := by
  first | rewrite [sandServe] | unfold sandServe
  try dsimp only
  repeat' first
    | (simp (maxDischargeDepth := 60) (contextual := true) [h]; done)
    | (split <;> (try simp only [Prod.ext_iff, opt_eq s0] at *) <;> (try casesm* _ ∧ _) <;> (try subst_vars) <;> (try dsimp only))

@[simp] theorem kept_keepMoving {s0 s : State} (a1) (h : Kept s0 s) : Kept s0 (keepMoving a1 s) := by
  unfold keepMoving
  simp (maxDischargeDepth := 60) [h]

@[simp] theorem kept_sandDrain {s0 s : State}  (h : Kept s0 s) : Kept s0 (sandDrain s) := by
  first | rewrite [sandDrain] | unfold sandDrain
  try dsimp only
  repeat' first
    | with_reducible assumption
    | with_reducible intro t
    | with_reducible refine kept_foldl ?_ (fun t a ht => ?_)
    | with_reducible refine kept_foldl_prod ?_ (fun t a ht => ?_)
    | with_reducible refine kept_foldl_prod2 ?_ (fun t a ht => ?_)
    | with_reducible refine kept_foldl_prod3 ?_ (fun t a ht => ?_)
    | with_reducible refine kept_foldl_prod4 ?_ (fun t a ht => ?_)
    | with_reducible apply kept_rspTake
    | with_reducible apply kept_sandServe
    | with_reducible apply kept_keepMoving
    | with_reducible exact Kept.rfl' _
    | simp only [kept_mk_iff]
    | (split <;> (try simp only [Prod.ext_iff, opt_eq s0] at *) <;> (try casesm* _ ∧ _) <;> (try subst_vars) <;> (try dsimp only))

@[simp] theorem kept_sandArrive {s0 s : State} (a1) (a2) (h : Kept s0 s) : Kept s0 (sandArrive a1 a2 s) := by
  first | rewrite [sandArrive] | unfold sandArrive
  try dsimp only
  repeat' first
    | with_reducible assumption
    | with_reducible intro t
    | with_reducible apply kept_State_put
    | with_reducible apply kept_sandDrain
    | with_reducible exact Kept.rfl' _
    | simp only [kept_mk_iff]
    | (split <;> (try simp only [Prod.ext_iff, opt_eq s0] at *) <;> (try casesm* _ ∧ _) <;> (try subst_vars) <;> (try dsimp only))

theorem kept_execSandRequest {s0 s : State} (a1) (a2) (h : Kept s0 s) : Kept s0 (after (execSandRequest a1 a2 s) s0) := by
  unfold execSandRequest
  simp (maxDischargeDepth := 60) [h]

theorem kept_execRegisterWrite {s0 s : State} (a1) (a2) (a3) (a4) (a5) (h : Kept s0 s) : Kept s0 (after (execRegisterWrite a1 a2 a3 a4 a5 s) s0) := by
  unfold execRegisterWrite
  simp (maxDischargeDepth := 60) [h]

theorem kept_execRcRegisterRead {s0 s : State} (a1) (a2) (a3) (a4) (a5) (h : Kept s0 s) : Kept s0 (after (execRcRegisterRead a1 a2 a3 a4 a5 s) s0) := by
  unfold execRcRegisterRead
  simp (maxDischargeDepth := 60) [h]

@[simp] theorem kept_privLoad {s0 s : State} (a1) (a2) (a3) (h : Kept s0 s) : Kept s0 (privLoad a1 a2 a3 s).2 := by
  first | rewrite [privLoad] | unfold privLoad
  try dsimp only
  repeat' first
    | (simp (maxDischargeDepth := 60) (contextual := true) [h]; done)
    | (split <;> (try simp only [Prod.ext_iff, opt_eq s0] at *) <;> (try casesm* _ ∧ _) <;> (try subst_vars) <;> (try dsimp only))

@[simp] theorem kept_privStore {s0 s : State} (a1) (a2) (h : Kept s0 s) : Kept s0 (privStore a1 a2 s) := by
  unfold privStore
  simp (maxDischargeDepth := 60) [h]

@[simp] theorem kept_lineFill {s0 s : State} (a1) (a2) (a3) (h : Kept s0 s) : Kept s0 (lineFill a1 a2 a3 s).2 := by
  first | rewrite [lineFill] | unfold lineFill
  try dsimp only
  repeat' first
    | (simp (maxDischargeDepth := 60) (contextual := true) [h]; done)
    | (split <;> (try simp only [Prod.ext_iff, opt_eq s0] at *) <;> (try casesm* _ ∧ _) <;> (try subst_vars) <;> (try dsimp only))

@[simp] theorem kept_lineCheck {s0 s : State} (a1) (a2) (a3) (a4) (h : Kept s0 s) : Kept s0 (lineCheck a1 a2 a3 a4 s).2 := by
  first | rewrite [lineCheck] | unfold lineCheck
  try dsimp only
  repeat' first
    | (simp (maxDischargeDepth := 60) (contextual := true) [h]; done)
    | (split <;> (try simp only [Prod.ext_iff, opt_eq s0] at *) <;> (try casesm* _ ∧ _) <;> (try subst_vars) <;> (try dsimp only))

@[simp] theorem kept_lineGet {s0 s : State} (a1) (a2) (a3) (a4) (h : Kept s0 s) : Kept s0 (lineGet a1 a2 a3 a4 s).2 := by
  first | rewrite [lineGet] | unfold lineGet
  try dsimp only
  repeat' first
    | (simp (maxDischargeDepth := 60) (contextual := true) [h]; done)
    | (split <;> (try simp only [Prod.ext_iff, opt_eq s0] at *) <;> (try casesm* _ ∧ _) <;> (try subst_vars) <;> (try dsimp only))

@[simp] theorem kept_cacheLoad {s0 s : State} (a1) (a2) (a3) (a4) (h : Kept s0 s) : Kept s0 (cacheLoad a1 a2 a3 a4 s).2 := by
  first | rewrite [cacheLoad] | unfold cacheLoad
  try dsimp only
  repeat' first
    | (simp (maxDischargeDepth := 60) (contextual := true) [h]; done)
    | (split <;> (try simp only [Prod.ext_iff, opt_eq s0] at *) <;> (try casesm* _ ∧ _) <;> (try subst_vars) <;> (try dsimp only))

@[simp] theorem kept_cacheStore {s0 s : State} (a1) (a2) (a3) (a4) (h : Kept s0 s) : Kept s0 (cacheStore a1 a2 a3 a4 s) := by
  first | rewrite [cacheStore] | unfold cacheStore
  try dsimp only
  repeat' first
    | (simp (maxDischargeDepth := 60) (contextual := true) [h]; done)
    | (split <;> (try simp only [Prod.ext_iff, opt_eq s0] at *) <;> (try casesm* _ ∧ _) <;> (try subst_vars) <;> (try dsimp only))

@[simp] theorem kept_coreLoad {s0 s : State} (a1) (a2) (a3) (a4) (a5) (h : Kept s0 s) : Kept s0 (coreLoad a1 a2 a3 a4 a5 s).2 := by
  first | rewrite [coreLoad] | unfold coreLoad
  try dsimp only
  repeat' first
    | (simp (maxDischargeDepth := 60) (contextual := true) [h]; done)
    | (split <;> (try simp only [Prod.ext_iff, opt_eq s0] at *) <;> (try casesm* _ ∧ _) <;> (try subst_vars) <;> (try dsimp only))

@[simp] theorem kept_coreStore {s0 s : State} (a1) (a2) (a3) (a4) (h : Kept s0 s) : Kept s0 (coreStore a1 a2 a3 a4 s) := by
  unfold coreStore
  simp (maxDischargeDepth := 60) [h]

end Sys2Proof.Machine
end

