-- ==== Sys2Proof/Laws/KeptControl.lean ====
section
/-! SUPPORT. Each operation of the instruction sets, the debug port, reset, the warden, and of what happens without a command is Kept. -/

set_option linter.unusedTactic false
set_option linter.unreachableTactic false
set_option linter.unusedSimpArgs false
set_option linter.unusedVariables false

namespace Sys2Proof.Machine

@[simp] theorem kept_boundaryHalt {s0 s : State} (a1) (h : Kept s0 s) : Kept s0 (boundaryHalt a1 s) := by
  unfold boundaryHalt
  simp (maxDischargeDepth := 60) [h]

@[simp] theorem kept_coreAfter {s0 s : State} (a1) (a2) (h : Kept s0 s) : Kept s0 (coreAfter a1 a2 s) := by
  unfold coreAfter
  simp (maxDischargeDepth := 60) [h]

@[simp] theorem kept_fetchTrap {s0 s : State} (a1) (a2) (a3) (h : Kept s0 s) : Kept s0 (fetchTrap a1 a2 a3 s) := by
  unfold fetchTrap
  simp (maxDischargeDepth := 60) [h]

@[simp] theorem kept_coreFetch {s0 s : State} (n f) (h : Kept s0 s) : Kept s0 (exSt (coreFetch n f s)) := by
  unfold coreFetch
  dsimp only
  split
  · simp (maxDischargeDepth := 60) [exSt, h]
  · cases f <;> dsimp only [exSt] <;> simp (maxDischargeDepth := 60) [exSt, h]


@[simp] theorem kept_coreIssue {s0 s : State} (cx) {body : Nat → State → CoreDoes} (h : Kept s0 s)
    (hb : ∀ n t, Kept s0 t → Kept s0 (body n t).st) : Kept s0 (coreIssue cx body s) := by
  rewrite [coreIssue]
  have k := kept_coreFetch (s0 := s0) cx.core.val cx.fetch h
  split
  · exact h
  · split
    · simp [h]
    · revert k
      cases coreFetch cx.core.val cx.fetch s with
      | error t => intro k; simp only [exSt] at k; simp (maxDischargeDepth := 60) [k]
      | ok t =>
        intro k; simp only [exSt] at k
        have kb := hb cx.core.val t k
        cases e : body cx.core.val t <;> rw [e] at kb <;> simp only [CoreDoes.st] at kb <;> simp (maxDischargeDepth := 60) [kb, e]


@[simp] theorem kept_coreR {s0 s : State} (a1) (a2) (a3) (a4) (a5) (h : Kept s0 s) : Kept s0 (after (coreR a1 a2 a3 a4 a5 s) s0) := by
  first | rewrite [coreR] | unfold coreR
  try dsimp only
  repeat' first
    | with_reducible assumption
    | with_reducible intro t
    | with_reducible apply kept_State_setGreg
    | with_reducible exact Kept.rfl' _
    | with_reducible refine kept_coreIssue _ ?_ (fun n t ht => ?_)
    | simp only [st_next, st_jump, st_trapped, st_stay]
    | simp only [after_next]
    | split

@[simp] theorem kept_coreI {s0 s : State} (a1) (a2) (a3) (a4) (h : Kept s0 s) : Kept s0 (after (coreI a1 a2 a3 a4 s) s0) := by
  first | rewrite [coreI] | unfold coreI
  try dsimp only
  repeat' first
    | with_reducible assumption
    | with_reducible intro t
    | with_reducible apply kept_State_setGreg
    | with_reducible exact Kept.rfl' _
    | with_reducible refine kept_coreIssue _ ?_ (fun n t ht => ?_)
    | simp only [st_next, st_jump, st_trapped, st_stay]
    | simp only [after_next]
    | split

theorem kept_execAdd {s0 s : State} (a1) (a2) (a3) (a4) (h : Kept s0 s) : Kept s0 (after (execAdd a1 a2 a3 a4 s) s0) := by
  unfold execAdd
  simp (maxDischargeDepth := 60) [h]

theorem kept_execSub {s0 s : State} (a1) (a2) (a3) (a4) (h : Kept s0 s) : Kept s0 (after (execSub a1 a2 a3 a4 s) s0) := by
  unfold execSub
  simp (maxDischargeDepth := 60) [h]

theorem kept_execAnd {s0 s : State} (a1) (a2) (a3) (a4) (h : Kept s0 s) : Kept s0 (after (execAnd a1 a2 a3 a4 s) s0) := by
  unfold execAnd
  simp (maxDischargeDepth := 60) [h]

theorem kept_execOr {s0 s : State} (a1) (a2) (a3) (a4) (h : Kept s0 s) : Kept s0 (after (execOr a1 a2 a3 a4 s) s0) := by
  unfold execOr
  simp (maxDischargeDepth := 60) [h]

theorem kept_execXor {s0 s : State} (a1) (a2) (a3) (a4) (h : Kept s0 s) : Kept s0 (after (execXor a1 a2 a3 a4 s) s0) := by
  unfold execXor
  simp (maxDischargeDepth := 60) [h]

theorem kept_execSll {s0 s : State} (a1) (a2) (a3) (a4) (h : Kept s0 s) : Kept s0 (after (execSll a1 a2 a3 a4 s) s0) := by
  unfold execSll
  simp (maxDischargeDepth := 60) [h]

theorem kept_execSrl {s0 s : State} (a1) (a2) (a3) (a4) (h : Kept s0 s) : Kept s0 (after (execSrl a1 a2 a3 a4 s) s0) := by
  unfold execSrl
  simp (maxDischargeDepth := 60) [h]

theorem kept_execSra {s0 s : State} (a1) (a2) (a3) (a4) (h : Kept s0 s) : Kept s0 (after (execSra a1 a2 a3 a4 s) s0) := by
  unfold execSra
  simp (maxDischargeDepth := 60) [h]

theorem kept_execSlt {s0 s : State} (a1) (a2) (a3) (a4) (h : Kept s0 s) : Kept s0 (after (execSlt a1 a2 a3 a4 s) s0) := by
  unfold execSlt
  simp (maxDischargeDepth := 60) [h]

theorem kept_execSltu {s0 s : State} (a1) (a2) (a3) (a4) (h : Kept s0 s) : Kept s0 (after (execSltu a1 a2 a3 a4 s) s0) := by
  unfold execSltu
  simp (maxDischargeDepth := 60) [h]

theorem kept_execMul {s0 s : State} (a1) (a2) (a3) (a4) (h : Kept s0 s) : Kept s0 (after (execMul a1 a2 a3 a4 s) s0) := by
  unfold execMul
  simp (maxDischargeDepth := 60) [h]

theorem kept_execMulh {s0 s : State} (a1) (a2) (a3) (a4) (h : Kept s0 s) : Kept s0 (after (execMulh a1 a2 a3 a4 s) s0) := by
  unfold execMulh
  simp (maxDischargeDepth := 60) [h]

theorem kept_execMulhu {s0 s : State} (a1) (a2) (a3) (a4) (h : Kept s0 s) : Kept s0 (after (execMulhu a1 a2 a3 a4 s) s0) := by
  unfold execMulhu
  simp (maxDischargeDepth := 60) [h]

theorem kept_execDiv {s0 s : State} (a1) (a2) (a3) (a4) (h : Kept s0 s) : Kept s0 (after (execDiv a1 a2 a3 a4 s) s0) := by
  unfold execDiv
  simp (maxDischargeDepth := 60) [h]

theorem kept_execDivu {s0 s : State} (a1) (a2) (a3) (a4) (h : Kept s0 s) : Kept s0 (after (execDivu a1 a2 a3 a4 s) s0) := by
  unfold execDivu
  simp (maxDischargeDepth := 60) [h]

theorem kept_execRem {s0 s : State} (a1) (a2) (a3) (a4) (h : Kept s0 s) : Kept s0 (after (execRem a1 a2 a3 a4 s) s0) := by
  unfold execRem
  simp (maxDischargeDepth := 60) [h]

theorem kept_execRemu {s0 s : State} (a1) (a2) (a3) (a4) (h : Kept s0 s) : Kept s0 (after (execRemu a1 a2 a3 a4 s) s0) := by
  unfold execRemu
  simp (maxDischargeDepth := 60) [h]

theorem kept_execAddi {s0 s : State} (a1) (a2) (a3) (a4) (h : Kept s0 s) : Kept s0 (after (execAddi a1 a2 a3 a4 s) s0) := by
  unfold execAddi
  simp (maxDischargeDepth := 60) [h]

theorem kept_execAndi {s0 s : State} (a1) (a2) (a3) (a4) (h : Kept s0 s) : Kept s0 (after (execAndi a1 a2 a3 a4 s) s0) := by
  unfold execAndi
  simp (maxDischargeDepth := 60) [h]

theorem kept_execOri {s0 s : State} (a1) (a2) (a3) (a4) (h : Kept s0 s) : Kept s0 (after (execOri a1 a2 a3 a4 s) s0) := by
  unfold execOri
  simp (maxDischargeDepth := 60) [h]

theorem kept_execXori {s0 s : State} (a1) (a2) (a3) (a4) (h : Kept s0 s) : Kept s0 (after (execXori a1 a2 a3 a4 s) s0) := by
  unfold execXori
  simp (maxDischargeDepth := 60) [h]

theorem kept_execSlli {s0 s : State} (a1) (a2) (a3) (a4) (h : Kept s0 s) : Kept s0 (after (execSlli a1 a2 a3 a4 s) s0) := by
  unfold execSlli
  simp (maxDischargeDepth := 60) [h]

theorem kept_execSrli {s0 s : State} (a1) (a2) (a3) (a4) (h : Kept s0 s) : Kept s0 (after (execSrli a1 a2 a3 a4 s) s0) := by
  unfold execSrli
  simp (maxDischargeDepth := 60) [h]

theorem kept_execSrai {s0 s : State} (a1) (a2) (a3) (a4) (h : Kept s0 s) : Kept s0 (after (execSrai a1 a2 a3 a4 s) s0) := by
  unfold execSrai
  simp (maxDischargeDepth := 60) [h]

theorem kept_execSlti {s0 s : State} (a1) (a2) (a3) (a4) (h : Kept s0 s) : Kept s0 (after (execSlti a1 a2 a3 a4 s) s0) := by
  unfold execSlti
  simp (maxDischargeDepth := 60) [h]

theorem kept_execSltiu {s0 s : State} (a1) (a2) (a3) (a4) (h : Kept s0 s) : Kept s0 (after (execSltiu a1 a2 a3 a4 s) s0) := by
  unfold execSltiu
  simp (maxDischargeDepth := 60) [h]

theorem kept_execLui {s0 s : State} (a1) (a2) (a3) (h : Kept s0 s) : Kept s0 (after (execLui a1 a2 a3 s) s0) := by
  unfold execLui
  simp (maxDischargeDepth := 60) [h]

theorem kept_execShori {s0 s : State} (a1) (a2) (a3) (a4) (h : Kept s0 s) : Kept s0 (after (execShori a1 a2 a3 a4 s) s0) := by
  unfold execShori
  simp (maxDischargeDepth := 60) [h]

@[simp] theorem kept_loadEnds {s0 : State} (n rd a k sg) {p : LoadEnd × State} (h : Kept s0 p.2) :
    Kept s0 (loadEnds n rd a k sg p).st := by
  obtain ⟨e, t⟩ := p
  cases e <;> simp (maxDischargeDepth := 60) [loadEnds, CoreDoes.st] at * <;> simp (maxDischargeDepth := 60) [h]


@[simp] theorem kept_coreLd {s0 s : State} (a1) (a2) (a3) (a4) (a5) (a6) (a7) (h : Kept s0 s) : Kept s0 (after (coreLd a1 a2 a3 a4 a5 a6 a7 s) s0) := by
  first | rewrite [coreLd] | unfold coreLd
  try dsimp only
  repeat' first
    | with_reducible assumption
    | with_reducible intro t
    | with_reducible apply kept_State_fresh
    | with_reducible apply kept_trap
    | with_reducible apply kept_coreLoad
    | with_reducible apply kept_loadEnds
    | with_reducible exact Kept.rfl' _
    | with_reducible refine kept_coreIssue _ ?_ (fun n t ht => ?_)
    | simp only [st_next, st_jump, st_trapped, st_stay]
    | simp only [after_next]
    | simp only [kept_mk_iff]
    | (split <;> (try simp only [Prod.ext_iff, opt_eq s0] at *) <;> (try casesm* _ ∧ _) <;> (try subst_vars) <;> (try dsimp only))

@[simp] theorem kept_coreSt {s0 s : State} (a1) (a2) (a3) (a4) (a5) (a6) (h : Kept s0 s) : Kept s0 (after (coreSt a1 a2 a3 a4 a5 a6 s) s0) := by
  first | rewrite [coreSt] | unfold coreSt
  try dsimp only
  repeat' first
    | with_reducible assumption
    | with_reducible intro t
    | with_reducible apply kept_State_fresh
    | with_reducible apply kept_trap
    | with_reducible apply kept_coreStore
    | with_reducible exact Kept.rfl' _
    | with_reducible refine kept_coreIssue _ ?_ (fun n t ht => ?_)
    | simp only [st_next, st_jump, st_trapped, st_stay]
    | simp only [after_next]
    | simp only [kept_mk_iff]
    | (split <;> (try simp only [Prod.ext_iff, opt_eq s0] at *) <;> (try casesm* _ ∧ _) <;> (try subst_vars) <;> (try dsimp only))

theorem kept_execLb {s0 s : State} (a1) (a2) (a3) (a4) (a5) (h : Kept s0 s) : Kept s0 (after (execLb a1 a2 a3 a4 a5 s) s0) := by
  unfold execLb
  simp (maxDischargeDepth := 60) [h]

theorem kept_execLbu {s0 s : State} (a1) (a2) (a3) (a4) (a5) (h : Kept s0 s) : Kept s0 (after (execLbu a1 a2 a3 a4 a5 s) s0) := by
  unfold execLbu
  simp (maxDischargeDepth := 60) [h]

theorem kept_execLh {s0 s : State} (a1) (a2) (a3) (a4) (a5) (h : Kept s0 s) : Kept s0 (after (execLh a1 a2 a3 a4 a5 s) s0) := by
  unfold execLh
  simp (maxDischargeDepth := 60) [h]

theorem kept_execLhu {s0 s : State} (a1) (a2) (a3) (a4) (a5) (h : Kept s0 s) : Kept s0 (after (execLhu a1 a2 a3 a4 a5 s) s0) := by
  unfold execLhu
  simp (maxDischargeDepth := 60) [h]

theorem kept_execLw {s0 s : State} (a1) (a2) (a3) (a4) (a5) (h : Kept s0 s) : Kept s0 (after (execLw a1 a2 a3 a4 a5 s) s0) := by
  unfold execLw
  simp (maxDischargeDepth := 60) [h]

theorem kept_execLwu {s0 s : State} (a1) (a2) (a3) (a4) (a5) (h : Kept s0 s) : Kept s0 (after (execLwu a1 a2 a3 a4 a5 s) s0) := by
  unfold execLwu
  simp (maxDischargeDepth := 60) [h]

theorem kept_execLd {s0 s : State} (a1) (a2) (a3) (a4) (a5) (h : Kept s0 s) : Kept s0 (after (execLd a1 a2 a3 a4 a5 s) s0) := by
  unfold execLd
  simp (maxDischargeDepth := 60) [h]

theorem kept_execSb {s0 s : State} (a1) (a2) (a3) (a4) (a5) (h : Kept s0 s) : Kept s0 (after (execSb a1 a2 a3 a4 a5 s) s0) := by
  unfold execSb
  simp (maxDischargeDepth := 60) [h]

theorem kept_execSh {s0 s : State} (a1) (a2) (a3) (a4) (a5) (h : Kept s0 s) : Kept s0 (after (execSh a1 a2 a3 a4 a5 s) s0) := by
  unfold execSh
  simp (maxDischargeDepth := 60) [h]

theorem kept_execSw {s0 s : State} (a1) (a2) (a3) (a4) (a5) (h : Kept s0 s) : Kept s0 (after (execSw a1 a2 a3 a4 a5 s) s0) := by
  unfold execSw
  simp (maxDischargeDepth := 60) [h]

theorem kept_execSd {s0 s : State} (a1) (a2) (a3) (a4) (a5) (h : Kept s0 s) : Kept s0 (after (execSd a1 a2 a3 a4 a5 s) s0) := by
  unfold execSd
  simp (maxDischargeDepth := 60) [h]

theorem kept_execLdx {s0 s : State} (a1) (a2) (a3) (a4) (h : Kept s0 s) : Kept s0 (after (execLdx a1 a2 a3 a4 s) s0) := by
  first | rewrite [execLdx] | unfold execLdx
  try dsimp only
  repeat' first
    | with_reducible assumption
    | with_reducible intro t
    | with_reducible apply kept_State_okay
    | with_reducible apply kept_State_fresh
    | with_reducible apply kept_State_setGreg
    | with_reducible apply kept_trap
    | with_reducible apply kept_trapResp
    | with_reducible apply kept_lineFlush
    | with_reducible apply kept_sandRead
    | with_reducible exact Kept.rfl' _
    | with_reducible refine kept_coreIssue _ ?_ (fun n t ht => ?_)
    | simp only [st_next, st_jump, st_trapped, st_stay]
    | simp only [after_next]
    | simp only [kept_mk_iff]
    | (split <;> (try simp only [Prod.ext_iff, opt_eq s0] at *) <;> (try casesm* _ ∧ _) <;> (try subst_vars) <;> (try dsimp only))

theorem kept_execStx {s0 s : State} (a1) (a2) (a3) (a4) (a5) (h : Kept s0 s) : Kept s0 (after (execStx a1 a2 a3 a4 a5 s) s0) := by
  first | rewrite [execStx] | unfold execStx
  try dsimp only
  repeat' first
    | with_reducible assumption
    | with_reducible intro t
    | with_reducible apply kept_State_fresh
    | with_reducible apply kept_State_setGreg
    | with_reducible apply kept_dropResv
    | with_reducible apply kept_trap
    | with_reducible apply kept_storeDone
    | with_reducible apply kept_sandWrite
    | with_reducible exact Kept.rfl' _
    | with_reducible refine kept_coreIssue _ ?_ (fun n t ht => ?_)
    | simp only [st_next, st_jump, st_trapped, st_stay]
    | simp only [after_next]
    | simp only [kept_mk_iff]
    | (split <;> (try simp only [Prod.ext_iff, opt_eq s0] at *) <;> (try casesm* _ ∧ _) <;> (try subst_vars) <;> (try dsimp only))

theorem kept_execReservationExpiry {s0 s : State} (a1) (h : Kept s0 s) : Kept s0 (after (execReservationExpiry a1 s) s0) := by
  unfold execReservationExpiry
  simp (maxDischargeDepth := 60) [h]

@[simp] theorem kept_coreB {s0 s : State} (a1) (a2) (a3) (a4) (a5) (h : Kept s0 s) : Kept s0 (after (coreB a1 a2 a3 a4 a5 s) s0) := by
  first | rewrite [coreB] | unfold coreB
  try dsimp only
  repeat' first
    | with_reducible assumption
    | with_reducible intro t
    | with_reducible exact Kept.rfl' _
    | with_reducible refine kept_coreIssue _ ?_ (fun n t ht => ?_)
    | simp only [st_next, st_jump, st_trapped, st_stay]
    | simp only [after_next]
    | split

theorem kept_execBeq {s0 s : State} (a1) (a2) (a3) (a4) (h : Kept s0 s) : Kept s0 (after (execBeq a1 a2 a3 a4 s) s0) := by
  unfold execBeq
  simp (maxDischargeDepth := 60) [h]

theorem kept_execBne {s0 s : State} (a1) (a2) (a3) (a4) (h : Kept s0 s) : Kept s0 (after (execBne a1 a2 a3 a4 s) s0) := by
  unfold execBne
  simp (maxDischargeDepth := 60) [h]

theorem kept_execBlt {s0 s : State} (a1) (a2) (a3) (a4) (h : Kept s0 s) : Kept s0 (after (execBlt a1 a2 a3 a4 s) s0) := by
  unfold execBlt
  simp (maxDischargeDepth := 60) [h]

theorem kept_execBge {s0 s : State} (a1) (a2) (a3) (a4) (h : Kept s0 s) : Kept s0 (after (execBge a1 a2 a3 a4 s) s0) := by
  unfold execBge
  simp (maxDischargeDepth := 60) [h]

theorem kept_execBltu {s0 s : State} (a1) (a2) (a3) (a4) (h : Kept s0 s) : Kept s0 (after (execBltu a1 a2 a3 a4 s) s0) := by
  unfold execBltu
  simp (maxDischargeDepth := 60) [h]

theorem kept_execBgeu {s0 s : State} (a1) (a2) (a3) (a4) (h : Kept s0 s) : Kept s0 (after (execBgeu a1 a2 a3 a4 s) s0) := by
  unfold execBgeu
  simp (maxDischargeDepth := 60) [h]

theorem kept_execJal {s0 s : State} (a1) (a2) (a3) (h : Kept s0 s) : Kept s0 (after (execJal a1 a2 a3 s) s0) := by
  first | rewrite [execJal] | unfold execJal
  try dsimp only
  repeat' first
    | with_reducible assumption
    | with_reducible intro t
    | with_reducible apply kept_State_setGreg
    | with_reducible exact Kept.rfl' _
    | with_reducible refine kept_coreIssue _ ?_ (fun n t ht => ?_)
    | simp only [st_next, st_jump, st_trapped, st_stay]
    | simp only [after_next]
    | (split <;> (try simp only [Prod.ext_iff, opt_eq s0] at *) <;> (try casesm* _ ∧ _) <;> (try subst_vars) <;> (try dsimp only))

theorem kept_execJalr {s0 s : State} (a1) (a2) (a3) (a4) (h : Kept s0 s) : Kept s0 (after (execJalr a1 a2 a3 a4 s) s0) := by
  first | rewrite [execJalr] | unfold execJalr
  try dsimp only
  repeat' first
    | with_reducible assumption
    | with_reducible intro t
    | with_reducible apply kept_State_setGreg
    | with_reducible apply kept_trap
    | with_reducible exact Kept.rfl' _
    | with_reducible refine kept_coreIssue _ ?_ (fun n t ht => ?_)
    | simp only [st_next, st_jump, st_trapped, st_stay]
    | simp only [after_next]
    | (split <;> (try simp only [Prod.ext_iff, opt_eq s0] at *) <;> (try casesm* _ ∧ _) <;> (try subst_vars) <;> (try dsimp only))

@[simp] theorem kept_coreCsr {s0 s : State} (a1) (a2) (a3) (a4) (a5) (a6) (h : Kept s0 s) : Kept s0 (after (coreCsr a1 a2 a3 a4 a5 a6 s) s0) := by
  first | rewrite [coreCsr] | unfold coreCsr
  try dsimp only
  repeat' first
    | with_reducible assumption
    | with_reducible intro t
    | with_reducible apply kept_State_setGreg
    | with_reducible apply kept_trap
    | with_reducible apply kept_csrTaken
    | with_reducible apply kept_csrPut
    | with_reducible exact Kept.rfl' _
    | with_reducible refine kept_coreIssue _ ?_ (fun n t ht => ?_)
    | simp only [st_next, st_jump, st_trapped, st_stay]
    | simp only [after_next]
    | with_reducible refine kept_ite_getD ?_ ?_
    | with_reducible refine kept_getD ?_ (by with_reducible assumption)
    | simp only [Option.getD_some, Option.getD_none]
    | simp only [kept_mk_iff]
    | (split <;> (try simp only [Prod.ext_iff, opt_eq s0] at *) <;> (try casesm* _ ∧ _) <;> (try subst_vars) <;> (try dsimp only))

theorem kept_execCsrr {s0 s : State} (a1) (a2) (a3) (h : Kept s0 s) : Kept s0 (after (execCsrr a1 a2 a3 s) s0) := by
  unfold execCsrr
  simp (maxDischargeDepth := 60) [h]

theorem kept_execCsrw {s0 s : State} (a1) (a2) (a3) (a4) (h : Kept s0 s) : Kept s0 (after (execCsrw a1 a2 a3 a4 s) s0) := by
  unfold execCsrw
  simp (maxDischargeDepth := 60) [h]

theorem kept_execCsrs {s0 s : State} (a1) (a2) (a3) (a4) (h : Kept s0 s) : Kept s0 (after (execCsrs a1 a2 a3 a4 s) s0) := by
  unfold execCsrs
  simp (maxDischargeDepth := 60) [h]

theorem kept_execCsrc {s0 s : State} (a1) (a2) (a3) (a4) (h : Kept s0 s) : Kept s0 (after (execCsrc a1 a2 a3 a4 s) s0) := by
  unfold execCsrc
  simp (maxDischargeDepth := 60) [h]

@[simp] theorem kept_coreLine {s0 s : State} (cx ra imm) {g : Nat → Nat → State → State} (h : Kept s0 s)
    (hg : ∀ n a t, Kept s0 t → Kept s0 (g n a t)) : Kept s0 (after (coreLine cx ra imm g s) s0) := by
  unfold coreLine
  simp only [after]
  refine kept_coreIssue _ h fun n t ht => ?_
  split <;> simp [CoreDoes.st, ht, hg]


theorem kept_execDclean {s0 s : State} (a1) (a2) (a3) (a4) (h : Kept s0 s) : Kept s0 (after (execDclean a1 a2 a3 a4 s) s0) := by
  first | rewrite [execDclean] | unfold execDclean
  try dsimp only
  repeat' first
    | (simp (maxDischargeDepth := 60) (contextual := true) [h]; done)
    | (split <;> (try simp only [Prod.ext_iff, opt_eq s0] at *) <;> (try casesm* _ ∧ _) <;> (try subst_vars) <;> (try dsimp only))

theorem kept_execDinv {s0 s : State} (a1) (a2) (a3) (a4) (h : Kept s0 s) : Kept s0 (after (execDinv a1 a2 a3 a4 s) s0) := by
  first | rewrite [execDinv] | unfold execDinv
  try dsimp only
  repeat' first
    | with_reducible assumption
    | with_reducible intro t
    | with_reducible apply kept_trap
    | with_reducible apply kept_lineDrop
    | with_reducible exact Kept.rfl' _
    | with_reducible refine kept_coreIssue _ ?_ (fun n t ht => ?_)
    | simp only [st_next, st_jump, st_trapped, st_stay]
    | with_reducible refine kept_atS _ _ (fun c v => ?_) ?_
    | with_reducible apply kept_trap
    | simp only [after_next]
    | (split <;> (try simp only [Prod.ext_iff, opt_eq s0] at *) <;> (try casesm* _ ∧ _) <;> (try subst_vars) <;> (try dsimp only))

theorem kept_execDflush {s0 s : State} (a1) (a2) (a3) (a4) (h : Kept s0 s) : Kept s0 (after (execDflush a1 a2 a3 a4 s) s0) := by
  first | rewrite [execDflush] | unfold execDflush
  try dsimp only
  repeat' first
    | (simp (maxDischargeDepth := 60) (contextual := true) [h]; done)
    | (split <;> (try simp only [Prod.ext_iff, opt_eq s0] at *) <;> (try casesm* _ ∧ _) <;> (try subst_vars) <;> (try dsimp only))

theorem kept_execIinv {s0 s : State} (a1) (a2) (a3) (a4) (h : Kept s0 s) : Kept s0 (after (execIinv a1 a2 a3 a4 s) s0) := by
  first | rewrite [execIinv] | unfold execIinv
  try dsimp only
  repeat' first
    | (simp (maxDischargeDepth := 60) (contextual := true) [h]; done)
    | (split <;> (try simp only [Prod.ext_iff, opt_eq s0] at *) <;> (try casesm* _ ∧ _) <;> (try subst_vars) <;> (try dsimp only))

theorem kept_execDflushAll {s0 s : State} (a1) (a2) (a3) (a4) (h : Kept s0 s) : Kept s0 (after (execDflushAll a1 a2 a3 a4 s) s0) := by
  first | rewrite [execDflushAll] | unfold execDflushAll
  try dsimp only
  repeat' first
    | with_reducible assumption
    | with_reducible intro t
    | with_reducible apply kept_cacheFlush
    | with_reducible exact Kept.rfl' _
    | with_reducible refine kept_coreIssue _ ?_ (fun n t ht => ?_)
    | simp only [st_next, st_jump, st_trapped, st_stay]
    | with_reducible refine kept_atS _ _ (fun c v => ?_) ?_
    | with_reducible apply kept_trap
    | simp only [after_next]
    | split

theorem kept_execIinvAll {s0 s : State} (a1) (a2) (a3) (a4) (h : Kept s0 s) : Kept s0 (after (execIinvAll a1 a2 a3 a4 s) s0) := by
  first | rewrite [execIinvAll] | unfold execIinvAll
  try dsimp only
  repeat' first
    | with_reducible assumption
    | with_reducible intro t
    | with_reducible apply kept_State_modCore
    | with_reducible exact Kept.rfl' _
    | with_reducible refine kept_coreIssue _ ?_ (fun n t ht => ?_)
    | simp only [st_next, st_jump, st_trapped, st_stay]
    | simp only [after_next]
    | simp only [kept_mk_iff]
    | split

theorem kept_execEcall {s0 s : State} (a1) (h : Kept s0 s) : Kept s0 (after (execEcall a1 s) s0) := by
  first | rewrite [execEcall] | unfold execEcall
  try dsimp only
  repeat' first
    | with_reducible assumption
    | with_reducible intro t
    | with_reducible apply kept_trap
    | with_reducible exact Kept.rfl' _
    | with_reducible refine kept_coreIssue _ ?_ (fun n t ht => ?_)
    | simp only [st_next, st_jump, st_trapped, st_stay]
    | simp only [after_next]
    | split

theorem kept_execTret {s0 s : State} (a1) (h : Kept s0 s) : Kept s0 (after (execTret a1 s) s0) := by
  first | rewrite [execTret] | unfold execTret
  try dsimp only
  repeat' first
    | with_reducible assumption
    | with_reducible intro t
    | with_reducible apply kept_trapReturn
    | with_reducible exact Kept.rfl' _
    | with_reducible refine kept_coreIssue _ ?_ (fun n t ht => ?_)
    | simp only [st_next, st_jump, st_trapped, st_stay]
    | with_reducible refine kept_atS _ _ (fun c v => ?_) ?_
    | with_reducible apply kept_trap
    | simp only [after_next]
    | (split <;> (try simp only [Prod.ext_iff, opt_eq s0] at *) <;> (try casesm* _ ∧ _) <;> (try subst_vars) <;> (try dsimp only))

theorem kept_execWfi {s0 s : State} (a1) (h : Kept s0 s) : Kept s0 (after (execWfi a1 s) s0) := by
  first | rewrite [execWfi] | unfold execWfi
  try dsimp only
  repeat' first
    | with_reducible assumption
    | with_reducible intro t
    | with_reducible apply kept_State_modCore
    | with_reducible exact Kept.rfl' _
    | with_reducible refine kept_coreIssue _ ?_ (fun n t ht => ?_)
    | simp only [st_next, st_jump, st_trapped, st_stay]
    | with_reducible refine kept_atS _ _ (fun c v => ?_) ?_
    | with_reducible apply kept_trap
    | simp only [after_next]
    | simp only [kept_mk_iff]
    | split

theorem kept_execFence {s0 s : State} (a1) (h : Kept s0 s) : Kept s0 (after (execFence a1 s) s0) := by
  first | rewrite [execFence] | unfold execFence
  try dsimp only
  repeat' first
    | with_reducible assumption
    | with_reducible intro t
    | with_reducible exact Kept.rfl' _
    | with_reducible refine kept_coreIssue _ ?_ (fun n t ht => ?_)
    | simp only [st_next, st_jump, st_trapped, st_stay]
    | simp only [after_next]
    | split

theorem kept_execIfence {s0 s : State} (a1) (h : Kept s0 s) : Kept s0 (after (execIfence a1 s) s0) := by
  first | rewrite [execIfence] | unfold execIfence
  try dsimp only
  repeat' first
    | with_reducible assumption
    | with_reducible intro t
    | with_reducible exact Kept.rfl' _
    | with_reducible refine kept_coreIssue _ ?_ (fun n t ht => ?_)
    | simp only [st_next, st_jump, st_trapped, st_stay]
    | simp only [after_next]
    | split

theorem kept_execBrk {s0 s : State} (a1) (h : Kept s0 s) : Kept s0 (after (execBrk a1 s) s0) := by
  first | rewrite [execBrk] | unfold execBrk
  try dsimp only
  repeat' first
    | with_reducible assumption
    | with_reducible intro t
    | with_reducible apply kept_State_raise
    | with_reducible apply kept_trap
    | with_reducible apply kept_haltFire
    | with_reducible exact Kept.rfl' _
    | with_reducible refine kept_coreIssue _ ?_ (fun n t ht => ?_)
    | simp only [st_next, st_jump, st_trapped, st_stay]
    | simp only [after_next]
    | split

theorem kept_execCoreIllegal {s0 s : State} (a1) (a2) (h : Kept s0 s) : Kept s0 (after (execCoreIllegal a1 a2 s) s0) := by
  first | rewrite [execCoreIllegal] | unfold execCoreIllegal
  try dsimp only
  repeat' first
    | with_reducible assumption
    | with_reducible intro t
    | with_reducible apply kept_trap
    | with_reducible exact Kept.rfl' _
    | with_reducible refine kept_coreIssue _ ?_ (fun n t ht => ?_)
    | simp only [st_next, st_jump, st_trapped, st_stay]
    | simp only [after_next]
    | split

theorem kept_execStoreErr {s0 s : State} (a1) (h : Kept s0 s) : Kept s0 (after (execStoreErr a1 s) s0) := by
  first | rewrite [execStoreErr] | unfold execStoreErr
  try dsimp only
  repeat' first
    | (simp (maxDischargeDepth := 60) (contextual := true) [h]; done)
    | (split <;> (try simp only [Prod.ext_iff, opt_eq s0] at *) <;> (try casesm* _ ∧ _) <;> (try subst_vars) <;> (try dsimp only))

theorem kept_execInterrupt {s0 s : State} (a1) (h : Kept s0 s) : Kept s0 (after (execInterrupt a1 s) s0) := by
  first | rewrite [execInterrupt] | unfold execInterrupt
  try dsimp only
  repeat' first
    | (simp (maxDischargeDepth := 60) (contextual := true) [h]; done)
    | (split <;> (try simp only [Prod.ext_iff, opt_eq s0] at *) <;> (try casesm* _ ∧ _) <;> (try subst_vars) <;> (try dsimp only))

@[simp] theorem kept_crossingTail {s0 s : State}  (h : Kept s0 s) : Kept s0 (crossingTail s) := by
  unfold crossingTail
  simp (maxDischargeDepth := 60) [h]

theorem kept_execOrb {s0 s : State}  (h : Kept s0 s) : Kept s0 (after (execOrb s) s0) := by
  first | rewrite [execOrb] | unfold execOrb
  try dsimp only
  repeat' first
    | (simp (maxDischargeDepth := 60) (contextual := true) [h]; done)
    | (split <;> (try simp only [Prod.ext_iff, opt_eq s0] at *) <;> (try casesm* _ ∧ _) <;> (try subst_vars) <;> (try dsimp only))

@[simp] theorem kept_crossingBoundary {s0 s : State}  (h : Kept s0 s) : Kept s0 (crossingBoundary s) := by
  unfold crossingBoundary
  simp (maxDischargeDepth := 60) [h]

theorem kept_execCrossingBoundary {s0 s : State}  (h : Kept s0 s) : Kept s0 (after (execCrossingBoundary s) s0) := by
  unfold execCrossingBoundary
  simp (maxDischargeDepth := 60) [h]

@[simp] theorem kept_tmgCnr {s0 s : State}  (h : Kept s0 s) : Kept s0 (tmgCnr s) := by
  unfold tmgCnr
  simp (maxDischargeDepth := 60) [h]

theorem kept_execCnr {s0 s : State}  (h : Kept s0 s) : Kept s0 (after (execCnr s) s0) := by
  first | rewrite [execCnr] | unfold execCnr
  try dsimp only
  repeat' first
    | (simp (maxDischargeDepth := 60) (contextual := true) [h]; done)
    | (split <;> (try simp only [Prod.ext_iff, opt_eq s0] at *) <;> (try casesm* _ ∧ _) <;> (try subst_vars) <;> (try dsimp only))

@[simp] theorem kept_tmgRsy {s0 s : State}  (h : Kept s0 s) : Kept s0 (tmgRsy s) := by
  unfold tmgRsy
  simp (maxDischargeDepth := 60) [h]

theorem kept_execRsy {s0 s : State}  (h : Kept s0 s) : Kept s0 (after (execRsy s) s0) := by
  first | rewrite [execRsy] | unfold execRsy
  try dsimp only
  repeat' first
    | (simp (maxDischargeDepth := 60) (contextual := true) [h]; done)
    | (split <;> (try simp only [Prod.ext_iff, opt_eq s0] at *) <;> (try casesm* _ ∧ _) <;> (try subst_vars) <;> (try dsimp only))

@[simp] theorem kept_tmgExa {s0 s : State}  (h : Kept s0 s) : Kept s0 (tmgExa s) := by
  unfold tmgExa
  simp (maxDischargeDepth := 60) [h]

theorem kept_execExa {s0 s : State}  (h : Kept s0 s) : Kept s0 (after (execExa s) s0) := by
  first | rewrite [execExa] | unfold execExa
  try dsimp only
  repeat' first
    | (simp (maxDischargeDepth := 60) (contextual := true) [h]; done)
    | (split <;> (try simp only [Prod.ext_iff, opt_eq s0] at *) <;> (try casesm* _ ∧ _) <;> (try subst_vars) <;> (try dsimp only))

@[simp] theorem kept_relockStep {s0 s : State}  (h : Kept s0 s) : Kept s0 (relockStep s) := by
  unfold relockStep
  simp (maxDischargeDepth := 60) [h]

theorem kept_execRelockBoundaryStep {s0 s : State}  (h : Kept s0 s) : Kept s0 (after (execRelockBoundaryStep s) s0) := by
  unfold execRelockBoundaryStep
  simp (maxDischargeDepth := 60) [h]

@[simp] theorem kept_irLoad {s0 s : State} (a1) (h : Kept s0 s) : Kept s0 (irLoad a1 s) := by
  unfold irLoad
  simp (maxDischargeDepth := 60) [h]

@[simp] theorem kept_drCapture {s0 s : State} (a1) (h : Kept s0 s) : Kept s0 (drCapture a1 s) := by
  unfold drCapture
  simp (maxDischargeDepth := 60) [h]

@[simp] theorem kept_boundaryScan {s0 s : State} (a1) (a2) (a3) (h : Kept s0 s) : Kept s0 (boundaryScan a1 a2 a3 s) := by
  unfold boundaryScan
  simp (maxDischargeDepth := 60) [h]

theorem kept_execExtest {s0 s : State} (a1) (a2) (h : Kept s0 s) : Kept s0 (after (execExtest a1 a2 s) s0) := by
  unfold execExtest
  simp (maxDischargeDepth := 60) [h]

theorem kept_execSamplePreload {s0 s : State} (a1) (a2) (h : Kept s0 s) : Kept s0 (after (execSamplePreload a1 a2 s) s0) := by
  unfold execSamplePreload
  simp (maxDischargeDepth := 60) [h]

theorem kept_execIdcode {s0 s : State}  (h : Kept s0 s) : Kept s0 (after (execIdcode s) s0) := by
  unfold execIdcode
  simp (maxDischargeDepth := 60) [h]

theorem kept_execClamp {s0 s : State}  (h : Kept s0 s) : Kept s0 (after (execClamp s) s0) := by
  unfold execClamp
  simp (maxDischargeDepth := 60) [h]

theorem kept_execHighz {s0 s : State}  (h : Kept s0 s) : Kept s0 (after (execHighz s) s0) := by
  unfold execHighz
  simp (maxDischargeDepth := 60) [h]

theorem kept_execBypass {s0 s : State} (a1) (h : Kept s0 s) : Kept s0 (after (execBypass a1 s) s0) := by
  unfold execBypass
  simp (maxDischargeDepth := 60) [h]

@[simp] theorem kept_dbgLeave {s0 s : State} (a1) (h : Kept s0 s) : Kept s0 (dbgLeave a1 s) := by
  first | rewrite [dbgLeave] | unfold dbgLeave
  try dsimp only
  repeat' first
    | (simp (maxDischargeDepth := 60) (contextual := true) [h]; done)
    | (split <;> (try simp only [Prod.ext_iff, opt_eq s0] at *) <;> (try casesm* _ ∧ _) <;> (try subst_vars) <;> (try dsimp only))

@[simp] theorem kept_emulationEnd {s0 s : State}  (h : Kept s0 s) : Kept s0 (emulationEnd s) := by
  unfold emulationEnd
  simp (maxDischargeDepth := 60) [h]

@[simp] theorem kept_levelTo {s0 s : State} (a1) (h : Kept s0 s) : Kept s0 (levelTo a1 s) := by
  first | rewrite [levelTo] | unfold levelTo
  try dsimp only
  repeat' first
    | (simp (maxDischargeDepth := 60) (contextual := true) [h]; done)
    | (split <;> (try simp only [Prod.ext_iff, opt_eq s0] at *) <;> (try casesm* _ ∧ _) <;> (try subst_vars) <;> (try dsimp only))

theorem kept_execTapReset {s0 s : State} (a1) (h : Kept s0 s) : Kept s0 (after (execTapReset a1 s) s0) := by
  first | rewrite [execTapReset] | unfold execTapReset
  try dsimp only
  repeat' first
    | (simp (maxDischargeDepth := 60) (contextual := true) [h]; done)
    | (split <;> (try simp only [Prod.ext_iff, opt_eq s0] at *) <;> (try casesm* _ ∧ _) <;> (try subst_vars) <;> (try dsimp only))

@[simp] theorem kept_State_draws {s0 s : State} (a1) (h : Kept s0 s) : Kept s0 (State.draws s a1) := by
  unfold State.draws
  simp (maxDischargeDepth := 60) [h]

@[simp] theorem kept_chalCapture {s0 s : State}  (h : Kept s0 s) : Kept s0 (chalCapture s) := by
  first | rewrite [chalCapture] | unfold chalCapture
  try dsimp only
  repeat' first
    | (simp (maxDischargeDepth := 60) (contextual := true) [h]; done)
    | (split <;> (try simp only [Prod.ext_iff, opt_eq s0] at *) <;> (try casesm* _ ∧ _) <;> (try subst_vars) <;> (try dsimp only))

@[simp] theorem kept_chalAsk {s0 s : State} (a1) (h : Kept s0 s) : Kept s0 (chalAsk a1 s) := by
  unfold chalAsk
  simp (maxDischargeDepth := 60) [h]

theorem kept_execVapChal {s0 s : State} (a1) (h : Kept s0 s) : Kept s0 (after (execVapChal a1 s) s0) := by
  unfold execVapChal
  simp (maxDischargeDepth := 60) [h]

@[simp] theorem kept_authJudge {s0 s : State} (a1) (h : Kept s0 s) : Kept s0 (authJudge a1 s) := by
  first | rewrite [authJudge] | unfold authJudge
  try dsimp only
  repeat' first
    | (simp (maxDischargeDepth := 60) (contextual := true) [h]; done)
    | (split <;> (try simp only [Prod.ext_iff, opt_eq s0] at *) <;> (try casesm* _ ∧ _) <;> (try subst_vars) <;> (try dsimp only))

theorem kept_execVapAuth {s0 s : State} (a1) (h : Kept s0 s) : Kept s0 (after (execVapAuth a1 s) s0) := by
  unfold execVapAuth
  simp (maxDischargeDepth := 60) [h]

@[simp] theorem kept_vapCtrl {s0 s : State} (a1) (h : Kept s0 s) : Kept s0 (vapCtrl a1 s) := by
  first | rewrite [vapCtrl] | unfold vapCtrl
  try dsimp only
  repeat' first
    | (simp (maxDischargeDepth := 60) (contextual := true) [h]; done)
    | (split <;> (try simp only [Prod.ext_iff, opt_eq s0] at *) <;> (try casesm* _ ∧ _) <;> (try subst_vars) <;> (try dsimp only))

@[simp] theorem kept_vapPut {s0 s : State} (a1) (a2) (h : Kept s0 s) : Kept s0 (vapPut a1 a2 s) := by
  unfold vapPut
  simp (maxDischargeDepth := 60) [h]

@[simp] theorem kept_vapAccess {s0 s : State} (a1) (h : Kept s0 s) : Kept s0 (vapAccess a1 s) := by
  unfold vapAccess
  simp (maxDischargeDepth := 60) [h]

@[simp] theorem kept_vapScan {s0 s : State} (a1) (h : Kept s0 s) : Kept s0 (vapScan a1 s) := by
  unfold vapScan
  simp (maxDischargeDepth := 60) [h]

theorem kept_execVapAcc {s0 s : State} (a1) (h : Kept s0 s) : Kept s0 (after (execVapAcc a1 s) s0) := by
  unfold execVapAcc
  simp (maxDischargeDepth := 60) [h]

theorem kept_execLevelSet {s0 s : State} (w) (h : Kept s0 s) : Kept s0 (after (execLevelSet w s) s0) := by
  unfold execLevelSet
  rw [after_next]
  exact kept_vapScan _ h


@[simp] theorem kept_vapCoreRead {s0 s : State} (a1) (a2) (a3) (a4) (h : Kept s0 s) : Kept s0 (vapCoreRead a1 a2 a3 a4 s).2.2 := by
  first | rewrite [vapCoreRead] | unfold vapCoreRead
  try dsimp only
  repeat' first
    | (simp (maxDischargeDepth := 60) (contextual := true) [h]; done)
    | (split <;> (try simp only [Prod.ext_iff, opt_eq s0] at *) <;> (try casesm* _ ∧ _) <;> (try subst_vars) <;> (try dsimp only))

@[simp] theorem kept_vapCoreWrite {s0 s : State} (a1) (a2) (a3) (a4) (h : Kept s0 s) : Kept s0 (vapCoreWrite a1 a2 a3 a4 s).2 := by
  first | rewrite [vapCoreWrite] | unfold vapCoreWrite
  try dsimp only
  repeat' first
    | (simp (maxDischargeDepth := 60) (contextual := true) [h]; done)
    | (split <;> (try simp only [Prod.ext_iff, opt_eq s0] at *) <;> (try casesm* _ ∧ _) <;> (try subst_vars) <;> (try dsimp only))

@[simp] theorem kept_vapRegRead {s0 s : State} (a1) (a2) (h : Kept s0 s) : Kept s0 (vapRegRead a1 a2 s).2.2 := by
  first | rewrite [vapRegRead] | unfold vapRegRead
  try dsimp only
  repeat' first
    | (simp (maxDischargeDepth := 60) (contextual := true) [h]; done)
    | (split <;> (try simp only [Prod.ext_iff, opt_eq s0] at *) <;> (try casesm* _ ∧ _) <;> (try subst_vars) <;> (try dsimp only))

@[simp] theorem kept_vapRegWrite {s0 s : State} (a1) (a2) (a3) (h : Kept s0 s) : Kept s0 (vapRegWrite a1 a2 a3 s).2 := by
  first | rewrite [vapRegWrite] | unfold vapRegWrite
  try dsimp only
  repeat' first
    | (simp (maxDischargeDepth := 60) (contextual := true) [h]; done)
    | (split <;> (try simp only [Prod.ext_iff, opt_eq s0] at *) <;> (try casesm* _ ∧ _) <;> (try subst_vars) <;> (try dsimp only))

@[simp] theorem kept_vapEnd {s0 s : State} (a1) (a2) (h : Kept s0 s) : Kept s0 (vapEnd a1 a2 s) := by
  first | rewrite [vapEnd] | unfold vapEnd
  try dsimp only
  repeat' first
    | with_reducible assumption
    | with_reducible intro t
    | with_reducible apply kept_State_setDbg
    | with_reducible exact Kept.rfl' _
    | simp only [kept_mk_iff]
    | split

@[simp] theorem kept_vapReadDoes {s0 s : State} (a1) (h : Kept s0 s) : Kept s0 (vapReadDoes a1 s) := by
  first | rewrite [vapReadDoes] | unfold vapReadDoes
  try dsimp only
  repeat' first
    | (simp (maxDischargeDepth := 60) (contextual := true) [h]; done)
    | (split <;> (try simp only [Prod.ext_iff, opt_eq s0] at *) <;> (try casesm* _ ∧ _) <;> (try subst_vars) <;> (try dsimp only))

theorem kept_execVapRead {s0 s : State} (a1) (h : Kept s0 s) : Kept s0 (after (execVapRead a1 s) s0) := by
  unfold execVapRead
  simp (maxDischargeDepth := 60) [h]

@[simp] theorem kept_vapWriteDoes {s0 s : State} (a1) (h : Kept s0 s) : Kept s0 (vapWriteDoes a1 s) := by
  first | rewrite [vapWriteDoes] | unfold vapWriteDoes
  try dsimp only
  repeat' first
    | (simp (maxDischargeDepth := 60) (contextual := true) [h]; done)
    | (split <;> (try simp only [Prod.ext_iff, opt_eq s0] at *) <;> (try casesm* _ ∧ _) <;> (try subst_vars) <;> (try dsimp only))

theorem kept_execVapWrite {s0 s : State} (a1) (h : Kept s0 s) : Kept s0 (after (execVapWrite a1 s) s0) := by
  unfold execVapWrite
  simp (maxDischargeDepth := 60) [h]

theorem kept_execImage {s0 s : State}  (h : Kept s0 s) : Kept s0 (after (execImage s) s0) := by
  first | rewrite [execImage] | unfold execImage
  try dsimp only
  repeat' first
    | with_reducible assumption
    | with_reducible intro t
    | with_reducible apply kept_State_okay
    | with_reducible apply kept_cfgWord
    | with_reducible apply kept_State_setWarden
    | with_reducible apply kept_vapEnd
    | with_reducible exact Kept.rfl' _
    | simp only [after_next]
    | simp only [kept_mk_iff]
    | (split <;> (try simp only [Prod.ext_iff, opt_eq s0] at *) <;> (try casesm* _ ∧ _) <;> (try subst_vars) <;> (try dsimp only))

theorem kept_execDebugWake {s0 s : State} (a1) (h : Kept s0 s) : Kept s0 (after (execDebugWake a1 s) s0) := by
  unfold execDebugWake
  simp (maxDischargeDepth := 60) [h]

@[simp] theorem kept_dmaRead {s0 s : State} (a1) (a2) (a3) (a4) (h : Kept s0 s) : Kept s0 (dmaRead a1 a2 a3 a4 s).2 := by
  first | rewrite [dmaRead] | unfold dmaRead
  try dsimp only
  repeat' first
    | (simp (maxDischargeDepth := 60) (contextual := true) [h]; done)
    | (split <;> (try simp only [Prod.ext_iff, opt_eq s0] at *) <;> (try casesm* _ ∧ _) <;> (try subst_vars) <;> (try dsimp only))

@[simp] theorem kept_dmaPiece {s0 s : State} (a1) (a2) (a3) (a4) (a5) (h : Kept s0 s) : Kept s0 (dmaPiece a1 a2 a3 a4 a5 s).2 := by
  first | rewrite [dmaPiece] | unfold dmaPiece
  try dsimp only
  repeat' first
    | (simp (maxDischargeDepth := 60) (contextual := true) [h]; done)
    | (split <;> (try simp only [Prod.ext_iff, opt_eq s0] at *) <;> (try casesm* _ ∧ _) <;> (try subst_vars) <;> (try dsimp only))

@[simp] theorem kept_dmaMove {s0 s : State} (a1) (a2) (a3) (a4) (h : Kept s0 s) : Kept s0 (dmaMove a1 a2 a3 a4 s).2.2 := by
  first | rewrite [dmaMove] | unfold dmaMove
  try dsimp only
  repeat' first
    | with_reducible assumption
    | with_reducible intro t
    | with_reducible refine kept_foldl ?_ (fun t a ht => ?_)
    | with_reducible refine kept_foldl_prod ?_ (fun t a ht => ?_)
    | with_reducible refine kept_foldl_prod2 ?_ (fun t a ht => ?_)
    | with_reducible refine kept_foldl_prod3 ?_ (fun t a ht => ?_)
    | with_reducible refine kept_foldl_prod4 ?_ (fun t a ht => ?_)
    | with_reducible apply kept_dmaPiece
    | with_reducible exact Kept.rfl' _
    | simp only [kept_mk_iff]
    | (split <;> (try simp only [Prod.ext_iff, opt_eq s0] at *) <;> (try casesm* _ ∧ _) <;> (try subst_vars) <;> (try dsimp only))

@[simp] theorem kept_dmaEnd {s0 s : State} (a1) (a2) (a3) (h : Kept s0 s) : Kept s0 (dmaEnd a1 a2 a3 s) := by
  unfold dmaEnd
  simp (maxDischargeDepth := 60) [h]

@[simp] theorem kept_dmaHaltAt {s0 s : State} (a1) (a2) (a3) (a4) (h : Kept s0 s) : Kept s0 (dmaHaltAt a1 a2 a3 a4 s) := by
  unfold dmaHaltAt
  simp (maxDischargeDepth := 60) [h]

@[simp] theorem kept_dmaStopAt {s0 s : State} (a1) (a2) (a3) (a4) (h : Kept s0 s) : Kept s0 (dmaStopAt a1 a2 a3 a4 s) := by
  first | rewrite [dmaStopAt] | unfold dmaStopAt
  try dsimp only
  repeat' first
    | (simp (maxDischargeDepth := 60) (contextual := true) [h]; done)
    | (split <;> (try simp only [Prod.ext_iff, opt_eq s0] at *) <;> (try casesm* _ ∧ _) <;> (try subst_vars) <;> (try dsimp only))

theorem kept_execDmaDone {s0 s : State} (a1) (a2) (h : Kept s0 s) : Kept s0 (after (execDmaDone a1 a2 s) s0) := by
  first | rewrite [execDmaDone] | unfold execDmaDone
  try dsimp only
  repeat' first
    | (simp (maxDischargeDepth := 60) (contextual := true) [h]; done)
    | (split <;> (try simp only [Prod.ext_iff, opt_eq s0] at *) <;> (try casesm* _ ∧ _) <;> (try subst_vars) <;> (try dsimp only))

theorem kept_execDmaHalt {s0 s : State} (a1) (a2) (a3) (a4) (h : Kept s0 s) : Kept s0 (after (execDmaHalt a1 a2 a3 a4 s) s0) := by
  first | rewrite [execDmaHalt] | unfold execDmaHalt
  try dsimp only
  repeat' first
    | (simp (maxDischargeDepth := 60) (contextual := true) [h]; done)
    | (split <;> (try simp only [Prod.ext_iff, opt_eq s0] at *) <;> (try casesm* _ ∧ _) <;> (try subst_vars) <;> (try dsimp only))

theorem kept_execDmaAbort {s0 s : State} (a1) (a2) (a3) (h : Kept s0 s) : Kept s0 (after (execDmaAbort a1 a2 a3 s) s0) := by
  first | rewrite [execDmaAbort] | unfold execDmaAbort
  try dsimp only
  repeat' first
    | (simp (maxDischargeDepth := 60) (contextual := true) [h]; done)
    | (split <;> (try simp only [Prod.ext_iff, opt_eq s0] at *) <;> (try casesm* _ ∧ _) <;> (try subst_vars) <;> (try dsimp only))

theorem kept_execLoaderDone {s0 s : State}  (h : Kept s0 s) : Kept s0 (after (execLoaderDone s) s0) := by
  first | rewrite [execLoaderDone] | unfold execLoaderDone
  try dsimp only
  repeat' first
    | with_reducible assumption
    | with_reducible intro t
    | with_reducible refine kept_foldl ?_ (fun t a ht => ?_)
    | with_reducible refine kept_foldl_prod ?_ (fun t a ht => ?_)
    | with_reducible refine kept_foldl_prod2 ?_ (fun t a ht => ?_)
    | with_reducible refine kept_foldl_prod3 ?_ (fun t a ht => ?_)
    | with_reducible refine kept_foldl_prod4 ?_ (fun t a ht => ?_)
    | with_reducible apply kept_State_raise
    | with_reducible apply kept_State_okay
    | with_reducible apply kept_State_setVrd
    | with_reducible apply kept_vrdSparesUndef
    | with_reducible apply kept_vrdLoaded
    | with_reducible apply kept_sandRead
    | with_reducible exact Kept.rfl' _
    | simp only [after_next]
    | simp only [kept_mk_iff]
    | (split <;> (try simp only [Prod.ext_iff, opt_eq s0] at *) <;> (try casesm* _ ∧ _) <;> (try subst_vars) <;> (try dsimp only))

theorem kept_pinWaking {s0 s : State} (p) {g : State → State} (h : Kept s0 s)
    (hg : ∀ t, Kept s0 t → Kept s0 (g t)) : Kept s0 (pinWaking p g s) := by
  rewrite [pinWaking]
  try dsimp only
  exact kept_State_when (hg _ h) fun t ht => kept_wakeFire _ ht


@[simp] theorem kept_pinChange {s0 s : State} (a1) (a2) (h : Kept s0 s) : Kept s0 (pinChange a1 a2 s) := by
  first | rewrite [pinChange] | unfold pinChange
  try dsimp only
  repeat' first
    | with_reducible assumption
    | with_reducible intro t
    | with_reducible refine kept_State_when ?_ (fun t ht => ?_)
    | with_reducible apply kept_State_flag
    | with_reducible apply kept_State_setSvc
    | with_reducible apply kept_pinSettle
    | with_reducible apply kept_pinEdge
    | with_reducible apply kept_pinLevel
    | with_reducible apply kept_xtPulse
    | with_reducible apply kept_pinWaking
    | with_reducible exact Kept.rfl' _
    | simp only [kept_mk_iff]
    | (split <;> (try simp only [Prod.ext_iff, opt_eq s0] at *) <;> (try casesm* _ ∧ _) <;> (try subst_vars) <;> (try dsimp only))

theorem kept_execPinLevelChange {s0 s : State} (a1) (a2) (h : Kept s0 s) : Kept s0 (after (execPinLevelChange a1 a2 s) s0) := by
  unfold execPinLevelChange
  simp (maxDischargeDepth := 60) [h]

theorem kept_execPinFunctionSwitch {s0 s : State} (a1) (a2) (a3) (h : Kept s0 s) : Kept s0 (after (execPinFunctionSwitch a1 a2 a3 s) s0) := by
  first | rewrite [execPinFunctionSwitch] | unfold execPinFunctionSwitch
  try dsimp only
  repeat' first
    | with_reducible assumption
    | with_reducible intro t
    | with_reducible apply kept_lockStep
    | with_reducible apply kept_pinCtrlWrite
    | with_reducible apply kept_pinWaking
    | with_reducible exact Kept.rfl' _
    | simp only [after_next]
    | (split <;> (try simp only [Prod.ext_iff, opt_eq s0] at *) <;> (try casesm* _ ∧ _) <;> (try subst_vars) <;> (try dsimp only))

theorem kept_execSwitchWindowEnd {s0 s : State} (a1) (h : Kept s0 s) : Kept s0 (after (execSwitchWindowEnd a1 s) s0) := by
  first | rewrite [execSwitchWindowEnd] | unfold execSwitchWindowEnd
  try dsimp only
  repeat' first
    | with_reducible assumption
    | with_reducible intro t
    | with_reducible apply kept_pinWindowEnd
    | with_reducible apply kept_pinWaking
    | with_reducible exact Kept.rfl' _
    | simp only [after_next]
    | split

theorem kept_execTimerWrap {s0 s : State} (a1) (h : Kept s0 s) : Kept s0 (after (execTimerWrap a1 s) s0) := by
  unfold execTimerWrap
  simp (maxDischargeDepth := 60) [h]

@[simp] theorem kept_dmaStopAll {s0 s : State}  (h : Kept s0 s) : Kept s0 (dmaStopAll s) := by
  first | rewrite [dmaStopAll] | unfold dmaStopAll
  try dsimp only
  repeat' first
    | (simp (maxDischargeDepth := 60) (contextual := true) [h]; done)
    | (split <;> (try simp only [Prod.ext_iff, opt_eq s0] at *) <;> (try casesm* _ ∧ _) <;> (try subst_vars) <;> (try dsimp only))

@[simp] theorem kept_wdgWarmReset {s0 s : State}  (h : Kept s0 s) : Kept s0 (wdgWarmReset s) := by
  first | rewrite [wdgWarmReset] | unfold wdgWarmReset
  try dsimp only
  repeat' first
    | (simp (maxDischargeDepth := 60) (contextual := true) [h]; done)
    | (split <;> (try simp only [Prod.ext_iff, opt_eq s0] at *) <;> (try casesm* _ ∧ _) <;> (try subst_vars) <;> (try dsimp only))

@[simp] theorem kept_coresWarmReset {s0 s : State}  (h : Kept s0 s) : Kept s0 (coresWarmReset s) := by
  first | rewrite [coresWarmReset] | unfold coresWarmReset
  try dsimp only
  repeat' first
    | (simp (maxDischargeDepth := 60) (contextual := true) [h]; done)
    | (split <;> (try simp only [Prod.ext_iff, opt_eq s0] at *) <;> (try casesm* _ ∧ _) <;> (try subst_vars) <;> (try dsimp only))

@[simp] theorem kept_standbyCut {s0 s : State}  (h : Kept s0 s) : Kept s0 (standbyCut s) := by
  unfold standbyCut
  simp (maxDischargeDepth := 60) [h]

@[simp] theorem kept_wardenBegin {s0 s : State}  (h : Kept s0 s) : Kept s0 (wardenBegin s) := by
  unfold wardenBegin
  simp (maxDischargeDepth := 60) [h]

@[simp] theorem kept_warmReset {s0 s : State}  (h : Kept s0 s) : Kept s0 (warmReset s) := by
  first | rewrite [warmReset] | unfold warmReset
  try dsimp only
  repeat' first
    | (simp (maxDischargeDepth := 60) (contextual := true) [h]; done)
    | (split <;> (try simp only [Prod.ext_iff, opt_eq s0] at *) <;> (try casesm* _ ∧ _) <;> (try subst_vars) <;> (try dsimp only))

@[simp] theorem kept_wdgSecond {s0 s : State} (a1) (a2) (a3) (h : Kept s0 s) : Kept s0 (wdgSecond a1 a2 a3 s) := by
  first | rewrite [wdgSecond] | unfold wdgSecond
  try dsimp only
  repeat' first
    | (simp (maxDischargeDepth := 60) (contextual := true) [h]; done)
    | (split <;> (try simp only [Prod.ext_iff, opt_eq s0] at *) <;> (try casesm* _ ∧ _) <;> (try subst_vars) <;> (try dsimp only))

theorem kept_execWatchdogSecondExpiry {s0 s : State} (a1) (a2) (a3) (h : Kept s0 s) : Kept s0 (after (execWatchdogSecondExpiry a1 a2 a3 s) s0) := by
  unfold execWatchdogSecondExpiry
  simp (maxDischargeDepth := 60) [h]

theorem kept_execWarmReset {s0 s : State} (a1) (h : Kept s0 s) : Kept s0 (after (execWarmReset a1 s) s0) := by
  first | rewrite [execWarmReset] | unfold execWarmReset
  try dsimp only
  repeat' first
    | (simp (maxDischargeDepth := 60) (contextual := true) [h]; done)
    | (split <;> (try simp only [Prod.ext_iff, opt_eq s0] at *) <;> (try casesm* _ ∧ _) <;> (try subst_vars) <;> (try dsimp only))

@[simp] theorem kept_fullReset {s0 s : State} (a1) (a2) (a3) (h : Kept s0 s) : Kept s0 (fullReset a1 a2 a3 s) := by
  first | rewrite [fullReset] | unfold fullReset
  try dsimp only
  repeat' first
    | (simp (maxDischargeDepth := 60) (contextual := true) [h]; done)
    | (split <;> (try simp only [Prod.ext_iff, opt_eq s0] at *) <;> (try casesm* _ ∧ _) <;> (try subst_vars) <;> (try dsimp only))

theorem kept_execNreset {s0 s : State} (a1) (a2) (a3) (h : Kept s0 s) : Kept s0 (after (execNreset a1 a2 a3 s) s0) := by
  unfold execNreset
  simp (maxDischargeDepth := 60) [h]

theorem kept_execPowerOnReset {s0 s : State} (a1) (a2) (a3) (a4) (h : Kept s0 s) : Kept s0 (after (execPowerOnReset a1 a2 a3 a4 s) s0) := by
  unfold execPowerOnReset
  simp (maxDischargeDepth := 60) [h]

@[simp] theorem kept_railLoss {s0 s : State} (a1) (h : Kept s0 s) : Kept s0 (railLoss a1 s) := by
  first | rewrite [railLoss] | unfold railLoss
  try dsimp only
  repeat' first
    | (simp (maxDischargeDepth := 60) (contextual := true) [h]; done)
    | (split <;> (try simp only [Prod.ext_iff, opt_eq s0] at *) <;> (try casesm* _ ∧ _) <;> (try subst_vars) <;> (try dsimp only))

theorem kept_execVccFabLoss {s0 s : State} (a1) (h : Kept s0 s) : Kept s0 (after (execVccFabLoss a1 s) s0) := by
  unfold execVccFabLoss
  simp (maxDischargeDepth := 60) [h]

@[simp] theorem kept_railReturn {s0 s : State} (a1) (h : Kept s0 s) : Kept s0 (railReturn a1 s) := by
  first | rewrite [railReturn] | unfold railReturn
  try dsimp only
  repeat' first
    | (simp (maxDischargeDepth := 60) (contextual := true) [h]; done)
    | (split <;> (try simp only [Prod.ext_iff, opt_eq s0] at *) <;> (try casesm* _ ∧ _) <;> (try subst_vars) <;> (try dsimp only))

theorem kept_execVccFabReturn {s0 s : State} (a1) (h : Kept s0 s) : Kept s0 (after (execVccFabReturn a1 s) s0) := by
  unfold execVccFabReturn
  simp (maxDischargeDepth := 60) [h]

theorem kept_execSliceNop {s0 s : State} (a1) (a2) (h : Kept s0 s) : Kept s0 (after (execSliceNop a1 a2 s) s0) := by
  unfold execSliceNop
  simp (maxDischargeDepth := 60) [h]

theorem kept_execWaitx {s0 s : State} (a1) (a2) (h : Kept s0 s) : Kept s0 (after (execWaitx a1 a2 s) s0) := by
  unfold execWaitx
  simp (maxDischargeDepth := 60) [h]

theorem kept_execHalt {s0 s : State} (a1) (a2) (h : Kept s0 s) : Kept s0 (after (execHalt a1 a2 s) s0) := by
  unfold execHalt
  simp (maxDischargeDepth := 60) [h]

theorem kept_execJmp {s0 s : State} (a1) (a2) (h : Kept s0 s) : Kept s0 (after (execJmp a1 a2 s) s0) := by
  unfold execJmp
  simp (maxDischargeDepth := 60) [h]

theorem kept_execBr {s0 s : State} (a1) (a2) (h : Kept s0 s) : Kept s0 (after (execBr a1 a2 s) s0) := by
  unfold execBr
  simp (maxDischargeDepth := 60) [h]

theorem kept_execLoop {s0 s : State} (a1) (a2) (h : Kept s0 s) : Kept s0 (after (execLoop a1 a2 s) s0) := by
  unfold execLoop
  simp (maxDischargeDepth := 60) [h]

theorem kept_execLoopr {s0 s : State} (a1) (a2) (h : Kept s0 s) : Kept s0 (after (execLoopr a1 a2 s) s0) := by
  unfold execLoopr
  simp (maxDischargeDepth := 60) [h]

theorem kept_execSeti {s0 s : State} (a1) (a2) (h : Kept s0 s) : Kept s0 (after (execSeti a1 a2 s) s0) := by
  unfold execSeti
  simp (maxDischargeDepth := 60) [h]

theorem kept_execMovr {s0 s : State} (a1) (a2) (h : Kept s0 s) : Kept s0 (after (execMovr a1 a2 s) s0) := by
  unfold execMovr
  simp (maxDischargeDepth := 60) [h]

theorem kept_execSliceLd {s0 s : State} (a1) (a2) (h : Kept s0 s) : Kept s0 (after (execSliceLd a1 a2 s) s0) := by
  unfold execSliceLd
  simp (maxDischargeDepth := 60) [h]

theorem kept_execLdd {s0 s : State} (a1) (a2) (h : Kept s0 s) : Kept s0 (after (execLdd a1 a2 s) s0) := by
  unfold execLdd
  simp (maxDischargeDepth := 60) [h]

theorem kept_execSt {s0 s : State} (a1) (a2) (h : Kept s0 s) : Kept s0 (after (execSt a1 a2 s) s0) := by
  unfold execSt
  simp (maxDischargeDepth := 60) [h]

theorem kept_execRds {s0 s : State} (a1) (a2) (h : Kept s0 s) : Kept s0 (after (execRds a1 a2 s) s0) := by
  unfold execRds
  simp (maxDischargeDepth := 60) [h]

theorem kept_execCinx {s0 s : State} (a1) (a2) (h : Kept s0 s) : Kept s0 (after (execCinx a1 a2 s) s0) := by
  unfold execCinx
  simp (maxDischargeDepth := 60) [h]

theorem kept_execCout {s0 s : State} (a1) (a2) (h : Kept s0 s) : Kept s0 (after (execCout a1 a2 s) s0) := by
  unfold execCout
  simp (maxDischargeDepth := 60) [h]

theorem kept_execSliceAdd {s0 s : State} (a1) (a2) (h : Kept s0 s) : Kept s0 (after (execSliceAdd a1 a2 s) s0) := by
  unfold execSliceAdd
  simp (maxDischargeDepth := 60) [h]

theorem kept_execSliceSub {s0 s : State} (a1) (a2) (h : Kept s0 s) : Kept s0 (after (execSliceSub a1 a2 s) s0) := by
  unfold execSliceSub
  simp (maxDischargeDepth := 60) [h]

theorem kept_execSliceAnd {s0 s : State} (a1) (a2) (h : Kept s0 s) : Kept s0 (after (execSliceAnd a1 a2 s) s0) := by
  unfold execSliceAnd
  simp (maxDischargeDepth := 60) [h]

theorem kept_execSliceOr {s0 s : State} (a1) (a2) (h : Kept s0 s) : Kept s0 (after (execSliceOr a1 a2 s) s0) := by
  unfold execSliceOr
  simp (maxDischargeDepth := 60) [h]

theorem kept_execSliceXor {s0 s : State} (a1) (a2) (h : Kept s0 s) : Kept s0 (after (execSliceXor a1 a2 s) s0) := by
  unfold execSliceXor
  simp (maxDischargeDepth := 60) [h]

theorem kept_execShf {s0 s : State} (a1) (a2) (h : Kept s0 s) : Kept s0 (after (execShf a1 a2 s) s0) := by
  unfold execShf
  simp (maxDischargeDepth := 60) [h]

theorem kept_execCmp {s0 s : State} (a1) (a2) (h : Kept s0 s) : Kept s0 (after (execCmp a1 a2 s) s0) := by
  unfold execCmp
  simp (maxDischargeDepth := 60) [h]

theorem kept_execSliceAddi {s0 s : State} (a1) (a2) (h : Kept s0 s) : Kept s0 (after (execSliceAddi a1 a2 s) s0) := by
  unfold execSliceAddi
  simp (maxDischargeDepth := 60) [h]

theorem kept_execMpy {s0 s : State} (a1) (a2) (h : Kept s0 s) : Kept s0 (after (execMpy a1 a2 s) s0) := by
  unfold execMpy
  simp (maxDischargeDepth := 60) [h]

theorem kept_execMac {s0 s : State} (a1) (a2) (h : Kept s0 s) : Kept s0 (after (execMac a1 a2 s) s0) := by
  unfold execMac
  simp (maxDischargeDepth := 60) [h]

theorem kept_execMsu {s0 s : State} (a1) (a2) (h : Kept s0 s) : Kept s0 (after (execMsu a1 a2 s) s0) := by
  unfold execMsu
  simp (maxDischargeDepth := 60) [h]

theorem kept_execMacm {s0 s : State} (a1) (a2) (h : Kept s0 s) : Kept s0 (after (execMacm a1 a2 s) s0) := by
  unfold execMacm
  simp (maxDischargeDepth := 60) [h]

theorem kept_execTap {s0 s : State} (a1) (a2) (h : Kept s0 s) : Kept s0 (after (execTap a1 a2 s) s0) := by
  unfold execTap
  simp (maxDischargeDepth := 60) [h]

theorem kept_execAdda {s0 s : State} (a1) (a2) (h : Kept s0 s) : Kept s0 (after (execAdda a1 a2 s) s0) := by
  unfold execAdda
  simp (maxDischargeDepth := 60) [h]

theorem kept_execAsh {s0 s : State} (a1) (a2) (h : Kept s0 s) : Kept s0 (after (execAsh a1 a2 s) s0) := by
  unfold execAsh
  simp (maxDischargeDepth := 60) [h]

theorem kept_execRnd {s0 s : State} (a1) (a2) (h : Kept s0 s) : Kept s0 (after (execRnd a1 a2 s) s0) := by
  unfold execRnd
  simp (maxDischargeDepth := 60) [h]

theorem kept_execCadd {s0 s : State} (a1) (a2) (h : Kept s0 s) : Kept s0 (after (execCadd a1 a2 s) s0) := by
  unfold execCadd
  simp (maxDischargeDepth := 60) [h]

theorem kept_execMaxs {s0 s : State} (a1) (a2) (h : Kept s0 s) : Kept s0 (after (execMaxs a1 a2 s) s0) := by
  unfold execMaxs
  simp (maxDischargeDepth := 60) [h]

theorem kept_execMins {s0 s : State} (a1) (a2) (h : Kept s0 s) : Kept s0 (after (execMins a1 a2 s) s0) := by
  unfold execMins
  simp (maxDischargeDepth := 60) [h]

theorem kept_execThe {s0 s : State} (a1) (a2) (h : Kept s0 s) : Kept s0 (after (execThe a1 a2 s) s0) := by
  unfold execThe
  simp (maxDischargeDepth := 60) [h]

theorem kept_execEmit {s0 s : State} (a1) (a2) (h : Kept s0 s) : Kept s0 (after (execEmit a1 a2 s) s0) := by
  unfold execEmit
  simp (maxDischargeDepth := 60) [h]

theorem kept_execT8add {s0 s : State} (a1) (a2) (h : Kept s0 s) : Kept s0 (after (execT8add a1 a2 s) s0) := by
  unfold execT8add
  simp (maxDischargeDepth := 60) [h]

theorem kept_execT8sub {s0 s : State} (a1) (a2) (h : Kept s0 s) : Kept s0 (after (execT8sub a1 a2 s) s0) := by
  unfold execT8sub
  simp (maxDischargeDepth := 60) [h]

theorem kept_execT8mac {s0 s : State} (a1) (a2) (h : Kept s0 s) : Kept s0 (after (execT8mac a1 a2 s) s0) := by
  unfold execT8mac
  simp (maxDischargeDepth := 60) [h]

theorem kept_execT8max {s0 s : State} (a1) (a2) (h : Kept s0 s) : Kept s0 (after (execT8max a1 a2 s) s0) := by
  unfold execT8max
  simp (maxDischargeDepth := 60) [h]

theorem kept_execT8min {s0 s : State} (a1) (a2) (h : Kept s0 s) : Kept s0 (after (execT8min a1 a2 s) s0) := by
  unfold execT8min
  simp (maxDischargeDepth := 60) [h]

theorem kept_execT8pk {s0 s : State} (a1) (a2) (h : Kept s0 s) : Kept s0 (after (execT8pk a1 a2 s) s0) := by
  unfold execT8pk
  simp (maxDischargeDepth := 60) [h]

theorem kept_execT8hs {s0 s : State} (a1) (a2) (h : Kept s0 s) : Kept s0 (after (execT8hs a1 a2 s) s0) := by
  unfold execT8hs
  simp (maxDischargeDepth := 60) [h]

@[simp] theorem kept_verbSend {s0 s : State} (a1) (a2) (h : Kept s0 s) : Kept s0 (verbSend a1 a2 s) := by
  first | rewrite [verbSend] | unfold verbSend
  try dsimp only
  repeat' first
    | (simp (maxDischargeDepth := 60) (contextual := true) [h]; done)
    | (split <;> (try simp only [Prod.ext_iff, opt_eq s0] at *) <;> (try casesm* _ ∧ _) <;> (try subst_vars) <;> (try dsimp only))

@[simp] theorem kept_verbTake {s0 s : State} (n p) {g : Verb → State → Nat × List Byte × State} (h : Kept s0 s)
    (hg : ∀ v t, Kept s0 t → Kept s0 (g v t).2.2) : Kept s0 (verbTake n p g s) := by
  rewrite [verbTake]
  dsimp only
  repeat' first
    | with_reducible assumption
    | with_reducible apply kept_verbSend
    | with_reducible apply hg
    | with_reducible apply kept_State_modSess
    | split


theorem kept_execVerbRead {s0 s : State} (a1) (a2) (h : Kept s0 s) : Kept s0 (after (execVerbRead a1 a2 s) s0) := by
  first | rewrite [execVerbRead] | unfold execVerbRead
  try dsimp only
  repeat' first
    | (simp (maxDischargeDepth := 60) (contextual := true) [h]; done)
    | (split <;> (try simp only [Prod.ext_iff, opt_eq s0] at *) <;> (try casesm* _ ∧ _) <;> (try subst_vars) <;> (try dsimp only))

theorem kept_execVerbWrite {s0 s : State} (a1) (a2) (h : Kept s0 s) : Kept s0 (after (execVerbWrite a1 a2 s) s0) := by
  first | rewrite [execVerbWrite] | unfold execVerbWrite
  try dsimp only
  repeat' first
    | (simp (maxDischargeDepth := 60) (contextual := true) [h]; done)
    | (split <;> (try simp only [Prod.ext_iff, opt_eq s0] at *) <;> (try casesm* _ ∧ _) <;> (try subst_vars) <;> (try dsimp only))

theorem kept_execBadVerb {s0 s : State} (a1) (h : Kept s0 s) : Kept s0 (after (execBadVerb a1 s) s0) := by
  unfold execBadVerb
  simp (maxDischargeDepth := 60) [h]

@[simp] theorem kept_wardenRead {s0 s : State} (a1) (a2) (a3) (h : Kept s0 s) : Kept s0 (wardenRead a1 a2 a3 s).2 := by
  first | rewrite [wardenRead] | unfold wardenRead
  try dsimp only
  repeat' first
    | with_reducible assumption
    | with_reducible intro t
    | with_reducible refine kept_foldl ?_ (fun t a ht => ?_)
    | with_reducible refine kept_foldl_prod ?_ (fun t a ht => ?_)
    | with_reducible refine kept_foldl_prod2 ?_ (fun t a ht => ?_)
    | with_reducible refine kept_foldl_prod3 ?_ (fun t a ht => ?_)
    | with_reducible refine kept_foldl_prod4 ?_ (fun t a ht => ?_)
    | with_reducible apply kept_State_okay
    | with_reducible apply kept_sandRead
    | with_reducible exact Kept.rfl' _
    | (split <;> (try simp only [Prod.ext_iff, opt_eq s0] at *) <;> (try casesm* _ ∧ _) <;> (try subst_vars) <;> (try dsimp only))

@[simp] theorem kept_wardenWrite {s0 s : State} (a1) (a2) (a3) (h : Kept s0 s) : Kept s0 (wardenWrite a1 a2 a3 s).2 := by
  first | rewrite [wardenWrite] | unfold wardenWrite
  try dsimp only
  repeat' first
    | with_reducible assumption
    | with_reducible intro t
    | with_reducible refine kept_foldl ?_ (fun t a ht => ?_)
    | with_reducible refine kept_foldl_prod ?_ (fun t a ht => ?_)
    | with_reducible refine kept_foldl_prod2 ?_ (fun t a ht => ?_)
    | with_reducible refine kept_foldl_prod3 ?_ (fun t a ht => ?_)
    | with_reducible refine kept_foldl_prod4 ?_ (fun t a ht => ?_)
    | with_reducible apply kept_State_okay
    | with_reducible apply kept_sandWrite
    | with_reducible exact Kept.rfl' _
    | split

theorem kept_doHandover {s0 s : State} (box) (h : Kept s0 s) : (doHandover box s).keeps s0 s := by
  rewrite [doHandover]
  try dsimp only
  repeat' first
    | with_reducible assumption
    | with_reducible intro t
    | with_reducible apply kept_spdHandoverWrite
    | with_reducible apply kept_spdHandoverDone
    | with_reducible exact Kept.rfl' _
    | with_reducible exact True.intro
    | with_reducible refine kept_reqServe _ _ ?_ ?_
    | simp only [keeps_ends, keeps_fails, keeps_does]
    | (split <;> (try simp only [Prod.ext_iff, opt_eq s0] at *) <;> (try casesm* _ ∧ _) <;> (try subst_vars) <;> (try dsimp only))

theorem kept_execHandover {s0 s : State} (a1) (h : Kept s0 s) : Kept s0 (after (execHandover a1 s) s0) := by
  first | rewrite [execHandover] | unfold execHandover
  try dsimp only
  repeat' first
    | with_reducible assumption
    | with_reducible intro t
    | with_reducible apply kept_doHandover
    | with_reducible exact Kept.rfl' _
    | with_reducible exact True.intro
    | with_reducible refine kept_reqServe _ _ ?_ ?_
    | simp only [keeps_ends, keeps_fails, keeps_does]
    | simp only [after_next]
    | split

theorem kept_doMemKey {s0 s : State} (box) (env) (h : Kept s0 s) : (doMemKey box env s).keeps s0 s := by
  rewrite [doMemKey]
  try dsimp only
  repeat' first
    | with_reducible assumption
    | with_reducible intro t
    | with_reducible apply kept_State_okay
    | with_reducible apply kept_State_fresh
    | with_reducible apply kept_wardenRead
    | with_reducible exact Kept.rfl' _
    | with_reducible exact True.intro
    | with_reducible refine kept_reqServe _ _ ?_ ?_
    | simp only [keeps_ends, keeps_fails, keeps_does]
    | simp only [kept_mk_iff]
    | (split <;> (try simp only [Prod.ext_iff, opt_eq s0] at *) <;> (try casesm* _ ∧ _) <;> (try subst_vars) <;> (try dsimp only))

theorem kept_execMemKey {s0 s : State} (a1) (a2) (h : Kept s0 s) : Kept s0 (after (execMemKey a1 a2 s) s0) := by
  first | rewrite [execMemKey] | unfold execMemKey
  try dsimp only
  repeat' first
    | with_reducible assumption
    | with_reducible intro t
    | with_reducible apply kept_doMemKey
    | with_reducible exact Kept.rfl' _
    | with_reducible exact True.intro
    | with_reducible refine kept_reqServe _ _ ?_ ?_
    | simp only [keeps_ends, keeps_fails, keeps_does]
    | simp only [after_next]
    | split

theorem kept_execLock {s0 s : State} (a1) (h : Kept s0 s) : Kept s0 (after (execLock a1 s) s0) := by
  first | rewrite [execLock] | unfold execLock
  try dsimp only
  repeat' first
    | with_reducible assumption
    | with_reducible intro t
    | with_reducible apply kept_State_put
    | with_reducible exact Kept.rfl' _
    | with_reducible exact True.intro
    | with_reducible refine kept_reqServe _ _ ?_ ?_
    | simp only [keeps_ends, keeps_fails, keeps_does]
    | simp only [after_next]
    | split

theorem kept_execRandom {s0 s : State} (a1) (h : Kept s0 s) : Kept s0 (after (execRandom a1 s) s0) := by
  first | rewrite [execRandom] | unfold execRandom
  try dsimp only
  repeat' first
    | with_reducible assumption
    | with_reducible intro t
    | with_reducible apply kept_State_fresh
    | with_reducible exact Kept.rfl' _
    | with_reducible exact True.intro
    | with_reducible refine kept_reqServe _ _ ?_ ?_
    | simp only [keeps_ends, keeps_fails, keeps_does]
    | simp only [after_next]
    | split

theorem kept_execRevoke {s0 s : State} (box) (h : Kept s0 s) : Kept s0 (after (execRevoke box s) s0) := by
  unfold execRevoke
  simp only [after_next]
  refine kept_reqServe _ _ h ?_
  generalize (s.boxArg box.val 0).toNat = k
  split
  · rw [keeps_ends]; trivial
  · split
    · rw [keeps_ends]; trivial
    · rename_i h1 h2
      rw [keeps_does]
      refine ⟨h.pending, fun _ => ?_, h.mem, h.home⟩
      rw [Bool.not_eq_true', Bool.not_eq_false, List.contains_iff_mem] at h1
      have hnd : s.authSlots.Nodup := (List.nodup_range (n := 4)).filter _
      obtain ⟨j, hj, hne⟩ : ∃ j ∈ s.authSlots, j ≠ k := by
        by_contra hc
        push Not at hc
        refine h2 (List.Perm.singleton_eq ((List.perm_ext_iff_of_nodup (List.nodup_singleton k) hnd).2 fun a => ?_)).symm
        rw [List.mem_singleton]
        exact ⟨fun e => e ▸ h1, hc a⟩
      refine List.ne_nil_of_mem (a := j) ?_
      have hj' := hj
      rw [State.authSlots, List.mem_filter, List.mem_range] at hj' h1 ⊢
      obtain ⟨l4, hp⟩ := hj'
      have hk := h1.1
      refine ⟨l4, ?_⟩
      rw [Bool.and_eq_true] at hp ⊢
      refine ⟨hp.1, ?_⟩
      have e : (BitVec.ofNat 4 (2 ^ k)).getLsbD j = false := by
        clear hp h1 hj
        interval_cases k <;> interval_cases j <;> first | rfl | exact absurd rfl hne
      simpa using And.intro (by simpa using hp.2) e


theorem kept_doSign {s0 s : State} (box) (env) (h : Kept s0 s) : (doSign box env s).keeps s0 s := by
  rewrite [doSign]
  try dsimp only
  repeat' first
    | with_reducible assumption
    | with_reducible intro t
    | with_reducible apply kept_State_okay
    | with_reducible apply kept_State_fresh
    | with_reducible apply kept_wardenRead
    | with_reducible apply kept_wardenWrite
    | with_reducible exact Kept.rfl' _
    | with_reducible exact True.intro
    | with_reducible refine kept_reqServe _ _ ?_ ?_
    | simp only [keeps_ends, keeps_fails, keeps_does]
    | (split <;> (try simp only [Prod.ext_iff, opt_eq s0] at *) <;> (try casesm* _ ∧ _) <;> (try subst_vars) <;> (try dsimp only))

theorem kept_execSign {s0 s : State} (a1) (a2) (h : Kept s0 s) : Kept s0 (after (execSign a1 a2 s) s0) := by
  first | rewrite [execSign] | unfold execSign
  try dsimp only
  repeat' first
    | with_reducible assumption
    | with_reducible intro t
    | with_reducible apply kept_doSign
    | with_reducible exact Kept.rfl' _
    | with_reducible exact True.intro
    | with_reducible refine kept_reqServe _ _ ?_ ?_
    | simp only [keeps_ends, keeps_fails, keeps_does]
    | simp only [after_next]
    | split

theorem kept_doCoreService {s0 s : State} (box) (r) (env) (h : Kept s0 s) : (doCoreService box r env s).keeps s0 s := by
  rewrite [doCoreService]
  try dsimp only
  repeat' first
    | with_reducible assumption
    | with_reducible intro t
    | with_reducible apply kept_State_clear
    | with_reducible apply kept_coreEnd
    | with_reducible apply kept_coreCtrlWrite
    | with_reducible apply kept_coreOffline
    | with_reducible exact Kept.rfl' _
    | with_reducible exact True.intro
    | with_reducible refine kept_reqServe _ _ ?_ ?_
    | simp only [keeps_ends, keeps_fails, keeps_does]
    | (split <;> (try simp only [Prod.ext_iff, opt_eq s0] at *) <;> (try casesm* _ ∧ _) <;> (try subst_vars) <;> (try dsimp only))

theorem kept_execCoreService {s0 s : State} (a1) (a2) (a3) (h : Kept s0 s) : Kept s0 (after (execCoreService a1 a2 a3 s) s0) := by
  first | rewrite [execCoreService] | unfold execCoreService
  try dsimp only
  repeat' first
    | with_reducible assumption
    | with_reducible intro t
    | with_reducible apply kept_doCoreService
    | with_reducible exact Kept.rfl' _
    | with_reducible exact True.intro
    | with_reducible refine kept_reqServe _ _ ?_ ?_
    | simp only [keeps_ends, keeps_fails, keeps_does]
    | simp only [after_next]
    | split

@[simp] theorem kept_patchRead {s0 s : State} (a1) (a2) (a3) (a4) (a5) (a6) (h : Kept s0 s) : Kept s0 (patchRead a1 a2 a3 a4 a5 a6 s).2.2 := by
  induction a4 generalizing s a3 a5 a6 with
  | zero => rw [patchRead]; exact h
  | succ n ih =>
    rewrite [patchRead]
    try dsimp only
    repeat' first
      | with_reducible assumption
      | with_reducible intro t
      | with_reducible apply kept_State_okay
      | with_reducible apply kept_sandRead
      | with_reducible exact Kept.rfl' _
      | with_reducible apply ih
      | simp only [kept_mk_iff]
      | (split <;> (try simp only [Prod.ext_iff, opt_eq s0] at *) <;> (try casesm* _ ∧ _) <;> (try subst_vars) <;> (try dsimp only))

@[simp] theorem kept_patchPut {s0 s : State} (a1) (h : Kept s0 s) : Kept s0 (patchPut a1 s) := by
  unfold patchPut
  simp (maxDischargeDepth := 60) [h]

theorem kept_doLoadPatch {s0 s : State} (box) (env) (h : Kept s0 s) : (doLoadPatch box env s).keeps s0 s := by
  rewrite [doLoadPatch]
  try dsimp only
  repeat' first
    | with_reducible assumption
    | with_reducible intro t
    | with_reducible apply kept_State_raise
    | with_reducible apply kept_State_okay
    | with_reducible apply kept_patchRead
    | with_reducible apply kept_patchPut
    | with_reducible exact Kept.rfl' _
    | with_reducible exact True.intro
    | with_reducible refine kept_reqServe _ _ ?_ ?_
    | simp only [keeps_ends, keeps_fails, keeps_does]
    | simp only [kept_mk_iff]
    | (split <;> (try simp only [Prod.ext_iff, opt_eq s0] at *) <;> (try casesm* _ ∧ _) <;> (try subst_vars) <;> (try dsimp only))

theorem kept_execLoadPatch {s0 s : State} (a1) (a2) (h : Kept s0 s) : Kept s0 (after (execLoadPatch a1 a2 s) s0) := by
  first | rewrite [execLoadPatch] | unfold execLoadPatch
  try dsimp only
  repeat' first
    | with_reducible assumption
    | with_reducible intro t
    | with_reducible apply kept_doLoadPatch
    | with_reducible exact Kept.rfl' _
    | with_reducible exact True.intro
    | with_reducible refine kept_reqServe _ _ ?_ ?_
    | simp only [keeps_ends, keeps_fails, keeps_does]
    | simp only [after_next]
    | split

@[simp] theorem kept_stewardStart {s0 s : State} (a1) (h : Kept s0 s) : Kept s0 (stewardStart a1 s) := by
  first | rewrite [stewardStart] | unfold stewardStart
  try dsimp only
  repeat' first
    | (simp (maxDischargeDepth := 60) (contextual := true) [h]; done)
    | (split <;> (try simp only [Prod.ext_iff, opt_eq s0] at *) <;> (try casesm* _ ∧ _) <;> (try subst_vars) <;> (try dsimp only))

theorem kept_execStewardBoot {s0 s : State} (a1) (h : Kept s0 s) : Kept s0 (after (execStewardBoot a1 s) s0) := by
  first | rewrite [execStewardBoot] | unfold execStewardBoot
  try dsimp only
  repeat' first
    | (simp (maxDischargeDepth := 60) (contextual := true) [h]; done)
    | (split <;> (try simp only [Prod.ext_iff, opt_eq s0] at *) <;> (try casesm* _ ∧ _) <;> (try subst_vars) <;> (try dsimp only))

@[simp] theorem kept_sessOpen {s0 s : State} (a1) (a2) (a3) (a4) (h : Kept s0 s) : Kept s0 (sessOpen a1 a2 a3 a4 s).2 := by
  unfold sessOpen
  simp (maxDischargeDepth := 60) [h]

theorem kept_doOpenSession {s0 s : State} (box) (env) (h : Kept s0 s) : (doOpenSession box env s).keeps s0 s := by
  rewrite [doOpenSession]
  try dsimp only
  repeat' first
    | with_reducible assumption
    | simp only [after_next]
    | with_reducible refine kept_State_each ?_ (fun t a ht => ?_)
    | with_reducible refine kept_foldl_prod3 ?_ (fun t a ht => ?_)
    | with_reducible refine kept_foldl_prod4 ?_ (fun t a ht => ?_)
    | (split <;> (try simp only [Prod.ext_iff] at *) <;> (try casesm* _ ∧ _) <;> (try subst_vars))
    | with_reducible apply kept_State_okay
    | with_reducible apply kept_wardenRead
    | with_reducible apply kept_sessOpen
    | simp only [keeps_ends, keeps_fails, keeps_does]
    | with_reducible exact True.intro

theorem kept_execOpenSession {s0 s : State} (a1) (a2) (h : Kept s0 s) : Kept s0 (after (execOpenSession a1 a2 s) s0) := by
  first | rewrite [execOpenSession] | unfold execOpenSession
  try dsimp only
  repeat' first
    | with_reducible assumption
    | with_reducible intro t
    | with_reducible apply kept_doOpenSession
    | with_reducible exact Kept.rfl' _
    | with_reducible exact True.intro
    | with_reducible refine kept_reqServe _ _ ?_ ?_
    | simp only [keeps_ends, keeps_fails, keeps_does]
    | simp only [after_next]
    | split

@[simp] theorem kept_outputCycle {s0 s : State} (a1) (h : Kept s0 s) : Kept s0 (outputCycle a1 s) := by
  first | rewrite [outputCycle] | unfold outputCycle
  try dsimp only
  repeat' first
    | with_reducible assumption
    | with_reducible intro t
    | with_reducible apply kept_State_fresh
    | with_reducible exact Kept.rfl' _
    | simp only [after_next]
    | simp only [kept_mk_iff]
    | (split <;> (try simp only [Prod.ext_iff, opt_eq s0] at *) <;> (try casesm* _ ∧ _) <;> (try subst_vars) <;> (try dsimp only))

@[simp] theorem kept_sandCycle {s0 s : State}  (h : Kept s0 s) : Kept s0 (sandCycle s) := by
  first | rewrite [sandCycle] | unfold sandCycle
  try dsimp only
  repeat' first
    | with_reducible assumption
    | with_reducible intro t
    | with_reducible refine kept_State_each ?_ (fun t a ht => ?_)
    | with_reducible apply kept_sandDrain
    | with_reducible apply kept_outputCycle
    | with_reducible exact Kept.rfl' _
    | simp only [after_next]
    | simp only [kept_mk_iff]
    | (split <;> (try simp only [Prod.ext_iff, opt_eq s0] at *) <;> (try casesm* _ ∧ _) <;> (try subst_vars) <;> (try dsimp only))

@[simp] theorem kept_flopsStep {s0 s : State} (a1) (a2) (h : Kept s0 s) : Kept s0 (flopsStep a1 a2 s) := by
  unfold flopsStep
  simp (maxDischargeDepth := 60) [h]

@[simp] theorem kept_syncEdge {s0 s : State} (a1) (a2) (a3) (h : Kept s0 s) : Kept s0 (syncEdge a1 a2 a3 s) := by
  unfold syncEdge
  simp (maxDischargeDepth := 60) [h]

@[simp] theorem kept_bayOutputs {s0 s : State} (a1) (h : Kept s0 s) : Kept s0 (bayOutputs a1 s) := by
  unfold bayOutputs
  simp (maxDischargeDepth := 60) [h]

@[simp] theorem kept_fabricSettle {s0 s : State} (a1) (h : Kept s0 s) : Kept s0 (fabricSettle a1 s) := by
  first | rewrite [fabricSettle] | unfold fabricSettle
  try dsimp only
  repeat' first
    | with_reducible assumption
    | with_reducible intro t
    | with_reducible refine kept_State_each ?_ (fun t a ht => ?_)
    | with_reducible apply kept_flopsStep
    | with_reducible apply kept_bayOutputs
    | with_reducible exact Kept.rfl' _
    | simp only [after_next]
    | with_reducible refine kept_ite_getD ?_ ?_
    | with_reducible refine kept_getD ?_ (by with_reducible assumption)
    | simp only [Option.getD_some, Option.getD_none]
    | simp only [kept_mk_iff]
    | (split <;> (try simp only [Prod.ext_iff, opt_eq s0] at *) <;> (try casesm* _ ∧ _) <;> (try subst_vars) <;> (try dsimp only))

@[simp] theorem kept_netEdge {s0 s : State} (bays net rising) (h : Kept s0 s) : Kept s0 (netEdge bays net rising s) := by
  unfold netEdge
  have k := kept_flopsStep (bays.filter s.bayClocked).contains (some (net, rising))
    (kept_State_each (l := bays.filter s.bayClocked) h fun t b k => kept_syncEdge b net rising k)
  dsimp only
  split
  · exact kept_of k rfl rfl rfl rfl rfl
  · exact k


@[simp] theorem kept_clockEdge {s0 s : State} (a1) (h : Kept s0 s) : Kept s0 (clockEdge a1 s) := by
  first | rewrite [clockEdge] | unfold clockEdge
  try dsimp only
  repeat' first
    | with_reducible assumption
    | with_reducible intro t
    | with_reducible apply kept_pinEdge
    | with_reducible apply kept_netEdge
    | with_reducible exact Kept.rfl' _
    | simp only [kept_mk_iff]
    | (split <;> (try simp only [Prod.ext_iff, opt_eq s0] at *) <;> (try casesm* _ ∧ _) <;> (try subst_vars) <;> (try dsimp only))

@[simp] theorem kept_fabricTick {s0 s : State}  (h : Kept s0 s) : Kept s0 (fabricTick s) := by
  first | rewrite [fabricTick] | unfold fabricTick
  try dsimp only
  repeat' first
    | with_reducible assumption
    | with_reducible intro t
    | with_reducible apply kept_fabricSettle
    | with_reducible apply kept_clockEdge
    | with_reducible exact Kept.rfl' _
    | with_reducible refine kept_ite_getD ?_ ?_
    | with_reducible refine kept_getD ?_ (by with_reducible assumption)
    | simp only [Option.getD_some, Option.getD_none]
    | simp only [kept_mk_iff]
    | (split <;> (try simp only [Prod.ext_iff, opt_eq s0] at *) <;> (try casesm* _ ∧ _) <;> (try subst_vars) <;> (try dsimp only))

@[simp] theorem kept_xoutIdle {s0 s : State}  (h : Kept s0 s) : Kept s0 (xoutIdle s) := by
  unfold xoutIdle
  simp (maxDischargeDepth := 60) [h]

@[simp] theorem kept_tick {s0 s : State}  (h : Kept s0 s) : Kept s0 (tick s) := by
  unfold tick
  simp (maxDischargeDepth := 60) [h]

end Sys2Proof.Machine
end

