-- ==== Sys2Proof/Laws/Slice.lean ====
section
/-! SUPPORT. What an error-free issue of a slice does. -/

namespace Sys2Proof.Machine

/-- A data read of a word without error, unstruck, meets the word. -/
theorem operand_clean {x : Slice} {k : Nat} (r : Bool) (o : W24) (h : x.dmFlaw.get .none k = .none) :
    x.operand r k .none o = (x, ⟨x.dm.get 0 k, .none, .none, x.dm.get 0 k, false⟩) := by
  cases r <;> simp [Slice.operand, Slice.readDm, meet, strike, h]

/-- So does a fetch. -/
theorem readPm_clean {x : Slice} {k : Nat} (o : W40) (h : x.pmFlaw.get .none k = .none) :
    x.readPm k .none o = (x, ⟨x.pm.get 0 k, .none, .none, x.pm.get 0 k, false⟩) := by
  simp [Slice.readPm, meet, strike, h]

/-- The slice's side of an issue that meets no error and no illegal word. -/
theorem sliceExec_clean {cx : SliceCx} {op w : Nat} {eff : SliceEff} {casc : BitVec 56} {free : Nat} {x : Slice} {r : Slice × Flow}
    (hl : sliceLegal op w x = true) (hf : cx.fetch = .none) (ha : cx.memA = .none) (hb : cx.memB = .none)
    (hp : x.pmFlaw.get .none x.pc.toNat = .none) (hda : x.dmFlaw.get .none (x.p[fldPA w]).toNat = .none)
    (hdb : x.dmFlaw.get .none (x.p[fldPB w]).toNat = .none)
    (he : eff w (x.dm.get 0 (x.p[fldPA w]).toNat) (x.dm.get 0 (x.p[fldPB w]).toNat) casc (sliceFound x) = r) :
    sliceExec cx op w eff casc free x = sliceFlow r.2 (ptrUpdates op w r.1) := by
  have n1 : (Flaw.none = Flaw.double) = False := by simp
  have n2 : (Flaw.none = Flaw.single) = False := by simp
  have e : sliceExec cx op w eff casc free x =
      sliceData cx op w eff casc free (sliceFound x) := by
    rw [sliceExec, hf]
    have := readPm_clean (x := sliceFound x) ((Config.freeWord (free + 1)).setWidth 40) hp
    simp only [sliceFound] at this
    have hl' : sliceLegal op w { x with outValid := false } = true := hl
    simp only [this, n1, n2, if_false, sliceFound, hl', if_true]
  rw [e, sliceData]
  have h1 := fun o : W24 => operand_clean (x := sliceFound x) (readsA op w) o hda
  have h2 := fun o : W24 => operand_clean (x := sliceFound x) (readsB op) o hdb
  simp only [sliceFound] at h1 h2 he
  simp only [ha, hb, sliceFound, h1, h2, Slice.noteDm, n1, n2, if_false, he]

/-- An issue that meets no error and no illegal word runs the effect of its row: the one lemma about `sliceIssue`. -/
theorem sliceIssue_runs {cx : SliceCx} {op : Nat} {f : BitVec 34} {s : State} {eff : SliceEff} {g : Slice → Slice} {fl : Flow} (h : SliceReady cx op f s)
    (he : eff (sliceWord op f) ((s.slice cx.bay cx.slice).dm.get 0 ((s.slice cx.bay cx.slice).p[fldPA (sliceWord op f)]).toNat)
      ((s.slice cx.bay cx.slice).dm.get 0 ((s.slice cx.bay cx.slice).p[fldPB (sliceWord op f)]).toNat) (s.cascIn cx)
      (sliceFound (s.slice cx.bay cx.slice)) = (g (sliceFound (s.slice cx.bay cx.slice)), fl)) :
    sliceIssue cx op f eff s = s.setSlice cx.bay cx.slice
      (sliceFlow fl (ptrUpdates op (sliceWord op f) (g (sliceFound (s.slice cx.bay cx.slice))))) := by
  obtain ⟨h1, h2, h3, h4, h5, h6, h7, h8, h9, h10, h11⟩ := h
  rw [sliceIssue]
  simp only [h1, h2, h3, h5, h6, h7, h8, Bool.false_eq_true, not_false_eq_true, and_self, if_true, bne_self_eq_false, Bool.or_self,
    State.when, if_false]
  exact congrArg _ (sliceExec_clean h4 h6 h7 h8 h9 h10 h11 he)

end Sys2Proof.Machine
end

