-- ==== Sys2Proof/Laws/State.lean ====
section
/-! SUPPORT. What each named update of the state leaves in each field: one law per field and update, so that no proof unfolds a record. -/

namespace Sys2Proof.Machine.State

@[simp] theorem wr_pending (s : State) (r : Reg) (i : Nat) (v : W64) : (s.wr r i v).pending = s.pending := rfl
@[simp] theorem wr_regs (s : State) (r : Reg) (i : Nat) (v : W64) : (s.wr r i v).regs = s.regs.set (r.addr i) v := rfl
@[simp] theorem wr_free (s : State) (r : Reg) (i : Nat) (v : W64) : (s.wr r i v).free = s.free := rfl
@[simp] theorem wr_ans (s : State) (r : Reg) (i : Nat) (v : W64) : (s.wr r i v).ans = s.ans := rfl
@[simp] theorem wr_halves (s : State) (r : Reg) (i : Nat) (v : W64) : (s.wr r i v).halves = s.halves := rfl
@[simp] theorem wr_tmg (s : State) (r : Reg) (i : Nat) (v : W64) : (s.wr r i v).tmg = s.tmg := rfl
@[simp] theorem wr_lanes (s : State) (r : Reg) (i : Nat) (v : W64) : (s.wr r i v).lanes = s.lanes := rfl
@[simp] theorem wr_fabric (s : State) (r : Reg) (i : Nat) (v : W64) : (s.wr r i v).fabric = s.fabric := rfl
@[simp] theorem wr_brams (s : State) (r : Reg) (i : Nat) (v : W64) : (s.wr r i v).brams = s.brams := rfl
@[simp] theorem wr_fifos (s : State) (r : Reg) (i : Nat) (v : W64) : (s.wr r i v).fifos = s.fifos := rfl
@[simp] theorem wr_slices (s : State) (r : Reg) (i : Nat) (v : W64) : (s.wr r i v).slices = s.slices := rfl
@[simp] theorem wr_rsyAt (s : State) (r : Reg) (i : Nat) (v : W64) : (s.wr r i v).rsyAt = s.rsyAt := rfl
@[simp] theorem wr_sand (s : State) (r : Reg) (i : Nat) (v : W64) : (s.wr r i v).sand = s.sand := rfl
@[simp] theorem wr_qtz (s : State) (r : Reg) (i : Nat) (v : W64) : (s.wr r i v).qtz = s.qtz := rfl
@[simp] theorem wr_vrd (s : State) (r : Reg) (i : Nat) (v : W64) : (s.wr r i v).vrd = s.vrd := rfl
@[simp] theorem wr_ldg (s : State) (r : Reg) (i : Nat) (v : W64) : (s.wr r i v).ldg = s.ldg := rfl
@[simp] theorem wr_ktp (s : State) (r : Reg) (i : Nat) (v : W64) : (s.wr r i v).ktp = s.ktp := rfl
@[simp] theorem wr_cfg (s : State) (r : Reg) (i : Nat) (v : W64) : (s.wr r i v).cfg = s.cfg := rfl
@[simp] theorem wr_fuses (s : State) (r : Reg) (i : Nat) (v : W64) : (s.wr r i v).fuses = s.fuses := rfl
@[simp] theorem wr_railsOff (s : State) (r : Reg) (i : Nat) (v : W64) : (s.wr r i v).railsOff = s.railsOff := rfl
@[simp] theorem wr_supplyOff (s : State) (r : Reg) (i : Nat) (v : W64) : (s.wr r i v).supplyOff = s.supplyOff := rfl
@[simp] theorem wr_pgr (s : State) (r : Reg) (i : Nat) (v : W64) : (s.wr r i v).pgr = s.pgr := rfl
@[simp] theorem wr_cores (s : State) (r : Reg) (i : Nat) (v : W64) : (s.wr r i v).cores = s.cores := rfl
@[simp] theorem wr_warden (s : State) (r : Reg) (i : Nat) (v : W64) : (s.wr r i v).warden = s.warden := rfl
@[simp] theorem wr_mem (s : State) (r : Reg) (i : Nat) (v : W64) : (s.wr r i v).mem = s.mem := rfl
@[simp] theorem wr_filled (s : State) (r : Reg) (i : Nat) (v : W64) : (s.wr r i v).filled = s.filled := rfl
@[simp] theorem wr_wordFlaw (s : State) (r : Reg) (i : Nat) (v : W64) : (s.wr r i v).wordFlaw = s.wordFlaw := rfl
@[simp] theorem wr_banks (s : State) (r : Reg) (i : Nat) (v : W64) : (s.wr r i v).banks = s.banks := rfl
@[simp] theorem wr_resv (s : State) (r : Reg) (i : Nat) (v : W64) : (s.wr r i v).resv = s.resv := rfl
@[simp] theorem wr_dma (s : State) (r : Reg) (i : Nat) (v : W64) : (s.wr r i v).dma = s.dma := rfl
@[simp] theorem wr_lineFlaw (s : State) (r : Reg) (i : Nat) (v : W64) : (s.wr r i v).lineFlaw = s.lineFlaw := rfl
@[simp] theorem wr_seals (s : State) (r : Reg) (i : Nat) (v : W64) : (s.wr r i v).seals = s.seals := rfl
@[simp] theorem wr_chans (s : State) (r : Reg) (i : Nat) (v : W64) : (s.wr r i v).chans = s.chans := rfl
@[simp] theorem wr_memKeys (s : State) (r : Reg) (i : Nat) (v : W64) : (s.wr r i v).memKeys = s.memKeys := rfl
@[simp] theorem wr_synths (s : State) (r : Reg) (i : Nat) (v : W64) : (s.wr r i v).synths = s.synths := rfl
@[simp] theorem wr_cmpRuns (s : State) (r : Reg) (i : Nat) (v : W64) : (s.wr r i v).cmpRuns = s.cmpRuns := rfl
@[simp] theorem wr_power (s : State) (r : Reg) (i : Nat) (v : W64) : (s.wr r i v).power = s.power := rfl
@[simp] theorem wr_svc (s : State) (r : Reg) (i : Nat) (v : W64) : (s.wr r i v).svc = s.svc := rfl
@[simp] theorem wr_evc (s : State) (r : Reg) (i : Nat) (v : W64) : (s.wr r i v).evc = s.evc := rfl
@[simp] theorem wr_dbg (s : State) (r : Reg) (i : Nat) (v : W64) : (s.wr r i v).dbg = s.dbg := rfl

@[simp] theorem put_pending (s : State) (f : Fld) (i v : Nat) : (s.put f i v).pending = s.pending := rfl
@[simp] theorem put_free (s : State) (f : Fld) (i v : Nat) : (s.put f i v).free = s.free := rfl
@[simp] theorem put_ans (s : State) (f : Fld) (i v : Nat) : (s.put f i v).ans = s.ans := rfl
@[simp] theorem put_halves (s : State) (f : Fld) (i v : Nat) : (s.put f i v).halves = s.halves := rfl
@[simp] theorem put_tmg (s : State) (f : Fld) (i v : Nat) : (s.put f i v).tmg = s.tmg := rfl
@[simp] theorem put_lanes (s : State) (f : Fld) (i v : Nat) : (s.put f i v).lanes = s.lanes := rfl
@[simp] theorem put_fabric (s : State) (f : Fld) (i v : Nat) : (s.put f i v).fabric = s.fabric := rfl
@[simp] theorem put_brams (s : State) (f : Fld) (i v : Nat) : (s.put f i v).brams = s.brams := rfl
@[simp] theorem put_fifos (s : State) (f : Fld) (i v : Nat) : (s.put f i v).fifos = s.fifos := rfl
@[simp] theorem put_slices (s : State) (f : Fld) (i v : Nat) : (s.put f i v).slices = s.slices := rfl
@[simp] theorem put_rsyAt (s : State) (f : Fld) (i v : Nat) : (s.put f i v).rsyAt = s.rsyAt := rfl
@[simp] theorem put_sand (s : State) (f : Fld) (i v : Nat) : (s.put f i v).sand = s.sand := rfl
@[simp] theorem put_qtz (s : State) (f : Fld) (i v : Nat) : (s.put f i v).qtz = s.qtz := rfl
@[simp] theorem put_vrd (s : State) (f : Fld) (i v : Nat) : (s.put f i v).vrd = s.vrd := rfl
@[simp] theorem put_ldg (s : State) (f : Fld) (i v : Nat) : (s.put f i v).ldg = s.ldg := rfl
@[simp] theorem put_ktp (s : State) (f : Fld) (i v : Nat) : (s.put f i v).ktp = s.ktp := rfl
@[simp] theorem put_cfg (s : State) (f : Fld) (i v : Nat) : (s.put f i v).cfg = s.cfg := rfl
@[simp] theorem put_fuses (s : State) (f : Fld) (i v : Nat) : (s.put f i v).fuses = s.fuses := rfl
@[simp] theorem put_railsOff (s : State) (f : Fld) (i v : Nat) : (s.put f i v).railsOff = s.railsOff := rfl
@[simp] theorem put_supplyOff (s : State) (f : Fld) (i v : Nat) : (s.put f i v).supplyOff = s.supplyOff := rfl
@[simp] theorem put_pgr (s : State) (f : Fld) (i v : Nat) : (s.put f i v).pgr = s.pgr := rfl
@[simp] theorem put_cores (s : State) (f : Fld) (i v : Nat) : (s.put f i v).cores = s.cores := rfl
@[simp] theorem put_warden (s : State) (f : Fld) (i v : Nat) : (s.put f i v).warden = s.warden := rfl
@[simp] theorem put_mem (s : State) (f : Fld) (i v : Nat) : (s.put f i v).mem = s.mem := rfl
@[simp] theorem put_filled (s : State) (f : Fld) (i v : Nat) : (s.put f i v).filled = s.filled := rfl
@[simp] theorem put_wordFlaw (s : State) (f : Fld) (i v : Nat) : (s.put f i v).wordFlaw = s.wordFlaw := rfl
@[simp] theorem put_banks (s : State) (f : Fld) (i v : Nat) : (s.put f i v).banks = s.banks := rfl
@[simp] theorem put_resv (s : State) (f : Fld) (i v : Nat) : (s.put f i v).resv = s.resv := rfl
@[simp] theorem put_dma (s : State) (f : Fld) (i v : Nat) : (s.put f i v).dma = s.dma := rfl
@[simp] theorem put_lineFlaw (s : State) (f : Fld) (i v : Nat) : (s.put f i v).lineFlaw = s.lineFlaw := rfl
@[simp] theorem put_seals (s : State) (f : Fld) (i v : Nat) : (s.put f i v).seals = s.seals := rfl
@[simp] theorem put_chans (s : State) (f : Fld) (i v : Nat) : (s.put f i v).chans = s.chans := rfl
@[simp] theorem put_memKeys (s : State) (f : Fld) (i v : Nat) : (s.put f i v).memKeys = s.memKeys := rfl
@[simp] theorem put_synths (s : State) (f : Fld) (i v : Nat) : (s.put f i v).synths = s.synths := rfl
@[simp] theorem put_cmpRuns (s : State) (f : Fld) (i v : Nat) : (s.put f i v).cmpRuns = s.cmpRuns := rfl
@[simp] theorem put_power (s : State) (f : Fld) (i v : Nat) : (s.put f i v).power = s.power := rfl
@[simp] theorem put_svc (s : State) (f : Fld) (i v : Nat) : (s.put f i v).svc = s.svc := rfl
@[simp] theorem put_evc (s : State) (f : Fld) (i v : Nat) : (s.put f i v).evc = s.evc := rfl
@[simp] theorem put_dbg (s : State) (f : Fld) (i v : Nat) : (s.put f i v).dbg = s.dbg := rfl

@[simp] theorem raise_pending (s : State) (f : Fld) (i : Nat) : (s.raise f i).pending = s.pending := rfl
@[simp] theorem raise_free (s : State) (f : Fld) (i : Nat) : (s.raise f i).free = s.free := rfl
@[simp] theorem raise_ans (s : State) (f : Fld) (i : Nat) : (s.raise f i).ans = s.ans := rfl
@[simp] theorem raise_halves (s : State) (f : Fld) (i : Nat) : (s.raise f i).halves = s.halves := rfl
@[simp] theorem raise_tmg (s : State) (f : Fld) (i : Nat) : (s.raise f i).tmg = s.tmg := rfl
@[simp] theorem raise_lanes (s : State) (f : Fld) (i : Nat) : (s.raise f i).lanes = s.lanes := rfl
@[simp] theorem raise_fabric (s : State) (f : Fld) (i : Nat) : (s.raise f i).fabric = s.fabric := rfl
@[simp] theorem raise_brams (s : State) (f : Fld) (i : Nat) : (s.raise f i).brams = s.brams := rfl
@[simp] theorem raise_fifos (s : State) (f : Fld) (i : Nat) : (s.raise f i).fifos = s.fifos := rfl
@[simp] theorem raise_slices (s : State) (f : Fld) (i : Nat) : (s.raise f i).slices = s.slices := rfl
@[simp] theorem raise_rsyAt (s : State) (f : Fld) (i : Nat) : (s.raise f i).rsyAt = s.rsyAt := rfl
@[simp] theorem raise_sand (s : State) (f : Fld) (i : Nat) : (s.raise f i).sand = s.sand := rfl
@[simp] theorem raise_qtz (s : State) (f : Fld) (i : Nat) : (s.raise f i).qtz = s.qtz := rfl
@[simp] theorem raise_vrd (s : State) (f : Fld) (i : Nat) : (s.raise f i).vrd = s.vrd := rfl
@[simp] theorem raise_ldg (s : State) (f : Fld) (i : Nat) : (s.raise f i).ldg = s.ldg := rfl
@[simp] theorem raise_ktp (s : State) (f : Fld) (i : Nat) : (s.raise f i).ktp = s.ktp := rfl
@[simp] theorem raise_cfg (s : State) (f : Fld) (i : Nat) : (s.raise f i).cfg = s.cfg := rfl
@[simp] theorem raise_fuses (s : State) (f : Fld) (i : Nat) : (s.raise f i).fuses = s.fuses := rfl
@[simp] theorem raise_railsOff (s : State) (f : Fld) (i : Nat) : (s.raise f i).railsOff = s.railsOff := rfl
@[simp] theorem raise_supplyOff (s : State) (f : Fld) (i : Nat) : (s.raise f i).supplyOff = s.supplyOff := rfl
@[simp] theorem raise_pgr (s : State) (f : Fld) (i : Nat) : (s.raise f i).pgr = s.pgr := rfl
@[simp] theorem raise_cores (s : State) (f : Fld) (i : Nat) : (s.raise f i).cores = s.cores := rfl
@[simp] theorem raise_warden (s : State) (f : Fld) (i : Nat) : (s.raise f i).warden = s.warden := rfl
@[simp] theorem raise_mem (s : State) (f : Fld) (i : Nat) : (s.raise f i).mem = s.mem := rfl
@[simp] theorem raise_filled (s : State) (f : Fld) (i : Nat) : (s.raise f i).filled = s.filled := rfl
@[simp] theorem raise_wordFlaw (s : State) (f : Fld) (i : Nat) : (s.raise f i).wordFlaw = s.wordFlaw := rfl
@[simp] theorem raise_banks (s : State) (f : Fld) (i : Nat) : (s.raise f i).banks = s.banks := rfl
@[simp] theorem raise_resv (s : State) (f : Fld) (i : Nat) : (s.raise f i).resv = s.resv := rfl
@[simp] theorem raise_dma (s : State) (f : Fld) (i : Nat) : (s.raise f i).dma = s.dma := rfl
@[simp] theorem raise_lineFlaw (s : State) (f : Fld) (i : Nat) : (s.raise f i).lineFlaw = s.lineFlaw := rfl
@[simp] theorem raise_seals (s : State) (f : Fld) (i : Nat) : (s.raise f i).seals = s.seals := rfl
@[simp] theorem raise_chans (s : State) (f : Fld) (i : Nat) : (s.raise f i).chans = s.chans := rfl
@[simp] theorem raise_memKeys (s : State) (f : Fld) (i : Nat) : (s.raise f i).memKeys = s.memKeys := rfl
@[simp] theorem raise_synths (s : State) (f : Fld) (i : Nat) : (s.raise f i).synths = s.synths := rfl
@[simp] theorem raise_cmpRuns (s : State) (f : Fld) (i : Nat) : (s.raise f i).cmpRuns = s.cmpRuns := rfl
@[simp] theorem raise_power (s : State) (f : Fld) (i : Nat) : (s.raise f i).power = s.power := rfl
@[simp] theorem raise_svc (s : State) (f : Fld) (i : Nat) : (s.raise f i).svc = s.svc := rfl
@[simp] theorem raise_evc (s : State) (f : Fld) (i : Nat) : (s.raise f i).evc = s.evc := rfl
@[simp] theorem raise_dbg (s : State) (f : Fld) (i : Nat) : (s.raise f i).dbg = s.dbg := rfl

@[simp] theorem clear_pending (s : State) (f : Fld) (i : Nat) : (s.clear f i).pending = s.pending := rfl
@[simp] theorem clear_free (s : State) (f : Fld) (i : Nat) : (s.clear f i).free = s.free := rfl
@[simp] theorem clear_ans (s : State) (f : Fld) (i : Nat) : (s.clear f i).ans = s.ans := rfl
@[simp] theorem clear_halves (s : State) (f : Fld) (i : Nat) : (s.clear f i).halves = s.halves := rfl
@[simp] theorem clear_tmg (s : State) (f : Fld) (i : Nat) : (s.clear f i).tmg = s.tmg := rfl
@[simp] theorem clear_lanes (s : State) (f : Fld) (i : Nat) : (s.clear f i).lanes = s.lanes := rfl
@[simp] theorem clear_fabric (s : State) (f : Fld) (i : Nat) : (s.clear f i).fabric = s.fabric := rfl
@[simp] theorem clear_brams (s : State) (f : Fld) (i : Nat) : (s.clear f i).brams = s.brams := rfl
@[simp] theorem clear_fifos (s : State) (f : Fld) (i : Nat) : (s.clear f i).fifos = s.fifos := rfl
@[simp] theorem clear_slices (s : State) (f : Fld) (i : Nat) : (s.clear f i).slices = s.slices := rfl
@[simp] theorem clear_rsyAt (s : State) (f : Fld) (i : Nat) : (s.clear f i).rsyAt = s.rsyAt := rfl
@[simp] theorem clear_sand (s : State) (f : Fld) (i : Nat) : (s.clear f i).sand = s.sand := rfl
@[simp] theorem clear_qtz (s : State) (f : Fld) (i : Nat) : (s.clear f i).qtz = s.qtz := rfl
@[simp] theorem clear_vrd (s : State) (f : Fld) (i : Nat) : (s.clear f i).vrd = s.vrd := rfl
@[simp] theorem clear_ldg (s : State) (f : Fld) (i : Nat) : (s.clear f i).ldg = s.ldg := rfl
@[simp] theorem clear_ktp (s : State) (f : Fld) (i : Nat) : (s.clear f i).ktp = s.ktp := rfl
@[simp] theorem clear_cfg (s : State) (f : Fld) (i : Nat) : (s.clear f i).cfg = s.cfg := rfl
@[simp] theorem clear_fuses (s : State) (f : Fld) (i : Nat) : (s.clear f i).fuses = s.fuses := rfl
@[simp] theorem clear_railsOff (s : State) (f : Fld) (i : Nat) : (s.clear f i).railsOff = s.railsOff := rfl
@[simp] theorem clear_supplyOff (s : State) (f : Fld) (i : Nat) : (s.clear f i).supplyOff = s.supplyOff := rfl
@[simp] theorem clear_pgr (s : State) (f : Fld) (i : Nat) : (s.clear f i).pgr = s.pgr := rfl
@[simp] theorem clear_cores (s : State) (f : Fld) (i : Nat) : (s.clear f i).cores = s.cores := rfl
@[simp] theorem clear_warden (s : State) (f : Fld) (i : Nat) : (s.clear f i).warden = s.warden := rfl
@[simp] theorem clear_mem (s : State) (f : Fld) (i : Nat) : (s.clear f i).mem = s.mem := rfl
@[simp] theorem clear_filled (s : State) (f : Fld) (i : Nat) : (s.clear f i).filled = s.filled := rfl
@[simp] theorem clear_wordFlaw (s : State) (f : Fld) (i : Nat) : (s.clear f i).wordFlaw = s.wordFlaw := rfl
@[simp] theorem clear_banks (s : State) (f : Fld) (i : Nat) : (s.clear f i).banks = s.banks := rfl
@[simp] theorem clear_resv (s : State) (f : Fld) (i : Nat) : (s.clear f i).resv = s.resv := rfl
@[simp] theorem clear_dma (s : State) (f : Fld) (i : Nat) : (s.clear f i).dma = s.dma := rfl
@[simp] theorem clear_lineFlaw (s : State) (f : Fld) (i : Nat) : (s.clear f i).lineFlaw = s.lineFlaw := rfl
@[simp] theorem clear_seals (s : State) (f : Fld) (i : Nat) : (s.clear f i).seals = s.seals := rfl
@[simp] theorem clear_chans (s : State) (f : Fld) (i : Nat) : (s.clear f i).chans = s.chans := rfl
@[simp] theorem clear_memKeys (s : State) (f : Fld) (i : Nat) : (s.clear f i).memKeys = s.memKeys := rfl
@[simp] theorem clear_synths (s : State) (f : Fld) (i : Nat) : (s.clear f i).synths = s.synths := rfl
@[simp] theorem clear_cmpRuns (s : State) (f : Fld) (i : Nat) : (s.clear f i).cmpRuns = s.cmpRuns := rfl
@[simp] theorem clear_power (s : State) (f : Fld) (i : Nat) : (s.clear f i).power = s.power := rfl
@[simp] theorem clear_svc (s : State) (f : Fld) (i : Nat) : (s.clear f i).svc = s.svc := rfl
@[simp] theorem clear_evc (s : State) (f : Fld) (i : Nat) : (s.clear f i).evc = s.evc := rfl
@[simp] theorem clear_dbg (s : State) (f : Fld) (i : Nat) : (s.clear f i).dbg = s.dbg := rfl

@[simp] theorem flag_pending (s : State) (f : Fld) (i : Nat) (b : Bool) : (s.flag f i b).pending = s.pending := rfl
@[simp] theorem flag_free (s : State) (f : Fld) (i : Nat) (b : Bool) : (s.flag f i b).free = s.free := rfl
@[simp] theorem flag_ans (s : State) (f : Fld) (i : Nat) (b : Bool) : (s.flag f i b).ans = s.ans := rfl
@[simp] theorem flag_halves (s : State) (f : Fld) (i : Nat) (b : Bool) : (s.flag f i b).halves = s.halves := rfl
@[simp] theorem flag_tmg (s : State) (f : Fld) (i : Nat) (b : Bool) : (s.flag f i b).tmg = s.tmg := rfl
@[simp] theorem flag_lanes (s : State) (f : Fld) (i : Nat) (b : Bool) : (s.flag f i b).lanes = s.lanes := rfl
@[simp] theorem flag_fabric (s : State) (f : Fld) (i : Nat) (b : Bool) : (s.flag f i b).fabric = s.fabric := rfl
@[simp] theorem flag_brams (s : State) (f : Fld) (i : Nat) (b : Bool) : (s.flag f i b).brams = s.brams := rfl
@[simp] theorem flag_fifos (s : State) (f : Fld) (i : Nat) (b : Bool) : (s.flag f i b).fifos = s.fifos := rfl
@[simp] theorem flag_slices (s : State) (f : Fld) (i : Nat) (b : Bool) : (s.flag f i b).slices = s.slices := rfl
@[simp] theorem flag_rsyAt (s : State) (f : Fld) (i : Nat) (b : Bool) : (s.flag f i b).rsyAt = s.rsyAt := rfl
@[simp] theorem flag_sand (s : State) (f : Fld) (i : Nat) (b : Bool) : (s.flag f i b).sand = s.sand := rfl
@[simp] theorem flag_qtz (s : State) (f : Fld) (i : Nat) (b : Bool) : (s.flag f i b).qtz = s.qtz := rfl
@[simp] theorem flag_vrd (s : State) (f : Fld) (i : Nat) (b : Bool) : (s.flag f i b).vrd = s.vrd := rfl
@[simp] theorem flag_ldg (s : State) (f : Fld) (i : Nat) (b : Bool) : (s.flag f i b).ldg = s.ldg := rfl
@[simp] theorem flag_ktp (s : State) (f : Fld) (i : Nat) (b : Bool) : (s.flag f i b).ktp = s.ktp := rfl
@[simp] theorem flag_cfg (s : State) (f : Fld) (i : Nat) (b : Bool) : (s.flag f i b).cfg = s.cfg := rfl
@[simp] theorem flag_fuses (s : State) (f : Fld) (i : Nat) (b : Bool) : (s.flag f i b).fuses = s.fuses := rfl
@[simp] theorem flag_railsOff (s : State) (f : Fld) (i : Nat) (b : Bool) : (s.flag f i b).railsOff = s.railsOff := rfl
@[simp] theorem flag_supplyOff (s : State) (f : Fld) (i : Nat) (b : Bool) : (s.flag f i b).supplyOff = s.supplyOff := rfl
@[simp] theorem flag_pgr (s : State) (f : Fld) (i : Nat) (b : Bool) : (s.flag f i b).pgr = s.pgr := rfl
@[simp] theorem flag_cores (s : State) (f : Fld) (i : Nat) (b : Bool) : (s.flag f i b).cores = s.cores := rfl
@[simp] theorem flag_warden (s : State) (f : Fld) (i : Nat) (b : Bool) : (s.flag f i b).warden = s.warden := rfl
@[simp] theorem flag_mem (s : State) (f : Fld) (i : Nat) (b : Bool) : (s.flag f i b).mem = s.mem := rfl
@[simp] theorem flag_filled (s : State) (f : Fld) (i : Nat) (b : Bool) : (s.flag f i b).filled = s.filled := rfl
@[simp] theorem flag_wordFlaw (s : State) (f : Fld) (i : Nat) (b : Bool) : (s.flag f i b).wordFlaw = s.wordFlaw := rfl
@[simp] theorem flag_banks (s : State) (f : Fld) (i : Nat) (b : Bool) : (s.flag f i b).banks = s.banks := rfl
@[simp] theorem flag_resv (s : State) (f : Fld) (i : Nat) (b : Bool) : (s.flag f i b).resv = s.resv := rfl
@[simp] theorem flag_dma (s : State) (f : Fld) (i : Nat) (b : Bool) : (s.flag f i b).dma = s.dma := rfl
@[simp] theorem flag_lineFlaw (s : State) (f : Fld) (i : Nat) (b : Bool) : (s.flag f i b).lineFlaw = s.lineFlaw := rfl
@[simp] theorem flag_seals (s : State) (f : Fld) (i : Nat) (b : Bool) : (s.flag f i b).seals = s.seals := rfl
@[simp] theorem flag_chans (s : State) (f : Fld) (i : Nat) (b : Bool) : (s.flag f i b).chans = s.chans := rfl
@[simp] theorem flag_memKeys (s : State) (f : Fld) (i : Nat) (b : Bool) : (s.flag f i b).memKeys = s.memKeys := rfl
@[simp] theorem flag_synths (s : State) (f : Fld) (i : Nat) (b : Bool) : (s.flag f i b).synths = s.synths := rfl
@[simp] theorem flag_cmpRuns (s : State) (f : Fld) (i : Nat) (b : Bool) : (s.flag f i b).cmpRuns = s.cmpRuns := rfl
@[simp] theorem flag_power (s : State) (f : Fld) (i : Nat) (b : Bool) : (s.flag f i b).power = s.power := rfl
@[simp] theorem flag_svc (s : State) (f : Fld) (i : Nat) (b : Bool) : (s.flag f i b).svc = s.svc := rfl
@[simp] theorem flag_evc (s : State) (f : Fld) (i : Nat) (b : Bool) : (s.flag f i b).evc = s.evc := rfl
@[simp] theorem flag_dbg (s : State) (f : Fld) (i : Nat) (b : Bool) : (s.flag f i b).dbg = s.dbg := rfl

@[simp] theorem bumpHold_pending (s : State) (f : Fld) (i n : Nat) : (s.bumpHold f i n).pending = s.pending := rfl
@[simp] theorem bumpHold_free (s : State) (f : Fld) (i n : Nat) : (s.bumpHold f i n).free = s.free := rfl
@[simp] theorem bumpHold_ans (s : State) (f : Fld) (i n : Nat) : (s.bumpHold f i n).ans = s.ans := rfl
@[simp] theorem bumpHold_halves (s : State) (f : Fld) (i n : Nat) : (s.bumpHold f i n).halves = s.halves := rfl
@[simp] theorem bumpHold_tmg (s : State) (f : Fld) (i n : Nat) : (s.bumpHold f i n).tmg = s.tmg := rfl
@[simp] theorem bumpHold_lanes (s : State) (f : Fld) (i n : Nat) : (s.bumpHold f i n).lanes = s.lanes := rfl
@[simp] theorem bumpHold_fabric (s : State) (f : Fld) (i n : Nat) : (s.bumpHold f i n).fabric = s.fabric := rfl
@[simp] theorem bumpHold_brams (s : State) (f : Fld) (i n : Nat) : (s.bumpHold f i n).brams = s.brams := rfl
@[simp] theorem bumpHold_fifos (s : State) (f : Fld) (i n : Nat) : (s.bumpHold f i n).fifos = s.fifos := rfl
@[simp] theorem bumpHold_slices (s : State) (f : Fld) (i n : Nat) : (s.bumpHold f i n).slices = s.slices := rfl
@[simp] theorem bumpHold_rsyAt (s : State) (f : Fld) (i n : Nat) : (s.bumpHold f i n).rsyAt = s.rsyAt := rfl
@[simp] theorem bumpHold_sand (s : State) (f : Fld) (i n : Nat) : (s.bumpHold f i n).sand = s.sand := rfl
@[simp] theorem bumpHold_qtz (s : State) (f : Fld) (i n : Nat) : (s.bumpHold f i n).qtz = s.qtz := rfl
@[simp] theorem bumpHold_vrd (s : State) (f : Fld) (i n : Nat) : (s.bumpHold f i n).vrd = s.vrd := rfl
@[simp] theorem bumpHold_ldg (s : State) (f : Fld) (i n : Nat) : (s.bumpHold f i n).ldg = s.ldg := rfl
@[simp] theorem bumpHold_ktp (s : State) (f : Fld) (i n : Nat) : (s.bumpHold f i n).ktp = s.ktp := rfl
@[simp] theorem bumpHold_cfg (s : State) (f : Fld) (i n : Nat) : (s.bumpHold f i n).cfg = s.cfg := rfl
@[simp] theorem bumpHold_fuses (s : State) (f : Fld) (i n : Nat) : (s.bumpHold f i n).fuses = s.fuses := rfl
@[simp] theorem bumpHold_railsOff (s : State) (f : Fld) (i n : Nat) : (s.bumpHold f i n).railsOff = s.railsOff := rfl
@[simp] theorem bumpHold_supplyOff (s : State) (f : Fld) (i n : Nat) : (s.bumpHold f i n).supplyOff = s.supplyOff := rfl
@[simp] theorem bumpHold_pgr (s : State) (f : Fld) (i n : Nat) : (s.bumpHold f i n).pgr = s.pgr := rfl
@[simp] theorem bumpHold_cores (s : State) (f : Fld) (i n : Nat) : (s.bumpHold f i n).cores = s.cores := rfl
@[simp] theorem bumpHold_warden (s : State) (f : Fld) (i n : Nat) : (s.bumpHold f i n).warden = s.warden := rfl
@[simp] theorem bumpHold_mem (s : State) (f : Fld) (i n : Nat) : (s.bumpHold f i n).mem = s.mem := rfl
@[simp] theorem bumpHold_filled (s : State) (f : Fld) (i n : Nat) : (s.bumpHold f i n).filled = s.filled := rfl
@[simp] theorem bumpHold_wordFlaw (s : State) (f : Fld) (i n : Nat) : (s.bumpHold f i n).wordFlaw = s.wordFlaw := rfl
@[simp] theorem bumpHold_banks (s : State) (f : Fld) (i n : Nat) : (s.bumpHold f i n).banks = s.banks := rfl
@[simp] theorem bumpHold_resv (s : State) (f : Fld) (i n : Nat) : (s.bumpHold f i n).resv = s.resv := rfl
@[simp] theorem bumpHold_dma (s : State) (f : Fld) (i n : Nat) : (s.bumpHold f i n).dma = s.dma := rfl
@[simp] theorem bumpHold_lineFlaw (s : State) (f : Fld) (i n : Nat) : (s.bumpHold f i n).lineFlaw = s.lineFlaw := rfl
@[simp] theorem bumpHold_seals (s : State) (f : Fld) (i n : Nat) : (s.bumpHold f i n).seals = s.seals := rfl
@[simp] theorem bumpHold_chans (s : State) (f : Fld) (i n : Nat) : (s.bumpHold f i n).chans = s.chans := rfl
@[simp] theorem bumpHold_memKeys (s : State) (f : Fld) (i n : Nat) : (s.bumpHold f i n).memKeys = s.memKeys := rfl
@[simp] theorem bumpHold_synths (s : State) (f : Fld) (i n : Nat) : (s.bumpHold f i n).synths = s.synths := rfl
@[simp] theorem bumpHold_cmpRuns (s : State) (f : Fld) (i n : Nat) : (s.bumpHold f i n).cmpRuns = s.cmpRuns := rfl
@[simp] theorem bumpHold_power (s : State) (f : Fld) (i n : Nat) : (s.bumpHold f i n).power = s.power := rfl
@[simp] theorem bumpHold_svc (s : State) (f : Fld) (i n : Nat) : (s.bumpHold f i n).svc = s.svc := rfl
@[simp] theorem bumpHold_evc (s : State) (f : Fld) (i n : Nat) : (s.bumpHold f i n).evc = s.evc := rfl
@[simp] theorem bumpHold_dbg (s : State) (f : Fld) (i n : Nat) : (s.bumpHold f i n).dbg = s.dbg := rfl

@[simp] theorem bumpWrap_pending (s : State) (f : Fld) (i n : Nat) : (s.bumpWrap f i n).pending = s.pending := rfl
@[simp] theorem bumpWrap_free (s : State) (f : Fld) (i n : Nat) : (s.bumpWrap f i n).free = s.free := rfl
@[simp] theorem bumpWrap_ans (s : State) (f : Fld) (i n : Nat) : (s.bumpWrap f i n).ans = s.ans := rfl
@[simp] theorem bumpWrap_halves (s : State) (f : Fld) (i n : Nat) : (s.bumpWrap f i n).halves = s.halves := rfl
@[simp] theorem bumpWrap_tmg (s : State) (f : Fld) (i n : Nat) : (s.bumpWrap f i n).tmg = s.tmg := rfl
@[simp] theorem bumpWrap_lanes (s : State) (f : Fld) (i n : Nat) : (s.bumpWrap f i n).lanes = s.lanes := rfl
@[simp] theorem bumpWrap_fabric (s : State) (f : Fld) (i n : Nat) : (s.bumpWrap f i n).fabric = s.fabric := rfl
@[simp] theorem bumpWrap_brams (s : State) (f : Fld) (i n : Nat) : (s.bumpWrap f i n).brams = s.brams := rfl
@[simp] theorem bumpWrap_fifos (s : State) (f : Fld) (i n : Nat) : (s.bumpWrap f i n).fifos = s.fifos := rfl
@[simp] theorem bumpWrap_slices (s : State) (f : Fld) (i n : Nat) : (s.bumpWrap f i n).slices = s.slices := rfl
@[simp] theorem bumpWrap_rsyAt (s : State) (f : Fld) (i n : Nat) : (s.bumpWrap f i n).rsyAt = s.rsyAt := rfl
@[simp] theorem bumpWrap_sand (s : State) (f : Fld) (i n : Nat) : (s.bumpWrap f i n).sand = s.sand := rfl
@[simp] theorem bumpWrap_qtz (s : State) (f : Fld) (i n : Nat) : (s.bumpWrap f i n).qtz = s.qtz := rfl
@[simp] theorem bumpWrap_vrd (s : State) (f : Fld) (i n : Nat) : (s.bumpWrap f i n).vrd = s.vrd := rfl
@[simp] theorem bumpWrap_ldg (s : State) (f : Fld) (i n : Nat) : (s.bumpWrap f i n).ldg = s.ldg := rfl
@[simp] theorem bumpWrap_ktp (s : State) (f : Fld) (i n : Nat) : (s.bumpWrap f i n).ktp = s.ktp := rfl
@[simp] theorem bumpWrap_cfg (s : State) (f : Fld) (i n : Nat) : (s.bumpWrap f i n).cfg = s.cfg := rfl
@[simp] theorem bumpWrap_fuses (s : State) (f : Fld) (i n : Nat) : (s.bumpWrap f i n).fuses = s.fuses := rfl
@[simp] theorem bumpWrap_railsOff (s : State) (f : Fld) (i n : Nat) : (s.bumpWrap f i n).railsOff = s.railsOff := rfl
@[simp] theorem bumpWrap_supplyOff (s : State) (f : Fld) (i n : Nat) : (s.bumpWrap f i n).supplyOff = s.supplyOff := rfl
@[simp] theorem bumpWrap_pgr (s : State) (f : Fld) (i n : Nat) : (s.bumpWrap f i n).pgr = s.pgr := rfl
@[simp] theorem bumpWrap_cores (s : State) (f : Fld) (i n : Nat) : (s.bumpWrap f i n).cores = s.cores := rfl
@[simp] theorem bumpWrap_warden (s : State) (f : Fld) (i n : Nat) : (s.bumpWrap f i n).warden = s.warden := rfl
@[simp] theorem bumpWrap_mem (s : State) (f : Fld) (i n : Nat) : (s.bumpWrap f i n).mem = s.mem := rfl
@[simp] theorem bumpWrap_filled (s : State) (f : Fld) (i n : Nat) : (s.bumpWrap f i n).filled = s.filled := rfl
@[simp] theorem bumpWrap_wordFlaw (s : State) (f : Fld) (i n : Nat) : (s.bumpWrap f i n).wordFlaw = s.wordFlaw := rfl
@[simp] theorem bumpWrap_banks (s : State) (f : Fld) (i n : Nat) : (s.bumpWrap f i n).banks = s.banks := rfl
@[simp] theorem bumpWrap_resv (s : State) (f : Fld) (i n : Nat) : (s.bumpWrap f i n).resv = s.resv := rfl
@[simp] theorem bumpWrap_dma (s : State) (f : Fld) (i n : Nat) : (s.bumpWrap f i n).dma = s.dma := rfl
@[simp] theorem bumpWrap_lineFlaw (s : State) (f : Fld) (i n : Nat) : (s.bumpWrap f i n).lineFlaw = s.lineFlaw := rfl
@[simp] theorem bumpWrap_seals (s : State) (f : Fld) (i n : Nat) : (s.bumpWrap f i n).seals = s.seals := rfl
@[simp] theorem bumpWrap_chans (s : State) (f : Fld) (i n : Nat) : (s.bumpWrap f i n).chans = s.chans := rfl
@[simp] theorem bumpWrap_memKeys (s : State) (f : Fld) (i n : Nat) : (s.bumpWrap f i n).memKeys = s.memKeys := rfl
@[simp] theorem bumpWrap_synths (s : State) (f : Fld) (i n : Nat) : (s.bumpWrap f i n).synths = s.synths := rfl
@[simp] theorem bumpWrap_cmpRuns (s : State) (f : Fld) (i n : Nat) : (s.bumpWrap f i n).cmpRuns = s.cmpRuns := rfl
@[simp] theorem bumpWrap_power (s : State) (f : Fld) (i n : Nat) : (s.bumpWrap f i n).power = s.power := rfl
@[simp] theorem bumpWrap_svc (s : State) (f : Fld) (i n : Nat) : (s.bumpWrap f i n).svc = s.svc := rfl
@[simp] theorem bumpWrap_evc (s : State) (f : Fld) (i n : Nat) : (s.bumpWrap f i n).evc = s.evc := rfl
@[simp] theorem bumpWrap_dbg (s : State) (f : Fld) (i n : Nat) : (s.bumpWrap f i n).dbg = s.dbg := rfl

@[simp] theorem answer_pending (s : State) (r : Resp) (d : W64) : (s.answer r d).pending = s.pending := rfl
@[simp] theorem answer_regs (s : State) (r : Resp) (d : W64) : (s.answer r d).regs = s.regs := rfl
@[simp] theorem answer_free (s : State) (r : Resp) (d : W64) : (s.answer r d).free = s.free := rfl
@[simp] theorem answer_ans (s : State) (r : Resp) (d : W64) : (s.answer r d).ans = { resp := r, data := d } := rfl
@[simp] theorem answer_halves (s : State) (r : Resp) (d : W64) : (s.answer r d).halves = s.halves := rfl
@[simp] theorem answer_tmg (s : State) (r : Resp) (d : W64) : (s.answer r d).tmg = s.tmg := rfl
@[simp] theorem answer_lanes (s : State) (r : Resp) (d : W64) : (s.answer r d).lanes = s.lanes := rfl
@[simp] theorem answer_fabric (s : State) (r : Resp) (d : W64) : (s.answer r d).fabric = s.fabric := rfl
@[simp] theorem answer_brams (s : State) (r : Resp) (d : W64) : (s.answer r d).brams = s.brams := rfl
@[simp] theorem answer_fifos (s : State) (r : Resp) (d : W64) : (s.answer r d).fifos = s.fifos := rfl
@[simp] theorem answer_slices (s : State) (r : Resp) (d : W64) : (s.answer r d).slices = s.slices := rfl
@[simp] theorem answer_rsyAt (s : State) (r : Resp) (d : W64) : (s.answer r d).rsyAt = s.rsyAt := rfl
@[simp] theorem answer_sand (s : State) (r : Resp) (d : W64) : (s.answer r d).sand = s.sand := rfl
@[simp] theorem answer_qtz (s : State) (r : Resp) (d : W64) : (s.answer r d).qtz = s.qtz := rfl
@[simp] theorem answer_vrd (s : State) (r : Resp) (d : W64) : (s.answer r d).vrd = s.vrd := rfl
@[simp] theorem answer_ldg (s : State) (r : Resp) (d : W64) : (s.answer r d).ldg = s.ldg := rfl
@[simp] theorem answer_ktp (s : State) (r : Resp) (d : W64) : (s.answer r d).ktp = s.ktp := rfl
@[simp] theorem answer_cfg (s : State) (r : Resp) (d : W64) : (s.answer r d).cfg = s.cfg := rfl
@[simp] theorem answer_fuses (s : State) (r : Resp) (d : W64) : (s.answer r d).fuses = s.fuses := rfl
@[simp] theorem answer_railsOff (s : State) (r : Resp) (d : W64) : (s.answer r d).railsOff = s.railsOff := rfl
@[simp] theorem answer_supplyOff (s : State) (r : Resp) (d : W64) : (s.answer r d).supplyOff = s.supplyOff := rfl
@[simp] theorem answer_pgr (s : State) (r : Resp) (d : W64) : (s.answer r d).pgr = s.pgr := rfl
@[simp] theorem answer_cores (s : State) (r : Resp) (d : W64) : (s.answer r d).cores = s.cores := rfl
@[simp] theorem answer_warden (s : State) (r : Resp) (d : W64) : (s.answer r d).warden = s.warden := rfl
@[simp] theorem answer_mem (s : State) (r : Resp) (d : W64) : (s.answer r d).mem = s.mem := rfl
@[simp] theorem answer_filled (s : State) (r : Resp) (d : W64) : (s.answer r d).filled = s.filled := rfl
@[simp] theorem answer_wordFlaw (s : State) (r : Resp) (d : W64) : (s.answer r d).wordFlaw = s.wordFlaw := rfl
@[simp] theorem answer_banks (s : State) (r : Resp) (d : W64) : (s.answer r d).banks = s.banks := rfl
@[simp] theorem answer_resv (s : State) (r : Resp) (d : W64) : (s.answer r d).resv = s.resv := rfl
@[simp] theorem answer_dma (s : State) (r : Resp) (d : W64) : (s.answer r d).dma = s.dma := rfl
@[simp] theorem answer_lineFlaw (s : State) (r : Resp) (d : W64) : (s.answer r d).lineFlaw = s.lineFlaw := rfl
@[simp] theorem answer_seals (s : State) (r : Resp) (d : W64) : (s.answer r d).seals = s.seals := rfl
@[simp] theorem answer_chans (s : State) (r : Resp) (d : W64) : (s.answer r d).chans = s.chans := rfl
@[simp] theorem answer_memKeys (s : State) (r : Resp) (d : W64) : (s.answer r d).memKeys = s.memKeys := rfl
@[simp] theorem answer_synths (s : State) (r : Resp) (d : W64) : (s.answer r d).synths = s.synths := rfl
@[simp] theorem answer_cmpRuns (s : State) (r : Resp) (d : W64) : (s.answer r d).cmpRuns = s.cmpRuns := rfl
@[simp] theorem answer_power (s : State) (r : Resp) (d : W64) : (s.answer r d).power = s.power := rfl
@[simp] theorem answer_svc (s : State) (r : Resp) (d : W64) : (s.answer r d).svc = s.svc := rfl
@[simp] theorem answer_evc (s : State) (r : Resp) (d : W64) : (s.answer r d).evc = s.evc := rfl
@[simp] theorem answer_dbg (s : State) (r : Resp) (d : W64) : (s.answer r d).dbg = s.dbg := rfl
@[simp] theorem answer_rd (s : State) (r : Resp) (d : W64) (q : Reg) (j : Nat) : (s.answer r d).rd q j = s.rd q j := rfl
@[simp] theorem answer_get (s : State) (r : Resp) (d : W64) (q : Fld) (j : Nat) : (s.answer r d).get q j = s.get q j := rfl
@[simp] theorem answer_on (s : State) (r : Resp) (d : W64) (q : Fld) (j : Nat) : (s.answer r d).on q j = s.on q j := rfl

@[simp] theorem okay_pending (s : State) (d : Nat) : (s.okay d).pending = s.pending := rfl
@[simp] theorem okay_regs (s : State) (d : Nat) : (s.okay d).regs = s.regs := rfl
@[simp] theorem okay_free (s : State) (d : Nat) : (s.okay d).free = s.free := rfl
@[simp] theorem okay_ans (s : State) (d : Nat) : (s.okay d).ans = { resp := .okay, data := BitVec.ofNat 64 d } := rfl
@[simp] theorem okay_halves (s : State) (d : Nat) : (s.okay d).halves = s.halves := rfl
@[simp] theorem okay_tmg (s : State) (d : Nat) : (s.okay d).tmg = s.tmg := rfl
@[simp] theorem okay_lanes (s : State) (d : Nat) : (s.okay d).lanes = s.lanes := rfl
@[simp] theorem okay_fabric (s : State) (d : Nat) : (s.okay d).fabric = s.fabric := rfl
@[simp] theorem okay_brams (s : State) (d : Nat) : (s.okay d).brams = s.brams := rfl
@[simp] theorem okay_fifos (s : State) (d : Nat) : (s.okay d).fifos = s.fifos := rfl
@[simp] theorem okay_slices (s : State) (d : Nat) : (s.okay d).slices = s.slices := rfl
@[simp] theorem okay_rsyAt (s : State) (d : Nat) : (s.okay d).rsyAt = s.rsyAt := rfl
@[simp] theorem okay_sand (s : State) (d : Nat) : (s.okay d).sand = s.sand := rfl
@[simp] theorem okay_qtz (s : State) (d : Nat) : (s.okay d).qtz = s.qtz := rfl
@[simp] theorem okay_vrd (s : State) (d : Nat) : (s.okay d).vrd = s.vrd := rfl
@[simp] theorem okay_ldg (s : State) (d : Nat) : (s.okay d).ldg = s.ldg := rfl
@[simp] theorem okay_ktp (s : State) (d : Nat) : (s.okay d).ktp = s.ktp := rfl
@[simp] theorem okay_cfg (s : State) (d : Nat) : (s.okay d).cfg = s.cfg := rfl
@[simp] theorem okay_fuses (s : State) (d : Nat) : (s.okay d).fuses = s.fuses := rfl
@[simp] theorem okay_railsOff (s : State) (d : Nat) : (s.okay d).railsOff = s.railsOff := rfl
@[simp] theorem okay_supplyOff (s : State) (d : Nat) : (s.okay d).supplyOff = s.supplyOff := rfl
@[simp] theorem okay_pgr (s : State) (d : Nat) : (s.okay d).pgr = s.pgr := rfl
@[simp] theorem okay_cores (s : State) (d : Nat) : (s.okay d).cores = s.cores := rfl
@[simp] theorem okay_warden (s : State) (d : Nat) : (s.okay d).warden = s.warden := rfl
@[simp] theorem okay_mem (s : State) (d : Nat) : (s.okay d).mem = s.mem := rfl
@[simp] theorem okay_filled (s : State) (d : Nat) : (s.okay d).filled = s.filled := rfl
@[simp] theorem okay_wordFlaw (s : State) (d : Nat) : (s.okay d).wordFlaw = s.wordFlaw := rfl
@[simp] theorem okay_banks (s : State) (d : Nat) : (s.okay d).banks = s.banks := rfl
@[simp] theorem okay_resv (s : State) (d : Nat) : (s.okay d).resv = s.resv := rfl
@[simp] theorem okay_dma (s : State) (d : Nat) : (s.okay d).dma = s.dma := rfl
@[simp] theorem okay_lineFlaw (s : State) (d : Nat) : (s.okay d).lineFlaw = s.lineFlaw := rfl
@[simp] theorem okay_seals (s : State) (d : Nat) : (s.okay d).seals = s.seals := rfl
@[simp] theorem okay_chans (s : State) (d : Nat) : (s.okay d).chans = s.chans := rfl
@[simp] theorem okay_memKeys (s : State) (d : Nat) : (s.okay d).memKeys = s.memKeys := rfl
@[simp] theorem okay_synths (s : State) (d : Nat) : (s.okay d).synths = s.synths := rfl
@[simp] theorem okay_cmpRuns (s : State) (d : Nat) : (s.okay d).cmpRuns = s.cmpRuns := rfl
@[simp] theorem okay_power (s : State) (d : Nat) : (s.okay d).power = s.power := rfl
@[simp] theorem okay_svc (s : State) (d : Nat) : (s.okay d).svc = s.svc := rfl
@[simp] theorem okay_evc (s : State) (d : Nat) : (s.okay d).evc = s.evc := rfl
@[simp] theorem okay_dbg (s : State) (d : Nat) : (s.okay d).dbg = s.dbg := rfl
@[simp] theorem okay_rd (s : State) (d : Nat) (q : Reg) (j : Nat) : (s.okay d).rd q j = s.rd q j := rfl
@[simp] theorem okay_get (s : State) (d : Nat) (q : Fld) (j : Nat) : (s.okay d).get q j = s.get q j := rfl
@[simp] theorem okay_on (s : State) (d : Nat) (q : Fld) (j : Nat) : (s.okay d).on q j = s.on q j := rfl

@[simp] theorem fresh_pending (s : State) : (s.fresh).pending = s.pending := rfl
@[simp] theorem fresh_regs (s : State) : (s.fresh).regs = s.regs := rfl
@[simp] theorem fresh_free (s : State) : (s.fresh).free = s.free + 1 := rfl
@[simp] theorem fresh_ans (s : State) : (s.fresh).ans = s.ans := rfl
@[simp] theorem fresh_halves (s : State) : (s.fresh).halves = s.halves := rfl
@[simp] theorem fresh_tmg (s : State) : (s.fresh).tmg = s.tmg := rfl
@[simp] theorem fresh_lanes (s : State) : (s.fresh).lanes = s.lanes := rfl
@[simp] theorem fresh_fabric (s : State) : (s.fresh).fabric = s.fabric := rfl
@[simp] theorem fresh_brams (s : State) : (s.fresh).brams = s.brams := rfl
@[simp] theorem fresh_fifos (s : State) : (s.fresh).fifos = s.fifos := rfl
@[simp] theorem fresh_slices (s : State) : (s.fresh).slices = s.slices := rfl
@[simp] theorem fresh_rsyAt (s : State) : (s.fresh).rsyAt = s.rsyAt := rfl
@[simp] theorem fresh_sand (s : State) : (s.fresh).sand = s.sand := rfl
@[simp] theorem fresh_qtz (s : State) : (s.fresh).qtz = s.qtz := rfl
@[simp] theorem fresh_vrd (s : State) : (s.fresh).vrd = s.vrd := rfl
@[simp] theorem fresh_ldg (s : State) : (s.fresh).ldg = s.ldg := rfl
@[simp] theorem fresh_ktp (s : State) : (s.fresh).ktp = s.ktp := rfl
@[simp] theorem fresh_cfg (s : State) : (s.fresh).cfg = s.cfg := rfl
@[simp] theorem fresh_fuses (s : State) : (s.fresh).fuses = s.fuses := rfl
@[simp] theorem fresh_railsOff (s : State) : (s.fresh).railsOff = s.railsOff := rfl
@[simp] theorem fresh_supplyOff (s : State) : (s.fresh).supplyOff = s.supplyOff := rfl
@[simp] theorem fresh_pgr (s : State) : (s.fresh).pgr = s.pgr := rfl
@[simp] theorem fresh_cores (s : State) : (s.fresh).cores = s.cores := rfl
@[simp] theorem fresh_warden (s : State) : (s.fresh).warden = s.warden := rfl
@[simp] theorem fresh_mem (s : State) : (s.fresh).mem = s.mem := rfl
@[simp] theorem fresh_filled (s : State) : (s.fresh).filled = s.filled := rfl
@[simp] theorem fresh_wordFlaw (s : State) : (s.fresh).wordFlaw = s.wordFlaw := rfl
@[simp] theorem fresh_banks (s : State) : (s.fresh).banks = s.banks := rfl
@[simp] theorem fresh_resv (s : State) : (s.fresh).resv = s.resv := rfl
@[simp] theorem fresh_dma (s : State) : (s.fresh).dma = s.dma := rfl
@[simp] theorem fresh_lineFlaw (s : State) : (s.fresh).lineFlaw = s.lineFlaw := rfl
@[simp] theorem fresh_seals (s : State) : (s.fresh).seals = s.seals := rfl
@[simp] theorem fresh_chans (s : State) : (s.fresh).chans = s.chans := rfl
@[simp] theorem fresh_memKeys (s : State) : (s.fresh).memKeys = s.memKeys := rfl
@[simp] theorem fresh_synths (s : State) : (s.fresh).synths = s.synths := rfl
@[simp] theorem fresh_cmpRuns (s : State) : (s.fresh).cmpRuns = s.cmpRuns := rfl
@[simp] theorem fresh_power (s : State) : (s.fresh).power = s.power := rfl
@[simp] theorem fresh_svc (s : State) : (s.fresh).svc = s.svc := rfl
@[simp] theorem fresh_evc (s : State) : (s.fresh).evc = s.evc := rfl
@[simp] theorem fresh_dbg (s : State) : (s.fresh).dbg = s.dbg := rfl
@[simp] theorem fresh_rd (s : State) (q : Reg) (j : Nat) : (s.fresh).rd q j = s.rd q j := rfl
@[simp] theorem fresh_get (s : State) (q : Fld) (j : Nat) : (s.fresh).get q j = s.get q j := rfl
@[simp] theorem fresh_on (s : State) (q : Fld) (j : Nat) : (s.fresh).on q j = s.on q j := rfl

@[simp] theorem setBram_pending (s : State) (k : BlockId) (x : Bram) : (s.setBram k x).pending = s.pending := rfl
@[simp] theorem setBram_regs (s : State) (k : BlockId) (x : Bram) : (s.setBram k x).regs = s.regs := rfl
@[simp] theorem setBram_free (s : State) (k : BlockId) (x : Bram) : (s.setBram k x).free = s.free := rfl
@[simp] theorem setBram_ans (s : State) (k : BlockId) (x : Bram) : (s.setBram k x).ans = s.ans := rfl
@[simp] theorem setBram_halves (s : State) (k : BlockId) (x : Bram) : (s.setBram k x).halves = s.halves := rfl
@[simp] theorem setBram_tmg (s : State) (k : BlockId) (x : Bram) : (s.setBram k x).tmg = s.tmg := rfl
@[simp] theorem setBram_lanes (s : State) (k : BlockId) (x : Bram) : (s.setBram k x).lanes = s.lanes := rfl
@[simp] theorem setBram_fabric (s : State) (k : BlockId) (x : Bram) : (s.setBram k x).fabric = s.fabric := rfl
@[simp] theorem setBram_brams (s : State) (k : BlockId) (x : Bram) : (s.setBram k x).brams = s.brams.set k x := rfl
@[simp] theorem setBram_fifos (s : State) (k : BlockId) (x : Bram) : (s.setBram k x).fifos = s.fifos := rfl
@[simp] theorem setBram_slices (s : State) (k : BlockId) (x : Bram) : (s.setBram k x).slices = s.slices := rfl
@[simp] theorem setBram_rsyAt (s : State) (k : BlockId) (x : Bram) : (s.setBram k x).rsyAt = s.rsyAt := rfl
@[simp] theorem setBram_sand (s : State) (k : BlockId) (x : Bram) : (s.setBram k x).sand = s.sand := rfl
@[simp] theorem setBram_qtz (s : State) (k : BlockId) (x : Bram) : (s.setBram k x).qtz = s.qtz := rfl
@[simp] theorem setBram_vrd (s : State) (k : BlockId) (x : Bram) : (s.setBram k x).vrd = s.vrd := rfl
@[simp] theorem setBram_ldg (s : State) (k : BlockId) (x : Bram) : (s.setBram k x).ldg = s.ldg := rfl
@[simp] theorem setBram_ktp (s : State) (k : BlockId) (x : Bram) : (s.setBram k x).ktp = s.ktp := rfl
@[simp] theorem setBram_cfg (s : State) (k : BlockId) (x : Bram) : (s.setBram k x).cfg = s.cfg := rfl
@[simp] theorem setBram_fuses (s : State) (k : BlockId) (x : Bram) : (s.setBram k x).fuses = s.fuses := rfl
@[simp] theorem setBram_railsOff (s : State) (k : BlockId) (x : Bram) : (s.setBram k x).railsOff = s.railsOff := rfl
@[simp] theorem setBram_supplyOff (s : State) (k : BlockId) (x : Bram) : (s.setBram k x).supplyOff = s.supplyOff := rfl
@[simp] theorem setBram_pgr (s : State) (k : BlockId) (x : Bram) : (s.setBram k x).pgr = s.pgr := rfl
@[simp] theorem setBram_cores (s : State) (k : BlockId) (x : Bram) : (s.setBram k x).cores = s.cores := rfl
@[simp] theorem setBram_warden (s : State) (k : BlockId) (x : Bram) : (s.setBram k x).warden = s.warden := rfl
@[simp] theorem setBram_mem (s : State) (k : BlockId) (x : Bram) : (s.setBram k x).mem = s.mem := rfl
@[simp] theorem setBram_filled (s : State) (k : BlockId) (x : Bram) : (s.setBram k x).filled = s.filled := rfl
@[simp] theorem setBram_wordFlaw (s : State) (k : BlockId) (x : Bram) : (s.setBram k x).wordFlaw = s.wordFlaw := rfl
@[simp] theorem setBram_banks (s : State) (k : BlockId) (x : Bram) : (s.setBram k x).banks = s.banks := rfl
@[simp] theorem setBram_resv (s : State) (k : BlockId) (x : Bram) : (s.setBram k x).resv = s.resv := rfl
@[simp] theorem setBram_dma (s : State) (k : BlockId) (x : Bram) : (s.setBram k x).dma = s.dma := rfl
@[simp] theorem setBram_lineFlaw (s : State) (k : BlockId) (x : Bram) : (s.setBram k x).lineFlaw = s.lineFlaw := rfl
@[simp] theorem setBram_seals (s : State) (k : BlockId) (x : Bram) : (s.setBram k x).seals = s.seals := rfl
@[simp] theorem setBram_chans (s : State) (k : BlockId) (x : Bram) : (s.setBram k x).chans = s.chans := rfl
@[simp] theorem setBram_memKeys (s : State) (k : BlockId) (x : Bram) : (s.setBram k x).memKeys = s.memKeys := rfl
@[simp] theorem setBram_synths (s : State) (k : BlockId) (x : Bram) : (s.setBram k x).synths = s.synths := rfl
@[simp] theorem setBram_cmpRuns (s : State) (k : BlockId) (x : Bram) : (s.setBram k x).cmpRuns = s.cmpRuns := rfl
@[simp] theorem setBram_power (s : State) (k : BlockId) (x : Bram) : (s.setBram k x).power = s.power := rfl
@[simp] theorem setBram_svc (s : State) (k : BlockId) (x : Bram) : (s.setBram k x).svc = s.svc := rfl
@[simp] theorem setBram_evc (s : State) (k : BlockId) (x : Bram) : (s.setBram k x).evc = s.evc := rfl
@[simp] theorem setBram_dbg (s : State) (k : BlockId) (x : Bram) : (s.setBram k x).dbg = s.dbg := rfl
@[simp] theorem setBram_rd (s : State) (k : BlockId) (x : Bram) (q : Reg) (j : Nat) : (s.setBram k x).rd q j = s.rd q j := rfl
@[simp] theorem setBram_get (s : State) (k : BlockId) (x : Bram) (q : Fld) (j : Nat) : (s.setBram k x).get q j = s.get q j := rfl
@[simp] theorem setBram_on (s : State) (k : BlockId) (x : Bram) (q : Fld) (j : Nat) : (s.setBram k x).on q j = s.on q j := rfl

@[simp] theorem setFifo_pending (s : State) (k : BlockId) (x : Fifo) : (s.setFifo k x).pending = s.pending := rfl
@[simp] theorem setFifo_regs (s : State) (k : BlockId) (x : Fifo) : (s.setFifo k x).regs = s.regs := rfl
@[simp] theorem setFifo_free (s : State) (k : BlockId) (x : Fifo) : (s.setFifo k x).free = s.free := rfl
@[simp] theorem setFifo_ans (s : State) (k : BlockId) (x : Fifo) : (s.setFifo k x).ans = s.ans := rfl
@[simp] theorem setFifo_halves (s : State) (k : BlockId) (x : Fifo) : (s.setFifo k x).halves = s.halves := rfl
@[simp] theorem setFifo_tmg (s : State) (k : BlockId) (x : Fifo) : (s.setFifo k x).tmg = s.tmg := rfl
@[simp] theorem setFifo_lanes (s : State) (k : BlockId) (x : Fifo) : (s.setFifo k x).lanes = s.lanes := rfl
@[simp] theorem setFifo_fabric (s : State) (k : BlockId) (x : Fifo) : (s.setFifo k x).fabric = s.fabric := rfl
@[simp] theorem setFifo_brams (s : State) (k : BlockId) (x : Fifo) : (s.setFifo k x).brams = s.brams := rfl
@[simp] theorem setFifo_fifos (s : State) (k : BlockId) (x : Fifo) : (s.setFifo k x).fifos = s.fifos.set k x := rfl
@[simp] theorem setFifo_slices (s : State) (k : BlockId) (x : Fifo) : (s.setFifo k x).slices = s.slices := rfl
@[simp] theorem setFifo_rsyAt (s : State) (k : BlockId) (x : Fifo) : (s.setFifo k x).rsyAt = s.rsyAt := rfl
@[simp] theorem setFifo_sand (s : State) (k : BlockId) (x : Fifo) : (s.setFifo k x).sand = s.sand := rfl
@[simp] theorem setFifo_qtz (s : State) (k : BlockId) (x : Fifo) : (s.setFifo k x).qtz = s.qtz := rfl
@[simp] theorem setFifo_vrd (s : State) (k : BlockId) (x : Fifo) : (s.setFifo k x).vrd = s.vrd := rfl
@[simp] theorem setFifo_ldg (s : State) (k : BlockId) (x : Fifo) : (s.setFifo k x).ldg = s.ldg := rfl
@[simp] theorem setFifo_ktp (s : State) (k : BlockId) (x : Fifo) : (s.setFifo k x).ktp = s.ktp := rfl
@[simp] theorem setFifo_cfg (s : State) (k : BlockId) (x : Fifo) : (s.setFifo k x).cfg = s.cfg := rfl
@[simp] theorem setFifo_fuses (s : State) (k : BlockId) (x : Fifo) : (s.setFifo k x).fuses = s.fuses := rfl
@[simp] theorem setFifo_railsOff (s : State) (k : BlockId) (x : Fifo) : (s.setFifo k x).railsOff = s.railsOff := rfl
@[simp] theorem setFifo_supplyOff (s : State) (k : BlockId) (x : Fifo) : (s.setFifo k x).supplyOff = s.supplyOff := rfl
@[simp] theorem setFifo_pgr (s : State) (k : BlockId) (x : Fifo) : (s.setFifo k x).pgr = s.pgr := rfl
@[simp] theorem setFifo_cores (s : State) (k : BlockId) (x : Fifo) : (s.setFifo k x).cores = s.cores := rfl
@[simp] theorem setFifo_warden (s : State) (k : BlockId) (x : Fifo) : (s.setFifo k x).warden = s.warden := rfl
@[simp] theorem setFifo_mem (s : State) (k : BlockId) (x : Fifo) : (s.setFifo k x).mem = s.mem := rfl
@[simp] theorem setFifo_filled (s : State) (k : BlockId) (x : Fifo) : (s.setFifo k x).filled = s.filled := rfl
@[simp] theorem setFifo_wordFlaw (s : State) (k : BlockId) (x : Fifo) : (s.setFifo k x).wordFlaw = s.wordFlaw := rfl
@[simp] theorem setFifo_banks (s : State) (k : BlockId) (x : Fifo) : (s.setFifo k x).banks = s.banks := rfl
@[simp] theorem setFifo_resv (s : State) (k : BlockId) (x : Fifo) : (s.setFifo k x).resv = s.resv := rfl
@[simp] theorem setFifo_dma (s : State) (k : BlockId) (x : Fifo) : (s.setFifo k x).dma = s.dma := rfl
@[simp] theorem setFifo_lineFlaw (s : State) (k : BlockId) (x : Fifo) : (s.setFifo k x).lineFlaw = s.lineFlaw := rfl
@[simp] theorem setFifo_seals (s : State) (k : BlockId) (x : Fifo) : (s.setFifo k x).seals = s.seals := rfl
@[simp] theorem setFifo_chans (s : State) (k : BlockId) (x : Fifo) : (s.setFifo k x).chans = s.chans := rfl
@[simp] theorem setFifo_memKeys (s : State) (k : BlockId) (x : Fifo) : (s.setFifo k x).memKeys = s.memKeys := rfl
@[simp] theorem setFifo_synths (s : State) (k : BlockId) (x : Fifo) : (s.setFifo k x).synths = s.synths := rfl
@[simp] theorem setFifo_cmpRuns (s : State) (k : BlockId) (x : Fifo) : (s.setFifo k x).cmpRuns = s.cmpRuns := rfl
@[simp] theorem setFifo_power (s : State) (k : BlockId) (x : Fifo) : (s.setFifo k x).power = s.power := rfl
@[simp] theorem setFifo_svc (s : State) (k : BlockId) (x : Fifo) : (s.setFifo k x).svc = s.svc := rfl
@[simp] theorem setFifo_evc (s : State) (k : BlockId) (x : Fifo) : (s.setFifo k x).evc = s.evc := rfl
@[simp] theorem setFifo_dbg (s : State) (k : BlockId) (x : Fifo) : (s.setFifo k x).dbg = s.dbg := rfl
@[simp] theorem setFifo_rd (s : State) (k : BlockId) (x : Fifo) (q : Reg) (j : Nat) : (s.setFifo k x).rd q j = s.rd q j := rfl
@[simp] theorem setFifo_get (s : State) (k : BlockId) (x : Fifo) (q : Fld) (j : Nat) : (s.setFifo k x).get q j = s.get q j := rfl
@[simp] theorem setFifo_on (s : State) (k : BlockId) (x : Fifo) (q : Fld) (j : Nat) : (s.setFifo k x).on q j = s.on q j := rfl

@[simp] theorem setSynth_pending (s : State) (k : Nat) (x : Synth) : (s.setSynth k x).pending = s.pending := rfl
@[simp] theorem setSynth_regs (s : State) (k : Nat) (x : Synth) : (s.setSynth k x).regs = s.regs := rfl
@[simp] theorem setSynth_free (s : State) (k : Nat) (x : Synth) : (s.setSynth k x).free = s.free := rfl
@[simp] theorem setSynth_ans (s : State) (k : Nat) (x : Synth) : (s.setSynth k x).ans = s.ans := rfl
@[simp] theorem setSynth_halves (s : State) (k : Nat) (x : Synth) : (s.setSynth k x).halves = s.halves := rfl
@[simp] theorem setSynth_tmg (s : State) (k : Nat) (x : Synth) : (s.setSynth k x).tmg = s.tmg := rfl
@[simp] theorem setSynth_lanes (s : State) (k : Nat) (x : Synth) : (s.setSynth k x).lanes = s.lanes := rfl
@[simp] theorem setSynth_fabric (s : State) (k : Nat) (x : Synth) : (s.setSynth k x).fabric = s.fabric := rfl
@[simp] theorem setSynth_brams (s : State) (k : Nat) (x : Synth) : (s.setSynth k x).brams = s.brams := rfl
@[simp] theorem setSynth_fifos (s : State) (k : Nat) (x : Synth) : (s.setSynth k x).fifos = s.fifos := rfl
@[simp] theorem setSynth_slices (s : State) (k : Nat) (x : Synth) : (s.setSynth k x).slices = s.slices := rfl
@[simp] theorem setSynth_rsyAt (s : State) (k : Nat) (x : Synth) : (s.setSynth k x).rsyAt = s.rsyAt := rfl
@[simp] theorem setSynth_sand (s : State) (k : Nat) (x : Synth) : (s.setSynth k x).sand = s.sand := rfl
@[simp] theorem setSynth_qtz (s : State) (k : Nat) (x : Synth) : (s.setSynth k x).qtz = s.qtz := rfl
@[simp] theorem setSynth_vrd (s : State) (k : Nat) (x : Synth) : (s.setSynth k x).vrd = s.vrd := rfl
@[simp] theorem setSynth_ldg (s : State) (k : Nat) (x : Synth) : (s.setSynth k x).ldg = s.ldg := rfl
@[simp] theorem setSynth_ktp (s : State) (k : Nat) (x : Synth) : (s.setSynth k x).ktp = s.ktp := rfl
@[simp] theorem setSynth_cfg (s : State) (k : Nat) (x : Synth) : (s.setSynth k x).cfg = s.cfg := rfl
@[simp] theorem setSynth_fuses (s : State) (k : Nat) (x : Synth) : (s.setSynth k x).fuses = s.fuses := rfl
@[simp] theorem setSynth_railsOff (s : State) (k : Nat) (x : Synth) : (s.setSynth k x).railsOff = s.railsOff := rfl
@[simp] theorem setSynth_supplyOff (s : State) (k : Nat) (x : Synth) : (s.setSynth k x).supplyOff = s.supplyOff := rfl
@[simp] theorem setSynth_pgr (s : State) (k : Nat) (x : Synth) : (s.setSynth k x).pgr = s.pgr := rfl
@[simp] theorem setSynth_cores (s : State) (k : Nat) (x : Synth) : (s.setSynth k x).cores = s.cores := rfl
@[simp] theorem setSynth_warden (s : State) (k : Nat) (x : Synth) : (s.setSynth k x).warden = s.warden := rfl
@[simp] theorem setSynth_mem (s : State) (k : Nat) (x : Synth) : (s.setSynth k x).mem = s.mem := rfl
@[simp] theorem setSynth_filled (s : State) (k : Nat) (x : Synth) : (s.setSynth k x).filled = s.filled := rfl
@[simp] theorem setSynth_wordFlaw (s : State) (k : Nat) (x : Synth) : (s.setSynth k x).wordFlaw = s.wordFlaw := rfl
@[simp] theorem setSynth_banks (s : State) (k : Nat) (x : Synth) : (s.setSynth k x).banks = s.banks := rfl
@[simp] theorem setSynth_resv (s : State) (k : Nat) (x : Synth) : (s.setSynth k x).resv = s.resv := rfl
@[simp] theorem setSynth_dma (s : State) (k : Nat) (x : Synth) : (s.setSynth k x).dma = s.dma := rfl
@[simp] theorem setSynth_lineFlaw (s : State) (k : Nat) (x : Synth) : (s.setSynth k x).lineFlaw = s.lineFlaw := rfl
@[simp] theorem setSynth_seals (s : State) (k : Nat) (x : Synth) : (s.setSynth k x).seals = s.seals := rfl
@[simp] theorem setSynth_chans (s : State) (k : Nat) (x : Synth) : (s.setSynth k x).chans = s.chans := rfl
@[simp] theorem setSynth_memKeys (s : State) (k : Nat) (x : Synth) : (s.setSynth k x).memKeys = s.memKeys := rfl
@[simp] theorem setSynth_synths (s : State) (k : Nat) (x : Synth) : (s.setSynth k x).synths = s.synths.set k x := rfl
@[simp] theorem setSynth_cmpRuns (s : State) (k : Nat) (x : Synth) : (s.setSynth k x).cmpRuns = s.cmpRuns := rfl
@[simp] theorem setSynth_power (s : State) (k : Nat) (x : Synth) : (s.setSynth k x).power = s.power := rfl
@[simp] theorem setSynth_svc (s : State) (k : Nat) (x : Synth) : (s.setSynth k x).svc = s.svc := rfl
@[simp] theorem setSynth_evc (s : State) (k : Nat) (x : Synth) : (s.setSynth k x).evc = s.evc := rfl
@[simp] theorem setSynth_dbg (s : State) (k : Nat) (x : Synth) : (s.setSynth k x).dbg = s.dbg := rfl
@[simp] theorem setSynth_rd (s : State) (k : Nat) (x : Synth) (q : Reg) (j : Nat) : (s.setSynth k x).rd q j = s.rd q j := rfl
@[simp] theorem setSynth_get (s : State) (k : Nat) (x : Synth) (q : Fld) (j : Nat) : (s.setSynth k x).get q j = s.get q j := rfl
@[simp] theorem setSynth_on (s : State) (k : Nat) (x : Synth) (q : Fld) (j : Nat) : (s.setSynth k x).on q j = s.on q j := rfl

@[simp] theorem setCore_pending (s : State) (k : Nat) (x : Core) : (s.setCore k x).pending = s.pending := rfl
@[simp] theorem setCore_regs (s : State) (k : Nat) (x : Core) : (s.setCore k x).regs = s.regs := rfl
@[simp] theorem setCore_free (s : State) (k : Nat) (x : Core) : (s.setCore k x).free = s.free := rfl
@[simp] theorem setCore_ans (s : State) (k : Nat) (x : Core) : (s.setCore k x).ans = s.ans := rfl
@[simp] theorem setCore_halves (s : State) (k : Nat) (x : Core) : (s.setCore k x).halves = s.halves := rfl
@[simp] theorem setCore_tmg (s : State) (k : Nat) (x : Core) : (s.setCore k x).tmg = s.tmg := rfl
@[simp] theorem setCore_lanes (s : State) (k : Nat) (x : Core) : (s.setCore k x).lanes = s.lanes := rfl
@[simp] theorem setCore_fabric (s : State) (k : Nat) (x : Core) : (s.setCore k x).fabric = s.fabric := rfl
@[simp] theorem setCore_brams (s : State) (k : Nat) (x : Core) : (s.setCore k x).brams = s.brams := rfl
@[simp] theorem setCore_fifos (s : State) (k : Nat) (x : Core) : (s.setCore k x).fifos = s.fifos := rfl
@[simp] theorem setCore_slices (s : State) (k : Nat) (x : Core) : (s.setCore k x).slices = s.slices := rfl
@[simp] theorem setCore_rsyAt (s : State) (k : Nat) (x : Core) : (s.setCore k x).rsyAt = s.rsyAt := rfl
@[simp] theorem setCore_sand (s : State) (k : Nat) (x : Core) : (s.setCore k x).sand = s.sand := rfl
@[simp] theorem setCore_qtz (s : State) (k : Nat) (x : Core) : (s.setCore k x).qtz = s.qtz := rfl
@[simp] theorem setCore_vrd (s : State) (k : Nat) (x : Core) : (s.setCore k x).vrd = s.vrd := rfl
@[simp] theorem setCore_ldg (s : State) (k : Nat) (x : Core) : (s.setCore k x).ldg = s.ldg := rfl
@[simp] theorem setCore_ktp (s : State) (k : Nat) (x : Core) : (s.setCore k x).ktp = s.ktp := rfl
@[simp] theorem setCore_cfg (s : State) (k : Nat) (x : Core) : (s.setCore k x).cfg = s.cfg := rfl
@[simp] theorem setCore_fuses (s : State) (k : Nat) (x : Core) : (s.setCore k x).fuses = s.fuses := rfl
@[simp] theorem setCore_railsOff (s : State) (k : Nat) (x : Core) : (s.setCore k x).railsOff = s.railsOff := rfl
@[simp] theorem setCore_supplyOff (s : State) (k : Nat) (x : Core) : (s.setCore k x).supplyOff = s.supplyOff := rfl
@[simp] theorem setCore_pgr (s : State) (k : Nat) (x : Core) : (s.setCore k x).pgr = s.pgr := rfl
@[simp] theorem setCore_cores (s : State) (k : Nat) (x : Core) : (s.setCore k x).cores = s.cores.set k x := rfl
@[simp] theorem setCore_warden (s : State) (k : Nat) (x : Core) : (s.setCore k x).warden = s.warden := rfl
@[simp] theorem setCore_mem (s : State) (k : Nat) (x : Core) : (s.setCore k x).mem = s.mem := rfl
@[simp] theorem setCore_filled (s : State) (k : Nat) (x : Core) : (s.setCore k x).filled = s.filled := rfl
@[simp] theorem setCore_wordFlaw (s : State) (k : Nat) (x : Core) : (s.setCore k x).wordFlaw = s.wordFlaw := rfl
@[simp] theorem setCore_banks (s : State) (k : Nat) (x : Core) : (s.setCore k x).banks = s.banks := rfl
@[simp] theorem setCore_resv (s : State) (k : Nat) (x : Core) : (s.setCore k x).resv = s.resv := rfl
@[simp] theorem setCore_dma (s : State) (k : Nat) (x : Core) : (s.setCore k x).dma = s.dma := rfl
@[simp] theorem setCore_lineFlaw (s : State) (k : Nat) (x : Core) : (s.setCore k x).lineFlaw = s.lineFlaw := rfl
@[simp] theorem setCore_seals (s : State) (k : Nat) (x : Core) : (s.setCore k x).seals = s.seals := rfl
@[simp] theorem setCore_chans (s : State) (k : Nat) (x : Core) : (s.setCore k x).chans = s.chans := rfl
@[simp] theorem setCore_memKeys (s : State) (k : Nat) (x : Core) : (s.setCore k x).memKeys = s.memKeys := rfl
@[simp] theorem setCore_synths (s : State) (k : Nat) (x : Core) : (s.setCore k x).synths = s.synths := rfl
@[simp] theorem setCore_cmpRuns (s : State) (k : Nat) (x : Core) : (s.setCore k x).cmpRuns = s.cmpRuns := rfl
@[simp] theorem setCore_power (s : State) (k : Nat) (x : Core) : (s.setCore k x).power = s.power := rfl
@[simp] theorem setCore_svc (s : State) (k : Nat) (x : Core) : (s.setCore k x).svc = s.svc := rfl
@[simp] theorem setCore_evc (s : State) (k : Nat) (x : Core) : (s.setCore k x).evc = s.evc := rfl
@[simp] theorem setCore_dbg (s : State) (k : Nat) (x : Core) : (s.setCore k x).dbg = s.dbg := rfl
@[simp] theorem setCore_rd (s : State) (k : Nat) (x : Core) (q : Reg) (j : Nat) : (s.setCore k x).rd q j = s.rd q j := rfl
@[simp] theorem setCore_get (s : State) (k : Nat) (x : Core) (q : Fld) (j : Nat) : (s.setCore k x).get q j = s.get q j := rfl
@[simp] theorem setCore_on (s : State) (k : Nat) (x : Core) (q : Fld) (j : Nat) : (s.setCore k x).on q j = s.on q j := rfl

@[simp] theorem modCore_pending (s : State) (k : Nat) (g : Core → Core) : (s.modCore k g).pending = s.pending := rfl
@[simp] theorem modCore_regs (s : State) (k : Nat) (g : Core → Core) : (s.modCore k g).regs = s.regs := rfl
@[simp] theorem modCore_free (s : State) (k : Nat) (g : Core → Core) : (s.modCore k g).free = s.free := rfl
@[simp] theorem modCore_ans (s : State) (k : Nat) (g : Core → Core) : (s.modCore k g).ans = s.ans := rfl
@[simp] theorem modCore_halves (s : State) (k : Nat) (g : Core → Core) : (s.modCore k g).halves = s.halves := rfl
@[simp] theorem modCore_tmg (s : State) (k : Nat) (g : Core → Core) : (s.modCore k g).tmg = s.tmg := rfl
@[simp] theorem modCore_lanes (s : State) (k : Nat) (g : Core → Core) : (s.modCore k g).lanes = s.lanes := rfl
@[simp] theorem modCore_fabric (s : State) (k : Nat) (g : Core → Core) : (s.modCore k g).fabric = s.fabric := rfl
@[simp] theorem modCore_brams (s : State) (k : Nat) (g : Core → Core) : (s.modCore k g).brams = s.brams := rfl
@[simp] theorem modCore_fifos (s : State) (k : Nat) (g : Core → Core) : (s.modCore k g).fifos = s.fifos := rfl
@[simp] theorem modCore_slices (s : State) (k : Nat) (g : Core → Core) : (s.modCore k g).slices = s.slices := rfl
@[simp] theorem modCore_rsyAt (s : State) (k : Nat) (g : Core → Core) : (s.modCore k g).rsyAt = s.rsyAt := rfl
@[simp] theorem modCore_sand (s : State) (k : Nat) (g : Core → Core) : (s.modCore k g).sand = s.sand := rfl
@[simp] theorem modCore_qtz (s : State) (k : Nat) (g : Core → Core) : (s.modCore k g).qtz = s.qtz := rfl
@[simp] theorem modCore_vrd (s : State) (k : Nat) (g : Core → Core) : (s.modCore k g).vrd = s.vrd := rfl
@[simp] theorem modCore_ldg (s : State) (k : Nat) (g : Core → Core) : (s.modCore k g).ldg = s.ldg := rfl
@[simp] theorem modCore_ktp (s : State) (k : Nat) (g : Core → Core) : (s.modCore k g).ktp = s.ktp := rfl
@[simp] theorem modCore_cfg (s : State) (k : Nat) (g : Core → Core) : (s.modCore k g).cfg = s.cfg := rfl
@[simp] theorem modCore_fuses (s : State) (k : Nat) (g : Core → Core) : (s.modCore k g).fuses = s.fuses := rfl
@[simp] theorem modCore_railsOff (s : State) (k : Nat) (g : Core → Core) : (s.modCore k g).railsOff = s.railsOff := rfl
@[simp] theorem modCore_supplyOff (s : State) (k : Nat) (g : Core → Core) : (s.modCore k g).supplyOff = s.supplyOff := rfl
@[simp] theorem modCore_pgr (s : State) (k : Nat) (g : Core → Core) : (s.modCore k g).pgr = s.pgr := rfl
@[simp] theorem modCore_cores (s : State) (k : Nat) (g : Core → Core) : (s.modCore k g).cores = s.cores.set k (g (s.core k)) := rfl
@[simp] theorem modCore_warden (s : State) (k : Nat) (g : Core → Core) : (s.modCore k g).warden = s.warden := rfl
@[simp] theorem modCore_mem (s : State) (k : Nat) (g : Core → Core) : (s.modCore k g).mem = s.mem := rfl
@[simp] theorem modCore_filled (s : State) (k : Nat) (g : Core → Core) : (s.modCore k g).filled = s.filled := rfl
@[simp] theorem modCore_wordFlaw (s : State) (k : Nat) (g : Core → Core) : (s.modCore k g).wordFlaw = s.wordFlaw := rfl
@[simp] theorem modCore_banks (s : State) (k : Nat) (g : Core → Core) : (s.modCore k g).banks = s.banks := rfl
@[simp] theorem modCore_resv (s : State) (k : Nat) (g : Core → Core) : (s.modCore k g).resv = s.resv := rfl
@[simp] theorem modCore_dma (s : State) (k : Nat) (g : Core → Core) : (s.modCore k g).dma = s.dma := rfl
@[simp] theorem modCore_lineFlaw (s : State) (k : Nat) (g : Core → Core) : (s.modCore k g).lineFlaw = s.lineFlaw := rfl
@[simp] theorem modCore_seals (s : State) (k : Nat) (g : Core → Core) : (s.modCore k g).seals = s.seals := rfl
@[simp] theorem modCore_chans (s : State) (k : Nat) (g : Core → Core) : (s.modCore k g).chans = s.chans := rfl
@[simp] theorem modCore_memKeys (s : State) (k : Nat) (g : Core → Core) : (s.modCore k g).memKeys = s.memKeys := rfl
@[simp] theorem modCore_synths (s : State) (k : Nat) (g : Core → Core) : (s.modCore k g).synths = s.synths := rfl
@[simp] theorem modCore_cmpRuns (s : State) (k : Nat) (g : Core → Core) : (s.modCore k g).cmpRuns = s.cmpRuns := rfl
@[simp] theorem modCore_power (s : State) (k : Nat) (g : Core → Core) : (s.modCore k g).power = s.power := rfl
@[simp] theorem modCore_svc (s : State) (k : Nat) (g : Core → Core) : (s.modCore k g).svc = s.svc := rfl
@[simp] theorem modCore_evc (s : State) (k : Nat) (g : Core → Core) : (s.modCore k g).evc = s.evc := rfl
@[simp] theorem modCore_dbg (s : State) (k : Nat) (g : Core → Core) : (s.modCore k g).dbg = s.dbg := rfl
@[simp] theorem modCore_rd (s : State) (k : Nat) (g : Core → Core) (q : Reg) (j : Nat) : (s.modCore k g).rd q j = s.rd q j := rfl
@[simp] theorem modCore_get (s : State) (k : Nat) (g : Core → Core) (q : Fld) (j : Nat) : (s.modCore k g).get q j = s.get q j := rfl
@[simp] theorem modCore_on (s : State) (k : Nat) (g : Core → Core) (q : Fld) (j : Nat) : (s.modCore k g).on q j = s.on q j := rfl

@[simp] theorem setGreg_pending (s : State) (k r : Nat) (v : W64) : (s.setGreg k r v).pending = s.pending := rfl
@[simp] theorem setGreg_regs (s : State) (k r : Nat) (v : W64) : (s.setGreg k r v).regs = s.regs := rfl
@[simp] theorem setGreg_free (s : State) (k r : Nat) (v : W64) : (s.setGreg k r v).free = s.free := rfl
@[simp] theorem setGreg_ans (s : State) (k r : Nat) (v : W64) : (s.setGreg k r v).ans = s.ans := rfl
@[simp] theorem setGreg_halves (s : State) (k r : Nat) (v : W64) : (s.setGreg k r v).halves = s.halves := rfl
@[simp] theorem setGreg_tmg (s : State) (k r : Nat) (v : W64) : (s.setGreg k r v).tmg = s.tmg := rfl
@[simp] theorem setGreg_lanes (s : State) (k r : Nat) (v : W64) : (s.setGreg k r v).lanes = s.lanes := rfl
@[simp] theorem setGreg_fabric (s : State) (k r : Nat) (v : W64) : (s.setGreg k r v).fabric = s.fabric := rfl
@[simp] theorem setGreg_brams (s : State) (k r : Nat) (v : W64) : (s.setGreg k r v).brams = s.brams := rfl
@[simp] theorem setGreg_fifos (s : State) (k r : Nat) (v : W64) : (s.setGreg k r v).fifos = s.fifos := rfl
@[simp] theorem setGreg_slices (s : State) (k r : Nat) (v : W64) : (s.setGreg k r v).slices = s.slices := rfl
@[simp] theorem setGreg_rsyAt (s : State) (k r : Nat) (v : W64) : (s.setGreg k r v).rsyAt = s.rsyAt := rfl
@[simp] theorem setGreg_sand (s : State) (k r : Nat) (v : W64) : (s.setGreg k r v).sand = s.sand := rfl
@[simp] theorem setGreg_qtz (s : State) (k r : Nat) (v : W64) : (s.setGreg k r v).qtz = s.qtz := rfl
@[simp] theorem setGreg_vrd (s : State) (k r : Nat) (v : W64) : (s.setGreg k r v).vrd = s.vrd := rfl
@[simp] theorem setGreg_ldg (s : State) (k r : Nat) (v : W64) : (s.setGreg k r v).ldg = s.ldg := rfl
@[simp] theorem setGreg_ktp (s : State) (k r : Nat) (v : W64) : (s.setGreg k r v).ktp = s.ktp := rfl
@[simp] theorem setGreg_cfg (s : State) (k r : Nat) (v : W64) : (s.setGreg k r v).cfg = s.cfg := rfl
@[simp] theorem setGreg_fuses (s : State) (k r : Nat) (v : W64) : (s.setGreg k r v).fuses = s.fuses := rfl
@[simp] theorem setGreg_railsOff (s : State) (k r : Nat) (v : W64) : (s.setGreg k r v).railsOff = s.railsOff := rfl
@[simp] theorem setGreg_supplyOff (s : State) (k r : Nat) (v : W64) : (s.setGreg k r v).supplyOff = s.supplyOff := rfl
@[simp] theorem setGreg_pgr (s : State) (k r : Nat) (v : W64) : (s.setGreg k r v).pgr = s.pgr := rfl
@[simp] theorem setGreg_warden (s : State) (k r : Nat) (v : W64) : (s.setGreg k r v).warden = s.warden := rfl
@[simp] theorem setGreg_mem (s : State) (k r : Nat) (v : W64) : (s.setGreg k r v).mem = s.mem := rfl
@[simp] theorem setGreg_filled (s : State) (k r : Nat) (v : W64) : (s.setGreg k r v).filled = s.filled := rfl
@[simp] theorem setGreg_wordFlaw (s : State) (k r : Nat) (v : W64) : (s.setGreg k r v).wordFlaw = s.wordFlaw := rfl
@[simp] theorem setGreg_banks (s : State) (k r : Nat) (v : W64) : (s.setGreg k r v).banks = s.banks := rfl
@[simp] theorem setGreg_resv (s : State) (k r : Nat) (v : W64) : (s.setGreg k r v).resv = s.resv := rfl
@[simp] theorem setGreg_dma (s : State) (k r : Nat) (v : W64) : (s.setGreg k r v).dma = s.dma := rfl
@[simp] theorem setGreg_lineFlaw (s : State) (k r : Nat) (v : W64) : (s.setGreg k r v).lineFlaw = s.lineFlaw := rfl
@[simp] theorem setGreg_seals (s : State) (k r : Nat) (v : W64) : (s.setGreg k r v).seals = s.seals := rfl
@[simp] theorem setGreg_chans (s : State) (k r : Nat) (v : W64) : (s.setGreg k r v).chans = s.chans := rfl
@[simp] theorem setGreg_memKeys (s : State) (k r : Nat) (v : W64) : (s.setGreg k r v).memKeys = s.memKeys := rfl
@[simp] theorem setGreg_synths (s : State) (k r : Nat) (v : W64) : (s.setGreg k r v).synths = s.synths := rfl
@[simp] theorem setGreg_cmpRuns (s : State) (k r : Nat) (v : W64) : (s.setGreg k r v).cmpRuns = s.cmpRuns := rfl
@[simp] theorem setGreg_power (s : State) (k r : Nat) (v : W64) : (s.setGreg k r v).power = s.power := rfl
@[simp] theorem setGreg_svc (s : State) (k r : Nat) (v : W64) : (s.setGreg k r v).svc = s.svc := rfl
@[simp] theorem setGreg_evc (s : State) (k r : Nat) (v : W64) : (s.setGreg k r v).evc = s.evc := rfl
@[simp] theorem setGreg_dbg (s : State) (k r : Nat) (v : W64) : (s.setGreg k r v).dbg = s.dbg := rfl
@[simp] theorem setGreg_rd (s : State) (k r : Nat) (v : W64) (q : Reg) (j : Nat) : (s.setGreg k r v).rd q j = s.rd q j := rfl
@[simp] theorem setGreg_get (s : State) (k r : Nat) (v : W64) (q : Fld) (j : Nat) : (s.setGreg k r v).get q j = s.get q j := rfl
@[simp] theorem setGreg_on (s : State) (k r : Nat) (v : W64) (q : Fld) (j : Nat) : (s.setGreg k r v).on q j = s.on q j := rfl

@[simp] theorem setDbg_pending (s : State) (g : Dbg → Dbg) : (s.setDbg g).pending = s.pending := rfl
@[simp] theorem setDbg_regs (s : State) (g : Dbg → Dbg) : (s.setDbg g).regs = s.regs := rfl
@[simp] theorem setDbg_free (s : State) (g : Dbg → Dbg) : (s.setDbg g).free = s.free := rfl
@[simp] theorem setDbg_ans (s : State) (g : Dbg → Dbg) : (s.setDbg g).ans = s.ans := rfl
@[simp] theorem setDbg_halves (s : State) (g : Dbg → Dbg) : (s.setDbg g).halves = s.halves := rfl
@[simp] theorem setDbg_tmg (s : State) (g : Dbg → Dbg) : (s.setDbg g).tmg = s.tmg := rfl
@[simp] theorem setDbg_lanes (s : State) (g : Dbg → Dbg) : (s.setDbg g).lanes = s.lanes := rfl
@[simp] theorem setDbg_fabric (s : State) (g : Dbg → Dbg) : (s.setDbg g).fabric = s.fabric := rfl
@[simp] theorem setDbg_brams (s : State) (g : Dbg → Dbg) : (s.setDbg g).brams = s.brams := rfl
@[simp] theorem setDbg_fifos (s : State) (g : Dbg → Dbg) : (s.setDbg g).fifos = s.fifos := rfl
@[simp] theorem setDbg_slices (s : State) (g : Dbg → Dbg) : (s.setDbg g).slices = s.slices := rfl
@[simp] theorem setDbg_rsyAt (s : State) (g : Dbg → Dbg) : (s.setDbg g).rsyAt = s.rsyAt := rfl
@[simp] theorem setDbg_sand (s : State) (g : Dbg → Dbg) : (s.setDbg g).sand = s.sand := rfl
@[simp] theorem setDbg_qtz (s : State) (g : Dbg → Dbg) : (s.setDbg g).qtz = s.qtz := rfl
@[simp] theorem setDbg_vrd (s : State) (g : Dbg → Dbg) : (s.setDbg g).vrd = s.vrd := rfl
@[simp] theorem setDbg_ldg (s : State) (g : Dbg → Dbg) : (s.setDbg g).ldg = s.ldg := rfl
@[simp] theorem setDbg_ktp (s : State) (g : Dbg → Dbg) : (s.setDbg g).ktp = s.ktp := rfl
@[simp] theorem setDbg_cfg (s : State) (g : Dbg → Dbg) : (s.setDbg g).cfg = s.cfg := rfl
@[simp] theorem setDbg_fuses (s : State) (g : Dbg → Dbg) : (s.setDbg g).fuses = s.fuses := rfl
@[simp] theorem setDbg_railsOff (s : State) (g : Dbg → Dbg) : (s.setDbg g).railsOff = s.railsOff := rfl
@[simp] theorem setDbg_supplyOff (s : State) (g : Dbg → Dbg) : (s.setDbg g).supplyOff = s.supplyOff := rfl
@[simp] theorem setDbg_pgr (s : State) (g : Dbg → Dbg) : (s.setDbg g).pgr = s.pgr := rfl
@[simp] theorem setDbg_cores (s : State) (g : Dbg → Dbg) : (s.setDbg g).cores = s.cores := rfl
@[simp] theorem setDbg_warden (s : State) (g : Dbg → Dbg) : (s.setDbg g).warden = s.warden := rfl
@[simp] theorem setDbg_mem (s : State) (g : Dbg → Dbg) : (s.setDbg g).mem = s.mem := rfl
@[simp] theorem setDbg_filled (s : State) (g : Dbg → Dbg) : (s.setDbg g).filled = s.filled := rfl
@[simp] theorem setDbg_wordFlaw (s : State) (g : Dbg → Dbg) : (s.setDbg g).wordFlaw = s.wordFlaw := rfl
@[simp] theorem setDbg_banks (s : State) (g : Dbg → Dbg) : (s.setDbg g).banks = s.banks := rfl
@[simp] theorem setDbg_resv (s : State) (g : Dbg → Dbg) : (s.setDbg g).resv = s.resv := rfl
@[simp] theorem setDbg_dma (s : State) (g : Dbg → Dbg) : (s.setDbg g).dma = s.dma := rfl
@[simp] theorem setDbg_lineFlaw (s : State) (g : Dbg → Dbg) : (s.setDbg g).lineFlaw = s.lineFlaw := rfl
@[simp] theorem setDbg_seals (s : State) (g : Dbg → Dbg) : (s.setDbg g).seals = s.seals := rfl
@[simp] theorem setDbg_chans (s : State) (g : Dbg → Dbg) : (s.setDbg g).chans = s.chans := rfl
@[simp] theorem setDbg_memKeys (s : State) (g : Dbg → Dbg) : (s.setDbg g).memKeys = s.memKeys := rfl
@[simp] theorem setDbg_synths (s : State) (g : Dbg → Dbg) : (s.setDbg g).synths = s.synths := rfl
@[simp] theorem setDbg_cmpRuns (s : State) (g : Dbg → Dbg) : (s.setDbg g).cmpRuns = s.cmpRuns := rfl
@[simp] theorem setDbg_power (s : State) (g : Dbg → Dbg) : (s.setDbg g).power = s.power := rfl
@[simp] theorem setDbg_svc (s : State) (g : Dbg → Dbg) : (s.setDbg g).svc = s.svc := rfl
@[simp] theorem setDbg_evc (s : State) (g : Dbg → Dbg) : (s.setDbg g).evc = s.evc := rfl
@[simp] theorem setDbg_dbg (s : State) (g : Dbg → Dbg) : (s.setDbg g).dbg = g s.dbg := rfl
@[simp] theorem setDbg_rd (s : State) (g : Dbg → Dbg) (q : Reg) (j : Nat) : (s.setDbg g).rd q j = s.rd q j := rfl
@[simp] theorem setDbg_get (s : State) (g : Dbg → Dbg) (q : Fld) (j : Nat) : (s.setDbg g).get q j = s.get q j := rfl
@[simp] theorem setDbg_on (s : State) (g : Dbg → Dbg) (q : Fld) (j : Nat) : (s.setDbg g).on q j = s.on q j := rfl

@[simp] theorem setChan_pending (s : State) (k : Nat) (x : Chan) : (s.setChan k x).pending = s.pending := rfl
@[simp] theorem setChan_regs (s : State) (k : Nat) (x : Chan) : (s.setChan k x).regs = s.regs := rfl
@[simp] theorem setChan_free (s : State) (k : Nat) (x : Chan) : (s.setChan k x).free = s.free := rfl
@[simp] theorem setChan_ans (s : State) (k : Nat) (x : Chan) : (s.setChan k x).ans = s.ans := rfl
@[simp] theorem setChan_halves (s : State) (k : Nat) (x : Chan) : (s.setChan k x).halves = s.halves := rfl
@[simp] theorem setChan_tmg (s : State) (k : Nat) (x : Chan) : (s.setChan k x).tmg = s.tmg := rfl
@[simp] theorem setChan_lanes (s : State) (k : Nat) (x : Chan) : (s.setChan k x).lanes = s.lanes := rfl
@[simp] theorem setChan_fabric (s : State) (k : Nat) (x : Chan) : (s.setChan k x).fabric = s.fabric := rfl
@[simp] theorem setChan_brams (s : State) (k : Nat) (x : Chan) : (s.setChan k x).brams = s.brams := rfl
@[simp] theorem setChan_fifos (s : State) (k : Nat) (x : Chan) : (s.setChan k x).fifos = s.fifos := rfl
@[simp] theorem setChan_slices (s : State) (k : Nat) (x : Chan) : (s.setChan k x).slices = s.slices := rfl
@[simp] theorem setChan_rsyAt (s : State) (k : Nat) (x : Chan) : (s.setChan k x).rsyAt = s.rsyAt := rfl
@[simp] theorem setChan_sand (s : State) (k : Nat) (x : Chan) : (s.setChan k x).sand = s.sand := rfl
@[simp] theorem setChan_qtz (s : State) (k : Nat) (x : Chan) : (s.setChan k x).qtz = s.qtz := rfl
@[simp] theorem setChan_vrd (s : State) (k : Nat) (x : Chan) : (s.setChan k x).vrd = s.vrd := rfl
@[simp] theorem setChan_ldg (s : State) (k : Nat) (x : Chan) : (s.setChan k x).ldg = s.ldg := rfl
@[simp] theorem setChan_ktp (s : State) (k : Nat) (x : Chan) : (s.setChan k x).ktp = s.ktp := rfl
@[simp] theorem setChan_cfg (s : State) (k : Nat) (x : Chan) : (s.setChan k x).cfg = s.cfg := rfl
@[simp] theorem setChan_fuses (s : State) (k : Nat) (x : Chan) : (s.setChan k x).fuses = s.fuses := rfl
@[simp] theorem setChan_railsOff (s : State) (k : Nat) (x : Chan) : (s.setChan k x).railsOff = s.railsOff := rfl
@[simp] theorem setChan_supplyOff (s : State) (k : Nat) (x : Chan) : (s.setChan k x).supplyOff = s.supplyOff := rfl
@[simp] theorem setChan_pgr (s : State) (k : Nat) (x : Chan) : (s.setChan k x).pgr = s.pgr := rfl
@[simp] theorem setChan_cores (s : State) (k : Nat) (x : Chan) : (s.setChan k x).cores = s.cores := rfl
@[simp] theorem setChan_warden (s : State) (k : Nat) (x : Chan) : (s.setChan k x).warden = s.warden := rfl
@[simp] theorem setChan_mem (s : State) (k : Nat) (x : Chan) : (s.setChan k x).mem = s.mem := rfl
@[simp] theorem setChan_filled (s : State) (k : Nat) (x : Chan) : (s.setChan k x).filled = s.filled := rfl
@[simp] theorem setChan_wordFlaw (s : State) (k : Nat) (x : Chan) : (s.setChan k x).wordFlaw = s.wordFlaw := rfl
@[simp] theorem setChan_banks (s : State) (k : Nat) (x : Chan) : (s.setChan k x).banks = s.banks := rfl
@[simp] theorem setChan_resv (s : State) (k : Nat) (x : Chan) : (s.setChan k x).resv = s.resv := rfl
@[simp] theorem setChan_dma (s : State) (k : Nat) (x : Chan) : (s.setChan k x).dma = s.dma := rfl
@[simp] theorem setChan_lineFlaw (s : State) (k : Nat) (x : Chan) : (s.setChan k x).lineFlaw = s.lineFlaw := rfl
@[simp] theorem setChan_seals (s : State) (k : Nat) (x : Chan) : (s.setChan k x).seals = s.seals := rfl
@[simp] theorem setChan_chans (s : State) (k : Nat) (x : Chan) : (s.setChan k x).chans = s.chans.set k x := rfl
@[simp] theorem setChan_memKeys (s : State) (k : Nat) (x : Chan) : (s.setChan k x).memKeys = s.memKeys := rfl
@[simp] theorem setChan_synths (s : State) (k : Nat) (x : Chan) : (s.setChan k x).synths = s.synths := rfl
@[simp] theorem setChan_cmpRuns (s : State) (k : Nat) (x : Chan) : (s.setChan k x).cmpRuns = s.cmpRuns := rfl
@[simp] theorem setChan_power (s : State) (k : Nat) (x : Chan) : (s.setChan k x).power = s.power := rfl
@[simp] theorem setChan_svc (s : State) (k : Nat) (x : Chan) : (s.setChan k x).svc = s.svc := rfl
@[simp] theorem setChan_evc (s : State) (k : Nat) (x : Chan) : (s.setChan k x).evc = s.evc := rfl
@[simp] theorem setChan_dbg (s : State) (k : Nat) (x : Chan) : (s.setChan k x).dbg = s.dbg := rfl
@[simp] theorem setChan_rd (s : State) (k : Nat) (x : Chan) (q : Reg) (j : Nat) : (s.setChan k x).rd q j = s.rd q j := rfl
@[simp] theorem setChan_get (s : State) (k : Nat) (x : Chan) (q : Fld) (j : Nat) : (s.setChan k x).get q j = s.get q j := rfl
@[simp] theorem setChan_on (s : State) (k : Nat) (x : Chan) (q : Fld) (j : Nat) : (s.setChan k x).on q j = s.on q j := rfl

@[simp] theorem setKtp_pending (s : State) (g : Ktp → Ktp) : (s.setKtp g).pending = s.pending := rfl
@[simp] theorem setKtp_regs (s : State) (g : Ktp → Ktp) : (s.setKtp g).regs = s.regs := rfl
@[simp] theorem setKtp_free (s : State) (g : Ktp → Ktp) : (s.setKtp g).free = s.free := rfl
@[simp] theorem setKtp_ans (s : State) (g : Ktp → Ktp) : (s.setKtp g).ans = s.ans := rfl
@[simp] theorem setKtp_halves (s : State) (g : Ktp → Ktp) : (s.setKtp g).halves = s.halves := rfl
@[simp] theorem setKtp_tmg (s : State) (g : Ktp → Ktp) : (s.setKtp g).tmg = s.tmg := rfl
@[simp] theorem setKtp_lanes (s : State) (g : Ktp → Ktp) : (s.setKtp g).lanes = s.lanes := rfl
@[simp] theorem setKtp_fabric (s : State) (g : Ktp → Ktp) : (s.setKtp g).fabric = s.fabric := rfl
@[simp] theorem setKtp_brams (s : State) (g : Ktp → Ktp) : (s.setKtp g).brams = s.brams := rfl
@[simp] theorem setKtp_fifos (s : State) (g : Ktp → Ktp) : (s.setKtp g).fifos = s.fifos := rfl
@[simp] theorem setKtp_slices (s : State) (g : Ktp → Ktp) : (s.setKtp g).slices = s.slices := rfl
@[simp] theorem setKtp_rsyAt (s : State) (g : Ktp → Ktp) : (s.setKtp g).rsyAt = s.rsyAt := rfl
@[simp] theorem setKtp_sand (s : State) (g : Ktp → Ktp) : (s.setKtp g).sand = s.sand := rfl
@[simp] theorem setKtp_qtz (s : State) (g : Ktp → Ktp) : (s.setKtp g).qtz = s.qtz := rfl
@[simp] theorem setKtp_vrd (s : State) (g : Ktp → Ktp) : (s.setKtp g).vrd = s.vrd := rfl
@[simp] theorem setKtp_ldg (s : State) (g : Ktp → Ktp) : (s.setKtp g).ldg = s.ldg := rfl
@[simp] theorem setKtp_ktp (s : State) (g : Ktp → Ktp) : (s.setKtp g).ktp = g s.ktp := rfl
@[simp] theorem setKtp_cfg (s : State) (g : Ktp → Ktp) : (s.setKtp g).cfg = s.cfg := rfl
@[simp] theorem setKtp_fuses (s : State) (g : Ktp → Ktp) : (s.setKtp g).fuses = s.fuses := rfl
@[simp] theorem setKtp_railsOff (s : State) (g : Ktp → Ktp) : (s.setKtp g).railsOff = s.railsOff := rfl
@[simp] theorem setKtp_supplyOff (s : State) (g : Ktp → Ktp) : (s.setKtp g).supplyOff = s.supplyOff := rfl
@[simp] theorem setKtp_pgr (s : State) (g : Ktp → Ktp) : (s.setKtp g).pgr = s.pgr := rfl
@[simp] theorem setKtp_cores (s : State) (g : Ktp → Ktp) : (s.setKtp g).cores = s.cores := rfl
@[simp] theorem setKtp_warden (s : State) (g : Ktp → Ktp) : (s.setKtp g).warden = s.warden := rfl
@[simp] theorem setKtp_mem (s : State) (g : Ktp → Ktp) : (s.setKtp g).mem = s.mem := rfl
@[simp] theorem setKtp_filled (s : State) (g : Ktp → Ktp) : (s.setKtp g).filled = s.filled := rfl
@[simp] theorem setKtp_wordFlaw (s : State) (g : Ktp → Ktp) : (s.setKtp g).wordFlaw = s.wordFlaw := rfl
@[simp] theorem setKtp_banks (s : State) (g : Ktp → Ktp) : (s.setKtp g).banks = s.banks := rfl
@[simp] theorem setKtp_resv (s : State) (g : Ktp → Ktp) : (s.setKtp g).resv = s.resv := rfl
@[simp] theorem setKtp_dma (s : State) (g : Ktp → Ktp) : (s.setKtp g).dma = s.dma := rfl
@[simp] theorem setKtp_lineFlaw (s : State) (g : Ktp → Ktp) : (s.setKtp g).lineFlaw = s.lineFlaw := rfl
@[simp] theorem setKtp_seals (s : State) (g : Ktp → Ktp) : (s.setKtp g).seals = s.seals := rfl
@[simp] theorem setKtp_chans (s : State) (g : Ktp → Ktp) : (s.setKtp g).chans = s.chans := rfl
@[simp] theorem setKtp_memKeys (s : State) (g : Ktp → Ktp) : (s.setKtp g).memKeys = s.memKeys := rfl
@[simp] theorem setKtp_synths (s : State) (g : Ktp → Ktp) : (s.setKtp g).synths = s.synths := rfl
@[simp] theorem setKtp_cmpRuns (s : State) (g : Ktp → Ktp) : (s.setKtp g).cmpRuns = s.cmpRuns := rfl
@[simp] theorem setKtp_power (s : State) (g : Ktp → Ktp) : (s.setKtp g).power = s.power := rfl
@[simp] theorem setKtp_svc (s : State) (g : Ktp → Ktp) : (s.setKtp g).svc = s.svc := rfl
@[simp] theorem setKtp_evc (s : State) (g : Ktp → Ktp) : (s.setKtp g).evc = s.evc := rfl
@[simp] theorem setKtp_dbg (s : State) (g : Ktp → Ktp) : (s.setKtp g).dbg = s.dbg := rfl
@[simp] theorem setKtp_rd (s : State) (g : Ktp → Ktp) (q : Reg) (j : Nat) : (s.setKtp g).rd q j = s.rd q j := rfl
@[simp] theorem setKtp_get (s : State) (g : Ktp → Ktp) (q : Fld) (j : Nat) : (s.setKtp g).get q j = s.get q j := rfl
@[simp] theorem setKtp_on (s : State) (g : Ktp → Ktp) (q : Fld) (j : Nat) : (s.setKtp g).on q j = s.on q j := rfl

@[simp] theorem setSess_pending (s : State) (k : Nat) (x : Session) : (s.setSess k x).pending = s.pending := rfl
@[simp] theorem setSess_regs (s : State) (k : Nat) (x : Session) : (s.setSess k x).regs = s.regs := rfl
@[simp] theorem setSess_free (s : State) (k : Nat) (x : Session) : (s.setSess k x).free = s.free := rfl
@[simp] theorem setSess_ans (s : State) (k : Nat) (x : Session) : (s.setSess k x).ans = s.ans := rfl
@[simp] theorem setSess_halves (s : State) (k : Nat) (x : Session) : (s.setSess k x).halves = s.halves := rfl
@[simp] theorem setSess_tmg (s : State) (k : Nat) (x : Session) : (s.setSess k x).tmg = s.tmg := rfl
@[simp] theorem setSess_lanes (s : State) (k : Nat) (x : Session) : (s.setSess k x).lanes = s.lanes := rfl
@[simp] theorem setSess_fabric (s : State) (k : Nat) (x : Session) : (s.setSess k x).fabric = s.fabric := rfl
@[simp] theorem setSess_brams (s : State) (k : Nat) (x : Session) : (s.setSess k x).brams = s.brams := rfl
@[simp] theorem setSess_fifos (s : State) (k : Nat) (x : Session) : (s.setSess k x).fifos = s.fifos := rfl
@[simp] theorem setSess_slices (s : State) (k : Nat) (x : Session) : (s.setSess k x).slices = s.slices := rfl
@[simp] theorem setSess_rsyAt (s : State) (k : Nat) (x : Session) : (s.setSess k x).rsyAt = s.rsyAt := rfl
@[simp] theorem setSess_sand (s : State) (k : Nat) (x : Session) : (s.setSess k x).sand = s.sand := rfl
@[simp] theorem setSess_qtz (s : State) (k : Nat) (x : Session) : (s.setSess k x).qtz = s.qtz := rfl
@[simp] theorem setSess_vrd (s : State) (k : Nat) (x : Session) : (s.setSess k x).vrd = s.vrd := rfl
@[simp] theorem setSess_ldg (s : State) (k : Nat) (x : Session) : (s.setSess k x).ldg = s.ldg := rfl
@[simp] theorem setSess_ktp (s : State) (k : Nat) (x : Session) : (s.setSess k x).ktp = { s.ktp with sess := s.ktp.sess.set k x } := rfl
@[simp] theorem setSess_cfg (s : State) (k : Nat) (x : Session) : (s.setSess k x).cfg = s.cfg := rfl
@[simp] theorem setSess_fuses (s : State) (k : Nat) (x : Session) : (s.setSess k x).fuses = s.fuses := rfl
@[simp] theorem setSess_railsOff (s : State) (k : Nat) (x : Session) : (s.setSess k x).railsOff = s.railsOff := rfl
@[simp] theorem setSess_supplyOff (s : State) (k : Nat) (x : Session) : (s.setSess k x).supplyOff = s.supplyOff := rfl
@[simp] theorem setSess_pgr (s : State) (k : Nat) (x : Session) : (s.setSess k x).pgr = s.pgr := rfl
@[simp] theorem setSess_cores (s : State) (k : Nat) (x : Session) : (s.setSess k x).cores = s.cores := rfl
@[simp] theorem setSess_warden (s : State) (k : Nat) (x : Session) : (s.setSess k x).warden = s.warden := rfl
@[simp] theorem setSess_mem (s : State) (k : Nat) (x : Session) : (s.setSess k x).mem = s.mem := rfl
@[simp] theorem setSess_filled (s : State) (k : Nat) (x : Session) : (s.setSess k x).filled = s.filled := rfl
@[simp] theorem setSess_wordFlaw (s : State) (k : Nat) (x : Session) : (s.setSess k x).wordFlaw = s.wordFlaw := rfl
@[simp] theorem setSess_banks (s : State) (k : Nat) (x : Session) : (s.setSess k x).banks = s.banks := rfl
@[simp] theorem setSess_resv (s : State) (k : Nat) (x : Session) : (s.setSess k x).resv = s.resv := rfl
@[simp] theorem setSess_dma (s : State) (k : Nat) (x : Session) : (s.setSess k x).dma = s.dma := rfl
@[simp] theorem setSess_lineFlaw (s : State) (k : Nat) (x : Session) : (s.setSess k x).lineFlaw = s.lineFlaw := rfl
@[simp] theorem setSess_seals (s : State) (k : Nat) (x : Session) : (s.setSess k x).seals = s.seals := rfl
@[simp] theorem setSess_chans (s : State) (k : Nat) (x : Session) : (s.setSess k x).chans = s.chans := rfl
@[simp] theorem setSess_memKeys (s : State) (k : Nat) (x : Session) : (s.setSess k x).memKeys = s.memKeys := rfl
@[simp] theorem setSess_synths (s : State) (k : Nat) (x : Session) : (s.setSess k x).synths = s.synths := rfl
@[simp] theorem setSess_cmpRuns (s : State) (k : Nat) (x : Session) : (s.setSess k x).cmpRuns = s.cmpRuns := rfl
@[simp] theorem setSess_power (s : State) (k : Nat) (x : Session) : (s.setSess k x).power = s.power := rfl
@[simp] theorem setSess_svc (s : State) (k : Nat) (x : Session) : (s.setSess k x).svc = s.svc := rfl
@[simp] theorem setSess_evc (s : State) (k : Nat) (x : Session) : (s.setSess k x).evc = s.evc := rfl
@[simp] theorem setSess_dbg (s : State) (k : Nat) (x : Session) : (s.setSess k x).dbg = s.dbg := rfl
@[simp] theorem setSess_rd (s : State) (k : Nat) (x : Session) (q : Reg) (j : Nat) : (s.setSess k x).rd q j = s.rd q j := rfl
@[simp] theorem setSess_get (s : State) (k : Nat) (x : Session) (q : Fld) (j : Nat) : (s.setSess k x).get q j = s.get q j := rfl
@[simp] theorem setSess_on (s : State) (k : Nat) (x : Session) (q : Fld) (j : Nat) : (s.setSess k x).on q j = s.on q j := rfl

@[simp] theorem modSess_pending (s : State) (k : Nat) (g : Session → Session) : (s.modSess k g).pending = s.pending := rfl
@[simp] theorem modSess_regs (s : State) (k : Nat) (g : Session → Session) : (s.modSess k g).regs = s.regs := rfl
@[simp] theorem modSess_free (s : State) (k : Nat) (g : Session → Session) : (s.modSess k g).free = s.free := rfl
@[simp] theorem modSess_ans (s : State) (k : Nat) (g : Session → Session) : (s.modSess k g).ans = s.ans := rfl
@[simp] theorem modSess_halves (s : State) (k : Nat) (g : Session → Session) : (s.modSess k g).halves = s.halves := rfl
@[simp] theorem modSess_tmg (s : State) (k : Nat) (g : Session → Session) : (s.modSess k g).tmg = s.tmg := rfl
@[simp] theorem modSess_lanes (s : State) (k : Nat) (g : Session → Session) : (s.modSess k g).lanes = s.lanes := rfl
@[simp] theorem modSess_fabric (s : State) (k : Nat) (g : Session → Session) : (s.modSess k g).fabric = s.fabric := rfl
@[simp] theorem modSess_brams (s : State) (k : Nat) (g : Session → Session) : (s.modSess k g).brams = s.brams := rfl
@[simp] theorem modSess_fifos (s : State) (k : Nat) (g : Session → Session) : (s.modSess k g).fifos = s.fifos := rfl
@[simp] theorem modSess_slices (s : State) (k : Nat) (g : Session → Session) : (s.modSess k g).slices = s.slices := rfl
@[simp] theorem modSess_rsyAt (s : State) (k : Nat) (g : Session → Session) : (s.modSess k g).rsyAt = s.rsyAt := rfl
@[simp] theorem modSess_sand (s : State) (k : Nat) (g : Session → Session) : (s.modSess k g).sand = s.sand := rfl
@[simp] theorem modSess_qtz (s : State) (k : Nat) (g : Session → Session) : (s.modSess k g).qtz = s.qtz := rfl
@[simp] theorem modSess_vrd (s : State) (k : Nat) (g : Session → Session) : (s.modSess k g).vrd = s.vrd := rfl
@[simp] theorem modSess_ldg (s : State) (k : Nat) (g : Session → Session) : (s.modSess k g).ldg = s.ldg := rfl
@[simp] theorem modSess_cfg (s : State) (k : Nat) (g : Session → Session) : (s.modSess k g).cfg = s.cfg := rfl
@[simp] theorem modSess_fuses (s : State) (k : Nat) (g : Session → Session) : (s.modSess k g).fuses = s.fuses := rfl
@[simp] theorem modSess_railsOff (s : State) (k : Nat) (g : Session → Session) : (s.modSess k g).railsOff = s.railsOff := rfl
@[simp] theorem modSess_supplyOff (s : State) (k : Nat) (g : Session → Session) : (s.modSess k g).supplyOff = s.supplyOff := rfl
@[simp] theorem modSess_pgr (s : State) (k : Nat) (g : Session → Session) : (s.modSess k g).pgr = s.pgr := rfl
@[simp] theorem modSess_cores (s : State) (k : Nat) (g : Session → Session) : (s.modSess k g).cores = s.cores := rfl
@[simp] theorem modSess_warden (s : State) (k : Nat) (g : Session → Session) : (s.modSess k g).warden = s.warden := rfl
@[simp] theorem modSess_mem (s : State) (k : Nat) (g : Session → Session) : (s.modSess k g).mem = s.mem := rfl
@[simp] theorem modSess_filled (s : State) (k : Nat) (g : Session → Session) : (s.modSess k g).filled = s.filled := rfl
@[simp] theorem modSess_wordFlaw (s : State) (k : Nat) (g : Session → Session) : (s.modSess k g).wordFlaw = s.wordFlaw := rfl
@[simp] theorem modSess_banks (s : State) (k : Nat) (g : Session → Session) : (s.modSess k g).banks = s.banks := rfl
@[simp] theorem modSess_resv (s : State) (k : Nat) (g : Session → Session) : (s.modSess k g).resv = s.resv := rfl
@[simp] theorem modSess_dma (s : State) (k : Nat) (g : Session → Session) : (s.modSess k g).dma = s.dma := rfl
@[simp] theorem modSess_lineFlaw (s : State) (k : Nat) (g : Session → Session) : (s.modSess k g).lineFlaw = s.lineFlaw := rfl
@[simp] theorem modSess_seals (s : State) (k : Nat) (g : Session → Session) : (s.modSess k g).seals = s.seals := rfl
@[simp] theorem modSess_chans (s : State) (k : Nat) (g : Session → Session) : (s.modSess k g).chans = s.chans := rfl
@[simp] theorem modSess_memKeys (s : State) (k : Nat) (g : Session → Session) : (s.modSess k g).memKeys = s.memKeys := rfl
@[simp] theorem modSess_synths (s : State) (k : Nat) (g : Session → Session) : (s.modSess k g).synths = s.synths := rfl
@[simp] theorem modSess_cmpRuns (s : State) (k : Nat) (g : Session → Session) : (s.modSess k g).cmpRuns = s.cmpRuns := rfl
@[simp] theorem modSess_power (s : State) (k : Nat) (g : Session → Session) : (s.modSess k g).power = s.power := rfl
@[simp] theorem modSess_svc (s : State) (k : Nat) (g : Session → Session) : (s.modSess k g).svc = s.svc := rfl
@[simp] theorem modSess_evc (s : State) (k : Nat) (g : Session → Session) : (s.modSess k g).evc = s.evc := rfl
@[simp] theorem modSess_dbg (s : State) (k : Nat) (g : Session → Session) : (s.modSess k g).dbg = s.dbg := rfl
@[simp] theorem modSess_rd (s : State) (k : Nat) (g : Session → Session) (q : Reg) (j : Nat) : (s.modSess k g).rd q j = s.rd q j := rfl
@[simp] theorem modSess_get (s : State) (k : Nat) (g : Session → Session) (q : Fld) (j : Nat) : (s.modSess k g).get q j = s.get q j := rfl
@[simp] theorem modSess_on (s : State) (k : Nat) (g : Session → Session) (q : Fld) (j : Nat) : (s.modSess k g).on q j = s.on q j := rfl

@[simp] theorem setLane_pending (s : State) (k : Nat) (x : Lane) : (s.setLane k x).pending = s.pending := rfl
@[simp] theorem setLane_regs (s : State) (k : Nat) (x : Lane) : (s.setLane k x).regs = s.regs := rfl
@[simp] theorem setLane_free (s : State) (k : Nat) (x : Lane) : (s.setLane k x).free = s.free := rfl
@[simp] theorem setLane_ans (s : State) (k : Nat) (x : Lane) : (s.setLane k x).ans = s.ans := rfl
@[simp] theorem setLane_halves (s : State) (k : Nat) (x : Lane) : (s.setLane k x).halves = s.halves := rfl
@[simp] theorem setLane_tmg (s : State) (k : Nat) (x : Lane) : (s.setLane k x).tmg = s.tmg := rfl
@[simp] theorem setLane_lanes (s : State) (k : Nat) (x : Lane) : (s.setLane k x).lanes = s.lanes.set k x := rfl
@[simp] theorem setLane_fabric (s : State) (k : Nat) (x : Lane) : (s.setLane k x).fabric = s.fabric := rfl
@[simp] theorem setLane_brams (s : State) (k : Nat) (x : Lane) : (s.setLane k x).brams = s.brams := rfl
@[simp] theorem setLane_fifos (s : State) (k : Nat) (x : Lane) : (s.setLane k x).fifos = s.fifos := rfl
@[simp] theorem setLane_slices (s : State) (k : Nat) (x : Lane) : (s.setLane k x).slices = s.slices := rfl
@[simp] theorem setLane_rsyAt (s : State) (k : Nat) (x : Lane) : (s.setLane k x).rsyAt = s.rsyAt := rfl
@[simp] theorem setLane_sand (s : State) (k : Nat) (x : Lane) : (s.setLane k x).sand = s.sand := rfl
@[simp] theorem setLane_qtz (s : State) (k : Nat) (x : Lane) : (s.setLane k x).qtz = s.qtz := rfl
@[simp] theorem setLane_vrd (s : State) (k : Nat) (x : Lane) : (s.setLane k x).vrd = s.vrd := rfl
@[simp] theorem setLane_ldg (s : State) (k : Nat) (x : Lane) : (s.setLane k x).ldg = s.ldg := rfl
@[simp] theorem setLane_ktp (s : State) (k : Nat) (x : Lane) : (s.setLane k x).ktp = s.ktp := rfl
@[simp] theorem setLane_cfg (s : State) (k : Nat) (x : Lane) : (s.setLane k x).cfg = s.cfg := rfl
@[simp] theorem setLane_fuses (s : State) (k : Nat) (x : Lane) : (s.setLane k x).fuses = s.fuses := rfl
@[simp] theorem setLane_railsOff (s : State) (k : Nat) (x : Lane) : (s.setLane k x).railsOff = s.railsOff := rfl
@[simp] theorem setLane_supplyOff (s : State) (k : Nat) (x : Lane) : (s.setLane k x).supplyOff = s.supplyOff := rfl
@[simp] theorem setLane_pgr (s : State) (k : Nat) (x : Lane) : (s.setLane k x).pgr = s.pgr := rfl
@[simp] theorem setLane_cores (s : State) (k : Nat) (x : Lane) : (s.setLane k x).cores = s.cores := rfl
@[simp] theorem setLane_warden (s : State) (k : Nat) (x : Lane) : (s.setLane k x).warden = s.warden := rfl
@[simp] theorem setLane_mem (s : State) (k : Nat) (x : Lane) : (s.setLane k x).mem = s.mem := rfl
@[simp] theorem setLane_filled (s : State) (k : Nat) (x : Lane) : (s.setLane k x).filled = s.filled := rfl
@[simp] theorem setLane_wordFlaw (s : State) (k : Nat) (x : Lane) : (s.setLane k x).wordFlaw = s.wordFlaw := rfl
@[simp] theorem setLane_banks (s : State) (k : Nat) (x : Lane) : (s.setLane k x).banks = s.banks := rfl
@[simp] theorem setLane_resv (s : State) (k : Nat) (x : Lane) : (s.setLane k x).resv = s.resv := rfl
@[simp] theorem setLane_dma (s : State) (k : Nat) (x : Lane) : (s.setLane k x).dma = s.dma := rfl
@[simp] theorem setLane_lineFlaw (s : State) (k : Nat) (x : Lane) : (s.setLane k x).lineFlaw = s.lineFlaw := rfl
@[simp] theorem setLane_seals (s : State) (k : Nat) (x : Lane) : (s.setLane k x).seals = s.seals := rfl
@[simp] theorem setLane_chans (s : State) (k : Nat) (x : Lane) : (s.setLane k x).chans = s.chans := rfl
@[simp] theorem setLane_memKeys (s : State) (k : Nat) (x : Lane) : (s.setLane k x).memKeys = s.memKeys := rfl
@[simp] theorem setLane_synths (s : State) (k : Nat) (x : Lane) : (s.setLane k x).synths = s.synths := rfl
@[simp] theorem setLane_cmpRuns (s : State) (k : Nat) (x : Lane) : (s.setLane k x).cmpRuns = s.cmpRuns := rfl
@[simp] theorem setLane_power (s : State) (k : Nat) (x : Lane) : (s.setLane k x).power = s.power := rfl
@[simp] theorem setLane_svc (s : State) (k : Nat) (x : Lane) : (s.setLane k x).svc = s.svc := rfl
@[simp] theorem setLane_evc (s : State) (k : Nat) (x : Lane) : (s.setLane k x).evc = s.evc := rfl
@[simp] theorem setLane_dbg (s : State) (k : Nat) (x : Lane) : (s.setLane k x).dbg = s.dbg := rfl
@[simp] theorem setLane_rd (s : State) (k : Nat) (x : Lane) (q : Reg) (j : Nat) : (s.setLane k x).rd q j = s.rd q j := rfl
@[simp] theorem setLane_get (s : State) (k : Nat) (x : Lane) (q : Fld) (j : Nat) : (s.setLane k x).get q j = s.get q j := rfl
@[simp] theorem setLane_on (s : State) (k : Nat) (x : Lane) (q : Fld) (j : Nat) : (s.setLane k x).on q j = s.on q j := rfl

@[simp] theorem modLane_pending (s : State) (k : Nat) (g : Lane → Lane) : (s.modLane k g).pending = s.pending := rfl
@[simp] theorem modLane_regs (s : State) (k : Nat) (g : Lane → Lane) : (s.modLane k g).regs = s.regs := rfl
@[simp] theorem modLane_free (s : State) (k : Nat) (g : Lane → Lane) : (s.modLane k g).free = s.free := rfl
@[simp] theorem modLane_ans (s : State) (k : Nat) (g : Lane → Lane) : (s.modLane k g).ans = s.ans := rfl
@[simp] theorem modLane_halves (s : State) (k : Nat) (g : Lane → Lane) : (s.modLane k g).halves = s.halves := rfl
@[simp] theorem modLane_tmg (s : State) (k : Nat) (g : Lane → Lane) : (s.modLane k g).tmg = s.tmg := rfl
@[simp] theorem modLane_lanes (s : State) (k : Nat) (g : Lane → Lane) : (s.modLane k g).lanes = s.lanes.set k (g (s.lane k)) := rfl
@[simp] theorem modLane_fabric (s : State) (k : Nat) (g : Lane → Lane) : (s.modLane k g).fabric = s.fabric := rfl
@[simp] theorem modLane_brams (s : State) (k : Nat) (g : Lane → Lane) : (s.modLane k g).brams = s.brams := rfl
@[simp] theorem modLane_fifos (s : State) (k : Nat) (g : Lane → Lane) : (s.modLane k g).fifos = s.fifos := rfl
@[simp] theorem modLane_slices (s : State) (k : Nat) (g : Lane → Lane) : (s.modLane k g).slices = s.slices := rfl
@[simp] theorem modLane_rsyAt (s : State) (k : Nat) (g : Lane → Lane) : (s.modLane k g).rsyAt = s.rsyAt := rfl
@[simp] theorem modLane_sand (s : State) (k : Nat) (g : Lane → Lane) : (s.modLane k g).sand = s.sand := rfl
@[simp] theorem modLane_qtz (s : State) (k : Nat) (g : Lane → Lane) : (s.modLane k g).qtz = s.qtz := rfl
@[simp] theorem modLane_vrd (s : State) (k : Nat) (g : Lane → Lane) : (s.modLane k g).vrd = s.vrd := rfl
@[simp] theorem modLane_ldg (s : State) (k : Nat) (g : Lane → Lane) : (s.modLane k g).ldg = s.ldg := rfl
@[simp] theorem modLane_ktp (s : State) (k : Nat) (g : Lane → Lane) : (s.modLane k g).ktp = s.ktp := rfl
@[simp] theorem modLane_cfg (s : State) (k : Nat) (g : Lane → Lane) : (s.modLane k g).cfg = s.cfg := rfl
@[simp] theorem modLane_fuses (s : State) (k : Nat) (g : Lane → Lane) : (s.modLane k g).fuses = s.fuses := rfl
@[simp] theorem modLane_railsOff (s : State) (k : Nat) (g : Lane → Lane) : (s.modLane k g).railsOff = s.railsOff := rfl
@[simp] theorem modLane_supplyOff (s : State) (k : Nat) (g : Lane → Lane) : (s.modLane k g).supplyOff = s.supplyOff := rfl
@[simp] theorem modLane_pgr (s : State) (k : Nat) (g : Lane → Lane) : (s.modLane k g).pgr = s.pgr := rfl
@[simp] theorem modLane_cores (s : State) (k : Nat) (g : Lane → Lane) : (s.modLane k g).cores = s.cores := rfl
@[simp] theorem modLane_warden (s : State) (k : Nat) (g : Lane → Lane) : (s.modLane k g).warden = s.warden := rfl
@[simp] theorem modLane_mem (s : State) (k : Nat) (g : Lane → Lane) : (s.modLane k g).mem = s.mem := rfl
@[simp] theorem modLane_filled (s : State) (k : Nat) (g : Lane → Lane) : (s.modLane k g).filled = s.filled := rfl
@[simp] theorem modLane_wordFlaw (s : State) (k : Nat) (g : Lane → Lane) : (s.modLane k g).wordFlaw = s.wordFlaw := rfl
@[simp] theorem modLane_banks (s : State) (k : Nat) (g : Lane → Lane) : (s.modLane k g).banks = s.banks := rfl
@[simp] theorem modLane_resv (s : State) (k : Nat) (g : Lane → Lane) : (s.modLane k g).resv = s.resv := rfl
@[simp] theorem modLane_dma (s : State) (k : Nat) (g : Lane → Lane) : (s.modLane k g).dma = s.dma := rfl
@[simp] theorem modLane_lineFlaw (s : State) (k : Nat) (g : Lane → Lane) : (s.modLane k g).lineFlaw = s.lineFlaw := rfl
@[simp] theorem modLane_seals (s : State) (k : Nat) (g : Lane → Lane) : (s.modLane k g).seals = s.seals := rfl
@[simp] theorem modLane_chans (s : State) (k : Nat) (g : Lane → Lane) : (s.modLane k g).chans = s.chans := rfl
@[simp] theorem modLane_memKeys (s : State) (k : Nat) (g : Lane → Lane) : (s.modLane k g).memKeys = s.memKeys := rfl
@[simp] theorem modLane_synths (s : State) (k : Nat) (g : Lane → Lane) : (s.modLane k g).synths = s.synths := rfl
@[simp] theorem modLane_cmpRuns (s : State) (k : Nat) (g : Lane → Lane) : (s.modLane k g).cmpRuns = s.cmpRuns := rfl
@[simp] theorem modLane_power (s : State) (k : Nat) (g : Lane → Lane) : (s.modLane k g).power = s.power := rfl
@[simp] theorem modLane_svc (s : State) (k : Nat) (g : Lane → Lane) : (s.modLane k g).svc = s.svc := rfl
@[simp] theorem modLane_evc (s : State) (k : Nat) (g : Lane → Lane) : (s.modLane k g).evc = s.evc := rfl
@[simp] theorem modLane_dbg (s : State) (k : Nat) (g : Lane → Lane) : (s.modLane k g).dbg = s.dbg := rfl
@[simp] theorem modLane_rd (s : State) (k : Nat) (g : Lane → Lane) (q : Reg) (j : Nat) : (s.modLane k g).rd q j = s.rd q j := rfl
@[simp] theorem modLane_get (s : State) (k : Nat) (g : Lane → Lane) (q : Fld) (j : Nat) : (s.modLane k g).get q j = s.get q j := rfl
@[simp] theorem modLane_on (s : State) (k : Nat) (g : Lane → Lane) (q : Fld) (j : Nat) : (s.modLane k g).on q j = s.on q j := rfl

@[simp] theorem setLdg_pending (s : State) (g : Ledger → Ledger) : (s.setLdg g).pending = s.pending := rfl
@[simp] theorem setLdg_regs (s : State) (g : Ledger → Ledger) : (s.setLdg g).regs = s.regs := rfl
@[simp] theorem setLdg_free (s : State) (g : Ledger → Ledger) : (s.setLdg g).free = s.free := rfl
@[simp] theorem setLdg_ans (s : State) (g : Ledger → Ledger) : (s.setLdg g).ans = s.ans := rfl
@[simp] theorem setLdg_halves (s : State) (g : Ledger → Ledger) : (s.setLdg g).halves = s.halves := rfl
@[simp] theorem setLdg_tmg (s : State) (g : Ledger → Ledger) : (s.setLdg g).tmg = s.tmg := rfl
@[simp] theorem setLdg_lanes (s : State) (g : Ledger → Ledger) : (s.setLdg g).lanes = s.lanes := rfl
@[simp] theorem setLdg_fabric (s : State) (g : Ledger → Ledger) : (s.setLdg g).fabric = s.fabric := rfl
@[simp] theorem setLdg_brams (s : State) (g : Ledger → Ledger) : (s.setLdg g).brams = s.brams := rfl
@[simp] theorem setLdg_fifos (s : State) (g : Ledger → Ledger) : (s.setLdg g).fifos = s.fifos := rfl
@[simp] theorem setLdg_slices (s : State) (g : Ledger → Ledger) : (s.setLdg g).slices = s.slices := rfl
@[simp] theorem setLdg_rsyAt (s : State) (g : Ledger → Ledger) : (s.setLdg g).rsyAt = s.rsyAt := rfl
@[simp] theorem setLdg_sand (s : State) (g : Ledger → Ledger) : (s.setLdg g).sand = s.sand := rfl
@[simp] theorem setLdg_qtz (s : State) (g : Ledger → Ledger) : (s.setLdg g).qtz = s.qtz := rfl
@[simp] theorem setLdg_vrd (s : State) (g : Ledger → Ledger) : (s.setLdg g).vrd = s.vrd := rfl
@[simp] theorem setLdg_ldg (s : State) (g : Ledger → Ledger) : (s.setLdg g).ldg = g s.ldg := rfl
@[simp] theorem setLdg_ktp (s : State) (g : Ledger → Ledger) : (s.setLdg g).ktp = s.ktp := rfl
@[simp] theorem setLdg_cfg (s : State) (g : Ledger → Ledger) : (s.setLdg g).cfg = s.cfg := rfl
@[simp] theorem setLdg_fuses (s : State) (g : Ledger → Ledger) : (s.setLdg g).fuses = s.fuses := rfl
@[simp] theorem setLdg_railsOff (s : State) (g : Ledger → Ledger) : (s.setLdg g).railsOff = s.railsOff := rfl
@[simp] theorem setLdg_supplyOff (s : State) (g : Ledger → Ledger) : (s.setLdg g).supplyOff = s.supplyOff := rfl
@[simp] theorem setLdg_pgr (s : State) (g : Ledger → Ledger) : (s.setLdg g).pgr = s.pgr := rfl
@[simp] theorem setLdg_cores (s : State) (g : Ledger → Ledger) : (s.setLdg g).cores = s.cores := rfl
@[simp] theorem setLdg_warden (s : State) (g : Ledger → Ledger) : (s.setLdg g).warden = s.warden := rfl
@[simp] theorem setLdg_mem (s : State) (g : Ledger → Ledger) : (s.setLdg g).mem = s.mem := rfl
@[simp] theorem setLdg_filled (s : State) (g : Ledger → Ledger) : (s.setLdg g).filled = s.filled := rfl
@[simp] theorem setLdg_wordFlaw (s : State) (g : Ledger → Ledger) : (s.setLdg g).wordFlaw = s.wordFlaw := rfl
@[simp] theorem setLdg_banks (s : State) (g : Ledger → Ledger) : (s.setLdg g).banks = s.banks := rfl
@[simp] theorem setLdg_resv (s : State) (g : Ledger → Ledger) : (s.setLdg g).resv = s.resv := rfl
@[simp] theorem setLdg_dma (s : State) (g : Ledger → Ledger) : (s.setLdg g).dma = s.dma := rfl
@[simp] theorem setLdg_lineFlaw (s : State) (g : Ledger → Ledger) : (s.setLdg g).lineFlaw = s.lineFlaw := rfl
@[simp] theorem setLdg_seals (s : State) (g : Ledger → Ledger) : (s.setLdg g).seals = s.seals := rfl
@[simp] theorem setLdg_chans (s : State) (g : Ledger → Ledger) : (s.setLdg g).chans = s.chans := rfl
@[simp] theorem setLdg_memKeys (s : State) (g : Ledger → Ledger) : (s.setLdg g).memKeys = s.memKeys := rfl
@[simp] theorem setLdg_synths (s : State) (g : Ledger → Ledger) : (s.setLdg g).synths = s.synths := rfl
@[simp] theorem setLdg_cmpRuns (s : State) (g : Ledger → Ledger) : (s.setLdg g).cmpRuns = s.cmpRuns := rfl
@[simp] theorem setLdg_power (s : State) (g : Ledger → Ledger) : (s.setLdg g).power = s.power := rfl
@[simp] theorem setLdg_svc (s : State) (g : Ledger → Ledger) : (s.setLdg g).svc = s.svc := rfl
@[simp] theorem setLdg_evc (s : State) (g : Ledger → Ledger) : (s.setLdg g).evc = s.evc := rfl
@[simp] theorem setLdg_dbg (s : State) (g : Ledger → Ledger) : (s.setLdg g).dbg = s.dbg := rfl
@[simp] theorem setLdg_rd (s : State) (g : Ledger → Ledger) (q : Reg) (j : Nat) : (s.setLdg g).rd q j = s.rd q j := rfl
@[simp] theorem setLdg_get (s : State) (g : Ledger → Ledger) (q : Fld) (j : Nat) : (s.setLdg g).get q j = s.get q j := rfl
@[simp] theorem setLdg_on (s : State) (g : Ledger → Ledger) (q : Fld) (j : Nat) : (s.setLdg g).on q j = s.on q j := rfl

@[simp] theorem setWarden_pending (s : State) (g : Warden → Warden) : (s.setWarden g).pending = s.pending := rfl
@[simp] theorem setWarden_regs (s : State) (g : Warden → Warden) : (s.setWarden g).regs = s.regs := rfl
@[simp] theorem setWarden_free (s : State) (g : Warden → Warden) : (s.setWarden g).free = s.free := rfl
@[simp] theorem setWarden_ans (s : State) (g : Warden → Warden) : (s.setWarden g).ans = s.ans := rfl
@[simp] theorem setWarden_halves (s : State) (g : Warden → Warden) : (s.setWarden g).halves = s.halves := rfl
@[simp] theorem setWarden_tmg (s : State) (g : Warden → Warden) : (s.setWarden g).tmg = s.tmg := rfl
@[simp] theorem setWarden_lanes (s : State) (g : Warden → Warden) : (s.setWarden g).lanes = s.lanes := rfl
@[simp] theorem setWarden_fabric (s : State) (g : Warden → Warden) : (s.setWarden g).fabric = s.fabric := rfl
@[simp] theorem setWarden_brams (s : State) (g : Warden → Warden) : (s.setWarden g).brams = s.brams := rfl
@[simp] theorem setWarden_fifos (s : State) (g : Warden → Warden) : (s.setWarden g).fifos = s.fifos := rfl
@[simp] theorem setWarden_slices (s : State) (g : Warden → Warden) : (s.setWarden g).slices = s.slices := rfl
@[simp] theorem setWarden_rsyAt (s : State) (g : Warden → Warden) : (s.setWarden g).rsyAt = s.rsyAt := rfl
@[simp] theorem setWarden_sand (s : State) (g : Warden → Warden) : (s.setWarden g).sand = s.sand := rfl
@[simp] theorem setWarden_qtz (s : State) (g : Warden → Warden) : (s.setWarden g).qtz = s.qtz := rfl
@[simp] theorem setWarden_vrd (s : State) (g : Warden → Warden) : (s.setWarden g).vrd = s.vrd := rfl
@[simp] theorem setWarden_ldg (s : State) (g : Warden → Warden) : (s.setWarden g).ldg = s.ldg := rfl
@[simp] theorem setWarden_ktp (s : State) (g : Warden → Warden) : (s.setWarden g).ktp = s.ktp := rfl
@[simp] theorem setWarden_cfg (s : State) (g : Warden → Warden) : (s.setWarden g).cfg = s.cfg := rfl
@[simp] theorem setWarden_fuses (s : State) (g : Warden → Warden) : (s.setWarden g).fuses = s.fuses := rfl
@[simp] theorem setWarden_railsOff (s : State) (g : Warden → Warden) : (s.setWarden g).railsOff = s.railsOff := rfl
@[simp] theorem setWarden_supplyOff (s : State) (g : Warden → Warden) : (s.setWarden g).supplyOff = s.supplyOff := rfl
@[simp] theorem setWarden_pgr (s : State) (g : Warden → Warden) : (s.setWarden g).pgr = s.pgr := rfl
@[simp] theorem setWarden_cores (s : State) (g : Warden → Warden) : (s.setWarden g).cores = s.cores := rfl
@[simp] theorem setWarden_warden (s : State) (g : Warden → Warden) : (s.setWarden g).warden = g s.warden := rfl
@[simp] theorem setWarden_mem (s : State) (g : Warden → Warden) : (s.setWarden g).mem = s.mem := rfl
@[simp] theorem setWarden_filled (s : State) (g : Warden → Warden) : (s.setWarden g).filled = s.filled := rfl
@[simp] theorem setWarden_wordFlaw (s : State) (g : Warden → Warden) : (s.setWarden g).wordFlaw = s.wordFlaw := rfl
@[simp] theorem setWarden_banks (s : State) (g : Warden → Warden) : (s.setWarden g).banks = s.banks := rfl
@[simp] theorem setWarden_resv (s : State) (g : Warden → Warden) : (s.setWarden g).resv = s.resv := rfl
@[simp] theorem setWarden_dma (s : State) (g : Warden → Warden) : (s.setWarden g).dma = s.dma := rfl
@[simp] theorem setWarden_lineFlaw (s : State) (g : Warden → Warden) : (s.setWarden g).lineFlaw = s.lineFlaw := rfl
@[simp] theorem setWarden_seals (s : State) (g : Warden → Warden) : (s.setWarden g).seals = s.seals := rfl
@[simp] theorem setWarden_chans (s : State) (g : Warden → Warden) : (s.setWarden g).chans = s.chans := rfl
@[simp] theorem setWarden_memKeys (s : State) (g : Warden → Warden) : (s.setWarden g).memKeys = s.memKeys := rfl
@[simp] theorem setWarden_synths (s : State) (g : Warden → Warden) : (s.setWarden g).synths = s.synths := rfl
@[simp] theorem setWarden_cmpRuns (s : State) (g : Warden → Warden) : (s.setWarden g).cmpRuns = s.cmpRuns := rfl
@[simp] theorem setWarden_power (s : State) (g : Warden → Warden) : (s.setWarden g).power = s.power := rfl
@[simp] theorem setWarden_svc (s : State) (g : Warden → Warden) : (s.setWarden g).svc = s.svc := rfl
@[simp] theorem setWarden_evc (s : State) (g : Warden → Warden) : (s.setWarden g).evc = s.evc := rfl
@[simp] theorem setWarden_dbg (s : State) (g : Warden → Warden) : (s.setWarden g).dbg = s.dbg := rfl
@[simp] theorem setWarden_rd (s : State) (g : Warden → Warden) (q : Reg) (j : Nat) : (s.setWarden g).rd q j = s.rd q j := rfl
@[simp] theorem setWarden_get (s : State) (g : Warden → Warden) (q : Fld) (j : Nat) : (s.setWarden g).get q j = s.get q j := rfl
@[simp] theorem setWarden_on (s : State) (g : Warden → Warden) (q : Fld) (j : Nat) : (s.setWarden g).on q j = s.on q j := rfl

@[simp] theorem setBank_pending (s : State) (k : Nat) (x : Bank) : (s.setBank k x).pending = s.pending := rfl
@[simp] theorem setBank_regs (s : State) (k : Nat) (x : Bank) : (s.setBank k x).regs = s.regs := rfl
@[simp] theorem setBank_free (s : State) (k : Nat) (x : Bank) : (s.setBank k x).free = s.free := rfl
@[simp] theorem setBank_ans (s : State) (k : Nat) (x : Bank) : (s.setBank k x).ans = s.ans := rfl
@[simp] theorem setBank_halves (s : State) (k : Nat) (x : Bank) : (s.setBank k x).halves = s.halves := rfl
@[simp] theorem setBank_tmg (s : State) (k : Nat) (x : Bank) : (s.setBank k x).tmg = s.tmg := rfl
@[simp] theorem setBank_lanes (s : State) (k : Nat) (x : Bank) : (s.setBank k x).lanes = s.lanes := rfl
@[simp] theorem setBank_fabric (s : State) (k : Nat) (x : Bank) : (s.setBank k x).fabric = s.fabric := rfl
@[simp] theorem setBank_brams (s : State) (k : Nat) (x : Bank) : (s.setBank k x).brams = s.brams := rfl
@[simp] theorem setBank_fifos (s : State) (k : Nat) (x : Bank) : (s.setBank k x).fifos = s.fifos := rfl
@[simp] theorem setBank_slices (s : State) (k : Nat) (x : Bank) : (s.setBank k x).slices = s.slices := rfl
@[simp] theorem setBank_rsyAt (s : State) (k : Nat) (x : Bank) : (s.setBank k x).rsyAt = s.rsyAt := rfl
@[simp] theorem setBank_sand (s : State) (k : Nat) (x : Bank) : (s.setBank k x).sand = s.sand := rfl
@[simp] theorem setBank_qtz (s : State) (k : Nat) (x : Bank) : (s.setBank k x).qtz = s.qtz := rfl
@[simp] theorem setBank_vrd (s : State) (k : Nat) (x : Bank) : (s.setBank k x).vrd = s.vrd := rfl
@[simp] theorem setBank_ldg (s : State) (k : Nat) (x : Bank) : (s.setBank k x).ldg = s.ldg := rfl
@[simp] theorem setBank_ktp (s : State) (k : Nat) (x : Bank) : (s.setBank k x).ktp = s.ktp := rfl
@[simp] theorem setBank_cfg (s : State) (k : Nat) (x : Bank) : (s.setBank k x).cfg = s.cfg := rfl
@[simp] theorem setBank_fuses (s : State) (k : Nat) (x : Bank) : (s.setBank k x).fuses = s.fuses := rfl
@[simp] theorem setBank_railsOff (s : State) (k : Nat) (x : Bank) : (s.setBank k x).railsOff = s.railsOff := rfl
@[simp] theorem setBank_supplyOff (s : State) (k : Nat) (x : Bank) : (s.setBank k x).supplyOff = s.supplyOff := rfl
@[simp] theorem setBank_pgr (s : State) (k : Nat) (x : Bank) : (s.setBank k x).pgr = s.pgr := rfl
@[simp] theorem setBank_cores (s : State) (k : Nat) (x : Bank) : (s.setBank k x).cores = s.cores := rfl
@[simp] theorem setBank_warden (s : State) (k : Nat) (x : Bank) : (s.setBank k x).warden = s.warden := rfl
@[simp] theorem setBank_mem (s : State) (k : Nat) (x : Bank) : (s.setBank k x).mem = s.mem := rfl
@[simp] theorem setBank_filled (s : State) (k : Nat) (x : Bank) : (s.setBank k x).filled = s.filled := rfl
@[simp] theorem setBank_wordFlaw (s : State) (k : Nat) (x : Bank) : (s.setBank k x).wordFlaw = s.wordFlaw := rfl
@[simp] theorem setBank_banks (s : State) (k : Nat) (x : Bank) : (s.setBank k x).banks = s.banks.set k x := rfl
@[simp] theorem setBank_resv (s : State) (k : Nat) (x : Bank) : (s.setBank k x).resv = s.resv := rfl
@[simp] theorem setBank_dma (s : State) (k : Nat) (x : Bank) : (s.setBank k x).dma = s.dma := rfl
@[simp] theorem setBank_lineFlaw (s : State) (k : Nat) (x : Bank) : (s.setBank k x).lineFlaw = s.lineFlaw := rfl
@[simp] theorem setBank_seals (s : State) (k : Nat) (x : Bank) : (s.setBank k x).seals = s.seals := rfl
@[simp] theorem setBank_chans (s : State) (k : Nat) (x : Bank) : (s.setBank k x).chans = s.chans := rfl
@[simp] theorem setBank_memKeys (s : State) (k : Nat) (x : Bank) : (s.setBank k x).memKeys = s.memKeys := rfl
@[simp] theorem setBank_synths (s : State) (k : Nat) (x : Bank) : (s.setBank k x).synths = s.synths := rfl
@[simp] theorem setBank_cmpRuns (s : State) (k : Nat) (x : Bank) : (s.setBank k x).cmpRuns = s.cmpRuns := rfl
@[simp] theorem setBank_power (s : State) (k : Nat) (x : Bank) : (s.setBank k x).power = s.power := rfl
@[simp] theorem setBank_svc (s : State) (k : Nat) (x : Bank) : (s.setBank k x).svc = s.svc := rfl
@[simp] theorem setBank_evc (s : State) (k : Nat) (x : Bank) : (s.setBank k x).evc = s.evc := rfl
@[simp] theorem setBank_dbg (s : State) (k : Nat) (x : Bank) : (s.setBank k x).dbg = s.dbg := rfl
@[simp] theorem setBank_rd (s : State) (k : Nat) (x : Bank) (q : Reg) (j : Nat) : (s.setBank k x).rd q j = s.rd q j := rfl
@[simp] theorem setBank_get (s : State) (k : Nat) (x : Bank) (q : Fld) (j : Nat) : (s.setBank k x).get q j = s.get q j := rfl
@[simp] theorem setBank_on (s : State) (k : Nat) (x : Bank) (q : Fld) (j : Nat) : (s.setBank k x).on q j = s.on q j := rfl

@[simp] theorem setPgr_pending (s : State) (g : Pgr → Pgr) : (s.setPgr g).pending = s.pending := rfl
@[simp] theorem setPgr_regs (s : State) (g : Pgr → Pgr) : (s.setPgr g).regs = s.regs := rfl
@[simp] theorem setPgr_free (s : State) (g : Pgr → Pgr) : (s.setPgr g).free = s.free := rfl
@[simp] theorem setPgr_ans (s : State) (g : Pgr → Pgr) : (s.setPgr g).ans = s.ans := rfl
@[simp] theorem setPgr_halves (s : State) (g : Pgr → Pgr) : (s.setPgr g).halves = s.halves := rfl
@[simp] theorem setPgr_tmg (s : State) (g : Pgr → Pgr) : (s.setPgr g).tmg = s.tmg := rfl
@[simp] theorem setPgr_lanes (s : State) (g : Pgr → Pgr) : (s.setPgr g).lanes = s.lanes := rfl
@[simp] theorem setPgr_fabric (s : State) (g : Pgr → Pgr) : (s.setPgr g).fabric = s.fabric := rfl
@[simp] theorem setPgr_brams (s : State) (g : Pgr → Pgr) : (s.setPgr g).brams = s.brams := rfl
@[simp] theorem setPgr_fifos (s : State) (g : Pgr → Pgr) : (s.setPgr g).fifos = s.fifos := rfl
@[simp] theorem setPgr_slices (s : State) (g : Pgr → Pgr) : (s.setPgr g).slices = s.slices := rfl
@[simp] theorem setPgr_rsyAt (s : State) (g : Pgr → Pgr) : (s.setPgr g).rsyAt = s.rsyAt := rfl
@[simp] theorem setPgr_sand (s : State) (g : Pgr → Pgr) : (s.setPgr g).sand = s.sand := rfl
@[simp] theorem setPgr_qtz (s : State) (g : Pgr → Pgr) : (s.setPgr g).qtz = s.qtz := rfl
@[simp] theorem setPgr_vrd (s : State) (g : Pgr → Pgr) : (s.setPgr g).vrd = s.vrd := rfl
@[simp] theorem setPgr_ldg (s : State) (g : Pgr → Pgr) : (s.setPgr g).ldg = s.ldg := rfl
@[simp] theorem setPgr_ktp (s : State) (g : Pgr → Pgr) : (s.setPgr g).ktp = s.ktp := rfl
@[simp] theorem setPgr_cfg (s : State) (g : Pgr → Pgr) : (s.setPgr g).cfg = s.cfg := rfl
@[simp] theorem setPgr_fuses (s : State) (g : Pgr → Pgr) : (s.setPgr g).fuses = s.fuses := rfl
@[simp] theorem setPgr_railsOff (s : State) (g : Pgr → Pgr) : (s.setPgr g).railsOff = s.railsOff := rfl
@[simp] theorem setPgr_supplyOff (s : State) (g : Pgr → Pgr) : (s.setPgr g).supplyOff = s.supplyOff := rfl
@[simp] theorem setPgr_pgr (s : State) (g : Pgr → Pgr) : (s.setPgr g).pgr = g s.pgr := rfl
@[simp] theorem setPgr_cores (s : State) (g : Pgr → Pgr) : (s.setPgr g).cores = s.cores := rfl
@[simp] theorem setPgr_warden (s : State) (g : Pgr → Pgr) : (s.setPgr g).warden = s.warden := rfl
@[simp] theorem setPgr_mem (s : State) (g : Pgr → Pgr) : (s.setPgr g).mem = s.mem := rfl
@[simp] theorem setPgr_filled (s : State) (g : Pgr → Pgr) : (s.setPgr g).filled = s.filled := rfl
@[simp] theorem setPgr_wordFlaw (s : State) (g : Pgr → Pgr) : (s.setPgr g).wordFlaw = s.wordFlaw := rfl
@[simp] theorem setPgr_banks (s : State) (g : Pgr → Pgr) : (s.setPgr g).banks = s.banks := rfl
@[simp] theorem setPgr_resv (s : State) (g : Pgr → Pgr) : (s.setPgr g).resv = s.resv := rfl
@[simp] theorem setPgr_dma (s : State) (g : Pgr → Pgr) : (s.setPgr g).dma = s.dma := rfl
@[simp] theorem setPgr_lineFlaw (s : State) (g : Pgr → Pgr) : (s.setPgr g).lineFlaw = s.lineFlaw := rfl
@[simp] theorem setPgr_seals (s : State) (g : Pgr → Pgr) : (s.setPgr g).seals = s.seals := rfl
@[simp] theorem setPgr_chans (s : State) (g : Pgr → Pgr) : (s.setPgr g).chans = s.chans := rfl
@[simp] theorem setPgr_memKeys (s : State) (g : Pgr → Pgr) : (s.setPgr g).memKeys = s.memKeys := rfl
@[simp] theorem setPgr_synths (s : State) (g : Pgr → Pgr) : (s.setPgr g).synths = s.synths := rfl
@[simp] theorem setPgr_cmpRuns (s : State) (g : Pgr → Pgr) : (s.setPgr g).cmpRuns = s.cmpRuns := rfl
@[simp] theorem setPgr_power (s : State) (g : Pgr → Pgr) : (s.setPgr g).power = s.power := rfl
@[simp] theorem setPgr_svc (s : State) (g : Pgr → Pgr) : (s.setPgr g).svc = s.svc := rfl
@[simp] theorem setPgr_evc (s : State) (g : Pgr → Pgr) : (s.setPgr g).evc = s.evc := rfl
@[simp] theorem setPgr_dbg (s : State) (g : Pgr → Pgr) : (s.setPgr g).dbg = s.dbg := rfl
@[simp] theorem setPgr_rd (s : State) (g : Pgr → Pgr) (q : Reg) (j : Nat) : (s.setPgr g).rd q j = s.rd q j := rfl
@[simp] theorem setPgr_get (s : State) (g : Pgr → Pgr) (q : Fld) (j : Nat) : (s.setPgr g).get q j = s.get q j := rfl
@[simp] theorem setPgr_on (s : State) (g : Pgr → Pgr) (q : Fld) (j : Nat) : (s.setPgr g).on q j = s.on q j := rfl

@[simp] theorem setPower_pending (s : State) (g : Power → Power) : (s.setPower g).pending = s.pending := rfl
@[simp] theorem setPower_regs (s : State) (g : Power → Power) : (s.setPower g).regs = s.regs := rfl
@[simp] theorem setPower_free (s : State) (g : Power → Power) : (s.setPower g).free = s.free := rfl
@[simp] theorem setPower_ans (s : State) (g : Power → Power) : (s.setPower g).ans = s.ans := rfl
@[simp] theorem setPower_halves (s : State) (g : Power → Power) : (s.setPower g).halves = s.halves := rfl
@[simp] theorem setPower_tmg (s : State) (g : Power → Power) : (s.setPower g).tmg = s.tmg := rfl
@[simp] theorem setPower_lanes (s : State) (g : Power → Power) : (s.setPower g).lanes = s.lanes := rfl
@[simp] theorem setPower_fabric (s : State) (g : Power → Power) : (s.setPower g).fabric = s.fabric := rfl
@[simp] theorem setPower_brams (s : State) (g : Power → Power) : (s.setPower g).brams = s.brams := rfl
@[simp] theorem setPower_fifos (s : State) (g : Power → Power) : (s.setPower g).fifos = s.fifos := rfl
@[simp] theorem setPower_slices (s : State) (g : Power → Power) : (s.setPower g).slices = s.slices := rfl
@[simp] theorem setPower_rsyAt (s : State) (g : Power → Power) : (s.setPower g).rsyAt = s.rsyAt := rfl
@[simp] theorem setPower_sand (s : State) (g : Power → Power) : (s.setPower g).sand = s.sand := rfl
@[simp] theorem setPower_qtz (s : State) (g : Power → Power) : (s.setPower g).qtz = s.qtz := rfl
@[simp] theorem setPower_vrd (s : State) (g : Power → Power) : (s.setPower g).vrd = s.vrd := rfl
@[simp] theorem setPower_ldg (s : State) (g : Power → Power) : (s.setPower g).ldg = s.ldg := rfl
@[simp] theorem setPower_ktp (s : State) (g : Power → Power) : (s.setPower g).ktp = s.ktp := rfl
@[simp] theorem setPower_cfg (s : State) (g : Power → Power) : (s.setPower g).cfg = s.cfg := rfl
@[simp] theorem setPower_fuses (s : State) (g : Power → Power) : (s.setPower g).fuses = s.fuses := rfl
@[simp] theorem setPower_railsOff (s : State) (g : Power → Power) : (s.setPower g).railsOff = s.railsOff := rfl
@[simp] theorem setPower_supplyOff (s : State) (g : Power → Power) : (s.setPower g).supplyOff = s.supplyOff := rfl
@[simp] theorem setPower_pgr (s : State) (g : Power → Power) : (s.setPower g).pgr = s.pgr := rfl
@[simp] theorem setPower_cores (s : State) (g : Power → Power) : (s.setPower g).cores = s.cores := rfl
@[simp] theorem setPower_warden (s : State) (g : Power → Power) : (s.setPower g).warden = s.warden := rfl
@[simp] theorem setPower_mem (s : State) (g : Power → Power) : (s.setPower g).mem = s.mem := rfl
@[simp] theorem setPower_filled (s : State) (g : Power → Power) : (s.setPower g).filled = s.filled := rfl
@[simp] theorem setPower_wordFlaw (s : State) (g : Power → Power) : (s.setPower g).wordFlaw = s.wordFlaw := rfl
@[simp] theorem setPower_banks (s : State) (g : Power → Power) : (s.setPower g).banks = s.banks := rfl
@[simp] theorem setPower_resv (s : State) (g : Power → Power) : (s.setPower g).resv = s.resv := rfl
@[simp] theorem setPower_dma (s : State) (g : Power → Power) : (s.setPower g).dma = s.dma := rfl
@[simp] theorem setPower_lineFlaw (s : State) (g : Power → Power) : (s.setPower g).lineFlaw = s.lineFlaw := rfl
@[simp] theorem setPower_seals (s : State) (g : Power → Power) : (s.setPower g).seals = s.seals := rfl
@[simp] theorem setPower_chans (s : State) (g : Power → Power) : (s.setPower g).chans = s.chans := rfl
@[simp] theorem setPower_memKeys (s : State) (g : Power → Power) : (s.setPower g).memKeys = s.memKeys := rfl
@[simp] theorem setPower_synths (s : State) (g : Power → Power) : (s.setPower g).synths = s.synths := rfl
@[simp] theorem setPower_cmpRuns (s : State) (g : Power → Power) : (s.setPower g).cmpRuns = s.cmpRuns := rfl
@[simp] theorem setPower_power (s : State) (g : Power → Power) : (s.setPower g).power = g s.power := rfl
@[simp] theorem setPower_svc (s : State) (g : Power → Power) : (s.setPower g).svc = s.svc := rfl
@[simp] theorem setPower_evc (s : State) (g : Power → Power) : (s.setPower g).evc = s.evc := rfl
@[simp] theorem setPower_dbg (s : State) (g : Power → Power) : (s.setPower g).dbg = s.dbg := rfl
@[simp] theorem setPower_rd (s : State) (g : Power → Power) (q : Reg) (j : Nat) : (s.setPower g).rd q j = s.rd q j := rfl
@[simp] theorem setPower_get (s : State) (g : Power → Power) (q : Fld) (j : Nat) : (s.setPower g).get q j = s.get q j := rfl
@[simp] theorem setPower_on (s : State) (g : Power → Power) (q : Fld) (j : Nat) : (s.setPower g).on q j = s.on q j := rfl

@[simp] theorem setQtz_pending (s : State) (g : Quartz → Quartz) : (s.setQtz g).pending = s.pending := rfl
@[simp] theorem setQtz_regs (s : State) (g : Quartz → Quartz) : (s.setQtz g).regs = s.regs := rfl
@[simp] theorem setQtz_free (s : State) (g : Quartz → Quartz) : (s.setQtz g).free = s.free := rfl
@[simp] theorem setQtz_ans (s : State) (g : Quartz → Quartz) : (s.setQtz g).ans = s.ans := rfl
@[simp] theorem setQtz_halves (s : State) (g : Quartz → Quartz) : (s.setQtz g).halves = s.halves := rfl
@[simp] theorem setQtz_tmg (s : State) (g : Quartz → Quartz) : (s.setQtz g).tmg = s.tmg := rfl
@[simp] theorem setQtz_lanes (s : State) (g : Quartz → Quartz) : (s.setQtz g).lanes = s.lanes := rfl
@[simp] theorem setQtz_fabric (s : State) (g : Quartz → Quartz) : (s.setQtz g).fabric = s.fabric := rfl
@[simp] theorem setQtz_brams (s : State) (g : Quartz → Quartz) : (s.setQtz g).brams = s.brams := rfl
@[simp] theorem setQtz_fifos (s : State) (g : Quartz → Quartz) : (s.setQtz g).fifos = s.fifos := rfl
@[simp] theorem setQtz_slices (s : State) (g : Quartz → Quartz) : (s.setQtz g).slices = s.slices := rfl
@[simp] theorem setQtz_rsyAt (s : State) (g : Quartz → Quartz) : (s.setQtz g).rsyAt = s.rsyAt := rfl
@[simp] theorem setQtz_sand (s : State) (g : Quartz → Quartz) : (s.setQtz g).sand = s.sand := rfl
@[simp] theorem setQtz_qtz (s : State) (g : Quartz → Quartz) : (s.setQtz g).qtz = g s.qtz := rfl
@[simp] theorem setQtz_vrd (s : State) (g : Quartz → Quartz) : (s.setQtz g).vrd = s.vrd := rfl
@[simp] theorem setQtz_ldg (s : State) (g : Quartz → Quartz) : (s.setQtz g).ldg = s.ldg := rfl
@[simp] theorem setQtz_ktp (s : State) (g : Quartz → Quartz) : (s.setQtz g).ktp = s.ktp := rfl
@[simp] theorem setQtz_cfg (s : State) (g : Quartz → Quartz) : (s.setQtz g).cfg = s.cfg := rfl
@[simp] theorem setQtz_fuses (s : State) (g : Quartz → Quartz) : (s.setQtz g).fuses = s.fuses := rfl
@[simp] theorem setQtz_railsOff (s : State) (g : Quartz → Quartz) : (s.setQtz g).railsOff = s.railsOff := rfl
@[simp] theorem setQtz_supplyOff (s : State) (g : Quartz → Quartz) : (s.setQtz g).supplyOff = s.supplyOff := rfl
@[simp] theorem setQtz_pgr (s : State) (g : Quartz → Quartz) : (s.setQtz g).pgr = s.pgr := rfl
@[simp] theorem setQtz_cores (s : State) (g : Quartz → Quartz) : (s.setQtz g).cores = s.cores := rfl
@[simp] theorem setQtz_warden (s : State) (g : Quartz → Quartz) : (s.setQtz g).warden = s.warden := rfl
@[simp] theorem setQtz_mem (s : State) (g : Quartz → Quartz) : (s.setQtz g).mem = s.mem := rfl
@[simp] theorem setQtz_filled (s : State) (g : Quartz → Quartz) : (s.setQtz g).filled = s.filled := rfl
@[simp] theorem setQtz_wordFlaw (s : State) (g : Quartz → Quartz) : (s.setQtz g).wordFlaw = s.wordFlaw := rfl
@[simp] theorem setQtz_banks (s : State) (g : Quartz → Quartz) : (s.setQtz g).banks = s.banks := rfl
@[simp] theorem setQtz_resv (s : State) (g : Quartz → Quartz) : (s.setQtz g).resv = s.resv := rfl
@[simp] theorem setQtz_dma (s : State) (g : Quartz → Quartz) : (s.setQtz g).dma = s.dma := rfl
@[simp] theorem setQtz_lineFlaw (s : State) (g : Quartz → Quartz) : (s.setQtz g).lineFlaw = s.lineFlaw := rfl
@[simp] theorem setQtz_seals (s : State) (g : Quartz → Quartz) : (s.setQtz g).seals = s.seals := rfl
@[simp] theorem setQtz_chans (s : State) (g : Quartz → Quartz) : (s.setQtz g).chans = s.chans := rfl
@[simp] theorem setQtz_memKeys (s : State) (g : Quartz → Quartz) : (s.setQtz g).memKeys = s.memKeys := rfl
@[simp] theorem setQtz_synths (s : State) (g : Quartz → Quartz) : (s.setQtz g).synths = s.synths := rfl
@[simp] theorem setQtz_cmpRuns (s : State) (g : Quartz → Quartz) : (s.setQtz g).cmpRuns = s.cmpRuns := rfl
@[simp] theorem setQtz_power (s : State) (g : Quartz → Quartz) : (s.setQtz g).power = s.power := rfl
@[simp] theorem setQtz_svc (s : State) (g : Quartz → Quartz) : (s.setQtz g).svc = s.svc := rfl
@[simp] theorem setQtz_evc (s : State) (g : Quartz → Quartz) : (s.setQtz g).evc = s.evc := rfl
@[simp] theorem setQtz_dbg (s : State) (g : Quartz → Quartz) : (s.setQtz g).dbg = s.dbg := rfl
@[simp] theorem setQtz_rd (s : State) (g : Quartz → Quartz) (q : Reg) (j : Nat) : (s.setQtz g).rd q j = s.rd q j := rfl
@[simp] theorem setQtz_get (s : State) (g : Quartz → Quartz) (q : Fld) (j : Nat) : (s.setQtz g).get q j = s.get q j := rfl
@[simp] theorem setQtz_on (s : State) (g : Quartz → Quartz) (q : Fld) (j : Nat) : (s.setQtz g).on q j = s.on q j := rfl

@[simp] theorem setSvc_pending (s : State) (g : Svc → Svc) : (s.setSvc g).pending = s.pending := rfl
@[simp] theorem setSvc_regs (s : State) (g : Svc → Svc) : (s.setSvc g).regs = s.regs := rfl
@[simp] theorem setSvc_free (s : State) (g : Svc → Svc) : (s.setSvc g).free = s.free := rfl
@[simp] theorem setSvc_ans (s : State) (g : Svc → Svc) : (s.setSvc g).ans = s.ans := rfl
@[simp] theorem setSvc_halves (s : State) (g : Svc → Svc) : (s.setSvc g).halves = s.halves := rfl
@[simp] theorem setSvc_tmg (s : State) (g : Svc → Svc) : (s.setSvc g).tmg = s.tmg := rfl
@[simp] theorem setSvc_lanes (s : State) (g : Svc → Svc) : (s.setSvc g).lanes = s.lanes := rfl
@[simp] theorem setSvc_fabric (s : State) (g : Svc → Svc) : (s.setSvc g).fabric = s.fabric := rfl
@[simp] theorem setSvc_brams (s : State) (g : Svc → Svc) : (s.setSvc g).brams = s.brams := rfl
@[simp] theorem setSvc_fifos (s : State) (g : Svc → Svc) : (s.setSvc g).fifos = s.fifos := rfl
@[simp] theorem setSvc_slices (s : State) (g : Svc → Svc) : (s.setSvc g).slices = s.slices := rfl
@[simp] theorem setSvc_rsyAt (s : State) (g : Svc → Svc) : (s.setSvc g).rsyAt = s.rsyAt := rfl
@[simp] theorem setSvc_sand (s : State) (g : Svc → Svc) : (s.setSvc g).sand = s.sand := rfl
@[simp] theorem setSvc_qtz (s : State) (g : Svc → Svc) : (s.setSvc g).qtz = s.qtz := rfl
@[simp] theorem setSvc_vrd (s : State) (g : Svc → Svc) : (s.setSvc g).vrd = s.vrd := rfl
@[simp] theorem setSvc_ldg (s : State) (g : Svc → Svc) : (s.setSvc g).ldg = s.ldg := rfl
@[simp] theorem setSvc_ktp (s : State) (g : Svc → Svc) : (s.setSvc g).ktp = s.ktp := rfl
@[simp] theorem setSvc_cfg (s : State) (g : Svc → Svc) : (s.setSvc g).cfg = s.cfg := rfl
@[simp] theorem setSvc_fuses (s : State) (g : Svc → Svc) : (s.setSvc g).fuses = s.fuses := rfl
@[simp] theorem setSvc_railsOff (s : State) (g : Svc → Svc) : (s.setSvc g).railsOff = s.railsOff := rfl
@[simp] theorem setSvc_supplyOff (s : State) (g : Svc → Svc) : (s.setSvc g).supplyOff = s.supplyOff := rfl
@[simp] theorem setSvc_pgr (s : State) (g : Svc → Svc) : (s.setSvc g).pgr = s.pgr := rfl
@[simp] theorem setSvc_cores (s : State) (g : Svc → Svc) : (s.setSvc g).cores = s.cores := rfl
@[simp] theorem setSvc_warden (s : State) (g : Svc → Svc) : (s.setSvc g).warden = s.warden := rfl
@[simp] theorem setSvc_mem (s : State) (g : Svc → Svc) : (s.setSvc g).mem = s.mem := rfl
@[simp] theorem setSvc_filled (s : State) (g : Svc → Svc) : (s.setSvc g).filled = s.filled := rfl
@[simp] theorem setSvc_wordFlaw (s : State) (g : Svc → Svc) : (s.setSvc g).wordFlaw = s.wordFlaw := rfl
@[simp] theorem setSvc_banks (s : State) (g : Svc → Svc) : (s.setSvc g).banks = s.banks := rfl
@[simp] theorem setSvc_resv (s : State) (g : Svc → Svc) : (s.setSvc g).resv = s.resv := rfl
@[simp] theorem setSvc_dma (s : State) (g : Svc → Svc) : (s.setSvc g).dma = s.dma := rfl
@[simp] theorem setSvc_lineFlaw (s : State) (g : Svc → Svc) : (s.setSvc g).lineFlaw = s.lineFlaw := rfl
@[simp] theorem setSvc_seals (s : State) (g : Svc → Svc) : (s.setSvc g).seals = s.seals := rfl
@[simp] theorem setSvc_chans (s : State) (g : Svc → Svc) : (s.setSvc g).chans = s.chans := rfl
@[simp] theorem setSvc_memKeys (s : State) (g : Svc → Svc) : (s.setSvc g).memKeys = s.memKeys := rfl
@[simp] theorem setSvc_synths (s : State) (g : Svc → Svc) : (s.setSvc g).synths = s.synths := rfl
@[simp] theorem setSvc_cmpRuns (s : State) (g : Svc → Svc) : (s.setSvc g).cmpRuns = s.cmpRuns := rfl
@[simp] theorem setSvc_power (s : State) (g : Svc → Svc) : (s.setSvc g).power = s.power := rfl
@[simp] theorem setSvc_svc (s : State) (g : Svc → Svc) : (s.setSvc g).svc = g s.svc := rfl
@[simp] theorem setSvc_evc (s : State) (g : Svc → Svc) : (s.setSvc g).evc = s.evc := rfl
@[simp] theorem setSvc_dbg (s : State) (g : Svc → Svc) : (s.setSvc g).dbg = s.dbg := rfl
@[simp] theorem setSvc_rd (s : State) (g : Svc → Svc) (q : Reg) (j : Nat) : (s.setSvc g).rd q j = s.rd q j := rfl
@[simp] theorem setSvc_get (s : State) (g : Svc → Svc) (q : Fld) (j : Nat) : (s.setSvc g).get q j = s.get q j := rfl
@[simp] theorem setSvc_on (s : State) (g : Svc → Svc) (q : Fld) (j : Nat) : (s.setSvc g).on q j = s.on q j := rfl

@[simp] theorem setEvc_pending (s : State) (g : Evc → Evc) : (s.setEvc g).pending = s.pending := rfl
@[simp] theorem setEvc_regs (s : State) (g : Evc → Evc) : (s.setEvc g).regs = s.regs := rfl
@[simp] theorem setEvc_free (s : State) (g : Evc → Evc) : (s.setEvc g).free = s.free := rfl
@[simp] theorem setEvc_ans (s : State) (g : Evc → Evc) : (s.setEvc g).ans = s.ans := rfl
@[simp] theorem setEvc_halves (s : State) (g : Evc → Evc) : (s.setEvc g).halves = s.halves := rfl
@[simp] theorem setEvc_tmg (s : State) (g : Evc → Evc) : (s.setEvc g).tmg = s.tmg := rfl
@[simp] theorem setEvc_lanes (s : State) (g : Evc → Evc) : (s.setEvc g).lanes = s.lanes := rfl
@[simp] theorem setEvc_fabric (s : State) (g : Evc → Evc) : (s.setEvc g).fabric = s.fabric := rfl
@[simp] theorem setEvc_brams (s : State) (g : Evc → Evc) : (s.setEvc g).brams = s.brams := rfl
@[simp] theorem setEvc_fifos (s : State) (g : Evc → Evc) : (s.setEvc g).fifos = s.fifos := rfl
@[simp] theorem setEvc_slices (s : State) (g : Evc → Evc) : (s.setEvc g).slices = s.slices := rfl
@[simp] theorem setEvc_rsyAt (s : State) (g : Evc → Evc) : (s.setEvc g).rsyAt = s.rsyAt := rfl
@[simp] theorem setEvc_sand (s : State) (g : Evc → Evc) : (s.setEvc g).sand = s.sand := rfl
@[simp] theorem setEvc_qtz (s : State) (g : Evc → Evc) : (s.setEvc g).qtz = s.qtz := rfl
@[simp] theorem setEvc_vrd (s : State) (g : Evc → Evc) : (s.setEvc g).vrd = s.vrd := rfl
@[simp] theorem setEvc_ldg (s : State) (g : Evc → Evc) : (s.setEvc g).ldg = s.ldg := rfl
@[simp] theorem setEvc_ktp (s : State) (g : Evc → Evc) : (s.setEvc g).ktp = s.ktp := rfl
@[simp] theorem setEvc_cfg (s : State) (g : Evc → Evc) : (s.setEvc g).cfg = s.cfg := rfl
@[simp] theorem setEvc_fuses (s : State) (g : Evc → Evc) : (s.setEvc g).fuses = s.fuses := rfl
@[simp] theorem setEvc_railsOff (s : State) (g : Evc → Evc) : (s.setEvc g).railsOff = s.railsOff := rfl
@[simp] theorem setEvc_supplyOff (s : State) (g : Evc → Evc) : (s.setEvc g).supplyOff = s.supplyOff := rfl
@[simp] theorem setEvc_pgr (s : State) (g : Evc → Evc) : (s.setEvc g).pgr = s.pgr := rfl
@[simp] theorem setEvc_cores (s : State) (g : Evc → Evc) : (s.setEvc g).cores = s.cores := rfl
@[simp] theorem setEvc_warden (s : State) (g : Evc → Evc) : (s.setEvc g).warden = s.warden := rfl
@[simp] theorem setEvc_mem (s : State) (g : Evc → Evc) : (s.setEvc g).mem = s.mem := rfl
@[simp] theorem setEvc_filled (s : State) (g : Evc → Evc) : (s.setEvc g).filled = s.filled := rfl
@[simp] theorem setEvc_wordFlaw (s : State) (g : Evc → Evc) : (s.setEvc g).wordFlaw = s.wordFlaw := rfl
@[simp] theorem setEvc_banks (s : State) (g : Evc → Evc) : (s.setEvc g).banks = s.banks := rfl
@[simp] theorem setEvc_resv (s : State) (g : Evc → Evc) : (s.setEvc g).resv = s.resv := rfl
@[simp] theorem setEvc_dma (s : State) (g : Evc → Evc) : (s.setEvc g).dma = s.dma := rfl
@[simp] theorem setEvc_lineFlaw (s : State) (g : Evc → Evc) : (s.setEvc g).lineFlaw = s.lineFlaw := rfl
@[simp] theorem setEvc_seals (s : State) (g : Evc → Evc) : (s.setEvc g).seals = s.seals := rfl
@[simp] theorem setEvc_chans (s : State) (g : Evc → Evc) : (s.setEvc g).chans = s.chans := rfl
@[simp] theorem setEvc_memKeys (s : State) (g : Evc → Evc) : (s.setEvc g).memKeys = s.memKeys := rfl
@[simp] theorem setEvc_synths (s : State) (g : Evc → Evc) : (s.setEvc g).synths = s.synths := rfl
@[simp] theorem setEvc_cmpRuns (s : State) (g : Evc → Evc) : (s.setEvc g).cmpRuns = s.cmpRuns := rfl
@[simp] theorem setEvc_power (s : State) (g : Evc → Evc) : (s.setEvc g).power = s.power := rfl
@[simp] theorem setEvc_svc (s : State) (g : Evc → Evc) : (s.setEvc g).svc = s.svc := rfl
@[simp] theorem setEvc_evc (s : State) (g : Evc → Evc) : (s.setEvc g).evc = g s.evc := rfl
@[simp] theorem setEvc_dbg (s : State) (g : Evc → Evc) : (s.setEvc g).dbg = s.dbg := rfl
@[simp] theorem setEvc_rd (s : State) (g : Evc → Evc) (q : Reg) (j : Nat) : (s.setEvc g).rd q j = s.rd q j := rfl
@[simp] theorem setEvc_get (s : State) (g : Evc → Evc) (q : Fld) (j : Nat) : (s.setEvc g).get q j = s.get q j := rfl
@[simp] theorem setEvc_on (s : State) (g : Evc → Evc) (q : Fld) (j : Nat) : (s.setEvc g).on q j = s.on q j := rfl

@[simp] theorem setSlice_pending (s : State) (b i : Nat) (x : Slice) : (s.setSlice b i x).pending = s.pending := rfl
@[simp] theorem setSlice_regs (s : State) (b i : Nat) (x : Slice) : (s.setSlice b i x).regs = s.regs := rfl
@[simp] theorem setSlice_free (s : State) (b i : Nat) (x : Slice) : (s.setSlice b i x).free = s.free := rfl
@[simp] theorem setSlice_ans (s : State) (b i : Nat) (x : Slice) : (s.setSlice b i x).ans = s.ans := rfl
@[simp] theorem setSlice_halves (s : State) (b i : Nat) (x : Slice) : (s.setSlice b i x).halves = s.halves := rfl
@[simp] theorem setSlice_tmg (s : State) (b i : Nat) (x : Slice) : (s.setSlice b i x).tmg = s.tmg := rfl
@[simp] theorem setSlice_lanes (s : State) (b i : Nat) (x : Slice) : (s.setSlice b i x).lanes = s.lanes := rfl
@[simp] theorem setSlice_fabric (s : State) (b i : Nat) (x : Slice) : (s.setSlice b i x).fabric = s.fabric := rfl
@[simp] theorem setSlice_brams (s : State) (b i : Nat) (x : Slice) : (s.setSlice b i x).brams = s.brams := rfl
@[simp] theorem setSlice_fifos (s : State) (b i : Nat) (x : Slice) : (s.setSlice b i x).fifos = s.fifos := rfl
@[simp] theorem setSlice_slices (s : State) (b i : Nat) (x : Slice) : (s.setSlice b i x).slices = s.slices.set (b, i) x := rfl
@[simp] theorem setSlice_rsyAt (s : State) (b i : Nat) (x : Slice) : (s.setSlice b i x).rsyAt = s.rsyAt := rfl
@[simp] theorem setSlice_sand (s : State) (b i : Nat) (x : Slice) : (s.setSlice b i x).sand = s.sand := rfl
@[simp] theorem setSlice_qtz (s : State) (b i : Nat) (x : Slice) : (s.setSlice b i x).qtz = s.qtz := rfl
@[simp] theorem setSlice_vrd (s : State) (b i : Nat) (x : Slice) : (s.setSlice b i x).vrd = s.vrd := rfl
@[simp] theorem setSlice_ldg (s : State) (b i : Nat) (x : Slice) : (s.setSlice b i x).ldg = s.ldg := rfl
@[simp] theorem setSlice_ktp (s : State) (b i : Nat) (x : Slice) : (s.setSlice b i x).ktp = s.ktp := rfl
@[simp] theorem setSlice_cfg (s : State) (b i : Nat) (x : Slice) : (s.setSlice b i x).cfg = s.cfg := rfl
@[simp] theorem setSlice_fuses (s : State) (b i : Nat) (x : Slice) : (s.setSlice b i x).fuses = s.fuses := rfl
@[simp] theorem setSlice_railsOff (s : State) (b i : Nat) (x : Slice) : (s.setSlice b i x).railsOff = s.railsOff := rfl
@[simp] theorem setSlice_supplyOff (s : State) (b i : Nat) (x : Slice) : (s.setSlice b i x).supplyOff = s.supplyOff := rfl
@[simp] theorem setSlice_pgr (s : State) (b i : Nat) (x : Slice) : (s.setSlice b i x).pgr = s.pgr := rfl
@[simp] theorem setSlice_cores (s : State) (b i : Nat) (x : Slice) : (s.setSlice b i x).cores = s.cores := rfl
@[simp] theorem setSlice_warden (s : State) (b i : Nat) (x : Slice) : (s.setSlice b i x).warden = s.warden := rfl
@[simp] theorem setSlice_mem (s : State) (b i : Nat) (x : Slice) : (s.setSlice b i x).mem = s.mem := rfl
@[simp] theorem setSlice_filled (s : State) (b i : Nat) (x : Slice) : (s.setSlice b i x).filled = s.filled := rfl
@[simp] theorem setSlice_wordFlaw (s : State) (b i : Nat) (x : Slice) : (s.setSlice b i x).wordFlaw = s.wordFlaw := rfl
@[simp] theorem setSlice_banks (s : State) (b i : Nat) (x : Slice) : (s.setSlice b i x).banks = s.banks := rfl
@[simp] theorem setSlice_resv (s : State) (b i : Nat) (x : Slice) : (s.setSlice b i x).resv = s.resv := rfl
@[simp] theorem setSlice_dma (s : State) (b i : Nat) (x : Slice) : (s.setSlice b i x).dma = s.dma := rfl
@[simp] theorem setSlice_lineFlaw (s : State) (b i : Nat) (x : Slice) : (s.setSlice b i x).lineFlaw = s.lineFlaw := rfl
@[simp] theorem setSlice_seals (s : State) (b i : Nat) (x : Slice) : (s.setSlice b i x).seals = s.seals := rfl
@[simp] theorem setSlice_chans (s : State) (b i : Nat) (x : Slice) : (s.setSlice b i x).chans = s.chans := rfl
@[simp] theorem setSlice_memKeys (s : State) (b i : Nat) (x : Slice) : (s.setSlice b i x).memKeys = s.memKeys := rfl
@[simp] theorem setSlice_synths (s : State) (b i : Nat) (x : Slice) : (s.setSlice b i x).synths = s.synths := rfl
@[simp] theorem setSlice_cmpRuns (s : State) (b i : Nat) (x : Slice) : (s.setSlice b i x).cmpRuns = s.cmpRuns := rfl
@[simp] theorem setSlice_power (s : State) (b i : Nat) (x : Slice) : (s.setSlice b i x).power = s.power := rfl
@[simp] theorem setSlice_svc (s : State) (b i : Nat) (x : Slice) : (s.setSlice b i x).svc = s.svc := rfl
@[simp] theorem setSlice_evc (s : State) (b i : Nat) (x : Slice) : (s.setSlice b i x).evc = s.evc := rfl
@[simp] theorem setSlice_dbg (s : State) (b i : Nat) (x : Slice) : (s.setSlice b i x).dbg = s.dbg := rfl
@[simp] theorem setSlice_rd (s : State) (b i : Nat) (x : Slice) (q : Reg) (j : Nat) : (s.setSlice b i x).rd q j = s.rd q j := rfl
@[simp] theorem setSlice_get (s : State) (b i : Nat) (x : Slice) (q : Fld) (j : Nat) : (s.setSlice b i x).get q j = s.get q j := rfl
@[simp] theorem setSlice_on (s : State) (b i : Nat) (x : Slice) (q : Fld) (j : Nat) : (s.setSlice b i x).on q j = s.on q j := rfl

@[simp] theorem modSlice_pending (s : State) (b i : Nat) (g : Slice → Slice) : (s.modSlice b i g).pending = s.pending := rfl
@[simp] theorem modSlice_regs (s : State) (b i : Nat) (g : Slice → Slice) : (s.modSlice b i g).regs = s.regs := rfl
@[simp] theorem modSlice_free (s : State) (b i : Nat) (g : Slice → Slice) : (s.modSlice b i g).free = s.free := rfl
@[simp] theorem modSlice_ans (s : State) (b i : Nat) (g : Slice → Slice) : (s.modSlice b i g).ans = s.ans := rfl
@[simp] theorem modSlice_halves (s : State) (b i : Nat) (g : Slice → Slice) : (s.modSlice b i g).halves = s.halves := rfl
@[simp] theorem modSlice_tmg (s : State) (b i : Nat) (g : Slice → Slice) : (s.modSlice b i g).tmg = s.tmg := rfl
@[simp] theorem modSlice_lanes (s : State) (b i : Nat) (g : Slice → Slice) : (s.modSlice b i g).lanes = s.lanes := rfl
@[simp] theorem modSlice_fabric (s : State) (b i : Nat) (g : Slice → Slice) : (s.modSlice b i g).fabric = s.fabric := rfl
@[simp] theorem modSlice_brams (s : State) (b i : Nat) (g : Slice → Slice) : (s.modSlice b i g).brams = s.brams := rfl
@[simp] theorem modSlice_fifos (s : State) (b i : Nat) (g : Slice → Slice) : (s.modSlice b i g).fifos = s.fifos := rfl
@[simp] theorem modSlice_slices (s : State) (b i : Nat) (g : Slice → Slice) : (s.modSlice b i g).slices = s.slices.set (b, i) (g (s.slice b i)) := rfl
@[simp] theorem modSlice_rsyAt (s : State) (b i : Nat) (g : Slice → Slice) : (s.modSlice b i g).rsyAt = s.rsyAt := rfl
@[simp] theorem modSlice_sand (s : State) (b i : Nat) (g : Slice → Slice) : (s.modSlice b i g).sand = s.sand := rfl
@[simp] theorem modSlice_qtz (s : State) (b i : Nat) (g : Slice → Slice) : (s.modSlice b i g).qtz = s.qtz := rfl
@[simp] theorem modSlice_vrd (s : State) (b i : Nat) (g : Slice → Slice) : (s.modSlice b i g).vrd = s.vrd := rfl
@[simp] theorem modSlice_ldg (s : State) (b i : Nat) (g : Slice → Slice) : (s.modSlice b i g).ldg = s.ldg := rfl
@[simp] theorem modSlice_ktp (s : State) (b i : Nat) (g : Slice → Slice) : (s.modSlice b i g).ktp = s.ktp := rfl
@[simp] theorem modSlice_cfg (s : State) (b i : Nat) (g : Slice → Slice) : (s.modSlice b i g).cfg = s.cfg := rfl
@[simp] theorem modSlice_fuses (s : State) (b i : Nat) (g : Slice → Slice) : (s.modSlice b i g).fuses = s.fuses := rfl
@[simp] theorem modSlice_railsOff (s : State) (b i : Nat) (g : Slice → Slice) : (s.modSlice b i g).railsOff = s.railsOff := rfl
@[simp] theorem modSlice_supplyOff (s : State) (b i : Nat) (g : Slice → Slice) : (s.modSlice b i g).supplyOff = s.supplyOff := rfl
@[simp] theorem modSlice_pgr (s : State) (b i : Nat) (g : Slice → Slice) : (s.modSlice b i g).pgr = s.pgr := rfl
@[simp] theorem modSlice_cores (s : State) (b i : Nat) (g : Slice → Slice) : (s.modSlice b i g).cores = s.cores := rfl
@[simp] theorem modSlice_warden (s : State) (b i : Nat) (g : Slice → Slice) : (s.modSlice b i g).warden = s.warden := rfl
@[simp] theorem modSlice_mem (s : State) (b i : Nat) (g : Slice → Slice) : (s.modSlice b i g).mem = s.mem := rfl
@[simp] theorem modSlice_filled (s : State) (b i : Nat) (g : Slice → Slice) : (s.modSlice b i g).filled = s.filled := rfl
@[simp] theorem modSlice_wordFlaw (s : State) (b i : Nat) (g : Slice → Slice) : (s.modSlice b i g).wordFlaw = s.wordFlaw := rfl
@[simp] theorem modSlice_banks (s : State) (b i : Nat) (g : Slice → Slice) : (s.modSlice b i g).banks = s.banks := rfl
@[simp] theorem modSlice_resv (s : State) (b i : Nat) (g : Slice → Slice) : (s.modSlice b i g).resv = s.resv := rfl
@[simp] theorem modSlice_dma (s : State) (b i : Nat) (g : Slice → Slice) : (s.modSlice b i g).dma = s.dma := rfl
@[simp] theorem modSlice_lineFlaw (s : State) (b i : Nat) (g : Slice → Slice) : (s.modSlice b i g).lineFlaw = s.lineFlaw := rfl
@[simp] theorem modSlice_seals (s : State) (b i : Nat) (g : Slice → Slice) : (s.modSlice b i g).seals = s.seals := rfl
@[simp] theorem modSlice_chans (s : State) (b i : Nat) (g : Slice → Slice) : (s.modSlice b i g).chans = s.chans := rfl
@[simp] theorem modSlice_memKeys (s : State) (b i : Nat) (g : Slice → Slice) : (s.modSlice b i g).memKeys = s.memKeys := rfl
@[simp] theorem modSlice_synths (s : State) (b i : Nat) (g : Slice → Slice) : (s.modSlice b i g).synths = s.synths := rfl
@[simp] theorem modSlice_cmpRuns (s : State) (b i : Nat) (g : Slice → Slice) : (s.modSlice b i g).cmpRuns = s.cmpRuns := rfl
@[simp] theorem modSlice_power (s : State) (b i : Nat) (g : Slice → Slice) : (s.modSlice b i g).power = s.power := rfl
@[simp] theorem modSlice_svc (s : State) (b i : Nat) (g : Slice → Slice) : (s.modSlice b i g).svc = s.svc := rfl
@[simp] theorem modSlice_evc (s : State) (b i : Nat) (g : Slice → Slice) : (s.modSlice b i g).evc = s.evc := rfl
@[simp] theorem modSlice_dbg (s : State) (b i : Nat) (g : Slice → Slice) : (s.modSlice b i g).dbg = s.dbg := rfl
@[simp] theorem modSlice_rd (s : State) (b i : Nat) (g : Slice → Slice) (q : Reg) (j : Nat) : (s.modSlice b i g).rd q j = s.rd q j := rfl
@[simp] theorem modSlice_get (s : State) (b i : Nat) (g : Slice → Slice) (q : Fld) (j : Nat) : (s.modSlice b i g).get q j = s.get q j := rfl
@[simp] theorem modSlice_on (s : State) (b i : Nat) (g : Slice → Slice) (q : Fld) (j : Nat) : (s.modSlice b i g).on q j = s.on q j := rfl

@[simp] theorem setCfg_pending (s : State) (g : Cfg → Cfg) : (s.setCfg g).pending = s.pending := rfl
@[simp] theorem setCfg_regs (s : State) (g : Cfg → Cfg) : (s.setCfg g).regs = s.regs := rfl
@[simp] theorem setCfg_free (s : State) (g : Cfg → Cfg) : (s.setCfg g).free = s.free := rfl
@[simp] theorem setCfg_ans (s : State) (g : Cfg → Cfg) : (s.setCfg g).ans = s.ans := rfl
@[simp] theorem setCfg_halves (s : State) (g : Cfg → Cfg) : (s.setCfg g).halves = s.halves := rfl
@[simp] theorem setCfg_tmg (s : State) (g : Cfg → Cfg) : (s.setCfg g).tmg = s.tmg := rfl
@[simp] theorem setCfg_lanes (s : State) (g : Cfg → Cfg) : (s.setCfg g).lanes = s.lanes := rfl
@[simp] theorem setCfg_fabric (s : State) (g : Cfg → Cfg) : (s.setCfg g).fabric = s.fabric := rfl
@[simp] theorem setCfg_brams (s : State) (g : Cfg → Cfg) : (s.setCfg g).brams = s.brams := rfl
@[simp] theorem setCfg_fifos (s : State) (g : Cfg → Cfg) : (s.setCfg g).fifos = s.fifos := rfl
@[simp] theorem setCfg_slices (s : State) (g : Cfg → Cfg) : (s.setCfg g).slices = s.slices := rfl
@[simp] theorem setCfg_rsyAt (s : State) (g : Cfg → Cfg) : (s.setCfg g).rsyAt = s.rsyAt := rfl
@[simp] theorem setCfg_sand (s : State) (g : Cfg → Cfg) : (s.setCfg g).sand = s.sand := rfl
@[simp] theorem setCfg_qtz (s : State) (g : Cfg → Cfg) : (s.setCfg g).qtz = s.qtz := rfl
@[simp] theorem setCfg_vrd (s : State) (g : Cfg → Cfg) : (s.setCfg g).vrd = s.vrd := rfl
@[simp] theorem setCfg_ldg (s : State) (g : Cfg → Cfg) : (s.setCfg g).ldg = s.ldg := rfl
@[simp] theorem setCfg_ktp (s : State) (g : Cfg → Cfg) : (s.setCfg g).ktp = s.ktp := rfl
@[simp] theorem setCfg_cfg (s : State) (g : Cfg → Cfg) : (s.setCfg g).cfg = g s.cfg := rfl
@[simp] theorem setCfg_fuses (s : State) (g : Cfg → Cfg) : (s.setCfg g).fuses = s.fuses := rfl
@[simp] theorem setCfg_railsOff (s : State) (g : Cfg → Cfg) : (s.setCfg g).railsOff = s.railsOff := rfl
@[simp] theorem setCfg_supplyOff (s : State) (g : Cfg → Cfg) : (s.setCfg g).supplyOff = s.supplyOff := rfl
@[simp] theorem setCfg_pgr (s : State) (g : Cfg → Cfg) : (s.setCfg g).pgr = s.pgr := rfl
@[simp] theorem setCfg_cores (s : State) (g : Cfg → Cfg) : (s.setCfg g).cores = s.cores := rfl
@[simp] theorem setCfg_warden (s : State) (g : Cfg → Cfg) : (s.setCfg g).warden = s.warden := rfl
@[simp] theorem setCfg_mem (s : State) (g : Cfg → Cfg) : (s.setCfg g).mem = s.mem := rfl
@[simp] theorem setCfg_filled (s : State) (g : Cfg → Cfg) : (s.setCfg g).filled = s.filled := rfl
@[simp] theorem setCfg_wordFlaw (s : State) (g : Cfg → Cfg) : (s.setCfg g).wordFlaw = s.wordFlaw := rfl
@[simp] theorem setCfg_banks (s : State) (g : Cfg → Cfg) : (s.setCfg g).banks = s.banks := rfl
@[simp] theorem setCfg_resv (s : State) (g : Cfg → Cfg) : (s.setCfg g).resv = s.resv := rfl
@[simp] theorem setCfg_dma (s : State) (g : Cfg → Cfg) : (s.setCfg g).dma = s.dma := rfl
@[simp] theorem setCfg_lineFlaw (s : State) (g : Cfg → Cfg) : (s.setCfg g).lineFlaw = s.lineFlaw := rfl
@[simp] theorem setCfg_seals (s : State) (g : Cfg → Cfg) : (s.setCfg g).seals = s.seals := rfl
@[simp] theorem setCfg_chans (s : State) (g : Cfg → Cfg) : (s.setCfg g).chans = s.chans := rfl
@[simp] theorem setCfg_memKeys (s : State) (g : Cfg → Cfg) : (s.setCfg g).memKeys = s.memKeys := rfl
@[simp] theorem setCfg_synths (s : State) (g : Cfg → Cfg) : (s.setCfg g).synths = s.synths := rfl
@[simp] theorem setCfg_cmpRuns (s : State) (g : Cfg → Cfg) : (s.setCfg g).cmpRuns = s.cmpRuns := rfl
@[simp] theorem setCfg_power (s : State) (g : Cfg → Cfg) : (s.setCfg g).power = s.power := rfl
@[simp] theorem setCfg_svc (s : State) (g : Cfg → Cfg) : (s.setCfg g).svc = s.svc := rfl
@[simp] theorem setCfg_evc (s : State) (g : Cfg → Cfg) : (s.setCfg g).evc = s.evc := rfl
@[simp] theorem setCfg_dbg (s : State) (g : Cfg → Cfg) : (s.setCfg g).dbg = s.dbg := rfl
@[simp] theorem setCfg_rd (s : State) (g : Cfg → Cfg) (q : Reg) (j : Nat) : (s.setCfg g).rd q j = s.rd q j := rfl
@[simp] theorem setCfg_get (s : State) (g : Cfg → Cfg) (q : Fld) (j : Nat) : (s.setCfg g).get q j = s.get q j := rfl
@[simp] theorem setCfg_on (s : State) (g : Cfg → Cfg) (q : Fld) (j : Nat) : (s.setCfg g).on q j = s.on q j := rfl

@[simp] theorem setVrd_pending (s : State) (g : Verdict → Verdict) : (s.setVrd g).pending = s.pending := rfl
@[simp] theorem setVrd_regs (s : State) (g : Verdict → Verdict) : (s.setVrd g).regs = s.regs := rfl
@[simp] theorem setVrd_free (s : State) (g : Verdict → Verdict) : (s.setVrd g).free = s.free := rfl
@[simp] theorem setVrd_ans (s : State) (g : Verdict → Verdict) : (s.setVrd g).ans = s.ans := rfl
@[simp] theorem setVrd_halves (s : State) (g : Verdict → Verdict) : (s.setVrd g).halves = s.halves := rfl
@[simp] theorem setVrd_tmg (s : State) (g : Verdict → Verdict) : (s.setVrd g).tmg = s.tmg := rfl
@[simp] theorem setVrd_lanes (s : State) (g : Verdict → Verdict) : (s.setVrd g).lanes = s.lanes := rfl
@[simp] theorem setVrd_fabric (s : State) (g : Verdict → Verdict) : (s.setVrd g).fabric = s.fabric := rfl
@[simp] theorem setVrd_brams (s : State) (g : Verdict → Verdict) : (s.setVrd g).brams = s.brams := rfl
@[simp] theorem setVrd_fifos (s : State) (g : Verdict → Verdict) : (s.setVrd g).fifos = s.fifos := rfl
@[simp] theorem setVrd_slices (s : State) (g : Verdict → Verdict) : (s.setVrd g).slices = s.slices := rfl
@[simp] theorem setVrd_rsyAt (s : State) (g : Verdict → Verdict) : (s.setVrd g).rsyAt = s.rsyAt := rfl
@[simp] theorem setVrd_sand (s : State) (g : Verdict → Verdict) : (s.setVrd g).sand = s.sand := rfl
@[simp] theorem setVrd_qtz (s : State) (g : Verdict → Verdict) : (s.setVrd g).qtz = s.qtz := rfl
@[simp] theorem setVrd_vrd (s : State) (g : Verdict → Verdict) : (s.setVrd g).vrd = g s.vrd := rfl
@[simp] theorem setVrd_ldg (s : State) (g : Verdict → Verdict) : (s.setVrd g).ldg = s.ldg := rfl
@[simp] theorem setVrd_ktp (s : State) (g : Verdict → Verdict) : (s.setVrd g).ktp = s.ktp := rfl
@[simp] theorem setVrd_cfg (s : State) (g : Verdict → Verdict) : (s.setVrd g).cfg = s.cfg := rfl
@[simp] theorem setVrd_fuses (s : State) (g : Verdict → Verdict) : (s.setVrd g).fuses = s.fuses := rfl
@[simp] theorem setVrd_railsOff (s : State) (g : Verdict → Verdict) : (s.setVrd g).railsOff = s.railsOff := rfl
@[simp] theorem setVrd_supplyOff (s : State) (g : Verdict → Verdict) : (s.setVrd g).supplyOff = s.supplyOff := rfl
@[simp] theorem setVrd_pgr (s : State) (g : Verdict → Verdict) : (s.setVrd g).pgr = s.pgr := rfl
@[simp] theorem setVrd_cores (s : State) (g : Verdict → Verdict) : (s.setVrd g).cores = s.cores := rfl
@[simp] theorem setVrd_warden (s : State) (g : Verdict → Verdict) : (s.setVrd g).warden = s.warden := rfl
@[simp] theorem setVrd_mem (s : State) (g : Verdict → Verdict) : (s.setVrd g).mem = s.mem := rfl
@[simp] theorem setVrd_filled (s : State) (g : Verdict → Verdict) : (s.setVrd g).filled = s.filled := rfl
@[simp] theorem setVrd_wordFlaw (s : State) (g : Verdict → Verdict) : (s.setVrd g).wordFlaw = s.wordFlaw := rfl
@[simp] theorem setVrd_banks (s : State) (g : Verdict → Verdict) : (s.setVrd g).banks = s.banks := rfl
@[simp] theorem setVrd_resv (s : State) (g : Verdict → Verdict) : (s.setVrd g).resv = s.resv := rfl
@[simp] theorem setVrd_dma (s : State) (g : Verdict → Verdict) : (s.setVrd g).dma = s.dma := rfl
@[simp] theorem setVrd_lineFlaw (s : State) (g : Verdict → Verdict) : (s.setVrd g).lineFlaw = s.lineFlaw := rfl
@[simp] theorem setVrd_seals (s : State) (g : Verdict → Verdict) : (s.setVrd g).seals = s.seals := rfl
@[simp] theorem setVrd_chans (s : State) (g : Verdict → Verdict) : (s.setVrd g).chans = s.chans := rfl
@[simp] theorem setVrd_memKeys (s : State) (g : Verdict → Verdict) : (s.setVrd g).memKeys = s.memKeys := rfl
@[simp] theorem setVrd_synths (s : State) (g : Verdict → Verdict) : (s.setVrd g).synths = s.synths := rfl
@[simp] theorem setVrd_cmpRuns (s : State) (g : Verdict → Verdict) : (s.setVrd g).cmpRuns = s.cmpRuns := rfl
@[simp] theorem setVrd_power (s : State) (g : Verdict → Verdict) : (s.setVrd g).power = s.power := rfl
@[simp] theorem setVrd_svc (s : State) (g : Verdict → Verdict) : (s.setVrd g).svc = s.svc := rfl
@[simp] theorem setVrd_evc (s : State) (g : Verdict → Verdict) : (s.setVrd g).evc = s.evc := rfl
@[simp] theorem setVrd_dbg (s : State) (g : Verdict → Verdict) : (s.setVrd g).dbg = s.dbg := rfl
@[simp] theorem setVrd_rd (s : State) (g : Verdict → Verdict) (q : Reg) (j : Nat) : (s.setVrd g).rd q j = s.rd q j := rfl
@[simp] theorem setVrd_get (s : State) (g : Verdict → Verdict) (q : Fld) (j : Nat) : (s.setVrd g).get q j = s.get q j := rfl
@[simp] theorem setVrd_on (s : State) (g : Verdict → Verdict) (q : Fld) (j : Nat) : (s.setVrd g).on q j = s.on q j := rfl

end Sys2Proof.Machine.State
end

