-- ==== Sys2Proof/Tests/Slice0.lean ====
section
/-! SUPPORT. Tests: ill-formed commands are refused by the checks, commands give what the manual's own examples give, and
states that meet the hypotheses of the statements. -/

namespace Sys2Proof.Tests
open Sys2Proof Sys2Proof.Machine
set_option Elab.async false

/-- The reset state with fields set. -/
def at_ (l : List (Fld × Nat × Nat)) : State := l.foldl (fun s e => s.put e.1 e.2.1 e.2.2) State.reset

/-- The state after a command. -/
def run (c : Instr) (s : State) : State := after (exec c s) s

/-! Ill-formed commands, one for each check of WellFormed. -/

def okReq : SandReq := { ini := 0x48, op := .read, addr := 0x1000, len := 7, priv := 2 }

theorem wf_okReq : okReq.wf = true := by decide
theorem wf_register_write_reserved_initiator : (Instr.registerWrite 0x4E 0 .b4 0 {}).wf = false := by decide
theorem wf_register_read_reserved_initiator : (Instr.rcRegisterRead 0x4F 0 .b4 false {}).wf = false := by decide
theorem wf_sand_reserved_initiator : (Instr.sandRequest { okReq with ini := 0x4E, priv := 3 } {}).wf = false := by decide
theorem wf_sand_core_privilege : (Instr.sandRequest { okReq with priv := 3 } {}).wf = false := by decide
theorem wf_sand_other_privilege : (Instr.sandRequest { okReq with ini := 0x50, priv := 2 } {}).wf = false := by decide
theorem wf_sand_crosses_4k : (Instr.sandRequest { okReq with addr := 0x1FFC } {}).wf = false := by decide
theorem wf_sand_read_with_data : (Instr.sandRequest { okReq with data := [1] } {}).wf = false := by decide
theorem wf_sand_write_short : (Instr.sandInjection { okReq with op := .write, data := [1] } 0).wf = false := by decide
theorem wf_sand_poison_outside :
    (Instr.sandInjection { okReq with op := .write, len := 0, data := [1], poison := [1] } 0).wf = false := by decide

def okRsp : SandRsp := { ini := 0x48, tag := 0, gen := 0, addr := 0x1000, resp := .okay, len := 1, data := [1, 2] }

theorem wf_okRsp : okRsp.wf = true := by decide
theorem wf_sand_response_initiator : (Instr.sandResponse { okRsp with ini := 0x4E }).wf = false := by decide
theorem wf_sand_response_poison : (Instr.sandResponse { okRsp with poison := [1] }).wf = false := by decide
theorem wf_sand_response_write_data : (Instr.sandResponse { okRsp with write := true }).wf = false := by decide
theorem wf_sand_response_error_data : (Instr.sandResponse { okRsp with resp := .denied }).wf = false := by decide
theorem wf_sand_response_short : (Instr.sandResponse { okRsp with data := [1] }).wf = false := by decide
theorem wf_sand_timeout_initiator : (Instr.sandTimeout 0x4F 0).wf = false := by decide
theorem wf_rate_initiator : (Instr.nocRateWrite 0x4E 0).wf = false := by decide
theorem wf_access_point_other_bay :
    (Instr.accessPointInject 3 { okReq with ini := 4, priv := 3 } 0).wf = false := by decide
theorem wf_window_empty : (Instr.windowRead ⟨0x40, 1, 0, 0, 0, []⟩ .none).wf = false := by decide
theorem wf_window_too_long : (Instr.windowRead ⟨0x40, 1, 0, 0, 4097, []⟩ .none).wf = false := by decide
theorem wf_window_write_without_bytes : (Instr.windowWrite ⟨0x40, 1, 0, 0, 2, [1]⟩ .none).wf = false := by decide
theorem wf_window_privilege : (Instr.windowRead ⟨0x50, 1, 0, 0, 4, []⟩ .none).wf = false := by decide
theorem wf_fragment_initiator : (Instr.fragment 0x4E 0 false false []).wf = false := by decide
theorem wf_fragment_too_long : (Instr.fragment 3 0 false false (List.replicate 4097 0)).wf = false := by decide +kernel
theorem wf_packet_too_long : (Instr.ack { port := 0, headers := List.replicate 57 0 }).wf = false := by decide
theorem wf_image_header_short : (Instr.imageHeader [0x4B]).wf = false := by decide
theorem wf_fetch_error_okay : (Instr.add ⟨0, .err .okay⟩ 1 2 3).wf = false := by decide
theorem wf_fetch_error_uncorrectable : (Instr.wfi ⟨8, .err .uncorrectable⟩).wf = false := by decide
theorem wf_scratchpad_read_is_write :
    (Instr.scratchpadRead { okReq with op := .write, len := 0, data := [0] } {}).wf = false := by decide
theorem wf_scratchpad_write_is_read : (Instr.scratchpadWrite okReq {}).wf = false := by decide
theorem wf_dma_halt_okay : (Instr.dmaHalt 0 0 .okay false).wf = false := by decide
theorem wf_region_initiator : (Instr.meeRegionEnable 0 0 0x4E).wf = false := by decide
theorem wf_gate_initiator : (Instr.gateWrite .top 0 0x4F).wf = false := by decide
theorem wf_pin_initiator : (Instr.pinFunctionSwitch 0 0 0x4E).wf = false := by decide
theorem wf_stimulus_three_bytes : (Instr.stimulusStore 0 0 [1, 2, 3]).wf = false := by decide

/-! States that meet the hypotheses of the statements: the machine as a whole, and the timing port (02). -/

/-- A frame with the check that its command and fragment call for (02 R57). -/
def frameOf (cmd : Byte) (frag : BitVec 18) : W40 :=
  let f : W40 := BitVec.ofNat 40 (0b110100 * 2 ^ 34 + cmd.toNat * 2 ^ 26 + frag.toNat * 2 ^ 8)
  f ||| (tmgCheck f).setWidth 40

/-- Mailbox 2 asks for the revocation of slot 1. -/
def askRevoke : State := (at_ [(F.KEY_REQ_CTRL_CODE, 2, 0x0B), (F.KEY_REQ_STATUS_BUSY, 2, 1)]).wr R.KEY_REQ_ARG 8 1

theorem witness_RevocationIsPermanent :
    askRevoke.boxNext = some 2 ∧ askRevoke.get F.KEY_REQ_CTRL_CODE 2 = 0x0B ∧ (askRevoke.boxArg 2 0).toNat = 1 ∧
    1 ∈ askRevoke.authSlots ∧ askRevoke.authSlots ≠ [1] ∧
    { askRevoke with fuses := { authRevoked := 0b1101 } }.authSlots = [1] := by decide +kernel

theorem witness_StepRunsTheFrontCommand : { State.reset with pending := [Instr.nop] }.pending = .nop :: [] ∧
    State.reset.pending = [] := by decide

theorem witness_MemoryStaysCanonical : step State.reset = .next State.reset ∧ State.reset.memWf = true ∧ State.reset.mergeHome ∧
    State.reset.queueWf := by
  refine ⟨rfl, rfl, fun b e h => ?_, fun c h => ?_⟩ <;> cases h

/-- Timing port on, frame locked. -/
def locked : State := at_ [(F.TMG_CTRL_EN, 0, 1), (F.TMG_STATUS_CDR_LOCK, 0, 1), (F.TMG_STATUS_FRAME_LOCK, 0, 1)]

theorem witness_TimingFrameLock_lock :
    let s := at_ [(F.TMG_CTRL_EN, 0, 1), (F.TMG_STATUS_CDR_LOCK, 0, 1)]
    (∀ f ∈ List.replicate 64 (frameOf 0 0), f.toNat / 2 ^ 34 = 0b110100 ∧ tmgCheck f = BitVec.ofNat 8 f.toNat) ∧
    s.on F.TMG_CTRL_EN = true ∧ s.on F.TMG_STATUS_CDR_LOCK = true ∧ s.on F.TMG_STATUS_FRAME_LOCK = false ∧ s.tmg.good = 0 ∧
    (List.replicate 64 (frameOf 0 0)).length ≤ 64 := by
  refine ⟨fun f h => ?_, by decide +kernel, by decide +kernel, by decide +kernel, by decide +kernel, by simp⟩
  rw [List.eq_of_mem_replicate h]; decide +kernel

theorem witness_TimingFrameLock_loss :
    (∀ f ∈ List.replicate 4 (0 : W40), f.toNat / 2 ^ 34 ≠ 0b110100) ∧ locked.on F.TMG_CTRL_EN = true ∧
    locked.on F.TMG_STATUS_FRAME_LOCK = true ∧ locked.tmg.bad = 0 ∧ (List.replicate 4 (0 : W40)).length ≤ 4 := by
  refine ⟨fun f h => ?_, by decide +kernel, by decide +kernel, by decide +kernel, by simp⟩
  rw [List.eq_of_mem_replicate h]; decide +kernel

theorem witness_TimingFrameLock_events :
    locked.on F.TMG_CTRL_EN = true ∧ locked.on F.TMG_STATUS_FRAME_LOCK = true ∧ locked.boundariesRun = false ∧
    let s := { locked.put F.TMG_STATUS_HOLDOVER 0 1 with tmg := { step := true } }
    s.on F.TMG_STATUS_HOLDOVER = true ∧ s.on F.TMG_STATUS_FRAME_LOCK = true ∧ s.tmg.step = true := by decide +kernel

theorem witness_TimingFrameHeld :
    locked.on F.TMG_CTRL_EN = true ∧ locked.on F.TMG_STATUS_CDR_LOCK = true ∧ locked.on F.TMG_STATUS_FRAME_LOCK = true ∧
    (frameOf 2 0).toNat / 2 ^ 34 = 0b110100 ∧ tmgCheck (frameOf 2 0) = BitVec.ofNat 8 (frameOf 2 0).toNat ∧
    (frameOf 2 0 ^^^ 1).toNat / 2 ^ 34 = 0b110100 ∧ tmgCheck (frameOf 2 0 ^^^ 1) ≠ BitVec.ofNat 8 (frameOf 2 0 ^^^ 1).toNat := by
  decide +kernel

theorem witness_TimingLatencyContract : locked.on F.TMG_STATUS_LAT_VALID = locked.latNow := by decide +kernel

/-- A running port in whose boundary the commands of a list are due. -/
def dueOf (l : List Byte) : State :=
  { locked.put F.TMG_STATUS_QTZ_LOCK 0 1 with tmg := { due := l } }

theorem witness_TimingBoundary :
    (takeDue (· == 0) (dueOf [0])).isSome ∧ (takeDue (· == 5) (dueOf [5])).isSome ∧ (takeDue (· == 6) (dueOf [6])).isSome ∧
    (takeDue (0x80 ≤ ·) (dueOf [0x80])).isSome ∧ (takeDue (fun c => 9 ≤ c && c < 0x80) (dueOf [9])).isSome ∧
    (takeDue (fun c => 9 ≤ c && c < 0x80) (dueOf [0x7F])).isSome ∧
    (takeDue (· == 7) (dueOf [7])).isSome ∧ (takeDue (· == 8) (dueOf [7, 8])).isNone ∧ (takeDue (· == 8) (dueOf [8])).isSome ∧
    (takeDue (· == 2) (dueOf [2])).isSome ∧ (takeDue (· == 1) (dueOf [0, 1])).isSome ∧ (takeDue (· == 3) (dueOf [3, 4])).isSome ∧
    (takeDue (· == 4) (dueOf [4])).isSome ∧ (dueOf []).boundariesRun = true ∧ (dueOf []).power.asleep = false ∧
    (dueOf []).tmg.due = [] := by decide +kernel

/-- A port with completed messages and a queue. -/
def msgsOf (m : List MsgOut) (q : List (List W16)) : State := { locked with tmg := { msgs := m, queue := q } }

theorem witness_TimingMessages :
    (msgsOf [.preset 7] []).tmg.msgs = .preset 7 :: [] ∧ (msgsOf [.queue [0x8000]] []).tmg.msgs = .queue [0x8000] :: [] ∧
    (msgsOf [.queue [0x8000]] (List.replicate 15 [1])).tmg.queue.length < 16 ∧
    16 ≤ (msgsOf [.queue [0x8000]] (List.replicate 16 [1])).tmg.queue.length ∧ (msgsOf [.drop] []).tmg.msgs = .drop :: [] ∧
    (msgsOf [] []).tmg.queue = [] ∧ (msgsOf [] [[1]]).tmg.queue = [1] :: [] ∧ (msgsOf [] [[1, 2]]).tmg.queue = (1 :: 2 :: []) :: [] := by
  decide +kernel

theorem witness_TimingEnable :
    let s := at_ [(F.TMG_FREQ_KHZ, 0, 40000), (F.TMG_QUARTZ_N, 0, 32)]
    (10000 ≤ s.get F.TMG_FREQ_KHZ ∧ s.get F.TMG_FREQ_KHZ ≤ 100000 ∧ 12 ≤ s.get F.TMG_QUARTZ_N ∧ s.get F.TMG_QUARTZ_N ≤ 128 ∧
      1200000 ≤ s.get F.TMG_QUARTZ_N * s.get F.TMG_FREQ_KHZ ∧ s.get F.TMG_QUARTZ_N * s.get F.TMG_FREQ_KHZ ≤ 1600000) ∧
    let u := at_ [(F.TMG_FREQ_KHZ, 0, 9999), (F.TMG_QUARTZ_N, 0, 128)]
    ¬ 10000 ≤ u.get F.TMG_FREQ_KHZ ∧ locked.on F.TMG_CTRL_EN = true ∧ s.on F.TMG_CTRL_EN = false := by decide +kernel

/-! Serial lanes (03). -/

/-- Lane 5 enabled, locked and powered, with PCS mode `p`. -/
def laneOn (p : Nat) (l : List (Fld × Nat × Nat)) : State :=
  at_ ([(F.LNE_LANE_CTRL_EN, 5, 1), (F.LNE_LANE_CTRL_PCS, 5, p), (F.LNE_LANE_STATUS_CDR_LOCK, 5, 1), (F.LNE_LANE_STATUS_BLOCK_LOCK, 5, 1),
    (F.LNE_QPLL_STATUS_LOCK, 1, 1), (F.PWR_DOM_STATE_ON, 2, 0xFFFFFFFF), (F.LNE_QPLL_EN, 1, 1)] ++ l)

theorem witness_LaneWords_receive :
    (laneOn 0 []).receiving 5 = true ∧ (laneOn 0 []).get F.LNE_PRBS_CHK 5 = 0 ∧ (laneOn 0 []).get F.LNE_LANE_CTRL_PCS 5 = 0 ∧
    (laneOn 2 []).receiving 5 = true ∧ (laneOn 2 []).get F.LNE_LANE_CTRL_PCS 5 = 2 ∧
    (laneOn 2 []).on F.LNE_LANE_STATUS_BLOCK_LOCK 5 = true ∧ ((false :: ((laneOn 2 []).lane 5).window).take 64).count true < 16 ∧
    (laneOn 1 []).receiving 5 = true ∧ (laneOn 1 []).get F.LNE_LANE_CTRL_PCS 5 = 1 ∧
    (laneOn 1 []).on F.LNE_LANE_STATUS_BLOCK_LOCK 5 = true ∧ (laneOn 2 []).fromPins 5 = true ∧ (laneOn 1 []).fromPins 5 = true ∧
    ((false :: ((laneOn 1 []).lane 5).window).take 64).count true < 16 ∧
    (laneOn 2 []).get F.LNE_LANE_CTRL_LOOPBACK 5 = 0 ∧ (laneOn 2 []).received 5 ⟨1, 7⟩ = some ⟨1, 7⟩ ∧
    (laneOn 2 []).on F.LNE_LANE_STATUS_DESKEWED 5 = false := by decide +kernel

/-- A training block's payload whose check is right. -/
def okBody : BitVec 56 :=
  let p : W64 := 0xA5
  BitVec.ofNat 56 ((ctlCheck p).toNat * 2 ^ 48)

theorem witness_LaneWords_training :
    let p : W64 := BitVec.ofNat 64 (okBody.toNat * 256 + 0xA5)
    ctlCheck p = BitVec.ofNat 8 (p.toNat / 2 ^ 56) ∧ bits p.toNat 34 22 = 0 ∧
    let q : W64 := BitVec.ofNat 64 ((okBody ^^^ (1 <<< 48)).toNat * 256 + 0xA5)
    ctlCheck q ≠ BitVec.ofNat 8 (q.toNat / 2 ^ 56) := by decide +kernel

theorem witness_LaneWords_transmit :
    State.reset.driving 5 = false ∧ (laneOn 0 []).driving 5 = true ∧ (laneOn 0 []).get F.LNE_PRBS_GEN 5 = 0 ∧
    (laneOn 0 []).get F.LNE_LANE_CTRL_LOOPBACK 5 ≠ 3 ∧ (laneOn 0 []).get F.LNE_LANE_CTRL_PCS 5 ≠ 2 ∧
    (laneOn 0 []).on F.LNE_LANE_CTRL_TX_INV 5 = false ∧ (laneOn 2 []).driving 5 = true ∧
    (laneOn 2 [(F.LNE_LANE_CTRL_SCRAMBLE, 5, 0)]).on F.LNE_LANE_CTRL_SCRAMBLE 5 = false ∧
    ¬ max 1 ((laneOn 2 []).get F.LNE_EQ_INTERVAL 5) ≤ ((laneOn 2 []).lane 5).since ∧
    (let s := (laneOn 2 []).modLane 5 fun l => { l with since := 2 ^ 40 };
     max 1 (s.get F.LNE_EQ_INTERVAL 5) ≤ (s.lane 5).since) ∧
    (let s := laneOn 1 [(F.LNE_XBAR_EN, 5, 1), (F.FEN_FENCED_BAYS, 0, 0)]; s.openBay 5 = true ∧ kGood 0x01BC 1 = true) := by decide +kernel

theorem witness_LaneTapLimits :
    bit 64 6 = true ∧ (let s := (laneOn 2 [(F.LNE_EQ_REMOTE_EN, 5, 1)]).modLane 5 fun l => { l with pendingReq := some 1 };
      (s.lane 5).pendingReq = some 1 ∧ s.on F.LNE_EQ_REMOTE_EN 5 = true) := by decide +kernel

theorem witness_LaneControl_writes :
    (laneOn 0 []).domOn (laneDom 5) = true ∧ (let s := laneOn 0 [(F.LNE_LANE_CTRL_EN, 5, 0)];
      bit (s.rd R.LNE_LANE_CTRL 5).toNat 0 = false ∧ bit (1 : W32).toNat 0 = true ∧ laneReserved (1 : W32).toNat = false ∧
      bit (1 : W32).toNat 6 = false) ∧
    (bit ((laneOn 0 []).rd R.LNE_LANE_CTRL 5).toNat 0 = true ∧
      laneFrozen (5 : W32).toNat ≠ laneFrozen ((laneOn 0 []).rd R.LNE_LANE_CTRL 5).toNat) ∧
    (laneOn 0 []).on F.LNE_BITSLIP_BUSY 5 = false ∧ (laneOn 0 [(F.LNE_BITSLIP_BUSY, 5, 1)]).on F.LNE_BITSLIP_BUSY 5 = true ∧
    (let s := laneOn 2 [(F.LNE_EQ_TRAIN_EN, 5, 1)];
      s.on F.LNE_LANE_CTRL_EN 5 = true ∧ s.on F.LNE_EQ_TRAIN_EN 5 = true ∧ s.get F.LNE_LANE_CTRL_PCS 5 = 2) ∧
    State.reset.domOn (laneDom 5) = false ∧
    (let s := at_ [(F.LNE_XBAR_EN, 6, 1), (F.LNE_XBAR_BAY, 6, 6), (F.LNE_XBAR_PORT, 6, 1)];
      bit (0x96 : W32).toNat 7 = true ∧ 6 / 48 = 5 / 48 ∧ s.on F.LNE_XBAR_EN 6 = true ∧
      s.get F.LNE_XBAR_BAY 6 = bits (0x96 : W32).toNat 0 4 ∧ s.get F.LNE_XBAR_PORT 6 = bits (0x96 : W32).toNat 4 3) := by decide +kernel

theorem witness_LaneControl_events :
    (laneOn 0 []).pllOn 1 = true ∧ ((laneOn 0 []).on F.LNE_QPLL_STATUS_LOCK 1 = true) ∧ (laneOn 0 []).driving 5 = true ∧
    (laneOn 0 [(F.LNE_LANE_STATUS_BLOCK_LOCK, 5, 0)]).on F.LNE_LANE_STATUS_BLOCK_LOCK 5 = false ∧
    (laneOn 0 [(F.LNE_PRBS_CHK, 5, 1), (F.LNE_PRBS_LOCK, 5, 1)]).on F.LNE_PRBS_LOCK 5 = true ∧
    (let s := (laneOn 2 [(F.LNE_LANE_STATUS_TRAINING, 5, 1)]).modLane 5 fun l => { l with ended := true, target := some 2 };
      s.on F.LNE_LANE_STATUS_TRAINING 5 = true ∧ (s.lane 5).ended = true ∧ (s.lane 5).target = some 2 ∧ (s.lane 5).queued = none) ∧
    (let s := (laneOn 2 [(F.LNE_LANE_STATUS_TRAINING, 5, 1)]).modLane 5 fun l => { l with respWaited := true, echoWaited := true };
      (s.lane 5).ended = false ∧ (s.lane 5).heard = false ∧ (s.lane 5).respWaited = true ∧ (s.lane 5).echoWaited = true) ∧
    (laneOn 0 [(F.LNE_QPLL_M, 1, 100)]).pllOn 1 = true ∧ (laneOn 0 [(F.LNE_QPLL_M, 1, 100)]).pllRangeOk 1 100000 = true ∧ (laneOn 0 []).laneSupply = true ∧
    { laneOn 0 [] with supplyOff := [.vttLane09] }.laneSupply = false ∧
    (let s := (laneOn 0 [(F.LNE_PRBS_CHK, 5, 1)]).modLane 5 fun l => { l with clean := 1024 };
      s.get F.LNE_PRBS_CHK 5 ≠ 0 ∧ s.on F.LNE_PRBS_LOCK 5 = false ∧ 1024 ≤ (s.lane 5).clean) ∧
    (let s := (laneOn 0 [(F.LNE_PRBS_CHK, 5, 1), (F.LNE_PRBS_LOCK, 5, 1)]).modLane 5 fun l => { l with lossMet := true };
      s.on F.LNE_PRBS_LOCK 5 = true ∧ (s.lane 5).lossMet = true) ∧
    ((laneOn 0 []).lane 5).clean < 1024 ∧
    (let s := (laneOn 2 [(F.LNE_EQ_REMOTE_EN, 5, 1)]).modLane 5 fun l => { l with pendingReq := some 1, target := some 1, queued := some 0 };
      (s.lane 5).pendingReq = some 1 ∧ s.on F.LNE_EQ_REMOTE_EN 5 = true ∧ (s.lane 5).target = some 1 ∧ (s.lane 5).queued = some 0) ∧
    (laneReserved ((laneOn 0 []).rd R.LNE_LANE_CTRL 5).toNat = false ∧ (laneOn 0 []).on F.LNE_LANE_CTRL_XLOCK 5 = false) := by
  decide +kernel

/-! Fabric, block memories and FIFOs (04, 05). -/

theorem witness_FramesAndFabricResets :
    (∃ a, a ∈ bayWindow 63) ∧ State.reset.frstWanted 1 2 .startup = true ∧
    (let s : State := { State.reset with fabric := { hold := false } };
      s.fabric.hold = false ∧ s.frstSrc 1 2 ≠ .software) ∧
    { State.reset with fabric := { src := [((1, 2), .pin)] } }.frstSrc 1 2 = .pin ∧
    (let s : State := { at_ [(F.CFG_FRST_ASSERT, 0, 64)] with fabric := { src := [((1, 2), .software)] } };
      s.frstSrc 1 2 = .software ∧ bit (s.get F.CFG_FRST_ASSERT) (1 * 4 + 2) = true) ∧
    ({ State.reset with fabric := { bankOff := [3] } } : State).fabric.bankOff = [3] := by
  refine ⟨⟨_, List.mem_of_getElem? (i := 0) (a := (bayWindow 63)[0]'(by decide +kernel)) (by simp)⟩, ?_, ?_, ?_, ?_, ?_⟩ <;> decide +kernel

/-- Block 0 of a powered, unfenced bay whose clock runs. -/
def blk : BlockId := ⟨0, 0, 8, 0⟩
def blkOn : State := at_ [(F.FEN_FENCED_BAYS, 0, 0), (F.PWR_DOM_STATE_ON, 0, 0xFFFFFFFF), (F.CKG_EFF_BAY_BAYS, 0, 1)]
/-- The same block in FIFO mode with the flip-flops `f`. -/
def fifoOn (f : Fifo) : State :=
  { blkOn with fabric := { logic := [(0, { blocks := [((0, 8, 0), { fifo := true })] })] } }.setFifo blk f

theorem witness_BlockMemory :
    blkOn.ramActs blk = true ∧ (blkOn.blockCfg blk true).width = (blkOn.blockCfg blk false).width ∧
    (blkOn.bram blk).flaws.get .none (entryPlace {} 0).1 ≠ .double ∧
    (1 : BitVec 13).toNat % cfgDepth {} ≠ (0 : BitVec 13).toNat % cfgDepth {} ∧
    (let s := blkOn.setBram blk { flaws := [(0, .single), (1, .double)] };
      s.ramActs blk = true ∧ (s.bram blk).flaws.get .none 0 = .single ∧ (s.bram blk).flaws.get .none 1 = .double ∧
      (1 : Byte) ≠ 0 ∧ (1 : Byte).toNat % 2 ^ cfgBytes {} * 2 ^ (0 / 8) ≠ 255) ∧
    State.reset.ramActs blk = false ∧
    (let s := blkOn.setBram blk (({} : Bram).setPort true { retry := some 1 });
      s.ramActs blk = true ∧ ((s.bram blk).port true).retry = some 1) := by decide +kernel

theorem witness_BlockFifo :
    (let s := fifoOn { entries := [⟨1, 0, false⟩], wr := 1, empty := false, wrSeen := 1, wrSync := (1, 1) };
      let f := s.fifo blk
      s.fifoActs blk = true ∧ f.rstW = false ∧ f.drain = false ∧ f.dropping = false ∧ f.full = false ∧ f.rstR = false ∧
      f.flushR = false ∧ f.empty = false ∧ f.entries = ⟨1, 0, false⟩ :: [] ∧ f.wr = f.rd + f.entries.length ∧ f.wrSeen ≤ f.wr ∧
      f.rdSeen ≤ f.rd ∧ f.wrSync.1 ≤ f.wr ∧ f.wrSync.2 ≤ f.wr ∧ f.rdSync.1 ≤ f.rd ∧ f.rdSync.2 ≤ f.rd) ∧
    (fifoOn { full := true }).fifo blk = { full := true } ∧ ((fifoOn {}).blockCfg blk false).common = false ∧
    ((fifoOn { flushReq := true }).fifo blk).flushReq = true ∧ ((fifoOn { flushPoint := some 0 }).fifo blk).flushPoint = some 0 ∧
    (fifoOn {}).fifoActs blk = true ∧ blkOn.fifoActs blk = false := by decide +kernel

/-! Arithmetic slices (06, 07). -/

/-- Slice 0 of bay 0, in a powered, clocked and unfenced bay, and selected for debugging. -/
def sliceIn (x : Slice) : State :=
  (at_ [(F.FEN_FENCED_BAYS, 0, 0), (F.PWR_DOM_STATE_ON, 0, 0xFFFFFFFF), (F.CKG_EFF_BAY_BAYS, 0, 0xFF)]).setSlice 0 0 x
def sx : SliceCx := ⟨0, 0, .none, .none, .none⟩
def running : State := sliceIn { run := .running, sin := [5] }

/-- For SliceFlowAndMoves, SliceArithmetic and SliceTri8: every operation is ready somewhere. -/
theorem witness_SliceReady : (∀ op ∈ [0x01, 0x02, 0x03, 0x04, 0x05, 0x08, 0x09, 0x0A, 0x0B, 0x0C, 0x0D, 0x0E, 0x0F, 0x10, 0x11, 0x12, 0x13,
      0x14, 0x15, 0x16, 0x17, 0x18, 0x19, 0x1A, 0x1B, 0x1C, 0x1D, 0x1E, 0x1F, 0x20, 0x22, 0x23, 0x24, 0x25, 0x28, 0x29, 0x2A, 0x2B, 0x2C,
      0x2D, 0x2E], sliceLegal op (sliceWord op 0) (running.slice 0 0) = true) ∧
    SliceReady sx 0x01 0 running ∧ SliceReady sx 0x06 (5 <<< 24 ||| 4) running ∧ SliceReady sx 0x07 4 running ∧
    SliceReady sx 0x1E (1 <<< 17) running := by
  unfold SliceReady; decide +kernel

theorem witness_SliceFlowAndMoves :
    (running.slice 0 0).sin = 5 :: [] ∧ ((sliceIn { run := .running }).slice 0 0).sin = [] ∧
    (let x : Slice := { loops := [⟨1, 0, 2⟩] }; x.loops = ⟨1, 0, 2⟩ :: [] ∧ (⟨1, 0, 2⟩ : LoopLevel).last = x.pc.toNat ∧ 1 < (⟨1, 0, 2⟩ : LoopLevel).count) ∧
    (let x : Slice := { loops := [⟨1, 0, 1⟩] }; (⟨1, 0, 1⟩ : LoopLevel).last = x.pc.toNat ∧ (⟨1, 0, 1⟩ : LoopLevel).count ≤ 1) ∧
    (0 < 1024 ∧ (5 : BitVec 10).toNat % pow2Up 1024 < 1024) ∧ (7 : BitVec 10).toNat % pow2Up 10 < 10 := by decide +kernel

theorem witness_SliceTraps :
    (let x := running.slice 0 0
     x.run = .running ∧ running.sliceClock 0 = true ∧ x.srst = false ∧ x.pmFlaw.get .none x.pc.toNat = .none ∧
      sliceLegal ((0 : W40).toNat / 2 ^ 34) (0 : W40).toNat x = false) ∧
    ({ sx with fetch := .double } : SliceCx).fetch = .double ∧ SliceReady { { sx with memA := .double } with memA := .none } 0x0A 0 running ∧
    State.reset.sliceClock 0 = false ∧ running.cascAlien 0 0 = false := by unfold SliceReady; decide +kernel

theorem witness_SlicePortsAndControl_ports :
    (let x : Slice := { pmBack := [3], pmFlaw := [(3, .single)], dmBack := [4], dmFlaw := [(4, .single)], emits := [(7, 8)], busy := true };
     x.pmBack = 3 :: [] ∧ x.pmFlaw.get .none 3 = .single ∧ x.dmBack = 4 :: [] ∧ x.dmFlaw.get .none 4 = .single ∧ x.emits = (7, 8) :: []) ∧
    running.fenced 0 = false ∧ running.sliceClock 0 = true ∧ (running.slice 0 0).srst = false ∧ running.domOn 0 = true ∧
    (let s := { sliceIn { run := .waiting, mode := true, rsyAction := 1 } with rsyAt := some 0 };
     (s.slice 0 0).run = .waiting ∧ (s.slice 0 0).mode = true ∧ s.rsyAt = some s.tmg.strobes ∧ (s.slice 0 0).rsyAction = 1) ∧
    (let s := sliceIn { run := .running, mode := true }; (s.slice 0 0).run = .running ∧ (s.slice 0 0).prologue = false ∧ s.rsyAt ≠ some s.tmg.strobes) ∧
    ((sliceIn { run := .running, srst := true }).slice 0 0).srst = true := by decide +kernel

theorem witness_SlicePortsAndControl_access :
    running.selSlice = some (0, 0) ∧ running.domOn 0 = true ∧ running.fenced 0 = false ∧
    ((running.put F.FEN_FENCED_BAYS 0 1).selSlice = some (0, 0) ∧ (running.put F.FEN_FENCED_BAYS 0 1).fenced 0 = true) ∧
    (let s := (sliceIn { run := .halted }).put F.CFG_SLC_ADDR_SPACE 0 1;
     (s.slice 0 0).run = .halted ∧ (s.slice 0 0).busy = false ∧ s.get F.CFG_SLC_ADDR_SPACE = 1 ∧
      (s.slice 0 0).dmFlaw.get .none (s.get F.CFG_SLC_ADDR_WORD) = .none) ∧
    (let s := ((sliceIn { run := .trapped }).put F.CFG_SLC_ADDR_SPACE 0 2).put F.CFG_SLC_ADDR_WORD 0 7;
     s.get F.CFG_SLC_ADDR_SPACE = 2 ∧ s.get F.CFG_SLC_ADDR_WORD < 8) ∧
    (State.reset.selSlice = some (0, 0) ∧ State.reset.domOn 0 = false) := by decide +kernel

/-! Sand (08). -/

def rateOn : State := at_ [(F.NOC_RATE_EN, 0x50, 1), (F.NOC_RATE_BURST, 0x50, 4), (F.NOC_RATE_RATE, 0x50, 1024)]
def dmaReq : SandReq := { ini := 0x50, op := .read, addr := 0x100000000000, len := 7 }

theorem witness_SandInjection :
    (State.reset.outstanding 0x50 < sandLimit 0x50 ∧ State.reset.sand.entries.find (0x50, 0) = none) ∧
    State.reset.on F.NOC_RATE_EN 0x50 = false ∧ rateOn.on F.NOC_RATE_EN 0x50 = true ∧
    (1024 * (min (reqFlits dmaReq) (rateOn.sandBurst 0x50) : Nat) : Int) ≤
      min (rateOn.sandTokens 0x50 + (4 * max 1 (rateOn.get F.NOC_RATE_RATE 0x50) : Nat)) (1024 * (rateOn.sandBurst 0x50 : Int)) ∧
    (let s := at_ [(F.FEN_FENCED_BAYS, 0, 0)]; s.fenced 4 = false ∧ s.sand.buffer.find 4 = none) := by decide +kernel

/-- A request of DMA channel 0 outstanding under tag 1. -/
def sent : State := { State.reset with sand := { entries := [((0x50, 1), ⟨{ dmaReq with tag := 1 }, 0⟩)], failed := [] } }

theorem witness_SandResponses :
    (sent.sand.entries.find (0x50, 1) = some ⟨{ dmaReq with tag := 1 }, 0⟩) ∧ sent.on F.NOC_ERR_LOG_VALID = false ∧
    (sent.put F.NOC_ERR_LOG_VALID 0 1).on F.NOC_ERR_LOG_VALID = true ∧ isLink (0 : BitVec 12).toNat = true ∧ 0 ∉ sent.sand.failed ∧
    sent.sand.moving = [] ∧ { sent with sand := { failed := [0] } }.sand.failed = [0] := by
  decide +kernel

theorem witness_SandResponses_route : ∀ x y, sent.routeDown 0x50 x y = false := by
  intro x y
  cases x <;> cases y <;> simp [State.routeDown, sandRoute, bridgeGroup, sent]
  · exact ⟨0, by decide⟩
  · exact ⟨0, by decide⟩
  · split
    · simp
    · simp
      rintro _ (⟨a, _, rfl⟩ | rfl | rfl | ⟨a, _, rfl⟩)
      · exact ⟨a, by simp⟩
      · exact ⟨_, List.mem_map_of_mem (List.mem_range.mpr (by decide : 0 < 4))⟩
      · exact ⟨_, List.mem_map_of_mem (List.mem_range.mpr (by decide : 0 < 4))⟩
      · exact ⟨a, by simp⟩

theorem witness_SandLateResponse :
    sent.sand.entries.find (0x50, 1) = some ⟨{ dmaReq with tag := 1 }, 0⟩ ∧ sent.sand.gens.get 0 (0x50, 1) = 0 ∧ sent.sand.moving = [] ∧
    ({ dmaReq with tag := 1 } : SandReq).op ≠ .writeP := by decide +kernel

/-- A read and a write of TMG_CN_PRESET by the debug port, and the read of a word in the window of bay 0. -/
def presetReq (op : SandOp) : SandReq :=
  { ini := 0x49, op, addr := BitVec.ofNat 48 (R.TMG_CN_PRESET.addr 0), len := 7, data := if op = .read then [] else List.replicate 8 0 }

theorem witness_SandRequestTargets :
    (∀ op ∈ [SandOp.read, .write], 0x40 ≤ (presetReq op).ini.val ∧ (presetReq op).addr.toNat = R.TMG_CN_PRESET.addr 0 ∧ (presetReq op).len = 7 ∧
      State.reset.sand.entries.find ((presetReq op).ini.val, (presetReq op).tag.toNat) = none) ∧
    State.reset.on F.NOC_STATUS_SWITCHING = false ∧ State.reset.sand.moving = [] ∧
    State.reset.cutOff 0x49 (R.TMG_CN_PRESET.addr 0) = false ∧
    (let s := at_ [(F.FEN_FENCED_BAYS, 0, 0), (F.FEN_SLAB_STATUS_FENCED, 0, 0)]; let a := 0x010000000000
     inBay a = true ∧ s.fenced (bayOfAddr a) = false ∧ s.slabFenced (bayOfAddr a / 16) = false ∧ s.railUp (bayOfAddr a / 16) = true ∧
      crosses4K a 8 = false ∧ s.cutOff 0x49 a = false ∧ (let env : Env := { bay := (.okay, 7) }; env.net = none ∧ env.bay.1 ≠ .timeout ∧ hasData env.bay.1 = true)) ∧
    (let s : State := { State.reset with sand := { entries := [((0x49, 0), ⟨presetReq .read, 0⟩)] } }
     s.sand.entries.find ((presetReq .read).ini.val, (presetReq .read).tag.toNat) = some ⟨presetReq .read, 0⟩ ∧
      s.cutOff 0x49 (R.TMG_CN_PRESET.addr 0) = false) ∧
    (0x1000 : Nat) < 0x40000 ∧ State.reset.on F.NOC_ERR_LOG_VALID = false := by decide +kernel

/-! The bus, Quartz and the Verdict Table (01, 08, 09). -/

/-- A request of the debug port. -/
def dbgReq (op : SandOp) (a : Nat) (len : Nat) : SandReq :=
  { ini := 0x49, op, addr := BitVec.ofNat 48 a, len := BitVec.ofNat 12 len, data := if op = .read then [] else List.replicate (len + 1) 0 }

theorem witness_BusAccess :
    State.reset.power.asleep = false ∧ { State.reset with power := { asleep := true } }.power.asleep = true ∧
    (∀ q ∈ [dbgReq .read 0x1FFC 7, dbgReq .read 0x40000 7, dbgReq .read 0xFFFFFFF8 7, dbgReq .write 0x3FFF8 7, dbgReq .writeP 0 7],
      0x40 ≤ q.ini.val ∧ State.reset.sand.entries.find (q.ini.val, q.tag.toNat) = none ∧
      State.reset.cutOff q.ini.val q.addr.toNat = false) ∧
    crosses4K 0x1FFC 8 = true ∧ crosses4K 0x1FF8 8 = false ∧ ¬ inSpd 0x40000 = true ∧
    (let a := 0x010000000000; inBay a = true ∧ State.reset.fenced (bayOfAddr a) = true) := by decide +kernel

/-- Quartz in use, with boundaries running and a commit made. -/
def qtzOn (q : Quartz) : State :=
  { at_ [(F.QTZ_CTRL_EN, 0, 1), (F.TMG_STATUS_QTZ_LOCK, 0, 1), (F.TMG_QUARTZ_N, 0, 32), (F.FEN_FENCED_BAYS, 0, 0)] with
    qtz := { q with committed := true } }

theorem witness_QuartzCommit :
    (qtzOn {}).on F.QTZ_STATUS_COMMIT_BUSY = false ∧ idExists ((qtzOn {}).get F.QTZ_TSEL_ID) = true ∧ bit (1 : W32).toNat 0 = true ∧
    ((qtzOn {}).put F.QTZ_STATUS_COMMIT_BUSY 0 1).on F.QTZ_STATUS_COMMIT_BUSY = true ∧ (qtzOn {}).slabsShut = [] ∧
    (qtzOn {}).boundariesRun = true ∧ badLanes 0 0x80FF ≠ [] := by decide +kernel

/-- Bay 0 sends in slot 31, and flits are on their way to its switch and to its receive channel. -/
def flitsOn : Quartz where
  active := [((5, 31), 0x8000), ((4, 31), 0x8000)]
  tx := [((0, 0), ⟨9, 1, true⟩)]
  flights := [((.port 0 4, 0, 3), ⟨9, 1, true, none⟩), ((.recv 0, 0, 1), ⟨9, 1, true, none⟩)]

theorem witness_QuartzPaths :
    (let s := qtzOn flitsOn;
     s.qtzActive = true ∧ s.on F.NOC_STATUS_SWITCHING = false ∧ 31 < s.qtzN ∧ s.railUp 0 = true ∧ s.qtz.probe = none ∧ (entryAt s.qtz.active (outId 0 5) 31 0).valid = true ∧
      (s.qtz.tx.get {} (0, (entryAt s.qtz.active (outId 0 5) 31 0).port)).valid = true ∧ s.fenced 0 = false ∧
      s.qtzMuted (outId 0 5) 31 0 31 = false ∧ s.qtz.flights.find (.port 0 4, 0, 3) = some ⟨9, 1, true, none⟩ ∧
      s.bridgeShut 0 4 = false ∧ (entryAt s.qtz.active (outId 0 4) 31 0).valid = true ∧
      s.qtz.flights.find (.recv 0, 0, (31 + 2) % s.qtzN) = some ⟨9, 1, true, none⟩) ∧
    bit (0x80000000 : W32).toNat 31 = true ∧ (qtzOn {}).qtz.trace = none ∧ State.reset.qtzActive = false ∧
    (qtzOn { trace := some (5, 31, 3) }).qtz.trace ≠ none ∧
    (let p : Probe := ⟨5, 31, 3, none, true, some 32⟩; (qtzOn { probe := some p }).qtz.probe = some p ∧ p.arrived = some 32) ∧
    (let p : Probe := ⟨5, 31, 3, none, false, none⟩; (qtzOn { probe := some p }).qtz.probe = some p ∧ p.arrived = none) ∧
    (let s := qtzOn { loading := [3] }; 3 ∈ s.qtz.loading ∧ s.slabFenced 3 = false ∧ s.railUp 3 = true) := by decide +kernel

/-- The Verdict Table powered and cleared. -/
def vrdOn (v : Verdict) : State :=
  { at_ [(F.PWR_DOM_STATE_ON, 2, 0xFFFFFFFF), (F.VRD_STATUS_INIT_DONE, 0, 1), (F.TMG_STATUS_QTZ_LOCK, 0, 1), (F.TMG_QUARTZ_N, 0, 32)] with vrd := v }

theorem witness_VerdictLookup :
    (let s := { vrdOn { ctrl := [(2, 1)], words := [((1, 0, 0), 7)] } with
        qtz := { flights := [((.verdict 2, 0, 5), ⟨0, 9, true, none⟩)] } };
     (qtzEndpoint (.verdict 2) 0x442 3 0 false 0 s).1 = some ⟨0, 9, true, none⟩ ∧ s.vrdReady = true ∧ bit (s.vrd.ctrl.get 0 2) 0 = true ∧
      vrdServes s.vrd 2 = some 1 ∧ vrdCompose 0 (s.vrd.fields.get 0 2) 0 = 0 ∧ s.vrd.words.find (1, vrdMap s.vrd 1 0, 0) = some 7 ∧
      s.vrd.flaws.find (1, 0, 0) = none) ∧
    (vrdService {}).length = 4 ∧ (vrdService { retired := [1, 2] }).length = 2 ∧ (vrdService { retired := [0] }).length = 3 ∧
    (vrdService { retired := [0, 1, 3] }).length = 1 ∧ vrdServes { retired := [0, 1, 2, 3] } 0 = none ∧ State.reset.vrdReady = false := by
  decide +kernel

theorem witness_VerdictSwap :
    (let s := vrdOn { staged := some 63, swap := some none }; s.vrd.staged = some 63 ∧ s.vrd.swap = some none ∧ s.boundariesRun = true) ∧
    (let s := vrdOn { staged := some 0, swap := some (some 1) }; s.vrd.swap = some (some 1) ∧ s.rd R.TMG_CN < 1) ∧
    (let s := (vrdOn { staged := some 0, swap := some (some 1) }).wr R.TMG_CN 0 1; (1 : W64) ≤ s.rd R.TMG_CN) := by decide +kernel

theorem witness_VerdictStaging_commands :
    State.reset.domOn 84 = false ∧ (vrdOn {}).domOn 84 = true ∧ (vrdOn {}).unitClocked 8 = true ∧
    ((vrdOn {}).put F.CKG_GATE_GEODE_UNIT 0 0).unitClocked 8 = false ∧ (bit (0x73F : W32).toNat 8 = true ∧ bit (0x73F : W32).toNat 11 = false) ∧
    (vrdOn {}).vrd.staged = none ∧ (vrdOn {}).vrd.job = .idle ∧ (vrdOn { staged := some 63 }).vrd.staged ≠ none ∧
    (bit (0x800 : W32).toNat 11 = true ∧ bit (0x800 : W32).toNat 8 = false) ∧ (vrdOn { swap := some none }).vrd.swap ≠ none ∧
    (vrdOn { job := .load }).vrd.job = .load ∧ (vrdOn { staged := some 3 }).vrd.swap = none ∧
    (let v : Verdict := { staged := some 3, job := .copy }; ∀ r, r < 4 → vrdMap v r 3 ≠ vrdMap v r 64) := by decide +kernel

/-- The loader writes word `k` of bank `b`. -/
def loadReq (b k : Nat) (d : W64) : WinReq :=
  ⟨0x4A, 3, 0, BitVec.ofNat 23 (b * 131072 + 8 * k), 8, (List.range 8).map (fun i => (BitVec.ofNat 8 (d.toNat / 2 ^ (8 * i)) : Byte))⟩

theorem witness_VerdictStaging_window :
    (loadReq 63 16383 7).off.toNat = 63 * 131072 + 8 * 16383 ∧ (loadReq 63 16383 7).rep.val ∉ (vrdOn { staged := some 63 }).vrd.retired ∧
    (loadReq 0 0 7).off.toNat = 0 ∧ (loadReq 0 0 7).data.length = (loadReq 0 0 7).len ∧
    (let q : WinReq := ⟨0x47, 0, 0, 2, 2, [0, 0]⟩; q.off.toNat % 2 = 0 ∧ q.len % 2 = 0 ∧ q.ini.val < 0x48 ∧ q.priv = 0 ∧ q.data.length = q.len) ∧
    (let q : WinReq := ⟨0x3F, 3, 0, 1, 2, [0, 0]⟩; q.off.toNat % 2 = 1 ∧ q.ini.val < 0x40) ∧
    ((vrdOn {}).put F.VRD_PORT_CTRL_EN 7 1).on F.VRD_PORT_CTRL_EN 7 = true := by decide +kernel

theorem witness_VerdictReplicas :
    (let s := at_ [(F.PWR_DOM_STATE_ON, 2, 0xFFFFFFFF)]; s.domOn 84 = true ∧ s.unitClocked 8 = true ∧ s.on F.VRD_STATUS_INIT_DONE = false) ∧
    (3 ∈ vrdStaying {} ∧ (vrdStaying {}).length ≠ 1) ∧ vrdStaying { retired := [0, 1, 2] } = [3] ∧ 0 ∉ vrdStaying { retired := [0, 1, 2] } ∧
    (let v : Verdict := { retired := [2] }; 2 ∈ v.retired ∧ v.staged = none ∧ v.swap = none ∧ v.rbist ≠ some 2) ∧
    ({ rbist := some 2 } : Verdict).rbist = some 2 ∧
    (let v : Verdict := { second := [⟨3, 64, 5, 2 ^ 22 - 1, 1⟩], flaws := [((3, 64, 5), .double)] };
     v.second = ⟨3, 64, 5, 2 ^ 22 - 1, 1⟩ :: [] ∧ v.flaws.get .none (3, 64, 5) = .double ∧ v.flaws.get .none (3, 64, 6) ≠ .double) ∧
    ({ back := [(0, 1, 2)] } : Verdict).back = (0, 1, 2) :: [] ∧ (vrdOn {}).on F.VRD_UE_LOG_VALID = false ∧
    (let s := (vrdOn { patrol := [(3, 65 * 16384 - 1)] }).put F.VRD_CTRL_PATROL 0 1;
     s.vrdReady = true ∧ s.on F.VRD_CTRL_PATROL = true ∧ s.vrd.patrol.get 0 3 < 65 * 16384) := by decide +kernel

/-! The Ledger (10). -/

/-- The Ledger powered and running, with a tier bank, four pages of pool 0 and a window of 100 crossings. -/
def ldgOn (l : Ledger) (f : List (Fld × Nat × Nat)) : State :=
  { at_ ([(F.PWR_DOM_STATE_ON, 2, 0xFFFFFFFF), (F.LDG_STATUS_RUNNING, 0, 1), (F.LDG_CTRL_EN, 0, 1), (F.LDG_TIER_BANKS_MASK, 0, 1),
    (F.LDG_WINDOW_CROSSINGS, 0, 100), (F.LDG_POOL_PAGES_COUNT, 0, 4), (F.LDG_CTX_LIMIT_COUNT, 0, 2), (F.LDG_MAX_PAGES_COUNT, 0, 1),
    (F.TMG_STATUS_QTZ_LOCK, 0, 1)] ++ f) with ldg := l }

/-- Fragment header of source 3 with 8 data bytes, and its 16 bytes. -/
def hdr3 : Nat := 3 * 2 ^ 16 + 8 * 2 ^ 28
def frag3 : List Byte := natBytes hdr3 8 ++ List.replicate 8 1

theorem witness_LedgerFragmentTests :
    (let s := ldgOn { src := [(3, 1)] } []; s.domOn 85 = true ∧ s.unitClocked 9 = true ∧ s.on F.LDG_STATUS_RUNNING = true ∧ (csrBase + 0x98000 + 32) % 32 = 0 ∧
      bytesNat (frag3.take 8) = hdr3 ∧ frag3.length = 8 + 8 ∧ bits hdr3 28 12 % 8 = 0 ∧ bits hdr3 26 2 = 0 ∧ bits hdr3 42 6 = 0 ∧
      bit (s.ldg.src.get 0 (bits hdr3 16 10)) 0 = true ∧ ¬ s.get F.LDG_WINDOW_CROSSINGS ≤ s.age 0 ∧ s.ldg.open_ = none ∧
      (s.cross 0).st ≠ .rejected ∧ 3 ∉ (s.cross 0).seen ∧ tierUsed s + (8 + 8 + 63) / 64 ≤ tierBlocks s ∧ s.ldg.frags.length < 262144 ∧
      (s.cross 0).st = .undecided ∧ s.on F.LDG_ERR_LOG_VALID = false) ∧
    (csrBase + 0x98000 + 8) % 32 ≠ 0 ∧ bit ((ldgOn {} []).ldg.src.get 0 3) 0 = false ∧
    (let s := ldgOn {} [(F.LDG_WINDOW_CROSSINGS, 0, 1)]; s.get F.LDG_WINDOW_CROSSINGS ≤ s.age 0xFFFF) ∧
    ((ldgOn { cross := [(0, { st := .rejected })] } []).cross 0).st = .rejected ∧
    3 ∈ ((ldgOn { cross := [(0, { seen := [3] })] } []).cross 0).seen ∧
    (let s := ldgOn {} [(F.LDG_TIER_BANKS_MASK, 0, 0)]; tierBlocks s < tierUsed s + 1) ∧
    (let s := ldgOn {} [(F.LDG_STATUS_RUNNING, 0, 0), (F.NOC_ERR_LOG_VALID, 0, 1)];
      s.on F.LDG_STATUS_RUNNING = false ∧ s.on F.NOC_ERR_LOG_VALID = true) := by decide +kernel

/-- A context in use that collects the crossing of tag 0 for stream 7, and one of its fragments. -/
def ctx5 : Ctx := { id := 5, tag := 0, cn := 0, cls := 1, stream := 7, packed := false, first := 0, count := 8 }
def fr5 : Frag := ⟨0, 3, BitVec.ofNat 64 hdr3, List.replicate 8 1, 0, some 5⟩
def decHost : List (Fld × Nat × Nat) := [(F.LDG_CTRL_DEC_HOST_EN, 0, 1)]

theorem witness_LedgerDecisions_host :
    (let s := ldgOn { cls := [(1, 0xF)] } decHost; let w : W64 := 0x0000000500110000;
      s.unitClocked 9 = true ∧ s.on F.LDG_STATUS_RUNNING = true ∧ s.on F.LDG_CTRL_DEC_HOST_EN = true ∧ bit w.toNat 16 = true ∧
      bits w.toNat 17 3 = 0 ∧ bits w.toNat 24 8 = 0 ∧ bit (s.ldg.cls.get 8 (bits w.toNat 20 4)) 3 = true ∧
      ¬ s.get F.LDG_WINDOW_CROSSINGS ≤ s.age (w.setWidth 16) ∧ s.ldg.open_ = none ∧ (s.cross (w.setWidth 16)).st = .undecided ∧
      s.ldg.ctxs.length < ctxLimit s ∧ ∀ c ∈ s.ldg.ctxs, c.id < s.ldg.nextCtx) ∧
    (let s := ldgOn { ctxs := [ctx5, ctx5] } decHost; ctxLimit s ≤ s.ldg.ctxs.length) ∧
    bits (0x20000 : W64).toNat 17 3 ≠ 0 ∧ ((ldgOn { cross := [(0, { st := .accepted 5 })] } decHost).cross 0).st = .accepted 5 ∧
    (let s := ldgOn {} (decHost ++ [(F.LDG_CTRL_EARLY_REJECT, 0, 1)]); s.on F.LDG_CTRL_EARLY_REJECT = true ∧ (s.cross 0).st = .undecided) ∧
    (ldgOn {} (decHost ++ [(F.LDG_CTRL_EARLY_REJECT, 0, 0)])).on F.LDG_CTRL_EARLY_REJECT = false := by decide +kernel

theorem witness_LedgerDecisions_expiry :
    (let s := ldgOn { cls := [(0, 8), (15, 15)] } []; 0 < 15 ∧ s.get F.LDG_WINDOW_CROSSINGS > s.age 0 ∧ bit (s.ldg.cls.get 8 0) 3 = true ∧
      bit (s.ldg.cls.get 8 15) 3 = true ∧ (s.cross 0).st = .undecided ∧ s.ldg.ctxs.length < ctxLimit s) ∧
    (let s := ldgOn { cross := [(0xFF9C, {})] } [];
      s.ldg.cross.find (s.shortTag - BitVec.ofNat 16 (s.get F.LDG_WINDOW_CROSSINGS)) = some {} ∧ ({} : Cross).st = .undecided) ∧
    ({ st := .deferred 1 7 4 0 } : Cross).st = .deferred 1 7 4 0 ∧
    (let s := ldgOn { cross := [(0xFF9C, { st := .accepted 5 })], ctxs := [{ ctx5 with tag := 0xFF9C }], frags := [fr5] }
        [(F.LDG_STR_CTRL_EN, 7, 1)];
      s.ldg.cross.find (s.shortTag - BitVec.ofNat 16 (s.get F.LDG_WINDOW_CROSSINGS)) = some { st := .accepted 5 } ∧
      s.ldg.ctxs = [{ ctx5 with tag := 0xFF9C }] ∧ ctx5.state = .collect ∧ fr5 ∈ s.ldg.frags ∧ fr5.ctx = some 5 ∧
      s.on F.LDG_STR_CTRL_EN 7 = true) := by decide +kernel

theorem witness_LedgerPages :
    (let s := ldgOn { ctxs := [ctx5], frags := [fr5] } []; ldgCtx s 5 = some ctx5 ∧ (ctxPage 5 s).isSome ∧ s.unitClocked 9 = true ∧
      s.ldgFrozen = false ∧ s.pagingYields 0 = false ∧ s.ldg.ctxs[0]? = some ctx5 ∧ unpaged s 5 = fr5 :: [] ∧ ctx5.packed = false ∧ (∀ c ∈ s.ldg.ctxs, c.id = 5 → c = ctx5) ∧ ctx5.waits = false ∧
      (0 + (8 + 8) + 4095) / 4096 ≤ maxPages s ∧ ctx5.pages.length < 1) ∧
    (let s := ldgOn { ctxs := [{ ctx5 with body := 4096 }], frags := [fr5] } []; maxPages s < (4096 + (8 + 8) + 4095) / 4096) ∧
    (let s := ldgOn { ctxs := [ctx5], frags := [fr5] } [(F.LDG_POOL_PAGES_COUNT, 0, 0)]; ∀ c, c < 4 → poolGives s c = false) ∧
    (let s := ldgOn { ctxs := [{ ctx5 with pages := [(0, 1)] }], frags := [fr5] } [(F.SPD_OWN_OWNER, 0, 3)];
      s.on F.LDG_POOL_STATUS_RETIRED 0 = false ∧ s.owns 0x4B (bankOf fr5.addr) = true ∧ (0 + (8 + 8) + 4095) / 4096 ≤ min (maxPages s) 1 ∧ s.pagingYields 0 = false ∧
      s.ldg.ctxs[0]? = some { ctx5 with pages := [(0, 1)] } ∧ unpaged s 5 = fr5 :: [] ∧ s.unitClocked 9 = true ∧ s.ldgFrozen = false ∧
      s.domOn (86 + bankOf fr5.addr / 8) = true) ∧
    (0 < [(1 : Byte)].length ∧ 4095 % 4096 + [(1 : Byte)].length ≤ 4096) := by decide +kernel

theorem witness_LedgerChunks :
    (let s := ldgOn {} []; chunkStream s s.ktpTakes = none) ∧
    (let s := { ldgOn { ctxs := [{ ctx5 with state := .queued, tailDone := true }] } [(F.LDG_STR_CTRL_EN, 7, 1), (F.LDG_STR_CREDIT_BYTES, 7, 4096), (F.LDG_STR_CTRL_KTP_STREAM, 7, 3)] with
        ktp := { discard := [3] } };
      chunkStream s s.ktpTakes = some 7 ∧ nextRecord s 7 = some { ctx5 with state := .queued, tailDone := true } ∧ 3 ∈ s.ktp.discard) ∧
    (let s := ldgOn { ctxs := [{ ctx5 with state := .queued }] } [(F.LDG_STR_CTRL_EN, 7, 1), (F.LDG_STR_CTRL_STALL_TMO, 7, 1)];
      s.get F.LDG_STR_CTRL_STALL_TMO 7 ≠ 0 ∧ lacksCredit s 7 = true ∧ { ctx5 with state := .queued } ∈ queuedOf s 7 ∧
      ∀ d ∈ queuedOf s 7, d = { ctx5 with state := .queued }) ∧
    (ldgOn {} [(F.LDG_STR_CTRL_STALL_TMO, 7, 0)]).get F.LDG_STR_CTRL_STALL_TMO 7 = 0 ∧
    (let s := ldgOn {} [(F.LDG_STR_STATUS_STALLED, 7, 1), (F.LDG_STR_CTRL_STALL_ACTION, 7, 1)];
      s.on F.LDG_STR_STATUS_STALLED 7 = true ∧ s.on F.LDG_STR_CTRL_STALL_ACTION 7 = true) := by decide +kernel

theorem witness_LedgerControl :
    (let s := ldgOn {} [(F.LDG_CTRL_EN, 0, 0), (F.LDG_POOL_PAGES_COUNT, 0, 0), (F.SPD_OWN_OWNER, 0, 3)]; s.owns 0x4B 0 = true ∧
      bit (1 : W32).toNat 0 = true ∧ s.on F.LDG_CTRL_EN = false ∧ (∀ c : Fin 4, s.get F.LDG_POOL_PAGES_COUNT c.val = 0) ∧
      s.get F.LDG_TIER_BANKS_MASK ≠ 0 ∧ 1 ≤ s.get F.LDG_WINDOW_CROSSINGS ∧ s.get F.LDG_WINDOW_CROSSINGS ≤ 4096 ∧
      s.on F.TMG_STATUS_QTZ_LOCK = true ∧ s.ldg.ctxs = []) ∧
    (let s := ldgOn { ctxs := [ctx5], frags := [fr5] } []; s.on F.LDG_CTRL_EN = true ∧ s.ldg.ctxs = [ctx5] ∧ ctx5.state = .collect ∧
      fr5 ∈ s.ldg.frags) ∧
    (let s := ldgOn {} [(F.LDG_STR_SRC_FIRST, 7, 1023), (F.LDG_STR_SRC_COUNT, 7, 1)];
      s.get F.LDG_STR_SRC_FIRST 7 + s.get F.LDG_STR_SRC_COUNT 7 ≤ 1024 ∧ s.on F.LDG_STR_CTRL_EN 7 = false) ∧
    (let s := ldgOn {} [(F.LDG_STR_SRC_FIRST, 7, 1023), (F.LDG_STR_SRC_COUNT, 7, 2)];
      ¬ s.get F.LDG_STR_SRC_FIRST 7 + s.get F.LDG_STR_SRC_COUNT 7 ≤ 1024) ∧
    (let s := ldgOn { ctxs := [{ ctx5 with state := .sending }] } [(F.LDG_STR_CTRL_EN, 7, 1)];
      s.on F.LDG_STR_CTRL_EN 7 = true ∧ ({ ctx5 with state := .sending } : Ctx) ∈ s.ldg.ctxs) ∧
    (ldgOn {} [(F.LDG_STR_CTRL_EN, 7, 1)]).on F.LDG_STR_CTRL_EN 7 = true := by decide +kernel

/-! The host link (11). -/

/-- Port 0 powered, enabled and linked, the engine on. -/
def netOn (k : Ktp) (f : List (Fld × Nat × Nat)) : State :=
  { at_ ([(F.PWR_DOM_STATE_ON, 2, 0xFFFFFFFF), (F.ETH_CTRL_EN, 0, 1), (F.ETH_STATUS_LINK, 0, 1), (F.KTP_CTRL_EN, 0, 1),
    (F.ETH_IP4_ADDR, 0, 0xC0A80001)] ++ f) with ktp := k }

/-- An open session with the verbs feature, and a packet addressed to it. -/
def sess7 : Session := { st := .opened, id := 7, sa0 := { key := some {}, top := some 100 }, dfw := [3, 0, 0, 0] }
def pkt7 (stream : Byte) (seq : Nat) (pl : List Byte) : KtpRx :=
  { port := 0, session := 7, pn := 101, stream := stream, seq := BitVec.ofNat 64 seq, udpLen := 56, payload := pl }
def net7 (x : Session) (f : List (Fld × Nat × Nat)) : State := netOn { sess := [(0, x)] } f

theorem witness_HostPorts_enable :
    (let s := netOn {} []; let w : W32 := 3; s.on F.ETH_CTRL_EN 0 = true ∧ bits w.toNat 1 4 ≠ bits (s.rd R.ETH_CTRL 0).toNat 1 4) ∧
    bits (6 : W32).toNat 1 2 = 3 ∧
    (let s := netOn {} []; let w : W32 := BitVec.ofNat 32 (s.rd R.ETH_CTRL 0).toNat; bits w.toNat 1 2 ≠ 3 ∧
      ¬ (s.on F.ETH_CTRL_EN 0 = true ∧ bits w.toNat 1 4 ≠ bits (s.rd R.ETH_CTRL 0).toNat 1 4) ∧ bit w.toNat 0 = true) ∧
    (let s := netOn {} [(F.ETH_CTRL_EN, 0, 0)]; s.on F.ETH_CTRL_EN 0 = false ∧ s.portOn 0 = false ∧ s.domOn 94 = true) ∧
    (let s := netOn {} [(F.ETH_CTRL_EN, 0, 0), (F.PWR_DOM_STATE_ON, 2, 0)]; s.domOn 94 = false ∧ bit (1 : W32).toNat 0 ≠ s.on F.ETH_CTRL_EN 0 ∧
      bits (1 : W32).toNat 1 2 ≠ 3) ∧
    (let s := netOn {} []; let w : W32 := BitVec.ofNat 32 ((s.rd R.ETH_CTRL 0).toNat - 1); bits w.toNat 1 2 ≠ 3 ∧
      ¬ (s.on F.ETH_CTRL_EN 0 = true ∧ bits w.toNat 1 4 ≠ bits (s.rd R.ETH_CTRL 0).toNat 1 4) ∧ bit w.toNat 0 = false ∧ s.domOn 94 = true ∧
      ∀ n : Fin 8, (s.sess n.val).st = .closed) := by decide +kernel

theorem witness_HostPorts_link :
    (let s := netOn {} [(F.ETH_STATUS_LINK, 0, 0)]; s.portOn 0 = true ∧ s.portLink 0 = false ∧ ∀ n : Fin 8, (s.sess n.val).st ≠ .held) ∧
    (let s := netOn {} []; s.portLink 0 = true ∧ (∀ n : Fin 8, (s.sess n.val).st = .closed) ∧
      ¬ ((false : Bool) = true ∧ ((true : Bool) = true ∨ s.fecUsed 0 = false) ∧ (false : Bool) = false)) ∧
    (let s := netOn {} []; s.portLink 0 = true ∧ s.frameRefused 0 { dst := 0, fcs := false } = true) ∧
    (netOn {} []).portLink 0 = true := by decide +kernel

theorem witness_HostPorts_engine :
    (let s := netOn {} [(F.KTP_CTRL_EN, 0, 0), (F.KTP_RTX_SIZE_MIB, 0, 0)]; s.on F.KTP_CTRL_EN = false ∧ s.get F.KTP_RTX_SIZE_MIB = 0) ∧
    (let s := netOn {} [(F.KTP_CTRL_EN, 0, 0), (F.KTP_RTX_SIZE_MIB, 0, 1)]; s.on F.KTP_CTRL_EN = false ∧ s.get F.KTP_RTX_SIZE_MIB ≠ 0) ∧
    (let s := netOn {} []; s.on F.KTP_CTRL_EN = true ∧ bits (1 : W32).toNat 16 16 ≠ s.get F.KTP_CTRL_UDP_PORT) := by decide +kernel

theorem witness_KtpReceive_association :
    ({ top := some 2000 } : Sa).accepts 976 = true ∧ ({ top := some 2000 } : Sa).accepts 975 = false ∧ 975 + 1024 < 2000 ∧
    ({ top := some 2000 } : Sa).accepts 2000 = false := by decide +kernel

theorem witness_KtpReceive_checks :
    (let s := net7 sess7 []; s.portLink 0 = true ∧ s.on F.KTP_CTRL_EN = true ∧ ktpCheck { pkt7 1 0 [] with ver := 0x11 } s = .drop ∧
      ktpCheck { pkt7 1 0 [] with tagOk := false } s = .badTag ∧ ktpCheck { pkt7 1 0 [] with pn := 100 } s = .replay ∧
      ktpCheck { pkt7 1 0 [] with kind := 0x10, session := 0, udpLen := 40 } s = .hello ∧ ktpCheck (pkt7 1 0 []) s = .good 0) ∧
    (let s := frameIn 0 0 (net7 sess7 []); (s.get F.KTP_CRX_PTR_HEAD + 1) % 256 ≠ s.get F.KTP_CRX_PTR_TAIL) ∧
    (let s := frameIn 0 0 (net7 sess7 [(F.KTP_CRX_PTR_TAIL, 0, 1)]); (s.get F.KTP_CRX_PTR_HEAD + 1) % 256 = s.get F.KTP_CRX_PTR_TAIL) := by
  decide +kernel

theorem witness_KtpReceive_data :
    (let u := ktpAccepted 0 (pkt7 1 0 []) (frameIn 0 0 (net7 sess7 [])); let x := u.sess 0; let st := x.stream 1
      x.takes 1 = true ∧ x.takes 3 = false ∧ x.takes 2 = false ∧ x.st ≠ .closed ∧ st.ahead = [] ∧ st.cum = 0 ∧ rxWindow 1 = some 64 ∧
      ¬ ∃ g ∈ st.ahead, g.seq = st.cum) ∧
    (let u := ktpAccepted 0 (pkt7 1 0 []) (frameIn 0 0 (net7 (sess7.setStream 1 { cum := 1, ahead := [{ seq := 5, payload := [] }] }) []))
      let st := (u.sess 0).stream 1
      (0 : Nat) < st.cum ∧ (∃ g ∈ st.ahead, g.seq = 5) ∧ st.cum < 64 ∧ 64 < st.cum + (rxWindow 1).getD 0 ∧
      st.cum + (rxWindow 1).getD 0 ≤ 65) := by decide +kernel

/-- A control message of a type with a body. -/
def ctl (ty : Nat) (b : List Byte) : List Byte := natBytes ty 2 ++ natBytes b.length 2 ++ b

theorem witness_KtpReceive_control :
    (let p := pkt7 0 0 (ctl 3 (natBytes 0 4 ++ natBytes 1000 4)); let u := ktpAccepted 0 p (frameIn 0 0 (net7 sess7 [(F.KTP_RO_MAP_EN0, 0, 1)]))
      let body := sub p.payload 4 (numAt p.payload 2 2)
      ktpCheck p (net7 sess7 [(F.KTP_RO_MAP_EN0, 0, 1)]) = .good 0 ∧ numAt p.payload 0 2 = 3 ∧ 8 ≤ body.length ∧ numAt body 0 1 < 8 ∧
      u.roMapped (numAt body 0 1) 0 = true ∧ u.domOn 85 = true ∧ (u.sess 0).confUsed = false ∧ ((u.sess 0).stream 0).ahead = []) ∧
    (let p := pkt7 0 0 (ctl 3 (natBytes 8 4 ++ natBytes 1000 4)); 8 ≤ numAt (sub p.payload 4 (numAt p.payload 2 2)) 0 1) ∧
    (let p := pkt7 0 0 (ctl 8 []); numAt p.payload 0 2 = 8 ∧ numAt (ctl 7 []) 0 2 = 7) ∧
    (let x := { sess7 with st := .opening }; let p := pkt7 0 0 (ctl 1 (natBytes 2 16)); let u := ktpAccepted 0 p (frameIn 0 0 (net7 x []))
      let body := sub p.payload 4 (numAt p.payload 2 2)
      (u.sess 0).st = .opening ∧ 16 ≤ body.length ∧ bit (numAt body 0 4) 0 = false ∧ numAt p.payload 0 2 = 1) ∧
    (let p := pkt7 0 0 (ctl 0x8000 []); let u := ktpAccepted 0 p (frameIn 0 0 (net7 sess7 [])); 0x8000 ≤ numAt p.payload 0 2 ∧
      u.crxFull = false) ∧
    (let p := pkt7 0 0 (ctl 0x8000 []); let u := ktpAccepted 0 p (frameIn 0 0 (net7 sess7 [(F.KTP_CRX_PTR_TAIL, 0, 1)])); u.crxFull = true) ∧
    (let p := pkt7 0 0 (ctl 4 (natBytes 0 129)); let u := ktpAccepted 0 p (frameIn 0 0 (net7 sess7 [])); let x := u.sess 0
      numAt p.payload 0 2 = 4 ∧ x.st = .opened ∧ 129 ≤ (sub p.payload 4 (numAt p.payload 2 2)).length ∧ (x.assoc (!x.sa)).key = none ∧
      (x.assoc x.sa).tx < 2 ^ 62 ∧ (x.stream 0).waiting = []) ∧
    (let p := { pkt7 0 0 (natBytes 0 48) with kind := 2 }; ktpCheck p (net7 sess7 []) = .good 0 ∧ p.payload.length = 48) ∧
    (let e := natBytes 0 48; let s := net7 sess7 []; ((s.sess 0).stream (numAt e 0 1)).waiting = [] ∧ numAt e 16 32 = 0 ∧
      ((s.sess 0).stream (numAt e 0 1)).ackPn = none) := by decide +kernel

theorem witness_KtpSend_streams :
    (let x := (net7 sess7 []).sess 0; x.st = .opened ∧ (x.assoc x.sa).tx < 2 ^ 62 ∧ (x.stream 1).next < 2 ^ 64) ∧
    (let s := net7 (sess7.setStream 16 { waiting := [{ seq := 15, payload := [1] }, { seq := 16, payload := [2] }] }) [];
      ((pumpOne 0 16 s).sess 0).st ≠ .closed ∧ ((pumpOne 0 16 s).sess 0).stream 16 =
        ({ waiting := [{ seq := 16, payload := [2] }], unacked := [{ seq := 15, payload := [1] }] } : KtpStream)) ∧
    (let s := netOn { sess := [(0, sess7)], hand := [(0, true, [1, 2])] } [(F.KTP_RO_MAP_EN0, 0, 1)];
      s.ktp.hand = (0, true, [1, 2]) :: [] ∧ s.roSession 0 = some 0) ∧
    (let s := netOn { hand := [(0, true, [1, 2])] } []; s.roSession 0 = none) := by decide +kernel

theorem witness_KtpSend_sessions :
    (let s := net7 (sess7.setStream 1 { unacked := [{ seq := 4, payload := [] }, { seq := 5, payload := [], again := 16 }] }) [(F.KTP_RTX_MAX_TRIES, 0, 16)];
      (s.sess 0).st = .opened ∧ ((s.sess 0).stream 1).unacked.find? (fun h => h.seq == 4) = some { seq := 4, payload := [] } ∧
      (0 : Nat) < max 1 (s.get F.KTP_RTX_MAX_TRIES) ∧ max 1 (s.get F.KTP_RTX_MAX_TRIES) ≤ 16 ∧
      ((s.sess 0).stream 1).unacked.find? (fun h => h.seq == 5) = some { seq := 5, payload := [], again := 16 } ∧
      bit (1 : W32).toNat 0 = true ∧ (s.sess 0).confUsed = false ∧ ∀ e ∈ (s.sess 0).streams, e.2.ackDue = false) ∧
    (let s := net7 { sess7 with st := .opening } []; (s.sess 0).st = .opening ∧ (s.sess 0).confUsed = false) ∧
    (let s := net7 { sess7 with st := .held } [(F.ETH_STATUS_LINK, 0, 0)];
      (s.sess 0).st = .held ∧ (s.sess 0).confUsed = false ∧ s.portLink (s.sess 0).port = false) ∧
    (let s := net7 (sess7.setStream 1 { ackDue := true }) []; (s.sess 0).streams = [(1, { ackDue := true })]) := by decide +kernel

theorem witness_KtpSend_verbs :
    (let s := net7 { sess7 with verbs := [1] } []; (s.sess 0).st ≠ .closed ∧ s.power.asleep = false ∧ verbFront (s.sess 0).verbs = none) ∧
    (verbFront (natBytes 1 2 ++ natBytes 7 2 ++ natBytes 0 4 ++ natBytes 0x1000 8)).any (fun v => verbGood v && v.op == 1) = true ∧
    (verbFront (natBytes 2 2 ++ natBytes 0 2 ++ natBytes 0 4 ++ natBytes 0x1000 8 ++ natBytes 0 16)).any (fun v => verbGood v && v.op == 2) = true ∧
    (verbFront (natBytes 3 2 ++ natBytes 0 2 ++ natBytes 0 4 ++ natBytes 0x1000 8)).any (fun v => !verbGood v) = true ∧
    (let s := netOn {} [(F.KTP_CTX_PTR_HEAD, 0, 1)]; s.on F.KTP_CTRL_EN = true ∧
      s.get F.KTP_CTX_PTR_HEAD = (s.get F.KTP_CTX_PTR_TAIL + 1) % 256) ∧
    (netOn {} []).get F.KTP_CTX_PTR_HEAD = (netOn {} []).get F.KTP_CTX_PTR_TAIL := by decide +kernel


theorem witness_HostPorts_frames :
    (let s := { netOn {} [(F.ETH_STATUS_LINK, 0, 0)] with supplyOff := [.vttLane09] }; s.portLink 0 = false ∧ s.laneSupply = false) ∧
    (let s := netOn {} [(F.ETH_STATUS_LINK, 0, 0)]; s.laneSupply = true) ∧
    (let s := netOn {} [(F.ETH_MAC_ADDR, 0, 0x1A)]; let f : Frame := { dst := BitVec.ofNat 48 (2 ^ 48 - 1) }; s.portLink 0 = true ∧ s.frameRefused 0 f = false ∧
      unansweredPacket f.packet = true) ∧
    (let s := netOn {} [(F.ETH_CTRL_ECHO_EN, 0, 1), (F.ETH_MAC_ADDR, 0, 0x1A)]; s.portLink 0 = true ∧ (0xC0A80001 : W32).toNat = s.get F.ETH_IP4_ADDR 0 ∧
      s.on F.ETH_CTRL_ECHO_EN 0 = true ∧ s.holdsIp6 0 (s.linkLocal 0) = true ∧ s.holdsIp6 0 5 = false) := by decide +kernel

/-- The Ledger with a queued record for KTP stream 3, mapped to the open session of slot 0 with the readout feature. -/
def roLedger : State :=
  { ldgOn { ctxs := [{ ctx5 with state := .queued, tailDone := true }] } [(F.LDG_STR_CTRL_EN, 7, 1), (F.LDG_STR_CREDIT_BYTES, 7, 4096),
      (F.LDG_STR_CTRL_KTP_STREAM, 7, 3), (F.KTP_CTRL_EN, 0, 1), (F.KTP_RTX_SIZE_MIB, 0, 1), (F.KTP_RO_MAP_EN3, 0, 1)] with
    ktp := { sess := [(0, { sess7 with dfw := [0xFF, 0xFF, 0, 0] })] } }

theorem witness_LedgerControl_send :
    roLedger.ldgFrozen = false ∧ chunkStream roLedger roLedger.ktpTakes = some 7 ∧
    nextRecord roLedger 7 = some { ctx5 with state := .queued, tailDone := true } ∧ 3 ∉ roLedger.ktp.discard := by decide +kernel

/-! Configuration and start-up (12). No witness can name a signature that verifies: the check is opaque. -/

/-- The configuration with the load `l` in status `st`. -/
def cfgAt (st : Nat) (l : Load) (f : List (Fld × Nat × Nat)) : State :=
  { at_ ([(F.PWR_DOM_STATE_ON, 0, 0xFFFFFFFF), (F.PWR_DOM_STATE_ON, 1, 0xFFFFFFFF), (F.PWR_DOM_STATE_ON, 2, 0xFFFFFFFF),
    (F.CFG_STATUS_STATE, 0, st)] ++ f) with cfg := { load := l } }

/-- A word of the stream, a header word of a packet, and a frame. -/
def pl (w : W32) : Nat × Nat × W32 := (0, 2, w)
def hd (ty code mask : Nat) : Nat × Nat × W32 := pl (BitVec.ofNat 32 (ty * 2 ^ 28 + code * 2 ^ 20 + mask))
def frameStream : List (Nat × Nat × W32) := hd 2 0 1 :: pl 129 :: pl 0 :: List.replicate 128 (pl 5)

theorem witness_ConfigRestartAndFailure :
    (State.reset.cfg.blanking = true ∧ State.reset.cfg.nprog = false ∧ (cfgAt 1 {} []).cfg.nprog = false) ∧
    (let s := cfgAt 1 { phase := .sync } []; s.get F.CFG_STATUS_STATE = 1 ∧ s.cfg.load.phase = .sync ∧ s.srcSelected .bus = true ∧
      s.srcSelected .ktp = false) ∧
    (let s := cfgAt 2 { phase := .header } []; s.get F.CFG_STATUS_STATE = 2 ∧ (natBytes 0 512).length = 512 ∧
      headerFail imageMagic s.deviceId s.fuses (natBytes 0 512) = some causeHeader ∧ s.cfg.load.words + 128 < 2 ^ 31) := by decide +kernel

theorem witness_ConfigBlocksAndPackets_blocks :
    let s := cfgAt 3 { phase := .blocks, expect := Config.sha384 (natBytes 52 4 ++ natBytes 0 52) } []
    let t := cfgAt 3 { phase := .blocks, expect := Config.sha384 (natBytes 52 4 ++ natBytes 0 52) ++ [0] } []
    s.get F.CFG_STATUS_STATE = 3 ∧ s.cfg.load.phase = .blocks ∧ lenOk 52 = true ∧ lenOk 65536 = true ∧ lenOk 48 = false ∧
      s.cfg.load.ekey = 0 ∧ (natBytes 0 52).length = 52 ∧ Config.sha384 (natBytes 52 4 ++ natBytes 0 52 ++ []) = s.cfg.load.expect ∧
      Config.sha384 (natBytes 52 4 ++ natBytes 0 52 ++ []) ≠ t.cfg.load.expect := by
  refine ⟨by decide +kernel, rfl, by decide, by decide, by decide, rfl, by decide +kernel, by simp [cfgAt], by simp [cfgAt]⟩

theorem witness_ConfigBlocksAndPackets_packets :
    (hd 1 0x10 0xFFFF).2.2.toNat = 2 ^ 28 + 0x10 * 2 ^ 20 + (0xFFFF : W16).toNat ∧
    frontPacket false [pl 0] = .nop ∧ frontPacket false [hd 5 0 0] = .bad (hd 5 0 0) ∧
    (let s := cfgAt 3 {} []; s.get F.CFG_STATUS_STATE = 3 ∧ bit 1 s.deviceId = true ∧ bit 2 s.deviceId = false) ∧
    frontPacket false [hd 1 0x11 1, pl 2, pl 3, pl 0] = .pkt 1 0x11 1 (hd 1 0x11 1) (pl 2) [pl 3, pl 0] ∧
    (∃ p, frontPacket false (hd 1 0x20 1 :: pl 9 :: List.replicate 9 (pl 8)) = .pkt 1 0x20 1 (hd 1 0x20 1) (pl 9) p) ∧
    farValid (0 : W32).toNat = true ∧ (List.replicate 128 (pl 5)).length = 128 ∧
    frontPacket false frameStream = .pkt 2 0 1 (hd 2 0 1) (pl 129) (pl 0 :: List.replicate 128 (pl 5)) ∧
    frontPacket false [hd 3 0 1, pl 1, pl 0] = .pkt 3 0 1 (hd 3 0 1) (pl 1) [pl 0] := by
  refine ⟨by decide +kernel, by decide +kernel, by decide +kernel, by decide +kernel, by decide +kernel, ⟨_, rfl⟩, by decide +kernel,
    by decide +kernel, by decide +kernel, by decide +kernel⟩

theorem witness_ConfigStart :
    (let s := cfgAt 3 { stream := [hd 4 1 1, pl 0] } []; s.get F.CFG_STATUS_STATE = 3 ∧ bit 1 s.deviceId = true ∧ s.cfg.load.checked = false ∧
      frontPacket false s.cfg.load.stream = .pkt 4 1 1 (hd 4 1 1) (pl 0) []) ∧
    (let s := cfgAt 3 { stream := [hd 4 1 1, pl 0], checked := true } [(F.CFG_LOADED_BAYS, 0, 1)]; s.cfg.load.checked = true ∧ s.badSeq = false ∧
      s.loadedBay 0 = true ∧ s.bayPowered 0 = true ∧ s.defaultBays ≠ []) ∧
    (cfgAt 3 { checked := true } [(F.CFG_ANCHOR_BAYS, 0, 1)]).badSeq = true ∧
    (cfgAt 4 {} [(F.CFG_STATUS_DONE_OUT, 0, 1)]).on F.CFG_STATUS_DONE_OUT = true ∧
    (let s := { cfgAt 5 {} [] with cfg := { seqs := [(0, {}), (8, { step := 7 })], regs := [(0x20, [1, 14]), (0x28, [0, 0, 0, 0, 0, 0, 0, 12, 5])] } };
      s.cfg.seqs.find 0 = some {} ∧ s.stepHolds {} (s.seqStep 0 0) = true ∧ s.cfg.seqs.find 8 = some { step := 7 } ∧
      s.stepHolds { step := 7 } (s.seqStep 8 7) = true ∧ s.seqStep 8 8 ≠ 0 ∧ s.seqStep 0 8 = 0 ∧ bit (s.seqStep 8 7) 3 = true ∧
      bit (s.seqStep 8 7) 2 = true) ∧
    ({ cfgAt 5 {} [] with cfg := { seqs := [(0, {})], regs := [(0x20, [0x50])] } } : State).stepHolds {} 0x50 = false ∧
    ({ cfgAt 5 {} [] with cfg := { seqs := [(0, {})], regs := [(0x20, [0, 8])] } } : State).stepHolds {} 0 = true ∧
    bits 8 0 3 = 0 ∧ bit 8 3 = true ∧ seqBad [1, 2, 12] = false := by decide +kernel

/-- A full-image header for device 0 that passes every check, if key 0 and the signature do: those functions are opaque. -/
def goodHeader : List Byte :=
  natBytes imageMagic 4 ++ natBytes 1 2 ++ [0, 0] ++ natBytes 0x296410F3 4 ++ natBytes 1 2 ++ List.replicate 498 0

theorem witness_ConfigBlocksAndPackets_header (hk : Config.authHash 0 = Config.sha384 (sub goodHeader 80 97))
    (hv : Config.p384Verify (sub goodHeader 80 97) (Config.sha384 (sub goodHeader 0 416)) (sub goodHeader 416 96) = true) :
    let s := cfgAt 2 { phase := .header } []
    headerFail imageMagic s.deviceId s.fuses goodHeader = none ∧ goodHeader.length = 512 ∧ s.cfg.load.stream = [] := by
  have h6 : numAt goodHeader 6 1 = 0 := by decide +kernel
  refine ⟨?_, by decide +kernel, rfl⟩
  have hd : (cfgAt 2 { phase := .header } []).deviceId = 0 := by decide +kernel
  have h7 : numAt goodHeader 7 1 = 0 := by decide +kernel
  show headerFail imageMagic (cfgAt 2 { phase := .header } []).deviceId {} goodHeader = none
  rw [hd]
  unfold headerFail
  rw [if_neg (by decide +kernel), if_neg (by decide +kernel)]
  have h8 : bit ({} : Fuses).authPresent.toNat 0 = true := by decide
  have h9 : bit ({} : Fuses).authRevoked.toNat 0 = false := by decide
  simp [h6, h7, hk, hv]
  exact ⟨h8, h9⟩

/-! Fencing, partial reconfiguration and scrubbing (13). -/

/-- Everything powered, bay 3 in state `st`, and a Pager. -/
def bayAt (st : Nat) (p : Pgr) (f : List (Fld × Nat × Nat)) : State :=
  { at_ ([(F.PWR_DOM_STATE_ON, 0, 0xFFFFFFFF), (F.PWR_DOM_STATE_ON, 1, 0xFFFFFFFF), (F.PWR_DOM_STATE_ON, 2, 0xFFFFFFFF),
    (F.FEN_BAY_STATUS_STATE, 3, st), (F.FEN_FENCED_BAYS, 0, 2 ^ 64 - 1), (F.PGR_CTRL_EN, 0, 1)] ++ f) with pgr := p }

theorem witness_BayFencing :
    (let s := bayAt 4 {} [(F.FEN_FENCED_BAYS, 0, 0)]; s.fenced 3 = false ∧ bit (1 : W32).toNat 1 = false ∧ bit (0 : W32).toNat 0 = false) ∧
    (let s := bayAt 3 {} []; s.bayState 3 = 3 ∧ s.fenced 3 = true ∧ s.slabFenced (3 / 16) = false ∧ s.pgr.icp = [] ∧ s.pgr.run = none) ∧
    (bayAt 2 {} []).bayState 3 ≠ 3 ∧ (bayAt 3 { icp := [(0, { bay := 3, load := {} })] } []).bayTaken 3 = true ∧
    (let s := bayAt 4 {} []; (4 : W32).toNat % 16 = 2 ^ 2 ∧ (∀ j : Fin 4, j.val ≠ 2 → s.slabFenced j.val = false) ∧ s.slabFenced 2 = false) ∧
    (let s := bayAt 4 {} [(F.FEN_SLAB_STATUS_FENCED, 0, 4)]; (0 : W32).toNat % 16 = 0 ∧ (∀ j : Fin 4, s.slabFenced j.val = true ↔ j.val = 2) ∧
      s.railUp 2 = true ∧ ({ s with railsOff := [2] } : State).railUp 2 = false) := by decide +kernel

theorem witness_IcpAndScrub_load :
    (let s := bayAt 0 {} []; bit (3 : W32).toNat 9 = false ∧ (3 : W32).toNat % 64 / 16 = 0 ∧ s.bayPowered 3 = true ∧
      s.get F.PGR_ICP_STATUS_STATE 0 = 0 ∧ s.anchorBay 3 = false ∧ s.bayState 3 ≠ 5 ∧ (16 : W32).toNat % 64 / 16 ≠ 0 ∧
      s.pgr.icp.find 0 = none) ∧
    ({ bayAt 0 {} [] with railsOff := [0] } : State).bayPowered 3 = false ∧ (bayAt 5 {} []).bayState 3 = 5 ∧
    (let i : Icp := { bay := 3, load := { phase := .sync } }; let s := bayAt 1 { icp := [(0, i)] } []; s.pgr.icp.find 0 = some i ∧
      i.load.stream = [] ∧ (natBytes 0 4).length = 4 ∧ bytesWords (natBytes syncWord.toNat 4) = [syncWord] ∧ bit (0x200 : W32).toNat 8 = false) ∧
    (let i : Icp := { bay := 3, load := { stream := [hd 4 1 1, pl 0], checked := true } }; let s := bayAt 1 { icp := [(0, i)] } [];
      s.pgr.icp.find 0 = some i ∧ frontPacket true i.load.stream = .pkt 4 1 1 (hd 4 1 1) (pl 0) [] ∧ bit 1 s.deviceId = true) ∧
    frontPacket true [hd 1 0x10 1] = .bad (hd 1 0x10 1) := by decide +kernel

theorem witness_IcpAndScrub_scrub :
    (let s := bayAt 4 {} [(F.SCB_CTRL_EN, 0, 1)]; s.on F.SCB_CTRL_EN 0 = true ∧ s.scrubReads 0 (s.scrubAt 0) = true ∧
      s.fabric.frameFlaw.get .none (s.scrubAt 0) = .none ∧ s.on F.SCB_LOG_VALID 0 = false) ∧
    (let s := { bayAt 4 {} [(F.SCB_CTRL_EN, 0, 1)] with railsOff := [0] }; s.scrubReads 0 (s.scrubAt 0) = false) ∧
    (bayAt 4 {} [(F.SCB_CTRL_EN, 0, 0)]).on F.SCB_CTRL_EN 0 = false ∧
    (let s := bayAt 4 {} [(F.SCB_CTRL_EN, 0, 1), (F.SCB_LOG_VALID, 0, 1)];
      let t := { s with fabric := { s.fabric with frameFlaw := [(s.scrubAt 0, .single)] } };
      let u := { s with fabric := { s.fabric with frameFlaw := [(s.scrubAt 0, .double)] } };
      t.fabric.frameFlaw.get .none (t.scrubAt 0) = .single ∧ t.scrubReads 0 (t.scrubAt 0) = true ∧
      u.fabric.frameFlaw.get .none (u.scrubAt 0) = .double ∧ s.on F.SCB_LOG_VALID 0 = true) ∧
    (let s := bayAt 4 {} [(F.FEN_FENCED_BAYS, 0, 0)]; farBay (mkFar 0 0 0 36 0) = some 0 ∧ s.bayState 0 = 0 ∧ s.bayState 3 = 4 ∧ s.fenced 3 = false ∧
      s.on F.FEN_BAY_STATUS_GOLDEN 3 = false) := by decide +kernel

/-- A Pager command word on bay 3, bay B = 5 and slot 1. -/
def pcmd (op : Nat) : W64 := BitVec.ofNat 64 (op + 3 * 2 ^ 8 + 5 * 2 ^ 16 + 2 ^ 24)
def prun (op : Nat) : PgrRun := { cmd := ⟨pcmd op, 0⟩ }

theorem witness_PagerCommands_accepted :
    (let s := bayAt 3 {} [(F.PGR_CTRL_EN, 0, 0)]; s.on F.PGR_CTRL_EN = false) ∧
    (let s := bayAt 3 { slots := [(1, { state := 2, home := 3, quartz := false, border := 0 })] }
        [(F.PGR_CACHE_SLOTS_COUNT, 0, 2), (F.FEN_BAY_STATUS_GOLDEN, 3, 1), (F.FEN_BAY_STATUS_SLOT, 3, 1), (F.FEN_BAY_STATUS_STATE, 5, 0)];
      s.on F.PGR_CTRL_EN = true ∧ s.pgr.queue = [] ∧ s.pgr.run = none ∧ (s.freezing && s.on F.DBG_FREEZE_PAGER) = false) ∧
    (let s := bayAt 3 { slots := [(1, { state := 2, home := 3, quartz := false, border := 0 })] } [(F.PGR_CACHE_SLOTS_COUNT, 0, 2)];
      pgrCheck ⟨pcmd 3, 0⟩ s = 0 ∧ pgrCheck ⟨pcmd 2, 0⟩ s = 0 ∧ pgrCheck ⟨pcmd 6, 0⟩ s = 0 ∧ pgrCheck ⟨pcmd 8, 0⟩ s = 0 ∧
      pgrCheck ⟨pcmd 9, 0⟩ s = 0 ∧ pgrCheck ⟨pcmd 1, 0⟩ s ≠ 0 ∧ pgrCheck ⟨pcmd 7, 0⟩ s ≠ 0) ∧
    (let s := bayAt 3 { slots := [(1, { state := 2, home := 3, quartz := false, border := 0 })] }
        [(F.PGR_CACHE_SLOTS_COUNT, 0, 2), (F.FEN_BAY_STATUS_GOLDEN, 3, 1), (F.FEN_BAY_STATUS_SLOT, 3, 1)];
      pgrCheck ⟨pcmd 4, 0⟩ s = 0 ∧ pgrCheck ⟨pcmd 5, 0⟩ s = 0) ∧
    (let s := bayAt 0 {} [(F.PGR_CACHE_SLOTS_COUNT, 0, 2)]; pgrCheck ⟨pcmd 1, 0⟩ s = 0 ∧ pgrCheck ⟨pcmd 7, 0⟩ s = 0) ∧
    (bayAt 3 {} [(F.CFG_ANCHOR_BAYS, 0, 8)]).anchorBay 3 = true ∧
    (let s := bayAt 3 { run := some (prun 6) } []; s.pgr.queue.length < 16 ∧ s.pgr.run ≠ none) := by decide +kernel

theorem witness_PagerCommands_ends :
    (let s := bayAt 1 { run := some (prun 6) } []; s.pgr.run = some (prun 6) ∧ s.pgr.queue = [] ∧ (prun 6).phase = .running ∧
      s.pgr.results = [] ∧ (s.freezing && s.on F.DBG_FREEZE_PAGER) = false ∧ (prun 6).cmd.op = 6 ∧ s.pgr.rimDue = []) ∧
    (prun 7).cmd.op = 7 ∧ (prun 9).cmd.op = 9 ∧ (prun 3).cmd.op = 3 ∧ (prun 4).cmd.op = 4 ∧ (prun 4).plan = none ∧
    (prun 4).cmd.bayB ≠ (prun 4).cmd.bayA ∧ (bayAt 3 { results := [5] } []).pgr.results = 5 :: [] := by decide +kernel

theorem witness_PagerCommands_slotRead :
    let s := bayAt 1 { run := some (prun 3) } [(F.PGR_CACHE_BASE_ADDR, 0, 0x08000000), (F.SPD_OWN_OWNER, 0, 15)]
    (slotRead 1 0 10680 {} s).2.2.pgr = s.pgr ∧ (relocateFrames (prun 4) {} s).2.pgr = s.pgr := by decide +kernel

/-! The cores and the warden (14), watchdogs and warm reset (14, 20). -/

/-- Everything powered, core 0 running (and Saffron), with core state `c` for core 0. -/
def coreAt (c : Core) (f : List (Fld × Nat × Nat)) : State :=
  { at_ ([(F.PWR_DOM_STATE_ON, 2, 0xFFFFFFFF), (F.WDG_CORE_CTRL_RUN, 0, 1), (F.WDG_CORE_STATUS_STATE, 0, 1)] ++ f) with
    cores := [(0, c)], pgr := { queue := [] }, warden := { booting := true } }
def cx0 : Cx := { core := 0 }
/-- A line of DDR5 in the data cache of core 0. -/
def line0 : DLine := { line := dramBase / 64, data := natBytes 0x1122334455667788 64 }
def coreG (a : Nat) : Core := { g := (Vector.replicate 32 (0 : W64)).set 1 (BitVec.ofNat 64 a) }

theorem witness_CoreArithmetic :
    CoreReady cx0 (coreAt {} []) ∧
    (let s := coreAt { g := ((Vector.replicate 32 (0 : W64)).set 1 0x8000000000000000).set 2 0xFFFFFFFFFFFFFFFF } [];
      (s.greg 0 1).toInt = -(2 : Int) ^ 63 ∧ (s.greg 0 2).toInt = -1) := by unfold CoreReady; decide +kernel

theorem witness_CoreMemory :
    (let s := coreAt { coreG dramBase with dc := [line0] } []; CoreReady cx0 s ∧
      (s.core 0).refuses dramBase 8 0 = false ∧ dramBase % 8 = 0 ∧ s.dcOn 0 dramBase = true ∧ (s.core 0).lineAt (dramBase / 64) = some line0 ∧
      line0.flaw.get .none 0 = .none ∧ line0.data.length = 64 ∧ line0.poisoned = false ∧ ({} : Env).upset = .none ∧ s.resv.find 0 ≠ some (dramBase / 64)) ∧
    (let s := coreAt (coreG (2 ^ 48)) []; CoreReady cx0 s ∧ (s.core 0).refuses (2 ^ 48) 8 0 = true ∧ 2 ^ 48 % 8 = 0) ∧
    (let s := coreAt (coreG 1) []; CoreReady cx0 s ∧ (s.core 0).refuses 1 2 1 = false ∧ 1 % 2 ≠ 0 ∧ (s.core 0).refuses (2 ^ 48 + 1) 2 1 = true ∧
      ¬ (1 % 8 = 0 ∧ (inDram 1 ∨ inSpd 1))) ∧
    (let s := { coreAt (coreG dramBase) [] with resv := [(0, dramBase / 64)] }; s.resv.find 0 = some (dramBase / 64) ∧ CoreReady cx0 s) ∧
    (let s := { coreAt {} [] with cores := [(8, coreG privLo)] }; inPriv 8 privLo = true ∧ (s.core 8).refuses privLo 1 1 = false ∧
      CoreReady { core := 8 } s) ∧
    (let s := coreAt (coreG 0x700000) []; let t := coreStore 0 0x700000 [1] {} (coreFetched 0 s); t.on F.DBG_CORE_STATUS_DEFERRED 0 = false ∧
      (coreLoad 0 0x700000 1 false {} (coreFetched 0 s)).2.on F.DBG_CORE_STATUS_DEFERRED 0 = false) := by unfold CoreReady; decide +kernel

theorem witness_CoreControl_instructions :
    (let s := coreAt (coreG 6) []; CoreReady cx0 s ∧ (BitVec.ofInt 64 ((s.greg 0 1).toInt + (2 : W16).toInt)).toNat % 4 = 0 ∧
      (BitVec.ofInt 64 ((s.greg 0 1).toInt + (4 : W16).toInt)).toNat % 4 ≠ 0 ∧ (s.core 0).priv ≠ .u ∧ (s.core 0).serr = none ∧
      bit (s.get F.DBG_BREAK_HALT_CORES) 0 = false ∧ (cacheFlush 0 {} (coreFetched 0 s)).on F.DBG_CORE_STATUS_DEFERRED 0 = false ∧
      (s.core 0).ppriv.toNat < 2 ∧ (s.core 0).refuses 6 1 0 = false) ∧
    csrListed 0x1F = true ∧ csrListed 8 = false ∧ csrListed 0x23 = false ∧ csrListed 0x31 = true ∧ coreLegal 0xFFFFFFFF = false ∧
    (let c := { coreG 6 with priv := .u, uxb := Vector.replicate 8 0, uxl := Vector.replicate 8 0xFFFFFFFFF00F }; let s := coreAt c [];
      CoreReady cx0 s ∧ (s.core 0).priv = .u) ∧
    (let s := coreAt { serr := some (0, .timeout) } []; (s.core 0).serr = some (0, .timeout) ∧ CoreReady cx0 s) ∧
    (let s := coreAt {} [(F.DBG_BREAK_HALT_CORES, 0, 1)]; bit (s.get F.DBG_BREAK_HALT_CORES) 0 = true ∧ s.holdsResv 0 = false) := by
  unfold CoreReady; decide +kernel

theorem witness_CoreControl_entries :
    (let s := coreAt { serr := some (0, .timeout) } []; s.coreTakes 0 = true ∧ s.coreHalted 0 = false ∧ s.on F.DBG_CORE_STATUS_DEFERRED 0 = false ∧
      (s.core 0).stepping = false ∧ (s.core 0).ie = false) ∧
    (let s := coreAt { ie := true, ien := 7 } [(F.WDG_STATUS_STAGE1, 0, 1)]; s.coreTakes 0 = true ∧ (s.core 0).ie = true ∧
      s.irqCode 0 = some 2) := by decide +kernel

theorem witness_CoreRunWatchdogAndWarmReset_run :
    (let s := coreAt {} []; s.on F.WDG_CORE_CTRL_RUN 1 = false ∧ s.on F.WDG_CORE_STATUS_OFFLINE 1 = false ∧ s.domOn (76 + 1) = true ∧
      bit (s.get F.DBG_RESET_HALT_CORES) 1 = false ∧ s.on F.WDG_CORE_CTRL_RUN 0 = true ∧ s.on F.WDG_CORE_STATUS_OFFLINE 0 = false) ∧
    (let s := coreAt {} [(F.WDG_CORE_STATUS_OFFLINE, 7, 1)]; s.on F.WDG_CORE_CTRL_RUN 7 = false ∧ s.on F.WDG_CORE_STATUS_OFFLINE 7 = true) ∧
    (0x1234C10E : W32).toNat % 65536 = 0xC10E ∧ (0xC10F : W32).toNat % 65536 ≠ 0xC10E ∧
    (let s := coreAt {} [(F.WDG_CTRL_EN, 0, 1), (F.WDG_COUNT_COUNT, 0, 1)]; s.wdgCounts 0 = true ∧ s.on F.WDG_STATUS_STAGE1 0 = false) ∧
    (coreAt {} [(F.WDG_COUNT_COUNT, 0, 0)]).wdgCounts 0 = false := by decide +kernel

theorem witness_CoreRunWatchdogAndWarmReset_reset :
    (let s := fun a => coreAt {} [(F.WDG_CTRL_EN, 0, 1), (F.WDG_COUNT_COUNT, 0, 1), (F.WDG_STATUS_STAGE1, 0, 1), (F.WDG_CTRL_ACTION, 0, a)];
      ∀ a : Fin 4, (s a.val).wdgCounts 0 = true ∧ (s a.val).on F.WDG_STATUS_STAGE1 0 = true ∧ (s a.val).get F.WDG_CTRL_ACTION 0 = a.val ∧
        bit ((s a.val).get F.DBG_RESET_HALT_CORES) 0 = false) ∧
    (let s := coreAt {} [(F.WDG_CTRL_EN, 8, 1), (F.WDG_COUNT_COUNT, 8, 1), (F.WDG_STATUS_STAGE1, 8, 1), (F.KEY_REQ_STATUS_BUSY, 3, 1), (F.KEY_REQ_CTRL_CODE, 3, 0x0C)];
      s.wdgCounts 8 = true ∧ s.on F.WDG_STATUS_STAGE1 8 = true ∧ s.dma = [] ∧ s.pgr.run = none ∧ s.pgr.queue = [] ∧ s.power.resume = false ∧
      bit (s.get F.DBG_RESET_HALT_CORES) 8 = false ∧ s.power.asleep = false ∧ s.boxNext = some 3 ∧ s.get F.KEY_REQ_CTRL_CODE 3 = 0x0C ∧
      (s.core 8).lockup = false ∧ s.boxNext ≠ some 2) ∧
    (let s := { coreAt {} [] with cores := [(8, { lockup := true })] }; (s.core 8).lockup = true) ∧
    ({ State.reset with power := { State.reset.power with asleep := true } } : State).power.asleep = true ∧
    (let d : DmaRun := { src := 0, dst := spdBase, len := 4096, fill := true, pattern := 0 }; let s := { coreAt {} [(F.KEY_REQ_STATUS_BUSY, 3, 1), (F.KEY_REQ_CTRL_CODE, 3, 0x0C)] with dma := [(2, d)] };
      s.dma = [(2, d)] ∧ s.boxNext = some 3 ∧ s.pgr.run = none ∧ spdBase ≤ d.dst ∧ d.dst + d.len ≤ spdBase + 32 * 2 ^ 20) := by decide +kernel

/-- Mailbox 3 asks for `code` with its arguments. -/
def asks (code : Nat) (args : List Nat) (f : List (Fld × Nat × Nat)) : State :=
  coreAt {} ([(F.KEY_REQ_STATUS_BUSY, 3, 1), (F.KEY_REQ_CTRL_CODE, 3, code)] ++
    args.zipIdx.map (fun e => ((⟨R.KEY_REQ_ARG, 0, 64⟩ : Fld), 12 + e.2, e.1)) ++ f)

theorem witness_WardenRequests_state :
    (asks 6 [] []).on F.KEY_REQ_STATUS_BUSY 3 = true ∧ (asks 6 [] []).on F.KEY_REQ_STATUS_BUSY 2 = false ∧ bits (0x0D : W32).toNat 0 8 = 0x0D ∧
    (let s := asks 6 [0xFFFFFFFF] []; s.boxNext = some 3 ∧ s.get F.KEY_REQ_CTRL_CODE 3 = 6 ∧ (s.boxArg 3 0).toNat = 0xFFFFFFFF) ∧
    (asks 0x0A [] []).get F.KEY_REQ_CTRL_CODE 3 = 0x0A ∧
    (let s := asks 0x0B [1] []; (s.boxArg 3 0).toNat ∈ s.authSlots ∧ s.authSlots ≠ [1] ∧ 4 ∉ s.authSlots) ∧
    ({ asks 0x0B [1] [] with fuses := { authPresent := 2 } } : State).authSlots = [1] ∧
    (let s := asks 8 [1, 2, 0x1000] []; (s.boxArg 3 0).toNat = 1 ∧ (s.boxArg 3 1).toNat = 2 ∧ (s.boxArg 3 2).toNat % 4 = 0 ∧
      s.on F.WDG_CORE_STATUS_OFFLINE 1 = false ∧ s.domOn 77 = true ∧ bit (s.get F.DBG_RESET_HALT_CORES) 1 = false ∧ s.coreRuns 0 = true) ∧
    (asks 8 [0, 0] []).coreRuns ((asks 8 [0, 0] []).boxArg 3 0).toNat = true ∧ (asks 8 [0, 1] []).boxArg 3 1 = 1 := by decide +kernel

theorem witness_WardenRequests_memory :
    (let s := asks 5 [7, 2] [(F.MEE_RGN_CTRL_EN, 7, 1)]; (s.boxArg 3 0).toNat < 8 ∧ (s.boxArg 3 1).toNat = 2 ∧ s.on F.MEE_RGN_CTRL_EN 7 = true) ∧
    (let s := asks 5 [7, 2] []; s.on F.MEE_RGN_CTRL_EN 7 = false ∧ s.boxNext = some 3) ∧
    (let s := asks 5 [7, 1, 0x100000000] []; (s.boxArg 3 2).toNat < 2 ^ 48 ∧ (s.boxArg 3 1).toNat = 1) ∧
    (let s := asks 2 [31, 1] []; (s.boxArg 3 0).toNat = 31 ∧ ownerOk 1 = true ∧ s.on F.WDG_CORE_CTRL_RUN 0 = true ∧ s.on F.SPD_HANDOVER_PENDING 31 = false) ∧
    (let s := asks 2 [29, 1] []; s.domOn (86 + 29 / 8) = true ∧ s.on F.LDG_STATUS_RUNNING = false) ∧
    (let s := asks 2 [29, 1] [(F.LDG_STATUS_RUNNING, 0, 1), (F.LDG_TIER_BANKS_MASK, 0, 2 ^ 29), (F.SPD_HANDOVER_PENDING, 28, 1)];
      s.on F.LDG_STATUS_RUNNING = true ∧ bit (s.get F.LDG_TIER_BANKS_MASK) 29 = true ∧ s.on F.SPD_HANDOVER_PENDING 28 = true) ∧
    (let s := asks 9 [0x1000, 2 ^ 48] []; (s.boxArg 3 0).toNat < 2 ^ 48 ∧ 2 ^ 48 ≤ (s.boxArg 3 1).toNat) ∧
    (let s := asks 7 [0x1000] []; (s.boxArg 3 0).toNat < 2 ^ 48) ∧
    (let s := { asks 1 [0, 1] [(F.KTP_CTRL_EN, 0, 1)] with ktp := { hellos := [(0, (0, {}))] } }; s.ktp.hellos.find 0 = some (0, {}) ∧
      (s.boxArg 3 1).toNat = 1 ∧ (s.sess 1).st = .closed ∧ s.on F.KTP_CTRL_EN = true ∧ s.boxNext = some 3) ∧
    (asks 1 [0, 1] []).on F.KTP_CTRL_EN = false := by decide +kernel

theorem witness_WardenRequests_boot :
    (let s := coreAt {} []; s.warden.booting = true ∧ s.domOn 89 = true ∧ s.power.asleep = false ∧ stewardJudge (syncWord :: List.replicate 128 0) s = .bad ∧
      s.warden.feed = []) ∧
    (let s := coreAt {} [(F.WDG_CORE_CTRL_RUN, 0, 0)]; s.on F.WDG_CORE_CTRL_RUN 0 = false ∧ s.on F.WDG_CORE_STATUS_OFFLINE 0 = false ∧ s.domOn 76 = true ∧
      s.power.resume = false ∧ s.on F.SPD_HANDOVER_PENDING 30 = false ∧ s.on F.SPD_HANDOVER_PENDING 31 = false) ∧
    (natBytes 0 512).length = 512 := by decide +kernel

/-! The scratchpad and DMA (15) and external memory (16). -/

/-- Everything powered, bank 0 owned by the Ledger (code 3) with every word of its first 64 bytes written. -/
def spd (f : List (Fld × Nat × Nat)) : State :=
  { at_ ([(F.PWR_DOM_STATE_ON, 2, 0xFFFFFFFF), (F.SPD_OWN_OWNER, 0, 3)] ++ f) with
    mem := (List.range 64).map fun i => ((0x100000000 + i, 0x11) : Host.Cell) }
/-- Requests of the Ledger (identity 0x4B): 8 bytes, and 4 bytes at 0x3C and 0x3E. -/
def q8 : SandReq := { op := .read, addr := 0x100000000, len := 7, data := List.replicate 8 2, ini := 0x4B }
def q4 (off : Nat) : SandReq := { op := .write, addr := BitVec.ofNat 48 (0x100000000 + off), len := 3, data := List.replicate 4 2, ini := 0x4B }

theorem witness_ScratchpadAccess_requests :
    ((q4 0x3C).addr.toNat = 0x100000000 + 0 * 2 ^ 20 + 0x3C ∧ 0x3C % 4096 + (q4 0x3C).len.toNat < 4096 ∧
      (q4 0x3C).data.length = (q4 0x3C).len.toNat + 1) ∧
    ¬ ((4 ≤ 8 ∧ 64 < (q4 0x3C).addr.toNat % 64 + 4) ∨ (8 < 4 ∧ True)) ∧ 64 < (q4 0x3E).addr.toNat % 64 + 4 ∧
    (let s := spd []; s.domOn (86 + 0 / 8) = true ∧ s.on F.SPD_HANDOVER_PENDING 0 = false ∧ ownerCode q8.ini.val = some (s.get F.SPD_OWN_OWNER 0) ∧
      s.peeks 0x100000000 8 = some (List.replicate 8 0x11) ∧ s.wordFlaw.get .none (0x100000000 / 8) = .none ∧ (s.bank 0).merge = [] ∧
      s.on F.SPD_OWNER_LOG_VALID = false ∧ s.on F.SPD_UE_LOG_VALID = false) ∧
    (at_ [(F.PWR_DOM_STATE_ON, 2, 0)]).domOn 86 = false ∧
    (let s := spd [(F.SPD_OWN_OWNER, 0, 1)]; ownerCode q8.ini.val ≠ some (s.get F.SPD_OWN_OWNER 0)) ∧
    (spd [(F.SPD_OWNER_LOG_VALID, 0, 1)]).on F.SPD_OWNER_LOG_VALID = true := by decide +kernel

def merge1 : MergeEntry := { word := 0x100000000 / 8, data := 5, mask := 0xFF }
def spdMerge : State := { spd [] with banks := [(0, { merge := [merge1], back := [0x20000001] })] }

theorem witness_ScratchpadAccess_words :
    (let w := 0x100000000 / 8; let s := { spd [] with wordFlaw := [(w, .single), (w + 1, .double)] };
      s.wordFlaw.get .none w = .single ∧ s.wordFlaw.get .none (w + 1) = .double ∧ s.wordFlaw.get .none (w + 7) = .none ∧
      s.peeks ((w + 7) * 8) 8 ≠ none ∧ (0x3C / 8 = (0x3C + 4 - 1) / 8) ∧ (s.bank 0).merge.length < 8) ∧
    (spdMerge.bank 0).merge = [merge1] ∧ (spdMerge.bank 0).merge[(0 : Fin 8).val]? = some merge1 ∧ (spdMerge.bank 0).back = [0x20000001] := by
  decide +kernel

theorem witness_ScratchpadAccess_mergeHome : spdMerge.mergeHome := by
  intro b e he
  by_cases h : b = 0
  · subst h
    rw [show (spdMerge.bank 0).merge = [merge1] from rfl] at he
    rw [List.mem_singleton.1 he]
    decide +kernel
  · rw [show spdMerge.bank b = {} by simp [spdMerge, State.bank, Tbl.get, Tbl.find, Ne.symm h]] at he
    cases he

theorem witness_HandoverAndDma :
    (let s := spd []; s.domOn (86 + 0 / 8) = true ∧ s.on F.SPD_HANDOVER_PENDING 0 = false ∧ ownerOk (0x701 % 2 ^ 14) = true ∧
      ownerOk (0x801 % 2 ^ 14) = false) ∧
    (spd [(F.SPD_HANDOVER_PENDING, 0, 1)]).on F.SPD_HANDOVER_PENDING 0 = true ∧
    (4096, 4096) ∈ dmaPieces 0 4096 2 0 8192 ∧
    (let s := spd [(F.DMA_LEN_BYTES, 5, 8)]; s.get F.DMA_STATUS_STATE 5 ≠ 1 ∧ s.get F.DMA_LEN_BYTES 5 ≠ 0 ∧ s.get F.DMA_SRC_ADDR 5 % 8 = 0 ∧
      s.get F.DMA_DST_ADDR 5 % 8 = 0 ∧ s.get F.DMA_LEN_BYTES 5 % 8 = 0 ∧ bit (1 : W32).toNat 3 = false ∧ bit (8 : W32).toNat 0 = false ∧
      s.dma.find 5 = none) ∧
    (spd [(F.DMA_LEN_BYTES, 5, 12)]).get F.DMA_LEN_BYTES 5 % 8 ≠ 0 ∧
    (let d : DmaRun := { fill := true, src := 0, dst := 0x100000000, len := 16, pattern := 0 };
      let s := { spd [(F.SPD_OWN_OWNER, 0, 4)] with dma := [(0, d)] }; let x := { d with stop := true };
      s.dma.find 0 = some d ∧ s.dmaFrozen = false ∧ s.power.asleep = false ∧ d.stop = false ∧ x.stop = true ∧ (8 : W32).toNat < d.len ∧
      (dmaMove 0 d d.len {} s).1 = .done ∧ (dmaMove 0 d (8 / 8 * 8) {} s).1 = .done) ∧
    (let d : DmaRun := { fill := true, src := 0, dst := 0x100000000, len := 16, pattern := 0 };
      let s := { spd [] with dma := [(0, d)] }; (dmaMove 0 d d.len {} s).1 = .failed .notOwner 0x100000000) ∧
    (let s := { spd [] with vrd := { job := .load } }; s.vrd.job = .load ∧ s.domOn 84 = true) ∧ (spd []).vrd.job ≠ .load := by decide +kernel

/-- DDR5 channel 0 powered in state `st`, with its first two lines written. -/
def dram (st : Nat) (f : List (Fld × Nat × Nat)) : State :=
  { at_ ([(F.PWR_DOM_STATE_ON, 2, 0xFFFFFFFF), (F.DMC_STATUS_STATE, 0, st), (F.DMC_TSET0_VALID, 0, 1), (F.DMC_CTRL_EN, 0, 1)] ++ f) with
    mem := (List.range 128).map fun i => ((0x100000000000 + i, 0x11) : Host.Cell) }
def wideT : TrainResult := { rd := Vector.replicate 10 16, wr := Vector.replicate 10 16, temp := 40 }
def narrowT : TrainResult := { wideT with rd := (Vector.replicate 10 16).set 9 15 }

theorem witness_DramChannels_states :
    (let s := dram 0 [(F.DMC_CTRL_EN, 0, 0)]; s.chanState 0 = 0 ∧ s.domOn 90 = true ∧ s.on F.DMC_TSET0_VALID 0 = true ∧ bit (1 : W32).toNat 3 = false) ∧
    (dram 0 [(F.DMC_TSET0_VALID, 0, 0)]).on F.DMC_TSET0_VALID 0 = false ∧ (at_ [(F.PWR_DOM_STATE_ON, 2, 0)]).domOn 90 = false ∧
    (let s := dram 1 []; s.chanState 0 = 1 ∧ s.on F.DMC_TSET0_VALID 1 = false ∧ s.on F.DMC_CTRL_INIT_FILL 0 = false) ∧
    (let s := dram 1 [(F.DMC_CTRL_INIT_FILL, 0, 1), (F.DMC_TSET0_VALID, 1, 1)]; s.on F.DMC_CTRL_INIT_FILL 0 = true ∧ s.on F.DMC_TSET0_VALID 1 = true) ∧
    (∀ i : Fin 10, 16 ≤ wideT.rd[i].toNat ∧ 16 ≤ wideT.wr[i].toNat) ∧ ¬ (∀ i : Fin 10, 16 ≤ narrowT.rd[i].toNat ∧ 16 ≤ narrowT.wr[i].toNat) ∧
    (∀ st : Fin 8, (dram st.val []).chanState 0 = st.val) ∧
    (let s := dram 3 []; s.poolInService 0 = false) ∧
    (let s := dram 3 [(F.LDG_POOL_PAGES_COUNT, 0, 1), (F.LDG_CTRL_EN, 0, 1)]; s.poolInService 0 = true ∧ s.get F.LDG_POOL_PAGES_COUNT 0 ≠ 0) := by
  decide +kernel

theorem witness_DramChannels_operations :
    (let s := dram 3 [(F.DMC_RETRAIN_DRIFT_EN, 0, 1), (F.DMC_RETRAIN_DRIFT_THR, 0, 7), (F.DMC_RETRAIN_TEMP_EN, 0, 1), (F.DMC_TEMP_AT_TRAIN, 0, 0xFE)];
      s.on F.DMC_RETRAIN_DRIFT_EN 0 = true ∧ s.get F.DMC_RETRAIN_DRIFT_THR 0 < 8 ∧ bit (0x100 : W32).toNat 8 = true ∧
      s.on F.DMC_RETRAIN_TEMP_EN 0 = true ∧ 10 < ((9 : BitVec 8).toInt - (BitVec.ofNat 8 (s.get F.DMC_TEMP_AT_TRAIN 0)).toInt).natAbs) ∧
    (dram 5 [(F.DMC_CTRL_AUTO_RETIRE, 0, 1)]).on F.DMC_CTRL_AUTO_RETIRE 0 = true ∧ (dram 5 [(F.DMC_CTRL_EN, 0, 0)]).on F.DMC_CTRL_EN 0 = false ∧
    (let s := dram 3 [(F.DMC_STATUS_B_TRAINED, 0, 1)]; bit (3 : W32).toNat 1 = true ∧ (3 : W32).toNat % 2 ≠ s.get F.DMC_STATUS_ACTIVE_SET 0 ∧
      s.on F.DMC_STATUS_B_TRAINED 0 = true ∧ (2 : W32).toNat % 2 = s.get F.DMC_STATUS_ACTIVE_SET 0) ∧
    (let s := { dram 4 [] with chans := [(0, { target := 1 })] }; s.chanState 0 = 4 ∧ (s.chan 0).target < 2 ∧ s.on F.DMC_CTRL_EN 0 = true) ∧
    (dram 3 [(F.DMC_PORT_TARGET_NS, 5, 100)]).get F.DMC_PORT_TARGET_NS 5 ≠ 0 ∧ (dram 3 [(F.DMC_PORT_TARGET_NS, 5, 0)]).get F.DMC_PORT_TARGET_NS 5 = 0 := by
  decide +kernel

def dq (off : Nat) (n : Nat) : SandReq :=
  { op := .write, addr := BitVec.ofNat 48 (0x100000000000 + off), len := BitVec.ofNat 12 (n - 1), data := List.replicate n 2, ini := 0x4A }

theorem witness_DramData_requests :
    (let s := dram 3 []; let c := s.get F.DMC_CONFIG_CAPACITY 0 * 2 ^ 30; c < 2 ^ 36 ∧ c < c + 1 ∧ 0 + 8 ≤ c ∧ s.domOn 90 = true ∧
      s.cacheDenied (dq 0 8).ini.val 0x100000000000 8 = false ∧ (dq 0 8).data.length = (dq 0 8).len.toNat + 1 ∧
      (dq 0 8).addr.toNat = 0x100000000000 + 0 * 2 ^ 36 + 0 ∧ s.peeks 0x100000000000 64 = some (List.replicate 64 0x11) ∧
      s.lineFlaw.get .none 0x4000000000 = .none ∧ s.tagOk 0x100000000000 = true ∧ 0 % 64 + 8 ≤ 64) ∧
    (let s := dram 3 [(F.PGR_CACHE_BASE_ADDR, 0, 0x100000000), (F.PGR_CACHE_SLOTS_COUNT, 0, 1), (F.PGR_CTRL_EN, 0, 1)];
      s.cacheDenied 0x4A 0x100000000000 8 = true) ∧
    (let s := { dram 3 [] with lineFlaw := [(0x4000000000, .single), (0x4000000001, .double)] };
      s.lineFlaw.get .none 0x4000000000 = .single ∧ s.lineFlaw.get .none 0x4000000001 = .double ∧ s.get F.DMC_UE_LIMIT_COUNT 0 = 0 ∧
      s.on F.DMC_ERR_LOG_VALID 0 = false) ∧
    (let s := { dram 3 [(F.MEE_RGN_CTRL_EN, 0, 1), (F.MEE_RGN_BASE_ADDR, 0, 0x100000000), (F.MEE_RGN_LIMIT_ADDR, 0, 0x100000000)] with
        memKeys := [(0, .generated 3)], seals := [(0x4000000000, some (.generated 2))] };
      s.tagOk 0x100000000000 = false ∧ s.lineKey 0x100000000000 = some (some (.generated 3)) ∧ s.on F.MEE_LOG_VALID = false) := by decide +kernel

theorem witness_DramData_regions :
    (let s := { dram 3 [(F.MEE_RGN_BASE_ADDR, 0, 0x100000000), (F.MEE_RGN_LIMIT_ADDR, 0, 0x100000000)] with memKeys := [(0, .generated 3)] };
      s.locked 17 = false ∧ bit (1 : W32).toNat 0 = true ∧ s.on F.MEE_RGN_CTRL_EN 0 = false ∧ (s.memKeys.find 0).isSome = true ∧
      0x100000000000 ≤ s.get F.MEE_RGN_BASE_ADDR 0 * 4096 ∧ s.get F.MEE_RGN_BASE_ADDR 0 ≤ s.get F.MEE_RGN_LIMIT_ADDR 0) ∧
    (dram 3 []).memKeys.find 0 = none ∧
    (let s := dram 3 [(F.KEY_LOCK_UNITS, 0, 2 ^ 17)]; s.locked 17 = true ∧ s.on F.MEE_RGN_CTRL_EN 0 ≠ bit (1 : W32).toNat 0 ∧
      s.on F.KEY_VIOL_LOG_VALID = false) := by decide +kernel


theorem witness_ScratchpadAccess_clock :
    (let s := spd [(F.CKG_GATE_GEODE_UNIT, 0, 0)]; s.domOn (86 + 0 / 8) = true ∧ s.unitClocked (10 + 0 / 8) = false) ∧
    (spd []).unitClocked (10 + 0 / 8) = true ∧ ({ q8 with op := .writeP } : SandReq).op = .writeP ∧
    (let s := spd [(F.SPD_HANDOVER_PENDING, 0, 1)]; s.on F.SPD_HANDOVER_PENDING 0 = true ∧ s.unitClocked (10 + 0 / 8) = true) ∧
    (let s := { spd [] with vrd := { job := .load } }; s.vrd.job = .load ∧ s.unitClocked 8 = true) := by decide +kernel

theorem witness_DramChannels_supply :
    (dram 1 []).supplied .vddqDmc = true ∧ ({ dram 1 [] with supplyOff := [.vddqDmc] } : State).supplied .vddqDmc = false ∧
    ((dram 5 []).chan 0).queue = [] ∧ (let s := dram 4 []; s.chanState 0 = 4 ∧ (s.chan 0).queue = []) := by decide +kernel

theorem witness_DramData_clock :
    (let s := dram 3 []; s.unitClocked (14 + 0) = true ∧ s.chanState 0 = 3 ∧ s.cacheDenied (dq 0 64).ini.val 0x100000000000 64 = false) ∧
    (let s := dram 3 [(F.CKG_GATE_GEODE_UNIT, 0, 0)]; s.domOn (90 + 0) = true ∧ s.unitClocked (14 + 0) ≠ true) ∧
    (dram 4 []).chanState 0 = 4 ∧ (dram 7 []).chanState 0 = 7 ∧
    (let q : SandReq := { dq 0 64 with op := .writeP }; q.op = .writeP ∧ q.data.length = q.len.toNat + 1) := by decide +kernel

/-! Clocks and power (17). -/

/-- Every domain on and wanted, input 0 stable. -/
def pwrOn (f : List (Fld × Nat × Nat)) : State :=
  at_ ([(F.PWR_DOM_STATE_ON, 0, 0xFFFFFFFF), (F.PWR_DOM_STATE_ON, 1, 0xFFFFFFFF), (F.PWR_DOM_STATE_ON, 2, 0xFFFFFFFF),
    (F.PWR_DOM_ON_ON, 0, 0xFFFFFFFF), (F.PWR_DOM_ON_ON, 1, 0xFFFFFFFF), (F.PWR_DOM_ON_ON, 2, 0xFFFFFFFF), (F.CKG_MON_STATUS_STABLE, 0, 1)] ++ f)

theorem witness_ClockTree_monitors :
    (pwrOn [(F.TMG_STATUS_HOLDOVER, 0, 1)]).on F.TMG_STATUS_HOLDOVER = true ∧ (0 : Fin 3).val ≠ 2 ∧
    (let s := pwrOn [(F.CKG_SYN_STATUS_STATE, 5, 2), (F.CKG_SYN_CTRL_FALLBACK, 5, 1), (F.CKG_SYN_STATUS_STATE, 6, 3), (F.CKG_SYN_CTRL_INPUT, 6, 1),
        (F.CKG_SYN_STATUS_STATE, 7, 2), (F.CKG_SYN_CTRL_FALLBACK, 7, 3), (F.CKG_SYN_STATUS_STATE, 8, 2), (F.CKG_SYN_CTRL_INPUT, 8, 1), (F.CKG_MON_STATUS_STABLE, 1, 1)];
      s.synActive 5 = some false ∧ s.synInput 5 false = 0 ∧ s.synInput 5 true = 1 ∧ s.on F.CKG_MON_STATUS_STABLE 1 = true ∧
      s.synActive 6 = some true ∧ s.synActive 7 = some false ∧ s.synInput 7 true = 3 ∧ s.synActive 8 = some false ∧ s.synInput 8 false ≠ 0) ∧
    (let s := { pwrOn [(F.CKG_SYN_STATUS_STATE, 5, 4)] with synths := [(5, { relock := some false })] };
      s.synState 5 = 4 ∧ (s.synth 5).relock = some false ∧ s.synInput 5 false = 0 ∧ s.synState 6 ≠ 4) ∧
    (pwrOn []).boundariesRun = false ∧ (pwrOn [(F.TMG_STATUS_QTZ_LOCK, 0, 1)]).boundariesRun = true := by decide +kernel

theorem witness_ClockTree_synthesisers :
    bits (3 : W32).toNat 0 2 = 3 ∧ bit (0x81020002 : W32).toNat 31 = true ∧ bits (0x81020002 : W32).toNat 0 2 ≠ 3 ∧
    (let s := pwrOn [(F.CKG_SYN_CTRL_EN, 5, 1)]; bit (s.rd R.CKG_SYN_CTRL 5).toNat 31 = true ∧
      bits (s.rd R.CKG_SYN_CTRL 5).toNat 0 2 ≠ 3 ∧ bits (s.rd R.CKG_SYN_CTRL 5).toNat 0 22 ≠ bits ((s.rd R.CKG_SYN_CTRL 5).toNat ^^^ 1) 0 22) ∧
    (let s := { pwrOn [(F.CKG_SYN_STATUS_STATE, 5, 1), (F.CKG_SYN_CTRL_M, 5, 32)] with synths := [(5, { relock := some false })] };
      (s.synth 5).relock = some false ∧ s.synState 5 = 1 ∧ s.srcStable (s.synInput 5 false) = true ∧ 16 ≤ s.get F.CKG_SYN_CTRL_M 5 ∧
      s.get F.CKG_SYN_CTRL_P 5 = 0 ∧ 5000 * 1 ≤ (125000 : BitVec 24).toNat ∧ (125000 : BitVec 24).toNat ≤ 400000 * 1 ∧ 2400000 * 1 ≤ 125000 * 32 ∧
      125000 * 32 ≤ 4800000 * 1) ∧
    (pwrOn [(F.CKG_SYN_STATUS_STATE, 5, 4)]).synState 5 = 4 ∧ (pwrOn []).synState 5 ≠ 4 ∧
    (let s := pwrOn [(F.CKG_SYN_CTRL_REVERT, 5, 1), (F.CKG_SYN_STATUS_STATE, 5, 3)]; s.on F.CKG_SYN_CTRL_REVERT 5 = true ∧ s.synState 5 = 3 ∧
      s.srcStable (s.synInput 5 false) = true) ∧
    (pwrOn [(F.CKG_SYN_STATUS_STATE, 5, 5)]).synState 5 = 5 ∧ (pwrOn [(F.CKG_SYN_CTRL_REVERT, 5, 0)]).on F.CKG_SYN_CTRL_REVERT 5 = false ∧
    (let x : Synth := { running := true, exp := 4, rampUp := true }; x.rampUp = true ∧ 1 < x.exp) ∧
    (let x : Synth := { running := true, exp := 4, rampDown := true }; x.rampUp = false ∧ x.rampDown = true ∧ 4 ≤ x.exp) := by decide +kernel

theorem witness_ClockTree_gates :
    (let s := pwrOn []; s.locked 21 = false ∧ s.on F.CKG_GATE_TOP_ROOT = true ∧ bit (1 : W64).toNat 0 = true ∧ bits (0x1F : W64).toNat 1 4 = 15 ∧
      ∀ r : Fin 16, ∀ c : Fin 4, s.bayState (r.val * 4 + c.val) = 0) ∧
    (let s := pwrOn [(F.CKG_GATE_TOP_ROW, 0, 0xFFFF), (F.CKG_GATE_BAY_BAYS, 0, 1), (F.FEN_BAY_STATUS_STATE, 0, 4)];
      bit (s.get F.CKG_GATE_TOP_ROW) 0 = true ∧ bit (1 : W64).toNat 8 = false ∧ bit (s.get F.CKG_GATE_BAY_BAYS) 0 = true ∧ s.domOn 0 = true ∧
      s.bayState 0 = 4) ∧
    (0x48 : Ini).val = 0x48 ∧ (0x40 : Ini).val ≠ 0x48 ∧ bit (0 : W64).toNat 0 ≠ (pwrOn []).on F.CKG_GATE_TOP_ROOT := by decide +kernel

/-- A request in mailbox 3. -/
def pwrAsks (code d v : Nat) (f : List (Fld × Nat × Nat)) : State :=
  pwrOn ([(F.KEY_REQ_STATUS_BUSY, 3, 1), (F.KEY_REQ_CTRL_CODE, 3, code), ((⟨R.KEY_REQ_ARG, 0, 64⟩ : Fld), 12, d),
    ((⟨R.KEY_REQ_ARG, 0, 64⟩ : Fld), 13, v)] ++ f)

theorem witness_PowerManager_requests :
    (let s := pwrAsks 3 95 1 []; s.boxNext = some 3 ∧ s.get F.KEY_REQ_CTRL_CODE 3 = 3 ∧ (s.boxArg 3 0).toNat = 95 ∧ (s.boxArg 3 1).toNat = 1 ∧ 95 ≠ 76 + 3) ∧
    (pwrAsks 3 96 2 []).boxArg 3 0 = 96 ∧ (pwrAsks 3 85 0 [(F.LDG_STATUS_RUNNING, 0, 1)]).on F.LDG_STATUS_RUNNING = true ∧
    (pwrAsks 3 84 0 [(F.VRD_PORT_CTRL_EN, 7, 1)]).on F.VRD_PORT_CTRL_EN 7 = true ∧ (pwrAsks 3 76 0 []).on F.WDG_CORE_STATUS_OFFLINE 0 = false ∧
    (pwrAsks 3 90 0 [(F.LDG_POOL_PAGES_COUNT, 0, 1), (F.LDG_CTRL_EN, 0, 1)]).poolInService 0 = true ∧
    (pwrAsks 3 89 0 [(F.WDG_CORE_CTRL_RUN, 0, 1)]).on F.WDG_CORE_CTRL_RUN 0 = true ∧
    (let s := pwrAsks 4 4 0 []; s.boxNext = some 3 ∧ s.get F.KEY_REQ_CTRL_CODE 3 = 4 ∧ (s.boxArg 3 0).toNat ≤ 4 ∧ s.on F.PWR_STATE_IN_TRANSITION = false ∧
      s.dbg.level < 3 ∧ s.wakesActive = [] ∧ s.get F.PWR_WAKE_EN_EN = 0) ∧
    (pwrAsks 4 4 0 [(F.PWR_STATE_IN_TRANSITION, 0, 1)]).on F.PWR_STATE_IN_TRANSITION = true ∧
    3 ≤ ({ pwrOn [] with dbg := { level := 3 } } : State).dbg.level := by decide +kernel

theorem witness_PowerManager_domains :
    (let s := pwrOn [(F.PWR_DOM_ON_ON, 2, 0x7FFFFFFF)]; s.domOn 95 = true ∧ s.domWanted 95 = false ∧ s.domSwitching 95 = false) ∧
    (let s := pwrOn [(F.PWR_DOM_STATE_ON, 2, 0x7FFFFFFF)]; s.domOn 95 = false ∧ s.domWanted 95 = true ∧ s.domSwitching 95 = false ∧ s.domainsServed = true ∧
      s.rampFree 95 = true) ∧
    (let s := pwrOn [(F.PWR_DOM_STATE_ON, 0, 0xFFFFFFFE), (F.PWR_DOM_STATE_ON, 2, 0xFFFFFFFF)]; s.domOn 0 = false ∧ s.domWanted 0 = true ∧ s.railUp 0 = true ∧
      s.rampFree 0 = true) ∧
    (let s := pwrOn [(F.PWR_DOM_STATE_ON, 2, 0xFFFFFFFF - 2 ^ 12), (F.WDG_CORE_CTRL_RUN, 0, 1)]; s.domOn 76 = false ∧ s.on F.WDG_CORE_CTRL_RUN 0 = true ∧
      bit (s.get F.DBG_RESET_HALT_CORES) 0 = false ∧ s.rampFree 76 = true) ∧
    ({ pwrOn [] with power := { switching := [(76, true)] } } : State).domSwitching 76 = true ∧
    bit ((pwrOn [(F.PWR_RETAIN_BANKS, 0, 0xFFFFFFFE)]).get F.PWR_RETAIN_BANKS) 0 = false := by decide +kernel

theorem witness_PowerManager_wakes :
    (let s := pwrOn [(F.PWR_WAKE_EN_EN, 0, 0x800), (F.PWR_STATE_CURRENT, 0, 1)]; bit (s.get F.PWR_WAKE_EN_EN) 11 = true ∧
      s.get F.PWR_STATE_CURRENT = 1 ∧ s.on F.PWR_STATE_EMULATED = false ∧ bit (s.get F.PWR_WAKE_EN_EN) 10 = false) ∧
    (let s := pwrOn [(F.PWR_WAKE_EN_EN, 0, 0x400), (F.PWR_STATE_CURRENT, 0, 3), (F.PWR_STATE_EMULATED, 0, 1)]; bit (s.get F.PWR_WAKE_EN_EN) 10 = true ∧
      s.get F.PWR_STATE_CURRENT = 3 ∧ s.on F.PWR_STATE_EMULATED = true) ∧
    (let s := { pwrOn [(F.PWR_CMP_CTRL_EN, 2, 1), (F.PWR_CMP_CTRL_SEL, 2, 8), (F.PWR_CMP_CTRL_THRESH, 2, 95), (F.PWR_CMP_CTRL_HYST, 2, 10), (F.PWR_CMP_CTRL_FILTER, 2, 3)]
        with cmpRuns := [(2, 3)] };
      s.on F.PWR_CMP_CTRL_EN 2 = true ∧ s.get F.PWR_CMP_CTRL_SEL 2 ≤ 16 ∧ s.on F.PWR_CMP_STATUS_OUT 2 = false ∧ s.get F.PWR_CMP_CTRL_FILTER 2 ≤ s.cmpRuns.get 0 2 ∧
      s.on F.PWR_CMP_CTRL_DIR 2 = false ∧ (s.get F.PWR_CMP_CTRL_THRESH 2 : Int) ≤ 95) ∧
    (pwrOn [(F.PWR_CMP_STATUS_OUT, 2, 1)]).on F.PWR_CMP_STATUS_OUT 2 = true ∧ (pwrOn []).on F.PWR_CMP_CTRL_EN 2 = false := by decide +kernel


theorem witness_ClockTree_trips :
    (let s := pwrOn [(F.CKG_MON_CTRL_KHZ, 0, 0), (F.CKG_MON_CTRL_KHZ, 1, 125000), (F.CKG_MON_CTRL_TOL, 1, 4)]; s.get F.CKG_MON_CTRL_KHZ 0 = 0 ∧
      ((1000 * 1000 : Int) - 8 * s.get F.CKG_MON_CTRL_KHZ 1).natAbs * 40 ≤ 8 * s.get F.CKG_MON_CTRL_KHZ 1 * s.get F.CKG_MON_CTRL_TOL 1 ∧
      ¬((1000 * 1200 : Int) - 8 * s.get F.CKG_MON_CTRL_KHZ 1).natAbs * 40 ≤ 8 * s.get F.CKG_MON_CTRL_KHZ 1 * s.get F.CKG_MON_CTRL_TOL 1 ∧
      s.on F.TMG_STATUS_HOLDOVER = false ∧ s.boundariesRun = false) ∧
    (let s := { pwrOn [(F.CKG_SYN_STATUS_STATE, 5, 5), (F.CKG_SYN_CTRL_REVERT, 5, 1), (F.CKG_SYN_STATUS_LOCK, 5, 1), (F.CKG_SYN_STATUS_STATE, 6, 5),
        (F.CKG_SYN_CTRL_REVERT, 6, 1), (F.CKG_SYN_STATUS_STATE, 7, 1), (F.CKG_SYN_STATUS_STATE, 8, 5)] with
        synths := [(5, { relock := some false, running := true, exp := 4, rampDown := true }), (7, { relock := some false, rampDown := true }),
          (8, { relock := some false })] };
      s.synState 5 = 5 ∧ (s.synth 5).relock = some false ∧ s.synInput 5 false = 0 ∧ s.srcStable 0 = true ∧ (s.synth 5).running = true ∧
      4 ≤ (s.synth 5).exp ∧ (s.synth 5).rampUp = false ∧ (s.synth 5).rampDown = true ∧ s.on F.CKG_SYN_STATUS_LOCK 5 = true ∧
      s.synState 6 = 5 ∧ (s.synth 6).relock = none ∧ s.srcStable (s.synInput 6 false) = true ∧
      s.synState 7 = 1 ∧ (s.synth 7).rampDown = true ∧ s.synState 8 = 5 ∧ (s.synth 8).running = false) := by decide +kernel

theorem witness_PowerManager_comparator :
    (let s := { pwrOn [(F.PWR_CMP_CTRL_EN, 2, 1), (F.PWR_CMP_CTRL_SEL, 2, 8), (F.PWR_CMP_CTRL_THRESH, 2, 95), (F.PWR_CMP_CTRL_FILTER, 2, 3),
        (F.PWR_WAKE_EN_EN, 0, 4), (F.PWR_STATE_CURRENT, 0, 1)] with cmpRuns := [(2, 3)] };
      s.get F.PWR_CMP_CTRL_SEL 2 ≤ 16 ∧ s.on F.PWR_CMP_STATUS_OUT 2 = false ∧ s.on F.PWR_CMP_CTRL_DIR 2 = false ∧ s.get F.PWR_CMP_CTRL_THRESH 2 ≤ 95 ∧
      s.get F.PWR_CMP_CTRL_FILTER 2 ≤ s.cmpRuns.get 0 2 ∧ bit (s.get F.PWR_WAKE_EN_EN) 2 = true ∧ s.get F.PWR_STATE_CURRENT = 1 ∧
      s.on F.PWR_STATE_EMULATED = false) ∧
    (let s := pwrOn [(F.PWR_CMP_CTRL_EN, 2, 1), (F.PWR_CMP_CTRL_SEL, 2, 17)]; s.on F.PWR_CMP_CTRL_EN 2 = true ∧ 17 ≤ s.get F.PWR_CMP_CTRL_SEL 2) := by
  decide +kernel

/-! Pins, peripherals, events (18). -/

theorem witness_PinsAndPeripherals_pins :
    (let s := at_ []; s.locked 23 = false ∧ bits (5 : W32).toNat 0 19 ≠ bits (s.rd R.SVP_PIN_CTRL 63).toNat 0 19 ∧ s.on F.SVP_PIN_STATUS_SWITCHING 63 = false ∧
      s.power.asleep = false ∧ s.xtrigOf 63 = [] ∧ s.svc.high.contains 63 ≠ true ∧ ∀ k : Fin 8, s.get F.SVP_TMR_CTRL_MODE k.val ≠ 2) ∧
    (let s := at_ [(F.KEY_LOCK_UNITS, 0, 2 ^ 23)]; s.locked 23 = true ∧ bits (5 : W32).toNat 0 27 ≠ bits (s.rd R.SVP_PIN_CTRL 3).toNat 0 27) ∧
    (let s := at_ [(F.SVP_PIN_STATUS_SWITCHING, 4, 1), (F.SVP_PIN_CTRL_IRQ_MODE, 4, 5)]; s.on F.SVP_PIN_STATUS_SWITCHING 4 = true ∧ s.svc.latch.find 4 = none ∧
      s.get F.SVP_PIN_CTRL_IRQ_MODE 4 = 5) := by decide +kernel

theorem witness_PinsAndPeripherals_serial :
    (let s := { at_ [(F.SVP_UART_CTRL_EN, 3, 1)] with svc := { uarts := [(3, { tx := List.replicate 15 1, rx := [7] }), (2, { tx := List.replicate 16 1, rx := List.replicate 16 2 })] } };
      (s.uart 3).tx.length < 16 ∧ 16 ≤ (s.uart 2).tx.length ∧ (s.uart 3).rx = 7 :: [] ∧ (s.uart 1).rx = [] ∧ 16 ≤ (s.uart 2).rx.length ∧
      s.on F.SVP_UART_CTRL_EN 3 = true ∧ s.on F.SVP_UART_CTRL_EN 2 = false) ∧
    (let s := at_ [(F.SVP_PIN_CTRL_FUNC, 9, 2), (F.SVP_PIN_CTRL_SIG_A, 9, 7)]; (s.sigPin 2 (3 * 2 + 1)).isSome = true) ∧
    (let s := at_ [(F.SVP_SPI_STATUS_BUSY, 1, 1), (F.SVP_I2C_STATUS_BUSY, 3, 1), (F.SVP_I2C_CMD_OP, 3, 4)]; s.on F.SVP_SPI_STATUS_BUSY 1 = true ∧
      s.on F.SVP_SPI_STATUS_BUSY 0 = false ∧ s.on F.SVP_I2C_STATUS_BUSY 3 = true ∧ s.on F.SVP_I2C_STATUS_BUSY 0 = false ∧ s.get F.SVP_I2C_CMD_OP 3 = 4) ∧
    (let s := at_ [(F.SVP_TMR_CTRL_MODE, 7, 1)]; s.get F.SVP_TMR_CTRL_MODE 7 = 1 ∧ s.get F.SVP_TMR_CTRL_MODE 6 ≠ 1 ∧
      ¬(s.freezing = true ∧ s.on F.DBG_FREEZE_SVP = true)) := by decide +kernel

theorem witness_EventController_rise :
    (let s := at_ [(F.FEN_FENCED_BAYS, 0, 0), (F.EVC_SRC_EN, 1, 1), (F.EVC_SRC_TARGET, 1, 4), (F.EVC_SRC_HOST, 1, 1)];
      ¬ (490 ≤ 1 ∨ s.srcDerived 1 = some false ∨ (1 < 256 ∧ 1 % 4 < 2 ∧ s.fenced (1 / 4) = true)) ∧ s.on F.EVC_SRC_EN 1 = true ∧
      s.get F.PWR_STATE_CURRENT ≠ 1 ∧ s.on F.EVC_SRC_HOST 1 = true ∧ s.evc.host.length < 256) ∧
    (at_ []).on F.EVC_SRC_EN 1 = false ∧ (at_ []).fenced 0 = true ∧
    (let s := at_ [(F.FEN_FENCED_BAYS, 0, 0), (F.EVC_SRC_EN, 1, 1), (F.EVC_SRC_TARGET, 1, 0x100 + 4), (F.PWR_STATE_CURRENT, 0, 1), (F.PWR_WAKE_EN_EN, 0, 0x800)];
      s.get F.PWR_STATE_CURRENT = 1 ∧ s.on F.PWR_STATE_EMULATED = false ∧ s.get F.EVC_SRC_TARGET 1 % 256 ≠ 0 ∧ s.on F.KTP_SVC_EVT_EN = false ∧
      s.on F.KTP_SVC_TRACE_EN = false ∧ bit (s.get F.PWR_WAKE_EN_EN) 11 = true) := by decide +kernel

/-- Sources 86 and 419 pending for target 2, as in the manual's example. -/
def evcTwo : State := ((at_ [(F.EVC_SRC_PRI, 86, 5), (F.EVC_SRC_TARGET, 86, 4), (F.EVC_SRC_EN, 86, 1), (F.EVC_SRC_PRI, 419, 5), (F.EVC_SRC_TARGET, 419, 4),
  (F.EVC_SRC_EN, 419, 1), (F.EVC_THR_THR, 2, 2)]).setPend 86 true).setPend 419 true

theorem witness_EventController_claim :
    (∀ n ∈ [86, 419], n < 512 ∧ bit (evcTwo.get F.EVC_SRC_TARGET n) 2 = true ∧ evcTwo.evcPend n = true ∧ evcTwo.evc.claimed.find n = none ∧
      evcTwo.get F.EVC_THR_THR 2 < evcTwo.get F.EVC_SRC_PRI n ∧ evcTwo.get F.EVC_SRC_PRI n = 5) ∧
    (∀ n, n < 512 → n ≠ 86 → n ≠ 419 → evcTwo.evcPend n = false) ∧ (∀ n, n < 512 → (at_ []).evcPend n = false) ∧
    ({ evcTwo with evc := { claimed := [(86, 2)] } } : State).evc.claimed.find (0x56 % 512) = some 2 ∧ evcTwo.evc.claimed.find 86 ≠ some 2 := by
  decide +kernel


theorem witness_PinsAndPeripherals_wake :
    (at_ []).get F.PWR_STATE_CURRENT = 0 ∧ ({ at_ [] with power := { asleep := true } } : State).power.asleep = true ∧
    (let s := at_ [(F.SVP_PIN_CTRL_IRQ_MODE, 9, 1), (F.SVP_PIN_CTRL_WAKE, 9, 1), (F.PWR_WAKE_EN_EN, 0, 0x100), (F.PWR_STATE_CURRENT, 0, 1)];
      s.xtrigOf 9 = [] ∧ s.svc.high.contains 9 = false ∧ s.get F.SVP_PIN_CTRL_IRQ_MODE 9 = 1 ∧ s.on F.SVP_PIN_STATUS_SWITCHING 9 = false ∧
      s.on F.SVP_PIN_STATUS_IRQ 9 = false ∧ s.on F.SVP_PIN_CTRL_WAKE 9 = true ∧ bit (s.get F.PWR_WAKE_EN_EN) 8 = true ∧
      s.get F.PWR_STATE_CURRENT = 1 ∧ s.on F.PWR_STATE_EMULATED = false) := by decide +kernel

/-! Debug (19) and resets (20, 21). -/

/-- The debug port in state `d`. -/
def dbgAt (d : Dbg) (f : List (Fld × Nat × Nat)) : State :=
  { at_ ([(F.PWR_DOM_STATE_ON, 2, 0xFFFFFFFF), (F.WDG_CORE_CTRL_RUN, 0, 1)] ++ f) with dbg := d }

theorem witness_DebugPort_tap :
    1 ≤ (dbgAt { level := 1 } []).dbg.level ∧ (dbgAt {} []).dbg.level = 0 ∧ (0xFF : Byte).toNat ∉ [0, 1, 2, 3, 4, 0x10, 0x11, 0x12] ∧
    (dbgAt {} []).on F.PWR_STATE_EMULATED = false ∧ (true : Bool) ≠ (dbgAt {} []).power.asleep ∧ (false : Bool) = (dbgAt {} []).power.asleep := by
  decide +kernel

theorem witness_DebugPort_unlock :
    (let s := dbgAt { chal := some (5, 4), nonce := some 5, fails := 6 } []; s.power.asleep = false ∧ s.dbg.lockedOut = false ∧ s.dbg.nonce = some 5 ∧
      s.dbg.chal = some (5, 4) ∧ s.dbg.level ≤ 4 ∧ s.fuses.lockout = false ∧ (4 : BitVec 256).toNat % 8 = 4 ∧ (5 : BitVec 256).toNat % 8 = 5) ∧
    (dbgAt { lockedOut := true } []).dbg.lockedOut = true ∧ (dbgAt {} []).dbg.chal = none := by decide +kernel

theorem witness_DebugPort_access :
    (let s := dbgAt { level := 2, busy := true, cmd := 1, csw := 3, addr := 0xF90000000000 } []; s.power.asleep = false ∧ s.dbg.busy = true ∧
      bits s.dbg.csw.toNat 2 2 = 0) ∧
    (let d : BitVec 40 := BitVec.ofNat 40 (2 ^ 35 + 7 * 2 ^ 32 + 1); bits d.toNat 36 4 = 0 ∧ bit d.toNat 35 = true ∧ bits d.toNat 32 3 = 7 ∧
      d.toNat % 2 ^ 32 % 4 ≠ 0 ∧ (dbgAt { level := 2 } []).dbg.busy = false ∧ bits (BitVec.ofNat 40 (2 ^ 36)).toNat 36 4 ≠ 0) ∧
    (dbgAt { level := 2 } []).dbg.level < 3 ∧ bit (1 : W32).toNat 8 = false ∧
    (let s := dbgAt { level := 3, busy := true, cmd := 2, csw := 0xB, addr := 31 } [(F.DBG_CORE_STATUS_HALTED, 0, 1)]; bits s.dbg.csw.toNat 2 2 = 2 ∧
      bits s.dbg.csw.toNat 4 4 < 9 ∧ s.coreHalted 0 = true ∧ 3 ≤ s.dbg.level ∧ 2 ^ (s.dbg.csw.toNat % 4) = 8 ∧ s.dbg.addr.toNat < 32) ∧
    (let s := dbgAt { level := 3, busy := true, cmd := 1, csw := 0x7, addr := 1 } [(F.DBG_CORE_STATUS_HALTED, 0, 1)]; bits s.dbg.csw.toNat 2 2 = 1 ∧
      (s.core 0).refuses 1 8 0 = false ∧ 1 % 8 ≠ 0) ∧
    (let s := dbgAt { level := 3, busy := true, cmd := 1, csw := 0x3, addr := 0x100000000 } []; s.vapSandOk 0x100000000 false = true ∧
      (sandRead { ini := 0x49, quiet := true } 0x100000000 8 {} s).2.dbg = s.dbg ∧
      (sandWrite { ini := 0x49, quiet := true } 0x100000000 (natBytes 0 8) false {} s).2.dbg = s.dbg) ∧
    (let s := dbgAt { level := 2, busy := true, cmd := 3, csw := 0x400 } []; s.dbg.csw.getLsbD 10 = true ∧ s.warden.booting = true ∧ 2 ≤ s.dbg.level) ∧
    (dbgAt { level := 2, busy := true, cmd := 3 } []).dbg.csw.getLsbD 10 = false := by decide +kernel

theorem witness_RunControl_cores :
    (let s := dbgAt { level := 4 } []; 3 ≤ s.dbg.level ∧ (256 : W32).toNat = 2 ^ 8 ∧ s.haltFires 8 = [] ∧ s.coreHalted 8 = false ∧ s.coreHalted 0 = false ∧
      s.on F.WDG_CORE_CTRL_RUN 0 = true ∧ s.on F.WDG_CORE_CTRL_RUN 1 = false ∧ s.holdsResv 0 = false) ∧
    (let s := { dbgAt { level := 3 } [(F.DBG_CORE_STATUS_HALTED, 1, 1), (F.DBG_CORE_STATUS_DEFERRED, 0, 1)] with resv := [(0, 5)] }; s.holdsResv 0 = true ∧
      s.coreHalted 1 = true ∧ bit (256 : W32).toNat 8 = true ∧ s.on F.DBG_CORE_STATUS_DEFERRED 0 = true ∧ s.haltFires 0 = []) ∧
    (let s := dbgAt { level := 3 } [(F.DBG_XT_CH_HALT_OUT, 15, 1), (F.DBG_XT_CH_FREEZE_OUT, 15, 1)]; (0x8000 : W32).toNat = 2 ^ 15 ∧
      s.get F.DBG_XT_CH_HALT_OUT 15 = 2 ^ 0 ∧ s.haltFires 0 = [] ∧ s.on F.DBG_XT_CH_FREEZE_OUT 15 = true) := by decide +kernel

theorem witness_RunControl_channels :
    (let s := dbgAt {} [(F.DBG_STIM_EN_PORTS, 7, 2 ^ 31)]; s.on F.KTP_SVC_TRACE_EN = false ∧ s.on F.KTP_SVC_EVT_EN = false ∧ (248 : Byte).toNat % 8 = 0 ∧
      (natBytes 0 8).length ∈ [1, 2, 4, 8] ∧ bit (s.get F.DBG_STIM_EN_PORTS 7) ((248 : Byte).toNat / 8) = true ∧ bit (s.get F.DBG_STIM_EN_PORTS 7) 0 = false ∧
      s.dbg.lost = 0 ∧ (s.dbg.trace.map List.length).sum + 24 ≤ 65536) ∧
    (let l := dbgAt { trace := List.replicate 2 (List.replicate 32768 0) } []; 65536 ≤ (l.dbg.trace.map List.length).sum) ∧
    (dbgAt {} [(F.DBG_VT_STATUS_OUT_FULL, 8, 1)]).on F.DBG_VT_STATUS_OUT_FULL 8 = true ∧ (dbgAt {} []).on F.DBG_VT_STATUS_OUT_FULL 8 = false ∧
    4 ≤ (dbgAt { level := 4 } []).dbg.level ∧ (dbgAt { level := 3 } []).dbg.level < 4 := by
  refine ⟨by decide +kernel, ?_, by decide +kernel, by decide +kernel, by decide +kernel, by decide +kernel⟩
  show 65536 ≤ ((List.replicate 2 (List.replicate 32768 (0 : Byte))).map List.length).sum
  rw [List.map_replicate, List.length_replicate]
  decide

theorem witness_DeviceReset :
    (State.reset.railUp 0 = true ∧ State.reset.pgr.run = none ∧ State.reset.slabFenced 0 = false) ∧
    (let s := { at_ [] with railsOff := [3] }; s.railUp 3 = false ∧ s.railUp 0 = true) ∧
    (at_ [(F.PGR_CTRL_EN, 0, 0)]).on F.PGR_CTRL_EN = false ∧
    (let s := { at_ [(F.PGR_CTRL_EN, 0, 1)] with pgr := { rimTaken := true, rim := [(mkFar 3 0 0 240 0, [])] }, railsOff := [3] };
      s.on F.PGR_CTRL_EN = true ∧ s.pgr.rimTaken = true ∧ s.railUp 3 = false) := by decide +kernel


theorem witness_DebugPort_wake :
    (let s := dbgAt {} [(F.PWR_WAKE_EN_EN, 0, 0x400), (F.PWR_STATE_CURRENT, 0, 1)]; (false : Bool) = s.power.asleep ∧
      bit (s.get F.PWR_WAKE_EN_EN) 10 = true ∧ s.get F.PWR_STATE_CURRENT = 1 ∧ s.on F.PWR_STATE_EMULATED = false) ∧
    bit ((dbgAt {} []).get F.PWR_WAKE_EN_EN) 10 = false := by decide +kernel

/-- The bytes that answer a challenge are what the opaque function gives for it. -/
theorem witness_DebugPort_auth :
    (dbgAt { chal := some (5, 4) } []).dbg.chal = some (5, 4) ∧
    Config.unlockHmac (unlockBytes 5 4) = Config.unlockHmac (unlockBytes 5 4) ∧
    ∀ k lv, (dbgAt { chal := some (5, 4) } []).dbg.chal = some (k, lv) → Config.unlockHmac (unlockBytes k lv) ≠ ~~~ Config.unlockHmac (unlockBytes 5 4) := by
  refine ⟨rfl, rfl, fun k lv h => ?_⟩
  obtain ⟨rfl, rfl⟩ : 5 = k ∧ 4 = lv := by simpa [dbgAt] using h
  intro e
  have := congrArg (fun x => x.getLsbD 0) e
  simp at this

/-! Worked examples of the manual. Slices (06, 07): slice 0 of bay 0 running; `w` is the instruction word without its operation code. -/

def op34 (w : Nat) : BitVec 34 := BitVec.ofNat 34 w
def slx (c : Instr) (x : Slice) : Slice := (run c (sliceIn { x with run := .running })).slice 0 0
def accs (v : Int) : Vector (BitVec 56) 4 := (Vector.replicate 4 (0 : BitVec 56)).set 0 (BitVec.ofInt 56 v)
def regs (l : List W24) : Vector W24 8 := Vector.ofFn fun i => l.getD i.val 0

/-- 07, filter: TAP a0, x0, (p0)+m0, (p1)+1 is 0x70_00D4_0000. The first tap of the sample 40. -/
theorem test_tap_first :
    (let y := slx (.tap sx (op34 0x7000D40000)) { x := regs [40], p := #v[0x40, 0, 0, 0], m := #v[1, 0, 0, 0], l := #v[5, 5, 0, 0], dm := [(0, 0xFFFE00)] };
      y.a[0].toInt = -20480 ∧ y.dm = [(0, 0xFFFE00), (0x40, 40)] ∧ y.x[0] = 0 ∧ y.p[0] = 0x41 ∧ y.p[1] = 1) := by decide +kernel

/-- 07, filter: the fifth tap of the second run picks up the oldest sample, and both pointers return to their bases. -/
theorem test_tap_last :
    (let y := slx (.tap sx (op34 0x7000D40000)) { x := regs [200], a := accs 0, p := #v[0x44, 4, 0, 0], m := #v[1, 0, 0, 0], l := #v[5, 5, 0, 0], dm := [(4, 0xFFFE00), (0x44, 7)] };
      y.a[0].toInt = -102400 ∧ y.x[0] = 7 ∧ y.p[0] = 0x40 ∧ y.p[1] = 0) := by decide +kernel

/-- 07, filter: RND x1, a0, 12, half up, unsigned is 0x7C_2000_C900. -/
theorem test_rnd_half_up :
    (slx (.rnd sx (op34 0x7C2000C900)) { a := accs 583680 }).x[1] = 143 ∧ (slx (.rnd sx (op34 0x7C2000C900)) { a := accs 762880 }).x[1] = 186 ∧
    (let y := slx (.rnd sx (op34 0x7C2000C900)) { a := accs (-20480) }; y.x[1] = 0 ∧ y.sat = true) := by decide +kernel

/-- 07, filter: the same with half to even. -/
theorem test_rnd_half_even :
    (slx (.rnd sx (op34 0x7C2000CA00)) { a := accs 583680 }).x[1] = 142 ∧ (slx (.rnd sx (op34 0x7C2000CA00)) { a := accs 112640 }).x[1] = 28 := by
  decide +kernel

/-- 07, filter: COUT x1 and EMIT x1. -/
theorem test_cout_emit :
    (slx (.cout sx (op34 0x3C20000100)) { x := regs [0, 65] }).cout = 65 ∧ (slx (.emit sx (op34 0x9420000000)) { x := regs [0, 65], tag := 9 }).emits = [(65, 9)] := by
  decide +kernel

/-- 07, peak search: MAXS x4, (p2)+1, index from the loop count, at remaining count 4 takes 186 over 65. -/
theorem test_maxs_index :
    (let y := slx (.maxs sx (op34 (4 * 2 ^ 29 + 2 * 2 ^ 24 + 2 ^ 22 + 4 * 2 ^ 8))) { x := regs [0, 0, 0, 0, 65], p := #v[0, 0, 0x80, 0], l := #v[0, 0, 7, 0], dm := [(0x80, 186)], loops := [⟨12, 12, 4⟩], pc := 12 };
      y.x[4] = 186 ∧ y.i0 = 4 ∧ y.p[2] = 0x81) := by decide +kernel

/-- 07, peak search: THE x4, x7 with payload 1 emits 0x0400BA; below the threshold nothing. -/
theorem test_the_emits :
    (slx (.the sx (op34 (4 * 2 ^ 29 + 7 * 2 ^ 26 + 1))) { x := regs [0, 0, 0, 0, 186, 0, 0, 100] }).emits.map (·.1) = [186] ∧
    (slx (.the sx (op34 (4 * 2 ^ 29 + 7 * 2 ^ 26 + 1))) { x := regs [0, 0, 0, 0, 186, 0, 0, 100], i0 := 4 }).emits.map (·.1) = [0x0400BA] ∧
    (slx (.the sx (op34 (4 * 2 ^ 29 + 7 * 2 ^ 26 + 1))) { x := regs [0, 0, 0, 0, 99, 0, 0, 100] }).emits = [] := by decide +kernel

/-- 07, tri-8: the four words of the tower, each added to the lanes from x0. -/
theorem test_t8add_tower :
    (let y := fun (w : W24) (a : Int) => (slx (.t8add sx (op34 0)) { x := regs [w], a := accs a }).a[0].toInt;
      y 0x020A0C (y 0x001E28 (y 0x056450 (y 0x0A3C14 0)))) = 0x011003200098 := by decide +kernel

/-- 07, tri-8: T8HS x1, a0 gives 369, and T8PK x2, a0, 2 with truncation 0x043226. -/
theorem test_t8hs_t8pk :
    (slx (.t8hs sx (op34 (2 ^ 29))) { a := accs 0x011003200098 }).x[1] = 369 ∧
    (slx (.t8pk sx (op34 (2 * 2 ^ 29 + 2 * 2 ^ 12))) { a := accs 0x011003200098 }).x[2] = 0x043226 := by decide +kernel

/-- 06, circular addressing. -/
theorem test_circular : ptrUpdate 0x043 5 1 = 0x044 ∧ ptrUpdate 0x044 5 1 = 0x040 ∧ ptrUpdate 0x040 5 (-1) = 0x044 ∧ ptrUpdate 0x044 5 7 = 0x041 ∧
    ptrUpdate 0x046 5 1 = 0x042 := by decide

/-- 06 R306: the all-zero word is illegal; 07 R373: so is an unused bit, and LOOP with its own address as end. -/
theorem test_illegal_words : sliceLegal 0 0 {} = false ∧ sliceLegal 0x01 (sliceWord 0x01 1) {} = false ∧
    sliceLegal 0x06 (sliceWord 0x06 (op34 (5 * 2 ^ 24 + 16))) { pc := 16 } = false ∧
    sliceLegal 0x06 (sliceWord 0x06 (op34 (5 * 2 ^ 24 + 17))) { pc := 16 } = true := by decide +kernel

/-! Worked examples of the manual, chapter by chapter. -/

/-- 02, Tessaly: an EXA of the crossing 1,002 with EXA_OFFSET 90 selects crossing 912, short tag 0x0390. -/
theorem test_exa_crossing : BitVec.ofNat 16 1002 - BitVec.ofNat 16 90 = (0x0390 : W16) := by decide

/-- 03, Tessaly lanes: LNE_LANE_CTRL, LNE_QPLL and LNE_XBAR. -/
theorem test_lane_registers :
    (let s := ((State.reset.wr R.LNE_LANE_CTRL 13 0x1CD).wr R.LNE_QPLL 3 0x00013202).wr R.LNE_XBAR 13 0x96;
      s.on F.LNE_LANE_CTRL_EN 13 = true ∧ s.on F.LNE_LANE_CTRL_XLOCK 13 = true ∧ s.on F.LNE_LANE_CTRL_SCRAMBLE 13 = true ∧
      s.on F.LNE_LANE_CTRL_AUTO_ALIGN 13 = true ∧ s.get F.LNE_LANE_CTRL_DIV 13 = 1 ∧ s.get F.LNE_QPLL_M 3 = 400 ∧ s.get F.LNE_QPLL_PDIV 3 = 0 ∧
      s.get F.LNE_XBAR_BAY 13 = 6 ∧ s.get F.LNE_XBAR_PORT 13 = 1 ∧ s.on F.LNE_XBAR_EN 13 = true) := by decide +kernel

/-- 04 and 13: the type 0 frame at die column 89, clock row 4, minor 5 of slab 1, and where it lies in bay 31. -/
theorem test_frame_address : mkFar 1 0 4 89 5 = 0x44590500 ∧ farValid 0x44590500 = true ∧ farBay 0x44590500 = some 21 ∧ farMove 31 0x44590500 = 0x4AD10500 ∧
    farValid 0x44590501 = false := by decide +kernel

/-- 05, fragment FIFO: with 1,014 entries stored, 13 entries of a fragment leave 1,023 and a gap marker, and DROPCNT 4; the next
fragment is dropped whole. -/
def fifoNear : State :=
  { fifoOn {} with fabric := { logic := [(0, { blocks := [((0, 8, 0), { fifo := true, widthA := 3, common := true })] })] } }.setFifo blk
    { entries := List.replicate 1014 ⟨0, 0, false⟩, wr := 1014, empty := false, wrSeen := 1014, wrSync := (1014, 1014) }
def fragTo (n : Nat) (s : State) : State := (List.range 13).foldl (fun t k => if k < n then run (.fifoWrite blk 7 (k == 12) 0) t else t) s

theorem test_fifo_full : (let f := (fragTo 9 fifoNear).fifo blk; f.entries.length = 1023 ∧ f.full = true ∧ f.dropCnt = 0) := by decide +kernel
theorem test_fifo_drops :
    (let f := (fragTo 13 fifoNear).fifo blk; f.dropCnt = 4 ∧ (f.entries.getLast?.map (·.tag)) = some 0b10) := by decide +kernel

/-- 06 R308: instruction 10 of slice 3 begins at frame word 108, bit 16 of minor 3. -/
theorem test_program_frame : (3 * 5120 + 40 * 10) / 4096 = 3 ∧ (3 * 5120 + 40 * 10) % 4096 / 32 = 108 ∧ (3 * 5120 + 40 * 10) % 32 = 16 := by decide

/-- 08, Tessaly: the trace of table 0x004, slot 34, lane 1 finds source 0x355, channel 0, slot 10, latency 32. -/
def circuit : State :=
  { at_ [(F.TMG_QUARTZ_N, 0, 48)] with
    qtz := { eqd := [(2, 6)], active := [((0x355, 10), 0x80000000), ((0x353, 14), 0xA0040000), ((0x348, 17), 0xA0010000), ((0x400, 26), 0xA0340000), ((0x004, 34), 0xA8080000)] } }
theorem test_quartz_trace : circuit.traceOf 0x004 34 1 = some (0x355, 0, 10, 1, 32) := by decide +kernel

/-- 09, muon wall: the address of a request, and the result with entry 0x3A47. -/
theorem test_verdict_composer : vrdCompose 0 0x0220041806100A00 0x000007020B25012D = 0x2B952D ∧ 0x2B952D / 65536 = 43 := by decide +kernel
theorem test_verdict_result : vrdResult 0x3A47 0x2B952D false false 0x000007020B25012D = 0x0000072B952D3A47 := by decide +kernel

/-- 10, crossing 5,000: the record header. -/
theorem test_record_header :
    (let c : Ctx := { id := 0, tag := 0x1388, cn := 5000, cls := 0, stream := 0, packed := true, first := 0, count := 64, slots := List.replicate 64 96, seq := 41, trig := 5, dec := 3, frags := 64 };
      recordLen c = 6200 ∧ ctxHeader c = natBytes 0x1838 4 ++ [1, 4, 0, 0] ++ natBytes 0x1388 8 ++ natBytes 0x29 4 ++ natBytes 0x1388 2 ++ [0, 0] ++
        natBytes 5 4 ++ natBytes 0x40 2 ++ [3, 0]) := by decide +kernel

/-- 11, Tessaly: segments of the chunks of a record at an MTU of 1,500 bytes over IPv4. -/
theorem test_segments :
    (let s := at_ [(F.ETH_MTU_BYTES, 0, 1500)]; s.segMax {} = 1424) ∧
    (cutChunk 4097 1424 true (List.replicate 4096 0)).map (fun e => (e.1, e.2.length)) = [(true, 1424), (false, 1424), (false, 1248)] ∧
    (cutChunk 2105 1424 false (List.replicate 2104 0)).map (fun e => (e.1, e.2.length)) = [(false, 1424), (false, 680)] := by
  refine ⟨by decide +kernel, ?_, ?_⟩ <;> decide +kernel

/-- 12 R662: the CRC of 32 zero bytes is 0x8A9136AA (RFC 3720, appendix B.4, for the polynomial of R662). -/
theorem test_crc : crcCWords 0xFFFFFFFF (List.replicate 8 0) ^^^ 0xFFFFFFFF = 0x8A9136AA := by decide +kernel

/-- 12, four boards: the sequences of bays 3 and 0 are allowed; one that releases an output twice is not. -/
theorem test_sequences : seqBad [0x221, 0xE] = false ∧ seqBad [0x11, 0x32, 0xC] = false ∧ seqBad [0x11, 0x31, 0xE] = true ∧ seqBad [0x11, 0x32, 0x4] = true := by
  decide +kernel

/-- 14, shared counter: the words are instructions, and the first three build the address. -/
theorem test_core_words : ([0x0CA01000, 0x2CA50000, 0x2CA50040, 0x70C50000, 0x04C60001, 0x74E53000, 0x84E0FFFD] : List Nat).all coreLegal = true ∧
    coreLegal 0 = true ∧ coreLegal 0xFFFFFFFF = false := by decide +kernel
theorem test_shori : ((run (.shori cx0 5 5 0x0040) (run (.shori cx0 5 5 0) (run (.ori cx0 5 0 0x1000) (coreAt {} [])))).greg 0 5) = 0x100000000040 := by
  decide +kernel

/-- 14, shared counter: the branch at 0x18 with −3 goes to 0x0C. -/
theorem test_bne : ((run (.bne cx0 7 0 0xFFFD) (coreAt { g := (Vector.replicate 32 (0 : W64)).set 7 1, pc := 0x18 } [])).core 0).pc = 0x0C := by decide +kernel

/-- 14, shared counter: without its reservation an STX writes nothing and sets g7 to 1. -/
theorem test_stx_fails : (let t := run (.stx cx0 7 5 6 {}) (coreAt { g := (Vector.replicate 32 (0 : W64)).set 5 0x100000000040 } []);
    t.greg 0 7 = 1 ∧ t.mem = []) := by decide +kernel

/-- 15: the Ledger is owner 0x0003 and DMA channel 5 owner 0x0504, and after reset the bank is Saffron's. -/
theorem test_owners : ownerCode 0x4B = some 3 ∧ ownerOk 0x0504 = true ∧ State.reset.get F.SPD_OWN_OWNER 0 = 2 := by decide +kernel

/-- 15 R799: bytes that cross a 64-byte line are refused, those within one row are not. -/
theorem test_scratchpad_size :
    (run (.scratchpadWrite (q4 0x3E) {}) (spd [])).ans.resp = .size ∧ (run (.scratchpadWrite (q4 0x3C) {}) (spd [])).ans.resp = .okay := by decide +kernel

/-- 17, Tessaly: CKG_SYN_CTRL and CKG_SYN_FB of the synthesiser that falls back. -/
theorem test_synth_registers :
    (let s := (State.reset.wr R.CKG_SYN_CTRL 5 0x81020002).wr R.CKG_SYN_FB 5 0x2004;
      s.on F.CKG_SYN_CTRL_EN 5 = true ∧ s.get F.CKG_SYN_CTRL_INPUT 5 = 2 ∧ s.get F.CKG_SYN_CTRL_M 5 = 128) := by decide +kernel

/-- 18, two pending sources on core 2: the claims read 0x56, 0x1A3 and 0x8000. -/
theorem test_evc_claims :
    (let a := run (.evcClaim 2 false) evcTwo; let b := run (.evcClaim 2 false) a; a.ans.data = 0x56 ∧ b.ans.data = 0x1A3 ∧ evcTwo.extIrq 2 = true ∧
      b.extIrq 2 = false ∧ (run (.evcClaim 2 false) b).ans.data = 0x8000) := by
  decide +kernel

/-- 19: IDCODE after the TAP is reset. -/
theorem test_idcode : (run .idcode State.reset).dbg.captured.toNat = 0x296410F3 := by decide +kernel


end Sys2Proof.Tests
end

section
/-!
The state after power-on reset (00 R19). `State.resetRegs` lists the only registers whose reset value differs by index:
every other register reads the Reset column of its row.
-/

namespace Sys2Proof.Machine

/-- A register row that the list of index-dependent values does not name reads its Reset column. -/
theorem reset_rd {r : Reg} {i : Nat} (h : State.resetRegs.find (r.addr i) = none) :
    State.reset.rd r i = BitVec.ofNat 64 r.rst := by
  have hf : State.reset.regs.find (r.addr i) = none := h
  rw [State.rd, Tbl.get, hf, Option.getD_none]

/-- A field of such a register reads its part of the Reset column. -/
theorem reset_get {f : Fld} {i : Nat} (h : State.resetRegs.find (f.reg.addr i) = none) :
    State.reset.get f i = bits (BitVec.ofNat 64 f.reg.rst).toNat f.lo f.len := by
  rw [State.get, reset_rd h]

/-- A listed register reads the listed value. -/
theorem reset_rd_listed {r : Reg} {i : Nat} {v : W64} (h : State.resetRegs.find (r.addr i) = some v) :
    State.reset.rd r i = v := by
  have hf : State.reset.regs.find (r.addr i) = some v := h
  rw [State.rd, Tbl.get, hf, Option.getD_some]

theorem reset_mergeHome : State.reset.mergeHome :=
  fun _ _ he => absurd he List.not_mem_nil

theorem reset_keyLeft : State.reset.keyLeft := by
  have hslot : 0 ∈ State.reset.authSlots := by decide
  exact List.ne_nil_of_mem hslot

theorem reset_queueWf : State.reset.queueWf :=
  fun _ hc => absurd hc List.not_mem_nil

/-- Every bay is fenced by power-up (agent 1), BLANK, not GOLDEN, from no cache slot (13 R683, R684). -/
theorem reset_bay (b : Fin 64) :
    State.reset.fenced b.val = true ∧ State.reset.bayState b.val = bayBlank ∧
      State.reset.on F.FEN_BAY_STATUS_GOLDEN b.val = false ∧ State.reset.get F.FEN_BAY_STATUS_SLOT b.val = 0xFF ∧
      State.reset.get F.FEN_BAY_STATUS_BY b.val = 1 := by
  have hstatus : ∀ b : Fin 64, State.resetRegs.find (R.FEN_BAY_STATUS.addr b.val) = none := by decide
  have hfenced : State.reset.get F.FEN_FENCED_BAYS = 2 ^ 64 - 1 := reset_get (by decide)
  have hbit : ∀ b : Fin 64, bit (2 ^ 64 - 1) b.val = true := by decide
  refine ⟨?_, reset_get (hstatus b), ?_, reset_get (hstatus b), reset_get (hstatus b)⟩
  · rw [State.fenced, hfenced]; exact hbit b
  · rw [State.on, reset_get (f := F.FEN_BAY_STATUS_GOLDEN) (hstatus b)]; rfl

/-- Each watchdog counts from 1,000,000, and its core is fresh, not halted and holds no reservation. -/
theorem reset_core (n : Fin 9) :
    State.reset.get F.WDG_LOAD_TICKS n.val = 1000000 ∧ State.reset.coreHalted n.val = false ∧
      State.reset.core n.val = Core.fresh n.val ∧ State.reset.resv.find n.val = none := by
  have hload : ∀ n : Fin 9, State.resetRegs.find (R.WDG_LOAD.addr n.val) = none := by decide
  have hcore : ∀ n : Fin 9, State.resetRegs.find (R.DBG_CORE_STATUS.addr n.val) = none := by decide
  refine ⟨reset_get (hload n), ?_, rfl, rfl⟩
  rw [State.coreHalted, State.on, reset_get (f := F.DBG_CORE_STATUS_HALTED) (hcore n)]; rfl

theorem reset_boxIdle (n : Fin 8) : State.reset.on F.KEY_REQ_STATUS_BUSY n.val = false := by
  have hbox : ∀ n : Fin 8, State.resetRegs.find (R.KEY_REQ_STATUS.addr n.val) = none := by decide
  rw [State.on, reset_get (f := F.KEY_REQ_STATUS_BUSY) (hbox n)]; rfl

theorem reset_coreRuns (n : Fin 8) : State.reset.coreRuns n.val = false := by
  have hctrl : ∀ n : Fin 8, State.resetRegs.find (R.WDG_CORE_CTRL.addr n.val) = none := by decide
  have hne : (n.val == 8) = false := by simp; omega
  rw [State.coreRuns, hne, State.on, reset_get (f := F.WDG_CORE_CTRL_RUN) (hctrl n)]; rfl

/-- Watchdogs 0 to 7 read the row's Reset column, watchdog 8 its own value (14 R788). -/
theorem reset_watchdog (n : Fin 8) : State.reset.rd R.WDG_CTRL n.val = 2 := by
  have hctrl : ∀ n : Fin 8, State.resetRegs.find (R.WDG_CTRL.addr n.val) = none := by decide
  exact reset_rd (hctrl n)

/-- No mailbox is busy, so the warden serves none (14 R775, R776). -/
theorem reset_boxNext : State.reset.boxNext = none := by
  rw [State.boxNext, List.find?_eq_none]
  intro b hb
  obtain ⟨i, -, rfl⟩ := List.mem_map.mp hb
  simpa using reset_boxIdle ⟨_, Nat.mod_lt _ (by decide)⟩

/-- Saffron, owner code 2, owns every bank (15 R800). -/
theorem reset_bankOwner (b : Fin 32) : State.reset.get F.SPD_OWN_OWNER b.val = 2 := by
  have hown : ∀ b : Fin 32, State.resetRegs.find (R.SPD_OWN.addr b.val) = none := by decide
  exact reset_get (hown b)

/-- Timing set B of each DDR5 channel is the listed one, and no slab is fenced. -/
theorem reset_channel (k : Fin 4) :
    State.reset.rd R.DMC_TSET0 (2 * k.val + 1) = 0x1900 ∧ State.reset.slabFenced k.val = false := by
  have hset : ∀ k : Fin 4, State.resetRegs.find (R.DMC_TSET0.addr (2 * k.val + 1)) = some 0x1900 := by decide
  have hslab : State.reset.get F.FEN_SLAB_STATUS_FENCED = 0 := reset_get (by decide)
  refine ⟨reset_rd_listed (hset k), ?_⟩
  rw [State.slabFenced, hslab, bit, Nat.zero_div]; rfl

/-- Settles O5: listed registers read the list, every other register its Reset column, and what is no register its
initial value. -/
theorem resetState : Obligations.ResetState := by
  refine ⟨rfl, rfl, reset_mergeHome, reset_keyLeft, reset_queueWf, rfl, reset_bay, reset_core,
    fun n => ⟨reset_coreRuns n, reset_boxIdle n⟩, reset_rd_listed (by decide), reset_watchdog, reset_boxNext,
    reset_bankOwner, reset_channel, ?_⟩
  refine ⟨reset_rd_listed (by decide), reset_rd_listed (by decide), reset_rd_listed (by decide),
    reset_rd_listed (by decide), reset_get (by decide), ?_⟩
  exact ⟨rfl, rfl, rfl, rfl, rfl, rfl, rfl⟩

end Sys2Proof.Machine
end

section
/-! Little-endian bytes: a number split into bytes and put together again is the number cut to those bytes. -/

namespace Sys2Proof.Machine

@[simp] theorem length_natBytes (n k : Nat) : (natBytes n k).length = k := by simp [natBytes]

theorem natBytes_succ (n k : Nat) : natBytes n (k + 1) = BitVec.ofNat 8 n :: natBytes (n / 256) k := by
  simp [natBytes, List.range_succ_eq_map, Nat.pow_succ', Nat.div_div_eq_div_mul]

theorem bytesNat_natBytes (n k : Nat) : bytesNat (natBytes n k) = n % 256 ^ k := by
  induction k generalizing n with
  | zero => simp [natBytes, bytesNat, Nat.mod_one]
  | succ k ih =>
    have htail : bytesNat (natBytes (n / 256) k) = n / 256 % 256 ^ k := ih _
    rw [natBytes_succ, Nat.pow_succ', Nat.mod_mul, ← htail]
    simp [bytesNat]

/-- Eight bytes hold a 64-bit word. -/
theorem ofNat_bytesNat_natBytes (w : W64) : BitVec.ofNat 64 (bytesNat ((natBytes w.toNat 8).take 8)) = w := by
  have htake : (natBytes w.toNat 8).take 8 = natBytes w.toNat 8 := List.take_of_length_le (by simp)
  rw [htake, bytesNat_natBytes, Nat.mod_eq_of_lt (show w.toNat < 256 ^ 8 from w.isLt), BitVec.ofNat_toNat, BitVec.setWidth_eq]

end Sys2Proof.Machine
end

section
/-! The address map (01 R35): windows do not overlap, and a network that does nothing takes an access to its target. -/

namespace Sys2Proof.Machine

/-- The windows begin at these addresses. -/
theorem window_bases : dramBase = 0x100000000000 ∧ spdBase = 0x000100000000 ∧ csrBase = 0x00F000000000 ∧
    vrdBase = 0x000200000000 ∧ bayBase = 0x010000000000 := ⟨rfl, rfl, rfl, rfl, rfl⟩

/-- Below the scratchpad there is the boot ROM and nothing else. -/
theorem no_window_below {a : Nat} (h : a < spdBase) :
    inDram a = false ∧ inSpd a = false ∧ inCsr a = false ∧ inVrd a = false ∧ inBay a = false := by
  have hbases := window_bases
  simp only [inDram, inSpd, inCsr, inVrd, inBay, Bool.and_eq_false_iff, decide_eq_false_iff_not]
  omega

theorem no_other_window_of_inBay {a : Nat} (h : inBay a = true) :
    inDram a = false ∧ inSpd a = false ∧ inCsr a = false ∧ inVrd a = false := by
  have hbases := window_bases
  simp only [inBay, Bool.and_eq_true, decide_eq_true_eq] at h
  simp only [inDram, inSpd, inCsr, inVrd, Bool.and_eq_false_iff, decide_eq_false_iff_not]
  omega

theorem no_other_window_of_inCsr {a : Nat} (h : inCsr a = true) :
    inDram a = false ∧ inSpd a = false ∧ inBay a = false := by
  have hbases := window_bases
  simp only [inCsr, Bool.and_eq_true, decide_eq_true_eq] at h
  simp only [inDram, inSpd, inBay, Bool.and_eq_false_iff, decide_eq_false_iff_not]
  omega

theorem mapRead4K_csr {csr : CsrRead} {c : Acc} {a n : Nat} (env : Env) (s : State) (h : inCsr a = true)
    (hx : crosses4K a n = false) : mapRead4K csr c a n env s = csr c a n env s := by
  obtain ⟨hdram, hspd, -⟩ := no_other_window_of_inCsr h
  simp [mapRead4K, mapRead, hdram, hspd, h, hx]

theorem mapWrite4K_csr {csr : CsrWrite} {c : Acc} {a : Nat} {data : List Byte} (env : Env) (s : State) (h : inCsr a = true)
    (hx : crosses4K a data.length = false) : mapWrite4K csr c a data env s = csr c a data s := by
  obtain ⟨hdram, hspd, -⟩ := no_other_window_of_inCsr h
  simp [mapWrite4K, mapWrite, hdram, hspd, h, hx]

/-- Geode initiators reach Geode targets over no link (08 R374, R395). -/
theorem cutOff_geode (s : State) {ini a : Nat} (hi : 64 ≤ ini) (ha : inBay a = false) : s.cutOff ini a = false := by
  simp [State.cutOff, State.routeDown, iniPlace, addrPlace, sandRoute, ha, Nat.not_lt.mpr hi]

theorem netRead_delivered {csr : CsrRead} {c : Acc} {a n : Nat} {env : Env} {s : State} (hn : env.net = none)
    (hc : s.cutOff c.ini a = false) :
    netRead csr c a n env s = ((mapRead4K csr c a n env s).1,
      noteEnd c.ini a false (mapRead4K csr c a n env s).1.resp (mapRead4K csr c a n env s).2) := by
  simp [netRead, netDoes, hn, hc]

theorem netWrite_delivered {csr : CsrWrite} {c : Acc} {a : Nat} {data : List Byte} {posted : Bool} {env : Env} {s : State}
    (hn : env.net = none) (hc : s.cutOff c.ini a = false) :
    netWrite csr c a data posted env s = ((mapWrite4K csr c a data env s).1,
      noteEnd c.ini a posted (mapWrite4K csr c a data env s).1 (mapWrite4K csr c a data env s).2) := by
  simp [netWrite, netDoes, hn, hc]

end Sys2Proof.Machine
end

section
/-! What the end of an access records (08 R405, R413, R414): only the error log, and the flag of a posted write. -/

namespace Sys2Proof.Machine

theorem nocLog_frame (ini a : Nat) (r : Resp) (posted : Bool) (s : State) :
    nocLog ini a r posted s = { s with regs := (nocLog ini a r posted s).regs } := by
  unfold nocLog; split <;> rfl

theorem nocLog_regsBut (ini a : Nat) (r : Resp) (posted : Bool) (s : State) :
    RegsBut s (nocLog ini a r posted s) [R.NOC_ERR_LOG.addr 0] :=
  regsBut_ite (regsBut_refl _ _) (regsBut_wr _ _ _ (regsBut_refl _ _) (List.mem_singleton.mpr rfl))

/-- An access that is answered, other than by TIMEOUT, touches nothing but the error log when it ends. -/
theorem noteEnd_answered {r : Resp} (ini a : Nat) (s : State) (h : r ≠ .timeout) :
    noteEnd ini a false r s = nocLog ini a r false s := by
  by_cases hr : r = .okay <;> simp [noteEnd, nocLog, hr, h]

/-- A posted write that meets an error is flagged and logged. -/
theorem noteEnd_posted {r : Resp} (ini a : Nat) (s : State) (ho : r ≠ .okay) (ht : r ≠ .timeout) :
    noteEnd ini a true r s = nocLog ini a r true (s.raise F.NOC_ERR_POSTED_ERR) := by
  simp [noteEnd, ho, ht]

theorem respCode_lt (r : Resp) : r.code < 16 := by cases r <;> decide

/-- The entry that a posted write leaves in an empty error log has POSTED 1 (08 R414). -/
theorem nocLog_posted_bit {r : Resp} (ini a : Nat) {s : State} (ho : r ≠ .okay) (hv : s.on F.NOC_ERR_LOG_VALID = false) :
    bit ((nocLog ini a r true s).rd R.NOC_ERR_LOG).toNat 62 = true := by
  have hcode := respCode_lt r
  have hbit : bit ((a % 2 ^ 48 + ini % 1024 * 2 ^ 48 + r.code * 2 ^ 58 + ofFlag true * 2 ^ 62 + 2 ^ 63) % 2 ^ 64) 62 = true := by
    simp only [bit, ofFlag, if_true, beq_iff_eq]; omega
  simpa [nocLog, ho, hv, State.rd_wr_same] using hbit

end Sys2Proof.Machine
end

section
/-! Registers whose access is no more than their access codes (00 R13): what a read answers and a write stores. -/

namespace Sys2Proof.Machine

/-- A write of the register has no effect but that of its access codes, and none of its fields can be locked. -/
structure CodesOnly (r : Reg) (i : Nat) : Prop where
  noLock : rwlOf r i = 0
  noEffect : ∀ s w ini, unitWrite s r i w ini = none

/-- A read of the register answers what is stored, and has no side effect but that of its RC bits. -/
structure ReadsStored (r : Reg) (i : Nat) : Prop where
  value : ∀ s : State, s.view r i = s.rd r i
  sampled : ∀ s, countSample r i s = s
  inert : r ∉ [R.TMG_MSG_DATA, R.CFG_SLC_DATA_LO, R.PGR_RESULT, R.SVP_UART_DATA, R.EVC_CLAIM, R.DBG_VT_OUT, R.DBG_VT_IN,
    R.CFG_SLC_TIMING, R.CFG_SLC_ECC]

/-- Byte `b` of index `i` of a register row lies at a bus address, outside the windows that are no registers. -/
structure RegAt (a : Nat) (r : Reg) (i b : Nat) : Prop where
  inMap : inCsr a = true
  noWindow : csrWindow a = .none
  found : csrFind a = some (r, i, b)

theorem lockStep_noLock {r : Reg} {i : Nat} (h : rwlOf r i = 0) (w ini : Nat) (s : State) : lockStep r i w ini s = (w, s) := by
  simp [lockStep, h]

theorem regWrite_codesOnly {r : Reg} {i : Nat} (h : CodesOnly r i) (w : Nat) (c : Acc) (s : State) :
    regWrite r i w c s = (s.wrCodes r i (BitVec.ofNat 64 w) false).okay := by
  simp only [regWrite, lockStep_noLock h.noLock, h.noEffect]; rfl

theorem actionUnpowered_codesOnly {r : Reg} {i : Nat} (h : CodesOnly r i) (hr : r ≠ R.SPD_HANDOVER) (b w : Nat) (c : Acc)
    (s : State) : s.actionUnpowered r i b w c = false := by
  simp [State.actionUnpowered, regWrite_codesOnly h, hr]

theorem wrCodes_regsBut (s : State) (r : Reg) (i : Nat) (v : W64) (locked : Bool) :
    RegsBut s (s.wrCodes r i v locked) [r.addr i] :=
  regsBut_wr _ _ _ (regsBut_refl _ _) (List.mem_singleton.mpr rfl)

/-- What a write leaves in a register whose writable bits are `rw` and whose W1C bits are `c`. -/
theorem rd_wrCodes {r : Reg} {rw c : W64} (hrw : BitVec.ofNat 64 (r.rw ||| r.rwl) = rw) (hc : BitVec.ofNat 64 r.w1c = c)
    (s : State) (i : Nat) (v : W64) :
    (s.wrCodes r i v false).rd r i = ((s.rd r i &&& ~~~rw) ||| (v &&& rw)) &&& ~~~(c &&& v) := by
  rw [State.wrCodes, State.rd_wr_same, ← hrw, ← hc]; rfl

/-- A register that is RW in all its bits takes the word. -/
theorem rd_wrCodes_all {r : Reg} (hrw : BitVec.ofNat 64 (r.rw ||| r.rwl) = BitVec.allOnes 64) (hc : BitVec.ofNat 64 r.w1c = 0#64)
    (s : State) (i : Nat) (v : W64) : (s.wrCodes r i v false).rd r i = v := by
  rw [rd_wrCodes hrw hc, BitVec.not_allOnes, BitVec.and_zero, BitVec.zero_or, BitVec.and_allOnes, BitVec.zero_and,
    BitVec.not_zero, BitVec.and_allOnes]

theorem rd_wrCodes_readOnly {r : Reg} (hrw : BitVec.ofNat 64 (r.rw ||| r.rwl) = 0#64) (hc : BitVec.ofNat 64 r.w1c = 0#64)
    (s : State) (i : Nat) (v : W64) : (s.wrCodes r i v false).rd r i = s.rd r i := by
  rw [rd_wrCodes hrw hc, BitVec.not_zero, BitVec.and_allOnes, BitVec.and_zero, BitVec.or_zero, BitVec.zero_and,
    BitVec.not_zero, BitVec.and_allOnes]

/-- A register without RW bits loses the W1C bits written 1. -/
theorem rd_wrCodes_none {r : Reg} (hrw : BitVec.ofNat 64 (r.rw ||| r.rwl) = 0#64) (s : State) (i : Nat) (v : W64) :
    (s.wrCodes r i v false).rd r i = s.rd r i &&& ~~~(BitVec.ofNat 64 r.w1c &&& v) := by
  rw [rd_wrCodes hrw rfl, BitVec.not_zero, BitVec.and_allOnes, BitVec.and_zero, BitVec.or_zero]

theorem csrWrite_misfit {a : Nat} {r : Reg} {i b : Nat} {c : Acc} {data : List Byte} {s : State} (h : RegAt a r i b)
    (hp : s.actionUnpowered r i b (bytesNat data) c = false) (hf : regFits r.bits b data.length = false) :
    csrWrite c a data s = (.size, s) := by
  simp [csrWrite, h.noWindow, h.found, hp, hf]

theorem csrWrite_reg {a : Nat} {r : Reg} {i b : Nat} {c : Acc} {data : List Byte} {s : State} (h : RegAt a r i b)
    (hp : s.actionUnpowered r i b (bytesNat data) c = false) (hf : regFits r.bits b data.length = true) :
    csrWrite c a data s = regPut r i b data.length (bytesNat data) c s := by
  simp [csrWrite, h.noWindow, h.found, hp, hf]

theorem csrRead_reg {a : Nat} {r : Reg} {i b : Nat} {c : Acc} {n : Nat} {s : State} (env : Env) (h : RegAt a r i b)
    (hd : s.readDenied r i c = false) (hf : regFits r.bits b n = true) :
    csrRead c a n env s = (⟨.okay, natBytes (regAccess r i b n c env s).1.toNat n, []⟩, (regAccess r i b n c env s).2) := by
  simp [csrRead, h.noWindow, h.found, hd, hf]

/-- A write of a whole register stores what its access codes say (00 R7, R13). -/
theorem regPut_whole {r : Reg} {i : Nat} {c : Acc} {s : State} (h : CodesOnly r i) (b n w : Nat)
    (hd : s.writeDenied r i w c = false) (hn : n = 8 ∨ r.bits = 32) :
    regPut r i b n w c s = (.okay, (s.wrCodes r i (BitVec.ofNat 64 w) false).okay) := by
  simp [regPut, hn, hd, regWrite_codesOnly h]

theorem regPut_denied {r : Reg} {i : Nat} {c : Acc} {s : State} {n w : Nat} (b : Nat) (hd : s.writeDenied r i w c = true)
    (hn : n = 8 ∨ r.bits = 32) : regPut r i b n w c s = (.denied, s) := by
  simp [regPut, hn, hd]

/-- The state in which an initiator holds the lower word of a register for a write of the upper one (00 R9). -/
def holdLower (r : Reg) (i ini : Nat) (w : W32) (s : State) : State :=
  { s with halves := { s.halves with held := s.halves.held.set ini (r.addr i, w) } }

/-- A write of the lower word of a 64-bit register is held and stores nothing (00 R9). -/
theorem regPut_lower {r : Reg} {i : Nat} {c : Acc} {s : State} (w : Nat) (hb : r.bits ≠ 32)
    (hd : s.writeDenied r i (s.rd r i).toNat c = false) :
    regPut r i 0 4 w c s = (.okay, holdLower r i c.ini (BitVec.ofNat 32 w) s) := by
  simp [regPut, hb, hd, holdLower]

theorem lowerWord_held {r : Reg} {i : Nat} {c : Acc} {s : State} {w : W32}
    (h : s.halves.held.find c.ini = some (r.addr i, w)) : lowerWord r i c s = w.toNat := by
  simp [lowerWord, h]

theorem dropHeld_regs (r : Reg) (i : Nat) (c : Acc) (s : State) : (dropHeld r i c s).regs = s.regs := by
  unfold dropHeld; split
  · split <;> rfl
  · rfl

/-- The write of the upper word that follows writes both words at once (00 R9). -/
theorem regPut_upper {r : Reg} {i : Nat} {c : Acc} {s : State} {v : W32} (h : CodesOnly r i) (w : Nat) (hb : r.bits ≠ 32)
    (hd : ∀ w t, State.writeDenied t r i w c = false) (hv : s.halves.held.find c.ini = some (r.addr i, v)) :
    regPut r i 4 4 w c s =
      (.okay, ((dropHeld r i c s).wrCodes r i (BitVec.ofNat 64 (v.toNat + w * 2 ^ 32)) false).okay) := by
  simp [regPut, hb, hd, regWrite_codesOnly h, lowerWord_held hv]

/-- The state in which an initiator holds the upper word of a register for a read (00 R8). -/
def latchUpper (r : Reg) (i ini : Nat) (v : W64) (s : State) : State :=
  { s with halves := { s.halves with latched := s.halves.latched.set (ini, r.addr i) ((v >>> 32).setWidth 32) } }

/-- A read returns the stored value, and clears the RC bits it returned unless it is quiet (00 R13, R16). -/
theorem regRead_stored {r : Reg} {i : Nat} (h : ReadsStored r i) (mask : W64) (c : Acc) (env : Env) (s : State) :
    regRead r i mask c env s = (s.rd r i,
      if c.quiet ∨ r.rc = 0 then s else s.wr r i (s.rd r i &&& ~~~(BitVec.ofNat 64 r.rc &&& mask))) := by
  obtain ⟨hvalue, hsampled, hinert⟩ := h
  simp only [List.mem_cons, not_or, List.not_mem_nil, not_false_eq_true, and_true] at hinert
  obtain ⟨h1, h2, h3, h4, h5, h6, h7, h8, h9⟩ := hinert
  have hclear : sliceReadClear s r = none := by
    unfold sliceReadClear; split <;> simp [h8, h9]
  cases hq : c.quiet <;> simp [regRead, h1, h2, h3, h4, h5, hsampled, hvalue, hq, vtTake, h6, h7, rcTake, hclear]

theorem regAccess_whole {r : Reg} {i b n : Nat} (c : Acc) (env : Env) (s : State) (h : n = 8 ∨ r.bits = 32) :
    regAccess r i b n c env s = regRead r i (BitVec.allOnes 64) c env s := by
  rw [regAccess, if_pos h]

/-- A read of the lower word answers it and holds the upper one (00 R8). -/
theorem regAccess_lower {r : Reg} {i : Nat} (h : ReadsStored r i) (hrc : r.rc = 0) (hb : r.bits ≠ 32) (c : Acc) (env : Env)
    (s : State) : regAccess r i 0 4 c env s = (s.rd r i &&& 0xFFFFFFFF, latchUpper r i c.ini (s.rd r i) s) := by
  simp [regAccess, hb, regRead_stored h, hrc, latchUpper]

/-- The upper read that follows answers the word held, whatever the register has become (00 R8). -/
theorem regAccess_upper {r : Reg} {i : Nat} {c : Acc} {s : State} {v : W32} (hb : r.bits ≠ 32) (env : Env)
    (hv : s.halves.latched.find (c.ini, r.addr i) = some v) : (regAccess r i 4 4 c env s).1 = v.setWidth 64 := by
  simp [regAccess, hb, hv]

theorem codesOnly_TMG_CN_PRESET : CodesOnly R.TMG_CN_PRESET 0 := ⟨rfl, fun _ _ _ => rfl⟩
theorem codesOnly_TMG_CN : CodesOnly R.TMG_CN 0 := ⟨rfl, fun _ _ _ => rfl⟩
theorem codesOnly_TMG_ERR : CodesOnly R.TMG_ERR 0 := ⟨rfl, fun _ _ _ => rfl⟩
theorem readsStored_TMG_CN_PRESET : ReadsStored R.TMG_CN_PRESET 0 := ⟨fun _ => rfl, fun _ => rfl, by decide⟩
theorem readsStored_TMG_CHECK_ERRS : ReadsStored R.TMG_CHECK_ERRS 0 := ⟨fun _ => rfl, fun _ => rfl, by decide⟩

end Sys2Proof.Machine
end

section
/-! Register accesses by Saffron and other Geode initiators (00 R6 to R9, R13, R16). -/

namespace Sys2Proof.Machine

@[simp] theorem answerMem_ans (s : State) (m : MemAns) :
    (s.answerMem m).ans = ⟨m.resp, BitVec.ofNat 64 (bytesNat (m.bytes.take 8)), m.bytes, m.poison⟩ := rfl

@[simp] theorem accOf_quiet (s : State) (ini : Nat) (quiet : Bool) : (s.accOf ini quiet).quiet = quiet := rfl
@[simp] theorem accOf_ini (s : State) (ini : Nat) (quiet : Bool) : (s.accOf ini quiet).ini = ini := rfl

/-- A register write reaches its register, and what the register made of it is answered and logged. -/
theorem exec_registerWrite {s : State} (ha : s.power.asleep = false) {ini : Ini} (hi : 64 ≤ ini.val) {a : BitVec 48} {sz : Size}
    (v : W64) (hc : inCsr a.toNat = true) (hx : crosses4K a.toNat sz.bytes = false) {r : Resp} {t : State}
    (hw : csrWrite (s.accOf ini.val false) a.toNat (natBytes v.toNat sz.bytes) s = (r, t)) :
    exec (.registerWrite ini a sz v {}) s = .next ((noteEnd ini.val a.toNat false r t).answer r) := by
  have hbay : inBay a.toNat = false := (no_other_window_of_inCsr hc).2.2
  have hx' : crosses4K a.toNat (natBytes v.toNat sz.bytes).length = false := by rwa [length_natBytes]
  have hexec : exec (.registerWrite ini a sz v {}) s = execRegisterWrite ini a sz v {} s := rfl
  have hcut : s.cutOff (s.accOf ini.val false).ini a.toNat = false := cutOff_geode s hi hbay
  simp only [hexec, execRegisterWrite, ha, sandWrite, netWrite_delivered (env := {}) rfl hcut, mapWrite4K_csr {} s hc hx',
    hw]
  rfl

/-- A register read likewise. -/
theorem exec_rcRegisterRead {s : State} (ha : s.power.asleep = false) {ini : Ini} (hi : 64 ≤ ini.val) {a : BitVec 48} {sz : Size}
    (quiet : Bool) (hc : inCsr a.toNat = true) (hx : crosses4K a.toNat sz.bytes = false) {m : MemAns} {t : State}
    (hr : csrRead (s.accOf ini.val quiet) a.toNat sz.bytes {} s = (m, t)) :
    exec (.rcRegisterRead ini a sz quiet {}) s = .next ((noteEnd ini.val a.toNat false m.resp t).answerMem m) := by
  have hbay : inBay a.toNat = false := (no_other_window_of_inCsr hc).2.2
  have hexec : exec (.rcRegisterRead ini a sz quiet {}) s = execRcRegisterRead ini a sz quiet {} s := rfl
  have hcut : s.cutOff (s.accOf ini.val quiet).ini a.toNat = false := cutOff_geode s hi hbay
  simp only [hexec, execRcRegisterRead, ha, sandRead, netRead_delivered (env := {}) rfl hcut, mapRead4K_csr {} s hc hx, hr]
  rfl

/-- A write that its target refuses is answered with the error, and touches nothing but the error log. -/
theorem registerWrite_refused {s : State} (ha : s.power.asleep = false) {ini : Ini} (hi : 64 ≤ ini.val) {a : BitVec 48}
    {sz : Size} (v : W64) (hc : inCsr a.toNat = true) (hx : crosses4K a.toNat sz.bytes = false) {r : Resp} (hr : r ≠ .timeout)
    (hw : csrWrite (s.accOf ini.val false) a.toNat (natBytes v.toNat sz.bytes) s = (r, s)) :
    Completes (.registerWrite ini a sz v {}) s fun t => t.ans.resp = r ∧ RegsBut s t [R.NOC_ERR_LOG.addr 0] := by
  refine ⟨_, exec_registerWrite ha hi v hc hx hw, rfl, ?_⟩
  rw [noteEnd_answered _ _ _ hr]
  exact nocLog_regsBut _ _ _ _ _

/-- A write of a whole register that the initiator may write stores what its access codes say. -/
theorem registerWrite_codesOnly {s : State} (ha : s.power.asleep = false) {ini : Ini} (hi : 64 ≤ ini.val) {a : BitVec 48}
    {sz : Size} {r : Reg} {i b : Nat} (v : W64) (h : CodesOnly r i) (hat : RegAt a.toNat r i b)
    (hx : crosses4K a.toNat sz.bytes = false) (hf : regFits r.bits b sz.bytes = true) (hn : sz.bytes = 8 ∨ r.bits = 32)
    (hh : r ≠ R.SPD_HANDOVER) (hd : ∀ w, s.writeDenied r i w (s.accOf ini.val false) = false) :
    exec (.registerWrite ini a sz v {}) s =
      .next (s.wrCodes r i (BitVec.ofNat 64 (v.toNat % 256 ^ sz.bytes)) false).okay := by
  refine (exec_registerWrite ha hi v hat.inMap hx (r := .okay) (t := (s.wrCodes r i _ false).okay) ?_).trans rfl
  rw [csrWrite_reg hat (actionUnpowered_codesOnly h hh ..) (by rwa [length_natBytes]), length_natBytes, bytesNat_natBytes,
    regPut_whole h _ _ _ (hd _) hn]

/-- The bus address of byte `k` of a register. -/
def busAddr (r : Reg) (k : Nat) : BitVec 48 := BitVec.ofNat 48 (r.addr 0 + k)

theorem regAt_TMG_CN_PRESET : RegAt (busAddr R.TMG_CN_PRESET 0).toNat R.TMG_CN_PRESET 0 0 :=
  ⟨by decide, by decide, by decide⟩
theorem regAt_TMG_CN_PRESET_upper : RegAt (busAddr R.TMG_CN_PRESET 4).toNat R.TMG_CN_PRESET 0 4 :=
  ⟨by decide, by decide, by decide⟩
theorem regAt_TMG_CN : RegAt (busAddr R.TMG_CN 0).toNat R.TMG_CN 0 0 := ⟨by decide, by decide, by decide⟩
theorem regAt_TMG_ERR : RegAt (busAddr R.TMG_ERR 0).toNat R.TMG_ERR 0 0 := ⟨by decide, by decide, by decide⟩
theorem regAt_TMG_CHECK_ERRS : RegAt (busAddr R.TMG_CHECK_ERRS 0).toNat R.TMG_CHECK_ERRS 0 0 :=
  ⟨by decide, by decide, by decide⟩
theorem regAt_PWR_CTRL : RegAt (busAddr R.PWR_CTRL 0).toNat R.PWR_CTRL 0 0 := ⟨by decide, by decide, by decide⟩

/-- Saffron's number (08 R384). -/
abbrev saffron : Ini := 0x48

/-- An 8-byte write of TMG_CN_PRESET stores it. -/
theorem registerWrite_preset {s : State} (ha : s.power.asleep = false) (v : W64) :
    Completes (.registerWrite saffron (busAddr R.TMG_CN_PRESET 0) .b8 v {}) s fun t => t.rd R.TMG_CN_PRESET = v ∧
      t.ans.resp = .okay ∧ t = { s with regs := t.regs, ans := t.ans } ∧ RegsBut s t [R.TMG_CN_PRESET.addr 0] := by
  refine ⟨_, registerWrite_codesOnly ha (by decide) v codesOnly_TMG_CN_PRESET regAt_TMG_CN_PRESET (by decide) (by decide)
    (.inl rfl) (by decide) (fun _ => rfl), ?_, rfl, rfl, wrCodes_regsBut s _ _ _ _⟩
  have hv : BitVec.ofNat 64 (v.toNat % 256 ^ Size.b8.bytes) = v := by
    have := v.isLt
    rw [Nat.mod_eq_of_lt (by simpa [Size.bytes] using this), BitVec.ofNat_toNat, BitVec.setWidth_eq]
  rw [hv]
  exact rd_wrCodes_all rfl rfl s 0 v

/-- A write of the bits of TMG_ERR clears those written 1. -/
theorem registerWrite_err {s : State} (ha : s.power.asleep = false) (v : W64) :
    Completes (.registerWrite saffron (busAddr R.TMG_ERR 0) .b4 v {}) s fun t => t.ans.resp = .okay ∧
      t.rd R.TMG_ERR = s.rd R.TMG_ERR &&& ~~~(v &&& 0xFF) ∧ RegsBut s t [R.TMG_ERR.addr 0] := by
  refine ⟨_, registerWrite_codesOnly ha (by decide) v codesOnly_TMG_ERR regAt_TMG_ERR (by decide) (by decide)
    (.inr rfl) (by decide) (fun _ => rfl), rfl, ?_, wrCodes_regsBut s _ _ _ _⟩
  have hbits : BitVec.ofNat 64 R.TMG_ERR.w1c &&& BitVec.ofNat 64 (v.toNat % 256 ^ Size.b4.bytes) = v &&& 0xFF := by
    apply BitVec.eq_of_toNat_eq
    have hmask : ∀ n : Nat, 255 &&& n = n % 256 := fun n => (Nat.and_comm ..).trans (Nat.and_two_pow_sub_one_eq_mod n 8)
    simp [R.TMG_ERR, Size.bytes, hmask, Nat.and_comm _ 255]
  rw [← hbits]
  exact rd_wrCodes_none rfl s 0 _

/-- A write of TMG_CN, which is read-only, leaves it. -/
theorem registerWrite_cn {s : State} (ha : s.power.asleep = false) (v : W64) :
    Completes (.registerWrite saffron (busAddr R.TMG_CN 0) .b8 v {}) s fun t => t.ans.resp = .okay ∧
      t.rd R.TMG_CN = s.rd R.TMG_CN ∧ RegsBut s t [R.TMG_CN.addr 0] := by
  refine ⟨_, registerWrite_codesOnly ha (by decide) v codesOnly_TMG_CN regAt_TMG_CN (by decide) (by decide)
    (.inl rfl) (by decide) (fun _ => rfl), rfl, ?_, wrCodes_regsBut s _ _ _ _⟩
  exact rd_wrCodes_readOnly rfl rfl s 0 _

/-- An 8-byte access to a 32-bit register is one of wrong size (00 R6). -/
theorem registerWrite_err_size {s : State} (ha : s.power.asleep = false) (v : W64) :
    Completes (.registerWrite saffron (busAddr R.TMG_ERR 0) .b8 v {}) s fun t => t.ans.resp = .size ∧
      RegsBut s t [R.NOC_ERR_LOG.addr 0] := by
  refine registerWrite_refused ha (by decide) v regAt_TMG_ERR.inMap (by decide) (by decide) ?_
  exact csrWrite_misfit regAt_TMG_ERR (actionUnpowered_codesOnly codesOnly_TMG_ERR (by decide) ..)
    (by rw [length_natBytes]; decide)

/-- An address of the timing port's unit where no register lies. -/
theorem registerWrite_unmapped {s : State} (ha : s.power.asleep = false) (v : W64) :
    Completes (.registerWrite saffron (busAddr R.TMG_CTRL 0xFF00) .b4 v {}) s fun t => t.ans.resp = .unmapped ∧
      RegsBut s t [R.NOC_ERR_LOG.addr 0] := by
  have hwin : csrWindow (busAddr R.TMG_CTRL 0xFF00).toNat = .none := by decide
  have hfind : csrFind (busAddr R.TMG_CTRL 0xFF00).toNat = none := by decide
  refine registerWrite_refused ha (by decide) v (by decide) (by decide) (by decide) ?_
  simp [csrWrite, hwin, hfind]

/-- Only Saffron writes unit PWR (14 R768). -/
theorem registerWrite_power_denied {s : State} (ha : s.power.asleep = false) (v : W64) {ini : Ini} (hi : 0x49 ≤ ini.val) :
    Completes (.registerWrite ini (busAddr R.PWR_CTRL 0) .b4 v {}) s fun t => t.ans.resp = .denied ∧
      RegsBut s t [R.NOC_ERR_LOG.addr 0] := by
  refine registerWrite_refused ha (by omega) v regAt_PWR_CTRL.inMap (by decide) (by decide) ?_
  have hpow : ∀ w, s.actionUnpowered R.PWR_CTRL 0 0 w (s.accOf ini.val false) = false := by
    intro w
    have hr : (R.PWR_CTRL == R.SPD_HANDOVER) = false := by decide
    have heff : ∀ w, (regWrite R.PWR_CTRL 0 w (s.accOf ini.val false) s).ans.resp = .okay := by
      intro w
      have hw : ∀ t : State, unitWrite t R.PWR_CTRL 0 w ini.val = some (pwrCtrlWrite w t) := fun _ => rfl
      simp only [regWrite, lockStep_noLock (show rwlOf R.PWR_CTRL 0 = 0 from rfl), accOf_ini, hw, pwrCtrlWrite]
      split <;> rfl
    simp [State.actionUnpowered, hr, heff]
  have hden : ∀ w, s.writeDenied R.PWR_CTRL 0 w (s.accOf ini.val false) = true := by
    intro w
    have hne : (ini.val != 0x48) = true := by simp; omega
    exact hne
  rw [csrWrite_reg regAt_PWR_CTRL (hpow _) (by rw [length_natBytes]; decide)]
  exact regPut_denied 0 (hden _) (.inr rfl)

/-- A read of a register, or of a part of it, is answered OKAY. -/
theorem rcRegisterRead_reg {s : State} (ha : s.power.asleep = false) {ini : Ini} (hi : 64 ≤ ini.val) {a : BitVec 48}
    {sz : Size} {r : Reg} {i b : Nat} (quiet : Bool) (hat : RegAt a.toNat r i b) (hx : crosses4K a.toNat sz.bytes = false)
    (hf : regFits r.bits b sz.bytes = true) (hd : s.readDenied r i (s.accOf ini.val quiet) = false) {v : W64} {t : State}
    (hv : regAccess r i b sz.bytes (s.accOf ini.val quiet) {} s = (v, t)) :
    exec (.rcRegisterRead ini a sz quiet {}) s = .next (t.answerMem ⟨.okay, natBytes v.toNat sz.bytes, []⟩) := by
  refine (exec_rcRegisterRead ha hi quiet hat.inMap hx (m := ⟨.okay, natBytes v.toNat sz.bytes, []⟩) (t := t) ?_).trans rfl
  rw [csrRead_reg {} hat hd hf, hv]

/-- The data of an answer of four bytes. -/
theorem answer_word (s : State) (v : W64) :
    (s.answerMem ⟨.okay, natBytes v.toNat 4, []⟩).ans.data.setWidth 32 = v.setWidth 32 := by
  have htake : (natBytes v.toNat 4).take 8 = natBytes v.toNat 4 := List.take_of_length_le (by simp)
  apply BitVec.eq_of_toNat_eq
  simp only [answerMem_ans, htake, bytesNat_natBytes, BitVec.toNat_setWidth, BitVec.toNat_ofNat]
  omega

theorem bits_low (w : W64) : bits w.toNat 0 32 = (w.setWidth 32).toNat := by simp [bits]

/-- A read of TMG_CHECK_ERRS answers the count and clears it, unless it is quiet (00 R13, R16). -/
theorem rcRegisterRead_checkErrs {s : State} (ha : s.power.asleep = false) (quiet : Bool) :
    Completes (.rcRegisterRead saffron (busAddr R.TMG_CHECK_ERRS 0) .b4 quiet {}) s fun t => t.ans.resp = .okay ∧
      t.ans.data.setWidth 32 = (s.rd R.TMG_CHECK_ERRS).setWidth 32 ∧
      t.get F.TMG_CHECK_ERRS_COUNT = (if quiet then s.get F.TMG_CHECK_ERRS_COUNT else 0) ∧
      RegsBut s t [R.TMG_CHECK_ERRS.addr 0] := by
  have hread := (regAccess_whole (b := 0) (n := 4) (s.accOf saffron.val quiet) {} s (Or.inr rfl)).trans
    (regRead_stored readsStored_TMG_CHECK_ERRS (BitVec.allOnes 64) _ {} s)
  refine ⟨_, rcRegisterRead_reg ha (by decide) quiet regAt_TMG_CHECK_ERRS (by decide) (by decide) rfl hread,
    rfl, answer_word _ _, ?_, ?_⟩
  · cases quiet
    · have hclears : ¬ ((s.accOf saffron.val false).quiet = true ∨ R.TMG_CHECK_ERRS.rc = 0) := by
        rw [accOf_quiet]; decide
      rw [if_neg hclears]
      refine (congrArg (fun w : W64 => bits w.toNat 0 32) (State.rd_wr_same ..)).trans ?_
      rw [bits_low, BitVec.setWidth_and]
      have hmask : (~~~(BitVec.ofNat 64 R.TMG_CHECK_ERRS.rc &&& BitVec.allOnes 64)).setWidth 32 = 0#32 := by decide
      rw [hmask, BitVec.and_zero]; rfl
    · rfl
  · refine regsBut_ite (regsBut_refl _ _) (regsBut_wr _ _ _ (regsBut_refl _ _) (List.mem_singleton.mpr rfl))

/-- The write of the upper half of TMG_CN_PRESET by an initiator that holds the lower one stores both (00 R9). -/
theorem registerWrite_preset_upper {s : State} (ha : s.power.asleep = false) (w : W64) {x : W32}
    (hx : s.halves.held.find saffron.val = some (R.TMG_CN_PRESET.addr 0, x)) :
    Completes (.registerWrite saffron (busAddr R.TMG_CN_PRESET 4) .b4 w {}) s fun t =>
      t.rd R.TMG_CN_PRESET = w.extractLsb' 0 32 ++ x ∧ t.ans.resp = .okay ∧ RegsBut s t [R.TMG_CN_PRESET.addr 0] := by
  have hwrite : csrWrite (s.accOf saffron.val false) (busAddr R.TMG_CN_PRESET 4).toNat (natBytes w.toNat 4) s =
      (.okay, ((dropHeld R.TMG_CN_PRESET 0 (s.accOf saffron.val false) s).wrCodes R.TMG_CN_PRESET 0
        (BitVec.ofNat 64 (x.toNat + w.toNat % 256 ^ 4 * 2 ^ 32)) false).okay) := by
    rw [csrWrite_reg regAt_TMG_CN_PRESET_upper (actionUnpowered_codesOnly codesOnly_TMG_CN_PRESET (by decide) ..)
      (by rw [length_natBytes]; decide), length_natBytes, bytesNat_natBytes]
    exact regPut_upper codesOnly_TMG_CN_PRESET _ (by decide) (fun _ _ => rfl) hx
  refine ⟨_, exec_registerWrite ha (by decide) w regAt_TMG_CN_PRESET_upper.inMap (by decide) hwrite, ?_, rfl, ?_⟩
  · refine (rd_wrCodes_all rfl rfl _ 0 _).trans ?_
    apply BitVec.eq_of_toNat_eq
    have hlt := x.isLt
    have hcat : (w.extractLsb' 0 32 ++ x).toNat = w.toNat % 2 ^ 32 * 2 ^ 32 + x.toNat := by
      rw [BitVec.toNat_append, ← Nat.shiftLeft_add_eq_or_of_lt hlt, Nat.shiftLeft_eq, BitVec.extractLsb'_toNat,
        Nat.shiftRight_zero]
    rw [hcat, BitVec.toNat_ofNat]
    omega
  · exact regsBut_trans (regsBut_regs _ (dropHeld_regs ..)) (wrCodes_regsBut _ _ _ _ _)

/-- A write of the lower half of TMG_CN_PRESET stores nothing; the write of the upper half that follows stores both. -/
theorem registerWrite_preset_halves {s : State} (ha : s.power.asleep = false) (v w : W64) :
    Completes (.registerWrite saffron (busAddr R.TMG_CN_PRESET 0) .b4 v {}) s fun t => t.regs = s.regs ∧ t.ans.resp = .okay ∧
      Completes (.registerWrite saffron (busAddr R.TMG_CN_PRESET 4) .b4 w {}) t fun u =>
        u.rd R.TMG_CN_PRESET = w.extractLsb' 0 32 ++ v.extractLsb' 0 32 ∧ u.ans.resp = .okay ∧
        RegsBut s u [R.TMG_CN_PRESET.addr 0] := by
  have hlower : csrWrite (s.accOf saffron.val false) (busAddr R.TMG_CN_PRESET 0).toNat (natBytes v.toNat 4) s =
      (.okay, holdLower R.TMG_CN_PRESET 0 saffron.val (v.extractLsb' 0 32) s) := by
    have hword : BitVec.ofNat 32 (v.toNat % 256 ^ 4) = v.extractLsb' 0 32 := by
      apply BitVec.eq_of_toNat_eq; simp
    rw [csrWrite_reg regAt_TMG_CN_PRESET (actionUnpowered_codesOnly codesOnly_TMG_CN_PRESET (by decide) ..)
      (by rw [length_natBytes]; decide), length_natBytes, bytesNat_natBytes, ← hword]
    exact regPut_lower _ (by decide) rfl
  refine ⟨_, exec_registerWrite ha (by decide) v regAt_TMG_CN_PRESET.inMap (by decide) hlower, rfl, rfl, ?_⟩
  refine registerWrite_preset_upper ?_ w ?_
  · exact ha
  · exact Tbl.find_set_same _ _ _

/-- The read of the upper half of TMG_CN_PRESET by an initiator that holds an upper word answers that word (00 R8). -/
theorem rcRegisterRead_preset_upper {s : State} (ha : s.power.asleep = false) {x : W32}
    (hx : s.halves.latched.find (saffron.val, R.TMG_CN_PRESET.addr 0) = some x) :
    Completes (.rcRegisterRead saffron (busAddr R.TMG_CN_PRESET 4) .b4 false {}) s fun t =>
      t.ans.resp = .okay ∧ t.ans.data.setWidth 32 = x := by
  have hv : (regAccess R.TMG_CN_PRESET 0 4 4 (s.accOf saffron.val false) {} s).1 = x.setWidth 64 :=
    regAccess_upper (by decide) {} hx
  refine ⟨_, rcRegisterRead_reg ha (by decide) false regAt_TMG_CN_PRESET_upper (by decide) (by decide) rfl (Prod.ext hv rfl),
    rfl, (answer_word _ _).trans (BitVec.setWidth_setWidth_of_le x (by decide)|>.trans (BitVec.setWidth_eq x))⟩

/-- A read of the lower half of TMG_CN_PRESET answers it and holds the upper half, which the next upper read answers whatever
the register has become. -/
theorem rcRegisterRead_preset_halves {s : State} (ha : s.power.asleep = false) (v : W64) :
    Completes (.rcRegisterRead saffron (busAddr R.TMG_CN_PRESET 0) .b4 false {}) s fun t =>
      t.ans.resp = .okay ∧ t.ans.data.setWidth 32 = (s.rd R.TMG_CN_PRESET).setWidth 32 ∧ t.regs = s.regs ∧
      Completes (.rcRegisterRead saffron (busAddr R.TMG_CN_PRESET 4) .b4 false {}) (t.wr R.TMG_CN_PRESET 0 v) fun u =>
        u.ans.resp = .okay ∧ u.ans.data.setWidth 32 = (s.rd R.TMG_CN_PRESET).extractLsb' 32 32 := by
  have hlower : regAccess R.TMG_CN_PRESET 0 0 4 (s.accOf saffron.val false) {} s =
      (s.rd R.TMG_CN_PRESET &&& 0xFFFFFFFF, latchUpper R.TMG_CN_PRESET 0 saffron.val (s.rd R.TMG_CN_PRESET) s) :=
    regAccess_lower readsStored_TMG_CN_PRESET rfl (by decide) _ {} s
  have hmask : (0xFFFFFFFF : W64).setWidth 32 = BitVec.allOnes 32 := by decide
  have hupper : (s.rd R.TMG_CN_PRESET).extractLsb' 32 32 = ((s.rd R.TMG_CN_PRESET) >>> 32).setWidth 32 := by
    apply BitVec.eq_of_toNat_eq; simp
  refine ⟨_, rcRegisterRead_reg ha (by decide) false regAt_TMG_CN_PRESET (by decide) (by decide) rfl hlower, rfl,
    (answer_word _ _).trans ?_, rfl, ?_⟩
  · rw [BitVec.setWidth_and, hmask, BitVec.and_allOnes]
  · rw [hupper]
    refine rcRegisterRead_preset_upper ?_ ?_
    · exact ha
    · exact Tbl.find_set_same _ _ _

end Sys2Proof.Machine
end

section
/-! Sand requests of Geode initiators (08 R387 to R418), where nothing of the network intervenes. -/

namespace Sys2Proof.Machine

/-- A request of an awake Geode initiator whose way is open: no link-clock change stalls the links, no packet is on its way,
and its route works. -/
structure Unhindered (q : SandReq) (s : State) : Prop where
  awake : s.power.asleep = false
  geode : 0x40 ≤ q.ini.val
  unstalled : s.on F.NOC_STATUS_SWITCHING = false
  quietLinks : s.sand.moving = []
  routed : s.cutOff q.ini.val q.addr.toNat = false

/-- The request as its target sees it. -/
def reqAcc (q : SandReq) : Acc := { ini := q.ini.val, priv := q.priv.toNat, quiet := q.quiet, poison := !q.poison.isEmpty }

/-- The state differs in the free-value counter at most. -/
def OnlyFree (s t : State) : Prop := t = { s with free := t.free }

theorem onlyFree_refl (s : State) : OnlyFree s s := rfl

/-- What an answered request leaves: memory and the network stand, and no register but the error log changes. -/
def SandFrame (s t : State) : Prop :=
  (t.mem = s.mem ∧ t.sand = s.sand) ∧ t = { s with regs := t.regs, ans := t.ans, free := t.free } ∧
    RegsBut s t [R.NOC_ERR_LOG.addr 0]

@[simp] theorem length_reqData (q : SandReq) : (reqData q).length = reqBytes q := by simp [reqData]

/-- An unhindered request is taken by its target at once. -/
theorem exec_sandRequest {q : SandReq} {s : State} (h : Unhindered q s) (env : Env) :
    exec (.sandRequest q env) s = .next (sandServe q env s) := by
  have hstill : { s with sand := { s.sand with moving := [] } } = s := by rw [← h.quietLinks]
  have harrive : sandArrive q env s = sandServe q env s := by
    simp [sandArrive, sandDrain, State.outbound, h.quietLinks, h.unstalled, hstill]
  exact congrArg Host.Outcome.next harrive

/-- A read without an outstanding entry ends with its answer, and an error is logged. -/
theorem sandServe_read {q : SandReq} {env : Env} {s : State} (h : Unhindered q s) (hd : inDram q.addr.toNat = false)
    (hn : env.net = none) (hop : q.op = .read) (hf : s.sand.entries.find (q.ini.val, q.tag.toNat) = none) {m : MemAns} {t : State}
    (hm : mapRead4K csrRead (reqAcc q) q.addr.toNat (reqBytes q) env s = (m, t)) :
    sandServe q env s = (noteEnd q.ini.val q.addr.toNat false m.resp t).answerMem m := by
  have hnet := netRead_delivered (csr := csrRead) (c := reqAcc q) (n := reqBytes q) hn h.routed
  rw [hm] at hnet
  simp only [sandServe, h.awake, hd, hop, hf, Nat.not_lt.mpr h.geode]
  exact congrArg (fun p : MemAns × State => p.2.answerMem p.1) hnet

/-- A write without an outstanding entry likewise. -/
theorem sandServe_write {q : SandReq} {env : Env} {s : State} (h : Unhindered q s) (hd : inDram q.addr.toNat = false)
    (hn : env.net = none) (hop : q.op = .write) (hf : s.sand.entries.find (q.ini.val, q.tag.toNat) = none) {r : Resp} {t : State}
    (hm : mapWrite4K csrWrite (reqAcc q) q.addr.toNat (reqData q) env s = (r, t)) :
    sandServe q env s = (noteEnd q.ini.val q.addr.toNat false r t).answer r := by
  have hnet := netWrite_delivered (csr := csrWrite) (c := reqAcc q) (data := reqData q) (posted := false) hn h.routed
  rw [hm] at hnet
  simp only [sandServe, h.awake, hd, hop, hf, Nat.not_lt.mpr h.geode]
  exact congrArg (fun p : Resp × State => p.2.answer p.1) hnet

/-- A posted write ends without an answer (08 R405). -/
theorem sandServe_writeP {q : SandReq} {env : Env} {s : State} (h : Unhindered q s) (hd : inDram q.addr.toNat = false)
    (hn : env.net = none) (hop : q.op = .writeP) {r : Resp} {t : State}
    (hm : mapWrite4K csrWrite (reqAcc q) q.addr.toNat (reqData q) env s = (r, t)) :
    sandServe q env s = noteEnd q.ini.val q.addr.toNat true r t := by
  have hnet := netWrite_delivered (csr := csrWrite) (c := reqAcc q) (data := reqData q) (posted := true) hn h.routed
  rw [hm] at hnet
  simp only [sandServe, h.awake, hd, hop, Nat.not_lt.mpr h.geode]
  exact congrArg Prod.snd hnet

/-- The response of a read that holds an outstanding entry starts its way back (08 R395, R398). -/
theorem sandServe_read_open {q : SandReq} {env : Env} {s : State} {e : SandEntry} (h : Unhindered q s)
    (hd : inDram q.addr.toNat = false) (hop : q.op = .read) (hf : s.sand.entries.find (q.ini.val, q.tag.toNat) = some e)
    {m : MemAns} {t : State} (hm : mapRead4K csrRead (reqAcc q) q.addr.toNat (reqBytes q) env s = (m, t)) :
    sandServe q env s = sandRespond q (t.answerMem m) := by
  have hposted : reqPosted q = false := by rw [reqPosted, hop]; rfl
  simp only [sandServe, h.awake, hd, hop, hf, hposted, h.routed, Nat.not_lt.mpr h.geode]
  exact congrArg (fun p : MemAns × State => sandRespond q (p.2.answerMem p.1)) hm

/-- What is answered, other than by TIMEOUT, by a target that changes nothing but free values leaves the frame. -/
theorem sandFrame_noteEnd {s t u : State} {r : Resp} (ini a : Nat) (hr : r ≠ .timeout) (ht : OnlyFree s t)
    (hu : u = { noteEnd ini a false r t with ans := u.ans }) : SandFrame s u := by
  rw [noteEnd_answered _ _ _ hr, nocLog_frame] at hu
  rw [OnlyFree] at ht
  rw [ht] at hu
  refine ⟨⟨by rw [hu], by rw [hu]⟩, by rw [hu], ?_⟩
  rw [hu, ← ht]
  exact regsBut_trans (regsBut_regs _ (by rw [ht])) (nocLog_regsBut ini a r false t)

/-- A request that its target answers with `r`, changing nothing but free values, is answered with `r` and leaves the frame. -/
theorem sandRequest_answered {q : SandReq} {env : Env} {s : State} {r : Resp} (h : Unhindered q s)
    (hd : inDram q.addr.toNat = false) (hn : env.net = none) (hf : s.sand.entries.find (q.ini.val, q.tag.toNat) = none)
    (hop : q.op ≠ .writeP) (hr : r ≠ .timeout)
    (hread : q.op = .read → ∃ m t, mapRead4K csrRead (reqAcc q) q.addr.toNat (reqBytes q) env s = (m, t) ∧ m.resp = r ∧
      OnlyFree s t)
    (hwrite : q.op = .write → mapWrite4K csrWrite (reqAcc q) q.addr.toNat (reqData q) env s = (r, s)) :
    Completes (.sandRequest q env) s fun t => t.ans.resp = r ∧ SandFrame s t ∧ (q.op = .read →
      ∃ m u, mapRead4K csrRead (reqAcc q) q.addr.toNat (reqBytes q) env s = (m, u) ∧
        t.ans.data = BitVec.ofNat 64 (bytesNat (m.bytes.take 8))) := by
  refine ⟨_, exec_sandRequest h env, ?_⟩
  cases hq : q.op with
  | read =>
    obtain ⟨m, t, hm, hresp, hfree⟩ := hread hq
    rw [sandServe_read h hd hn hq hf hm, hresp]
    exact ⟨hresp, sandFrame_noteEnd _ _ hr hfree rfl, fun _ => ⟨m, t, hm, rfl⟩⟩
  | write =>
    rw [sandServe_write h hd hn hq hf (hwrite hq)]
    exact ⟨rfl, sandFrame_noteEnd _ _ hr (onlyFree_refl s) rfl, fun hn => absurd hn (by decide)⟩
  | writeP => exact absurd hq hop

end Sys2Proof.Machine
end

section
/-! What lies where no register does (01 R35 to R42): the boot ROM, addresses of no window, and the windows of the bays. -/

namespace Sys2Proof.Machine

theorem onlyFree_freeBytes (s : State) (n : Nat) : OnlyFree s (s.freeBytes n).2 := rfl

/-- What answers below the scratchpad: the boot ROM, which Saffron reads and nobody writes, or nothing (01 R35). -/
def lowResp (a ini : Nat) (op : SandOp) : Resp :=
  if a < romEnd then if op = .read ∧ ini = 0x48 then .okay else .denied else .unmapped

theorem mapRead_low {csr : CsrRead} {a : Nat} (h : a < spdBase) (c : Acc) (n : Nat) (env : Env) (s : State) :
    mapRead csr c a n env s =
      if a < romEnd then
        if c.ini = 0x48 then (⟨.okay, (s.freeBytes n).1, []⟩, (s.freeBytes n).2) else (⟨.denied, [], []⟩, s)
      else (⟨.unmapped, [], []⟩, s) := by
  obtain ⟨hdram, hspd, hcsr, hvrd, hbay⟩ := no_window_below h
  simp [mapRead, hdram, hspd, hcsr, hvrd, hbay]

theorem mapRead_low_resp {csr : CsrRead} {a : Nat} (h : a < spdBase) (c : Acc) (n : Nat) (env : Env) (s : State) :
    ∃ m t, mapRead csr c a n env s = (m, t) ∧ m.resp = lowResp a c.ini .read ∧ OnlyFree s t := by
  rw [mapRead_low h, lowResp]
  by_cases hrom : a < romEnd
  · by_cases hsaff : c.ini = 0x48
    · rw [if_pos hrom, if_pos hsaff, if_pos hrom, if_pos ⟨rfl, hsaff⟩]
      exact ⟨_, _, rfl, rfl, onlyFree_freeBytes s n⟩
    · rw [if_pos hrom, if_neg hsaff, if_pos hrom, if_neg fun hc => hsaff hc.2]
      exact ⟨_, _, rfl, rfl, onlyFree_refl s⟩
  · rw [if_neg hrom, if_neg hrom]
    exact ⟨_, _, rfl, rfl, onlyFree_refl s⟩

theorem mapWrite_low {csr : CsrWrite} {a : Nat} (h : a < spdBase) (c : Acc) (data : List Byte) (env : Env) (s : State) :
    mapWrite csr c a data env s = (lowResp a c.ini .write, s) := by
  obtain ⟨hdram, hspd, hcsr, hvrd, hbay⟩ := no_window_below h
  by_cases hrom : a < romEnd <;> simp [mapWrite, lowResp, hdram, hspd, hcsr, hvrd, hbay, hrom]

/-- A bay's window answers what the bay answers, with data where the response carries any. -/
theorem mapRead_bay {csr : CsrRead} {a : Nat} (h : inBay a = true) (c : Acc) (n : Nat) (env : Env) (s : State) :
    mapRead csr c a n env s =
      (⟨(s.bayAnswers (bayOfAddr a) env).1, if hasData (s.bayAnswers (bayOfAddr a) env).1 then
        (natBytes (s.bayAnswers (bayOfAddr a) env).2.toNat 8 ++ (s.freeBytes (n - 8)).1).take n else [], []⟩,
        if 8 < n then (s.freeBytes (n - 8)).2 else s) := by
  obtain ⟨hdram, hspd, hcsr, hvrd⟩ := no_other_window_of_inBay h
  simp [mapRead, hdram, hspd, hcsr, hvrd, h]

theorem mapWrite_bay {csr : CsrWrite} {a : Nat} (h : inBay a = true) (c : Acc) (data : List Byte) (env : Env) (s : State) :
    mapWrite csr c a data env s = ((s.bayAnswers (bayOfAddr a) env).1, s) := by
  obtain ⟨hdram, hspd, hcsr, hvrd⟩ := no_other_window_of_inBay h
  simp [mapWrite, hdram, hspd, hcsr, hvrd, h]

theorem bayAnswers_fenced {s : State} {b : Nat} (h : s.fenced b = true) (env : Env) : s.bayAnswers b env = (.fenced, 0) := by
  simp [State.bayAnswers, h]

theorem bayAnswers_open {s : State} {b : Nat} (hf : s.fenced b = false) (hs : s.slabFenced (b / 16) = false)
    (hr : s.railUp (b / 16) = true) (env : Env) : s.bayAnswers b env = env.bay := by
  simp [State.bayAnswers, hf, hs, hr]

/-- The response to an access of a target whose answer is `r`: SIZE where the access crosses a 4 KiB boundary and no earlier
check fails (08 R388, R394). -/
def sized (r : Resp) (cross : Bool) : Resp := if cross && !beforeSize r then .size else r

theorem mapRead4K_of {csr : CsrRead} {c : Acc} {a n : Nat} {env : Env} {s t : State} {m : MemAns}
    (h : mapRead csr c a n env s = (m, t)) (ht : OnlyFree s t) :
    ∃ m' t', mapRead4K csr c a n env s = (m', t') ∧ m'.resp = sized m.resp (crosses4K a n) ∧ OnlyFree s t' := by
  cases hx : crosses4K a n
  · exact ⟨m, t, by simp [mapRead4K, h, hx], rfl, ht⟩
  · refine ⟨⟨sized m.resp true, [], []⟩, s, ?_, rfl, onlyFree_refl s⟩
    cases hb : beforeSize m.resp <;> simp [mapRead4K, h, hx, sized, hb]

theorem mapWrite4K_of {csr : CsrWrite} {c : Acc} {a : Nat} {data : List Byte} {env : Env} {s : State} {r : Resp}
    (h : mapWrite csr c a data env s = (r, s)) : mapWrite4K csr c a data env s = (sized r (crosses4K a data.length), s) := by
  cases hx : crosses4K a data.length
  · simp [mapWrite4K, h, hx, sized]
  · cases hb : beforeSize r <;> simp [mapWrite4K, h, hx, sized, hb]

/-- A check made before that of size decides the response. -/
theorem sized_beforeSize {r : Resp} (h : beforeSize r = true) (cross : Bool) : sized r cross = r := by
  simp [sized, h]

theorem sized_ne_timeout {r : Resp} (h : r ≠ .timeout) (cross : Bool) : sized r cross ≠ .timeout := by
  unfold sized; split
  · decide
  · exact h

theorem lowResp_ne_timeout (a ini : Nat) (op : SandOp) : lowResp a ini op ≠ .timeout := by
  unfold lowResp; split
  · split <;> decide
  · decide

/-- A request below the scratchpad. -/
theorem sandRequest_low {q : SandReq} {s : State} (h : Unhindered q s) (ha : q.addr.toNat < spdBase)
    (hf : s.sand.entries.find (q.ini.val, q.tag.toNat) = none) (hop : q.op ≠ .writeP) :
    Completes (.sandRequest q {}) s fun t =>
      t.ans.resp = sized (lowResp q.addr.toNat q.ini.val q.op) (crosses4K q.addr.toNat (reqBytes q)) ∧ SandFrame s t := by
  obtain ⟨hdram, -⟩ := no_window_below ha
  obtain ⟨t, hexec, hresp, hframe, -⟩ := sandRequest_answered h hdram (env := {}) rfl hf hop
    (sized_ne_timeout (lowResp_ne_timeout q.addr.toNat q.ini.val q.op) (crosses4K q.addr.toNat (reqBytes q)))
    (fun hread => by
      obtain ⟨m, u, hm, hresp, hfree⟩ := mapRead_low_resp (csr := csrRead) ha (reqAcc q) (reqBytes q) {} s
      rw [hread]
      have hsized := mapRead4K_of hm hfree
      rwa [hresp] at hsized)
    (fun hwrite => by
      rw [hwrite, ← length_reqData]
      exact mapWrite4K_of (mapWrite_low ha (reqAcc q) _ {} s))
  exact ⟨t, hexec, hresp, hframe⟩

/-- A request to the window of a bay (08 R416 to R418). -/
theorem sandRequest_bay {q : SandReq} {s : State} {env : Env} (h : Unhindered q s) (ha : inBay q.addr.toNat = true)
    (hn : env.net = none) (hf : s.sand.entries.find (q.ini.val, q.tag.toNat) = none) (hop : q.op ≠ .writeP) {r : Resp} {d : W64}
    (hbay : s.bayAnswers (bayOfAddr q.addr.toNat) env = (r, d)) (hr : r ≠ .timeout) :
    Completes (.sandRequest q env) s fun t =>
      t.ans.resp = sized r (crosses4K q.addr.toNat (reqBytes q)) ∧ SandFrame s t ∧
      (q.op = .read → reqBytes q = 8 → crosses4K q.addr.toNat (reqBytes q) = false → hasData r = true → t.ans.data = d) := by
  obtain ⟨hdram, -⟩ := no_other_window_of_inBay ha
  have hmap := mapRead_bay (csr := csrRead) ha (reqAcc q) (reqBytes q) env s
  rw [hbay] at hmap
  have hfree : OnlyFree s (if 8 < reqBytes q then (s.freeBytes (reqBytes q - 8)).2 else s) := by
    split
    · exact onlyFree_freeBytes s _
    · exact onlyFree_refl s
  obtain ⟨t, hexec, hresp, hframe, hdata⟩ := sandRequest_answered h hdram hn hf hop
    (sized_ne_timeout hr (crosses4K q.addr.toNat (reqBytes q)))
    (fun _ => mapRead4K_of hmap hfree)
    (fun _ => by
      have hw := mapWrite_bay (csr := csrWrite) ha (reqAcc q) (reqData q) env s
      rw [hbay] at hw
      rw [← length_reqData]
      exact mapWrite4K_of hw)
  refine ⟨t, hexec, hresp, hframe, fun hread hbytes hcross hhas => ?_⟩
  obtain ⟨m, u, hm, hd⟩ := hdata hread
  have hsame : mapRead4K csrRead (reqAcc q) q.addr.toNat (reqBytes q) env s =
      mapRead csrRead (reqAcc q) q.addr.toNat (reqBytes q) env s := by simp [mapRead4K, hcross]
  have hbs : m.bytes = natBytes d.toNat 8 := by
    rw [hsame, hmap] at hm
    obtain ⟨hans, -⟩ := Prod.mk.inj hm
    rw [← hans]
    simp [hhas, hbytes, State.freeBytes]
  rw [hd, hbs]
  exact ofNat_bytesNat_natBytes d

/-- A posted write to the boot ROM is answered by nothing; its error is flagged, and logged with POSTED 1 (08 R405, R414). -/
theorem sandRequest_rom_posted {q : SandReq} {s : State} (h : Unhindered q s) (ha : q.addr.toNat < romEnd)
    (hop : q.op = .writeP) (hx : crosses4K q.addr.toNat (reqBytes q) = false) :
    Completes (.sandRequest q {}) s fun t => t.ans = s.ans ∧ t.mem = s.mem ∧ t.on F.NOC_ERR_POSTED_ERR = true ∧
      (s.on F.NOC_ERR_LOG_VALID = false → bit (t.rd R.NOC_ERR_LOG).toNat 62 = true) ∧
      RegsBut s t [R.NOC_ERR_LOG.addr 0, R.NOC_ERR.addr 0] := by
  have hlow : q.addr.toNat < spdBase := Nat.lt_trans ha (by decide)
  obtain ⟨hdram, -⟩ := no_window_below hlow
  have hwrite : mapWrite4K csrWrite (reqAcc q) q.addr.toNat (reqData q) {} s = (.denied, s) := by
    rw [mapWrite4K_of (mapWrite_low hlow (reqAcc q) _ {} s), length_reqData, hx]
    simp [sized, lowResp, ha]
  have hserve : sandServe q {} s = nocLog q.ini.val q.addr.toNat .denied true (s.raise F.NOC_ERR_POSTED_ERR) :=
    (sandServe_writeP h hdram rfl hop hwrite).trans (noteEnd_posted _ _ _ (by decide) (by decide))
  have hlog := nocLog_regsBut q.ini.val q.addr.toNat .denied true (s.raise F.NOC_ERR_POSTED_ERR)
  refine ⟨_, exec_sandRequest h {}, ?_⟩
  rw [hserve]
  refine ⟨by rw [nocLog_frame]; rfl, by rw [nocLog_frame]; rfl, ?_, fun hv => ?_, ?_⟩
  · rw [State.on, State.get, regsBut_rd hlog _ _ (by decide)]
    exact State.on_put_same s F.NOC_ERR_POSTED_ERR 0 1 (by decide)
  · refine nocLog_posted_bit _ _ (by decide) ?_
    exact (State.on_put_reg s F.NOC_ERR_POSTED_ERR F.NOC_ERR_LOG_VALID 1 (by decide)).trans hv
  · exact regsBut_trans (regsBut_put _ _ _ (regsBut_refl _ _) (by decide)) (regsBut_mono hlog (by decide))

end Sys2Proof.Machine
end

section
/-! Sand requests to TMG_CN_PRESET: reads and writes of a register by whoever asks (00 R7, 08 R394). -/

namespace Sys2Proof.Machine

theorem preset_not_dram {a : Nat} (ha : a = R.TMG_CN_PRESET.addr 0) : inDram a = false := by rw [ha]; decide

/-- TMG_CN_PRESET as a Sand request meets it: a read of all eight bytes answers them. -/
theorem mapRead4K_preset {q : SandReq} {s : State} (ha : q.addr.toNat = R.TMG_CN_PRESET.addr 0) (hl : reqBytes q = 8)
    (env : Env) :
    mapRead4K csrRead (reqAcc q) q.addr.toNat (reqBytes q) env s =
      (⟨.okay, natBytes (s.rd R.TMG_CN_PRESET).toNat 8, []⟩, s) := by
  have hat : RegAt q.addr.toNat R.TMG_CN_PRESET 0 0 := ha ▸ regAt_TMG_CN_PRESET
  have hx : crosses4K q.addr.toNat 8 = false := by rw [ha]; decide
  have hacc : regAccess R.TMG_CN_PRESET 0 0 8 (reqAcc q) env s = (s.rd R.TMG_CN_PRESET, s) := by
    rw [regAccess_whole _ _ _ (.inl rfl), regRead_stored readsStored_TMG_CN_PRESET, if_pos (.inr rfl)]
  rw [hl, mapRead4K_csr env s hat.inMap hx, csrRead_reg env hat rfl (by decide), hacc]

/-- A write of all eight bytes stores them. -/
theorem mapWrite4K_preset {q : SandReq} {s : State} (ha : q.addr.toNat = R.TMG_CN_PRESET.addr 0) (hl : reqBytes q = 8)
    (env : Env) :
    mapWrite4K csrWrite (reqAcc q) q.addr.toNat (reqData q) env s =
      (.okay, (s.wrCodes R.TMG_CN_PRESET 0 (BitVec.ofNat 64 (bytesNat (reqData q))) false).okay) := by
  have hat : RegAt q.addr.toNat R.TMG_CN_PRESET 0 0 := ha ▸ regAt_TMG_CN_PRESET
  have hlen : (reqData q).length = 8 := (length_reqData q).trans hl
  have hx : crosses4K q.addr.toNat (reqData q).length = false := by rw [hlen, ha]; decide
  rw [mapWrite4K_csr env s hat.inMap hx, csrWrite_reg hat
    (actionUnpowered_codesOnly codesOnly_TMG_CN_PRESET (by decide) ..) (by rw [hlen]; decide), hlen]
  exact regPut_whole codesOnly_TMG_CN_PRESET _ _ _ rfl (.inl rfl)

/-- A read of TMG_CN_PRESET. -/
theorem sandRequest_preset_read {q : SandReq} {s : State} (h : Unhindered q s) (ha : q.addr.toNat = R.TMG_CN_PRESET.addr 0)
    (hl : reqBytes q = 8) (hf : s.sand.entries.find (q.ini.val, q.tag.toNat) = none) (hop : q.op = .read) :
    Completes (.sandRequest q {}) s fun t => t.ans.resp = .okay ∧ t.ans.data = s.rd R.TMG_CN_PRESET ∧ SandFrame s t := by
  refine ⟨_, exec_sandRequest h {}, ?_⟩
  rw [sandServe_read h (preset_not_dram ha) rfl hop hf (mapRead4K_preset ha hl {})]
  exact ⟨rfl, ofNat_bytesNat_natBytes _, sandFrame_noteEnd (r := .okay) _ _ (by decide) (onlyFree_refl s) rfl⟩

/-- A write of TMG_CN_PRESET. -/
theorem sandRequest_preset_write {q : SandReq} {s : State} (h : Unhindered q s) (ha : q.addr.toNat = R.TMG_CN_PRESET.addr 0)
    (hl : reqBytes q = 8) (hf : s.sand.entries.find (q.ini.val, q.tag.toNat) = none) (hop : q.op = .write) :
    Completes (.sandRequest q {}) s fun t => t.ans.resp = .okay ∧ (t.mem = s.mem ∧ t.sand = s.sand) ∧
      t.rd R.TMG_CN_PRESET = BitVec.ofNat 64 (bytesNat (reqData q)) ∧
      t = { s with regs := t.regs, ans := t.ans } ∧ RegsBut s t [R.TMG_CN_PRESET.addr 0] := by
  refine ⟨_, exec_sandRequest h {}, ?_⟩
  rw [sandServe_write h (preset_not_dram ha) rfl hop hf (mapWrite4K_preset ha hl {})]
  exact ⟨rfl, ⟨rfl, rfl⟩, rd_wrCodes_all rfl rfl s 0 _, rfl, wrCodes_regsBut s _ _ _ _⟩

/-- A read of TMG_CN_PRESET that holds an outstanding entry leaves its response on its way back. -/
theorem sandRequest_preset_open {q : SandReq} {s : State} {e : SandEntry} (h : Unhindered q s)
    (ha : q.addr.toNat = R.TMG_CN_PRESET.addr 0) (hl : reqBytes q = 8)
    (hf : s.sand.entries.find (q.ini.val, q.tag.toNat) = some e) (hop : q.op = .read) :
    Completes (.sandRequest q {}) s fun t => t.ans.resp = .okay ∧ t.ans.data = s.rd R.TMG_CN_PRESET ∧
      t.sand.entries = s.sand.entries ∧
      ∃ m, t.sand.moving = [m] ∧ m.q = q ∧ m.back = some (s.sand.gens.get 0 (q.ini.val, q.tag.toNat)) := by
  refine ⟨_, exec_sandRequest h {}, ?_⟩
  rw [sandServe_read_open h (preset_not_dram ha) hop hf (mapRead4K_preset ha hl {})]
  refine ⟨rfl, ofNat_bytesNat_natBytes _, rfl, _, congrArg (· ++ [_]) h.quietLinks, rfl, rfl⟩

end Sys2Proof.Machine
end

section
/-! Accesses over the bus, put together. -/

namespace Sys2Proof.Machine

/-- What a request meets that is refused, or reads the boot ROM. -/
theorem sandRequest_refused {q : SandReq} {s : State} (h : Unhindered q s)
    (hf : s.sand.entries.find (q.ini.val, q.tag.toNat) = none) (hop : q.op ≠ .writeP) (r : Resp)
    (hr : (r = .size ∧ crosses4K q.addr.toNat (reqBytes q) = true ∧ q.addr.toNat < 0x40000) ∨
      (r = .unmapped ∧ 0x40000 ≤ q.addr.toNat ∧ q.addr.toNat < 0x000100000000 ∧ ¬ inSpd q.addr.toNat) ∨
      (r = .fenced ∧ inBay q.addr.toNat = true ∧ s.fenced (bayOfAddr q.addr.toNat) = true) ∨
      (r = .denied ∧ crosses4K q.addr.toNat (reqBytes q) = false ∧ q.addr.toNat < 0x40000 ∧
        (q.op = .write ∨ q.ini.val ≠ 0x48)) ∨
      (r = .okay ∧ crosses4K q.addr.toNat (reqBytes q) = false ∧ q.addr.toNat < 0x40000 ∧ q.op = .read ∧ q.ini.val = 0x48)) :
    Completes (.sandRequest q {}) s fun t => t.ans.resp = r ∧ SandFrame s t := by
  have hlow (hlt : q.addr.toNat < spdBase)
      (hresp : r = sized (lowResp q.addr.toNat q.ini.val q.op) (crosses4K q.addr.toNat (reqBytes q))) :
      Completes (.sandRequest q {}) s fun t => t.ans.resp = r ∧ SandFrame s t := hresp ▸ sandRequest_low h hlt hf hop
  have hrom (hlt : q.addr.toNat < 0x40000) : q.addr.toNat < spdBase := Nat.lt_trans hlt (by decide)
  have hend (hlt : q.addr.toNat < 0x40000) : q.addr.toNat < romEnd := hlt
  rcases hr with ⟨rfl, hcross, ha⟩ | ⟨rfl, hge, hlt, -⟩ | ⟨rfl, hbay, hfen⟩ | ⟨rfl, hcross, ha, hden⟩ |
    ⟨rfl, hcross, ha, hread, hsaff⟩
  · refine hlow (hrom ha) ?_
    rw [lowResp, if_pos (hend ha), hcross]
    split <;> rfl
  · refine hlow hlt ?_
    rw [lowResp, if_neg (show ¬ _ < romEnd from Nat.not_lt.mpr hge), sized_beforeSize rfl]
  · obtain ⟨t, hexec, hresp, hframe, -⟩ := sandRequest_bay h hbay rfl hf hop (bayAnswers_fenced hfen {}) (by decide)
    exact ⟨t, hexec, hresp.trans (sized_beforeSize rfl _), hframe⟩
  · refine hlow (hrom ha) ?_
    have hnot : ¬ (q.op = .read ∧ q.ini.val = 0x48) := by
      rintro ⟨hread, hini⟩
      rcases hden with hwrite | hne
      · exact absurd (hread.symm.trans hwrite) (by decide)
      · exact hne hini
    rw [lowResp, if_pos (hend ha), if_neg hnot, hcross]; rfl
  · refine hlow (hrom ha) ?_
    rw [lowResp, if_pos (hend ha), if_pos ⟨hread, hsaff⟩, hcross]; rfl

/-- Settles O25: Saffron's accesses clause by clause, a sleeping device, and the requests by what they meet. -/
theorem busAccess : Obligations.BusAccess := by
  refine ⟨fun s => ⟨fun ha => ?_, fun ha => ?_⟩, fun s q ha hgeode hstall hquiet hroute => ?_⟩
  · exact ⟨registerWrite_preset ha, registerWrite_preset_halves ha, rcRegisterRead_preset_halves ha, registerWrite_err ha,
      registerWrite_cn ha, rcRegisterRead_checkErrs ha, registerWrite_err_size ha, registerWrite_unmapped ha,
      fun v _ hini => registerWrite_power_denied ha v hini⟩
  · exact ⟨fun _ _ _ _ _ => congrArg Host.Outcome.next (if_pos ha), fun _ _ _ _ _ => congrArg Host.Outcome.next (if_pos ha)⟩
  · have h : Unhindered q s := ⟨ha, hgeode, hstall, hquiet, hroute⟩
    have hbytes (hlen : q.len = 7) : reqBytes q = 8 := by rw [reqBytes, hlen]; rfl
    refine ⟨fun hf => ⟨fun haddr hlen => ?_, fun hbay hfen hslab hrail hcross hop env hnet htime => ?_, fun hop r hr => ?_⟩,
      fun hop hcross haddr => sandRequest_rom_posted h haddr hop hcross,
      fun e hf haddr hlen hop => sandRequest_preset_open h haddr (hbytes hlen) hf hop⟩
    · exact ⟨sandRequest_preset_read h haddr (hbytes hlen) hf, sandRequest_preset_write h haddr (hbytes hlen) hf⟩
    · obtain ⟨t, hexec, hresp, hframe, hdata⟩ :=
        sandRequest_bay h hbay hnet hf hop (bayAnswers_open hfen hslab hrail env) htime
      refine ⟨t, hexec, hresp.trans ?_, fun hread hlen hhas => hdata hread (hbytes hlen) hcross hhas, hframe⟩
      rw [hcross]; rfl
    · exact sandRequest_refused h hf hop r hr

end Sys2Proof.Machine
end


section
/-! Every step keeps what no meaning disturbs: the canonical form of memory (01 R35) and merge entries in their bank
(15 R809). Each row's own lemma stands under Laws/Kept*. -/

namespace Sys2Proof.Machine

/-- Whatever command is executed keeps `Kept`. -/
theorem kept_exec {s0 s : State} (c : Instr) (h : Kept s0 s) : Kept s0 (after (exec c s) s0) := by
  cases c with
  | registerWrite => exact kept_execRegisterWrite _ _ _ _ _ h
  | rcRegisterRead => exact kept_execRcRegisterRead _ _ _ _ _ h
  | timingFrameReceived => exact kept_execTimingFrameReceived _ h
  | quartzPllLock => exact kept_execQuartzPllLock h
  | relockBoundaryStep => exact kept_execRelockBoundaryStep h
  | crossingBoundary => exact kept_execCrossingBoundary h
  | nop => exact kept_execNop h
  | cnr => exact kept_execCnr h
  | orb => exact kept_execOrb h
  | rsy => exact kept_execRsy h
  | exa => exact kept_execExa h
  | cal => exact kept_execCal h
  | tpl => exact kept_execTpl h
  | thr => exact kept_execThr h
  | trl => exact kept_execTrl h
  | reservedCommand => exact kept_execReservedCommand h
  | userCommand => exact kept_execUserCommand h
  | cnPresetMessage => exact kept_execCnPresetMessage h
  | queuedMessage => exact kept_execQueuedMessage h
  | msgDrop => exact kept_execMsgDrop h
  | msgDataRead => exact kept_execMsgDataRead _ h
  | timingPortEnable => exact kept_execTimingPortEnable _ h
  | timingPortDisable => exact kept_execTimingPortDisable _ h
  | timingPortCdrLoss => exact kept_execTimingPortCdrLoss h
  | timingPortCdrLock => exact kept_execTimingPortCdrLock h
  | laneEnable => exact kept_execLaneEnable _ _ h
  | quadPllLock => exact kept_execQuadPllLock _ _ h
  | quadPllUnlock => exact kept_execQuadPllUnlock _ _ h
  | cdrLock => exact kept_execCdrLock _ h
  | cdrLoss => exact kept_execCdrLoss _ _ h
  | laneWordReceived => exact kept_execLaneWordReceived _ _ h
  | trainingBlockReceived => exact kept_execTrainingBlockReceived _ _ _ _ h
  | tapRequestApply => exact kept_execTapRequestApply _ h
  | alignmentMarkerReceived => exact kept_execAlignmentMarkerReceived _ _ _ h
  | laneWordTransmit => exact kept_execLaneWordTransmit _ _ _ h
  | retrain => exact kept_execRetrain _ h
  | trainingComplete => exact kept_execTrainingComplete _ h
  | trainingResponseTimeout => exact kept_execTrainingResponseTimeout _ _ h
  | bitslip => exact kept_execBitslip _ h
  | bitslipDone => exact kept_execBitslipDone _ h
  | laneBindingChange => exact kept_execLaneBindingChange _ _ h
  | prbsLock => exact kept_execPrbsLock _ h
  | prbsLost => exact kept_execPrbsLost _ h
  | snap => exact kept_execSnap _ h
  | clr => exact kept_execClr _ h
  | inject => exact kept_execInject _ h
  | pstateRequest => exact kept_execPstateRequest _ _ h
  | pstateDone => exact kept_execPstateDone _ h
  | fabricResetAssert => exact kept_execFabricResetAssert _ _ _ h
  | fabricResetRelease => exact kept_execFabricResetRelease _ _ h
  | vccoLoss => exact kept_execVccoLoss _ h
  | vccoReturn => exact kept_execVccoReturn _ _ h
  | bramRead => exact kept_execBramRead _ _ _ _ _ _ h
  | bramWrite => exact kept_execBramWrite _ _ _ _ _ _ _ _ h
  | bramErrorRetry => exact kept_execBramErrorRetry _ _ _ _ h
  | outputRegisterReset => exact kept_execOutputRegisterReset _ _ _ h
  | fifoWrite => exact kept_execFifoWrite _ _ _ _ h
  | fifoRead => exact kept_execFifoRead _ _ _ h
  | flush => exact kept_execFlush _ h
  | flushPointRecord => exact kept_execFlushPointRecord _ h
  | flushComplete => exact kept_execFlushComplete _ h
  | fifoReset => exact kept_execFifoReset _ h
  | fifoResetRelease => exact kept_execFifoResetRelease _ _ h
  | pointerSync => exact kept_execPointerSync _ _ h
  | sliceNop => exact kept_execSliceNop _ _ h
  | waitx => exact kept_execWaitx _ _ h
  | halt => exact kept_execHalt _ _ h
  | jmp => exact kept_execJmp _ _ h
  | br => exact kept_execBr _ _ h
  | loop => exact kept_execLoop _ _ h
  | loopr => exact kept_execLoopr _ _ h
  | seti => exact kept_execSeti _ _ h
  | movr => exact kept_execMovr _ _ h
  | sliceLd => exact kept_execSliceLd _ _ h
  | ldd => exact kept_execLdd _ _ h
  | st => exact kept_execSt _ _ h
  | rds => exact kept_execRds _ _ h
  | cinx => exact kept_execCinx _ _ h
  | cout => exact kept_execCout _ _ h
  | sliceAdd => exact kept_execSliceAdd _ _ h
  | sliceSub => exact kept_execSliceSub _ _ h
  | sliceAnd => exact kept_execSliceAnd _ _ h
  | sliceOr => exact kept_execSliceOr _ _ h
  | sliceXor => exact kept_execSliceXor _ _ h
  | shf => exact kept_execShf _ _ h
  | cmp => exact kept_execCmp _ _ h
  | sliceAddi => exact kept_execSliceAddi _ _ h
  | mpy => exact kept_execMpy _ _ h
  | mac => exact kept_execMac _ _ h
  | msu => exact kept_execMsu _ _ h
  | macm => exact kept_execMacm _ _ h
  | tap => exact kept_execTap _ _ h
  | adda => exact kept_execAdda _ _ h
  | ash => exact kept_execAsh _ _ h
  | rnd => exact kept_execRnd _ _ h
  | cadd => exact kept_execCadd _ _ h
  | maxs => exact kept_execMaxs _ _ h
  | mins => exact kept_execMins _ _ h
  | the => exact kept_execThe _ _ h
  | emit => exact kept_execEmit _ _ h
  | t8add => exact kept_execT8add _ _ h
  | t8sub => exact kept_execT8sub _ _ h
  | t8mac => exact kept_execT8mac _ _ h
  | t8max => exact kept_execT8max _ _ h
  | t8min => exact kept_execT8min _ _ h
  | t8pk => exact kept_execT8pk _ _ h
  | t8hs => exact kept_execT8hs _ _ h
  | illegalInstruction => exact kept_execIllegalInstruction _ _ h
  | pmWriteBack => exact kept_execPmWriteBack _ _ h
  | dmWriteBack => exact kept_execDmWriteBack _ _ h
  | emitOutput => exact kept_execEmitOutput _ _ h
  | streamInputWord => exact kept_execStreamInputWord _ _ _ h
  | runStartEdge => exact kept_execRunStartEdge _ _ _ h
  | srstRise => exact kept_execSrstRise _ _ h
  | srstFall => exact kept_execSrstFall _ _ h
  | sliceHalt => exact kept_execSliceHalt h
  | sliceGo => exact kept_execSliceGo h
  | sliceResume => exact kept_execSliceResume h
  | clrDm => exact kept_execClrDm h
  | clrDmDone => exact kept_execClrDmDone _ _ h
  | sliceDataWrite => exact kept_execSliceDataWrite _ h
  | sliceDataRead => exact kept_execSliceDataRead _ _ h
  | sandRequest => exact kept_execSandRequest _ _ h
  | sandResponse => exact kept_execSandResponse _ h
  | sandTimeout => exact kept_execSandTimeout _ _ h
  | sandInjection => exact kept_execSandInjection _ _ h
  | linkRetry => exact kept_execLinkRetry _ _ h
  | linkClockSwitchDone => exact kept_execLinkClockSwitchDone h
  | nocRateWrite => exact kept_execNocRateWrite _ _ h
  | accessPointInject => exact kept_execAccessPointInject _ _ _ h
  | transmitChannelWrite => exact kept_execTransmitChannelWrite _ _ _ _ h
  | quartzInjection => exact kept_execQuartzInjection _ _ h
  | quartzFlitArrival => exact kept_execQuartzFlitArrival _ _ h
  | receiveChannelUpdate => exact kept_execReceiveChannelUpdate _ _ _ _ h
  | tableWrite => exact kept_execTableWrite _ h
  | commit => exact kept_execCommit _ h
  | commitCopyDone => exact kept_execCommitCopyDone h
  | commitBoundary => exact kept_execCommitBoundary h
  | slabTableReload => exact kept_execSlabTableReload _ h
  | trace => exact kept_execTrace _ h
  | traceDone => exact kept_execTraceDone h
  | probe => exact kept_execProbe _ h
  | probeDone => exact kept_execProbeDone h
  | probeLost => exact kept_execProbeLost h
  | verdictInit => exact kept_execVerdictInit h
  | lookup => exact kept_execLookup _ _ _ _ h
  | verdictWriteBack => exact kept_execVerdictWriteBack h
  | ueSecondRead => exact kept_execUeSecondRead _ h
  | portConfigApply => exact kept_execPortConfigApply h
  | retire => exact kept_execRetire _ h
  | retirementApply => exact kept_execRetirementApply h
  | restore => exact kept_execRestore _ h
  | rbist => exact kept_execRbist _ h
  | rbistDone => exact kept_execRbistDone _ h
  | windowRead => exact kept_execWindowRead _ _ h
  | windowWrite => exact kept_execWindowWrite _ _ h
  | arm => exact kept_execArm _ h
  | bankCopyDone => exact kept_execBankCopyDone _ h
  | loaderGo => exact kept_execLoaderGo h
  | loaderDone => exact kept_execLoaderDone h
  | loadErr => exact kept_execLoadErr h
  | swapGo => exact kept_execSwapGo _ h
  | swap => exact kept_execSwap h
  | disarm => exact kept_execDisarm _ h
  | patrolRead => exact kept_execPatrolRead _ _ h
  | fragment => exact kept_execFragment _ _ _ _ _ h
  | quartzDecision => exact kept_execQuartzDecision _ _ h
  | hostDecision => exact kept_execHostDecision _ h
  | pageWrite => exact kept_execPageWrite _ _ _ _ h
  | chunkSend => exact kept_execChunkSend _ _ h
  | streamGrant => exact kept_execStreamGrant _ _ h
  | stall => exact kept_execStall _ h
  | stallDiscard => exact kept_execStallDiscard _ h
  | streamEnable => exact kept_execStreamEnable _ _ h
  | streamDisable => exact kept_execStreamDisable _ _ h
  | ledgerEnable => exact kept_execLedgerEnable _ h
  | tierInitDone => exact kept_execTierInitDone h
  | ledgerDisable => exact kept_execLedgerDisable _ h
  | ethEnable => exact kept_execEthEnable _ _ h
  | linkUp => exact kept_execLinkUp _ h
  | linkDown => exact kept_execLinkDown _ _ _ _ h
  | frameDrop => exact kept_execFrameDrop _ _ h
  | arpRequest => exact kept_execArpRequest _ _ h
  | neighbourSolicitation => exact kept_execNeighbourSolicitation _ _ h
  | echoRequest => exact kept_execEchoRequest _ _ _ _ h
  | packetDiscard => exact kept_execPacketDiscard _ h
  | hello => exact kept_execHello _ _ h
  | data => exact kept_execData _ _ h
  | ack => exact kept_execAck _ h
  | verbRead => exact kept_execVerbRead _ _ h
  | verbWrite => exact kept_execVerbWrite _ _ h
  | badVerb => exact kept_execBadVerb _ h
  | accept => exact kept_execAccept _ h
  | grant => exact kept_execGrant _ h
  | rekey => exact kept_execRekey _ h
  | close => exact kept_execClose _ _ h
  | keepalive => exact kept_execKeepalive _ h
  | userControlMessage => exact kept_execUserControlMessage _ _ h
  | sessionCloseWrite => exact kept_execSessionCloseWrite _ _ h
  | retransmitTimeout => exact kept_execRetransmitTimeout _ _ _ h
  | ackDelay => exact kept_execAckDelay _ h
  | keepaliveTimer => exact kept_execKeepaliveTimer _ h
  | openingTimeout => exact kept_execOpeningTimeout _ h
  | holdTimeout => exact kept_execHoldTimeout _ h
  | chunkTake => exact kept_execChunkTake _ _ h
  | controlRingSend => exact kept_execControlRingSend _ h
  | ktpEnable => exact kept_execKtpEnable _ h
  | openSession => exact kept_execOpenSession _ _ h
  | configRestart => exact kept_execConfigRestart _ _ _ h
  | blankingDone => exact kept_execBlankingDone h
  | nprogLow => exact kept_execNprogLow h
  | syncWord => exact kept_execSyncWord _ h
  | imageHeader => exact kept_execImageHeader _ h
  | block => exact kept_execBlock _ _ _ h
  | nopPacket => exact kept_execNopPacket h
  | writePacket => exact kept_execWritePacket h
  | frames => exact kept_execFrames h
  | check => exact kept_execCheck h
  | start => exact kept_execStart h
  | confDoneHigh => exact kept_execConfDoneHigh h
  | sequenceStep => exact kept_execSequenceStep _ h
  | seqTimeout => exact kept_execSeqTimeout _ h
  | seqGo => exact kept_execSeqGo _ h
  | doneFell => exact kept_execDoneFell h
  | bayFence => exact kept_execBayFence _ _ _ h
  | unfence => exact kept_execUnfence _ _ _ h
  | slabFence => exact kept_execSlabFence _ h
  | slabUnfence => exact kept_execSlabUnfence _ h
  | icpArm => exact kept_execIcpArm _ _ h
  | icpDataWrite => exact kept_execIcpDataWrite _ _ _ h
  | icpAbort => exact kept_execIcpAbort _ _ h
  | cache => exact kept_execCache _ h
  | capture => exact kept_execCapture _ h
  | load => exact kept_execLoad _ h
  | relocate => exact kept_execRelocate _ h
  | relocateCommit => exact kept_execRelocateCommit _ h
  | spare => exact kept_execSpare _ h
  | blank => exact kept_execBlank _ h
  | bist => exact kept_execBist _ h
  | readback => exact kept_execReadback _ h
  | free => exact kept_execFree _ h
  | resultRead => exact kept_execResultRead _ h
  | pagerAbort => exact kept_execPagerAbort _ h
  | scrubFrameRead => exact kept_execScrubFrameRead _ _ _ h
  | pagerCommandDone => exact kept_execPagerCommandDone _ h
  | add => exact kept_execAdd _ _ _ _ h
  | sub => exact kept_execSub _ _ _ _ h
  | and => exact kept_execAnd _ _ _ _ h
  | or => exact kept_execOr _ _ _ _ h
  | xor => exact kept_execXor _ _ _ _ h
  | sll => exact kept_execSll _ _ _ _ h
  | srl => exact kept_execSrl _ _ _ _ h
  | sra => exact kept_execSra _ _ _ _ h
  | slt => exact kept_execSlt _ _ _ _ h
  | sltu => exact kept_execSltu _ _ _ _ h
  | mul => exact kept_execMul _ _ _ _ h
  | mulh => exact kept_execMulh _ _ _ _ h
  | mulhu => exact kept_execMulhu _ _ _ _ h
  | div => exact kept_execDiv _ _ _ _ h
  | divu => exact kept_execDivu _ _ _ _ h
  | rem => exact kept_execRem _ _ _ _ h
  | remu => exact kept_execRemu _ _ _ _ h
  | addi => exact kept_execAddi _ _ _ _ h
  | andi => exact kept_execAndi _ _ _ _ h
  | ori => exact kept_execOri _ _ _ _ h
  | xori => exact kept_execXori _ _ _ _ h
  | slli => exact kept_execSlli _ _ _ _ h
  | srli => exact kept_execSrli _ _ _ _ h
  | srai => exact kept_execSrai _ _ _ _ h
  | slti => exact kept_execSlti _ _ _ _ h
  | sltiu => exact kept_execSltiu _ _ _ _ h
  | lui => exact kept_execLui _ _ _ h
  | shori => exact kept_execShori _ _ _ _ h
  | lb => exact kept_execLb _ _ _ _ _ h
  | lbu => exact kept_execLbu _ _ _ _ _ h
  | lh => exact kept_execLh _ _ _ _ _ h
  | lhu => exact kept_execLhu _ _ _ _ _ h
  | lw => exact kept_execLw _ _ _ _ _ h
  | lwu => exact kept_execLwu _ _ _ _ _ h
  | ld => exact kept_execLd _ _ _ _ _ h
  | sb => exact kept_execSb _ _ _ _ _ h
  | sh => exact kept_execSh _ _ _ _ _ h
  | sw => exact kept_execSw _ _ _ _ _ h
  | sd => exact kept_execSd _ _ _ _ _ h
  | ldx => exact kept_execLdx _ _ _ _ h
  | stx => exact kept_execStx _ _ _ _ _ h
  | beq => exact kept_execBeq _ _ _ _ h
  | bne => exact kept_execBne _ _ _ _ h
  | blt => exact kept_execBlt _ _ _ _ h
  | bge => exact kept_execBge _ _ _ _ h
  | bltu => exact kept_execBltu _ _ _ _ h
  | bgeu => exact kept_execBgeu _ _ _ _ h
  | jal => exact kept_execJal _ _ _ h
  | jalr => exact kept_execJalr _ _ _ _ h
  | csrr => exact kept_execCsrr _ _ _ h
  | csrw => exact kept_execCsrw _ _ _ _ h
  | csrs => exact kept_execCsrs _ _ _ _ h
  | csrc => exact kept_execCsrc _ _ _ _ h
  | dclean => exact kept_execDclean _ _ _ _ h
  | dinv cx ra imm env => exact kept_execDinv cx ra imm env h
  | dflush => exact kept_execDflush _ _ _ _ h
  | iinv cx ra imm env => exact kept_execIinv cx ra imm env h
  | dflushAll => exact kept_execDflushAll _ _ _ _ h
  | iinvAll cx ra imm env => exact kept_execIinvAll cx ra imm env h
  | ecall => exact kept_execEcall _ h
  | tret => exact kept_execTret _ h
  | wfi => exact kept_execWfi _ h
  | fence => exact kept_execFence _ h
  | ifence => exact kept_execIfence _ h
  | brk => exact kept_execBrk _ h
  | coreIllegal => exact kept_execCoreIllegal _ _ h
  | storeErr => exact kept_execStoreErr _ h
  | interrupt => exact kept_execInterrupt _ h
  | reservationExpiry => exact kept_execReservationExpiry _ h
  | coreStart => exact kept_execCoreStart _ _ h
  | coreStop => exact kept_execCoreStop _ _ h
  | stewardBoot => exact kept_execStewardBoot _ h
  | requestGo => exact kept_execRequestGo _ _ h
  | lock => exact kept_execLock _ h
  | loadPatch => exact kept_execLoadPatch _ _ h
  | coreService => exact kept_execCoreService _ _ _ h
  | sign => exact kept_execSign _ _ h
  | random => exact kept_execRandom _ h
  | revoke => exact kept_execRevoke _ h
  | watchdogKick => exact kept_execWatchdogKick _ _ h
  | watchdogFirstExpiry => exact kept_execWatchdogFirstExpiry _ h
  | watchdogSecondExpiry => exact kept_execWatchdogSecondExpiry _ _ _ h
  | handover => exact kept_execHandover _ h
  | scratchpadRead => exact kept_execScratchpadRead _ _ h
  | scratchpadWrite => exact kept_execScratchpadWrite _ _ h
  | mergeEntryWrite => exact kept_execMergeEntryWrite _ _ h
  | scratchpadWriteBack => exact kept_execScratchpadWriteBack _ h
  | spdHandover => exact kept_execSpdHandover _ _ h
  | handoverDone => exact kept_execHandoverDone _ h
  | dmaGo => exact kept_execDmaGo _ _ h
  | dmaDone => exact kept_execDmaDone _ _ h
  | dmaHalt => exact kept_execDmaHalt _ _ _ _ h
  | dmaAbort => exact kept_execDmaAbort _ _ _ h
  | memKey => exact kept_execMemKey _ _ h
  | dmcEnable => exact kept_execDmcEnable _ _ h
  | dmcInitDone => exact kept_execDmcInitDone _ _ _ _ h
  | dmcDisable => exact kept_execDmcDisable _ _ h
  | dmcConfigWrite => exact kept_execDmcConfigWrite _ _ h
  | shortRetrain => exact kept_execShortRetrain _ _ h
  | retrained => exact kept_execRetrained _ _ h
  | freqGo => exact kept_execFreqGo _ _ h
  | freqDone => exact kept_execFreqDone _ _ h
  | refresh => exact kept_execRefresh _ _ h
  | urgencyMiss => exact kept_execUrgencyMiss _ _ h
  | dramRead => exact kept_execDramRead _ _ h
  | dramWrite => exact kept_execDramWrite _ _ h
  | dramPartialWrite => exact kept_execDramPartialWrite _ _ h
  | channelRetire => exact kept_execChannelRetire _ _ h
  | meeRegionEnable => exact kept_execMeeRegionEnable _ _ _ h
  | powerDomain => exact kept_execPowerDomain _ h
  | powerState => exact kept_execPowerState _ h
  | monitorTrip => exact kept_execMonitorTrip _ _ _ h
  | monitorStable => exact kept_execMonitorStable _ _ h
  | synthEnable => exact kept_execSynthEnable _ _ h
  | synthLock => exact kept_execSynthLock _ _ h
  | heldTimeout => exact kept_execHeldTimeout _ h
  | revert => exact kept_execRevert _ h
  | rampStep => exact kept_execRampStep _ h
  | gateWrite => exact kept_execGateWrite _ _ _ h
  | domainPowerOff => exact kept_execDomainPowerOff _ h
  | domainPowerOn => exact kept_execDomainPowerOn _ h
  | domainDone => exact kept_execDomainDone _ h
  | wake => exact kept_execWake _ h
  | padRelease => exact kept_execPadRelease _ h
  | comparatorSample => exact kept_execComparatorSample _ _ h
  | pinFunctionSwitch => exact kept_execPinFunctionSwitch _ _ _ h
  | switchWindowEnd => exact kept_execSwitchWindowEnd _ h
  | pinLevelChange => exact kept_execPinLevelChange _ _ h
  | uartDataWrite => exact kept_execUartDataWrite _ _ h
  | uartDataRead => exact kept_execUartDataRead _ _ h
  | uartByteReceived => exact kept_execUartByteReceived _ _ h
  | spiDataWrite => exact kept_execSpiDataWrite _ _ h
  | i2cStart => exact kept_execI2cStart _ h
  | i2cStop => exact kept_execI2cStop _ h
  | i2cWrite => exact kept_execI2cWrite _ _ h
  | i2cReadAck => exact kept_execI2cReadAck _ h
  | i2cReadNack => exact kept_execI2cReadNack _ h
  | timerWrap => exact kept_execTimerWrap _ h
  | eventSourceRise => exact kept_execEventSourceRise _ _ h
  | evcClaim => exact kept_execEvcClaim _ _ h
  | evcComplete => exact kept_execEvcComplete _ _ h
  | spiShiftDone => exact kept_execSpiShiftDone _ _ h
  | i2cOperationDone => exact kept_execI2cOperationDone _ _ h
  | uartByteSent => exact kept_execUartByteSent _ h
  | tapReset => exact kept_execTapReset _ h
  | extest => exact kept_execExtest _ _ h
  | samplePreload => exact kept_execSamplePreload _ _ h
  | idcode => exact kept_execIdcode h
  | clamp => exact kept_execClamp h
  | highz => exact kept_execHighz h
  | bypass => exact kept_execBypass _ h
  | vapChal => exact kept_execVapChal _ h
  | vapAuth => exact kept_execVapAuth _ h
  | vapAcc => exact kept_execVapAcc _ h
  | levelSet => exact kept_execLevelSet _ h
  | vapRead => exact kept_execVapRead _ h
  | vapWrite => exact kept_execVapWrite _ h
  | image => exact kept_execImage h
  | debugWake => exact kept_execDebugWake _ h
  | dbgHalt => exact kept_execDbgHalt _ h
  | haltForced => exact kept_execHaltForced _ h
  | dbgResume => exact kept_execDbgResume _ h
  | dbgStep => exact kept_execDbgStep _ h
  | crossTrigger => exact kept_execCrossTrigger _ h
  | stimulusStore => exact kept_execStimulusStore _ _ _ h
  | vtOutWrite => exact kept_execVtOutWrite _ _ h
  | vtOutRead => exact kept_execVtOutRead _ _ h
  | vtInWrite => exact kept_execVtInWrite _ _ h
  | vtInRead => exact kept_execVtInRead _ h
  | warmReset => exact kept_execWarmReset _ h
  | nreset => exact kept_execNreset _ _ _ h
  | powerOnReset => exact kept_execPowerOnReset _ _ _ _ h
  | vccFabLoss => exact kept_execVccFabLoss _ h
  | vccFabReturn => exact kept_execVccFabReturn _ h

/-- A step keeps `Kept`, seen from the state whose queue has lost its front. -/
theorem kept_step {s t : State} (h : step s = .next t) : Kept { s with pending := s.pending.tail } t := by
  cases hq : s.pending with
  | nil =>
    have hs : s = { s with pending := [] } := by rw [← hq]
    have ht : tick s = t := by simpa only [step, hq, Host.Outcome.next.injEq] using h
    rw [← ht]
    exact kept_tick (hs ▸ .rfl' s)
  | cons c rest =>
    have ht : exec c { s with pending := rest } = .next t := by simpa only [step, hq] using h
    have hk := kept_exec c (.rfl' { s with pending := rest })
    rwa [ht] at hk

/-- Settles O3: the queue's front is no part of memory or banks, and the step keeps both invariants of what is left. -/
theorem memoryStaysCanonical : Obligations.MemoryStaysCanonical := by
  intro s t h
  have hk := kept_step h
  exact ⟨hk.mem, hk.home⟩

end Sys2Proof.Machine
end

section
/-! Fields that share no bit: storing one leaves the other. -/

namespace Sys2Proof.Machine

/-- Two fields share no bit: they lie in different registers, or apart in one. -/
def Fld.apart (f g : Fld) : Bool :=
  f.reg.addr 0 != g.reg.addr 0 ||
    (g.reg == f.reg && f.lo + f.len ≤ 64 && (g.lo + g.len ≤ f.lo || f.lo + f.len ≤ g.lo))

namespace State

@[simp] theorem get_put_apart {s : State} {f g : Fld} {v : Nat} (h : f.apart g = true) :
    (s.put f 0 v).get g = s.get g := by
  simp only [Fld.apart, Bool.or_eq_true, Bool.and_eq_true, bne_iff_ne, beq_iff_eq, decide_eq_true_eq] at h
  rcases h with hreg | ⟨⟨hsame, hfit⟩, hbits⟩
  · exact get_put_reg s f g v hreg
  · exact get_put_fld s f g 0 v hsame hfit hbits

@[simp] theorem on_put_apart {s : State} {f g : Fld} {v : Nat} (h : f.apart g = true) :
    (s.put f 0 v).on g = s.on g := by rw [on, get_put_apart h, on]

@[simp] theorem on_put_one {s : State} {f : Fld} {i : Nat} (h : f.lo + f.len ≤ 64) (hl : 0 < f.len) :
    (s.put f i 1).on f i = true := by
  rw [on_put_same _ _ _ _ h, Nat.mod_eq_of_lt (Nat.one_lt_two_pow hl.ne')]; rfl

@[simp] theorem on_put_zero {s : State} {f : Fld} {i : Nat} (h : f.lo + f.len ≤ 64) :
    (s.put f i 0).on f i = false := by
  rw [on_put_same _ _ _ _ h, Nat.zero_mod]; rfl

/-- A one-bit field reads back the flag stored in it. -/
@[simp] theorem on_flag_same {s : State} {f : Fld} {i : Nat} {b : Bool} (h : f.lo + f.len ≤ 64) (hl : 0 < f.len) :
    (s.flag f i b).on f i = b := by
  cases b
  · exact on_put_zero h
  · exact on_put_one h hl

/-- A count that wraps goes on by one, modulo its width. -/
theorem get_bumpWrap_same {s : State} {f : Fld} (h : f.lo + f.len ≤ 64) :
    (s.bumpWrap f).get f = (s.get f + 1) % 2 ^ f.len := get_put_same _ _ _ _ h

theorem get_withTmg (s : State) (x : Tmg) (f : Fld) (i : Nat) :
    ({ s with tmg := x } : State).get f i = s.get f i := rfl

theorem on_withTmg (s : State) (x : Tmg) (f : Fld) (i : Nat) :
    ({ s with tmg := x } : State).on f i = s.on f i := rfl

theorem get_when (s : State) (c : Bool) (g : State → State) (f : Fld) (i : Nat) :
    (s.when c g).get f i = if c then (g s).get f i else s.get f i := by
  cases c <;> rfl

theorem on_when (s : State) (c : Bool) (g : State → State) (f : Fld) (i : Nat) :
    (s.when c g).on f i = if c then (g s).on f i else s.on f i := by
  cases c <;> rfl

end State

theorem regsBut_when {s u : State} {l : List Nat} {c : Bool} {g : State → State} (h : RegsBut s u l)
    (hg : RegsBut s (g u) l) : RegsBut s (u.when c g) l := regsBut_ite hg h

/-- A field of a register outside the list reads as before. -/
theorem regsBut_get {s t : State} {l : List Nat} (h : RegsBut s t l) {f : Fld} (hf : f.reg.addr 0 ∉ l) :
    t.get f = s.get f := by rw [State.get, regsBut_rd h _ _ hf, State.get]

theorem regsBut_on {s t : State} {l : List Nat} (h : RegsBut s t l) {f : Fld} (hf : f.reg.addr 0 ∉ l) :
    t.on f = s.on f := by rw [State.on, regsBut_get h hf, State.on]

/-- Nothing but registers changed. -/
def OnlyRegs (s t : State) : Prop := t = { s with regs := t.regs }

theorem onlyRegs_refl (s : State) : OnlyRegs s s := rfl

theorem onlyRegs_tmg {s t : State} (h : OnlyRegs s t) : t.tmg = s.tmg := by rw [h]

theorem onlyRegs_put {s u : State} (f : Fld) (i v : Nat) (h : OnlyRegs s u) : OnlyRegs s (u.put f i v) := by
  obtain ⟨r, rfl⟩ : ∃ r, u = { s with regs := r } := ⟨_, h⟩
  rfl

theorem onlyRegs_when {s u : State} {c : Bool} {g : State → State} (h : OnlyRegs s u) (hg : OnlyRegs s (g u)) :
    OnlyRegs s (u.when c g) := by
  cases c
  · exact h
  · exact hg

end Sys2Proof.Machine
end

section
/-! The shared operations of the timing port (02 R58, R59, R89, R1010): what each reads back as, and what it leaves. -/

namespace Sys2Proof.Machine

/-! `tmgSettle`: LAT_VALID and its count of rises (02 R89). -/

theorem tmgSettle_eq (s : State) : tmgSettle s =
    (s.when (s.latNow && !s.on F.TMG_STATUS_LAT_VALID) (·.bumpWrap F.TMG_LAT_EPOCH_EPOCH)).flag
      F.TMG_STATUS_LAT_VALID 0 s.latNow := rfl

@[simp] theorem tmgSettle_latValid (s : State) : (tmgSettle s).on F.TMG_STATUS_LAT_VALID = s.latNow :=
  State.on_flag_same (by decide) (by decide)

@[simp] theorem tmgSettle_get {s : State} {g : Fld} (hv : F.TMG_STATUS_LAT_VALID.apart g = true)
    (he : F.TMG_LAT_EPOCH_EPOCH.apart g = true) : (tmgSettle s).get g = s.get g := by
  simp [tmgSettle_eq, State.flag, State.get_when, State.bumpWrap, hv, he]

@[simp] theorem tmgSettle_on {s : State} {g : Fld} (hv : F.TMG_STATUS_LAT_VALID.apart g = true)
    (he : F.TMG_LAT_EPOCH_EPOCH.apart g = true) : (tmgSettle s).on g = s.on g := by
  rw [State.on, tmgSettle_get hv he, State.on]

@[simp] theorem tmgSettle_latNow (s : State) : (tmgSettle s).latNow = s.latNow := by
  simp (disch := decide) [State.latNow]

theorem tmgSettle_epoch (s : State) : (tmgSettle s).get F.TMG_LAT_EPOCH_EPOCH =
    (s.get F.TMG_LAT_EPOCH_EPOCH + if s.latNow && !s.on F.TMG_STATUS_LAT_VALID then 1 else 0) % 2 ^ 32 := by
  have hlt : s.get F.TMG_LAT_EPOCH_EPOCH < 2 ^ 32 := State.get_lt s _ 0
  rw [tmgSettle_eq, State.flag, State.get_put_apart (by decide), State.get_when]
  cases s.latNow && !s.on F.TMG_STATUS_LAT_VALID
  · exact (Nat.mod_eq_of_lt hlt).symm
  · exact State.get_bumpWrap_same (by decide)

theorem onlyRegs_tmgSettle {s u : State} (h : OnlyRegs s u) : OnlyRegs s (tmgSettle u) :=
  onlyRegs_put _ _ _ (onlyRegs_when h (onlyRegs_put _ _ _ h))

theorem tmgSettle_regsBut {s u : State} {l : List Nat} (h : RegsBut s u l) (hs : R.TMG_STATUS.addr 0 ∈ l)
    (he : R.TMG_LAT_EPOCH.addr 0 ∈ l) : RegsBut s (tmgSettle u) l :=
  regsBut_put _ _ _ (regsBut_when h (regsBut_put _ _ _ h he)) hs

/-- Where the contract condition does not hold, no rise is counted. -/
theorem tmgSettle_of_not_latNow {s : State} (h : s.latNow = false) : tmgSettle s = s.clear F.TMG_STATUS_LAT_VALID := by
  rw [tmgSettle_eq, h]; rfl

/-! `tmgLink`: the link clock of Sand follows the lock bits (08 R379). -/

@[simp] theorem tmgLink_get {old : Bool} {s : State} {g : Fld} (h : F.NOC_STATUS_SWITCHING.apart g = true) :
    (tmgLink old s).get g = s.get g := by
  simp [tmgLink, State.get_when, State.raise, h]

@[simp] theorem tmgLink_on {old : Bool} {s : State} {g : Fld} (h : F.NOC_STATUS_SWITCHING.apart g = true) :
    (tmgLink old s).on g = s.on g := by rw [State.on, tmgLink_get h, State.on]

theorem onlyRegs_tmgLink {s u : State} {old : Bool} (h : OnlyRegs s u) : OnlyRegs s (tmgLink old u) :=
  onlyRegs_when h (onlyRegs_put _ _ _ h)

theorem tmgLink_regsBut {s u : State} {l : List Nat} {old : Bool} (h : RegsBut s u l) (hn : R.NOC_STATUS.addr 0 ∈ l) :
    RegsBut s (tmgLink old u) l := regsBut_when h (regsBut_put _ _ _ h hn)

/-! A failed check (02 R59). -/

@[simp] theorem tmgCountCheck_tmg (bad : Bool) (s : State) : (tmgCountCheck bad s).tmg = s.tmg := by
  cases bad <;> rfl

/-- A failed check reaches no register but its count and the error bits. -/
theorem tmgCountCheck_only (bad : Bool) (s : State) :
    RegsBut s (tmgCountCheck bad s) [R.TMG_CHECK_ERRS.addr 0, R.TMG_ERR.addr 0] :=
  regsBut_when (regsBut_refl _ _) (regsBut_put _ _ _ (regsBut_put _ _ _ (regsBut_refl _ _) (by decide)) (by decide))

/-- The count of failed checks holds at all ones. -/
theorem tmgCountCheck_count (s : State) : (tmgCountCheck true s).get F.TMG_CHECK_ERRS_COUNT =
    min (s.get F.TMG_CHECK_ERRS_COUNT + 1) 0xFFFFFFFF := by
  have hlt : min (s.get F.TMG_CHECK_ERRS_COUNT + 1) 0xFFFFFFFF < 2 ^ 32 := by omega
  calc (tmgCountCheck true s).get F.TMG_CHECK_ERRS_COUNT
      = (s.bumpHold F.TMG_CHECK_ERRS_COUNT).get F.TMG_CHECK_ERRS_COUNT := State.get_put_apart (by decide)
    _ = min (s.get F.TMG_CHECK_ERRS_COUNT + 1) 0xFFFFFFFF % 2 ^ 32 := State.get_put_same _ _ _ _ (by decide)
    _ = min (s.get F.TMG_CHECK_ERRS_COUNT + 1) 0xFFFFFFFF := Nat.mod_eq_of_lt hlt

theorem tmgCountCheck_checkErr (s : State) : (tmgCountCheck true s).on F.TMG_ERR_CHECK_ERR = true :=
  State.on_put_one (by decide) (by decide)

end Sys2Proof.Machine
end

section
/-! Writes of TMG_CTRL (02 R77, R78, R1011). -/

namespace Sys2Proof.Machine

theorem bits_toNat_eq_extractLsb' {n : Nat} (v : BitVec n) (lo len : Nat) :
    bits v.toNat lo len = (v.extractLsb' lo len).toNat := by
  rw [BitVec.extractLsb'_toNat, Nat.shiftRight_eq_div_pow, bits]

theorem bit_toNat_eq_getLsbD {n : Nat} (v : BitVec n) (i : Nat) : bit v.toNat i = v.getLsbD i := by
  rw [bit, BitVec.getLsbD, Nat.testBit_eq_decide_div_mod_eq]; rfl

theorem getLsbD_one_of_pos {k : Nat} (h : 0 < k) : (1 : W32).getLsbD k = false := by
  simpa [BitVec.getLsbD_one] using h.ne'

/-- A field above bit 0 does not see bit 0 set. -/
theorem extractLsb'_or_one (w : W32) {lo len : Nat} (h : 0 < lo) : (w ||| 1).extractLsb' lo len = w.extractLsb' lo len := by
  apply BitVec.eq_of_getLsbD_eq
  intro i hi
  rw [BitVec.getLsbD_extractLsb', BitVec.getLsbD_extractLsb', BitVec.getLsbD_or, getLsbD_one_of_pos (Nat.add_pos_left h i), Bool.or_false]

/-- A field above bit 0 does not see bit 0 cleared. -/
theorem extractLsb'_and_not_one (w : W32) {lo len : Nat} (h : 0 < lo) :
    (w &&& 0xFFFFFFFE).extractLsb' lo len = w.extractLsb' lo len := by
  apply BitVec.eq_of_getLsbD_eq
  intro i hi
  have hmask : (0xFFFFFFFE : W32) = ~~~1 := by decide
  rw [BitVec.getLsbD_extractLsb', BitVec.getLsbD_extractLsb', hmask, BitVec.getLsbD_and, BitVec.getLsbD_not, getLsbD_one_of_pos (Nat.add_pos_left h i)]
  by_cases hlt : lo + i < 32
  · simp [hlt]
  · simp [BitVec.getLsbD_of_ge w _ (Nat.not_lt.mp hlt)]

/-- The state in which CMD_DELAY and EXA_OFFSET have taken the fields of the word written. -/
def tmgStored (w : W32) (s : State) : State :=
  (s.put F.TMG_CTRL_CMD_DELAY 0 (w.extractLsb' 4 4).toNat).put F.TMG_CTRL_EXA_OFFSET 0 (w.extractLsb' 8 12).toNat

theorem tmgStored_regsBut {s u : State} {l : List Nat} (w : W32) (h : RegsBut s u l) (hc : R.TMG_CTRL.addr 0 ∈ l) :
    RegsBut s (tmgStored w u) l := regsBut_put _ _ _ (regsBut_put _ _ _ h hc) hc

/-- A write whose bit 0 is 1 starts the port, or is refused (02 R78). -/
theorem exec_timingPortEnable (w : W32) (s : State) : exec (.timingPortEnable w) s = .next
    (if (tmgStored w s).tmgConfigOk then (tmgStored w s).put F.TMG_CTRL_EN 0 1
    else ((tmgStored w s).put F.TMG_CTRL_EN 0 0).put F.TMG_ERR_CFG_REFUSED 0 1) := by
  have hexec : exec (.timingPortEnable w) s = .next (tmgCtrlWrite (w ||| 1).toNat s) := rfl
  have hbit : bit (w ||| 1).toNat 0 = true := by rw [bit_toNat_eq_getLsbD]; simp
  simp only [hexec, tmgCtrlWrite, hbit, if_true, bits_toNat_eq_extractLsb', tmgStored, State.raise,
    extractLsb'_or_one w (show 0 < 4 by decide), extractLsb'_or_one w (show 0 < 8 by decide)]
  rfl

/-- A write whose bit 0 is 0 stops a port that is enabled (02 R1011). -/
theorem exec_timingPortDisable (w : W32) (s : State) : exec (.timingPortDisable w) s = .next
    (if s.on F.TMG_CTRL_EN then tmgStop (tmgStored w s) else tmgStored w s) := by
  have hexec : exec (.timingPortDisable w) s = .next (tmgCtrlWrite (w &&& 0xFFFFFFFE).toNat s) := rfl
  have hbit : bit (w &&& 0xFFFFFFFE).toNat 0 = false := by rw [bit_toNat_eq_getLsbD]; simp
  simp only [hexec, tmgCtrlWrite, hbit, Bool.false_eq_true, if_false, bits_toNat_eq_extractLsb', tmgStored,
    extractLsb'_and_not_one w (show 0 < 4 by decide),
    extractLsb'_and_not_one w (show 0 < 8 by decide)]

/-- The fields stored are none that R78 looks at. -/
theorem tmgConfigOk_tmgStored (w : W32) (s : State) : (tmgStored w s).tmgConfigOk = s.tmgConfigOk := by
  simp (disch := decide) [tmgStored, State.tmgConfigOk]

/-- The limits of 02 R77 and R78 on the frequencies. -/
theorem tmgConfigOk_iff (s : State) : s.tmgConfigOk = true ↔
    10000 ≤ s.get F.TMG_FREQ_KHZ ∧ s.get F.TMG_FREQ_KHZ ≤ 100000 ∧ 12 ≤ s.get F.TMG_QUARTZ_N ∧
      s.get F.TMG_QUARTZ_N ≤ 128 ∧ 1200000 ≤ s.get F.TMG_QUARTZ_N * s.get F.TMG_FREQ_KHZ ∧
      s.get F.TMG_QUARTZ_N * s.get F.TMG_FREQ_KHZ ≤ 1600000 := by
  simp only [State.tmgConfigOk, Bool.and_eq_true, decide_eq_true_eq, and_assoc]

/-- Settles O11: EN written 1 by whether R78's test holds, EN written 0 by whether the port is enabled. -/
theorem timingEnable : Obligations.TimingEnable := by
  intro s w
  refine ⟨fun hok => ?_, fun hbad => ?_, fun hon => ?_, fun hoff => ?_⟩
  · rw [exec_timingPortEnable, tmgConfigOk_tmgStored, if_pos ((tmgConfigOk_iff s).mpr hok)]; rfl
  · rw [exec_timingPortEnable, tmgConfigOk_tmgStored, if_neg (mt (tmgConfigOk_iff s).mp hbad)]; rfl
  · rw [exec_timingPortDisable, if_pos hon]; rfl
  · rw [exec_timingPortDisable, hoff]; rfl

end Sys2Proof.Machine
end

section
/-! One frame position of the receive pair (02 R58, R59): what each case of the receiver does. -/

namespace Sys2Proof.Machine

/-- What the receiver holds of a frame: its command and fragment, or NOP and idle where its check fails (02 R59). -/
def tmgHeld (f : W40) : TmgFrame :=
  if tmgBadCheck f then ⟨0, 0⟩ else ⟨f.extractLsb' 26 8, f.extractLsb' 8 18⟩

theorem tmgBadCheck_iff (f : W40) : tmgBadCheck f = true ↔ tmgCheck f ≠ BitVec.ofNat 8 f.toNat := bne_iff_ne

theorem ofNat_div_eq_extractLsb' {n : Nat} (v : BitVec n) (lo len : Nat) :
    BitVec.ofNat len (v.toNat / 2 ^ lo) = v.extractLsb' lo len := by
  rw [BitVec.extractLsb', Nat.shiftRight_eq_div_pow]

theorem exec_timingFrame_disabled {s : State} (he : s.on F.TMG_CTRL_EN = false) (f : W40) :
    exec (.timingFrameReceived f) s = .next s := by
  change execTimingFrameReceived f s = _
  rw [execTimingFrameReceived, he]; rfl

theorem exec_timingFrame_sync {s : State} {f : W40} (he : s.on F.TMG_CTRL_EN = true)
    (hc : s.on F.TMG_STATUS_CDR_LOCK = true) (hf : f.toNat / 2 ^ 34 = 0b110100) :
    exec (.timingFrameReceived f) s = .next (tmgGoodSync s f) := by
  change execTimingFrameReceived f s = _
  rw [execTimingFrameReceived, he, hc, hf]; rfl

theorem exec_timingFrame_noSync {s : State} {f : W40} (he : s.on F.TMG_CTRL_EN = true)
    (h : (s.on F.TMG_STATUS_CDR_LOCK && f.toNat / 2 ^ 34 == 0b110100) = false) :
    exec (.timingFrameReceived f) s = .next (tmgNoSync (s.on F.TMG_STATUS_CDR_LOCK && tmgBadCheck f) s) := by
  change execTimingFrameReceived f s = _
  rw [execTimingFrameReceived, he, tmgSync, h]; rfl

/-- A locked port counts a failed check, and holds the frame (02 R59). -/
theorem tmgGoodSync_locked {s : State} (h : s.on F.TMG_STATUS_FRAME_LOCK = true) (f : W40) :
    tmgGoodSync s f = tmgKeep (some (tmgHeld f))
      { tmgCountCheck (tmgBadCheck f) s with tmg := { s.tmg with bad := 0 } } := by
  have hheld : (if !tmgBadCheck f then (⟨BitVec.ofNat 8 (f.toNat / 2 ^ 26), BitVec.ofNat 18 (f.toNat / 2 ^ 8)⟩ : TmgFrame)
      else ⟨0, 0⟩) = tmgHeld f := by
    rw [tmgHeld, ofNat_div_eq_extractLsb', ofNat_div_eq_extractLsb']
    cases tmgBadCheck f <;> rfl
  simp only [tmgGoodSync, h, if_true, hheld, Bool.not_not, tmgCountCheck_tmg]

/-- A port that is not locked counts the good frames in a row, below 64 of them (02 R58). -/
theorem tmgGoodSync_counts {s : State} {f : W40} (h : s.on F.TMG_STATUS_FRAME_LOCK = false)
    (hlt : (if tmgBadCheck f then 0 else s.tmg.good + 1) < 64) :
    tmgGoodSync s f = { tmgCountCheck (tmgBadCheck f) s with
      tmg := { s.tmg with good := if tmgBadCheck f then 0 else s.tmg.good + 1 } } := by
  have hg : (if !tmgBadCheck f then s.tmg.good + 1 else 0) = if tmgBadCheck f then 0 else s.tmg.good + 1 := by
    cases tmgBadCheck f <;> rfl
  simp only [tmgGoodSync, h, Bool.false_eq_true, if_false, hg, hlt, if_true, Bool.not_not, tmgCountCheck_tmg]

/-- The 64th good frame in a row brings the lock (02 R58). -/
theorem tmgGoodSync_locks {s : State} {f : W40} (h : s.on F.TMG_STATUS_FRAME_LOCK = false)
    (hgood : tmgBadCheck f = false) (hlt : 64 ≤ s.tmg.good + 1) :
    ∃ u x, tmgGoodSync s f = tmgSettle u ∧ u = { s.raise F.TMG_STATUS_FRAME_LOCK with tmg := x } := by
  have hge : ¬ s.tmg.good + 1 < 64 := Nat.not_lt.mpr hlt
  exact ⟨_, _, by simp only [tmgGoodSync, h, hgood, Bool.false_eq_true, if_false, Bool.not_false, if_true, hge,
    Bool.not_true]; rfl, rfl⟩

/-- A locked port holds a frame position without the pattern as no frame, and counts it; the fourth in a row loses the lock
(02 R58). -/
theorem tmgNoSync_locked {s : State} (bad : Bool) (h : s.on F.TMG_STATUS_FRAME_LOCK = true) :
    tmgNoSync bad s =
      let u := tmgKeep none (tmgCountCheck bad s)
      if s.tmg.bad + 1 < 4 then { u with tmg := { u.tmg with bad := s.tmg.bad + 1 } } else tmgLose u := by
  rw [tmgNoSync, if_pos h]

theorem tmgNoSync_unlocked {s : State} (bad : Bool) (h : s.on F.TMG_STATUS_FRAME_LOCK = false) :
    tmgNoSync bad s = { s with tmg := { s.tmg with good := 0 } } := by
  rw [tmgNoSync, h]; rfl

/-- Settles O7: a locked port, by the frame's check. -/
theorem timingFrameHeld : Obligations.TimingFrameHeld := by
  intro s f hen hcdr hlock hsync
  have hexec := exec_timingFrame_sync hen hcdr hsync
  rw [tmgGoodSync_locked hlock] at hexec
  refine ⟨fun hbad => ?_, fun hgood => ?_⟩
  · have hheld : tmgHeld f = ⟨0, 0⟩ := if_pos ((tmgBadCheck_iff f).mpr hbad)
    rw [hheld, (tmgBadCheck_iff f).mpr hbad, tmgKeep, State.get_withTmg, regsBut_get (tmgCountCheck_only true s) (by decide)] at hexec
    exact ⟨_, hexec, rfl, tmgCountCheck_count s, tmgCountCheck_checkErr s,
      (regsBut_on (tmgCountCheck_only true s) (by decide)).trans hlock⟩
  · have hok : tmgBadCheck f = false := by simpa [tmgBadCheck] using hgood
    rw [hexec, tmgHeld, hok]; rfl

end Sys2Proof.Machine
end

section
/-! Frame lock over a run of frames (02 R58). -/

namespace Sys2Proof.Machine

theorem runs_cons {c : Instr} {r : List Instr} {s t : State} (h : exec c s = .next t) : runs (c :: r) s = runs r t := by
  simp only [runs, h]

/-- A loss of frame lock settles a state without FRAME_LOCK, whether holdover begins, goes on or is not possible (02 R81). -/
theorem tmgLose_settles (s : State) : ∃ u, tmgLose s = tmgSettle u ∧ u.on F.TMG_STATUS_FRAME_LOCK = false ∧
    u.on F.TMG_STATUS_LAT_VALID = s.on F.TMG_STATUS_LAT_VALID ∧
    u.get F.TMG_LAT_EPOCH_EPOCH = s.get F.TMG_LAT_EPOCH_EPOCH := by
  unfold tmgLose
  split_ifs <;> refine ⟨_, rfl, ?_, ?_, ?_⟩ <;>
    simp (disch := decide) only [State.raise, State.clear, State.on_withTmg, State.get_withTmg, State.on_put_apart,
      State.get_put_apart, State.on_put_zero]

theorem tmgLose_frameLock (s : State) : (tmgLose s).on F.TMG_STATUS_FRAME_LOCK = false := by
  obtain ⟨u, hu, hlock, -⟩ := tmgLose_settles s
  rw [hu, tmgSettle_on (by decide) (by decide), hlock]

/-- The lock comes with the good frame that makes 64. -/
theorem runs_goodFrames (fs : List W40) (s : State)
    (hfs : ∀ f ∈ fs, f.toNat / 2 ^ 34 = 0b110100 ∧ tmgCheck f = BitVec.ofNat 8 f.toNat)
    (hen : s.on F.TMG_CTRL_EN = true) (hcdr : s.on F.TMG_STATUS_CDR_LOCK = true)
    (hun : s.on F.TMG_STATUS_FRAME_LOCK = false) (hlt : s.tmg.good < 64) (hle : s.tmg.good + fs.length ≤ 64) :
    ∃ t, runs (fs.map .timingFrameReceived) s = .next t ∧
      (t.on F.TMG_STATUS_FRAME_LOCK = true ↔ s.tmg.good + fs.length = 64) := by
  induction fs generalizing s with
  | nil => exact ⟨s, rfl, by simp [hun, hlt.ne]⟩
  | cons f fs ih =>
    obtain ⟨hsync, hcheck⟩ := hfs f List.mem_cons_self
    have hok : tmgBadCheck f = false := by simpa [tmgBadCheck] using hcheck
    have hexec := exec_timingFrame_sync hen hcdr hsync
    rw [List.length_cons] at hle ⊢
    rw [List.map_cons, runs_cons hexec]
    by_cases hnext : s.tmg.good + 1 < 64
    · rw [tmgGoodSync_counts hun (by simpa [hok] using hnext)]
      simp only [hok, Bool.false_eq_true, if_false]
      obtain ⟨t, hruns, hlock⟩ := ih { s with tmg := { s.tmg with good := s.tmg.good + 1 } }
        (fun g hg => hfs g (List.mem_cons_of_mem f hg)) hen hcdr hun hnext (by simp only; omega)
      exact ⟨t, hruns, hlock.trans (by simp only; omega)⟩
    · obtain ⟨u, x, hlocks, rfl⟩ := tmgGoodSync_locks hun hok (Nat.not_lt.mp hnext)
      have hnil : fs = [] := List.length_eq_zero_iff.mp (by omega)
      have hlock : (tmgGoodSync s f).on F.TMG_STATUS_FRAME_LOCK = true := by
        rw [hlocks, tmgSettle_on (by decide) (by decide), State.on_withTmg]
        exact State.on_put_one (by decide) (by decide)
      subst hnil
      exact ⟨_, rfl, by simp [hlock]; omega⟩

/-- The lock goes with the position without the pattern that makes four. -/
theorem runs_badPositions (fs : List W40) (s : State) (hfs : ∀ f ∈ fs, f.toNat / 2 ^ 34 ≠ 0b110100)
    (hen : s.on F.TMG_CTRL_EN = true) (hlock : s.on F.TMG_STATUS_FRAME_LOCK = true) (hlt : s.tmg.bad < 4)
    (hle : s.tmg.bad + fs.length ≤ 4) :
    ∃ t, runs (fs.map .timingFrameReceived) s = .next t ∧
      (t.on F.TMG_STATUS_FRAME_LOCK = false ↔ s.tmg.bad + fs.length = 4) := by
  induction fs generalizing s with
  | nil => exact ⟨s, rfl, by simp [hlock, hlt.ne]⟩
  | cons f fs ih =>
    have hno : (s.on F.TMG_STATUS_CDR_LOCK && f.toNat / 2 ^ 34 == 0b110100) = false := by
      rw [beq_eq_false_iff_ne.mpr (hfs f List.mem_cons_self), Bool.and_false]
    have hexec := exec_timingFrame_noSync hen hno
    rw [tmgNoSync_locked _ hlock] at hexec
    rw [List.length_cons] at hle ⊢
    rw [List.map_cons, runs_cons hexec]
    simp only
    generalize hu : tmgKeep none (tmgCountCheck _ s) = u
    have hkeep : ∀ g : Fld, g.reg.addr 0 ∉ [R.TMG_CHECK_ERRS.addr 0, R.TMG_ERR.addr 0] → u.on g = s.on g := by
      intro g hg
      rw [← hu]; exact regsBut_on (tmgCountCheck_only _ s) hg
    by_cases hnext : s.tmg.bad + 1 < 4
    · rw [if_pos hnext]
      obtain ⟨t, hruns, hiff⟩ := ih { u with tmg := { u.tmg with bad := s.tmg.bad + 1 } }
        (fun g hg => hfs g (List.mem_cons_of_mem f hg)) ((hkeep _ (by decide)).trans hen)
        ((hkeep _ (by decide)).trans hlock) hnext (by simp only; omega)
      exact ⟨t, hruns, hiff.trans (by simp only; omega)⟩
    · have hnil : fs = [] := List.length_eq_zero_iff.mp (by omega)
      subst hnil
      rw [if_neg hnext]
      exact ⟨_, rfl, by simp [tmgLose_frameLock]; omega⟩

end Sys2Proof.Machine
end

section
/-! The lock events and the stop of the port (02 R80, R82, R89, R1010, R1011). -/

namespace Sys2Proof.Machine

theorem exec_timingPortCdrLoss (s : State) :
    exec .timingPortCdrLoss s = .next (tmgSettle (s.clear F.TMG_STATUS_CDR_LOCK)) := rfl

theorem exec_timingPortCdrLock {s : State} (h : s.on F.TMG_CTRL_EN = true) :
    exec .timingPortCdrLock s = .next (tmgSettle (s.raise F.TMG_STATUS_CDR_LOCK)) := by
  change execTimingPortCdrLock s = _
  rw [execTimingPortCdrLock, if_pos h]

theorem exec_timingPortCdrLock_disabled {s : State} (h : s.on F.TMG_CTRL_EN = false) :
    exec .timingPortCdrLock s = .next s := by
  change execTimingPortCdrLock s = _
  rw [execTimingPortCdrLock, h]; rfl

/-- The condition under which the Quartz PLL locks. -/
def State.pllMayLock (s : State) : Bool :=
  s.on F.TMG_CTRL_EN && s.on F.TMG_STATUS_FRAME_LOCK && !s.boundariesRun

theorem exec_quartzPllLock (s : State) : exec .quartzPllLock s = .next
    (if s.pllMayLock then tmgLink s.boundariesRun (tmgSettle (s.raise F.TMG_STATUS_QTZ_LOCK)) else s) := rfl

/-- The state that the relock step settles. -/
def tmgRelocked (s : State) : State :=
  { (s.clear F.TMG_STATUS_HOLDOVER).raise F.TMG_STATUS_QTZ_LOCK with
    tmg := { s.tmg with step := false }, qtz := { s.qtz with stepAt := some s.tmg.strobes } }

theorem exec_relockBoundaryStep (s : State) : exec .relockBoundaryStep s = .next
    (if s.on F.TMG_STATUS_HOLDOVER && s.on F.TMG_STATUS_FRAME_LOCK && s.tmg.step then tmgSettle (tmgRelocked s)
    else s) := rfl

theorem tmgRelocked_get (s : State) (g : Fld) :
    (tmgRelocked s).get g = ((s.clear F.TMG_STATUS_HOLDOVER).raise F.TMG_STATUS_QTZ_LOCK).get g := rfl

theorem tmgRelocked_on (s : State) (g : Fld) :
    (tmgRelocked s).on g = ((s.clear F.TMG_STATUS_HOLDOVER).raise F.TMG_STATUS_QTZ_LOCK).on g := rfl

theorem completes_quartzPllLock {s : State} (hen : s.on F.TMG_CTRL_EN = true)
    (hlock : s.on F.TMG_STATUS_FRAME_LOCK = true) (hstill : s.boundariesRun = false) :
    Completes .quartzPllLock s fun t => t.on F.TMG_STATUS_QTZ_LOCK = true ∧ t.on F.TMG_STATUS_HOLDOVER = false ∧
      t.boundariesRun = true ∧ t = { s with regs := t.regs } ∧
      RegsBut s t [R.TMG_STATUS.addr 0, R.TMG_LAT_EPOCH.addr 0, R.NOC_STATUS.addr 0] := by
  have hmay : s.pllMayLock = true := by simp [State.pllMayLock, hen, hlock, hstill]
  obtain ⟨-, hhold⟩ : s.on F.TMG_STATUS_QTZ_LOCK = false ∧ s.on F.TMG_STATUS_HOLDOVER = false := by
    simpa [State.boundariesRun] using hstill
  refine ⟨_, (exec_quartzPllLock s).trans (by rw [if_pos hmay]), ?_, ?_, ?_, ?_, ?_⟩
  · simp (disch := decide) [State.raise]
  · simp (disch := decide) [State.raise, hhold]
  · simp (disch := decide) [State.raise, State.boundariesRun]
  · exact onlyRegs_tmgLink (onlyRegs_tmgSettle (onlyRegs_put _ _ _ (onlyRegs_refl s)))
  · exact tmgLink_regsBut (tmgSettle_regsBut (regsBut_put _ _ _ (regsBut_refl _ _) (by decide)) (by decide) (by decide))
      (by decide)

theorem completes_timingPortCdrLock {s : State} (hen : s.on F.TMG_CTRL_EN = true) :
    Completes .timingPortCdrLock s fun t => t.on F.TMG_STATUS_CDR_LOCK = true ∧ t = { s with regs := t.regs } ∧
      RegsBut s t [R.TMG_STATUS.addr 0, R.TMG_LAT_EPOCH.addr 0] := by
  refine ⟨_, exec_timingPortCdrLock hen, ?_, ?_, ?_⟩
  · simp (disch := decide) [State.raise]
  · exact onlyRegs_tmgSettle (onlyRegs_put _ _ _ (onlyRegs_refl s))
  · exact tmgSettle_regsBut (regsBut_put _ _ _ (regsBut_refl _ _) (by decide)) (by decide) (by decide)

/-- Without the receive clock the contract does not hold, so no rise is counted. -/
theorem completes_timingPortCdrLoss (s : State) :
    Completes .timingPortCdrLoss s fun t => t.on F.TMG_STATUS_CDR_LOCK = false ∧ t.on F.TMG_STATUS_LAT_VALID = false ∧
      t = { s with regs := t.regs } ∧ RegsBut s t [R.TMG_STATUS.addr 0] := by
  have hnot : (s.clear F.TMG_STATUS_CDR_LOCK).latNow = false := by
    simp (disch := decide) [State.latNow, State.clear]
  refine ⟨_, exec_timingPortCdrLoss s, ?_, ?_, ?_, ?_⟩
  · simp (disch := decide) [State.clear]
  · rw [tmgSettle_latValid, hnot]
  · exact onlyRegs_tmgSettle (onlyRegs_put _ _ _ (onlyRegs_refl s))
  · rw [tmgSettle_of_not_latNow hnot]
    exact regsBut_put _ _ _ (regsBut_put _ _ _ (regsBut_refl _ _) (by decide)) (by decide)

theorem completes_relockBoundaryStep {s : State} (hhold : s.on F.TMG_STATUS_HOLDOVER = true)
    (hlock : s.on F.TMG_STATUS_FRAME_LOCK = true) (hstep : s.tmg.step = true) :
    Completes .relockBoundaryStep s fun t => t.on F.TMG_STATUS_HOLDOVER = false ∧ t.on F.TMG_STATUS_QTZ_LOCK = true ∧
      t.on F.TMG_STATUS_CN_SUSPECT = s.on F.TMG_STATUS_CN_SUSPECT ∧ t.rd R.TMG_CN = s.rd R.TMG_CN ∧
      t = { s with regs := t.regs, tmg := { s.tmg with step := false }, qtz := { s.qtz with stepAt := some s.tmg.strobes } } ∧
      RegsBut s t [R.TMG_STATUS.addr 0, R.TMG_LAT_EPOCH.addr 0] := by
  have hregs : RegsBut s (tmgSettle (tmgRelocked s)) [R.TMG_STATUS.addr 0, R.TMG_LAT_EPOCH.addr 0] :=
    tmgSettle_regsBut (regsBut_put _ _ _ (regsBut_put _ _ _ (regsBut_refl _ _) (by decide)) (by decide))
      (by decide) (by decide)
  refine ⟨_, (exec_relockBoundaryStep s).trans (by simp only [hhold, hlock, hstep, Bool.and_self, if_true]),
    ?_, ?_, ?_, regsBut_rd hregs _ _ (by decide), ?_, hregs⟩
  · simp (disch := decide) [tmgRelocked_on, State.raise, State.clear]
  · simp (disch := decide) [tmgRelocked_on, State.raise, State.clear]
  · simp (disch := decide) [tmgRelocked_on, State.raise, State.clear]
  · exact onlyRegs_tmgSettle (onlyRegs_refl (tmgRelocked s))

/-! The stop. -/

/-- The registers of a port that stops: EN, MSG_DROP for a message under assembly, then the bits of TMG_STATUS. -/
def tmgStopRegs (s : State) : State :=
  ((((((s.put F.TMG_CTRL_EN 0 0).when s.tmg.asm.isSome (·.raise F.TMG_ERR_MSG_DROP)).clear F.TMG_STATUS_CDR_LOCK).clear
    F.TMG_STATUS_FRAME_LOCK).clear F.TMG_STATUS_QTZ_LOCK).clear F.TMG_STATUS_HOLDOVER |>.clear
    F.TMG_STATUS_LAT_VALID).raise F.TMG_STATUS_CN_SUSPECT

/-- What a stop leaves of the port's own state. -/
def Tmg.stopped (x : Tmg) : Tmg := { x with
  good := 0, bad := 0, frames := [], waiting := [], due := [], asm := none, sinceOrb := none, step := false,
  txFrame := none, accept := none }

theorem onlyRegs_tmgStopRegs (s : State) : OnlyRegs s (tmgStopRegs s) := by
  have hen : OnlyRegs s (s.put F.TMG_CTRL_EN 0 0) := rfl
  have hmsg := onlyRegs_when (c := s.tmg.asm.isSome) (g := (·.raise F.TMG_ERR_MSG_DROP)) hen (onlyRegs_put _ _ _ hen)
  exact onlyRegs_put _ _ _ (onlyRegs_put _ _ _ (onlyRegs_put _ _ _ (onlyRegs_put _ _ _ (onlyRegs_put _ _ _
    (onlyRegs_put _ _ _ hmsg)))))

theorem tmgStopRegs_tmg (s : State) : (tmgStopRegs s).tmg = s.tmg := onlyRegs_tmg (onlyRegs_tmgStopRegs s)

theorem tmgStop_eq (s : State) :
    tmgStop s = tmgLink s.boundariesRun { tmgStopRegs s with tmg := s.tmg.stopped } := by
  rw [← tmgStopRegs_tmg s]; rfl

theorem tmgStop_get (s : State) {g : Fld} (h : F.NOC_STATUS_SWITCHING.apart g = true) :
    (tmgStop s).get g = (tmgStopRegs s).get g := by
  rw [tmgStop_eq, tmgLink_get h, State.get_withTmg]

theorem tmgStop_on (s : State) {g : Fld} (h : F.NOC_STATUS_SWITCHING.apart g = true) :
    (tmgStop s).on g = (tmgStopRegs s).on g := by rw [State.on, tmgStop_get s h, State.on]

theorem onlyRegs_tmgStop (s : State) : OnlyRegs { s with tmg := s.tmg.stopped } (tmgStop s) := by
  rw [tmgStop_eq, onlyRegs_tmgStopRegs s]
  exact onlyRegs_tmgLink rfl

theorem tmgStop_tmg (s : State) : (tmgStop s).tmg = s.tmg.stopped := onlyRegs_tmg (onlyRegs_tmgStop s)

theorem tmgStop_frame (s : State) : tmgStop s = { s with regs := (tmgStop s).regs, tmg := (tmgStop s).tmg } := by
  rw [tmgStop_tmg]; exact onlyRegs_tmgStop s

theorem tmgStop_regsBut {s u : State} {l : List Nat} (h : RegsBut s u l) (hc : R.TMG_CTRL.addr 0 ∈ l)
    (hs : R.TMG_STATUS.addr 0 ∈ l) (he : R.TMG_ERR.addr 0 ∈ l) (hn : R.NOC_STATUS.addr 0 ∈ l) :
    RegsBut s (tmgStop u) l := by
  have hctrl : RegsBut s (u.put F.TMG_CTRL_EN 0 0) l := regsBut_put _ _ _ h hc
  have herr := regsBut_when (c := u.tmg.asm.isSome) (g := (·.raise F.TMG_ERR_MSG_DROP)) hctrl
    (regsBut_put _ _ _ hctrl he)
  have hstop : RegsBut s (tmgStopRegs u) l :=
    regsBut_put _ _ _ (regsBut_put _ _ _ (regsBut_put _ _ _ (regsBut_put _ _ _ (regsBut_put _ _ _
      (regsBut_put _ _ _ herr hs) hs) hs) hs) hs) hs
  rw [tmgStop_eq]
  exact tmgLink_regsBut hstop hn

/-- EN, the lock bits and LAT_VALID are 0 after a stop. -/
theorem tmgStop_off (s : State) : ∀ f ∈ [F.TMG_CTRL_EN, F.TMG_STATUS_CDR_LOCK, F.TMG_STATUS_FRAME_LOCK, F.TMG_STATUS_QTZ_LOCK,
    F.TMG_STATUS_HOLDOVER, F.TMG_STATUS_LAT_VALID], (tmgStop s).on f = false := by
  simp (disch := decide) [tmgStop_on, tmgStopRegs, State.raise, State.clear, State.on_when]

theorem tmgStop_cnSuspect (s : State) : (tmgStop s).on F.TMG_STATUS_CN_SUSPECT = true := by
  simp (disch := decide) [tmgStop_on, tmgStopRegs, State.raise]

/-- A message under assembly is discarded, with MSG_DROP. -/
theorem tmgStop_msgDrop (s : State) :
    (tmgStop s).on F.TMG_ERR_MSG_DROP = (s.on F.TMG_ERR_MSG_DROP || s.tmg.asm.isSome) := by
  cases hasm : s.tmg.asm.isSome <;>
    simp (disch := decide) [tmgStop_on, tmgStopRegs, State.raise, State.clear, State.on_when, hasm]

theorem tmgStop_lockLost (s : State) : (tmgStop s).on F.TMG_ERR_LOCK_LOST = s.on F.TMG_ERR_LOCK_LOST := by
  simp (disch := decide) [tmgStop_on, tmgStopRegs, State.raise, State.clear, State.on_when]

/-- Settles O6: runs of frames by their length, each event by its equation, the stop by what it reads back as. -/
theorem timingFrameLock : Obligations.TimingFrameLock := by
  refine ⟨⟨fun s fs hfs hen hcdr hun hgood hle => ?_, fun s fs hfs hen hlock hbad hle => ?_⟩,
    fun s => ⟨completes_quartzPllLock, completes_timingPortCdrLock, completes_timingPortCdrLoss s,
      completes_relockBoundaryStep⟩, fun s => ?_⟩
  · simpa [hgood] using runs_goodFrames fs s hfs hen hcdr hun (by omega) (by omega)
  · simpa [hbad] using runs_badPositions fs s hfs hen hlock (by omega) (by omega)
  · have hregs : RegsBut s (tmgStop s) [R.TMG_CTRL.addr 0, R.TMG_STATUS.addr 0, R.TMG_ERR.addr 0, R.NOC_STATUS.addr 0] :=
      tmgStop_regsBut (regsBut_refl _ _) (by decide) (by decide) (by decide) (by decide)
    refine ⟨tmgStop_off s, tmgStop_cnSuspect s, tmgStop_msgDrop s, tmgStop_lockLost s,
      regsBut_rd hregs _ _ (by decide), regsBut_rd hregs _ _ (by decide), ?_, ?_, ?_, ?_, ?_, tmgStop_frame s, hregs⟩
    all_goals rw [tmgStop_tmg]; rfl

end Sys2Proof.Machine
end

section
/-! The fixed-latency contract (02 R89): LAT_VALID follows the lock bits, and TMG_LAT_EPOCH counts its rises. -/

namespace Sys2Proof.Machine

/-- What R89 asks of an event that takes `s` to `t`. -/
def LatFollows (s t : State) : Prop :=
  t.on F.TMG_STATUS_LAT_VALID = t.latNow ∧
    t.get F.TMG_LAT_EPOCH_EPOCH = (s.get F.TMG_LAT_EPOCH_EPOCH
      + (if t.on F.TMG_STATUS_LAT_VALID && !s.on F.TMG_STATUS_LAT_VALID then 1 else 0)) % 2 ^ 32

theorem epoch_mod (s : State) : s.get F.TMG_LAT_EPOCH_EPOCH % 2 ^ 32 = s.get F.TMG_LAT_EPOCH_EPOCH :=
  Nat.mod_eq_of_lt (State.get_lt s F.TMG_LAT_EPOCH_EPOCH 0)

/-- An event that ends in `tmgSettle`, LAT_VALID and its count untouched before. -/
theorem latFollows_tmgSettle {s u : State} (hv : u.on F.TMG_STATUS_LAT_VALID = s.on F.TMG_STATUS_LAT_VALID)
    (he : u.get F.TMG_LAT_EPOCH_EPOCH = s.get F.TMG_LAT_EPOCH_EPOCH) : LatFollows s (tmgSettle u) := by
  refine ⟨by rw [tmgSettle_latValid, tmgSettle_latNow], ?_⟩
  rw [tmgSettle_epoch, tmgSettle_latValid, hv, he]

/-- A link-clock change of Sand is nothing to the contract. -/
theorem latFollows_tmgLink {s u : State} (old : Bool) (h : LatFollows s u) : LatFollows s (tmgLink old u) := by
  have hnow : (tmgLink old u).latNow = u.latNow := by simp (disch := decide) [State.latNow]
  rwa [LatFollows, tmgLink_on (by decide), tmgLink_get (by decide), hnow]

/-- An event that leaves TMG_STATUS and TMG_LAT_EPOCH. -/
theorem latFollows_of_regsBut {s t : State} {l : List Nat} (hs : s.on F.TMG_STATUS_LAT_VALID = s.latNow)
    (h : RegsBut s t l) (hl : R.TMG_STATUS.addr 0 ∉ l) (he : R.TMG_LAT_EPOCH.addr 0 ∉ l) : LatFollows s t := by
  have hon (f : Fld) (hf : f.reg = R.TMG_STATUS) : t.on f = s.on f := regsBut_on h (by rwa [hf])
  have hnow : t.latNow = s.latNow := by
    rw [State.latNow, hon F.TMG_STATUS_CDR_LOCK rfl, hon F.TMG_STATUS_FRAME_LOCK rfl, hon F.TMG_STATUS_QTZ_LOCK rfl,
      hon F.TMG_STATUS_HOLDOVER rfl, ← State.latNow]
  refine ⟨by rw [hon F.TMG_STATUS_LAT_VALID rfl, hs, hnow], ?_⟩
  rw [regsBut_get (f := F.TMG_LAT_EPOCH_EPOCH) h he, hon F.TMG_STATUS_LAT_VALID rfl, Bool.and_not_self,
    if_neg Bool.false_ne_true, Nat.add_zero, epoch_mod]

theorem latFollows_refl {s : State} (hs : s.on F.TMG_STATUS_LAT_VALID = s.latNow) : LatFollows s s :=
  latFollows_of_regsBut hs (regsBut_refl s []) List.not_mem_nil List.not_mem_nil

/-- An event that ends with LAT_VALID and CDR_LOCK 0 counts no rise. -/
theorem latFollows_of_off {s t : State} (hv : t.on F.TMG_STATUS_LAT_VALID = false)
    (hc : t.on F.TMG_STATUS_CDR_LOCK = false) (he : t.get F.TMG_LAT_EPOCH_EPOCH = s.get F.TMG_LAT_EPOCH_EPOCH) :
    LatFollows s t := by
  refine ⟨by simp [hv, State.latNow, hc], ?_⟩
  rw [he, hv, Bool.false_and, if_neg Bool.false_ne_true, Nat.add_zero, epoch_mod]

theorem latFollows_tmgGoodSync {s : State} (hs : s.on F.TMG_STATUS_LAT_VALID = s.latNow) (f : W40) :
    LatFollows s (tmgGoodSync s f) := by
  cases hlock : s.on F.TMG_STATUS_FRAME_LOCK
  case true =>
    rw [tmgGoodSync_locked hlock]
    exact latFollows_of_regsBut hs (tmgCountCheck_only _ s) (by decide) (by decide)
  case false =>
    by_cases hlt : (if tmgBadCheck f then 0 else s.tmg.good + 1) < 64
    · rw [tmgGoodSync_counts hlock hlt]
      exact latFollows_of_regsBut hs (tmgCountCheck_only _ s) (by decide) (by decide)
    · have hok : tmgBadCheck f = false := by
        refine Bool.eq_false_of_not_eq_true fun hbad => hlt ?_
        rw [if_pos hbad]; decide
      obtain ⟨u, x, hlocks, rfl⟩ := tmgGoodSync_locks hlock hok (by simpa [hok] using hlt)
      rw [hlocks]
      exact latFollows_tmgSettle (State.on_put_apart (by decide)) (State.get_put_apart (by decide))

theorem latFollows_tmgNoSync {s : State} (hs : s.on F.TMG_STATUS_LAT_VALID = s.latNow) (bad : Bool) :
    LatFollows s (tmgNoSync bad s) := by
  cases hlock : s.on F.TMG_STATUS_FRAME_LOCK
  case false =>
    rw [tmgNoSync_unlocked bad hlock]
    exact latFollows_refl hs
  case true =>
    have hcount := tmgCountCheck_only bad s
    rw [tmgNoSync_locked bad hlock]
    simp only
    split
    · exact latFollows_of_regsBut hs hcount (by decide) (by decide)
    · obtain ⟨u, hu, -, hvalid, hepoch⟩ := tmgLose_settles (tmgKeep none (tmgCountCheck bad s))
      rw [hu]
      exact latFollows_tmgSettle (hvalid.trans (regsBut_on hcount (by decide)))
        (hepoch.trans (regsBut_get hcount (by decide)))

theorem latFollows_timingFrameReceived {s : State} (hs : s.on F.TMG_STATUS_LAT_VALID = s.latNow) (f : W40) :
    Completes (.timingFrameReceived f) s (LatFollows s) := by
  cases hen : s.on F.TMG_CTRL_EN
  case false => exact ⟨_, exec_timingFrame_disabled hen f, latFollows_refl hs⟩
  case true =>
    cases hsync : s.on F.TMG_STATUS_CDR_LOCK && f.toNat / 2 ^ 34 == 0b110100
    case false => exact ⟨_, exec_timingFrame_noSync hen hsync, latFollows_tmgNoSync hs _⟩
    case true =>
      obtain ⟨hcdr, hf⟩ := Bool.and_eq_true_iff.mp hsync
      exact ⟨_, exec_timingFrame_sync hen hcdr (beq_iff_eq.mp hf), latFollows_tmgGoodSync hs f⟩

theorem latFollows_timingPortCdrLock {s : State} (hs : s.on F.TMG_STATUS_LAT_VALID = s.latNow) :
    Completes .timingPortCdrLock s (LatFollows s) := by
  cases hen : s.on F.TMG_CTRL_EN
  case false => exact ⟨_, exec_timingPortCdrLock_disabled hen, latFollows_refl hs⟩
  case true =>
    exact ⟨_, exec_timingPortCdrLock hen,
      latFollows_tmgSettle (State.on_put_apart (by decide)) (State.get_put_apart (by decide))⟩

theorem latFollows_timingPortCdrLoss (s : State) : Completes .timingPortCdrLoss s (LatFollows s) :=
  ⟨_, exec_timingPortCdrLoss s, latFollows_tmgSettle (State.on_put_apart (by decide)) (State.get_put_apart (by decide))⟩

theorem latFollows_quartzPllLock {s : State} (hs : s.on F.TMG_STATUS_LAT_VALID = s.latNow) :
    Completes .quartzPllLock s (LatFollows s) := by
  refine ⟨_, exec_quartzPllLock s, ?_⟩
  split
  · exact latFollows_tmgLink _
      (latFollows_tmgSettle (State.on_put_apart (by decide)) (State.get_put_apart (by decide)))
  · exact latFollows_refl hs

theorem latFollows_relockBoundaryStep {s : State} (hs : s.on F.TMG_STATUS_LAT_VALID = s.latNow) :
    Completes .relockBoundaryStep s (LatFollows s) := by
  refine ⟨_, exec_relockBoundaryStep s, ?_⟩
  split
  · refine latFollows_tmgSettle ?_ ?_ <;>
      simp (disch := decide) [tmgRelocked_on, tmgRelocked_get, State.raise, State.clear]
  · exact latFollows_refl hs

/-- A write that enables the port, or is refused, reaches TMG_CTRL and TMG_ERR only. -/
theorem latFollows_timingPortEnable {s : State} (hs : s.on F.TMG_STATUS_LAT_VALID = s.latNow) (w : W32) :
    Completes (.timingPortEnable w) s (LatFollows s) := by
  have hstored := tmgStored_regsBut (l := [R.TMG_CTRL.addr 0, R.TMG_ERR.addr 0]) w (regsBut_refl s _) (by decide)
  refine ⟨_, exec_timingPortEnable w s, latFollows_of_regsBut (l := [R.TMG_CTRL.addr 0, R.TMG_ERR.addr 0]) hs
    (regsBut_ite ?_ ?_) (by decide) (by decide)⟩
  · exact regsBut_put _ _ _ hstored (by decide)
  · exact regsBut_put _ _ _ (regsBut_put _ _ _ hstored (by decide)) (by decide)

theorem latFollows_timingPortDisable {s : State} (hs : s.on F.TMG_STATUS_LAT_VALID = s.latNow) (w : W32) :
    Completes (.timingPortDisable w) s (LatFollows s) := by
  have hstored := tmgStored_regsBut (l := [R.TMG_CTRL.addr 0, R.TMG_STATUS.addr 0, R.TMG_ERR.addr 0, R.NOC_STATUS.addr 0]) w
    (regsBut_refl s _) (by decide)
  refine ⟨_, exec_timingPortDisable w s, ?_⟩
  split
  · have hoff := tmgStop_off (tmgStored w s)
    have hregs := tmgStop_regsBut hstored (by decide) (by decide) (by decide) (by decide)
    exact latFollows_of_off (hoff _ (by decide)) (hoff _ (by decide)) (regsBut_get hregs (by decide))
  · exact latFollows_of_regsBut (l := [R.TMG_CTRL.addr 0]) hs
      (tmgStored_regsBut w (regsBut_refl s _) (by decide)) (by decide) (by decide)

/-- Settles O8: each event either leaves TMG_STATUS, or ends in `tmgSettle`, or clears LAT_VALID with CDR_LOCK. -/
theorem timingLatencyContract : Obligations.TimingLatencyContract := by
  rintro s hs c (⟨f, rfl⟩ | rfl | rfl | rfl | rfl | ⟨w, rfl⟩ | ⟨w, rfl⟩)
  · exact latFollows_timingFrameReceived hs f
  · exact latFollows_timingPortCdrLock hs
  · exact latFollows_timingPortCdrLoss s
  · exact latFollows_quartzPllLock hs
  · exact latFollows_relockBoundaryStep hs
  · exact latFollows_timingPortEnable hs w
  · exact latFollows_timingPortDisable hs w

end Sys2Proof.Machine
end

section
/-! Long messages (02 R71 to R75): assembly from fragments, sorting, the queue. -/

namespace Sys2Proof.Machine

/-- A receive fragment of type `ty` with word `w` (02 R71). -/
def tmgFrag (ty : Nat) (w : W16) : BitVec 18 := BitVec.ofNat 18 (ty * 65536 + w.toNat)

theorem tmgFrag_toNat {ty : Nat} (h : ty < 4) (w : W16) : (tmgFrag ty w).toNat = ty * 65536 + w.toNat := by
  have hw := w.isLt
  exact Nat.mod_eq_of_lt (by omega)

theorem tmgFrag_type {ty : Nat} (h : ty < 4) (w : W16) : (tmgFrag ty w).toNat / 2 ^ 16 = ty := by
  have hw := w.isLt
  rw [tmgFrag_toNat h]; omega

theorem tmgFrag_word {ty : Nat} (h : ty < 4) (w : W16) : BitVec.ofNat 16 (tmgFrag ty w).toNat = w := by
  have hw := w.isLt
  apply BitVec.eq_of_toNat_eq
  rw [BitVec.toNat_ofNat, tmgFrag_toNat h]; omega

/-- What a message under assembly gives when it is broken (02 R73). -/
def brokenMsg (asm : Option (List W16)) : List MsgOut := if asm.isSome then [.drop] else []

theorem fragTake_idle (asm : Option (List W16)) (w : W16) : fragTake asm (tmgFrag 0 w) = (none, brokenMsg asm) := by
  simp only [fragTake, tmgFrag_type (show 0 < 4 by decide), if_true]; rfl

theorem fragTake_start (asm : Option (List W16)) (w : W16) : fragTake asm (tmgFrag 1 w) = (some [w], brokenMsg asm) := by
  simp only [fragTake, tmgFrag_type (show 1 < 4 by decide), tmgFrag_word (show 1 < 4 by decide)]; rfl

theorem fragTake_continue (ws : List W16) (w : W16) : fragTake (some ws) (tmgFrag 2 w) = (some (ws ++ [w]), []) := by
  simp only [fragTake, tmgFrag_type (show 2 < 4 by decide), tmgFrag_word (show 2 < 4 by decide)]; rfl

theorem fragTake_end (ws : List W16) (w : W16) :
    fragTake (some ws) (tmgFrag 3 w) = (none, [msgSort (ws ++ [w])]) := by
  simp only [fragTake, tmgFrag_type (show 3 < 4 by decide), tmgFrag_word (show 3 < 4 by decide)]; rfl

/-- A continue or end fragment with no message under assembly gives nothing. -/
theorem fragTake_none {ty : Nat} (h : ty = 2 ∨ ty = 3) (w : W16) : fragTake none (tmgFrag ty w) = (none, []) := by
  rcases h with rfl | rfl
  · simp only [fragTake, tmgFrag_type (show 2 < 4 by decide)]; rfl
  · simp only [fragTake, tmgFrag_type (show 3 < 4 by decide)]; rfl

/-- One fragment after another: what is under assembly, and the messages given so far. -/
def fragStep (a : Option (List W16) × List MsgOut) (f : BitVec 18) : Option (List W16) × List MsgOut :=
  ((fragTake a.1 f).1, a.2 ++ (fragTake a.1 f).2)

theorem foldl_fragStep_continue (ws mid : List W16) (out : List MsgOut) :
    (mid.map (tmgFrag 2)).foldl fragStep (some ws, out) = (some (ws ++ mid), out) := by
  induction mid generalizing ws with
  | nil => simp
  | cons w mid ih =>
    have hstep : fragStep (some ws, out) (tmgFrag 2 w) = (some (ws ++ [w]), out) := by
      simp only [fragStep, fragTake_continue, List.append_nil]
    rw [List.map_cons, List.foldl_cons, hstep, ih, List.append_assoc, List.singleton_append]

/-- A whole message, after what was under assembly before it. -/
theorem foldl_fragStep_message (h : W16) (mid : List W16) (e : W16) (asm : Option (List W16)) :
    (tmgFrag 1 h :: mid.map (tmgFrag 2) ++ [tmgFrag 3 e]).foldl fragStep (asm, []) =
      (none, brokenMsg asm ++ [msgSort (h :: mid ++ [e])]) := by
  have hstart : fragStep (asm, []) (tmgFrag 1 h) = (some [h], brokenMsg asm) := by
    simp only [fragStep, fragTake_start, List.nil_append]
  rw [List.cons_append, List.foldl_cons, hstart, List.foldl_append, foldl_fragStep_continue, List.foldl_cons, List.foldl_nil,
    fragStep, fragTake_end, List.singleton_append]

/-! Sorting (02 R72 to R75). -/

theorem msgSort_cons (h : W16) (body : List W16) : msgSort (h :: body) =
    if h.toNat % 256 ≠ body.length ∨ 15 < body.length then .drop
    else if h.toNat / 256 = 1 ∧ body.length = 4 then
      .preset (BitVec.ofNat 64 (body.foldl (fun a w => a * 65536 + w.toNat) 0))
    else if 0x80 ≤ h.toNat / 256 then .queue (h :: body)
    else .drop := rfl

/-- Four words as one, the first most significant. -/
theorem ofNat_foldl_words (a b c d : W16) :
    BitVec.ofNat 64 ([a, b, c, d].foldl (fun n w => n * 65536 + w.toNat) 0) = a ++ b ++ c ++ d := by
  have happ {n : Nat} (x : BitVec n) (y : W16) : (x ++ y).toNat = x.toNat * 65536 + y.toNat := by
    rw [BitVec.toNat_append, ← Nat.shiftLeft_add_eq_or_of_lt y.isLt, Nat.shiftLeft_eq]
  have hval : [a, b, c, d].foldl (fun n w => n * 65536 + w.toNat) 0 = (a ++ b ++ c ++ d).toNat := by
    simp only [happ, List.foldl_cons, List.foldl_nil, Nat.zero_mul, Nat.zero_add]
  rw [hval]
  exact (BitVec.ofNat_toNat 64 _).trans (BitVec.setWidth_eq _)

theorem msgSort_miscounted {h : W16} {body : List W16} (hbad : h.toNat % 256 ≠ body.length ∨ 15 < body.length) :
    msgSort (h :: body) = .drop := by rw [msgSort_cons, if_pos hbad]

/-- A message whose count is right, by its type. -/
theorem msgSort_counted {h : W16} {body : List W16} (hlen : h.toNat % 256 = body.length) (hle : body.length ≤ 15) :
    (∀ a b c d : W16, h.toNat / 256 = 1 → body = [a, b, c, d] → msgSort (h :: body) = .preset (a ++ b ++ c ++ d)) ∧
    (h.toNat / 256 = 1 → body.length ≠ 4 → msgSort (h :: body) = .drop) ∧
    (0x80 ≤ h.toNat / 256 → msgSort (h :: body) = .queue (h :: body)) ∧
    (h.toNat / 256 ≠ 1 → h.toNat / 256 < 0x80 → msgSort (h :: body) = .drop) := by
  have hok : ¬ (h.toNat % 256 ≠ body.length ∨ 15 < body.length) := by omega
  rw [msgSort_cons, if_neg hok]
  refine ⟨fun a b c d hty hbody => ?_, fun hty hne => ?_, fun hty => ?_, fun hne hlt => ?_⟩
  · subst hbody
    rw [if_pos ⟨hty, rfl⟩, ofNat_foldl_words]
  · rw [if_neg fun hfour => hne hfour.2, if_neg (by omega)]
  · rw [if_neg (by omega), if_pos hty]
  · rw [if_neg fun hone => hne hone.1, if_neg (Nat.not_le.mpr hlt)]

/-! The commands on the head of the list of completed messages, and the read of the queue (02 R73 to R75). -/

theorem exec_cnPresetMessage {s : State} {v : W64} {r : List MsgOut} (h : s.tmg.msgs = .preset v :: r) :
    exec .cnPresetMessage s = .next ({ s with tmg := { s.tmg with msgs := r } }.wr R.TMG_CN_PRESET 0 v) := by
  change execCnPresetMessage s = _
  simp only [execCnPresetMessage, h]

theorem exec_queuedMessage_room {s : State} {ws : List W16} {r : List MsgOut} (h : s.tmg.msgs = .queue ws :: r)
    (hroom : s.tmg.queue.length < 16) : exec .queuedMessage s = .next
      ({ s with tmg := { s.tmg with msgs := r, queue := s.tmg.queue ++ [ws] } }.put F.TMG_ERR_MSG_READY 0 1) := by
  change execQueuedMessage s = _
  simp only [execQueuedMessage, h, if_pos hroom, State.raise]

theorem exec_queuedMessage_full {s : State} {ws : List W16} {r : List MsgOut} (h : s.tmg.msgs = .queue ws :: r)
    (hfull : 16 ≤ s.tmg.queue.length) : exec .queuedMessage s = .next
      ({ s with tmg := { s.tmg with msgs := r } }.put F.TMG_ERR_MSG_DROP 0 1) := by
  change execQueuedMessage s = _
  simp only [execQueuedMessage, h, if_neg (Nat.not_lt.mpr hfull), State.raise]

theorem exec_msgDrop_full {s : State} {ws : List W16} {r : List MsgOut} (h : s.tmg.msgs = .queue ws :: r)
    (hfull : 16 ≤ s.tmg.queue.length) : exec .msgDrop s = .next
      ({ s with tmg := { s.tmg with msgs := r } }.put F.TMG_ERR_MSG_DROP 0 1) := by
  change execMsgDrop s = _
  simp only [execMsgDrop, h, if_neg (Nat.not_lt.mpr hfull), State.raise]

theorem exec_msgDrop {s : State} {r : List MsgOut} (h : s.tmg.msgs = .drop :: r) :
    exec .msgDrop s = .next ({ s with tmg := { s.tmg with msgs := r } }.put F.TMG_ERR_MSG_DROP 0 1) := by
  change execMsgDrop s = _
  simp only [execMsgDrop, h, State.raise]

/-- A quiet read answers and takes nothing (00 R16). -/
theorem exec_msgDataRead_quiet (s : State) : exec (.msgDataRead true) s = .next (s.okay (msgData s)) := rfl

theorem exec_msgDataRead_empty {s : State} (h : s.tmg.queue = []) (quiet : Bool) :
    exec (.msgDataRead quiet) s = .next (s.okay (2 ^ 17)) := by
  have hdata : msgData s = 2 ^ 17 := by simp only [msgData, h]
  rw [← hdata]
  cases quiet
  · change Host.Outcome.next (tmgMsgRead false s) = _
    simp only [tmgMsgRead, Bool.false_eq_true, if_false, h]
  · exact exec_msgDataRead_quiet s

/-- The last word of a message goes with the message. -/
theorem exec_msgDataRead_last {s : State} {w : W16} {q : List (List W16)} (h : s.tmg.queue = [w] :: q) :
    exec (.msgDataRead true) s = .next (s.okay (w.toNat + 2 ^ 16)) ∧
    exec (.msgDataRead false) s = .next ({ s with tmg := { s.tmg with queue := q } }.okay (w.toNat + 2 ^ 16)) := by
  have hdata : msgData s = w.toNat + 2 ^ 16 := by simp only [msgData, h]; rfl
  rw [← hdata]
  refine ⟨exec_msgDataRead_quiet s, ?_⟩
  change Host.Outcome.next (tmgMsgRead false s) = _
  simp only [tmgMsgRead, Bool.false_eq_true, if_false, h]
  rfl

/-- A word that others follow goes alone. -/
theorem exec_msgDataRead_more {s : State} {w x : W16} {r : List W16} {q : List (List W16)}
    (h : s.tmg.queue = (w :: x :: r) :: q) :
    exec (.msgDataRead true) s = .next (s.okay w.toNat) ∧
    exec (.msgDataRead false) s = .next ({ s with tmg := { s.tmg with queue := (x :: r) :: q } }.okay w.toNat) := by
  have hdata : msgData s = w.toNat := by simp only [msgData, h]; rfl
  rw [← hdata]
  refine ⟨exec_msgDataRead_quiet s, ?_⟩
  change Host.Outcome.next (tmgMsgRead false s) = _
  simp only [tmgMsgRead, Bool.false_eq_true, if_false, h]
  rfl

/-- Settles O10: assembly by induction on the words between header and end, sorting by type, each row by the list's head. -/
theorem timingMessages : Obligations.TimingMessages := by
  have hidle (w : W16) : BitVec.ofNat 18 w.toNat = tmgFrag 0 w := by rw [tmgFrag, Nat.zero_mul, Nat.zero_add]
  refine ⟨⟨foldl_fragStep_message, fun h body => ⟨msgSort_miscounted, msgSort_counted⟩, fun ws w => ?_⟩, fun s => ?_⟩
  · exact ⟨(congrArg _ (hidle w)).trans (fragTake_idle (some ws) w), fragTake_start (some ws) w, fragTake_none (.inl rfl) w,
      fragTake_none (.inr rfl) w⟩
  · exact ⟨fun v r => exec_cnPresetMessage, fun ws r => exec_queuedMessage_room,
      fun ws r h hfull => ⟨exec_queuedMessage_full h hfull, exec_msgDrop_full h hfull⟩, fun r => exec_msgDrop,
      exec_msgDataRead_empty, fun w q => exec_msgDataRead_last, fun w x r q => exec_msgDataRead_more⟩

end Sys2Proof.Machine
end

section
/-! Which due command a row takes (02 R65). -/

namespace Sys2Proof.Machine

/-- The command of a row may act now. -/
def dueMatch (p : Nat → Bool) (s : State) (c : Byte) : Bool := p c.toNat && cmdMayAct s.tmg.due c

theorem takeDue_of_find {p : Nat → Bool} {s : State} {c : Byte} (h : s.tmg.due.find? (dueMatch p s) = some c) :
    takeDue p s = some { s with tmg := { s.tmg with due := s.tmg.due.erase c } } := by
  have hfind : s.tmg.due.find? (fun c => p c.toNat && cmdMayAct s.tmg.due c) = some c := h
  simp only [takeDue, hfind]

theorem takeDue_eq_none_iff (p : Nat → Bool) (s : State) :
    takeDue p s = none ↔ ∀ d ∈ s.tmg.due, dueMatch p s d = false := by
  cases hfind : s.tmg.due.find? (dueMatch p s) with
  | some c =>
    have hmatch := List.find?_some hfind
    have hmem := List.mem_of_find?_eq_some hfind
    simp only [takeDue_of_find hfind, reduceCtorEq, false_iff]
    exact fun hall => absurd hmatch (by simp [hall c hmem])
  | none =>
    have hnone : takeDue p s = none := by
      have h : s.tmg.due.find? (fun c => p c.toNat && cmdMayAct s.tmg.due c) = none := hfind
      simp only [takeDue, h]
    simpa [hnone] using hfind

/-- The command taken is the first in the list that may act, and it alone leaves the list. -/
theorem takeDue_eq_some_iff (p : Nat → Bool) (s t : State) :
    takeDue p s = some t ↔ ∃ l c r, s.tmg.due = l ++ c :: r ∧ dueMatch p s c = true ∧
      (∀ d ∈ l, dueMatch p s d = false) ∧ t = { s with tmg := { s.tmg with due := l ++ r } } := by
  have hleaves {l r : List Byte} {c : Byte} (hc : dueMatch p s c = true) (hl : ∀ d ∈ l, dueMatch p s d = false) :
      (l ++ c :: r).erase c = l ++ r := by
    have hnot : c ∉ l := fun hmem => absurd hc (by simp [hl c hmem])
    rw [List.erase_append_right _ hnot, List.erase_cons_head]
  constructor
  · intro ht
    cases hfind : s.tmg.due.find? (dueMatch p s) with
    | none =>
      have hnone := (takeDue_eq_none_iff p s).mpr (by simpa using hfind)
      exact absurd (hnone.symm.trans ht) nofun
    | some c =>
      obtain ⟨hc, l, r, hdue, hl⟩ := List.find?_eq_some_iff_append.mp hfind
      have hl' : ∀ d ∈ l, dueMatch p s d = false := fun d hd => by simpa using hl d hd
      rw [takeDue_of_find hfind, Option.some.injEq] at ht
      refine ⟨l, c, r, hdue, hc, hl', ?_⟩
      rw [← ht, ← hleaves hc hl', ← hdue]
  · rintro ⟨l, c, r, hdue, hc, hl, rfl⟩
    have hfind : s.tmg.due.find? (dueMatch p s) = some c :=
      List.find?_eq_some_iff_append.mpr ⟨hc, l, r, hdue, fun d hd => by simp [hl d hd]⟩
    rw [takeDue_of_find hfind, hdue, hleaves hc hl]

/-- A command row acts on the state that `takeDue` leaves. -/
theorem exec_of_onDue {i : Instr} {p : Nat → Bool} {g : State → State} {s t : State}
    (hexec : exec i s = .next (onDue p g s)) (h : takeDue p s = some t) : exec i s = .next (g t) := by
  rw [hexec, onDue, h]

end Sys2Proof.Machine
end

section
/-! What the due commands do (02 R65 to R69). -/

namespace Sys2Proof.Machine

theorem get_CN (s : State) : s.get F.TMG_CN_CN = (s.rd R.TMG_CN).toNat := by
  have hbits : s.get F.TMG_CN_CN = (s.rd R.TMG_CN).toNat / 2 ^ 0 % 2 ^ 64 := rfl
  rw [hbits, Nat.pow_zero, Nat.div_one, Nat.mod_eq_of_lt (s.rd R.TMG_CN).isLt]

theorem shortTag_eq (s : State) : s.shortTag = (s.rd R.TMG_CN).setWidth 16 := by
  rw [State.shortTag, State.cn, get_CN, BitVec.ofNat_toNat]

/-- CNR loads the preset, which the spine and the Ledger then see. -/
theorem tmgCnr_eq (s : State) : tmgCnr s = ldgResync true
    { (s.wr R.TMG_CN 0 (s.rd R.TMG_CN_PRESET)).put F.TMG_STATUS_CN_SUSPECT 0 0 with
      tmg := { s.tmg with spineTag := (s.rd R.TMG_CN_PRESET).setWidth 16 } } := by
  have hcn : ((s.wr R.TMG_CN 0 (s.rd R.TMG_CN_PRESET)).clear F.TMG_STATUS_CN_SUSPECT).rd R.TMG_CN = s.rd R.TMG_CN_PRESET :=
    (State.rd_wr_ne _ _ _ _ (by decide)).trans (State.rd_wr_same _ _ _ _)
  rw [← hcn, ← shortTag_eq, hcn]; rfl

/-- EXA accepts the short tag less the offset, modulo 2^16. -/
theorem tmgExa_eq (s : State) : tmgExa s =
    ldgExternal ((s.rd R.TMG_CN).setWidth 16 - BitVec.ofNat 16 (s.get F.TMG_CTRL_EXA_OFFSET)) s := by
  have htag : BitVec.ofInt 16 ((s.cn : Int) - (s.get F.TMG_CTRL_EXA_OFFSET : Int)) =
      (s.rd R.TMG_CN).setWidth 16 - BitVec.ofNat 16 (s.get F.TMG_CTRL_EXA_OFFSET) := by
    rw [Int.sub_eq_add_neg, BitVec.ofInt_add, BitVec.ofInt_neg, BitVec.ofInt_natCast, BitVec.ofInt_natCast,
      ← BitVec.sub_eq_add_neg, ← shortTag_eq, State.shortTag]
  rw [tmgExa, htag]

/-- The crossings since the last ORB are not LEN (02 R69). -/
def State.orbitOff (s : State) : Bool :=
  s.get F.TMG_ORBIT_LEN != 0 && s.tmg.sinceOrb.any (· != s.get F.TMG_ORBIT_LEN)

/-- The registers that ORB changes. -/
def tmgOrbRegs (s : State) : State :=
  ((s.wr R.TMG_ORBIT_CN 0 (s.rd R.TMG_CN)).bumpWrap F.TMG_ORBIT_COUNT_COUNT).when s.orbitOff (·.raise F.TMG_ERR_ORBIT_ERR)

theorem onlyRegs_tmgOrbRegs (s : State) : OnlyRegs s (tmgOrbRegs s) := by
  have hcount : OnlyRegs s ((s.wr R.TMG_ORBIT_CN 0 (s.rd R.TMG_CN)).bumpWrap F.TMG_ORBIT_COUNT_COUNT) :=
    onlyRegs_put _ _ _ rfl
  exact onlyRegs_when hcount (onlyRegs_put _ _ _ hcount)

theorem tmgOrb_eq (s : State) : tmgOrb s = { tmgOrbRegs s with tmg := { s.tmg with sinceOrb := some 0 } } := by
  have hoff : (match s.tmg.sinceOrb with
      | some n => s.get F.TMG_ORBIT_LEN != 0 && n != s.get F.TMG_ORBIT_LEN
      | none => false) = s.orbitOff := by
    rw [State.orbitOff]
    cases s.tmg.sinceOrb
    · exact (Bool.and_false _).symm
    · rfl
  rw [← onlyRegs_tmg (onlyRegs_tmgOrbRegs s), tmgOrbRegs, ← hoff]; rfl

/-- After the latch ORB reaches its count and the error bits only. -/
theorem tmgOrbRegs_regsBut (s : State) :
    RegsBut (s.wr R.TMG_ORBIT_CN 0 (s.rd R.TMG_CN)) (tmgOrbRegs s) [R.TMG_ORBIT_COUNT.addr 0, R.TMG_ERR.addr 0] := by
  have hcount (v : Nat) := regsBut_put (l := [R.TMG_ORBIT_COUNT.addr 0, R.TMG_ERR.addr 0]) F.TMG_ORBIT_COUNT_COUNT 0 v
    (regsBut_refl (s.wr R.TMG_ORBIT_CN 0 (s.rd R.TMG_CN)) _) (by decide)
  exact regsBut_when (hcount _) (regsBut_put _ _ _ (hcount _) (by decide))

theorem wr_ORBIT_CN_regsBut (s : State) (v : W64) : RegsBut s (s.wr R.TMG_ORBIT_CN 0 v) [R.TMG_ORBIT_CN.addr 0] :=
  regsBut_wr _ _ _ (regsBut_refl _ _) (by decide)

theorem tmgOrbRegs_orbitCn (s : State) : (tmgOrbRegs s).rd R.TMG_ORBIT_CN = s.rd R.TMG_CN :=
  (regsBut_rd (tmgOrbRegs_regsBut s) _ _ (by decide)).trans (State.rd_wr_same _ _ _ _)

theorem tmgOrbRegs_count (s : State) :
    (tmgOrbRegs s).get F.TMG_ORBIT_COUNT_COUNT = (s.get F.TMG_ORBIT_COUNT_COUNT + 1) % 2 ^ 32 := by
  have hwr : (s.wr R.TMG_ORBIT_CN 0 (s.rd R.TMG_CN)).get F.TMG_ORBIT_COUNT_COUNT = s.get F.TMG_ORBIT_COUNT_COUNT :=
    regsBut_get (wr_ORBIT_CN_regsBut s _) (by decide)
  have hcount := State.get_bumpWrap_same (s := s.wr R.TMG_ORBIT_CN 0 (s.rd R.TMG_CN)) (f := F.TMG_ORBIT_COUNT_COUNT)
    (by decide)
  rw [hwr] at hcount
  rw [tmgOrbRegs, State.get_when, State.raise, State.get_put_apart (by decide), ite_self]
  exact hcount

theorem tmgOrbRegs_orbitErr (s : State) :
    (tmgOrbRegs s).on F.TMG_ERR_ORBIT_ERR = (s.on F.TMG_ERR_ORBIT_ERR || s.orbitOff) := by
  have hold : ((s.wr R.TMG_ORBIT_CN 0 (s.rd R.TMG_CN)).bumpWrap F.TMG_ORBIT_COUNT_COUNT).on F.TMG_ERR_ORBIT_ERR =
      s.on F.TMG_ERR_ORBIT_ERR :=
    (State.on_put_apart (by decide)).trans (regsBut_on (wr_ORBIT_CN_regsBut s _) (by decide))
  rw [tmgOrbRegs, State.on_when, State.raise, State.on_put_one (by decide) (by decide), hold]
  cases s.orbitOff
  · exact (Bool.or_false _).symm
  · exact (Bool.or_true _).symm

theorem completes_orb {s t : State} (h : takeDue (· == 2) s = some t) : Completes .orb s fun u =>
    u.rd R.TMG_ORBIT_CN = t.rd R.TMG_CN ∧
    u.get F.TMG_ORBIT_COUNT_COUNT = (t.get F.TMG_ORBIT_COUNT_COUNT + 1) % 2 ^ 32 ∧
    u.on F.TMG_ERR_ORBIT_ERR = (t.on F.TMG_ERR_ORBIT_ERR || t.orbitOff) ∧
    u = { t with
      regs := u.regs, tmg := { t.tmg with sinceOrb := some 0 }, svc := { t.svc with xout := (t.svc.xout.1, true) } } ∧
    RegsBut t u [R.TMG_ORBIT_CN.addr 0, R.TMG_ORBIT_COUNT.addr 0, R.TMG_ERR.addr 0] := by
  have hexec := exec_of_onDue (i := .orb) (g := fun t => tmgOrb (t.setSvc fun v => { v with xout := (v.xout.1, true) })) rfl h
  generalize hv : t.setSvc (fun v => { v with xout := (v.xout.1, true) }) = v at hexec
  have hregs := regsBut_trans (regsBut_mono (wr_ORBIT_CN_regsBut v (v.rd R.TMG_CN))
    (m := [R.TMG_ORBIT_CN.addr 0, R.TMG_ORBIT_COUNT.addr 0, R.TMG_ERR.addr 0]) (by decide))
    (regsBut_mono (tmgOrbRegs_regsBut v) (by decide))
  have hframe := onlyRegs_tmgOrbRegs v
  rw [tmgOrb_eq, hframe] at hexec
  subst hv
  exact ⟨_, hexec, tmgOrbRegs_orbitCn _, tmgOrbRegs_count _, tmgOrbRegs_orbitErr _, rfl, hregs⟩

end Sys2Proof.Machine
end

section
/-! The timing port at a crossing boundary (02 R63 to R66, R71). -/

namespace Sys2Proof.Machine

/-- The commands whose last boundary has come, in the order received. -/
def Tmg.comingDue (x : Tmg) : List Byte := (x.waiting.filter (fun e => e.1 ≤ 1)).map (·.2)

/-- The registers that a boundary changes: TMG_CN, and CMD_COLLIDE where several commands fall together. -/
def tmgBoundaryRegs (s : State) : State :=
  (s.bumpWrap F.TMG_CN_CN).when (2 ≤ s.tmg.comingDue.length) (·.raise F.TMG_ERR_CMD_COLLIDE)

theorem onlyRegs_tmgBoundaryRegs (s : State) : OnlyRegs s (tmgBoundaryRegs s) :=
  onlyRegs_when (onlyRegs_put _ _ _ (onlyRegs_refl s)) (onlyRegs_put _ _ _ (onlyRegs_put _ _ _ (onlyRegs_refl s)))

theorem tmgBoundary_get (s : State) (f : Fld) : (tmgBoundary s).get f = (tmgBoundaryRegs s).get f := rfl

theorem tmgBoundary_on (s : State) (f : Fld) : (tmgBoundary s).on f = (tmgBoundaryRegs s).on f := rfl

theorem tmgBoundary_frame (s : State) : tmgBoundary s = { s with regs := (tmgBoundary s).regs, tmg := (tmgBoundary s).tmg } := by
  have h : tmgBoundary s = { tmgBoundaryRegs s with tmg := (tmgBoundary s).tmg } := rfl
  rw [onlyRegs_tmgBoundaryRegs s] at h
  exact h

theorem tmgBoundary_regsBut (s : State) : RegsBut s (tmgBoundary s) [R.TMG_CN.addr 0, R.TMG_ERR.addr 0] := by
  have hcn (v : Nat) := regsBut_put (l := [R.TMG_CN.addr 0, R.TMG_ERR.addr 0]) F.TMG_CN_CN 0 v (regsBut_refl s _) (by decide)
  exact regsBut_when (u := s.bumpWrap F.TMG_CN_CN) (hcn _) (regsBut_put _ _ _ (hcn _) (by decide))

theorem tmgBoundary_cn (s : State) : (tmgBoundary s).get F.TMG_CN_CN = (s.get F.TMG_CN_CN + 1) % 2 ^ 64 := by
  rw [tmgBoundary_get, tmgBoundaryRegs, State.get_when, State.raise, State.get_put_apart (by decide), ite_self]
  exact State.get_bumpWrap_same (by decide)

/-- Several commands that fall together set CMD_COLLIDE, which otherwise stands (02 R66). -/
theorem tmgBoundary_collide (s : State) : (tmgBoundary s).on F.TMG_ERR_CMD_COLLIDE =
    (s.on F.TMG_ERR_CMD_COLLIDE || decide (2 ≤ s.tmg.comingDue.length)) := by
  have hold : (s.bumpWrap F.TMG_CN_CN).on F.TMG_ERR_CMD_COLLIDE = s.on F.TMG_ERR_CMD_COLLIDE :=
    State.on_put_apart (by decide)
  rw [tmgBoundary_on, tmgBoundaryRegs, State.on_when, State.raise, State.on_put_one (by decide) (by decide), hold]
  cases decide (2 ≤ s.tmg.comingDue.length)
  · exact (Bool.or_false _).symm
  · exact (Bool.or_true _).symm

/-- The spine's short tag is that of the crossing that begins. -/
theorem tmgBoundary_spineTag (s : State) : (tmgBoundary s).tmg.spineTag = BitVec.ofNat 16 (s.get F.TMG_CN_CN + 1) := by
  have htag : (tmgBoundary s).tmg.spineTag = BitVec.ofNat 16 ((s.bumpWrap F.TMG_CN_CN).get F.TMG_CN_CN) := rfl
  have hlen : F.TMG_CN_CN.len = 64 := rfl
  apply BitVec.eq_of_toNat_eq
  rw [htag, State.get_bumpWrap_same (by decide), hlen, BitVec.toNat_ofNat, BitVec.toNat_ofNat]
  omega

theorem tmgBoundary_due (s : State) : (tmgBoundary s).tmg.due = s.tmg.due ++ s.tmg.comingDue := rfl

theorem tmgBoundary_spineCmd (s : State) : (tmgBoundary s).tmg.spineCmd = s.tmg.comingDue.getLast? := rfl

theorem tmgBoundary_strobes (s : State) : (tmgBoundary s).tmg.strobes = s.tmg.strobes + 1 := rfl

theorem tmgBoundary_frames (s : State) : (tmgBoundary s).tmg.frames = s.tmg.frames.tail := rfl

/-- The commands that wait on come one boundary nearer, and the frame's own command joins them. -/
theorem tmgBoundary_waiting (s : State) : (tmgBoundary s).tmg.waiting =
    (s.tmg.waiting.filter (fun e => ¬ e.1 ≤ 1)).map (fun e => (e.1 - 1, e.2)) ++
      (match s.tmg.frames.head?.join with
        | some f => [(s.cmdDelay, f.cmd)]
        | none => []) := rfl

theorem mem_later_iff (l : List (Nat × Byte)) (e : Nat × Byte) :
    e ∈ (l.filter (fun e => ¬ e.1 ≤ 1)).map (fun e => (e.1 - 1, e.2)) ↔ (e.1 + 1, e.2) ∈ l ∧ 1 ≤ e.1 := by
  simp only [List.mem_map, List.mem_filter, decide_eq_true_eq]
  constructor
  · rintro ⟨⟨n, c⟩, ⟨hmem, hlate⟩, rfl⟩
    have hn : n - 1 + 1 = n := by simp only at hlate; omega
    exact ⟨by simpa only [hn] using hmem, by simp only at hlate ⊢; omega⟩
  · rintro ⟨hmem, hpos⟩
    exact ⟨_, ⟨hmem, by simp only; omega⟩, rfl⟩

theorem tmgBoundary_mem_waiting (s : State) (e : Nat × Byte) :
    e ∈ (tmgBoundary s).tmg.waiting ↔ ((e.1 + 1, e.2) ∈ s.tmg.waiting ∧ 1 ≤ e.1) ∨
      ∃ f, s.tmg.frames.head? = some (some f) ∧ e = (max 2 (s.get F.TMG_CTRL_CMD_DELAY), f.cmd) := by
  rw [tmgBoundary_waiting, List.mem_append, mem_later_iff]
  refine or_congr_right ?_
  rcases s.tmg.frames.head? with _ | _ | f
  · simp
  · simp
  · simp [State.cmdDelay]

/-- The frame's fragment is taken, an idle one where the crossing has no frame. -/
theorem tmgBoundary_messages (s : State) : ((tmgBoundary s).tmg.asm, (tmgBoundary s).tmg.msgs) =
    ((fragTake s.tmg.asm ((s.tmg.frames.head?.join.map (·.frag)).getD 0)).1,
      s.tmg.msgs ++ (fragTake s.tmg.asm ((s.tmg.frames.head?.join.map (·.frag)).getD 0)).2) := by
  have hfrag : (match s.tmg.frames.head?.join with | some f => f.frag | none => 0) =
      (s.tmg.frames.head?.join.map (·.frag)).getD 0 := by
    cases s.tmg.frames.head?.join <;> rfl
  rw [← hfrag]; rfl

theorem exec_crossingBoundary {s : State} (hrun : s.boundariesRun = true) (hawake : s.power.asleep = false)
    (hdue : s.tmg.due = []) : exec .crossingBoundary s = .next (crossingTail
      ((ldgBoundary (synBoundary (tmgBoundary { s with svc := { s.svc with xout := (true, false) } }))).setLdg
        fun l => { l with rest := true })) := by
  change Host.Outcome.next (crossingBoundary s) = _
  rw [crossingBoundary, hrun, hawake, hdue]; rfl

/-- Settles O9: what `takeDue` takes, then each command's row on the state it leaves, then the boundary field by field. -/
theorem timingBoundary : Obligations.TimingBoundary := by
  refine ⟨fun p s => ⟨fun t => ?_, takeDue_eq_none_iff p s⟩, fun s t => ?_, fun s => ?_⟩
  · simpa only [dueMatch, Bool.and_eq_true, and_assoc] using takeDue_eq_some_iff p s t
  · refine ⟨exec_of_onDue (g := id) rfl, exec_of_onDue (g := id) rfl, exec_of_onDue (g := id) rfl, exec_of_onDue (g := id) rfl,
      exec_of_onDue (g := (·.raise F.TMG_ERR_RSVD_CMD)) rfl, exec_of_onDue (g := (·.raise F.TMG_STATUS_EXT_THROTTLE)) rfl,
      exec_of_onDue (g := (·.clear F.TMG_STATUS_EXT_THROTTLE)) rfl, completes_orb, fun h => ?_,
      exec_of_onDue (g := fun t => crossingTail (tmgRsy t)) rfl, fun h => ?_⟩
    · rw [exec_of_onDue (g := fun t => crossingTail (tmgCnr t)) rfl h, tmgCnr_eq]
    · rw [exec_of_onDue (g := fun t => crossingTail (tmgExa t)) rfl h, tmgExa_eq]
  · have hcollide := tmgBoundary_collide s
    rw [Tmg.comingDue, List.length_map] at hcollide
    exact ⟨exec_crossingBoundary, tmgBoundary_cn s, tmgBoundary_spineTag s, tmgBoundary_due s, tmgBoundary_spineCmd s,
      hcollide, tmgBoundary_mem_waiting s, tmgBoundary_messages s, tmgBoundary_strobes s, tmgBoundary_frames s,
      tmgBoundary_frame s, tmgBoundary_regsBut s⟩

end Sys2Proof.Machine
end

section
/-! Rows of registers whose addresses never meet: storing a field of one leaves a field of the other, whatever the indices. -/

namespace Sys2Proof.Machine

/-- Two rows of registers without an outer level share no address: one row ends before the other begins, or the strides are the
same and the rows stand at different places of a stride. -/
def Reg.apart (r q : Reg) : Bool :=
  r.stride2 == 0 && q.stride2 == 0 && 0 < r.inner && 0 < q.inner && 0 < r.stride && 0 < q.stride &&
    (r.addr 0 + r.inner * r.stride ≤ q.addr 0 || q.addr 0 + q.inner * q.stride ≤ r.addr 0 ||
      (r.stride == q.stride && r.addr 0 % r.stride != q.addr 0 % r.stride))

/-- An index of a row without an outer level lies a number of strides, fewer than the row has, after the row's first register. -/
theorem Reg.addr_eq_stride {r : Reg} (h : r.stride2 = 0) (i : Nat) : r.addr i = r.addr 0 + i % r.inner * r.stride := by
  simp [Reg.addr, h]

/-- Every register of a row without an outer level lies before the row's end. -/
theorem Reg.addr_lt_end {r : Reg} (h : r.stride2 = 0) (hinner : 0 < r.inner) (hstride : 0 < r.stride) (i : Nat) :
    r.addr 0 ≤ r.addr i ∧ r.addr i < r.addr 0 + r.inner * r.stride := by
  have hlt := Nat.mul_lt_mul_of_pos_right (Nat.mod_lt i hinner) hstride
  rw [Reg.addr_eq_stride h i]
  omega

theorem Reg.addr_ne_of_apart {r q : Reg} (h : r.apart q = true) (i j : Nat) : r.addr i ≠ q.addr j := by
  simp only [Reg.apart, Bool.and_eq_true, Bool.or_eq_true, beq_iff_eq, bne_iff_ne, decide_eq_true_eq] at h
  obtain ⟨⟨⟨⟨⟨⟨hr, hq⟩, hri⟩, hqi⟩, hrs⟩, hqs⟩, (hbefore | hafter) | ⟨hstride, hplace⟩⟩ := h
  · have := (Reg.addr_lt_end hr hri hrs i).2
    have := (Reg.addr_lt_end hq hqi hqs j).1
    omega
  · have := (Reg.addr_lt_end hr hri hrs i).1
    have := (Reg.addr_lt_end hq hqi hqs j).2
    omega
  · intro heq
    refine hplace ?_
    rw [Reg.addr_eq_stride hr, Reg.addr_eq_stride hq, ← hstride] at heq
    simpa using congrArg (· % r.stride) heq

/-- Two fields share no bit at any indices: they lie in rows that are apart, or apart in one row. -/
def Fld.sep (f g : Fld) : Bool :=
  f.reg.apart g.reg || (g.reg == f.reg && f.lo + f.len ≤ 64 && (g.lo + g.len ≤ f.lo || f.lo + f.len ≤ g.lo))

namespace State

@[simp] theorem get_put_sep {s : State} {f g : Fld} {i j v : Nat} (h : f.sep g = true) :
    (s.put f i v).get g j = s.get g j := by
  simp only [Fld.sep, Bool.or_eq_true, Bool.and_eq_true, beq_iff_eq, decide_eq_true_eq] at h
  by_cases hne : f.reg.addr i = g.reg.addr j
  · rcases h with hrow | ⟨⟨hsame, hfit⟩, hbits⟩
    · exact absurd hne (Reg.addr_ne_of_apart hrow i j)
    · rw [hsame] at hne
      simp only [get, put, rd, wr, hsame, ← hne, Tbl.get_set_same, bits_setBits_disj _ _ hfit hbits]
  · exact get_put_reg s f g v hne

@[simp] theorem on_put_sep {s : State} {f g : Fld} {i j v : Nat} (h : f.sep g = true) :
    (s.put f i v).on g j = s.on g j := by rw [on, get_put_sep h, on]

end State
end Sys2Proof.Machine
end

section
/-! A lane's own state: what each update leaves of it, and what each update of it leaves. -/

namespace Sys2Proof

theorem Tbl.set_set {κ α : Type} [DecidableEq κ] (t : Tbl κ α) (k : κ) (v v' : α) : (t.set k v).set k v' = t.set k v' := by
  induction t with
  | nil => simp [Tbl.set]
  | cons e t ih =>
    obtain ⟨k', w⟩ := e
    by_cases h : k' = k <;> simp [Tbl.set, h, ih]

end Sys2Proof

namespace Sys2Proof.Machine
namespace State

@[simp] theorem lane_setLane_same (s : State) (n : Nat) (l : Lane) : (s.setLane n l).lane n = l :=
  Tbl.get_set_same _ _ _ _

theorem lane_setLane_ne (s : State) {n m : Nat} (l : Lane) (h : m ≠ n) : (s.setLane n l).lane m = s.lane m :=
  Tbl.get_set_ne _ _ _ h.symm

@[simp] theorem lane_modLane_same (s : State) (n : Nat) (g : Lane → Lane) : (s.modLane n g).lane n = g (s.lane n) :=
  lane_setLane_same _ _ _

@[simp] theorem lane_put (s : State) (f : Fld) (i v m : Nat) : (s.put f i v).lane m = s.lane m := rfl

@[simp] theorem setLane_setLane (s : State) (n : Nat) (l l' : Lane) : (s.setLane n l).setLane n l' = s.setLane n l' := by
  simp only [setLane, Tbl.set_set]

theorem setLane_modLane (s : State) (n : Nat) (l : Lane) (g : Lane → Lane) :
    (s.setLane n l).modLane n g = s.setLane n (g l) := by
  rw [modLane, setLane_setLane, lane_setLane_same]

@[simp] theorem modLane_modLane (s : State) (n : Nat) (g g' : Lane → Lane) :
    (s.modLane n g).modLane n g' = s.modLane n fun l => g' (g l) := setLane_modLane _ _ _ _

end State

/-- What holds of a lane through each update of a run of updates holds through the run. -/
theorem lane_each {α β : Type} {π : Lane → β} {g : State → α → State} {m : Nat}
    (hg : ∀ s a, π ((g s a).lane m) = π (s.lane m)) (l : List α) (s : State) : π ((s.each l g).lane m) = π (s.lane m) := by
  induction l generalizing s with
  | nil => rfl
  | cons a l ih => exact (ih (g s a)).trans (hg s a)

/-- An update of one lane that keeps a part of it keeps that part of every lane. -/
theorem lane_modLane_keeps {β : Type} {π : Lane → β} {g : Lane → Lane} (hg : ∀ l, π (g l) = π l) (s : State) (n m : Nat) :
    π ((s.modLane n g).lane m) = π (s.lane m) := by
  by_cases h : m = n
  · rw [h, State.lane_modLane_same, hg]
  · rw [State.modLane, State.lane_setLane_ne _ _ h]

end Sys2Proof.Machine
end

section
/-! What the loss of a lock can reach (03 R99, R106, R107, R130): lock bits, their error bits, and the receiver's own state. -/

namespace Sys2Proof.Machine

/-- The fields that the loss of a lock writes. -/
def lockFlds : List Fld :=
  [F.LNE_LANE_STATUS_CDR_LOCK, F.LNE_LANE_STATUS_BLOCK_LOCK, F.LNE_LANE_STATUS_DESKEWED, F.LNE_LANE_ERR_CDR_LOST,
    F.LNE_LANE_ERR_LOCK_LOST, F.LNE_LANE_ERR_DESKEW_ERR, F.LNE_QPLL_STATUS_LOCK, F.LNE_QUAD_ERR_PLL_UNLOCK]

/-- A lane without what the loss of a lock clears. -/
def Lane.held (l : Lane) : Lane := { l with good := 0, window := [], skew := none, delay := 0, rx := {} }

/-- From `s` to `t` only locks, their error bits and the receivers that held them changed. -/
structure LocksOnly (s t : State) : Prop where
  get : ∀ g i, lockFlds.all (·.sep g) = true → t.get g i = s.get g i
  held : ∀ m, (t.lane m).held = (s.lane m).held

namespace LocksOnly
variable {s t u : State}

theorem refl (s : State) : LocksOnly s s := ⟨fun _ _ _ => rfl, fun _ => rfl⟩

theorem on (h : LocksOnly s t) {g : Fld} {i : Nat} (hg : lockFlds.all (·.sep g) = true) : t.on g i = s.on g i := by
  rw [State.on, h.get g i hg, State.on]

theorem put (h : LocksOnly s t) (f : Fld) (i v : Nat) (hf : f ∈ lockFlds) : LocksOnly s (t.put f i v) where
  get g j hg := (State.get_put_sep (List.all_eq_true.mp hg f hf)).trans (h.get g j hg)
  held := h.held

theorem modLane (h : LocksOnly s t) (n : Nat) {g : Lane → Lane} (hg : ∀ l, (g l).held = l.held) :
    LocksOnly s (t.modLane n g) where
  get := h.get
  held m := (lane_modLane_keeps (π := Lane.held) hg t n m).trans (h.held m)

theorem when (h : LocksOnly s t) {c : Bool} {g : State → State} (hg : LocksOnly s (g t)) : LocksOnly s (t.when c g) := by
  cases c
  · exact h
  · exact hg

theorem each {α : Type} {g : State → α → State} (hg : ∀ t a, LocksOnly s t → LocksOnly s (g t a)) (l : List α)
    (h : LocksOnly s t) : LocksOnly s (t.each l g) := by
  induction l generalizing t with
  | nil => exact h
  | cons a l ih => exact ih (hg t a h)

theorem laneUngroup (h : LocksOnly s t) (n : Nat) : LocksOnly s (laneUngroup n t) := by
  have herr : LocksOnly s (t.when (t.on F.LNE_LANE_STATUS_DESKEWED n) (·.raise F.LNE_LANE_ERR_DESKEW_ERR n)) :=
    h.when (h.put F.LNE_LANE_ERR_DESKEW_ERR n 1 (by decide))
  refine herr.each (fun _ m hm => ?_) _
  exact (hm.put F.LNE_LANE_STATUS_DESKEWED m 0 (by decide)).modLane m fun _ => rfl

theorem laneGroupAlign (h : LocksOnly s t) (n : Nat) : LocksOnly s (laneGroupAlign n t) := by
  simp only [Machine.laneGroupAlign]
  split
  · refine h.each (fun _ m hm => ?_) _
    exact (hm.put F.LNE_LANE_STATUS_DESKEWED m 1 (by decide)).modLane m fun _ => rfl
  · exact h

theorem laneUnlock (h : LocksOnly s t) (n : Nat) (err : Bool) : LocksOnly s (laneUnlock n err t) := by
  have hlost : LocksOnly s (t.when err (·.raise F.LNE_LANE_ERR_LOCK_LOST n)) :=
    h.when (h.put F.LNE_LANE_ERR_LOCK_LOST n 1 (by decide))
  simp only [Machine.laneUnlock]
  split
  · exact ((hlost.laneUngroup n).put F.LNE_LANE_STATUS_BLOCK_LOCK n 0 (by decide)).modLane n fun _ => rfl
  · exact h.modLane n fun _ => rfl

theorem laneCdrLoss (h : LocksOnly s t) (n : Nat) : LocksOnly s (laneCdrLoss n t) :=
  ((h.when (h.put F.LNE_LANE_ERR_CDR_LOST n 1 (by decide))).put F.LNE_LANE_STATUS_CDR_LOCK n 0 (by decide)).laneUnlock n true

theorem quadSettle (h : LocksOnly s t) (q : Nat) : LocksOnly s (quadSettle q t) :=
  h.when (((h.put F.LNE_QPLL_STATUS_LOCK q 0 (by decide)).put F.LNE_QUAD_ERR_PLL_UNLOCK q 1 (by decide)).each
    (fun _ n hn => hn.laneCdrLoss n) _)

end LocksOnly
end Sys2Proof.Machine
end

section
/-! The equaliser taps and the partner's requests (03 R119 to R121, R123). -/

namespace Sys2Proof.Machine

/-- A tap asked to hold, or asked nothing known, stays. -/
theorem tapMove_hold {req : Nat} (h : req = 0 ∨ req = 3) (t lo hi other : Nat) : tapMove req t lo hi other = (t, 0) := by
  rw [tapMove, if_neg (by omega), if_neg (by omega)]

/-- A tap's move keeps it within its own limits. -/
theorem tapMove_range {t lo hi : Nat} (req other : Nat) (h : lo ≤ t ∧ t ≤ hi) :
    lo ≤ (tapMove req t lo hi other).1 ∧ (tapMove req t lo hi other).1 ≤ hi := by
  unfold tapMove
  split_ifs <;> dsimp only <;> omega

/-- A tap's move keeps the sum of the taps within 64. -/
theorem tapMove_sum {t lo hi other : Nat} (req : Nat) (h : t + other ≤ 64) : (tapMove req t lo hi other).1 + other ≤ 64 := by
  unfold tapMove
  split_ifs <;> dsimp only <;> omega

/-- A tap's move stays below a bound that the tap is below, where the tap's upper limit is. -/
theorem tapMove_lt {t hi bound : Nat} (req lo other : Nat) (ht : t < bound) (hhi : hi < bound) :
    (tapMove req t lo hi other).1 < bound := by
  unfold tapMove
  split_ifs <;> dsimp only <;> omega

/-- The limits of 03 R119. -/
def TapsInRange (t : Nat × Nat × Nat) : Prop :=
  t.1 ≤ 15 ∧ 24 ≤ t.2.1 ∧ t.2.1 ≤ 64 ∧ t.2.2 ≤ 23 ∧ t.1 + t.2.1 + t.2.2 ≤ 64

theorem presetTaps_inRange {p : Nat} (h : p < 8) : TapsInRange (presetTaps p) := by
  unfold TapsInRange
  revert p; decide

/-- The presets fit the fields of LNE_TAPS. -/
theorem presetTaps_fit {p : Nat} (h : p < 8) :
    (presetTaps p).1 < 2 ^ 4 ∧ (presetTaps p).2.1 < 2 ^ 7 ∧ (presetTaps p).2.2 < 2 ^ 5 := by
  obtain ⟨ha, -, hb, hc, -⟩ := presetTaps_inRange h
  omega

theorem tapsApply_preset {r : Nat} (h : bit r 6 = true) (t : Nat × Nat × Nat) : (tapsApply r t).1 = presetTaps (bits r 7 3) := by
  rw [tapsApply, if_pos h]

/-- Without a preset the taps move in the order c-1, c0, c+1, each under the sum with the others as they then stand. -/
theorem tapsApply_moves {r : Nat} (h : bit r 6 = false) (a b c : Nat) :
    ∃ a' b' c', (tapsApply r (a, b, c)).1 = (a', b', c') ∧ a' = (tapMove (bits r 0 2) a 0 15 (b + c)).1 ∧
      b' = (tapMove (bits r 2 2) b 24 64 (a' + c)).1 ∧ c' = (tapMove (bits r 4 2) c 0 23 (a' + b')).1 := by
  refine ⟨_, _, _, ?_, rfl, rfl, rfl⟩
  rw [tapsApply, h]; rfl

theorem tapsApply_inRange (r : Nat) {t : Nat × Nat × Nat} (h : TapsInRange t) : TapsInRange (tapsApply r t).1 := by
  obtain ⟨a, b, c⟩ := t
  cases hp : bit r 6 with
  | true => rw [tapsApply_preset hp]; exact presetTaps_inRange (Nat.mod_lt _ (by decide))
  | false =>
    obtain ⟨ha, hb, hb', hc, hsum⟩ := h
    dsimp only at ha hb hb' hc hsum
    obtain ⟨a', b', c', heq, rfl, rfl, rfl⟩ := tapsApply_moves hp a b c
    have hsumA := tapMove_sum (lo := 0) (hi := 15) (bits r 0 2) (show a + (b + c) ≤ 64 by omega)
    have hrangeA := tapMove_range (bits r 0 2) (b + c) (show 0 ≤ a ∧ a ≤ 15 by omega)
    generalize (tapMove (bits r 0 2) a 0 15 (b + c)).1 = a' at *
    have hsumB := tapMove_sum (lo := 24) (hi := 64) (bits r 2 2) (show b + (a' + c) ≤ 64 by omega)
    have hrangeB := tapMove_range (bits r 2 2) (a' + c) (show 24 ≤ b ∧ b ≤ 64 by omega)
    generalize (tapMove (bits r 2 2) b 24 64 (a' + c)).1 = b' at *
    have hsumC := tapMove_sum (lo := 0) (hi := 23) (bits r 4 2) (show c + (a' + b') ≤ 64 by omega)
    have hrangeC := tapMove_range (bits r 4 2) (a' + b') (show 0 ≤ c ∧ c ≤ 23 by omega)
    rw [heq]
    exact ⟨hrangeA.2, hrangeB.1, hrangeB.2, hrangeC.2, by dsimp only; omega⟩

/-- Taps that fit their fields move to taps that fit them. -/
theorem tapsApply_fit (r : Nat) {t : Nat × Nat × Nat} (ha : t.1 < 2 ^ 4) (hb : t.2.1 < 2 ^ 7) (hc : t.2.2 < 2 ^ 5) :
    (tapsApply r t).1.1 < 2 ^ 4 ∧ (tapsApply r t).1.2.1 < 2 ^ 7 ∧ (tapsApply r t).1.2.2 < 2 ^ 5 := by
  obtain ⟨a, b, c⟩ := t
  cases hp : bit r 6 with
  | true => rw [tapsApply_preset hp]; exact presetTaps_fit (Nat.mod_lt _ (by decide))
  | false =>
    obtain ⟨a', b', c', heq, rfl, rfl, rfl⟩ := tapsApply_moves hp a b c
    rw [heq]
    exact ⟨tapMove_lt _ _ _ ha (by decide), tapMove_lt _ _ _ hb (by decide), tapMove_lt _ _ _ hc (by decide)⟩

theorem exec_tapRequestApply {s : State} {n : LaneId} {r : BitVec 14} (hreq : (s.lane n).pendingReq = some r)
    (hen : s.on F.LNE_EQ_REMOTE_EN n = true) : exec (.tapRequestApply n) s =
      .next ((s.putTaps n (tapsApply r.toNat (s.taps n)).1).modLane n fun l => { l with
        pendingReq := none, echo := BitVec.ofNat 4 (r.toNat / 2 ^ 10), st := BitVec.ofNat 6 (tapsApply r.toNat (s.taps n)).2 }) := by
  change execTapRequestApply n s = _
  simp only [execTapRequestApply, hreq, hen, if_true]

/-- Settles O13: the limits by the moves' order, a move by its request, the row by its equation. -/
theorem laneTapLimits : Obligations.LaneTapLimits := by
  refine ⟨fun r t h => tapsApply_inRange r h, fun p h => presetTaps_inRange h, fun r t h => tapsApply_preset h t,
    fun req t lo hi other => ⟨fun h => tapMove_hold h t lo hi other, ?_, ?_, ?_, ?_⟩, fun s n r => exec_tapRequestApply⟩
  · rintro rfl hhi hsum
    rw [tapMove, if_pos rfl, if_pos ⟨hhi, hsum⟩]
  · rintro rfl hbreak
    rw [tapMove, if_pos rfl, if_neg (by omega)]
  · rintro rfl hlo
    rw [tapMove, if_neg (by decide), if_pos rfl, if_pos (show lo < t from hlo)]
  · rintro rfl hlo
    rw [tapMove, if_neg (by decide), if_pos rfl, if_neg (by omega)]

end Sys2Proof.Machine
end

section
/-! The self-synchronous scrambler and its inverse (03 R101). -/

namespace Sys2Proof.Machine

/-- The history with one more bit. -/
def histPush (h : BitVec 58) (b : Bool) : BitVec 58 := (h <<< 1) ||| (BitVec.ofBool b).setWidth 58

/-- The history after `k` bits, where the bit that the history takes at place `k` is `taken` of the history and `k`. -/
def histAt (taken : BitVec 58 → Nat → Bool) (h : BitVec 58) : Nat → BitVec 58
  | 0 => h
  | k + 1 => histPush (histAt taken h k) (taken (histAt taken h k) k)

/-- A pass over `m` bits that gives the bits `out` and has the history take the bits `taken`. -/
def histPass (out taken : BitVec 58 → Nat → Bool) (h : BitVec 58) (m : Nat) : W64 × BitVec 58 :=
  (List.range m).foldl (fun x k => (if out x.2 k then x.1 ||| (1#64 <<< k) else x.1, histPush x.2 (taken x.2 k))) (0, h)

/-- Bit `k` of a word with the feedback of the history. -/
def fedBit (d : W64) (h : BitVec 58) (k : Nat) : Bool := d.getLsbD k ^^ h.getLsbD 38 ^^ h.getLsbD 57

theorem descramble_eq_histPass (h : BitVec 58) (d : W64) :
    descramble h d = histPass (fedBit d) (fun _ k => d.getLsbD k) h 64 := rfl

theorem scramble_eq_histPass (h : BitVec 58) (d : W64) : scramble h d = histPass (fedBit d) (fedBit d) h 64 := rfl

theorem histPass_succ (out taken : BitVec 58 → Nat → Bool) (h : BitVec 58) (m : Nat) : histPass out taken h (m + 1) =
    (if out (histPass out taken h m).2 m then (histPass out taken h m).1 ||| (1#64 <<< m) else (histPass out taken h m).1,
      histPush (histPass out taken h m).2 (taken (histPass out taken h m).2 m)) := by
  rw [histPass, List.range_succ, List.foldl_append]; rfl

theorem histPass_history (out taken : BitVec 58 → Nat → Bool) (h : BitVec 58) (m : Nat) :
    (histPass out taken h m).2 = histAt taken h m := by
  induction m with
  | zero => rfl
  | succ m ih => rw [histPass_succ, ih, histAt]

/-- A bit out is made of the history as it stands at the bit's place. -/
theorem histPass_getLsbD (out taken : BitVec 58 → Nat → Bool) (h : BitVec 58) (m j : Nat) (hj : j < 64) :
    (histPass out taken h m).1.getLsbD j = (decide (j < m) && out (histAt taken h j) j) := by
  induction m with
  | zero => simp [histPass]
  | succ m ih =>
    have hbit : (1#64 <<< m).getLsbD j = decide (j = m) := by
      simp only [BitVec.getLsbD_shiftLeft, BitVec.getLsbD_one, hj, decide_true, Bool.true_and]
      by_cases hjm : j = m <;> simp [hjm]
      omega
    rw [histPass_succ, histPass_history]
    by_cases hjm : j = m
    · subst hjm
      split <;> simp_all
    · have hle : decide (j ≤ m) = decide (j < m) := decide_eq_decide.mpr (by omega)
      split <;> simp [ih, hle, hbit, hjm]

theorem histPush_getLsbD (h : BitVec 58) (b : Bool) (j : Nat) (hj : j < 58) :
    (histPush h b).getLsbD j = if j = 0 then b else h.getLsbD (j - 1) := by
  by_cases h0 : j = 0
  · subst h0; simp [histPush]
  · rw [histPush, BitVec.getLsbD_or, BitVec.getLsbD_shiftLeft, if_neg h0]
    simp [hj, h0]

/-- A history that takes the bits of a word holds, after `m` of them, the last of them, and before them the history it began with. -/
theorem histAt_getLsbD (c : W64) (h : BitVec 58) (m j : Nat) (hj : j < 58) :
    (histAt (fun _ k => c.getLsbD k) h m).getLsbD j = if j < m then c.getLsbD (m - 1 - j) else h.getLsbD (j - m) := by
  induction m generalizing j with
  | zero => rfl
  | succ m ih =>
    rw [histAt, histPush_getLsbD _ _ _ hj]
    split_ifs with h0 hlt hlt
    · subst h0; rfl
    · omega
    · rw [ih _ (by omega), if_pos (by omega)]
      congr 1; omega
    · rw [ih _ (by omega), if_neg (by omega)]
      congr 1; omega

/-- Two histories that take the same bits at every place agree. -/
theorem histAt_congr {taken taken' : BitVec 58 → Nat → Bool} {h : BitVec 58} {m : Nat}
    (heq : ∀ k < m, taken (histAt taken' h k) k = taken' (histAt taken' h k) k) : histAt taken h m = histAt taken' h m := by
  induction m with
  | zero => rfl
  | succ m ih => rw [histAt, histAt, ih fun k hk => heq k (by omega), heq m (by omega)]

/-- The bits that the scrambler sends are those its history takes. -/
theorem scramble_getLsbD (h : BitVec 58) (d : W64) (k : Nat) (hk : k < 64) :
    (scramble h d).1.getLsbD k = fedBit d (histAt (fedBit d) h k) k := by
  rw [scramble_eq_histPass, histPass_getLsbD _ _ _ _ _ hk, decide_eq_true hk, Bool.true_and]

/-- A bit sent, with the feedback that it was sent with, is the plain bit. -/
theorem fedBit_cancel {c d : W64} {x : BitVec 58} {k : Nat} (h : c.getLsbD k = fedBit d x k) : fedBit c x k = d.getLsbD k := by
  have hcancel : ∀ a b c : Bool, ((a ^^ b ^^ c) ^^ b ^^ c) = a := by decide
  rw [fedBit, h, fedBit, hcancel]

/-- The descrambler undoes the scrambler: its history takes the bits the scrambler's took, so each feedback cancels. -/
theorem descramble_scramble (h : BitVec 58) (d : W64) : descramble h (scramble h d).1 = (d, (scramble h d).2) := by
  have hhist : ∀ m ≤ 64, histAt (fun _ k => (scramble h d).1.getLsbD k) h m = histAt (fedBit d) h m :=
    fun m hm => histAt_congr fun k hk => scramble_getLsbD h d k (by omega)
  refine Prod.ext (BitVec.eq_of_getLsbD_eq fun k hk => ?_) ?_
  · rw [descramble_eq_histPass, histPass_getLsbD _ _ _ _ _ hk, hhist k hk.le, fedBit_cancel (scramble_getLsbD h d k hk),
      decide_eq_true hk, Bool.true_and]
  · rw [descramble_eq_histPass, histPass_history, hhist 64 le_rfl, scramble_eq_histPass, histPass_history]

/-- After a whole word the descrambler's history is of that word alone. -/
theorem descramble_history_eq (h h' : BitVec 58) (d : W64) : (descramble h d).2 = (descramble h' d).2 := by
  refine BitVec.eq_of_getLsbD_eq fun j hj => ?_
  have hlt : j < 64 := by omega
  rw [descramble_eq_histPass, descramble_eq_histPass, histPass_history, histPass_history, histAt_getLsbD _ _ _ _ hj,
    histAt_getLsbD _ _ _ _ hj, if_pos hlt, if_pos hlt]

end Sys2Proof.Machine
end

section
/-! What a receiving lane does with one word (03 R104 to R110, R116, R117, R129, R144). -/

namespace Sys2Proof.Machine

/-! The bay port's side of the deskew buffer. -/

/-- The lane after one more word of its deskew buffer, where `v` says whether a word is shown to the port as valid. -/
def laneTake (w : LaneWord) (v : Bool) (l : Lane) : Lane :=
  let o := ((w :: l.hist).take 32).getD l.delay {}
  { l with hist := (w :: l.hist).take 32, rx := { o with valid := o.valid && v } }

/-- The lock that the lane's mode asks for. -/
def State.wordLock (s : State) (n : Nat) : Bool :=
  if s.get F.LNE_LANE_CTRL_PCS n = 0 then s.on F.LNE_LANE_STATUS_CDR_LOCK n || s.get F.LNE_LANE_CTRL_LOOPBACK n == 2
  else s.on F.LNE_LANE_STATUS_BLOCK_LOCK n

/-- The lane is aligned, or in no group. -/
def State.grouped (s : State) (n : Nat) : Bool := (s.group n).isEmpty || s.on F.LNE_LANE_STATUS_DESKEWED n

/-- What the port asks of a lane to take its words as valid. -/
def State.portOpen (s : State) (n : Nat) : Bool :=
  s.wordLock n && s.grouped n && s.get F.LNE_PRBS_CHK n == 0 && s.on F.LNE_XBAR_EN n

theorem lanePresent_eq (n : Nat) (w : LaneWord) (s : State) : lanePresent n w s = s.modLane n (laneTake w (s.portOpen n)) := by
  simp only [lanePresent, State.portOpen, State.wordLock, State.grouped, Bool.and_assoc]
  rfl

theorem lanePresent_setLane (n : Nat) (w : LaneWord) (s : State) (l : Lane) :
    lanePresent n w (s.setLane n l) = s.setLane n (laneTake w (s.portOpen n) l) := by
  rw [lanePresent_eq, State.setLane_modLane]; rfl

theorem portOpen_of_lock {s : State} {n : Nat} (hlock : s.wordLock n = true) (hchk : s.get F.LNE_PRBS_CHK n = 0) :
    s.portOpen n = (s.grouped n && s.on F.LNE_XBAR_EN n) := by
  simp [State.portOpen, hlock, hchk]

theorem wordLock_of_receiving {s : State} {n : Nat} (hrec : s.receiving n = true) (hpcs : s.get F.LNE_LANE_CTRL_PCS n = 0) :
    s.wordLock n = true := by
  simp only [State.receiving, Bool.and_eq_true] at hrec
  rw [State.wordLock, if_pos hpcs, hrec.2]

theorem wordLock_of_blockLock {s : State} {n : Nat} (hpcs : s.get F.LNE_LANE_CTRL_PCS n ≠ 0)
    (hlock : s.on F.LNE_LANE_STATUS_BLOCK_LOCK n = true) : s.wordLock n = true := by
  rw [State.wordLock, if_neg hpcs, hlock]

/-! Words from the pins. -/

theorem exec_laneWordReceived {s : State} {n : LaneId} {rx w : LaneRx} (hrec : s.receiving n = true)
    (hw : s.received n rx = some w) :
    exec (.laneWordReceived n rx) s = .next (laneWord n w (s.modLane n fun l => { l with line := some w })) := by
  change Host.Outcome.next (laneReceive n rx s) = _
  rw [laneReceive, hrec, hw]; rfl

theorem received_noLoopback {s : State} {n : Nat} (h : s.get F.LNE_LANE_CTRL_LOOPBACK n = 0) (rx : LaneRx) :
    s.received n rx = some (if s.on F.LNE_LANE_CTRL_RX_INV n then ⟨~~~rx.hdr, ~~~rx.data⟩ else rx) := by
  simp only [State.received, h, lineFlip]

section
variable {s : State} {n : Nat}

theorem laneWord_raw (hchk : s.get F.LNE_PRBS_CHK n = 0) (hpcs : s.get F.LNE_LANE_CTRL_PCS n = 0) (w : LaneRx) (l : Lane) :
    laneWord n w (s.setLane n l) = s.setLane n (laneTake ⟨true, 0, w.data⟩ (s.portOpen n) l) := by
  simp only [laneWord, State.setLane_get, hchk, hpcs]
  exact lanePresent_setLane n _ s l

theorem laneWord_block (hchk : s.get F.LNE_PRBS_CHK n = 0) (hpcs : s.get F.LNE_LANE_CTRL_PCS n = 2) (w : LaneRx) (l : Lane) :
    laneWord n w (s.setLane n l) = laneBlock n w.hdr
      (if s.on F.LNE_LANE_CTRL_SCRAMBLE n then (descramble l.descr w.data).1 else w.data) 0 0 0
      (s.setLane n { l with descr := (descramble l.descr w.data).2 }) := by
  simp only [laneWord, State.setLane_get, State.setLane_on, State.lane_setLane_same, State.setLane_modLane, hchk, hpcs]
  rfl

/-! Blocks under block lock. -/

/-- A good header under block lock, in a window that stays good, only enters the window (03 R106). -/
theorem laneHeader_good {l : Lane} (hlock : s.on F.LNE_LANE_STATUS_BLOCK_LOCK n = true)
    (hwin : ((false :: l.window).take 64).count true < 16) :
    laneHeader n false (s.setLane n l) = s.setLane n { l with window := (false :: l.window).take 64 } := by
  have hkeep : decide (16 ≤ ((false :: l.window).take 64).count true) = false := decide_eq_false (by omega)
  simp only [laneHeader, laneWindow, State.setLane_on, State.lane_setLane_same, hlock, if_true, hkeep]
  exact State.setLane_setLane s n l _

theorem laneBlock_data {l : Lane} (hlock : s.on F.LNE_LANE_STATUS_BLOCK_LOCK n = true)
    (hwin : ((false :: l.window).take 64).count true < 16) (p : W64) (skew : Nat) (eye : Byte) (req : BitVec 10) :
    laneBlock n 0b01 p skew eye req (s.setLane n l) =
      s.setLane n (laneTake ⟨true, 0, p⟩ (s.portOpen n) { l with window := (false :: l.window).take 64 }) := by
  have hhead := laneHeader_good hlock hwin
  simp [laneBlock, hhead, hlock, laneDeliver, lanePresent_setLane]

/-- A training block's word time brings no word. -/
theorem laneBlock_training {l : Lane} (hlock : s.on F.LNE_LANE_STATUS_BLOCK_LOCK n = true)
    (hwin : ((false :: l.window).take 64).count true < 16) {p : W64} (hp : p.toNat % 256 = 0xA5) (skew : Nat) (eye : Byte)
    (req : BitVec 10) : laneBlock n 0b10 p skew eye req (s.setLane n l) = lanePresent n {} (laneTrainingBlock n p eye req
      (s.setLane n { l with window := (false :: l.window).take 64 })) := by
  have hhead := laneHeader_good hlock hwin
  simp [laneBlock, hhead, hlock, hp, laneSkip]

end

/-- The lane takes words of PCS mode `pcs` from its pins, outside PRBS checking, under a block lock that one more good word keeps. -/
structure LockedPins (s : State) (n : LaneId) (pcs : Nat) : Prop where
  receives : s.receiving n = true
  pins : s.fromPins n = true
  noCheck : s.get F.LNE_PRBS_CHK n = 0
  mode : s.get F.LNE_LANE_CTRL_PCS n = pcs
  lock : s.on F.LNE_LANE_STATUS_BLOCK_LOCK n = true
  window : ((false :: (s.lane n).window).take 64).count true < 16

/-! Training blocks (03 R117, R123, R124). -/

/-- The lane without what a training measurement sets. -/
def Lane.unmeasured (l : Lane) : Lane :=
  { l with bestEye := 0, stale := 0, echoWaited := false, ended := false, seq := 0, req := 0, made := 0 }

theorem laneMeasure_unmeasured (s : State) (n eye : Nat) (req : BitVec 10) (l : Lane) :
    (laneMeasure s n eye req l).unmeasured = l.unmeasured := by
  simp only [laneMeasure]
  split_ifs <;> rfl

/-- The lane that has heard the partner's training block `p`. -/
def laneHears (remote : Bool) (p : W64) (l : Lane) : Lane :=
  { l with
    partnerSeq := some (BitVec.ofNat 4 (p.toNat / 2 ^ 18)), heard := true, respWaited := false
    pendingReq := if l.partnerSeq != some (BitVec.ofNat 4 (p.toNat / 2 ^ 18)) && remote then some (reqOf p) else l.pendingReq }

theorem laneTrainingBlock_good {p : W64} (hcheck : ctlCheck p = BitVec.ofNat 8 (p.toNat / 2 ^ 56)) (hres : bits p.toNat 34 22 = 0)
    (s : State) (n : Nat) (eye : Byte) (req : BitVec 10) :
    ∃ l, laneTrainingBlock n p eye req s = (s.put F.LNE_LANE_STATUS_PARTNER_READY n (bits p.toNat 33 1)).setLane n l ∧
      l.unmeasured = (laneHears (s.on F.LNE_EQ_REMOTE_EN n) p (s.lane n)).unmeasured := by
  refine ⟨_, by rw [laneTrainingBlock, if_neg (by simp [hcheck, hres])], ?_⟩
  split
  · exact laneMeasure_unmeasured s n _ _ _
  · rfl

theorem laneTrainingBlock_bad {p : W64} (h : ctlCheck p ≠ BitVec.ofNat 8 (p.toNat / 2 ^ 56) ∨ bits p.toNat 34 22 ≠ 0)
    (s : State) (n : Nat) (eye : Byte) (req : BitVec 10) :
    laneTrainingBlock n p eye req s = s.put F.LNE_LANE_ERR_CTL_CHECK n 1 := by
  rw [laneTrainingBlock, if_pos h]; rfl

/-- The lane after the header of a control block under block lock, with the history `h` in its descrambler. -/
def laneHeaded (h : BitVec 58) (l : Lane) : Lane := { l with descr := h, window := (false :: l.window).take 64 }

theorem laneDescr_eq (n : Nat) (p : W64) (s : State) :
    ∃ h, laneDescr n p s = s.setLane n { s.lane n with descr := h } := ⟨_, rfl⟩

/-- A training block's payload: its body after the type byte. -/
def trainingPayload (body : BitVec 56) : W64 := BitVec.ofNat 64 (body.toNat * 256 + 0xA5)

theorem trainingPayload_type (body : BitVec 56) : (trainingPayload body).toNat % 256 = 0xA5 := by
  rw [trainingPayload, BitVec.toNat_ofNat]
  omega

theorem exec_trainingBlockReceived {s : State} {n : LaneId} (hlane : LockedPins s n 2) (body : BitVec 56)
    (eye : Byte) (req : BitVec 10) :
    ∃ h, exec (.trainingBlockReceived n body eye req) s = .next (lanePresent n {} (laneTrainingBlock n (trainingPayload body) eye
      req (s.setLane n (laneHeaded h (s.lane n))))) := by
  obtain ⟨hrec, hpins, hchk, hpcs, hlock, hwin⟩ := hlane
  obtain ⟨h, hdescr⟩ := laneDescr_eq n (trainingPayload body) s
  refine ⟨h, ?_⟩
  change Host.Outcome.next (if _ then laneBlock n 0b10 (trainingPayload body) 0 eye req (laneDescr n (trainingPayload body) s)
    else s) = _
  rw [if_pos (by simp [hrec, hpins, hchk, hpcs]), hdescr]
  exact congrArg Host.Outcome.next (laneBlock_training (l := { s.lane n with descr := h }) hlock hwin
    (trainingPayload_type body) 0 eye req)

end Sys2Proof.Machine
end

section
/-! Alignment markers in 8b/10b mode (03 R129). -/

namespace Sys2Proof.Machine

theorem laneGroupAlign_skew (n : Nat) (s : State) (m : Nat) : ((laneGroupAlign n s).lane m).skew = (s.lane m).skew := by
  simp only [laneGroupAlign]
  split
  · refine lane_each (π := Lane.skew) (fun t k => ?_) _ s
    exact lane_modLane_keeps (π := Lane.skew) (by intro l; rfl) (t.raise F.LNE_LANE_STATUS_DESKEWED k) k m
  · rfl

/-- A marker that reaches a lane that is not aligned gives it its skew, and may complete the group. -/
theorem laneMarker_unaligned {s : State} {n : Nat} (h : s.on F.LNE_LANE_STATUS_DESKEWED n = false) (skew : Nat) :
    laneMarker n skew s = laneGroupAlign n (s.setLane n { s.lane n with skew := some skew }) := by
  simp only [laneMarker, h, Bool.false_and, Bool.false_eq_true, if_false]
  cases (s.lane n).skew <;> rfl

theorem LocksOnly.laneMarker {s t : State} (h : LocksOnly s t) (n skew : Nat) : LocksOnly s (laneMarker n skew t) := by
  have hset : LocksOnly s (t.setLane n { t.lane n with skew := some skew }) :=
    h.modLane n (g := fun l => { l with skew := some skew }) fun _ => rfl
  simp only [Machine.laneMarker]
  split_ifs
  · exact h.laneUngroup n
  · exact h
  · exact hset.laneGroupAlign n

/-- The state in which the marker of an 8b/10b word is looked at. -/
def markerSeen (n : Nat) (rd : Bool) (s : State) : State :=
  (s.bumpHold F.LNE_BLOCK_ERRS_COUNT n 0).modLane n fun l =>
    { l with rxRd := rd, window := (false :: (s.lane n).window).take 64 }

/-- A locked receiver's symbols without errors, in a window that stays good, are delivered after what a marker among them does. -/
theorem laneSymbols_marker {s : State} {n : Nat} (hlock : s.on F.LNE_LANE_STATUS_BLOCK_LOCK n = true)
    (hwin : ((false :: (s.lane n).window).take 64).count true < 16) {w : Word8b} (herrs : w.errs = 0)
    (hmark : w.k.getLsbD 0 = true ∧ bits w.data.toNat 0 8 = 0x7C) (skew : Nat) :
    laneSymbols n w false skew s = lanePresent n ⟨true, w.k, w.data.setWidth 64⟩ (laneMarker n skew
      (markerSeen n w.rd s)) := by
  have hkeep : decide (16 ≤ ((false :: (s.lane n).window).take 64).count true) = false := decide_eq_false (by omega)
  have hany : ((List.range 4).any fun k => w.k.getLsbD k && bits w.data.toNat (8 * k) 8 == 0x7C) = true :=
    List.any_eq_true.mpr ⟨0, by decide, by simp [hmark.1, hmark.2]⟩
  have hstill : (s.bumpHold F.LNE_BLOCK_ERRS_COUNT n 0).on F.LNE_LANE_STATUS_BLOCK_LOCK n = true := by
    rw [State.bumpHold, State.on_put_sep (by decide), hlock]
  simp only [laneSymbols, laneWindow, hlock, if_true, herrs, bne_self_eq_false, hkeep, Bool.false_eq_true, if_false,
    State.modLane_modLane, State.modLane_on, hstill, hany, Bool.and_self, State.when]
  rfl

/-- K28.3 in byte 0, then three bytes of data. -/
def markerWord (body : BitVec 56) : W64 := BitVec.ofNat 64 (body.toNat % 2 ^ 24 * 256 + 0x7C)

theorem exec_alignmentMarkerReceived {s : State} {n : LaneId} (hlane : LockedPins s n 1) (body : BitVec 56)
    (skew : Byte) : ∃ rd, exec (.alignmentMarkerReceived n body skew) s =
      .next (lanePresent n ⟨true, 1, markerWord body⟩ (laneMarker n skew.toNat (markerSeen n rd s))) := by
  obtain ⟨hrec, hpins, hchk, hpcs, hlock, hwin⟩ := hlane
  have hdata : (BitVec.ofNat 32 (body.toNat % 2 ^ 24 * 256 + 0x7C)).toNat = body.toNat % 2 ^ 24 * 256 + 0x7C := by
    rw [BitVec.toNat_ofNat]; omega
  have hword : (BitVec.ofNat 32 (body.toNat % 2 ^ 24 * 256 + 0x7C)).setWidth 64 = markerWord body := by
    rw [← BitVec.ofNat_toNat, hdata, markerWord]
  have hmark : bits (BitVec.ofNat 32 (body.toNat % 2 ^ 24 * 256 + 0x7C)).toNat 0 8 = 0x7C := by rw [hdata, bits]; omega
  have hkey : (1 : BitVec 4).getLsbD 0 = true := by decide
  refine ⟨(encodeWord8b (s.lane n).rxRd (body.toNat % 2 ^ 24 * 256 + 0x7C) 1).2, ?_⟩
  change Host.Outcome.next (if _ then s else if _ then _ else if _ then _ else s) = _
  rw [if_neg (by simp [hrec, hpins, hchk]), if_neg (by omega), if_pos ⟨hpcs, hlock⟩, ← hword]
  exact congrArg Host.Outcome.next (laneSymbols_marker (w := ⟨BitVec.ofNat 32 (body.toNat % 2 ^ 24 * 256 + 0x7C), 1, 0, 0, _⟩)
    hlock hwin rfl ⟨hkey, hmark⟩ skew.toNat)

theorem completes_alignmentMarkerReceived {s : State} {n : LaneId} (hlane : LockedPins s n 1) (body : BitVec 56)
    (skew : Byte) : Completes (.alignmentMarkerReceived n body skew) s fun t =>
      (t.lane n).hist = (⟨true, 1, markerWord body⟩ :: (s.lane n).hist).take 32 ∧
      (s.on F.LNE_LANE_STATUS_DESKEWED n = false → (t.lane n).skew = some skew.toNat) := by
  obtain ⟨rd, hexec⟩ := exec_alignmentMarkerReceived hlane body skew
  have hhist : ((laneMarker n skew.toNat (markerSeen n rd s)).lane n).hist = (s.lane n).hist := by
    have hseen : ((markerSeen n rd s).lane n).hist = (s.lane n).hist := by rw [markerSeen, State.lane_modLane_same]; rfl
    exact (congrArg Lane.hist (((LocksOnly.refl _).laneMarker n skew.toNat).held n)).trans hseen
  refine ⟨_, hexec, ?_, fun hfree => ?_⟩
  · rw [lanePresent_eq, State.lane_modLane_same, laneTake, hhist]
  · have hseen : (markerSeen n rd s).on F.LNE_LANE_STATUS_DESKEWED n = false := by
      rw [markerSeen, State.modLane_on, State.bumpHold, State.on_put_sep (by decide), hfree]
    rw [lanePresent_eq, State.lane_modLane_same, laneTake, laneMarker_unaligned hseen, laneGroupAlign_skew,
      State.lane_setLane_same]

end Sys2Proof.Machine
end

section
/-! What a lane sends at one word time (03 R101, R105, R109, R110, R118, R151). -/

namespace Sys2Proof.Machine

theorem exec_laneWordTransmit_quiet {s : State} {n : LaneId} (h : s.driving n = false) (port : PortWord) (it : Bool) :
    exec (.laneWordTransmit n port it) s =
      .next (s.setLane n { s.lane n with tx := none, pcs := none, ready := s.domOn (laneDom n) }) := by
  change Host.Outcome.next (laneTransmit n port it s) = _
  rw [laneTransmit, h]; rfl

/-- The lane that has sent the PCS's output `o`, with READY `rdy` and `k` blocks since a training block. -/
def laneSent (inv : Bool) (o : LaneRx) (rdy : Bool) (k : Nat) (l : Lane) : Lane :=
  { l with pcs := some o, ready := rdy, since := k, tx := some (lineFlip inv o) }

/-- The lane drives its line with the port's words in PCS mode `pcs`: neither its generator nor far-end loopback has the line. -/
structure SendsPort (s : State) (n : LaneId) (pcs : Nat) : Prop where
  drives : s.driving n = true
  noGen : s.get F.LNE_PRBS_GEN n = 0
  noLoop : s.get F.LNE_LANE_CTRL_LOOPBACK n ≠ 3
  mode : s.get F.LNE_LANE_CTRL_PCS n = pcs

/-- The payload's own path: the word chosen passes the PCS, outside the generator and far-end loopback. -/
theorem exec_laneWordTransmit_pcs {s : State} {n : LaneId} {pcs : Nat} (hlane : SendsPort s n pcs) {port : PortWord} {it : Bool}
    {w : LaneWord} {rdy : Bool} {k : Nat} {o : LaneRx} {l : Lane}
    (hchoose : laneChoose s n port it = (w, rdy, k)) (hencode : pcsEncode s n w = (o, l))
    (hgood : pcs ≠ 1 ∨ kGood w.data.toNat w.ctl = true) :
    exec (.laneWordTransmit n port it) s = .next (s.setLane n (laneSent (s.on F.LNE_LANE_CTRL_TX_INV n) o rdy k l)) := by
  obtain ⟨hdrive, hgen, hloop, rfl⟩ := hlane
  have hnot : ¬ (s.get F.LNE_LANE_CTRL_PCS n = 1 ∧ (!kGood w.data.toNat w.ctl) = true) := by
    rintro ⟨hpcs, hbad⟩
    rcases hgood with h | h
    · exact h hpcs
    · simp [h] at hbad
  change Host.Outcome.next (laneTransmit n port it s) = _
  simp only [laneTransmit, hdrive, hgen, hloop, hchoose, hencode, if_neg hnot]
  rfl

/-! The word chosen. -/

section
variable {s : State} {n : Nat} {port : PortWord} {it : Bool}

/-- A training block goes when one is due, and where the interval lets one take the place of an idle block (03 R118). -/
theorem laneChoose_training (hpcs : s.get F.LNE_LANE_CTRL_PCS n = 2)
    (h : max 1 (s.get F.LNE_EQ_INTERVAL n) ≤ (s.lane n).since ∨ ((port.valid && s.openBay n) = false ∧ it = true)) :
    laneChoose s n port it = (⟨false, 1, trainingBlock s n⟩,
      !decide (max 1 (s.get F.LNE_EQ_INTERVAL n) ≤ (s.lane n).since), 0) := by
  by_cases hdue : max 1 (s.get F.LNE_EQ_INTERVAL n) ≤ (s.lane n).since
  · simp only [laneChoose, hpcs, hdue, beq_self_eq_true, Bool.true_and, Bool.true_or, decide_true, if_true]
  · obtain ⟨hnone, hit⟩ := h.resolve_left hdue
    simp only [laneChoose, hpcs, hdue, hnone, hit, beq_self_eq_true, Bool.and_true, Bool.not_false, Bool.or_true, if_true]
    rfl

theorem laneChoose_port (hport : (port.valid && s.openBay n) = true)
    (h : s.get F.LNE_LANE_CTRL_PCS n ≠ 2 ∨ ¬ max 1 (s.get F.LNE_EQ_INTERVAL n) ≤ (s.lane n).since) :
    laneChoose s n port it = (⟨true, port.ctl, port.data⟩, true, (s.lane n).since + 1) := by
  have hdue : (s.get F.LNE_LANE_CTRL_PCS n == 2 && decide (max 1 (s.get F.LNE_EQ_INTERVAL n) ≤ (s.lane n).since)) = false := by
    rcases h with h | h <;> simp [h]
  simp only [laneChoose, hdue, hport, Bool.not_true, Bool.and_false, Bool.false_and, Bool.or_self, Bool.false_eq_true, if_false,
    if_true]

theorem laneChoose_idle (hport : (port.valid && s.openBay n) = false)
    (h : s.get F.LNE_LANE_CTRL_PCS n ≠ 2 ∨ (¬ max 1 (s.get F.LNE_EQ_INTERVAL n) ≤ (s.lane n).since ∧ it = false)) :
    laneChoose s n port it =
      (idleWord (s.get F.LNE_LANE_CTRL_PCS n) (s.lane n).txRd, true, (s.lane n).since + 1) := by
  have hnone : ((s.get F.LNE_LANE_CTRL_PCS n == 2 && decide (max 1 (s.get F.LNE_EQ_INTERVAL n) ≤ (s.lane n).since)) ||
      (s.get F.LNE_LANE_CTRL_PCS n == 2 && !(port.valid && s.openBay n) && it)) = false := by
    rcases h with h | ⟨hdue, hit⟩
    · simp [h]
    · simp [hdue, hit]
  simp only [hport] at hnone
  simp only [laneChoose, hnone, hport, Bool.false_eq_true, if_false]

theorem idleWord_block (rd : Bool) : idleWord 2 rd = ⟨false, 1, 0x1E⟩ := rfl

/-! The PCS's output. -/

theorem pcsEncode_raw (hpcs : s.get F.LNE_LANE_CTRL_PCS n = 0) (w : LaneWord) : pcsEncode s n w = (⟨0, w.data⟩, s.lane n) := by
  simp only [pcsEncode, hpcs]

theorem pcsEncode_8b (hpcs : s.get F.LNE_LANE_CTRL_PCS n = 1) {w : LaneWord} (hgood : kGood w.data.toNat w.ctl = true) :
    pcsEncode s n w = (⟨0, BitVec.ofNat 64 (encodeWord8b (s.lane n).txRd w.data.toNat w.ctl).1⟩,
      { s.lane n with txRd := (encodeWord8b (s.lane n).txRd w.data.toNat w.ctl).2 }) := by
  simp only [pcsEncode, hpcs, hgood, if_true]

theorem pcsEncode_block (hpcs : s.get F.LNE_LANE_CTRL_PCS n = 2) (w : LaneWord) :
    pcsEncode s n w = (⟨if w.ctl.getLsbD 0 then 0b10 else 0b01,
        if s.on F.LNE_LANE_CTRL_SCRAMBLE n then (scramble (s.lane n).scr w.data).1 else w.data⟩,
      { s.lane n with scr := (scramble (s.lane n).scr w.data).2 }) := by
  simp only [pcsEncode, hpcs]

end

end Sys2Proof.Machine
end

section
/-! Words of a lane, put together (03 R101 to R118, R144). -/

namespace Sys2Proof.Machine

section
variable {s : State} {n : LaneId}

/-! Received. -/

theorem laneTake_and (w : LaneWord) (g x : Bool) (l : Lane) : laneTake w (g && x) l =
    let o := ((w :: l.hist).take 32).getD l.delay {}
    { l with hist := (w :: l.hist).take 32, rx := { o with valid := o.valid && g && x } } := by
  simp only [laneTake, Bool.and_assoc]

theorem exec_laneWordReceived_raw {rx w : LaneRx} (hrec : s.receiving n = true) (hchk : s.get F.LNE_PRBS_CHK n = 0)
    (hw : s.received n rx = some w) (hpcs : s.get F.LNE_LANE_CTRL_PCS n = 0) : exec (.laneWordReceived n rx) s =
      .next (s.setLane n (laneTake ⟨true, 0, w.data⟩ (s.grouped n && s.on F.LNE_XBAR_EN n)
        { s.lane n with line := some w })) := by
  rw [exec_laneWordReceived hrec hw, State.modLane, laneWord_raw hchk hpcs, portOpen_of_lock (wordLock_of_receiving hrec hpcs) hchk]

theorem exec_laneWordReceived_block {rx w : LaneRx} (hrec : s.receiving n = true) (hchk : s.get F.LNE_PRBS_CHK n = 0)
    (hw : s.received n rx = some w) (hpcs : s.get F.LNE_LANE_CTRL_PCS n = 2) (hlock : s.on F.LNE_LANE_STATUS_BLOCK_LOCK n = true)
    (hwin : ((false :: (s.lane n).window).take 64).count true < 16) (hhdr : w.hdr = 0b01) :
    exec (.laneWordReceived n rx) s = .next (s.setLane n (laneTake
      ⟨true, 0, if s.on F.LNE_LANE_CTRL_SCRAMBLE n then (descramble (s.lane n).descr w.data).1 else w.data⟩
      (s.grouped n && s.on F.LNE_XBAR_EN n)
      (laneHeaded (descramble (s.lane n).descr w.data).2 { s.lane n with line := some w }))) := by
  have hblock := laneBlock_data (l := { s.lane n with line := some w, descr := (descramble (s.lane n).descr w.data).2 }) hlock hwin
  rw [portOpen_of_lock (wordLock_of_blockLock (by omega) hlock) hchk] at hblock
  rw [exec_laneWordReceived hrec hw, State.modLane, laneWord_block hchk hpcs, hhdr]
  exact congrArg Host.Outcome.next (hblock _ 0 0 0)

theorem completes_trainingBlock_good (hlane : LockedPins s n 2) {body : BitVec 56} (eye : Byte) (req : BitVec 10) {p : W64}
    (hp : trainingPayload body = p) (hcheck : ctlCheck p = BitVec.ofNat 8 (p.toNat / 2 ^ 56)) (hres : bits p.toNat 34 22 = 0) :
    Completes (.trainingBlockReceived n body eye req) s fun t =>
      t.get F.LNE_LANE_STATUS_PARTNER_READY n = bits p.toNat 33 1 ∧
      (t.lane n).partnerSeq = some (BitVec.ofNat 4 (p.toNat / 2 ^ 18)) ∧ (t.lane n).heard = true ∧
      (t.lane n).hist = ({} :: (s.lane n).hist).take 32 ∧ ((s.lane n).delay = 0 → (t.lane n).rx.valid = false) ∧
      (s.on F.LNE_EQ_REMOTE_EN n = true → (s.lane n).partnerSeq ≠ some (BitVec.ofNat 4 (p.toNat / 2 ^ 18)) →
        (t.lane n).pendingReq = some (BitVec.ofNat 14 (p.toNat / 2 ^ 8))) ∧
      (∀ m, m ≠ n.val → t.lane m = s.lane m) ∧ t = { s with lanes := t.lanes, regs := t.regs } ∧
      RegsBut s t [R.LNE_LANE_STATUS.addr n] := by
  obtain ⟨h, hexec⟩ := exec_trainingBlockReceived hlane body eye req
  obtain ⟨l, htrain, hl⟩ := laneTrainingBlock_good hcheck hres (s.setLane n (laneHeaded h (s.lane n))) n eye req
  rw [hp, htrain, lanePresent_setLane] at hexec
  rw [State.lane_setLane_same] at hl
  have hhist : l.hist = (s.lane n).hist := (congrArg Lane.hist hl :)
  have hdelay : l.delay = (s.lane n).delay := (congrArg Lane.delay hl :)
  have hready : bits p.toNat 33 1 < 2 ^ 1 := Nat.mod_lt _ (by decide)
  refine ⟨_, hexec, ?_, ?_, ?_, ?_, fun hzero => ?_, fun hremote hnew => ?_, fun m hm => ?_, rfl, ?_⟩
  · rw [State.setLane_get, State.get_put_same _ _ _ _ (by decide)]
    exact Nat.mod_eq_of_lt hready
  · rw [State.lane_setLane_same]
    exact congrArg Lane.partnerSeq hl
  · rw [State.lane_setLane_same]
    exact congrArg Lane.heard hl
  · rw [State.lane_setLane_same, laneTake, hhist]
  · rw [State.lane_setLane_same, laneTake, hdelay, hzero]; rfl
  · rw [State.lane_setLane_same]
    refine (congrArg Lane.pendingReq hl).trans (if_pos ?_)
    rw [Bool.and_eq_true, bne_iff_ne]
    exact ⟨hnew, hremote⟩
  · rw [State.lane_setLane_ne _ _ hm, State.lane_put, State.lane_setLane_ne _ _ hm]
  · exact regsBut_put F.LNE_LANE_STATUS_PARTNER_READY _ _ (regsBut_refl s _) (List.mem_singleton_self _)

theorem completes_trainingBlock_bad (hlane : LockedPins s n 2) {body : BitVec 56} (eye : Byte) (req : BitVec 10) {p : W64}
    (hp : trainingPayload body = p) (hbad : ctlCheck p ≠ BitVec.ofNat 8 (p.toNat / 2 ^ 56) ∨ bits p.toNat 34 22 ≠ 0) :
    Completes (.trainingBlockReceived n body eye req) s fun t =>
      t.on F.LNE_LANE_ERR_CTL_CHECK n = true ∧ (t.lane n).hist = ({} :: (s.lane n).hist).take 32 ∧
      (t.lane n).partnerSeq = (s.lane n).partnerSeq ∧ (t.lane n).pendingReq = (s.lane n).pendingReq ∧
      t = { s with lanes := t.lanes, regs := t.regs } ∧ RegsBut s t [R.LNE_LANE_ERR.addr n] := by
  obtain ⟨h, hexec⟩ := exec_trainingBlockReceived hlane body eye req
  rw [hp, laneTrainingBlock_bad hbad, lanePresent_eq] at hexec
  refine ⟨_, hexec, ?_, ?_, ?_, ?_, rfl, regsBut_put F.LNE_LANE_ERR_CTL_CHECK _ _ (regsBut_refl s _) (List.mem_singleton_self _)⟩
  · rw [State.modLane_on, State.on_put_one (by decide) (by decide)]
  all_goals rw [State.lane_modLane_same, State.lane_put, State.lane_setLane_same]; rfl

/-! Sent. -/

theorem exec_laneWordTransmit_raw (hlane : SendsPort s n 0) (port : PortWord) (it : Bool) :
    exec (.laneWordTransmit n port it) s = .next (s.setLane n (laneSent (s.on F.LNE_LANE_CTRL_TX_INV n)
      ⟨0, if port.valid && s.openBay n then port.data else 0x5555555555555555⟩ true ((s.lane n).since + 1) (s.lane n))) := by
  have hpcs := hlane.mode
  have hmode : s.get F.LNE_LANE_CTRL_PCS n ≠ 2 := by omega
  cases hport : port.valid && s.openBay n with
  | true =>
    exact exec_laneWordTransmit_pcs hlane (laneChoose_port hport (.inl hmode)) (pcsEncode_raw hpcs _)
      (.inl (by decide))
  | false =>
    have hchoose := laneChoose_idle (it := it) hport (.inl hmode)
    rw [hpcs] at hchoose
    exact exec_laneWordTransmit_pcs hlane hchoose (pcsEncode_raw hpcs _) (.inl (by decide))

theorem exec_laneWordTransmit_8b (hlane : SendsPort s n 1) {port : PortWord} (it : Bool)
    (hvalid : port.valid = true) (hopen : s.openBay n = true) (hgood : kGood port.data.toNat port.ctl = true) :
    exec (.laneWordTransmit n port it) s = .next (s.setLane n (laneSent (s.on F.LNE_LANE_CTRL_TX_INV n)
      ⟨0, BitVec.ofNat 64 (encodeWord8b (s.lane n).txRd port.data.toNat port.ctl).1⟩ true ((s.lane n).since + 1)
      { s.lane n with txRd := (encodeWord8b (s.lane n).txRd port.data.toNat port.ctl).2 })) := by
  have hpcs := hlane.mode
  have hport : (port.valid && s.openBay n) = true := by rw [hvalid, hopen]; rfl
  exact exec_laneWordTransmit_pcs hlane (laneChoose_port hport (.inl (by omega))) (pcsEncode_8b hpcs hgood)
    (.inr hgood)

/-- In 64b/66b mode: a due training block, else the port's word, else an idle or a training block. -/
theorem exec_laneWordTransmit_block (hlane : SendsPort s n 2) (port : PortWord) (it : Bool) :
    let due := max 1 (s.get F.LNE_EQ_INTERVAL n) ≤ (s.lane n).since
    let have' := port.valid && s.openBay n
    let train := ¬ due ∧ have' = false ∧ it = true
    let w : W64 := if due ∨ train then trainingBlock s n else if have' then port.data else 0x1E
    let sc := scramble (s.lane n).scr w
    exec (.laneWordTransmit n port it) s = .next (s.setLane n (laneSent (s.on F.LNE_LANE_CTRL_TX_INV n)
      ⟨if have' = true ∧ ¬ due ∧ port.ctl.getLsbD 0 = false then 0b01 else 0b10,
        if s.on F.LNE_LANE_CTRL_SCRAMBLE n then sc.1 else w⟩
      (!decide due) (if due ∨ train then 0 else (s.lane n).since + 1) { s.lane n with scr := sc.2 })) := by
  intro due have' train w sc
  have hpcs := hlane.mode
  have hsend {w' : LaneWord} {rdy : Bool} {k : Nat} (hchoose : laneChoose s n port it = (w', rdy, k)) :=
    exec_laneWordTransmit_pcs hlane hchoose (pcsEncode_block hpcs w') (.inl (by decide))
  have hkey : (1 : BitVec 4).getLsbD 0 = true := by decide
  by_cases htrain : due ∨ train
  · have hhdr : ¬ (have' = true ∧ ¬ due ∧ port.ctl.getLsbD 0 = false) := by
      rintro ⟨hport, hdue, -⟩
      simp [(htrain.resolve_left hdue).2.1] at hport
    have hw : w = trainingBlock s n := if_pos htrain
    rw [hsend (laneChoose_training hpcs (htrain.imp_right And.right)), if_neg hhdr, if_pos htrain]
    simp only [sc, hw, hkey, if_true]; rfl
  · obtain ⟨hdue, hnot⟩ := not_or.mp htrain
    have hready : (!decide due) = true := by simp [hdue]
    rw [if_neg htrain, hready]
    cases hport : have' with
    | true =>
      have hw : w = port.data := by simp only [w, if_neg htrain, hport, if_true]
      rw [hsend (laneChoose_port hport (.inr hdue))]
      cases hctl : port.ctl.getLsbD 0 <;> simp [sc, hw, hdue]
    | false =>
      have hit : it = false := by simpa [train, hdue, hport] using hnot
      have hw : w = 0x1E := by simp only [w, if_neg htrain, hport, Bool.false_eq_true, if_false]
      have hchoose := laneChoose_idle hport (.inr ⟨hdue, hit⟩)
      rw [hpcs, idleWord_block] at hchoose
      rw [hsend hchoose]
      simp [sc, hw]

end

/-- Settles O12: the scrambler's inverse, then each word time by the lane's PCS mode. -/
theorem laneWords : Obligations.LaneWords := by
  refine ⟨⟨descramble_scramble, descramble_history_eq⟩, fun s n => ?_⟩
  refine ⟨fun hrec hchk rx w hw => ⟨fun hpcs => ?_, fun hpcs hlock hwin hhdr => ?_⟩, fun rx h => received_noLoopback h rx,
    fun hrec hpins hchk hpcs hlock hwin body eye req => ⟨fun hcheck hres => ?_, fun hbad => ?_⟩,
    fun hrec hpins hchk hpcs hlock hwin body skew => ?_, fun port it h => exec_laneWordTransmit_quiet h port it,
    fun hdrive hgen hloop => ⟨fun hpcs port it => ?_, fun hpcs port it hvalid hopen hgood => ?_, fun hpcs port it => ?_⟩⟩
  · rw [exec_laneWordReceived_raw hrec hchk hw hpcs, laneTake_and]; rfl
  · rw [exec_laneWordReceived_block hrec hchk hw hpcs hlock hwin hhdr, laneTake_and]; rfl
  · exact completes_trainingBlock_good ⟨hrec, hpins, hchk, hpcs, hlock, hwin⟩ eye req rfl hcheck hres
  · exact completes_trainingBlock_bad ⟨hrec, hpins, hchk, hpcs, hlock, hwin⟩ eye req rfl hbad
  · exact completes_alignmentMarkerReceived ⟨hrec, hpins, hchk, hpcs, hlock, hwin⟩ body skew
  · exact exec_laneWordTransmit_raw ⟨hdrive, hgen, hloop, hpcs⟩ port it
  · exact exec_laneWordTransmit_8b ⟨hdrive, hgen, hloop, hpcs⟩ it hvalid hopen hgood
  · exact exec_laneWordTransmit_block ⟨hdrive, hgen, hloop, hpcs⟩ port it

end Sys2Proof.Machine
end

section
/-! Writes that control a lane (03 R111, R112, R122, R124, R139 to R141, R147, R150, R157). -/

namespace Sys2Proof.Machine

theorem bit_eq_bits (v i : Nat) : bit v i = (bits v i 1 == 1) := by
  rw [bit, bits, Nat.pow_one]

/-- A number cut to `m` bits keeps the fields below bit `m`. -/
theorem bits_mod_two_pow (v : Nat) {lo len m : Nat} (h : lo + len ≤ m) : bits (v % 2 ^ m) lo len = bits v lo len := by
  refine Nat.eq_of_testBit_eq fun k => ?_
  rw [testBit_bits, testBit_bits, Nat.testBit_mod_two_pow]
  by_cases hk : k < len
  · rw [decide_eq_true (show lo + k < m by omega), Bool.true_and]
  · simp [hk]

/-- A write of a register leaves every field of a row apart from its own. -/
theorem State.get_wr_apart {s : State} {r : Reg} {i j : Nat} {v : W64} {g : Fld} (h : r.apart g.reg = true) :
    (s.wr r i v).get g j = s.get g j := by
  rw [State.get, State.rd_wr_ne _ _ _ _ (Reg.addr_ne_of_apart h i j), State.get]

/-! LNE_LANE_CTRL. -/

theorem exec_laneEnable (n : LaneId) (w : W32) (s : State) : exec (.laneEnable n w) s = .next (laneCtrlWrite n w.toNat s) := rfl

section
variable {s : State} {n w : Nat}

/-- The write is one that R157 refuses, or that asks for a crossing lock that the quad's reference does not give. -/
theorem laneCtrlWrite_refused (hdom : s.domOn (laneDom n) = true)
    (h : laneReserved w = true ∨
      (bit (s.rd R.LNE_LANE_CTRL n).toNat 0 = true ∧ laneFrozen w ≠ laneFrozen (s.rd R.LNE_LANE_CTRL n).toNat) ∨
      (bit w 0 = true ∧ bit w 6 = true ∧ s.get F.LNE_QPLL_REF (n / 4) ≠ 2)) :
    laneCtrlWrite n w s = s.okay.put F.LNE_LANE_ERR_CFG_REFUSED n 1 := by
  have hrefused : (laneReserved w ||
      (bit (s.rd R.LNE_LANE_CTRL n).toNat 0 && laneFrozen w != laneFrozen (s.rd R.LNE_LANE_CTRL n).toNat) ||
      (bit w 0 && bit w 6 && s.get F.LNE_QPLL_REF (n / 4) != 2)) = true := by
    simpa [Bool.or_eq_true, and_assoc, or_assoc] using h
  simp only [laneCtrlWrite, hdom, Bool.not_true, Bool.and_false, Bool.false_eq_true, if_false, hrefused, if_true]
  rfl

/-- The state in which the word written stands, before what its fields start. -/
def laneWritten (n w : Nat) (s : State) : State := s.okay.wr R.LNE_LANE_CTRL n (BitVec.ofNat 64 (w % 2 ^ 20))

theorem laneCtrlWrite_enables (hdom : s.domOn (laneDom n) = true) (hold : bit (s.rd R.LNE_LANE_CTRL n).toNat 0 = false)
    (hnew : bit w 0 = true) (hres : laneReserved w = false) (hxlock : bit w 6 = false ∨ s.get F.LNE_QPLL_REF (n / 4) = 2) :
    laneCtrlWrite n w s = quadSettle (n / 4)
      (if bits w 1 2 = bits (s.rd R.LNE_LANE_CTRL n).toNat 1 2
        then lanePstate n (BitVec.ofNat 2 (bits w 12 2)) (laneStart n (laneWritten n w s))
        else laneOffset n (lanePstate n (BitVec.ofNat 2 (bits w 12 2)) (laneStart n (laneWritten n w s)))) := by
  have hlegal : (bit w 6 && s.get F.LNE_QPLL_REF (n / 4) != 2) = false := by rcases hxlock with h | h <;> simp [h]
  simp only [laneCtrlWrite, hdom, hold, hnew, hres, hlegal, Bool.not_true, Bool.and_false, Bool.false_and, Bool.true_and,
    Bool.or_self, Bool.false_eq_true, if_false, Bool.not_false, Bool.and_self, if_true]
  by_cases hpcs : bits w 1 2 = bits (s.rd R.LNE_LANE_CTRL n).toNat 1 2
  · simp [hpcs, State.when, laneWritten]
  · simp [hpcs, State.when, laneWritten]

/-- A write to an enabled lane that leaves the frozen fields and the loopback asks for the power state alone. -/
theorem laneCtrlWrite_pstate (hdom : s.domOn (laneDom n) = true) (hold : bit (s.rd R.LNE_LANE_CTRL n).toNat 0 = true)
    (hnew : bit w 0 = true) (hres : laneReserved w = false) (hfrozen : laneFrozen w = laneFrozen (s.rd R.LNE_LANE_CTRL n).toNat)
    (hloop : bits w 9 3 = bits (s.rd R.LNE_LANE_CTRL n).toNat 9 3)
    (hxlock : bit w 6 = false ∨ s.get F.LNE_QPLL_REF (n / 4) = 2) :
    laneCtrlWrite n w s = quadSettle (n / 4) (lanePstate n (BitVec.ofNat 2 (bits w 12 2)) (laneWritten n w s)) := by
  have hlegal : (bit w 6 && s.get F.LNE_QPLL_REF (n / 4) != 2) = false := by rcases hxlock with h | h <;> simp [h]
  have hpcs : bits w 1 2 = bits (s.rd R.LNE_LANE_CTRL n).toNat 1 2 := congrArg Prod.fst hfrozen
  simp [laneCtrlWrite, hdom, hold, hnew, hres, hfrozen, hlegal, hpcs, hloop, State.when, laneWritten]

end

/-! The binding. -/

/-- Another lane of the half is bound to the port that the word names. -/
def State.portTaken (s : State) (n w : Nat) : Bool := ((List.range 48).map (n / 48 * 48 + ·)).any (fun m =>
  m != n && s.on F.LNE_XBAR_EN m && s.get F.LNE_XBAR_BAY m == bits w 0 4 && s.get F.LNE_XBAR_PORT m == bits w 4 3)

theorem mem_half_iff (n m : Nat) : m ∈ (List.range 48).map (n / 48 * 48 + ·) ↔ m / 48 = n / 48 := by
  rw [List.mem_map]
  refine ⟨?_, fun h => ⟨m % 48, List.mem_range.mpr (Nat.mod_lt _ (by decide)), by omega⟩⟩
  rintro ⟨k, hk, rfl⟩
  have := List.mem_range.mp hk
  omega

theorem portTaken_iff (s : State) (n w : Nat) : s.portTaken n w = true ↔ ∃ m, m / 48 = n / 48 ∧ m ≠ n ∧
    s.on F.LNE_XBAR_EN m = true ∧ s.get F.LNE_XBAR_BAY m = bits w 0 4 ∧ s.get F.LNE_XBAR_PORT m = bits w 4 3 := by
  simp only [State.portTaken, List.any_eq_true, mem_half_iff, Bool.and_eq_true, bne_iff_ne, beq_iff_eq, and_assoc]

theorem exec_laneBindingChange (n : LaneId) (w : W32) (s : State) : exec (.laneBindingChange n w) s = .next
    (if bit w.toNat 7 && s.portTaken n w.toNat then s.okay.put F.LNE_LANE_ERR_CFG_REFUSED n 1 else laneRebind n w.toNat s.okay) :=
  rfl

/-! Actions (03 R111, R112, R124, R147). -/

theorem exec_bitslip_takes {s : State} {n : LaneId} (hdom : s.domOn (laneDom n) = true) (hfree : s.on F.LNE_BITSLIP_BUSY n = false)
    (hmay : s.on F.LNE_LANE_CTRL_AUTO_ALIGN n = false ∨ s.get F.LNE_LANE_CTRL_PCS n = 0) :
    exec (.bitslip n) s = .next (s.okay.put F.LNE_BITSLIP_BUSY n 1) := by
  have hmanual : (s.on F.LNE_LANE_CTRL_AUTO_ALIGN n && s.get F.LNE_LANE_CTRL_PCS n != 0) = false := by
    rcases hmay with h | h <;> simp [h]
  change Host.Outcome.next (laneBitslip n s) = _
  rw [laneBitslip, hdom, hfree, hmanual]; rfl

theorem exec_bitslip_refused {s : State} {n : LaneId} (hdom : s.domOn (laneDom n) = true)
    (h : s.on F.LNE_BITSLIP_BUSY n = true ∨ (s.on F.LNE_LANE_CTRL_AUTO_ALIGN n = true ∧ s.get F.LNE_LANE_CTRL_PCS n ≠ 0)) :
    exec (.bitslip n) s = .next (s.okay.put F.LNE_LANE_ERR_CFG_REFUSED n 1) := by
  have hrefused : (s.on F.LNE_BITSLIP_BUSY n || (s.on F.LNE_LANE_CTRL_AUTO_ALIGN n && s.get F.LNE_LANE_CTRL_PCS n != 0)) = true := by
    simpa using h
  change Host.Outcome.next (laneBitslip n s) = _
  rw [laneBitslip, hdom, hrefused]; rfl

theorem laneAction_on {s : State} {n : Nat} (h : s.domOn (laneDom n) = true) (g : State → State) : laneAction n g s = g s.okay :=
  if_pos h

theorem laneAction_off {s : State} {n : Nat} (h : s.domOn (laneDom n) = false) (g : State → State) :
    laneAction n g s = s.answer .poweredDown := by
  rw [laneAction, h]; rfl

theorem exec_retrain {s : State} {n : LaneId} (hdom : s.domOn (laneDom n) = true) (hen : s.on F.LNE_LANE_CTRL_EN n = true)
    (htrain : s.on F.LNE_EQ_TRAIN_EN n = true) (hpcs : s.get F.LNE_LANE_CTRL_PCS n = 2) :
    exec (.retrain n) s = .next (laneTrain n s.okay) := by
  change Host.Outcome.next (laneRetrain n s) = _
  simp [laneRetrain, hdom, hen, State.trainable, htrain, hpcs, State.when]

/-- Without power no action is taken (01 R46). -/
theorem exec_actions_off {s : State} {n : LaneId} (h : s.domOn (laneDom n) = false) :
    exec (.bitslip n) s = .next (s.answer .poweredDown) ∧ exec (.snap n) s = .next (s.answer .poweredDown) ∧
    exec (.clr n) s = .next (s.answer .poweredDown) ∧ exec (.inject n) s = .next (s.answer .poweredDown) ∧
    exec (.retrain n) s = .next (s.answer .poweredDown) := by
  refine ⟨?_, congrArg _ (laneAction_off h _), congrArg _ (laneAction_off h _), congrArg _ (laneAction_off h _), ?_⟩
  · change Host.Outcome.next (laneBitslip n s) = _
    rw [laneBitslip, h]; rfl
  · change Host.Outcome.next (laneRetrain n s) = _
    rw [laneRetrain, h]; rfl

end Sys2Proof.Machine
end

section
/-! The lane's own events (03 R97, R99, R111, R113, R124 to R126, R145, R152, R153). -/

namespace Sys2Proof.Machine

/-! Locks of the quad PLL and the receive clock. -/

theorem exec_quadPllLock {s : State} {q : QuadId} {ref : BitVec 24} (hon : s.pllOn q = true)
    (hrange : s.pllRangeOk q ref.toNat = true) : exec (.quadPllLock q ref) s = .next (s.put F.LNE_QPLL_STATUS_LOCK q 1) := by
  change Host.Outcome.next (s.when (s.pllOn q && s.pllRangeOk q ref.toNat) _) = _
  rw [hon, hrange]; rfl

/-- The PLL's unlock takes CDR lock from the quad's four lanes (03 R99). -/
theorem exec_quadPllUnlock {s : State} {q : QuadId} (hlock : s.on F.LNE_QPLL_STATUS_LOCK q = true) :
    exec (.quadPllUnlock q false) s = .next
      (laneCdrLoss (q * 4 + 3) (laneCdrLoss (q * 4 + 2) (laneCdrLoss (q * 4 + 1) (laneCdrLoss (q * 4)
        ((s.put F.LNE_QPLL_STATUS_LOCK q 0).put F.LNE_QUAD_ERR_PLL_UNLOCK q 1))))) := by
  change Host.Outcome.next (if s.on F.LNE_QPLL_STATUS_LOCK q then quadUnlock q s else s) = _
  rw [if_pos hlock]; rfl

theorem exec_cdrLock (n : LaneId) (s : State) : exec (.cdrLock n) s = .next
    (if s.laneSupply && s.driving n && s.on F.LNE_QPLL_STATUS_LOCK (n / 4 : Nat) then
      (s.put F.LNE_LANE_STATUS_CDR_LOCK n 1).put F.LNE_LANE_STATUS_SIGNAL n 1 else s) := rfl

theorem exec_cdrLoss {s : State} {n : LaneId} (hen : s.on F.LNE_LANE_CTRL_EN n = true) (signal : Bool) :
    exec (.cdrLoss n signal) s = .next ((laneCdrLoss n s).put F.LNE_LANE_STATUS_SIGNAL n (if signal then 1 else 0)) := by
  change Host.Outcome.next ((laneCdrLoss n s).when (s.on F.LNE_LANE_CTRL_EN n) _) = _
  rw [hen]; rfl

/-- A lane that holds CDR lock alone loses that alone. -/
theorem laneCdrLoss_unaligned {s : State} {n : Nat} (hcdr : s.on F.LNE_LANE_STATUS_CDR_LOCK n = true)
    (hblock : s.on F.LNE_LANE_STATUS_BLOCK_LOCK n = false) :
    laneCdrLoss n s = ((s.put F.LNE_LANE_ERR_CDR_LOST n 1).put F.LNE_LANE_STATUS_CDR_LOCK n 0).modLane n fun l =>
      { l with good := 0, window := [], rx := { l.rx with valid := false } } := by
  have hstill : ((s.put F.LNE_LANE_ERR_CDR_LOST n 1).put F.LNE_LANE_STATUS_CDR_LOCK n 0).on F.LNE_LANE_STATUS_BLOCK_LOCK n
      = false := by rw [State.on_put_sep (by decide), State.on_put_sep (by decide), hblock]
  have hloss : laneCdrLoss n s =
      laneUnlock n true ((s.put F.LNE_LANE_ERR_CDR_LOST n 1).put F.LNE_LANE_STATUS_CDR_LOCK n 0) := by
    rw [laneCdrLoss, hcdr]; rfl
  rw [hloss, laneUnlock, hstill]; rfl

/-! Slips, the PRBS checker and training. -/

theorem exec_bitslipDone {s : State} {n : LaneId} (hbusy : s.on F.LNE_BITSLIP_BUSY n = true) : exec (.bitslipDone n) s =
    .next (((s.put F.LNE_BITSLIP_BUSY n 0).modLane n fun l => { l with good := 0, slips := l.slips + 1 }).put
      F.LNE_BITSLIP_OFFSET n (((s.lane n).slips + 1) % pcsBits (s.get F.LNE_LANE_CTRL_PCS n))) := by
  change Host.Outcome.next (if s.on F.LNE_BITSLIP_BUSY n then laneOffset n _ else s) = _
  rw [if_pos hbusy, laneOffset, State.lane_modLane_same, State.modLane_get, State.clear, State.get_put_sep (by decide)]
  rfl

theorem exec_prbsLock (n : LaneId) (s : State) : exec (.prbsLock n) s = .next
    (s.when (s.get F.LNE_PRBS_CHK n != 0 && !s.on F.LNE_PRBS_LOCK n && 1024 ≤ (s.lane n).clean) fun t =>
      (t.put F.LNE_PRBS_LOCK n 1).modLane n fun l => { l with clean := 0, seen := 0, errAt := [], lossMet := false }) := rfl

theorem exec_prbsLost {s : State} {n : LaneId} (hlock : s.on F.LNE_PRBS_LOCK n = true) (hloss : (s.lane n).lossMet = true) :
    exec (.prbsLost n) s = .next (((s.modLane n fun l => { l with clean := 0, seen := 0, errAt := [], lossMet := false }).put
      F.LNE_PRBS_LOCK n 0).put F.LNE_LANE_ERR_PRBS_LOST n 1) := by
  change Host.Outcome.next (if s.on F.LNE_PRBS_LOCK n && (s.lane n).lossMet then lanePrbsDrop n s else s) = _
  rw [hlock, hloss, lanePrbsDrop, hlock]; rfl

theorem exec_prbsLost_early {s : State} {n : LaneId} (hloss : (s.lane n).lossMet = false) :
    exec (.prbsLost n) s = .next s := by
  change Host.Outcome.next (if s.on F.LNE_PRBS_LOCK n && (s.lane n).lossMet then lanePrbsDrop n s else s) = _
  rw [hloss, Bool.and_false]; rfl

theorem exec_trainingComplete {s : State} {n : LaneId} (htrain : s.on F.LNE_LANE_STATUS_TRAINING n = true)
    (hend : (s.lane n).ended = true) : exec (.trainingComplete n) s =
      .next (((s.put F.LNE_LANE_STATUS_TRAINED n 1).put F.LNE_LANE_STATUS_TRAINING n 0).modLane n
        fun l => { l with ended := false }) := by
  change Host.Outcome.next (if s.on F.LNE_LANE_STATUS_TRAINING n && (s.lane n).ended then _ else s) = _
  rw [htrain, hend]; rfl

/-- The wait for a training block: over when one was heard; the first failed wait is repeated, the second falls back (03 R125). -/
theorem exec_trainingResponseTimeout_block {s : State} {n : LaneId} (htrain : s.on F.LNE_LANE_STATUS_TRAINING n = true)
    (hend : (s.lane n).ended = false) : exec (.trainingResponseTimeout n false) s = .next (if (s.lane n).heard then s
      else if (s.lane n).respWaited then laneFallback n s else s.setLane n { s.lane n with respWaited := true }) := by
  change execTrainingResponseTimeout n false s = _
  simp only [execTrainingResponseTimeout, htrain, hend]
  rfl

/-- The wait for ECHO: the first failed wait is repeated, the second falls back (03 R125). -/
theorem exec_trainingResponseTimeout_echo {s : State} {n : LaneId} (htrain : s.on F.LNE_LANE_STATUS_TRAINING n = true)
    (hend : (s.lane n).ended = false) : exec (.trainingResponseTimeout n true) s = .next (if (s.lane n).echoWaited then
      laneFallback n s else s.setLane n { s.lane n with echoWaited := true }) := by
  change execTrainingResponseTimeout n true s = _
  simp only [execTrainingResponseTimeout, htrain, hend]
  rfl

/-! Taps. -/

/-- Taps that fit their fields read back as written. -/
theorem taps_putTaps {s : State} {n : Nat} {t : Nat × Nat × Nat} (ha : t.1 < 2 ^ 4) (hb : t.2.1 < 2 ^ 7) (hc : t.2.2 < 2 ^ 5) :
    (s.putTaps n t).taps n = t := by
  refine Prod.ext ?_ (Prod.ext ?_ ?_)
  · change (State.put _ _ _ _).get F.LNE_TAPS_CM1 n = _
    rw [State.get_put_sep (by decide), State.get_put_sep (by decide), State.get_put_same _ _ _ _ (by decide)]
    exact Nat.mod_eq_of_lt ha
  · change (State.put _ _ _ _).get F.LNE_TAPS_C0 n = _
    rw [State.get_put_sep (by decide), State.get_put_same _ _ _ _ (by decide)]
    exact Nat.mod_eq_of_lt hb
  · exact (State.get_put_same _ _ _ _ (by decide)).trans (Nat.mod_eq_of_lt hc)

theorem taps_modLane (s : State) (m n : Nat) (g : Lane → Lane) : (s.modLane m g).taps n = s.taps n := rfl

theorem completes_tapRequestApply {s : State} {n : LaneId} {r : BitVec 14} (hreq : (s.lane n).pendingReq = some r)
    (hen : s.on F.LNE_EQ_REMOTE_EN n = true) : Completes (.tapRequestApply n) s fun t =>
      t.taps n = (tapsApply r.toNat (s.taps n)).1 ∧ (t.lane n).echo = BitVec.ofNat 4 (r.toNat / 2 ^ 10) ∧
      (t.lane n).pendingReq = none ∧ RegsBut s t [R.LNE_TAPS.addr n] := by
  have hfit := tapsApply_fit r.toNat (t := s.taps n) (State.get_lt s F.LNE_TAPS_CM1 n) (State.get_lt s F.LNE_TAPS_C0 n)
    (State.get_lt s F.LNE_TAPS_CP1 n)
  refine ⟨_, exec_tapRequestApply hreq hen, ?_, ?_, ?_, ?_⟩
  · rw [taps_modLane, taps_putTaps hfit.1 hfit.2.1 hfit.2.2]
  · rw [State.lane_modLane_same]
  · rw [State.lane_modLane_same]
  · have hmem := List.mem_singleton_self (R.LNE_TAPS.addr n)
    exact regsBut_put F.LNE_TAPS_CP1 _ _ (regsBut_put F.LNE_TAPS_C0 _ _ (regsBut_put F.LNE_TAPS_CM1 _ _ (regsBut_refl s _) hmem)
      hmem) hmem

/-! Power states. -/

/-- The state in which the lane has reached power state `p`. -/
def laneArrived (n : Nat) (p : BitVec 2) (s : State) : State :=
  (((s.put F.LNE_LANE_STATUS_PSTATE n p.toNat).put F.LNE_LANE_STATUS_IN_TRANSITION n 0).put
    F.LNE_LANE_ERR_PSTATE_DONE n 1).modLane n fun l => { l with target := none, queued := none }

theorem exec_pstateDone {s : State} {n : LaneId} {p : BitVec 2} (htarget : (s.lane n).target = some p) :
    exec (.pstateDone n) s = .next (quadSettle (n / 4 : Nat)
      ((s.lane n).queued.elim (laneArrived n p s) fun q => lanePstate n q (laneArrived n p s))) := by
  change execPstateDone n s = _
  rw [execPstateDone, htarget]
  cases (s.lane n).queued <;> rfl

/-- A transition begins: the lane turns to state `p`, with its line quiet, and at most its locks are lost besides. -/
theorem lanePstateBegin_eq (n : Nat) (p : BitVec 2) (s : State) : ∃ u, LocksOnly (s.raise F.LNE_LANE_STATUS_IN_TRANSITION n) u ∧
    lanePstateBegin n p s = u.modLane n fun l => { l with target := some p, tx := none, pcs := none } := by
  refine ⟨_, ?_, rfl⟩
  split
  · exact (((LocksOnly.refl _).laneUngroup n).laneUnlock n false).put F.LNE_LANE_STATUS_CDR_LOCK n 0 (by decide)
  · exact LocksOnly.refl _

/-- A request for a power state leaves every field but the locks' and IN_TRANSITION. -/
theorem lanePstate_get {g : Fld} (hlock : lockFlds.all (·.sep g) = true) (htrans : F.LNE_LANE_STATUS_IN_TRANSITION.sep g = true)
    (n : Nat) (p : BitVec 2) (s : State) (i : Nat) : (lanePstate n p s).get g i = s.get g i := by
  unfold lanePstate
  split_ifs
  · rfl
  · rfl
  · obtain ⟨u, hu, hbegin⟩ := lanePstateBegin_eq n p s
    rw [hbegin, State.modLane_get, hu.get g i hlock, State.raise, State.get_put_sep htrans]

/-- A request carried out at once: the transition is under way. -/
theorem lanePstate_begins {n : Nat} {p : BitVec 2} {s : State} (hidle : s.on F.LNE_LANE_STATUS_IN_TRANSITION n = false)
    (hother : s.get F.LNE_LANE_STATUS_PSTATE n ≠ p.toNat) : (lanePstate n p s).on F.LNE_LANE_STATUS_IN_TRANSITION n = true ∧
      ((lanePstate n p s).lane n).target = some p ∧ ((lanePstate n p s).lane n).tx = none := by
  obtain ⟨u, hu, hbegin⟩ := lanePstateBegin_eq n p s
  have hpstate : lanePstate n p s = lanePstateBegin n p s := by
    rw [lanePstate, hidle, if_neg hother]; rfl
  rw [hpstate, hbegin, State.modLane_on, hu.on (by decide), State.lane_modLane_same]
  exact ⟨State.on_put_one (by decide) (by decide), rfl, rfl⟩

/-- A request during a transition waits for its end. -/
theorem lanePstate_queues {n : Nat} {s : State} (hbusy : s.on F.LNE_LANE_STATUS_IN_TRANSITION n = true) (p : BitVec 2) :
    lanePstate n p s = s.modLane n fun l => { l with queued := some p } := by
  rw [lanePstate, if_pos hbusy]

/-- The word that a request for a power state writes: LNE_LANE_CTRL with PSTATE replaced. -/
def pstateWord (p : BitVec 2) (s : State) (n : Nat) : Nat := (setBits (s.rd R.LNE_LANE_CTRL n) 12 2 p.toNat).toNat

theorem bits_pstateWord {lo len : Nat} (h : lo + len ≤ 12 ∨ 14 ≤ lo) (p : BitVec 2) (s : State) (n : Nat) :
    bits (pstateWord p s n) lo len = bits (s.rd R.LNE_LANE_CTRL n).toNat lo len := bits_setBits_disj _ _ (by decide) h

theorem bits_pstateWord_pstate (p : BitVec 2) (s : State) (n : Nat) : bits (pstateWord p s n) 12 2 = p.toNat :=
  (bits_setBits_same _ _ (by decide)).trans (Nat.mod_eq_of_lt p.isLt)

/-- A request for a power state on an enabled lane with a legal setting writes PSTATE, and asks for the state. -/
theorem exec_pstateRequest {s : State} {n : LaneId} {p : BitVec 2} (hen : s.on F.LNE_LANE_CTRL_EN n = true) (hp : p ≠ 3)
    (hdom : s.domOn (laneDom n) = true) (hres : laneReserved (s.rd R.LNE_LANE_CTRL n).toNat = false)
    (hxlock : s.on F.LNE_LANE_CTRL_XLOCK n = false ∨ s.get F.LNE_QPLL_REF (n / 4 : Nat) = 2) :
    exec (.pstateRequest n p) s = .next (quadSettle (n / 4 : Nat) (lanePstate n p (laneWritten n (pstateWord p s n) s))) := by
  have hold : bit (s.rd R.LNE_LANE_CTRL n).toNat 0 = true := by
    have hne : bits (s.rd R.LNE_LANE_CTRL n).toNat 0 1 ≠ 0 := bne_iff_ne.mp hen
    have hlt : bits (s.rd R.LNE_LANE_CTRL n).toNat 0 1 < 2 ^ 1 := Nat.mod_lt _ (by decide)
    rw [bit_eq_bits, beq_iff_eq]; omega
  have hlegal : laneReserved (pstateWord p s n) = false := by
    have hne : p.toNat ≠ 3 := fun h => hp (BitVec.eq_of_toNat_eq h)
    simp only [laneReserved, Bool.or_eq_false_iff, beq_eq_false_iff_ne] at hres ⊢
    obtain ⟨⟨⟨hpcs, hdiv⟩, hloop⟩, -⟩ := hres
    rw [bits_pstateWord (by decide), bits_pstateWord (by decide), bits_pstateWord (by decide), bits_pstateWord_pstate]
    exact ⟨⟨⟨hpcs, hdiv⟩, hloop⟩, hne⟩
  have hfrozen : laneFrozen (pstateWord p s n) = laneFrozen (s.rd R.LNE_LANE_CTRL n).toNat := by
    simp (disch := decide) only [laneFrozen, bits_pstateWord]
  have hnew : bit (pstateWord p s n) 0 = true := by
    rw [bit_eq_bits, bits_pstateWord (by decide), ← bit_eq_bits, hold]
  have hquad : bit (pstateWord p s n) 6 = false ∨ s.get F.LNE_QPLL_REF (n / 4 : Nat) = 2 := by
    refine hxlock.imp_left fun h => ?_
    have hzero : bits (s.rd R.LNE_LANE_CTRL n).toNat 6 1 = 0 := bne_eq_false_iff_eq.mp h
    rw [bit_eq_bits, bits_pstateWord (by decide), hzero]; rfl
  have hstate : BitVec.ofNat 2 (bits (pstateWord p s n) 12 2) = p := by
    rw [bits_pstateWord_pstate, BitVec.ofNat_toNat, BitVec.setWidth_eq]
  have hwrite := laneCtrlWrite_pstate hdom hold hnew hlegal hfrozen (bits_pstateWord (by decide) p s n) hquad
  rw [hstate] at hwrite
  exact congrArg Host.Outcome.next hwrite

theorem laneWritten_pstate (p : BitVec 2) (s : State) (n : Nat) :
    (laneWritten n (pstateWord p s n) s).get F.LNE_LANE_CTRL_PSTATE n = p.toNat := by
  have hlt : pstateWord p s n % 2 ^ 20 < 2 ^ 64 := (Nat.mod_lt _ (by decide)).trans (by decide)
  rw [laneWritten, State.get]
  change bits (((State.wr _ R.LNE_LANE_CTRL n _).rd R.LNE_LANE_CTRL n).toNat) 12 2 = _
  rw [State.rd_wr_same, BitVec.toNat_ofNat, Nat.mod_eq_of_lt hlt, bits_mod_two_pow _ (by decide), bits_pstateWord_pstate]

theorem laneWritten_get {g : Fld} (h : R.LNE_LANE_CTRL.apart g.reg = true) (n w : Nat) (s : State) (i : Nat) :
    (laneWritten n w s).get g i = s.get g i := State.get_wr_apart h

theorem completes_pstateRequest {s : State} {n : LaneId} {p : BitVec 2} (hen : s.on F.LNE_LANE_CTRL_EN n = true) (hp : p ≠ 3)
    (hdom : s.domOn (laneDom n) = true) (hres : laneReserved (s.rd R.LNE_LANE_CTRL n).toNat = false)
    (hxlock : s.on F.LNE_LANE_CTRL_XLOCK n = false ∨ s.get F.LNE_QPLL_REF (n / 4 : Nat) = 2) :
    Completes (.pstateRequest n p) s fun t => t.get F.LNE_LANE_CTRL_PSTATE n = p.toNat ∧
      (s.on F.LNE_LANE_STATUS_IN_TRANSITION n = false → s.get F.LNE_LANE_STATUS_PSTATE n ≠ p.toNat →
        t.on F.LNE_LANE_STATUS_IN_TRANSITION n = true ∧ (t.lane n).target = some p ∧ (t.lane n).tx = none) ∧
      (s.on F.LNE_LANE_STATUS_IN_TRANSITION n = true → (t.lane n).queued = some p) := by
  have htrans : (laneWritten n (pstateWord p s n) s).on F.LNE_LANE_STATUS_IN_TRANSITION n =
      s.on F.LNE_LANE_STATUS_IN_TRANSITION n := by rw [State.on, laneWritten_get (by decide), State.on]
  have hsettle := (LocksOnly.refl (lanePstate n p (laneWritten n (pstateWord p s n) s))).quadSettle (n / 4 : Nat)
  refine ⟨_, exec_pstateRequest hen hp hdom hres hxlock, ?_, fun hidle hother => ?_, fun hbusy => ?_⟩
  · rw [hsettle.get _ _ (by decide), lanePstate_get (by decide) (by decide), laneWritten_pstate]
  · obtain ⟨hon, htarget, htx⟩ := lanePstate_begins (htrans.trans hidle) (by rwa [laneWritten_get (by decide)])
    exact ⟨(hsettle.on (by decide)).trans hon, (congrArg Lane.target (hsettle.held n)).trans htarget,
      (congrArg Lane.tx (hsettle.held n)).trans htx⟩
  · refine (congrArg Lane.queued (hsettle.held n)).trans ?_
    change ((lanePstate n p (laneWritten n (pstateWord p s n) s)).lane n).queued = some p
    rw [lanePstate_queues (htrans.trans hbusy), State.lane_modLane_same]

/-- Settles O14: writes by what their word asks, events by the condition they find. -/
theorem laneControl : Obligations.LaneControl := by
  refine ⟨fun s n => ⟨fun hdom => ⟨fun w hold hnew hres hx => ?_, fun w h => ?_, exec_bitslip_takes hdom,
      exec_bitslip_refused hdom, congrArg _ (laneAction_on hdom _), congrArg _ (laneAction_on hdom _),
      congrArg _ (laneAction_on hdom _), exec_retrain hdom⟩, exec_actions_off, fun w hfree => ?_,
      fun w m hen hhalf hne hon hbay hport => ?_⟩,
    fun s n q => ⟨fun ref => exec_quadPllLock, exec_quadPllUnlock, fun hdrive hlock hsupply => ?_, fun hsupply => ?_,
      fun signal hen => exec_cdrLoss hen signal, laneCdrLoss_unaligned, exec_bitslipDone,
      ⟨fun hchk hlock hclean => ?_, fun hclean => ?_, exec_prbsLost, exec_prbsLost_early⟩, exec_trainingComplete,
      fun htrain hend => ⟨fun hheard => ?_, fun hheard => ?_, exec_trainingResponseTimeout_echo htrain hend⟩,
      fun r => completes_tapRequestApply, fun p htarget => ⟨fun hqueue => ?_, fun q' hqueue => ?_⟩,
      fun p => completes_pstateRequest⟩⟩
  · exact (exec_laneEnable n w s).trans (congrArg _ (laneCtrlWrite_enables hdom hold hnew hres hx))
  · exact (exec_laneEnable n w s).trans (congrArg _ (laneCtrlWrite_refused hdom h))
  · have hopen : (bit w.toNat 7 && s.portTaken n w.toNat) = false := by
      rcases hfree with hoff | hnone
      · rw [hoff, Bool.false_and]
      · refine Bool.and_eq_false_imp.mpr fun _ => Bool.eq_false_iff.mpr fun htaken => ?_
        obtain ⟨m, hhalf, hne, hon, hport⟩ := (portTaken_iff s n w.toNat).mp htaken
        have hlt : m < 192 := by omega
        exact hnone ⟨m, hlt⟩ (Fin.ext hhalf) (fun h => hne (congrArg Fin.val h)) hon hport
    rw [exec_laneBindingChange, hopen]; rfl
  · have htaken := (portTaken_iff s n w.toNat).mpr ⟨m, hhalf, hne, hon, hbay, hport⟩
    rw [exec_laneBindingChange, hen, htaken]; rfl
  · rw [exec_cdrLock, hdrive, hlock, hsupply]; rfl
  · rw [exec_cdrLock, hsupply]; rfl
  · rw [exec_prbsLock, bne_iff_ne.mpr hchk, hlock, decide_eq_true hclean]; rfl
  · rw [exec_prbsLock, decide_eq_false (Nat.not_le.mpr hclean), Bool.and_false]; rfl
  · rw [exec_trainingResponseTimeout_block htrain hend, hheard]; rfl
  · rw [exec_trainingResponseTimeout_block htrain hend, hheard]; rfl
  · rw [exec_pstateDone htarget, hqueue]; rfl
  · rw [exec_pstateDone htarget, hqueue]; rfl

end Sys2Proof.Machine
end

section
/-! Frame addresses and the frame windows of bays (04 R208 to R211, R214). -/

namespace Sys2Proof.Machine

/-- A word made of fields in range is an address of 32 bits that gives the fields back (04 R210). -/
theorem mkFar_fields {slab ty row col minor : Nat} (hslab : slab < 4) (hty : ty < 4) (hrow : row < 16) (hcol : col < 256)
    (hminor : minor < 256) :
    let a := mkFar slab ty row col minor
    a < 2 ^ 32 ∧ a % 256 = 0 ∧ farSlab a = slab ∧ farType a = ty ∧ farRow a = row ∧ farCol a = col ∧ farMinor a = minor := by
  simp only [farSlab, farType, farRow, farCol, farMinor, bits, mkFar]
  omega

theorem farMinors_le (ty row col : Nat) : farMinors ty row col ≤ 192 := by
  unfold farMinors
  repeat' split
  all_goals omega

/-- Columns 0 to 239 repeat the types of a bay's 60 in every clock row (04 R208). -/
theorem farMinors_bayColumn (ty : Nat) {row col : Nat} (hrow : row < 12) (hcol : col < 240) :
    farMinors ty row col = farMinors ty 0 (col % 60) := by
  have hcol' : col % 60 < 240 := by omega
  unfold farMinors
  rw [if_neg (Nat.not_le.mpr hrow), if_pos hcol, if_neg (show ¬12 ≤ 0 by decide), if_pos hcol', Nat.mod_mod]

/-- A column's minors depend on its place in the bay alone. -/
theorem farMinors_bay (ty : Nat) {b r c : Nat} (hr : r < 3) (hc : c < 60) :
    farMinors ty (b % 16 / 4 * 3 + r) (b % 4 * 60 + c) = farMinors ty 0 c := by
  have hplace : (b % 4 * 60 + c) % 60 = c := by omega
  rw [farMinors_bayColumn ty (by omega) (by omega), hplace]

/-- The address of a frame of bay `b` by its type and its clock row, column and minor within the bay. -/
def bayFar (b ty r c m : Nat) : Nat := mkFar (b / 16) ty (b % 16 / 4 * 3 + r) (b % 4 * 60 + c) m

/-- A frame's place within a bay, the same for every bay (04 R208, R209, R214). -/
def BayPlace (ty r c m : Nat) : Prop := ty < 3 ∧ r < 3 ∧ c < 60 ∧ m < farMinors ty 0 c

theorem mem_bayWindow {b a : Nat} : a ∈ bayWindow b ↔ ∃ ty r c m, BayPlace ty r c m ∧ bayFar b ty r c m = a := by
  simp only [bayWindow, BayPlace, List.mem_flatMap, List.mem_map, List.mem_range]
  constructor
  · rintro ⟨ty, hty, r, hr, c, hc, m, hm, rfl⟩
    exact ⟨ty, r, c, m, ⟨hty, hr, hc, farMinors_bay ty hr hc ▸ hm⟩, rfl⟩
  · rintro ⟨ty, r, c, m, ⟨hty, hr, hc, hm⟩, rfl⟩
    exact ⟨ty, hty, r, hr, c, hc, m, (farMinors_bay ty hr hc).symm ▸ hm, rfl⟩

theorem bayFar_fields {b ty r c m : Nat} (hb : b < 64) (h : BayPlace ty r c m) :
    let a := bayFar b ty r c m
    a < 2 ^ 32 ∧ a % 256 = 0 ∧ farSlab a = b / 16 ∧ farType a = ty ∧ farRow a = b % 16 / 4 * 3 + r ∧
      farCol a = b % 4 * 60 + c ∧ farMinor a = m := by
  obtain ⟨hty, hr, hc, hm⟩ := h
  have hle := farMinors_le ty 0 c
  exact mkFar_fields (by omega) (by omega) (by omega) (by omega) (by omega)

theorem farValid_bayFar {b ty r c m : Nat} (hb : b < 64) (h : BayPlace ty r c m) : farValid (bayFar b ty r c m) = true := by
  obtain ⟨hlt, hlow, -, htype, hrow, hcol, hminor⟩ := bayFar_fields hb h
  obtain ⟨-, hr, hc, hm⟩ := h
  rw [farValid, htype, hrow, hcol, hminor, farMinors_bay ty hr hc, hlow, decide_eq_true hlt, decide_eq_true hm]; rfl

theorem farBay_bayFar {b ty r c m : Nat} (hb : b < 64) (h : BayPlace ty r c m) : farBay (bayFar b ty r c m) = some b := by
  obtain ⟨-, -, hslab, -, hrow, hcol, -⟩ := bayFar_fields hb h
  obtain ⟨-, hr, hc, -⟩ := h
  rw [farBay, hslab, hrow, hcol, if_pos (by omega)]
  exact congrArg some (by omega)

/-- A move keeps a frame's place within its bay. -/
theorem farMove_bayFar {b ty r c m : Nat} (d : Nat) (hb : b < 64) (h : BayPlace ty r c m) :
    farMove d (bayFar b ty r c m) = bayFar d ty r c m := by
  obtain ⟨-, -, -, htype, hrow, hcol, hminor⟩ := bayFar_fields hb h
  obtain ⟨-, hr, hc, -⟩ := h
  have hrow' : (b % 16 / 4 * 3 + r) % 3 + d % 16 / 4 * 3 = d % 16 / 4 * 3 + r := by omega
  have hcol' : (b % 4 * 60 + c) % 60 + d % 4 * 60 = d % 4 * 60 + c := by omega
  rw [farMove, htype, hrow, hcol, hminor, hrow', hcol', bayFar]

/-- A frame of one bay's window moves to the same place of another's, and back (04 R214). -/
theorem farMove_window {b d a : Nat} (hb : b < 64) (hd : d < 64) (ha : a ∈ bayWindow b) :
    farMove d a ∈ bayWindow d ∧ farValid (farMove d a) = true ∧ farBay (farMove d a) = some d ∧
      farType (farMove d a) = farType a ∧ farMinor (farMove d a) = farMinor a ∧ farMove b (farMove d a) = a := by
  obtain ⟨ty, r, c, m, hplace, rfl⟩ := mem_bayWindow.mp ha
  obtain ⟨-, -, -, htype, -, -, hminor⟩ := bayFar_fields hb hplace
  obtain ⟨-, -, -, htype', -, -, hminor'⟩ := bayFar_fields hd hplace
  rw [farMove_bayFar d hb hplace]
  exact ⟨mem_bayWindow.mpr ⟨ty, r, c, m, hplace, rfl⟩, farValid_bayFar hd hplace, farBay_bayFar hd hplace,
    htype'.trans htype.symm, hminor'.trans hminor.symm, farMove_bayFar b hd hplace⟩

end Sys2Proof.Machine
end

section
/-! Fabric resets (04 R181 to R184): what a source's assertion and the release do. -/

namespace Sys2Proof.Machine

/-- A reset row tells the level of the pin where a pin is the source (04 R181). -/
def State.frstTold (s : State) (slab n : Nat) (level : Bool) : State :=
  s.when (s.frstSrc slab n == .pin) (frstPinSet slab n level)

theorem exec_fabricResetAssert_other {s : State} {slab n : Fin 4} {src : FrstSrc} (h : src ≠ s.frstSrc slab n) :
    exec (.fabricResetAssert slab n src) s = .next s :=
  congrArg Host.Outcome.next (if_pos h.symm)

theorem exec_fabricResetAssert {s : State} {slab n : Fin 4}
    (h : (s.frstTold slab n true).frstWanted slab n (s.frstSrc slab n) = true) :
    exec (.fabricResetAssert slab n (s.frstSrc slab n)) s = .next (frstAssert slab n (s.frstTold slab n true)) :=
  congrArg Host.Outcome.next ((if_neg (not_not.mpr rfl)).trans (if_pos h))

theorem exec_fabricResetRelease {s : State} {slab n : Fin 4} (hhold : s.fabric.hold = false)
    (h : (s.frstTold slab n false).frstWanted slab n (s.frstSrc slab n) = false) :
    exec (.fabricResetRelease slab n) s = .next (frstFree slab n (s.frstTold slab n false)) := by
  have hfree : (s.fabric.hold || (s.frstTold slab n false).frstWanted slab n (s.frstSrc slab n)) = false := by rw [hhold, h]; rfl
  exact congrArg Host.Outcome.next (if_neg (Bool.eq_false_iff.mp hfree))

/-- Telling a pin's level changes which pins assert, and nothing else. -/
theorem frstTold_frame (s : State) (slab n : Nat) (level : Bool) :
    ∃ on, s.frstTold slab n level = { s with fabric := { s.fabric with frstPinOn := on } } := by
  by_cases h : (s.frstSrc slab n == .pin) = true
  · exact ⟨_, if_pos h⟩
  · exact ⟨s.fabric.frstPinOn, if_neg h⟩

theorem frstWanted_frstTold_pin {s : State} {slab n : Nat} (h : s.frstSrc slab n = .pin) (level : Bool) :
    (s.frstTold slab n level).frstWanted slab n .pin = level := by
  rw [State.frstTold, h]
  cases level <;> simp [State.when, frstPinSet, State.frstWanted]

theorem frstTold_of_ne_pin {s : State} {slab n : Nat} (h : s.frstSrc slab n ≠ .pin) (level : Bool) : s.frstTold slab n level = s :=
  if_neg (by simpa using h)

/-- A source calls for its reset: a pin as it is told, software while its CFG_FRST bit is 1, start-up before its release. -/
theorem frstWanted_frstTold_true {s : State} {slab n : Nat}
    (h : s.frstSrc slab n = .pin ∨ (s.frstSrc slab n = .software ∧ bit (s.get F.CFG_FRST_ASSERT) (slab * 4 + n) = true) ∨
      (s.frstSrc slab n = .startup ∧ s.fabric.hold = true)) :
    (s.frstTold slab n true).frstWanted slab n (s.frstSrc slab n) = true := by
  obtain hsrc | ⟨hsrc, hbit⟩ | ⟨hsrc, hhold⟩ := h
  · rw [hsrc, frstWanted_frstTold_pin hsrc]
  · rw [frstTold_of_ne_pin (by simp [hsrc]), hsrc]; exact hbit
  · rw [frstTold_of_ne_pin (by simp [hsrc]), hsrc]; exact hhold

/-- After start-up's release no pin told low, and no software whose bit is 0, calls for its reset. -/
theorem frstWanted_frstTold_false {s : State} {slab n : Nat} (hhold : s.fabric.hold = false)
    (h : s.frstSrc slab n = .software → bit (s.get F.CFG_FRST_ASSERT) (slab * 4 + n) = false) :
    (s.frstTold slab n false).frstWanted slab n (s.frstSrc slab n) = false := by
  cases hsrc : s.frstSrc slab n with
  | startup => rw [frstTold_of_ne_pin (by simp [hsrc])]; exact hhold
  | software => rw [frstTold_of_ne_pin (by simp [hsrc])]; exact h hsrc
  | pin => exact frstWanted_frstTold_pin hsrc false

theorem frstOn_frstAssert_same (slab n : Nat) (s : State) : (frstAssert slab n s).frstOn slab n = true := by
  simp [State.frstOn, frstAssert, flopsInit]

theorem frstOn_frstAssert_ne {slab n a b : Nat} (h : (a, b) ≠ (slab, n)) (s : State) :
    (frstAssert slab n s).frstOn a b = s.frstOn a b := by
  simp [State.frstOn, frstAssert, flopsInit, h]

/-- Every flip-flop that selects the reset goes to INIT, and no other (04 R166, R183). -/
theorem flops_frstAssert (slab n : Nat) (s : State) :
    (frstAssert slab n s).fabric.flops = s.fabric.flops.map (fun e =>
      (e.1, if e.2.slab = slab ∧ e.2.frst = some n then { e.2 with q := e.2.init } else e.2)) := by
  simp [frstAssert, flopsInit]

theorem frstOn_frstFree_same (slab n : Nat) (s : State) : (frstFree slab n s).frstOn slab n = false := by
  rw [State.frstOn, frstFree]
  split_ifs with h
  · simpa using h
  · simp

theorem frstOn_frstFree_ne {slab n a b : Nat} (h : (a, b) ≠ (slab, n)) (s : State) :
    (frstFree slab n s).frstOn a b = s.frstOn a b := by
  rw [State.frstOn, State.frstOn, frstFree]
  split_ifs
  · rfl
  · simp [h]

end Sys2Proof.Machine
end

section
/-! Bank supplies (04 R190, R206): what a bank without VCCO drives, and what no bank's supply touches. -/

namespace Sys2Proof.Machine

theorem uioDrive_of_bankOff {s : State} {i : Nat} (h : i / 48 ∈ s.fabric.bankOff) : s.uioDrive i = none :=
  if_pos (List.contains_iff_mem.mpr h)

/-- Of the banks without VCCO, a pin's drive depends on its own alone. -/
theorem uioDrive_bankOff {s : State} {off : List Nat} {i : Nat} (h : i / 48 ∈ off ↔ i / 48 ∈ s.fabric.bankOff) :
    { s with fabric := { s.fabric with bankOff := off } }.uioDrive i = s.uioDrive i := by
  have hsame : off.contains (i / 48) = s.fabric.bankOff.contains (i / 48) := by simp [h]
  unfold State.uioDrive
  dsimp only
  rw [hsame]; rfl

/-- The banks without VCCO after the loss of one more. -/
def bankLost (bank : Nat) (off : List Nat) : List Nat := if off.contains bank then off else off ++ [bank]

theorem mem_bankLost {bank b : Nat} {off : List Nat} : b ∈ bankLost bank off ↔ b ∈ off ∨ b = bank := by
  rw [bankLost]
  split_ifs with h
  · refine ⟨Or.inl, fun hb => hb.elim id fun hbank => ?_⟩
    exact hbank ▸ List.contains_iff_mem.mp h
  · simp

theorem exec_vccoLoss (bank : Fin 20) (s : State) : exec (.vccoLoss bank) s =
    .next { s with fabric := { s.fabric with bankOff := bankLost bank s.fabric.bankOff } } := rfl

theorem exec_vccoReturn (bank : Fin 20) (level : Vcco) (s : State) : exec (.vccoReturn bank level) s =
    .next { s with fabric := { s.fabric with
      bankOff := s.fabric.bankOff.filter (· != bank.val), vcco := s.fabric.vcco.set bank.val level } } := rfl

end Sys2Proof.Machine
end

section
/-! Frame windows, fabric resets and bank supplies, put together. -/

namespace Sys2Proof.Machine

theorem completes_fabricResetAssert {s : State} {slab n : Fin 4}
    (h : (s.frstTold slab n true).frstWanted slab n (s.frstSrc slab n) = true) :
    Completes (.fabricResetAssert slab n (s.frstSrc slab n)) s fun t =>
      t.frstOn slab n = true ∧ (∀ a b, (a, b) ≠ (slab.val, n.val) → t.frstOn a b = s.frstOn a b) ∧
      t.fabric.flops = s.fabric.flops.map (fun e =>
        (e.1, if e.2.slab = slab.val ∧ e.2.frst = some n.val then { e.2 with q := e.2.init } else e.2)) ∧
      t = { s with fabric := { s.fabric with
        released := t.fabric.released, flops := t.fabric.flops, synced := t.fabric.synced, frstPinOn := t.fabric.frstPinOn } } := by
  obtain ⟨on, htold⟩ := frstTold_frame s slab n true
  refine ⟨_, exec_fabricResetAssert h, ?_⟩
  rw [htold]
  exact ⟨frstOn_frstAssert_same _ _ _, fun a b hne => frstOn_frstAssert_ne hne _, flops_frstAssert _ _ _, rfl⟩

theorem completes_fabricResetRelease {s : State} {slab n : Fin 4} (hhold : s.fabric.hold = false)
    (h : (s.frstTold slab n false).frstWanted slab n (s.frstSrc slab n) = false) :
    Completes (.fabricResetRelease slab n) s fun t => t.frstOn slab n = false ∧
      (∀ a b, (a, b) ≠ (slab.val, n.val) → t.frstOn a b = s.frstOn a b) ∧
      t = { s with fabric := { s.fabric with released := t.fabric.released, frstPinOn := t.fabric.frstPinOn } } := by
  obtain ⟨on, htold⟩ := frstTold_frame s slab n false
  refine ⟨_, exec_fabricResetRelease hhold h, ?_⟩
  rw [htold]
  exact ⟨frstOn_frstFree_same _ _ _, fun a b hne => frstOn_frstFree_ne hne _, rfl⟩

theorem completes_vccoLoss (bank : Fin 20) (s : State) : Completes (.vccoLoss bank) s fun t =>
    (∀ p < 48, t.uioDrive (bank * 48 + p) = none) ∧ (∀ i, i / 48 ≠ bank.val → t.uioDrive i = s.uioDrive i) ∧
    t = { s with fabric := { s.fabric with bankOff := t.fabric.bankOff } } := by
  refine ⟨_, exec_vccoLoss bank s, fun p hp => uioDrive_of_bankOff ?_, fun i hi => uioDrive_bankOff ?_, rfl⟩
  · exact mem_bankLost.mpr (.inr (by omega))
  · exact mem_bankLost.trans (or_iff_left hi)

theorem completes_vccoReturn (bank : Fin 20) (level : Vcco) (s : State) : Completes (.vccoReturn bank level) s fun t =>
    t.fabric.vcco.get .v18 bank.val = level ∧
    (∀ p < 48, s.fabric.bankOff = [bank.val] → t.uioDrive (bank * 48 + p) =
      { s with fabric := { s.fabric with bankOff := [], vcco := s.fabric.vcco.set bank.val level } }.uioDrive (bank * 48 + p)) ∧
    (∀ b, b ∈ t.fabric.bankOff ↔ b ∈ s.fabric.bankOff ∧ b ≠ bank.val) ∧
    t = { s with fabric := { s.fabric with bankOff := t.fabric.bankOff, vcco := t.fabric.vcco } } := by
  refine ⟨_, exec_vccoReturn bank level s, Tbl.get_set_same _ _ _ _, fun p _ hoff => ?_, fun b => by simp, rfl⟩
  have hnone : s.fabric.bankOff.filter (· != bank.val) = [] := by simp [hoff]
  rw [hnone]

/-- Settles O15: a frame keeps its place in the window it moves to; a reset row tells its pin's level and then asserts or frees
one reset; a pin's drive depends on no bank's supply but its own. -/
theorem framesAndFabricResets : Obligations.FramesAndFabricResets := by
  refine ⟨⟨fun b hb d hd a => farMove_window hb hd, fun _ _ _ _ _ => mkFar_fields⟩, fun s =>
    ⟨fun slab n => ⟨fun src' => exec_fabricResetAssert_other, fun hwanted => ?_, fun hhold hbit => ?_⟩,
      fun bank => completes_vccoLoss bank s, fun bank level => completes_vccoReturn bank level s⟩⟩
  · exact completes_fabricResetAssert (frstWanted_frstTold_true hwanted)
  · exact completes_fabricResetRelease hhold (frstWanted_frstTold_false hhold hbit)

end Sys2Proof.Machine
end

section
/-! Hard FIFOs (05 R241 to R260): what every clock edge leaves, and one equation per row on a FIFO that acts. -/

namespace Sys2Proof.Machine

/-! The FIFO of a block. -/

@[simp] theorem fifo_setFifo_same (s : State) (id : BlockId) (f : Fifo) : (s.setFifo id f).fifo id = f :=
  Tbl.get_set_same _ _ _ _

theorem fifo_setFifo_ne {s : State} {id id' : BlockId} (f : Fifo) (h : id' ≠ id) : (s.setFifo id f).fifo id' = s.fifo id' :=
  Tbl.get_set_ne _ _ _ h.symm

/-- A row that replaces one FIFO changes that FIFO only. -/
theorem fifoOnly_setFifo (s : State) (id : BlockId) (f : Fifo) :
    (∀ id', id' ≠ id → (s.setFifo id f).fifo id' = s.fifo id') ∧
      s.setFifo id f = { s with fifos := (s.setFifo id f).fifos } :=
  ⟨fun _ h => fifo_setFifo_ne f h, rfl⟩

/-! Clock edges. -/

/-- `g` holds what `f` holds, up to the flags and what each side has seen of the other's pointer. -/
structure Fifo.SameStore (f g : Fifo) : Prop where
  entries : g.entries = f.entries
  wr : g.wr = f.wr
  rd : g.rd = f.rd
  dropCnt : g.dropCnt = f.dropCnt
  taken : g.taken = f.taken
  underflow : g.underflow = f.underflow
  flushR : g.flushR = f.flushR
  flushReq : g.flushReq = f.flushReq
  flushPoint : g.flushPoint = f.flushPoint
  drain : g.drain = f.drain
  rstW : g.rstW = f.rstW
  rstR : g.rstR = f.rstR
  dropping : f.dropping = false → g.dropping = false

namespace Fifo.SameStore

theorem refl (f : Fifo) : f.SameStore f := ⟨rfl, rfl, rfl, rfl, rfl, rfl, rfl, rfl, rfl, rfl, rfl, rfl, id⟩

theorem trans {f g h : Fifo} (fg : f.SameStore g) (gh : g.SameStore h) : f.SameStore h where
  entries := gh.entries.trans fg.entries
  wr := gh.wr.trans fg.wr
  rd := gh.rd.trans fg.rd
  dropCnt := gh.dropCnt.trans fg.dropCnt
  taken := gh.taken.trans fg.taken
  underflow := gh.underflow.trans fg.underflow
  flushR := gh.flushR.trans fg.flushR
  flushReq := gh.flushReq.trans fg.flushReq
  flushPoint := gh.flushPoint.trans fg.flushPoint
  drain := gh.drain.trans fg.drain
  rstW := gh.rstW.trans fg.rstW
  rstR := gh.rstR.trans fg.rstR
  dropping := gh.dropping ∘ fg.dropping

end Fifo.SameStore

theorem sameStore_fifoWrFlags (c : BlockCfg) (f : Fifo) : f.SameStore (fifoWrFlags c f) :=
  ⟨rfl, rfl, rfl, rfl, rfl, rfl, rfl, rfl, rfl, rfl, rfl, rfl, fun h => by simp [fifoWrFlags, h]⟩

theorem sameStore_fifoRdFlags (c : BlockCfg) (f : Fifo) : f.SameStore (fifoRdFlags c f) :=
  ⟨rfl, rfl, rfl, rfl, rfl, rfl, rfl, rfl, rfl, rfl, rfl, rfl, id⟩

theorem sameStore_fifoWrEdge (f : Fifo) : f.SameStore (fifoWrEdge f) := by
  unfold fifoWrEdge
  split
  · exact .refl f
  · exact ⟨rfl, rfl, rfl, rfl, rfl, rfl, rfl, rfl, rfl, rfl, rfl, rfl, id⟩

theorem sameStore_fifoRdEdge (f : Fifo) : f.SameStore (fifoRdEdge f) := by
  unfold fifoRdEdge
  split
  · exact .refl f
  · exact ⟨rfl, rfl, rfl, rfl, rfl, rfl, rfl, rfl, rfl, rfl, rfl, rfl, id⟩

/-- Each side has the other's pointer, with no synchroniser between (05 R251). -/
def Fifo.sawAll (f : Fifo) : Fifo :=
  { f with wrSeen := f.wr, rdSeen := f.rd, wrSync := (f.wr, f.wr), rdSync := (f.rd, f.rd),
           rdUnseen := if f.rstW || f.rstR then f.rdUnseen else 0 }

theorem fifoCommon_of_common {c : BlockCfg} (h : c.common = true) (f : Fifo) :
    fifoCommon c f = fifoRdFlags c (fifoWrFlags c f.sawAll) := if_pos h

theorem fifoCommon_of_unrelated {c : BlockCfg} (h : c.common = false) (f : Fifo) : fifoCommon c f = f :=
  if_neg (by simp [h])

theorem sameStore_sawAll (f : Fifo) : f.SameStore f.sawAll :=
  ⟨rfl, rfl, rfl, rfl, rfl, rfl, rfl, rfl, rfl, rfl, rfl, rfl, id⟩

theorem sameStore_fifoCommon (c : BlockCfg) (f : Fifo) : f.SameStore (fifoCommon c f) := by
  cases hc : c.common with
  | true =>
    rw [fifoCommon_of_common hc]
    exact ((sameStore_sawAll f).trans (sameStore_fifoWrFlags c _)).trans (sameStore_fifoRdFlags c _)
  | false =>
    rw [fifoCommon_of_unrelated hc]
    exact .refl f

/-- The whole of an edge of the write clock, after what the row itself does. -/
def fifoWrClock (c : BlockCfg) (f : Fifo) : Fifo := fifoCommon c (fifoWrFlags c (fifoWrEdge f))

/-- The whole of an edge of the read clock, after what the row itself does. -/
def fifoRdClock (c : BlockCfg) (f : Fifo) : Fifo := fifoCommon c (fifoRdFlags c (fifoRdEdge f))

theorem sameStore_fifoWrClock (c : BlockCfg) (f : Fifo) : f.SameStore (fifoWrClock c f) :=
  ((sameStore_fifoWrEdge f).trans (sameStore_fifoWrFlags c _)).trans (sameStore_fifoCommon c _)

theorem sameStore_fifoRdClock (c : BlockCfg) (f : Fifo) : f.SameStore (fifoRdClock c f) :=
  ((sameStore_fifoRdEdge f).trans (sameStore_fifoRdFlags c _)).trans (sameStore_fifoCommon c _)

/-- Outside reset and with unrelated clocks, a write edge moves the read pointer on by one stage (05 R247). -/
theorem fifoWrClock_stages {c : BlockCfg} {f : Fifo} (hrst : f.rstW = false) (hc : c.common = false) :
    (fifoWrClock c f).rdSeen = f.rdSync.2 ∧ (fifoWrClock c f).rdSync = (f.rd, f.rdSync.1) := by
  simp [fifoWrClock, fifoCommon, fifoWrFlags, fifoWrEdge, hrst, hc]

/-- Outside reset and with unrelated clocks, a read edge moves the write pointer on by one stage (05 R247). -/
theorem fifoRdClock_stages {c : BlockCfg} {f : Fifo} (hrst : f.rstR = false) (hc : c.common = false) :
    (fifoRdClock c f).wrSeen = f.wrSync.2 ∧ (fifoRdClock c f).wrSync = (f.wr, f.wrSync.1) := by
  simp [fifoRdClock, fifoCommon, fifoRdFlags, fifoRdEdge, hrst, hc]

theorem fifoRdFlags_presents {c : BlockCfg} {f : Fifo} {e : FifoEntry} {es : List FifoEntry} (hf : f.entries = e :: es)
    (hempty : (fifoRdFlags c f).empty = false) : (fifoRdFlags c f).out = e := by
  have hout : (fifoRdFlags c f).out = if (fifoRdFlags c f).empty then f.out else f.entries.headD f.out := rfl
  rw [hout, hempty, hf]; rfl

/-- A read edge presents the head entry while EMPTY is 0 (05 R244). -/
theorem fifoRdClock_presents {c : BlockCfg} {f : Fifo} {e : FifoEntry} {es : List FifoEntry} (hf : f.entries = e :: es)
    (hempty : (fifoRdClock c f).empty = false) : (fifoRdClock c f).out = e := by
  cases hc : c.common with
  | true =>
    rw [fifoRdClock, fifoCommon_of_common hc] at hempty ⊢
    have hsame := ((sameStore_fifoRdEdge f).trans (sameStore_fifoRdFlags c _)).trans
      ((sameStore_sawAll _).trans (sameStore_fifoWrFlags c _))
    exact fifoRdFlags_presents (hsame.entries.trans hf) hempty
  | false =>
    rw [fifoRdClock, fifoCommon_of_unrelated hc] at hempty ⊢
    exact fifoRdFlags_presents ((sameStore_fifoRdEdge f).entries.trans hf) hempty

/-! What a write does (05 R242, R252). -/

/-- The entry an accepted write stores (05 R242, R243). -/
def fifoEntryOf (c : BlockCfg) (din : W64) (last : Bool) (pin : Byte) : FifoEntry :=
  let m : W64 := BitVec.ofNat 64 (2 ^ (8 * cfgBytes c) - 1)
  ⟨din &&& m, if last then 0b01 else 0b00, c.parityIn && ((pin ^^^ byteParity (din &&& m)).toNat % 2 ^ cfgBytes c != 0)⟩

theorem fifoPush_drain (c : BlockCfg) {f : Fifo} (din : W64) (last : Bool) (pin : Byte) (hdrain : f.drain = true) :
    fifoPush c din last pin f = { f with openSeen := !last, drain := !last, flushW := f.flushW && !last } :=
  if_pos hdrain

theorem fifoPush_dropping (c : BlockCfg) {f : Fifo} (din : W64) (last : Bool) (pin : Byte) (hdrain : f.drain = false)
    (hdrop : f.dropping = true) :
    fifoPush c din last pin f = { f with openSeen := !last, dropping := !last || f.full, dropEnd := last && f.full,
                                         dropCnt := min 0xFFFF (f.dropCnt + 1) } := by
  cases last <;> cases hfull : f.full <;> simp [fifoPush, hdrain, hdrop, hfull]

theorem fifoPush_accept {c : BlockCfg} {f : Fifo} (din : W64) (last : Bool) (pin : Byte) (hdrain : f.drain = false)
    (hdrop : f.dropping = false) (hfull : f.full = false) :
    fifoPush c din last pin f =
      { fifoStore (fifoEntryOf c din last pin) { f with openSeen := !last } with openAcc := !last } := by
  simp [fifoPush, fifoEntryOf, hdrain, hdrop, hfull]

theorem fifoPush_full {c : BlockCfg} {f : Fifo} (din : W64) (last : Bool) (pin : Byte) (hdrain : f.drain = false)
    (hdrop : f.dropping = false) (hfull : f.full = true) :
    fifoPush c din last pin f = { fifoStore ⟨0, 0b10, false⟩ { f with openSeen := !last } with
      dropping := true, dropEnd := last, dropCnt := min 0xFFFF (f.dropCnt + 1) } := by
  simp [fifoPush, fifoStore, hdrain, hdrop, hfull]

end Sys2Proof.Machine
end

section
/-! The FIFO rows (05 R241 to R260) on a FIFO that acts, and on one that does not. -/

namespace Sys2Proof.Machine

/-- The commands on one FIFO. -/
def FifoCommand (id : BlockId) (i : Instr) : Prop :=
  (∃ din last pin, i = .fifoWrite id din last pin) ∨ (∃ h k, i = .fifoRead id h k) ∨ i = .flush id ∨
    i = .flushPointRecord id ∨ i = .flushComplete id ∨ i = .fifoReset id ∨ (∃ w, i = .fifoResetRelease id w) ∨
    (∃ w, i = .pointerSync id w)

variable {s : State} {id : BlockId}

theorem exec_fifoWrite (hacts : s.fifoActs id = true) (hrst : (s.fifo id).rstW = false) (din : W64) (last : Bool) (pin : Byte) :
    exec (.fifoWrite id din last pin) s =
      .next (s.setFifo id (fifoWrClock (s.blockCfg id false) (fifoPush (s.blockCfg id false) din last pin (s.fifo id)))) :=
  congrArg Host.Outcome.next (if_neg (by simp [hacts, hrst]))

theorem exec_fifoRead_underflow (hacts : s.fifoActs id = true) (hrst : (s.fifo id).rstR = false)
    (h : (s.fifo id).entries = [] ∨ (s.fifo id).empty = true ∨ (s.fifo id).flushR = true) (hit tagHit : Bool) :
    exec (.fifoRead id hit tagHit) s =
      .next (s.setFifo id (fifoRdClock (s.blockCfg id true) { s.fifo id with underflow := true })) := by
  refine congrArg Host.Outcome.next ((if_neg (by simp [hacts, hrst])).trans ?_)
  split
  · exact if_pos (by simp_all [or_comm])
  · rfl

/-- The entry a read delivers; a struck one is poisoned, its data free (05 R258). -/
def fifoDelivered (s : State) (hit tagHit : Bool) (e : FifoEntry) : FifoEntry :=
  let o : FifoEntry := if tagHit then ⟨e.data, 0b01, true⟩ else { e with bad := e.bad || hit }
  if hit then { o with data := Config.freeWord s.free } else o

/-- The FIFO without its head entry, in place of which it delivered `o`. -/
def Fifo.popped (f : Fifo) (es : List FifoEntry) (o : FifoEntry) : Fifo :=
  { f with entries := es, rd := f.rd + 1, taken := o, underflow := false }

theorem exec_fifoRead {e : FifoEntry} {es : List FifoEntry} (hacts : s.fifoActs id = true) (hrst : (s.fifo id).rstR = false)
    (hentries : (s.fifo id).entries = e :: es) (hflush : (s.fifo id).flushR = false) (hempty : (s.fifo id).empty = false)
    (hit tagHit : Bool) :
    exec (.fifoRead id hit tagHit) s = .next ((s.setFifo id (fifoRdClock (s.blockCfg id true)
      ((s.fifo id).popped es (fifoDelivered s hit tagHit e)))).when hit (·.fresh)) := by
  refine congrArg Host.Outcome.next ((if_neg (by simp [hacts, hrst])).trans ?_)
  rw [hentries]
  exact if_neg (by simp [hflush, hempty])

theorem exec_flush (hacts : s.fifoActs id = true) (hrst : (s.fifo id).rstR = false) (hflush : (s.fifo id).flushR = false) :
    exec (.flush id) s = .next (s.setFifo id
      (fifoRdEdge { s.fifo id with empty := true, flushR := true, flushReq := true, underflow := false })) :=
  congrArg Host.Outcome.next (if_neg (by simp [hacts, hrst, hflush]))

/-- The FIFO whose flush request has just reached the write side (05 R255 to R257). -/
def Fifo.recorded (f : Fifo) : Fifo :=
  let unfinished := f.openAcc || (f.dropping && f.openSeen) || f.drain
  { f with flushReq := false, flushPoint := some f.wr, flushW := unfinished, drain := unfinished,
           dropping := false, dropEnd := false, openAcc := false }

theorem exec_flushPointRecord (hacts : s.fifoActs id = true) (hreq : (s.fifo id).flushReq = true)
    (hrst : (s.fifo id).rstW = false) :
    exec (.flushPointRecord id) s = .next (s.setFifo id (fifoWrClock (s.blockCfg id false) (s.fifo id).recorded)) :=
  congrArg Host.Outcome.next (if_neg (by simp [hacts, hreq, hrst]))

/-- The FIFO with everything before the flush point `p` dropped (05 R255). -/
def Fifo.flushed (f : Fifo) (p : Nat) : Fifo :=
  { f with entries := f.entries.drop (p - f.rd), rd := max f.rd p, flushR := false, flushPoint := none }

/-- The read side has seen the write pointer at least up to `p`. -/
def Fifo.sawUpTo (f : Fifo) (p : Nat) : Fifo :=
  { f with wrSeen := max f.wrSeen p, wrSync := (max f.wrSync.1 p, max f.wrSync.2 p) }

theorem sameStore_sawUpTo (f : Fifo) (p : Nat) : f.SameStore (f.sawUpTo p) :=
  ⟨rfl, rfl, rfl, rfl, rfl, rfl, rfl, rfl, rfl, rfl, rfl, rfl, id⟩

theorem exec_flushComplete_none (hp : (s.fifo id).flushPoint = none) : exec (.flushComplete id) s = .next s := by
  refine congrArg Host.Outcome.next ?_
  simp only [hp]

theorem exec_flushComplete (hacts : s.fifoActs id = true) {p : Nat} (hp : (s.fifo id).flushPoint = some p) :
    exec (.flushComplete id) s = .next (s.setFifo id (fifoCommon (s.blockCfg id true) (fifoRdFlags (s.blockCfg id true)
      ((fifoRdEdge ((s.fifo id).flushed p)).sawUpTo p)))) := by
  refine congrArg Host.Outcome.next ?_
  simp only [hp, hacts]
  rfl

theorem exec_fifoReset (hacts : s.fifoActs id = true) :
    exec (.fifoReset id) s = .next (s.setFifo id
      { ({} : Fifo) with full := true, empty := true, rstW := true, rstR := true, rdUnseen := 3 }) :=
  congrArg Host.Outcome.next (if_pos hacts)

theorem exec_fifoResetRelease (hacts : s.fifoActs id = true) (writeSide : Bool) :
    exec (.fifoResetRelease id writeSide) s = .next (s.setFifo id (fifoCommon (s.blockCfg id writeSide)
      (if writeSide then { s.fifo id with rstW := false } else { s.fifo id with rstR := false }))) :=
  congrArg Host.Outcome.next (if_neg (by simp [hacts]))

theorem exec_pointerSync_write (hacts : s.fifoActs id = true) (hrst : (s.fifo id).rstW = false) :
    exec (.pointerSync id true) s = .next (s.setFifo id (fifoWrClock (s.blockCfg id false) (s.fifo id))) :=
  congrArg Host.Outcome.next ((if_neg (by simp [hacts])).trans ((if_pos rfl).trans (if_neg (by simp [hrst]))))

theorem exec_pointerSync_read (hacts : s.fifoActs id = true) (hrst : (s.fifo id).rstR = false) :
    exec (.pointerSync id false) s =
      .next (s.setFifo id (fifoRdClock (s.blockCfg id true) { s.fifo id with underflow := false })) :=
  congrArg Host.Outcome.next
    ((if_neg (by simp [hacts])).trans ((if_neg Bool.false_ne_true).trans (if_neg (by simp [hrst]))))

theorem exec_fifoCommand_idle (hacts : s.fifoActs id = false) {i : Instr} (hi : FifoCommand id i) : exec i s = .next s := by
  obtain ⟨din, last, pin, rfl⟩ | ⟨hit, tagHit, rfl⟩ | rfl | rfl | rfl | rfl | ⟨w, rfl⟩ | ⟨w, rfl⟩ := hi
  case inr.inr.inr.inr.inl =>
    cases hp : (s.fifo id).flushPoint with
    | none => exact exec_flushComplete_none hp
    | some p => refine congrArg Host.Outcome.next ?_; simp [hp, hacts]
  case inr.inr.inr.inr.inr.inl => exact congrArg Host.Outcome.next (if_neg (by simp [hacts]))
  all_goals exact congrArg Host.Outcome.next (if_pos (by simp [hacts]))

/-! What a side in reset, and a flush under way or not asked for, leave. -/

theorem exec_fifoWrite_reset (h : (s.fifo id).rstW = true) (din : W64) (last : Bool) (pin : Byte) :
    exec (.fifoWrite id din last pin) s = .next s :=
  congrArg Host.Outcome.next (if_pos (by simp [h]))

theorem exec_fifoRead_reset (h : (s.fifo id).rstR = true) (hit tagHit : Bool) : exec (.fifoRead id hit tagHit) s = .next s :=
  congrArg Host.Outcome.next (if_pos (by simp [h]))

theorem exec_flush_refused (h : (s.fifo id).rstR = true ∨ (s.fifo id).flushR = true) : exec (.flush id) s = .next s :=
  congrArg Host.Outcome.next (if_pos (by obtain h | h := h <;> simp [h]))

theorem exec_flushPointRecord_none (h : (s.fifo id).flushReq = false ∨ (s.fifo id).rstW = true) :
    exec (.flushPointRecord id) s = .next s :=
  congrArg Host.Outcome.next (if_pos (by obtain h | h := h <;> simp [h]))

theorem exec_pointerSync_write_reset (h : (s.fifo id).rstW = true) : exec (.pointerSync id true) s = .next s :=
  congrArg Host.Outcome.next ((congrArg (ite _ s) (if_pos h)).trans (ite_self s))

theorem exec_pointerSync_read_reset (h : (s.fifo id).rstR = true) : exec (.pointerSync id false) s = .next s :=
  congrArg Host.Outcome.next ((congrArg (ite _ s) (if_pos h)).trans (ite_self s))

end Sys2Proof.Machine
end

section
/-! Pointers and entries of a FIFO stay in step (05 R241 to R260). -/

namespace Sys2Proof.Machine

/-- The FIFO holds the entries between its pointers, and no view of a pointer is ahead of it. -/
def Fifo.InStep (f : Fifo) : Prop :=
  f.wr = f.rd + f.entries.length ∧ f.wrSeen ≤ f.wr ∧ f.rdSeen ≤ f.rd ∧
    f.wrSync.1 ≤ f.wr ∧ f.wrSync.2 ≤ f.wr ∧ f.rdSync.1 ≤ f.rd ∧ f.rdSync.2 ≤ f.rd ∧
    ∀ p, f.flushPoint = some p → p ≤ f.wr

namespace Fifo.InStep

variable {f : Fifo}

theorem wrFlags (h : f.InStep) (c : BlockCfg) : (fifoWrFlags c f).InStep := h

theorem rdFlags (h : f.InStep) (c : BlockCfg) : (fifoRdFlags c f).InStep := h

theorem flushPoint_le (h : f.InStep) {p : Nat} (hp : f.flushPoint = some p) : p ≤ f.wr := by
  obtain ⟨-, -, -, -, -, -, -, hflush⟩ := h
  exact hflush p hp

theorem wrEdge (h : f.InStep) : (fifoWrEdge f).InStep := by
  obtain ⟨hlen, hwrSeen, -, hwr1, hwr2, hrd1, hrd2, hflush⟩ := id h
  unfold fifoWrEdge
  split
  · exact h
  · exact ⟨hlen, hwrSeen, hrd2, hwr1, hwr2, le_rfl, hrd1, hflush⟩

theorem rdEdge (h : f.InStep) : (fifoRdEdge f).InStep := by
  obtain ⟨hlen, -, hrdSeen, hwr1, hwr2, hrd1, hrd2, hflush⟩ := id h
  unfold fifoRdEdge
  split
  · exact h
  · exact ⟨hlen, hwr2, hrdSeen, le_rfl, hwr1, hrd1, hrd2, hflush⟩

theorem sawAll (h : f.InStep) : f.sawAll.InStep := by
  obtain ⟨hlen, -, -, -, -, -, -, hflush⟩ := h
  exact ⟨hlen, le_rfl, le_rfl, le_rfl, le_rfl, le_rfl, le_rfl, hflush⟩

theorem common (h : f.InStep) (c : BlockCfg) : (fifoCommon c f).InStep := by
  cases hc : c.common with
  | true => rw [fifoCommon_of_common hc]; exact (h.sawAll.wrFlags c).rdFlags c
  | false => rwa [fifoCommon_of_unrelated hc]

theorem wrClock (h : f.InStep) (c : BlockCfg) : (fifoWrClock c f).InStep := (h.wrEdge.wrFlags c).common c

theorem rdClock (h : f.InStep) (c : BlockCfg) : (fifoRdClock c f).InStep := (h.rdEdge.rdFlags c).common c

/-- A stored entry moves the write pointer on by one. -/
theorem store (h : f.InStep) (e : FifoEntry) : (fifoStore e f).InStep := by
  obtain ⟨hlen, hwrSeen, hrdSeen, hwr1, hwr2, hrd1, hrd2, hflush⟩ := h
  refine ⟨?_, Nat.le_succ_of_le hwrSeen, hrdSeen, Nat.le_succ_of_le hwr1, Nat.le_succ_of_le hwr2, hrd1, hrd2,
    fun p hp => Nat.le_succ_of_le (hflush p hp)⟩
  simp only [fifoStore, List.length_append, List.length_singleton]
  omega

/-- A write stores one entry or none. -/
theorem push (h : f.InStep) (c : BlockCfg) (din : W64) (last : Bool) (pin : Byte) : (fifoPush c din last pin f).InStep := by
  have hseen : { f with openSeen := !last }.InStep := h
  cases hdrain : f.drain with
  | true => rw [fifoPush_drain c din last pin hdrain]; exact h
  | false =>
    cases hdrop : f.dropping with
    | true => rw [fifoPush_dropping c din last pin hdrain hdrop]; exact h
    | false =>
      cases hfull : f.full with
      | true => rw [fifoPush_full din last pin hdrain hdrop hfull]; exact hseen.store _
      | false => rw [fifoPush_accept din last pin hdrain hdrop hfull]; exact hseen.store _

/-- The removal of the head entry moves the read pointer on by one. -/
theorem popped {e : FifoEntry} {es : List FifoEntry} (h : f.InStep) (hf : f.entries = e :: es) (o : FifoEntry) :
    (f.popped es o).InStep := by
  obtain ⟨hlen, hwrSeen, hrdSeen, hwr1, hwr2, hrd1, hrd2, hflush⟩ := h
  rw [hf, List.length_cons] at hlen
  exact ⟨by simp only [Fifo.popped]; omega, hwrSeen, Nat.le_succ_of_le hrdSeen, hwr1, hwr2,
    Nat.le_succ_of_le hrd1, Nat.le_succ_of_le hrd2, hflush⟩

theorem recorded (h : f.InStep) : f.recorded.InStep := by
  obtain ⟨hlen, hwrSeen, hrdSeen, hwr1, hwr2, hrd1, hrd2, -⟩ := h
  exact ⟨hlen, hwrSeen, hrdSeen, hwr1, hwr2, hrd1, hrd2, fun p hp => (Option.some.inj hp).symm.le⟩

/-- The entries before the flush point are as many as the read pointer moves on. -/
theorem flushed (h : f.InStep) {p : Nat} (hp : p ≤ f.wr) : (f.flushed p).InStep := by
  obtain ⟨hlen, hwrSeen, hrdSeen, hwr1, hwr2, hrd1, hrd2, -⟩ := h
  refine ⟨?_, hwrSeen, le_max_of_le_left hrdSeen, hwr1, hwr2, le_max_of_le_left hrd1, le_max_of_le_left hrd2, nofun⟩
  simp only [Fifo.flushed, List.length_drop]
  omega

theorem sawUpTo (h : f.InStep) {p : Nat} (hp : p ≤ f.wr) : (f.sawUpTo p).InStep := by
  obtain ⟨hlen, hwrSeen, hrdSeen, hwr1, hwr2, hrd1, hrd2, hflush⟩ := h
  exact ⟨hlen, max_le hwrSeen hp, hrdSeen, max_le hwr1 hp, max_le hwr2 hp, hrd1, hrd2, hflush⟩

theorem flush (h : f.InStep) : { f with empty := true, flushR := true, flushReq := true, underflow := false }.InStep := h

theorem underflowed (h : f.InStep) (b : Bool) : { f with underflow := b }.InStep := h

theorem afterReset : { ({} : Fifo) with full := true, empty := true, rstW := true, rstR := true, rdUnseen := 3 }.InStep :=
  ⟨rfl, le_rfl, le_rfl, le_rfl, le_rfl, le_rfl, le_rfl, nofun⟩

theorem released (h : f.InStep) (writeSide : Bool) :
    (if writeSide then { f with rstW := false } else { f with rstR := false }).InStep := by
  cases writeSide <;> exact h

end Fifo.InStep

/-! Every FIFO command keeps a FIFO in step, and the others as they are. -/

/-- The command completes with the FIFO in step and every other one as it was. -/
def KeepsInStep (i : Instr) (id : BlockId) (s : State) : Prop :=
  Completes i s fun t => (t.fifo id).InStep ∧ ∀ id', id' ≠ id → t.fifo id' = s.fifo id'

variable {s : State} {id : BlockId}

theorem keepsInStep_of_same {i : Instr} (h : (s.fifo id).InStep) (hexec : exec i s = .next s) : KeepsInStep i id s :=
  ⟨s, hexec, h, fun _ _ => rfl⟩

theorem keepsInStep_of_setFifo {i : Instr} {f : Fifo} (hexec : exec i s = .next (s.setFifo id f)) (h : f.InStep) :
    KeepsInStep i id s :=
  ⟨_, hexec, by rwa [fifo_setFifo_same], fun _ hne => fifo_setFifo_ne f hne⟩

theorem fifo_when_fresh (t : State) (b : Bool) (id : BlockId) : (t.when b (·.fresh)).fifo id = t.fifo id := by
  cases b <;> rfl

section
variable (hacts : s.fifoActs id = true) (h : (s.fifo id).InStep)
include hacts h

theorem fifoWrite_keepsInStep (din : W64) (last : Bool) (pin : Byte) : KeepsInStep (.fifoWrite id din last pin) id s := by
  cases hrst : (s.fifo id).rstW with
  | true => exact keepsInStep_of_same h (exec_fifoWrite_reset hrst din last pin)
  | false => exact keepsInStep_of_setFifo (exec_fifoWrite hacts hrst din last pin) ((h.push _ din last pin).wrClock _)

theorem fifoRead_keepsInStep (hit tagHit : Bool) : KeepsInStep (.fifoRead id hit tagHit) id s := by
  cases hrst : (s.fifo id).rstR with
  | true => exact keepsInStep_of_same h (exec_fifoRead_reset hrst hit tagHit)
  | false =>
    by_cases hnone : (s.fifo id).entries = [] ∨ (s.fifo id).empty = true ∨ (s.fifo id).flushR = true
    · exact keepsInStep_of_setFifo (exec_fifoRead_underflow hacts hrst hnone hit tagHit) ((h.underflowed true).rdClock _)
    · obtain ⟨hentries, hempty, hflush⟩ : (s.fifo id).entries ≠ [] ∧ (s.fifo id).empty = false ∧ (s.fifo id).flushR = false := by
        simpa using hnone
      obtain ⟨e, es, hes⟩ := List.exists_cons_of_ne_nil hentries
      refine ⟨_, exec_fifoRead hacts hrst hes hflush hempty hit tagHit, ?_, fun id' hne => ?_⟩
      · rw [fifo_when_fresh, fifo_setFifo_same]
        exact (h.popped hes _).rdClock _
      · rw [fifo_when_fresh, fifo_setFifo_ne _ hne]

theorem flush_keepsInStep : KeepsInStep (.flush id) id s := by
  by_cases hno : (s.fifo id).rstR = true ∨ (s.fifo id).flushR = true
  · exact keepsInStep_of_same h (exec_flush_refused hno)
  · obtain ⟨hrst, hflush⟩ : (s.fifo id).rstR = false ∧ (s.fifo id).flushR = false := by simpa using hno
    exact keepsInStep_of_setFifo (exec_flush hacts hrst hflush) h.flush.rdEdge

theorem flushPointRecord_keepsInStep : KeepsInStep (.flushPointRecord id) id s := by
  by_cases hno : (s.fifo id).flushReq = false ∨ (s.fifo id).rstW = true
  · exact keepsInStep_of_same h (exec_flushPointRecord_none hno)
  · obtain ⟨hreq, hrst⟩ : (s.fifo id).flushReq = true ∧ (s.fifo id).rstW = false := by simpa using hno
    exact keepsInStep_of_setFifo (exec_flushPointRecord hacts hreq hrst) (h.recorded.wrClock _)

theorem flushComplete_keepsInStep : KeepsInStep (.flushComplete id) id s := by
  cases hp : (s.fifo id).flushPoint with
  | none => exact keepsInStep_of_same h (exec_flushComplete_none hp)
  | some p =>
    have hle : p ≤ (s.fifo id).wr := h.flushPoint_le hp
    have hwr : (fifoRdEdge ((s.fifo id).flushed p)).wr = (s.fifo id).wr := (sameStore_fifoRdEdge _).wr
    exact keepsInStep_of_setFifo (exec_flushComplete hacts hp)
      ((((h.flushed hle).rdEdge.sawUpTo (hwr ▸ hle)).rdFlags _).common _)

theorem pointerSync_keepsInStep (toWriteSide : Bool) : KeepsInStep (.pointerSync id toWriteSide) id s := by
  cases toWriteSide with
  | true =>
    cases hrst : (s.fifo id).rstW with
    | true => exact keepsInStep_of_same h (exec_pointerSync_write_reset hrst)
    | false => exact keepsInStep_of_setFifo (exec_pointerSync_write hacts hrst) (h.wrClock _)
  | false =>
    cases hrst : (s.fifo id).rstR with
    | true => exact keepsInStep_of_same h (exec_pointerSync_read_reset hrst)
    | false => exact keepsInStep_of_setFifo (exec_pointerSync_read hacts hrst) ((h.underflowed false).rdClock _)

end

theorem fifoCommand_keepsInStep {i : Instr} (h : (s.fifo id).InStep) (hi : FifoCommand id i) : KeepsInStep i id s := by
  cases hacts : s.fifoActs id with
  | false => exact keepsInStep_of_same h (exec_fifoCommand_idle hacts hi)
  | true =>
    obtain ⟨din, last, pin, rfl⟩ | ⟨hit, tagHit, rfl⟩ | rfl | rfl | rfl | rfl | ⟨w, rfl⟩ | ⟨w, rfl⟩ := hi
    · exact fifoWrite_keepsInStep hacts h din last pin
    · exact fifoRead_keepsInStep hacts h hit tagHit
    · exact flush_keepsInStep hacts h
    · exact flushPointRecord_keepsInStep hacts h
    · exact flushComplete_keepsInStep hacts h
    · exact keepsInStep_of_setFifo (exec_fifoReset hacts) .afterReset
    · exact keepsInStep_of_setFifo (exec_fifoResetRelease hacts w) ((h.released w).common _)
    · exact pointerSync_keepsInStep hacts h w

end Sys2Proof.Machine
end

section
/-! Block FIFOs, put together (05 R241 to R260). -/

namespace Sys2Proof.Machine

/-- FIFO `id` and no other part of the state has changed. -/
def FifoOnly (s : State) (id : BlockId) (t : State) : Prop :=
  (∀ id', id' ≠ id → t.fifo id' = s.fifo id') ∧ t = { s with fifos := t.fifos }

/-- A command that replaces FIFO `id` by `g` completes with whatever follows from that. -/
theorem completes_setFifo {s : State} {id : BlockId} {i : Instr} {g : Fifo} {P : State → Prop}
    (hexec : exec i s = .next (s.setFifo id g)) (h : ∀ t, t.fifo id = g → FifoOnly s id t → P t) : Completes i s P :=
  ⟨_, hexec, h _ (fifo_setFifo_same s id g) (fifoOnly_setFifo s id g)⟩

section
variable {s : State} {id : BlockId} (hacts : s.fifoActs id = true)
include hacts

theorem completes_fifoWrite_accept (hrst : (s.fifo id).rstW = false) (hdrain : (s.fifo id).drain = false)
    (hdrop : (s.fifo id).dropping = false) (hfull : (s.fifo id).full = false) (din : W64) (last : Bool) (pin : Byte) :
    Completes (.fifoWrite id din last pin) s fun t =>
      (t.fifo id).entries = (s.fifo id).entries ++ [fifoEntryOf (s.blockCfg id false) din last pin] ∧
      (t.fifo id).wr = (s.fifo id).wr + 1 ∧ (t.fifo id).dropCnt = (s.fifo id).dropCnt ∧ FifoOnly s id t := by
  refine completes_setFifo (exec_fifoWrite hacts hrst din last pin) fun t ht honly => ?_
  have hsame := sameStore_fifoWrClock (s.blockCfg id false) (fifoPush (s.blockCfg id false) din last pin (s.fifo id))
  rw [← ht, fifoPush_accept din last pin hdrain hdrop hfull] at hsame
  exact ⟨hsame.entries, hsame.wr, hsame.dropCnt, honly⟩

/-- A write at FULL that begins a drop run stores one gap marker (05 R252). -/
theorem completes_fifoWrite_full (hrst : (s.fifo id).rstW = false) (hdrain : (s.fifo id).drain = false)
    (hdrop : (s.fifo id).dropping = false) (hfull : (s.fifo id).full = true) (din : W64) (last : Bool) (pin : Byte) :
    Completes (.fifoWrite id din last pin) s fun t =>
      (t.fifo id).entries = (s.fifo id).entries ++ [⟨0, 0b10, false⟩] ∧
      (t.fifo id).dropCnt = min 0xFFFF ((s.fifo id).dropCnt + 1) ∧ (t.fifo id).wr = (s.fifo id).wr + 1 ∧ FifoOnly s id t := by
  refine completes_setFifo (exec_fifoWrite hacts hrst din last pin) fun t ht honly => ?_
  have hsame := sameStore_fifoWrClock (s.blockCfg id false) (fifoPush (s.blockCfg id false) din last pin (s.fifo id))
  rw [← ht, fifoPush_full din last pin hdrain hdrop hfull] at hsame
  exact ⟨hsame.entries, hsame.dropCnt, hsame.wr, honly⟩

/-- A read takes the head entry and presents the next one (05 R244). -/
theorem completes_fifoRead {e : FifoEntry} {es : List FifoEntry} (hrst : (s.fifo id).rstR = false)
    (hentries : (s.fifo id).entries = e :: es) (hflush : (s.fifo id).flushR = false) (hempty : (s.fifo id).empty = false) :
    Completes (.fifoRead id false false) s fun t =>
      (t.fifo id).taken = e ∧ (t.fifo id).entries = es ∧ (t.fifo id).rd = (s.fifo id).rd + 1 ∧
      (t.fifo id).underflow = false ∧
      (∀ e2 r, es = e2 :: r → (t.fifo id).empty = false → (t.fifo id).out = e2) ∧ FifoOnly s id t := by
  refine completes_setFifo (exec_fifoRead hacts hrst hentries hflush hempty false false) fun t ht honly => ?_
  have htaken : fifoDelivered s false false e = e := by simp [fifoDelivered]
  rw [htaken] at ht
  have hsame := sameStore_fifoRdClock (s.blockCfg id true) ((s.fifo id).popped es e)
  rw [← ht] at hsame
  refine ⟨hsame.taken, hsame.entries, hsame.rd, hsame.underflow, fun e2 r hes hnext => ?_, honly⟩
  rw [ht] at hnext ⊢
  exact fifoRdClock_presents (f := (s.fifo id).popped es e) hes hnext

theorem completes_fifoRead_underflow (hrst : (s.fifo id).rstR = false)
    (h : (s.fifo id).entries = [] ∨ (s.fifo id).empty = true ∨ (s.fifo id).flushR = true) (hit tagHit : Bool) :
    Completes (.fifoRead id hit tagHit) s fun t =>
      (t.fifo id).underflow = true ∧ (t.fifo id).entries = (s.fifo id).entries ∧ (t.fifo id).rd = (s.fifo id).rd ∧
      FifoOnly s id t := by
  refine completes_setFifo (exec_fifoRead_underflow hacts hrst h hit tagHit) fun t ht honly => ?_
  have hsame := sameStore_fifoRdClock (s.blockCfg id true) { s.fifo id with underflow := true }
  rw [← ht] at hsame
  exact ⟨hsame.underflow, hsame.entries, hsame.rd, honly⟩

theorem completes_flush (hrst : (s.fifo id).rstR = false) (hflush : (s.fifo id).flushR = false) :
    Completes (.flush id) s fun t =>
      (t.fifo id).empty = true ∧ (t.fifo id).flushR = true ∧ (t.fifo id).flushReq = true ∧
      (t.fifo id).entries = (s.fifo id).entries ∧ FifoOnly s id t := by
  refine completes_setFifo (exec_flush hacts hrst hflush) fun t ht honly => ?_
  have hempty : (t.fifo id).empty = true := by rw [ht, fifoRdEdge]; split <;> rfl
  have hsame := sameStore_fifoRdEdge { s.fifo id with empty := true, flushR := true, flushReq := true, underflow := false }
  rw [← ht] at hsame
  exact ⟨hempty, hsame.flushR, hsame.flushReq, hsame.entries, honly⟩

theorem completes_flushPointRecord (hreq : (s.fifo id).flushReq = true) (hrst : (s.fifo id).rstW = false) :
    Completes (.flushPointRecord id) s fun t =>
      (t.fifo id).flushPoint = some (s.fifo id).wr ∧ (t.fifo id).flushReq = false ∧ (t.fifo id).dropping = false ∧
      (t.fifo id).drain = ((s.fifo id).openAcc || ((s.fifo id).dropping && (s.fifo id).openSeen) || (s.fifo id).drain) ∧
      (t.fifo id).entries = (s.fifo id).entries ∧ FifoOnly s id t := by
  refine completes_setFifo (exec_flushPointRecord hacts hreq hrst) fun t ht honly => ?_
  have hsame := sameStore_fifoWrClock (s.blockCfg id false) (s.fifo id).recorded
  rw [← ht] at hsame
  exact ⟨hsame.flushPoint, hsame.flushReq, hsame.dropping rfl, hsame.drain, hsame.entries, honly⟩

theorem completes_flushComplete {p : Nat} (hp : (s.fifo id).flushPoint = some p) :
    Completes (.flushComplete id) s fun t =>
      (t.fifo id).entries = (s.fifo id).entries.drop (p - (s.fifo id).rd) ∧ (t.fifo id).rd = max (s.fifo id).rd p ∧
      (t.fifo id).flushR = false ∧ (t.fifo id).flushPoint = none ∧ FifoOnly s id t := by
  refine completes_setFifo (exec_flushComplete hacts hp) fun t ht honly => ?_
  have hsame := (((sameStore_fifoRdEdge ((s.fifo id).flushed p)).trans (sameStore_sawUpTo _ p)).trans
    (sameStore_fifoRdFlags (s.blockCfg id true) _)).trans (sameStore_fifoCommon (s.blockCfg id true) _)
  rw [← ht] at hsame
  exact ⟨hsame.entries, hsame.rd, hsame.flushR, hsame.flushPoint, honly⟩

theorem completes_fifoResetRelease_write : Completes (.fifoResetRelease id true) s fun t =>
    (t.fifo id).rstW = false ∧ (t.fifo id).rstR = (s.fifo id).rstR ∧ FifoOnly s id t := by
  refine completes_setFifo (exec_fifoResetRelease hacts true) fun t ht honly => ?_
  have hsame := sameStore_fifoCommon (s.blockCfg id true) { s.fifo id with rstW := false }
  rw [ht]
  exact ⟨hsame.rstW, hsame.rstR, honly⟩

theorem completes_fifoResetRelease_read : Completes (.fifoResetRelease id false) s fun t =>
    (t.fifo id).rstR = false ∧ (t.fifo id).rstW = (s.fifo id).rstW ∧ FifoOnly s id t := by
  refine completes_setFifo (exec_fifoResetRelease hacts false) fun t ht honly => ?_
  have hsame := sameStore_fifoCommon (s.blockCfg id false) { s.fifo id with rstR := false }
  rw [ht]
  exact ⟨hsame.rstR, hsame.rstW, honly⟩

theorem completes_pointerSync_write (hrst : (s.fifo id).rstW = false) (hc : (s.blockCfg id false).common = false) :
    Completes (.pointerSync id true) s fun t =>
      (t.fifo id).rdSeen = (s.fifo id).rdSync.2 ∧ (t.fifo id).rdSync = ((s.fifo id).rd, (s.fifo id).rdSync.1) ∧
      FifoOnly s id t := by
  refine completes_setFifo (exec_pointerSync_write hacts hrst) fun t ht honly => ?_
  obtain ⟨hseen, hsync⟩ := fifoWrClock_stages (f := s.fifo id) hrst hc
  rw [ht]
  exact ⟨hseen, hsync, honly⟩

theorem completes_pointerSync_read (hrst : (s.fifo id).rstR = false) (hc : (s.blockCfg id true).common = false) :
    Completes (.pointerSync id false) s fun t =>
      (t.fifo id).wrSeen = (s.fifo id).wrSync.2 ∧ (t.fifo id).wrSync = ((s.fifo id).wr, (s.fifo id).wrSync.1) ∧
      FifoOnly s id t := by
  refine completes_setFifo (exec_pointerSync_read hacts hrst) fun t ht honly => ?_
  obtain ⟨hseen, hsync⟩ := fifoRdClock_stages (f := { s.fifo id with underflow := false }) hrst hc
  rw [ht]
  exact ⟨hseen, hsync, honly⟩

end

/-- Settles O17: each row by the equation of what it stores and the frame of the clock edge after it; the pointers by the
invariant `Fifo.InStep`, which every part of every row keeps. -/
theorem blockFifo : Obligations.BlockFifo := by
  refine ⟨fun s id => ⟨fun hacts => ⟨fun hrst hdrain hdrop din last pin => ⟨fun hfull => ?_, fun hfull => ?_⟩,
    fun hrst => ⟨fun e es hes hflush hempty => ?_, fun hnone hit tagHit => ?_, fun hflush => ?_⟩, exec_fifoReset hacts,
    fun hreq hrst => ?_, fun p hp => ?_, ?_, ?_, fun hrst hc => ?_, fun hrst hc => ?_⟩,
    fun hacts i hi => exec_fifoCommand_idle hacts hi⟩, fun s id i hok hi => fifoCommand_keepsInStep hok hi⟩
  · exact completes_fifoWrite_accept hacts hrst hdrain hdrop hfull din last pin
  · exact completes_fifoWrite_full hacts hrst hdrain hdrop hfull din last pin
  · exact completes_fifoRead hacts hrst hes hflush hempty
  · exact completes_fifoRead_underflow hacts hrst hnone hit tagHit
  · exact completes_flush hacts hrst hflush
  · exact completes_flushPointRecord hacts hreq hrst
  · exact completes_flushComplete hacts hp
  · exact completes_fifoResetRelease_write hacts
  · exact completes_fifoResetRelease_read hacts
  · exact completes_pointerSync_write hacts hrst hc
  · exact completes_pointerSync_read hacts hrst hc

end Sys2Proof.Machine
end

section
/-! The bits of an entry within its physical word (05 R219, R230). -/

namespace Sys2Proof.Machine

theorem cfgBytes_cases (c : BlockCfg) : cfgBytes c = 1 ∨ cfgBytes c = 2 ∨ cfgBytes c = 4 ∨ cfgBytes c = 8 := by
  have h : ∀ w : Fin 4, 2 ^ w.val = 1 ∨ 2 ^ w.val = 2 ∨ 2 ^ w.val = 4 ∨ 2 ^ w.val = 8 := by decide
  exact h c.width

/-- The first byte of an entry in its word. -/
def entryByte (c : BlockCfg) (addr : BitVec 13) : Nat := addr.toNat % cfgDepth c * cfgBytes c % 8

theorem entryPlace_shift (c : BlockCfg) (addr : BitVec 13) : (entryPlace c addr).2 = 8 * entryByte c addr :=
  Nat.mul_comm _ _

theorem entryByte_fits (c : BlockCfg) (addr : BitVec 13) : entryByte c addr + cfgBytes c ≤ 8 := by
  unfold entryByte
  obtain h | h | h | h := cfgBytes_cases c <;> rw [h] <;> omega

/-- Different entries of one word share no byte. -/
theorem entryByte_disjoint {c : BlockCfg} {addr addr' : BitVec 13}
    (hne : addr'.toNat % cfgDepth c ≠ addr.toNat % cfgDepth c) (hword : (entryPlace c addr').1 = (entryPlace c addr).1) :
    entryByte c addr' + cfgBytes c ≤ entryByte c addr ∨ entryByte c addr + cfgBytes c ≤ entryByte c addr' := by
  unfold entryByte
  simp only [entryPlace] at hword
  generalize addr'.toNat % cfgDepth c = i', addr.toNat % cfgDepth c = i at *
  obtain h | h | h | h := cfgBytes_cases c <;> rw [h] at hword ⊢ <;> omega

theorem getLsbD_byteOnes (k : Nat) {i : Nat} (hi : i < 64) : (0xFF#64 <<< (8 * k)).getLsbD i = decide (i / 8 = k) := by
  have hones : (0xFF#64).getLsbD (i - 8 * k) = decide (i - 8 * k < 8) := by
    rw [show 0xFF#64 = BitVec.ofNat 64 (2 ^ 8 - 1) from rfl, BitVec.getLsbD_ofNat, Nat.testBit_two_pow_sub_one,
      decide_eq_true (show i - 8 * k < 64 by omega), Bool.true_and]
  rw [BitVec.getLsbD_shiftLeft, hones, decide_eq_true hi, Bool.true_and, ← decide_not, ← Bool.decide_and]
  exact decide_eq_decide.mpr (by omega)

theorem getLsbD_foldl_byteMask (we i : Nat) (l : List Nat) (m : W64) (hi : i < 64) :
    (l.foldl (fun m k => if bit we k then m ||| (0xFF#64 <<< (8 * k)) else m) m).getLsbD i =
      (m.getLsbD i || decide (i / 8 ∈ l) && bit we (i / 8)) := by
  induction l generalizing m with
  | nil => simp
  | cons k l ih =>
    rw [List.foldl_cons, ih]
    split
    · rw [BitVec.getLsbD_or, getLsbD_byteOnes k hi]
      by_cases hk : i / 8 = k <;> simp_all
    · by_cases hk : i / 8 = k <;> simp_all

/-- Bit `i` of a byte mask is the enable of its byte. -/
theorem getLsbD_byteMask (we : Nat) {i : Nat} (hi : i < 64) : (byteMask we).getLsbD i = bit we (i / 8) := by
  rw [byteMask, getLsbD_foldl_byteMask we i _ _ hi]
  have hmem : i / 8 ∈ List.range 8 := List.mem_range.mpr (by omega)
  simp [hmem]

theorem bit_eq_testBit (v i : Nat) : bit v i = v.testBit i := by
  rw [Nat.testBit_eq_decide_div_mod_eq, bit, beq_eq_decide]

/-- The bytes a write with every WE bit 1 enables. -/
def entryBytes (c : BlockCfg) (addr : BitVec 13) : Nat :=
  (0xFF : Byte).toNat % 2 ^ cfgBytes c * 2 ^ ((entryPlace c addr).2 / 8)

theorem entryBytes_eq (c : BlockCfg) (addr : BitVec 13) : entryBytes c addr = (2 ^ cfgBytes c - 1) * 2 ^ entryByte c addr := by
  have hall : (0xFF : Byte).toNat % 2 ^ cfgBytes c = 2 ^ cfgBytes c - 1 := by
    obtain h | h | h | h := cfgBytes_cases c <;> rw [h] <;> rfl
  rw [entryBytes, hall, entryPlace_shift, Nat.mul_div_cancel_left _ (by decide)]

theorem bit_entryBytes (c : BlockCfg) (addr : BitVec 13) (k : Nat) :
    bit (entryBytes c addr) k = decide (entryByte c addr ≤ k ∧ k < entryByte c addr + cfgBytes c) := by
  rw [bit_eq_testBit, entryBytes_eq, Nat.testBit_mul_two_pow, Nat.testBit_two_pow_sub_one, ← Bool.decide_and]
  exact decide_eq_decide.mpr (by omega)

theorem entryBytes_lt (c : BlockCfg) (addr : BitVec 13) : entryBytes c addr < 256 := by
  have hfit := entryByte_fits c addr
  calc entryBytes c addr = (2 ^ cfgBytes c - 1) * 2 ^ entryByte c addr := entryBytes_eq c addr
    _ < 2 ^ cfgBytes c * 2 ^ entryByte c addr :=
        Nat.mul_lt_mul_of_pos_right (Nat.sub_lt (Nat.two_pow_pos _) (by decide)) (Nat.two_pow_pos _)
    _ = 2 ^ (entryByte c addr + cfgBytes c) := by rw [Nat.pow_add, Nat.mul_comm]
    _ ≤ 2 ^ 8 := Nat.pow_le_pow_right (by decide) hfit

/-- A word with its enabled bytes taken from an entry's data at a bit offset (05 R230). -/
def wordWritten (enabled sh : Nat) (din word : W64) : W64 :=
  (word &&& ~~~byteMask enabled) ||| ((din <<< sh) &&& byteMask enabled)

/-- A word with one whole entry written. -/
def entryWritten (c : BlockCfg) (addr : BitVec 13) (din word : W64) : W64 :=
  wordWritten (entryBytes c addr) (entryPlace c addr).2 din word

theorem getLsbD_entryWritten (c : BlockCfg) (addr : BitVec 13) (din word : W64) {i : Nat} (hi : i < 64) :
    (entryWritten c addr din word).getLsbD i =
      if entryByte c addr ≤ i / 8 ∧ i / 8 < entryByte c addr + cfgBytes c then din.getLsbD (i - 8 * entryByte c addr)
      else word.getLsbD i := by
  rw [entryWritten, wordWritten, BitVec.getLsbD_or, BitVec.getLsbD_and, BitVec.getLsbD_and, BitVec.getLsbD_not, BitVec.getLsbD_shiftLeft,
    getLsbD_byteMask _ hi, bit_entryBytes, entryPlace_shift]
  split
  · rename_i h
    have hge : ¬i < 8 * entryByte c addr := by omega
    simp [h, hi, hge]
  · rename_i h
    simp [h, hi]

theorem getLsbD_entryMask (c : BlockCfg) {i : Nat} (hi : i < 64) :
    (BitVec.ofNat 64 (2 ^ (8 * cfgBytes c) - 1)).getLsbD i = decide (i < 8 * cfgBytes c) := by
  rw [BitVec.getLsbD_ofNat, Nat.testBit_two_pow_sub_one, decide_eq_true hi, Bool.true_and]

/-- A written entry reads as the data, cut to the entry. -/
theorem entryOf_entryWritten_same (c : BlockCfg) (addr : BitVec 13) (din word : W64) :
    entryOf c (entryWritten c addr din word) (entryPlace c addr).2 = din &&& BitVec.ofNat 64 (2 ^ (8 * cfgBytes c) - 1) := by
  have hfit := entryByte_fits c addr
  refine BitVec.eq_of_getLsbD_eq fun i hi => ?_
  rw [entryOf, BitVec.getLsbD_and, BitVec.getLsbD_and, getLsbD_entryMask c hi, BitVec.getLsbD_ushiftRight, entryPlace_shift]
  by_cases hin : i < 8 * cfgBytes c
  · rw [getLsbD_entryWritten c addr din word (by omega), if_pos (by omega), Nat.add_sub_cancel_left]
  · rw [decide_eq_false hin, Bool.and_false, Bool.and_false]

/-- Another entry of the word reads as before. -/
theorem entryOf_entryWritten_ne {c : BlockCfg} {addr addr' : BitVec 13} (din word : W64)
    (hne : addr'.toNat % cfgDepth c ≠ addr.toNat % cfgDepth c) (hword : (entryPlace c addr').1 = (entryPlace c addr).1) :
    entryOf c (entryWritten c addr din word) (entryPlace c addr').2 = entryOf c word (entryPlace c addr').2 := by
  have hfit := entryByte_fits c addr'
  have hapart := entryByte_disjoint hne hword
  refine BitVec.eq_of_getLsbD_eq fun i hi => ?_
  rw [entryOf, entryOf, BitVec.getLsbD_and, BitVec.getLsbD_and, getLsbD_entryMask c hi, BitVec.getLsbD_ushiftRight,
    BitVec.getLsbD_ushiftRight, entryPlace_shift]
  by_cases hin : i < 8 * cfgBytes c
  · rw [getLsbD_entryWritten c addr din word (by omega), if_neg (by omega)]
  · rw [decide_eq_false hin, Bool.and_false, Bool.and_false]

end Sys2Proof.Machine
end

section
/-! A table whose entry is set to what it reads as. -/

namespace Sys2Proof.Tbl

theorem get_set_self {κ α : Type} [DecidableEq κ] (t : Tbl κ α) (d : α) (k x : κ) :
    (t.set k (t.get d k)).get d x = t.get d x := by
  by_cases h : k = x
  · subst h; exact get_set_same _ _ _ _
  · exact get_set_ne _ _ _ h

end Sys2Proof.Tbl
end

section
/-! The accesses of a block memory (05 R220 to R234): one equation per row on a block that acts. -/

namespace Sys2Proof.Machine

@[simp] theorem bram_setBram_same (s : State) (id : BlockId) (b : Bram) : (s.setBram id b).bram id = b :=
  Tbl.get_set_same _ _ _ _

theorem bram_setBram_ne {s : State} {id id' : BlockId} (b : Bram) (h : id' ≠ id) : (s.setBram id b).bram id' = s.bram id' :=
  Tbl.get_set_ne _ _ _ h.symm

@[simp] theorem port_setPort_same (b : Bram) (pb : Bool) (p : BramPort) : (b.setPort pb p).port pb = p := by
  cases pb <;> rfl

@[simp] theorem port_setPort_other (b : Bram) (pb : Bool) (p : BramPort) : (b.setPort pb p).port (!pb) = b.port (!pb) := by
  cases pb <;> rfl

@[simp] theorem words_setPort (b : Bram) (pb : Bool) (p : BramPort) : (b.setPort pb p).words = b.words := by
  cases pb <;> rfl

@[simp] theorem flaws_setPort (b : Bram) (pb : Bool) (p : BramPort) : (b.setPort pb p).flaws = b.flaws := by
  cases pb <;> rfl

@[simp] theorem words_setWas (b : Bram) (pb : Bool) (w : Option (Nat × W64)) : (b.setWas pb w).words = b.words := by
  cases pb <;> rfl

@[simp] theorem flaws_setWas (b : Bram) (pb : Bool) (w : Option (Nat × W64)) : (b.setWas pb w).flaws = b.flaws := by
  cases pb <;> rfl

/-! What an access meets. -/

theorem meet_none {α : Type} (word : α) (f : Flaw) (o : α) : meet word f .none o = ⟨word, f, f, word, false⟩ := by
  simp [meet, strike]

theorem meet_double {α : Type} (word : α) (f : Flaw) (o : α) : meet word f .double o = ⟨o, .double, .double, o, true⟩ := by
  simp [meet, strike]

theorem portDeliver_next (w : Nat) (o : BramOut) (p : BramPort) : (portDeliver w o p).next = some o := rfl

/-- An access that reports an error notes the retry of its word, unless one is noted already (05 R233, R234). -/
theorem portDeliver_retry (w : Nat) {o : BramOut} (p : BramPort) (h : (o.sbe || o.dbe) = true) :
    (portDeliver w o p).retry = some (p.retry.getD w) := by
  cases hp : p.retry <;> simp [portDeliver, h, hp]

/-- The block with its word `w` as an access has left it. -/
def Bram.met (b : Bram) (w : Nat) (m : Met W64) : Bram := { b with words := b.words.set w m.word, flaws := b.flaws.set w m.flaw }

variable {s : State} {id : BlockId}

/-- What a read that collides with no write delivers. -/
def readOut (c : BlockCfg) (addr : BitVec 13) (m : Met W64) : BramOut :=
  ⟨entryOf c m.data (entryPlace c addr).2, m.seen == .single, m.seen == .double⟩

theorem exec_bramRead (hacts : s.ramActs id = true) (pb : Bool) (addr : BitVec 13) (r : RegPins) (u : Upset) :
    let c := s.blockCfg id pb
    let w := (entryPlace c addr).1
    let m := bramMeet (s.bram id) w u s
    exec (.bramRead id pb addr r u false) s = .next ((s.setBram id (((s.bram id).met w m).setPort pb
      (portDeliver w (readOut c addr m) (portEdge c r ((s.bram id).port pb))))).when m.fresh (·.fresh)) := by
  refine congrArg Host.Outcome.next ((if_neg (by simp [hacts])).trans ((if_neg (by simp)).trans ?_))
  cases (s.bram id).was (!pb) <;> simp only [readOut, Bram.met] <;> rfl

/-- What a word's access meets where nothing strikes it: the word as stored. -/
def metStored (b : Bram) (w : Nat) : Met W64 := ⟨b.words.get 0 w, b.flaws.get .none w, b.flaws.get .none w, b.words.get 0 w, false⟩

theorem bramMeet_none (b : Bram) (w : Nat) (s : State) : bramMeet b w .none s = metStored b w := meet_none _ _ _

/-- A read that nothing strikes leaves and delivers the word as stored. -/
theorem exec_bramRead_none (hacts : s.ramActs id = true) (pb : Bool) (addr : BitVec 13) (r : RegPins) :
    let c := s.blockCfg id pb
    let w := (entryPlace c addr).1
    let m := metStored (s.bram id) w
    exec (.bramRead id pb addr r .none false) s = .next (s.setBram id (((s.bram id).met w m).setPort pb
      (portDeliver w (readOut c addr m) (portEdge c r ((s.bram id).port pb))))) := by
  have h := exec_bramRead hacts pb addr r .none
  simp only [bramMeet_none] at h
  exact h

/-- A read whose word a double upset strikes stores and delivers an open word (05 R229). -/
theorem exec_bramRead_double (hacts : s.ramActs id = true) (pb : Bool) (addr : BitVec 13) (r : RegPins) :
    let c := s.blockCfg id pb
    let w := (entryPlace c addr).1
    let m : Met W64 := ⟨Config.freeWord s.free, .double, .double, Config.freeWord s.free, true⟩
    exec (.bramRead id pb addr r .double false) s = .next ((s.setBram id (((s.bram id).met w m).setPort pb
      (portDeliver w (readOut c addr m) (portEdge c r ((s.bram id).port pb))))).fresh) := by
  have h := exec_bramRead hacts pb addr r .double
  simp only [bramMeet, meet_double] at h
  exact h

/-- A partial write to an uncorrectable word changes no data (05 R232). -/
theorem exec_bramWrite_uncorrectable (hacts : s.ramActs id = true) {pb : Bool} {addr : BitVec 13} {we : Byte} (hwe : we ≠ 0)
    (hflaw : (s.bram id).flaws.get .none (entryPlace (s.blockCfg id pb) addr).1 = .double)
    (hpart : we.toNat % 2 ^ cfgBytes (s.blockCfg id pb) * 2 ^ ((entryPlace (s.blockCfg id pb) addr).2 / 8) ≠ 255)
    (din : W64) (r : RegPins) (cl : Byte) :
    let c := s.blockCfg id pb
    let w := (entryPlace c addr).1
    let p := portEdge c r ((s.bram id).port pb)
    exec (.bramWrite id pb addr we din r .none cl) s = .next (s.setBram id
      (((s.bram id).met w (metStored (s.bram id) w)).setPort pb (portDeliver w ⟨p.dout.d, false, true⟩ p))) := by
  intro c w p
  have hrefused : (!decide (we.toNat % 2 ^ cfgBytes c * 2 ^ ((entryPlace c addr).2 / 8) = 255) &&
      decide ((bramMeet (s.bram id) w .none s).seen = .double)) = true := by
    rw [decide_eq_false hpart, bramMeet_none, metStored, hflaw]; rfl
  refine congrArg Host.Outcome.next ((if_neg hwe).trans ((if_neg (by simp [hacts])).trans ((if_pos hrefused).trans ?_)))
  simp only [bramMeet_none]
  rfl

/-- A write of a whole entry, without collision, stores it and leaves its word without error (05 R220, R231). -/
theorem exec_bramWrite_entry (hacts : s.ramActs id = true) {pb : Bool} {addr : BitVec 13}
    (hflaw : (s.bram id).flaws.get .none (entryPlace (s.blockCfg id pb) addr).1 ≠ .double) (din : W64) (r : RegPins) :
    let c := s.blockCfg id pb
    let w := (entryPlace c addr).1
    ∃ b, exec (.bramWrite id pb addr 0xFF din r .none 0) s = .next (s.setBram id b) ∧
      b.words = (s.bram id).words.set w (entryWritten c addr din ((s.bram id).words.get 0 w)) ∧
      b.flaws = (s.bram id).flaws.set w .none := by
  intro c w
  have henab : (if pb && c.common then entryBytes c addr &&& (255 ^^^ (0 : Byte).toNat) else entryBytes c addr) =
      entryBytes c addr := by
    rw [show 255 ^^^ (0 : Byte).toNat = 2 ^ 8 - 1 from rfl, Nat.and_two_pow_sub_one_eq_mod, Nat.mod_eq_of_lt (entryBytes_lt c addr),
      ite_self]
  have hstores : ¬(!decide (entryBytes c addr = 255) &&
      decide ((bramMeet (s.bram id) w .none s).seen = .double)) = true := by
    rw [bramMeet_none, metStored, decide_eq_false hflaw, Bool.and_false]; exact Bool.false_ne_true
  have hquiet : ¬((0 : Byte).toNat != 0 && !c.common || (bramMeet (s.bram id) w .none s).fresh) = true := by
    rw [bramMeet_none]; exact Bool.false_ne_true
  have hword : (bramMeet (s.bram id) w .none s).word = (s.bram id).words.get 0 w := by rw [bramMeet_none]; rfl
  have hwrite : bramWrite id pb addr 0xFF din r .none 0 s = s.setBram id _ :=
    (if_neg (by decide)).trans ((if_neg (by simp [hacts])).trans ((if_neg hstores).trans (if_neg hquiet)))
  refine ⟨_, congrArg Host.Outcome.next hwrite, ?_, ?_⟩
  · rw [words_setWas, words_setPort]
    exact congrArg₂ (fun enabled word => (s.bram id).words.set w (wordWritten enabled (entryPlace c addr).2 din word)) henab hword
  · rw [flaws_setWas, flaws_setPort]
    rfl

end Sys2Proof.Machine
end

section
/-! Block memories, put together (05 R219 to R234). -/

namespace Sys2Proof.Machine

/-- What a port delivers depends on its width alone. -/
theorem readOut_width {c c' : BlockCfg} (h : c.width = c'.width) (addr : BitVec 13) (b : Bram) :
    readOut c addr (metStored b (entryPlace c addr).1) = readOut c' addr (metStored b (entryPlace c' addr).1) := by
  simp only [readOut, metStored, entryOf, entryPlace, cfgDepth, cfgBytes, h]

/-! What reads of `b'` deliver, which is `b` after a write of a whole entry. -/

section
variable {b b' : Bram} {c : BlockCfg} {addr : BitVec 13} {din : W64}
  (hwords : b'.words = b.words.set (entryPlace c addr).1 (entryWritten c addr din (b.words.get 0 (entryPlace c addr).1)))
  (hflaws : b'.flaws = b.flaws.set (entryPlace c addr).1 .none)
include hwords hflaws

theorem readOut_written : readOut c addr (metStored b' (entryPlace c addr).1) =
    ⟨din &&& BitVec.ofNat 64 (2 ^ (8 * cfgBytes c) - 1), false, false⟩ := by
  rw [readOut, metStored, hwords, hflaws, Tbl.get_set_same, Tbl.get_set_same, entryOf_entryWritten_same]
  rfl

theorem readOut_unwritten {addr' : BitVec 13} (hne : addr'.toNat % cfgDepth c ≠ addr.toNat % cfgDepth c)
    (hclean : b.flaws.get .none (entryPlace c addr').1 = .none) :
    readOut c addr' (metStored b' (entryPlace c addr').1) = readOut c addr' (metStored b (entryPlace c addr').1) := by
  rw [readOut, readOut, metStored, metStored, hwords, hflaws]
  by_cases hword : (entryPlace c addr').1 = (entryPlace c addr).1
  · rw [hword] at hclean ⊢
    rw [Tbl.get_set_same, Tbl.get_set_same, entryOf_entryWritten_ne din _ hne hword, hclean]
  · rw [Tbl.get_set_ne _ _ _ (Ne.symm hword), Tbl.get_set_ne _ _ _ (Ne.symm hword)]

end

/-- The block's words with their errors, its other port, and all of the state but the block are as before. -/
def BramKept (s : State) (id : BlockId) (pb : Bool) (t : State) : Prop :=
  (∀ x, (t.bram id).words.get 0 x = (s.bram id).words.get 0 x) ∧
    (∀ x, (t.bram id).flaws.get .none x = (s.bram id).flaws.get .none x) ∧
    (t.bram id).port (!pb) = (s.bram id).port (!pb) ∧ (∀ id', id' ≠ id → t.bram id' = s.bram id') ∧
    t = { s with brams := t.brams }

theorem bramKept_setPort (s : State) (id : BlockId) (pb : Bool) (p : BramPort) :
    BramKept s id pb (s.setBram id ((s.bram id).setPort pb p)) := by
  unfold BramKept
  rw [bram_setBram_same, words_setPort, flaws_setPort, port_setPort_other]
  exact ⟨fun _ => rfl, fun _ => rfl, rfl, fun _ hne => bram_setBram_ne _ hne, rfl⟩

/-- An access that leaves its word as stored keeps every word. -/
theorem bramKept_metStored (s : State) (id : BlockId) (pb : Bool) (w : Nat) (p : BramPort) :
    BramKept s id pb (s.setBram id (((s.bram id).met w (metStored (s.bram id) w)).setPort pb p)) := by
  unfold BramKept
  rw [bram_setBram_same, words_setPort, flaws_setPort, port_setPort_other]
  exact ⟨Tbl.get_set_self _ _ _, Tbl.get_set_self _ _ _, rfl, fun _ hne => bram_setBram_ne _ hne, rfl⟩

section
variable {s : State} {id : BlockId} (hacts : s.ramActs id = true) {pb : Bool} {addr : BitVec 13}
include hacts

theorem bramRead_delivers (pb : Bool) (addr : BitVec 13) (r : RegPins) :
    Completes (.bramRead id pb addr r .none false) s fun t => ((t.bram id).port pb).next =
      some (readOut (s.blockCfg id pb) addr (metStored (s.bram id) (entryPlace (s.blockCfg id pb) addr).1)) := by
  refine ⟨_, exec_bramRead_none hacts pb addr r, ?_⟩
  beta_reduce
  rw [bram_setBram_same, port_setPort_same, portDeliver_next]

/-- A read that nothing strikes, of a word that holds an error, keeps the word and notes its retry (05 R229, R233). -/
theorem completes_bramRead_error {f : Flaw} (hflaw : (s.bram id).flaws.get .none (entryPlace (s.blockCfg id pb) addr).1 = f)
    (hf : f ≠ .none) (r : RegPins) :
    let c := s.blockCfg id pb
    let w := (entryPlace c addr).1
    Completes (.bramRead id pb addr r .none false) s fun t =>
      ((t.bram id).port pb).next =
        some ⟨entryOf c ((s.bram id).words.get 0 w) (entryPlace c addr).2, f == .single, f == .double⟩ ∧
      ((t.bram id).port pb).retry = some (((s.bram id).port pb).retry.getD w) ∧ BramKept s id pb t := by
  intro c w
  subst hflaw
  have herror (seen : Flaw) (h : seen ≠ .none) : ((seen == .single) || (seen == .double)) = true := by
    cases seen with
    | none => exact absurd rfl h
    | single => rfl
    | double => rfl
  refine ⟨_, exec_bramRead_none hacts pb addr r, ?_, ?_, bramKept_metStored ..⟩ <;>
    rw [bram_setBram_same, port_setPort_same]
  · rfl
  · exact portDeliver_retry w _ (herror _ hf)

theorem completes_bramRead_double (r : RegPins) :
    let c := s.blockCfg id pb
    let w := (entryPlace c addr).1
    Completes (.bramRead id pb addr r .double false) s fun t =>
      ((t.bram id).port pb).next = some ⟨entryOf c (Config.freeWord s.free) (entryPlace c addr).2, false, true⟩ ∧
      (t.bram id).words.get 0 w = Config.freeWord s.free ∧ (t.bram id).flaws.get .none w = .double ∧
      ((t.bram id).port pb).retry = some (((s.bram id).port pb).retry.getD w) ∧
      t = { s with brams := t.brams, free := s.free + 1 } := by
  intro c w
  have hbram (b : Bram) : ((s.setBram id b).fresh).bram id = b := bram_setBram_same s id b
  refine ⟨_, exec_bramRead_double hacts pb addr r, ?_, ?_, ?_, ?_, rfl⟩ <;> rw [hbram]
  · rw [port_setPort_same]; rfl
  · rw [words_setPort]; exact Tbl.get_set_same _ _ _ _
  · rw [flaws_setPort]; exact Tbl.get_set_same _ _ _ _
  · rw [port_setPort_same]; exact portDeliver_retry w _ rfl

theorem completes_bramWrite_uncorrectable {we : Byte} (hwe : we ≠ 0)
    (hflaw : (s.bram id).flaws.get .none (entryPlace (s.blockCfg id pb) addr).1 = .double)
    (hpart : we.toNat % 2 ^ cfgBytes (s.blockCfg id pb) * 2 ^ ((entryPlace (s.blockCfg id pb) addr).2 / 8) ≠ 255)
    (din : W64) (r : RegPins) (cl : Byte) :
    Completes (.bramWrite id pb addr we din r .none cl) s fun t =>
      ((t.bram id).port pb).next.map (·.dbe) = some true ∧
      ((t.bram id).port pb).retry =
        some (((s.bram id).port pb).retry.getD (entryPlace (s.blockCfg id pb) addr).1) ∧ BramKept s id pb t := by
  refine ⟨_, exec_bramWrite_uncorrectable hacts hwe hflaw hpart din r cl, ?_, ?_, bramKept_metStored ..⟩ <;>
    rw [bram_setBram_same, port_setPort_same]
  · rfl
  · exact portDeliver_retry _ _ rfl

/-- RSTREG loads SRVAL with clear flags; an edge alone reads no word (05 R221). -/
theorem completes_outputRegisterReset (pb regce : Bool) :
    Completes (.outputRegisterReset id pb regce) s fun t =>
      ((s.blockCfg id pb).outReg = true → ((t.bram id).port pb).oreg = ⟨(s.blockCfg id pb).srval, false, false⟩) ∧
      ((t.bram id).port pb).dout = ((s.bram id).port pb).next.getD ((s.bram id).port pb).dout ∧
      ((t.bram id).port pb).retry = ((s.bram id).port pb).retry ∧ BramKept s id pb t := by
  refine ⟨_, congrArg Host.Outcome.next (if_neg (by simp [hacts])), fun hreg => ?_, ?_, ?_, bramKept_setPort ..⟩ <;>
    rw [bram_setBram_same, port_setPort_same]
  · simp only [portEdge, hreg]; rfl
  · rfl
  · rfl

/-- The retry ends with its pulse, LASTING where the second read finds the error (05 R233). -/
theorem completes_bramErrorRetry {x : Nat} (hx : ((s.bram id).port pb).retry = some x) (r : RegPins) :
    Completes (.bramErrorRetry id pb r .none) s fun t =>
      ((t.bram id).port pb).retry = none ∧ ((t.bram id).port pb).retryDone = true ∧
      ((t.bram id).port pb).lasting = ((s.bram id).flaws.get .none x != .none) ∧ BramKept s id pb t := by
  have hexec : exec (.bramErrorRetry id pb r .none) s = .next (s.setBram id
      (((s.bram id).met x (metStored (s.bram id) x)).setPort pb { portEdge (s.blockCfg id pb) r ((s.bram id).port pb) with
        retry := none, retryDone := true, lasting := (s.bram id).flaws.get .none x != .none })) := by
    refine congrArg Host.Outcome.next ?_
    simp only [hx, hacts, bramMeet_none]
    rfl
  refine ⟨_, hexec, ?_, ?_, ?_, bramKept_metStored ..⟩ <;> rw [bram_setBram_same, port_setPort_same]

/-- What is written through one port is read through either, and a clean entry at another address as before (05 R220, R221). -/
theorem readAfterWrite {pa pb : Bool} {addr : BitVec 13} {din : W64} {ra rb : RegPins}
    (hwidth : (s.blockCfg id pb).width = (s.blockCfg id pa).width)
    (hflaw : (s.bram id).flaws.get .none (entryPlace (s.blockCfg id pa) addr).1 ≠ .double) :
    let c := s.blockCfg id pa
    let given (u : State) := ((u.bram id).port pb).next
    ∃ t, exec (.bramWrite id pa addr 0xFF din ra .none 0) s = .next t ∧
      (∃ u, exec (.bramRead id pb addr rb .none false) t = .next u ∧
        given u = some ⟨din &&& BitVec.ofNat 64 (2 ^ (8 * cfgBytes c) - 1), false, false⟩) ∧
      (∀ addr' : BitVec 13, addr'.toNat % cfgDepth c ≠ addr.toNat % cfgDepth c →
        (s.bram id).flaws.get .none (entryPlace c addr').1 = .none →
        ∃ u v, exec (.bramRead id pb addr' rb .none false) t = .next u ∧
          exec (.bramRead id pb addr' rb .none false) s = .next v ∧ given u = given v) ∧
      (∀ id', id' ≠ id → t.bram id' = s.bram id') ∧ t = { s with brams := t.brams } := by
  intro c given
  obtain ⟨b, hwrite, hwords, hflaws⟩ := exec_bramWrite_entry hacts hflaw din ra
  have hread (addr' : BitVec 13) : Completes (.bramRead id pb addr' rb .none false) (s.setBram id b) fun u =>
      given u = some (readOut c addr' (metStored b (entryPlace c addr').1)) := by
    obtain ⟨u, hu, hgiven⟩ := bramRead_delivers (s := s.setBram id b) hacts pb addr' rb
    rw [bram_setBram_same] at hgiven
    exact ⟨u, hu, hgiven.trans (congrArg some (readOut_width hwidth addr' b))⟩
  refine ⟨_, hwrite, ?_, fun addr' hne hclean => ?_, fun _ hid => bram_setBram_ne b hid, rfl⟩
  · obtain ⟨u, hu, hgiven⟩ := hread addr
    exact ⟨u, hu, hgiven.trans (congrArg some (readOut_written hwords hflaws))⟩
  · obtain ⟨u, hu, hgiven⟩ := hread addr'
    obtain ⟨v, hv, hbefore⟩ := bramRead_delivers hacts pb addr' rb
    rw [readOut_width hwidth] at hbefore
    exact ⟨u, v, hu, hv, (hgiven.trans (congrArg some (readOut_unwritten hwords hflaws hne hclean))).trans hbefore.symm⟩

end

/-! A block that does not act (05 R224). -/

section
variable {s : State} {id : BlockId} (hacts : s.ramActs id = false)
include hacts

theorem exec_bramRead_idle (pb : Bool) (addr : BitVec 13) (r : RegPins) (u : Upset) (cl : Bool) :
    exec (.bramRead id pb addr r u cl) s = .next s :=
  congrArg Host.Outcome.next (if_pos (by simp [hacts]))

theorem exec_bramWrite_idle (pb : Bool) (addr : BitVec 13) (we : Byte) (din : W64) (r : RegPins) (u : Upset) (cl : Byte) :
    exec (.bramWrite id pb addr we din r u cl) s = .next s := by
  by_cases hwe : we = 0
  · exact (congrArg Host.Outcome.next (if_pos hwe)).trans (exec_bramRead_idle hacts pb addr r u (cl != 0))
  · exact congrArg Host.Outcome.next ((if_neg hwe).trans (if_pos (by simp [hacts])))

theorem exec_outputRegisterReset_idle (pb regce : Bool) : exec (.outputRegisterReset id pb regce) s = .next s :=
  congrArg Host.Outcome.next (if_pos (by simp [hacts]))

theorem exec_bramErrorRetry_idle (pb : Bool) (r : RegPins) (u : Upset) : exec (.bramErrorRetry id pb r u) s = .next s := by
  refine congrArg Host.Outcome.next ?_
  cases hx : ((s.bram id).port pb).retry with
  | none => simp only [hx]
  | some x => simp [hx, hacts]

end

/-- Settles O16: a whole-entry write changes the bits of its entry and no others, and every other access leaves the words as
stored. -/
theorem blockMemory : Obligations.BlockMemory := by
  refine ⟨fun s id pa pb addr din ra rb hacts hwidth hflaw => readAfterWrite hacts hwidth hflaw, fun s id pb addr r =>
    ⟨fun hacts => ⟨fun hflaw => ?_, fun hflaw => ?_, completes_bramRead_double hacts r, fun we din cl hflaw hwe hpart => ?_,
      completes_outputRegisterReset hacts pb, fun x hx => completes_bramErrorRetry hacts hx r⟩,
    fun hacts => ⟨exec_bramRead_idle hacts pb addr r, fun we din => exec_bramWrite_idle hacts pb addr we din r,
      exec_outputRegisterReset_idle hacts pb, exec_bramErrorRetry_idle hacts pb r⟩⟩⟩
  · exact completes_bramRead_error hacts hflaw nofun r
  · exact completes_bramRead_error hacts hflaw nofun r
  · exact completes_bramWrite_uncorrectable hacts hwe hflaw hpart din r cl

end Sys2Proof.Machine
end

section
/-! One arithmetic slice of the array (06 R262): what replacing it leaves, and an issue of its program. -/

namespace Sys2Proof.Machine

/-! The slice at a place of the array. -/

@[simp] theorem slice_setSlice_same (s : State) (b i : Nat) (x : Slice) : (s.setSlice b i x).slice b i = x :=
  Tbl.get_set_same _ _ _ _

theorem slice_setSlice_ne (s : State) {b i b' i' : Nat} (x : Slice) (h : (b', i') ≠ (b, i)) :
    (s.setSlice b i x).slice b' i' = s.slice b' i' :=
  Tbl.get_set_ne _ _ _ h.symm

/-! Fields of the instruction word of an opcode (07 R336): those of bits [33:0]. -/

theorem bits_sliceWord (op : Nat) (f : BitVec 34) {lo len : Nat} (h : lo + len ≤ 34) :
    bits (sliceWord op f) lo len = bits f.toNat lo len := by
  rw [← bits_mod_two_pow _ h, sliceWord, Nat.mul_add_mod', Nat.mod_eq_of_lt f.isLt]

theorem bit_sliceWord (op : Nat) (f : BitVec 34) {k : Nat} (h : k < 34) : bit (sliceWord op f) k = f.getLsbD k := by
  rw [bit_eq_bits, bits_sliceWord op f h, ← bit_eq_bits, bit_toNat_eq_getLsbD]

@[simp] theorem fldA_sliceWord (op : Nat) (f : BitVec 34) : fldA (sliceWord op f) = fldA f.toNat :=
  congrArg (Fin.ofNat 4) (bits_sliceWord op f (by decide))
@[simp] theorem fldXD_sliceWord (op : Nat) (f : BitVec 34) : fldXD (sliceWord op f) = fldXD f.toNat :=
  congrArg (Fin.ofNat 8) (bits_sliceWord op f (by decide))
@[simp] theorem fldXS_sliceWord (op : Nat) (f : BitVec 34) : fldXS (sliceWord op f) = fldXS f.toNat :=
  congrArg (Fin.ofNat 8) (bits_sliceWord op f (by decide))
@[simp] theorem fldPA_sliceWord (op : Nat) (f : BitVec 34) : fldPA (sliceWord op f) = fldPA f.toNat :=
  congrArg (Fin.ofNat 4) (bits_sliceWord op f (by decide))
@[simp] theorem fldPB_sliceWord (op : Nat) (f : BitVec 34) : fldPB (sliceWord op f) = fldPB f.toNat :=
  congrArg (Fin.ofNat 4) (bits_sliceWord op f (by decide))
@[simp] theorem fldXDJ_sliceWord (op : Nat) (f : BitVec 34) : fldXDJ (sliceWord op f) = fldXDJ f.toNat :=
  congrArg (Fin.ofNat 8) (bits_sliceWord op f (by decide))

/-- A 40-bit word is the word of its own opcode. -/
theorem sliceWord_of_word (w : W40) : sliceWord (w.toNat / 2 ^ 34) (BitVec.ofNat 34 w.toNat) = w.toNat :=
  Nat.div_add_mod' w.toNat (2 ^ 34)

/-! Which states a row issues in (06 R286, R288, R305). -/

theorem sliceIssue_held {cx : SliceCx} {s : State}
    (h : (s.slice cx.bay cx.slice).run ≠ .running ∨ s.sliceClock cx.bay = false ∨ (s.slice cx.bay cx.slice).srst = true)
    (op : Nat) (f : BitVec 34) (eff : SliceEff) : sliceIssue cx op f eff s = s := by
  refine if_neg ?_
  rintro ⟨hrun, hclock, hsrst⟩
  rcases h with h | h | h
  · exact h hrun
  · simp [h] at hclock
  · exact hsrst h

/-- An issue replaces its slice, and may use free values. -/
theorem sliceIssue_issues {cx : SliceCx} {s : State} (hrun : (s.slice cx.bay cx.slice).run = .running)
    (hclock : s.sliceClock cx.bay = true) (hsrst : (s.slice cx.bay cx.slice).srst = false)
    (op : Nat) (f : BitVec 34) (eff : SliceEff) :
    ∃ n, sliceIssue cx op f eff s = { s.setSlice cx.bay cx.slice
      (sliceExec cx op (sliceWord op f) eff (s.cascIn cx) s.free (s.slice cx.bay cx.slice)) with free := n } := by
  unfold sliceIssue
  rw [if_pos ⟨hrun, hclock, by simp [hsrst]⟩, State.when]
  split
  · exact ⟨_, rfl⟩
  · exact ⟨s.free, rfl⟩

end Sys2Proof.Machine
end

section
/-! Traps of a slice (06 R314 to R319, 07 R373): what stands of the slice, and the three causes. -/

namespace Sys2Proof.Machine

/-! What an uncorrectable word is read as (06 R314, R316). -/

theorem meet_struck_seen {α : Type} (word : α) (f : Flaw) (o : α) : (meet word f .double o).seen = .double := rfl

theorem meet_double_seen {α : Type} (word : α) (u : Upset) (o : α) : (meet word .double u o).seen = .double := by
  cases u <;> rfl

/-- A read replaces no word of program memory but its own. -/
theorem readPm_keeps (x : Slice) (k : Nat) (u : Upset) (o : W40) :
    ∃ pm pmFlaw, (x.readPm k u o).1 = { x with pm := pm, pmFlaw := pmFlaw } ∧ ∀ j, j ≠ k → pm.get 0 j = x.pm.get 0 j := by
  unfold Slice.readPm
  dsimp only
  split
  · exact ⟨x.pm, x.pmFlaw, rfl, fun _ _ => rfl⟩
  · exact ⟨_, _, rfl, fun _ hj => Tbl.get_set_ne _ _ _ hj.symm⟩

/-- A read replaces no word of data memory but its own. -/
theorem readDm_keeps (x : Slice) (k : Nat) (u : Upset) (o : W24) :
    ∃ dm dmFlaw, (x.readDm k u o).1 = { x with dm := dm, dmFlaw := dmFlaw } ∧ ∀ j, j ≠ k → dm.get 0 j = x.dm.get 0 j := by
  unfold Slice.readDm
  dsimp only
  split
  · exact ⟨x.dm, x.dmFlaw, rfl, fun _ _ => rfl⟩
  · exact ⟨_, _, rfl, fun _ hj => Tbl.get_set_ne _ _ _ hj.symm⟩

/-! The three traps of one issue. -/

section
variable {cx : SliceCx} {x : Slice} {op w : Nat} (eff : SliceEff) (casc : BitVec 56) (free : Nat)

theorem sliceExec_uncorrectable (h : cx.fetch = .double ∨ x.pmFlaw.get .none x.pc.toNat = .double) :
    ∃ lasting o, sliceExec cx op w eff casc free x =
      sliceTrap 2 lasting ((sliceFound x).readPm x.pc.toNat cx.fetch o).1 := by
  have hseen (o : W40) : ((sliceFound x).readPm x.pc.toNat cx.fetch o).2.seen = .double := by
    rcases h with h | h
    · rw [h]; exact meet_struck_seen _ .none _
    · refine Eq.trans ?_ (meet_double_seen (x.pm.get 0 x.pc.toNat) cx.fetch o)
      rw [← h]; rfl
  exact ⟨_, _, if_pos (hseen _)⟩

variable (hfetch : cx.fetch = .none) (hflaw : x.pmFlaw.get .none x.pc.toNat = .none)
include hfetch hflaw

/-- A word read without error goes on to the check of its form. -/
theorem sliceExec_fetched : sliceExec cx op w eff casc free x =
    if sliceLegal op w x then sliceData cx op w eff casc free (sliceFound x) else sliceTrap 1 false (sliceFound x) := by
  have hread := readPm_clean (x := sliceFound x) ((Config.freeWord (free + 1)).setWidth 40) hflaw
  simp only [sliceFound] at hread
  simp only [sliceExec, hfetch, hread, reduceCtorEq, if_false]
  rfl

theorem sliceExec_illegal (hillegal : sliceLegal op w x = false) :
    sliceExec cx op w eff casc free x = sliceTrap 1 false (sliceFound x) := by
  rw [sliceExec_fetched eff casc free hfetch hflaw, hillegal]; rfl

theorem sliceExec_load_uncorrectable (hlegal : sliceLegal op w x = true) (hreads : readsA op w = true)
    (hmemA : cx.memA = .double) (hreadsB : readsB op = false) :
    ∃ lasting o, sliceExec cx op w eff casc free x =
      sliceTrap 3 lasting ((sliceFound x).readDm (x.p[fldPA w]).toNat .double o).1 := by
  rw [sliceExec_fetched eff casc free hfetch hflaw, hlegal]
  unfold sliceData
  simp only [hreads, hreadsB, hmemA, Slice.operand]
  exact ⟨_, _, rfl⟩

end

/-! What a trap leaves. -/

/-- What a trap with cause `c` leaves of the device: its slice stops with every register, its PC and its loops as they were,
and no other slice changes (06 R317, R318). -/
def SliceStopped (cx : SliceCx) (s : State) (c : Nat) (t : State) : Prop :=
  let x := s.slice cx.bay cx.slice
  let y := t.slice cx.bay cx.slice
  y.run = .trapped ∧ y.cause = c ∧ y.retryDone = true ∧ y.outValid = false ∧
    y.x = x.x ∧ y.a = x.a ∧ y.p = x.p ∧ y.pc = x.pc ∧ y.loops = x.loops ∧
    (∀ b i, (b, i) ≠ (cx.bay.val, cx.slice.val) → t.slice b i = s.slice b i) ∧
    t = { s with slices := t.slices, free := t.free }

/-- The slice's program memory, words `l` apart. -/
def PmBut (cx : SliceCx) (s : State) (l : List Nat) (t : State) : Prop :=
  ∀ k, k ∉ l → (t.slice cx.bay cx.slice).pm.get 0 k = (s.slice cx.bay cx.slice).pm.get 0 k

/-- The slice's data memory, words `l` apart. -/
def DmBut (cx : SliceCx) (s : State) (l : List Nat) (t : State) : Prop :=
  ∀ k, k ∉ l → (t.slice cx.bay cx.slice).dm.get 0 k = (s.slice cx.bay cx.slice).dm.get 0 k

section
variable {cx : SliceCx} {s : State} (hrun : (s.slice cx.bay cx.slice).run = .running)
  (hclock : s.sliceClock cx.bay = true) (hsrst : (s.slice cx.bay cx.slice).srst = false)
include hrun hclock hsrst

/-- An issue that traps on what a read of its memories left of the slice. -/
theorem completes_of_trap {c : Instr} {op : Nat} {f : BitVec 34} {eff : SliceEff} {cause : Nat} {lasting : Bool}
    {pm : Tbl Nat W40} {pmFlaw : Tbl Nat Flaw} {dm : Tbl Nat W24} {dmFlaw : Tbl Nat Flaw} {lp ld : List Nat}
    (hexec : exec c s = .next (sliceIssue cx op f eff s))
    (htrap : sliceExec cx op (sliceWord op f) eff (s.cascIn cx) s.free (s.slice cx.bay cx.slice) =
      sliceTrap cause lasting { sliceFound (s.slice cx.bay cx.slice) with pm := pm, pmFlaw := pmFlaw, dm := dm, dmFlaw := dmFlaw })
    (hpm : ∀ k, k ∉ lp → pm.get 0 k = (s.slice cx.bay cx.slice).pm.get 0 k)
    (hdm : ∀ k, k ∉ ld → dm.get 0 k = (s.slice cx.bay cx.slice).dm.get 0 k) :
    Completes c s fun t => SliceStopped cx s cause t ∧ PmBut cx s lp t ∧ DmBut cx s ld t := by
  obtain ⟨n, hissue⟩ := sliceIssue_issues hrun hclock hsrst op f eff
  rw [htrap] at hissue
  have hslice (y : Slice) : ({ s.setSlice cx.bay cx.slice y with free := n } : State).slice cx.bay cx.slice = y :=
    slice_setSlice_same s _ _ y
  refine ⟨_, hexec.trans (congrArg _ hissue), ?_⟩
  simp only [SliceStopped, PmBut, DmBut, hslice]
  exact ⟨⟨rfl, rfl, rfl, rfl, rfl, rfl, rfl, rfl, rfl, fun b i hne => slice_setSlice_ne s _ hne, rfl⟩, hpm, hdm⟩

theorem completes_illegalInstruction {w : W40} (hfetch : cx.fetch = .none)
    (hflaw : (s.slice cx.bay cx.slice).pmFlaw.get .none (s.slice cx.bay cx.slice).pc.toNat = .none)
    (hillegal : sliceLegal (w.toNat / 2 ^ 34) w.toNat (s.slice cx.bay cx.slice) = false) :
    Completes (.illegalInstruction cx w) s fun t => SliceStopped cx s 1 t ∧ PmBut cx s [] t ∧ DmBut cx s [] t := by
  have hexec : exec (.illegalInstruction cx w) s = .next (sliceIssue cx (w.toNat / 2 ^ 34) (BitVec.ofNat 34 w.toNat)
      (fun _ _ _ _ x => (x, .seq)) s) := congrArg Host.Outcome.next (if_neg (by rw [hillegal]; exact Bool.false_ne_true))
  refine completes_of_trap hrun hclock hsrst hexec (sliceExec_illegal _ _ _ hfetch hflaw ?_) (fun _ _ => rfl) (fun _ _ => rfl)
  rw [sliceWord_of_word, hillegal]

theorem completes_uncorrectable_fetch {c : Instr} {op : Nat} {f : BitVec 34} {eff : SliceEff}
    (hexec : exec c s = .next (sliceIssue cx op f eff s))
    (h : cx.fetch = .double ∨
      (s.slice cx.bay cx.slice).pmFlaw.get .none (s.slice cx.bay cx.slice).pc.toNat = .double) :
    Completes c s fun t =>
      SliceStopped cx s 2 t ∧ PmBut cx s [(s.slice cx.bay cx.slice).pc.toNat] t ∧ DmBut cx s [] t := by
  obtain ⟨lasting, o, htrap⟩ := sliceExec_uncorrectable eff (s.cascIn cx) s.free h
  obtain ⟨pm, pmFlaw, hread, hpm⟩ := readPm_keeps (sliceFound (s.slice cx.bay cx.slice)) _ cx.fetch o
  rw [hread] at htrap
  exact completes_of_trap hrun hclock hsrst hexec htrap (fun k hk => hpm k (by simpa using hk)) (fun _ _ => rfl)

theorem completes_uncorrectable_load {f : BitVec 34} (hfetch : cx.fetch = .none)
    (hflaw : (s.slice cx.bay cx.slice).pmFlaw.get .none (s.slice cx.bay cx.slice).pc.toNat = .none)
    (hlegal : sliceLegal 0x0A (sliceWord 0x0A f) (s.slice cx.bay cx.slice) = true) (hmemA : cx.memA = .double) :
    Completes (.sliceLd cx f) s fun t => SliceStopped cx s 3 t ∧ PmBut cx s [] t ∧
      DmBut cx s [((s.slice cx.bay cx.slice).p[fldPA (sliceWord 0x0A f)]).toNat] t := by
  obtain ⟨lasting, o, htrap⟩ := sliceExec_load_uncorrectable effLd (s.cascIn cx) s.free hfetch hflaw hlegal rfl hmemA rfl
  obtain ⟨dm, dmFlaw, hread, hdm⟩ := readDm_keeps (sliceFound (s.slice cx.bay cx.slice)) _ .double o
  rw [hread] at htrap
  exact completes_of_trap hrun hclock hsrst rfl htrap (fun _ _ => rfl) (fun k hk => hdm k (by simpa using hk))

end

/-- Settles O18: the three causes by the read that finds them; a slice that does not run issues nothing. -/
theorem sliceTraps : Obligations.SliceTraps := by
  intro cx s x stopped pmBut dmBut
  refine ⟨fun hrun hclock hsrst => ⟨fun w hfetch hflaw hillegal => ?_, fun h f => ⟨?_, ?_⟩, fun f hready hmemA => ?_⟩,
    fun hheld => ⟨fun f => ⟨?_, ?_⟩, fun w => ?_⟩⟩
  · exact completes_illegalInstruction hrun hclock hsrst hfetch hflaw hillegal
  · exact completes_uncorrectable_fetch hrun hclock hsrst rfl h
  · exact completes_uncorrectable_fetch hrun hclock hsrst rfl h
  · obtain ⟨-, -, -, hlegal, -, hfetch, -, -, hflaw, -, -⟩ := hready
    exact completes_uncorrectable_load hrun hclock hsrst hfetch hflaw hlegal hmemA
  · exact congrArg Host.Outcome.next (sliceIssue_held hheld _ _ _)
  · exact congrArg Host.Outcome.next (sliceIssue_held hheld _ _ _)
  · exact congrArg Host.Outcome.next ((ite_congr rfl (fun _ => rfl) fun _ => sliceIssue_held hheld _ _ _).trans (ite_self _))

end Sys2Proof.Machine
end

section
/-! The flow of a slice's program (07 R343, R362 to R368). -/

namespace Sys2Proof.Machine

/-! Level ends (07 R364, R365) and levels left by a jump (07 R366). -/

theorem loopEnds_away {pc : Nat} (nxt : Nat) {ls : List LoopLevel} (h : ∀ l ∈ ls, l.last ≠ pc) :
    loopEnds pc nxt ls = (nxt, ls) := by
  cases ls with
  | nil => rfl
  | cons l r => exact if_neg (h l List.mem_cons_self)

theorem loopEnds_again {pc : Nat} (nxt : Nat) {l : LoopLevel} (r : List LoopLevel) (hlast : l.last = pc) (hcount : 1 < l.count) :
    loopEnds pc nxt (l :: r) = (l.first, { l with count := l.count - 1 } :: r) :=
  (if_pos hlast).trans (if_pos hcount)

theorem loopEnds_done {pc : Nat} (nxt : Nat) {l : LoopLevel} (r : List LoopLevel) (hlast : l.last = pc) (hcount : l.count ≤ 1) :
    loopEnds pc nxt (l :: r) = loopEnds pc (pc + 1) r :=
  (if_pos hlast).trans (if_neg (by omega))

theorem popLeft_outside {t : Nat} {ls : List LoopLevel} (h : ∀ l ∈ ls, ¬ (l.first ≤ t ∧ t ≤ l.last)) : popLeft t ls = [] := by
  induction ls with
  | nil => rfl
  | cons l r ih => exact (if_neg (h l List.mem_cons_self)).trans (ih fun q hq => h q (List.mem_cons_of_mem l hq))

/-! The flow of each kind. -/

theorem ofNat_pc_succ (pc : BitVec 7) : BitVec.ofNat 7 (pc.toNat + 1) = pc + 1 := by
  rw [BitVec.ofNat_add, BitVec.ofNat_toNat, BitVec.setWidth_eq]; rfl

theorem sliceFlow_seq {x : Slice} {n : Nat} {ls : List LoopLevel}
    (h : loopEnds x.pc.toNat (x.pc.toNat + 1) x.loops = (n, ls)) :
    sliceFlow .seq x = { x with pc := BitVec.ofNat 7 n, loops := ls } := by
  simp only [sliceFlow, h]

theorem sliceFlow_seq_next {x : Slice} {ls : List LoopLevel}
    (h : loopEnds x.pc.toNat (x.pc.toNat + 1) x.loops = (x.pc.toNat + 1, ls)) :
    sliceFlow .seq x = { x with pc := x.pc + 1, loops := ls } := by
  rw [sliceFlow_seq h, ofNat_pc_succ]

theorem sliceFlow_jump_inside {x : Slice} {t : Nat} {l : LoopLevel} {r : List LoopLevel} (hx : x.loops = l :: r)
    (hfirst : l.first ≤ t) (hlast : t ≤ l.last) : sliceFlow (.jump t) x = { x with pc := BitVec.ofNat 7 t } := by
  have hkept : popLeft t x.loops = x.loops := by rw [hx]; exact if_pos ⟨hfirst, hlast⟩
  simp only [sliceFlow, hkept]

theorem sliceFlow_jump_outside {x : Slice} {t : Nat} (h : ∀ l ∈ x.loops, ¬ (l.first ≤ t ∧ t ≤ l.last)) :
    sliceFlow (.jump t) x = { x with pc := BitVec.ofNat 7 t, loops := [] } := by
  simp only [sliceFlow, popLeft_outside h]

theorem sliceFlow_loop_push (x : Slice) {c : Nat} (t : Nat) (hc : c ≠ 0) :
    sliceFlow (.loop c t) x = { x with pc := x.pc + 1, loops := ⟨x.pc.toNat + 1, t, c⟩ :: x.loops } := by
  simp only [sliceFlow, hc, if_false, ofNat_pc_succ]

theorem sliceFlow_loop_skip {x : Slice} (t : Nat) (h : ∀ l ∈ x.loops, l.last ≠ x.pc.toNat) :
    sliceFlow (.loop 0 t) x = { x with pc := BitVec.ofNat 7 (t + 1) } := by
  simp only [sliceFlow, if_true, loopEnds_away _ h]

theorem sliceFlow_stop (x : Slice) (r : RunState) :
    sliceFlow (.stop r) x = { x with pc := x.pc + 1, run := r, prologue := x.prologue && r != .waiting } := by
  simp only [sliceFlow, ofNat_pc_succ]

end Sys2Proof.Machine
end

section
/-! Circular pointers (06 R273): buffers start at multiples of the power of two that holds them. -/

namespace Sys2Proof.Machine

/-- One test of `pow2Up`. -/
def pow2Step (n k b : Nat) : Nat := if n ≤ 2 ^ k then 2 ^ k else b

theorem foldr_pow2Step_above {n m : Nat} (h : 2 ^ m < n) (b : Nat) : (List.range (m + 1)).foldr (pow2Step n) b = b := by
  refine List.foldrRecOn (motive := fun c => c = b) _ _ rfl fun c hc k hk => ?_
  have hle : 2 ^ k ≤ 2 ^ m := Nat.pow_le_pow_right (by decide) (Nat.lt_succ_iff.mp (List.mem_range.mp hk))
  exact (if_neg (by omega)).trans hc

/-- The first power that holds `n`, counted down from one that does. -/
theorem foldr_pow2Step {n : Nat} (hn : 0 < n) (m : Nat) (h : n ≤ 2 ^ m) :
    ∃ k ≤ m, (List.range m).foldr (pow2Step n) (2 ^ m) = 2 ^ k ∧ n ≤ 2 ^ k ∧ 2 ^ k < 2 * n := by
  induction m with
  | zero => exact ⟨0, le_rfl, rfl, h, by omega⟩
  | succ m ih =>
    by_cases hm : n ≤ 2 ^ m
    · obtain ⟨k, hk, hfold, hfit⟩ := ih hm
      refine ⟨k, by omega, ?_, hfit⟩
      rw [List.range_succ, List.foldr_append, List.foldr_cons, List.foldr_nil, pow2Step, if_pos hm, hfold]
    · exact ⟨m + 1, le_rfl, foldr_pow2Step_above (by omega) _, h, by omega⟩

theorem pow2Up_spec {n : Nat} (hn : 0 < n) (h : n ≤ 1024) : ∃ k ≤ 10, pow2Up n = 2 ^ k ∧ n ≤ 2 ^ k ∧ 2 ^ k < 2 * n := by
  have hlast : pow2Up n = (List.range 10).foldr (pow2Step n) (pow2Step n 10 1024) := rfl
  rw [hlast, pow2Step, if_pos (show n ≤ 2 ^ 10 from h)]
  exact foldr_pow2Step hn 10 h

theorem ptrUpdate_zero (p : BitVec 10) (d : Int) : ((ptrUpdate p 0 d).toNat : Int) = (p.toNat + d) % 1024 := by
  rw [ptrUpdate, if_pos rfl, BitVec.toNat_ofInt, Int.toNat_of_nonneg (Int.emod_nonneg _ (by decide))]; rfl

/-- A pointer moves within its buffer, modulo the buffer's length. -/
theorem ptrUpdate_circular (p : BitVec 10) {n : Nat} (d : Int) (hn : 0 < n) (h : n ≤ 1024) :
    (ptrUpdate p n d).toNat / pow2Up n = p.toNat / pow2Up n ∧
      (((ptrUpdate p n d).toNat % pow2Up n : Nat) : Int) = ((p.toNat % pow2Up n : Nat) + d) % n ∧
      n ≤ pow2Up n ∧ pow2Up n < 2 * n := by
  obtain ⟨k, hk, hpow, hfit, htight⟩ := pow2Up_spec hn h
  have hofs : p.toNat - p.toNat / pow2Up n * pow2Up n = p.toNat % pow2Up n := by
    have := Nat.div_add_mod' p.toNat (pow2Up n)
    omega
  have hmove : ptrUpdate p n d = BitVec.ofNat 10
      (p.toNat / pow2Up n * pow2Up n + (((p.toNat % pow2Up n : Nat) + d) % n).toNat) := by
    simp only [ptrUpdate, if_neg hn.ne', hofs]
  generalize hr : (((p.toNat % pow2Up n : Nat) : Int) + d) % n = r at hmove ⊢
  have hnonneg : 0 ≤ r := hr ▸ Int.emod_nonneg _ (by omega)
  have hlt : r < n := hr ▸ Int.emod_lt_of_pos _ (by omega)
  have hbuf : p.toNat / pow2Up n * pow2Up n + r.toNat < 2 ^ 10 := by
    have hdvd : 2 ^ 10 = 2 ^ (10 - k) * 2 ^ k := by rw [← Nat.pow_add]; congr 1; omega
    rw [hpow]
    have hq : p.toNat / 2 ^ k < 2 ^ (10 - k) := Nat.div_lt_of_lt_mul (by rw [Nat.mul_comm, ← hdvd]; exact p.isLt)
    calc p.toNat / 2 ^ k * 2 ^ k + r.toNat < (p.toNat / 2 ^ k + 1) * 2 ^ k := by rw [Nat.succ_mul]; omega
      _ ≤ 2 ^ (10 - k) * 2 ^ k := Nat.mul_le_mul_right _ hq
      _ = 2 ^ 10 := hdvd.symm
  have hsmall : r.toNat < pow2Up n := by omega
  rw [hmove, BitVec.toNat_ofNat, Nat.mod_eq_of_lt hbuf]
  refine ⟨?_, ?_, by omega, by omega⟩
  · rw [Nat.mul_comm, Nat.mul_add_div (by omega), Nat.div_eq_of_lt hsmall, Nat.add_zero]
  · rw [Nat.mul_add_mod', Nat.mod_eq_of_lt hsmall, Int.toNat_of_nonneg hnonneg]

end Sys2Proof.Machine
end

section
/-! Rows of the slice instruction set on a slice ready to issue (07 R343 to R357). -/

namespace Sys2Proof.Machine

/-! Fields of the word as the rows read them. -/

@[simp] theorem fldREG_sliceWord (op : Nat) (f : BitVec 34) : fldREG (sliceWord op f) = (f.extractLsb' 29 5).toNat :=
  (bits_sliceWord op f (by decide)).trans (bits_toNat_eq_extractLsb' f 29 5)
@[simp] theorem fldRS_sliceWord (op : Nat) (f : BitVec 34) : fldRS (sliceWord op f) = (f.extractLsb' 24 5).toNat :=
  (bits_sliceWord op f (by decide)).trans (bits_toNat_eq_extractLsb' f 24 5)
@[simp] theorem fldN_sliceWord (op : Nat) (f : BitVec 34) : fldN (sliceWord op f) = (f.extractLsb' 24 10).toNat :=
  (bits_sliceWord op f (by decide)).trans (bits_toNat_eq_extractLsb' f 24 10)
@[simp] theorem fldCND_sliceWord (op : Nat) (f : BitVec 34) : fldCND (sliceWord op f) = (f.extractLsb' 20 4).toNat :=
  (bits_sliceWord op f (by decide)).trans (bits_toNat_eq_extractLsb' f 20 4)
@[simp] theorem fldTGT_sliceWord (op : Nat) (f : BitVec 34) : fldTGT (sliceWord op f) = (f.extractLsb' 0 7).toNat :=
  (bits_sliceWord op f (by decide)).trans (bits_toNat_eq_extractLsb' f 0 7)
@[simp] theorem fldEX_sliceWord (op : Nat) (f : BitVec 34) : fldEX (sliceWord op f) = (f.extractLsb' 0 2).toNat :=
  (bits_sliceWord op f (by decide)).trans (bits_toNat_eq_extractLsb' f 0 2)
@[simp] theorem fldMD_sliceWord (op : Nat) (f : BitVec 34) {i : Nat} (h : i < 26) :
    fldMD (sliceWord op f) i = f.getLsbD (8 + i) :=
  bit_sliceWord op f (by omega)
@[simp] theorem fldIMM_sliceWord (op : Nat) (f : BitVec 34) : fldIMM (sliceWord op f) = f.extractLsb' 0 24 := by
  have hbits := bits_sliceWord op f (show 0 + 24 ≤ 34 by decide)
  rw [bits_toNat_eq_extractLsb', bits, Nat.pow_zero, Nat.div_one] at hbits
  exact BitVec.eq_of_toNat_eq ((BitVec.toNat_ofNat _ _).trans hbits)

/-! A row from its effect. -/

/-- A row runs with what its effect makes of the slice found, its memory words and the cascade input. -/
theorem sliceRuns_of_effect {c : Instr} {cx : SliceCx} {op : Nat} {f : BitVec 34} {s : State} {eff : SliceEff}
    {g : Slice → Slice} {fl : Flow} (hready : SliceReady cx op f s) (hexec : exec c s = .next (sliceIssue cx op f eff s))
    (heff : eff (sliceWord op f) ((s.slice cx.bay cx.slice).dm.get 0 ((s.slice cx.bay cx.slice).p[fldPA f.toNat]).toNat)
      ((s.slice cx.bay cx.slice).dm.get 0 ((s.slice cx.bay cx.slice).p[fldPB f.toNat]).toNat) (s.cascIn cx)
      (sliceFound (s.slice cx.bay cx.slice)) = (g (sliceFound (s.slice cx.bay cx.slice)), fl)) :
    SliceRuns c cx op f s g fl := by
  refine hexec.trans (congrArg _ (sliceIssue_runs hready ?_))
  simpa only [fldPA_sliceWord, fldPB_sliceWord] using heff

/-! Effects with cases of their own. -/

theorem sliceLegal_codes {op w : Nat} {x : Slice} (h : sliceLegal op w x = true) : sliceCodesOk op w = true := by
  unfold sliceLegal at h
  split at h
  · exact absurd h Bool.false_ne_true
  · simp only [Bool.and_eq_true] at h
    obtain ⟨⟨-, hcodes⟩, -⟩ := h
    exact hcodes

/-- The branch conditions in the order of their codes (07 R362). -/
theorem sliceCond_eq {c : Nat} (hc : c < 12) (x : Slice) : sliceCond c x =
    [x.z, !x.z, x.n, !x.n, x.v, !x.v, x.sat, !x.sat, !x.z && (x.n == x.v), x.z || (x.n != x.v), x.n == x.v,
      x.n != x.v].getD c false := by
  interval_cases c <;> rfl

/-- A search step takes the memory word exactly when it is better, or equal under MD[1] (07 R354, R355). -/
theorem searchStep_sliceWord {better : Int → Int → Bool} {f : BitVec 34} {u : W24} {x : Slice} {P : Prop} [Decidable P]
    (hbetter : better (valOf u (f.getLsbD 8)) (valOf x.x[fldXD f.toNat] (f.getLsbD 8)) = decide P) (op : Nat) :
    searchStep better (sliceWord op f) u x =
      if P ∨ (f.getLsbD 9 = true ∧ valOf u (f.getLsbD 8) = valOf x.x[fldXD f.toNat] (f.getLsbD 8)) then
        { x with x := x.x.set (fldXD f.toNat) u
                 i0 := if f.getLsbD 10 then BitVec.ofNat 16 ((x.loops.head?.map (·.count)).getD 0)
                       else (x.p[fldPA f.toNat]).setWidth 16 }
      else x := by
  simp (disch := decide) only [searchStep, moveX, fldXD_sliceWord, fldPA_sliceWord, fldMD_sliceWord, Nat.reduceAdd, Nat.add_zero,
    hbetter, Bool.or_eq_true, Bool.and_eq_true, decide_eq_true_eq, beq_iff_eq, apply_ite (BitVec.ofNat 16), BitVec.ofNat_toNat]
  cases x.loops <;> rfl

theorem ofNat_mul_two_pow_add {n m : Nat} (a : BitVec n) (b : BitVec m) :
    BitVec.ofNat (n + m) (a.toNat * 2 ^ m + b.toNat) = a ++ b := by
  refine BitVec.eq_of_toNat_eq ?_
  have hlt := (a ++ b).isLt
  rw [BitVec.toNat_append, ← Nat.shiftLeft_add_eq_or_of_lt b.isLt, Nat.shiftLeft_eq] at hlt ⊢
  rw [BitVec.toNat_ofNat, Nat.mod_eq_of_lt hlt]

/-- The word that the form EX makes of XD and i0 (07 R357). -/
def emitForm (f : BitVec 34) (x : Slice) : W24 :=
  match (f.extractLsb' 0 2).toNat with
  | 0 => x.x[fldXD f.toNat]
  | 1 => x.i0.extractLsb' 0 8 ++ (x.x[fldXD f.toNat]).extractLsb' 0 16
  | _ => x.i0.extractLsb' 0 12 ++ (x.x[fldXD f.toNat]).extractLsb' 0 12

theorem emitWord_sliceWord (op : Nat) (f : BitVec 34) (x : Slice) :
    emitWord (sliceWord op f) x = { x with emits := x.emits ++ [(emitForm f x, x.tag)] } := by
  have h8 := ofNat_mul_two_pow_add (x.i0.extractLsb' 0 8) ((x.x[fldXD f.toNat]).extractLsb' 0 16)
  have h12 := ofNat_mul_two_pow_add (x.i0.extractLsb' 0 12) ((x.x[fldXD f.toNat]).extractLsb' 0 12)
  simp only [← bits_toNat_eq_extractLsb', bits, Nat.pow_zero, Nat.div_one] at h8 h12
  simp only [emitWord, emitForm, fldXD_sliceWord, fldEX_sliceWord, ← h8, ← h12]
  rfl

/-- Whether XD reaches the threshold in XS (07 R356). -/
def Reaches (f : BitVec 34) (x : Slice) : Prop :=
  valOf x.x[fldXS f.toNat] (f.getLsbD 8) < valOf x.x[fldXD f.toNat] (f.getLsbD 8) ∨
    (f.getLsbD 9 = false ∧ valOf x.x[fldXS f.toNat] (f.getLsbD 8) = valOf x.x[fldXD f.toNat] (f.getLsbD 8))

theorem effThe_sliceWord {f : BitVec 34} {x : Slice} {reached : Bool} (h : reached = true ↔ Reaches f x) (op : Nat) (u v : W24)
    (c : BitVec 56) : effThe (sliceWord op f) u v c x =
      ({ (if reached then emitWord (sliceWord op f) x else x) with z := !reached }, .seq) := by
  have htest (a b : Int) : (decide (0 < b - a) || (!f.getLsbD 9 && b - a == 0)) = true ↔
      a < b ∨ (f.getLsbD 9 = false ∧ a = b) := by
    rw [Bool.or_eq_true, Bool.and_eq_true, Bool.not_eq_true', decide_eq_true_eq, beq_iff_eq, sub_pos, sub_eq_zero,
      eq_comm (a := b)]
  simp (disch := decide) only [effThe, fldXD_sliceWord, fldXS_sliceWord, fldMD_sliceWord, Nat.reduceAdd, Nat.add_zero]
  rw [Bool.eq_iff_iff.mpr ((htest _ _).trans h.symm)]

end Sys2Proof.Machine
end

section
/-! Program control, moves, memory access, search and emit, put together (07 R343, R347 to R357, R362 to R368; 06 R273). -/

namespace Sys2Proof.Machine

section
variable {cx : SliceCx} {f : BitVec 34} {s : State}

/-- BR jumps exactly when its condition holds (07 R362). -/
theorem sliceRuns_br (h : SliceReady cx 0x05 f s) :
    let x := s.slice cx.bay cx.slice
    SliceRuns (.br cx f) cx 0x05 f s id
      (if [x.z, !x.z, x.n, !x.n, x.v, !x.v, x.sat, !x.sat, !x.z && (x.n == x.v), x.z || (x.n != x.v), x.n == x.v,
          x.n != x.v].getD (f.extractLsb' 20 4).toNat false
       then .jump (f.extractLsb' 0 7).toNat else .seq) := by
  intro x
  have ⟨_, _, _, hlegal, _⟩ := h
  have hcode : fldCND (sliceWord 0x05 f) < 12 := of_decide_eq_true (sliceLegal_codes hlegal)
  refine sliceRuns_of_effect h rfl ?_
  rw [effBr, sliceCond_eq hcode, fldCND_sliceWord, fldTGT_sliceWord]
  rfl

/-- RDS takes the oldest stream word (06 R277). -/
theorem sliceRuns_rds_word {d : W24} {r : List W24} (hsin : (s.slice cx.bay cx.slice).sin = d :: r) (h : SliceReady cx 0x0D f s) :
    SliceRuns (.rds cx f) cx 0x0D f s (fun y => { y with x := y.x.set (fldXD f.toNat) d, sin := r }) .seq := by
  refine sliceRuns_of_effect h rfl ?_
  have hfound : (sliceFound (s.slice cx.bay cx.slice)).sin = d :: r := hsin
  simp only [effRds, hfound, fldXD_sliceWord]
  rfl

/-- RDS on an empty queue takes 0, with SIN_UNDER (06 R277). -/
theorem sliceRuns_rds_empty (hsin : (s.slice cx.bay cx.slice).sin = []) (h : SliceReady cx 0x0D f s) :
    SliceRuns (.rds cx f) cx 0x0D f s (fun y => { y with x := y.x.set (fldXD f.toNat) 0, sinUnder := true }) .seq := by
  refine sliceRuns_of_effect h rfl ?_
  have hfound : (sliceFound (s.slice cx.bay cx.slice)).sin = [] := hsin
  simp only [effRds, hfound, fldXD_sliceWord]
  rfl

theorem sliceRuns_emit (h : SliceReady cx 0x25 f s) :
    SliceRuns (.emit cx f) cx 0x25 f s
      (fun y => { y with emits := y.emits ++ [(emitForm f (s.slice cx.bay cx.slice), y.tag)] }) .seq :=
  sliceRuns_of_effect h rfl (congrArg (·, Flow.seq) (emitWord_sliceWord 0x25 f _))

/-- THE emits when XD reaches the threshold (07 R356). -/
theorem sliceRuns_the_reaches (hreach : Reaches f (s.slice cx.bay cx.slice)) (h : SliceReady cx 0x24 f s) :
    SliceRuns (.the cx f) cx 0x24 f s
      (fun y => { y with emits := y.emits ++ [(emitForm f (s.slice cx.bay cx.slice), y.tag)], z := false }) .seq := by
  refine sliceRuns_of_effect h rfl (Eq.trans (effThe_sliceWord (x := sliceFound (s.slice cx.bay cx.slice)) (reached := true)
    (iff_of_true rfl hreach) 0x24 _ _ _) ?_)
  rw [if_pos rfl, emitWord_sliceWord]
  rfl

theorem sliceRuns_the_short (hshort : ¬ Reaches f (s.slice cx.bay cx.slice)) (h : SliceReady cx 0x24 f s) :
    SliceRuns (.the cx f) cx 0x24 f s (fun y => { y with z := true }) .seq :=
  sliceRuns_of_effect h rfl (effThe_sliceWord (x := sliceFound (s.slice cx.bay cx.slice)) (reached := false)
    (iff_of_false Bool.false_ne_true hshort) 0x24 _ _ _)

end

/-- Settles O20: each row by its effect on the slice found, the flow by the levels it meets, the pointers by their buffer. -/
theorem sliceFlowAndMoves : Obligations.SliceFlowAndMoves := by
  refine ⟨⟨fun cx f s => ?_, fun x => ?_⟩, fun cx f s => ?_, fun p d => ?_⟩
  · intro x
    refine ⟨fun h => ?_, fun h => ?_, fun h => ?_, fun h => ?_, sliceRuns_br, fun h => ?_, fun h => ?_⟩
    · exact sliceRuns_of_effect h rfl rfl
    · exact sliceRuns_of_effect h rfl rfl
    · exact sliceRuns_of_effect h rfl rfl
    · exact sliceRuns_of_effect h rfl (by rw [effJmp, fldTGT_sliceWord]; rfl)
    · exact sliceRuns_of_effect h rfl (by rw [effLoop, fldN_sliceWord, fldTGT_sliceWord]; rfl)
    · exact sliceRuns_of_effect h rfl (by simp only [effLoopr, fldXDJ_sliceWord, fldTGT_sliceWord]; rfl)
  · refine ⟨fun h => ?_, fun l r hx hlast hcount => ?_, fun l r hx hlast hcount haway => ?_,
      fun t l r hx => sliceFlow_jump_inside hx, fun t h => sliceFlow_jump_outside h, fun c t hc => sliceFlow_loop_push x t hc,
      fun t h => sliceFlow_loop_skip t h, ?_, ?_⟩
    · exact sliceFlow_seq_next (loopEnds_away _ h)
    · exact sliceFlow_seq (hx ▸ loopEnds_again _ r hlast hcount)
    · refine sliceFlow_seq_next ?_
      rw [hx, loopEnds_done _ r hlast hcount, loopEnds_away _ haway]
    · exact (sliceFlow_stop x .waiting).trans (by rw [bne_self_eq_false, Bool.and_false])
    · exact (sliceFlow_stop x .halted).trans (by rw [show (RunState.halted != .waiting) = true from rfl, Bool.and_true])
  · intro x xd xs u v un word pick
    refine ⟨fun h => ?_, fun h => ?_, fun h => ?_, fun h => ?_, fun h => ?_, fun d r => sliceRuns_rds_word, sliceRuns_rds_empty,
      fun h => ?_, fun h => ?_, fun h => ?_, fun h => ?_, sliceRuns_emit,
      fun h => ⟨fun hreach => sliceRuns_the_reaches hreach h, fun hshort => sliceRuns_the_short hshort h⟩⟩
    · exact sliceRuns_of_effect h rfl (by rw [effSeti, fldREG_sliceWord, fldIMM_sliceWord])
    · exact sliceRuns_of_effect h rfl (by rw [effMovr, fldREG_sliceWord, fldRS_sliceWord]; rfl)
    · exact sliceRuns_of_effect h rfl (by rw [effLd, fldXD_sliceWord]; rfl)
    · exact sliceRuns_of_effect h rfl (by rw [effLdd, fldXD_sliceWord, fldXS_sliceWord]; rfl)
    · exact sliceRuns_of_effect h rfl (by simp only [effSt, fldXD_sliceWord, fldPA_sliceWord]; rfl)
    · exact sliceRuns_of_effect h rfl (by rw [effCinx, fldXD_sliceWord]; rfl)
    · exact sliceRuns_of_effect h rfl (by
        simp (disch := decide) only [effCout, fldXD_sliceWord, fldA_sliceWord, fldMD_sliceWord]; rfl)
    · exact sliceRuns_of_effect h rfl (congrArg (·, Flow.seq)
        (searchStep_sliceWord (x := sliceFound x) (P := un x.x[xd] < un u) rfl 0x22))
    · exact sliceRuns_of_effect h rfl (congrArg (·, Flow.seq)
        (searchStep_sliceWord (x := sliceFound x) (P := un u < un x.x[xd]) rfl 0x23))
  · exact ⟨fun n hn h _ => ptrUpdate_circular p d hn h, ptrUpdate_zero p d⟩

end Sys2Proof.Machine
end

section
/-! Ports, run starts and resets of a slice (06 R276, R278, R297 to R305, R314, R315). -/

namespace Sys2Proof.Machine

/-! What SRST holds (06 R305). -/

theorem held_of_srst_low {x : Slice} (h : x.srst = false) : x.held = false := by
  rw [Slice.held, h, Bool.false_and]

theorem held_of_stopped {x : Slice} (h : x.run ≠ .running ∧ x.run ≠ .waiting) : x.held = false := by
  simp [Slice.held, h]

theorem held_of_active {x : Slice} (hsrst : x.srst = true) (h : x.run = .running ∨ x.run = .waiting) : x.held = true := by
  rcases h with h | h <;> simp [Slice.held, h, hsrst]

theorem settled_of_not_held {x : Slice} (h : x.held = false) : x.settled = x := by
  rw [Slice.settled, h]; rfl

theorem settled_of_held {x : Slice} (h : x.held = true) : x.settled = { x with sin := [], loops := [] } := if_pos h

/-- A slice that runs is emptied while SRST is 1. -/
theorem settled_of_running {x : Slice} (h : x.run = .running) :
    x.settled = if x.srst then { x with sin := [], loops := [] } else x := by
  by_cases hsrst : x.srst = true
  · rw [if_pos hsrst, settled_of_held (held_of_active hsrst (.inl h))]
  · rw [if_neg hsrst, settled_of_not_held (held_of_srst_low (Bool.eq_false_iff.mpr hsrst))]

theorem slicePrologue_of_srst_low {x : Slice} (h : x.srst = false) :
    slicePrologue x = { x with pc := 0, prologue := true, run := .running } :=
  settled_of_not_held (held_of_srst_low h)

/-! Rows at an edge of the slice's clock (06 R286). -/

theorem sliceEdge_on {s : State} {b : Nat} (h : s.sliceClock b = true) (i : Nat) (g : Slice → Slice) :
    sliceEdge b i g s = s.setSlice b i (g (s.slice b i)) := if_pos h

theorem sliceEdge_off {s : State} {b : Nat} (h : s.sliceClock b = false) (i : Nat) (g : Slice → Slice) : sliceEdge b i g s = s :=
  if_neg (by rw [h]; exact Bool.false_ne_true)

section
variable {s : State} {b : BayId} {i : SliceIx}

theorem exec_sliceEdge_off (hclock : s.sliceClock b = false) :
    ∀ c ∈ [Instr.pmWriteBack b i, .dmWriteBack b i, .emitOutput b i, .srstRise b i, .srstFall b i], exec c s = .next s := by
  simp only [List.mem_cons, List.not_mem_nil, or_false]
  rintro c (rfl | rfl | rfl | rfl | rfl) <;> exact congrArg Host.Outcome.next (sliceEdge_off hclock _ _)

theorem exec_clrDmDone (hbusy : (s.slice b i).busy = true) : exec (.clrDmDone b i) s =
    .next (s.setSlice b i { s.slice b i with busy := false, dm := [], dmFlaw := [], dmBack := [] }) :=
  congrArg Host.Outcome.next (congrArg (s.setSlice b i) (if_pos hbusy))

variable (hclock : s.sliceClock b = true)
include hclock

theorem exec_pmWriteBack {k : Nat} {r : List Nat} (hback : (s.slice b i).pmBack = k :: r)
    (hflaw : (s.slice b i).pmFlaw.get .none k = .single) : exec (.pmWriteBack b i) s =
      .next (s.setSlice b i { s.slice b i with pmBack := r, pmFlaw := (s.slice b i).pmFlaw.set k .none }) := by
  refine congrArg Host.Outcome.next ((sliceEdge_on hclock _ _).trans (congrArg (s.setSlice b i) ?_))
  simp only [hback, if_pos hflaw]

theorem exec_dmWriteBack {k : Nat} {r : List Nat} (hback : (s.slice b i).dmBack = k :: r)
    (hflaw : (s.slice b i).dmFlaw.get .none k = .single) : exec (.dmWriteBack b i) s =
      .next (s.setSlice b i { s.slice b i with dmBack := r, dmFlaw := (s.slice b i).dmFlaw.set k .none }) := by
  refine congrArg Host.Outcome.next ((sliceEdge_on hclock _ _).trans (congrArg (s.setSlice b i) ?_))
  simp only [hback, if_pos hflaw]

theorem exec_emitOutput {w : W24} {st : W16} {r : List (W24 × W16)} (hemits : (s.slice b i).emits = (w, st) :: r) :
    exec (.emitOutput b i) s = .next (s.setSlice b i { s.slice b i with
      emits := r, outData := w, outSt := st, outValid := (s.slice b i).run != .trapped }) := by
  refine congrArg Host.Outcome.next ((sliceEdge_on hclock _ _).trans (congrArg (s.setSlice b i) ?_))
  simp only [hemits]

theorem exec_streamInputWord (hheld : (s.slice b i).held = false) (d : W24) :
    exec (.streamInputWord b i d) s = .next (s.setSlice b i
      (if (s.slice b i).sin.length < 4 then { s.slice b i with sin := (s.slice b i).sin ++ [d] }
       else { s.slice b i with sinOver := true })) := by
  refine congrArg Host.Outcome.next ((if_neg (by simp [hclock, hheld])).trans ?_)
  exact (apply_ite (s.setSlice b i) _ _ _).symm

theorem exec_srstRise (hactive : (s.slice b i).run = .running ∨ (s.slice b i).run = .waiting) :
    exec (.srstRise b i) s = .next (s.setSlice b i { s.slice b i with srst := true, sin := [], loops := [] }) :=
  congrArg Host.Outcome.next ((sliceEdge_on hclock _ _).trans (congrArg (s.setSlice b i)
    (settled_of_held (held_of_active rfl hactive))))

theorem exec_srstFall (hactive : (s.slice b i).run = .running ∨ (s.slice b i).run = .waiting)
    (hsrst : (s.slice b i).srst = true) : exec (.srstFall b i) s =
      .next (s.setSlice b i { s.slice b i with srst := false, pc := 0, prologue := true, run := .running }) :=
  congrArg Host.Outcome.next ((sliceEdge_on hclock _ _).trans (congrArg (s.setSlice b i)
    ((if_pos (held_of_active hsrst hactive)).trans (slicePrologue_of_srst_low rfl))))

end

/-! Run-start edges (06 R297 to R304). -/

/-- The slice as a run-start edge first changes it: the spine's tag, the lag, and no word at its output (06 R279, R304). -/
def Slice.edged (tag : W16) (lag : BitVec 10) (x : Slice) : Slice := { x with tag := tag, runLag := lag, outValid := false }

/-- The slice whose run an edge abandons (06 R300). -/
def Slice.abandoned (x : Slice) : Slice := { x with overrun := true, overruns := min 0xFF (x.overruns + 1), loops := [] }

section
variable {tag : W16} {rsy : Bool} {lag : BitVec 10} {x : Slice}

theorem sliceRunStart_waitx (hrun : x.run = .waiting) (hsrst : x.srst = false) (hmode : x.mode = false) :
    sliceRunStart tag rsy lag x = { x.edged tag lag with run := .running } := by
  simp [sliceRunStart, Slice.edged, hrun, hsrst, hmode]

theorem sliceRunStart_prologue (hrun : x.run = .running) (hsrst : x.srst = false) (hpro : x.prologue = true) :
    sliceRunStart tag rsy lag x = { x.edged tag lag with skipped := min 0xFF (x.skipped + 1) } := by
  simp [sliceRunStart, Slice.edged, hrun, hsrst, hpro]

/-- In triggered mode the run begins at START, unless the edge is a resync the slice acts on. -/
theorem sliceRunStart_begin (hsrst : x.srst = false) (hmode : x.mode = true)
    (hrsy : (rsy && (decide (x.rsyAction = 1) || decide (x.rsyAction = 2))) = false) :
    (x.run = .waiting → sliceRunStart tag rsy lag x = sliceBegin (x.edged tag lag)) ∧
    (x.run = .running → x.prologue = false → sliceRunStart tag rsy lag x = sliceBegin (x.edged tag lag).abandoned) := by
  refine ⟨fun hrun => ?_, fun hrun hpro => ?_⟩
  · simp only [sliceRunStart, Slice.edged, hrun, hsrst, hmode, hrsy, reduceCtorEq, decide_false, Bool.and_false, Bool.not_true,
      Bool.false_eq_true, or_self, if_false]
  · simp only [sliceRunStart, Slice.edged, Slice.abandoned, hrun, hsrst, hmode, hpro, hrsy, reduceCtorEq, Bool.false_and,
      Bool.not_true, Bool.false_eq_true, or_self, if_false, if_true]

/-- A resync under RSY_ACTION 1 starts the prologue with the queue and the loops empty (06 R303). -/
theorem sliceRunStart_resync (hsrst : x.srst = false) (hmode : x.mode = true) (haction : x.rsyAction = 1) :
    (x.run = .waiting → sliceRunStart tag true lag x =
      { x.edged tag lag with sin := [], loops := [], pc := 0, prologue := true, run := .running }) ∧
    (x.run = .running → x.prologue = false → sliceRunStart tag true lag x =
      { (x.edged tag lag).abandoned with sin := [], pc := 0, prologue := true, run := .running }) := by
  refine ⟨fun hrun => ?_, fun hrun hpro => ?_⟩
  · simp [sliceRunStart, Slice.edged, hrun, hsrst, hmode, haction, slicePrologue_of_srst_low]
  · simp [sliceRunStart, Slice.edged, Slice.abandoned, hrun, hsrst, hmode, hpro, haction, slicePrologue_of_srst_low]

end

theorem exec_runStartEdge {s : State} {b : BayId} (hfence : s.fenced b = false) (hclock : s.sliceClock b = true) (i : SliceIx)
    (lag : BitVec 10) : exec (.runStartEdge b i lag) s = .next (s.setSlice b i
      (sliceRunStart s.tmg.spineTag (s.rsyAt == some s.tmg.strobes) lag (s.slice b i))) := by
  have hspine : (s.spine b).tag = s.tmg.spineTag := by rw [State.spine, hfence]; rfl
  rw [← hspine]
  exact congrArg Host.Outcome.next (if_neg (by simp [hfence, hclock]))

end Sys2Proof.Machine
end

section
/-! Access to the selected slice (06 R297, R324 to R332). -/

namespace Sys2Proof.Machine

section
variable {s : State} {b i : Nat} (hsel : s.selSlice = some (b, i))
include hsel

theorem sliceAction_on (hon : s.domOn b = true) (g : Nat → Nat → State → State) : sliceAction g s = g b i s.okay := by
  simp only [sliceAction, hsel, hon, if_true]

theorem sliceAction_off (hoff : s.domOn b = false) (g : Nat → Nat → State → State) : sliceAction g s = s.answer .poweredDown := by
  simp only [sliceAction, hsel, hoff, Bool.false_eq_true, if_false]

theorem exec_sliceActions_off (hoff : s.domOn b = false) :
    exec .sliceHalt s = .next (s.answer .poweredDown) ∧ exec .sliceGo s = .next (s.answer .poweredDown) ∧
      exec .sliceResume s = .next (s.answer .poweredDown) ∧ exec .clrDm s = .next (s.answer .poweredDown) := by
  refine ⟨?_, ?_, ?_, ?_⟩ <;> exact congrArg Host.Outcome.next (sliceAction_off hsel hoff _)

variable (hon : s.domOn b = true)
include hon

theorem exec_sliceHalt (hactive : (s.slice b i).run = .running ∨ (s.slice b i).run = .waiting) :
    exec .sliceHalt s = .next (s.okay.setSlice b i { s.slice b i with run := .halted }) :=
  congrArg Host.Outcome.next ((sliceAction_on hsel hon _).trans (congrArg (s.okay.setSlice b i) (if_pos hactive)))

theorem exec_sliceGo (hfence : s.fenced b = false) :
    let y : Slice := { s.slice b i with
      pc := 0, prologue := true, run := .running, cause := 0, retryDone := false, lasting := false }
    exec .sliceGo s = .next (s.okay.setSlice b i (if y.srst then { y with sin := [], loops := [] } else y)) := by
  refine congrArg Host.Outcome.next ((sliceAction_on hsel hon _).trans ((if_neg ?_).trans
    (congrArg (s.okay.setSlice b i) (settled_of_running rfl))))
  exact fun h => Bool.false_ne_true (hfence.symm.trans h)

theorem exec_sliceGo_fenced (hfence : s.fenced b = true) :
    exec .sliceGo s = .next (s.okay.setSlice b i { s.slice b i with accRefused := true }) :=
  congrArg Host.Outcome.next ((sliceAction_on hsel hon _).trans (if_pos hfence))

theorem exec_sliceResume (hstopped : (s.slice b i).run = .halted ∨ (s.slice b i).run = .trapped) :
    let y : Slice := { s.slice b i with run := .running, retryDone := false, lasting := false }
    exec .sliceResume s = .next (s.okay.setSlice b i (if y.srst then { y with sin := [], loops := [] } else y)) :=
  congrArg Host.Outcome.next ((sliceAction_on hsel hon _).trans (congrArg (s.okay.setSlice b i)
    ((if_pos hstopped).trans (settled_of_running rfl))))

theorem exec_clrDm (hstopped : (s.slice b i).run = .halted ∨ (s.slice b i).run = .trapped) :
    exec .clrDm s = .next (s.okay.setSlice b i { s.slice b i with busy := true }) :=
  congrArg Host.Outcome.next ((sliceAction_on hsel hon _).trans (congrArg (s.okay.setSlice b i) (if_pos hstopped)))

/-- RESUME and CLR_DM of a slice that is neither halted nor trapped are refused (06 R297). -/
theorem exec_sliceAction_refused (hactive : (s.slice b i).run = .running ∨ (s.slice b i).run = .waiting) :
    exec .sliceResume s = .next (s.okay.setSlice b i { s.slice b i with accRefused := true }) ∧
      exec .clrDm s = .next (s.okay.setSlice b i { s.slice b i with accRefused := true }) := by
  have hnot : ¬((s.slice b i).run = .halted ∨ (s.slice b i).run = .trapped) := by
    rcases hactive with h | h <;> simp [h]
  constructor <;>
    exact congrArg Host.Outcome.next ((sliceAction_on hsel hon _).trans (congrArg (s.okay.setSlice b i) (if_neg hnot)))

/-! DATA_LO (06 R329 to R332). -/

theorem exec_sliceData_refused (h : (s.slice b i).run = .running ∨ (s.slice b i).run = .waiting ∨ (s.slice b i).busy = true) :
    (∀ lo, exec (.sliceDataWrite lo) s = .next (s.okay.setSlice b i { s.slice b i with accRefused := true })) ∧
      ∀ u, exec (.sliceDataRead false u) s = .next (s.okay.setSlice b i { s.slice b i with accRefused := true }) := by
  have hrefused : dataAccessOk (s.slice b i) = false := by
    rcases h with h | h | h <;> simp [dataAccessOk, h]
  refine ⟨fun lo => congrArg Host.Outcome.next ?_, fun u => congrArg Host.Outcome.next ?_⟩
  · simp [sliceDataStore, hsel, hon, hrefused]
  · simp [sliceDataFetch, hsel, hon, hrefused]

variable (hopen : dataAccessOk (s.slice b i) = true)
include hopen

/-- A write of data memory stores the word without error (06 R329). -/
theorem exec_sliceDataWrite_dm (lo : W32) (hspace : s.get F.CFG_SLC_ADDR_SPACE = 1) :
    let x := s.slice b i
    let k := s.get F.CFG_SLC_ADDR_WORD
    exec (.sliceDataWrite lo) s = .next (sliceAutoInc ((s.okay.put F.CFG_SLC_DATA_LO_LO 0 lo.toNat).setSlice b i
      (putDm k (lo.setWidth 24) x))) := by
  intro x k
  have hword : BitVec.ofNat 24 (lo.toNat % 2 ^ 32 + s.get F.CFG_SLC_DATA_HI_HI * 2 ^ 32) = lo.setWidth 24 :=
    BitVec.eq_of_toNat_eq (by rw [BitVec.toNat_ofNat, BitVec.toNat_setWidth]; omega)
  refine congrArg Host.Outcome.next ?_
  simp only [sliceDataStore, hsel, hon, hopen, hspace, hword, Bool.not_true, Bool.false_eq_true, if_false]
  rfl

/-- A write of the register space writes the register (06 R329, R334). -/
theorem exec_sliceDataWrite_reg (lo : W32) (hspace : s.get F.CFG_SLC_ADDR_SPACE = 2) :
    exec (.sliceDataWrite lo) s = .next (sliceAutoInc ((s.okay.put F.CFG_SLC_DATA_LO_LO 0 lo.toNat).setSlice b i
      (setSliceReg (s.slice b i) (s.get F.CFG_SLC_ADDR_WORD) (lo.toNat % 2 ^ 32 + s.get F.CFG_SLC_DATA_HI_HI * 2 ^ 32)))) := by
  refine congrArg Host.Outcome.next ?_
  simp only [sliceDataStore, hsel, hon, hopen, hspace, Bool.not_true, Bool.false_eq_true, if_false]

/-- A read of a clean word of data memory answers it (06 R330). -/
theorem exec_sliceDataRead_dm (hspace : s.get F.CFG_SLC_ADDR_SPACE = 1)
    (hflaw : (s.slice b i).dmFlaw.get .none (s.get F.CFG_SLC_ADDR_WORD) = .none) :
    let v := ((s.slice b i).dm.get 0 (s.get F.CFG_SLC_ADDR_WORD)).toNat
    exec (.sliceDataRead false .none) s = .next (sliceAutoInc ((((s.okay (v % 2 ^ 32)).setSlice b i (s.slice b i)).put
      F.CFG_SLC_DATA_LO_LO 0 v).put F.CFG_SLC_DATA_HI_HI 0 (v / 2 ^ 32))) := by
  intro v
  have hfetch (o : W64) : (s.slice b i).fetch 1 (s.get F.CFG_SLC_ADDR_WORD) .none o = (s.slice b i, v, .none) := by
    simp [Slice.fetch, Slice.readDm, meet, strike, hflaw, v]
  refine congrArg Host.Outcome.next ?_
  simp only [sliceDataFetch, hsel, hon, hopen, hspace, hfetch, Bool.not_true, Bool.false_eq_true, if_false]
  rfl

end

/-! The step of the address (06 R331). -/

theorem slice_sliceAutoInc (t : State) (b i : Nat) : (sliceAutoInc t).slice b i = t.slice b i := by
  unfold sliceAutoInc State.when
  split <;> rfl

theorem ans_sliceAutoInc (t : State) : (sliceAutoInc t).ans = t.ans := by
  unfold sliceAutoInc State.when
  split <;> rfl

theorem word_sliceAutoInc (t : State) : (sliceAutoInc t).get F.CFG_SLC_ADDR_WORD =
    if t.on F.CFG_SLC_ADDR_AUTO_INC then (t.get F.CFG_SLC_ADDR_WORD + 1) % 2 ^ F.CFG_SLC_ADDR_WORD.len
    else t.get F.CFG_SLC_ADDR_WORD := by
  rw [sliceAutoInc, State.get_when, State.get_put_same _ _ _ _ (by decide)]

/-- The address register stands apart from the data registers. -/
theorem word_sliceAutoInc_eq {s t : State} (hword : t.get F.CFG_SLC_ADDR_WORD = s.get F.CFG_SLC_ADDR_WORD)
    (hauto : t.on F.CFG_SLC_ADDR_AUTO_INC = s.on F.CFG_SLC_ADDR_AUTO_INC) : (sliceAutoInc t).get F.CFG_SLC_ADDR_WORD =
    if s.on F.CFG_SLC_ADDR_AUTO_INC then (s.get F.CFG_SLC_ADDR_WORD + 1) % 2 ^ F.CFG_SLC_ADDR_WORD.len
    else s.get F.CFG_SLC_ADDR_WORD := by
  rw [word_sliceAutoInc, hword, hauto]

/-! Registers x0 to x7 of the register space (06 R334). -/

theorem setSliceReg_x (x : Slice) {k : Nat} (h : k < 8) (v : Nat) :
    setSliceReg x k v = { x with x := x.x.set k (BitVec.ofNat 24 v) } := dif_pos h

theorem sliceReg_x (x : Slice) {k : Nat} (h : k < 8) : sliceReg x k = (x.x[k]).toNat := dif_pos h

section
variable {s : State} {b i : Nat} (hsel : s.selSlice = some (b, i)) (hon : s.domOn b = true)
  (hopen : dataAccessOk (s.slice b i) = true)
include hsel hon hopen

theorem completes_sliceDataWrite_dm (lo : W32) (hspace : s.get F.CFG_SLC_ADDR_SPACE = 1) :
    let x := s.slice b i
    let k := s.get F.CFG_SLC_ADDR_WORD
    Completes (.sliceDataWrite lo) s fun t =>
      (t.slice b i).dm.get 0 k = lo.setWidth 24 ∧ (t.slice b i).dmFlaw.get .none k = .none ∧
      (∀ j, j ≠ k → (t.slice b i).dm.get 0 j = x.dm.get 0 j) ∧ (t.slice b i).x = x.x ∧ (t.slice b i).pm = x.pm := by
  intro x k
  refine ⟨_, exec_sliceDataWrite_dm hsel hon hopen lo hspace, ?_⟩
  beta_reduce
  rw [slice_sliceAutoInc, slice_setSlice_same]
  exact ⟨Tbl.get_set_same _ _ _ _, Tbl.get_set_same _ _ _ _, fun j hj => Tbl.get_set_ne _ _ _ hj.symm, rfl, rfl⟩

theorem completes_sliceDataWrite_reg (lo : W32) (hspace : s.get F.CFG_SLC_ADDR_SPACE = 2) (hk : s.get F.CFG_SLC_ADDR_WORD < 8) :
    let k := s.get F.CFG_SLC_ADDR_WORD
    Completes (.sliceDataWrite lo) s fun t =>
      sliceReg (t.slice b i) k = lo.toNat % 2 ^ 24 ∧ (t.slice b i).dm = (s.slice b i).dm ∧
      t.get F.CFG_SLC_ADDR_WORD =
        if s.on F.CFG_SLC_ADDR_AUTO_INC then (k + 1) % 2 ^ F.CFG_SLC_ADDR_WORD.len else k := by
  intro k
  refine ⟨_, exec_sliceDataWrite_reg hsel hon hopen lo hspace, ?_⟩
  beta_reduce
  rw [slice_sliceAutoInc, slice_setSlice_same, setSliceReg_x _ hk, sliceReg_x _ hk]
  refine ⟨?_, rfl, word_sliceAutoInc_eq (State.get_put_apart (by decide)) (State.on_put_apart (by decide))⟩
  rw [Vector.getElem_set_self, BitVec.toNat_ofNat]
  omega

theorem completes_sliceDataRead_dm (hspace : s.get F.CFG_SLC_ADDR_SPACE = 1)
    (hflaw : (s.slice b i).dmFlaw.get .none (s.get F.CFG_SLC_ADDR_WORD) = .none) :
    let k := s.get F.CFG_SLC_ADDR_WORD
    Completes (.sliceDataRead false .none) s fun t =>
      t.ans = { resp := .okay, data := ((s.slice b i).dm.get 0 k).setWidth 64 } ∧ (t.slice b i).dm = (s.slice b i).dm ∧
      t.get F.CFG_SLC_ADDR_WORD =
        if s.on F.CFG_SLC_ADDR_AUTO_INC then (k + 1) % 2 ^ F.CFG_SLC_ADDR_WORD.len else k := by
  intro k
  refine ⟨_, exec_sliceDataRead_dm hsel hon hopen hspace hflaw, ?_, ?_, word_sliceAutoInc_eq ?_ ?_⟩
  · have hdata (w : W24) : BitVec.ofNat 64 (w.toNat % 2 ^ 32) = w.setWidth 64 :=
      BitVec.eq_of_toNat_eq (by rw [BitVec.toNat_ofNat, BitVec.toNat_setWidth]; omega)
    rw [ans_sliceAutoInc, ← hdata]
    rfl
  · rw [slice_sliceAutoInc]
    exact congrArg Slice.dm (slice_setSlice_same _ b i _)
  · rw [State.get_put_apart (by decide), State.get_put_apart (by decide)]; rfl
  · rw [State.on_put_apart (by decide), State.on_put_apart (by decide)]; rfl

end

end Sys2Proof.Machine
end

section
/-! Ports, run starts, resets and access, put together (06 R276 to R332). -/

namespace Sys2Proof.Machine

/-- Settles O19: each row by its equation on a slice with a clock, a run start by its case, an access by the slice's state. -/
theorem slicePortsAndControl : Obligations.SlicePortsAndControl := by
  refine ⟨fun s b i => ?_, fun s b i hsel => ?_⟩
  · intro x
    refine ⟨fun hclock => ⟨fun k r => exec_pmWriteBack hclock, fun k r => exec_dmWriteBack hclock,
      fun w st r => exec_emitOutput hclock, fun hfree d => ?_, fun hactive => ⟨exec_srstRise hclock hactive,
        exec_srstFall hclock hactive⟩⟩, fun hfence hclock hsrst lag => ?_, exec_sliceEdge_off, exec_clrDmDone⟩
    · exact exec_streamInputWord hclock (hfree.elim held_of_srst_low held_of_stopped) d
    · intro y begun abandoned rsy gives
      have gives_of {z : Slice} (h : sliceRunStart s.tmg.spineTag (s.rsyAt == some s.tmg.strobes) lag x = z) : gives z :=
        (exec_runStartEdge hfence hclock i lag).trans (congrArg (fun z => Host.Outcome.next (s.setSlice b i z)) h)
      have hquiet (h : ¬ rsy) :
          ((s.rsyAt == some s.tmg.strobes) && (decide (x.rsyAction = 1) || decide (x.rsyAction = 2))) = false := by
        simpa [rsy] using h
      have hstrobe (h : rsy) : (s.rsyAt == some s.tmg.strobes) = true := beq_iff_eq.mpr h.1
      refine ⟨fun hrun hmode => ?_, fun hrun hmode hrsy => ?_, fun hrun hpro => ?_, fun hrun hpro hmode hrsy => ?_,
        fun hrun hmode hrsy haction => ?_, fun hrun hpro hmode hrsy haction => ?_⟩
      · exact gives_of (sliceRunStart_waitx hrun hsrst hmode)
      · exact gives_of ((sliceRunStart_begin hsrst hmode (hquiet hrsy)).1 hrun)
      · exact gives_of (sliceRunStart_prologue hrun hsrst hpro)
      · exact gives_of ((sliceRunStart_begin hsrst hmode (hquiet hrsy)).2 hrun hpro)
      · refine gives_of ?_
        rw [hstrobe hrsy]
        exact (sliceRunStart_resync hsrst hmode haction).1 hrun
      · refine gives_of ?_
        rw [hstrobe hrsy]
        exact (sliceRunStart_resync hsrst hmode haction).2 hrun hpro
  · intro x emptied
    refine ⟨fun hon => ⟨exec_sliceHalt hsel hon, exec_sliceGo hsel hon, exec_sliceGo_fenced hsel hon,
      fun hstopped => ⟨exec_sliceResume hsel hon hstopped, exec_clrDm hsel hon hstopped⟩, exec_sliceAction_refused hsel hon,
      exec_sliceData_refused hsel hon, fun hstopped hbusy => ?_⟩, exec_sliceActions_off hsel⟩
    have hopen : dataAccessOk x = true := by
      rcases hstopped with h | h <;> simp [dataAccessOk, h, hbusy]
    exact ⟨fun lo => completes_sliceDataWrite_dm hsel hon hopen lo, fun lo => completes_sliceDataWrite_reg hsel hon hopen lo,
      completes_sliceDataRead_dm hsel hon hopen⟩

end Sys2Proof.Machine
end

section
/-! Rounding (07 R341): the quotient, and by what it is told whether its successor is taken. -/

namespace Sys2Proof.Machine

theorem rndDiv_truncated (r : Int) (s : Nat) : rndDiv r s 0 = r / 2 ^ s := if_pos (.inr rfl)

theorem rndDiv_unshifted (r : Int) (m : Nat) : rndDiv r 0 m = r := by simp [rndDiv]

theorem rndDiv_truncated_spec (r : Int) (s : Nat) : rndDiv r s 0 * 2 ^ s ≤ r ∧ r < (rndDiv r s 0 + 1) * 2 ^ s := by
  rw [rndDiv_truncated]
  exact ⟨Int.ediv_mul_le r (by positivity), Int.lt_ediv_add_one_mul_self r (by positivity)⟩

/-- Half up goes to the successor when the remainder is at least half the divisor. -/
theorem rndDiv_halfUp (r : Int) {s : Nat} (hs : 0 < s) : rndDiv r s 1 =
    if 2 ^ s ≤ 2 * (r - rndDiv r s 0 * 2 ^ s) then rndDiv r s 0 + 1 else rndDiv r s 0 := by
  obtain ⟨hle, hlt⟩ := rndDiv_truncated_spec r s
  have heven : (2 : Int) ^ s = 2 * 2 ^ (s - 1) := (mul_pow_sub_one hs.ne' 2).symm
  have hup : rndDiv r s 1 = (r + 2 ^ s / 2) / 2 ^ s := (if_neg (by omega)).trans (if_pos rfl)
  rw [hup]
  generalize hd : (2 : Int) ^ s = d at *
  have hpos : 0 < d := hd ▸ by positivity
  rw [add_one_mul] at hlt
  split
  · rw [Int.ediv_eq_iff_of_pos hpos, add_one_mul]; omega
  · rw [Int.ediv_eq_iff_of_pos hpos]; omega

/-- Half to even goes to the successor above half the divisor, and on a tie from an odd quotient. -/
theorem rndDiv_halfEven (r : Int) {s : Nat} (hs : 0 < s) : rndDiv r s 2 =
    if 2 ^ s < 2 * (r - rndDiv r s 0 * 2 ^ s) ∨ (2 * (r - rndDiv r s 0 * 2 ^ s) = 2 ^ s ∧ rndDiv r s 0 % 2 = 1)
    then rndDiv r s 0 + 1 else rndDiv r s 0 := by
  have heven : (2 : Int) ^ s = 2 * 2 ^ (s - 1) := (mul_pow_sub_one hs.ne' 2).symm
  have hdef : rndDiv r s 2 = if 2 ^ s / 2 < r - r / 2 ^ s * 2 ^ s ∨ (r - r / 2 ^ s * 2 ^ s = 2 ^ s / 2 ∧ r / 2 ^ s % 2 = 1)
      then r / 2 ^ s + 1 else r / 2 ^ s := (if_neg (by omega)).trans (if_neg (by omega))
  rw [hdef, rndDiv_truncated]
  exact if_congr (by omega) rfl rfl

/-- Rounding to nearest goes to the quotient or its successor, whichever is no farther than half the divisor. -/
theorem rndDiv_nearest (r : Int) {s m : Nat} (hs : 0 < s) (hm : m = 1 ∨ m = 2) :
    -(2 ^ s) ≤ 2 * (rndDiv r s m * 2 ^ s - r) ∧ 2 * (rndDiv r s m * 2 ^ s - r) ≤ 2 ^ s := by
  obtain ⟨hle, hlt⟩ := rndDiv_truncated_spec r s
  rw [add_one_mul] at hlt
  rcases hm with rfl | rfl
  · rw [rndDiv_halfUp r hs]
    split
    · rw [add_one_mul]; omega
    · omega
  · rw [rndDiv_halfEven r hs]
    split
    · rw [add_one_mul]; omega
    · omega

/-- On a tie half up takes the greater neighbour and half to even the even one. -/
theorem rndDiv_tie {r : Int} {s : Nat} (hs : 0 < s) (htie : 2 * (r - rndDiv r s 0 * 2 ^ s) = 2 ^ s) :
    rndDiv r s 1 = rndDiv r s 0 + 1 ∧ rndDiv r s 2 % 2 = 0 := by
  refine ⟨(rndDiv_halfUp r hs).trans (if_pos htie.ge), ?_⟩
  rw [rndDiv_halfEven r hs]
  split <;> omega

end Sys2Proof.Machine
end

section
/-! Exact results narrowed to a register (07 R341, R344, R345). -/

namespace Sys2Proof.Machine

/-- Narrowing to a range about 0 by the result's side of it. -/
theorem fitTo_eq {lo hi : Int} (hlo : lo ≤ 0) (hhi : 0 ≤ hi) (r : Int) (sat : Bool) :
    fitTo lo hi r sat = ⟨if decide (r < lo ∨ hi < r) && sat then (if r < 0 then lo else hi) else r,
      decide (r < lo ∨ hi < r), decide (r < lo ∨ hi < r) && sat⟩ := by
  unfold fitTo
  dsimp only
  split
  case isTrue hclamp =>
    obtain ⟨hout, -⟩ : (r < lo ∨ hi < r) ∧ sat = true := by simpa using hclamp
    have hbound : min (max r lo) hi = if r < 0 then lo else hi := by split <;> omega
    rw [hbound, hclamp, decide_eq_true hout]
  case isFalse hkept => rw [Bool.eq_false_iff.mpr hkept]

/-- Narrowing under saturation brings every result into the range. -/
theorem fitTo_clamped (lo hi r : Int) :
    fitTo lo hi r true = ⟨min (max r lo) hi, decide (r < lo ∨ hi < r), decide (r < lo ∨ hi < r)⟩ := by
  unfold fitTo
  dsimp only
  split
  case isTrue hout => rw [(Bool.and_true _).symm.trans hout]
  case isFalse hin =>
    have hrange : ¬(r < lo ∨ hi < r) := by simpa using hin
    rw [decide_eq_false hrange, show min (max r lo) hi = r by omega]

theorem putX_fits (k : Fin 8) (r : Int) (sat : Bool) (x : Slice) :
    putX k (fits r 24 sat) x = write24 k r (BitVec.ofInt 24 r) sat x := by
  have hfit : fits r 24 sat = _ := fitTo_eq (by decide) (by decide) r sat
  simp only [putX, hfit, apply_ite (BitVec.ofInt 24)]
  rfl

theorem putA_fits (k : Fin 4) (r : Int) (sat : Bool) (x : Slice) :
    putA k (fits r 56 sat) x = write56 k r (BitVec.ofInt 56 r) sat x := by
  have hfit : fits r 56 sat = _ := fitTo_eq (by decide) (by decide) r sat
  simp only [putA, hfit, apply_ite (BitVec.ofInt 56)]
  rfl

/-- A result that cannot overflow. -/
theorem putXw_eq (k : Fin 8) (w : W24) (x : Slice) :
    putXw k w x = { x with x := x.x.set k w, z := w == 0, n := w.msb, v := false } := by
  simp only [putXw, putX, setZNV, BitVec.ofInt_natCast, BitVec.ofNat_toNat, BitVec.setWidth_eq, Bool.or_false]

/-- An accumulator that takes a word as it is. -/
theorem putA_word (k : Fin 4) (w : BitVec 56) (x : Slice) : putA k ⟨w.toInt, false, false⟩ x = write56 k w.toInt w false x := by
  have hin : decide (w.toInt < -36028797018963968 ∨ 36028797018963967 < w.toInt) = false := by
    have hlo := w.le_toInt
    have hhi := w.toInt_lt
    exact decide_eq_false (by omega)
  simp only [putA, write56, hin, BitVec.ofInt_toInt, Bool.false_and, Bool.false_eq_true, if_false]
  rfl

/-! The words that exact results wrap to. -/

theorem ofInt_toInt_add {n : Nat} (a b : BitVec n) : BitVec.ofInt n (a.toInt + b.toInt) = a + b := by
  rw [BitVec.ofInt_add, BitVec.ofInt_toInt, BitVec.ofInt_toInt]

theorem ofInt_sub {n : Nat} (r t : Int) : BitVec.ofInt n (r - t) = BitVec.ofInt n r - BitVec.ofInt n t := by
  rw [sub_eq_add_neg, BitVec.ofInt_add, BitVec.ofInt_neg, ← BitVec.sub_eq_add_neg]

theorem ofInt_toInt_sub {n : Nat} (a b : BitVec n) : BitVec.ofInt n (a.toInt - b.toInt) = a - b := by
  rw [ofInt_sub, BitVec.ofInt_toInt, BitVec.ofInt_toInt]

theorem ofInt_mul_two_pow {n : Nat} (r : Int) (k : Nat) : BitVec.ofInt n (r * 2 ^ k) = BitVec.ofInt n r <<< k := by
  have hpow : BitVec.ofInt n (2 ^ k) = BitVec.twoPow n k :=
    BitVec.eq_of_toNat_eq (by rw [BitVec.toNat_ofInt, BitVec.toNat_twoPow]; norm_cast)
  rw [BitVec.ofInt_mul, hpow, BitVec.shiftLeft_eq_mul_twoPow]

/-- A data word widened to the accumulator, signed or unsigned (07 R350). -/
def widened (u : Bool) (d : W24) : BitVec 56 := if u then d.setWidth 56 else d.signExtend 56

theorem ofInt_valOf (u : Bool) (d : W24) : BitVec.ofInt 56 (valOf d u) = widened u d := by
  cases u
  · rfl
  · exact (BitVec.ofInt_natCast 56 d.toNat).trans (BitVec.ofNat_toNat 56 d)

end Sys2Proof.Machine
end

section
/-! Effects of the arithmetic rows, from the word of a row (07 R343 to R345, R350 to R353). -/

namespace Sys2Proof.Machine

@[simp] theorem fldS_sliceWord (op : Nat) (f : BitVec 34) : fldS (sliceWord op f) = (f.extractLsb' 12 6).toNat :=
  (bits_sliceWord op f (by decide)).trans (bits_toNat_eq_extractLsb' f 12 6)
@[simp] theorem fldMD2_sliceWord (op : Nat) (f : BitVec 34) : fldMD2 (sliceWord op f) = (f.extractLsb' 8 2).toNat :=
  (bits_sliceWord op f (by decide)).trans (bits_toNat_eq_extractLsb' f 8 2)

theorem mulProd_sliceWord (op : Nat) (f : BitVec 34) (a b : W24) :
    mulProd (sliceWord op f) a b = valOf a (f.getLsbD 8) * valOf b (f.getLsbD 9) := by
  simp (disch := decide) only [mulProd, fldMD_sliceWord, Nat.reduceAdd, Nat.add_zero]

theorem ofInt_valOf_mul (p q : Bool) (a b : W24) :
    BitVec.ofInt 56 (valOf a p * valOf b q) = widened p a * widened q b := by
  rw [BitVec.ofInt_mul, ofInt_valOf, ofInt_valOf]

section
variable (op : Nat) (f : BitVec 34) (u v : W24) (c : BitVec 56) (x : Slice)

/-! Sums, differences and bitwise words. -/

theorem effAdd_sliceWord : effAdd (sliceWord op f) u v c x =
    (write24 (fldXD f.toNat) (x.x[fldXD f.toNat].toInt + x.x[fldXS f.toNat].toInt)
      (x.x[fldXD f.toNat] + x.x[fldXS f.toNat]) (f.getLsbD 10) x, .seq) := by
  simp (disch := decide) only [effAdd, fldXD_sliceWord, fldXS_sliceWord, fldMD_sliceWord, putX_fits, ofInt_toInt_add,
    Nat.reduceAdd]

theorem effSub_sliceWord : effSub (sliceWord op f) u v c x =
    (write24 (fldXD f.toNat) (x.x[fldXD f.toNat].toInt - x.x[fldXS f.toNat].toInt)
      (x.x[fldXD f.toNat] - x.x[fldXS f.toNat]) (f.getLsbD 10) x, .seq) := by
  simp (disch := decide) only [effSub, fldXD_sliceWord, fldXS_sliceWord, fldMD_sliceWord, putX_fits, ofInt_toInt_sub,
    Nat.reduceAdd]

theorem effAddi_sliceWord : effAddi (sliceWord op f) u v c x =
    (let k : Fin 8 := Fin.ofNat 8 (f.extractLsb' 29 5).toNat
     let imm : W24 := f.extractLsb' 0 24
     (write24 k (x.x[k].toInt + imm.toInt) (x.x[k] + imm) false x, .seq)) := by
  simp only [effAddi, fldREG_sliceWord, fldIMM_sliceWord, putX_fits, ofInt_toInt_add]

/-- CMP takes Z from equality: the wrapped difference is 0 of equal words only. -/
theorem effCmp_sliceWord : effCmp (sliceWord op f) u v c x =
    (let a := x.x[fldXD f.toNat]
     let b := x.x[fldXS f.toNat]
     ({ x with z := a == b, n := (a - b).msb
               v := decide (a.toInt - b.toInt < -8388608 ∨ 8388607 < a.toInt - b.toInt) }, .seq)) := by
  have hzero (a b : W24) : (a - b == 0) = (a == b) := beq_eq_beq.mpr sub_eq_zero
  have hfit (r : Int) : fits r 24 false = _ := fitTo_eq (by decide) (by decide) r false
  simp only [effCmp, setZNV, fldXD_sliceWord, fldXS_sliceWord, hfit, Bool.and_false, Bool.false_eq_true, if_false,
    ofInt_toInt_sub, hzero, Bool.or_false]
  rfl

theorem effShf_sliceWord : effShf (sliceWord op f) u v c x =
    (let a := x.x[fldXD f.toNat]
     (putXw (fldXD f.toNat)
      (if (f.extractLsb' 8 2).toNat = 0 then a <<< (f.extractLsb' 12 6).toNat
       else if (f.extractLsb' 8 2).toNat = 1 then a >>> (f.extractLsb' 12 6).toNat
       else a.sshiftRight (f.extractLsb' 12 6).toNat) x, .seq)) := by
  simp only [effShf, fldXD_sliceWord, fldMD2_sliceWord, fldS_sliceWord]
  rcases (f.extractLsb' 8 2).toNat with _ | _ | m <;> rfl

/-! Products and accumulation. -/

theorem effMpy_sliceWord : effMpy (sliceWord op f) u v c x =
    (let a := x.x[fldXD f.toNat]
     let b := x.x[fldXS f.toNat]
     (write56 (fldA f.toNat) (valOf a (f.getLsbD 8) * valOf b (f.getLsbD 9))
      (widened (f.getLsbD 8) a * widened (f.getLsbD 9) b) (f.getLsbD 10) x, .seq)) := by
  simp (disch := decide) only [effMpy, fldA_sliceWord, fldXD_sliceWord, fldXS_sliceWord, fldMD_sliceWord, mulProd_sliceWord,
    putA_fits, ofInt_valOf_mul, Nat.reduceAdd]

theorem effMac_sliceWord : effMac (sliceWord op f) u v c x =
    (let acc := x.a[fldA f.toNat]
     let a := x.x[fldXD f.toNat]
     let b := x.x[fldXS f.toNat]
     (write56 (fldA f.toNat) (acc.toInt + valOf a (f.getLsbD 8) * valOf b (f.getLsbD 9))
      (acc + widened (f.getLsbD 8) a * widened (f.getLsbD 9) b) (f.getLsbD 10) x, .seq)) := by
  simp (disch := decide) only [effMac, fldA_sliceWord, fldXD_sliceWord, fldXS_sliceWord, fldMD_sliceWord, mulProd_sliceWord,
    putA_fits, BitVec.ofInt_add, BitVec.ofInt_toInt, ofInt_valOf_mul, Nat.reduceAdd]

theorem effMsu_sliceWord : effMsu (sliceWord op f) u v c x =
    (let acc := x.a[fldA f.toNat]
     let a := x.x[fldXD f.toNat]
     let b := x.x[fldXS f.toNat]
     (write56 (fldA f.toNat) (acc.toInt - valOf a (f.getLsbD 8) * valOf b (f.getLsbD 9))
      (acc - widened (f.getLsbD 8) a * widened (f.getLsbD 9) b) (f.getLsbD 10) x, .seq)) := by
  simp (disch := decide) only [effMsu, fldA_sliceWord, fldXD_sliceWord, fldXS_sliceWord, fldMD_sliceWord, mulProd_sliceWord,
    putA_fits, ofInt_sub, BitVec.ofInt_toInt, ofInt_valOf_mul, Nat.reduceAdd]

theorem effMacm_sliceWord : effMacm (sliceWord op f) u v c x =
    (let acc := x.a[fldA f.toNat]
     (write56 (fldA f.toNat) (acc.toInt + valOf u (f.getLsbD 8) * valOf v (f.getLsbD 9))
      (acc + widened (f.getLsbD 8) u * widened (f.getLsbD 9) v) (f.getLsbD 10) x, .seq)) := by
  simp (disch := decide) only [effMacm, fldA_sliceWord, fldMD_sliceWord, mulProd_sliceWord,
    putA_fits, BitVec.ofInt_add, BitVec.ofInt_toInt, ofInt_valOf_mul, Nat.reduceAdd]

/-- TAP moves the word it read into the slice that the accumulation and the store leave (07 R351). -/
theorem effTap_sliceWord : effTap (sliceWord op f) u v c x =
    (let acc := x.a[fldA f.toNat]
     let a := x.x[fldXD f.toNat]
     (moveX (fldXD f.toNat) u (putDm (x.p[fldPA f.toNat]).toNat a
      (write56 (fldA f.toNat) (acc.toInt + valOf a (f.getLsbD 8) * valOf v (f.getLsbD 9))
        (acc + widened (f.getLsbD 8) a * widened (f.getLsbD 9) v) (f.getLsbD 10) x)), .seq)) := by
  simp (disch := decide) only [effTap, fldA_sliceWord, fldXD_sliceWord, fldPA_sliceWord, fldMD_sliceWord, mulProd_sliceWord,
    putA_fits, BitVec.ofInt_add, BitVec.ofInt_toInt, ofInt_valOf_mul, Nat.reduceAdd]

theorem effAdda_sliceWord : effAdda (sliceWord op f) u v c x =
    (let acc := x.a[fldA f.toNat]
     let a := x.x[fldXD f.toNat]
     let sh := (f.extractLsb' 12 6).toNat
     (write56 (fldA f.toNat) (acc.toInt + valOf a (f.getLsbD 8) * 2 ^ sh) (acc + widened (f.getLsbD 8) a <<< sh)
      (f.getLsbD 10) x, .seq)) := by
  simp (disch := decide) only [effAdda, fldA_sliceWord, fldXD_sliceWord, fldS_sliceWord, fldMD_sliceWord, putA_fits,
    BitVec.ofInt_add, BitVec.ofInt_toInt, ofInt_mul_two_pow, ofInt_valOf, Nat.reduceAdd, Nat.add_zero]

theorem effCadd_sliceWord : effCadd (sliceWord op f) u v c x =
    (let acc := x.a[fldA f.toNat]
     ((if f.getLsbD 11 then write56 (fldA f.toNat) c.toInt c false
       else write56 (fldA f.toNat) (acc.toInt + c.toInt) (acc + c) (f.getLsbD 10)) x, .seq)) := by
  simp (disch := decide) only [effCadd, fldA_sliceWord, fldMD_sliceWord, Nat.reduceAdd]
  cases f.getLsbD 11
  · exact congrArg (·, Flow.seq) (by rw [← ofInt_toInt_add]; exact putA_fits _ _ _ x)
  · exact congrArg (·, Flow.seq) (putA_word _ c x)

/-! Shifts and rounding of an accumulator. -/

/-- The shift of ASH is negative exactly when its top bit is set (07 R352). -/
theorem toInt_shift (k : BitVec 6) : k.toInt = if k.getLsbD 5 then (k.toNat : Int) - 64 else k.toNat := by
  rw [BitVec.toInt_eq_msb_cond, BitVec.msb_eq_getLsbD_last]; rfl

theorem effAsh_left {f : BitVec 34} (hleft : f.getLsbD 17 = false) : effAsh (sliceWord op f) u v c x =
    (let acc := x.a[fldA f.toNat]
     let sh := (f.extractLsb' 12 6).toNat
     (write56 (fldA f.toNat) (acc.toInt * 2 ^ sh) (acc <<< sh) (f.getLsbD 10) x, .seq)) := by
  have hk : (f.extractLsb' 12 6).toInt = (f.extractLsb' 12 6).toNat := by
    rw [toInt_shift, BitVec.getLsbD_extractLsb', hleft]; rfl
  simp (disch := decide) only [effAsh, fldA_sliceWord, fldS_sliceWord, fldMD_sliceWord, BitVec.ofNat_toNat, BitVec.setWidth_eq,
    hk, Int.natCast_nonneg, if_true, Int.toNat_natCast, putA_fits, ofInt_mul_two_pow, BitVec.ofInt_toInt, Nat.reduceAdd]

theorem effAsh_right {f : BitVec 34} (hright : f.getLsbD 17 = true) : effAsh (sliceWord op f) u v c x =
    (let q := rndDiv (x.a[fldA f.toNat]).toInt (64 - (f.extractLsb' 12 6).toNat) (f.extractLsb' 8 2).toNat
     (write56 (fldA f.toNat) q (BitVec.ofInt 56 q) false x, .seq)) := by
  have hk : (f.extractLsb' 12 6).toInt = (f.extractLsb' 12 6).toNat - 64 := by
    rw [toInt_shift, BitVec.getLsbD_extractLsb', hright]; rfl
  have hlt := (f.extractLsb' 12 6).isLt
  have hneg : ¬ (0 : Int) ≤ (f.extractLsb' 12 6).toNat - 64 := by omega
  have hshift : (-(((f.extractLsb' 12 6).toNat : Int) - 64)).toNat = 64 - (f.extractLsb' 12 6).toNat := by omega
  simp only [effAsh, fldA_sliceWord, fldS_sliceWord, fldMD2_sliceWord, BitVec.ofNat_toNat, BitVec.setWidth_eq,
    hk, hneg, if_false, hshift, putA_fits]

/-- RND writes the rounded accumulator brought into the range it asks for (07 R353). -/
theorem effRnd_sliceWord : effRnd (sliceWord op f) u v c x =
    (let q := rndDiv (x.a[fldA f.toNat]).toInt (f.extractLsb' 12 6).toNat (f.extractLsb' 8 2).toNat
     let lo : Int := if f.getLsbD 11 then 0 else -8388608
     let hi : Int := if f.getLsbD 11 then 16777215 else 8388607
     let w : W24 := BitVec.ofInt 24 (min (max q lo) hi)
     ({ x with x := x.x.set (fldXD f.toNat) w, z := w == 0, n := w.msb, v := decide (q < lo ∨ hi < q)
               sat := x.sat || decide (q < lo ∨ hi < q) }, .seq)) := by
  simp (disch := decide) only [effRnd, fldA_sliceWord, fldXD_sliceWord, fldS_sliceWord, fldMD2_sliceWord, fldMD_sliceWord,
    Nat.reduceAdd]
  generalize rndDiv _ _ _ = q
  cases f.getLsbD 11
  · exact congrArg (·, Flow.seq) (congrArg (putX _ · x) (fitTo_clamped _ _ q))
  · exact congrArg (·, Flow.seq) (congrArg (putX _ · x) (fitTo_clamped _ _ q))

end

/-- A row whose result cannot overflow writes the word with Z and N of it and V 0. -/
theorem sliceRuns_putXw {c : Instr} {cx : SliceCx} {op : Nat} {f : BitVec 34} {s : State} {eff : SliceEff} {k : Fin 8} {w : W24}
    (hready : SliceReady cx op f s) (hexec : exec c s = .next (sliceIssue cx op f eff s))
    (heff : ∀ u v ci, eff (sliceWord op f) u v ci (sliceFound (s.slice cx.bay cx.slice)) =
      (putXw k w (sliceFound (s.slice cx.bay cx.slice)), .seq)) :
    SliceRuns c cx op f s (fun y => { y with x := y.x.set k w, z := w == 0, n := w.msb, v := false }) .seq :=
  sliceRuns_of_effect hready hexec ((heff _ _ _).trans (congrArg (·, Flow.seq) (putXw_eq k w _)))

end Sys2Proof.Machine
end

section
/-! Arithmetic, logic, multiplication, accumulation and rounding, put together (07 R341, R343 to R345, R350 to R353). -/

namespace Sys2Proof.Machine

/-- Settles O21: each row by the equation of its effect on the slice found, the rounding laws by the remainder. -/
theorem sliceArithmetic : Obligations.SliceArithmetic := by
  refine ⟨fun cx f s => ?_, fun cx f s => ?_, fun r s => ?_⟩
  · intro x xd a b k imm bitw
    refine ⟨fun h => ?_, fun h => ?_, fun h => ?_, fun h => ?_, fun h => ?_, fun h => ?_, fun h => ?_, fun h => ?_⟩
    · exact sliceRuns_of_effect h rfl (effAdd_sliceWord ..)
    · exact sliceRuns_of_effect h rfl (effSub_sliceWord ..)
    · exact sliceRuns_of_effect h rfl (effAddi_sliceWord ..)
    · exact sliceRuns_of_effect h rfl (effCmp_sliceWord ..)
    · exact sliceRuns_putXw h rfl fun _ _ _ => by simp only [effAnd, fldXD_sliceWord, fldXS_sliceWord]; rfl
    · exact sliceRuns_putXw h rfl fun _ _ _ => by simp only [effOr, fldXD_sliceWord, fldXS_sliceWord]; rfl
    · exact sliceRuns_putXw h rfl fun _ _ _ => by simp only [effXor, fldXD_sliceWord, fldXS_sliceWord]; rfl
    · exact sliceRuns_putXw h rfl fun _ _ _ => effShf_sliceWord ..
  · intro x k acc a b u v va ext sat sh
    refine ⟨fun h => ?_, fun h => ?_, fun h => ?_, fun h => ?_, fun h => ?_, fun h => ?_, fun h => ?_,
      fun h hleft => ?_, fun h hright => ?_, fun h => ?_⟩
    · exact sliceRuns_of_effect h rfl (effMpy_sliceWord ..)
    · exact sliceRuns_of_effect h rfl (effMac_sliceWord ..)
    · exact sliceRuns_of_effect h rfl (effMsu_sliceWord ..)
    · exact sliceRuns_of_effect h rfl (effMacm_sliceWord ..)
    · exact sliceRuns_of_effect h rfl (effTap_sliceWord ..)
    · exact sliceRuns_of_effect h rfl (effAdda_sliceWord ..)
    · exact sliceRuns_of_effect h rfl (effCadd_sliceWord ..)
    · exact sliceRuns_of_effect h rfl (effAsh_left (hleft := hleft) ..)
    · exact sliceRuns_of_effect h rfl (effAsh_right (hright := hright) ..)
    · exact sliceRuns_of_effect h rfl (effRnd_sliceWord ..)
  · exact ⟨rndDiv_truncated_spec r s, rndDiv_unshifted r, fun hs _ hm => rndDiv_nearest r hs hm, rndDiv_tie⟩

end Sys2Proof.Machine
end

section
/-! Lanes of the tri-8 forms (07 R359 to R361). -/

namespace Sys2Proof.Machine

/-! Lanes read, and words made of lanes. -/

theorem accLane_eq (a : BitVec 56) (j : Nat) : accLane a j = (a.extractLsb' (18 * j) 18).toNat :=
  bits_toNat_eq_extractLsb' a _ _

theorem wordLane_eq (d : W24) (j : Nat) : wordLane d j = (d.extractLsb' (8 * j) 8).toNat :=
  bits_toNat_eq_extractLsb' d _ _

theorem ofNat_accLanes (l0 l1 l2 : BitVec 18) :
    BitVec.ofNat 56 (l0.toNat + 2 ^ 18 * l1.toNat + 2 ^ 36 * l2.toNat) = (0 : BitVec 2) ++ l2 ++ l1 ++ l0 := by
  have hbounds := And.intro l0.isLt (And.intro l1.isLt l2.isLt)
  rw [← ofNat_mul_two_pow_add, ← ofNat_mul_two_pow_add, ← ofNat_mul_two_pow_add]
  simp only [BitVec.ofNat_eq_ofNat, BitVec.toNat_ofNat]
  congr 1
  omega

/-- A word of three bytes. -/
def packBytes (g : Nat → BitVec 8) : W24 := g 2 ++ g 1 ++ g 0

theorem packLanes_eq (l : Nat → Nat) : packLanes l = packBytes fun j => BitVec.ofNat 8 (l j) := by
  rw [packLanes, packBytes, ← ofNat_mul_two_pow_add, ← ofNat_mul_two_pow_add]
  simp only [BitVec.toNat_ofNat]
  congr 1
  omega

/-! Lane results written to an accumulator (07 R359). -/

/-- An exact lane result leaves the lane's range. -/
def laneOff (r : Int) : Bool := decide (r < 0 ∨ 262143 < r)

/-- The lane that an exact result is stored as. -/
def laneCut (sat : Bool) (r : Int) : BitVec 18 :=
  if laneOff r && sat then (if r < 0 then 0 else 0x3FFFF) else BitVec.ofInt 18 r

/-- An accumulator takes three exact lane results. -/
def writeLanes (k : Fin 4) (sat : Bool) (g : Nat → Int) (x : Slice) : Slice :=
  let a : BitVec 56 := (0 : BitVec 2) ++ laneCut sat (g 2) ++ laneCut sat (g 1) ++ laneCut sat (g 0)
  let v := laneOff (g 0) || laneOff (g 1) || laneOff (g 2)
  { x with a := x.a.set k a, z := a == 0, n := a.msb, v := v, sat := x.sat || (v && sat) }

theorem fitu_lane (r : Int) (sat : Bool) : fitu r 18 sat =
    ⟨if laneOff r && sat then (if r < 0 then 0 else 262143) else r, laneOff r, laneOff r && sat⟩ :=
  fitTo_eq (by decide) (by decide) r sat

theorem fitu_lane_v (r : Int) (sat : Bool) : (fitu r 18 sat).v = laneOff r := congrArg Fit.v (fitu_lane r sat)

theorem fitu_lane_clamp (r : Int) (sat : Bool) : (fitu r 18 sat).clamp = (laneOff r && sat) :=
  congrArg Fit.clamp (fitu_lane r sat)

theorem fitu_lane_stored (r : Int) (sat : Bool) : ((fitu r 18 sat).r % 2 ^ 18).toNat = (laneCut sat r).toNat := by
  have hcut : laneCut sat r = BitVec.ofInt 18 (fitu r 18 sat).r := by
    simp only [fitu_lane, apply_ite (BitVec.ofInt 18)]
    rfl
  rw [hcut, BitVec.toNat_ofInt]
  rfl

theorem putLanes_fitu (k : Fin 4) (sat : Bool) (g : Nat → Int) (x : Slice) :
    putLanes k (fun j => fitu (g j) 18 sat) x = writeLanes k sat g x := by
  simp only [putLanes, fitu_lane_v, fitu_lane_clamp, fitu_lane_stored, ofNat_accLanes, ← Bool.and_or_distrib_right]
  rfl

/-! Rounding to a byte (07 R360). -/

theorem rndDiv_nonneg {r : Int} (h : 0 ≤ r) (s m : Nat) : 0 ≤ rndDiv r s m := by
  have hquot : 0 ≤ r / 2 ^ s := Int.ediv_nonneg h (by positivity)
  unfold rndDiv
  dsimp only
  split_ifs
  · exact hquot
  · exact Int.ediv_nonneg (by positivity) (by positivity)
  · exact Int.add_nonneg hquot (by decide)
  · exact hquot

/-- A result that is not negative is clamped from above only. -/
theorem fitu_byte {q : Int} (h : 0 ≤ q) : fitu q 8 true = ⟨min q 255, decide (255 < q), decide (255 < q)⟩ := by
  have hout : (q < 0 ∨ (2 : Int) ^ 8 - 1 < q) ↔ 255 < q := by omega
  rw [fitu, fitTo_clamped, max_eq_left h, decide_eq_decide.mpr hout]
  rfl

/-! The effects, from the word of a row. -/

section
variable (op : Nat) (f : BitVec 34) (u v : W24) (c : BitVec 56) (x : Slice)

/-- The bytes that T8ADD and T8SUB take: the memory word under MD[3], XD otherwise. -/
theorem t8Source_sliceWord : t8Source (sliceWord op f) u x = if f.getLsbD 11 then u else x.x[fldXD f.toNat] := by
  simp (disch := decide) only [t8Source, fldXD_sliceWord, fldMD_sliceWord, Nat.reduceAdd]

theorem effT8add_sliceWord : effT8add (sliceWord op f) u v c x =
    (let src := if f.getLsbD 11 then u else x.x[fldXD f.toNat]
     (writeLanes (fldA f.toNat) (f.getLsbD 10) (fun j =>
      (((x.a[fldA f.toNat]).extractLsb' (18 * j) 18).toNat : Int) + (src.extractLsb' (8 * j) 8).toNat) x, .seq)) := by
  simp (disch := decide) only [effT8add, fldA_sliceWord, fldMD_sliceWord, t8Source_sliceWord, accLane_eq, wordLane_eq,
    putLanes_fitu, Nat.reduceAdd]

theorem effT8sub_sliceWord : effT8sub (sliceWord op f) u v c x =
    (let src := if f.getLsbD 11 then u else x.x[fldXD f.toNat]
     (writeLanes (fldA f.toNat) (f.getLsbD 10) (fun j =>
      (((x.a[fldA f.toNat]).extractLsb' (18 * j) 18).toNat : Int) - (src.extractLsb' (8 * j) 8).toNat) x, .seq)) := by
  simp (disch := decide) only [effT8sub, fldA_sliceWord, fldMD_sliceWord, t8Source_sliceWord, accLane_eq, wordLane_eq,
    putLanes_fitu, Nat.reduceAdd]

theorem effT8mac_sliceWord : effT8mac (sliceWord op f) u v c x =
    (writeLanes (fldA f.toNat) (f.getLsbD 10) (fun j =>
      (((x.a[fldA f.toNat]).extractLsb' (18 * j) 18).toNat : Int) +
        ((x.x[fldXD f.toNat]).extractLsb' (8 * j) 8).toNat * ((x.x[fldXS f.toNat]).extractLsb' (8 * j) 8).toNat) x, .seq) := by
  simp (disch := decide) only [effT8mac, fldA_sliceWord, fldXD_sliceWord, fldXS_sliceWord, fldMD_sliceWord, accLane_eq,
    wordLane_eq, putLanes_fitu, Nat.reduceAdd]

theorem effT8max_sliceWord : effT8max (sliceWord op f) u v c x =
    (moveX (fldXD f.toNat) (packBytes fun j => BitVec.ofInt 8 (max (((x.x[fldXD f.toNat]).extractLsb' (8 * j) 8).toNat : Int)
      ((x.x[fldXS f.toNat]).extractLsb' (8 * j) 8).toNat)) x, .seq) := by
  simp only [effT8max, fldXD_sliceWord, fldXS_sliceWord, packLanes_eq, wordLane_eq, ← Nat.cast_max, BitVec.ofInt_natCast]

theorem effT8min_sliceWord : effT8min (sliceWord op f) u v c x =
    (moveX (fldXD f.toNat) (packBytes fun j => BitVec.ofInt 8 (min (((x.x[fldXD f.toNat]).extractLsb' (8 * j) 8).toNat : Int)
      ((x.x[fldXS f.toNat]).extractLsb' (8 * j) 8).toNat)) x, .seq) := by
  simp only [effT8min, fldXD_sliceWord, fldXS_sliceWord, packLanes_eq, wordLane_eq, ← Nat.cast_min, BitVec.ofInt_natCast]

/-- No lane of T8PK is negative, so its bytes are clamped from above only (07 R360). -/
theorem effT8pk_sliceWord : effT8pk (sliceWord op f) u v c x =
    (let q (j : Nat) := rndDiv (((x.a[fldA f.toNat]).extractLsb' (18 * j) 18).toNat : Int) (f.extractLsb' 12 6).toNat
      (f.extractLsb' 8 2).toNat
     let w := packBytes fun j => BitVec.ofInt 8 (min (q j) 255)
     let v := decide (255 < q 0 ∨ 255 < q 1 ∨ 255 < q 2)
     ({ x with x := x.x.set (fldXD f.toNat) w, z := w == 0, n := false, v := v, sat := x.sat || v }, .seq)) := by
  have hq (n s m : Nat) : 0 ≤ rndDiv n s m := rndDiv_nonneg (Int.natCast_nonneg n) s m
  have hbyte {q : Int} (h : 0 ≤ q) : BitVec.ofNat 8 (min q 255).toNat = BitVec.ofInt 8 (min q 255) := by
    rw [← BitVec.ofInt_natCast, Int.toNat_of_nonneg (le_min h (by decide))]
  simp only [effT8pk, fldA_sliceWord, fldXD_sliceWord, fldS_sliceWord, fldMD2_sliceWord, accLane_eq, packLanes_eq,
    fitu_byte (hq _ _ _), hbyte (hq _ _ _), Bool.decide_or, Bool.or_assoc]
  rfl

theorem effT8hs_sliceWord : effT8hs (sliceWord op f) u v c x =
    (let lane (j : Nat) : Int := ((x.a[fldA f.toNat]).extractLsb' (18 * j) 18).toNat
     let w : W24 := BitVec.ofInt 24 (lane 0 + lane 1 + lane 2)
     ({ x with x := x.x.set (fldXD f.toNat) w, z := w == 0, n := false, v := false }, .seq)) := by
  simp only [effT8hs, setZNV, moveX, fldA_sliceWord, fldXD_sliceWord, accLane_eq, ← Nat.cast_add, BitVec.ofInt_natCast,
    Bool.or_false]

end

/-- Settles O22: each row by the equation of its effect on the slice found. -/
theorem sliceTri8 : Obligations.SliceTri8 := by
  intro cx f s x k xd lane byte src sat off cut wr pack
  refine ⟨fun h => ?_, fun h => ?_, fun h => ?_, fun h => ?_, fun h => ?_, fun h => ?_, fun h => ?_⟩
  · exact sliceRuns_of_effect h rfl (effT8add_sliceWord ..)
  · exact sliceRuns_of_effect h rfl (effT8sub_sliceWord ..)
  · exact sliceRuns_of_effect h rfl (effT8mac_sliceWord ..)
  · exact sliceRuns_of_effect h rfl (effT8max_sliceWord ..)
  · exact sliceRuns_of_effect h rfl (effT8min_sliceWord ..)
  · exact sliceRuns_of_effect h rfl (effT8pk_sliceWord ..)
  · exact sliceRuns_of_effect h rfl (effT8hs_sliceWord ..)

end Sys2Proof.Machine
end

section
/-! What a table reads as where its entries are removed, selected, joined or mapped. -/

namespace Sys2Proof.Tbl
variable {κ α β : Type} [DecidableEq κ]

theorem find_append (a b : Tbl κ α) (k : κ) : find (a ++ b) k = (find a k).or (find b k) := by
  induction a with
  | nil => rfl
  | cons e a ih => simp only [List.cons_append, find]; split <;> simp [ih]

/-- Of the entries selected by key, each key reads what it read, or nothing. -/
theorem find_filter (p : κ → Bool) (t : Tbl κ α) (k : κ) :
    find (t.filter fun e => p e.1) k = if p k then find t k else none := by
  induction t with
  | nil => simp [find]
  | cons e t ih =>
    by_cases hk : e.1 = k
    · cases hp : p k <;> simp [find, hk, hp, ih]
    · cases hp : p e.1 <;> simp [find, hk, hp, ih]

@[simp] theorem find_erase_same (t : Tbl κ α) (k : κ) : find (t.erase k) k = none := by
  have h := find_filter (fun x => decide (x ≠ k)) t k
  simpa [erase] using h

theorem find_map (g : κ → α → β) (t : Tbl κ α) (k : κ) :
    find (t.map fun e => (e.1, g e.1 e.2)) k = (find t k).map (g k) := by
  induction t with
  | nil => rfl
  | cons e t ih =>
    by_cases hk : e.1 = k
    · simp [find, hk]
    · simp [find, hk, ih]

/-- A key without an entry gets one at the end. -/
theorem set_of_find_none {t : Tbl κ α} {k : κ} (h : find t k = none) (v : α) : t.set k v = t ++ [(k, v)] := by
  induction t with
  | nil => rfl
  | cons e t ih =>
    by_cases hk : e.1 = k
    · simp [find, hk] at h
    · simp only [find, hk, if_false] at h
      simp [set, hk, ih h]

end Sys2Proof.Tbl
end

section
/-! Outstanding entries of a Sand initiator and their end (08 R385, R405, R408): a matching response, a late one, a timeout. -/

namespace Sys2Proof.Machine

@[simp] theorem nocLog_sand (ini a : Nat) (r : Resp) (posted : Bool) (s : State) : (nocLog ini a r posted s).sand = s.sand := by
  rw [nocLog_frame]

@[simp] theorem nocTimeout_sand (ini a : Nat) (s : State) : (nocTimeout ini a s).sand = s.sand := nocLog_sand ..

@[simp] theorem sandFree_entry (i tag : Nat) (s : State) : (sandFree i tag s).sand.entries.find (i, tag) = none :=
  Tbl.find_erase_same _ _

@[simp] theorem sandFree_gen (i tag : Nat) (s : State) :
    (sandFree i tag s).sand.gens.get 0 (i, tag) = s.sand.gens.get 0 (i, tag) + 1 :=
  Tbl.get_set_same _ _ _ _

@[simp] theorem sandFree_moving (i tag : Nat) (s : State) : (sandFree i tag s).sand.moving = s.sand.moving := rfl

@[simp] theorem sandFree_failed (i tag : Nat) (s : State) : (sandFree i tag s).sand.failed = s.sand.failed := rfl

theorem sandFree_fenced (i tag : Nat) (s : State) (b : Nat) : (sandFree i tag s).fenced b = s.fenced b := by
  rw [State.fenced, sandFree, State.clear, State.get_put_sep (by decide)]; rfl

theorem nocTimeout_fenced (ini a : Nat) (s : State) (b : Nat) : (nocTimeout ini a s).fenced b = s.fenced b := by
  have hlog := regsBut_get (nocLog_regsBut ini a .timeout false ((s.bumpHold F.NOC_TIMEOUTS_COUNT).raise F.NOC_ERR_TIMEOUT))
    (f := F.FEN_FENCED_BAYS) (by decide)
  rw [State.fenced, nocTimeout, hlog, State.raise, State.bumpHold, State.get_put_apart (by decide),
    State.get_put_apart (by decide)]; rfl

/-- A request that is no posted write opens the entry of its tag, with the generation that the tag has. -/
theorem sandOpen_entries {q : SandReq} (h : q.op ≠ .writeP) (s : State) : (sandOpen q s).sand.entries =
    s.sand.entries.set (q.ini.val, q.tag.toNat) ⟨q, s.sand.gens.get 0 (q.ini.val, q.tag.toNat)⟩ := by
  simp [sandOpen, reqPosted, h]

/-- Opening an entry leaves everything but the entries. -/
theorem sandOpen_frame (q : SandReq) (s : State) :
    sandOpen q s = { s with sand := { s.sand with entries := (sandOpen q s).sand.entries } } := by
  unfold sandOpen; split <;> rfl

theorem sandOpen_regs (q : SandReq) (s : State) : (sandOpen q s).regs = s.regs := by rw [sandOpen_frame]

@[simp] theorem sandOpen_moving (q : SandReq) (s : State) : (sandOpen q s).sand.moving = s.sand.moving := by rw [sandOpen_frame]

@[simp] theorem sandOpen_failed (q : SandReq) (s : State) : (sandOpen q s).sand.failed = s.sand.failed := by rw [sandOpen_frame]

theorem routeDown_congr {s t : State} (h : t.sand.failed = s.sand.failed) (ini : Nat) (x y : Option Nat) :
    t.routeDown ini x y = s.routeDown ini x y := by simp only [State.routeDown, h]

theorem fenced_congr {s t : State} (h : t.regs = s.regs) (b : Nat) : t.fenced b = s.fenced b := by
  simp only [State.fenced, State.get, State.rd, h]

/-- The state after a late response: counted and flagged (08 R408). -/
def lateResponse (s : State) : State := (s.bumpHold F.NOC_LATE_RESPS_COUNT).raise F.NOC_ERR_LATE_RESP

section
variable {p : SandRsp} {s : State}

/-- Where no route of the initiator has failed, no response is lost (08 R412). -/
theorem rspLost_of_routes (h : p.resp = .link ∨ ∀ x y, s.routeDown p.ini.val x y = false) : s.rspLost p = false := by
  rcases h with hlink | hroute
  · simp [State.rspLost, hlink]
  · unfold State.rspLost
    split <;> simp [hroute]

/-- A response that no packet on its way is waiting for is taken at once. -/
theorem exec_sandResponse (hstill : s.sand.moving = []) (hroute : s.rspLost p = false) :
    exec (.sandResponse p) s = .next (rspTake p s) := by
  have h : execSandResponse p s = .next (rspTake p s) := by simp [execSandResponse, hstill, hroute]
  exact h

theorem rspTake_match {e : SandEntry} (hfind : s.sand.entries.find (p.ini.val, p.tag.toNat) = some e) (hgen : e.gen = p.gen)
    (hfence : p.ini.val < 64 → s.fenced p.ini.val = false) :
    rspTake p s = (nocLog p.ini.val e.req.addr.toNat p.resp false (sandFree p.ini.val p.tag.toNat s)).answerMem
      (if e.req.op = .read ∧ hasData p.resp = true then ⟨p.resp, p.data, p.poison⟩ else ⟨p.resp, [], []⟩) := by
  have hopen : (decide (p.ini.val < 64) && s.fenced p.ini.val) = false := by
    simpa [or_iff_not_imp_left] using hfence
  simp [rspTake, hopen, hfind, hgen]

/-- A response without an entry of its generation is late (08 R408). -/
theorem exec_sandResponse_late (hstill : s.sand.moving = []) (hroute : ∀ x y, s.routeDown p.ini.val x y = false)
    (hfence : p.ini.val < 64 → s.fenced p.ini.val = false)
    (hgen : ∀ e, s.sand.entries.find (p.ini.val, p.tag.toNat) = some e → e.gen ≠ p.gen) :
    exec (.sandResponse p) s = .next (lateResponse s) := by
  have hopen : (decide (p.ini.val < 64) && s.fenced p.ini.val) = false := by
    simpa [or_iff_not_imp_left] using hfence
  rw [exec_sandResponse hstill (rspLost_of_routes (.inr hroute))]
  cases hfind : s.sand.entries.find (p.ini.val, p.tag.toNat) with
  | none => simp [rspTake, hopen, hfind, lateResponse]
  | some e => simp [rspTake, hopen, hfind, hgen e hfind, lateResponse]

end

/-- The state after the timeout of an entry (08 R405). -/
def timedOut (i tag : Nat) (e : SandEntry) (s : State) : State :=
  (nocTimeout i e.req.addr.toNat (sandFree i tag s)).answer .timeout

theorem exec_sandTimeout {ini : Ini} {tag : BitVec 13} {e : SandEntry} {s : State}
    (h : s.sand.entries.find (ini.val, tag.toNat) = some e) :
    exec (.sandTimeout ini tag) s = .next (timedOut ini.val tag.toNat e s) := by
  have hexec : execSandTimeout ini tag s = .next (timedOut ini.val tag.toNat e s) := by simp [execSandTimeout, h, timedOut]
  exact hexec

theorem timedOut_sand (i tag : Nat) (e : SandEntry) (s : State) : (timedOut i tag e s).sand = (sandFree i tag s).sand :=
  nocTimeout_sand ..

theorem timedOut_fenced (i tag : Nat) (e : SandEntry) (s : State) (b : Nat) : (timedOut i tag e s).fenced b = s.fenced b :=
  (nocTimeout_fenced i e.req.addr.toNat _ b).trans (sandFree_fenced i tag s b)

/-- An entry's generation differs from the one before it (08 R408). -/
theorem gen_succ_ne (g : BitVec 3) : g + 1 ≠ g := by
  revert g; decide

/-- Settles O24: the timeout frees the entry, and neither an empty entry nor one of the next generation takes the response. -/
theorem sandLateResponse : Obligations.SandLateResponse := by
  refine ⟨fun s i tag => ⟨sandFree_gen i tag s, sandFree_entry i tag s⟩, ?_⟩
  intro s p e t hfind hgen hp hfence hstill hroute hexec
  obtain rfl : timedOut p.ini.val p.tag.toNat e s = t :=
    Host.Outcome.next.inj ((exec_sandTimeout hfind).symm.trans hexec)
  have hsand := timedOut_sand p.ini.val p.tag.toNat e s
  have hfenced := timedOut_fenced p.ini.val p.tag.toNat e s p.ini.val
  generalize timedOut p.ini.val p.tag.toNat e s = t at hsand hfenced
  have hstill' : t.sand.moving = [] := by rw [hsand, sandFree_moving, hstill]
  have hfailed : t.sand.failed = s.sand.failed := by rw [hsand, sandFree_failed]
  have hnone : t.sand.entries.find (p.ini.val, p.tag.toNat) = none := by rw [hsand, sandFree_entry]
  have hnext : t.sand.gens.get 0 (p.ini.val, p.tag.toNat) = p.gen + 1 := by rw [hsand, sandFree_gen, hgen, hp]
  refine ⟨exec_sandResponse_late hstill' (fun x y => ?_) (fun h => hfenced.trans (hfence h)) (by simp [hnone]),
    fun q hini htag hop => exec_sandResponse_late ?_ (fun x y => ?_) (fun h => ?_) (fun e' he' => ?_)⟩
  · rw [routeDown_congr hfailed, hroute]
  · rw [sandOpen_moving, hstill']
  · rw [routeDown_congr ((sandOpen_failed q t).trans hfailed), hroute]
  · rw [fenced_congr (sandOpen_regs q t), hfenced, hfence h]
  · rw [sandOpen_entries hop, hini, htag, hnext, Tbl.find_set_same] at he'
    obtain rfl := Option.some.inj he'
    exact gen_succ_ne p.gen

end Sys2Proof.Machine
end

section
/-! Injection of requests (08 R385, R386, R400 to R402, R415): a request goes, or it waits with its tokens counted. -/

namespace Sys2Proof.Machine

/-- A row of rates and the row of initiator states have no register in common. -/
theorem noc_rate_addr_ne (i j : Nat) : R.NOC_INI_STATUS.addr i ≠ R.NOC_RATE.addr j := Reg.addr_ne_of_apart (by decide) i j

/-- The initiator is below its limit and the entry free, or the request is a posted write (08 R385, R386). -/
def EntryFree (q : SandReq) (s : State) : Prop :=
  reqPosted q = true ∨ (s.outstanding q.ini.val < sandLimit q.ini.val ∧ s.sand.entries.find (q.ini.val, q.tag.toNat) = none)

/-- The count accrued suffices, or the initiator is not regulated (08 R402). -/
def TokensPaid (q : SandReq) (cycles : Nat) (s : State) : Prop :=
  s.on F.NOC_RATE_EN q.ini.val = false ∨
    (1024 * (min (reqFlits q) (s.sandBurst q.ini.val) : Nat) : Int) ≤ s.sandAccrue q.ini.val cycles

/-- The count that an injection leaves: under regulation the flits are paid (08 R402). -/
def tokensLeft (q : SandReq) (cycles : Nat) (s : State) : Int :=
  if s.on F.NOC_RATE_EN q.ini.val then s.sandAccrue q.ini.val cycles - 1024 * (reqFlits q : Int)
  else s.sandAccrue q.ini.val cycles

/-- What a try changes: the network, and the state of its initiator. -/
structure InjectFrame (q : SandReq) (s t : State) : Prop where
  eq : t = { s with sand := t.sand, regs := t.regs }
  regs : RegsBut s t [R.NOC_INI_STATUS.addr q.ini.val]

/-- The network after a request has gone. -/
def sandGone (q : SandReq) (cycles : Nat) (s : State) : Sand := { s.sand with
  tokens := (s.sand.tokens.set q.ini.val (s.sandAccrue q.ini.val cycles)).set q.ini.val (tokensLeft q cycles s),
  moving := s.sand.moving ++ [s.outbound q],
  entries := if reqPosted q then s.sand.entries
             else s.sand.entries.set (q.ini.val, q.tag.toNat) ⟨q, s.sand.gens.get 0 (q.ini.val, q.tag.toNat)⟩ }

/-- The network after a request has not gone. -/
def sandHeld (q : SandReq) (cycles : Nat) (s : State) : Sand :=
  { s.sand with tokens := s.sand.tokens.set q.ini.val (s.sandAccrue q.ini.val cycles) }

/-- A request goes, with a free entry and its flits paid, or it is held. -/
inductive InjectCases (q : SandReq) (cycles : Nat) (s : State) : Bool × State → Prop
  | gone {t : State} (hfree : EntryFree q s) (hpaid : TokensPaid q cycles s) (hsand : t.sand = sandGone q cycles s)
      (hframe : InjectFrame q s t) : InjectCases q cycles s (true, t)
  | held {t : State} (hnot : ¬ (EntryFree q s ∧ TokensPaid q cycles s)) (hsand : t.sand = sandHeld q cycles s)
      (hframe : InjectFrame q s t) : InjectCases q cycles s (false, t)

section
variable {q : SandReq} {s t : State}

theorem injectFrame_sand (q : SandReq) (s : State) (x : Sand) : InjectFrame q s { s with sand := x } :=
  ⟨rfl, regsBut_regs _ rfl⟩

theorem injectFrame_put (h : InjectFrame q s t) {f : Fld} (hf : f.reg = R.NOC_INI_STATUS) (v : Nat) :
    InjectFrame q s (t.put f q.ini.val v) := by
  refine ⟨?_, regsBut_put _ _ _ h.regs (by rw [hf]; exact List.mem_singleton.mpr rfl)⟩
  obtain ⟨x, r, rfl⟩ : ∃ x r, t = { s with sand := x, regs := r } := ⟨_, _, h.eq⟩
  rfl

theorem injectFrame_open (h : InjectFrame q s t) : InjectFrame q s (sandOpen q t) := by
  refine ⟨?_, fun a ha d => by rw [sandOpen_regs]; exact h.regs a ha d⟩
  obtain ⟨x, r, rfl⟩ : ∃ x r, t = { s with sand := x, regs := r } := ⟨_, _, h.eq⟩
  rw [sandOpen_frame]

/-- The rate of an initiator is no part of what a try changes. -/
theorem injectFrame_burst (h : InjectFrame q s t) : t.sandBurst q.ini.val = s.sandBurst q.ini.val := by
  have hrd := regsBut_rd h.regs R.NOC_RATE q.ini.val (by simpa using (noc_rate_addr_ne _ _).symm)
  rw [State.sandBurst, State.get, show F.NOC_RATE_BURST.reg = R.NOC_RATE from rfl, hrd]; rfl

end

/-- A try by the tests it makes (08 R386, R402). -/
theorem sandInject_cases (q : SandReq) (cycles : Nat) (s : State) : InjectCases q cycles s (sandInject q cycles s) := by
  have hheld := injectFrame_sand q s (sandHeld q cycles s)
  dsimp only [sandInject]
  split
  next hlimit =>
    simp only [Bool.and_eq_true, Bool.not_eq_true', decide_eq_true_eq] at hlimit
    refine .held (fun hgo => ?_) rfl (injectFrame_put hheld rfl 1)
    rcases hgo.1 with hposted | ⟨hbelow, -⟩
    · simp [hlimit.1] at hposted
    · exact absurd hlimit.2 (Nat.not_le.mpr hbelow)
  next hlimit =>
  split
  next hused =>
    simp only [Bool.and_eq_true, Bool.not_eq_true'] at hused
    refine .held (fun hgo => ?_) rfl hheld
    rcases hgo.1 with hposted | ⟨-, hnone⟩
    · simp [hused.1] at hposted
    · simp [hnone] at hused
  next hused =>
  have hfree : EntryFree q s := by
    cases hposted : reqPosted q with
    | true => exact .inl hposted
    | false => exact .inr (by simpa [hposted] using And.intro hlimit hused)
  split
  next hpoor =>
    simp only [Bool.and_eq_true, Bool.not_eq_true', tokensAllow, decide_eq_false_iff_not] at hpoor
    refine .held (fun hgo => ?_) rfl (injectFrame_put hheld rfl 1)
    rcases hgo.2 with hoff | hpaid
    · simp [hpoor.1] at hoff
    · exact hpoor.2 hpaid
  next hpoor =>
    have hpaid : TokensPaid q cycles s := by
      cases hon : s.on F.NOC_RATE_EN q.ini.val with
      | false => exact .inl hon
      | true => exact .inr (by simpa [hon, tokensAllow] using hpoor)
    refine .gone hfree hpaid ?_ ?_
    · cases hposted : reqPosted q <;> simp only [sandGone, sandOpen, hposted] <;> rfl
    · exact injectFrame_open (injectFrame_put (f := F.NOC_INI_STATUS_AT_LIMIT)
        (injectFrame_put (f := F.NOC_INI_STATUS_RATE_WAIT) (injectFrame_sand q s _) rfl 0) rfl 0)

end Sys2Proof.Machine
end

section
/-! What a try of an injection keeps (08 R386, R401, R402), from its two ends. -/

namespace Sys2Proof.Machine

theorem sandAccrue_le (s : State) (i cycles : Nat) : s.sandAccrue i cycles ≤ 1024 * (s.sandBurst i : Int) := min_le_right _ _

theorem tokensLeft_le (q : SandReq) (cycles : Nat) (s : State) :
    tokensLeft q cycles s ≤ 1024 * (s.sandBurst q.ini.val : Int) := by
  have hle := sandAccrue_le s q.ini.val cycles
  unfold tokensLeft
  split <;> omega

/-- An entry opened on a free key counts for its own initiator only (08 R385). -/
theorem length_entries_set {t : Tbl (Nat × Nat) SandEntry} {k : Nat × Nat} (h : t.find k = none) (e : SandEntry) (j : Nat) :
    ((t.set k e).filter fun x => x.1.1 == j).length = (t.filter fun x => x.1.1 == j).length + if k.1 = j then 1 else 0 := by
  rw [Tbl.set_of_find_none h, List.filter_append, List.length_append]
  by_cases hk : k.1 = j <;> simp [hk]

/-- Opening a free entry keeps every initiator within its limit (08 R385, R386). -/
theorem outstanding_gone {q : SandReq} {cycles : Nat} {s t : State} (hfree : EntryFree q s)
    (hsand : t.sand = sandGone q cycles s) {j : Nat} (h : s.outstanding j ≤ sandLimit j) : t.outstanding j ≤ sandLimit j := by
  rw [State.outstanding, hsand]
  cases hposted : reqPosted q with
  | true => simp only [sandGone, hposted, if_true]; exact h
  | false =>
    obtain ⟨hbelow, hnone⟩ := hfree.resolve_left (by simp [hposted])
    have hlen := length_entries_set hnone ⟨q, s.sand.gens.get 0 (q.ini.val, q.tag.toNat)⟩ j
    simp only [sandGone, hposted]
    refine hlen.trans_le ?_
    split
    next hini => subst hini; exact hbelow
    next => exact h

section
variable {q : SandReq} {cycles : Nat} {s : State} {r : Bool × State} (h : InjectCases q cycles s r)
include h

theorem injectCases_frame : InjectFrame q s r.2 := by
  cases h <;> assumption

theorem injectCases_iff : r.1 = true ↔ EntryFree q s ∧ TokensPaid q cycles s := by
  cases h with
  | gone hfree hpaid => simp [hfree, hpaid]
  | held hnot => simp [hnot]

theorem injectCases_sand_gone (hfree : EntryFree q s) (hpaid : TokensPaid q cycles s) : r.2.sand = sandGone q cycles s := by
  cases h with
  | gone _ _ hsand => exact hsand
  | held hnot => exact absurd ⟨hfree, hpaid⟩ hnot

theorem injectCases_sand_held (hnot : ¬ (EntryFree q s ∧ TokensPaid q cycles s)) : r.2.sand = sandHeld q cycles s := by
  cases h with
  | gone hfree hpaid => exact absurd ⟨hfree, hpaid⟩ hnot
  | held _ hsand => exact hsand

theorem injectCases_outstanding {j : Nat} (hj : s.outstanding j ≤ sandLimit j) : r.2.outstanding j ≤ sandLimit j := by
  cases h with
  | gone hfree _ hsand => exact outstanding_gone hfree hsand hj
  | held _ hsand => rw [State.outstanding, hsand]; exact hj

theorem injectCases_tokens : r.2.sandTokens q.ini.val ≤ 1024 * (r.2.sandBurst q.ini.val : Int) := by
  rw [injectFrame_burst (injectCases_frame h), State.sandTokens]
  cases h with
  | gone _ _ hsand => rw [hsand, sandGone, Tbl.get_set_same]; exact tokensLeft_le q cycles s
  | held _ hsand => rw [hsand, sandHeld, Tbl.get_set_same]; exact sandAccrue_le s q.ini.val cycles

end

/-- An access point of an unfenced bay with an empty buffer tries the request; one that does not go waits in the buffer
(08 R415). -/
theorem exec_accessPointInject {bay : BayId} {q : SandReq} {s : State} (hini : q.ini.val = bay.val)
    (hfence : s.fenced bay = false) (hempty : s.sand.buffer.find bay.val = none) (cycles : Nat) :
    let r := sandInject q cycles s
    exec (.accessPointInject bay q cycles) s = .next { r.2 with sand := { r.2.sand with
      buffer := if r.1 then r.2.sand.buffer.erase bay.val else r.2.sand.buffer.set bay.val q } } := by
  have hini' : (⟨bay.val, by omega⟩ : Ini) = q.ini := Fin.ext hini.symm
  have hq : ({ q with ini := ⟨bay.val, by omega⟩ } : SandReq) = q := by rw [hini']
  intro r
  show execAccessPointInject bay q cycles s = _
  simp only [execAccessPointInject, hfence, hempty, Option.getD_none, hq]
  rfl

end Sys2Proof.Machine
end

section
/-! The error log, links, the clock switch and rates of Sand (08 R380, R404, R410, R411, R413, R414). -/

namespace Sys2Proof.Machine

theorem nocLog_of_valid {s : State} {r : Resp} (h : s.on F.NOC_ERR_LOG_VALID = true ∨ r = .okay) (ini a : Nat) (posted : Bool) :
    nocLog ini a r posted s = s := if_pos h.symm

/-- What the empty log takes of an error response (08 R414). -/
theorem nocLog_rd {s : State} {r : Resp} (hv : s.on F.NOC_ERR_LOG_VALID = false) (hr : r ≠ .okay) {ini a : Nat}
    (ha : a < 2 ^ 48) (hini : ini < 116) (posted : Bool) :
    ((nocLog ini a r posted s).rd R.NOC_ERR_LOG).toNat =
      a + ini * 2 ^ 48 + r.code * 2 ^ 58 + ofFlag posted * 2 ^ 62 + 2 ^ 63 := by
  have hcode := respCode_lt r
  have hposted : ofFlag posted < 2 := by cases posted <;> decide
  rw [nocLog, if_neg (by simp [hv, hr]), State.rd_wr_same, BitVec.toNat_ofNat]
  omega

/-- The fields of a logged error (08 R414). -/
theorem nocLog_fields {s : State} {r : Resp} (hv : s.on F.NOC_ERR_LOG_VALID = false) (hr : r ≠ .okay) {ini a : Nat}
    (ha : a < 2 ^ 48) (hini : ini < 116) (posted : Bool) :
    let t := nocLog ini a r posted s
    t.on F.NOC_ERR_LOG_VALID = true ∧ bits (t.rd R.NOC_ERR_LOG).toNat 0 48 = a ∧
      bits (t.rd R.NOC_ERR_LOG).toNat 48 10 = ini ∧ bits (t.rd R.NOC_ERR_LOG).toNat 58 4 = r.code ∧
      bit (t.rd R.NOC_ERR_LOG).toNat 62 = posted := by
  intro t
  have hcode := respCode_lt r
  have hflag : ofFlag posted < 2 := by cases posted <;> decide
  have hrd : (t.rd R.NOC_ERR_LOG).toNat = _ := nocLog_rd hv hr ha hini posted
  have hon : t.on F.NOC_ERR_LOG_VALID = (bits (t.rd R.NOC_ERR_LOG).toNat 63 1 != 0) := rfl
  rw [hon, hrd]
  refine ⟨?_, ?_, ?_, ?_, ?_⟩
  · simp only [bits, bne_iff_ne]; omega
  · simp only [bits]; omega
  · simp only [bits]; omega
  · simp only [bits]; omega
  · cases posted
    · simp only [bit, ofFlag, Bool.false_eq_true, if_false, beq_eq_false_iff_ne]; omega
    · simp only [bit, ofFlag, if_true, beq_iff_eq]; omega

/-- A CRC error on a link, counted and flagged (08 R410). -/
def linkRetried (s : State) : State := (s.bumpHold F.NOC_LINK_RETRIES_COUNT).raise F.NOC_ERR_LINK_RETRY

/-- A link failed and recorded (08 R411). -/
def linkFailed (l : Nat) (s : State) : State :=
  ({ s with sand := { s.sand with failed := s.sand.failed ++ [l] } }.put F.NOC_LINK_FAIL_LINK 0 l).raise F.NOC_ERR_LINK_FAIL

theorem exec_linkRetry {link : BitVec 12} {s : State} (hlink : isLink link.toNat = true) (hworks : link.toNat ∉ s.sand.failed)
    (again : Bool) : exec (.linkRetry link again) s =
      .next (if again then linkFailed link.toNat (linkRetried s) else linkRetried s) := by
  have hexec : execLinkRetry link again s = .next (if again then linkFailed link.toNat (linkRetried s) else linkRetried s) := by
    cases again <;> simp [execLinkRetry, hlink, hworks, linkRetried, linkFailed]
  exact hexec

theorem exec_linkRetry_failed {link : BitVec 12} {s : State} (h : link.toNat ∈ s.sand.failed) (again : Bool) :
    exec (.linkRetry link again) s = .next s := by
  have hexec : execLinkRetry link again s = .next s := by simp [execLinkRetry, h]
  exact hexec

/-- A write of NOC_RATE as the registers take it: a write that stops regulation ends the wait (08 R404). -/
def rateStored (i w : Nat) (s : State) : State :=
  (s.wrCodes R.NOC_RATE i (BitVec.ofNat 64 w) false).when (!bit w 31) (·.clear F.NOC_INI_STATUS_RATE_WAIT i)

theorem rateStored_onlyRegs (i w : Nat) (s : State) : OnlyRegs s (rateStored i w s) :=
  onlyRegs_when rfl rfl

theorem rateStored_regsBut (i w : Nat) (s : State) :
    RegsBut s (rateStored i w s) [R.NOC_RATE.addr i, R.NOC_INI_STATUS.addr i] := by
  have hrate := regsBut_mono (m := [R.NOC_RATE.addr i, R.NOC_INI_STATUS.addr i])
    (wrCodes_regsBut s R.NOC_RATE i (BitVec.ofNat 64 w) false) (by simp)
  exact regsBut_when hrate (regsBut_put _ _ _ hrate (List.mem_cons_of_mem _ (List.mem_singleton.mpr rfl)))

theorem rateStored_rd (i w : Nat) (s : State) : (rateStored i w s).rd R.NOC_RATE i =
    (s.rd R.NOC_RATE i &&& ~~~(BitVec.ofNat 64 R.NOC_RATE.rw)) ||| (BitVec.ofNat 64 w &&& BitVec.ofNat 64 R.NOC_RATE.rw) := by
  have hstored : (s.wrCodes R.NOC_RATE i (BitVec.ofNat 64 w) false).rd R.NOC_RATE i = _ :=
    rd_wrCodes (rw := BitVec.ofNat 64 R.NOC_RATE.rw) (c := 0#64) rfl rfl s i _
  rw [BitVec.zero_and, BitVec.not_zero, BitVec.and_allOnes] at hstored
  rw [← hstored, rateStored]
  cases bit w 31
  · exact State.rd_wr_ne _ _ _ _ (noc_rate_addr_ne i i)
  · rfl

theorem rateStored_wait {i w : Nat} (h : bit w 31 = false) (s : State) :
    (rateStored i w s).on F.NOC_INI_STATUS_RATE_WAIT i = false := by
  rw [rateStored, h]; exact State.on_put_zero (by decide)

/-- The state after a write of NOC_RATE: the count is cut to the new BURST (08 R404). -/
def rateWritten (i w : Nat) (s : State) : State :=
  { rateStored i w s with sand := { (rateStored i w s).sand with
      tokens := (rateStored i w s).sand.tokens.set i (min (s.sandTokens i) (1024 * ((rateStored i w s).sandBurst i : Int))) } }

theorem exec_nocRateWrite (ini : Ini) (w : W32) (s : State) :
    exec (.nocRateWrite ini w) s = .next (rateWritten ini.val w.toNat s) := rfl

theorem rateWritten_frame (i w : Nat) (s : State) : rateWritten i w s =
    { s with regs := (rateWritten i w s).regs, sand := { s.sand with tokens := (rateWritten i w s).sand.tokens } } := by
  obtain ⟨r, hr⟩ : ∃ r, rateStored i w s = { s with regs := r } := ⟨_, rateStored_onlyRegs i w s⟩
  rw [rateWritten, hr]

theorem rateWritten_tokens (i w : Nat) (s : State) :
    (rateWritten i w s).sandTokens i = min (s.sandTokens i) (1024 * ((rateWritten i w s).sandBurst i : Int)) :=
  Tbl.get_set_same _ _ _ _

/-- Settles O23: an injection by whether it goes or is held, each end of an entry by its equation, a rate by its write. -/
theorem sandInjectionAndResponses : Obligations.SandInjectionAndResponses := by
  refine ⟨fun s q cycles => ?_, fun s => ⟨?_, ?_, ?_, ?_, ?_, ?_, rfl, ?_⟩⟩
  · intro i c posted free paid
    have hcases := sandInject_cases q cycles s
    refine ⟨rfl, injectCases_iff hcases, injectCases_sand_gone hcases, injectCases_sand_held hcases,
      fun j => injectCases_outstanding hcases, injectCases_tokens hcases, (injectCases_frame hcases).eq,
      (injectCases_frame hcases).regs,
      fun bay hini hfence hempty => ⟨_, exec_accessPointInject hini hfence hempty cycles, ?_, rfl⟩⟩
    cases hgone : (sandInject q cycles s).1 with
    | true => exact Tbl.find_erase_same _ _
    | false => exact Tbl.find_set_same _ _ _
  · intro p e hfind hgen hfence hstill hroute
    rw [exec_sandResponse hstill (rspLost_of_routes hroute), rspTake_match hfind hgen hfence]
  · intro ini tag e hfind
    exact exec_sandTimeout hfind
  · intro ini a r posted h
    exact nocLog_of_valid h ini a posted
  · intro ini a r posted hv hr ha hini t
    obtain ⟨hvalid, haddr, hinit, hresp, hposted⟩ := nocLog_fields hv hr ha hini posted
    exact ⟨hvalid, haddr, hinit, hresp, hposted, nocLog_frame .., nocLog_regsBut ini a r posted s⟩
  · intro link hlink hworks u
    exact ⟨exec_linkRetry hlink hworks false, exec_linkRetry hlink hworks true⟩
  · intro link again h
    exact exec_linkRetry_failed h again
  · intro ini w
    have hstored := rateStored_rd ini w.toNat s
    rw [BitVec.ofNat_toNat] at hstored
    exact ⟨_, exec_nocRateWrite ini w s, hstored, rateWritten_tokens ini w.toNat s,
      fun h => rateStored_wait h s, rateWritten_frame ini w.toNat s, rateStored_regsBut ini w.toNat s⟩

end Sys2Proof.Machine
end

section
/-! Slot words as a commit copies them (08 R437): the valid bit of each bad entry is 0, every other bit stands. -/

namespace Sys2Proof.Machine

theorem testBit_clear (w : W64) {lo : Nat} (h : lo < 64) (k : Nat) :
    (setBits w lo 1 0).toNat.testBit k = (w.toNat.testBit k && k != lo) := by
  by_cases hk : k = lo
  · subst hk
    have hread := testBit_bits (setBits w k 1 0).toNat k 1 0
    rw [bits_setBits_same w 0 h] at hread
    simpa using hread.symm
  · rw [testBit_setBits_out w 0 k h (by omega)]; simp [hk]

/-- Clearing the valid bits of some lanes leaves the other bits. -/
theorem testBit_clearLanes {l : List Nat} (h : ∀ q ∈ l, q < 4) (w : W64) (k : Nat) :
    (l.foldl (fun v q => setBits v (16 * q + 15) 1 0) w).toNat.testBit k =
      (w.toNat.testBit k && l.all fun q => k != 16 * q + 15) := by
  induction l generalizing w with
  | nil => simp
  | cons q l ih =>
    have hq : q < 4 := h q List.mem_cons_self
    rw [List.foldl_cons, ih (fun x hx => h x (List.mem_cons_of_mem q hx)), testBit_clear w (by omega), List.all_cons,
      Bool.and_assoc]

/-- The lane's entry is valid and names an input that the switch lacks (08 R437). -/
def badLane (id : Nat) (w : W64) (q : Nat) : Bool :=
  bit (bits w.toNat (16 * q) 16) 15 && !inputExists id (bits w.toNat (16 * q) 16 % 256)

theorem mem_badLanes {id : Nat} {w : W64} {q : Nat} : q ∈ badLanes id w ↔ q < 4 ∧ badLane id w q = true := by
  simp [badLanes, badLane]

theorem testBit_copyWord (id : Nat) (w : W64) {q j : Nat} (hq : q < 4) (hj : j < 16) :
    (copyWord id w).toNat.testBit (16 * q + j) = (w.toNat.testBit (16 * q + j) && !(j == 15 && badLane id w q)) := by
  rw [copyWord, testBit_clearLanes fun x hx => (mem_badLanes.mp hx).1]
  congr 1
  rw [Bool.eq_iff_iff]
  simp only [List.all_eq_true, mem_badLanes, bne_iff_ne, Bool.not_eq_true', Bool.and_eq_false_iff, beq_eq_false_iff_ne]
  constructor
  · intro hall
    by_cases hbad : badLane id w q = true
    · exact .inl fun hlast => hall q ⟨hq, hbad⟩ (by omega)
    · exact .inr (Bool.eq_false_iff.mpr hbad)
  · rintro hcase x ⟨hx, hbad⟩ heq
    obtain ⟨rfl, rfl⟩ : j = 15 ∧ x = q := by omega
    rcases hcase with hne | hgood
    · exact hne rfl
    · rw [hbad] at hgood; exact absurd hgood (by decide)

/-- An entry as copied: a bad one is not valid, every other stands (08 R437). -/
theorem bits_copyWord (id : Nat) (w : W64) {q : Nat} (hq : q < 4) :
    bits (copyWord id w).toNat (16 * q) 16 =
      if badLane id w q then bits w.toNat (16 * q) 16 - 2 ^ 15 else bits w.toNat (16 * q) 16 := by
  have hbit : ∀ j, (bits (copyWord id w).toNat (16 * q) 16).testBit j =
      ((bits w.toNat (16 * q) 16).testBit j && !(j == 15 && badLane id w q)) := by
    intro j
    rw [testBit_bits, testBit_bits]
    by_cases hj : j < 16
    · rw [testBit_copyWord id w hq hj, Bool.and_assoc]
    · simp [hj]
  apply Nat.eq_of_testBit_eq
  intro j
  rw [hbit]
  split
  next hbad =>
    have hlt : bits w.toNat (16 * q) 16 < 2 ^ 16 := Nat.mod_lt _ (by decide)
    have hset : bits w.toNat (16 * q) 16 / 2 ^ 15 % 2 = 1 := by
      simpa [bit] using (Bool.and_eq_true_iff.mp hbad).1
    have hlow : bits w.toNat (16 * q) 16 - 2 ^ 15 = bits w.toNat (16 * q) 16 % 2 ^ 15 := by omega
    rw [hlow, Nat.testBit_mod_two_pow]
    by_cases hj : j < 15
    · simp [hj, Nat.ne_of_lt hj]
    · by_cases hlast : j = 15
      · simp [hlast, hbad]
      · have hhigh : (bits w.toNat (16 * q) 16).testBit j = false :=
          Nat.testBit_lt_two_pow (hlt.trans_le (Nat.pow_le_pow_right (by decide) (by omega)))
        simp [hhigh]
  next hgood => simp [hgood]

/-- A word without entries stays one. -/
theorem copyWord_zero (id : Nat) : copyWord id 0 = 0 := by
  have hnone : badLanes id 0 = [] := by simp [badLanes, bits, bit]
  rw [copyWord, hnone]; rfl

/-- The master tables as copied read, word by word, as copies of the master words. -/
theorem get_copied (t : Tbl (Nat × Nat) W64) (id slot : Nat) :
    Tbl.get (t.map fun e => (e.1, copyWord e.1.1 e.2)) 0 (id, slot) = copyWord id (t.get 0 (id, slot)) := by
  have hmap := Tbl.find_map (fun k w => copyWord k.1 w) t (id, slot)
  rw [Tbl.get, hmap]
  cases hfind : t.find (id, slot) with
  | none => simpa [Tbl.get, hfind] using (copyWord_zero id).symm
  | some w => simp [Tbl.get, hfind]

end Sys2Proof.Machine
end

section
/-! Tables in force, replaced by those selected (08 R434, R435, R438). -/

namespace Sys2Proof.Machine

theorem get_tablesFrom (sel : Nat → Bool) (a b : Tbl (Nat × Nat) W64) (id slot : Nat) :
    (tablesFrom sel a b).get 0 (id, slot) = if sel id then b.get 0 (id, slot) else a.get 0 (id, slot) := by
  have hkept := Tbl.find_filter (fun k => !sel k.1) a (id, slot)
  have hnew := Tbl.find_filter (fun k => sel k.1) b (id, slot)
  rw [Tbl.get, tablesFrom, Tbl.find_append, hkept, hnew]
  cases sel id <;> simp [Tbl.get]

theorem tablesFrom_all (a b : Tbl (Nat × Nat) W64) : tablesFrom (fun _ => true) a b = b := by
  simp [tablesFrom]

end Sys2Proof.Machine
end

section
/-! A commit (08 R433 to R437): GO, the end of the copy, the boundary. -/

namespace Sys2Proof.Machine

/-- The registers that a commit writes. -/
def commitRegs : List Nat := [R.QTZ_STATUS.addr 0, R.QTZ_COMMIT_CN.addr 0, R.QTZ_ERR.addr 0, R.QTZ_BAD.addr 0]

/-- What a commit changes: Quartz and its own registers. -/
structure CommitFrame (s t : State) : Prop where
  eq : t = { s with regs := t.regs, qtz := t.qtz }
  regs : RegsBut s t commitRegs

section
variable {s t u : State}

theorem commitFrame_qtz (s : State) (x : Quartz) : CommitFrame s { s with qtz := x } := ⟨rfl, regsBut_regs _ rfl⟩

theorem commitFrame_wr (h : CommitFrame s t) {r : Reg} (hr : r.addr 0 ∈ commitRegs) (v : W64) : CommitFrame s (t.wr r 0 v) := by
  refine ⟨?_, regsBut_wr _ _ _ h.regs hr⟩
  obtain ⟨x, y, rfl⟩ : ∃ x y, t = { s with regs := x, qtz := y } := ⟨_, _, h.eq⟩
  rfl

theorem commitFrame_trans (h : CommitFrame s t) (k : CommitFrame t u) : CommitFrame s u := by
  refine ⟨?_, regsBut_trans h.regs k.regs⟩
  obtain ⟨x, y, rfl⟩ : ∃ x y, t = { s with regs := x, qtz := y } := ⟨_, _, h.eq⟩
  exact k.eq

/-- Boundaries, crossing numbers, fences and rails are no part of a commit. -/
theorem commitFrame_world (h : CommitFrame s t) :
    t.boundariesRun = s.boundariesRun ∧ t.cn = s.cn ∧ t.slabsShut = s.slabsShut := by
  have hlock := regsBut_on h.regs (f := F.TMG_STATUS_QTZ_LOCK) (by decide)
  have hhold := regsBut_on h.regs (f := F.TMG_STATUS_HOLDOVER) (by decide)
  have hcn := regsBut_get h.regs (f := F.TMG_CN_CN) (by decide)
  have hfence := regsBut_get h.regs (f := F.FEN_SLAB_STATUS_FENCED) (by decide)
  have hrails : t.railsOff = s.railsOff := by rw [h.eq]
  refine ⟨?_, hcn, ?_⟩
  · simp only [State.boundariesRun, hlock, hhold]
  · simp only [State.slabsShut, State.slabFenced, State.railUp, hfence, hrails]

end

/-- The state after GO (08 R434). -/
def commitBegun (s : State) : State :=
  { s with qtz := { s.qtz with copied := false, skip := s.slabsShut } }.put F.QTZ_STATUS_COMMIT_BUSY 0 1

/-- The state whose pending tables are the copies of the master's (08 R434, R437). -/
def copyTaken (s : State) : State :=
  ({ s with qtz := { s.qtz with
      copied := true, pend := s.qtz.master.map (fun e => (e.1, copyWord e.1.1 e.2)), pendEqd := s.eqdValues } } : State).clear
    F.QTZ_STATUS_DIRTY

/-- Bad entries, if any, recorded in QTZ_BAD and flagged (08 R437). -/
def badRecorded (s : State) : List (Nat × Nat × Nat) → State
  | [] => s
  | b :: r =>
    let e := r.foldl laterEntry b
    (s.wr R.QTZ_BAD 0 (BitVec.ofNat 64 (e.1 + e.2.1 * 2 ^ 16 + e.2.2 * 2 ^ 24))).raise F.QTZ_ERR_BAD_ENTRY

/-- The state after the end of the copy. -/
def commitCopied (s : State) : State := badRecorded (copyTaken s) (badEntries s.qtz.master)

/-- The state after the boundary where no slab is skipped (08 R435). -/
def commitApplied (s : State) : State :=
  (((qtzSwitchOver (fun _ => true) s.qtz.pend s.qtz.pendEqd s).setQtz fun q => { q with
      kept := q.pend, keptEqd := q.pendEqd, copied := false, committed := true, skip := [], owing := [], loading := [] }).clear
        F.QTZ_STATUS_COMMIT_BUSY |>.wr R.QTZ_COMMIT_CN 0 (BitVec.ofNat 64 s.cn)).raise F.QTZ_ERR_COMMIT_DONE

section
variable {s : State}

theorem exec_tableWrite_idle (hbusy : s.on F.QTZ_STATUS_COMMIT_BUSY = false) (hid : idExists (s.get F.QTZ_TSEL_ID) = true)
    (slot : Fin 128) (w : W64) : exec (.tableWrite (.slotWord slot w)) s =
      .next ({ s with qtz := { s.qtz with master := s.qtz.master.set (s.get F.QTZ_TSEL_ID, slot.val) w } }.put
        F.QTZ_STATUS_DIRTY 0 1) := by
  show execTableWrite _ s = _
  simp [execTableWrite, qtzMasterWrite, hbusy, hid, State.setQtz, State.raise]

theorem exec_tableWrite_busy (hbusy : s.on F.QTZ_STATUS_COMMIT_BUSY = true) (t : QtzTarget) :
    exec (.tableWrite t) s = .next (s.put F.QTZ_ERR_WRITE_REFUSED 0 1) := by
  show execTableWrite t s = _
  simp [execTableWrite, qtzMasterWrite, hbusy, State.raise]

theorem exec_commit_idle (hbusy : s.on F.QTZ_STATUS_COMMIT_BUSY = false) {w : W32} (hw : bit w.toNat 0 = true) :
    exec (.commit w) s = .next (commitBegun s) := by
  show execCommit w s = _
  simp [execCommit, qtzCommitWrite, hbusy, hw, commitBegun, State.setQtz, State.raise]

theorem exec_commit_busy (hbusy : s.on F.QTZ_STATUS_COMMIT_BUSY = true) {w : W32} (hw : bit w.toNat 0 = true) :
    exec (.commit w) s = .next (s.put F.QTZ_ERR_WRITE_REFUSED 0 1) := by
  show execCommit w s = _
  simp [execCommit, qtzCommitWrite, hbusy, hw, State.raise]

theorem exec_commitCopyDone (hbusy : s.on F.QTZ_STATUS_COMMIT_BUSY = true) (hcopied : s.qtz.copied = false) :
    exec .commitCopyDone s = .next (commitCopied s) := by
  show execCommitCopyDone s = _
  simp only [execCommitCopyDone, hbusy, hcopied, commitCopied]
  cases badEntries s.qtz.master <;> rfl

theorem exec_commitBoundary (hbusy : s.on F.QTZ_STATUS_COMMIT_BUSY = true) (hcopied : s.qtz.copied = true)
    (hrun : s.boundariesRun = true) (hskip : s.qtz.skip = []) (hshut : s.slabsShut = []) :
    exec .commitBoundary s = .next (commitApplied s) := by
  show execCommitBoundary s = _
  have hnone (l : List Nat) : l.filter (List.contains []) = [] := by simp [List.filter_eq_nil_iff]
  simp only [execCommitBoundary, hbusy, hcopied, hrun, hskip, hshut, commitApplied, List.append_nil, List.contains_nil,
    Bool.not_false, Bool.not_true, Bool.or_false, Bool.false_and, Bool.false_eq_true, if_false, hnone, List.filter_false]

end

theorem commitBegun_frame (s : State) : CommitFrame s (commitBegun s) :=
  commitFrame_wr (commitFrame_qtz s _) (by decide) _

theorem badRecorded_frame (s : State) (l : List (Nat × Nat × Nat)) : CommitFrame s (badRecorded s l) := by
  cases l with
  | nil => exact commitFrame_qtz s s.qtz
  | cons b r => exact commitFrame_wr (commitFrame_wr (commitFrame_qtz s s.qtz) (by decide) _) (by decide) _

theorem badRecorded_qtz (s : State) (l : List (Nat × Nat × Nat)) : (badRecorded s l).qtz = s.qtz := by
  cases l <;> rfl

theorem badRecorded_status (s : State) (l : List (Nat × Nat × Nat)) {f : Fld} (hf : f.reg = R.QTZ_STATUS) :
    (badRecorded s l).on f = s.on f := by
  have hregs : RegsBut s (badRecorded s l) [R.QTZ_ERR.addr 0, R.QTZ_BAD.addr 0] := by
    cases l with
    | nil => exact regsBut_refl _ _
    | cons b r => exact regsBut_put _ _ _ (regsBut_wr _ _ _ (regsBut_refl _ _) (by decide)) (by decide)
  exact regsBut_on hregs (by rw [hf]; decide)

theorem badRecorded_flag (s : State) {l : List (Nat × Nat × Nat)} (h : l ≠ []) :
    (badRecorded s l).on F.QTZ_ERR_BAD_ENTRY = true := by
  obtain ⟨b, r, rfl⟩ := List.exists_cons_of_ne_nil h
  exact State.on_put_one (by decide) (by decide)

theorem commitCopied_frame (s : State) : CommitFrame s (commitCopied s) :=
  commitFrame_trans (commitFrame_wr (commitFrame_qtz s _) (by decide) _) (badRecorded_frame _ _)

theorem commitApplied_frame (s : State) : CommitFrame s (commitApplied s) :=
  commitFrame_wr (commitFrame_wr (commitFrame_wr (commitFrame_qtz s _) (by decide) _) (by decide) _) (by decide) _

theorem commitApplied_qtz (s : State) : (commitApplied s).qtz.active = s.qtz.pend ∧
    (commitApplied s).qtz.master = s.qtz.master ∧ (commitApplied s).qtz.tx = s.qtz.tx :=
  ⟨tablesFrom_all _ _, rfl, rfl⟩

theorem commitApplied_regs (s : State) : (commitApplied s).on F.QTZ_STATUS_COMMIT_BUSY = false ∧
    (commitApplied s).get F.QTZ_COMMIT_CN_CN = s.cn ∧ (commitApplied s).on F.QTZ_ERR_COMMIT_DONE = true := by
  have hcn : s.cn < 2 ^ 64 := State.get_lt s F.TMG_CN_CN 0
  refine ⟨?_, ?_, State.on_put_one (by decide) (by decide)⟩
  · rw [commitApplied, State.raise, State.on_put_apart (by decide), State.on, State.get, State.rd_wr_ne _ _ _ _ (by decide)]
    exact State.on_put_zero (by decide)
  · rw [commitApplied, State.raise, State.get_put_apart (by decide), State.get,
      show F.QTZ_COMMIT_CN_CN.reg = R.QTZ_COMMIT_CN from rfl, State.rd_wr_same, BitVec.toNat_ofNat, Nat.mod_eq_of_lt hcn]
    simpa [bits, F.QTZ_COMMIT_CN_CN] using hcn

theorem badEntries_ne_nil {t : Tbl (Nat × Nat) W64} (h : ∃ e ∈ t, badLanes e.1.1 e.2 ≠ []) : badEntries t ≠ [] := by
  obtain ⟨e, he, hbad⟩ := h
  simp only [badEntries, ne_eq, List.flatMap_eq_nil_iff, List.map_eq_nil_iff]
  exact fun hall => hbad (hall e he)

/-- Settles O26: writes by COMMIT_BUSY, then the three events in turn, each by its equation and what it leaves. -/
theorem quartzCommit : Obligations.QuartzCommit := by
  refine ⟨fun s => ⟨fun hbusy => ⟨fun slot w hid => exec_tableWrite_idle hbusy hid slot w, fun w hw => exec_commit_idle hbusy hw⟩,
    fun hbusy => ⟨exec_tableWrite_busy hbusy, fun w hw => exec_commit_busy hbusy hw⟩⟩, ?_, fun id w q hq => bits_copyWord id w hq⟩
  intro s w hidle hshut hrun hw
  have hbegun := commitBegun_frame s
  have hcopied := commitFrame_trans hbegun (commitCopied_frame (commitBegun s))
  have hbusy : (commitBegun s).on F.QTZ_STATUS_COMMIT_BUSY = true := State.on_put_one (by decide) (by decide)
  have hqtz : (commitCopied (commitBegun s)).qtz = (copyTaken (commitBegun s)).qtz := badRecorded_qtz _ _
  have hstill : (commitCopied (commitBegun s)).on F.QTZ_STATUS_COMMIT_BUSY = true := by
    rw [commitCopied, badRecorded_status _ _ rfl]
    exact (State.on_put_apart (by decide)).trans hbusy
  obtain ⟨hruns, hcn, hslabs⟩ := commitFrame_world hcopied
  have happlied := commitFrame_trans hcopied (commitApplied_frame _)
  refine ⟨commitCopied (commitBegun s), ?_, by rw [hqtz]; rfl, ?_, fun h => badRecorded_flag _ (badEntries_ne_nil h),
    commitApplied (commitCopied (commitBegun s)), exec_commitBoundary hstill (by rw [hqtz]; rfl) (hruns.trans hrun)
      (by rw [hqtz]; exact hshut) (hslabs.trans hshut), ?_⟩
  · simp only [runs, exec_commit_idle hidle hw, exec_commitCopyDone hbusy rfl]
  · rw [commitCopied, badRecorded_status _ _ rfl]
    exact State.on_put_zero (by decide)
  · obtain ⟨hactive, hmaster, htx⟩ := commitApplied_qtz (commitCopied (commitBegun s))
    obtain ⟨hdone, hcnread, hflag⟩ := commitApplied_regs (commitCopied (commitBegun s))
    refine ⟨fun id slot => ?_, hdone, hcnread.trans hcn, hflag, ?_, ?_, happlied.eq, happlied.regs⟩
    · rw [hactive, hqtz]; exact get_copied s.qtz.master id slot
    · rw [hmaster, hqtz]; rfl
    · rw [htx, hqtz]; rfl

end Sys2Proof.Machine
end

section
/-! The wiring of Quartz (08 R428, R441): where the outputs of the switches lead, and what drives each place. -/

namespace Sys2Proof.Machine

/-! Outputs of the slab switches by switch and number. -/

section
variable {sw o : Nat}

theorem outId_lt (hsw : sw < 64) (ho : o < 16) : outId sw o < 0x400 := by simp only [outId]; omega

theorem outId_out (ho : o < 16) : outId sw o % 16 = o := by simp only [outId]; omega

theorem outId_router (ho : o < 16) : outId sw o / 16 % 16 = sw % 16 := by simp only [outId]; omega

theorem outId_switch (ho : o < 16) : outId sw o / 256 * 16 + outId sw o / 16 % 16 = sw := by
  simp only [outId]; omega

theorem exists_outId {id : Nat} (h : id < 0x400) : ∃ sw o, sw < 64 ∧ o < 16 ∧ id = outId sw o :=
  ⟨id / 256 * 16 + id / 16 % 16, id % 16, by omega, by omega, by simp only [outId]; omega⟩

/-- The outputs that a slab switch has (08 R428). -/
theorem idExists_outId (hsw : sw < 64) (ho : o < 16) (h : idExists (outId sw o) = true) :
    (o = 0 ∧ sw % 16 / 4 ≠ 3) ∨ (o = 1 ∧ sw % 4 ≠ 3) ∨ (o = 2 ∧ sw % 16 / 4 ≠ 0) ∨ (o = 3 ∧ sw % 4 ≠ 0) ∨ o = 4 ∨ o = 5 ∨
      ∃ k < 4, o = 8 + k ∧ sw % 4 = 0 := by
  have hcol : sw % 16 % 4 = sw % 4 := by omega
  simp only [idExists, outId_lt hsw ho, if_true, outId_out ho, outId_router ho, hcol, Bool.or_eq_true, Bool.and_eq_true,
    beq_iff_eq, bne_iff_ne, decide_eq_true_eq] at h
  rcases h with (((((h | h) | h) | h) | h) | h) | ⟨⟨h8, h12⟩, hcol0⟩
  · exact .inl h
  · exact .inr (.inl h)
  · exact .inr (.inr (.inl h))
  · exact .inr (.inr (.inr (.inl h)))
  · exact .inr (.inr (.inr (.inr (.inl h))))
  · exact .inr (.inr (.inr (.inr (.inr (.inl h)))))
  · exact .inr (.inr (.inr (.inr (.inr (.inr ⟨o - 8, by omega, by omega, hcol0⟩)))))

theorem outputLeads_mesh (hsw : sw < 64) :
    outputLeads (outId sw 0) = (.port (sw + 4) 2, 1) ∧ outputLeads (outId sw 1) = (.port (sw + 1) 3, 1) ∧
      outputLeads (outId sw 2) = (.port (sw - 4) 0, 1) ∧ outputLeads (outId sw 3) = (.port (sw - 1) 1, 1) ∧
      outputLeads (outId sw 4) = (.recv sw, 2) := by
  refine ⟨?_, ?_, ?_, ?_, ?_⟩ <;>
    simp (disch := omega) only [outputLeads, outId_lt, if_true, outId_switch, outId_out]

theorem outputLeads_bridge (hsw : sw < 64) {k : Nat} (hk : k < 4) :
    outputLeads (outId sw (8 + k)) = (.port 64 (sw / 16 * 16 + swRow sw * 4 + k), 6) := by
  have ho : 8 + k < 16 := by omega
  simp only [outputLeads, outId_lt hsw ho, if_true, outId_switch ho, outId_out ho]
  interval_cases k <;> rfl

/-- The outputs that drive the mesh ports of slab switches. -/
theorem portDriver_mesh :
    (sw + 4 < 64 → portDriver (sw + 4) 2 = some (outId sw 0)) ∧ (sw + 1 < 64 → portDriver (sw + 1) 3 = some (outId sw 1)) ∧
      (sw < 64 → 4 ≤ sw → portDriver (sw - 4) 0 = some (outId sw 2)) ∧
      (sw < 64 → 1 ≤ sw → portDriver (sw - 1) 1 = some (outId sw 3)) := by
  refine ⟨fun h => ?_, fun h => ?_, fun h hle => ?_, fun h hle => ?_⟩
  · simp [portDriver, h]
  · simp [portDriver, h]
  · simp [portDriver, Nat.sub_add_cancel hle, (Nat.sub_le sw 4).trans_lt h]
  · simp [portDriver, Nat.sub_add_cancel hle, (Nat.sub_le sw 1).trans_lt h]

/-- The bridge outputs of switches with bay_col 0 drive the ports of Geode. -/
theorem portDriver_geode (hsw : sw < 64) (hcol : sw % 4 = 0) {k : Nat} (hk : k < 4) :
    portDriver 64 (sw / 16 * 16 + swRow sw * 4 + k) = some (outId sw (8 + k)) := by
  have hport : sw / 16 * 16 + swRow sw * 4 + k = sw + k := by simp only [swRow]; omega
  have hlt : sw + k < 64 := by omega
  have hhome : (sw + k) / 16 * 16 + (sw + k) % 16 / 4 * 4 = sw := by omega
  have hplace : 8 + (sw + k) % 4 = 8 + k := by omega
  rw [hport]
  simp [portDriver, hlt, hhome, hplace]

end

/-- The outputs of Geode that lead to the slabs, by slab, bay_row and link. -/
theorem outputLeads_geode {m : Nat} (hm : m < 64) :
    outputLeads (0x400 + m) = (.port (m / 4 * 4) (8 + m % 4), 6) := by
  have hplace : m / 16 * 16 + m % 16 / 4 * 4 = m / 4 * 4 := by omega
  have hlink : m % 16 % 4 = m % 4 := by omega
  have hlt : 1024 + m < 1088 := by omega
  simp [outputLeads, hlt, hplace, hlink]

theorem portDriver_slab {m : Nat} (hm : m < 64) : portDriver (m / 4 * 4) (8 + m % 4) = some (0x400 + m) := by
  have hlt : m / 4 * 4 < 64 := by omega
  have hk : m % 4 < 4 := Nat.mod_lt _ (by decide)
  simp only [portDriver, hlt, if_true, swRow]
  generalize hlink : m % 4 = k at hk
  interval_cases k <;> simp <;> omega

/-- What drives each place (08 R428, R441). -/
def placeDriver : QtzPlace → Option Nat
  | .port sw p => portDriver sw p
  | .recv bay => some (outId bay 4)
  | .verdict p => some (0x440 + p)
  | .ledger => some 0x448

/-- The two wiring tables agree: every output that leads to a place drives it (08 R428, R441). -/
theorem placeDriver_outputLeads {id : Nat} (hlt : id < 0x449) (hid : idExists id = true) (h5 : id % 16 ≠ 5 ∨ 0x400 ≤ id) :
    placeDriver (outputLeads id).1 = some id := by
  by_cases hslab : id < 0x400
  · obtain ⟨sw, o, hsw, ho, rfl⟩ := exists_outId hslab
    rw [outId_out ho] at h5
    obtain ⟨hup, hright, hdown, hleft, hlocal⟩ := outputLeads_mesh hsw
    obtain ⟨dup, dright, ddown, dleft⟩ := portDriver_mesh (sw := sw)
    rcases idExists_outId hsw ho hid with ⟨rfl, hrow⟩ | ⟨rfl, hcol⟩ | ⟨rfl, hrow⟩ | ⟨rfl, hcol⟩ | rfl | rfl | ⟨k, hk, rfl, hcol⟩
    · rw [hup]; exact dup (by omega)
    · rw [hright]; exact dright (by omega)
    · rw [hdown]; exact ddown hsw (by omega)
    · rw [hleft]; exact dleft hsw (by omega)
    · rw [hlocal]; rfl
    · omega
    · rw [outputLeads_bridge hsw hk]; exact portDriver_geode hsw hcol hk
  · obtain ⟨m, rfl⟩ := Nat.exists_eq_add_of_le (Nat.not_lt.mp hslab)
    by_cases hm : m < 64
    · rw [outputLeads_geode hm]; exact portDriver_slab hm
    · by_cases hverdict : m < 72
      · have hleads : (outputLeads (0x400 + m)).1 = .verdict (m - 64) := by
          have h1 : ¬ 1024 + m < 1088 := by omega
          have h2 : 1024 + m < 1096 := by omega
          simp [outputLeads, h1, h2]; omega
        rw [hleads, placeDriver]; congr 1; omega
      · obtain rfl : m = 72 := by omega
        rfl

theorem mem_outputsOf_slab {id sw : Nat} (hsw : sw < 64) (h : id ∈ outputsOf sw) :
    ∃ o < 16, o ≠ 5 ∧ id = outId sw o ∧ idExists id = true := by
  rw [outputsOf, if_pos hsw, List.mem_filter, List.mem_map] at h
  obtain ⟨⟨o, ho, rfl⟩, hid⟩ := h
  have hsmall : ∀ o ∈ [0, 1, 2, 3, 4, 8, 9, 10, 11], o < 16 ∧ o ≠ 5 := by decide
  exact ⟨o, (hsmall o ho).1, (hsmall o ho).2, rfl, hid⟩

theorem mem_outputsOf_geode {id sw : Nat} (hsw : ¬ sw < 64) (h : id ∈ outputsOf sw) : 0x400 ≤ id ∧ id < 0x449 := by
  rw [outputsOf, if_neg hsw, List.mem_map] at h
  obtain ⟨k, hk, rfl⟩ := h
  have hlt := List.mem_range.mp hk
  omega

/-- The outputs of a switch exist, and none of them is an INJECT table. -/
theorem of_mem_outputsOf {id sw : Nat} (h : id ∈ outputsOf sw) :
    id < 0x449 ∧ idExists id = true ∧ (id % 16 ≠ 5 ∨ 0x400 ≤ id) := by
  by_cases hsw : sw < 64
  · obtain ⟨o, ho, h5, rfl, hid⟩ := mem_outputsOf_slab hsw h
    exact ⟨(outId_lt hsw ho).trans (by decide), hid, .inl (by rwa [outId_out ho])⟩
  · obtain ⟨hge, hlt⟩ := mem_outputsOf_geode hsw h
    refine ⟨hlt, ?_, .inr hge⟩
    simp only [idExists, Nat.not_lt.mpr hge, if_false, decide_eq_true_eq]; omega

/-- No two outputs lead to the same place. -/
theorem outputLeads_inj {a b sw sw' : Nat} (ha : a ∈ outputsOf sw) (hb : b ∈ outputsOf sw')
    (h : (outputLeads a).1 = (outputLeads b).1) : a = b := by
  obtain ⟨halt, haex, ha5⟩ := of_mem_outputsOf ha
  obtain ⟨hblt, hbex, hb5⟩ := of_mem_outputsOf hb
  have hdriver := placeDriver_outputLeads halt haex ha5
  rw [h, placeDriver_outputLeads hblt hbex hb5] at hdriver
  exact (Option.some.inj hdriver).symm

/-- The input ports that a slab switch has (08 R428). -/
def SlabInput (sw p : Nat) : Prop :=
  (p = 0 ∧ sw % 16 / 4 ≠ 3) ∨ (p = 1 ∧ sw % 4 ≠ 3) ∨ (p = 2 ∧ sw % 16 / 4 ≠ 0) ∨ (p = 3 ∧ sw % 4 ≠ 0) ∨ p = 4 ∨
    (8 ≤ p ∧ p < 12 ∧ sw % 4 = 0)

theorem inputExists_slab {sw o p : Nat} (hsw : sw < 64) (ho : o < 16) (h5 : o ≠ 5) (h : SlabInput sw p) :
    inputExists (outId sw o) p = true := by
  have hcol : sw % 16 % 4 = sw % 4 := by omega
  simp only [inputExists, outId_lt hsw ho, if_true, outId_out ho, h5, if_false, outId_router ho, hcol, Bool.or_eq_true,
    Bool.and_eq_true, beq_iff_eq, bne_iff_ne, decide_eq_true_eq, or_assoc, and_assoc]
  exact h

/-- The ports to which outputs lead are those that the switches have (08 R428). -/
theorem outputLeads_port {id sw p : Nat} (hlt : id < 0x449) (hid : idExists id = true) (h5 : id % 16 ≠ 5 ∨ 0x400 ≤ id)
    (h : (outputLeads id).1 = .port sw p) : (sw < 64 ∧ SlabInput sw p) ∨ (sw = 64 ∧ p < 72) := by
  by_cases hslab : id < 0x400
  · obtain ⟨sw', o, hsw, ho, rfl⟩ := exists_outId hslab
    rw [outId_out ho] at h5
    obtain ⟨hup, hright, hdown, hleft, hlocal⟩ := outputLeads_mesh hsw
    rcases idExists_outId hsw ho hid with ⟨rfl, hrow⟩ | ⟨rfl, hcol⟩ | ⟨rfl, hrow⟩ | ⟨rfl, hcol⟩ | rfl | rfl | ⟨k, hk, rfl, hcol⟩
    · obtain ⟨rfl, rfl⟩ := QtzPlace.port.inj (hup ▸ h)
      exact .inl ⟨by omega, .inr (.inr (.inl ⟨rfl, by omega⟩))⟩
    · obtain ⟨rfl, rfl⟩ := QtzPlace.port.inj (hright ▸ h)
      exact .inl ⟨by omega, .inr (.inr (.inr (.inl ⟨rfl, by omega⟩)))⟩
    · obtain ⟨rfl, rfl⟩ := QtzPlace.port.inj (hdown ▸ h)
      exact .inl ⟨by omega, .inl ⟨rfl, by omega⟩⟩
    · obtain ⟨rfl, rfl⟩ := QtzPlace.port.inj (hleft ▸ h)
      exact .inl ⟨by omega, .inr (.inl ⟨rfl, by omega⟩)⟩
    · rw [hlocal] at h; cases h
    · omega
    · rw [outputLeads_bridge hsw hk] at h
      obtain ⟨rfl, rfl⟩ := QtzPlace.port.inj h
      exact .inr ⟨rfl, by simp only [swRow]; omega⟩
  · obtain ⟨m, rfl⟩ := Nat.exists_eq_add_of_le (Nat.not_lt.mp hslab)
    by_cases hm : m < 64
    · rw [outputLeads_geode hm] at h
      obtain ⟨rfl, rfl⟩ := QtzPlace.port.inj h
      exact .inl ⟨by omega, .inr (.inr (.inr (.inr (.inr ⟨by omega, by omega, by omega⟩))))⟩
    · simp only [outputLeads, hslab, if_false, show ¬ 0x400 + m < 0x440 by omega] at h
      split at h <;> cases h

/-- The port to which an output leads exists on its switch (08 R428). -/
theorem inputExists_outputLeads {id sw p : Nat} (hlt : id < 0x449) (hid : idExists id = true)
    (h : (outputLeads id).1 = .port sw p) (h5 : id % 16 ≠ 5 ∨ 0x400 ≤ id) {id' : Nat} (hmem : id' ∈ outputsOf sw) :
    inputExists id' p = true := by
  rcases outputLeads_port hlt hid h5 h with ⟨hsw, hport⟩ | ⟨rfl, hp⟩
  · obtain ⟨o, ho, ho5, rfl, -⟩ := mem_outputsOf_slab hsw hmem
    exact inputExists_slab hsw ho ho5 hport
  · obtain ⟨hge, -⟩ := mem_outputsOf_geode (by decide) hmem
    simp only [inputExists, Nat.not_lt.mpr hge, if_false, decide_eq_true_eq]; exact hp

end Sys2Proof.Machine
end

section
/-! Runs of table updates: of each item of a list that acts, the entry of its key is set. -/

namespace Sys2Proof.Tbl
variable {ι κ α : Type} [DecidableEq κ] (sends : ι → Bool) (key : ι → κ) (val : ι → α)

/-- The table with the entry of each item that acts. -/
def setAll (l : List ι) (t : Tbl κ α) : Tbl κ α := l.foldl (fun t i => if sends i then t.set (key i) (val i) else t) t

theorem setAll_cons (i : ι) (l : List ι) (t : Tbl κ α) : setAll sends key val (i :: l) t =
    setAll sends key val l (if sends i then t.set (key i) (val i) else t) := rfl

/-- A key reads `v` after the run where it read `v` before or an item that acts has it, and no item gives it another value. -/
theorem find_setAll_of {l : List ι} {t : Tbl κ α} {k : κ} {v : α}
    (h : find t k = some v ∨ ∃ i ∈ l, sends i = true ∧ key i = k)
    (hval : ∀ i ∈ l, sends i = true → key i = k → val i = v) : find (setAll sends key val l t) k = some v := by
  induction l generalizing t with
  | nil => simpa [setAll] using h
  | cons j l ih =>
    rw [setAll_cons]
    refine ih ?_ fun i hi => hval i (List.mem_cons_of_mem j hi)
    by_cases hj : sends j = true ∧ key j = k
    · obtain ⟨hs, rfl⟩ := hj
      left
      rw [if_pos hs, find_set_same, hval j List.mem_cons_self hs rfl]
    · rcases h with hold | ⟨i, hi, hs, hk⟩
      · left
        split
        next hs => rw [find_set_ne _ _ fun hk => hj ⟨hs, hk⟩, hold]
        next => exact hold
      · rcases List.mem_cons.mp hi with rfl | hi
        · exact absurd ⟨hs, hk⟩ hj
        · exact .inr ⟨i, hi, hs, hk⟩

/-- Where items that share a key are one, each that acts gives its key its value. -/
theorem find_setAll {l : List ι} (hinj : ∀ i ∈ l, ∀ j ∈ l, key j = key i → j = i) {i : ι} (hi : i ∈ l) (hs : sends i = true)
    (t : Tbl κ α) : find (setAll sends key val l t) (key i) = some (val i) :=
  find_setAll_of sends key val (.inr ⟨i, hi, hs, rfl⟩) fun j hj _ hk => by rw [hinj i hi j hj hk]

end Sys2Proof.Tbl
end

section
/-! Flits on their way (08 R419 to R425, R430 to R432, R446): what sending, forwarding and taking them leaves. -/

namespace Sys2Proof.Machine

/-- The state with other flits on their way. -/
def State.withFlights (s : State) (fl : Tbl (QtzPlace × Nat × Nat) Flit) : State :=
  { s with qtz := { s.qtz with flights := fl } }

/-- A run of updates each of which puts at most one flit on its way, whatever flits are on theirs. -/
theorem each_withFlights {ι : Type} {s : State} {g : State → ι → State} (sends : ι → Bool) (key : ι → QtzPlace × Nat × Nat)
    (val : ι → Flit)
    (h : ∀ fl i, g (s.withFlights fl) i = s.withFlights (if sends i then fl.set (key i) (val i) else fl))
    (l : List ι) (fl : Tbl (QtzPlace × Nat × Nat) Flit) :
    (s.withFlights fl).each l g = s.withFlights (Tbl.setAll sends key val l fl) := by
  induction l generalizing fl with
  | nil => rfl
  | cons i l ih =>
    have hstep : (s.withFlights fl).each (i :: l) g = (g (s.withFlights fl) i).each l g := rfl
    rw [hstep, h, ih]; rfl

/-! Injection. -/

/-- The INJECT entry of a lane, and the channel that it names. -/
def injectEntry (s : State) (bay slot lane : Nat) : QtzEntry := entryAt s.qtz.active (outId bay 5) slot lane
def injectChan (s : State) (bay slot lane : Nat) : QtzChan := s.qtz.tx.get {} (bay, (injectEntry s bay slot lane).port)

/-- The lane sends: a valid entry names a channel with valid contents, the bay is not fenced, the entry not muted. -/
def laneSends (s : State) (bay slot lane : Nat) : Bool :=
  (injectEntry s bay slot lane).valid && (injectChan s bay slot lane).valid && !s.fenced bay &&
    !s.qtzMuted (outId bay 5) slot lane slot

/-- The flit that a lane sends. -/
def laneFlit (s : State) (bay slot lane : Nat) : Flit :=
  ⟨(injectChan s bay slot lane).data, (injectChan s bay slot lane).tag, true, none⟩

/-- The place of the bay's switch that a lane's flit reaches two slots later (08 R425). -/
def laneKey (s : State) (bay slot lane : Nat) : QtzPlace × Nat × Nat := (.port bay 4, lane, (slot + 2) % s.qtzN)

theorem injectLane_withFlights {s : State} (hprobe : s.qtz.probe = none) (bay slot : Nat)
    (fl : Tbl (QtzPlace × Nat × Nat) Flit) (lane : Nat) :
    injectLane bay slot (s.withFlights fl) lane = s.withFlights
      (if laneSends s bay slot lane then fl.set (laneKey s bay slot lane) (laneFlit s bay slot lane) else fl) := by
  have hmark (f : Flit) (x : Nat × Nat × Nat) : probeMark x f (s.withFlights fl) = (f, s.withFlights fl) := by
    simp [probeMark, State.withFlights, hprobe]
  have hstop : (!(injectEntry s bay slot lane).valid || !(injectChan s bay slot lane).valid || s.fenced bay ||
      s.qtzMuted (outId bay 5) slot lane slot) = !laneSends s bay slot lane := by
    simp only [laneSends, Bool.not_and, Bool.not_not]
  simp only [injectLane, hmark]
  refine (if_congr (iff_of_eq (congrArg (· = true) hstop)) rfl rfl).trans ?_
  cases laneSends s bay slot lane <;> rfl

/-- Channels lose their valid bit. -/
def txSent (bay : Nat) (tx : Tbl (Nat × Nat) QtzChan) (e : QtzEntry) : Tbl (Nat × Nat) QtzChan :=
  tx.set (bay, e.port) { tx.get {} (bay, e.port) with valid := false }

section
variable (bay : Nat) (es : List QtzEntry) (tx : Tbl (Nat × Nat) QtzChan)

theorem get_txSent_other {k : Nat × Nat} (h : ∀ e ∈ es, k ≠ (bay, e.port)) :
    (es.foldl (txSent bay) tx).get {} k = tx.get {} k := by
  induction es generalizing tx with
  | nil => rfl
  | cons e es ih =>
    rw [List.foldl_cons, ih _ fun x hx => h x (List.mem_cons_of_mem e hx)]
    exact Tbl.get_set_ne _ _ _ (h e List.mem_cons_self).symm

theorem get_txSent_valid {k : Nat × Nat} (h : (tx.get {} k).valid = false ∨ ∃ e ∈ es, k = (bay, e.port)) :
    ((es.foldl (txSent bay) tx).get {} k).valid = false := by
  induction es generalizing tx with
  | nil => simpa using h
  | cons e es ih =>
    rw [List.foldl_cons]
    refine ih _ ?_
    by_cases hk : k = (bay, e.port)
    · left; rw [hk, txSent, Tbl.get_set_same]
    · rcases h with hold | ⟨x, hx, hkx⟩
      · left; rw [txSent, Tbl.get_set_ne _ _ _ fun h => hk h.symm, hold]
      · rcases List.mem_cons.mp hx with rfl | hx
        · exact absurd hkx hk
        · exact .inr ⟨x, hx, hkx⟩

end

/-- The channels of a list of entries are sent one after another. -/
theorem each_txSent (bay : Nat) (es : List QtzEntry) (s : State) :
    (s.each es fun t e => t.setQtz fun q =>
      { q with tx := q.tx.set (bay, e.port) { q.tx.get {} (bay, e.port) with valid := false } }) =
    { s with qtz := { s.qtz with tx := es.foldl (txSent bay) s.qtz.tx } } := by
  induction es generalizing s with
  | nil => rfl
  | cons e es ih => exact ih _

/-- What an injection slot of an active Quartz leaves (08 R421, R422). -/
def injected (s : State) (bay slot : Nat) : State :=
  { s with qtz := { s.qtz with
      flights := Tbl.setAll (laneSends s bay slot) (laneKey s bay slot) (laneFlit s bay slot) (List.range 4) s.qtz.flights,
      tx := (((List.range 4).map (injectEntry s bay slot)).filter (·.valid)).foldl (txSent bay) s.qtz.tx } }

theorem exec_quartzInjection {s : State} {bay : BayId} {slot : Fin 128} (hactive : s.qtzActive = true)
    (hclock : s.on F.NOC_STATUS_SWITCHING = false) (hslot : slot.val < s.qtzN) (hrail : s.railUp (bay.val / 16) = true)
    (hprobe : s.qtz.probe = none) : exec (.quartzInjection bay slot) s = .next (injected s bay.val slot.val) := by
  have hlanes := each_withFlights _ _ _ (injectLane_withFlights hprobe bay.val slot.val) (List.range 4) s.qtz.flights
  have hself : s.withFlights s.qtz.flights = s := rfl
  rw [hself] at hlanes
  show execQuartzInjection bay slot s = _
  simp only [execQuartzInjection, hactive, hclock, Nat.not_le.mpr hslot, hrail, hlanes, each_txSent]
  rfl

section
variable {s : State} {bay slot lane : Nat}

/-- A lane that sends reaches the bay's switch. -/
theorem injected_flight (hlane : lane < 4) (hsends : laneSends s bay slot lane = true) :
    (injected s bay slot).qtz.flights.find (laneKey s bay slot lane) = some (laneFlit s bay slot lane) := by
  refine Tbl.find_setAll _ _ _ (fun i _ j _ hkey => ?_) (List.mem_range.mpr hlane) hsends _
  exact (Prod.mk.inj (Prod.mk.inj hkey).2).1

theorem mem_sentEntries {e : QtzEntry} : e ∈ ((List.range 4).map (injectEntry s bay slot)).filter (·.valid) ↔
    ∃ lane < 4, injectEntry s bay slot lane = e ∧ e.valid = true := by
  simp only [List.mem_filter, List.mem_map, List.mem_range]
  exact ⟨fun ⟨⟨l, hl, he⟩, hv⟩ => ⟨l, hl, he, hv⟩, fun ⟨l, hl, he, hv⟩ => ⟨⟨l, hl, he⟩, hv⟩⟩

/-- A channel that a lane's valid entry names loses its valid bit. -/
theorem injected_tx_sent (hlane : lane < 4) (hvalid : (injectEntry s bay slot lane).valid = true) :
    ((injected s bay slot).qtz.tx.get {} (bay, (injectEntry s bay slot lane).port)).valid = false :=
  get_txSent_valid _ _ _ (.inr ⟨_, mem_sentEntries.mpr ⟨lane, hlane, rfl, hvalid⟩, rfl⟩)

/-- A channel that no valid entry names stands. -/
theorem injected_tx_other {k : Nat × Nat}
    (h : ∀ lane < 4, (injectEntry s bay slot lane).valid = true → k ≠ (bay, (injectEntry s bay slot lane).port)) :
    (injected s bay slot).qtz.tx.get {} k = s.qtz.tx.get {} k := by
  refine get_txSent_other _ _ _ fun e he => ?_
  obtain ⟨l, hl, rfl, hv⟩ := mem_sentEntries.mp he
  exact h l hl hv

end

/-! Parity (08 R446). -/

/-- A parity error records itself in registers, and leaves the number of slots. -/
theorem qtzParity_onlyRegs (link : Nat) (s : State) : OnlyRegs s (qtzParity link s) :=
  onlyRegs_put _ _ _ (onlyRegs_put _ _ _ (onlyRegs_put _ _ _ (onlyRegs_refl s)))

theorem qtzParity_qtzN (link : Nat) (s : State) : (qtzParity link s).qtzN = s.qtzN := by
  rw [State.qtzN, qtzParity, State.raise, State.get_put_apart (by decide), State.get_put_apart (by decide), State.bumpHold,
    State.get_put_apart (by decide), State.qtzN]

theorem qtzParity_count (link : Nat) (s : State) : (qtzParity link s).get F.QTZ_PAR_ERRS_COUNT =
    min (s.get F.QTZ_PAR_ERRS_COUNT + 1) (2 ^ F.QTZ_PAR_ERRS_COUNT.len - 1) := by
  rw [qtzParity, State.raise, State.get_put_apart (by decide), State.get_put_apart (by decide), State.bumpHold,
    State.get_put_same _ _ _ _ (by decide), Nat.mod_eq_of_lt]
  exact (min_le_right _ _).trans_lt (by decide)

theorem qtzParity_flag (link : Nat) (s : State) : (qtzParity link s).on F.QTZ_ERR_PARITY = true :=
  State.on_put_one (by decide) (by decide)

/-- Muting goes by the tables' state, the strobes and the number of slots (08 R439, R440). -/
theorem qtzMuted_congr {s t : State} (hqtz : t.qtz = s.qtz) (htmg : t.tmg = s.tmg) (hn : t.qtzN = s.qtzN)
    (id slot lane abs : Nat) : t.qtzMuted id slot lane abs = s.qtzMuted id slot lane abs := by
  simp only [State.qtzMuted, State.inWindow, hqtz, htmg, hn]

/-! Forwarding (08 R430 to R432). -/

/-- A flit arriving at a switch input: the input's place, and the cycles of the switch. -/
structure Arrival where
  port : Nat
  lane : Nat
  slot : Nat
  delay : Nat

/-- The slot in which the flit leaves, and the entry of an output lane for it. -/
def Arrival.leaves (a : Arrival) (s : State) : Nat := (a.slot + a.delay) % s.qtzN
def Arrival.entry (a : Arrival) (s : State) (ol : Nat × Nat) : QtzEntry := entryAt s.qtz.active ol.1 (a.leaves s) ol.2

/-- The output lane's entry names the flit's input and lane. -/
def Arrival.takes (a : Arrival) (s : State) (ol : Nat × Nat) : Bool :=
  (a.entry s ol).valid && (a.entry s ol).port == a.port && (a.entry s ol).lane == a.lane

/-- Where the flit arrives next through an output lane, and as what. -/
def Arrival.key (a : Arrival) (s : State) (ol : Nat × Nat) : QtzPlace × Nat × Nat :=
  ((outputLeads ol.1).1, ol.2, (a.leaves s + (outputLeads ol.1).2) % s.qtzN)
def Arrival.flit (a : Arrival) (s : State) (f : Flit) (ol : Nat × Nat) : Flit :=
  ({ f with valid := f.valid && !s.qtzMuted ol.1 (a.leaves s) ol.2 (a.slot + a.delay) } : Flit).later
    (a.delay + (outputLeads ol.1).2)

theorem forwardTo_withFlights (s : State) (a : Arrival) (f : Flit) (fl : Tbl (QtzPlace × Nat × Nat) Flit) (ol : Nat × Nat) :
    forwardTo a.port a.lane a.slot a.delay f (s.withFlights fl) ol =
      s.withFlights (if a.takes s ol then fl.set (a.key s ol) (a.flit s f ol) else fl) := by
  have htakes : forwardTo a.port a.lane a.slot a.delay f (s.withFlights fl) ol =
      if a.takes s ol then s.withFlights (fl.set (a.key s ol) (a.flit s f ol)) else s.withFlights fl := rfl
  rw [htakes]
  cases a.takes s ol <;> rfl

theorem arrival_congr {s t : State} (a : Arrival) (hqtz : t.qtz = s.qtz) (htmg : t.tmg = s.tmg) (hn : t.qtzN = s.qtzN) :
    a.takes t = a.takes s ∧ a.key t = a.key s ∧ ∀ f, a.flit t f = a.flit s f := by
  have hleaves : a.leaves t = a.leaves s := by simp only [Arrival.leaves, hn]
  refine ⟨?_, ?_, fun f => ?_⟩ <;> funext ol
  · simp only [Arrival.takes, Arrival.entry, hqtz, hleaves]
  · simp only [Arrival.key, hleaves, hn]
  · simp only [Arrival.flit, hleaves, qtzMuted_congr hqtz htmg hn]

/-- The arrival of a flit at a switch input. -/
def arrivalAt (p : QtzIn) : Arrival := ⟨p.port.val, p.lane.val, p.slot.val, if p.sw.val < 64 then 2 else 3⟩

/-- The output lanes of a switch. -/
def outputLanes (sw : Nat) : List (Nat × Nat) := (outputsOf sw).flatMap fun id => (List.range 4).map fun q => (id, q)

theorem mem_outputLanes {sw id q : Nat} : (id, q) ∈ outputLanes sw ↔ id ∈ outputsOf sw ∧ q < 4 := by
  simp [outputLanes]

/-- The parity error of an arriving flit, if it meets one, recorded on the output that sent it (08 R446). -/
def parityNoted (p : QtzIn) (upset : Bool) (s : State) : State :=
  s.when upset (qtzParity ((portDriver p.sw.val p.port.val).getD 0))

theorem parityNoted_onlyRegs (p : QtzIn) (upset : Bool) (s : State) : OnlyRegs s (parityNoted p upset s) :=
  onlyRegs_when (onlyRegs_refl s) (qtzParity_onlyRegs _ s)

/-- The error changes nothing of the way that the flit takes. -/
theorem arrival_parityNoted (a : Arrival) (p : QtzIn) (upset : Bool) (s : State) :
    a.takes (parityNoted p upset s) = a.takes s ∧ a.key (parityNoted p upset s) = a.key s ∧
      ∀ f, a.flit (parityNoted p upset s) f = a.flit s f := by
  cases upset
  · exact ⟨rfl, rfl, fun _ => rfl⟩
  · exact arrival_congr a rfl rfl (qtzParity_qtzN _ _)

/-- What an arriving flit leaves: the parity error, if any, and the flit on its way through the lanes that take it. -/
def forwarded (p : QtzIn) (upset : Bool) (f : Flit) (s : State) : State :=
  (parityNoted p upset s).withFlights
    (Tbl.setAll ((arrivalAt p).takes s) ((arrivalAt p).key s) ((arrivalAt p).flit s { f with valid := !upset })
      (outputLanes p.sw.val) (s.qtz.flights.erase (.port p.sw.val p.port.val, p.lane.val, p.slot.val)))

section
variable {p : QtzIn} {f : Flit} {s : State}

theorem exec_quartzFlitArrival (hactive : s.qtzActive = true) (hclock : s.on F.NOC_STATUS_SWITCHING = false)
    (hrail : p.sw.val < 64 → s.railUp (p.sw.val / 16) = true)
    (hfind : s.qtz.flights.find (.port p.sw.val p.port.val, p.lane.val, p.slot.val) = some f) (hvalid : f.valid = true)
    (hopen : s.bridgeShut p.sw.val p.port.val = false) (upset : Bool) :
    exec (.quartzFlitArrival p upset) s = .next (forwarded p upset f s) := by
  have hpowered : (decide (p.sw.val < 64) && !s.railUp (p.sw.val / 16)) = false := by
    simpa [or_iff_not_imp_left] using hrail
  obtain ⟨htakes, hkey, hflit⟩ := arrival_parityNoted (arrivalAt p) p upset s
  have hlanes := each_withFlights _ _ _
    (forwardTo_withFlights (parityNoted p upset s) (arrivalAt p) { f with valid := !upset })
    (outputLanes p.sw.val) (s.qtz.flights.erase (.port p.sw.val p.port.val, p.lane.val, p.slot.val))
  rw [htakes, hkey, hflit] at hlanes
  show execQuartzFlitArrival p upset s = _
  simp only [execQuartzFlitArrival, qtzTake, hclock, hfind, hactive, hpowered, hopen, hvalid, Bool.not_false, Bool.not_true,
    Bool.and_true, Bool.true_and, Bool.or_false, Bool.false_eq_true, if_false]
  rw [forwarded, ← hlanes]
  cases upset <;> rfl

/-- Each output lane that takes the flit has it on its way. -/
theorem forwarded_flight (upset : Bool) (hprobe : f.probe = none) {id q : Nat} (hid : id ∈ outputsOf p.sw.val) (hq : q < 4)
    (htakes : (arrivalAt p).takes s (id, q) = true) :
    (forwarded p upset f s).qtz.flights.find ((arrivalAt p).key s (id, q)) = some { f with
      valid := !upset && !s.qtzMuted id ((arrivalAt p).leaves s) q ((arrivalAt p).slot + (arrivalAt p).delay) } := by
  have hfind := Tbl.find_setAll ((arrivalAt p).takes s) ((arrivalAt p).key s) ((arrivalAt p).flit s { f with valid := !upset })
    (l := outputLanes p.sw.val) (fun i hi j hj hkey => ?_) (mem_outputLanes.mpr ⟨hid, hq⟩) htakes
    (s.qtz.flights.erase (.port p.sw.val p.port.val, p.lane.val, p.slot.val))
  · refine hfind.trans ?_
    simp only [Arrival.flit, Flit.later, hprobe, Option.map_none]
  · obtain ⟨hplace, hrest⟩ := Prod.mk.inj hkey
    exact Prod.ext (outputLeads_inj (mem_outputLanes.mp hj).1 (mem_outputLanes.mp hi).1 hplace) (Prod.mk.inj hrest).1

theorem forwarded_parity (p : QtzIn) (f : Flit) (s : State) :
    (forwarded p true f s).get F.QTZ_PAR_ERRS_COUNT =
        min (s.get F.QTZ_PAR_ERRS_COUNT + 1) (2 ^ F.QTZ_PAR_ERRS_COUNT.len - 1) ∧
      (forwarded p true f s).on F.QTZ_ERR_PARITY = true :=
  ⟨qtzParity_count _ s, qtzParity_flag _ s⟩

theorem forwarded_frame (p : QtzIn) (upset : Bool) (f : Flit) (s : State) : forwarded p upset f s = { s with
    regs := (forwarded p upset f s).regs, qtz := { s.qtz with flights := (forwarded p upset f s).qtz.flights } } := by
  obtain ⟨r, hr⟩ : ∃ r, parityNoted p upset s = { s with regs := r } := ⟨_, parityNoted_onlyRegs p upset s⟩
  rw [forwarded, hr]; rfl

end

/-! Reception (08 R423, R446). -/

/-- What an endpoint takes of a flit that is no probe. -/
theorem qtzEndpoint_flit {place : QtzPlace} {slot lane : Nat} {s : State} {f : Flit}
    (hfind : s.qtz.flights.find (place, lane, (slot + 2) % s.qtzN) = some f) (hprobe : f.probe = none) (id : Nat) (upset : Bool)
    (extra : Nat) : qtzEndpoint place id slot lane upset extra s = (some { f with valid := f.valid && !upset },
      (s.withFlights (s.qtz.flights.erase (place, lane, (slot + 2) % s.qtzN))).when (f.valid && upset) (qtzParity id)) := by
  simp only [qtzEndpoint, qtzTake, hfind, probeArrive, hprobe]
  split
  next h => cases h
  next => rfl

/-- What a receive channel leaves that takes a flit: the parity error, if any, and its contents. -/
def received (bay ch : Nat) (key : QtzPlace × Nat × Nat) (upset : Bool) (f : Flit) (s : State) : State :=
  ((s.withFlights (s.qtz.flights.erase key)).when (f.valid && upset) (qtzParity (outId bay 4))).setQtz fun q =>
    { q with rx := q.rx.set (bay, ch) ⟨f.data, f.tag, f.valid && !upset⟩ }

theorem exec_receiveChannelUpdate {s : State} {bay : BayId} {lane : Fin 4} {slot : Fin 128} {f : Flit}
    (hactive : s.qtzActive = true) (hslot : slot.val < s.qtzN) (hrail : s.railUp (bay.val / 16) = true) (hprobe : f.probe = none)
    (hvalid : (entryAt s.qtz.active (outId bay.val 4) slot.val lane.val).valid = true)
    (hfind : s.qtz.flights.find (.recv bay.val, lane.val, (slot.val + 2) % s.qtzN) = some f) (upset : Bool) :
    exec (.receiveChannelUpdate bay lane slot upset) s = .next (received bay.val
      (entryAt s.qtz.active (outId bay.val 4) slot.val lane.val).ch (.recv bay.val, lane.val, (slot.val + 2) % s.qtzN)
      upset f s) := by
  show execReceiveChannelUpdate bay lane slot upset s = _
  simp only [execReceiveChannelUpdate, hactive, Nat.not_le.mpr hslot, hrail, hvalid, qtzEndpoint_flit hfind hprobe]
  rfl

/-- Quartz after a receive channel has taken a flit. -/
theorem received_qtz (bay ch : Nat) (key : QtzPlace × Nat × Nat) (upset : Bool) (f : Flit) (s : State) :
    (received bay ch key upset f s).qtz = { s.qtz with
      flights := s.qtz.flights.erase key, rx := s.qtz.rx.set (bay, ch) ⟨f.data, f.tag, f.valid && !upset⟩ } := by
  rw [received]
  cases f.valid && upset <;> rfl

theorem received_parity {f : Flit} (h : f.valid = true) (bay ch : Nat) (key : QtzPlace × Nat × Nat) (s : State) :
    (received bay ch key true f s).on F.QTZ_ERR_PARITY = true := by
  rw [received, h]; exact qtzParity_flag _ _

theorem received_regs (bay ch : Nat) (key : QtzPlace × Nat × Nat) (f : Flit) (s : State) :
    (received bay ch key false f s).regs = s.regs := by
  rw [received, Bool.and_false]; rfl

end Sys2Proof.Machine
end

section
/-! Traces, probes and kept tables (08 R438, R442, R444, R1018). -/

namespace Sys2Proof.Machine

section
variable {s : State} {w : W32} (hgo : bit w.toNat 31 = true)
include hgo

/-- A trace begins: its destination is noted, and DONE is 0. -/
theorem completes_trace_begun (hactive : s.qtzActive = true) (hfree : s.qtz.trace = none) :
    Completes (.trace w) s fun t =>
      t.qtz.trace = some (bits w.toNat 0 12, bits w.toNat 16 7, bits w.toNat 24 2) ∧ t.on F.QTZ_TRACE_RES_DONE = false ∧
      t = { s with regs := t.regs, qtz := { s.qtz with trace := t.qtz.trace } } ∧
      RegsBut s t [R.QTZ_TRACE.addr 0, R.QTZ_TRACE_RES.addr 0] := by
  refine ⟨((s.wrCodes R.QTZ_TRACE 0 (BitVec.ofNat 64 w.toNat) false).clear F.QTZ_TRACE_RES_DONE).setQtz fun q =>
    { q with trace := some (bits w.toNat 0 12, bits w.toNat 16 7, bits w.toNat 24 2) },
    ?_, rfl, State.on_put_zero (by decide), rfl, ?_⟩
  · show execTrace w s = _
    simp [execTrace, qtzTraceWrite, hgo, hactive, hfree]
  · exact regsBut_put (s := s) _ _ _ (regsBut_mono (wrCodes_regsBut s _ _ _ _) (by decide)) (by decide)

/-- On an inactive Quartz a trace ends at once, without a source. -/
theorem completes_trace_inactive (hactive : s.qtzActive = false) (hfree : s.qtz.trace = none) :
    Completes (.trace w) s fun t => t.rd R.QTZ_TRACE_RES = 1 ∧ t.on F.QTZ_ERR_TRACE_DONE = true ∧ t.qtz = s.qtz := by
  refine ⟨((s.wrCodes R.QTZ_TRACE 0 (BitVec.ofNat 64 w.toNat) false).wr R.QTZ_TRACE_RES 0 1).raise F.QTZ_ERR_TRACE_DONE, ?_, ?_,
    State.on_put_one (by decide) (by decide), rfl⟩
  · show execTrace w s = _
    simp [execTrace, qtzTraceWrite, hgo, hactive, hfree]
  · exact (State.rd_wr_ne _ _ _ _ (by decide)).trans (State.rd_wr_same _ _ _ _)

/-- A trace while another is under way is refused. -/
theorem completes_trace_refused (hbusy : s.qtz.trace ≠ none) :
    Completes (.trace w) s fun t => t.on F.QTZ_ERR_WRITE_REFUSED = true ∧ t.qtz = s.qtz := by
  refine ⟨(s.wrCodes R.QTZ_TRACE 0 (BitVec.ofNat 64 w.toNat) false).raise F.QTZ_ERR_WRITE_REFUSED, ?_,
    State.on_put_one (by decide) (by decide), rfl⟩
  show execTrace w s = _
  simp [execTrace, qtzTraceWrite, hgo, Option.isSome_iff_ne_none.mpr hbusy]

/-- A probe begins: its destination and the source that the trace finds are noted, and DONE is 0. -/
theorem completes_probe_begun (hactive : s.qtzActive = true) (hfree : s.qtz.probe = none) :
    Completes (.probe w) s fun t =>
      t.qtz.probe = some (Probe.mk (bits w.toNat 0 12) (bits w.toNat 16 7) (bits w.toNat 24 2)
        ((s.traceOf (bits w.toNat 0 12) (bits w.toNat 16 7) (bits w.toNat 24 2)).map fun r => (r.1, r.2.2.1, r.2.2.2.1))
        false none) ∧
      t.on F.QTZ_PROBE_RES_DONE = false ∧ t = { s with regs := t.regs, qtz := { s.qtz with probe := t.qtz.probe } } := by
  refine ⟨((s.wrCodes R.QTZ_PROBE 0 (BitVec.ofNat 64 w.toNat) false).clear F.QTZ_PROBE_RES_DONE).setQtz fun q =>
    { q with probe := _ }, ?_, rfl, State.on_put_zero (by decide), rfl⟩
  show execProbe w s = _
  simp [execProbe, qtzProbeWrite, hgo, hactive, hfree]

/-- A probe while another is under way is refused. -/
theorem completes_probe_refused (hbusy : s.qtz.probe ≠ none) :
    Completes (.probe w) s fun t => t.on F.QTZ_ERR_WRITE_REFUSED = true ∧ t.qtz = s.qtz := by
  refine ⟨(s.wrCodes R.QTZ_PROBE 0 (BitVec.ofNat 64 w.toNat) false).raise F.QTZ_ERR_WRITE_REFUSED, ?_,
    State.on_put_one (by decide) (by decide), rfl⟩
  show execProbe w s = _
  simp [execProbe, qtzProbeWrite, hgo, Option.isSome_iff_ne_none.mpr hbusy]

end

section
variable {s : State}

theorem exec_traceDone {id slot lane : Nat} (h : s.qtz.trace = some (id, slot, lane)) : exec .traceDone s = .next
    (({ s with qtz := { s.qtz with trace := none } }.wr R.QTZ_TRACE_RES 0 (BitVec.ofNat 64
      (match s.traceOf id slot lane with
        | some (src, ch, sl, _, lat) => 3 + src * 4 + ch * 2 ^ 14 + sl * 2 ^ 17 + lat % 256 * 2 ^ 24
        | none => 1))).put F.QTZ_ERR_TRACE_DONE 0 1) := by
  show execTraceDone s = _
  simp only [execTraceDone, h]
  rfl

theorem exec_probeDone {p : Probe} {n : Nat} (hp : s.qtz.probe = some p) (hn : p.arrived = some n) : exec .probeDone s = .next
    ((({ s with qtz := { s.qtz with probe := none } }.put F.QTZ_PROBE_RES_DONE 0 1).put F.QTZ_PROBE_RES_LAT 0 n).put
      F.QTZ_ERR_PROBE_DONE 0 1) := by
  obtain ⟨id, slot, lane, src, marked, arrived⟩ := p
  subst hn
  show execProbeDone s = _
  simp only [execProbeDone, hp]
  rfl

theorem exec_probeLost {p : Probe} (hp : s.qtz.probe = some p) (hn : p.arrived = none) : exec .probeLost s = .next
    ({ s with qtz := { s.qtz with probe := none } }.put F.QTZ_ERR_PROBE_LOST 0 1) := by
  obtain ⟨id, slot, lane, src, marked, arrived⟩ := p
  subst hn
  show execProbeLost s = _
  simp only [execProbeLost, hp]
  rfl

/-- The state after a slab has loaded its kept tables (08 R438). -/
def tablesReloaded (k : Nat) (s : State) : State :=
  (qtzSwitchOver (fun id => idSlab id == k) s.qtz.kept s.qtz.keptEqd s).setQtz fun q =>
    { q with owing := q.owing.filter (· != k), loading := q.loading.filter (· != k) }

theorem exec_slabTableReload {slab : Fin 4} (hload : slab.val ∈ s.qtz.loading) (hfence : s.slabFenced slab = false)
    (hrail : s.railUp slab = true) : exec (.slabTableReload slab) s = .next (tablesReloaded slab.val s) := by
  show execSlabTableReload slab s = _
  simp [execSlabTableReload, hload, hfence, hrail, tablesReloaded]

theorem tablesReloaded_active (k id slot : Nat) : (tablesReloaded k s).qtz.active.get 0 (id, slot) =
    if idSlab id = k then s.qtz.kept.get 0 (id, slot) else s.qtz.active.get 0 (id, slot) := by
  have hactive : (tablesReloaded k s).qtz.active = tablesFrom (fun id => idSlab id == k) s.qtz.active s.qtz.kept := rfl
  rw [hactive, get_tablesFrom]
  simp only [beq_iff_eq]

theorem tablesReloaded_settled (k : Nat) : k ∉ (tablesReloaded k s).qtz.owing ∧ k ∉ (tablesReloaded k s).qtz.loading := by
  constructor <;> exact fun h => by simpa using (List.mem_filter.mp h).2

end
end Sys2Proof.Machine
end

section
/-! Flits, wiring, traces and probes, put together (08 R420 to R446). -/

namespace Sys2Proof.Machine

/-- Settles O27: each row by its equation, its flits by the runs of table updates, the wiring by what drives each place. -/
theorem quartzPaths : Obligations.QuartzPaths := by
  refine ⟨fun s => ⟨fun _ _ _ _ => rfl, ?_, ?_, ?_⟩, ⟨?_, fun a b sw ha hb _ h => outputLeads_inj ha hb h⟩,
    fun s => ⟨fun w hgo => ⟨completes_trace_begun hgo, completes_trace_inactive hgo, completes_trace_refused hgo,
      completes_probe_begun hgo, completes_probe_refused hgo⟩, fun _ _ _ => exec_traceDone, fun _ _ => exec_probeDone,
      fun _ => exec_probeLost, ?_⟩⟩
  · intro bay slot hactive hclock hslot hrail hprobe
    refine ⟨_, exec_quartzInjection hactive hclock hslot hrail hprobe, fun lane hlane => ⟨injected_tx_sent hlane, ?_⟩,
      fun b k => injected_tx_other, rfl⟩
    intro hvalid hfilled hfence hmuted
    have hsends : laneSends s bay.val slot.val lane = true := by
      simp only [laneSends, Bool.and_eq_true, Bool.not_eq_true']; exact ⟨⟨⟨hvalid, hfilled⟩, hfence⟩, hmuted⟩
    exact injected_flight hlane hsends
  · intro p upset f hactive hclock hrail hfind hprobe hvalid hopen
    refine ⟨_, exec_quartzFlitArrival hactive hclock hrail hfind hvalid hopen upset, fun id hid q hq => ?_, ?_, ?_,
      forwarded_frame p upset f s⟩
    · intro o e hev hep hel
      have htakes : (arrivalAt p).takes s (id, q) = true := by
        simp only [Arrival.takes, Bool.and_eq_true, beq_iff_eq]; exact ⟨⟨hev, hep⟩, hel⟩
      exact forwarded_flight upset hprobe hid hq htakes
    · rintro rfl; exact forwarded_parity p f s
    · rintro rfl; rfl
  · intro bay lane slot upset f hactive hslot hrail hprobe hvalid hfind
    have hqtz := received_qtz bay.val (entryAt s.qtz.active (outId bay.val 4) slot.val lane.val).ch
      (.recv bay.val, lane.val, (slot.val + 2) % s.qtzN) upset f s
    refine ⟨_, exec_receiveChannelUpdate hactive hslot hrail hprobe hvalid hfind upset, ?_, fun k hk => ?_, ?_, ?_, ?_⟩
    · rw [hqtz]; exact Tbl.get_set_same _ _ _ _
    · rw [hqtz]; exact Tbl.get_set_ne _ _ _ hk.symm
    · rw [hqtz]; exact Tbl.find_erase_same _ _
    · rintro hf rfl; exact received_parity hf _ _ _ s
    · rintro rfl; exact received_regs _ _ _ f s
  · intro id hlt hid sw p hleads h5
    refine ⟨?_, fun id' hmem _ => inputExists_outputLeads hlt hid hleads h5 hmem⟩
    have hdriver := placeDriver_outputLeads hlt hid h5
    rwa [hleads] at hdriver
  · intro slab hload hfence hrail
    obtain ⟨howing, hloading⟩ := tablesReloaded_settled (s := s) slab.val
    exact ⟨_, exec_slabTableReload hload hfence hrail, fun id slot h => (tablesReloaded_active _ _ _).trans (if_pos h),
      fun id slot h => (tablesReloaded_active _ _ _).trans (if_neg h), howing, hloading, rfl⟩

end Sys2Proof.Machine
end

section
/-! The address composer of a Verdict port (09 R463): each field replaces the address bits above those of the fields below it. -/

namespace Sys2Proof.Machine

/-- Width and request offset of a composer's field, and the place in the address that its lowest bit takes. -/
def fieldWidth (fields f : Nat) : Nat := bits fields (16 * f + 8) 5
def fieldOffset (fields f : Nat) : Nat := bits fields (16 * f) 6
def fieldPlace (fields f : Nat) : Nat := ((List.range f).map (fieldWidth fields)).sum

theorem fieldPlace_succ (fields n : Nat) : fieldPlace fields (n + 1) = fieldPlace fields n + fieldWidth fields n := by
  simp [fieldPlace, List.range_succ]

theorem fieldPlace_mono {fields m n : Nat} (h : m ≤ n) : fieldPlace fields m ≤ fieldPlace fields n := by
  induction n, h using Nat.le_induction with
  | base => exact le_rfl
  | succ n _ ih => rw [fieldPlace_succ]; exact ih.trans (Nat.le_add_right _ _)

/-- The composer's step for one field: the address so far, and the place that comes next. -/
def composeField (fields req : Nat) (a : Nat × Nat) (f : Nat) : Nat × Nat :=
  if fieldWidth fields f = 0 then a
  else (a.1 - bits a.1 a.2 (fieldWidth fields f) * 2 ^ a.2 +
    bits req (fieldOffset fields f) (fieldWidth fields f) * 2 ^ a.2, a.2 + fieldWidth fields f)

/-- The address and the next place after the fields below `n`. -/
def composeFields (base fields req n : Nat) : Nat × Nat := (List.range n).foldl (composeField fields req) (base, 0)

theorem vrdCompose_eq (base fields req : Nat) : vrdCompose base fields req = (composeFields base fields req 4).1 % 2 ^ 22 := rfl

theorem composeFields_succ (base fields req n : Nat) :
    composeFields base fields req (n + 1) = composeField fields req (composeFields base fields req n) n := by
  simp [composeFields, List.range_succ]

/-- A field's step replaces its bits of the address; a field of width 0 has none. -/
theorem composeField_eq {fields req f : Nat} {a : Nat × Nat} (ha : a.1 < 2 ^ 64) (hfit : a.2 + fieldWidth fields f ≤ 64) :
    composeField fields req a f = ((setBits (BitVec.ofNat 64 a.1) a.2 (fieldWidth fields f)
      (bits req (fieldOffset fields f) (fieldWidth fields f))).toNat, a.2 + fieldWidth fields f) := by
  have hv : bits req (fieldOffset fields f) (fieldWidth fields f) % 2 ^ fieldWidth fields f =
      bits req (fieldOffset fields f) (fieldWidth fields f) := Nat.mod_mod _ _
  rw [setBits_toNat _ _ hfit, BitVec.toNat_ofNat, Nat.mod_eq_of_lt ha, hv, composeField]
  split
  next h => simp [h, bits, Nat.mod_one]
  next => rfl

/-- What the fields below `n` leave: their bits in their places, and the base above them. -/
structure Composed (base fields req n : Nat) (a : Nat × Nat) : Prop where
  place : a.2 = fieldPlace fields n
  lt : a.1 < 2 ^ 64
  field : ∀ f k, f < n → k < fieldWidth fields f →
    a.1.testBit (fieldPlace fields f + k) = req.testBit (fieldOffset fields f + k)
  above : ∀ j, fieldPlace fields n ≤ j → a.1.testBit j = base.testBit j

theorem composed_composeFields {base fields req : Nat} (hbase : base < 2 ^ 64) {n : Nat} (hfit : fieldPlace fields n ≤ 64) :
    Composed base fields req n (composeFields base fields req n) := by
  induction n with
  | zero => exact ⟨rfl, hbase, fun f k h => absurd h (Nat.not_lt_zero f), fun _ _ => rfl⟩
  | succ n ih =>
    rw [fieldPlace_succ] at hfit
    obtain ⟨hplace, hlt, hfield, habove⟩ := ih (Nat.le_of_add_right_le hfit)
    rw [← hplace] at hfit
    rw [composeFields_succ, composeField_eq hlt hfit]
    set a := composeFields base fields req n
    have hout (k : Nat) (hk : k < a.2 ∨ a.2 + fieldWidth fields n ≤ k) := testBit_setBits_out (BitVec.ofNat 64 a.1)
      (bits req (fieldOffset fields n) (fieldWidth fields n)) k hfit hk
    rw [BitVec.toNat_ofNat, Nat.mod_eq_of_lt hlt] at hout
    refine ⟨by rw [hplace, fieldPlace_succ], BitVec.isLt _, fun f k hf hk => ?_, fun j hj => ?_⟩
    · rcases Nat.lt_succ_iff_lt_or_eq.mp hf with hlower | rfl
      · have hend : fieldPlace fields f + fieldWidth fields f ≤ a.2 := by
          rw [hplace, ← fieldPlace_succ]; exact fieldPlace_mono hlower
        rw [hout _ (.inl (by omega)), hfield f k hlower hk]
      · have hsame := congrArg (·.testBit k) (bits_setBits_same (BitVec.ofNat 64 a.1)
          (bits req (fieldOffset fields f) (fieldWidth fields f)) hfit)
        simpa [testBit_bits, Nat.testBit_mod_two_pow, hk, hplace] using hsame
    · rw [fieldPlace_succ] at hj
      rw [hout j (.inr (by omega)), habove j (Nat.le_of_add_right_le hj)]

/-- The composed address: the bits of each field, and the base above the last (09 R463). -/
theorem vrdCompose_bits {base fields req : Nat} (hbase : base < 2 ^ 22) (hfit : fieldPlace fields 4 ≤ 22) :
    vrdCompose base fields req < 2 ^ 22 ∧
    (∀ f k, f < 4 → k < fieldWidth fields f →
      bit (vrdCompose base fields req) (fieldPlace fields f + k) = bit req (fieldOffset fields f + k)) ∧
    ∀ j, fieldPlace fields 4 ≤ j → j < 22 → bit (vrdCompose base fields req) j = bit base j := by
  obtain ⟨-, -, hfield, habove⟩ := composed_composeFields (req := req) (hbase.trans (by decide)) (hfit.trans (by decide))
  have hlow {j : Nat} (hj : j < 22) : bit (vrdCompose base fields req) j = (composeFields base fields req 4).1.testBit j := by
    rw [bit_eq_testBit, vrdCompose_eq, Nat.testBit_mod_two_pow, decide_eq_true hj, Bool.true_and]
  refine ⟨Nat.mod_lt _ (by decide), fun f k hf hk => ?_, fun j hj hlt => ?_⟩
  · have hend : fieldPlace fields f + fieldWidth fields f ≤ fieldPlace fields 4 := by
      rw [← fieldPlace_succ]; exact fieldPlace_mono hf
    rw [hlow (by omega), hfield f k hf hk, bit_eq_testBit]
  · rw [hlow hlt, habove j hj, bit_eq_testBit]

end Sys2Proof.Machine
end

section
/-! Reads of a stored word of the Verdict Table (09 R458, R488, R489): what one meets, and what it leaves. -/

namespace Sys2Proof.Machine

/-- A listed word that nothing strikes is read as it is stored, with the error it carries. -/
theorem vrdRead_unstruck {s : State} {k : VrdPlace} {w : W64} (h : s.vrd.words.find k = some w) :
    vrdRead k .none s = (⟨w, s.vrd.flaws.get .none k, s.vrd.flaws.get .none k, w, false⟩, s) := by
  simp [vrdRead, vrdStored, h, meet_none]

/-- A clean word struck in one bit keeps the error and is read corrected. -/
theorem vrdRead_struck {s : State} {k : VrdPlace} {w : W64} (h : s.vrd.words.find k = some w)
    (hclean : s.vrd.flaws.find k = none) : vrdRead k .single s =
      (⟨w, .single, .single, w, false⟩, (s.setVrd fun v => { v with flaws := v.flaws.set k .single }).fresh) := by
  simp [vrdRead, vrdStored, h, Tbl.get, hclean, meet, strike]

section
variable {s : State} {k : VrdPlace} {w : W64} (h : s.vrd.words.find k = some w) (addr source : Nat)
include h

theorem vrdProtectedRead_clean (hclean : s.vrd.flaws.find k = none) :
    vrdProtectedRead k addr source .none s = (⟨w, .none, .none, w, false⟩, s) := by
  simp [vrdProtectedRead, vrdRead_unstruck h, Tbl.get, hclean]

theorem vrdProtectedRead_struck (hclean : s.vrd.flaws.find k = none) : vrdProtectedRead k addr source .single s =
    (⟨w, .single, .single, w, false⟩,
      vrdCorrected k (s.setVrd fun v => { v with flaws := v.flaws.set k .single }).fresh) := by
  simp [vrdProtectedRead, vrdRead_struck h hclean]

theorem vrdProtectedRead_uncorrectable (hbad : s.vrd.flaws.find k = some .double) : vrdProtectedRead k addr source .none s =
    (⟨w, .double, .double, w, false⟩,
      s.setVrd fun v => { v with second := v.second ++ [⟨k.1, k.2.1, k.2.2, addr, source⟩] }) := by
  simp [vrdProtectedRead, vrdRead_unstruck h, Tbl.get, hbad]

end

end Sys2Proof.Machine
end

section
/-! Lookups of the Verdict Table (09 R457, R460 to R468, R488, R489). -/

namespace Sys2Proof.Machine

/-- Which replica serves each port, by the number of replicas in service (09 R468). -/
theorem vrdServes_table (v : Verdict) {p : Nat} (hp : p < 8) :
    ((vrdService v).length = 4 → vrdServes v p = some (p / 2)) ∧
    ((vrdService v).length = 2 ∨ (vrdService v).length = 3 → vrdServes v p = if p < 4 then (vrdService v)[p / 2]? else none) ∧
    ((vrdService v).length = 1 → vrdServes v p = if p < 2 then (vrdService v)[0]? else none) := by
  refine ⟨fun h => ?_, fun h => ?_, fun h => ?_⟩
  · have hall : vrdService v = List.range 4 := List.filter_eq_self.mpr (List.length_filter_eq_length_iff.mp h)
    have hlt : p / 2 < 4 := by omega
    rw [vrdServes, h, hall]
    simp [hlt]
  · rcases h with h | h <;> simp only [vrdServes, h]
  · simp only [vrdServes, h]

/-- The flit that leaves a port ten cycles after its request, on its way to Geode input 64 + port (09 R461). -/
def resultSent (port : Fin 8) (slot : Fin 128) (d : W64) (valid : Bool) (x : State) (tag : W16) : State :=
  let at_ := (slot.val + 12) % x.qtzN
  let m := probeMark (0x440 + port.val, at_, 0) ⟨d, tag, valid, none⟩ x
  qtzSend (.port 64 (64 + port.val)) 0 at_ m.1 m.2

/-- The logical address that the port composes for a request (09 R463). -/
def lookupAddr (s : State) (p req : Nat) : Nat :=
  vrdCompose (bits (s.vrd.ctrl.get 0 p) 8 22) (s.vrd.fields.get 0 p) req

/-- The stored word of an address in a replica (09 R454, R458). -/
def lookupWord (s : State) (r addr : Nat) : VrdPlace := (r, vrdMap s.vrd r (addr / 65536), addr % 65536 / 4)

/-- The data of a valid result (09 R466). -/
def lookupData (s : State) (addr entry : Nat) (err : Bool) (req : W64) : W64 :=
  BitVec.ofNat 64 (entry + addr * 2 ^ 16 + ofFlag err * 2 ^ 38 + s.vrd.swaps.get 0 (addr / 65536) % 2 * 2 ^ 39
    + req.toNat / 2 ^ 40 * 2 ^ 40)

/-- The port counts a lookup. -/
def lookupCounted (p : Nat) (x : State) : State :=
  x.put F.VRD_PORT_LOOKUPS_COUNT p (x.get F.VRD_PORT_LOOKUPS_COUNT p + 1)

theorem vrdResult_eq (s : State) (addr entry : Nat) (err : Bool) (req : W64) :
    vrdResult entry addr err (s.vrd.swaps.get 0 (addr / 65536) % 2 == 1) req = lookupData s addr entry err req := by
  have hbit : ofFlag (s.vrd.swaps.get 0 (addr / 65536) % 2 == 1) = s.vrd.swaps.get 0 (addr / 65536) % 2 := by
    rcases Nat.mod_two_eq_zero_or_one (s.vrd.swaps.get 0 (addr / 65536)) with h | h <;> rw [h] <;> rfl
  rw [vrdResult, hbit, lookupData]

section
variable {s u : State} {port : Fin 8} {slot : Fin 128} {parity : Bool} {f : Flit}
  (hgot : qtzEndpoint (.verdict port.val) (0x440 + port.val) slot.val 0 parity 0 s = (some f, u))
include hgot

/-- A request that is not answered gives an invalid flit with data 0 (09 R457, R462). -/
theorem exec_lookup_unanswered (hno : f.valid = false ∨ s.vrdReady = false ∨ bit (s.vrd.ctrl.get 0 port.val) 0 = false ∨
      vrdServes s.vrd port.val = none) (up : Upset) :
    exec (.lookup port slot parity up) s = .next (resultSent port slot 0 false { u with free := u.free + 1 }
      ((Config.freeWord u.free).setWidth 16)) := by
  show execLookup port slot parity up s = _
  simp only [execLookup, hgot]
  cases hserve : vrdServes s.vrd port.val with
  | none => rfl
  | some r =>
    have hdead : (!f.valid || !s.vrdReady || !bit (s.vrd.ctrl.get 0 port.val) 0) = true := by
      simpa [hserve, or_assoc] using hno
    simp only [hdead, if_true]
    rfl

/-- A request that is answered: what its read meets decides the entry. -/
theorem exec_lookup_answered {r addr : Nat} (hvalid : f.valid = true) (hready : s.vrdReady = true)
    (hen : bit (s.vrd.ctrl.get 0 port.val) 0 = true) (hserve : vrdServes s.vrd port.val = some r)
    (haddr : lookupAddr s port.val f.data.toNat = addr) {up : Upset} {m : Met W64} {t : State}
    (hmet : vrdProtectedRead (lookupWord s r addr) (addr / 4 * 4) 0 up u = (m, t)) :
    exec (.lookup port slot parity up) s = .next (resultSent port slot
      (lookupData s addr (if m.seen == .double then s.get F.VRD_CTRL_ERR_VALUE else bits m.data.toNat (16 * (addr % 4)) 16)
        (m.seen == .double) f.data) true (lookupCounted port.val t) f.tag) := by
  have hlive : (!f.valid || !s.vrdReady || !bit (s.vrd.ctrl.get 0 port.val) 0) = false := by simp [hvalid, hready, hen]
  rw [← vrdResult_eq]
  subst haddr
  show execLookup port slot parity up s = _
  simp only [execLookup, hgot, hserve, hlive]
  simp only [lookupWord, lookupAddr] at hmet
  rw [if_neg Bool.false_ne_true, hmet]
  rfl

end

/-- Settles O28: the composer bit by bit, the table of R468, and one equation per kind of lookup. -/
theorem verdictLookup : Obligations.VerdictLookup := by
  refine ⟨fun base fields req hbase hfit => vrdCompose_bits hbase hfit, fun v p hp => vrdServes_table v hp, ?_⟩
  intro s u port slot parity f hgot
  refine ⟨fun hno up => exec_lookup_unanswered hgot hno up, fun r hvalid hready hen hserve => ?_⟩
  -- each equation is elaborated apart from the goal, whose bindings it then unifies with at once
  have answered {up : Upset} {m : Met W64} {t : State} := exec_lookup_answered (up := up) (m := m) (t := t) hgot hvalid hready
    hen hserve rfl
  refine fun w hword => ⟨fun hclean => ?_, fun hclean => ?_, fun hbad => ?_⟩
  · have h := answered (vrdProtectedRead_clean hword _ _ hclean)
    exact h
  · have h := answered (vrdProtectedRead_struck hword _ _ hclean)
    exact h
  · have h := answered (vrdProtectedRead_uncorrectable hword _ _ hbad)
    exact h

end Sys2Proof.Machine
end

section
/-! The swap of the live bank and the spare (09 R482, R483). -/

namespace Sys2Proof.Machine

/-- In one replica, logical bank `b` and the spare exchange their physical banks. -/
theorem vrdMap_vrdSwapMap (b : Nat) (v : Verdict) (a r k : Nat) :
    vrdMap (vrdSwapMap b v a) r k = if r = a then vrdMap v r (Equiv.swap b 64 k) else vrdMap v r k := by
  have hget : vrdMap (vrdSwapMap b v a) r k =
      ((v.maps.set (a, b) (vrdMap v a 64)).set (a, 64) (vrdMap v a b)).get k (r, k) := rfl
  rw [hget]
  by_cases hr : r = a
  · subst hr
    rw [if_pos rfl]
    by_cases hspare : k = 64
    · rw [hspare, Tbl.get_set_same, Equiv.swap_apply_right]
    · rw [Tbl.get_set_ne _ _ _ fun h => hspare (Prod.mk.inj h).2.symm]
      by_cases hb : k = b
      · rw [hb, Tbl.get_set_same, Equiv.swap_apply_left]
      · rw [Tbl.get_set_ne _ _ _ fun h => hb (Prod.mk.inj h).2.symm, Equiv.swap_apply_of_ne_of_ne hb hspare, vrdMap]
  · rw [if_neg hr, Tbl.get_set_ne _ _ _ fun h => hr (Prod.mk.inj h).1.symm,
      Tbl.get_set_ne _ _ _ fun h => hr (Prod.mk.inj h).1.symm, vrdMap]

/-- Each replica of a list without repetition exchanges the two, and every other stands. -/
theorem vrdMap_foldl_vrdSwapMap (b : Nat) {l : List Nat} (hnodup : l.Nodup) (v : Verdict) (r k : Nat) :
    vrdMap (l.foldl (vrdSwapMap b) v) r k = if r ∈ l then vrdMap v r (Equiv.swap b 64 k) else vrdMap v r k := by
  induction l generalizing v with
  | nil => rfl
  | cons a l ih =>
    obtain ⟨ha, hl⟩ := List.nodup_cons.mp hnodup
    rw [List.foldl_cons, ih hl, vrdMap_vrdSwapMap, vrdMap_vrdSwapMap]
    by_cases hr : r = a
    · subst hr; simp [ha]
    · simp [hr]

theorem foldl_vrdSwapMap_maps (b : Nat) (l : List Nat) (v : Verdict) :
    l.foldl (vrdSwapMap b) v = { v with maps := (l.foldl (vrdSwapMap b) v).maps } := by
  induction l generalizing v with
  | nil => rfl
  | cons a l ih => exact ih (vrdSwapMap b v a)

theorem vrdService_nodup (v : Verdict) : (vrdService v).Nodup := List.nodup_range.filter _

theorem mem_vrdService {v : Verdict} {r : Nat} : r ∈ vrdService v ↔ r < 4 ∧ r ∉ v.retired := by
  simp [vrdService, vrdInService]

/-- The exchange of two entries below 65 is a permutation of the 65. -/
theorem range_map_swap_perm {b : Nat} (hb : b < 65) : ((List.range 65).map (Equiv.swap b 64)).Perm (List.range 65) := by
  refine (List.perm_ext_iff_of_nodup (List.nodup_range.map (Equiv.injective _)) List.nodup_range).mpr fun k => ?_
  have hlt (j : Nat) (hj : j < 65) : Equiv.swap b 64 j < 65 := by
    rw [Equiv.swap_apply_def]; split_ifs <;> omega
  simp only [List.mem_map, List.mem_range]
  exact ⟨fun ⟨j, hj, hjk⟩ => hjk ▸ hlt j hj, fun hk => ⟨Equiv.swap b 64 k, hlt k hk, Equiv.swap_apply_self _ _ _⟩⟩

/-- The table after the swap of bank `b` (09 R483). -/
def vrdSwapped (b : Nat) (v : Verdict) : Verdict :=
  { (vrdService v).foldl (vrdSwapMap b) v with swaps := v.swaps.set b (v.swaps.get 0 b + 1), staged := none, swap := none }

theorem vrdSwapped_eq (b : Nat) (v : Verdict) : vrdSwapped b v =
    { v with maps := (vrdSwapped b v).maps, swaps := v.swaps.set b (v.swaps.get 0 b + 1), staged := none, swap := none } := by
  have h := foldl_vrdSwapMap_maps b (vrdService v) v
  rw [vrdSwapped, h]

theorem vrdMap_vrdSwapped (b : Nat) (v : Verdict) (r k : Nat) :
    vrdMap (vrdSwapped b v) r k = if r < 4 ∧ r ∉ v.retired then vrdMap v r (Equiv.swap b 64 k) else vrdMap v r k :=
  (vrdMap_foldl_vrdSwapMap b (vrdService_nodup v) v r k).trans (if_congr mem_vrdService rfl rfl)

/-- A map that is a permutation of the physical banks stays one. -/
theorem vrdSwapped_perm {b : Nat} (hb : b < 65) {v : Verdict} {r : Nat}
    (h : ((List.range 65).map (vrdMap v r)).Perm (List.range 65)) :
    ((List.range 65).map (vrdMap (vrdSwapped b v) r)).Perm (List.range 65) := by
  by_cases hr : r < 4 ∧ r ∉ v.retired
  · have hmap : (List.range 65).map (vrdMap (vrdSwapped b v) r) =
        ((List.range 65).map (Equiv.swap b 64)).map (vrdMap v r) := by
      rw [List.map_map]
      exact List.map_congr_left fun k _ => (vrdMap_vrdSwapped b v r k).trans (if_pos hr)
    rw [hmap]
    exact ((range_map_swap_perm hb).map _).trans h
  · have hmap : vrdMap (vrdSwapped b v) r = vrdMap v r := funext fun k => (vrdMap_vrdSwapped b v r k).trans (if_neg hr)
    rwa [hmap]

/-- The swap took place at another crossing than the one given for it. -/
def swapLate (s : State) (at_ : Option W64) : Bool := at_ != none && at_ != some (s.rd R.TMG_CN)

/-- The state after the swap: maps and count, the crossing recorded, and the error bits. -/
def swapDone (b : Nat) (at_ : Option W64) (s : State) : State :=
  (((s.setVrd (vrdSwapped b)).wr R.VRD_SWAP_DONE_CN 0 (s.rd R.TMG_CN)).raise F.VRD_ERR_SWAP_DONE).when (swapLate s at_)
    (·.raise F.VRD_ERR_SWAP_LATE)

section
variable (b : Nat) (at_ : Option W64) (s : State)

theorem swapDone_vrd : (swapDone b at_ s).vrd = vrdSwapped b s.vrd := by
  rw [swapDone]; cases swapLate s at_ <;> rfl

theorem swapDone_frame : swapDone b at_ s = { s with regs := (swapDone b at_ s).regs, vrd := vrdSwapped b s.vrd } := by
  rw [swapDone]; cases swapLate s at_ <;> rfl

theorem swapDone_crossing : (swapDone b at_ s).rd R.VRD_SWAP_DONE_CN = s.rd R.TMG_CN := by
  have hput (t : State) (f : Fld) (hf : f.reg = R.VRD_ERR) : (t.put f 0 1).rd R.VRD_SWAP_DONE_CN = t.rd R.VRD_SWAP_DONE_CN := by
    rw [State.put, State.rd_wr_ne _ _ _ _ (by rw [hf]; decide)]
  have hdone : (((s.setVrd (vrdSwapped b)).wr R.VRD_SWAP_DONE_CN 0 (s.rd R.TMG_CN)).raise F.VRD_ERR_SWAP_DONE).rd
      R.VRD_SWAP_DONE_CN = s.rd R.TMG_CN := (hput _ _ rfl).trans (State.rd_wr_same _ _ _ _)
  rw [swapDone]
  cases swapLate s at_
  · exact hdone
  · exact (hput _ _ rfl).trans hdone

theorem swapDone_flag : (swapDone b at_ s).on F.VRD_ERR_SWAP_DONE = true := by
  have hdone (t : State) : (t.raise F.VRD_ERR_SWAP_DONE).on F.VRD_ERR_SWAP_DONE = true := State.on_put_one (by decide) (by decide)
  rw [swapDone, State.on_when, hdone, State.raise, State.on_put_apart (by decide), hdone, ite_self]

theorem swapDone_late : (swapDone b at_ s).on F.VRD_ERR_SWAP_LATE = (s.on F.VRD_ERR_SWAP_LATE || swapLate s at_) := by
  have hkept : (((s.setVrd (vrdSwapped b)).wr R.VRD_SWAP_DONE_CN 0 (s.rd R.TMG_CN)).raise F.VRD_ERR_SWAP_DONE).on
      F.VRD_ERR_SWAP_LATE = s.on F.VRD_ERR_SWAP_LATE := by
    rw [State.raise, State.on_put_apart (by decide), State.on, State.get_wr_apart (by decide)]; rfl
  rw [swapDone, State.on_when, hkept, State.raise, State.on_put_one (by decide) (by decide)]
  cases swapLate s at_ <;> simp

theorem swapDone_regsBut : RegsBut s (swapDone b at_ s) [R.VRD_SWAP_DONE_CN.addr 0, R.VRD_ERR.addr 0] := by
  have hdone : RegsBut s (((s.setVrd (vrdSwapped b)).wr R.VRD_SWAP_DONE_CN 0 (s.rd R.TMG_CN)).raise F.VRD_ERR_SWAP_DONE)
      [R.VRD_SWAP_DONE_CN.addr 0, R.VRD_ERR.addr 0] :=
    regsBut_put _ _ _ (regsBut_wr _ _ _ (regsBut_regs _ rfl) (by decide)) (by decide)
  exact regsBut_when hdone (regsBut_put _ _ _ hdone (by decide))

end

section
variable {s : State} {b : Nat} {at_ : Option W64} (hstaged : s.vrd.staged = some b) (hswap : s.vrd.swap = some at_)
  (hrun : s.boundariesRun = true)
include hstaged hswap

/-- A swap for a later crossing stays pending. -/
theorem exec_swap_waits {c : W64} (hat : at_ = some c) (hlt : s.rd R.TMG_CN < c) : exec .swap s = .next s := by
  have hdue : ¬ c.toNat ≤ (s.rd R.TMG_CN).toNat := Nat.not_le.mpr hlt
  show execSwap s = _
  subst hat
  simp [execSwap, hstaged, hswap, hdue]

include hrun

theorem exec_swap_due (hdue : ∀ c, at_ = some c → c ≤ s.rd R.TMG_CN) : exec .swap s = .next (swapDone b at_ s) := by
  show execSwap s = _
  cases at_ with
  | none => simp only [execSwap, hstaged, hswap, hrun]; rfl
  | some c =>
    have hle : c.toNat ≤ (s.rd R.TMG_CN).toNat := hdue c rfl
    have hlate : swapLate s (some c) = (c != s.rd R.TMG_CN) := rfl
    simp only [execSwap, swapDone, hstaged, hswap, hrun, hle, hlate]; rfl

end

/-- Settles O29: the exchange of two entries of each map in service, and what the step records. -/
theorem verdictSwap : Obligations.VerdictSwap := by
  intro s b at_ hstaged hb hswap hrun
  refine ⟨fun ⟨c, hat, hlt⟩ => exec_swap_waits hstaged hswap hat hlt, fun hdue => ⟨_, exec_swap_due hstaged hswap hrun hdue, ?_⟩⟩
  have hmap (r k : Nat) := vrdMap_vrdSwapped b s.vrd r k
  beta_reduce
  rw [swapDone_vrd]
  refine ⟨fun r hr => ⟨fun hin => ?_, fun k _ hk => ?_, vrdSwapped_perm (by omega)⟩, Tbl.get_set_same _ _ _ _,
    fun k hk => Tbl.get_set_ne _ _ _ hk.symm, swapDone_crossing b at_ s, swapDone_flag b at_ s, swapDone_late b at_ s,
    vrdSwapped_eq b s.vrd, swapDone_frame b at_ s, swapDone_regsBut b at_ s⟩
  · rw [hmap, hmap, if_pos ⟨hr, hin⟩, if_pos ⟨hr, hin⟩, Equiv.swap_apply_left, Equiv.swap_apply_right]
    exact ⟨rfl, rfl⟩
  · rw [hmap]
    split
    next hin =>
      obtain ⟨hb, hspare⟩ := hk.resolve_left hin.2
      rw [Equiv.swap_apply_of_ne_of_ne hb hspare]
    next => rfl

end Sys2Proof.Machine
end

section
/-! Registers whose fields a write under the access codes takes (00 R13), and the domain of the Verdict Table (01 R46). -/

namespace Sys2Proof.Machine

/-- A field that lies in the RW bits of its register takes the bits written. -/
theorem get_wrCodes_rw {f : Fld} {r : Reg} (hreg : f.reg = r) (hlocks : r.rwl = 0) (hclears : r.w1c = 0)
    (hrw : ∀ k < f.len, f.lo + k < 64 ∧ r.rw.testBit (f.lo + k) = true) (s : State) (i : Nat) (v : W64) :
    (s.wrCodes r i v false).get f i = bits v.toNat f.lo f.len := by
  refine Nat.eq_of_testBit_eq fun k => ?_
  rw [State.get, hreg, rd_wrCodes rfl rfl, hlocks, hclears, testBit_bits, testBit_bits]
  by_cases hk : k < f.len
  · obtain ⟨hlt, hbit⟩ := hrw k hk
    simp only [BitVec.testBit_toNat, BitVec.getLsbD_and, BitVec.getLsbD_or, BitVec.getLsbD_not, BitVec.getLsbD_ofNat, hlt, hbit,
      Nat.or_zero]
    simp
  · simp [hk]

/-- A write of a register apart from PWR_DOM_STATE switches no domain. -/
theorem domOn_wr_apart {r : Reg} (h : r.apart R.PWR_DOM_STATE = true) (s : State) (i d : Nat) (v : W64) :
    (s.wr r i v).domOn d = s.domOn d := by rw [State.domOn, State.get_wr_apart h, State.domOn]

theorem domOn_put_apart {f : Fld} (h : f.reg.apart R.PWR_DOM_STATE = true) (s : State) (i d v : Nat) :
    (s.put f i v).domOn d = s.domOn d := domOn_wr_apart h s i d _

theorem vrdAct_on {s : State} (h : s.domOn 84 = true) (g : State → State) : vrdAct g s = g s := if_pos h

theorem vrdRefuse_on (s : State) : (vrdRefuse s).on F.VRD_ERR_CFG_REFUSED = true := State.on_put_one (by decide) (by decide)

end Sys2Proof.Machine
end

section
/-! Writes of VRD_STAGE and VRD_SWAP, and the loader engine (09 R478 to R482, R486). -/

namespace Sys2Proof.Machine

/-- VRD_STAGE and VRD_SWAP as a write leaves them. -/
def stageStored (w : W32) (s : State) : State := s.wrCodes R.VRD_STAGE 0 (BitVec.ofNat 64 w.toNat) false
def swapStored (w : W32) (s : State) : State := s.put F.VRD_SWAP_AT_CN 0 (w.toNat / 2)

theorem stageStored_bank (w : W32) (s : State) : (stageStored w s).get F.VRD_STAGE_BANK = w.toNat % 64 := by
  rw [stageStored, get_wrCodes_rw (f := F.VRD_STAGE_BANK) (r := R.VRD_STAGE) rfl rfl rfl (by decide),
    BitVec.toNat_ofNat, Nat.mod_eq_of_lt (w.isLt.trans (by decide))]
  simp [F.VRD_STAGE_BANK, bits]

theorem stageStored_bcast (w : W32) (s : State) : (stageStored w s).on F.VRD_STAGE_BCAST = bit w.toNat 10 := by
  rw [State.on, stageStored, get_wrCodes_rw (f := F.VRD_STAGE_BCAST) (r := R.VRD_STAGE) rfl rfl rfl (by decide),
    BitVec.toNat_ofNat, Nat.mod_eq_of_lt (w.isLt.trans (by decide))]
  simp [F.VRD_STAGE_BCAST, bits, bit]

/-- A write of VRD_STAGE that asks for something, while PD84 is on: DISARM first, then ARM (09 R486). -/
theorem vrdStageWrite_acts {s : State} {w : W32} (hon : s.domOn 84 = true)
    (hasks : bit w.toNat 8 = true ∨ bit w.toNat 11 = true) : vrdStageWrite w.toNat s =
      if bit w.toNat 11 && s.vrd.swap.isSome then vrdRefuse (stageStored w s)
      else ((stageStored w s).when (bit w.toNat 11) vrdDisarm).when (bit w.toNat 8) (vrdArm w.toNat) := by
  have hasks' : (!bit w.toNat 8 && !bit w.toNat 11) = false := by rcases hasks with h | h <;> simp [h]
  rw [vrdStageWrite, hasks', if_neg Bool.false_ne_true]
  have honStored : (stageStored w s).domOn 84 = true := (domOn_wr_apart (r := R.VRD_STAGE) (by decide) s 0 84 _).trans hon
  exact vrdAct_on honStored _

section
variable {s : State} {w : W32} (hon : s.domOn 84 = true)
include hon

theorem exec_arm_stages (harm : bit w.toNat 8 = true) (hkeep : bit w.toNat 11 = false) (hfree : s.vrd.staged = none)
    (hidle : s.vrd.job = .idle) : exec (.arm w) s = .next ((stageStored w s).setVrd fun v =>
      { v with staged := some (w.toNat % 64), job := if bit w.toNat 9 then .copy else .idle }) := by
  have hopen : ((stageStored w s).vrd.staged.isSome || (stageStored w s).vrd.job != .idle) = false := by
    change (s.vrd.staged.isSome || s.vrd.job != .idle) = false
    simp [hfree, hidle]
  show Host.Outcome.next (vrdStageWrite w.toNat s) = _
  rw [vrdStageWrite_acts hon (.inl harm), hkeep, harm]
  exact congrArg _ ((if_neg (Bool.eq_false_iff.mp hopen)))

theorem exec_arm_refused (harm : bit w.toNat 8 = true) (hkeep : bit w.toNat 11 = false)
    (hbusy : s.vrd.staged ≠ none ∨ s.vrd.job ≠ .idle) : exec (.arm w) s = .next (vrdRefuse (stageStored w s)) := by
  have hshut : ((stageStored w s).vrd.staged.isSome || (stageStored w s).vrd.job != .idle) = true := by
    change (s.vrd.staged.isSome || s.vrd.job != .idle) = true
    simpa [Option.isSome_iff_ne_none] using hbusy
  show Host.Outcome.next (vrdStageWrite w.toNat s) = _
  rw [vrdStageWrite_acts hon (.inl harm), hkeep, harm]
  exact congrArg _ (if_pos hshut)

theorem exec_disarm_ends (hdis : bit w.toNat 11 = true) (harm : bit w.toNat 8 = false) (hswap : s.vrd.swap = none) :
    exec (.disarm w) s = .next (vrdDisarm (stageStored w s)) := by
  show Host.Outcome.next (vrdStageWrite w.toNat s) = _
  rw [vrdStageWrite_acts hon (.inr hdis), hdis, harm, hswap]
  rfl

theorem exec_disarm_refused (hdis : bit w.toNat 11 = true) (hswap : s.vrd.swap ≠ none) :
    exec (.disarm w) s = .next (vrdRefuse (stageStored w s)) := by
  show Host.Outcome.next (vrdStageWrite w.toNat s) = _
  rw [vrdStageWrite_acts hon (.inr hdis), hdis, Option.isSome_iff_ne_none.mpr hswap]
  rfl

theorem exec_loaderGo_starts {b : Nat} (hstaged : s.vrd.staged = some b) (hidle : s.vrd.job = .idle) :
    exec .loaderGo s = .next { s with vrd := { s.vrd with job := .load } } := by
  show Host.Outcome.next (vrdLoaderGo s) = _
  rw [vrdLoaderGo, vrdAct_on hon, hstaged, hidle]
  rfl

theorem exec_loaderGo_refused (h : s.vrd.staged = none ∨ s.vrd.job ≠ .idle) :
    exec .loaderGo s = .next (s.put F.VRD_ERR_CFG_REFUSED 0 1) := by
  have hshut : (s.vrd.staged.isNone || s.vrd.job != .idle) = true := by simpa using h
  show Host.Outcome.next (vrdLoaderGo s) = _
  rw [vrdLoaderGo, vrdAct_on hon, hshut]
  rfl

/-- A write of VRD_SWAP with GO, while PD84 is on (09 R482). -/
theorem vrdSwapWrite_go (hgo : bit w.toNat 0 = true) : vrdSwapWrite w.toNat s =
    if s.vrd.staged.isSome && s.vrd.job == .idle && s.vrd.swap.isNone then
      (swapStored w s).setVrd fun v => { v with swap := some (if bit w.toNat 1 then some (s.rd R.VRD_SWAP_CN) else none) }
    else vrdRefuse (swapStored w s) := by
  have hcn : (s.put F.VRD_SWAP_AT_CN 0 (w.toNat / 2)).rd R.VRD_SWAP_CN = s.rd R.VRD_SWAP_CN :=
    State.rd_wr_ne _ _ _ _ (by decide)
  rw [vrdSwapWrite, hgo, if_neg (by decide), vrdAct_on ((domOn_put_apart (by decide) s 0 84 _).trans hon), hcn]
  rfl

theorem exec_swapGo_pends (hgo : bit w.toNat 0 = true) (hstaged : s.vrd.staged ≠ none) (hidle : s.vrd.job = .idle)
    (hfree : s.vrd.swap = none) : exec (.swapGo w) s = .next ((swapStored w s).setVrd fun v =>
      { v with swap := some (if bit w.toNat 1 then some (s.rd R.VRD_SWAP_CN) else none) }) := by
  show Host.Outcome.next (vrdSwapWrite w.toNat s) = _
  rw [vrdSwapWrite_go hon hgo, Option.isSome_iff_ne_none.mpr hstaged, hidle, hfree]
  rfl

theorem exec_swapGo_refused (hgo : bit w.toNat 0 = true)
    (h : s.vrd.staged = none ∨ s.vrd.job ≠ .idle ∨ s.vrd.swap ≠ none) :
    exec (.swapGo w) s = .next (vrdRefuse (swapStored w s)) := by
  have hshut : ¬ (s.vrd.staged.isSome && s.vrd.job == .idle && s.vrd.swap.isNone) = true := by
    simp only [Bool.and_eq_true, Option.isSome_iff_ne_none, Option.isNone_iff_eq_none, beq_iff_eq]
    tauto
  show Host.Outcome.next (vrdSwapWrite w.toNat s) = _
  rw [vrdSwapWrite_go hon hgo, if_neg hshut]

end

theorem exec_loadErr {s : State} (h : s.vrd.job = .load) : exec .loadErr s =
    .next (((vrdSparesUndef s).setVrd fun v => { v with job := .idle }).raise F.VRD_ERR_LOAD_ERR) :=
  congrArg Host.Outcome.next (if_pos h)

/-- The end of a staging leaves everything but the staging, the job and the contents of spares; of an idle table, those too. -/
theorem vrdDisarm_frame (s : State) : vrdDisarm s = { s with vrd := { s.vrd with
    words := (vrdDisarm s).vrd.words, flaws := (vrdDisarm s).vrd.flaws, back := (vrdDisarm s).vrd.back,
    undef := (vrdDisarm s).vrd.undef, staged := none, job := .idle } } := by
  rw [vrdDisarm]; cases s.vrd.job != .idle <;> rfl

theorem vrdDisarm_idle {s : State} (h : s.vrd.job = .idle) :
    vrdDisarm s = s.setVrd fun v => { v with staged := none, job := .idle } := by
  rw [vrdDisarm, h]; rfl

end Sys2Proof.Machine
end

section
/-! Tables whose entries are given other keys. -/

namespace Sys2Proof.Tbl
variable {κ α : Type} [DecidableEq κ]

theorem find_erase_ne (t : Tbl κ α) {k q : κ} (h : k ≠ q) : find (t.erase k) q = find t q := by
  have hfilter := find_filter (fun x => decide (x ≠ k)) t q
  simpa [erase, h.symm] using hfilter

/-- A table none of whose keys is listed is empty. -/
theorem eq_nil_of_find {t : Tbl κ α} (h : ∀ k, find t k = none) : t = [] := by
  cases t with
  | nil => rfl
  | cons e t => simpa [find] using h e.1

/-- A key of the selected entries' new keys reads what the one old key that it stands for reads. -/
theorem find_rekey {p : κ → Bool} {g : κ → κ} {k q : κ} (h : ∀ x, p x = true → (g x = q ↔ x = k)) (hk : p k = true)
    (t : Tbl κ α) : find ((t.filter fun e => p e.1).map fun e => (g e.1, e.2)) q = find t k := by
  induction t with
  | nil => rfl
  | cons e t ih =>
    cases hp : p e.1 with
    | false =>
      have hne : e.1 ≠ k := by rintro rfl; simp [hk] at hp
      simpa [hp, find, hne] using ih
    | true => simpa [hp, find, h e.1 hp] using congrArg _ ih

/-- A key that is no entry's new key reads nothing. -/
theorem find_rekey_none {p : κ → Bool} {g : κ → κ} {q : κ} (h : ∀ x, p x = true → g x ≠ q)
    (t : Tbl κ α) : find ((t.filter fun e => p e.1).map fun e => (g e.1, e.2)) q = none := by
  induction t with
  | nil => rfl
  | cons e t ih =>
    cases hp : p e.1 with
    | false => simpa [hp] using ih
    | true => simpa [hp, find, h e.1 hp] using ih

end Sys2Proof.Tbl
end

section
/-! The copy of a live bank into the spares (09 R479), of a table without errors or undefined words. -/

namespace Sys2Proof.Machine

/-- The words of a table with those of bank `dst` of replica `r` replaced by the words of bank `src`. -/
def wordsCopied (r src dst : Nat) (t : Tbl VrdPlace W64) : Tbl VrdPlace W64 :=
  t.filter (fun e => !(e.1.1 == r && e.1.2.1 == dst))
    ++ (t.filter fun e => e.1.1 == r && e.1.2.1 == src).map fun e => ((r, dst, e.1.2.2), e.2)

theorem find_wordsCopied (r src dst : Nat) (t : Tbl VrdPlace W64) (q p w : Nat) :
    Tbl.find (wordsCopied r src dst t) (q, p, w) = if q = r ∧ p = dst then Tbl.find t (r, src, w) else Tbl.find t (q, p, w) := by
  have hkept := Tbl.find_filter (fun k => !(k.1 == r && k.2.1 == dst)) t (q, p, w)
  rw [wordsCopied, Tbl.find_append, hkept]
  by_cases hdst : q = r ∧ p = dst
  · obtain ⟨rfl, rfl⟩ := hdst
    have hcopy := Tbl.find_rekey (p := fun k => k.1 == q && k.2.1 == src) (g := fun k => (q, p, k.2.2)) (q := (q, p, w))
      (k := (q, src, w)) (by rintro ⟨a, b, c⟩ h; simp_all) (by simp) t
    simp [hcopy]
  · have hnone := Tbl.find_rekey_none (p := fun k => k.1 == r && k.2.1 == src) (g := fun k => (r, dst, k.2.2)) (q := (q, p, w))
      (by rintro ⟨a, b, c⟩ _ h; simp_all) t
    rw [hnone, if_neg hdst, Option.or_none]
    exact if_pos (by simpa [imp_iff_not_or] using hdst)

/-- The table after the copy in one replica. -/
def replicaCopied (b : Nat) (v : Verdict) (r : Nat) : Verdict :=
  { v with words := wordsCopied r (vrdMap v r b) (vrdMap v r 64) v.words,
           back := v.back.filter fun k => !(k.1 == r && k.2.1 == vrdMap v r 64) }

theorem vrdCopyReplica_clean {s : State} (hflaws : s.vrd.flaws = []) (hundef : s.vrd.undef = []) (b r : Nat) :
    vrdCopyReplica b s r = s.setVrd (replicaCopied b · r) := by
  simp [vrdCopyReplica, replicaCopied, wordsCopied, State.setVrd, State.each, hflaws, hundef]

theorem each_vrdCopyReplica_clean (b : Nat) (l : List Nat) {s : State} (hflaws : s.vrd.flaws = []) (hundef : s.vrd.undef = []) :
    s.each l (vrdCopyReplica b) = s.setVrd (l.foldl (replicaCopied b)) := by
  induction l generalizing s with
  | nil => rfl
  | cons r l ih =>
    have hstep : s.each (r :: l) (vrdCopyReplica b) = (vrdCopyReplica b s r).each l (vrdCopyReplica b) := rfl
    rw [hstep, vrdCopyReplica_clean hflaws hundef]
    exact ih (s := s.setVrd (replicaCopied b · r)) hflaws hundef

theorem foldl_replicaCopied_frame (b : Nat) (l : List Nat) (v : Verdict) : l.foldl (replicaCopied b) v =
    { v with words := (l.foldl (replicaCopied b) v).words, back := (l.foldl (replicaCopied b) v).back } := by
  induction l generalizing v with
  | nil => rfl
  | cons r l ih => exact ih (replicaCopied b v r)

/-- In each replica of the list the spare reads as the live bank did; every other bank stands. -/
theorem find_foldl_replicaCopied (b : Nat) {l : List Nat} (hnodup : l.Nodup) (v : Verdict) (r p w : Nat) :
    (l.foldl (replicaCopied b) v).words.find (r, p, w) =
      if r ∈ l ∧ p = vrdMap v r 64 then v.words.find (r, vrdMap v r b, w) else v.words.find (r, p, w) := by
  induction l generalizing v with
  | nil => simp
  | cons a l ih =>
    obtain ⟨ha, hl⟩ := List.nodup_cons.mp hnodup
    have hmap (k : Nat) : vrdMap (replicaCopied b v a) r k = vrdMap v r k := rfl
    have hwords (q : Nat) : (replicaCopied b v a).words.find (r, q, w) =
        if r = a ∧ q = vrdMap v a 64 then v.words.find (a, vrdMap v a b, w) else v.words.find (r, q, w) :=
      find_wordsCopied _ _ _ _ _ _ _
    rw [List.foldl_cons, ih hl, hmap, hmap, hwords, hwords]
    by_cases hr : r = a
    · subst hr; simp [ha]
    · simp [hr]

/-- The table after the copy. -/
def bankCopied (b : Nat) (v : Verdict) : Verdict := { (vrdService v).foldl (replicaCopied b) v with job := .idle }

theorem bankCopied_frame (b : Nat) (v : Verdict) :
    bankCopied b v = { v with words := (bankCopied b v).words, back := (bankCopied b v).back, job := .idle } := by
  have h := foldl_replicaCopied_frame b (vrdService v) v
  rw [bankCopied, h]

theorem bankCopied_word (b : Nat) (v : Verdict) (r p w : Nat) : (bankCopied b v).words.find (r, p, w) =
    if (r < 4 ∧ r ∉ v.retired) ∧ p = vrdMap v r 64 then v.words.find (r, vrdMap v r b, w) else v.words.find (r, p, w) :=
  (find_foldl_replicaCopied b (vrdService_nodup v) v r p w).trans (if_congr (and_congr_left' mem_vrdService) rfl rfl)

theorem exec_bankCopyDone_clean {s : State} {b : Nat} (hstaged : s.vrd.staged = some b) (hjob : s.vrd.job = .copy)
    (hflaws : s.vrd.flaws = []) (hundef : s.vrd.undef = []) : exec (.bankCopyDone []) s = .next (s.setVrd (bankCopied b)) := by
  have heach := each_vrdCopyReplica_clean b (vrdService s.vrd) hflaws hundef
  show execBankCopyDone [] s = _
  simp only [execBankCopyDone, hstaged, hjob]
  show Host.Outcome.next ((s.each (vrdService s.vrd) (vrdCopyReplica b)).setVrd _) = _
  rw [heach]
  rfl

end Sys2Proof.Machine
end

section
/-! Staging, put together: what each command completes with (09 R478 to R482, R486). -/

namespace Sys2Proof.Machine

theorem completes_refused {i : Instr} {s u : State} (hexec : exec i s = .next (vrdRefuse u)) (hvrd : u.vrd = s.vrd) :
    Completes i s fun t => t.vrd = s.vrd ∧ t.on F.VRD_ERR_CFG_REFUSED = true := ⟨_, hexec, hvrd, vrdRefuse_on u⟩

section
variable {s : State} {w : W32} (hon : s.domOn 84 = true)
include hon

theorem completes_arm (harm : bit w.toNat 8 = true) (hkeep : bit w.toNat 11 = false) (hfree : s.vrd.staged = none)
    (hidle : s.vrd.job = .idle) : Completes (.arm w) s fun t =>
      t.vrd = { s.vrd with staged := some (w.toNat % 64), job := if bit w.toNat 9 then .copy else .idle } ∧
      t.get F.VRD_STAGE_BANK = w.toNat % 64 ∧ t.on F.VRD_STAGE_BCAST = bit w.toNat 10 ∧
      t = { s with regs := t.regs, vrd := t.vrd } ∧ RegsBut s t [R.VRD_STAGE.addr 0] :=
  ⟨_, exec_arm_stages hon harm hkeep hfree hidle, rfl, stageStored_bank w s, stageStored_bcast w s, rfl,
    wrCodes_regsBut s R.VRD_STAGE 0 _ false⟩

theorem completes_disarm (hdis : bit w.toNat 11 = true) (harm : bit w.toNat 8 = false) (hswap : s.vrd.swap = none) :
    Completes (.disarm w) s fun t => t.vrd.staged = none ∧ t.vrd.job = .idle ∧
      t.vrd.maps = s.vrd.maps ∧ t.on F.VRD_ERR_LOAD_ERR = s.on F.VRD_ERR_LOAD_ERR ∧
      (s.vrd.job = .idle → t.vrd.words = s.vrd.words) ∧ RegsBut s t [R.VRD_STAGE.addr 0] := by
  have hregs : (vrdDisarm (stageStored w s)).regs = (stageStored w s).regs := by rw [vrdDisarm_frame]
  have hbut : RegsBut s (vrdDisarm (stageStored w s)) [R.VRD_STAGE.addr 0] :=
    regsBut_trans (wrCodes_regsBut s R.VRD_STAGE 0 _ false) (regsBut_regs _ hregs)
  refine ⟨_, exec_disarm_ends hon hdis harm hswap, rfl, rfl, ?_, regsBut_on hbut (by decide), fun hidle => ?_, hbut⟩
  · rw [vrdDisarm_frame]; rfl
  · rw [vrdDisarm_idle (s := stageStored w s) hidle]; rfl

theorem completes_swapGo (hgo : bit w.toNat 0 = true) (hstaged : s.vrd.staged ≠ none) (hidle : s.vrd.job = .idle)
    (hfree : s.vrd.swap = none) : Completes (.swapGo w) s fun t =>
      t.vrd = { s.vrd with swap := some (if bit w.toNat 1 then some (s.rd R.VRD_SWAP_CN) else none) } ∧
      t = { s with regs := t.regs, vrd := t.vrd } ∧ RegsBut s t [R.VRD_SWAP.addr 0] :=
  ⟨_, exec_swapGo_pends hon hgo hstaged hidle hfree, rfl, rfl, regsBut_put _ _ _ (regsBut_refl s _) (by decide)⟩

end

theorem completes_loadErr {s : State} (h : s.vrd.job = .load) : Completes .loadErr s fun t =>
    t.on F.VRD_ERR_LOAD_ERR = true ∧ t.vrd.job = .idle ∧ t.vrd.staged = s.vrd.staged ∧ t.vrd.maps = s.vrd.maps ∧
    t = { s with regs := t.regs, vrd := t.vrd } ∧ RegsBut s t [R.VRD_ERR.addr 0] :=
  ⟨_, exec_loadErr h, State.on_put_one (by decide) (by decide), rfl, rfl, rfl, rfl,
    regsBut_put _ _ _ (regsBut_regs _ rfl) (by decide)⟩

/-- The copy of a table without errors or undefined words: each spare in service reads as its live bank. -/
theorem completes_bankCopyDone {s : State} {b : Nat} (hstaged : s.vrd.staged = some b) (hjob : s.vrd.job = .copy)
    (hflaws : ∀ k, s.vrd.flaws.find k = none) (hundef : s.vrd.undef = []) : Completes (.bankCopyDone []) s fun t =>
      t.vrd.job = .idle ∧ t.vrd.staged = some b ∧ t.vrd.maps = s.vrd.maps ∧ t.regs = s.regs ∧
      (∀ r w, r < 4 → r ∉ s.vrd.retired →
        t.vrd.words.get 0 (r, vrdMap s.vrd r 64, w) = s.vrd.words.get 0 (r, vrdMap s.vrd r b, w)) ∧
      (∀ r p w, (r ∈ s.vrd.retired ∨ p ≠ vrdMap s.vrd r 64) → t.vrd.words.get 0 (r, p, w) = s.vrd.words.get 0 (r, p, w)) := by
  have hframe := bankCopied_frame b s.vrd
  refine ⟨_, exec_bankCopyDone_clean hstaged hjob (Tbl.eq_nil_of_find hflaws) hundef, rfl, ?_, ?_, rfl, fun r w hr hin => ?_,
    fun r p w hout => ?_⟩
  · exact (congrArg Verdict.staged hframe).trans hstaged
  · exact (congrArg Verdict.maps hframe).trans rfl
  · exact congrArg (Option.getD · 0) ((bankCopied_word b s.vrd r _ w).trans (if_pos ⟨⟨hr, hin⟩, rfl⟩))
  · refine congrArg (Option.getD · 0) ((bankCopied_word b s.vrd r p w).trans (if_neg ?_))
    rintro ⟨⟨-, hin⟩, hp⟩
    exact hout.elim hin fun hne => hne hp

end Sys2Proof.Machine
end

section
/-! The loader window (09 R474 to R477, R485): what is refused, and the accesses that are not. -/

namespace Sys2Proof.Machine

/-- The window access reaches the spare: its bank is staged, and its replica in service (09 R478). -/
def windowStaged (q : WinReq) (s : State) : Bool :=
  vrdInService s.vrd q.rep.val && s.vrd.staged == some (q.off.toNat / 131072)

/-- The places that a window write reaches, with the words of the window. -/
def windowPlaces (q : WinReq) (s : State) : List (VrdPlace × Nat) :=
  (vrdWriteBanks s q.rep.val (q.off.toNat / 131072)).flatMap fun kb =>
    (vrdWords q.off.toNat q.data.length).map fun w => ((kb.1, kb.2, w % 16384), w)

/-- The read of a word that must be merged: the first uncorrectable one stops the write (09 R492). -/
def windowLook (a : Option (VrdPlace × Nat) × Upset × State) (p : VrdPlace × Nat) : Option (VrdPlace × Nat) × Upset × State :=
  let (m, t) := vrdRead p.1 a.2.1 a.2.2
  (if a.1.isNone && m.seen == .double then some p else a.1, .none, t)

/-- A window write that nothing refuses (09 R492). -/
def windowWritten (q : WinReq) (u : Upset) (s : State) : Resp × State :=
  let (bad, _, s1) := ((windowPlaces q s).filter fun p => !wholeWord q.off.toNat q.data.length p.2).foldl windowLook (none, u, s)
  match bad with
  | some (k, w) => (.uncorrectable, vrdLog (w * 4) k.2.1 k.1 2 false s1)
  | none => (.okay, s1.each (windowPlaces q s) fun t p =>
      if wholeWord q.off.toNat q.data.length p.2 then vrdStore p.1 (mergeWord 0 q.off.toNat q.data p.2) t
      else let (old, t1) := vrdStored p.1 t; vrdStore p.1 (mergeWord old q.off.toNat q.data p.2) t1)

/-- A window write that its size and its initiator permit: what the staging makes of it (09 R477, R479, R485). -/
def windowJudged (q : WinReq) (u : Upset) (s : State) : Resp × State :=
  if vrdInService s.vrd q.rep.val && !windowStaged q s && (List.range 8).any fun p => s.on F.VRD_PORT_CTRL_EN p then (.denied, s)
  else if windowStaged q s && s.vrd.job != .idle then (.denied, s)
  else if windowStaged q s && s.vrd.swap.isSome then (.denied, s.raise F.VRD_ERR_LATE_WRITE)
  else windowWritten q u s

/-- One word of a window read, added to those read. -/
def windowFetch (r : Nat) (a : List (W64 × Bool) × Upset × State) (w : Nat) : List (W64 × Bool) × Upset × State :=
  let (d, bad, t) := vrdReadWord r a.2.1 w a.2.2
  (a.1 ++ [(d, bad)], .none, t)

/-- A window read that nothing refuses (09 R1013). -/
def windowFetched (q : WinReq) (u : Upset) (s : State) : Resp × List Byte × List Nat × State :=
  let (ds, _, s1) := (vrdWords q.off.toNat q.len).foldl (windowFetch q.rep.val) ([], u, s)
  let bad := (List.range ds.length).filter fun i => (ds.getD i (0, false)).2
  (if bad.isEmpty then .okay else .uncorrectable, wordBytes (ds.map (·.1)) (q.off.toNat % 8) q.len, bad, s1)

theorem vrdWindowWrite_eq (q : WinReq) (u : Upset) (s : State) : vrdWindowWrite q u s =
    if !s.domOn 84 then (.poweredDown, s)
    else if !s.unitClocked 8 then (.timeout, s)
    else if q.off.toNat % 2 ≠ 0 ∨ q.data.length % 2 ≠ 0 ∨ q.data.length = 0 then (.size, s)
    else if vrdDenied q.ini.val q.priv.toNat then (.denied, s)
    else windowJudged q u s := rfl

theorem vrdWindowRead_eq (q : WinReq) (u : Upset) (s : State) : vrdWindowRead q u s =
    if !s.domOn 84 then (.poweredDown, [], [], s)
    else if !s.unitClocked 8 then (.timeout, [], [], s)
    else if q.off.toNat % 2 ≠ 0 ∨ q.len % 2 ≠ 0 ∨ q.len = 0 then (.size, [], [], s)
    else if vrdDenied q.ini.val q.priv.toNat then (.denied, [], [], s)
    else windowFetched q u s := rfl

theorem exec_windowWrite_of {q : WinReq} {u : Upset} {s t : State} {r : Resp} (h : vrdWindowWrite q u s = (r, t)) :
    exec (.windowWrite q u) s = .next (t.answer r) := by
  show execWindowWrite q u s = _
  rw [execWindowWrite, h]

theorem exec_windowRead_of {q : WinReq} {u : Upset} {s t : State} {r : Resp} {bs : List Byte} {p : List Nat}
    (h : vrdWindowRead q u s = (r, bs, p, t)) : exec (.windowRead q u) s = .next (t.answerBlock r bs p) := by
  show execWindowRead q u s = _
  rw [execWindowRead, h]

/-! What is refused whatever the staging. -/

section
variable {s : State} (q : WinReq) (u : Upset)

theorem exec_window_unpowered (hoff : s.domOn 84 = false) :
    exec (.windowRead q u) s = .next (s.answerBlock .poweredDown [] []) ∧
    exec (.windowWrite q u) s = .next (s.answer .poweredDown) :=
  ⟨exec_windowRead_of (by rw [vrdWindowRead_eq, hoff]; rfl), exec_windowWrite_of (by rw [vrdWindowWrite_eq, hoff]; rfl)⟩

theorem exec_window_unclocked (hon : s.domOn 84 = true) (hgate : s.unitClocked 8 = false) :
    exec (.windowRead q u) s = .next (s.answerBlock .timeout [] []) ∧
    exec (.windowWrite q u) s = .next (s.answer .timeout) :=
  ⟨exec_windowRead_of (by rw [vrdWindowRead_eq, hon, hgate]; rfl),
    exec_windowWrite_of (by rw [vrdWindowWrite_eq, hon, hgate]; rfl)⟩

variable {q} (hon : s.domOn 84 = true) (hclock : s.unitClocked 8 = true)
include hon hclock

theorem exec_window_size (hlen : q.data.length = q.len) (hodd : q.off.toNat % 2 = 1 ∨ q.len % 2 = 1) :
    exec (.windowWrite q u) s = .next (s.answer .size) ∧
    exec (.windowRead q u) s = .next (s.answerBlock .size [] []) := by
  have hsize : q.off.toNat % 2 ≠ 0 ∨ q.len % 2 ≠ 0 ∨ q.len = 0 := by omega
  exact ⟨exec_windowWrite_of (by rw [vrdWindowWrite_eq, hon, hclock, hlen, if_pos hsize]; rfl),
    exec_windowRead_of (by rw [vrdWindowRead_eq, hon, hclock, if_pos hsize]; rfl)⟩

section
variable (hoff : q.off.toNat % 2 = 0) (hlen : q.len % 2 = 0) (hpos : 0 < q.len) (hdata : q.data.length = q.len)
include hoff hlen hpos hdata

/-- An access of a good size goes on to the question who makes it. -/
theorem vrdWindow_sized :
    (vrdWindowWrite q u s = if vrdDenied q.ini.val q.priv.toNat then (.denied, s) else windowJudged q u s) ∧
    (vrdWindowRead q u s =
      if vrdDenied q.ini.val q.priv.toNat then (.denied, [], [], s) else windowFetched q u s) := by
  have hsize : ¬ (q.off.toNat % 2 ≠ 0 ∨ q.len % 2 ≠ 0 ∨ q.len = 0) := by omega
  exact ⟨by rw [vrdWindowWrite_eq, hon, hclock, hdata, if_neg hsize]; rfl,
    by rw [vrdWindowRead_eq, hon, hclock, if_neg hsize]; rfl⟩

theorem exec_window_denied (hini : q.ini.val < 0x40 ∨ (0x40 ≤ q.ini.val ∧ q.ini.val < 0x48 ∧ q.priv = 0)) :
    exec (.windowWrite q u) s = .next (s.answer .denied) ∧ exec (.windowRead q u) s = .next (s.answerBlock .denied [] []) := by
  obtain ⟨hwrite, hread⟩ := vrdWindow_sized u hon hclock hoff hlen hpos hdata
  have hden : vrdDenied q.ini.val q.priv.toNat = true := by
    rcases hini with h | ⟨hge, hlt, hu⟩
    · simp [vrdDenied, h]
    · simp [vrdDenied, hge, hlt, hu]
  exact ⟨exec_windowWrite_of (hwrite.trans (if_pos hden)), exec_windowRead_of (hread.trans (if_pos hden))⟩

variable (hini : q.ini.val = 0x4A)
include hini

/-- The debugger's accesses of a good size are those that are not refused. -/
theorem vrdWindow_debugger : vrdWindowWrite q u s = windowJudged q u s ∧ vrdWindowRead q u s = windowFetched q u s := by
  obtain ⟨hwrite, hread⟩ := vrdWindow_sized u hon hclock hoff hlen hpos hdata
  have hden : ¬ vrdDenied q.ini.val q.priv.toNat = true := by simp [vrdDenied, hini]
  exact ⟨hwrite.trans (if_neg hden), hread.trans (if_neg hden)⟩

/-- A live bank stands while a port is enabled (09 R477). -/
theorem exec_windowWrite_live (hin : q.rep.val ∉ s.vrd.retired) (hlive : s.vrd.staged ≠ some (q.off.toNat / 131072))
    (hport : ∃ p, p < 8 ∧ s.on F.VRD_PORT_CTRL_EN p = true) : exec (.windowWrite q u) s = .next (s.answer .denied) := by
  have hshut : (vrdInService s.vrd q.rep.val && !windowStaged q s &&
      (List.range 8).any fun p => s.on F.VRD_PORT_CTRL_EN p) = true := by
    simpa [windowStaged, vrdInService, hin, hlive] using hport
  exact exec_windowWrite_of ((vrdWindow_debugger u hon hclock hoff hlen hpos hdata hini).1.trans (if_pos hshut))

variable (hmine : windowStaged q s = true)
include hmine

theorem vrdWindowWrite_staged : vrdWindowWrite q u s =
    if s.vrd.job != .idle then (.denied, s)
    else if s.vrd.swap.isSome then (.denied, s.raise F.VRD_ERR_LATE_WRITE)
    else windowWritten q u s := by
  rw [(vrdWindow_debugger u hon hclock hoff hlen hpos hdata hini).1, windowJudged, hmine]
  simp

theorem exec_windowWrite_busy (hjob : s.vrd.job ≠ .idle) : exec (.windowWrite q u) s = .next (s.answer .denied) :=
  exec_windowWrite_of ((vrdWindowWrite_staged u hon hclock hoff hlen hpos hdata hini hmine).trans (if_pos (bne_iff_ne.mpr hjob)))

theorem exec_windowWrite_late (hjob : s.vrd.job = .idle) (hswap : s.vrd.swap ≠ none) :
    exec (.windowWrite q u) s = .next ((s.put F.VRD_ERR_LATE_WRITE 0 1).answer .denied) := by
  refine exec_windowWrite_of ((vrdWindowWrite_staged u hon hclock hoff hlen hpos hdata hini hmine).trans ?_)
  rw [hjob, Option.isSome_iff_ne_none.mpr hswap]
  rfl

end
end

end Sys2Proof.Machine
end

section
/-! Whole words through the loader window (09 R458, R476, R478): a word written to a staged bank, and read back. -/

namespace Sys2Proof.Machine

/-- The bytes of a word, the lowest first. -/
def wordLe (d : W64) : List Byte := (List.range 8).map fun i => BitVec.ofNat 8 (d.toNat / 2 ^ (8 * i))

theorem wordLe_eq (d : W64) : wordLe d = natBytes d.toNat 8 := by
  simp only [wordLe, natBytes, Nat.pow_mul]

theorem ofNat_bytesNat_wordLe (d : W64) : BitVec.ofNat 64 (bytesNat ((wordLe d).take 8)) = d := by
  rw [wordLe_eq]; exact ofNat_bytesNat_natBytes d

/-- An access to word `k` of logical bank `b` as a whole. -/
structure WholeWord (q : WinReq) (b k : Nat) (d : W64) : Prop where
  word : k < 16384
  off : q.off.toNat = b * 131072 + 8 * k
  len : q.len = 8
  data : q.data = wordLe d

namespace WholeWord
variable {q : WinReq} {b k : Nat} {d : W64} (h : WholeWord q b k d)
include h

theorem data_length : q.data.length = 8 := by rw [h.data]; rfl

theorem bank : q.off.toNat / 131072 = b := by have := h.word; have := h.off; omega

theorem words : vrdWords q.off.toNat 8 = [b * 16384 + k] := by
  have hoff := h.off
  have hcount : (q.off.toNat % 8 + 8 + 7) / 8 = 1 := by omega
  have hfirst : q.off.toNat / 8 = b * 16384 + k := by omega
  rw [vrdWords, hcount, hfirst]
  simp

theorem place : (b * 16384 + k) % 16384 = k := by have := h.word; omega

theorem whole : wholeWord q.off.toNat q.data.length (b * 16384 + k) = true := by
  have hoff := h.off
  rw [h.data_length, wholeWord]
  simp only [Bool.and_eq_true, decide_eq_true_eq]
  omega

/-- The block brings the whole word, whatever the old one. -/
theorem merge : mergeWord 0 q.off.toNat q.data (b * 16384 + k) = d := by
  have hoff := h.off
  have hbytes : (List.range 8).map (fun j =>
      if q.off.toNat ≤ (b * 16384 + k) * 8 + j ∧ (b * 16384 + k) * 8 + j < q.off.toNat + q.data.length then
        q.data.getD ((b * 16384 + k) * 8 + j - q.off.toNat) 0
      else BitVec.ofNat 8 ((0 : W64).toNat / 2 ^ (8 * j))) = wordLe d := by
    refine List.map_congr_left fun j hj => ?_
    have hj8 : j < 8 := List.mem_range.mp hj
    have hat : (b * 16384 + k) * 8 + j - q.off.toNat = j := by omega
    rw [if_pos (by rw [h.data_length]; omega), hat, h.data]
    simp [wordLe, hj8]
  have htake : (wordLe d).take 8 = wordLe d := List.take_of_length_le (by simp [wordLe])
  have hword := ofNat_bytesNat_wordLe d
  rw [htake] at hword
  exact (congrArg (fun l => BitVec.ofNat 64 (bytesNat l)) hbytes).trans hword

end WholeWord

/-- Word `k` of each bank of a list takes `d`. -/
def wordsStored (k : Nat) (d : W64) (l : List (Nat × Nat)) (v : Verdict) : Verdict :=
  l.foldl (fun v kb => { v with
    words := v.words.set (kb.1, kb.2, k) d, flaws := v.flaws.erase (kb.1, kb.2, k),
    back := v.back.filter (· != (kb.1, kb.2, k)) }) v

theorem wordsStored_frame (k : Nat) (d : W64) (l : List (Nat × Nat)) (v : Verdict) : wordsStored k d l v = { v with
    words := (wordsStored k d l v).words, flaws := (wordsStored k d l v).flaws, back := (wordsStored k d l v).back } := by
  induction l generalizing v with
  | nil => rfl
  | cons a l ih => exact ih _

theorem wordsStored_keeps (k : Nat) (d : W64) (l : List (Nat × Nat)) (v : Verdict) :
    (wordsStored k d l v).retired = v.retired ∧ (wordsStored k d l v).staged = v.staged ∧
      (wordsStored k d l v).maps = v.maps := by
  rw [wordsStored_frame]
  exact ⟨rfl, rfl, rfl⟩

theorem wordsStored_word (k : Nat) (d : W64) (l : List (Nat × Nat)) (v : Verdict) (r p w : Nat) :
    (wordsStored k d l v).words.find (r, p, w) = if (r, p) ∈ l ∧ w = k then some d else v.words.find (r, p, w) := by
  induction l generalizing v with
  | nil => simp [wordsStored]
  | cons a l ih =>
    refine (ih _).trans ?_
    by_cases hkey : (a.1, a.2, k) = (r, p, w)
    · obtain ⟨rfl, rfl, rfl⟩ : a.1 = r ∧ a.2 = p ∧ k = w := by simpa using hkey
      simp [Tbl.find_set_same]
    · have hmem : (r, p) ∈ a :: l ∧ w = k ↔ (r, p) ∈ l ∧ w = k := by
        rw [List.mem_cons]
        refine and_congr_left fun hw => or_iff_right fun ha => hkey ?_
        rw [← ha, hw]
      rw [Tbl.find_set_ne _ _ hkey, if_congr hmem rfl rfl]

/-- The words stored carry no error. -/
theorem wordsStored_clean (k : Nat) (d : W64) {l : List (Nat × Nat)} {v : Verdict} {r p : Nat}
    (h : (r, p) ∈ l ∨ v.flaws.find (r, p, k) = none) : (wordsStored k d l v).flaws.find (r, p, k) = none := by
  induction l generalizing v with
  | nil => simpa [wordsStored] using h
  | cons a l ih =>
    refine ih ?_
    by_cases ha : a = (r, p)
    · subst ha; exact .inr (Tbl.find_erase_same _ _)
    · rcases h with hmem | hclean
      · exact .inl ((List.mem_cons.mp hmem).resolve_left fun h => ha h.symm)
      · have hne : (a.1, a.2, k) ≠ (r, p, k) := fun h => ha (by simpa [Prod.ext_iff] using h)
        exact .inr ((Tbl.find_erase_ne _ hne).trans hclean)

theorem each_vrdStore (k : Nat) (d : W64) (l : List (Nat × Nat)) (s : State) :
    s.each l (fun t kb => vrdStore (kb.1, kb.2, k) d t) = s.setVrd (wordsStored k d l) := by
  induction l generalizing s with
  | nil => rfl
  | cons a l ih => exact ih _

/-- The banks that a write to a staged bank through replica `r` reaches (09 R478). -/
theorem mem_vrdWriteBanks_staged {s : State} {r b : Nat} (hr : r < 4) (hin : r ∉ s.vrd.retired) (hstaged : s.vrd.staged = some b)
    (j p : Nat) : (j, p) ∈ vrdWriteBanks s r b ↔
      j < 4 ∧ j ∉ s.vrd.retired ∧ p = vrdMap s.vrd j 64 ∧ (s.on F.VRD_STAGE_BCAST = true ∨ j = r) := by
  have hmine : (vrdInService s.vrd r && s.vrd.staged == some b) = true := by simp [vrdInService, hin, hstaged]
  rw [vrdWriteBanks, if_pos hmine]
  cases hb : s.on F.VRD_STAGE_BCAST with
  | true =>
    simp only [if_true, List.mem_map, mem_vrdService, true_or, and_true, Prod.mk.injEq]
    exact ⟨fun ⟨a, ⟨ha, hserve⟩, hj, hp⟩ => by subst hj; exact ⟨ha, hserve, hp.symm⟩,
      fun ⟨ha, hserve, hp⟩ => ⟨j, ⟨ha, hserve⟩, rfl, hp.symm⟩⟩
  | false =>
    simp only [Bool.false_eq_true, if_false, List.mem_singleton, Prod.mk.injEq, false_or]
    exact ⟨fun ⟨hj, hp⟩ => by subst hj; exact ⟨hr, hin, hp, rfl⟩, fun ⟨_, _, hp, hj⟩ => ⟨hj, by rw [hp, hj]⟩⟩

section
variable {q : WinReq} {b k : Nat} {d : W64} (h : WholeWord q b k d) (u : Upset) (s : State)
include h

/-- A whole word needs no merge: nothing is read, and every bank reached takes it. -/
theorem windowWritten_whole :
    windowWritten q u s = (.okay, s.setVrd (wordsStored k d (vrdWriteBanks s q.rep.val b))) := by
  have hplaces : windowPlaces q s = (vrdWriteBanks s q.rep.val b).map fun kb => ((kb.1, kb.2, k), b * 16384 + k) := by
    rw [windowPlaces, h.data_length, h.words, h.bank]
    simp only [List.map_cons, List.map_nil, h.place]
    exact List.map_eq_flatMap.symm
  have hpart : (windowPlaces q s).filter (fun p => !wholeWord q.off.toNat q.data.length p.2) = [] := by
    refine List.filter_eq_nil_iff.mpr fun p hp => ?_
    rw [hplaces] at hp
    obtain ⟨kb, -, rfl⟩ := List.mem_map.mp hp
    simp [h.whole]
  rw [windowWritten, hpart, hplaces, ← each_vrdStore]
  simp only [List.foldl_nil, State.each, List.foldl_map, h.whole, h.merge, if_true]

/-- A clean word is read as it stands. -/
theorem windowFetched_whole {r : Nat} (hbank : vrdWindowBank s.vrd q.rep.val b = r)
    (hword : s.vrd.words.find (q.rep.val, r, k) = some d) (hclean : s.vrd.flaws.find (q.rep.val, r, k) = none) :
    windowFetched q .none s = (.okay, wordLe d, [], s) := by
  have hoff : q.off.toNat % 8 = 0 := by have := h.off; omega
  have hfetch : windowFetch q.rep.val ([], .none, s) (b * 16384 + k) = ([(d, false)], .none, s) := by
    have hdiv : (b * 16384 + k) / 16384 = b := by have := h.word; omega
    simp [windowFetch, vrdReadWord, hdiv, h.place, hbank, vrdRead_unstruck hword, Tbl.get, hclean]
  have hbytes : wordBytes [d] 0 8 = wordLe d := by simp [wordBytes, wordLe]
  rw [windowFetched, h.len, h.words, List.foldl_cons, hfetch, hoff]
  simpa using hbytes

end

/-- The debugger writes a whole word of a staged bank, and nothing is under way: the spares reached take it, and the window
returns it (09 R476, R478). -/
theorem completes_windowWrite_staged {s : State} {q : WinReq} {b k : Nat} {d : W64} (hon : s.domOn 84 = true)
    (hclock : s.unitClocked 8 = true) (hini : q.ini.val = 0x4A) (h : WholeWord q b k d) (hin : q.rep.val ∉ s.vrd.retired)
    (hstaged : s.vrd.staged = some b) (hidle : s.vrd.job = .idle) (hswap : s.vrd.swap = none) :
    Completes (.windowWrite q .none) s fun t => t.ans.resp = .okay ∧
      t.regs = s.regs ∧ t.vrd.maps = s.vrd.maps ∧
      (∀ r p w, t.vrd.words.find (r, p, w) =
        if r < 4 ∧ r ∉ s.vrd.retired ∧ p = vrdMap s.vrd r 64 ∧ w = k ∧ (s.on F.VRD_STAGE_BCAST = true ∨ r = q.rep.val)
        then some d else s.vrd.words.find (r, p, w)) ∧
      Completes (.windowRead q .none) t fun x => x.ans.resp = .okay ∧ x.ans.data = d ∧ x.vrd.words = t.vrd.words := by
  have hoff : q.off.toNat % 2 = 0 := by have := h.off; omega
  have hlen : q.len % 2 = 0 := by rw [h.len]
  have hpos : 0 < q.len := by rw [h.len]; decide
  have hdata : q.data.length = q.len := h.data_length.trans h.len.symm
  have hmine : windowStaged q s = true := by simp [windowStaged, vrdInService, hin, hstaged, h.bank]
  set l := vrdWriteBanks s q.rep.val b with hl
  have hmem := mem_vrdWriteBanks_staged q.rep.isLt hin hstaged
  have hwrite : vrdWindowWrite q .none s = (.okay, s.setVrd (wordsStored k d l)) := by
    rw [vrdWindowWrite_staged .none hon hclock hoff hlen hpos hdata hini hmine, hidle, hswap, windowWritten_whole h]
    rfl
  have hkept := wordsStored_keeps k d l s.vrd
  have hspare : (q.rep.val, vrdMap s.vrd q.rep.val 64) ∈ l := (hmem _ _).mpr ⟨q.rep.isLt, hin, rfl, .inr rfl⟩
  refine ⟨_, exec_windowWrite_of hwrite, rfl, rfl, hkept.2.2, fun r p w => ?_, ?_⟩
  · refine (wordsStored_word k d l s.vrd r p w).trans (if_congr ?_ rfl rfl)
    rw [hmem]
    tauto
  · set t := (s.setVrd (wordsStored k d l)).answer .okay
    have hbank : vrdWindowBank t.vrd q.rep.val b = vrdMap s.vrd q.rep.val 64 := by
      have hkeep : t.vrd.retired = s.vrd.retired ∧ t.vrd.staged = s.vrd.staged ∧ t.vrd.maps = s.vrd.maps := hkept
      obtain ⟨hretired, hstage, hmaps⟩ := hkeep
      simp [vrdWindowBank, vrdInService, vrdMap, hretired, hstage, hmaps, hin, hstaged]
    have hread : vrdWindowRead q .none t = (.okay, wordLe d, [], t) := by
      rw [(vrdWindow_debugger .none (s := t) hon hclock hoff hlen hpos hdata hini).2]
      exact windowFetched_whole h t hbank ((wordsStored_word k d l s.vrd _ _ _).trans (if_pos ⟨hspare, rfl⟩))
        (wordsStored_clean k d (.inl hspare))
    exact ⟨_, exec_windowRead_of hread, rfl, ofNat_bytesNat_wordLe d, rfl⟩

end Sys2Proof.Machine
end

section
/-! Staging, copy, loader and window, put together (09 R474 to R486). -/

namespace Sys2Proof.Machine

/-- Settles O30: the commands on VRD_STAGE, VRD_SWAP and the loader, the copy, and the window's refusals and whole words. -/
theorem verdictStaging : Obligations.VerdictStaging := by
  intro s
  refine ⟨fun hoff q u => exec_window_unpowered q u hoff, fun hon hgate q u => exec_window_unclocked q u hon hgate, fun hon => ?_⟩
  refine ⟨fun w harm hkeep => ⟨completes_arm hon harm hkeep, fun hbusy => ?_⟩,
    fun w hdis harm => ⟨completes_disarm hon hdis harm, fun hswap => ?_⟩,
    fun b => exec_loaderGo_starts hon, exec_loaderGo_refused hon, completes_loadErr,
    fun w hgo => ⟨completes_swapGo hon hgo, fun hno => ?_⟩,
    fun b hstaged hjob hflaws hundef _ => completes_bankCopyDone hstaged hjob hflaws hundef, ?_, ?_⟩
  · exact completes_refused (exec_arm_refused hon harm hkeep hbusy) rfl
  · exact completes_refused (exec_disarm_refused hon hdis hswap) rfl
  · exact completes_refused (exec_swapGo_refused hon hgo hno) rfl
  · intro q b k d hclock hini hb hk hoff hdata hlen hin hstaged
    have h : WholeWord q b k d := ⟨hk, hoff, hlen, hdata⟩
    have heven : q.off.toNat % 2 = 0 := by omega
    have hmine : windowStaged q s = true := by simp [windowStaged, vrdInService, hin, hstaged, h.bank]
    have hsize : q.len % 2 = 0 ∧ 0 < q.len := by omega
    have hbytes : q.data.length = q.len := h.data_length.trans hlen.symm
    exact ⟨completes_windowWrite_staged hon hclock hini h hin hstaged,
      fun hjob u => exec_windowWrite_busy u hon hclock heven hsize.1 hsize.2 hbytes hini hmine hjob,
      fun hidle hswap u => exec_windowWrite_late u hon hclock heven hsize.1 hsize.2 hbytes hini hmine hidle hswap⟩
  · intro q u hclock hdata hpos
    exact ⟨exec_window_size u hon hclock hdata, fun hoff hlen => ⟨exec_window_denied u hon hclock hoff hlen hpos hdata,
      fun hini => exec_windowWrite_live u hon hclock hoff hlen hpos hdata hini⟩⟩

end Sys2Proof.Machine
end

section
/-! What reads and second reads of stored words leave (09 R488 to R490, R1019). -/

namespace Sys2Proof.Machine

/-- Nothing changed but free values and the word of one place, with its error. -/
structure WordMet (k : VrdPlace) (s t : State) : Prop where
  frame : t = { s with free := t.free, vrd := { s.vrd with words := t.vrd.words, flaws := t.vrd.flaws } }
  words : ∀ q, q ≠ k → t.vrd.words.find q = s.vrd.words.find q
  flaws : ∀ q, q ≠ k → t.vrd.flaws.find q = s.vrd.flaws.find q

namespace WordMet

theorem refl (k : VrdPlace) (s : State) : WordMet k s s := ⟨rfl, fun _ _ => rfl, fun _ _ => rfl⟩

/-- The word of the place and its error may change again, and a free value be taken. -/
theorem update {k : VrdPlace} {s t : State} (h : WordMet k s t) {words : Tbl VrdPlace W64} {flaws : Tbl VrdPlace Flaw}
    (hwords : ∀ q, q ≠ k → words.find q = t.vrd.words.find q) (hflaws : ∀ q, q ≠ k → flaws.find q = t.vrd.flaws.find q) :
    WordMet k s (t.setVrd fun v => { v with words := words, flaws := flaws }).fresh where
  frame := by rw [h.frame]; rfl
  words q hq := (hwords q hq).trans (h.words q hq)
  flaws q hq := (hflaws q hq).trans (h.flaws q hq)

variable {k : VrdPlace} {s t : State} (h : WordMet k s t)
include h

theorem regs : t.regs = s.regs := by rw [h.frame]

/-- Nothing in the table but words and errors. -/
theorem table : t.vrd = { s.vrd with words := t.vrd.words, flaws := t.vrd.flaws } := congrArg State.vrd h.frame

theorem maps : t.vrd.maps = s.vrd.maps := (congrArg Verdict.maps h.table).trans rfl

theorem retired : t.vrd.retired = s.vrd.retired := (congrArg Verdict.retired h.table).trans rfl

theorem retireDue : t.vrd.retireDue = s.vrd.retireDue := (congrArg Verdict.retireDue h.table).trans rfl

end WordMet

theorem wordMet_vrdStored (k : VrdPlace) (s : State) : WordMet k s (vrdStored k s).2 := by
  rw [vrdStored]
  split
  next => exact .refl k s
  next =>
    split
    next => exact (WordMet.refl k s).update (fun q hq => Tbl.find_set_ne _ _ hq.symm) fun _ _ => rfl
    next => exact .refl k s

theorem vrdStored_flaws (k : VrdPlace) (s : State) : (vrdStored k s).2.vrd.flaws = s.vrd.flaws := by
  rw [vrdStored]
  split
  next => rfl
  next => split <;> rfl

/-- A read that nothing strikes sees the error that the word carries. -/
theorem vrdRead_seen (k : VrdPlace) (s : State) : (vrdRead k .none s).1.seen = s.vrd.flaws.get .none k := by
  rw [← vrdStored_flaws k s]
  simp [vrdRead, meet_none]

theorem wordMet_vrdRead (k : VrdPlace) (u : Upset) (s : State) : WordMet k s (vrdRead k u s).2 := by
  have h := wordMet_vrdStored k s
  simp only [vrdRead]
  split
  next hu => exact h
  next hu =>
    refine h.update (fun q hq => ?_) fun q hq => ?_
    · split
      next => exact Tbl.find_set_ne _ _ hq.symm
      next => rfl
    · split
      next => exact Tbl.find_erase_ne _ hq.symm
      next => exact Tbl.find_set_ne _ _ hq.symm

/-- A corrected read changes VRD_ERR, VRD_ECC_CNT and the list of words to be written back. -/
theorem vrdCorrected_regsBut (k : VrdPlace) (s : State) : RegsBut s (vrdCorrected k s) [R.VRD_ERR.addr 0, R.VRD_ECC_CNT.addr 0] :=
  regsBut_put _ _ _ (regsBut_put _ _ _ (regsBut_refl s _) (by decide)) (by decide)

/-- What a lookup's or patrol's read leaves: one word, and what follows from what it met. -/
theorem vrdProtectedRead_keeps (k : VrdPlace) (addr source : Nat) (u : Upset) (s : State) :
    (∀ q, q ≠ k → (vrdProtectedRead k addr source u s).2.vrd.words.find q = s.vrd.words.find q ∧
      (vrdProtectedRead k addr source u s).2.vrd.flaws.find q = s.vrd.flaws.find q) ∧
    (vrdProtectedRead k addr source u s).2.vrd.maps = s.vrd.maps ∧
    RegsBut s (vrdProtectedRead k addr source u s).2 [R.VRD_ERR.addr 0, R.VRD_ECC_CNT.addr 0] := by
  have h := wordMet_vrdRead k u s
  have hregs := regsBut_regs [R.VRD_ERR.addr 0, R.VRD_ECC_CNT.addr 0] h.regs
  have hothers := fun q hq => And.intro (h.words q hq) (h.flaws q hq)
  rw [vrdProtectedRead]
  dsimp only
  split
  next => exact ⟨hothers, h.maps, hregs⟩
  next => exact ⟨hothers, h.maps, regsBut_trans hregs (vrdCorrected_regsBut k _)⟩
  next => exact ⟨hothers, h.maps, hregs⟩

/-! The log of the first uncorrectable error (09 R490). -/

theorem vrdLog_first {s : State} (h : s.on F.VRD_UE_LOG_VALID = false) (addr phys rep source : Nat) (lasting : Bool) :
    vrdLog addr phys rep source lasting s = s.wr R.VRD_UE_LOG 0 (BitVec.ofNat 64
      (addr + phys * 2 ^ 22 + rep * 2 ^ 29 + ofFlag lasting * 2 ^ 31 + source * 2 ^ 32 + 2 ^ 63)) := by
  rw [vrdLog, h]; rfl

/-- The fields of the record do not overlap. -/
theorem vrdLog_record {s : State} (h : s.on F.VRD_UE_LOG_VALID = false) {addr phys rep source : Nat} (haddr : addr < 2 ^ 22)
    (hphys : phys < 65) (hrep : rep < 4) (hsource : source < 2) (lasting : Bool) :
    ((vrdLog addr phys rep source lasting s).rd R.VRD_UE_LOG).toNat =
      addr + phys * 2 ^ 22 + rep * 2 ^ 29 + ofFlag lasting * 2 ^ 31 + source * 2 ^ 32 + 2 ^ 63 := by
  have hflag : ofFlag lasting ≤ 1 := by cases lasting <;> decide
  rw [vrdLog_first h, State.rd_wr_same, BitVec.toNat_ofNat, Nat.mod_eq_of_lt (by omega)]

theorem vrdLog_vrd (addr phys rep source : Nat) (lasting : Bool) (s : State) :
    (vrdLog addr phys rep source lasting s).vrd = s.vrd := by
  rw [vrdLog]; split <;> rfl

theorem vrdLog_regsBut (addr phys rep source : Nat) (lasting : Bool) (s : State) :
    RegsBut s (vrdLog addr phys rep source lasting s) [R.VRD_UE_LOG.addr 0] := by
  rw [vrdLog]
  exact regsBut_ite (regsBut_refl s _) (regsBut_wr _ _ _ (regsBut_refl s _) (by decide))

end Sys2Proof.Machine
end

section
/-! Replicas that stay in service (09 R469 to R471, R489): a retirement never takes the last. -/

namespace Sys2Proof.Machine

theorem vrdStaying_nodup (v : Verdict) : (vrdStaying v).Nodup := (vrdService_nodup v).filter _

theorem vrdInService_congr {v v' : Verdict} (h : v'.retired = v.retired) : vrdInService v' = vrdInService v :=
  funext fun _ => by rw [vrdInService, vrdInService, h]

theorem vrdStaying_congr {v v' : Verdict} (hretired : v'.retired = v.retired) (hdue : v'.retireDue = v.retireDue) :
    vrdStaying v' = vrdStaying v := by
  rw [vrdStaying, vrdStaying, vrdService, vrdService, vrdInService_congr hretired, hdue]

/-- Of the replicas that stay, a retirement more leaves the others. -/
theorem vrdStaying_retire {v v' : Verdict} {r : Nat} (hretired : v'.retired = v.retired)
    (hdue : v'.retireDue = v.retireDue ++ [r]) : vrdStaying v' = (vrdStaying v).filter (· != r) := by
  rw [vrdStaying, vrdStaying, vrdService, vrdService, vrdInService_congr hretired, hdue]
  simp only [List.filter_filter]
  refine List.filter_congr fun j _ => ?_
  by_cases hj : j = r <;> simp [hj]

/-- At most one replica more is due to retire, and never the last that stays. -/
def RetiresOne (v v' : Verdict) : Prop :=
  v'.retired = v.retired ∧ (v'.retireDue = v.retireDue ∨
    ∃ r ∈ vrdStaying v, (vrdStaying v).length ≠ 1 ∧ v'.retireDue = v.retireDue ++ [r])

theorem retiresOne_refl (v : Verdict) : RetiresOne v v := ⟨rfl, .inl rfl⟩

/-- A table with the retirements of another retires as that does. -/
theorem RetiresOne.congr_left {u v v' : Verdict} (h : RetiresOne u v') (hretired : u.retired = v.retired)
    (hdue : u.retireDue = v.retireDue) : RetiresOne v v' := by
  rwa [RetiresOne, ← hretired, ← hdue, ← vrdStaying_congr hretired hdue]

theorem RetiresOne.congr_right {u v v' : Verdict} (h : RetiresOne v u) (hretired : v'.retired = u.retired)
    (hdue : v'.retireDue = u.retireDue) : RetiresOne v v' := by
  rwa [RetiresOne, hretired, hdue]

/-- A replica stays in service where one stayed. -/
theorem RetiresOne.stays {v v' : Verdict} (h : RetiresOne v v') (hstay : (vrdStaying v).length ≠ 0) :
    (vrdStaying v').length ≠ 0 := by
  obtain ⟨hretired, hdue | ⟨r, hr, hone, hdue⟩⟩ := h
  · rwa [vrdStaying_congr hretired hdue]
  · rw [vrdStaying_retire hretired hdue, ← (vrdStaying_nodup v).erase_eq_filter, List.length_erase_of_mem hr]
    omega

end Sys2Proof.Machine
end

section
/-! Retirement, restoration and the test of replicas (09 R469 to R473). -/

namespace Sys2Proof.Machine

/-- A field takes as many bits of a value as it has. -/
theorem put_mod (s : State) (f : Fld) (i v : Nat) : s.put f i (v % 2 ^ f.len) = s.put f i v := by
  rw [State.put, State.put, setBits, setBits, Nat.mod_mod]

theorem vrdInService_iff {v : Verdict} {r : Nat} : vrdInService v r = true ↔ r ∉ v.retired := by simp [vrdInService]

section
variable {s : State} {w : W32} (hon : s.domOn 84 = true)
include hon

/-- A write of VRD_RETIRE that asks for something, while PD84 is on. -/
theorem vrdRetireWrite_acts (hasks : bit w.toNat 4 = true ∨ bit w.toNat 5 = true) : vrdRetireWrite w.toNat s =
    ((s.put F.VRD_RETIRE_REPLICA 0 (w.toNat % 4)).when (bit w.toNat 4) (vrdRetire (w.toNat % 4))).when (bit w.toNat 5)
      (vrdRestore (w.toNat % 4)) := by
  have hasks' : (!bit w.toNat 4 && !bit w.toNat 5) = false := by rcases hasks with h | h <;> simp [h]
  have hput : s.put F.VRD_RETIRE_REPLICA 0 (w.toNat % 4) = s.put F.VRD_RETIRE_REPLICA 0 w.toNat := put_mod s _ 0 _
  rw [hput, vrdRetireWrite, hasks', if_neg Bool.false_ne_true]
  exact vrdAct_on ((domOn_put_apart (by decide) s 0 84 _).trans hon) _

section
variable (hask : bit w.toNat 4 = true) (honly : bit w.toNat 5 = false)
include hask honly

theorem exec_retire_acts :
    exec (.retire w) s = .next (vrdRetire (w.toNat % 4) (s.put F.VRD_RETIRE_REPLICA 0 (w.toNat % 4))) := by
  show Host.Outcome.next (vrdRetireWrite w.toNat s) = _
  rw [vrdRetireWrite_acts hon (.inl hask), hask, honly]
  rfl

theorem exec_retire_due (hstay : w.toNat % 4 ∈ vrdStaying s.vrd) (hmore : (vrdStaying s.vrd).length ≠ 1) :
    exec (.retire w) s = .next ({ s with vrd := { s.vrd with retireDue := s.vrd.retireDue ++ [w.toNat % 4] } }.put
      F.VRD_RETIRE_REPLICA 0 (w.toNat % 4)) := by
  rw [exec_retire_acts hon hask honly, vrdRetire, State.put_vrd, if_neg (by simpa using hstay),
    if_neg hmore]
  rfl

theorem exec_retire_last (hlast : vrdStaying s.vrd = [w.toNat % 4]) :
    exec (.retire w) s = .next ((s.put F.VRD_RETIRE_REPLICA 0 (w.toNat % 4)).put F.VRD_ERR_CFG_REFUSED 0 1) := by
  have hone : (vrdStaying s.vrd).length = 1 := by rw [hlast]; rfl
  rw [exec_retire_acts hon hask honly, vrdRetire, State.put_vrd, if_neg (by simp [hlast]), if_pos hone]
  rfl

theorem exec_retire_gone (hgone : w.toNat % 4 ∉ vrdStaying s.vrd) :
    exec (.retire w) s = .next (s.put F.VRD_RETIRE_REPLICA 0 (w.toNat % 4)) := by
  rw [exec_retire_acts hon hask honly, vrdRetire, if_pos (by simpa using hgone)]

end

section
variable (hask : bit w.toNat 5 = true) (honly : bit w.toNat 4 = false)
include hask honly

theorem exec_restore_acts :
    exec (.restore w) s = .next (vrdRestore (w.toNat % 4) (s.put F.VRD_RETIRE_REPLICA 0 (w.toNat % 4))) := by
  show Host.Outcome.next (vrdRetireWrite w.toNat s) = _
  rw [vrdRetireWrite_acts hon (.inr hask), hask, honly]
  rfl

theorem exec_restore_due (hout : w.toNat % 4 ∈ s.vrd.retired) (hstaged : s.vrd.staged = none) (hswap : s.vrd.swap = none)
    (htest : s.vrd.rbist ≠ some (w.toNat % 4)) : exec (.restore w) s = .next
      ({ s with vrd := { s.vrd with restoreDue := s.vrd.restoreDue.filter (· != w.toNat % 4) ++ [w.toNat % 4] } }.put
        F.VRD_RETIRE_REPLICA 0 (w.toNat % 4)) := by
  have hopen : ¬ (vrdInService s.vrd (w.toNat % 4) || s.vrd.staged.isSome || s.vrd.swap.isSome ||
      s.vrd.rbist == some (w.toNat % 4)) = true := by simp [vrdInService, hout, hstaged, hswap, htest]
  rw [exec_restore_acts hon hask honly]
  exact congrArg Host.Outcome.next (if_neg hopen)

theorem exec_restore_refused (h : w.toNat % 4 ∉ s.vrd.retired ∨ s.vrd.staged ≠ none ∨ s.vrd.swap ≠ none ∨
      s.vrd.rbist = some (w.toNat % 4)) :
    exec (.restore w) s = .next ((s.put F.VRD_RETIRE_REPLICA 0 (w.toNat % 4)).put F.VRD_ERR_CFG_REFUSED 0 1) := by
  have hshut : (vrdInService s.vrd (w.toNat % 4) || s.vrd.staged.isSome || s.vrd.swap.isSome ||
      s.vrd.rbist == some (w.toNat % 4)) = true := by
    simpa [vrdInService, Option.isSome_iff_ne_none, or_assoc] using h
  rw [exec_restore_acts hon hask honly]
  exact congrArg Host.Outcome.next (if_pos hshut)

end

/-- A write of VRD_RBIST with GO, while PD84 is on (09 R473). -/
theorem exec_rbist_go (hgo : bit w.toNat 4 = true) : exec (.rbist w) s = .next
    (if vrdInService s.vrd (w.toNat % 4) then vrdRefuse (s.put F.VRD_RBIST_REPLICA 0 w.toNat)
      else (((s.put F.VRD_RBIST_REPLICA 0 w.toNat).clear F.VRD_RBIST_DONE).clear F.VRD_RBIST_PASS).setVrd fun v =>
        { v with rbist := some (w.toNat % 4) }) := by
  show Host.Outcome.next (vrdRbistWrite w.toNat s) = _
  rw [vrdRbistWrite, hgo, if_neg (by decide), vrdAct_on ((domOn_put_apart (by decide) s 0 84 _).trans hon)]
  rfl

theorem completes_rbist_starts (hgo : bit w.toNat 4 = true) (hout : w.toNat % 4 ∈ s.vrd.retired) : Completes (.rbist w) s fun t =>
    t.vrd = { s.vrd with rbist := some (w.toNat % 4) } ∧ t.on F.VRD_RBIST_DONE = false ∧ t.on F.VRD_RBIST_PASS = false ∧
    RegsBut s t [R.VRD_RBIST.addr 0] := by
  refine ⟨_, (exec_rbist_go hon hgo).trans (congrArg _ (if_neg (by simp [vrdInService, hout]))), rfl, ?_, ?_, ?_⟩
  · rw [State.setVrd_on, State.clear, State.on_put_apart (by decide)]; exact State.on_put_zero (by decide)
  · exact State.on_put_zero (by decide)
  · exact regsBut_put _ _ _ (regsBut_put _ _ _ (regsBut_put _ _ _ (regsBut_refl s _) (by decide)) (by decide)) (by decide)

theorem completes_rbist_refused (hgo : bit w.toNat 4 = true) (hin : w.toNat % 4 ∉ s.vrd.retired) :
    Completes (.rbist w) s fun t => t.vrd = s.vrd ∧ t.on F.VRD_ERR_CFG_REFUSED = true :=
  completes_refused ((exec_rbist_go hon hgo).trans (congrArg _ (if_pos (vrdInService_iff.mpr hin)))) rfl

end

/-- Retirements and restorations due happen together (09 R469, R472). -/
theorem completes_retirementApply {s : State} (hrun : s.boundariesRun = true) : Completes .retirementApply s fun t =>
    (∀ r, r ∈ t.vrd.retired ↔ (r ∈ s.vrd.retired ∨ r ∈ s.vrd.retireDue) ∧ r ∉ s.vrd.restoreDue) ∧
    t.vrd.retireDue = [] ∧ t.vrd.restoreDue = [] ∧
    t.on F.VRD_ERR_RETIRED = (s.on F.VRD_ERR_RETIRED || !s.vrd.retireDue.isEmpty) ∧
    t.vrd = { s.vrd with retired := t.vrd.retired, retireDue := [], restoreDue := [] } ∧
    t = { s with regs := t.regs, vrd := t.vrd } ∧ RegsBut s t [R.VRD_ERR.addr 0] := by
  have hexec : exec .retirementApply s = .next ((s.setVrd fun v => { v with
      retired := (v.retired ++ s.vrd.retireDue).filter (fun r => !v.restoreDue.contains r),
      retireDue := [], restoreDue := [] }).when (!s.vrd.retireDue.isEmpty) (·.raise F.VRD_ERR_RETIRED)) := by
    show execRetirementApply s = _
    rw [execRetirementApply, hrun]
    rfl
  have hmem (r : Nat) : r ∈ (s.vrd.retired ++ s.vrd.retireDue).filter (fun r => !s.vrd.restoreDue.contains r) ↔
      (r ∈ s.vrd.retired ∨ r ∈ s.vrd.retireDue) ∧ r ∉ s.vrd.restoreDue := by
    rw [List.mem_filter, List.mem_append]; simp
  cases hdue : s.vrd.retireDue.isEmpty with
  | true =>
    rw [hdue] at hexec
    exact ⟨_, hexec, hmem, rfl, rfl, (Bool.or_false _).symm, rfl, rfl, regsBut_refl _ _⟩
  | false =>
    rw [hdue] at hexec
    exact ⟨_, hexec, hmem, rfl, rfl, (State.on_put_one (by decide) (by decide)).trans (Bool.or_true _).symm, rfl, rfl,
      regsBut_put _ _ _ (regsBut_refl s _) (by decide)⟩

/-- The end of a test leaves every word of the replica 0 and clean, and no other replica touched (09 R473). -/
theorem completes_rbistDone {s : State} {r : Nat} (pass : Bool) (htest : s.vrd.rbist = some r) :
    Completes (.rbistDone pass) s fun t => t.vrd.rbist = none ∧
      t.on F.VRD_RBIST_DONE = true ∧ t.on F.VRD_RBIST_PASS = pass ∧
      (∀ p w, t.vrd.words.get 0 (r, p, w) = 0 ∧ t.vrd.flaws.get .none (r, p, w) = .none ∧ (r, p) ∉ t.vrd.undef) ∧
      (∀ q p w, q ≠ r → t.vrd.words.get 0 (q, p, w) = s.vrd.words.get 0 (q, p, w) ∧
        t.vrd.flaws.get .none (q, p, w) = s.vrd.flaws.get .none (q, p, w)) ∧ t.vrd.maps = s.vrd.maps := by
  have hkeep {α : Type} (t : Tbl VrdPlace α) (d : α) (k : VrdPlace) :
      Tbl.get (t.filter fun e => e.1.1 != r) d k = if k.1 != r then t.get d k else d := by
    rw [Tbl.get, Tbl.find_filter (fun k : VrdPlace => k.1 != r)]
    split <;> rfl
  have hexec : exec (.rbistDone pass) s = .next (((s.setVrd fun v => { v with
        rbist := none, words := v.words.filter (fun e => e.1.1 != r), flaws := v.flaws.filter (fun e => e.1.1 != r),
        undef := v.undef.filter (fun e => e.1 != r), back := v.back.filter (fun k => k.1 != r),
        second := v.second.filter (fun q => q.rep != r) }).raise F.VRD_RBIST_DONE).flag F.VRD_RBIST_PASS 0 pass) := by
    show execRbistDone pass s = _
    rw [execRbistDone, htest]
  refine ⟨_, hexec, rfl, ?_, State.on_flag_same (by decide) (by decide), fun p w => ⟨?_, ?_, ?_⟩, fun q p w hq => ⟨?_, ?_⟩, rfl⟩
  · rw [State.flag, State.on_put_apart (by decide)]; exact State.on_put_one (by decide) (by decide)
  · exact (hkeep _ _ _).trans (if_neg (by simp))
  · exact (hkeep _ _ _).trans (if_neg (by simp))
  · change (r, p) ∉ s.vrd.undef.filter fun e => e.1 != r
    simp
  · exact (hkeep _ _ _).trans (if_pos (bne_iff_ne.mpr hq))
  · exact (hkeep _ _ _).trans (if_pos (bne_iff_ne.mpr hq))

end Sys2Proof.Machine
end

section
/-! Initialisation, the settings of the ports, and the maintenance port (09 R456, R465, R488, R491, R1019). -/

namespace Sys2Proof.Machine

theorem completes_verdictInit {s : State} (hclock : s.unitClocked 8 = true) (hnew : s.on F.VRD_STATUS_INIT_DONE = false) :
    Completes .verdictInit s fun t =>
      t.on F.VRD_STATUS_INIT_DONE = true ∧ (∀ r b, vrdMap t.vrd r b = b) ∧ vrdService t.vrd = [0, 1, 2, 3] ∧
      t.vrd.staged = none ∧ t.vrd.swap = none ∧ (∀ k, t.vrd.words.get 0 k = 0 ∧ t.vrd.flaws.get .none k = .none) ∧
      t = { s with regs := t.regs, vrd := t.vrd } ∧ RegsBut s t [R.VRD_STATUS.addr 0] := by
  have hexec : exec .verdictInit s = .next ((s.setVrd vrdFresh).raise F.VRD_STATUS_INIT_DONE) := by
    show execVerdictInit s = _
    rw [execVerdictInit, hclock, hnew]
    rfl
  exact ⟨_, hexec, State.on_put_one (by decide) (by decide), fun _ _ => rfl, rfl, rfl, rfl, fun _ => ⟨rfl, rfl⟩, rfl,
    regsBut_put _ _ _ (regsBut_refl s _) (by decide)⟩

/-- A table of the first `n` numbers reads, at each of them, the value given it. -/
theorem get_range_map {α : Type} (g : Nat → α) (d : α) {n p : Nat} (hp : p < n) :
    Tbl.get ((List.range n).map fun p => (p, g p)) d p = g p := by
  have hfind : ∀ l : List Nat, p ∈ l → Tbl.find (l.map fun p => (p, g p)) p = some (g p) := by
    intro l
    induction l with
    | nil => intro h; cases h
    | cons a l ih =>
      intro h
      by_cases ha : a = p
      · simp [Tbl.find, ha]
      · simpa [Tbl.find, ha] using ih ((List.mem_cons.mp h).resolve_left fun h => ha h.symm)
  rw [Tbl.get, hfind _ (List.mem_range.mpr hp), Option.getD_some]

theorem completes_portConfigApply {s : State} (hrun : s.boundariesRun = true) : Completes .portConfigApply s fun t =>
    (∀ p, p < 8 → t.vrd.ctrl.get 0 p = (s.rd R.VRD_PORT_CTRL p).toNat ∧
      t.vrd.fields.get 0 p = (s.rd R.VRD_PORT_FIELDS p).toNat) ∧
    t = { s with vrd := { s.vrd with ctrl := t.vrd.ctrl, fields := t.vrd.fields } } := by
  have hexec : exec .portConfigApply s = .next (s.setVrd fun v => { v with
      ctrl := (List.range 8).map fun p => (p, (s.rd R.VRD_PORT_CTRL p).toNat),
      fields := (List.range 8).map fun p => (p, (s.rd R.VRD_PORT_FIELDS p).toNat) }) := by
    show execPortConfigApply s = _
    rw [execPortConfigApply, State.when, hrun]
    rfl
  exact ⟨_, hexec, fun p hp => ⟨get_range_map _ 0 hp, get_range_map _ 0 hp⟩, rfl⟩

theorem exec_verdictWriteBack {s : State} {k : VrdPlace} {l : List VrdPlace} (h : s.vrd.back = k :: l) :
    exec .verdictWriteBack s = .next { s with vrd := { s.vrd with back := l, flaws := s.vrd.flaws.erase k } } := by
  show execVerdictWriteBack s = _
  rw [execVerdictWriteBack, h]
  rfl

/-- The address of a patrolled word is found without a change but for a free value. -/
theorem vrdLogical_state (r phys w : Nat) (s : State) : (vrdLogical r phys w s).2 = s ∨ (vrdLogical r phys w s).2 = s.fresh := by
  rw [vrdLogical]
  split
  next => exact .inl rfl
  next =>
    split
    next => exact .inl rfl
    next => exact .inr rfl

/-- The number after `n` of the words that a patrol steps through. -/
theorem patrol_next {n : Nat} (h : n < 65 * 16384) : (n + 1) % (65 * 16384) = if n = 65 * 16384 - 1 then 0 else n + 1 := by
  split <;> omega

theorem completes_patrolRead {s : State} {rep : Fin 4} (hready : s.vrdReady = true) (hpatrol : s.on F.VRD_CTRL_PATROL = true)
    (hlt : s.vrd.patrol.get 0 rep.val < 65 * 16384) (u : Upset) : Completes (.patrolRead rep u) s fun t =>
      t.vrd.patrol.get 0 rep.val =
        (if s.vrd.patrol.get 0 rep.val = 65 * 16384 - 1 then 0 else s.vrd.patrol.get 0 rep.val + 1) ∧
      t.vrd.maps = s.vrd.maps ∧
      (∀ j p w, (j, p, w) ≠ (rep.val, s.vrd.patrol.get 0 rep.val / 16384, s.vrd.patrol.get 0 rep.val % 16384) →
        t.vrd.words.get 0 (j, p, w) = s.vrd.words.get 0 (j, p, w) ∧
        t.vrd.flaws.get .none (j, p, w) = s.vrd.flaws.get .none (j, p, w)) ∧
      RegsBut s t [R.VRD_ERR.addr 0, R.VRD_ECC_CNT.addr 0] := by
  set n := s.vrd.patrol.get 0 rep.val with hn
  set a := vrdLogical rep.val (n / 16384) (n % 16384) s with ha
  have hexec : exec (.patrolRead rep u) s = .next ((vrdProtectedRead (rep.val, n / 16384, n % 16384) a.1 1 u a.2).2.setVrd
      fun v => { v with patrol := v.patrol.set rep.val ((n + 1) % (65 * 16384)) }) := by
    show execPatrolRead rep u s = _
    rw [execPatrolRead, hready, hpatrol]
    rfl
  have hstart : a.2.vrd = s.vrd ∧ a.2.regs = s.regs := by
    rcases vrdLogical_state rep.val (n / 16384) (n % 16384) s with h | h <;> rw [ha, h] <;> exact ⟨rfl, rfl⟩
  obtain ⟨hothers, hmaps, hregs⟩ := vrdProtectedRead_keeps (rep.val, n / 16384, n % 16384) a.1 1 u a.2
  rw [hstart.1] at hothers hmaps
  refine ⟨_, hexec, ?_, hmaps, fun j p w hne => ?_, regsBut_trans (regsBut_regs _ hstart.2) hregs⟩
  · exact (Tbl.get_set_same _ _ _ _).trans (patrol_next hlt)
  · obtain ⟨hword, hflaw⟩ := hothers (j, p, w) hne
    exact ⟨congrArg (Option.getD · 0) hword, congrArg (Option.getD · Flaw.none) hflaw⟩

end Sys2Proof.Machine
end

section
/-! Second reads (09 R489, R490, R1019), and the replicas that stay in service. -/

namespace Sys2Proof.Machine

/-- The word read again is dealt with: a single-bit error that the second read meets is corrected (09 R488). -/
def secondMet (k : VrdPlace) (l : List VrdRetry) (seen : Flaw) (t : State) : State :=
  (t.setVrd fun v => { v with second := l }).when (seen == .single) (vrdCorrected k)

theorem secondMet_regsBut (k : VrdPlace) (l : List VrdRetry) (seen : Flaw) (t : State) :
    RegsBut t (secondMet k l seen t) [R.VRD_ERR.addr 0, R.VRD_ECC_CNT.addr 0] :=
  regsBut_when (regsBut_refl t _) (vrdCorrected_regsBut k _)

theorem secondMet_vrd (k : VrdPlace) (l : List VrdRetry) (seen : Flaw) (t : State) : (secondMet k l seen t).vrd.second = l ∧
    (secondMet k l seen t).vrd.retired = t.vrd.retired ∧ (secondMet k l seen t).vrd.retireDue = t.vrd.retireDue := by
  rw [secondMet]; cases seen == Flaw.single <;> exact ⟨rfl, rfl, rfl⟩

theorem secondMet_transient (k : VrdPlace) (l : List VrdRetry) (seen : Flaw) (t : State) :
    (secondMet k l seen t).get F.VRD_ECC_CNT_TRANSIENT = t.get F.VRD_ECC_CNT_TRANSIENT := by
  rw [secondMet, State.get_when]
  split
  next =>
    rw [vrdCorrected, State.setVrd_get, State.raise, State.get_put_apart (by decide), State.bumpHold,
      State.get_put_apart (by decide), State.setVrd_get]
  next => rfl

/-- The state in which a second read leaves the word that it reads. -/
def secondRead (q : VrdRetry) (l : List VrdRetry) (u : Upset) (s : State) : State :=
  secondMet (q.rep, q.phys, q.word) l (vrdRead (q.rep, q.phys, q.word) u s).1.seen (vrdRead (q.rep, q.phys, q.word) u s).2

section
variable (q : VrdRetry) (l : List VrdRetry) (u : Upset) (s : State)

theorem secondRead_regsBut : RegsBut s (secondRead q l u s) [R.VRD_ERR.addr 0, R.VRD_ECC_CNT.addr 0] :=
  regsBut_trans (regsBut_regs _ (wordMet_vrdRead _ u s).regs) (secondMet_regsBut _ _ _ _)

theorem secondRead_vrd : (secondRead q l u s).vrd.second = l ∧ (secondRead q l u s).vrd.retired = s.vrd.retired ∧
    (secondRead q l u s).vrd.retireDue = s.vrd.retireDue := by
  have hmet := wordMet_vrdRead (q.rep, q.phys, q.word) u s
  obtain ⟨hsecond, hretired, hdue⟩ := secondMet_vrd (q.rep, q.phys, q.word) l (vrdRead (q.rep, q.phys, q.word) u s).1.seen
    (vrdRead (q.rep, q.phys, q.word) u s).2
  exact ⟨hsecond, hretired.trans hmet.retired, hdue.trans hmet.retireDue⟩

theorem secondRead_transient : (secondRead q l u s).get F.VRD_ECC_CNT_TRANSIENT = s.get F.VRD_ECC_CNT_TRANSIENT := by
  rw [secondRead, secondMet_transient, State.get, State.rd, (wordMet_vrdRead (q.rep, q.phys, q.word) u s).regs]
  rfl

/-- A second read that fails changes no register by itself. -/
theorem secondRead_regs (h : (vrdRead (q.rep, q.phys, q.word) u s).1.seen = .double) : (secondRead q l u s).regs = s.regs := by
  rw [secondRead, secondMet, h]
  exact (wordMet_vrdRead (q.rep, q.phys, q.word) u s).regs

/-- The second read was clean: a transient error, counted, flagged and logged (09 R489, R490). -/
def readTransient : State :=
  vrdLog q.addr q.phys q.rep q.source false
    (((secondRead q l u s).bumpHold F.VRD_ECC_CNT_TRANSIENT).raise F.VRD_ERR_UE_TRANSIENT)

/-- The second read failed: a lasting error, flagged and logged (09 R489, R490). -/
def readLasting : State := vrdLog q.addr q.phys q.rep q.source true ((secondRead q l u s).raise F.VRD_ERR_UE_LASTING)

theorem exec_ueSecondRead {s : State} {l : List VrdRetry} (hsecond : s.vrd.second = q :: l) : exec (.ueSecondRead u) s = .next
    (if (vrdRead (q.rep, q.phys, q.word) u s).1.seen = .double then vrdAutoRetire q.rep (readLasting q l u s)
      else readTransient q l u s) := by
  show execUeSecondRead u s = _
  rw [execUeSecondRead, hsecond]
  rfl

theorem readTransient_vrd : (readTransient q l u s).vrd = (secondRead q l u s).vrd := by
  rw [readTransient, vrdLog_vrd]; rfl

theorem readLasting_vrd : (readLasting q l u s).vrd = (secondRead q l u s).vrd := by
  rw [readLasting, vrdLog_vrd]; rfl

end

/-! Retirement of the replica of a lasting error (09 R489). -/

/-- A replica retires of itself where AUTO_RETIRE asks for it and it is not the last that stays. -/
def autoRetires (r : Nat) (s : State) : Prop :=
  s.on F.VRD_CTRL_AUTO_RETIRE = true ∧ r ∈ vrdStaying s.vrd ∧ (vrdStaying s.vrd).length ≠ 1

theorem vrdAutoRetire_retires {r : Nat} {s : State} (h : autoRetires r s) :
    vrdAutoRetire r s = s.setVrd fun v => { v with retireDue := v.retireDue ++ [r] } := by
  obtain ⟨hauto, hstay, hmore⟩ := h
  exact if_pos (by simp [hauto, hstay, hmore])

theorem vrdAutoRetire_stands {r : Nat} {s : State} (h : ¬ autoRetires r s) : vrdAutoRetire r s = s := by
  refine if_neg fun hc => h ?_
  simpa [autoRetires, and_assoc] using hc

/-! The number of replicas that stay (09 R471, R489). -/

theorem retiresOne_of_due {s : State} {r : Nat} {v : Verdict} (hretired : v.retired = s.vrd.retired)
    (hstay : r ∈ vrdStaying s.vrd) (hmore : (vrdStaying s.vrd).length ≠ 1) (hdue : v.retireDue = s.vrd.retireDue ++ [r]) :
    RetiresOne s.vrd v := ⟨hretired, .inr ⟨r, hstay, hmore, hdue⟩⟩

theorem retiresOne_vrdRetire (r : Nat) (s : State) : RetiresOne s.vrd (vrdRetire r s).vrd := by
  rw [vrdRetire]
  split
  next => exact retiresOne_refl _
  next hstay =>
    split
    next => exact retiresOne_refl _
    next hmore => exact retiresOne_of_due rfl (by simpa using hstay) hmore rfl

theorem retiresOne_vrdAutoRetire (r : Nat) (s : State) : RetiresOne s.vrd (vrdAutoRetire r s).vrd := by
  by_cases h : autoRetires r s
  · rw [vrdAutoRetire_retires h]
    exact retiresOne_of_due rfl h.2.1 h.2.2 rfl
  · rw [vrdAutoRetire_stands h]
    exact retiresOne_refl _

/-- A restoration asked for leaves the retirements. -/
theorem vrdRestore_retirements (r : Nat) (s : State) :
    (vrdRestore r s).vrd.retired = s.vrd.retired ∧ (vrdRestore r s).vrd.retireDue = s.vrd.retireDue := by
  rw [vrdRestore]
  split <;> exact ⟨rfl, rfl⟩

theorem retiresOne_vrdRetireWrite (w : Nat) (s : State) : RetiresOne s.vrd (vrdRetireWrite w s).vrd := by
  rw [vrdRetireWrite]
  split
  next => exact retiresOne_refl _
  next =>
    rw [vrdAct]
    split
    next =>
      set t := (s.put F.VRD_RETIRE_REPLICA 0 w).when (bit w 4) (vrdRetire (w % 4)) with ht
      have hretire : RetiresOne s.vrd t.vrd := by
        rw [ht]
        cases bit w 4
        · exact retiresOne_refl _
        · exact retiresOne_vrdRetire (w % 4) (s.put F.VRD_RETIRE_REPLICA 0 w)
      cases bit w 5
      · exact hretire
      · obtain ⟨hretired, hdue⟩ := vrdRestore_retirements (w % 4) t
        exact hretire.congr_right hretired hdue
    next => exact retiresOne_refl _

theorem retiresOne_ueSecondRead (u : Upset) {s t : State} (h : exec (.ueSecondRead u) s = .next t) : RetiresOne s.vrd t.vrd := by
  cases hsecond : s.vrd.second with
  | nil =>
    have hnone : exec (.ueSecondRead u) s = .next s := by
      show execUeSecondRead u s = _
      rw [execUeSecondRead, hsecond]
    obtain rfl : s = t := Host.Outcome.next.inj (hnone.symm.trans h)
    exact retiresOne_refl _
  | cons q l =>
    obtain ⟨-, hretired, hdue⟩ := secondRead_vrd q l u s
    rw [exec_ueSecondRead q u hsecond] at h
    obtain rfl := Host.Outcome.next.inj h
    split
    next =>
      have hstep := retiresOne_vrdAutoRetire q.rep (readLasting q l u s)
      rw [readLasting_vrd] at hstep
      exact hstep.congr_left hretired hdue
    next =>
      rw [readTransient_vrd]
      exact (retiresOne_refl s.vrd).congr_right hretired hdue

/-- A replica that stays in service remains, whatever is asked and whatever a second read finds. -/
theorem vrdStaying_kept {s : State} (w : W32) (u : Upset) (hstay : (vrdStaying s.vrd).length ≠ 0) {t : State}
    (h : exec (.retire w) s = .next t ∨ exec (.ueSecondRead u) s = .next t) : (vrdStaying t.vrd).length ≠ 0 := by
  rcases h with h | h
  · obtain rfl : vrdRetireWrite w.toNat s = t := Host.Outcome.next.inj h
    exact (retiresOne_vrdRetireWrite w.toNat s).stays hstay
  · exact (retiresOne_ueSecondRead u h).stays hstay

/-! What a second read that nothing strikes completes with. -/

section
variable {s : State} {q : VrdRetry} {l : List VrdRetry} (hsecond : s.vrd.second = q :: l)
  (hfree : s.on F.VRD_UE_LOG_VALID = false) (haddr : q.addr < 2 ^ 22) (hphys : q.phys < 65) (hrep : q.rep < 4)
  (hsource : q.source < 2)
include hsecond hfree haddr hphys hrep hsource

theorem completes_ueSecondRead_transient (hclean : s.vrd.flaws.get .none (q.rep, q.phys, q.word) ≠ .double) :
    Completes (.ueSecondRead .none) s fun t => t.on F.VRD_ERR_UE_TRANSIENT = true ∧
      t.get F.VRD_ECC_CNT_TRANSIENT = min (s.get F.VRD_ECC_CNT_TRANSIENT + 1) 0xFFFF ∧ t.vrd.second = l ∧
      t.vrd.retireDue = s.vrd.retireDue ∧
      (t.rd R.VRD_UE_LOG).toNat = q.addr + q.phys * 2 ^ 22 + q.rep * 2 ^ 29 + q.source * 2 ^ 32 + 2 ^ 63 ∧
      RegsBut s t [R.VRD_ERR.addr 0, R.VRD_ECC_CNT.addr 0, R.VRD_UE_LOG.addr 0] := by
  have hexec : exec (.ueSecondRead .none) s = .next (readTransient q l .none s) := by
    rw [exec_ueSecondRead q .none hsecond, vrdRead_seen, if_neg hclean]
  obtain ⟨hrest, -, hdue⟩ := secondRead_vrd q l .none s
  set x := ((secondRead q l .none s).bumpHold F.VRD_ECC_CNT_TRANSIENT).raise F.VRD_ERR_UE_TRANSIENT with hx
  have hregs : RegsBut s x [R.VRD_ERR.addr 0, R.VRD_ECC_CNT.addr 0] :=
    regsBut_put _ _ _ (regsBut_put _ _ _ (secondRead_regsBut q l .none s) (by decide)) (by decide)
  have hempty : x.on F.VRD_UE_LOG_VALID = false := (regsBut_on hregs (by decide)).trans hfree
  have hflag : x.on F.VRD_ERR_UE_TRANSIENT = true := State.on_put_one (by decide) (by decide)
  have hcount : x.get F.VRD_ECC_CNT_TRANSIENT = min (s.get F.VRD_ECC_CNT_TRANSIENT + 1) 0xFFFF := by
    rw [hx, State.raise, State.get_put_apart (by decide), State.bumpHold, State.get_put_same _ _ _ _ (by decide),
      secondRead_transient]
    exact Nat.mod_eq_of_lt ((Nat.min_le_right _ _).trans_lt (by decide))
  have hlog := vrdLog_regsBut q.addr q.phys q.rep q.source false x
  have hrecord := vrdLog_record hempty haddr hphys hrep hsource false
  refine ⟨_, hexec, (regsBut_on hlog (by decide)).trans hflag, (regsBut_get hlog (by decide)).trans hcount, ?_, ?_, ?_,
    regsBut_trans (regsBut_mono hregs (by decide)) (regsBut_mono hlog (by decide))⟩
  · rw [readTransient_vrd, hrest]
  · rw [readTransient_vrd, hdue]
  · exact hrecord.trans (by simp [ofFlag])

theorem completes_ueSecondRead_lasting (hbad : s.vrd.flaws.get .none (q.rep, q.phys, q.word) = .double) :
    Completes (.ueSecondRead .none) s fun t => t.on F.VRD_ERR_UE_LASTING = true ∧ t.vrd.second = l ∧
      t.vrd.retireDue = (if s.on F.VRD_CTRL_AUTO_RETIRE = true ∧ q.rep ∈ vrdStaying s.vrd ∧ (vrdStaying s.vrd).length ≠ 1
        then s.vrd.retireDue ++ [q.rep] else s.vrd.retireDue) ∧
      (t.rd R.VRD_UE_LOG).toNat = q.addr + q.phys * 2 ^ 22 + q.rep * 2 ^ 29 + 2 ^ 31 + q.source * 2 ^ 32 + 2 ^ 63 ∧
      RegsBut s t [R.VRD_ERR.addr 0, R.VRD_UE_LOG.addr 0] := by
  have hseen : (vrdRead (q.rep, q.phys, q.word) .none s).1.seen = .double := (vrdRead_seen _ s).trans hbad
  have hexec : exec (.ueSecondRead .none) s = .next (vrdAutoRetire q.rep (readLasting q l .none s)) := by
    rw [exec_ueSecondRead q .none hsecond, if_pos hseen]
  obtain ⟨hrest, hretired, hdue⟩ := secondRead_vrd q l .none s
  set x := (secondRead q l .none s).raise F.VRD_ERR_UE_LASTING with hx
  have hregs : RegsBut s x [R.VRD_ERR.addr 0] :=
    regsBut_put _ _ _ (regsBut_regs _ (secondRead_regs q l .none s hseen)) (by decide)
  have hempty : x.on F.VRD_UE_LOG_VALID = false := (regsBut_on hregs (by decide)).trans hfree
  have hflag : x.on F.VRD_ERR_UE_LASTING = true := State.on_put_one (by decide) (by decide)
  have hlog : RegsBut x (readLasting q l .none s) [R.VRD_UE_LOG.addr 0] := vrdLog_regsBut _ _ _ _ _ _
  have hboth : RegsBut s (readLasting q l .none s) [R.VRD_ERR.addr 0, R.VRD_UE_LOG.addr 0] :=
    regsBut_trans (regsBut_mono hregs (by decide)) (regsBut_mono hlog (by decide))
  have hrecord := vrdLog_record hempty haddr hphys hrep hsource true
  have hauto : autoRetires q.rep (readLasting q l .none s) ↔
      s.on F.VRD_CTRL_AUTO_RETIRE = true ∧ q.rep ∈ vrdStaying s.vrd ∧ (vrdStaying s.vrd).length ≠ 1 := by
    rw [autoRetires, regsBut_on hboth (by decide), readLasting_vrd, vrdStaying_congr hretired hdue]
  have hretire : (vrdAutoRetire q.rep (readLasting q l .none s)).regs = (readLasting q l .none s).regs ∧
      (vrdAutoRetire q.rep (readLasting q l .none s)).vrd.second = l ∧
      (vrdAutoRetire q.rep (readLasting q l .none s)).vrd.retireDue =
        if s.on F.VRD_CTRL_AUTO_RETIRE = true ∧ q.rep ∈ vrdStaying s.vrd ∧ (vrdStaying s.vrd).length ≠ 1
          then s.vrd.retireDue ++ [q.rep] else s.vrd.retireDue := by
    by_cases h : autoRetires q.rep (readLasting q l .none s)
    · rw [vrdAutoRetire_retires h, if_pos (hauto.mp h), State.setVrd_vrd, readLasting_vrd]
      exact ⟨rfl, hrest, congrArg (· ++ [q.rep]) hdue⟩
    · rw [vrdAutoRetire_stands h, if_neg fun hc => h (hauto.mpr hc), readLasting_vrd]
      exact ⟨rfl, hrest, hdue⟩
  obtain ⟨hsame, hleft, hretires⟩ := hretire
  have hafter := regsBut_regs [R.VRD_UE_LOG.addr 0] hsame
  refine ⟨_, hexec, ?_, hleft, hretires, ?_, regsBut_trans hboth (regsBut_regs _ hsame)⟩
  · exact (regsBut_on (regsBut_trans hlog hafter) (by decide)).trans hflag
  · have hrd : (vrdAutoRetire q.rep (readLasting q l .none s)).rd R.VRD_UE_LOG = (readLasting q l .none s).rd R.VRD_UE_LOG := by
      rw [State.rd, hsame, State.rd]
    rw [hrd]
    exact hrecord.trans (by simp [ofFlag])

end

end Sys2Proof.Machine
end

section
/-! Replicas, maintenance port and initialisation, put together (09 R456, R465, R469 to R473, R489 to R491, R1019). -/

namespace Sys2Proof.Machine

/-- Settles O31: one lemma per row, and the count of the replicas that stay. -/
theorem verdictReplicas : Obligations.VerdictReplicas := by
  intro s
  refine ⟨completes_verdictInit, completes_portConfigApply, fun hon w r hr => ?_, completes_retirementApply,
    fun r pass => completes_rbistDone pass, fun q l hsecond hfree haddr hphys hrep hsource => ?_,
    fun k l => exec_verdictWriteBack, fun rep hready hpatrol hlt u => completes_patrolRead hready hpatrol hlt u,
    fun w u hstay t => vrdStaying_kept w u hstay⟩
  · subst hr
    exact ⟨fun hask honly => ⟨exec_retire_due hon hask honly, exec_retire_last hon hask honly, exec_retire_gone hon hask honly⟩,
      fun hask honly => ⟨exec_restore_due hon hask honly, exec_restore_refused hon hask honly⟩,
      completes_rbist_starts hon, completes_rbist_refused hon⟩
  · exact ⟨completes_ueSecondRead_transient hsecond hfree haddr hphys hrep hsource,
      completes_ueSecondRead_lasting hsecond hfree haddr hphys hrep hsource⟩

end Sys2Proof.Machine
end

section
/-! The Ledger's shared operations (10 R496, R514, R521, R569): what each reads back as, and what it leaves. -/

namespace Sys2Proof.Machine

/-- While the Ledger's clock runs, its domain is on. -/
theorem domOn_of_ledgerClocked {s : State} (h : s.unitClocked 9 = true) : s.domOn 85 = true := by
  simp only [State.unitClocked, Bool.and_eq_true] at h
  obtain ⟨⟨-, hdom⟩, -⟩ := h
  exact hdom

namespace State

theorem get_raise_sep {s : State} {f g : Fld} {i j : Nat} (h : f.sep g = true) : (s.raise f i).get g j = s.get g j :=
  get_put_sep h

theorem on_raise_sep {s : State} {f g : Fld} {i j : Nat} (h : f.sep g = true) : (s.raise f i).on g j = s.on g j :=
  on_put_sep h

theorem get_bumpHold_sep {s : State} {f g : Fld} {i j n : Nat} (h : f.sep g = true) :
    (s.bumpHold f i n).get g j = s.get g j := get_put_sep h

theorem on_bumpHold_sep {s : State} {f g : Fld} {i j n : Nat} (h : f.sep g = true) :
    (s.bumpHold f i n).on g j = s.on g j := on_put_sep h

theorem get_bumpWrap_sep {s : State} {f g : Fld} {i j n : Nat} (h : f.sep g = true) :
    (s.bumpWrap f i n).get g j = s.get g j := get_put_sep h

theorem on_bumpWrap_sep {s : State} {f g : Fld} {i j n : Nat} (h : f.sep g = true) :
    (s.bumpWrap f i n).on g j = s.on g j := on_put_sep h

/-- A count that holds goes on until it is at all ones. -/
theorem get_bumpHold_same {s : State} {f : Fld} {i n : Nat} (h : f.lo + f.len ≤ 64) :
    (s.bumpHold f i n).get f i = min (s.get f i + n) (2 ^ f.len - 1) := by
  rw [bumpHold, get_put_same _ _ _ _ h]
  have := Nat.two_pow_pos f.len
  exact Nat.mod_eq_of_lt (by omega)

@[simp] theorem cross_setCross_same (s : State) (t : W16) (c : Cross) : (s.setCross t c).cross t = c :=
  Tbl.get_set_same _ _ _ _

end State

theorem ldgLog_held {s : State} (h : s.on F.LDG_ERR_LOG_VALID = true) (addr kind src : Nat) : ldgLog addr kind src s = s :=
  if_pos h

theorem ldgLog_ldg (addr kind src : Nat) (s : State) : (ldgLog addr kind src s).ldg = s.ldg := by
  unfold ldgLog; split <;> rfl

theorem ldgLog_regsBut (addr kind src : Nat) (s : State) : RegsBut s (ldgLog addr kind src s) [R.LDG_ERR_LOG.addr 0] :=
  regsBut_ite (regsBut_refl _ _) (regsBut_wr _ _ _ (regsBut_refl _ _) (List.mem_singleton.mpr rfl))

/-- What the empty log takes of an error. -/
theorem ldgLog_record {s : State} (h : s.on F.LDG_ERR_LOG_VALID = false) {addr kind src : Nat} (haddr : addr < 2 ^ 48)
    (hkind : kind < 16) (hsrc : src < 1024) :
    ((ldgLog addr kind src s).rd R.LDG_ERR_LOG).toNat = addr + kind * 2 ^ 48 + src * 2 ^ 52 + 2 ^ 63 := by
  rw [ldgLog, if_neg (by simp [h]), State.rd_wr_same, BitVec.toNat_ofNat]
  omega

end Sys2Proof.Machine
end

section
/-! A write to the ingest window (10 R495 to R508, R1014): the first test that the fragment fails decides. -/

namespace Sys2Proof.Machine

theorem fragMalformed_iff (a n h : Nat) : fragMalformed a n h = true ↔
    a % 32 ≠ 0 ∨ n ≠ 8 + bits h 28 12 ∨ bits h 28 12 % 8 ≠ 0 ∨ bits h 26 2 ≠ 0 ∨ bits h 42 6 ≠ 0 := by
  have hreserved : bits h 42 6 ≠ 0 ↔ bits h 42 2 ≠ 0 ∨ bits h 44 4 ≠ 0 := by
    have hsplit : h / 2 ^ 44 = h / 2 ^ 42 / 4 := (Nat.div_div_eq_div_mul h (2 ^ 42) 4).symm
    simp only [bits, hsplit]
    omega
  rw [hreserved]
  simp only [fragMalformed, hdrLen, Bool.or_eq_true, bne_iff_ne, or_assoc]

theorem crossClosed_iff (s : State) (t : W16) : s.crossClosed t = true ↔ ∃ n, s.ldg.open_ = some n ∧ n ≤ s.age t := by
  unfold State.crossClosed
  cases s.ldg.open_ <;> simp

/-- An access that is answered OKAY leaves nothing but its answer. -/
theorem sandEnd_okay (ini a : Nat) (s : State) : sandEnd ini a false .okay 0 s = s.answer .okay := by
  simp [sandEnd, nocLog]

theorem exec_fragment_okay {ini : Ini} {off : BitVec 15} {poison : Bool} {data : List Byte} {s t : State}
    (h : ldgIngest off.toNat poison data s = (.okay, t)) :
    exec (.fragment ini off false poison data) s = .next (t.answer .okay) := by
  show execFragment ini off false poison data s = _
  rw [execFragment, h]
  exact congrArg _ (sandEnd_okay _ _ _)

theorem exec_fragment_offline {s : State} (hclock : s.unitClocked 9 = true) (hstill : s.on F.LDG_STATUS_RUNNING = false)
    (hfull : s.on F.NOC_ERR_LOG_VALID = true) (ini : Ini) (off : BitVec 15) (poison : Bool) (data : List Byte) :
    exec (.fragment ini off false poison data) s = .next (s.answer .offline) := by
  have hdom : s.domOn 85 = true := domOn_of_ledgerClocked hclock
  have hoff : ldgIngest off.toNat poison data s = (.offline, s) := by
    simp [ldgIngest, hdom, hclock, State.ldgRunning, hstill]
  show execFragment ini off false poison data s = _
  simp [execFragment, hoff, sandEnd, nocLog, hfull]

section
variable {s : State} {off : Nat} {poison : Bool} {data : List Byte} (hclock : s.unitClocked 9 = true)
  (hrun : s.on F.LDG_STATUS_RUNNING = true)
include hclock hrun

theorem ldgIngest_malformed (hbad : fragMalformed (csrBase + 9 * 0x10000 + 0x8000 + off) data.length (bytesNat (data.take 8)) = true) :
    ldgIngest off poison data s = (.okay, ldgLog (csrBase + 9 * 0x10000 + 0x8000 + off) 2 (hdrSrc (bytesNat (data.take 8)))
      ((s.bumpHold F.LDG_BAD_FRAGS_COUNT).raise F.LDG_ERR_MALFORMED)) := by
  have hdom : s.domOn 85 = true := domOn_of_ledgerClocked hclock
  simp [ldgIngest, hdom, hclock, State.ldgRunning, hrun, hbad]

variable (hform : fragMalformed (csrBase + 9 * 0x10000 + 0x8000 + off) data.length (bytesNat (data.take 8)) = false)
include hform

theorem ldgIngest_unknown (hsrc : bit (ldgSrc s (hdrSrc (bytesNat (data.take 8)))) 0 = false) :
    ldgIngest off poison data s = (.okay, (s.bumpHold F.LDG_BAD_FRAGS_COUNT).raise F.LDG_ERR_UNKNOWN_SRC) := by
  have hdom : s.domOn 85 = true := domOn_of_ledgerClocked hclock
  simp [ldgIngest, hdom, hclock, State.ldgRunning, hrun, hform, hsrc]

variable (hsrc : bit (ldgSrc s (hdrSrc (bytesNat (data.take 8)))) 0 = true)
include hsrc

/-- A well-formed fragment of an enabled source meets the tests of its crossing and of the tier. -/
theorem ldgIngest_known : ldgIngest off poison data s =
    (.okay, let h := bytesNat (data.take 8); let t := hdrSt h
      if s.ldgW ≤ s.age t ∨ s.crossClosed t then (s.bumpHold F.LDG_LATE_FRAGS_COUNT).raise F.LDG_ERR_LATE_FRAG
      else if (s.cross t).st = .rejected then s
      else if (s.cross t).seen.contains (hdrSrc h) then (s.bumpHold F.LDG_BAD_FRAGS_COUNT).raise F.LDG_ERR_DUPLICATE
      else if tierBlocks s < tierUsed s + (8 + hdrLen h + 63) / 64 ∨ 262144 ≤ s.ldg.frags.length then
        ((s.setCross t { s.cross t with loss := true }).bumpHold F.LDG_TIER_DROPS_COUNT).raise F.LDG_ERR_TIER_FULL
      else fragStore h poison data s) := by
  have hdom : s.domOn 85 = true := domOn_of_ledgerClocked hclock
  simp only [ldgIngest, hdom, hclock, State.ldgRunning, hrun, hform, hsrc, Bool.not_true, Bool.false_eq_true, if_false]
  simp only [apply_ite (Prod.mk Resp.okay)]

end

/-- The marks that a fragment leaves that is stored or that its context has no use for. -/
def fragNoted (h : Nat) (s : State) : State :=
  (s.setCross (hdrSt h) { s.cross (hdrSt h) with seen := (s.cross (hdrSt h)).seen ++ [hdrSrc h] }).bumpWrap F.LDG_FRAGS_IN_COUNT

/-- Storing a fragment marks its crossing and counts it; an undecided crossing's fragment joins the tier. -/
theorem fragStore_frags (h : Nat) (poison : Bool) (data : List Byte) (s : State) :
    ∃ fs, fragStore h poison data s = (fragNoted h s).fresh.fresh.setLdg (fun l => { l with frags := fs }) ∧
      ((s.cross (hdrSt h)).st = .undecided → ∃ a, fs = s.ldg.frags ++ [⟨hdrSt h, hdrSrc h,
        BitVec.ofNat 64 h ||| (if poison then BitVec.ofNat 64 (2 ^ 42) else 0), data.drop 8, a, none⟩]) := by
  by_cases hopen : (s.cross (hdrSt h)).st = .undecided
  · refine ⟨_, ?_, fun _ => ⟨(tierAddr (fragNoted h s)).1, rfl⟩⟩
    simp only [fragStore, hopen, if_true]
    simp only [fragNoted, hopen]
    rfl
  · have hjoins : (∃ f, fragStore h poison data s = (fragNoted h s).fresh.fresh.setLdg
        fun l => { l with frags := l.frags ++ [f] }) ∨ fragStore h poison data s = (fragNoted h s).fresh.fresh :=
      (ite_eq_or_eq _ _ _).imp_left fun hkept => ⟨_, hkept⟩
    rcases hjoins with ⟨f, hf⟩ | hf
    · exact ⟨s.ldg.frags ++ [f], hf, fun hx => absurd hx hopen⟩
    · exact ⟨s.ldg.frags, hf, fun hx => absurd hx hopen⟩

theorem fragNoted_regsBut (h : Nat) (s : State) : RegsBut s (fragNoted h s) [R.LDG_FRAGS_IN.addr 0] :=
  regsBut_put _ _ _ (regsBut_refl s _) (by decide)

theorem fragNoted_cross (h : Nat) (s : State) : (fragNoted h s).cross (hdrSt h) =
    { s.cross (hdrSt h) with seen := (s.cross (hdrSt h)).seen ++ [hdrSrc h] } := State.cross_setCross_same _ _ _

theorem fragNoted_count (h : Nat) (s : State) :
    (fragNoted h s).get F.LDG_FRAGS_IN_COUNT = (s.get F.LDG_FRAGS_IN_COUNT + 1) % 2 ^ 32 :=
  State.get_bumpWrap_same (f := F.LDG_FRAGS_IN_COUNT) (by decide)

section
variable {s : State} {ini : Ini} {off : BitVec 15} {poison : Bool} {data : List Byte}

/-- A malformed fragment is the first error in the log. -/
theorem completes_fragment_logged (hclock : s.unitClocked 9 = true) (hrun : s.on F.LDG_STATUS_RUNNING = true)
    (hbad : fragMalformed (csrBase + 0x98000 + off.toNat) data.length (bytesNat (data.take 8)) = true)
    (hfree : s.on F.LDG_ERR_LOG_VALID = false) : Completes (.fragment ini off false poison data) s fun t =>
      (t.rd R.LDG_ERR_LOG).toNat =
        csrBase + 0x98000 + off.toNat + 2 * 2 ^ 48 + bits (bytesNat (data.take 8)) 16 10 * 2 ^ 52 + 2 ^ 63 ∧ t.ldg = s.ldg ∧
      t.ans.resp = .okay ∧ RegsBut s t [R.LDG_BAD_FRAGS.addr 0, R.LDG_ERR.addr 0, R.LDG_ERR_LOG.addr 0] := by
  have haddr : csrBase + 0x98000 + off.toNat < 2 ^ 48 := by have := off.isLt; simp only [csrBase]; omega
  have hempty : ((s.bumpHold F.LDG_BAD_FRAGS_COUNT).raise F.LDG_ERR_MALFORMED).on F.LDG_ERR_LOG_VALID = false := by
    rw [State.on_raise_sep (by decide), State.on_bumpHold_sep (by decide), hfree]
  refine ⟨_, exec_fragment_okay (ldgIngest_malformed hclock hrun hbad), ?_, ldgLog_ldg _ _ _ _, rfl, ?_⟩
  · exact ldgLog_record hempty haddr (by decide) (Nat.mod_lt _ (by decide))
  · exact regsBut_trans (regsBut_put _ _ _ (regsBut_put _ _ _ (regsBut_refl s _) (by decide)) (by decide))
      (regsBut_mono (ldgLog_regsBut _ _ _ _) (by decide))

/-- A fragment for which the tier has no room marks its crossing (10 R508). -/
theorem completes_fragment_dropped {tag : W16} (hdrop : ldgIngest off.toNat poison data s = (.okay,
      ((s.setCross tag { s.cross tag with loss := true }).bumpHold F.LDG_TIER_DROPS_COUNT).raise F.LDG_ERR_TIER_FULL)) :
    Completes (.fragment ini off false poison data) s fun t => t.on F.LDG_ERR_TIER_FULL = true ∧
      t.get F.LDG_TIER_DROPS_COUNT = min (s.get F.LDG_TIER_DROPS_COUNT + 1) 0xFFFFFFFF ∧ t.ans.resp = .okay ∧
      (t.cross tag).loss = true ∧ t.ldg.frags = s.ldg.frags ∧ RegsBut s t [R.LDG_TIER_DROPS.addr 0, R.LDG_ERR.addr 0] := by
  refine ⟨_, exec_fragment_okay hdrop, State.on_put_one (by decide) (by decide), ?_, rfl, ?_, rfl,
    regsBut_put _ _ _ (regsBut_put _ _ _ (regsBut_refl s _) (by decide)) (by decide)⟩
  · rw [State.answer_get, State.get_raise_sep (by decide), State.get_bumpHold_same (by decide)]; rfl
  · exact congrArg Cross.loss (State.cross_setCross_same s tag { s.cross tag with loss := true })

/-- A stored fragment is counted and noted as seen, and takes the blocks of its header and payload (10 R507). -/
theorem completes_fragment_stored {h : Nat} (hstore : ldgIngest off.toNat poison data s = (.okay, fragStore h poison data s))
    (hlen : data.length = 8 + hdrLen h) (hroom : tierUsed s + (8 + hdrLen h + 63) / 64 ≤ tierBlocks s) :
    Completes (.fragment ini off false poison data) s fun t => t.ans.resp = .okay ∧ t.mem = s.mem ∧
      t.get F.LDG_FRAGS_IN_COUNT = (s.get F.LDG_FRAGS_IN_COUNT + 1) % 2 ^ 32 ∧
      (t.cross (hdrSt h)).seen = (s.cross (hdrSt h)).seen ++ [hdrSrc h] ∧ (t.cross (hdrSt h)).st = (s.cross (hdrSt h)).st ∧
      ((s.cross (hdrSt h)).st = .undecided → ∃ fa, t.ldg.frags = s.ldg.frags ++ [⟨hdrSt h, hdrSrc h,
        BitVec.ofNat 64 h ||| (if poison then BitVec.ofNat 64 (2 ^ 42) else 0), data.drop 8, fa, none⟩] ∧
        tierUsed t = tierUsed s + (8 + hdrLen h + 63) / 64 ∧ tierUsed t ≤ tierBlocks t) ∧
      RegsBut s t [R.LDG_FRAGS_IN.addr 0] := by
  obtain ⟨fs, hfs, hjoins⟩ := fragStore_frags h poison data s
  rw [hfs] at hstore
  have hregs := fragNoted_regsBut h s
  refine ⟨_, exec_fragment_okay hstore, rfl, rfl, fragNoted_count h s, (congrArg Cross.seen (fragNoted_cross h s) :),
    (congrArg Cross.st (fragNoted_cross h s) :), fun hopen => ?_, hregs⟩
  obtain ⟨fa, rfl⟩ := hjoins hopen
  have hused : tierUsed ((((fragNoted h s).fresh.fresh.setLdg fun l => { l with frags := s.ldg.frags ++ [⟨hdrSt h, hdrSrc h,
      BitVec.ofNat 64 h ||| (if poison then BitVec.ofNat 64 (2 ^ 42) else 0), data.drop 8, fa, none⟩] })).answer .okay) =
      tierUsed s + (8 + hdrLen h + 63) / 64 := by
    simp [tierUsed, fragBlocks, hlen]
  have hbanks := regsBut_get hregs (f := F.LDG_TIER_BANKS_MASK) (by decide)
  refine ⟨fa, rfl, hused, hused.trans_le (hroom.trans_eq ?_)⟩
  simp only [tierBlocks, tierBanks, State.answer_get, State.setLdg_get, State.fresh_get, hbanks]

end

/-- Settles O32: the tests one after another, each with its own count and error bit. -/
theorem ledgerFragmentTests : Obligations.LedgerFragmentTests := by
  intro s ini off poison data hclock a h tag src len blocks ends bad malformed late x
  have hform : malformed ↔ fragMalformed a data.length h = true := (fragMalformed_iff a data.length h).symm
  have hlate : late ↔ (s.ldgW ≤ s.age tag ∨ s.crossClosed tag = true) := or_congr Iff.rfl (crossClosed_iff s tag).symm
  refine ⟨fun hstill hfull => exec_fragment_offline hclock hstill hfull ini off poison data, fun hrun =>
    ⟨fun hbad hfull => ?_, fun hbad => completes_fragment_logged hclock hrun (hform.mp hbad), fun hgood => ?_⟩⟩
  · have hheld : ((s.bumpHold F.LDG_BAD_FRAGS_COUNT).raise F.LDG_ERR_MALFORMED).on F.LDG_ERR_LOG_VALID = true := by
      rw [State.on_raise_sep (by decide), State.on_bumpHold_sep (by decide), hfull]
    exact exec_fragment_okay ((ldgIngest_malformed hclock hrun (hform.mp hbad)).trans (by rw [ldgLog_held hheld]; rfl))
  have hform' : fragMalformed a data.length h = false := Bool.eq_false_iff.mpr fun hbad => hgood (hform.mpr hbad)
  refine ⟨fun hunknown => exec_fragment_okay (ldgIngest_unknown hclock hrun hform' hunknown), fun hknown => ?_⟩
  have hingest := ldgIngest_known (poison := poison) hclock hrun hform' hknown
  refine ⟨fun hl => ?_, fun hl hrej => ?_, fun hl hrej => ⟨fun hseen => ?_, fun hseen hfull => ?_, fun hseen hroom hplaces => ?_⟩⟩
  · exact exec_fragment_okay (hingest.trans (congrArg _ (if_pos (hlate.mp hl))))
  · refine exec_fragment_okay (hingest.trans (congrArg _ ?_))
    exact (if_neg (hlate.not.mp hl)).trans (if_pos hrej)
  · refine exec_fragment_okay (hingest.trans (congrArg _ ?_))
    exact (if_neg (hlate.not.mp hl)).trans ((if_neg hrej).trans (if_pos (List.contains_iff_mem.mpr hseen)))
  · refine completes_fragment_dropped (hingest.trans (congrArg _ ?_))
    exact (if_neg (hlate.not.mp hl)).trans ((if_neg hrej).trans
      ((if_neg (mt List.contains_iff_mem.mp hseen)).trans (if_pos hfull)))
  · have hlen : data.length = 8 + len := not_not.mp fun hne => hgood (.inr (.inl hne))
    have hroom' : ¬ (tierBlocks s < tierUsed s + blocks ∨ 262144 ≤ s.ldg.frags.length) :=
      not_or.mpr ⟨Nat.not_lt.mpr hroom, Nat.not_le.mpr hplaces⟩
    refine completes_fragment_stored (hingest.trans (congrArg _ ?_)) hlen hroom
    exact (if_neg (hlate.not.mp hl)).trans ((if_neg hrej).trans
      ((if_neg (mt List.contains_iff_mem.mp hseen)).trans (if_neg hroom')))

end Sys2Proof.Machine
end

section
/-! Decisions (10 R510 to R518): what the words of one source do that arrive together. -/

namespace Sys2Proof.Machine

theorem decTaken_iff (s : State) (w : Nat) : decTaken s w = true ↔
    bits w 17 3 = 0 ∧ bits w 24 8 = 0 ∧ (bit w 16 = true → bit (s.ldg.cls.get 8 (bits w 20 4)) 3 = true) := by
  simp [decTaken, decAccept, decClass, ldgClass, and_assoc, imp_iff_not_or]

theorem decLate_iff (s : State) (w : Nat) : decLate s w = true ↔ s.ldgW ≤ s.age (decTag w) ∨
    (∃ n, s.ldg.open_ = some n ∧ n ≤ s.age (decTag w)) ∨ (s.cross (decTag w)).st = .rejected := by
  rw [← crossClosed_iff]
  simp [decLate, or_assoc]

section
variable {s : State} {src w : Nat}

theorem ldgDecide_ignored (h : decTaken s w = false) : ldgDecide src [w] s = s := by
  simp [ldgDecide, h, State.each, sortBy]

theorem ldgDecide_late (htaken : decTaken s w = true) (hlate : decLate s w = true) :
    ldgDecide src [w] s = (s.bumpHold F.LDG_LATE_DECS_COUNT).raise F.LDG_ERR_LATE_DEC := by
  simp [ldgDecide, htaken, hlate, State.each, sortBy]

variable (htaken : decTaken s w = true) (htime : decLate s w = false)
include htaken htime

theorem ldgDecide_first (haccept : decAccept w = true) (hopen : (s.cross (decTag w)).st = .undecided) :
    ldgDecide src [w] s = ldgAccept (decTag w) (decClass w) src (decTrig w) s := by
  have hcls : min 15 (decClass w) = decClass w :=
    Nat.min_eq_right (Nat.le_of_lt_succ (Nat.mod_lt _ (by decide)))
  simp [ldgDecide, htaken, htime, haccept, hopen, State.each, sortBy, insertBy, List.eraseDups_cons, hcls]

theorem ldgDecide_further (haccept : decAccept w = true) {id : Nat} (htook : (s.cross (decTag w)).st = .accepted id) :
    ldgDecide src [w] s = ldgModCtx id (fun c => { c with trig := c.trig ||| decTrig w, dec := c.dec ||| src }) s := by
  simp [ldgDecide, htaken, htime, haccept, htook, State.each, sortBy]

theorem ldgDecide_reject (hreject : decAccept w = false) : ldgDecide src [w] s =
    if s.on F.LDG_CTRL_EARLY_REJECT && (s.cross (decTag w)).st == .undecided then
      (dropFrags (fun f => f.st == decTag w && f.ctx.isNone) s).setCross (decTag w) { s.cross (decTag w) with st := .rejected }
    else s := by
  simp [ldgDecide, htaken, htime, hreject, State.each, sortBy]

end

/-- Of two accepts of one undecided crossing the lower class opens it (10 R515, R517). -/
theorem ldgDecide_pair {s : State} {src v w : Nat} (htaken : decTaken s v = true ∧ decTaken s w = true)
    (htime : decLate s v = false ∧ decLate s w = false) (haccept : decAccept v = true ∧ decAccept w = true)
    (htag : decTag w = decTag v) (hopen : (s.cross (decTag v)).st = .undecided) :
    ldgDecide src [v, w] s =
      ldgAccept (decTag v) (min (decClass v) (decClass w)) src (decTrig v ||| decTrig w) s := by
  obtain ⟨hvt, hwt⟩ := htaken
  obtain ⟨hvl, hwl⟩ := htime
  obtain ⟨hva, hwa⟩ := haccept
  have hcls : min 15 (decClass v) = decClass v :=
    Nat.min_eq_right (Nat.le_of_lt_succ (Nat.mod_lt _ (by decide)))
  simp [ldgDecide, hvt, hwt, hvl, hwl, hva, hwa, htag, hopen, State.each, sortBy, insertBy, List.eraseDups_cons, hcls]

/-- The accept word of a crossing and a class, with no trigger bits. -/
def acceptWord (tag : W16) (c : Nat) : Nat := tag.toNat + 2 ^ 16 + c * 2 ^ 20

theorem decTag_acceptWord (tag : W16) (c : Nat) : decTag (acceptWord tag c) = tag := by
  apply BitVec.eq_of_toNat_eq
  have := tag.isLt
  simp only [decTag, acceptWord, BitVec.toNat_ofNat]
  omega

theorem decAccept_acceptWord (tag : W16) (c : Nat) : decAccept (acceptWord tag c) = true := by
  have := tag.isLt
  simp only [decAccept, acceptWord, bit, beq_iff_eq]
  omega

theorem decClass_acceptWord (tag : W16) {c : Nat} (h : c < 16) : decClass (acceptWord tag c) = c := by
  have := tag.isLt
  simp only [decClass, acceptWord, bits]
  omega

theorem decTaken_acceptWord (tag : W16) {c : Nat} (h : c < 16) {s : State} (hen : bit (s.ldg.cls.get 8 c) 3 = true) :
    decTaken s (acceptWord tag c) = true := by
  have := tag.isLt
  refine (decTaken_iff s _).mpr ⟨?_, ?_, fun _ => ?_⟩
  · simp only [bits, acceptWord]; omega
  · simp only [bits, acceptWord]; omega
  · exact (congrArg (fun k => bit (s.ldg.cls.get 8 k) 3) (decClass_acceptWord tag h)).trans hen

end Sys2Proof.Machine
end

section
/-! Contexts: allocation, closing (10 R515, R520 to R526). -/

namespace Sys2Proof.Machine

section
variable {s : State} {t : W16} {cls dec : Nat} {trig : W32}

/-- What a crossing's context holds as it is allocated, and what becomes of the crossing and of its fragments. -/
theorem ldgAlloc_takes (k : Nat) (late : Bool) : ∃ c : Ctx, (ldgAlloc t cls k dec trig late s).ldg.ctxs = s.ldg.ctxs ++ [c] ∧
    ((ldgAlloc t cls k dec trig late s).cross t).st = .accepted c.id ∧ c.id = s.ldg.nextCtx ∧ c.tag = t ∧
    c.cn = s.rd R.TMG_CN - BitVec.ofNat 64 (s.age t) ∧ c.cls = cls ∧ c.stream = k ∧ c.state = .collect ∧ c.trig = trig ∧
    c.dec = dec ∧ c.suspect = s.on F.TMG_STATUS_CN_SUSPECT ∧ c.wasDeferred = late :=
  ⟨_, rfl, congrArg Cross.st (State.cross_setCross_same _ _ _), rfl, rfl, rfl, rfl, rfl, rfl, rfl, rfl, rfl, rfl⟩

/-- No fragment of the crossing stays without a context. -/
theorem ldgAlloc_claims (k : Nat) (late : Bool) {f : Frag} (hf : f ∈ (ldgAlloc t cls k dec trig late s).ldg.frags)
    (htag : f.st = t) : f.ctx ≠ none := by
  obtain ⟨g, -, rfl⟩ := List.mem_map.mp hf
  by_cases hopen : (g.ctx.isNone && g.st == t) = true
  · rw [if_pos hopen]
    exact Option.some_ne_none _
  · rw [if_neg hopen] at htag ⊢
    intro hnone
    exact hopen (by simp [hnone, htag])

theorem ldgAlloc_frame (k : Nat) (late : Bool) :
    ldgAlloc t cls k dec trig late s = { s with ldg := (ldgAlloc t cls k dec trig late s).ldg } := rfl

theorem ldgAccept_allocates (hfree : s.ldg.ctxs.length < ctxLimit s) : ldgAccept t cls dec trig s =
    ldgAlloc t cls (s.ldg.cls.get 8 cls % 8) dec trig false (s.bumpWrap F.LDG_ACCEPTS_COUNT) := by
  have hlimit : ctxLimit (s.bumpWrap F.LDG_ACCEPTS_COUNT) = ctxLimit s := by
    rw [ctxLimit, State.get_bumpWrap_sep (by decide), ctxLimit]
  exact if_pos (by rw [ctxFree, hlimit]; exact decide_eq_true hfree)

theorem ldgAccept_defers (hfull : ctxLimit s ≤ s.ldg.ctxs.length) : ldgAccept t cls dec trig s =
    ((s.bumpWrap F.LDG_ACCEPTS_COUNT).setCross t
      { s.cross t with st := .deferred cls (s.ldg.cls.get 8 cls % 8) dec trig }).raise F.LDG_ERR_CTX_DEFERRED := by
  have hlimit : ctxLimit (s.bumpWrap F.LDG_ACCEPTS_COUNT) = ctxLimit s := by
    rw [ctxLimit, State.get_bumpWrap_sep (by decide), ctxLimit]
  exact if_neg (by rw [ctxFree, hlimit, decide_eq_true_eq]; exact Nat.not_lt.mpr hfull)

end

/-- What is left for the stream's next record when a context closes whose fragments are not all paged (10 R526). -/
theorem ldgClose_unpaged {s : State} {x : Ctx} (h : unpaged s x.id ≠ []) (early : Bool) : ∃ y : Ctx,
    ldgClose early x s = ((ldgModCtx x.id (fun _ => y) s).setLdg fun l => { l with closes := l.closes + 1 }).when
      (s.on F.LDG_STR_CTRL_EN x.stream) (·.bumpWrap F.LDG_STR_SEQ_NEXT x.stream) ∧
    y.state = .closing ∧ y.early = (x.early || early) ∧ y.loss = (x.loss || (s.cross x.tag).loss) ∧
    y.numbered = s.on F.LDG_STR_CTRL_EN x.stream ∧ y.seq = BitVec.ofNat 32 (s.get F.LDG_STR_SEQ_NEXT x.stream) := by
  refine ⟨_, if_neg ?_, rfl, rfl, rfl, rfl, rfl⟩
  have hfrags : ∀ u : State, (u.when (s.on F.LDG_STR_CTRL_EN x.stream) (·.bumpWrap F.LDG_STR_SEQ_NEXT x.stream)).ldg = u.ldg := by
    intro u; unfold State.when; split <;> rfl
  rw [List.isEmpty_iff, unpaged, hfrags]
  exact h

theorem ldgCtx_singleton {s : State} {c : Ctx} (h : s.ldg.ctxs = [c]) : ldgCtx s c.id = some c := by
  simp [ldgCtx, h]

/-- The context in collection, alone in the Ledger, closes. -/
theorem ldgClose_alone {s : State} {c : Ctx} {f : Frag} (honly : s.ldg.ctxs = [c]) (hf : f ∈ s.ldg.frags)
    (hctx : f.ctx = some c.id) (early : Bool) : ∃ d, (ldgClose early c s).ldg.ctxs = [d] ∧ d.state = .closing ∧
      d.early = (c.early || early) ∧ d.loss = (c.loss || (s.cross c.tag).loss) ∧
      d.numbered = s.on F.LDG_STR_CTRL_EN c.stream ∧ d.seq = BitVec.ofNat 32 (s.get F.LDG_STR_SEQ_NEXT c.stream) ∧
      (ldgClose early c s).regs = (s.when (s.on F.LDG_STR_CTRL_EN c.stream) (·.bumpWrap F.LDG_STR_SEQ_NEXT c.stream)).regs := by
  have hleft : unpaged s c.id ≠ [] :=
    List.ne_nil_of_mem (List.mem_filter.mpr ⟨hf, by rw [hctx]; exact beq_self_eq_true _⟩)
  obtain ⟨y, hclose, hfacts⟩ := ldgClose_unpaged hleft early
  obtain ⟨hstate, hearly, hloss, hnum, hseq⟩ := hfacts
  refine ⟨y, ?_, hstate, hearly, hloss, hnum, hseq, ?_⟩
  · rw [hclose]
    cases s.on F.LDG_STR_CTRL_EN c.stream <;> simp [State.when, ldgModCtx, honly]
  · rw [hclose]
    cases s.on F.LDG_STR_CTRL_EN c.stream <;> rfl

end Sys2Proof.Machine
end

section
/-! The crossing whose age becomes W (10 R509, R520, R523). -/

namespace Sys2Proof.Machine

/-- The short tag of the crossing that expires. -/
def expiring (s : State) : W16 := s.shortTag - BitVec.ofNat 16 (s.get F.LDG_WINDOW_CROSSINGS)

section
variable {s : State} {x : Cross} (hfind : s.ldg.cross.find (expiring s) = some x)
include hfind

theorem ldgExpire_undecided (h : x.st = .undecided) : ldgExpire s =
    (dropFrags (fun f => f.st == expiring s && f.ctx.isNone) s).setLdg fun l => { l with cross := l.cross.erase (expiring s) } := by
  rw [expiring] at hfind ⊢
  simp [ldgExpire, State.ldgW, hfind, h]

theorem ldgExpire_deferred {c k d : Nat} {w : W32} (h : x.st = .deferred c k d w) : ldgExpire s =
    (((dropFrags (fun f => f.st == expiring s && f.ctx.isNone) s).setLdg
      fun l => { l with cross := l.cross.erase (expiring s) }).bumpHold F.LDG_CTX_LOST_COUNT).raise F.LDG_ERR_CTX_LOST := by
  rw [expiring] at hfind ⊢
  simp [ldgExpire, State.ldgW, hfind, h]

theorem ldgExpire_accepted {c : Ctx} (h : x.st = .accepted c.id) (hctx : ldgCtx s c.id = some c) (hcollect : c.state = .collect) :
    ldgExpire s = (ldgClose false c s).setLdg fun l => { l with cross := l.cross.erase (expiring s) } := by
  rw [expiring] at hfind ⊢
  simp [ldgExpire, State.ldgW, hfind, h, hctx, hcollect]

/-- Whatever was decided of it, the crossing is gone. -/
theorem ldgExpire_forgets : (ldgExpire s).ldg.cross.find (expiring s) = none := by
  cases hst : x.st with
  | undecided => rw [ldgExpire_undecided hfind hst]; exact Tbl.find_erase_same _ _
  | rejected =>
    have hgone : ldgExpire s = (dropFrags (fun f => f.st == expiring s && f.ctx.isNone) s).setLdg
        fun l => { l with cross := l.cross.erase (expiring s) } := by
      rw [expiring] at hfind ⊢
      simp [ldgExpire, State.ldgW, hfind, hst]
    rw [hgone]; exact Tbl.find_erase_same _ _
  | deferred c k d w => rw [ldgExpire_deferred hfind hst]; exact Tbl.find_erase_same _ _
  | accepted id =>
    have hgone : ∃ u : State, ldgExpire s = u.setLdg fun l => { l with cross := l.cross.erase (expiring s) } := by
      rw [expiring] at hfind ⊢
      simp only [ldgExpire, State.ldgW, hfind, hst]
      split <;> exact ⟨_, rfl⟩
    obtain ⟨u, hu⟩ := hgone
    rw [hu]; exact Tbl.find_erase_same _ _

end

end Sys2Proof.Machine
end

section
/-! Decisions of the host and of Quartz, and expiry, put together (10 R510 to R526). -/

namespace Sys2Proof.Machine

/-- A word written to LDG_HOST_DEC is a decision of source 4 (10 R512). -/
theorem exec_hostDecision {s : State} (hclock : s.unitClocked 9 = true) (hrun : s.on F.LDG_STATUS_RUNNING = true)
    (hen : s.on F.LDG_CTRL_DEC_HOST_EN = true) (w : W64) : exec (.hostDecision w) s = .next (ldgDecide 4 [w.toNat] s) := by
  show execHostDecision w s = _
  simp [execHostDecision, ldgHostDec, domOn_of_ledgerClocked hclock, hclock, State.ldgRunning, hrun, hen]

section
variable {s : State} {w : W64} (hclock : s.unitClocked 9 = true) (hrun : s.on F.LDG_STATUS_RUNNING = true)
  (hen : s.on F.LDG_CTRL_DEC_HOST_EN = true) (htaken : decTaken s w.toNat = true) (htime : decLate s w.toNat = false)
include hclock hrun hen htaken htime

theorem completes_hostDecision_allocates (haccept : bit w.toNat 16 = true)
    (hopen : (s.cross (decTag w.toNat)).st = .undecided) (hfree : s.ldg.ctxs.length < ctxLimit s)
    (hnew : ∀ c ∈ s.ldg.ctxs, c.id < s.ldg.nextCtx) : Completes (.hostDecision w) s fun t =>
      ∃ c : Ctx, t.ldg.ctxs = s.ldg.ctxs ++ [c] ∧ (t.cross (decTag w.toNat)).st = .accepted c.id ∧ (∀ d ∈ s.ldg.ctxs, d.id ≠ c.id) ∧
        c.tag = decTag w.toNat ∧ c.cn = s.rd R.TMG_CN - BitVec.ofNat 64 (s.age (decTag w.toNat)) ∧ c.cls = bits w.toNat 20 4 ∧
        c.stream = s.ldg.cls.get 8 (bits w.toNat 20 4) % 8 ∧ c.state = .collect ∧ c.trig = w.extractLsb' 32 32 ∧ c.dec = 4 ∧
        c.suspect = s.on F.TMG_STATUS_CN_SUSPECT ∧ c.wasDeferred = false ∧
        (∀ f, f ∈ t.ldg.frags → f.st = decTag w.toNat → f.ctx = none → False) ∧
        t.get F.LDG_ACCEPTS_COUNT = (s.get F.LDG_ACCEPTS_COUNT + 1) % 2 ^ 32 ∧
        t = { s with regs := t.regs, ldg := t.ldg } ∧ RegsBut s t [R.LDG_ACCEPTS.addr 0] := by
  refine ⟨_, (exec_hostDecision hclock hrun hen w).trans
    (congrArg _ ((ldgDecide_first htaken htime haccept hopen).trans (ldgAccept_allocates hfree))), ?_⟩
  have hregs : RegsBut s (s.bumpWrap F.LDG_ACCEPTS_COUNT) [R.LDG_ACCEPTS.addr 0] :=
    regsBut_put _ _ _ (regsBut_refl s _) (by decide)
  have hage : (s.bumpWrap F.LDG_ACCEPTS_COUNT).age (decTag w.toNat) = s.age (decTag w.toNat) := by
    rw [State.age, State.shortTag, State.cn, State.get_bumpWrap_sep (by decide)]; rfl
  obtain ⟨c, hctxs, hst, hid, htag, hcn, hcls, hstream, hstate, htrig, hdec, hsuspect, hlate⟩ :=
    ldgAlloc_takes (s := s.bumpWrap F.LDG_ACCEPTS_COUNT) (t := decTag w.toNat) (cls := decClass w.toNat) (dec := 4)
      (trig := decTrig w.toNat) (s.ldg.cls.get 8 (decClass w.toNat) % 8) false
  refine ⟨c, hctxs, hst, fun d hd => ?_, htag, ?_, hcls, hstream, hstate, ?_, hdec, ?_, hlate,
    fun f hf htagged => ldgAlloc_claims _ _ hf htagged, State.get_bumpWrap_same (by decide), rfl, hregs⟩
  · rw [hid]; exact (hnew d hd).ne
  · rw [hcn, hage, regsBut_rd hregs _ _ (by decide)]
  · rw [htrig]; exact ofNat_div_eq_extractLsb' w 32 32
  · rw [hsuspect]; exact regsBut_on hregs (by decide)

theorem completes_hostDecision_defers (haccept : bit w.toNat 16 = true)
    (hopen : (s.cross (decTag w.toNat)).st = .undecided) (hfull : ctxLimit s ≤ s.ldg.ctxs.length) :
    Completes (.hostDecision w) s fun t =>
      (t.cross (decTag w.toNat)).st = .deferred (bits w.toNat 20 4) (s.ldg.cls.get 8 (bits w.toNat 20 4) % 8) 4
        (w.extractLsb' 32 32) ∧ t.ldg.ctxs = s.ldg.ctxs ∧ t.ldg.frags = s.ldg.frags ∧
      t.on F.LDG_ERR_CTX_DEFERRED = true ∧ RegsBut s t [R.LDG_ACCEPTS.addr 0, R.LDG_ERR.addr 0] := by
  refine ⟨_, (exec_hostDecision hclock hrun hen w).trans
    (congrArg _ ((ldgDecide_first htaken htime haccept hopen).trans (ldgAccept_defers hfull))), ?_, rfl, rfl,
    State.on_put_one (by decide) (by decide), regsBut_put _ _ _ (regsBut_put _ _ _ (regsBut_refl s _) (by decide)) (by decide)⟩
  rw [← ofNat_div_eq_extractLsb' w 32 32]
  exact congrArg Cross.st (State.cross_setCross_same _ _ _)

theorem exec_hostDecision_further (haccept : bit w.toNat 16 = true) {id : Nat}
    (htook : (s.cross (decTag w.toNat)).st = .accepted id) : exec (.hostDecision w) s = .next
      { s with ldg := { s.ldg with ctxs := s.ldg.ctxs.map fun c =>
          if c.id == id then { c with trig := c.trig ||| w.extractLsb' 32 32, dec := c.dec ||| 4 } else c } } := by
  rw [← ofNat_div_eq_extractLsb' w 32 32]
  exact (exec_hostDecision hclock hrun hen w).trans (congrArg _ (ldgDecide_further htaken htime haccept htook))

theorem completes_hostDecision_rejects (hreject : bit w.toNat 16 = false) :
    (s.on F.LDG_CTRL_EARLY_REJECT = false ∨ (s.cross (decTag w.toNat)).st ≠ .undecided →
      exec (.hostDecision w) s = .next s) ∧
    (s.on F.LDG_CTRL_EARLY_REJECT = true → (s.cross (decTag w.toNat)).st = .undecided →
      Completes (.hostDecision w) s fun t => (t.cross (decTag w.toNat)).st = .rejected ∧
        t.ldg.frags = s.ldg.frags.filter (fun f => !(f.st == decTag w.toNat && f.ctx.isNone)) ∧
        t.ldg.ctxs = s.ldg.ctxs ∧ t.regs = s.regs) := by
  have hexec := (exec_hostDecision hclock hrun hen w).trans (congrArg _ (ldgDecide_reject htaken htime hreject))
  refine ⟨fun hkept => hexec.trans (congrArg _ (if_neg ?_)), fun hearly hopen => ⟨_, hexec.trans (congrArg _ (if_pos ?_)), ?_⟩⟩
  · rw [Bool.and_eq_true, beq_iff_eq, not_and_or, Bool.not_eq_true]
    exact hkept
  · rw [hearly, hopen]; rfl
  · exact ⟨congrArg Cross.st (State.cross_setCross_same _ _ _), rfl, rfl, rfl⟩

end

/-- The valid flits that the decision input takes of a slot, lane by lane, and the state without them (10 R510). -/
def slotTaken (slot : Nat) (ups : BitVec 4) (s : State) : List Flit × State :=
  (List.range 4).foldl (fun a lane =>
    let r := qtzEndpoint .ledger 0x448 slot lane (ups.getLsbD lane) (s.qtz.eqd.get 0 512) a.2
    (a.1 ++ r.1.toList.filter (·.valid), r.2)) ([], s)

/-- The first accept of the words is kept for the transmit frame, unless one is kept already (02 R85). -/
def acceptKept (ws : List Nat) (s t : State) : State :=
  match t.tmg.accept, (ws.filter fun w => decAccept w && decTaken s w && !decLate s w).head? with
  | none, some w => { t with tmg := { t.tmg with accept := some (decTag w) } }
  | _, _ => t

theorem acceptKept_cases (ws : List Nat) (s t : State) :
    ∃ a, acceptKept ws s t = { t with tmg := { t.tmg with accept := a } } ∧ (t.tmg.accept ≠ none → a = t.tmg.accept) := by
  unfold acceptKept
  split
  next w hnone _ => exact ⟨some (decTag w), rfl, fun hsome => absurd hnone hsome⟩
  next => exact ⟨_, rfl, fun _ => rfl⟩

theorem exec_quartzDecision (s : State) (slot : Fin 128) (ups : BitVec 4) : exec (.quartzDecision slot ups) s =
    .next (let got := slotTaken slot.val ups s
      if !s.unitClocked 9 || !s.ldgRunning || !s.on F.LDG_CTRL_DEC_QTZ_EN then got.2
      else ldgDecide 1 (got.1.map fun f => f.data.toNat) (acceptKept (got.1.map fun f => f.data.toNat) s got.2)) := by
  show execQuartzDecision slot ups s = _
  unfold execQuartzDecision slotTaken acceptKept
  generalize List.range 4 = lanes
  rfl

/-- The words of a slot are dropped, or they act together (10 R510, R517). -/
theorem completes_quartzDecision (s : State) (slot : Fin 128) (ups : BitVec 4) : Completes (.quartzDecision slot ups) s fun t =>
    let got := slotTaken slot.val ups s
    (s.unitClocked 9 = false ∨ s.on F.LDG_STATUS_RUNNING = false ∨ s.on F.LDG_CTRL_DEC_QTZ_EN = false → t = got.2) ∧
    (s.unitClocked 9 = true → s.on F.LDG_STATUS_RUNNING = true → s.on F.LDG_CTRL_DEC_QTZ_EN = true → ∃ a,
      t = ldgDecide 1 (got.1.map fun f => f.data.toNat) { got.2 with tmg := { got.2.tmg with accept := a } } ∧
      (got.2.tmg.accept ≠ none → a = got.2.tmg.accept)) := by
  refine ⟨_, exec_quartzDecision s slot ups, fun hoff => if_pos ?_, fun hclock hrun hen => ?_⟩
  · rcases hoff with hoff | hoff | hoff <;> simp [hoff, State.ldgRunning]
  · obtain ⟨a, hkept, hstands⟩ := acceptKept_cases ((slotTaken slot.val ups s).1.map fun f => f.data.toNat) s
      (slotTaken slot.val ups s).2
    refine ⟨a, ?_, hstands⟩
    rw [← hkept]
    exact if_neg (by simp [hclock, State.ldgRunning, hrun, hen])

/-- Two accepts of one undecided crossing, in either order: the lower class is that of its context (10 R517). -/
theorem ldgDecide_lowerClass {s : State} {tag : W16} {k j : Nat} {src : Nat} (hkj : k < j) (hj : j < 16)
    (htime : s.get F.LDG_WINDOW_CROSSINGS > s.age tag) (hclosed : s.ldg.open_ = none) (hopen : (s.cross tag).st = .undecided)
    (hfree : s.ldg.ctxs.length < ctxLimit s) (hk : bit (s.ldg.cls.get 8 k) 3 = true) (hj' : bit (s.ldg.cls.get 8 j) 3 = true)
    {ws : List Nat} (hws : ws = [acceptWord tag k, acceptWord tag j] ∨ ws = [acceptWord tag j, acceptWord tag k]) :
    ∃ c, (ldgDecide src ws s).ldg.ctxs = s.ldg.ctxs ++ [c] ∧ c.cls = k ∧ c.stream = s.ldg.cls.get 8 k % 8 := by
  have hlate : ∀ c, decLate s (acceptWord tag c) = false := by
    intro c
    rw [Bool.eq_false_iff, Ne, decLate_iff, decTag_acceptWord]
    simp [State.ldgW, htime, hclosed, hopen]
  have htag : ∀ c d, decTag (acceptWord tag c) = decTag (acceptWord tag d) := by
    intro c d; rw [decTag_acceptWord, decTag_acceptWord]
  have hst : ∀ c, (s.cross (decTag (acceptWord tag c))).st = .undecided := by
    intro c; rw [decTag_acceptWord, hopen]
  have hkt := decTaken_acceptWord tag (hkj.trans hj) hk
  have hjt := decTaken_acceptWord tag hj hj'
  have hdecide : ∃ t trig, ldgDecide src ws s = ldgAccept t k src trig s := by
    rcases hws with rfl | rfl
    · have hpair := ldgDecide_pair (src := src) ⟨hkt, hjt⟩ ⟨hlate k, hlate j⟩
        ⟨decAccept_acceptWord tag k, decAccept_acceptWord tag j⟩ (htag j k) (hst k)
      rw [decClass_acceptWord tag hj, decClass_acceptWord tag (hkj.trans hj), Nat.min_eq_left hkj.le] at hpair
      exact ⟨_, _, hpair⟩
    · have hpair := ldgDecide_pair (src := src) ⟨hjt, hkt⟩ ⟨hlate j, hlate k⟩
        ⟨decAccept_acceptWord tag j, decAccept_acceptWord tag k⟩ (htag k j) (hst j)
      rw [decClass_acceptWord tag hj, decClass_acceptWord tag (hkj.trans hj), Nat.min_eq_right hkj.le] at hpair
      exact ⟨_, _, hpair⟩
  obtain ⟨t, trig, hdecide⟩ := hdecide
  rw [hdecide, ldgAccept_allocates hfree]
  exact ⟨_, rfl, rfl, rfl⟩

/-- Settles O33: a word of the host case by case, the words of a Quartz slot, two accepts of one crossing, and expiry. -/
theorem ledgerDecisions : Obligations.LedgerDecisions := by
  refine ⟨fun s w hclock hrun hen => ?_, completes_quartzDecision, ?_, ?_⟩
  · have htag : w.setWidth 16 = decTag w.toNat := (BitVec.ofNat_toNat 16 w).symm
    intro tag cls accept fit late
    have hfit : fit ↔ decTaken s w.toNat = true := (decTaken_iff s w.toNat).symm
    have hlate : late ↔ decLate s w.toNat = true := by
      rw [decLate_iff, ← htag]; rfl
    have hexec := exec_hostDecision hclock hrun hen w
    refine ⟨fun hno => ?_, fun hyes hl => ?_, fun hyes hl hacc hopen => ?_, fun hyes hl hacc id htook => ?_, fun hyes hl hrej => ?_⟩
    · exact hexec.trans (congrArg _ (ldgDecide_ignored (Bool.eq_false_iff.mpr (hfit.not.mp hno))))
    · exact hexec.trans (congrArg _ (ldgDecide_late (hfit.mp hyes) (hlate.mp hl)))
    all_goals
      have htaken := hfit.mp hyes
      have htime := Bool.eq_false_iff.mpr (hlate.not.mp hl)
    · simp only [tag, htag] at hopen ⊢
      exact ⟨fun ⟨hfree, hnew⟩ => completes_hostDecision_allocates hclock hrun hen htaken htime hacc hopen hfree hnew,
        completes_hostDecision_defers hclock hrun hen htaken htime hacc hopen⟩
    · simp only [tag, htag] at htook
      exact exec_hostDecision_further hclock hrun hen htaken htime hacc htook
    · simp only [tag, htag]
      exact completes_hostDecision_rejects hclock hrun hen htaken htime hrej
  · intro s tag k j src hkj hj htime hclosed hopen hfree hk hj' dec ws hws
    exact ldgDecide_lowerClass hkj hj htime hclosed hopen hfree hk hj' hws
  · intro s x tag hfind
    refine ⟨fun hst => ?_, fun c k d w hst => ?_, fun c f hst honly htag hcollect hf hctx hen hstream => ?_,
      ldgExpire_forgets hfind⟩
    · rw [ldgExpire_undecided hfind hst]
      exact ⟨rfl, rfl, rfl⟩
    · rw [ldgExpire_deferred hfind hst]
      refine ⟨State.on_put_one (by decide) (by decide), ?_, rfl⟩
      rw [State.get_raise_sep (by decide), State.get_bumpHold_same (by decide)]; rfl
    · obtain ⟨d, hctxs, hstate, hearly, hloss, hnum, hseq, hregs⟩ := ldgClose_alone honly hf hctx false
      rw [ldgExpire_accepted hfind hst (ldgCtx_singleton honly) hcollect]
      have hcross : (s.cross c.tag).loss = x.loss := by
        rw [htag, State.cross, Tbl.get, show s.ldg.cross.find tag = some x from hfind]; rfl
      have hlt := State.get_lt s F.LDG_STR_SEQ_NEXT c.stream
      refine ⟨d, hctxs, hstate, ?_, hnum.trans hen, by rw [hloss, hcross], by rw [hearly, Bool.or_false], ?_⟩
      · rw [hseq, BitVec.toNat_ofNat]; exact Nat.mod_eq_of_lt hlt
      · rw [State.setLdg_get, State.get, State.rd, hregs, hen]
        exact State.get_put_same s F.LDG_STR_SEQ_NEXT c.stream _ (by decide)

end Sys2Proof.Machine
end

section
/-! Pages and their bytes (10 R531 to R537): which page a context takes, and what a write or a read of its body leaves. -/

namespace Sys2Proof.Machine

/-- A context is found under its number where no other has it. -/
theorem ldgCtx_of_mem {s : State} {x : Ctx} (hx : x ∈ s.ldg.ctxs) (hone : ∀ c ∈ s.ldg.ctxs, c.id = x.id → c = x) :
    ldgCtx s x.id = some x := by
  have hsome : (s.ldg.ctxs.find? fun c => c.id == x.id).isSome := List.find?_isSome.mpr ⟨x, hx, beq_self_eq_true x.id⟩
  obtain ⟨y, hy⟩ := Option.isSome_iff_exists.mp hsome
  rw [ldgCtx, hy, hone y (List.mem_of_find?_eq_some hy) (eq_of_beq (List.find?_some (p := fun c : Ctx => c.id == x.id) hy))]

/-- A change of a context that keeps its number is found under that number. -/
theorem ldgCtx_ldgModCtx {s : State} {id : Nat} {x : Ctx} (hx : ldgCtx s id = some x) {g : Ctx → Ctx} (hg : ∀ y, (g y).id = y.id) :
    ldgCtx (ldgModCtx id g s) id = some (g x) := by
  have hid : ∀ y : Ctx, (if y.id == id then g y else y).id = y.id := by
    intro y; split <;> simp [hg]
  have hsame : ((fun c : Ctx => c.id == id) ∘ fun c => if c.id == id then g c else c) = fun c => c.id == id :=
    funext fun y => congrArg (· == id) (hid y)
  have hmine : x.id == id := List.find?_some (p := fun c : Ctx => c.id == id) hx
  rw [ldgCtx] at hx
  rw [ldgCtx, ldgModCtx, State.setLdg_ldg, List.find?_map, hsame, hx, Option.map_some, if_pos hmine]

/-! Which page it takes (10 R531). -/

theorem length_poolUsed_lt {s : State} {c : Nat} (h : poolGives s c = true) :
    (poolUsed s c).length < s.get F.LDG_POOL_PAGES_COUNT c := by
  rw [poolGives, Bool.and_eq_true, decide_eq_true_eq, poolFree] at h
  omega

/-- Of `n` pages, fewer of them in use, one that is not in use is picked. -/
theorem pickFree_free {used : List Nat} {n : Nat} (h : used.length < n) (cand : Nat) :
    pickFree used n cand ∉ used ∧ pickFree used n cand < n := by
  have hn : 0 < n := by omega
  unfold pickFree
  cases hk : (List.range (used.length + 1)).find? fun k => !used.contains ((cand + k) % n) with
  | some k =>
    have hfree := List.find?_some hk
    simp only [Bool.not_eq_true', List.contains_eq_mem, decide_eq_false_iff_not] at hfree
    exact ⟨hfree, Nat.mod_lt _ hn⟩
  | none =>
    exfalso
    have hall : ∀ k < used.length + 1, (cand + k) % n ∈ used := by
      intro k hlt
      simpa using List.find?_eq_none.mp hk k (List.mem_range.mpr hlt)
    have hinj : ∀ i ∈ List.range (used.length + 1), ∀ j ∈ List.range (used.length + 1), (cand + i) % n = (cand + j) % n → i = j := by
      intro i hi j hj heq
      have hi := List.mem_range.mp hi
      have hj := List.mem_range.mp hj
      have hcong : i ≡ j [MOD n] := Nat.ModEq.add_left_cancel' cand heq
      exact Nat.ModEq.eq_of_lt_of_lt hcong (by omega) (by omega)
    have hsub : (List.range (used.length + 1)).map (fun k => (cand + k) % n) ⊆ used := by
      intro p hp
      obtain ⟨k, hk, rfl⟩ := List.mem_map.mp hp
      exact hall k (List.mem_range.mp hk)
    have hle := ((List.nodup_range.map_on hinj).subperm hsub).length_le
    simp at hle

/-- The pool that gives the next page: one that has a page, and the first asked where that has one. -/
theorem poolFrom_gives {s : State} {start c : Nat} (h : poolFrom s start = some c) :
    poolGives s c = true ∧ c < 4 ∧ (start < 4 → poolGives s start = true → c = start) := by
  have hgives : poolGives s c = true := List.find?_some h
  have hmem := List.mem_of_find?_eq_some h
  obtain ⟨k, -, rfl⟩ := List.mem_map.mp hmem
  refine ⟨hgives, Nat.mod_lt _ (by decide), fun hlt hstart => ?_⟩
  have hfirst : poolFrom s start = some ((start + 0) % 4) := by
    rw [poolFrom, show List.range 4 = [0, 1, 2, 3] from rfl, List.map_cons, List.find?_cons_of_pos]
    rw [Nat.add_zero, Nat.mod_eq_of_lt hlt]
    exact hstart
  rw [hfirst, Option.some_inj] at h
  omega

/-- The pool that is asked first for a context's next page. -/
def firstPool (s : State) (x : Ctx) : Nat :=
  match x.pages.getLast? with
  | some p => p.1
  | none => match s.ldg.lastPool with | some c => c + 1 | none => 0

/-- The state in which a context has taken page `p`. -/
def pageTaken (x : Ctx) (id : Nat) (p : Nat × Nat) (t : State) : State :=
  if x.pages.isEmpty then (ldgModCtx id (fun y => { y with pages := y.pages ++ [p] }) t).setLdg fun l => { l with lastPool := some p.1 }
  else ldgModCtx id (fun y => { y with pages := y.pages ++ [p] }) t

theorem ctxPage_eq {s : State} {id : Nat} {x : Ctx} (hx : ldgCtx s id = some x) :
    ctxPage id s = (pickPage (firstPool s x) s).map fun r => pageTaken x id r.1 r.2 := by
  have hmatch : ctxPage id s = match pickPage (firstPool s x) s with
      | none => none
      | some (p, t) => some (pageTaken x id p t) := by
    simp only [ctxPage, hx]; rfl
  rw [hmatch]
  cases pickPage (firstPool s x) s <;> rfl

theorem pageTaken_pages {t : State} {id : Nat} {x : Ctx} (hx : ldgCtx t id = some x) (p : Nat × Nat) :
    (ldgCtx (pageTaken x id p t) id).map (·.pages) = some (x.pages ++ [p]) := by
  have hmod := ldgCtx_ldgModCtx hx (g := fun y => { y with pages := y.pages ++ [p] }) fun _ => rfl
  unfold pageTaken
  split <;> exact congrArg (Option.map (·.pages)) hmod

theorem pageTaken_frame (x : Ctx) (id : Nat) (p : Nat × Nat) (t : State) :
    pageTaken x id p t = { t with ldg := (pageTaken x id p t).ldg, free := (pageTaken x id p t).free } := by
  unfold pageTaken
  split <;> rfl

/-- A context that takes a page has one more, free until then, of a pool in service. -/
theorem ctxPage_takes {s t : State} {id : Nat} {x : Ctx} (hx : ldgCtx s id = some x) (ht : ctxPage id s = some t) :
    ∃ c p, (ldgCtx t id).map (·.pages) = some (x.pages ++ [(c, p)]) ∧ c < 4 ∧ s.poolInService c = true ∧
      p ∉ poolUsed s c ∧ p < s.get F.LDG_POOL_PAGES_COUNT c ∧
      (∀ q, x.pages.getLast? = some q → q.1 < 4 → poolGives s q.1 = true → c = q.1) ∧
      t = { s with ldg := t.ldg, free := t.free } := by
  rw [ctxPage_eq hx, pickPage, Option.map_map, Option.map_eq_some_iff] at ht
  obtain ⟨c, hpool, rfl⟩ := ht
  obtain ⟨hgives, hlt, hfirst⟩ := poolFrom_gives hpool
  obtain ⟨hfree, hbound⟩ := pickFree_free (length_poolUsed_lt hgives)
    (Config.freeNat s.free % s.get F.LDG_POOL_PAGES_COUNT c)
  have hservice : s.poolInService c = true := by
    rw [poolGives, Bool.and_eq_true] at hgives
    exact hgives.1
  refine ⟨c, _, pageTaken_pages (t := s.fresh) hx _, hlt, hservice, hfree, hbound, fun q hq hq4 hqgives => ?_, ?_⟩
  · have hstart : firstPool s x = q.1 := by rw [firstPool, hq]
    rw [hstart] at hfirst
    exact hfirst hq4 hqgives
  · exact pageTaken_frame x id _ s.fresh

/-! Where bytes of a body go (10 R532, R537). -/

/-- A context with pages enough, all of pools that are not retired, stays as it is. -/
theorem ctxPlace_placed {s : State} {id lo hi : Nat} {x : Ctx} (hx : ldgCtx s id = some x)
    (hpages : (hi + 4095) / 4096 ≤ x.pages.length) (hservice : ∀ p ∈ x.pages, s.on F.LDG_POOL_STATUS_RETIRED p.1 = false) :
    ctxPlace id lo hi s = some s := by
  have henough : ctxPages id ((hi + 4095) / 4096) ((hi + 4095) / 4096) s = some s := by
    cases hneed : (hi + 4095) / 4096 with
    | zero => rfl
    | succ n => rw [ctxPages, hx]; exact if_pos (hneed ▸ hpages)
  have hrenew : ∀ i < (hi + 4095) / 4096, ctxRenew id i s = some s := by
    intro i hi
    rw [ctxRenew, hx]
    refine if_neg ?_
    rw [Bool.not_eq_true, List.getD_eq_getElem _ _ (hi.trans_le hpages)]
    exact hservice _ (List.getElem_mem _)
  have hfold : ∀ l : List Nat, (∀ i ∈ l, i < (hi + 4095) / 4096) →
      l.foldl (fun o i => o.bind (ctxRenew id i)) (some s) = some s := by
    intro l
    induction l with
    | nil => exact fun _ => rfl
    | cons i l ih =>
      intro hl
      rw [List.foldl_cons, Option.bind_some, hrenew i (hl i List.mem_cons_self)]
      exact ih fun j hj => hl j (List.mem_cons_of_mem _ hj)
  rw [ctxPlace]
  simp only [henough]
  refine hfold _ fun i hi => ?_
  have := (List.mem_range'_1.mp hi)
  omega

/-- Where no pool has a page, a context that needs one goes without. -/
theorem ctxPlace_waits {s : State} {id lo hi : Nat} {x : Ctx} (hx : ldgCtx s id = some x)
    (hpages : x.pages.length < (hi + 4095) / 4096) (hempty : ∀ c, c < 4 → poolGives s c = false) :
    ctxPlace id lo hi s = none := by
  have hpool : poolFrom s (firstPool s x) = none := by
    rw [poolFrom, List.find?_eq_none]
    intro c hc
    obtain ⟨k, -, rfl⟩ := List.mem_map.mp hc
    rw [hempty _ (Nat.mod_lt _ (by decide))]
    exact Bool.false_ne_true
  have hpage : ctxPage id s = none := by rw [ctxPage_eq hx, pickPage, hpool]; rfl
  have hnone : ctxPages id ((hi + 4095) / 4096) ((hi + 4095) / 4096) s = none := by
    obtain ⟨n, hneed⟩ := Nat.exists_eq_succ_of_ne_zero (Nat.ne_of_gt (Nat.zero_lt_of_lt hpages))
    rw [hneed, ctxPages, hx]
    simp only [hpage]
    exact if_neg (Nat.not_le.mpr (hneed ▸ hpages))
  have hfold : ∀ l : List Nat, l.foldl (fun o i => o.bind (ctxRenew id i)) (none : Option State) = none := by
    intro l
    induction l with
    | nil => rfl
    | cons i l ih => exact ih
  rw [ctxPlace]
  simp only [hnone]
  exact hfold _

end Sys2Proof.Machine
end

section
/-! A page write (10 R525, R532 to R537). -/

namespace Sys2Proof.Machine

/-- The tier's word is read without error. -/
theorem tierReadFrag_clean {f : Frag} {s : State} (howns : s.owns 0x4B (bankOf f.addr) = true)
    (hdom : s.domOn (86 + bankOf f.addr / 8) = true) : tierReadFrag f .clean s = (f.hdr, f.data, s) := by
  have howns' : s.owns ldgIni (bankOf f.addr) = true := howns
  simp [tierReadFrag, howns', hdom]

/-- A lasting error of the tier, or a bank that is not the Ledger's, poisons the fragment (10 R534, R535). -/
theorem tierReadFrag_poisoned (f : Frag) (s : State) {tier : TierRead} (h : tier = .lasting ∨ tier = .refused) :
    (tierReadFrag f tier s).1 = f.hdr ||| BitVec.ofNat 64 (2 ^ 42) ∧
      (tierReadFrag f tier s).2.2.on F.LDG_ERR_POISON_LASTING = true ∧
      (tierReadFrag f tier s).2.2.get F.LDG_POISON_LASTING = min (s.get F.LDG_POISON_LASTING + 1) 0xFFFF ∧
      (tierReadFrag f tier s).2.1.length = f.data.length := by
  have hmarks : ∀ t : State, t.get F.LDG_POISON_LASTING = s.get F.LDG_POISON_LASTING →
      let u := ldgLog f.addr 0 f.src ((t.bumpHold F.LDG_POISON_LASTING).raise F.LDG_ERR_POISON_LASTING)
      u.on F.LDG_ERR_POISON_LASTING = true ∧ u.get F.LDG_POISON_LASTING = min (s.get F.LDG_POISON_LASTING + 1) 0xFFFF := by
    intro t ht
    have hlog := ldgLog_regsBut f.addr 0 f.src ((t.bumpHold F.LDG_POISON_LASTING).raise F.LDG_ERR_POISON_LASTING)
    refine ⟨(regsBut_on hlog (by decide)).trans (State.on_put_one (by decide) (by decide)), (regsBut_get hlog (by decide)).trans ?_⟩
    rw [State.get_raise_sep (by decide), State.get_bumpHold_same (by decide), ht]; rfl
  have hcases : tierReadFrag f tier s = (f.hdr ||| BitVec.ofNat 64 (2 ^ 42), (s.freeBytes f.data.length).1,
        ldgLog f.addr 0 f.src (((s.freeBytes f.data.length).2.bumpHold F.LDG_POISON_LASTING).raise F.LDG_ERR_POISON_LASTING)) ∨
      tierReadFrag f tier s = (f.hdr ||| BitVec.ofNat 64 (2 ^ 42), List.replicate f.data.length 0,
        ldgLog f.addr 0 f.src ((s.bumpHold F.LDG_POISON_LASTING).raise F.LDG_ERR_POISON_LASTING)) := by
    rcases h with rfl | rfl
    · cases howns : s.owns ldgIni (bankOf f.addr) && s.domOn (86 + bankOf f.addr / 8) with
      | true => exact .inl (by simp only [tierReadFrag, howns, if_true])
      | false => exact .inr (by simp only [tierReadFrag, howns, Bool.false_eq_true, if_false])
    · exact .inr (by simp only [tierReadFrag, ite_self])
  rcases hcases with hread | hread
  · rw [hread]
    obtain ⟨hflag, hcount⟩ := hmarks (s.freeBytes f.data.length).2 rfl
    exact ⟨rfl, hflag, hcount, by simp [State.freeBytes]⟩
  · rw [hread]
    obtain ⟨hflag, hcount⟩ := hmarks s rfl
    exact ⟨rfl, hflag, hcount, List.length_replicate⟩

section
variable {s : State} {i : Nat} {x : Ctx} {f : Frag} {l : List Frag} (hclock : s.unitClocked 9 = true)
  (hthaw : s.ldgFrozen = false) (hyields : s.pagingYields i = false) (hi : s.ldg.ctxs[i]? = some x)
  (hleft : unpaged s x.id = f :: l) (hfull : x.packed = false)
include hclock hthaw hyields hi hleft hfull

/-- A FULL context at its page limit becomes OVERSIZE and drops what is not paged (10 R533). -/
theorem exec_pageWrite_oversize (hlimit : maxPages s < (x.body + (8 + f.data.length) + 4095) / 4096)
    (hcollect : x.state = .collect) (tier : TierRead) (e1 e2 : Env) : exec (.pageWrite i tier e1 e2) s =
      .next (dropFrags (fun g => g.ctx == some x.id) (ldgModCtx x.id (fun y => { y with oversize := true }) s)) := by
  show execPageWrite i tier e1 e2 s = _
  simp [execPageWrite, hi, hclock, hthaw, hyields, hleft, hfull, hlimit, hcollect]

variable (hroom : (x.body + (8 + f.data.length) + 4095) / 4096 ≤ maxPages s)
include hroom

theorem exec_pageWrite_waits (hplace : ctxPlace x.id x.body (x.body + (8 + f.data.length)) s = none) (tier : TierRead)
    (e1 e2 : Env) : exec (.pageWrite i tier e1 e2) s = .next (ldgWait x.id s) := by
  show execPageWrite i tier e1 e2 s = _
  simp [execPageWrite, hi, hclock, hthaw, hyields, hleft, hfull, Nat.not_lt.mpr hroom, hplace]

/-- Header and payload of a clean fragment go into the body, and the fragment leaves the tier. -/
theorem exec_pageWrite_clean (hplace : ctxPlace x.id x.body (x.body + (8 + f.data.length)) s = some s)
    (hcollect : x.state = .collect) (howns : s.owns 0x4B (bankOf f.addr) = true)
    (hdom : s.domOn (86 + bankOf f.addr / 8) = true) (e1 e2 : Env) : exec (.pageWrite i .clean e1 e2) s = .next
      (dropFrags (fun g => g.ctx == some x.id && g.src == f.src) (ldgModCtx x.id (fun y => { y with
        body := y.body + (8 + f.data.length), frags := y.frags + 1,
        codes := y.codes.set f.src (slotCode f.hdr.toNat f.data.length (x.slots.getD (f.src - x.first) 0)),
        poisoned := y.poisoned || bit f.hdr.toNat 41 || bit f.hdr.toNat 42, short := y.short || bit f.hdr.toNat 40 })
        (bodyWrite x.id x.body f.src (natBytes f.hdr.toNat 8 ++ f.data) e1 e2
          (ldgModCtx x.id (fun y => { y with waits := false }) s)))) := by
  have hread : tierReadFrag f .clean (ldgGo x.id s) = (f.hdr, f.data, ldgGo x.id s) := tierReadFrag_clean howns hdom
  show execPageWrite i .clean e1 e2 s = _
  simp [execPageWrite, hi, hclock, hthaw, hyields, hleft, hfull, Nat.not_lt.mpr hroom, hplace, hcollect, hread]
  rfl

end

end Sys2Proof.Machine
end

section
/-! Bytes of a body whose write and its repeat both fail (10 R536). -/

namespace Sys2Proof.Machine

/-- A range within one page is one piece. -/
theorem pagePieces_single {off n : Nat} (hn : 0 < n) (hpage : off % 4096 + n ≤ 4096) : pagePieces off n = [(off, n)] := by
  have hone : (off % 4096 + n + 4095) / 4096 = 1 := by omega
  have hlo : max off ((off / 4096 + 0) * 4096) = off := by omega
  have hhi : min (off + n) ((off / 4096 + 0 + 1) * 4096) - off = n := by omega
  simp only [pagePieces, hone, List.range_one, List.map_cons, List.map_nil, hlo, hhi]

/-- An access that the network refuses leaves the state. -/
theorem ldgWriteDram_refused {e : Env} {r : Resp} (hnet : e.net = some r) (hr : r ≠ .okay) (a : Nat) (bs : List Byte) (s : State) :
    ldgWriteDram a bs e s = (r, s) := by
  simp [ldgWriteDram, hnet, hr]

theorem ldgReadDram_refused {e : Env} {r : Resp} (hnet : e.net = some r) (hr : r ≠ .okay) (a n : Nat) (s : State) :
    ldgReadDram a n e s = (⟨r, [], []⟩, s) := by
  simp [ldgReadDram, hnet, hr]

theorem bodyWrite_lost {s : State} {id off : Nat} {x : Ctx} {bs : List Byte} {e1 e2 : Env} {r1 r2 : Resp} (src : Nat)
    (hfirst : e1.net = some r1) (hr1 : r1 ≠ .okay) (hsecond : e2.net = some r2) (hr2 : r2 ≠ .okay) (hx : ldgCtx s id = some x)
    (hbytes : 0 < bs.length) (hpage : off % 4096 + bs.length ≤ 4096) :
    ∃ y, ldgCtx (bodyWrite id off src bs e1 e2 s) id = some y ∧ y.lost = x.lost ++ [(off, bs.length)] ∧ y.dataLost = true ∧
      y.pages = x.pages ∧ (bodyWrite id off src bs e1 e2 s).mem = s.mem := by
  have hwrite : bodyWrite id off src bs e1 e2 s = ldgLog (bodyAddr s x off) 1 src
      (ldgModCtx id (fun y => { y with lost := y.lost ++ [(off, bs.length)], dataLost := true }) s) := by
    have hne : bs.isEmpty = false := by rw [List.isEmpty_eq_false_iff]; exact List.ne_nil_of_length_pos hbytes
    simp [bodyWrite, hne, pagePieces_single hbytes hpage, State.each, hx, ldgWriteDram_refused hfirst hr1,
      ldgWriteDram_refused hsecond hr2, hr1, hr2]
  have hmod := ldgCtx_ldgModCtx hx (g := fun y => { y with lost := y.lost ++ [(off, bs.length)], dataLost := true }) fun _ => rfl
  have hmem : ∀ (a k : Nat) (t : State), (ldgLog a k src t).mem = t.mem := by
    intro a k t; unfold ldgLog; split <;> rfl
  rw [hwrite]
  refine ⟨{ x with lost := x.lost ++ [(off, bs.length)], dataLost := true }, ?_, rfl, rfl, rfl, hmem _ _ _⟩
  rw [ldgCtx, ldgLog_ldg]
  exact hmod

end Sys2Proof.Machine
end

section
/-! Reads of DDR5 channels leave the host link's engine (16 R848 to R850, R861). -/

namespace Sys2Proof.Machine

theorem each_ktp {α : Type} {g : State → α → State} (hg : ∀ s a, (g s a).ktp = s.ktp) (l : List α) (s : State) :
    (s.each l g).ktp = s.ktp := by
  induction l generalizing s with
  | nil => rfl
  | cons a l ih => exact (ih (g s a)).trans (hg s a)

theorem ktp_ite {s a b : State} {c : Prop} [Decidable c] (ha : a.ktp = s.ktp) (hb : b.ktp = s.ktp) :
    (if c then a else b).ktp = s.ktp := by split <;> assumption

@[simp] theorem pokes_ktp (s : State) (a : Nat) (l : List Byte) : (s.pokes a l).ktp = s.ktp := by
  induction l generalizing s a with
  | nil => rfl
  | cons b t ih => exact ih _ _

@[simp] theorem logFirst_ktp (r : Reg) (a ini : Nat) (s : State) : (logFirst r a ini s).ktp = s.ktp := ktp_ite rfl rfl

@[simp] theorem chanLog_ktp (c a ini kind : Nat) (s : State) : (chanLog c a ini kind s).ktp = s.ktp := ktp_ite rfl rfl

@[simp] theorem nocLog_ktp (ini a : Nat) (r : Resp) (posted : Bool) (s : State) : (nocLog ini a r posted s).ktp = s.ktp :=
  ktp_ite rfl rfl

@[simp] theorem ldgLog_ktp (addr kind src : Nat) (s : State) : (ldgLog addr kind src s).ktp = s.ktp := ktp_ite rfl rfl

@[simp] theorem tagFail_ktp (a ini : Nat) (s : State) : (tagFail a ini s).ktp = s.ktp := logFirst_ktp _ _ _ _

theorem noteEnd_ktp (ini a : Nat) (posted : Bool) (r : Resp) (s : State) : (noteEnd ini a posted r s).ktp = s.ktp :=
  ktp_ite rfl (ktp_ite (ktp_ite rfl (nocLog_ktp _ _ _ _ _)) (ktp_ite (nocLog_ktp _ _ _ _ _) (nocLog_ktp _ _ _ _ _)))

theorem reqAnswer_ktp (r : DramReq) (m : MemAns) (s : State) : (reqAnswer r m s).ktp = s.ktp :=
  ktp_ite (noteEnd_ktp _ _ _ _ _) (ktp_ite (noteEnd_ktp _ _ _ _ _) rfl)

theorem queueOffline_ktp (c : Nat) (s : State) : (queueOffline c s).ktp = s.ktp :=
  each_ktp (fun _ _ => reqAnswer_ktp _ _ _) _ _

theorem chanRetire_ktp (c : Nat) (s : State) : (chanRetire c s).ktp = s.ktp :=
  ktp_ite rfl (ktp_ite (queueOffline_ktp _ _) (queueOffline_ktp _ _))

@[simp] theorem chanUe_ktp (c : Nat) (s : State) : (chanUe c s).ktp = s.ktp := ktp_ite (chanRetire_ktp _ _) rfl

theorem lineRead_ktp (ini a : Nat) (u : Upset) (kind0 : Bool) (s : State) : (lineRead ini a u kind0 s).2.2.2.ktp = s.ktp := by
  have hwhen : ∀ (c : Nat) (t : State), ((chanUe c t).when kind0 (chanLog c a ini 0)).ktp = t.ktp := by
    intro c t; cases kind0 <;> simp [State.when]
  have hite : ∀ {c : Prop} [Decidable c] {p q : LineRead × List Byte × Option Resp × State}, p.2.2.2.ktp = s.ktp →
      q.2.2.2.ktp = s.ktp → (if c then p else q).2.2.2.ktp = s.ktp := by
    intro c _ p q hp hq; split <;> assumption
  unfold lineRead
  dsimp only
  split
  next => exact hite (hwhen _ _) (hite (tagFail_ktp _ _ _) rfl)
  next =>
    split
    next => exact hite (hwhen _ _) (hite ((hwhen _ _).trans (pokes_ktp _ _ _)) (hwhen _ _))
    next => exact hite (ktp_ite rfl rfl) ((tagFail_ktp _ _ _).trans (ktp_ite rfl rfl))

theorem dramRead_ktp (ini a n : Nat) (env : Env) (s : State) : (dramRead ini a n env s).2.ktp = s.ktp := by
  unfold dramRead
  split
  next => rfl
  next =>
    have hlines := List.foldlRecOn (linesOf a n) (fun acc l =>
        let (k, bs, r, t) := lineRead ini l acc.2.2.2.1 true acc.2.2.2.2
        (acc.1 ++ bs, acc.2.1 ++ [k], acc.2.2.1.orElse (fun _ => r), Upset.none, t))
      (motive := fun acc : List Byte × List LineRead × Option Resp × Upset × State => acc.2.2.2.2.ktp = s.ktp)
      (b := ([], [], none, env.upset, s)) rfl
      (fun acc hacc l _ => (lineRead_ktp ini l acc.2.2.2.1 true acc.2.2.2.2).trans hacc)
    dsimp only at hlines ⊢
    split
    · exact hlines
    · split
      · exact hlines
      · split <;> exact hlines

theorem ldgReadDram_ktp (a n : Nat) (e : Env) (s : State) : (ldgReadDram a n e s).2.ktp = s.ktp := by
  unfold ldgReadDram
  split
  next =>
    split
    · exact dramRead_ktp _ _ _ _ _
    · rfl
  next => exact dramRead_ktp _ _ _ _ _

end Sys2Proof.Machine
end

section
/-! Chunks (10 R543 to R549): what a read of a body and the end of a record leave of credits, stalls and the engine. -/

namespace Sys2Proof.Machine

/-- The host link's engine stands, and so do the credit and the stall flag of every stream. -/
structure CreditKept (s t : State) : Prop where
  ktp : t.ktp = s.ktp
  credit : ∀ j, t.get F.LDG_STR_CREDIT_BYTES j = s.get F.LDG_STR_CREDIT_BYTES j
  stalled : ∀ j, t.on F.LDG_STR_STATUS_STALLED j = s.on F.LDG_STR_STATUS_STALLED j

namespace CreditKept
variable {s t u : State}

theorem refl (s : State) : CreditKept s s := ⟨rfl, fun _ => rfl, fun _ => rfl⟩

theorem trans (h : CreditKept s t) (k : CreditKept t u) : CreditKept s u :=
  ⟨k.ktp.trans h.ktp, fun j => (k.credit j).trans (h.credit j), fun j => (k.stalled j).trans (h.stalled j)⟩

theorem put {f : Fld} (hcredit : f.sep F.LDG_STR_CREDIT_BYTES = true) (hstalled : f.sep F.LDG_STR_STATUS_STALLED = true)
    (s : State) (i v : Nat) : CreditKept s (s.put f i v) :=
  ⟨rfl, fun _ => State.get_put_sep hcredit, fun _ => State.on_put_sep hstalled⟩

theorem setLdg (s : State) (g : Ledger → Ledger) : CreditKept s (s.setLdg g) := ⟨rfl, fun _ => rfl, fun _ => rfl⟩

theorem ldgLog (addr kind src : Nat) (s : State) : CreditKept s (ldgLog addr kind src s) := by
  refine ⟨ldgLog_ktp _ _ _ _, fun j => ?_, fun j => ?_⟩
  · unfold Machine.ldgLog
    split
    · rfl
    · exact State.get_wr_apart (by decide)
  · unfold Machine.ldgLog
    split
    · rfl
    · rw [State.on, State.get_wr_apart (by decide), State.on]

theorem ldgStreamOff (k : Nat) (s : State) : CreditKept s (ldgStreamOff k s) := by
  unfold Machine.ldgStreamOff
  split
  · exact refl s
  · exact List.foldlRecOn (motive := fun t => CreditKept s t) _ _ (refl s) fun t ht c _ =>
      (ht.trans (setLdg t _)).trans (put (f := F.LDG_STR_DISCARDS_COUNT) (by decide) (by decide) _ c.stream _)

/-- A read that the network refuses twice. -/
theorem bodyRead_refused {e1 e2 : Env} {r1 r2 : Resp} (hfirst : e1.net = some r1) (hr1 : r1 ≠ .okay) (hsecond : e2.net = some r2)
    (hr2 : r2 ≠ .okay) (x : Ctx) (off n : Nat) (s : State) : CreditKept s (bodyRead x off n e1 e2 s).2.2 := by
  unfold bodyRead
  refine List.foldlRecOn (motive := fun acc : List Byte × Bool × State => CreditKept s acc.2.2) _ _ (refl s) fun acc hacc p _ => ?_
  simp only [ldgReadDram_refused hfirst hr1, ldgReadDram_refused hsecond hr2, hr1, hr2, if_false]
  exact (hacc.trans (put (f := F.LDG_ERR_DATA_LOST) (by decide) (by decide) _ 0 1)).trans (ldgLog _ _ _ _)

end CreditKept

theorem bodyRead_ktp (x : Ctx) (off n : Nat) (e1 e2 : Env) (s : State) : (bodyRead x off n e1 e2 s).2.2.ktp = s.ktp := by
  unfold bodyRead
  refine List.foldlRecOn (motive := fun acc : List Byte × Bool × State => acc.2.2.ktp = s.ktp) _ _ rfl fun acc hacc p _ => ?_
  have hfirst := ldgReadDram_ktp (bodyAddr acc.2.2 x p.1) p.2 e1 acc.2.2
  have hsecond := ldgReadDram_ktp (bodyAddr acc.2.2 x p.1) p.2 e2 (ldgReadDram (bodyAddr acc.2.2 x p.1) p.2 e1 acc.2.2).2
  dsimp only
  split
  · exact hfirst.trans hacc
  · split
    · exact hsecond.trans (hfirst.trans hacc)
    · simp only [ldgLog_ktp, State.raise_ktp, hsecond, hfirst, hacc]

/-- Two streams' credits lie in two registers. -/
theorem streamCredit_addr_ne {j k : Nat} (hj : j < 8) (hk : k < 8) (h : j ≠ k) :
    F.LDG_STR_CREDIT_BYTES.reg.addr k ≠ F.LDG_STR_CREDIT_BYTES.reg.addr j := by
  simp only [Reg.addr, F.LDG_STR_CREDIT_BYTES, R.LDG_STR_CREDIT]
  omega

/-- Each number of a list is at most the highest. -/
theorem le_foldl_max (g : Nat → Nat) (l : List Nat) (a : Nat) :
    a ≤ l.foldl (fun a k => max a (g k)) a ∧ ∀ k ∈ l, g k ≤ l.foldl (fun a k => max a (g k)) a := by
  induction l generalizing a with
  | nil => exact ⟨Nat.le_refl a, fun k hk => absurd hk List.not_mem_nil⟩
  | cons b l ih =>
    obtain ⟨hstart, hrest⟩ := ih (max a (g b))
    refine ⟨(Nat.le_max_left a (g b)).trans hstart, fun k hk => ?_⟩
    rcases List.mem_cons.mp hk with rfl | hk
    · exact (Nat.le_max_right a (g k)).trans hstart
    · exact hrest k hk

/-- The stream served can send, and none that can has a higher priority (10 R548). -/
theorem chunkStream_served {s : State} {room : Nat → Nat → Bool} {k : Nat} (h : chunkStream s room = some k) :
    k < 8 ∧ chunkReady s room k = true ∧
      ∀ j, j < 8 → chunkReady s room j = true → s.get F.LDG_STR_CTRL_PRI j ≤ s.get F.LDG_STR_CTRL_PRI k := by
  have hserved := List.find?_some h
  simp only [Bool.and_eq_true, List.contains_iff_mem, List.mem_filter, List.mem_range, beq_iff_eq] at hserved
  obtain ⟨⟨hlt, hready⟩, htop⟩ := hserved
  refine ⟨hlt, hready, fun j hj hjready => ?_⟩
  rw [htop]
  exact (le_foldl_max (fun j => s.get F.LDG_STR_CTRL_PRI j) _ 0).2 j (List.mem_filter.mpr ⟨List.mem_range.mpr hj, hjready⟩)

/-- A stream that can send has the credit of its chunk, and no other record holds its KTP readout stream (10 R545, R549). -/
theorem chunkReady_has {s : State} {room : Nat → Nat → Bool} {k : Nat} {x : Ctx} (h : chunkReady s room k = true)
    (hx : nextRecord s k = some x) : chunkLen x ≤ s.get F.LDG_STR_CREDIT_BYTES k ∧
      ∀ id, s.ldg.owner.find (s.get F.LDG_STR_CTRL_KTP_STREAM k) = some id → id = x.id := by
  simp only [chunkReady, hx, Bool.and_eq_true, decide_eq_true_eq] at h
  obtain ⟨⟨hcredit, hfree⟩, -⟩ := h
  refine ⟨hcredit, fun id hid => ?_⟩
  rw [hid] at hfree
  exact eq_of_beq hfree

/-- A chunk takes its length from the credit of its stream and ends its stall, after its bytes are read. -/
theorem ldgChunk_sends {s : State} {room : Nat → Nat → Bool} {k : Nat} {x : Ctx} (hk : chunkStream s room = some k)
    (hx : nextRecord s k = some x) (e1 e2 : Env) : ∃ bs off n t,
      ldgChunk room e1 e2 s = some (s.get F.LDG_STR_CTRL_KTP_STREAM k, x.sent == 0, bs, t) ∧
      CreditKept (((bodyRead x off n e1 e2 s).2.2.put F.LDG_STR_CREDIT_BYTES k (s.get F.LDG_STR_CREDIT_BYTES k - chunkLen x)).clear
        F.LDG_STR_STATUS_STALLED k) t := by
  simp only [ldgChunk, hk, hx]
  refine ⟨_, max x.sent 32 - 32, min (x.sent + chunkLen x) (32 + bodyLen x) - 32 - (max x.sent 32 - 32), _, rfl, ?_⟩
  have hwhen : ∀ (b : Bool) (u : State), CreditKept u (u.when b (·.raise F.LDG_ERR_DATA_LOST)) := by
    intro b u
    cases b
    · exact .refl u
    · exact .put (f := F.LDG_ERR_DATA_LOST) (by decide) (by decide) u 0 1
  split
  · exact ((hwhen _ _).trans (.setLdg _ _)).trans ((CreditKept.setLdg _ _).trans (.ldgStreamOff _ _))
  · exact ((hwhen _ _).trans (.setLdg _ _)).trans (.setLdg _ _)

section
variable {s : State} (hclock : s.unitClocked 9 = true) (hthaw : s.ldgFrozen = false)
include hclock hthaw

theorem completes_chunkSend_idle (hnone : chunkStream s s.ktpTakes = none) (e1 e2 : Env) :
    Completes (.chunkSend e1 e2) s fun t => t = { s with regs := t.regs } ∧ RegsBut s t [R.KTP_ERR.addr 0] := by
  have hchunk : ldgChunk s.ktpTakes e1 e2 s = none := by simp only [ldgChunk, hnone]
  have hmove : ∃ full, chunkMove e1 e2 s = s.when full (·.raise F.KTP_ERR_RTX_FULL) := by
    simp only [chunkMove, hclock, hthaw, hchunk, Bool.not_true, Bool.or_self, Bool.false_eq_true, if_false]
    exact ⟨_, rfl⟩
  obtain ⟨full, hmove⟩ := hmove
  refine ⟨_, congrArg Host.Outcome.next hmove, onlyRegs_when (onlyRegs_refl s) (onlyRegs_put _ _ _ (onlyRegs_refl s)), ?_⟩
  exact regsBut_when (regsBut_refl s _) (regsBut_put _ _ _ (regsBut_refl s _) (by decide))

variable {k : Nat} {x : Ctx} (hk : chunkStream s s.ktpTakes = some k) (hx : nextRecord s k = some x)
include hk hx

/-- A chunk goes into the hands of the engine, or is lost with the record that the engine discards. -/
theorem completes_chunkSend_sends (e1 e2 : Env) : Completes (.chunkSend e1 e2) s fun t =>
    t.get F.LDG_STR_CREDIT_BYTES k = s.get F.LDG_STR_CREDIT_BYTES k - chunkLen x ∧ t.on F.LDG_STR_STATUS_STALLED k = false ∧
    (∀ j r q, j < 8 → j ≠ k → e1.net = some r → r ≠ .okay → e2.net = some q → q ≠ .okay →
      t.get F.LDG_STR_CREDIT_BYTES j = s.get F.LDG_STR_CREDIT_BYTES j) ∧
    (s.get F.LDG_STR_CTRL_KTP_STREAM k ∉ s.ktp.discard →
      ∃ bs, t.ktp.hand = s.ktp.hand ++ [(s.get F.LDG_STR_CTRL_KTP_STREAM k, x.sent == 0, bs)]) ∧
    (s.get F.LDG_STR_CTRL_KTP_STREAM k ∈ s.ktp.discard → t.ktp.hand = s.ktp.hand ∧ t.on F.KTP_ERR_DATA_LOST = true) := by
  obtain ⟨bs, off, n, u, hchunk, hkept⟩ := ldgChunk_sends hk hx e1 e2
  have hktp : u.ktp = s.ktp := hkept.ktp.trans (bodyRead_ktp x off n e1 e2 s)
  have hcredit : u.get F.LDG_STR_CREDIT_BYTES k = s.get F.LDG_STR_CREDIT_BYTES k - chunkLen x := by
    have hlt := State.get_lt s F.LDG_STR_CREDIT_BYTES k
    rw [hkept.credit, State.clear, State.get_put_sep (by decide), State.get_put_same _ _ _ _ (by decide)]
    exact Nat.mod_eq_of_lt (by omega)
  have hstalled : u.on F.LDG_STR_STATUS_STALLED k = false := by
    rw [hkept.stalled, State.clear, State.on_put_zero (by decide)]
  have hothers : ∀ j r q, j < 8 → j ≠ k → e1.net = some r → r ≠ .okay → e2.net = some q → q ≠ .okay →
      u.get F.LDG_STR_CREDIT_BYTES j = s.get F.LDG_STR_CREDIT_BYTES j := by
    intro j r q hj hjk hr hrne hq hqne
    obtain ⟨hk8, -⟩ := chunkStream_served hk
    rw [hkept.credit, State.clear, State.get_put_sep (by decide), State.get_put_reg _ _ _ _ (streamCredit_addr_ne hj hk8 hjk)]
    exact (CreditKept.bodyRead_refused hr hrne hq hqne x off n s).credit j
  have hexec : exec (.chunkSend e1 e2) s = .next (chunkMove e1 e2 s) := rfl
  by_cases hdiscard : s.get F.LDG_STR_CTRL_KTP_STREAM k ∈ s.ktp.discard
  · obtain ⟨d, hmove⟩ : ∃ d, chunkMove e1 e2 s = ((u.bumpHold F.KTP_LOST_BYTES_COUNT 0 bs.length).raise
        F.KTP_ERR_DATA_LOST).setKtp fun q => { q with discard := d } := by
      have hcontains := List.contains_iff_mem.mpr hdiscard
      simp only [chunkMove, hclock, hthaw, hchunk, Bool.not_true, Bool.or_self, Bool.false_eq_true, if_false, hcontains, if_true]
      split
      · exact ⟨_, rfl⟩
      · exact ⟨_, rfl⟩
    refine ⟨_, hexec.trans (congrArg _ hmove), ?_, ?_, fun j r q hj hjk hr hrne hq hqne => ?_, fun hno => absurd hdiscard hno,
      fun _ => ⟨(congrArg Ktp.hand hktp :), State.on_put_one (by decide) (by decide)⟩⟩
    · rw [State.setKtp_get, State.get_raise_sep (by decide), State.get_bumpHold_sep (by decide), hcredit]
    · rw [State.setKtp_on, State.on_raise_sep (by decide), State.on_bumpHold_sep (by decide), hstalled]
    · rw [State.setKtp_get, State.get_raise_sep (by decide), State.get_bumpHold_sep (by decide)]
      exact hothers j r q hj hjk hr hrne hq hqne
  · have hmove : chunkMove e1 e2 s = u.setKtp fun q =>
        { q with hand := q.hand ++ [(s.get F.LDG_STR_CTRL_KTP_STREAM k, x.sent == 0, bs)] } := by
      have hcontains := Bool.eq_false_iff.mpr (mt List.contains_iff_mem.mp hdiscard)
      simp only [chunkMove, hclock, hthaw, hchunk, Bool.not_true, Bool.or_self, Bool.false_eq_true, if_false, hcontains]
    refine ⟨_, hexec.trans (congrArg _ hmove), hcredit, hstalled, hothers, fun _ => ⟨bs, ?_⟩, fun hyes => absurd hyes hdiscard⟩
    rw [State.setKtp_ktp, hktp]

end

end Sys2Proof.Machine
end

section
/-! Stalls, discards and grants of credit (10 R546, R550, R551). -/

namespace Sys2Proof.Machine

section
variable {s : State} (stream : Fin 8)

theorem exec_stall_stalls (hclock : s.unitClocked 9 = true) (hflows : s.on F.LDG_STR_STATUS_STALLED stream.val = false)
    (htimed : s.get F.LDG_STR_CTRL_STALL_TMO stream.val ≠ 0) (hlacks : lacksCredit s stream.val = true) :
    exec (.stall stream) s = .next ((s.put F.LDG_STR_STATUS_STALLED stream.val 1).put F.LDG_ERR_STALL 0 1) := by
  show execStall stream s = _
  simp [execStall, hclock, hflows, htimed, hlacks, State.raise]

theorem exec_stall_stands (h : s.on F.LDG_STR_STATUS_STALLED stream.val = true ∨
    s.get F.LDG_STR_CTRL_STALL_TMO stream.val = 0 ∨ lacksCredit s stream.val = false) : exec (.stall stream) s = .next s := by
  show execStall stream s = _
  rcases h with h | h | h <;> simp [execStall, h]

/-- The credit rises by the grant and holds at all ones. -/
theorem exec_streamGrant (hdom : s.domOn 85 = true) (w : W32) : exec (.streamGrant stream w) s = .next
    (s.put F.LDG_STR_CREDIT_BYTES stream.val (min (s.get F.LDG_STR_CREDIT_BYTES stream.val + w.toNat) 0xFFFFFFFF)) := by
  show execStreamGrant stream w s = _
  rw [execStreamGrant, ldgGrantWrite, if_pos hdom]
  rfl

/-- Of a stream's queued records the one that closed first. -/
theorem foldl_first {c : Ctx} : ∀ (l : List Ctx) (a : Ctx), c ∈ a :: l → (∀ d ∈ a :: l, d = c ∨ c.closeNo < d.closeNo) →
    l.foldl (fun a b => if b.closeNo < a.closeNo then b else a) a = c := by
  intro l
  induction l with
  | nil => exact fun a hc _ => (List.mem_singleton.mp hc).symm
  | cons b l ih =>
    intro a hc hfirst
    rw [List.foldl_cons]
    have ha := hfirst a List.mem_cons_self
    have hb := hfirst b (List.mem_cons_of_mem _ List.mem_cons_self)
    have hrest : ∀ d ∈ l, d = c ∨ c.closeNo < d.closeNo := fun d hd =>
      hfirst d (List.mem_cons_of_mem _ (List.mem_cons_of_mem _ hd))
    split
    next hlt =>
      have hne : c ≠ a := by
        rintro rfl
        rcases hb with rfl | hb <;> omega
      exact ih b (List.mem_of_ne_of_mem hne hc) (List.forall_mem_cons.mpr ⟨hb, hrest⟩)
    next hge =>
      refine ih a ?_ (List.forall_mem_cons.mpr ⟨ha, hrest⟩)
      rcases List.mem_cons.mp hc with hca | hc
      · exact hca ▸ List.mem_cons_self
      · rcases List.mem_cons.mp hc with hcb | hc
        · rcases ha with rfl | ha
          · exact List.mem_cons_self
          · subst hcb; omega
        · exact List.mem_cons_of_mem _ hc

/-- The record of the stream that closed first is discarded and counted. -/
theorem exec_stallDiscard {c : Ctx} (hclock : s.unitClocked 9 = true) (hstalled : s.on F.LDG_STR_STATUS_STALLED stream.val = true)
    (hact : s.on F.LDG_STR_CTRL_STALL_ACTION stream.val = true) (hc : c ∈ queuedOf s stream.val)
    (hfirst : ∀ d ∈ queuedOf s stream.val, d = c ∨ c.closeNo < d.closeNo) : exec (.stallDiscard stream) s = .next
      ({ s with ldg := { s.ldg with
          ctxs := s.ldg.ctxs.filter (fun d => d.id != c.id), frags := s.ldg.frags.filter (fun f => f.ctx != some c.id) } }.put
        F.LDG_STR_DISCARDS_COUNT c.stream
        (min (s.get F.LDG_STR_DISCARDS_COUNT c.stream + 1) (2 ^ F.LDG_STR_DISCARDS_COUNT.len - 1))) := by
  show execStallDiscard stream s = .next (ldgDiscard c s)
  rw [execStallDiscard, if_pos (by simp [hclock, hstalled, hact])]
  cases hq : queuedOf s stream.val with
  | nil => rw [hq] at hc; exact absurd hc List.not_mem_nil
  | cons a l =>
    rw [hq] at hc hfirst
    simp only [foldl_first l a hc hfirst]

end

end Sys2Proof.Machine
end

section
/-! Pages, chunks and credit, put together (10 R525 to R551). -/

namespace Sys2Proof.Machine

/-- Settles O34: the page taken, the page write, the bytes lost, the chunk and the credit, each by its own lemma. -/
theorem ledgerPagesAndChunks : Obligations.LedgerPagesAndChunks := by
  intro s
  refine ⟨fun id x t => ctxPage_takes, fun i x f l tier e1 e2 hclock hthaw hyields hi hleft hfull hone => ?_,
    fun f tier h => tierReadFrag_poisoned f s h, ?_, fun e1 e2 hclock hthaw hnone => completes_chunkSend_idle hclock hthaw hnone e1 e2,
    fun e1 e2 k x hclock hthaw hk hx => ?_, fun stream hclock => ⟨exec_stall_stalls stream hclock, exec_stall_stands stream,
      exec_streamGrant stream (domOn_of_ledgerClocked hclock)⟩,
    fun stream c hclock hstalled hact hc hfirst => exec_stallDiscard stream hclock hstalled hact hc hfirst⟩
  · have hx : ldgCtx s x.id = some x := ldgCtx_of_mem (List.mem_of_getElem? hi) hone
    refine ⟨fun hlimit hcollect => ?_, fun hroom hpages hempty => ?_, fun hroom hpages hservice hcollect hclean howns hdom => ?_⟩
    · refine ⟨_, exec_pageWrite_oversize hclock hthaw hyields hi hleft hfull hlimit hcollect tier e1 e2, ?_, ?_, rfl, rfl⟩
      · simp only [unpaged, dropFrags, State.setLdg_ldg, List.filter_filter, Bool.and_not_self, List.filter_false]
      · exact congrArg (Option.map (·.oversize)) (ldgCtx_ldgModCtx hx (g := fun y => { y with oversize := true }) fun _ => rfl)
    · rw [exec_pageWrite_waits hclock hthaw hyields hi hleft hfull hroom (ctxPlace_waits hx hpages hempty), ldgWait, hx]
      rfl
    · subst hclean
      exact exec_pageWrite_clean hclock hthaw hyields hi hleft hfull hroom (ctxPlace_placed hx hpages hservice) hcollect howns
        hdom e1 e2
  · intro id x off src bs e1 e2 r1 r2 hfirst hr1 hsecond hr2 hx hbytes hpage
    exact bodyWrite_lost src hfirst hr1 hsecond hr2 hx hbytes hpage
  · obtain ⟨hlt, hready, htop⟩ := chunkStream_served hk
    obtain ⟨hcredit, howner⟩ := chunkReady_has hready hx
    exact ⟨hcredit, hlt, htop, howner, completes_chunkSend_sends hclock hthaw hk hx e1 e2⟩

end Sys2Proof.Machine
end

section
/-! Writes of LDG_CTRL (10 R506, R530, R563): when the Ledger may start, and how it stops. -/

namespace Sys2Proof.Machine

/-- A used pool lies in its channel's window, below the capacity, and is not retired (10 R530). -/
def PoolUsable (s : State) (c : Nat) : Prop :=
  s.get F.LDG_POOL_PAGES_COUNT c = 0 ∨ (dramBase + c * 2 ^ 36 ≤ s.get F.LDG_POOL_BASE_ADDR c * 4096 ∧
    s.get F.LDG_POOL_BASE_ADDR c * 4096 + s.get F.LDG_POOL_PAGES_COUNT c * 4096 ≤
      dramBase + c * 2 ^ 36 + s.get F.DMC_CONFIG_CAPACITY c * 2 ^ 30 ∧ s.on F.LDG_POOL_STATUS_RETIRED c = false)

theorem pools_usable_iff (s : State) : (∀ c, c < 4 → PoolUsable s c) ↔
    (List.range 4).all (poolPlaced s) = true ∧
      (List.range 4).all (fun c => s.get F.LDG_POOL_PAGES_COUNT c == 0 || !s.on F.LDG_POOL_STATUS_RETIRED c) = true := by
  simp only [List.all_eq_true, List.mem_range, ← forall_and]
  refine forall_congr' fun c => forall_congr' fun _ => ?_
  simp only [PoolUsable, poolPlaced, Bool.or_eq_true, Bool.and_eq_true, beq_iff_eq, decide_eq_true_eq, Bool.not_eq_true']
  rw [← or_and_left, and_assoc]

theorem tierBanks_isEmpty_iff (s : State) : (tierBanks s).isEmpty = true ↔ s.get F.LDG_TIER_BANKS_MASK = 0 := by
  rw [List.isEmpty_iff, tierBanks, List.filter_eq_nil_iff]
  constructor
  · intro hnone
    refine Nat.eq_of_testBit_eq fun b => ?_
    rw [Nat.zero_testBit, ← bit_eq_testBit]
    by_cases hb : b < 32
    · exact Bool.eq_false_iff.mpr (hnone b (List.mem_range.mpr hb))
    · rw [bit_eq_testBit, Nat.testBit_lt_two_pow]
      exact (State.get_lt s F.LDG_TIER_BANKS_MASK 0).trans_le (Nat.pow_le_pow_right (by decide) (Nat.not_lt.mp hb))
  · intro hzero b _
    simp [hzero, bit]

theorem tierBanks_owned_iff (s : State) : (tierBanks s).all (s.owns ldgIni) = true ↔
    ∀ b, b < 32 → bit (s.get F.LDG_TIER_BANKS_MASK) b = true → s.owns 0x4B b = true := by
  simp only [tierBanks, List.all_eq_true, List.mem_filter, List.mem_range, and_imp]
  rfl

theorem ldgMayStart_iff (s : State) : ldgMayStart s = true ↔ (∀ c, c < 4 → PoolUsable s c) ∧
    s.get F.LDG_POOL_PAGES_COUNT 0 + s.get F.LDG_POOL_PAGES_COUNT 1 + s.get F.LDG_POOL_PAGES_COUNT 2 +
      s.get F.LDG_POOL_PAGES_COUNT 3 ≤ 1048576 ∧ s.get F.LDG_TIER_BANKS_MASK ≠ 0 ∧
    (∀ b, b < 32 → bit (s.get F.LDG_TIER_BANKS_MASK) b = true → s.owns 0x4B b = true) ∧
    1 ≤ s.get F.LDG_WINDOW_CROSSINGS ∧ s.get F.LDG_WINDOW_CROSSINGS ≤ 4096 ∧
    (s.on F.TMG_STATUS_QTZ_LOCK = true ∨ s.on F.TMG_STATUS_HOLDOVER = true) := by
  have hsum : ((List.range 4).map fun c => s.get F.LDG_POOL_PAGES_COUNT c).sum = s.get F.LDG_POOL_PAGES_COUNT 0 +
      s.get F.LDG_POOL_PAGES_COUNT 1 + s.get F.LDG_POOL_PAGES_COUNT 2 + s.get F.LDG_POOL_PAGES_COUNT 3 := by
    simp only [show List.range 4 = [0, 1, 2, 3] from rfl, List.map_cons, List.map_nil, List.sum_cons, List.sum_nil]
    omega
  have hbanks : (!(tierBanks s).isEmpty) = true ↔ s.get F.LDG_TIER_BANKS_MASK ≠ 0 := by
    rw [Bool.not_eq_true', ← Bool.not_eq_true, tierBanks_isEmpty_iff]
  rw [pools_usable_iff, ← tierBanks_owned_iff, ← hbanks, ← hsum]
  simp only [ldgMayStart, Bool.and_eq_true, decide_eq_true_eq, State.boundariesRun, Bool.or_eq_true, and_assoc]
  rfl

/-- LDG_CTRL as a write leaves it before EN moves. -/
def ctrlWritten (w : Nat) (s : State) : State :=
  (s.wrCodes R.LDG_CTRL 0 (BitVec.ofNat 64 w) false).flag F.LDG_CTRL_EN 0 (s.on F.LDG_CTRL_EN)

theorem ctrlWritten_regsBut (w : Nat) (s : State) : RegsBut s (ctrlWritten w s) [R.LDG_CTRL.addr 0] :=
  regsBut_put _ _ _ (wrCodes_regsBut _ _ _ _ _) (by decide)

theorem ctrlWritten_en (w : Nat) (s : State) : (ctrlWritten w s).on F.LDG_CTRL_EN = s.on F.LDG_CTRL_EN :=
  State.on_flag_same (by decide) (by decide)

section
variable {s : State} {w : W32} (hdom : s.domOn 85 = true)
include hdom

section
variable (hask : bit w.toNat 0 = true) (hoff : s.on F.LDG_CTRL_EN = false)
include hask hoff

theorem completes_ledgerEnable_refused (hno : ldgMayStart s = false) : Completes (.ledgerEnable w) s fun t =>
    t.on F.LDG_CTRL_EN = false ∧ t.on F.LDG_ERR_CFG_REFUSED = true ∧ t.ldg = s.ldg ∧
      RegsBut s t [R.LDG_CTRL.addr 0, R.LDG_ERR.addr 0] := by
  have hwrite : ldgCtrlWrite w.toNat s = ldgRefuse (ctrlWritten w.toNat s) := by
    simp [ldgCtrlWrite, hask, hoff, hdom, hno, ctrlWritten]
  refine ⟨_, congrArg Host.Outcome.next hwrite, ?_, State.on_put_one (by decide) (by decide), rfl,
    regsBut_put _ _ _ (regsBut_mono (ctrlWritten_regsBut w.toNat s) (by decide)) (by decide)⟩
  rw [ldgRefuse, State.on_raise_sep (by decide), ctrlWritten_en, hoff]

variable (hmay : ldgMayStart s = true)
include hmay

/-- A drained Ledger clears its tier as it starts. -/
theorem completes_ledgerEnable_drained (hdrained : s.ldg.ctxs = []) : Completes (.ledgerEnable w) s fun t =>
    t.on F.LDG_CTRL_EN = true ∧ t.ldg = { s.ldg with init := true, frags := [], cross := [], lastPool := none } ∧
      t.on F.LDG_STATUS_RUNNING = s.on F.LDG_STATUS_RUNNING ∧ RegsBut s t [R.LDG_CTRL.addr 0] := by
  have hwrite : ldgCtrlWrite w.toNat s = ((ctrlWritten w.toNat s).raise F.LDG_CTRL_EN).setLdg
      fun l => { l with init := true, frags := [], cross := [], lastPool := none } := by
    simp [ldgCtrlWrite, hask, hoff, hdom, hmay, State.ldgDrained, hdrained, ctrlWritten]
  have hregs : RegsBut s (((ctrlWritten w.toNat s).raise F.LDG_CTRL_EN).setLdg
      fun l => { l with init := true, frags := [], cross := [], lastPool := none }) [R.LDG_CTRL.addr 0] :=
    regsBut_put _ _ _ (ctrlWritten_regsBut w.toNat s) (by decide)
  exact ⟨_, congrArg Host.Outcome.next hwrite, State.on_put_one (by decide) (by decide), rfl, regsBut_on hregs (by decide), hregs⟩

/-- A Ledger that still holds contexts runs from the next boundary. -/
theorem completes_ledgerEnable_undrained (hheld : s.ldg.ctxs ≠ []) : Completes (.ledgerEnable w) s fun t =>
    t.on F.LDG_CTRL_EN = true ∧ t.ldg = { s.ldg with startDue := true } ∧ RegsBut s t [R.LDG_CTRL.addr 0] := by
  have hwrite : ldgCtrlWrite w.toNat s = ((ctrlWritten w.toNat s).raise F.LDG_CTRL_EN).setLdg
      fun l => { l with startDue := true } := by
    simp [ldgCtrlWrite, hask, hoff, hdom, hmay, State.ldgDrained, hheld, ctrlWritten]
  exact ⟨_, congrArg Host.Outcome.next hwrite, State.on_put_one (by decide) (by decide), rfl,
    regsBut_put _ _ _ (ctrlWritten_regsBut w.toNat s) (by decide)⟩

end

/-- The state in which the Ledger has stopped, before its crossings close. -/
def ledgerStopped (w : Nat) (s : State) : State :=
  (((ctrlWritten w s).clear F.LDG_CTRL_EN).clear F.LDG_STATUS_RUNNING).setLdg fun l => { l with init := false, startDue := false }

omit hdom in
theorem ledgerStopped_regsBut (w : Nat) (s : State) : RegsBut s (ledgerStopped w s) [R.LDG_CTRL.addr 0, R.LDG_STATUS.addr 0] :=
  regsBut_put _ _ _ (regsBut_put _ _ _ (regsBut_mono (ctrlWritten_regsBut w s) (by decide)) (by decide)) (by decide)

omit hdom in
theorem ledgerStopped_off (w : Nat) (s : State) :
    (ledgerStopped w s).on F.LDG_CTRL_EN = false ∧ (ledgerStopped w s).on F.LDG_STATUS_RUNNING = false := by
  refine ⟨?_, State.on_put_zero (by decide)⟩
  rw [ledgerStopped, State.setLdg_on, State.clear, State.on_put_sep (by decide), State.clear, State.on_put_zero (by decide)]

theorem exec_ledgerDisable (hask : bit w.toNat 0 = false) (hon : s.on F.LDG_CTRL_EN = true) :
    exec (.ledgerDisable w) s = .next (ldgCloseAll 0 (ledgerStopped w.toNat s)) := by
  refine congrArg Host.Outcome.next (?_ : ldgCtrlWrite w.toNat s = _)
  simp [ldgCtrlWrite, hask, hon, hdom, ledgerStopped, ctrlWritten]

end

/-- What is undecided goes when every crossing closes (10 R561 to R563). -/
theorem ldgCloseAll_decided (n : Nat) (s : State) : (ldgCloseAll n s).ldg.cross = [] ∧ (ldgCloseAll n s).ldg.open_ = some n ∧
    ∀ f ∈ (ldgCloseAll n s).ldg.frags, f.ctx ≠ none := by
  refine ⟨rfl, rfl, fun f hf => ?_⟩
  have hkept := (List.mem_filter.mp hf).2
  intro hnone
  simp [hnone] at hkept

theorem ldgCloseAll_closed {s : State} (h : ∀ c ∈ s.ldg.ctxs, c.state ≠ .collect) (n : Nat) : ldgCloseAll n s =
    (dropFrags (fun f => f.ctx.isNone) s).setLdg fun l => { l with cross := [], open_ := some n } := by
  have hlive : (s.ldg.ctxs.filter fun c => c.state == .collect) = [] :=
    List.filter_eq_nil_iff.mpr fun c hc => by rw [beq_iff_eq]; exact h c hc
  rw [ldgCloseAll, hlive]
  rfl

theorem ldgCloseAll_alone {s : State} {c : Ctx} (honly : s.ldg.ctxs = [c]) (hcollect : c.state = .collect) (n : Nat) :
    (ldgCloseAll n s).ldg.ctxs = (ldgClose true c s).ldg.ctxs ∧ (ldgCloseAll n s).regs = (ldgClose true c s).regs := by
  have hlive : (s.ldg.ctxs.filter fun c => c.state == .collect) = [c] := by simp [honly, hcollect]
  rw [ldgCloseAll, hlive]
  exact ⟨rfl, rfl⟩

/-- The tier banks are written, and RUNNING rises (10 R506). -/
theorem completes_tierInitDone {s : State} (h : s.ldg.init = true) : Completes .tierInitDone s fun t =>
    t.on F.LDG_STATUS_RUNNING = true ∧ t.ldg = { s.ldg with init := false } := by
  have hbanks : (s.each (tierBanks s) fun t b => spdLose b t).ldg = s.ldg :=
    List.foldlRecOn (motive := fun t : State => t.ldg = s.ldg) _ _ rfl fun t ht _ _ => ht
  refine ⟨_, congrArg Host.Outcome.next (if_neg (by simp [h])), State.on_put_one (by decide) (by decide), ?_⟩
  rw [State.raise_ldg, State.setLdg_ldg, hbanks]

end Sys2Proof.Machine
end

section
/-! Writes of LDG_STR_CTRL (10 R547, R552 to R554): how a stream starts, and what goes when it stops. -/

namespace Sys2Proof.Machine

theorem streamMayStart_iff (s : State) (k : Nat) (packed : Bool) : streamMayStart s k packed = true ↔
    s.get F.LDG_STR_SRC_FIRST k + s.get F.LDG_STR_SRC_COUNT k ≤ 1024 ∧ (packed = true → s.get F.LDG_STR_SRC_COUNT k ≠ 0 ∧
      ((s.get F.LDG_STR_SRC_COUNT k + 31) / 32 * 8 + ((List.range (s.get F.LDG_STR_SRC_COUNT k)).map fun i =>
        bits (s.ldg.src.get 0 (s.get F.LDG_STR_SRC_FIRST k + i)) 2 9 * 8).sum + 4095) / 4096 ≤ maxPages s) := by
  simp only [streamMayStart, Bool.and_eq_true, Bool.or_eq_true, decide_eq_true_eq, Bool.not_eq_true', bne_iff_ne,
    imp_iff_not_or, Bool.not_eq_true]
  rfl

/-- LDG_STR_CTRL as a write leaves it before EN moves. -/
def strWritten (k w : Nat) (s : State) : State :=
  (s.wrCodes R.LDG_STR_CTRL k (BitVec.ofNat 64 w) false).flag F.LDG_STR_CTRL_EN k (s.on F.LDG_STR_CTRL_EN k)

theorem strWritten_regsBut (k w : Nat) (s : State) : RegsBut s (strWritten k w s) [R.LDG_STR_CTRL.addr k] :=
  regsBut_put _ _ _ (wrCodes_regsBut _ _ _ _ _) List.mem_cons_self

theorem strWritten_en (k w : Nat) (s : State) : (strWritten k w s).on F.LDG_STR_CTRL_EN k = s.on F.LDG_STR_CTRL_EN k :=
  State.on_flag_same (by decide) (by decide)

theorem strWritten_format (k : Nat) (w : W32) (s : State) : (strWritten k w.toNat s).on F.LDG_STR_CTRL_FORMAT k = bit w.toNat 1 := by
  rw [strWritten, State.flag, State.on_put_sep (by decide), State.on,
    get_wrCodes_rw (f := F.LDG_STR_CTRL_FORMAT) (r := R.LDG_STR_CTRL) rfl rfl rfl (by decide), BitVec.toNat_ofNat,
    Nat.mod_eq_of_lt (w.isLt.trans (by decide))]
  simp [F.LDG_STR_CTRL_FORMAT, bits, bit]

section
variable {s : State} {stream : Fin 8} {w : W32} (hdom : s.domOn 85 = true)
include hdom

section
variable (hask : bit w.toNat 0 = true) (hoff : s.on F.LDG_STR_CTRL_EN stream.val = false)
include hask hoff

theorem completes_streamEnable_starts (hmay : streamMayStart s stream.val (bit w.toNat 1) = true) :
    Completes (.streamEnable stream w) s fun t => t.on F.LDG_STR_CTRL_EN stream.val = true ∧
      t.get F.LDG_STR_CREDIT_BYTES stream.val = 0 ∧ t.get F.LDG_STR_SEQ_NEXT stream.val = 0 ∧ t.ldg.ctxs = s.ldg.ctxs ∧
      t.on F.LDG_STR_CTRL_FORMAT stream.val = bit w.toNat 1 ∧
      RegsBut s t [R.LDG_STR_CTRL.addr stream.val, R.LDG_STR_CREDIT.addr stream.val, R.LDG_STR_SEQ.addr stream.val] := by
  obtain ⟨lens, hwrite⟩ : ∃ lens : List Nat, ldgStrCtrlWrite stream.val w.toNat s =
      ((((strWritten stream.val w.toNat s).raise F.LDG_STR_CTRL_EN stream.val).put F.LDG_STR_CREDIT_BYTES stream.val 0).put
        F.LDG_STR_SEQ_NEXT stream.val 0).setLdg fun l => { l with fixed := l.fixed.set stream.val lens } := by
    simp only [ldgStrCtrlWrite, strWritten, hask, hoff, hdom, hmay, Bool.not_true, Bool.and_false, Bool.false_and, Bool.false_eq_true, if_false,
      Bool.not_false, Bool.and_self, if_true]
    exact ⟨_, rfl⟩
  refine ⟨_, congrArg Host.Outcome.next hwrite, ?_, ?_, ?_, rfl, ?_, ?_⟩
  · rw [State.setLdg_on, State.on_put_sep (by decide), State.on_put_sep (by decide), State.raise,
      State.on_put_one (by decide) (by decide)]
  · rw [State.setLdg_get, State.get_put_sep (by decide), State.get_put_same _ _ _ _ (by decide)]
    rfl
  · rw [State.setLdg_get, State.get_put_same _ _ _ _ (by decide)]
    rfl
  · rw [State.setLdg_on, State.on_put_sep (by decide), State.on_put_sep (by decide), State.on_raise_sep (by decide),
      strWritten_format]
  · have hctrl := regsBut_mono (m := [R.LDG_STR_CTRL.addr stream.val, R.LDG_STR_CREDIT.addr stream.val,
      R.LDG_STR_SEQ.addr stream.val]) (strWritten_regsBut stream.val w.toNat s) (by simp)
    exact regsBut_put _ _ _ (regsBut_put _ _ _ (regsBut_put F.LDG_STR_CTRL_EN _ _ hctrl (by simp [F.LDG_STR_CTRL_EN]))
      (by simp [F.LDG_STR_CREDIT_BYTES])) (by simp [F.LDG_STR_SEQ_NEXT])

theorem completes_streamEnable_refused (hno : streamMayStart s stream.val (bit w.toNat 1) = false) :
    Completes (.streamEnable stream w) s fun t => t.on F.LDG_STR_CTRL_EN stream.val = false ∧
      t.on F.LDG_ERR_CFG_REFUSED = true ∧ t.ldg = s.ldg ∧ RegsBut s t [R.LDG_STR_CTRL.addr stream.val, R.LDG_ERR.addr 0] := by
  have hwrite : ldgStrCtrlWrite stream.val w.toNat s = ldgRefuse (strWritten stream.val w.toNat s) := by
    simp [ldgStrCtrlWrite, hask, hoff, hdom, hno, strWritten]
  refine ⟨_, congrArg Host.Outcome.next hwrite, ?_, State.on_put_one (by decide) (by decide), rfl,
    regsBut_put _ _ _ (regsBut_mono (strWritten_regsBut stream.val w.toNat s) (by simp)) (by simp [F.LDG_ERR_CFG_REFUSED])⟩
  rw [ldgRefuse, State.on_raise_sep (by decide), strWritten_en, hoff]

end

/-- A stream that is disabled goes off, whatever becomes of FORMAT. -/
theorem exec_streamDisable (hask : bit w.toNat 0 = false) (hon : s.on F.LDG_STR_CTRL_EN stream.val = true) :
    ∃ u, u.ldg = s.ldg ∧ u.on F.LDG_STR_CTRL_EN stream.val = false ∧
      exec (.streamDisable stream w) s = .next (ldgStreamOff stream.val u) := by
  obtain ⟨v, hldg, hwrite⟩ : ∃ v : State, v.ldg = s.ldg ∧ ldgStrCtrlWrite stream.val w.toNat s =
      ldgStreamOff stream.val (v.clear F.LDG_STR_CTRL_EN stream.val) := by
    simp only [ldgStrCtrlWrite, hask, hon, hdom, Bool.not_true, Bool.and_false, Bool.false_eq_true, if_false, Bool.not_false,
      Bool.and_self, if_true, Bool.true_and]
    refine ⟨_, ?_, rfl⟩
    split <;> rfl
  exact ⟨v.clear F.LDG_STR_CTRL_EN stream.val, hldg, State.on_put_zero (by decide), congrArg Host.Outcome.next hwrite⟩

end

/-! What a disabled stream discards (10 R527, R552). -/

section
variable {u : State} {k : Nat}

/-- While a record of it is being sent, a stream discards nothing. -/
theorem ldgStreamOff_sending {d : Ctx} (hd : d ∈ u.ldg.ctxs) (hstream : d.stream = k) (hsending : d.state = .sending) :
    ldgStreamOff k u = u := by
  have hany : u.ldg.ctxs.any (fun c => c.stream == k && c.state == .sending) = true :=
    List.any_eq_true.mpr ⟨d, hd, by simp [hstream, hsending]⟩
  rw [ldgStreamOff, hany, Bool.or_true, if_pos rfl]

theorem ldgStreamOff_en (k : Nat) (u : State) (j : Nat) : (ldgStreamOff k u).on F.LDG_STR_CTRL_EN j = u.on F.LDG_STR_CTRL_EN j := by
  unfold ldgStreamOff
  split
  · rfl
  · exact List.foldlRecOn (motive := fun t : State => t.on F.LDG_STR_CTRL_EN j = u.on F.LDG_STR_CTRL_EN j) _ _ rfl fun t ht c _ =>
      (State.on_bumpHold_sep (f := F.LDG_STR_DISCARDS_COUNT) (by decide)).trans ht

/-- What discarding a list of contexts leaves: those of no number in the list. -/
theorem mem_each_ldgDiscard (l : List Ctx) (s : State) (d : Ctx) :
    d ∈ (s.each l fun t c => ldgDiscard c t).ldg.ctxs ↔ d ∈ s.ldg.ctxs ∧ ∀ c ∈ l, d.id ≠ c.id := by
  induction l generalizing s with
  | nil => simp [State.each]
  | cons a l ih =>
    have hfirst : d ∈ (ldgDiscard a s).ldg.ctxs ↔ d ∈ s.ldg.ctxs ∧ d.id ≠ a.id := by
      simp [ldgDiscard, ldgFreeCtx, List.mem_filter]
    rw [show s.each (a :: l) (fun t c => ldgDiscard c t) = (ldgDiscard a s).each l fun t c => ldgDiscard c t from rfl, ih, hfirst,
      List.forall_mem_cons, and_assoc]

/-- A disabled stream that is sending no record discards those that are queued. -/
theorem mem_ldgStreamOff (hoff : u.on F.LDG_STR_CTRL_EN k = false)
    (hidle : ∀ c ∈ u.ldg.ctxs, c.stream = k → c.state ≠ .sending) (d : Ctx) :
    d ∈ (ldgStreamOff k u).ldg.ctxs ↔ d ∈ u.ldg.ctxs ∧ ∀ c ∈ queuedOf u k, d.id ≠ c.id := by
  have hnone : u.ldg.ctxs.any (fun c => c.stream == k && c.state == .sending) = false := by
    rw [List.any_eq_false]
    intro c hc
    rw [Bool.and_eq_true, beq_iff_eq, beq_iff_eq, not_and]
    exact hidle c hc
  rw [ldgStreamOff, hoff, hnone, Bool.or_self, if_neg Bool.false_ne_true, mem_each_ldgDiscard]

theorem ldgStreamOff_none_queued (hoff : u.on F.LDG_STR_CTRL_EN k = false)
    (hidle : ∀ c ∈ u.ldg.ctxs, c.stream = k → c.state ≠ .sending) {c : Ctx} (hc : c ∈ (ldgStreamOff k u).ldg.ctxs)
    (hstream : c.stream = k) : c.state ≠ .queued := by
  intro hqueued
  obtain ⟨hmem, hkept⟩ := (mem_ldgStreamOff hoff hidle c).mp hc
  exact hkept c (List.mem_filter.mpr ⟨hmem, by simp [hstream, hqueued]⟩) rfl

/-- No other context is discarded. -/
theorem ldgStreamOff_keeps (hoff : u.on F.LDG_STR_CTRL_EN k = false) {c : Ctx} (hc : c ∈ u.ldg.ctxs)
    (hother : c.stream ≠ k ∨ c.state ≠ .queued) (hone : ∀ d ∈ u.ldg.ctxs, d.id = c.id → d = c) :
    c ∈ (ldgStreamOff k u).ldg.ctxs := by
  by_cases hsends : ∃ d ∈ u.ldg.ctxs, d.stream = k ∧ d.state = .sending
  · obtain ⟨d, hd, hstream, hsending⟩ := hsends
    rw [ldgStreamOff_sending hd hstream hsending]
    exact hc
  · refine (mem_ldgStreamOff hoff (fun d hd hstream hsending => hsends ⟨d, hd, hstream, hsending⟩) c).mpr ⟨hc, fun d hd hid => ?_⟩
    obtain ⟨hmem, hqueued⟩ := List.mem_filter.mp hd
    rw [hone d hmem hid.symm, Bool.and_eq_true, beq_iff_eq, beq_iff_eq] at hqueued
    obtain ⟨hstream, hstate⟩ := hqueued
    exact hother.elim (absurd hstream) (absurd hstate)

/-- A disabled stream sends no record but the one it is sending (10 R552). -/
theorem nextRecord_disabled (hoff : u.on F.LDG_STR_CTRL_EN k = false) {c : Ctx} (h : nextRecord u k = some c) :
    c.state = .sending := by
  cases hfind : u.ldg.ctxs.find? fun c => c.stream == k && c.state == .sending with
  | some d =>
    simp only [nextRecord, hfind, Option.some_inj] at h
    have hd := List.find?_some hfind
    simp only [Bool.and_eq_true, beq_iff_eq] at hd
    exact h ▸ hd.2
  | none => simp [nextRecord, hfind, hoff] at h

end

end Sys2Proof.Machine
end

section
/-! Control of the Ledger and its streams, put together (10 R506, R530, R547, R552, R553, R561, R563). -/

namespace Sys2Proof.Machine

/-- Disabling the Ledger (10 R563). -/
theorem completes_ledgerDisable {s : State} {w : W32} (hdom : s.domOn 85 = true) (hask : bit w.toNat 0 = false)
    (hon : s.on F.LDG_CTRL_EN = true) : Completes (.ledgerDisable w) s fun t =>
      t.ldg.cross = [] ∧ t.ldg.open_ = some 0 ∧ (∀ f ∈ t.ldg.frags, f.ctx ≠ none) ∧
      ((∀ c ∈ s.ldg.ctxs, c.state ≠ .collect) → t.ldg.ctxs = s.ldg.ctxs ∧ t.ldg.init = false ∧ t.ldg.startDue = false ∧
        t.on F.LDG_CTRL_EN = false ∧ t.on F.LDG_STATUS_RUNNING = false ∧
        RegsBut s t [R.LDG_CTRL.addr 0, R.LDG_STATUS.addr 0]) ∧
      (∀ c f, s.ldg.ctxs = [c] → c.stream < 8 → c.state = .collect → f ∈ s.ldg.frags → f.ctx = some c.id →
        (∃ d, t.ldg.ctxs = [d] ∧ d.state = .closing ∧ d.early = true) ∧ t.on F.LDG_CTRL_EN = false ∧
        t.on F.LDG_STATUS_RUNNING = false ∧
        RegsBut s t [R.LDG_CTRL.addr 0, R.LDG_STATUS.addr 0, R.LDG_STR_SEQ.addr c.stream]) := by
  obtain ⟨hcross, hopen, hfrags⟩ := ldgCloseAll_decided 0 (ledgerStopped w.toNat s)
  obtain ⟨hen, hrun⟩ := ledgerStopped_off w.toNat s
  have hregs := ledgerStopped_regsBut w.toNat s
  refine ⟨_, exec_ledgerDisable hdom hask hon, hcross, hopen, hfrags, fun hclosed => ?_, fun c f honly _ hcollect hf hctx => ?_⟩
  · rw [ldgCloseAll_closed (s := ledgerStopped w.toNat s) hclosed 0]
    exact ⟨rfl, rfl, rfl, hen, hrun, hregs⟩
  · obtain ⟨hleft, hkept⟩ := ldgCloseAll_alone (s := ledgerStopped w.toNat s) honly hcollect 0
    obtain ⟨d, hctxs, hstate, hearly, -, -, -, hsame⟩ := ldgClose_alone (s := ledgerStopped w.toNat s) honly hf hctx true
    have hseq : RegsBut (ledgerStopped w.toNat s) (ldgCloseAll 0 (ledgerStopped w.toNat s)) [R.LDG_STR_SEQ.addr c.stream] :=
      regsBut_trans (regsBut_when (regsBut_refl _ _) (regsBut_put F.LDG_STR_SEQ_NEXT _ _ (regsBut_refl _ _) List.mem_cons_self))
        (regsBut_regs _ (hkept.trans hsame))
    have hctrl : R.LDG_CTRL.addr 0 ∉ [R.LDG_STR_SEQ.addr c.stream] := by
      rw [List.mem_singleton]; exact Reg.addr_ne_of_apart (by decide) 0 _
    have hstatus : R.LDG_STATUS.addr 0 ∉ [R.LDG_STR_SEQ.addr c.stream] := by
      rw [List.mem_singleton]; exact Reg.addr_ne_of_apart (by decide) 0 _
    refine ⟨⟨d, hleft.trans hctxs, hstate, by rw [hearly, Bool.or_true]⟩, (regsBut_on (f := F.LDG_CTRL_EN) hseq hctrl).trans hen,
      (regsBut_on (f := F.LDG_STATUS_RUNNING) hseq hstatus).trans hrun,
      regsBut_trans (regsBut_mono hregs (by simp)) (regsBut_mono hseq (by simp))⟩

/-- Disabling a stream (10 R552). -/
theorem completes_streamDisable {s : State} {stream : Fin 8} {w : W32} (hdom : s.domOn 85 = true) (hask : bit w.toNat 0 = false)
    (hon : s.on F.LDG_STR_CTRL_EN stream.val = true) : Completes (.streamDisable stream w) s fun t =>
      t.on F.LDG_STR_CTRL_EN stream.val = false ∧
      ((∀ c ∈ s.ldg.ctxs, c.stream = stream.val → c.state ≠ .sending) →
        ∀ c ∈ t.ldg.ctxs, c.stream = stream.val → c.state ≠ .queued) ∧
      (∀ d ∈ s.ldg.ctxs, d.stream = stream.val → d.state = .sending →
        t.ldg = s.ldg ∧ (∀ c, nextRecord t stream.val = some c → c.state = .sending)) ∧
      (∀ c ∈ s.ldg.ctxs, (c.stream ≠ stream.val ∨ c.state ≠ .queued) →
        (∀ d ∈ s.ldg.ctxs, d.id = c.id → d = c) → c ∈ t.ldg.ctxs) := by
  obtain ⟨u, hldg, hoff, hexec⟩ := exec_streamDisable hdom hask hon
  have hen : (ldgStreamOff stream.val u).on F.LDG_STR_CTRL_EN stream.val = false := (ldgStreamOff_en _ _ _).trans hoff
  refine ⟨_, hexec, hen, ?_⟩
  rw [← hldg]
  refine ⟨fun hidle c hc => ldgStreamOff_none_queued hoff hidle hc, fun d hd hstream hsending => ⟨?_, fun c => nextRecord_disabled hen⟩,
    fun c hc hother hone => ldgStreamOff_keeps hoff hc hother hone⟩
  rw [ldgStreamOff_sending hd hstream hsending]

/-- Settles O35: EN of the Ledger, EN of a stream, and what O34 says of grants, stalls, pages and chunks. -/
theorem ledgerControl : Obligations.LedgerControl := by
  intro s hdom
  refine ⟨fun w hask hoff => ?_, fun w => completes_ledgerDisable hdom, fun stream w => ?_, fun stream w => exec_streamGrant stream hdom w,
    fun hclock stream => ⟨exec_stall_stalls stream hclock, fun c => exec_stallDiscard stream hclock⟩, fun hclock hthaw => ⟨?_, ?_⟩⟩
  · intro pages lo placed may
    have hmay : may ↔ ldgMayStart s = true := (ldgMayStart_iff s).symm
    refine ⟨fun hno => ?_, fun hyes hdrained => ?_, fun hyes hheld => ?_⟩
    · exact completes_ledgerEnable_refused hdom hask hoff (Bool.eq_false_iff.mpr (hmay.not.mp hno))
    · obtain ⟨t, hexec, hen, hldg, hrun, hregs⟩ := completes_ledgerEnable_drained hdom hask hoff (hmay.mp hyes) hdrained
      exact ⟨t, hexec, hen, hldg, hrun, hregs, completes_tierInitDone (by rw [hldg])⟩
    · exact completes_ledgerEnable_undrained hdom hask hoff (hmay.mp hyes) hheld
  · intro k first count body may
    have hmay : may ↔ streamMayStart s k (bit w.toNat 1) = true := (streamMayStart_iff s k _).symm
    refine ⟨fun hask hoff => ⟨fun hyes => ?_, fun hno => ?_⟩, completes_streamDisable hdom⟩
    · exact completes_streamEnable_starts hdom hask hoff (hmay.mp hyes)
    · exact completes_streamEnable_refused hdom hask hoff (Bool.eq_false_iff.mpr (hmay.not.mp hno))
  · intro i x f l e1 e2 hyields hi hleft hfull hone hcollect hneed hservice howns hbank
    obtain ⟨hroom, hpages⟩ := le_min_iff.mp hneed
    exact exec_pageWrite_clean hclock hthaw hyields hi hleft hfull hroom
      (ctxPlace_placed (ldgCtx_of_mem (List.mem_of_getElem? hi) hone) hpages hservice) hcollect howns hbank e1 e2
  · intro e1 e2 k x hk hx ktp hkeeps
    obtain ⟨t, hexec, hcredit, hstalled, -, hhand, -⟩ := completes_chunkSend_sends hclock hthaw hk hx e1 e2
    obtain ⟨bs, hbs⟩ := hhand hkeeps
    exact ⟨t, hexec, hcredit, hstalled, bs, _, hbs⟩

end Sys2Proof.Machine
end
